-- ==== Sys2Proof/Word.lean ====
section
/-! DEFINITION. The words of the K48 and the sparse map in which the model keeps every array.

Bit 0 is the least significant bit of a field, and multi-byte fields are little-endian (00 R3). -/

namespace Sys2Proof

/-- A register word: 32 bits, naturally aligned (03 Table 3.1). -/
abbrev Word := BitVec 32

/-- One byte. -/
abbrev Byte := BitVec 8

/-- A sparse array: keys strictly rising, no entry equal to what an unlisted key reads as. The
operations and the laws are in `Machine/SMap.lean` and `Laws/SMap.lean`. -/
abbrev SMap (α : Type) := List (Nat × α)

/-- Ceiling division (00 Notation). -/
def ceilDiv (a b : Nat) : Nat := (a + b - 1) / b

end Sys2Proof
end

