-- ==== Sys2Proof/Syntax.lean ====
section
/-! DEFINITION. The commands of the K48: one constructor of `Instr` for each row of the opcode table.

The table names no operands and gives no bits. The operands below are what the spec's text says a
command carries: who sends it, the address and value of a register access, the bytes of a
descriptor, flit, record or macro, the outcome of something outside the block (a sensor reading, a
training result, what a DMA read returned). A row that stands for an event inside the block carries
only what the event is about. -/

namespace Sys2Proof

/-- The masters of 03 Table 3.3; an access of MASTHEAD comes from one of the two management cores (05 R88). -/
inductive Master where
  | masthead (core : BitVec 1)
  | bmc | hostPf | fabric
  | vf (n : BitVec 7)
  deriving DecidableEq, Repr

/-- The memory agents of 05 R88: two Masthead cores and four Booms. -/
inductive Agent where
  | core (i : BitVec 1)
  | boom (k : BitVec 2)
  deriving DecidableEq, Repr

/-- A part of a function's configuration space, by what it says: the spec gives the parts no offsets (04 R55, R57). -/
inductive CfgField where
  | ids | classCode | subsystem
  /-- A word of a base address register: BAR0 low, BAR0 high, BAR2 low, BAR2 high; those of the VFs stand in the PF. -/
  | bar (w : BitVec 2)
  | vfBar (w : BitVec 2)
  /-- SR-IOV: the number of VFs, the first VF's offset and the stride. -/
  | sriov
  | capabilities
  /-- The maximum payload size and read request, as numbers of bytes; Link IDE enabled. -/
  | maxPayload | maxReadRequest | ide
  deriving DecidableEq, Repr

/-- Where a register access goes: a page of BAR0 (a VF's BAR0 shows the same pages, 03 R33), BAR2 of the PF or of
VF `n` (04 R57, R670), or the configuration space of function `fn`: 0 is the PF, n + 1 is VF n (04 R55). -/
inductive RegAddr where
  | page (p : BitVec 14) (off : BitVec 12)
  | msixPf (off : BitVec 16)
  | msixVf (n : BitVec 7) (off : BitVec 12)
  | config (fn : BitVec 8) (f : CfgField)
  deriving DecidableEq, Repr

/-- A memory tier (08). -/
inductive Tier where
  | near | far
  deriving DecidableEq, Repr

/-- A pool of frames (07 R137): a sealed partition's own, or the unreserved one. -/
inductive PoolId where
  | own (p : BitVec 7)
  | unreserved
  deriving DecidableEq, Repr

/-- What the K48's one read of host memory returned: `none` for a PCIe error. -/
abbrev HostRead (α : Type) := Option α

/-- Where a migration descriptor comes from (08 R166): an internal client's queue in the device region, at a DPA, or the host ring,
whose reads of the slot and of the source list the command gives. -/
inductive BurstSrc where
  | device (dpa : BitVec 43)
  | ring
  deriving DecidableEq, Repr

/-- A unit of 24 Table 24.3, by type code and index. -/
structure UnitId where
  type : Nat
  index : Nat
  sub : Nat := 0
  deriving DecidableEq, Repr

/-- The outcome of the residue or duplicate check of one operation (11 R250, 13 R308, 15 R369):
clean, one mismatch that passes on re-execution, or two mismatches; `dup` when the duplicated adder
or unit caused it, `at_` the checker's index. -/
structure Check where
  mismatches : BitVec 2
  dup : Bool
  at_ : Nat
  deriving DecidableEq, Repr

/-- A failure that work on a Spar met: a stream parity error (11 R257), an uncorrectable slot-table
entry (12 R285), store word (14 R342), bank word (11 R256), or memory line (08 R173). -/
inductive SparFault where
  | streamParity (sw : BitVec 4) (stream : Byte)
  | slotUe
  | storeUe (clew : BitVec 4) (slot : Byte)
  | bankUe (bank : Byte)
  | bankCe (bank : Byte) (words : Nat)
  | lineUe (dpa : Nat)
  deriving DecidableEq, Repr

/-- What an answer in a ring's identity exchange says (17 R404). -/
structure RingAnswer where
  handle : BitVec 16
  size : BitVec 6
  member : BitVec 5
  mirror : Bool
  coords : BitVec 16
  deriving DecidableEq, Repr

/-- Why a request ended on another ring member (17 R417). -/
inductive RingCause where
  | cancel | reset | release | flr | fault
  deriving DecidableEq, Repr

/-- A trained bundle's outcome (18 R449): lanes locked, and the duration. -/
structure TrainResult where
  lanes : BitVec 4
  us : Word
  deriving DecidableEq, Repr

/-- What a thermal evaluation reads of a unit: one temperature, in 1/4 °C,
and the reading of its paired sensor (23 R574, R580). -/
structure TempReading where
  temp : Int
  pair : Int
  deriving DecidableEq, Repr

/-- What a ring member's partial record says (17 R414): the rows' online records (13 Table 13.2); M as an FP32
word, κlo, κhi and the empty flag of each row of an ORDER-FREE pass's step 0; or the rows' ORDER-FREE records of
its step 1. `dim` is the head dimension's code. -/
inductive RingPartial where
  | online (dim : BitVec 2) (rows : List Byte)
  | maxes (rows : List (Word × Int × Int × Bool))
  | sums (dim : BitVec 2) (rows : List Byte)
  deriving DecidableEq, Repr

/-- A part of a CONTEXT (17 R426, step 3): the request's descriptor, its prompt's token IDs, the answer tokens so
far, the lengths of its shards, and pages streamed from the mirror (shard, page, scale record and page bytes);
`mirrorOk` is clear when a mirror line could not be read, `last` is set on the last part of a recovery; `resend` asks for
activations kept (17 R406): to the spare it names the previous stage's member, to that member the spare. -/
structure RingContext where
  desc : BitVec 1024
  tokens : List Word
  answer : List Word
  lengths : List Nat
  pages : List (Nat × Nat × List Byte)
  mirrorOk : Bool
  last : Bool
  resend : Option (BitVec 16)
  deriving DecidableEq, Repr

/-- The domains that enter idle states as one (23 R563): the banks of one holder on one Spar, the holder being a
sealed partition or the pool; the units of the other kinds; the package. -/
inductive IdleDomain where
  | yard (i : Nat) | luff (i : Nat) | clew (i : Nat) | boom (k : Nat)
  | banks (spar : Nat) (holder : Option Nat)
  | canvas (d : Nat)
  | package
  deriving DecidableEq, Repr

/-- One rail's reading in mV (23 R559). -/
abbrev MilliVolt := Nat

/-- SPDM requests, as far as the spec says what they do (25 R615). -/
inductive SpdmReq where
  | getVersion | getCapabilities | negotiateAlgorithms
  | getDigests | getCertificate (slot : BitVec 4)
  | challenge (slot : BitVec 4)
  | getMeasurements (index : Byte) (signed : Bool)
  | keyExchange (slot : BitVec 4)
  | finish (ok : Bool)
  deriving DecidableEq, Repr

/-- The commands: the rows of the opcode table, in its order. -/
inductive Instr where
  -- registers (03)
  -- `hi` is the upper half of a 64-bit access
  | registerWrite (m : Master) (a : RegAddr) (be : BitVec 4) (v : Word) (hi : Option (BitVec 4 × Word) := none)
  | rcRead (m : Master) (a : RegAddr) (be : BitVec 4) (hi : Option (BitVec 4))
  | fltLatchRead (m : Master) (p : BitVec 14) (be : BitVec 4)
  | conflictRead (m : Master) (p : BitVec 14) (be : BitVec 4)
  | ownerWrite (m : Master) (p : BitVec 14) (be : BitVec 4) (v : Word)
  | lock (m : Master) (p : BitVec 14) (be : BitVec 4) (v : Word)
  | softReset (m : Master) (p : BitVec 14) (be : BitVec 4) (v : Word)
  | irqForce (m : Master) (p : BitVec 14) (be : BitVec 4) (v : Word)
  | irqStatClear (m : Master) (p : BitVec 14) (be : BitVec 4) (v : Word)
  | ttlNowRead (m : Master) (be : BitVec 4)
  | faultAggregate
  | deqHead (m : Master) (be : BitVec 4) (v : Word)
  | deqEnable (m : Master) (be : BitVec 4) (v : Word)
  -- queues and descriptors (04)
  | sqDoorbell (m : Master) (p : BitVec 7) (q : BitVec 3) (be : BitVec 4) (v : Word)
  | eqDoorbell (m : Master) (p : BitVec 7) (e : BitVec 2) (be : BitVec 4) (v : Word)
  | sqEnable (m : Master) (p : BitVec 7) (q : BitVec 3) (be : BitVec 4) (v : Word)
  | sqDisable (m : Master) (p : BitVec 7) (q : BitVec 3) (be : BitVec 4) (v : Word)
  | eqEnable (m : Master) (p : BitVec 7) (e : BitVec 2) (be : BitVec 4) (v : Word)
  | eqDisable (m : Master) (p : BitVec 7) (e : BitVec 2) (be : BitVec 4) (v : Word)
  | fetchError (p : BitVec 7) (q : BitVec 3)
  | request (p : BitVec 7) (q : BitVec 3) (d : BitVec 1024) (frame : HostRead (List Word))
  | cancel (p : BitVec 7) (q : BitVec 3) (d : BitVec 1024)
  | nop (p : BitVec 7) (q : BitVec 3) (d : BitVec 1024)
  | loadModel (p : BitVec 7) (q : BitVec 3) (d : BitVec 1024) (image : HostRead (List Byte))
  | modelLoadComplete (p : BitVec 7) (handle : BitVec 16)
  | unloadModel (p : BitVec 7) (q : BitVec 3) (d : BitVec 1024)
  | unloadComplete (p : BitVec 7) (handle : BitVec 16)
  | outputRingReread (p : BitVec 7) (tag : BitVec 64) (consumed : HostRead Word)
  | moderationTimer (eq : Option (BitVec 7 × BitVec 2))
  | vfFlr (n : BitVec 7)
  | pfFlr
  | hotReset
  | dlDown
  -- memory ordering (05)
  | plainLoad (a : Agent) (dpa : BitVec 43) (len : Nat) (late : Bool)
  | plainStore (a : Agent) (dpa : BitVec 43) (data : List Byte) (late : Bool)
  | loadAcquire (a : Agent) (dpa : BitVec 43) (len : Nat)
  | storeRelease (a : Agent) (dpa : BitVec 43) (data : List Byte) (late : Bool)
  | sync (a : Agent)
  | syncComplete (a : Agent)
  -- partitions (06)
  | assign (m : Master) (p : BitVec 7) (be : BitVec 4)
  | commit (m : Master) (p : BitVec 7) (be : BitVec 4)
  | drain (m : Master) (p : BitVec 7) (be : BitVec 4)
  | drainDone (p : BitVec 7)
  | reset (m : Master) (p : BitVec 7) (be : BitVec 4)
  | resetDone (p : BitVec 7)
  | release (m : Master) (p : BitVec 7) (be : BitVec 4)
  | teardownComplete (p : BitVec 7)
  | keyFail (p : BitVec 7)
  | scrubComplete (frame : Nat) (ok : Bool)
  -- admission and steps (07)
  | deferredRerun (p : BitVec 7)
  | prefixLookup (p : BitVec 7) (tag : BitVec 64) (ue : Option Nat)
  -- `token` is answer token 1, where this step completes the prefill
  | prefillPageStep (p : BitVec 7) (tag : BitVec 64) (token : BitVec 18 := 0)
  | decodeStep (p : BitVec 7) (tag : BitVec 64) (token : BitVec 18)
      (masses : List (Nat × Nat × Nat)) (ue : Option Nat)
  | resume (p : BitVec 7) (tag : BitVec 64)
  | finalPass (p : BitVec 7) (tag : BitVec 64)
  -- migration (08)
  | promote (src : BurstSrc) (d : HostRead (BitVec 512)) (list : HostRead (List (BitVec 64)))
  | demote (src : BurstSrc) (d : HostRead (BitVec 512)) (list : HostRead (List (BitVec 64)))
  | copy (src : BurstSrc) (d : HostRead (BitVec 512)) (list : HostRead (List (BitVec 64)))
  | burstRecheck (pool : PoolId) (t : Tier)
  | pageCommit (tag : BitVec 64) (i : Nat) (ue : Bool)
  | pmgHrTail (m : Master) (be : BitVec 4) (v : Word)
  | pmgHrEnable (m : Master) (be : BitVec 4) (v : Word)
  | frameRetire (frame : Nat)
  | patrol (t : Tier) (u : BitVec 4)
  | bankRefresh (t : Tier) (u : BitVec 4) (temp : Int)
  | stackLost (t : Tier) (u : BitVec 4)
  | cipherFault (t : Tier) (u : BitVec 4)
  | memoryTrained (retried failed : List (Tier × BitVec 4)) (us : List Word)
  -- KV cache (09)
  | append (k : BitVec 2) (d : BitVec 512) (ue : Option Nat)
  | pin (entry : Nat) (gen : Byte)
  | unpin (entry : Nat)
  | heldReserve (pool : PoolId)
  | holdTimeout (pool : PoolId)
  -- splicing and reefing (10)
  | bind (m : Master) (be : BitVec 4) (slot : BitVec 6)
  | unbind (m : Master) (be : BitVec 4) (slot : BitVec 6)
  | slotFree (slot : BitVec 6)
  | agePeriod
  | reefSelect (pool : PoolId) (t : Tier)
  | pageDrop (entry : Nat)
  | pinHoldExpire (entry : Nat)
  -- Spar fabric and macros (11-14); a late macro is issued and not performed at once
  | planBind (p : BitVec 7) (handle : BitVec 16) (plan : BitVec 2) (spar : BitVec 2)
  | walkStart (spar : BitVec 2) (p : BitVec 7) (tags : List (BitVec 64)) (handle : BitVec 16)
      (walk : Nat)
  | gemm (spar : BitVec 2) (w : BitVec 6) (chk : Check) (f : Option SparFault) (late : Bool := false)
  | copyMacro (spar : BitVec 2) (w : BitVec 6) (f : Option SparFault) (late : Bool := false)
  | attn (spar : BitVec 2) (w : BitVec 6) (chk : Check) (f : Option SparFault) (late : Bool := false)
  | scatter (spar : BitVec 2) (w : BitVec 6) (late : Bool := false)
  | map (spar : BitVec 2) (w : BitVec 6) (f : Option SparFault) (late : Bool := false)
  | smaxMax (spar : BitVec 2) (w : BitVec 6) (f : Option SparFault) (late : Bool := false)
  | smaxSum (spar : BitVec 2) (w : BitVec 6) (f : Option SparFault) (late : Bool := false)
  | smaxOut (spar : BitVec 2) (w : BitVec 6) (f : Option SparFault) (late : Bool := false)
  | sample (spar : BitVec 2) (w : BitVec 6) (f : Option SparFault) (late : Bool := false)
  | normMax (spar : BitVec 2) (w : BitVec 6) (f : Option SparFault) (late : Bool := false)
  | normSum (spar : BitVec 2) (w : BitVec 6) (f : Option SparFault) (late : Bool := false)
  | normOut (spar : BitVec 2) (w : BitVec 6) (f : Option SparFault) (late : Bool := false)
  | send (spar : BitVec 2) (w : BitVec 6) (late : Bool := false)
  | recv (spar : BitVec 2) (w : BitVec 6) (late : Bool := false)
  | allreduce (spar : BitVec 2) (w : BitVec 6) (late : Bool := false)
  | allgather (spar : BitVec 2) (w : BitVec 6) (late : Bool := false)
  | gather (spar : BitVec 2) (w : BitVec 6) (late : Bool := false)
  | stats (spar : BitVec 2) (w : BitVec 6) (late : Bool := false)
  | macroRetire (spar : BitVec 2) (slot : BitVec 10)
  | bomTestStart (m : Master) (k : BitVec 2) (be : BitVec 4) (v : Word)
  | yardRetire (m : Master) (i : BitVec 5) (be : BitVec 4) (v : Word)
  | luffRetire (m : Master) (i : BitVec 3) (be : BitVec 4) (v : Word)
  | clewRetire (m : Master) (i : BitVec 4) (be : BitVec 4) (v : Word)
  | bankRetire (bank : Byte)
  -- Canvas (15, 16)
  | eval (die : BitVec 2) (p : BitVec 7) (tag : BitVec 64) (handle : BitVec 16) (job : Nat)
  | evaluationSlot (die : BitVec 2) (chk : Check)
  | retryRepeat (die : BitVec 2) (panel : BitVec 11)
  | programBatch (die : BitVec 2) (panel : BitVec 11) (failed : List (BitVec 10))
  | verifyRead (g : Byte) (bad : List (BitVec 5 × BitVec 10))
  | erase (g : Byte) (stuck : List (BitVec 5))
  | rereference (g : Byte) (temp : Int)
  | tempTrack (g : Byte) (temp : Int)
  | refresh (die : BitVec 2) (panel : BitVec 11)
  | sentinelVisit (die : BitVec 2) (panel : BitVec 11) (deviant : List (BitVec 10)) (refs : Bool)
  | spareProgram (die : BitVec 2) (panel : BitVec 11) (col : BitVec 10) (stuck : Bool)
  | rereferenceNow (m : Master) (g : Byte) (be : BitVec 4)
  | visitNow (m : Master) (g : Byte) (be : BitVec 4)
  -- rings (17)
  | form (m : Master) (k : BitVec 3) (be : BitVec 4)
  | formRetry (k : BitVec 3)
  | formAnswer (k : BitVec 3) (left : Bool) (a : RingAnswer)
  | formTimeout (k : BitVec 3)
  | dissolve (m : Master) (k : BitVec 3) (be : BitVec 4)
  | ready (k : BitVec 3) (member : BitVec 5) (tag : BitVec 64) (layer pages : Nat)
  | start (k : BitVec 3) (leader : BitVec 5) (t0 : BitVec 64) (d : Nat) (steps : Nat)
  | ringRelease (k : BitVec 3) (step : Nat) (stage : Bool := false)
  | stepDue (k : BitVec 3)
  | delay (k : BitVec 3) (member : BitVec 5) (step : Nat) (e : Nat)
  | sweep (k : BitVec 3) (tag : BitVec 64) (token : BitVec 18) (j : Nat) (shard : Nat)
      (rows : List Byte)
  | partialRecord (k : BitVec 3) (tag : BitVec 64) (member : BitVec 5) (r : RingPartial)
  | ringEnd (k : BitVec 3) (tag : BitVec 64) (cause : RingCause)
  | stepTimeout (k : BitVec 3)
  | barrierTimeout (k : BitVec 3) (member : BitVec 5)
  | stall (k : BitVec 3) (member : BitVec 5) (paired : Bool := false)
  | recoverTimeout (k : BitVec 3)
  | context (k : BitVec 3) (c : RingContext)
  | mirrorRows (k : BitVec 3) (tag : BitVec 64) (shard page slot : Nat) (scale rows : List Byte)
  | mirrorAck (entry : Nat) (valid : Nat)
  -- Glicor Link (18)
  | data (b : BitVec 4) (flit : BitVec 2048) (marked : Bool) (splice : Option Nat := none)
  | nak (b : BitVec 4) (flit : BitVec 2048)
  | replayTimeout (b : BitVec 4)
  | telltale (b : BitVec 4) (flit : BitVec 2048) (rx : BitVec 80)
  | linkTraining (b : BitVec 4) (r : TrainResult)
  | identityRecord (b : BitVec 4) (rec : BitVec 512)
  | identTimeout (b : BitVec 4)
  | retrain (b : BitVec 4)
  | los (b : BitVec 4) (lanes : BitVec 4)
  | retryLimit (b : BitVec 4)
  | replayFail (b : BitVec 4)
  | creditStall (b : BitVec 4) (vc : BitVec 3)
  | trainFail (b : BitVec 4)
  | berWarn (b : BitVec 4) (errors : Word)
  | segment (b : BitVec 4) (src : BitVec 16) (vc : BitVec 3) (header : BitVec 256)
      (data : List Byte) (crc : Word) (splice : Option Nat)
  | msgTimeout (spar : BitVec 2) (slot : BitVec 10)
  | holdDown (m : Master) (b : BitVec 4) (be : BitVec 4) (v : Word)
  | sheetWrite (m : Master) (be : BitVec 4) (v : Word)
  -- topology (19)
  | topCoordWrite (m : Master) (be : BitVec 4) (v : Word)
  | load (m : Master) (be : BitVec 4)
  | check (m : Master) (be : BitVec 4)
  | rigCheck (b : BitVec 4)
  | rigOk (b : BitVec 4)
  | rigTimeout
  | reach (coords : BitVec 16) (railsA railsB : BitVec 6)
  | arm (m : Master) (be : BitVec 4)
  | disarm (m : Master) (be : BitVec 4)
  | takeover (src : Option Master) (be : BitVec 4) (x : BitVec 16) (member : BitVec 16)
  | busy (slot : Byte) (x : BitVec 16) (failed : Bool := false)
  | fenceConfirm (leaf : BitVec 4)
  | rebindConfirm (leaf : BitVec 4)
  | settleEnd
  | confirmTimeout
  | taken (x : BitVec 16)
  -- Telltale (20)
  | eventFire
  | swevArm (m : Master) (s : BitVec 2) (be : BitVec 4) (v : Word)
  | lostTimeout
  | holdoverExpire
  | acquireEnd
  -- ratlines and clocks (21)
  | ratlineUnit (l : BitVec 6) (back : Bool) (seq : BitVec 12) (ack : BitVec 12) (crcOk : Bool)
      (lost : List (BitVec 7 × BitVec 64)) (ends : Option (Nat × Nat) := none) (part : Option (BitVec 7) := none)
  | ratlineReplayTimeout (l : BitVec 6) (back : Bool) (lost : List (BitVec 7 × BitVec 64))
  | laneTest (l : BitVec 6) (back : Bool)
  | laneTestEnd (l : BitVec 6) (back : Bool) (badLow badHigh : Nat) (lost : List (BitVec 7 × BitVec 64))
  | ratlineRetrain (l : BitVec 6) (badLow badHigh : Nat)
  | divisorChange (k : BitVec 2)
  | swDivisor (m : Master) (k : BitVec 2) (be : BitVec 4) (v : Word)
  | throttleOrder (m : Master) (be : BitVec 4) (v : Word)
  | refBad (ppm : BitVec 16)
  | pllUnlock
  -- resets and start-up (22)
  | por
  | perst
  | packageReset (m : Master) (be : BitVec 4)
  | dieCommand (m : Master) (be : BitVec 4) (die : Byte)
  | activate (m : Master) (be : BitVec 4)
  | watchdog
  | lockstepMismatch
  | dieReturn (die : BitVec 4) (failed : List UnitId) (retried badStacks : List (BitVec 1) := []) (us : List Word := [])
  | boot (failed : List UnitId)
  | startupComplete
  | conductWrite (m : Master) (be : BitVec 4) (v : Word)
  -- power and thermal (23)
  | warningCrossing (r : BitVec 4) (mv : MilliVolt)
  | releaseCrossing (r : BitVec 4) (mv : MilliVolt)
  | dipRecovered (r : BitVec 4)
  | resetCrossing (r : BitVec 4) (mv : MilliVolt)
  | dieSupplyRelease (r : BitVec 4) (mv : MilliVolt)
  | idleEntry (dom : IdleDomain)
  | idleExit (dom : IdleDomain)
  | holdoffExpire (dom : IdleDomain)
  | powerSample (watts : Nat)
  | controlPeriod
  | pwrCapWrite (m : Master) (be : BitVec 4) (v : Word)
  | thmLimitWrite (m : Master) (be : BitVec 4) (v : Word)
  | thermalEvaluation (readings : List (Nat × TempReading))
  | thermalTrip (u : Nat)
  -- faults (24)
  | selftest (u : UnitId) (ok : Bool)
  | selftestLate (u : UnitId)
  | memCe (m : Master) (be : BitVec 4) (v : Word)
  | memUe (m : Master) (be : BitVec 4) (v : Word)
  | linkCrc (m : Master) (be : BitVec 4) (v : Word)
  | ratlineCrc (m : Master) (be : BitVec 4) (v : Word)
  | residueTrans (m : Master) (be : BitVec 4) (v : Word)
  | residueHard (m : Master) (be : BitVec 4) (v : Word)
  | selftestFail (m : Master) (be : BitVec 4) (v : Word)
  | sentinelDev (m : Master) (be : BitVec 4) (v : Word)
  | lockstep (m : Master) (be : BitVec 4) (v : Word)
  | e2eCrc (m : Master) (be : BitVec 4) (v : Word)
  | restore (m : Master) (be : BitVec 4) (v : Word) (passes : Bool)
  -- management (25)
  | setEndpointId (op : Byte) (eid : Byte)
  | getEndpointId
  | getMctpVersionSupport (type : Byte)
  | getMessageTypeSupport
  | getTid
  | getPldmVersion (type : Byte)
  | getPldmTypes
  | getPldmCommands (type : Byte)
  | getSensorReading (sensor : BitVec 16)
  | getPdrRepositoryInfo
  | getPdr (record : Word)
  | requestUpdate
  | passComponentTable (classification identifier : BitVec 16) (stamp : Word)
  | updateComponent (size : Nat) (eraseOk : Bool)
  | requestFirmwareData (chunk : List Byte) (programOk : Bool)
  | activateFirmware (selfContained : Bool)
  | getInfo (payload : List Byte) (session : Option Nat)
  | setCoord (payload : List Byte) (session : Option Nat)
  | getCoord (payload : List Byte) (session : Option Nat)
  | rigPlan (payload : List Byte) (session : Option Nat)
  | rigStatus (payload : List Byte) (session : Option Nat)
  | powerOrder (payload : List Byte) (session : Option Nat)
  | powerStatus (payload : List Byte) (session : Option Nat)
  | faultPeek (payload : List Byte) (session : Option Nat)
  | faultLog (payload : List Byte) (session : Option Nat)
  | regRead (payload : List Byte) (session : Option Nat)
  | regWrite (payload : List Byte) (session : Option Nat)
  | resetCommand (payload : List Byte) (session : Option Nat)
  | jury (payload : List Byte) (session : Option Nat)
  | spdmRequest (r : SpdmReq) (doe : Bool)
  | sessionEnd (id : Nat)
  | smbTimeout
  | reassembly
  -- electrical (26)
  | powerDown
  | bypass
  | idcode
  | samplePreload
  | extest
  | clamp
  | highz
  | tapExit
  -- later rows
  | rngFail
  | usageEpoch (ue : Option (UnitId × List Nat) := none)
  | rngOk
  | idleFlit (b : BitVec 4) (flit : BitVec 2048)
  | pecError
  | pllLock
  | monFail (r : Option (BitVec 4))
  deriving DecidableEq, Repr

end Sys2Proof
end

