-- ==== Sys2Proof/Decode.lean ====
section
/-! DEFINITION. Decoding. The opcode table gives none of its rows any bits: commands are register
accesses, descriptors, flits, macros and events, and no word spells one. -/

namespace Sys2Proof

/-- The command a word spells by the table's bits: the table gives no row any bits. -/
def decodeTableWord (_nbits _w : Nat) : Option Instr := none

end Sys2Proof
end

