-- ==== Sys2Proof/Config.lean ====
section
/-! DEFINITION. What an implementation fixes, and the values the spec leaves open. None has a body:
nothing in Lean can evaluate one, and no proof can rest on its value. -/

namespace Sys2Proof

/-- What the SHAPE section of an image says (22 Table 22.9): the spec gives the section no layout. -/
structure ShapeInfo where
  layers : Nat
  qHeads : Nat
  kvHeads : Nat
  headDim : Nat
  vocab : Nat
  /-- The window of each layer, or 0. -/
  windows : List Nat
  deriving DecidableEq, Repr, Inhabited

/-- What the CLEW section of an image says (22 Table 22.9): the 256 step words, the start and length of
the 64 programs, the 64 constants, and the epilogue records of each Spar plan. -/
structure ClewInfo where
  steps : List Nat
  programs : List (Nat × Nat)
  consts : List Nat
  epis : List (List (BitVec 256))
  deriving DecidableEq, Repr, Inhabited

namespace Config

/-- The n-th free choice the machine makes: which of several free places, which of two neighbours. -/
opaque freeNat : Nat → Nat

/-- The n-th free byte: what a read of memory that is out of service returns (08 R174, R176). -/
opaque freeByte : Nat → Byte

/-- A byte written under a key pair that was overwritten, read under another: the number of the destruction and the DPA
(06 R119). -/
opaque garbled : Nat → Nat → Byte

/-- The refresh interval of a far channel in ticks, by its temperature readout in 1/4 °C: 08 R158 leaves it to the devices. -/
opaque farRefresh : Int → Nat

/-- The OTP serial (28 R662). -/
opaque otpSerial : BitVec 64

/-- The OTP security version of a part as delivered (22 R541, R558). -/
opaque otpSvn : Word

/-- Whether the release of a MASTHEAD_FW component supports a stepping (27 R650). -/
opaque fwSupports : List Byte → Nat → Bool

/-- The SHA-384 of the boot key in each OTP key slot, and whether the slot is revoked (22 R541). -/
opaque otpKey : Nat → BitVec 384
opaque otpRevoked : Nat → Bool

/-- The temperature coefficient of a Canvas die, FP16 per degree, in OTP (16 R385). -/
opaque otpTau : Nat → BitVec 16

/-- How far the analog charge of a column in one phase lies from its ideal value, in 1/16 unit charge:
panel, column, phase and the number of the measurement (15 R352, R354, 16 R393). -/
opaque charge : Nat → Nat → Nat → Nat → Int

/-- The Telltale error estimate that TTL_ERR reports (20 R508). -/
opaque ttlErr : Nat → Word

/-- The 8-byte scope identifier of a binding slot (slot number) or of a pair (64 + partition × 65,536 +
domain): the spec gives the identifiers no values (10 R212). -/
opaque scopeId : Nat → BitVec 64

/-- How many ppm the tick length is steered by, by the offset in 1/64 tick: the spec states only the limit and that
the offset is cancelled (20 R494). -/
opaque steer : Int → Nat

/-- The SHAPE section read (22 R545, R546). -/
opaque shape : List Byte → ShapeInfo

/-- The CLEW section read: the spec gives it no layout (14 R323, R325). -/
opaque clew : List Byte → ClewInfo

/-- Frames of working memory that LOAD_MODEL reserves for one prefill lane, by image digest: the spec
gives no size (13 R303). -/
opaque laneFrames : BitVec 384 → Nat

/-- The sign of a function's result that is exactly zero, by function code and argument, where 14
Table 14.3 gives none. -/
opaque zeroNeg : Nat → Nat → Bool

/-- Whether an exp2 of the online mode rounds up, by its argument m · 2^e: the spec bounds its error below
1 ulp (13 R294). -/
opaque exp2Up : Int → Int → Bool

/-- σ of an ORDER-FREE row whose MAX pass goes on from a record with a σ of its own: the record does not hold
the least and largest κv from which 13 R296 forms σ. -/
opaque sigmaMerge : Int → Int → Int

/-- What a conversion of an FP32 word to an integer format gives (format code, word): 14 R325 describes only
the floating-point formats. -/
opaque intOut : Nat → Nat → Nat

/-- c: the page cost of a layer in ticks, recorded in the model image at a place that the spec does not give: image
digest, layer (17 R411). -/
opaque pageCost : BitVec 384 → Nat → Nat

/-- What the sideband's standards leave to the part, and 25 does not state: the MCTP versions of a message type, the
PLDM version of a type, and the terminus ID (25 R608, R612). -/
opaque mctpVersions : Nat → List Byte
opaque pldmVersion : Nat → List Byte
opaque pldmTid : Byte

/-- The digest of the boot ROM (25 Table 25.6), the certificate chain of slot 0 by serial and measurements 2 to 7
(25 R615), and the n-th SPDM signature. -/
opaque romDigest : BitVec 384
opaque certChain : BitVec 64 → List (BitVec 384) → List Byte
opaque spdmSignature : Nat → Nat

end Config

/-- The Telltale phase, in ticks of 40 ms, at which the test of a Clew that a sealed partition holds runs: R587 says that it is fixed
at COMMIT, and not how (24). -/
opaque Config.testPhase : Nat → Nat

end Sys2Proof
end

