-- ==== Sys2Proof/Machine/SMap.lean ====
section
/-! DEFINITION. Sparse arrays in one canonical form: keys strictly rising, no entry equal to what an
unlisted key reads as. `d k` is what the unlisted key `k` reads as. -/

namespace Sys2Proof

/-- The value at `k`. -/
def SMap.get {α : Type} (d : Nat → α) (m : SMap α) (k : Nat) : α :=
  match m with
  | [] => d k
  | (j, v) :: rest => if j = k then v else SMap.get d rest k

/-- The entry at `k` removed. -/
def SMap.erase {α : Type} (m : SMap α) (k : Nat) : SMap α :=
  match m with
  | [] => []
  | (j, v) :: rest => if j = k then SMap.erase rest k else (j, v) :: SMap.erase rest k

/-- An entry put in its place by key; no entry at `k` is assumed. -/
def SMap.insert {α : Type} (m : SMap α) (k : Nat) (v : α) : SMap α :=
  match m with
  | [] => [(k, v)]
  | (j, w) :: rest => if k < j then (k, v) :: (j, w) :: rest else (j, w) :: SMap.insert rest k v

/-- The array with `v` at `k`: writing what an unlisted key reads as removes the entry. -/
def SMap.set {α : Type} [DecidableEq α] (d : Nat → α) (m : SMap α) (k : Nat) (v : α) : SMap α :=
  if v = d k then SMap.erase m k else SMap.insert (SMap.erase m k) k v

/-- The canonical form, decidable. -/
abbrev SMap.wf {α : Type} (d : Nat → α) (m : SMap α) : Prop :=
  m.Pairwise (fun a b => a.1 < b.1) ∧ ∀ e ∈ m, e.2 ≠ d e.1

/-- `f` applied at `k`. -/
def SMap.upd {α : Type} [DecidableEq α] (d : Nat → α) (m : SMap α) (k : Nat) (f : α → α) : SMap α :=
  SMap.set d m k (f (SMap.get d m k))

/-- Byte `a` of a byte memory that reads 0 where nothing is listed. -/
def SMap.byte (m : SMap Byte) (a : Nat) : Byte := SMap.get (fun _ => 0) m a

/-- `n` bytes from `a`, lowest address first. -/
def SMap.bytes (m : SMap Byte) (a : Nat) : Nat → List Byte
  | 0 => []
  | n + 1 => SMap.byte m a :: SMap.bytes m (a + 1) n

/-- Bytes written from `a` upwards. -/
def SMap.putBytes (m : SMap Byte) (a : Nat) : List Byte → SMap Byte
  | [] => m
  | b :: bs => SMap.putBytes (SMap.set (fun _ => 0) m a b) (a + 1) bs

/-- Every entry with its key in `[a, a + n)` removed. -/
def SMap.clearRange {α : Type} (m : SMap α) (a n : Nat) : SMap α :=
  m.filter fun e => !(a ≤ e.1 && e.1 < a + n)

/-- The little-endian number that bytes spell (00 R3). -/
def leNat : List Byte → Nat
  | [] => 0
  | b :: bs => b.toNat + 256 * leNat bs

/-- The `n` little-endian bytes of a number (00 R3). -/
def leBytes (v : Nat) : Nat → List Byte
  | 0 => []
  | n + 1 => BitVec.ofNat 8 v :: leBytes (v / 256) n

/-- Bits `[h:l]` of a number (00 R3). -/
def bitsOf (v h l : Nat) : Nat := (v >>> l) % 2 ^ (h + 1 - l)

/-- Bits `[h:l]` of a word replaced by `x`. -/
def putBits (w : Word) (h l x : Nat) : Word :=
  let m := (2 ^ (h + 1 - l) - 1) <<< l
  BitVec.ofNat 32 ((w.toNat &&& (0xFFFFFFFF - m)) ||| ((x <<< l) &&& m))

/-- Bits `[h:l]` of a word. -/
def getBits (w : Word) (h l : Nat) : Nat := bitsOf w.toNat h l

/-- One added, staying at 0xFFFF_FFFF (28 R660). -/
def satInc (w : Word) : Word := if w = 0xFFFFFFFF then w else w + 1

/-- `n` added, staying at 0xFFFF_FFFF (28 R660). -/
def satAdd (w : Word) (n : Nat) : Word := BitVec.ofNat 32 (min 0xFFFFFFFF (w.toNat + n))

end Sys2Proof
end

