-- ==== Sys2Proof/Machine/RegTable.lean ====
section
/-! DEFINITION. The register map of the K48: the page map (03 Table 3.2), the common header
(03 Tables 3.4 to 3.11) and every block register with its fields, access codes, reset values and
conservative directions, as the chapters' register tables and 28 Tables 28.4 to 28.10 give them. -/

namespace Sys2Proof.Machine

/-- The access codes of 00 Table 0.2. -/
inductive Acc where
  | ro | rw | rwl | wo | w1c | rc
  deriving DecidableEq, Repr

/-- The conservative direction of a safety-class field (03 R42); `set` is `higher`, `clear` is
`lower` on one bit. -/
inductive Dir where
  | none | lower | higher
  deriving DecidableEq, Repr

/-- A field `[hi:lo]` of a register. -/
structure Field where
  hi : Nat
  lo : Nat
  acc : Acc
  reset : Nat := 0
  dir : Dir := .none
  deriving DecidableEq, Repr

/-- A register, or an array of registers: `n1` copies `s1` bytes apart, each of `n2` words `s2`
bytes apart. -/
structure Reg where
  base : Nat
  n1 : Nat := 1
  s1 : Nat := 0x1000
  n2 : Nat := 1
  s2 : Nat := 0x1000
  fields : List Field
  deriving DecidableEq, Repr

/-- The blocks of 03 Table 3.2. -/
inductive Block where
  | dev | mst | clk | rst | pwr | thm | flt | ttl | adm | pci | sbd | sec | prt | dbl | spr | bom | yrd | luf | clw | kvp | sct | rfe | pmg | nrm | far | cnv | cpg | lnk | top | jry | shr | col
  deriving DecidableEq, Repr

/-- The block type codes of 28 Table 28.2. -/
def Block.code : Block → Nat
  | .dev => 0x1
  | .mst => 0x2
  | .clk => 0x3
  | .rst => 0x4
  | .pwr => 0x5
  | .thm => 0x6
  | .flt => 0x7
  | .ttl => 0x8
  | .adm => 0x9
  | .pci => 0xA
  | .sbd => 0xB
  | .sec => 0xC
  | .prt => 0x10
  | .dbl => 0x11
  | .spr => 0x20
  | .bom => 0x21
  | .yrd => 0x22
  | .luf => 0x23
  | .clw => 0x24
  | .kvp => 0x30
  | .sct => 0x31
  | .rfe => 0x32
  | .pmg => 0x33
  | .nrm => 0x40
  | .far => 0x41
  | .cnv => 0x50
  | .cpg => 0x51
  | .lnk => 0x60
  | .top => 0x61
  | .jry => 0x62
  | .shr => 0x63
  | .col => 0x64

/-- The pages of 03 Table 3.2: first page, block, number of pages. -/
def pageMap : List (Nat × Block × Nat) :=
  [(0x0, .dev, 1),
   (0x1, .mst, 1),
   (0x2, .clk, 1),
   (0x3, .rst, 1),
   (0x4, .pwr, 1),
   (0x5, .thm, 1),
   (0x6, .flt, 1),
   (0x7, .ttl, 1),
   (0x8, .adm, 1),
   (0x9, .pci, 1),
   (0xA, .sbd, 1),
   (0xB, .sec, 1),
   (0x10, .prt, 128),
   (0x90, .dbl, 128),
   (0x110, .spr, 4),
   (0x118, .bom, 4),
   (0x120, .yrd, 32),
   (0x140, .luf, 8),
   (0x148, .clw, 16),
   (0x158, .kvp, 1),
   (0x159, .sct, 1),
   (0x15A, .rfe, 1),
   (0x15B, .pmg, 1),
   (0x160, .nrm, 8),
   (0x168, .far, 16),
   (0x180, .cnv, 4),
   (0x184, .cpg, 64),
   (0x1D0, .lnk, 12),
   (0x1DC, .top, 1),
   (0x1DD, .jry, 1),
   (0x1DE, .shr, 1),
   (0x1DF, .col, 1)]

/-- The block and its index on page `p`; `none` for a reserved page (03 R32). -/
def blockOf (p : Nat) : Option (Block × Nat) :=
  (pageMap.find? fun e => e.1 ≤ p && p < e.1 + e.2.2).map fun e => (e.2.1, p - e.1)

/-- The key of the register at byte offset `off` of page `p`. -/
abbrev regKey (p off : Nat) : Nat := p * 1024 + off / 4

/-- The common header (03 R54). OWNER and BLK_ID reset per page. -/
def headerRegs : List Reg := [
  ⟨0x0, 1, 0x1000, 1, 0x1000, [⟨31, 16, .ro, 0x0, .none⟩, ⟨15, 0, .ro, 0x0, .none⟩]⟩,
  ⟨0x4, 1, 0x1000, 1, 0x1000, [⟨31, 24, .ro, 0x1, .none⟩, ⟨23, 16, .ro, 0x0, .none⟩, ⟨15, 8, .ro, 0x1, .none⟩]⟩,
  ⟨0x8, 1, 0x1000, 1, 0x1000, [⟨2, 2, .rwl, 0x0, .higher⟩, ⟨1, 1, .rwl, 0x0, .higher⟩, ⟨0, 0, .rwl, 0x0, .lower⟩]⟩,
  ⟨0xC, 1, 0x1000, 1, 0x1000, [⟨31, 8, .ro, 0x0, .none⟩, ⟨4, 4, .ro, 0x0, .none⟩, ⟨3, 3, .ro, 0x0, .none⟩, ⟨2, 2, .ro, 0x0, .none⟩, ⟨1, 1, .ro, 0x0, .none⟩, ⟨0, 0, .ro, 0x0, .none⟩]⟩,
  ⟨0x10, 1, 0x1000, 1, 0x1000, [⟨31, 0, .w1c, 0x0, .none⟩]⟩,
  ⟨0x14, 1, 0x1000, 1, 0x1000, [⟨31, 0, .rw, 0x0, .none⟩]⟩,
  ⟨0x18, 1, 0x1000, 1, 0x1000, [⟨31, 0, .wo, 0x0, .none⟩]⟩,
  ⟨0x1C, 1, 0x1000, 1, 0x1000, [⟨31, 31, .rc, 0x0, .none⟩, ⟨30, 0, .rc, 0x0, .none⟩]⟩,
  ⟨0x20, 1, 0x1000, 1, 0x1000, [⟨31, 31, .ro, 0x0, .none⟩, ⟨30, 0, .ro, 0x0, .none⟩]⟩,
  ⟨0x24, 1, 0x1000, 1, 0x1000, [⟨31, 27, .ro, 0x0, .none⟩, ⟨26, 0, .ro, 0x0, .none⟩]⟩,
  ⟨0x28, 1, 0x1000, 1, 0x1000, [⟨7, 0, .rwl, 0x0, .none⟩]⟩,
  ⟨0x2C, 1, 0x1000, 1, 0x1000, [⟨31, 31, .rc, 0x0, .none⟩, ⟨30, 30, .rc, 0x0, .none⟩, ⟨29, 29, .rc, 0x0, .none⟩, ⟨28, 28, .rc, 0x0, .none⟩, ⟨27, 20, .rc, 0x0, .none⟩, ⟨19, 12, .rc, 0x0, .none⟩, ⟨11, 2, .rc, 0x0, .none⟩]⟩]

/-- The DEV page: DEV_CONDUCT, DEV_LEVELS, DEV_SERIAL_LO, DEV_SERIAL_HI. -/
def regsDev : List Reg := [
  ⟨0x100, 1, 0x1000, 1, 0x1000, [⟨31, 31, .ro, 0x0, .none⟩, ⟨7, 0, .rw, 0x0, .none⟩]⟩,
  ⟨0x104, 1, 0x1000, 1, 0x1000, [⟨31, 0, .ro, 0x3, .none⟩]⟩,
  ⟨0x108, 1, 0x1000, 1, 0x1000, [⟨31, 0, .ro, 0x0, .none⟩]⟩,
  ⟨0x10C, 1, 0x1000, 1, 0x1000, [⟨31, 0, .ro, 0x0, .none⟩]⟩]

/-- The MST page: MST_DENY_CNT, MST_CFL_PAGE, MST_CFL_MASK, MST_CFL_CNT. -/
def regsMst : List Reg := [
  ⟨0x100, 1, 0x1000, 1, 0x1000, [⟨31, 0, .rc, 0x0, .none⟩]⟩,
  ⟨0x104, 1, 0x1000, 1, 0x1000, [⟨15, 0, .ro, 0x0, .none⟩]⟩,
  ⟨0x108, 1, 0x1000, 1, 0x1000, [⟨31, 0, .ro, 0x0, .none⟩]⟩,
  ⟨0x10C, 1, 0x1000, 1, 0x1000, [⟨31, 0, .rc, 0x0, .none⟩]⟩]

/-- The CLK page: CLK_STAT, CLK_REDIV_CNT, CLK_RL_THROT, CLK_FAB, CLK_RL_STAT, CLK_RL_RETRY_CNT, CLK_RL_CRC_CNT, CLK_RL_REPAIR_CNT. -/
def regsClk : List Reg := [
  ⟨0x100, 1, 0x1000, 1, 0x1000, [⟨31, 31, .ro, 0x0, .none⟩, ⟨30, 30, .ro, 0x0, .none⟩, ⟨15, 0, .ro, 0x0, .none⟩]⟩,
  ⟨0x104, 1, 0x1000, 1, 0x1000, [⟨31, 0, .rc, 0x0, .none⟩]⟩,
  ⟨0x108, 1, 0x1000, 1, 0x1000, [⟨1, 0, .rwl, 0x0, .higher⟩]⟩,
  ⟨0x110, 4, 0x4, 1, 0x1000, [⟨9, 8, .ro, 0x0, .none⟩, ⟨7, 6, .ro, 0x0, .none⟩, ⟨5, 4, .ro, 0x0, .none⟩, ⟨3, 2, .ro, 0x0, .none⟩, ⟨1, 0, .rwl, 0x0, .higher⟩]⟩,
  ⟨0x200, 38, 0x10, 1, 0x1000, [⟨31, 29, .ro, 0x0, .none⟩, ⟨28, 27, .ro, 0x0, .none⟩, ⟨26, 22, .ro, 0x0, .none⟩]⟩,
  ⟨0x204, 38, 0x10, 1, 0x1000, [⟨31, 0, .rc, 0x0, .none⟩]⟩,
  ⟨0x208, 38, 0x10, 1, 0x1000, [⟨31, 0, .rc, 0x0, .none⟩]⟩,
  ⟨0x20C, 38, 0x10, 1, 0x1000, [⟨31, 0, .rc, 0x0, .none⟩]⟩]

/-- The RST page: RST_STAT, RST_CMD, RST_TIME_US, RST_HIST, RST_DIE_LAST, RST_DIE_CNT, RST_SVN, RST_KEYS. -/
def regsRst : List Reg := [
  ⟨0x100, 1, 0x1000, 1, 0x1000, [⟨31, 31, .ro, 0x0, .none⟩, ⟨30, 28, .ro, 0x0, .none⟩, ⟨27, 27, .ro, 0x0, .none⟩, ⟨26, 26, .ro, 0x0, .none⟩, ⟨25, 25, .ro, 0x0, .none⟩, ⟨15, 8, .ro, 0x0, .none⟩]⟩,
  ⟨0x104, 1, 0x1000, 1, 0x1000, [⟨15, 8, .wo, 0x0, .none⟩, ⟨7, 0, .wo, 0x0, .none⟩]⟩,
  ⟨0x108, 1, 0x1000, 1, 0x1000, [⟨31, 0, .ro, 0x0, .none⟩]⟩,
  ⟨0x10C, 1, 0x1000, 1, 0x1000, [⟨31, 0, .ro, 0x0, .none⟩]⟩,
  ⟨0x110, 1, 0x1000, 1, 0x1000, [⟨15, 8, .ro, 0x0, .none⟩, ⟨7, 0, .ro, 0x0, .none⟩]⟩,
  ⟨0x114, 1, 0x1000, 1, 0x1000, [⟨31, 0, .rc, 0x0, .none⟩]⟩,
  ⟨0x118, 1, 0x1000, 1, 0x1000, [⟨31, 0, .ro, 0x0, .none⟩]⟩,
  ⟨0x11C, 1, 0x1000, 1, 0x1000, [⟨7, 4, .ro, 0x0, .none⟩, ⟨3, 0, .ro, 0x0, .none⟩]⟩]

/-- The PWR page: PWR_CAP, PWR_STAT, PWR_IDLE_EN, PWR_HOLDOFF, PWR_LEVEL_CNT, PWR_WAKE_LATE_CNT, PWR_DIP_CNT, PWR_ENTRY, PWR_RAIL_STAT, PWR_RAIL_DIP_CNT, PWR_RAIL_MIN. -/
def regsPwr : List Reg := [
  ⟨0x100, 1, 0x1000, 1, 0x1000, [⟨10, 0, .rwl, 0x47E, .lower⟩]⟩,
  ⟨0x104, 1, 0x1000, 1, 0x1000, [⟨31, 29, .ro, 0x0, .none⟩, ⟨28, 28, .ro, 0x0, .none⟩, ⟨27, 27, .ro, 0x0, .none⟩, ⟨15, 0, .ro, 0x0, .none⟩]⟩,
  ⟨0x108, 1, 0x1000, 1, 0x1000, [⟨4, 0, .rw, 0x1F, .none⟩]⟩,
  ⟨0x10C, 1, 0x1000, 1, 0x1000, [⟨31, 24, .rw, 0x64, .none⟩, ⟨23, 16, .rw, 0x5, .none⟩, ⟨15, 8, .rw, 0x32, .none⟩, ⟨7, 0, .rw, 0x14, .none⟩]⟩,
  ⟨0x110, 1, 0x1000, 1, 0x1000, [⟨31, 0, .rc, 0x0, .none⟩]⟩,
  ⟨0x114, 1, 0x1000, 1, 0x1000, [⟨31, 0, .rc, 0x0, .none⟩]⟩,
  ⟨0x118, 1, 0x1000, 1, 0x1000, [⟨31, 0, .rc, 0x0, .none⟩]⟩,
  ⟨0x184, 5, 0x4, 1, 0x1000, [⟨31, 0, .rc, 0x0, .none⟩]⟩,
  ⟨0x200, 12, 0x10, 1, 0x1000, [⟨31, 16, .ro, 0x0, .none⟩, ⟨2, 2, .ro, 0x0, .none⟩, ⟨1, 1, .ro, 0x0, .none⟩, ⟨0, 0, .ro, 0x0, .none⟩]⟩,
  ⟨0x204, 12, 0x10, 1, 0x1000, [⟨31, 0, .rc, 0x0, .none⟩]⟩,
  ⟨0x208, 12, 0x10, 1, 0x1000, [⟨15, 0, .rc, 0x0, .none⟩]⟩]

/-- The THM page: THM_LIMIT, THM_STAT, THM_STEP_CNT, THM_DIE. -/
def regsThm : List Reg := [
  ⟨0x100, 1, 0x1000, 1, 0x1000, [⟨23, 16, .rwl, 0x55, .lower⟩, ⟨15, 8, .rwl, 0x64, .lower⟩, ⟨7, 0, .rwl, 0x5F, .lower⟩]⟩,
  ⟨0x104, 1, 0x1000, 1, 0x1000, [⟨31, 31, .ro, 0x0, .none⟩, ⟨15, 0, .ro, 0x0, .none⟩]⟩,
  ⟨0x108, 1, 0x1000, 1, 0x1000, [⟨31, 0, .rc, 0x0, .none⟩]⟩,
  ⟨0x140, 12, 0x4, 1, 0x1000, [⟨31, 16, .ro, 0x0, .none⟩, ⟨2, 1, .ro, 0x0, .none⟩, ⟨0, 0, .ro, 0x0, .none⟩]⟩]

/-- The FLT page: FLT_STAT, FLT_SUSPECT_CNT, FLT_SUSPECT_LOST_CNT, FLT_SELFTEST_CNT, FLT_INJ_CTL, FLT_INJ_TGT, FLT_INJ_ARG_LO, FLT_INJ_ARG_HI, FLT_INJ_CMD, FLT_INJ_STAT, FLT_PEND, FLT_LOG. -/
def regsFlt : List Reg := [
  ⟨0x100, 1, 0x1000, 1, 0x1000, [⟨31, 16, .ro, 0x0, .none⟩, ⟨5, 0, .ro, 0x0, .none⟩]⟩,
  ⟨0x104, 1, 0x1000, 1, 0x1000, [⟨31, 0, .rc, 0x0, .none⟩]⟩,
  ⟨0x108, 1, 0x1000, 1, 0x1000, [⟨31, 0, .rc, 0x0, .none⟩]⟩,
  ⟨0x10C, 1, 0x1000, 1, 0x1000, [⟨31, 0, .rc, 0x0, .none⟩]⟩,
  ⟨0x110, 1, 0x1000, 1, 0x1000, [⟨0, 0, .rwl, 0x0, .none⟩]⟩,
  ⟨0x114, 1, 0x1000, 1, 0x1000, [⟨31, 24, .rw, 0x0, .none⟩, ⟨23, 0, .rw, 0x0, .none⟩]⟩,
  ⟨0x118, 1, 0x1000, 1, 0x1000, [⟨31, 0, .rw, 0x0, .none⟩]⟩,
  ⟨0x11C, 1, 0x1000, 1, 0x1000, [⟨31, 0, .rw, 0x0, .none⟩]⟩,
  ⟨0x120, 1, 0x1000, 1, 0x1000, [⟨15, 8, .wo, 0x0, .none⟩, ⟨7, 0, .wo, 0x0, .none⟩]⟩,
  ⟨0x124, 1, 0x1000, 1, 0x1000, [⟨31, 30, .ro, 0x0, .none⟩, ⟨29, 29, .ro, 0x0, .none⟩, ⟨7, 0, .ro, 0x0, .none⟩]⟩,
  ⟨0x200, 16, 0x4, 1, 0x1000, [⟨31, 0, .ro, 0x0, .none⟩]⟩,
  ⟨0x400, 64, 0x10, 4, 0x4, [⟨31, 0, .ro, 0x0, .none⟩]⟩]

/-- The TTL page: TTL_NOW_LO, TTL_NOW_HI, TTL_STAT, TTL_OFFSET, TTL_ERR, TTL_CFG, TTL_STEP_CNT, TTL_LOSS_CNT, TTL_EVT_FULL_CNT, TTL_SWEV_LO, TTL_SWEV_HI, TTL_SWEV_CTL, TTL_NEXT. -/
def regsTtl : List Reg := [
  ⟨0x100, 1, 0x1000, 1, 0x1000, [⟨31, 0, .ro, 0x0, .none⟩]⟩,
  ⟨0x104, 1, 0x1000, 1, 0x1000, [⟨31, 0, .ro, 0x0, .none⟩]⟩,
  ⟨0x108, 1, 0x1000, 1, 0x1000, [⟨31, 29, .ro, 0x0, .none⟩, ⟨28, 28, .ro, 0x0, .none⟩, ⟨27, 24, .ro, 0x0, .none⟩, ⟨23, 16, .ro, 0x0, .none⟩, ⟨15, 0, .ro, 0x0, .none⟩]⟩,
  ⟨0x10C, 1, 0x1000, 1, 0x1000, [⟨31, 0, .ro, 0x0, .none⟩]⟩,
  ⟨0x110, 1, 0x1000, 1, 0x1000, [⟨31, 0, .ro, 0x0, .none⟩]⟩,
  ⟨0x114, 1, 0x1000, 1, 0x1000, [⟨31, 31, .rw, 0x1, .none⟩, ⟨23, 16, .rw, 0x14, .none⟩, ⟨15, 8, .rw, 0x64, .none⟩, ⟨7, 0, .rw, 0x64, .none⟩]⟩,
  ⟨0x118, 1, 0x1000, 1, 0x1000, [⟨31, 0, .rc, 0x0, .none⟩]⟩,
  ⟨0x11C, 1, 0x1000, 1, 0x1000, [⟨31, 0, .rc, 0x0, .none⟩]⟩,
  ⟨0x120, 1, 0x1000, 1, 0x1000, [⟨31, 0, .rc, 0x0, .none⟩]⟩,
  ⟨0x140, 4, 0x10, 1, 0x1000, [⟨31, 0, .rw, 0x0, .none⟩]⟩,
  ⟨0x144, 4, 0x10, 1, 0x1000, [⟨31, 0, .rw, 0x0, .none⟩]⟩,
  ⟨0x148, 4, 0x10, 1, 0x1000, [⟨0, 0, .rw, 0x0, .none⟩]⟩,
  ⟨0x200, 10, 0x4, 1, 0x1000, [⟨31, 0, .ro, 0xFFFFFFFF, .none⟩]⟩]

/-- The ADM page: ADM_CFG, ADM_DEFERRED, ADM_PREEMPT_CNT, ADM_LANES, ADM_QUEUED, ADM_CHARGE, ADM_LIVE. -/
def regsAdm : List Reg := [
  ⟨0x100, 1, 0x1000, 1, 0x1000, [⟨7, 0, .rw, 0x20, .none⟩]⟩,
  ⟨0x104, 1, 0x1000, 1, 0x1000, [⟨15, 0, .ro, 0x0, .none⟩]⟩,
  ⟨0x108, 1, 0x1000, 1, 0x1000, [⟨31, 0, .rc, 0x0, .none⟩]⟩,
  ⟨0x400, 128, 0x10, 1, 0x1000, [⟨27, 24, .rw, 0x4, .none⟩, ⟨10, 0, .rw, 0x100, .none⟩]⟩,
  ⟨0x404, 128, 0x10, 1, 0x1000, [⟨31, 16, .ro, 0x0, .none⟩, ⟨15, 0, .ro, 0x0, .none⟩]⟩,
  ⟨0x408, 128, 0x10, 1, 0x1000, [⟨31, 0, .ro, 0x0, .none⟩]⟩,
  ⟨0x40C, 128, 0x10, 1, 0x1000, [⟨13, 0, .ro, 0x0, .none⟩]⟩]

/-- The PCI page: PCI_STAT, PCI_DEQ_BASE_LO, PCI_DEQ_BASE_HI, PCI_DEQ_CFG, PCI_DEQ_TAIL, PCI_DEQ_HEAD, PCI_DEQ_LOST_CNT. -/
def regsPci : List Reg := [
  ⟨0x100, 1, 0x1000, 1, 0x1000, [⟨31, 28, .ro, 0x0, .none⟩, ⟨27, 23, .ro, 0x0, .none⟩, ⟨22, 22, .ro, 0x0, .none⟩, ⟨21, 21, .ro, 0x0, .none⟩]⟩,
  ⟨0x110, 1, 0x1000, 1, 0x1000, [⟨31, 12, .rw, 0x0, .none⟩]⟩,
  ⟨0x114, 1, 0x1000, 1, 0x1000, [⟨31, 0, .rw, 0x0, .none⟩]⟩,
  ⟨0x118, 1, 0x1000, 1, 0x1000, [⟨31, 31, .rw, 0x0, .lower⟩, ⟨30, 30, .rw, 0x0, .none⟩, ⟨29, 29, .rw, 0x0, .none⟩, ⟨23, 16, .rw, 0x0, .none⟩, ⟨15, 12, .rw, 0x0, .none⟩, ⟨11, 0, .rw, 0x0, .none⟩]⟩,
  ⟨0x11C, 1, 0x1000, 1, 0x1000, [⟨15, 0, .ro, 0x0, .none⟩]⟩,
  ⟨0x120, 1, 0x1000, 1, 0x1000, [⟨15, 0, .rw, 0x0, .none⟩]⟩,
  ⟨0x124, 1, 0x1000, 1, 0x1000, [⟨31, 0, .rc, 0x0, .none⟩]⟩]

/-- The SBD page: SBD_CFG, SBD_STAT, SBD_RX_CNT, SBD_PEC_ERR_CNT, SBD_DROP_CNT. -/
def regsSbd : List Reg := [
  ⟨0x100, 1, 0x1000, 1, 0x1000, [⟨8, 8, .rwl, 0x0, .none⟩, ⟨6, 0, .rwl, 0x4D, .none⟩]⟩,
  ⟨0x104, 1, 0x1000, 1, 0x1000, [⟨31, 31, .ro, 0x0, .none⟩, ⟨26, 24, .ro, 0x0, .none⟩, ⟨7, 0, .ro, 0x0, .none⟩]⟩,
  ⟨0x108, 1, 0x1000, 1, 0x1000, [⟨31, 0, .rc, 0x0, .none⟩]⟩,
  ⟨0x10C, 1, 0x1000, 1, 0x1000, [⟨31, 0, .rc, 0x0, .none⟩]⟩,
  ⟨0x110, 1, 0x1000, 1, 0x1000, [⟨31, 0, .rc, 0x0, .none⟩]⟩]

/-- The SEC page: SEC_STAT, SEC_KEYGEN_CNT, SEC_RNG_FAIL_CNT. -/
def regsSec : List Reg := [
  ⟨0x100, 1, 0x1000, 1, 0x1000, [⟨31, 31, .ro, 0x0, .none⟩, ⟨23, 16, .ro, 0x0, .none⟩, ⟨7, 0, .ro, 0x0, .none⟩]⟩,
  ⟨0x104, 1, 0x1000, 1, 0x1000, [⟨31, 0, .rc, 0x0, .none⟩]⟩,
  ⟨0x108, 1, 0x1000, 1, 0x1000, [⟨31, 0, .rc, 0x0, .none⟩]⟩]

/-- The PRT page: PRT_STATE, PRT_CMD, PRT_CFG, PRT_KEYGEN, PRT_YRD_MASK, PRT_LUF_MASK, PRT_CLW_MASK, PRT_CPG_MASK, PRT_BANK_MASK, PRT_SLOTS, PRT_CNV_CONC, PRT_BW, PRT_NEAR_QUOTA, PRT_FAR_QUOTA, PRT_SCRUB_PEND, PRT_SQ_BASE_LO, PRT_SQ_BASE_HI, PRT_SQ_CFG, PRT_SQ_HEAD, PRT_EQ_BASE_LO, PRT_EQ_BASE_HI, PRT_EQ_CFG, PRT_EQ_TAIL. -/
def regsPrt : List Reg := [
  ⟨0x100, 1, 0x1000, 1, 0x1000, [⟨15, 8, .ro, 0x0, .none⟩, ⟨5, 5, .ro, 0x0, .none⟩, ⟨4, 4, .ro, 0x0, .none⟩, ⟨3, 3, .ro, 0x0, .none⟩, ⟨2, 0, .ro, 0x0, .none⟩]⟩,
  ⟨0x104, 1, 0x1000, 1, 0x1000, [⟨7, 0, .wo, 0x0, .none⟩]⟩,
  ⟨0x108, 1, 0x1000, 1, 0x1000, [⟨2, 2, .rw, 0x0, .lower⟩, ⟨1, 1, .rw, 0x0, .none⟩, ⟨0, 0, .rw, 0x0, .none⟩]⟩,
  ⟨0x10C, 1, 0x1000, 1, 0x1000, [⟨31, 0, .ro, 0x0, .none⟩]⟩,
  ⟨0x110, 1, 0x1000, 1, 0x1000, [⟨31, 0, .rw, 0x0, .none⟩]⟩,
  ⟨0x114, 1, 0x1000, 1, 0x1000, [⟨7, 0, .rw, 0x0, .none⟩]⟩,
  ⟨0x118, 1, 0x1000, 1, 0x1000, [⟨15, 0, .rw, 0x0, .none⟩]⟩,
  ⟨0x120, 8, 0x4, 1, 0x1000, [⟨31, 0, .rw, 0x0, .none⟩]⟩,
  ⟨0x140, 6, 0x4, 1, 0x1000, [⟨31, 0, .rw, 0x0, .none⟩]⟩,
  ⟨0x160, 1, 0x1000, 1, 0x1000, [⟨31, 0, .rw, 0x0, .none⟩]⟩,
  ⟨0x164, 1, 0x1000, 1, 0x1000, [⟨31, 0, .rw, 0x0, .none⟩]⟩,
  ⟨0x168, 1, 0x1000, 1, 0x1000, [⟨31, 24, .rw, 0x0, .none⟩, ⟨23, 16, .rw, 0x0, .none⟩, ⟨15, 8, .rw, 0x0, .none⟩]⟩,
  ⟨0x16C, 1, 0x1000, 1, 0x1000, [⟨31, 0, .rw, 0x0, .none⟩]⟩,
  ⟨0x170, 1, 0x1000, 1, 0x1000, [⟨31, 0, .rw, 0x0, .none⟩]⟩,
  ⟨0x174, 1, 0x1000, 1, 0x1000, [⟨31, 0, .ro, 0x0, .none⟩]⟩,
  ⟨0x200, 8, 0x10, 1, 0x1000, [⟨31, 12, .rw, 0x0, .none⟩]⟩,
  ⟨0x204, 8, 0x10, 1, 0x1000, [⟨31, 0, .rw, 0x0, .none⟩]⟩,
  ⟨0x208, 8, 0x10, 1, 0x1000, [⟨31, 31, .rw, 0x0, .lower⟩, ⟨30, 30, .ro, 0x0, .none⟩, ⟨17, 16, .rw, 0x0, .none⟩, ⟨15, 12, .rw, 0x0, .none⟩]⟩,
  ⟨0x20C, 8, 0x10, 1, 0x1000, [⟨11, 0, .ro, 0x0, .none⟩]⟩,
  ⟨0x280, 4, 0x10, 1, 0x1000, [⟨31, 12, .rw, 0x0, .none⟩]⟩,
  ⟨0x284, 4, 0x10, 1, 0x1000, [⟨31, 0, .rw, 0x0, .none⟩]⟩,
  ⟨0x288, 4, 0x10, 1, 0x1000, [⟨31, 31, .rw, 0x0, .lower⟩, ⟨30, 30, .rw, 0x0, .none⟩, ⟨29, 29, .rw, 0x0, .none⟩, ⟨23, 16, .rw, 0x0, .none⟩, ⟨15, 12, .rw, 0x0, .none⟩, ⟨11, 0, .rw, 0x0, .none⟩]⟩,
  ⟨0x28C, 4, 0x10, 1, 0x1000, [⟨15, 0, .ro, 0x0, .none⟩]⟩]

/-- The DBL page: DBL_SQ, DBL_EQ. -/
def regsDbl : List Reg := [
  ⟨0x100, 8, 0x4, 1, 0x1000, [⟨11, 0, .rw, 0x0, .none⟩]⟩,
  ⟨0x120, 4, 0x4, 1, 0x1000, [⟨15, 0, .rw, 0x0, .none⟩]⟩]

/-- The SPR page: SPR_STAT, SPR_PLAN_ID_LO, SPR_PLAN_ID_HI, SPR_BANK_CE_CNT, SPR_STREAM_ERR_CNT, SPR_SLOTS_FREE, SPR_BANK. -/
def regsSpr : List Reg := [
  ⟨0x100, 1, 0x1000, 1, 0x1000, [⟨23, 16, .ro, 0x0, .none⟩, ⟨15, 8, .ro, 0x0, .none⟩, ⟨3, 0, .ro, 0x0, .none⟩]⟩,
  ⟨0x104, 1, 0x1000, 1, 0x1000, [⟨31, 0, .ro, 0x0, .none⟩]⟩,
  ⟨0x108, 1, 0x1000, 1, 0x1000, [⟨31, 0, .ro, 0x0, .none⟩]⟩,
  ⟨0x10C, 1, 0x1000, 1, 0x1000, [⟨31, 0, .rc, 0x0, .none⟩]⟩,
  ⟨0x110, 1, 0x1000, 1, 0x1000, [⟨31, 0, .rc, 0x0, .none⟩]⟩,
  ⟨0x114, 1, 0x1000, 1, 0x1000, [⟨5, 0, .ro, 0x0, .none⟩]⟩,
  ⟨0x140, 48, 0x4, 1, 0x1000, [⟨2, 2, .ro, 0x0, .none⟩, ⟨1, 1, .ro, 0x0, .none⟩, ⟨0, 0, .ro, 0x0, .none⟩]⟩]

/-- The BOM page: BOM_STAT, BOM_CFG, BOM_ISSUE_CNT, BOM_STALL_CNT, BOM_HAZARD_CNT, BOM_UNRES, BOM_TEST_LO, BOM_TEST_HI, BOM_TEST_CMD, BOM_TEST_STAT, BOM_INFLIGHT, BOM_ROT. -/
def regsBom : List Reg := [
  ⟨0x100, 1, 0x1000, 1, 0x1000, [⟨31, 31, .ro, 0x0, .none⟩, ⟨30, 24, .ro, 0x0, .none⟩, ⟨10, 0, .ro, 0x0, .none⟩]⟩,
  ⟨0x104, 1, 0x1000, 1, 0x1000, [⟨7, 0, .rw, 0x20, .none⟩]⟩,
  ⟨0x108, 1, 0x1000, 1, 0x1000, [⟨31, 0, .rc, 0x0, .none⟩]⟩,
  ⟨0x10C, 1, 0x1000, 1, 0x1000, [⟨31, 0, .rc, 0x0, .none⟩]⟩,
  ⟨0x110, 1, 0x1000, 1, 0x1000, [⟨31, 0, .rc, 0x0, .none⟩]⟩,
  ⟨0x114, 1, 0x1000, 1, 0x1000, [⟨10, 0, .ro, 0x400, .none⟩]⟩,
  ⟨0x180, 1, 0x1000, 1, 0x1000, [⟨31, 0, .rw, 0x0, .none⟩]⟩,
  ⟨0x184, 1, 0x1000, 1, 0x1000, [⟨31, 0, .rw, 0x0, .none⟩]⟩,
  ⟨0x188, 1, 0x1000, 1, 0x1000, [⟨31, 16, .wo, 0x0, .none⟩, ⟨15, 8, .wo, 0x0, .none⟩, ⟨0, 0, .wo, 0x0, .none⟩]⟩,
  ⟨0x18C, 1, 0x1000, 1, 0x1000, [⟨31, 31, .ro, 0x0, .none⟩, ⟨7, 0, .ro, 0x0, .none⟩]⟩,
  ⟨0x200, 128, 0x4, 1, 0x1000, [⟨10, 0, .ro, 0x0, .none⟩]⟩,
  ⟨0x400, 32, 0x4, 1, 0x1000, [⟨31, 0, .ro, 0xFFFFFFFF, .none⟩]⟩]

/-- The YRD page: YRD_STAT, YRD_CTL, YRD_STEP_CNT, YRD_RES_TRANS_CNT, YRD_SAT_CNT, YRD_NAN_CNT. -/
def regsYrd : List Reg := [
  ⟨0x100, 1, 0x1000, 1, 0x1000, [⟨31, 31, .ro, 0x0, .none⟩, ⟨30, 30, .ro, 0x0, .none⟩, ⟨7, 0, .ro, 0xFF, .none⟩]⟩,
  ⟨0x104, 1, 0x1000, 1, 0x1000, [⟨0, 0, .rwl, 0x0, .higher⟩]⟩,
  ⟨0x108, 1, 0x1000, 1, 0x1000, [⟨31, 0, .rc, 0x0, .none⟩]⟩,
  ⟨0x10C, 1, 0x1000, 1, 0x1000, [⟨31, 0, .rc, 0x0, .none⟩]⟩,
  ⟨0x110, 1, 0x1000, 1, 0x1000, [⟨31, 0, .rc, 0x0, .none⟩]⟩,
  ⟨0x114, 1, 0x1000, 1, 0x1000, [⟨31, 0, .rc, 0x0, .none⟩]⟩]

/-- The LUF page: LUF_STAT, LUF_CTL, LUF_BLOCK_CNT, LUF_SKIP_CNT, LUF_PAGE_CNT, LUF_RES_TRANS_CNT, LUF_NAN_CNT. -/
def regsLuf : List Reg := [
  ⟨0x100, 1, 0x1000, 1, 0x1000, [⟨31, 31, .ro, 0x0, .none⟩, ⟨30, 30, .ro, 0x0, .none⟩, ⟨7, 0, .ro, 0xFF, .none⟩]⟩,
  ⟨0x104, 1, 0x1000, 1, 0x1000, [⟨0, 0, .rwl, 0x0, .higher⟩]⟩,
  ⟨0x108, 1, 0x1000, 1, 0x1000, [⟨31, 0, .rc, 0x0, .none⟩]⟩,
  ⟨0x10C, 1, 0x1000, 1, 0x1000, [⟨31, 0, .rc, 0x0, .none⟩]⟩,
  ⟨0x110, 1, 0x1000, 1, 0x1000, [⟨31, 0, .rc, 0x0, .none⟩]⟩,
  ⟨0x114, 1, 0x1000, 1, 0x1000, [⟨31, 0, .rc, 0x0, .none⟩]⟩,
  ⟨0x118, 1, 0x1000, 1, 0x1000, [⟨31, 0, .rc, 0x0, .none⟩]⟩]

/-- The CLW page: CLW_STAT, CLW_CTL, CLW_ELEM_CNT, CLW_NAN_CNT, CLW_SAT_CNT, CLW_SAMPLE_CNT. -/
def regsClw : List Reg := [
  ⟨0x100, 1, 0x1000, 1, 0x1000, [⟨31, 31, .ro, 0x0, .none⟩, ⟨30, 30, .ro, 0x0, .none⟩, ⟨29, 29, .ro, 0x0, .none⟩, ⟨14, 8, .ro, 0x0, .none⟩, ⟨7, 0, .ro, 0xFF, .none⟩]⟩,
  ⟨0x104, 1, 0x1000, 1, 0x1000, [⟨0, 0, .rwl, 0x0, .higher⟩]⟩,
  ⟨0x108, 1, 0x1000, 1, 0x1000, [⟨31, 0, .rc, 0x0, .none⟩]⟩,
  ⟨0x10C, 1, 0x1000, 1, 0x1000, [⟨31, 0, .rc, 0x0, .none⟩]⟩,
  ⟨0x110, 1, 0x1000, 1, 0x1000, [⟨31, 0, .rc, 0x0, .none⟩]⟩,
  ⟨0x114, 1, 0x1000, 1, 0x1000, [⟨31, 0, .rc, 0x0, .none⟩]⟩]

/-- The KVP page: KVP_WATER, KVP_CFG, KVP_STAT, KVP_NEAR_FREE, KVP_FAR_FREE, KVP_SAT_CNT, KVP_HOLD_END_CNT, KVP_PIN_WAIT_CNT, KVP_NEAR, KVP_FAR. -/
def regsKvp : List Reg := [
  ⟨0x100, 1, 0x1000, 1, 0x1000, [⟨25, 16, .rw, 0xA, .none⟩, ⟨9, 0, .rw, 0x28, .none⟩]⟩,
  ⟨0x104, 1, 0x1000, 1, 0x1000, [⟨7, 0, .rw, 0x14, .none⟩]⟩,
  ⟨0x108, 1, 0x1000, 1, 0x1000, [⟨31, 31, .ro, 0x0, .none⟩, ⟨30, 30, .ro, 0x0, .none⟩, ⟨29, 29, .ro, 0x0, .none⟩, ⟨28, 28, .ro, 0x0, .none⟩, ⟨15, 0, .ro, 0x0, .none⟩]⟩,
  ⟨0x10C, 1, 0x1000, 1, 0x1000, [⟨31, 0, .ro, 0x0, .none⟩]⟩,
  ⟨0x110, 1, 0x1000, 1, 0x1000, [⟨31, 0, .ro, 0x0, .none⟩]⟩,
  ⟨0x114, 1, 0x1000, 1, 0x1000, [⟨31, 0, .rc, 0x0, .none⟩]⟩,
  ⟨0x118, 1, 0x1000, 1, 0x1000, [⟨31, 0, .rc, 0x0, .none⟩]⟩,
  ⟨0x11C, 1, 0x1000, 1, 0x1000, [⟨31, 0, .rc, 0x0, .none⟩]⟩,
  ⟨0x400, 128, 0x8, 1, 0x1000, [⟨31, 0, .ro, 0x0, .none⟩]⟩,
  ⟨0x404, 128, 0x8, 1, 0x1000, [⟨31, 0, .ro, 0x0, .none⟩]⟩]

/-- The SCT page: SCT_STAT, SCT_DONE, SCT_TOKENS, SCT_OPEN. -/
def regsSct : List Reg := [
  ⟨0x100, 4, 0x10, 1, 0x1000, [⟨5, 0, .ro, 0x0, .none⟩]⟩,
  ⟨0x104, 4, 0x10, 1, 0x1000, [⟨31, 0, .rc, 0x0, .none⟩]⟩,
  ⟨0x108, 4, 0x10, 1, 0x1000, [⟨31, 0, .rc, 0x0, .none⟩]⟩,
  ⟨0x10C, 4, 0x10, 1, 0x1000, [⟨31, 0, .rc, 0x0, .none⟩]⟩]

/-- The RFE page: RFE_CFG, RFE_THRESH, RFE_PIN_HOLD, RFE_STAT, RFE_DEMOTE_CNT, RFE_DROP_CNT, RFE_PROMOTE_CNT, RFE_REDIRECT_CNT, RFE_SPLICE_CNT, RFE_COW_CNT, RFE_COLLIDE_CNT, RFE_SKEW_CNT, RFE_BIND_CMD, RFE_BIND_ERR, RFE_BIND_CTL, RFE_BIND_MASK. -/
def regsRfe : List Reg := [
  ⟨0x100, 1, 0x1000, 1, 0x1000, [⟨23, 16, .rw, 0xA, .none⟩, ⟨7, 4, .rw, 0x6, .none⟩, ⟨3, 0, .rw, 0x4, .none⟩]⟩,
  ⟨0x104, 1, 0x1000, 1, 0x1000, [⟨31, 16, .rw, 0x3400, .none⟩, ⟨9, 0, .rw, 0xA, .none⟩]⟩,
  ⟨0x108, 1, 0x1000, 1, 0x1000, [⟨15, 0, .rw, 0x64, .none⟩]⟩,
  ⟨0x10C, 1, 0x1000, 1, 0x1000, [⟨31, 31, .ro, 0x0, .none⟩, ⟨30, 30, .ro, 0x0, .none⟩, ⟨29, 29, .ro, 0x0, .none⟩, ⟨28, 28, .ro, 0x0, .none⟩, ⟨20, 0, .ro, 0x0, .none⟩]⟩,
  ⟨0x110, 1, 0x1000, 1, 0x1000, [⟨31, 0, .rc, 0x0, .none⟩]⟩,
  ⟨0x114, 1, 0x1000, 1, 0x1000, [⟨31, 0, .rc, 0x0, .none⟩]⟩,
  ⟨0x118, 1, 0x1000, 1, 0x1000, [⟨31, 0, .rc, 0x0, .none⟩]⟩,
  ⟨0x11C, 1, 0x1000, 1, 0x1000, [⟨31, 0, .rc, 0x0, .none⟩]⟩,
  ⟨0x120, 1, 0x1000, 1, 0x1000, [⟨31, 0, .rc, 0x0, .none⟩]⟩,
  ⟨0x124, 1, 0x1000, 1, 0x1000, [⟨31, 0, .rc, 0x0, .none⟩]⟩,
  ⟨0x128, 1, 0x1000, 1, 0x1000, [⟨31, 0, .rc, 0x0, .none⟩]⟩,
  ⟨0x12C, 1, 0x1000, 1, 0x1000, [⟨31, 0, .rc, 0x0, .none⟩]⟩,
  ⟨0x130, 1, 0x1000, 1, 0x1000, [⟨15, 8, .wo, 0x0, .none⟩, ⟨5, 0, .wo, 0x0, .none⟩]⟩,
  ⟨0x134, 1, 0x1000, 1, 0x1000, [⟨7, 0, .ro, 0x0, .none⟩]⟩,
  ⟨0x400, 64, 0x20, 1, 0x1000, [⟨31, 31, .ro, 0x0, .none⟩, ⟨30, 30, .ro, 0x0, .none⟩, ⟨15, 0, .rw, 0x0, .none⟩]⟩,
  ⟨0x404, 64, 0x20, 4, 0x4, [⟨31, 0, .rw, 0x0, .none⟩]⟩]

/-- The PMG page: PMG_STAT, PMG_DEFER_CNT, PMG_DONE_CNT, PMG_HR_BASE_LO, PMG_HR_BASE_HI, PMG_HR_CFG, PMG_HR_TAIL, PMG_HR_HEAD. -/
def regsPmg : List Reg := [
  ⟨0x100, 1, 0x1000, 1, 0x1000, [⟨31, 31, .ro, 0x0, .none⟩, ⟨20, 16, .ro, 0x0, .none⟩, ⟨15, 0, .ro, 0x0, .none⟩]⟩,
  ⟨0x104, 1, 0x1000, 1, 0x1000, [⟨31, 0, .rc, 0x0, .none⟩]⟩,
  ⟨0x108, 1, 0x1000, 1, 0x1000, [⟨31, 0, .rc, 0x0, .none⟩]⟩,
  ⟨0x110, 1, 0x1000, 1, 0x1000, [⟨31, 12, .rw, 0x0, .none⟩]⟩,
  ⟨0x114, 1, 0x1000, 1, 0x1000, [⟨31, 0, .rw, 0x0, .none⟩]⟩,
  ⟨0x118, 1, 0x1000, 1, 0x1000, [⟨31, 31, .rw, 0x0, .lower⟩, ⟨15, 12, .rw, 0x0, .none⟩]⟩,
  ⟨0x11C, 1, 0x1000, 1, 0x1000, [⟨9, 0, .rw, 0x0, .none⟩]⟩,
  ⟨0x120, 1, 0x1000, 1, 0x1000, [⟨9, 0, .ro, 0x0, .none⟩]⟩]

/-- The NRM page: NRM_STAT, NRM_CE_CNT, NRM_UE_CNT, NRM_ERR_DPA_LO, NRM_ERR_DPA_HI, NRM_RETIRED, NRM_TRAIN_US, NRM_PATROL. -/
def regsNrm : List Reg := [
  ⟨0x100, 1, 0x1000, 1, 0x1000, [⟨31, 16, .ro, 0x0, .none⟩, ⟨2, 2, .ro, 0x0, .none⟩, ⟨1, 1, .ro, 0x0, .none⟩, ⟨0, 0, .ro, 0x0, .none⟩]⟩,
  ⟨0x104, 1, 0x1000, 1, 0x1000, [⟨31, 0, .rc, 0x0, .none⟩]⟩,
  ⟨0x108, 1, 0x1000, 1, 0x1000, [⟨31, 0, .rc, 0x0, .none⟩]⟩,
  ⟨0x10C, 1, 0x1000, 1, 0x1000, [⟨31, 0, .ro, 0x0, .none⟩]⟩,
  ⟨0x110, 1, 0x1000, 1, 0x1000, [⟨9, 0, .ro, 0x0, .none⟩]⟩,
  ⟨0x114, 1, 0x1000, 1, 0x1000, [⟨31, 0, .ro, 0x0, .none⟩]⟩,
  ⟨0x118, 1, 0x1000, 1, 0x1000, [⟨31, 0, .ro, 0x0, .none⟩]⟩,
  ⟨0x11C, 1, 0x1000, 1, 0x1000, [⟨31, 0, .ro, 0x0, .none⟩]⟩]

/-- The FAR page: FAR_STAT, FAR_CE_CNT, FAR_UE_CNT, FAR_ERR_DPA_LO, FAR_ERR_DPA_HI, FAR_RETIRED, FAR_TRAIN_US, FAR_PATROL. -/
def regsFar : List Reg := [
  ⟨0x100, 1, 0x1000, 1, 0x1000, [⟨31, 16, .ro, 0x0, .none⟩, ⟨2, 2, .ro, 0x0, .none⟩, ⟨1, 1, .ro, 0x0, .none⟩, ⟨0, 0, .ro, 0x0, .none⟩]⟩,
  ⟨0x104, 1, 0x1000, 1, 0x1000, [⟨31, 0, .rc, 0x0, .none⟩]⟩,
  ⟨0x108, 1, 0x1000, 1, 0x1000, [⟨31, 0, .rc, 0x0, .none⟩]⟩,
  ⟨0x10C, 1, 0x1000, 1, 0x1000, [⟨31, 0, .ro, 0x0, .none⟩]⟩,
  ⟨0x110, 1, 0x1000, 1, 0x1000, [⟨9, 0, .ro, 0x0, .none⟩]⟩,
  ⟨0x114, 1, 0x1000, 1, 0x1000, [⟨31, 0, .ro, 0x0, .none⟩]⟩,
  ⟨0x118, 1, 0x1000, 1, 0x1000, [⟨31, 0, .ro, 0x0, .none⟩]⟩,
  ⟨0x11C, 1, 0x1000, 1, 0x1000, [⟨31, 0, .ro, 0x0, .none⟩]⟩]

/-- The CNV page: CNV_STAT, CNV_EVAL_CNT, CNV_SPLIT_CNT, CNV_RETRY_CNT, CNV_NAN_CNT, CNV_WAIT_CNT, CNV_JOBS. -/
def regsCnv : List Reg := [
  ⟨0x100, 1, 0x1000, 1, 0x1000, [⟨31, 31, .ro, 0x0, .none⟩, ⟨26, 16, .ro, 0x0, .none⟩, ⟨10, 0, .ro, 0x0, .none⟩]⟩,
  ⟨0x104, 1, 0x1000, 1, 0x1000, [⟨31, 0, .rc, 0x0, .none⟩]⟩,
  ⟨0x108, 1, 0x1000, 1, 0x1000, [⟨31, 0, .rc, 0x0, .none⟩]⟩,
  ⟨0x10C, 1, 0x1000, 1, 0x1000, [⟨31, 0, .rc, 0x0, .none⟩]⟩,
  ⟨0x110, 1, 0x1000, 1, 0x1000, [⟨31, 0, .rc, 0x0, .none⟩]⟩,
  ⟨0x114, 1, 0x1000, 1, 0x1000, [⟨31, 0, .rc, 0x0, .none⟩]⟩,
  ⟨0x118, 1, 0x1000, 1, 0x1000, [⟨6, 0, .ro, 0x0, .none⟩]⟩]

/-- The CPG page: CPG_EVAL_CFG, CPG_STAT, CPG_EVAL_CNT, CPG_CLAMP_CNT, CPG_OVF_LAST, CPG_UPK_CFG, CPG_UPK_STAT, CPG_REREF_TT, CPG_TCOEF, CPG_FMAX, CPG_SWEEP_CNT, CPG_SENT_DEV_CNT, CPG_REMAP_CNT, CPG_REFRESH_CNT, CPG_UPK_CMD. -/
def regsCpg : List Reg := [
  ⟨0x100, 4, 0x400, 1, 0x1000, [⟨2, 2, .rwl, 0x1, .none⟩, ⟨1, 0, .rwl, 0x3, .none⟩]⟩,
  ⟨0x104, 4, 0x400, 1, 0x1000, [⟨31, 31, .ro, 0x0, .none⟩, ⟨30, 30, .ro, 0x0, .none⟩, ⟨29, 29, .ro, 0x0, .none⟩, ⟨15, 8, .ro, 0xFF, .none⟩, ⟨5, 0, .ro, 0x0, .none⟩]⟩,
  ⟨0x108, 4, 0x400, 1, 0x1000, [⟨31, 0, .rc, 0x0, .none⟩]⟩,
  ⟨0x10C, 4, 0x400, 1, 0x1000, [⟨31, 0, .rc, 0x0, .none⟩]⟩,
  ⟨0x110, 4, 0x400, 1, 0x1000, [⟨14, 10, .ro, 0x0, .none⟩, ⟨9, 0, .ro, 0x0, .none⟩]⟩,
  ⟨0x200, 4, 0x400, 1, 0x1000, [⟨31, 16, .rwl, 0x3E8, .none⟩, ⟨15, 8, .rwl, 0x10, .none⟩, ⟨4, 0, .rwl, 0x14, .lower⟩]⟩,
  ⟨0x204, 4, 0x400, 1, 0x1000, [⟨31, 31, .ro, 0x0, .none⟩, ⟨30, 30, .ro, 0x0, .none⟩, ⟨9, 0, .ro, 0x0, .none⟩]⟩,
  ⟨0x208, 4, 0x400, 1, 0x1000, [⟨31, 0, .ro, 0x0, .none⟩]⟩,
  ⟨0x20C, 4, 0x400, 1, 0x1000, [⟨15, 0, .ro, 0x0, .none⟩]⟩,
  ⟨0x210, 4, 0x400, 1, 0x1000, [⟨15, 0, .ro, 0x0, .none⟩]⟩,
  ⟨0x214, 4, 0x400, 1, 0x1000, [⟨31, 0, .rc, 0x0, .none⟩]⟩,
  ⟨0x218, 4, 0x400, 1, 0x1000, [⟨31, 0, .rc, 0x0, .none⟩]⟩,
  ⟨0x21C, 4, 0x400, 1, 0x1000, [⟨31, 0, .rc, 0x0, .none⟩]⟩,
  ⟨0x220, 4, 0x400, 1, 0x1000, [⟨31, 0, .rc, 0x0, .none⟩]⟩,
  ⟨0x224, 4, 0x400, 1, 0x1000, [⟨7, 0, .wo, 0x0, .none⟩]⟩]

/-- The LNK page: LNK_STAT, LNK_CTL, LNK_CFG, LNK_RETRY_CNT, LNK_CRC_CNT, LNK_FEC_CORR_CNT, LNK_FEC_UNC_CNT, LNK_SYM_ERR, LNK_DOWN_CNT, LNK_TRAIN_US, LNK_PEER_SERIAL_LO, LNK_PEER_SERIAL_HI, LNK_PEER_ID, LNK_PEER_VER, LNK_VC_CREDIT. -/
def regsLnk : List Reg := [
  ⟨0x100, 1, 0x1000, 1, 0x1000, [⟨31, 29, .ro, 0x0, .none⟩, ⟨28, 26, .ro, 0x0, .none⟩, ⟨3, 0, .ro, 0x0, .none⟩]⟩,
  ⟨0x104, 1, 0x1000, 1, 0x1000, [⟨0, 0, .rwl, 0x0, .higher⟩]⟩,
  ⟨0x108, 1, 0x1000, 1, 0x1000, [⟨31, 16, .rw, 0x3E8, .none⟩, ⟨15, 8, .rw, 0x64, .none⟩, ⟨7, 0, .rw, 0xA, .none⟩]⟩,
  ⟨0x10C, 1, 0x1000, 1, 0x1000, [⟨31, 0, .rc, 0x0, .none⟩]⟩,
  ⟨0x110, 1, 0x1000, 1, 0x1000, [⟨31, 0, .rc, 0x0, .none⟩]⟩,
  ⟨0x114, 1, 0x1000, 1, 0x1000, [⟨31, 0, .rc, 0x0, .none⟩]⟩,
  ⟨0x118, 1, 0x1000, 1, 0x1000, [⟨31, 0, .rc, 0x0, .none⟩]⟩,
  ⟨0x11C, 1, 0x1000, 1, 0x1000, [⟨31, 0, .ro, 0x0, .none⟩]⟩,
  ⟨0x120, 1, 0x1000, 1, 0x1000, [⟨31, 0, .rc, 0x0, .none⟩]⟩,
  ⟨0x124, 1, 0x1000, 1, 0x1000, [⟨31, 0, .ro, 0x0, .none⟩]⟩,
  ⟨0x128, 1, 0x1000, 1, 0x1000, [⟨31, 0, .ro, 0x0, .none⟩]⟩,
  ⟨0x12C, 1, 0x1000, 1, 0x1000, [⟨31, 0, .ro, 0x0, .none⟩]⟩,
  ⟨0x130, 1, 0x1000, 1, 0x1000, [⟨31, 16, .ro, 0x0, .none⟩, ⟨15, 8, .ro, 0x0, .none⟩, ⟨7, 4, .ro, 0x0, .none⟩, ⟨3, 0, .ro, 0x0, .none⟩]⟩,
  ⟨0x134, 1, 0x1000, 1, 0x1000, [⟨15, 0, .ro, 0x0, .none⟩]⟩,
  ⟨0x140, 6, 0x4, 1, 0x1000, [⟨27, 16, .ro, 0x0, .none⟩, ⟨11, 0, .ro, 0x0, .none⟩]⟩]

/-- The TOP page: TOP_COORD, TOP_RIG_CMD, TOP_RIG_STAT, TOP_RIG_CFG, TOP_NOROUTE_CNT, TOP_PLAN, TOP_FOUND, TOP_LABEL. -/
def regsTop : List Reg := [
  ⟨0x100, 1, 0x1000, 1, 0x1000, [⟨31, 31, .rw, 0x0, .none⟩, ⟨15, 0, .rw, 0xFFFF, .none⟩]⟩,
  ⟨0x104, 1, 0x1000, 1, 0x1000, [⟨7, 0, .wo, 0x0, .none⟩]⟩,
  ⟨0x108, 1, 0x1000, 1, 0x1000, [⟨31, 31, .ro, 0x0, .none⟩, ⟨30, 30, .ro, 0x0, .none⟩, ⟨23, 0, .ro, 0x0, .none⟩]⟩,
  ⟨0x10C, 1, 0x1000, 1, 0x1000, [⟨7, 0, .rw, 0x1E, .none⟩]⟩,
  ⟨0x110, 1, 0x1000, 1, 0x1000, [⟨31, 0, .rc, 0x0, .none⟩]⟩,
  ⟨0x140, 12, 0x4, 1, 0x1000, [⟨31, 31, .rw, 0x0, .none⟩, ⟨30, 30, .rw, 0x0, .none⟩, ⟨23, 8, .rw, 0x0, .none⟩, ⟨7, 0, .rw, 0x0, .none⟩]⟩,
  ⟨0x180, 12, 0x4, 1, 0x1000, [⟨31, 0, .ro, 0x0, .none⟩]⟩,
  ⟨0x200, 128, 0x4, 1, 0x1000, [⟨15, 0, .rw, 0x0, .none⟩]⟩]

/-- The JRY page: JRY_STAT, JRY_CMD, JRY_CFG, JRY_TAKE_CNT. -/
def regsJry : List Reg := [
  ⟨0x100, 1, 0x1000, 1, 0x1000, [⟨31, 29, .ro, 0x0, .none⟩, ⟨28, 24, .ro, 0x0, .none⟩, ⟨15, 0, .ro, 0x0, .none⟩]⟩,
  ⟨0x104, 1, 0x1000, 1, 0x1000, [⟨31, 16, .wo, 0x0, .none⟩, ⟨7, 0, .wo, 0x0, .none⟩]⟩,
  ⟨0x108, 1, 0x1000, 1, 0x1000, [⟨31, 16, .rw, 0x12C, .none⟩, ⟨15, 0, .rw, 0x64, .none⟩]⟩,
  ⟨0x10C, 1, 0x1000, 1, 0x1000, [⟨31, 0, .rc, 0x0, .none⟩]⟩]

/-- The SHR page: SHR_CFG, SHR_STALL_CNT, SHR_RECOVER_CNT, SHR_DELAY_CNT, SHR_LAST_EVT, SHR_RING_CFG, SHR_RING_PART, SHR_RING_LEFT, SHR_RING_RIGHT, SHR_RING_STAT, SHR_RING_CMD. -/
def regsShr : List Reg := [
  ⟨0x100, 1, 0x1000, 1, 0x1000, [⟨31, 16, .rw, 0x1F4, .none⟩, ⟨15, 8, .rw, 0x32, .none⟩]⟩,
  ⟨0x104, 1, 0x1000, 1, 0x1000, [⟨31, 0, .rc, 0x0, .none⟩]⟩,
  ⟨0x108, 1, 0x1000, 1, 0x1000, [⟨31, 0, .rc, 0x0, .none⟩]⟩,
  ⟨0x10C, 1, 0x1000, 1, 0x1000, [⟨31, 0, .rc, 0x0, .none⟩]⟩,
  ⟨0x110, 1, 0x1000, 1, 0x1000, [⟨26, 24, .ro, 0x0, .none⟩, ⟨20, 16, .ro, 0x0, .none⟩, ⟨7, 0, .ro, 0x0, .none⟩]⟩,
  ⟨0x400, 8, 0x40, 1, 0x1000, [⟨31, 16, .rw, 0x0, .none⟩, ⟨15, 10, .rw, 0x0, .none⟩, ⟨9, 5, .rw, 0x0, .none⟩, ⟨4, 4, .rw, 0x0, .none⟩]⟩,
  ⟨0x404, 8, 0x40, 1, 0x1000, [⟨7, 0, .rw, 0x0, .none⟩]⟩,
  ⟨0x408, 8, 0x40, 1, 0x1000, [⟨15, 8, .rw, 0x0, .none⟩, ⟨7, 0, .rw, 0x0, .none⟩]⟩,
  ⟨0x40C, 8, 0x40, 1, 0x1000, [⟨15, 8, .rw, 0x0, .none⟩, ⟨7, 0, .rw, 0x0, .none⟩]⟩,
  ⟨0x410, 8, 0x40, 1, 0x1000, [⟨31, 29, .ro, 0x0, .none⟩, ⟨28, 24, .ro, 0x0, .none⟩, ⟨15, 0, .ro, 0x0, .none⟩]⟩,
  ⟨0x414, 8, 0x40, 1, 0x1000, [⟨7, 0, .wo, 0x0, .none⟩]⟩]

/-- The COL page: COL_STAT, COL_MSG_CNT, COL_REJECT_CNT, COL_GRP_CFG, COL_GRP_PART, COL_GRP_MBR. -/
def regsCol : List Reg := [
  ⟨0x100, 1, 0x1000, 1, 0x1000, [⟨31, 16, .ro, 0x0, .none⟩, ⟨15, 0, .ro, 0x0, .none⟩]⟩,
  ⟨0x104, 1, 0x1000, 1, 0x1000, [⟨31, 0, .rc, 0x0, .none⟩]⟩,
  ⟨0x108, 1, 0x1000, 1, 0x1000, [⟨31, 0, .rc, 0x0, .none⟩]⟩,
  ⟨0x400, 32, 0x50, 1, 0x1000, [⟨31, 16, .rw, 0x0, .none⟩, ⟨15, 11, .rw, 0x0, .none⟩, ⟨10, 5, .rw, 0x0, .none⟩, ⟨4, 2, .rw, 0x0, .none⟩, ⟨0, 0, .rw, 0x0, .none⟩]⟩,
  ⟨0x404, 32, 0x50, 1, 0x1000, [⟨7, 0, .rw, 0x0, .none⟩]⟩,
  ⟨0x408, 32, 0x50, 16, 0x4, [⟨31, 0, .rw, 0x0, .none⟩]⟩]

/-- LNK_SHEET, on the LNK0 page only (18 R459). -/
def regSheet : Reg := ⟨0x180, 1, 0x1000, 1, 0x1000, [⟨6, 4, .rw, 0x2, .none⟩, ⟨2, 0, .ro, 0x2, .none⟩]⟩

/-- The block registers of a block's page `i`. -/
def blockRegs (b : Block) (i : Nat) : List Reg :=
  match b with
  | .dev => regsDev
  | .mst => regsMst
  | .clk => regsClk
  | .rst => regsRst
  | .pwr => regsPwr
  | .thm => regsThm
  | .flt => regsFlt
  | .ttl => regsTtl
  | .adm => regsAdm
  | .pci => regsPci
  | .sbd => regsSbd
  | .sec => regsSec
  | .prt => regsPrt
  | .dbl => regsDbl
  | .spr => regsSpr
  | .bom => regsBom
  | .yrd => regsYrd
  | .luf => regsLuf
  | .clw => regsClw
  | .kvp => regsKvp
  | .sct => regsSct
  | .rfe => regsRfe
  | .pmg => regsPmg
  | .nrm => regsNrm
  | .far => regsFar
  | .cnv => regsCnv
  | .cpg => regsCpg
  | .lnk => if i = 0 then regSheet :: regsLnk else regsLnk
  | .top => regsTop
  | .jry => regsJry
  | .shr => regsShr
  | .col => regsCol

/-- Whether the register (array) `r` has a word at byte offset `off`. -/
def Reg.at (r : Reg) (off : Nat) : Bool :=
  let d := off - r.base
  decide (r.base ≤ off) && decide (d / r.s1 < r.n1) && decide (d % r.s1 / r.s2 < r.n2)
    && decide (d % r.s1 % r.s2 = 0)

/-- The register at an aligned byte offset of a page; `none` for a reserved offset (00 R4). -/
def findReg (p off : Nat) : Option Reg :=
  match blockOf p with
  | none => none
  | some (b, i) =>
    if off < 0x100 then headerRegs.find? fun r => r.at off
    else (blockRegs b i).find? fun r => r.at off

/-- The fields of the register with key `k`. -/
def fieldsOf (k : Nat) : List Field :=
  match findReg (k / 1024) (k % 1024 * 4) with
  | none => []
  | some r => r.fields

/-- The reset value that fields give (the fields do not overlap). -/
def fieldsReset (fs : List Field) : Nat := (fs.map fun f => f.reset <<< f.lo).sum

/-- The reset value of the register with key `k` (28 R659, 03 R53 for BLK_ID and OWNER). -/
def resetVal (k : Nat) : Word :=
  let p := k / 1024
  let off := k % 1024 * 4
  match blockOf p with
  | none => 0
  | some (b, _) =>
    if off = 0 then BitVec.ofNat 32 (b.code * 0x10000 + p)
    else if off = 0x28 then (if p ≤ 0xB then 0x01 else 0x03)
    else BitVec.ofNat 32 (fieldsReset (fieldsOf k))

/-- The keys of a page's registers below offset 0x1000 that have a word there. -/
def pageKeys (p : Nat) : List Nat :=
  ((List.range 1024).filter fun w => (findReg p (4 * w)).isSome).map fun w => p * 1024 + w

namespace Key

/-! Keys of the common header on page `p`. -/
/-- BLK_ID. -/
abbrev blkId (p : Nat) : Nat := regKey p 0x0
/-- BLK_VER. -/
abbrev blkVer (p : Nat) : Nat := regKey p 0x4
/-- BLK_CTRL. -/
abbrev blkCtrl (p : Nat) : Nat := regKey p 0x8
/-- BLK_STAT. -/
abbrev blkStat (p : Nat) : Nat := regKey p 0xC
/-- IRQ_STAT. -/
abbrev irqStat (p : Nat) : Nat := regKey p 0x10
/-- IRQ_EN. -/
abbrev irqEn (p : Nat) : Nat := regKey p 0x14
/-- IRQ_FORCE. -/
abbrev irqForce (p : Nat) : Nat := regKey p 0x18
/-- FLT_LATCH. -/
abbrev fltLatch (p : Nat) : Nat := regKey p 0x1C
/-- FLT_PEEK. -/
abbrev fltPeek (p : Nat) : Nat := regKey p 0x20
/-- FLT_INFO. -/
abbrev fltInfo (p : Nat) : Nat := regKey p 0x24
/-- OWNER. -/
abbrev owner (p : Nat) : Nat := regKey p 0x28
/-- CONFLICT. -/
abbrev conflict (p : Nat) : Nat := regKey p 0x2C
/-- DEV_CONDUCT (22 R558). -/
abbrev devConduct : Nat := regKey 0x0 (0x100)
/-- DEV_LEVELS (27 R658). -/
abbrev devLevels : Nat := regKey 0x0 (0x104)
/-- DEV_SERIAL_LO (28 R662). -/
abbrev devSerialLo : Nat := regKey 0x0 (0x108)
/-- DEV_SERIAL_HI (28 R662). -/
abbrev devSerialHi : Nat := regKey 0x0 (0x10C)
/-- MST_DENY_CNT (3 T3.12). -/
abbrev mstDenyCnt : Nat := regKey 0x1 (0x100)
/-- MST_CFL_PAGE (3 T3.12). -/
abbrev mstCflPage : Nat := regKey 0x1 (0x104)
/-- MST_CFL_MASK (3 T3.12). -/
abbrev mstCflMask : Nat := regKey 0x1 (0x108)
/-- MST_CFL_CNT (3 T3.12). -/
abbrev mstCflCnt : Nat := regKey 0x1 (0x10C)
/-- CLK_STAT (21 R531). -/
abbrev clkStat : Nat := regKey 0x2 (0x100)
/-- CLK_REDIV_CNT (21 R531). -/
abbrev clkRedivCnt : Nat := regKey 0x2 (0x104)
/-- CLK_RL_THROT (21 R531). -/
abbrev clkRlThrot : Nat := regKey 0x2 (0x108)
/-- CLK_FAB (21 R531). -/
abbrev clkFab (n : Nat) : Nat := regKey 0x2 (0x110 + 0x4 * n)
/-- CLK_RL_STAT (21 R531). -/
abbrev clkRlStat (n : Nat) : Nat := regKey 0x2 (0x200 + 0x10 * n)
/-- CLK_RL_RETRY_CNT (21 R531). -/
abbrev clkRlRetryCnt (n : Nat) : Nat := regKey 0x2 (0x204 + 0x10 * n)
/-- CLK_RL_CRC_CNT (21 R531). -/
abbrev clkRlCrcCnt (n : Nat) : Nat := regKey 0x2 (0x208 + 0x10 * n)
/-- CLK_RL_REPAIR_CNT (21 R531). -/
abbrev clkRlRepairCnt (n : Nat) : Nat := regKey 0x2 (0x20C + 0x10 * n)
/-- RST_STAT (22 R558). -/
abbrev rstStat : Nat := regKey 0x3 (0x100)
/-- RST_CMD (22 R558). -/
abbrev rstCmd : Nat := regKey 0x3 (0x104)
/-- RST_TIME_US (22 R558). -/
abbrev rstTimeUs : Nat := regKey 0x3 (0x108)
/-- RST_HIST (22 R558). -/
abbrev rstHist : Nat := regKey 0x3 (0x10C)
/-- RST_DIE_LAST (22 R558). -/
abbrev rstDieLast : Nat := regKey 0x3 (0x110)
/-- RST_DIE_CNT (22 R558). -/
abbrev rstDieCnt : Nat := regKey 0x3 (0x114)
/-- RST_SVN (22 R558). -/
abbrev rstSvn : Nat := regKey 0x3 (0x118)
/-- RST_KEYS (22 R558). -/
abbrev rstKeys : Nat := regKey 0x3 (0x11C)
/-- PWR_CAP (23 R582). -/
abbrev pwrCap : Nat := regKey 0x4 (0x100)
/-- PWR_STAT (23 R582). -/
abbrev pwrStat : Nat := regKey 0x4 (0x104)
/-- PWR_IDLE_EN (23 R582). -/
abbrev pwrIdleEn : Nat := regKey 0x4 (0x108)
/-- PWR_HOLDOFF (23 R582). -/
abbrev pwrHoldoff : Nat := regKey 0x4 (0x10C)
/-- PWR_LEVEL_CNT (23 R582). -/
abbrev pwrLevelCnt : Nat := regKey 0x4 (0x110)
/-- PWR_WAKE_LATE_CNT (23 R582). -/
abbrev pwrWakeLateCnt : Nat := regKey 0x4 (0x114)
/-- PWR_DIP_CNT (23 R582). -/
abbrev pwrDipCnt : Nat := regKey 0x4 (0x118)
/-- PWR_ENTRY (23 R582). -/
abbrev pwrEntry (n : Nat) : Nat := regKey 0x4 (0x184 + 0x4 * n)
/-- PWR_RAIL_STAT (23 R582). -/
abbrev pwrRailStat (n : Nat) : Nat := regKey 0x4 (0x200 + 0x10 * n)
/-- PWR_RAIL_DIP_CNT (23 R582). -/
abbrev pwrRailDipCnt (n : Nat) : Nat := regKey 0x4 (0x204 + 0x10 * n)
/-- PWR_RAIL_MIN (23 R582). -/
abbrev pwrRailMin (n : Nat) : Nat := regKey 0x4 (0x208 + 0x10 * n)
/-- THM_LIMIT (23 R583). -/
abbrev thmLimit : Nat := regKey 0x5 (0x100)
/-- THM_STAT (23 R583). -/
abbrev thmStat : Nat := regKey 0x5 (0x104)
/-- THM_STEP_CNT (23 R583). -/
abbrev thmStepCnt : Nat := regKey 0x5 (0x108)
/-- THM_DIE (23 R583). -/
abbrev thmDie (n : Nat) : Nat := regKey 0x5 (0x140 + 0x4 * n)
/-- FLT_STAT (24 R607). -/
abbrev fltStat : Nat := regKey 0x6 (0x100)
/-- FLT_SUSPECT_CNT (24 R607). -/
abbrev fltSuspectCnt : Nat := regKey 0x6 (0x104)
/-- FLT_SUSPECT_LOST_CNT (24 R607). -/
abbrev fltSuspectLostCnt : Nat := regKey 0x6 (0x108)
/-- FLT_SELFTEST_CNT (24 R607). -/
abbrev fltSelftestCnt : Nat := regKey 0x6 (0x10C)
/-- FLT_INJ_CTL (24 R607). -/
abbrev fltInjCtl : Nat := regKey 0x6 (0x110)
/-- FLT_INJ_TGT (24 R607). -/
abbrev fltInjTgt : Nat := regKey 0x6 (0x114)
/-- FLT_INJ_ARG_LO (24 R607). -/
abbrev fltInjArgLo : Nat := regKey 0x6 (0x118)
/-- FLT_INJ_ARG_HI (24 R607). -/
abbrev fltInjArgHi : Nat := regKey 0x6 (0x11C)
/-- FLT_INJ_CMD (24 R607). -/
abbrev fltInjCmd : Nat := regKey 0x6 (0x120)
/-- FLT_INJ_STAT (24 R607). -/
abbrev fltInjStat : Nat := regKey 0x6 (0x124)
/-- FLT_PEND (24 R607). -/
abbrev fltPend (n : Nat) : Nat := regKey 0x6 (0x200 + 0x4 * n)
/-- FLT_LOG (24 R607). -/
abbrev fltLog (n k : Nat) : Nat := regKey 0x6 (0x400 + 0x10 * n + 0x4 * k)
/-- TTL_NOW_LO (20 R508). -/
abbrev ttlNowLo : Nat := regKey 0x7 (0x100)
/-- TTL_NOW_HI (20 R508). -/
abbrev ttlNowHi : Nat := regKey 0x7 (0x104)
/-- TTL_STAT (20 R508). -/
abbrev ttlStat : Nat := regKey 0x7 (0x108)
/-- TTL_OFFSET (20 R508). -/
abbrev ttlOffset : Nat := regKey 0x7 (0x10C)
/-- TTL_ERR (20 R508). -/
abbrev ttlErr : Nat := regKey 0x7 (0x110)
/-- TTL_CFG (20 R508). -/
abbrev ttlCfg : Nat := regKey 0x7 (0x114)
/-- TTL_STEP_CNT (20 R508). -/
abbrev ttlStepCnt : Nat := regKey 0x7 (0x118)
/-- TTL_LOSS_CNT (20 R508). -/
abbrev ttlLossCnt : Nat := regKey 0x7 (0x11C)
/-- TTL_EVT_FULL_CNT (20 R508). -/
abbrev ttlEvtFullCnt : Nat := regKey 0x7 (0x120)
/-- TTL_SWEV_LO (20 R508). -/
abbrev ttlSwevLo (n : Nat) : Nat := regKey 0x7 (0x140 + 0x10 * n)
/-- TTL_SWEV_HI (20 R508). -/
abbrev ttlSwevHi (n : Nat) : Nat := regKey 0x7 (0x144 + 0x10 * n)
/-- TTL_SWEV_CTL (20 R508). -/
abbrev ttlSwevCtl (n : Nat) : Nat := regKey 0x7 (0x148 + 0x10 * n)
/-- TTL_NEXT (20 R508). -/
abbrev ttlNext (n : Nat) : Nat := regKey 0x7 (0x200 + 0x4 * n)
/-- ADM_CFG (7 R153). -/
abbrev admCfg : Nat := regKey 0x8 (0x100)
/-- ADM_DEFERRED (7 R153). -/
abbrev admDeferred : Nat := regKey 0x8 (0x104)
/-- ADM_PREEMPT_CNT (7 R153). -/
abbrev admPreemptCnt : Nat := regKey 0x8 (0x108)
/-- ADM_LANES (7 R153). -/
abbrev admLanes (n : Nat) : Nat := regKey 0x8 (0x400 + 0x10 * n)
/-- ADM_QUEUED (7 R153). -/
abbrev admQueued (n : Nat) : Nat := regKey 0x8 (0x404 + 0x10 * n)
/-- ADM_CHARGE (7 R153). -/
abbrev admCharge (n : Nat) : Nat := regKey 0x8 (0x408 + 0x10 * n)
/-- ADM_LIVE (7 R153). -/
abbrev admLive (n : Nat) : Nat := regKey 0x8 (0x40C + 0x10 * n)
/-- PCI_STAT (28 R665 T28.5). -/
abbrev pciStat : Nat := regKey 0x9 (0x100)
/-- PCI_DEQ_BASE_LO (28 R663). -/
abbrev pciDeqBaseLo : Nat := regKey 0x9 (0x110)
/-- PCI_DEQ_BASE_HI (28 R663). -/
abbrev pciDeqBaseHi : Nat := regKey 0x9 (0x114)
/-- PCI_DEQ_CFG (28 R663). -/
abbrev pciDeqCfg : Nat := regKey 0x9 (0x118)
/-- PCI_DEQ_TAIL (28 R663). -/
abbrev pciDeqTail : Nat := regKey 0x9 (0x11C)
/-- PCI_DEQ_HEAD (28 R663). -/
abbrev pciDeqHead : Nat := regKey 0x9 (0x120)
/-- PCI_DEQ_LOST_CNT (28 R664). -/
abbrev pciDeqLostCnt : Nat := regKey 0x9 (0x124)
/-- SBD_CFG (25 R622). -/
abbrev sbdCfg : Nat := regKey 0xA (0x100)
/-- SBD_STAT (25 R622). -/
abbrev sbdStat : Nat := regKey 0xA (0x104)
/-- SBD_RX_CNT (25 R622). -/
abbrev sbdRxCnt : Nat := regKey 0xA (0x108)
/-- SBD_PEC_ERR_CNT (25 R622). -/
abbrev sbdPecErrCnt : Nat := regKey 0xA (0x10C)
/-- SBD_DROP_CNT (25 R622). -/
abbrev sbdDropCnt : Nat := regKey 0xA (0x110)
/-- SEC_STAT (28 R665). -/
abbrev secStat : Nat := regKey 0xB (0x100)
/-- SEC_KEYGEN_CNT (28 R665). -/
abbrev secKeygenCnt : Nat := regKey 0xB (0x104)
/-- SEC_RNG_FAIL_CNT (28 R665). -/
abbrev secRngFailCnt : Nat := regKey 0xB (0x108)
/-- PRT_STATE (6 R133). -/
abbrev prtState (i : Nat) : Nat := regKey (0x10 + i) (0x100)
/-- PRT_CMD (6 R133). -/
abbrev prtCmd (i : Nat) : Nat := regKey (0x10 + i) (0x104)
/-- PRT_CFG (6 R133). -/
abbrev prtCfg (i : Nat) : Nat := regKey (0x10 + i) (0x108)
/-- PRT_KEYGEN (6 R133). -/
abbrev prtKeygen (i : Nat) : Nat := regKey (0x10 + i) (0x10C)
/-- PRT_YRD_MASK (6 R133). -/
abbrev prtYrdMask (i : Nat) : Nat := regKey (0x10 + i) (0x110)
/-- PRT_LUF_MASK (6 R133). -/
abbrev prtLufMask (i : Nat) : Nat := regKey (0x10 + i) (0x114)
/-- PRT_CLW_MASK (6 R133). -/
abbrev prtClwMask (i : Nat) : Nat := regKey (0x10 + i) (0x118)
/-- PRT_CPG_MASK (6 R133). -/
abbrev prtCpgMask (i n : Nat) : Nat := regKey (0x10 + i) (0x120 + 0x4 * n)
/-- PRT_BANK_MASK (6 R133). -/
abbrev prtBankMask (i n : Nat) : Nat := regKey (0x10 + i) (0x140 + 0x4 * n)
/-- PRT_SLOTS (6 R133). -/
abbrev prtSlots (i : Nat) : Nat := regKey (0x10 + i) (0x160)
/-- PRT_CNV_CONC (6 R133). -/
abbrev prtCnvConc (i : Nat) : Nat := regKey (0x10 + i) (0x164)
/-- PRT_BW (6 R133). -/
abbrev prtBw (i : Nat) : Nat := regKey (0x10 + i) (0x168)
/-- PRT_NEAR_QUOTA (6 R133). -/
abbrev prtNearQuota (i : Nat) : Nat := regKey (0x10 + i) (0x16C)
/-- PRT_FAR_QUOTA (6 R133). -/
abbrev prtFarQuota (i : Nat) : Nat := regKey (0x10 + i) (0x170)
/-- PRT_SCRUB_PEND (6 R133). -/
abbrev prtScrubPend (i : Nat) : Nat := regKey (0x10 + i) (0x174)
/-- PRT_SQ_BASE_LO (4 R87). -/
abbrev prtSqBaseLo (i n : Nat) : Nat := regKey (0x10 + i) (0x200 + 0x10 * n)
/-- PRT_SQ_BASE_HI (4 R87). -/
abbrev prtSqBaseHi (i n : Nat) : Nat := regKey (0x10 + i) (0x204 + 0x10 * n)
/-- PRT_SQ_CFG (4 R87). -/
abbrev prtSqCfg (i n : Nat) : Nat := regKey (0x10 + i) (0x208 + 0x10 * n)
/-- PRT_SQ_HEAD (4 R87). -/
abbrev prtSqHead (i n : Nat) : Nat := regKey (0x10 + i) (0x20C + 0x10 * n)
/-- PRT_EQ_BASE_LO (4 R87). -/
abbrev prtEqBaseLo (i n : Nat) : Nat := regKey (0x10 + i) (0x280 + 0x10 * n)
/-- PRT_EQ_BASE_HI (4 R87). -/
abbrev prtEqBaseHi (i n : Nat) : Nat := regKey (0x10 + i) (0x284 + 0x10 * n)
/-- PRT_EQ_CFG (4 R87). -/
abbrev prtEqCfg (i n : Nat) : Nat := regKey (0x10 + i) (0x288 + 0x10 * n)
/-- PRT_EQ_TAIL (4 R87). -/
abbrev prtEqTail (i n : Nat) : Nat := regKey (0x10 + i) (0x28C + 0x10 * n)
/-- DBL_SQ (4 T4.13). -/
abbrev dblSq (i n : Nat) : Nat := regKey (0x90 + i) (0x100 + 0x4 * n)
/-- DBL_EQ (4 T4.13). -/
abbrev dblEq (i n : Nat) : Nat := regKey (0x90 + i) (0x120 + 0x4 * n)
/-- SPR_STAT (11 R259). -/
abbrev sprStat (i : Nat) : Nat := regKey (0x110 + i) (0x100)
/-- SPR_PLAN_ID_LO (11 R259). -/
abbrev sprPlanIdLo (i : Nat) : Nat := regKey (0x110 + i) (0x104)
/-- SPR_PLAN_ID_HI (11 R259). -/
abbrev sprPlanIdHi (i : Nat) : Nat := regKey (0x110 + i) (0x108)
/-- SPR_BANK_CE_CNT (11 R259). -/
abbrev sprBankCeCnt (i : Nat) : Nat := regKey (0x110 + i) (0x10C)
/-- SPR_STREAM_ERR_CNT (11 R259). -/
abbrev sprStreamErrCnt (i : Nat) : Nat := regKey (0x110 + i) (0x110)
/-- SPR_SLOTS_FREE (11 R259). -/
abbrev sprSlotsFree (i : Nat) : Nat := regKey (0x110 + i) (0x114)
/-- SPR_BANK (11 R259). -/
abbrev sprBank (i n : Nat) : Nat := regKey (0x110 + i) (0x140 + 0x4 * n)
/-- BOM_STAT (12 R287). -/
abbrev bomStat (i : Nat) : Nat := regKey (0x118 + i) (0x100)
/-- BOM_CFG (12 R287). -/
abbrev bomCfg (i : Nat) : Nat := regKey (0x118 + i) (0x104)
/-- BOM_ISSUE_CNT (12 R287). -/
abbrev bomIssueCnt (i : Nat) : Nat := regKey (0x118 + i) (0x108)
/-- BOM_STALL_CNT (12 R287). -/
abbrev bomStallCnt (i : Nat) : Nat := regKey (0x118 + i) (0x10C)
/-- BOM_HAZARD_CNT (12 R287). -/
abbrev bomHazardCnt (i : Nat) : Nat := regKey (0x118 + i) (0x110)
/-- BOM_UNRES (12 R287). -/
abbrev bomUnres (i : Nat) : Nat := regKey (0x118 + i) (0x114)
/-- BOM_TEST_LO (12 R287). -/
abbrev bomTestLo (i : Nat) : Nat := regKey (0x118 + i) (0x180)
/-- BOM_TEST_HI (12 R287). -/
abbrev bomTestHi (i : Nat) : Nat := regKey (0x118 + i) (0x184)
/-- BOM_TEST_CMD (12 R287). -/
abbrev bomTestCmd (i : Nat) : Nat := regKey (0x118 + i) (0x188)
/-- BOM_TEST_STAT (12 R287). -/
abbrev bomTestStat (i : Nat) : Nat := regKey (0x118 + i) (0x18C)
/-- BOM_INFLIGHT (12 R287). -/
abbrev bomInflight (i n : Nat) : Nat := regKey (0x118 + i) (0x200 + 0x4 * n)
/-- BOM_ROT (12 R287). -/
abbrev bomRot (i n : Nat) : Nat := regKey (0x118 + i) (0x400 + 0x4 * n)
/-- YRD_STAT (11 R260). -/
abbrev yrdStat (i : Nat) : Nat := regKey (0x120 + i) (0x100)
/-- YRD_CTL (11 R260). -/
abbrev yrdCtl (i : Nat) : Nat := regKey (0x120 + i) (0x104)
/-- YRD_STEP_CNT (11 R260). -/
abbrev yrdStepCnt (i : Nat) : Nat := regKey (0x120 + i) (0x108)
/-- YRD_RES_TRANS_CNT (11 R260). -/
abbrev yrdResTransCnt (i : Nat) : Nat := regKey (0x120 + i) (0x10C)
/-- YRD_SAT_CNT (11 R260). -/
abbrev yrdSatCnt (i : Nat) : Nat := regKey (0x120 + i) (0x110)
/-- YRD_NAN_CNT (11 R260). -/
abbrev yrdNanCnt (i : Nat) : Nat := regKey (0x120 + i) (0x114)
/-- LUF_STAT (13 R316). -/
abbrev lufStat (i : Nat) : Nat := regKey (0x140 + i) (0x100)
/-- LUF_CTL (13 R316). -/
abbrev lufCtl (i : Nat) : Nat := regKey (0x140 + i) (0x104)
/-- LUF_BLOCK_CNT (13 R316). -/
abbrev lufBlockCnt (i : Nat) : Nat := regKey (0x140 + i) (0x108)
/-- LUF_SKIP_CNT (13 R316). -/
abbrev lufSkipCnt (i : Nat) : Nat := regKey (0x140 + i) (0x10C)
/-- LUF_PAGE_CNT (13 R316). -/
abbrev lufPageCnt (i : Nat) : Nat := regKey (0x140 + i) (0x110)
/-- LUF_RES_TRANS_CNT (13 R316). -/
abbrev lufResTransCnt (i : Nat) : Nat := regKey (0x140 + i) (0x114)
/-- LUF_NAN_CNT (13 R316). -/
abbrev lufNanCnt (i : Nat) : Nat := regKey (0x140 + i) (0x118)
/-- CLW_STAT (14 R345). -/
abbrev clwStat (i : Nat) : Nat := regKey (0x148 + i) (0x100)
/-- CLW_CTL (14 R345). -/
abbrev clwCtl (i : Nat) : Nat := regKey (0x148 + i) (0x104)
/-- CLW_ELEM_CNT (14 R345). -/
abbrev clwElemCnt (i : Nat) : Nat := regKey (0x148 + i) (0x108)
/-- CLW_NAN_CNT (14 R345). -/
abbrev clwNanCnt (i : Nat) : Nat := regKey (0x148 + i) (0x10C)
/-- CLW_SAT_CNT (14 R345). -/
abbrev clwSatCnt (i : Nat) : Nat := regKey (0x148 + i) (0x110)
/-- CLW_SAMPLE_CNT (14 R345). -/
abbrev clwSampleCnt (i : Nat) : Nat := regKey (0x148 + i) (0x114)
/-- KVP_WATER (9 R204). -/
abbrev kvpWater : Nat := regKey 0x158 (0x100)
/-- KVP_CFG (9 R204). -/
abbrev kvpCfg : Nat := regKey 0x158 (0x104)
/-- KVP_STAT (9 R204). -/
abbrev kvpStat : Nat := regKey 0x158 (0x108)
/-- KVP_NEAR_FREE (9 R204). -/
abbrev kvpNearFree : Nat := regKey 0x158 (0x10C)
/-- KVP_FAR_FREE (9 R204). -/
abbrev kvpFarFree : Nat := regKey 0x158 (0x110)
/-- KVP_SAT_CNT (9 R204). -/
abbrev kvpSatCnt : Nat := regKey 0x158 (0x114)
/-- KVP_HOLD_END_CNT (9 R204). -/
abbrev kvpHoldEndCnt : Nat := regKey 0x158 (0x118)
/-- KVP_PIN_WAIT_CNT (9 R204). -/
abbrev kvpPinWaitCnt : Nat := regKey 0x158 (0x11C)
/-- KVP_NEAR (9 R204). -/
abbrev kvpNear (n : Nat) : Nat := regKey 0x158 (0x400 + 0x8 * n)
/-- KVP_FAR (9 R204). -/
abbrev kvpFar (n : Nat) : Nat := regKey 0x158 (0x404 + 0x8 * n)
/-- SCT_STAT (9 R205). -/
abbrev sctStat (n : Nat) : Nat := regKey 0x159 (0x100 + 0x10 * n)
/-- SCT_DONE (9 R205). -/
abbrev sctDone (n : Nat) : Nat := regKey 0x159 (0x104 + 0x10 * n)
/-- SCT_TOKENS (9 R205). -/
abbrev sctTokens (n : Nat) : Nat := regKey 0x159 (0x108 + 0x10 * n)
/-- SCT_OPEN (9 R205). -/
abbrev sctOpen (n : Nat) : Nat := regKey 0x159 (0x10C + 0x10 * n)
/-- RFE_CFG (10 R234). -/
abbrev rfeCfg : Nat := regKey 0x15A (0x100)
/-- RFE_THRESH (10 R234). -/
abbrev rfeThresh : Nat := regKey 0x15A (0x104)
/-- RFE_PIN_HOLD (10 R234). -/
abbrev rfePinHold : Nat := regKey 0x15A (0x108)
/-- RFE_STAT (10 R234). -/
abbrev rfeStat : Nat := regKey 0x15A (0x10C)
/-- RFE_DEMOTE_CNT (10 R234). -/
abbrev rfeDemoteCnt : Nat := regKey 0x15A (0x110)
/-- RFE_DROP_CNT (10 R234). -/
abbrev rfeDropCnt : Nat := regKey 0x15A (0x114)
/-- RFE_PROMOTE_CNT (10 R234). -/
abbrev rfePromoteCnt : Nat := regKey 0x15A (0x118)
/-- RFE_REDIRECT_CNT (10 R234). -/
abbrev rfeRedirectCnt : Nat := regKey 0x15A (0x11C)
/-- RFE_SPLICE_CNT (10 R234). -/
abbrev rfeSpliceCnt : Nat := regKey 0x15A (0x120)
/-- RFE_COW_CNT (10 R234). -/
abbrev rfeCowCnt : Nat := regKey 0x15A (0x124)
/-- RFE_COLLIDE_CNT (10 R234). -/
abbrev rfeCollideCnt : Nat := regKey 0x15A (0x128)
/-- RFE_SKEW_CNT (10 R234). -/
abbrev rfeSkewCnt : Nat := regKey 0x15A (0x12C)
/-- RFE_BIND_CMD (10 R234). -/
abbrev rfeBindCmd : Nat := regKey 0x15A (0x130)
/-- RFE_BIND_ERR (10 R234). -/
abbrev rfeBindErr : Nat := regKey 0x15A (0x134)
/-- RFE_BIND_CTL (10 R234). -/
abbrev rfeBindCtl (n : Nat) : Nat := regKey 0x15A (0x400 + 0x20 * n)
/-- RFE_BIND_MASK (10 R234). -/
abbrev rfeBindMask (n k : Nat) : Nat := regKey 0x15A (0x404 + 0x20 * n + 0x4 * k)
/-- PMG_STAT (8 R178). -/
abbrev pmgStat : Nat := regKey 0x15B (0x100)
/-- PMG_DEFER_CNT (8 R178). -/
abbrev pmgDeferCnt : Nat := regKey 0x15B (0x104)
/-- PMG_DONE_CNT (8 R178). -/
abbrev pmgDoneCnt : Nat := regKey 0x15B (0x108)
/-- PMG_HR_BASE_LO (8 R178). -/
abbrev pmgHrBaseLo : Nat := regKey 0x15B (0x110)
/-- PMG_HR_BASE_HI (8 R178). -/
abbrev pmgHrBaseHi : Nat := regKey 0x15B (0x114)
/-- PMG_HR_CFG (8 R178). -/
abbrev pmgHrCfg : Nat := regKey 0x15B (0x118)
/-- PMG_HR_TAIL (8 R178). -/
abbrev pmgHrTail : Nat := regKey 0x15B (0x11C)
/-- PMG_HR_HEAD (8 R178). -/
abbrev pmgHrHead : Nat := regKey 0x15B (0x120)
/-- NRM_STAT (8 R177). -/
abbrev nrmStat (i : Nat) : Nat := regKey (0x160 + i) (0x100)
/-- NRM_CE_CNT (8 R177). -/
abbrev nrmCeCnt (i : Nat) : Nat := regKey (0x160 + i) (0x104)
/-- NRM_UE_CNT (8 R177). -/
abbrev nrmUeCnt (i : Nat) : Nat := regKey (0x160 + i) (0x108)
/-- NRM_ERR_DPA_LO (8 R177). -/
abbrev nrmErrDpaLo (i : Nat) : Nat := regKey (0x160 + i) (0x10C)
/-- NRM_ERR_DPA_HI (8 R177). -/
abbrev nrmErrDpaHi (i : Nat) : Nat := regKey (0x160 + i) (0x110)
/-- NRM_RETIRED (8 R177). -/
abbrev nrmRetired (i : Nat) : Nat := regKey (0x160 + i) (0x114)
/-- NRM_TRAIN_US (8 R177). -/
abbrev nrmTrainUs (i : Nat) : Nat := regKey (0x160 + i) (0x118)
/-- NRM_PATROL (8 R177). -/
abbrev nrmPatrol (i : Nat) : Nat := regKey (0x160 + i) (0x11C)
/-- FAR_STAT (8 R177). -/
abbrev farStat (i : Nat) : Nat := regKey (0x168 + i) (0x100)
/-- FAR_CE_CNT (8 R177). -/
abbrev farCeCnt (i : Nat) : Nat := regKey (0x168 + i) (0x104)
/-- FAR_UE_CNT (8 R177). -/
abbrev farUeCnt (i : Nat) : Nat := regKey (0x168 + i) (0x108)
/-- FAR_ERR_DPA_LO (8 R177). -/
abbrev farErrDpaLo (i : Nat) : Nat := regKey (0x168 + i) (0x10C)
/-- FAR_ERR_DPA_HI (8 R177). -/
abbrev farErrDpaHi (i : Nat) : Nat := regKey (0x168 + i) (0x110)
/-- FAR_RETIRED (8 R177). -/
abbrev farRetired (i : Nat) : Nat := regKey (0x168 + i) (0x114)
/-- FAR_TRAIN_US (8 R177). -/
abbrev farTrainUs (i : Nat) : Nat := regKey (0x168 + i) (0x118)
/-- FAR_PATROL (8 R177). -/
abbrev farPatrol (i : Nat) : Nat := regKey (0x168 + i) (0x11C)
/-- CNV_STAT (15 R372). -/
abbrev cnvStat (i : Nat) : Nat := regKey (0x180 + i) (0x100)
/-- CNV_EVAL_CNT (15 R372). -/
abbrev cnvEvalCnt (i : Nat) : Nat := regKey (0x180 + i) (0x104)
/-- CNV_SPLIT_CNT (15 R372). -/
abbrev cnvSplitCnt (i : Nat) : Nat := regKey (0x180 + i) (0x108)
/-- CNV_RETRY_CNT (15 R372). -/
abbrev cnvRetryCnt (i : Nat) : Nat := regKey (0x180 + i) (0x10C)
/-- CNV_NAN_CNT (15 R372). -/
abbrev cnvNanCnt (i : Nat) : Nat := regKey (0x180 + i) (0x110)
/-- CNV_WAIT_CNT (15 R372). -/
abbrev cnvWaitCnt (i : Nat) : Nat := regKey (0x180 + i) (0x114)
/-- CNV_JOBS (15 R372). -/
abbrev cnvJobs (i : Nat) : Nat := regKey (0x180 + i) (0x118)
/-- CPG_EVAL_CFG (15 R373). -/
abbrev cpgEvalCfg (g : Nat) : Nat := regKey (0x184 + g / 4) (0x100 + 0x400 * (g % 4))
/-- CPG_STAT (15 R373). -/
abbrev cpgStat (g : Nat) : Nat := regKey (0x184 + g / 4) (0x104 + 0x400 * (g % 4))
/-- CPG_EVAL_CNT (15 R373). -/
abbrev cpgEvalCnt (g : Nat) : Nat := regKey (0x184 + g / 4) (0x108 + 0x400 * (g % 4))
/-- CPG_CLAMP_CNT (15 R373). -/
abbrev cpgClampCnt (g : Nat) : Nat := regKey (0x184 + g / 4) (0x10C + 0x400 * (g % 4))
/-- CPG_OVF_LAST (15 R373). -/
abbrev cpgOvfLast (g : Nat) : Nat := regKey (0x184 + g / 4) (0x110 + 0x400 * (g % 4))
/-- CPG_UPK_CFG (16 R402). -/
abbrev cpgUpkCfg (g : Nat) : Nat := regKey (0x184 + g / 4) (0x200 + 0x400 * (g % 4))
/-- CPG_UPK_STAT (16 R402). -/
abbrev cpgUpkStat (g : Nat) : Nat := regKey (0x184 + g / 4) (0x204 + 0x400 * (g % 4))
/-- CPG_REREF_TT (16 R402). -/
abbrev cpgRerefTt (g : Nat) : Nat := regKey (0x184 + g / 4) (0x208 + 0x400 * (g % 4))
/-- CPG_TCOEF (16 R402). -/
abbrev cpgTcoef (g : Nat) : Nat := regKey (0x184 + g / 4) (0x20C + 0x400 * (g % 4))
/-- CPG_FMAX (16 R402). -/
abbrev cpgFmax (g : Nat) : Nat := regKey (0x184 + g / 4) (0x210 + 0x400 * (g % 4))
/-- CPG_SWEEP_CNT (16 R402). -/
abbrev cpgSweepCnt (g : Nat) : Nat := regKey (0x184 + g / 4) (0x214 + 0x400 * (g % 4))
/-- CPG_SENT_DEV_CNT (16 R402). -/
abbrev cpgSentDevCnt (g : Nat) : Nat := regKey (0x184 + g / 4) (0x218 + 0x400 * (g % 4))
/-- CPG_REMAP_CNT (16 R402). -/
abbrev cpgRemapCnt (g : Nat) : Nat := regKey (0x184 + g / 4) (0x21C + 0x400 * (g % 4))
/-- CPG_REFRESH_CNT (16 R402). -/
abbrev cpgRefreshCnt (g : Nat) : Nat := regKey (0x184 + g / 4) (0x220 + 0x400 * (g % 4))
/-- CPG_UPK_CMD (16 R402). -/
abbrev cpgUpkCmd (g : Nat) : Nat := regKey (0x184 + g / 4) (0x224 + 0x400 * (g % 4))
/-- LNK_STAT (18 R459). -/
abbrev lnkStat (i : Nat) : Nat := regKey (0x1D0 + i) (0x100)
/-- LNK_CTL (18 R459). -/
abbrev lnkCtl (i : Nat) : Nat := regKey (0x1D0 + i) (0x104)
/-- LNK_CFG (18 R459). -/
abbrev lnkCfg (i : Nat) : Nat := regKey (0x1D0 + i) (0x108)
/-- LNK_RETRY_CNT (18 R459). -/
abbrev lnkRetryCnt (i : Nat) : Nat := regKey (0x1D0 + i) (0x10C)
/-- LNK_CRC_CNT (18 R459). -/
abbrev lnkCrcCnt (i : Nat) : Nat := regKey (0x1D0 + i) (0x110)
/-- LNK_FEC_CORR_CNT (18 R459). -/
abbrev lnkFecCorrCnt (i : Nat) : Nat := regKey (0x1D0 + i) (0x114)
/-- LNK_FEC_UNC_CNT (18 R459). -/
abbrev lnkFecUncCnt (i : Nat) : Nat := regKey (0x1D0 + i) (0x118)
/-- LNK_SYM_ERR (18 R459). -/
abbrev lnkSymErr (i : Nat) : Nat := regKey (0x1D0 + i) (0x11C)
/-- LNK_DOWN_CNT (18 R459). -/
abbrev lnkDownCnt (i : Nat) : Nat := regKey (0x1D0 + i) (0x120)
/-- LNK_TRAIN_US (18 R459). -/
abbrev lnkTrainUs (i : Nat) : Nat := regKey (0x1D0 + i) (0x124)
/-- LNK_PEER_SERIAL_LO (18 R459). -/
abbrev lnkPeerSerialLo (i : Nat) : Nat := regKey (0x1D0 + i) (0x128)
/-- LNK_PEER_SERIAL_HI (18 R459). -/
abbrev lnkPeerSerialHi (i : Nat) : Nat := regKey (0x1D0 + i) (0x12C)
/-- LNK_PEER_ID (18 R459). -/
abbrev lnkPeerId (i : Nat) : Nat := regKey (0x1D0 + i) (0x130)
/-- LNK_PEER_VER (18 R459). -/
abbrev lnkPeerVer (i : Nat) : Nat := regKey (0x1D0 + i) (0x134)
/-- LNK_VC_CREDIT (18 R459). -/
abbrev lnkVcCredit (i n : Nat) : Nat := regKey (0x1D0 + i) (0x140 + 0x4 * n)
/-- LNK_SHEET (18 R432 (LNK0 only)). -/
abbrev lnkSheet : Nat := regKey 0x1D0 (0x180)
/-- TOP_COORD (19 R487). -/
abbrev topCoord : Nat := regKey 0x1DC (0x100)
/-- TOP_RIG_CMD (19 R487). -/
abbrev topRigCmd : Nat := regKey 0x1DC (0x104)
/-- TOP_RIG_STAT (19 R487). -/
abbrev topRigStat : Nat := regKey 0x1DC (0x108)
/-- TOP_RIG_CFG (19 R487). -/
abbrev topRigCfg : Nat := regKey 0x1DC (0x10C)
/-- TOP_NOROUTE_CNT (19 R487). -/
abbrev topNorouteCnt : Nat := regKey 0x1DC (0x110)
/-- TOP_PLAN (19 R487). -/
abbrev topPlan (n : Nat) : Nat := regKey 0x1DC (0x140 + 0x4 * n)
/-- TOP_FOUND (19 R487). -/
abbrev topFound (n : Nat) : Nat := regKey 0x1DC (0x180 + 0x4 * n)
/-- TOP_LABEL (19 R487). -/
abbrev topLabel (n : Nat) : Nat := regKey 0x1DC (0x200 + 0x4 * n)
/-- JRY_STAT (19 R488). -/
abbrev jryStat : Nat := regKey 0x1DD (0x100)
/-- JRY_CMD (19 R488). -/
abbrev jryCmd : Nat := regKey 0x1DD (0x104)
/-- JRY_CFG (19 R488). -/
abbrev jryCfg : Nat := regKey 0x1DD (0x108)
/-- JRY_TAKE_CNT (19 R488). -/
abbrev jryTakeCnt : Nat := regKey 0x1DD (0x10C)
/-- SHR_CFG (17 R429). -/
abbrev shrCfg : Nat := regKey 0x1DE (0x100)
/-- SHR_STALL_CNT (17 R429). -/
abbrev shrStallCnt : Nat := regKey 0x1DE (0x104)
/-- SHR_RECOVER_CNT (17 R429). -/
abbrev shrRecoverCnt : Nat := regKey 0x1DE (0x108)
/-- SHR_DELAY_CNT (17 R429). -/
abbrev shrDelayCnt : Nat := regKey 0x1DE (0x10C)
/-- SHR_LAST_EVT (17 R429). -/
abbrev shrLastEvt : Nat := regKey 0x1DE (0x110)
/-- SHR_RING_CFG (17 R429). -/
abbrev shrRingCfg (n : Nat) : Nat := regKey 0x1DE (0x400 + 0x40 * n)
/-- SHR_RING_PART (17 R429). -/
abbrev shrRingPart (n : Nat) : Nat := regKey 0x1DE (0x404 + 0x40 * n)
/-- SHR_RING_LEFT (17 R429). -/
abbrev shrRingLeft (n : Nat) : Nat := regKey 0x1DE (0x408 + 0x40 * n)
/-- SHR_RING_RIGHT (17 R429). -/
abbrev shrRingRight (n : Nat) : Nat := regKey 0x1DE (0x40C + 0x40 * n)
/-- SHR_RING_STAT (17 R429). -/
abbrev shrRingStat (n : Nat) : Nat := regKey 0x1DE (0x410 + 0x40 * n)
/-- SHR_RING_CMD (17 R429). -/
abbrev shrRingCmd (n : Nat) : Nat := regKey 0x1DE (0x414 + 0x40 * n)
/-- COL_STAT (18 R460). -/
abbrev colStat : Nat := regKey 0x1DF (0x100)
/-- COL_MSG_CNT (18 R460). -/
abbrev colMsgCnt : Nat := regKey 0x1DF (0x104)
/-- COL_REJECT_CNT (18 R460). -/
abbrev colRejectCnt : Nat := regKey 0x1DF (0x108)
/-- COL_GRP_CFG (18 R460). -/
abbrev colGrpCfg (n : Nat) : Nat := regKey 0x1DF (0x400 + 0x50 * n)
/-- COL_GRP_PART (18 R460). -/
abbrev colGrpPart (n : Nat) : Nat := regKey 0x1DF (0x404 + 0x50 * n)
/-- COL_GRP_MBR (18 R460). -/
abbrev colGrpMbr (n k : Nat) : Nat := regKey 0x1DF (0x408 + 0x50 * n + 0x4 * k)

end Key

end Sys2Proof.Machine
end

