-- ==== Sys2Proof/Machine/State.lean ====
section
/-! DEFINITION. The state of the K48, its faults and refusals, and its reset.

Every register of the pages stands in `State.regs`, by key, unless its value is a function of other
state. The groups below hold what the spec gives the machine beside its registers. A register or a
group that lists nothing is at its reset value. -/

namespace Sys2Proof.Machine

/-- Why the machine stops with a fault. -/
inductive Fault where
  /-- A rail above its absolute maximum rating (26 R637): RELEASE_CROSSING alone raises it, on such a voltage. The manual
  gives no behaviour beyond the ratings. Safe. -/
  | beyondRatings
  deriving DecidableEq, Repr

/-- Why the model gives a command no meaning. -/
inductive Refusal where
  /-- An arm of `exec` not written yet raises it. Safe. -/
  | notModelled (mnemonic : String)
  deriving DecidableEq, Repr

/-! ### Time, arbitration, outputs -/

/-- Time and the Telltale counter (03 Table 3.1, 20 R489, R503). -/
structure Time where
  /-- Arbitration cycles of 2.5 ns since reset; four make a tick. -/
  cycle : Nat := 0
  /-- The 64-bit Telltale count. -/
  count : BitVec 64 := 0
  /-- The counter's internal fraction, in 1/64 tick. -/
  frac : BitVec 6 := 0
  /-- The TTL_NOW_HI shadow. -/
  shadow : Word := 0
  deriving DecidableEq, Repr

/-- One master's latest write of one field in the current Telltale window (03 R44). -/
structure ArbEntry where
  key : Nat
  lo : Nat
  master : Nat
  value : Nat
  cycle : Nat
  /-- Whether this value is the one that stands. -/
  stands : Bool
  deriving DecidableEq, Repr

/-- Arbitration between masters (03 R40 to R48). -/
structure Arb where
  /-- The writes of the current window. -/
  log : List ArbEntry := []
  /-- What doorbells of both views held before their first write of the current window (04 R79). -/
  bells : List (Nat × Nat) := []
  /-- What registers written or cleared in this cycle held before (R40, R41). -/
  old : List (Nat × Word) := []
  /-- Faults latched in this cycle: page, cause, detail (R49). -/
  latched : List (Nat × Nat × Nat) := []
  /-- Writes of the current arbitration cycle: page and master (R41); and the number of the cycle. -/
  order : List (Nat × Nat) := []
  num : Nat := 0
  deriving DecidableEq, Repr

/-- An event-queue record (04 Table 4.8). -/
structure EqRec where
  tag : BitVec 64
  kind : BitVec 4
  status : Byte
  detail : Byte
  clamped : Bool := false
  approx : Bool := false
  frameLong : Bool := false
  sqHead : BitVec 16 := 0
  sq : BitVec 3 := 0
  a : Word := 0
  b : Word := 0
  c : Word := 0
  phase : Bool := false
  /-- Not of the record: the number of the descriptor whose life ends when this is written. -/
  ends : Option Nat := none
  deriving DecidableEq, Repr

/-- The clients of the Telltale comparators (20 R497): a ring entry's passes and steps, collectives, a panel
group's re-references, power orders. -/
inductive TtlClient where
  | ring (k : Nat)
  | collective
  | reref (g : Nat)
  /-- The sweep burst of an idle Canvas die (23 R568). -/
  | sweep (d : Nat)
  | power
  /-- The self-test of a Clew that a sealed partition holds (24 R587). -/
  | test (i : Nat)
  deriving DecidableEq, Repr

/-- A message or notice that leaves the package over Glicor Link, a ring or a leaf (17, 18, 19). -/
inductive Msg where
  /-- A DATA flit, or the resending of one, with its sequence number (18 R434, R437), and the splice point that a transfer of
  activations carries, for which Table 18.5 has no place (10 R227). -/
  | data (seq : BitVec 12) (flit : BitVec 2048) (splice : Option Nat)
  | nak (seq : BitVec 12)
  | ack (seq : BitVec 12) (credits : List Nat)
  | telltale (flit : BitVec 2048)
  | identity (rec : BitVec 512)
  /-- A message segment (18 R443): destination, virtual channel, message number, index, bytes. -/
  | segment (dst : BitVec 16) (vc : Nat) (msg : Nat) (index : Nat) (bytes : List Byte)
  | segmentAck (msg : Nat)
  /-- A ring message by name with its numbers (17). -/
  | ring (name : String) (args : List Nat)
  /-- A message to a leaf or a jury peer by name with its numbers (19). -/
  | leaf (name : String) (args : List Nat)
  deriving DecidableEq, Repr

/-- What the block gives to the outside, in the order it gives it. -/
inductive Out where
  /-- The value a register read returns to its master. -/
  | reply (m : Master) (v : Word)
  /-- A posted write of an EQ record to slot `slot` of EQ `e` of partition `p` (04 R68). -/
  | eqRec (p e slot : Nat) (addr : BitVec 64) (r : EqRec)
  /-- A posted write of a token record (04 R71, R72). -/
  | token (p : Nat) (tag : BitVec 64) (addr : BitVec 64) (w : Word)
  /-- An MSI-X message of vector `v` (04 R58). -/
  | msix (v : Nat) (addr : BitVec 64) (data : Word)
  /-- A posted write of a device-event record (28 R663). -/
  | devRec (slot : Nat) (addr : BitVec 64) (words : List Word)
  /-- A read of host memory by function `fn`: 0 is the PF, n + 1 is VF n (04 R56, R67, R73, R76). -/
  | hostRead (fn : Nat) (addr : BitVec 64) (len : Nat)
  /-- Status and moved written back into a migration descriptor of the host ring (08 R166). -/
  | writeBack (addr : BitVec 64) (tag : BitVec 64) (status count : Nat)
  /-- The destination DPAs of a host-ring burst written to host memory (08 R166). -/
  | dstList (addr : Nat) (dpas : List Nat)
  /-- What a device agent's load returned (05 R88), and whether it came poisoned (08 R173). -/
  | loaded (a : Agent) (dpa : Nat) (bytes : List Byte) (poisoned : Bool)
  /-- An answer to a pin (10 R223): 0 GRANT, 1 REDIRECT, 2 DROPPED; tier, frame, valid, generation. -/
  | pin (answer : Nat) (tier : Nat) (frame : Nat) (valid : Nat) (gen : Byte)
  | link (b : Nat) (m : Msg)
  /-- A message for which the spec names no bundle: it is routed (18, 19). -/
  | routed (dst : BitVec 16) (m : Msg)
  /-- A response on the sideband: code and payload (25). -/
  | sideband (code : Nat) (payload : List Byte)
  /-- A ratline unit sent (21 R512). -/
  | ratline (l : Nat) (back : Bool) (seq : BitVec 12)
  /-- An event that the Telltale comparator fired for a client (20 R497). -/
  | event (client : TtlClient) (target : Nat)
  /-- A message of a firmware update that the K48 sends: its name and its numbers (25 R613). -/
  | firmware (name : String) (args : List Nat)
  /-- An SPDM response by name, with what it measures (25 R615). -/
  | spdm (name : String) (data : List Nat)
  /-- What the JTAG port's IDCODE register reads (26 R635). -/
  | idcode (v : Word)
  deriving DecidableEq, Repr

/-- An MSI-X table entry (04 R57). -/
structure MsixEntry where
  addr : BitVec 64 := 0
  data : Word := 0
  mask : Bool := true
  pend : Bool := false
  deriving DecidableEq, Repr

/-! ### Partitions and queues (04, 06, 07) -/

/-- What a partition holds since its last passing COMMIT (06 R113). -/
structure Held where
  valid : Bool := false
  isSealed : Bool := false
  yrd : Nat := 0
  luf : Nat := 0
  clw : Nat := 0
  cpg : Nat := 0
  bank : Nat := 0
  slots : Nat := 0
  conc : Nat := 0
  bw : Nat := 0
  nearQuota : Nat := 0
  farQuota : Nat := 0
  /-- The frames reserved for a sealed partition: first frame and length (07 R137). -/
  frames : List (Nat × Nat) := []
  deriving DecidableEq, Repr

/-- A partition beside its registers (06). -/
structure Part where
  /-- The state held before RESETTING. -/
  prior : Nat := 0
  held : Held := {}
  /-- A key pair exists (R118), and one is owed because the random source failed (28 R665). -/
  keyPair : Bool := false
  keyOwed : Bool := false
  /-- Tick at which a key destruction that is not confirmed began (R131). -/
  destroy : Option Nat := none
  /-- The key destruction belongs to a Function Level Reset (R119). -/
  flr : Bool := false
  /-- A key engine did not confirm the destruction within 1 ms (R131). -/
  keyFailed : Bool := false
  /-- Commands written to its PRT_CMD in this tick that follow those of lower partitions: master, byte enables, op (R112). -/
  later : List (Master × BitVec 4 × Nat) := []
  deriving DecidableEq, Repr

/-- An event queue beside its registers (04 R71 to R75). -/
structure EqSt where
  /-- Records written and not released. -/
  used : Nat := 0
  /-- An odd number of wraps: the phase bit of the next record is clear. -/
  odd : Bool := false
  count : Nat := 0
  since : Option Nat := none
  wait : List EqRec := []
  deriving DecidableEq, Repr

/-- What a live descriptor waits for (04 R64). -/
inductive DescKind where
  | request
  | cancel (target : BitVec 64)
  | load (handle : Nat)
  | unload (handle : Nat)
  | nop
  deriving DecidableEq, Repr

/-- A live descriptor. -/
structure Desc where
  /-- Its number in fetch order. -/
  num : Nat
  part : Nat
  sq : Nat
  tag : BitVec 64
  kind : DescKind
  /-- Its COMPLETION record waits for a slot of its EQ (R74). -/
  ended : Bool := false
  deriving DecidableEq, Repr

/-- A request's scope (10 R206). -/
inductive Scope where
  | none
  | slot (s : Nat)
  | pair (p d : Nat)
  deriving DecidableEq, Repr

/-- The fields of a REQUEST descriptor (04 Table 4.5). -/
structure ReqDesc where
  prio : Nat
  allowDrop : Bool
  orderFree : Bool
  shroud : Bool
  model : Nat
  domain : Nat
  count : Nat
  maxNew : Nat
  outAddr : BitVec 64
  outLog2 : Nat
  ring : Nat
  seed : BitVec 64
  temperature : Word
  topP : Word
  topK : Nat
  stops : List Word
  deriving DecidableEq, Repr

/-- Where a request stands (07 R143, 02 R27, R29). -/
inductive Phase where
  | deferred | lookup | prefill | decode | final | ended
  deriving DecidableEq, Repr

/-- The mass of one query row on a page (13 R307): the page's entry, the KV head, and the mass in FP32. -/
structure PageMass where
  entry : Nat
  head : Nat
  mass : Nat
  deriving DecidableEq, Repr

/-- A live request. -/
structure Req where
  part : Nat
  sq : Nat
  tag : BitVec 64
  d : ReqDesc
  tokens : List Word
  frameLong : Bool
  phase : Phase
  fetchNo : Nat
  admitNo : Nat := 0
  /-- The request instance's number (24 R591). -/
  inst : Nat
  scope : Scope := .none
  bucket : Nat := 0
  /-- Pages set aside per shard and not spliced: the commitment of 07 R136, in pages. -/
  commit : Nat := 0
  preempted : Bool := false
  /-- Marked as a victim, and for the request whose lane this will be (07 R142). -/
  marked : Option (BitVec 64) := none
  /-- A lane of its phase is held. -/
  lane : Bool := false
  /-- Status and detail of the last NOTICE while deferred (07 R141). -/
  notice : Option (Nat × Nat) := none
  /-- Prefill position: layer and query page of the next page step. -/
  layer : Nat := 0
  qpage : Nat := 0
  /-- Answer tokens sampled, token records written, consumed count last read (04 R73). -/
  j : Nat := 0
  written : Nat := 0
  consumed : Nat := 0
  /-- The answer tokens sampled so far. -/
  answer : List Word := []
  /-- Token records that wait for the output ring: token and last. -/
  owed : List (BitVec 18 × Bool) := []
  /-- Tick of the last read of the consumed count, and whether that read left the ring full (04 R73). -/
  lastRead : Nat := 0
  ringFull : Bool := false
  /-- The token that the walks of the step that runs drew (14 R333). -/
  drawn : Option Word := none
  /-- The attention masses that the walks of the step that runs formed (13 R307). -/
  masses : List PageMass := []
  /-- Its step of the decode round that runs is done (07 R139). -/
  stepped : Bool := false
  spliced : Nat := 0
  approx : Bool := false
  clamped : Bool := false
  /-- A status and detail with which it ends at its next step (04 R77, 06 R111). -/
  stop : Option (Nat × Nat) := none
  /-- The cause that it tells its ring with that end (17 R417). -/
  stopCause : Option RingCause := none
  /-- The status with which it ends once its final pass is done (07 R145). -/
  fin : Nat × Nat := (0, 0)
  /-- Adopted as a jury spare: no record is posted for it (17 R427). -/
  adopted : Bool := false
  deriving DecidableEq, Repr

/-- Round-robin positions of fetching and of admission (04 R61, 07 R147). -/
structure RoundRobin where
  part : Nat := 0
  sq : SMap Nat := []
  adm : Nat := 0
  /-- Lanes released in this tick and not counted yet: partition, and whether of decode (07 R147). -/
  freed : List (Nat × Bool) := []
  /-- Requests admitted so far: the order of admission. -/
  admits : Nat := 0
  deriving DecidableEq, Repr

/-! ### Memory, page tables, index, migration (08, 09, 10) -/

/-- Why frames are in use. -/
inductive Use where
  /-- A page or holding of a sequence shard of a partition. -/
  | kv (part : Nat)
  /-- An indexed page, by its payer (10 R214). -/
  | index (payer : Option Nat)
  /-- The destination frames of a burst. -/
  | burst (part : Nat)
  /-- A model image's data (22). -/
  | model (part handle : Nat)
  deriving DecidableEq, Repr

/-- Consecutive frames in use, from frame number `start` (a DPA divided by 4,096). -/
structure Extent where
  start : Nat
  len : Nat
  use : Use
  /-- The key index of the frames (R161); frames in no extent hold 2,047. -/
  key : Nat
  deriving DecidableEq, Repr

/-- Frames in the scrub backlog, the partition that released them, and the key index that they hold until they are
scrubbed (06 R120, 08 R162). -/
structure ScrubItem where
  start : Nat
  len : Nat
  part : Option Nat
  key : Nat
  deriving DecidableEq, Repr

/-- Frames that became free in the current tick, and the kinds of operation for which they count already: 0 an admission
decision, 1 a check of a deferred burst queue, 2 a take of the page manager (07 R147, 08 R171, 09 R198). -/
structure FreshFrames where
  start : Nat
  len : Nat
  seen : List Nat := []
  deriving DecidableEq, Repr

/-- Memory (08). Frames are numbered by DPA divided by 4,096. -/
structure Mem where
  /-- Bytes by DPA: both tiers and Spar SRAM; an unlisted byte reads 0 (R162, R176). -/
  bytes : SMap Byte := []
  /-- Frames whose zero-fill bit is clear (R162). -/
  written : SMap Bool := []
  /-- Corrected errors of the last 24 hours: line (DPA divided by 64) and tick (R159). -/
  ce : List (Nat × Nat) := []
  retired : List Nat := []
  /-- Frames that are retired once what they hold has left them, with the unit that counts them (R159). -/
  retiring : List (Nat × Nat) := []
  used : List Extent := []
  scrub : List ScrubItem := []
  /-- Frames freed in this tick, and the kind of operation that runs and does not count them yet. -/
  fresh : List FreshFrames := []
  hide : Option Nat := none
  /-- Bytes written under a key pair that is overwritten since: start, length, and the number of the destruction
  (06 R119, 08 R161). -/
  garbled : List (Nat × Nat × Nat) := []
  /-- Lines that read poisoned (R173, 24 R598), by DPA divided by 64. -/
  poison : List Nat := []
  /-- Blocks of the device regions in use, by DPA, with their lengths. -/
  blocks : List (Nat × Nat) := []
  /-- Refresh interval in force of a unit (near stack 0-7, far channel 8-23), in ticks (R158). -/
  refresh : SMap Nat := []
  /-- Units that failed in service (R174, R175). -/
  lost : List Nat := []
  /-- Memory training of this boot has ended (R176, 22 Table 22.10). -/
  trained : Bool := false
  deriving DecidableEq, Repr

/-- A sequence shard (09). -/
structure Shard where
  part : Nat
  tag : BitVec 64
  /-- Its number among the package's layer shards of the model. -/
  idx : Nat
  /-- DPA of its page-table block. -/
  pt : Nat
  len : Nat := 0
  /-- R of a sliding-window layer, or 0. -/
  ring : Nat := 0
  heads : Nat
  dim : Nat
  /-- Frames of a page (R179). -/
  units : Nat
  /-- DPA of the 16-byte entry of the device region that records the reservation (R187). -/
  resEntry : Nat
  /-- First frames of the pages of the holding, near pages first (R186). -/
  holding : List Nat := []
  reservation : Option Nat := none
  /-- First frames of the mirror holding (17 R407). -/
  mirrorHold : List Nat := []
  held : Bool := false
  waiting : Bool := false
  /-- Spliced pages: page number and DPA of the splice record (10 R210). -/
  splices : List (Nat × Nat) := []
  deriving DecidableEq, Repr

/-- A node or tail leaf of the prefix index (10 R210). -/
structure Node where
  scope : Scope
  digest : BitVec 384
  hash : BitVec 128
  parent : Option (BitVec 128)
  tokens : List Word
  payer : Option Nat
  /-- DPAs of the splice records, one per layer shard. -/
  recs : List Nat
  /-- DPA of its block in the far device region. -/
  block : Nat
  /-- Tick at which it was inserted (R228). -/
  born : Nat := 0
  deriving DecidableEq, Repr

/-- A commit or drop that waits on an entry (10 R221, R224, R225). -/
structure Pending where
  entry : Nat
  drop : Bool
  since : Nat
  /-- The page that leaves is one that nothing refers to any longer (R232). -/
  loose : Bool := false
  /-- Later pins wait (R225). -/
  barred : Bool := false
  deriving DecidableEq, Repr

/-- A reader waiting to pin an entry (09 R193, 10 R225). -/
structure PinWait where
  entry : Nat
  gen : Byte
  deriving DecidableEq, Repr

/-- The state of one page of a burst (08 R168, R170). -/
inductive MoveState where
  | copying | copied | committed | aborted
  deriving DecidableEq, Repr

/-- One page of a burst: source and destination frames, and the entry to commit. -/
structure Move where
  src : Nat
  dst : Nat
  entry : Option Nat
  st : MoveState := .copying
  /-- The engine's pin of the page waits, and is counted (09 R193). -/
  asked : Bool := false
  deriving DecidableEq, Repr

/-- A pool (07 R137) and a tier. -/
structure PoolTier where
  pool : PoolId
  tier : Tier
  deriving DecidableEq, Repr

/-- Where a burst's descriptor lies (08 R166): it is the K48's own, or in the device region, or in the host ring. -/
inductive BurstHome where
  | own
  | device (dpa : Nat)
  | ring (addr : BitVec 64)
  deriving DecidableEq, Repr

/-- A migration burst (08 R166). -/
structure Burst where
  op : Nat
  /-- The owning partition; 128 for pages that no partition pays for (10 R214). -/
  part : Nat
  key : Nat
  tag : BitVec 64
  units : Nat
  moves : List Move
  dest : PoolTier
  home : BurstHome := .own
  memErr : Bool := false
  /-- Where the destination DPAs are written. -/
  dstList : Nat := 0
  deriving DecidableEq, Repr

/-- A scatter descriptor in flight (09 R196): its engine, the slot of the macro that issued it, where
it lies, and what it held. -/
structure Scatter where
  spar : Nat
  slot : Nat
  dpa : Nat
  desc : BitVec 512
  /-- Its pin of the page that it copies waits, and is counted (R193). -/
  asked : Bool := false
  deriving DecidableEq, Repr

/-- Paging: sequence shards, index, pins, bursts (08, 09, 10). -/
structure Paging where
  shards : List Shard := []
  nodes : List Node := []
  pending : List Pending := []
  pinWait : List PinWait := []
  /-- Tick at which a frame of a pool with a held shard was last freed (09 R188). -/
  holdTick : List (PoolId × Nat) := []
  /-- Binding slots whose domain key exists (10 R209). -/
  domainKeys : List Nat := []
  /-- Far pages queued for promotion, by entry (10 R222). -/
  promote : List Nat := []
  deferred : List Burst := []
  flight : List Burst := []
  /-- Bursts that wait for one of the 16 places in flight (R169), and the number of the next burst of
  an internal client. -/
  waiting : List Burst := []
  burstNo : Nat := 0
  /-- Scatter descriptors in flight, in issue order. -/
  scatter : List Scatter := []
  /-- Tick of the last age period (10 R218). -/
  aged : Nat := 0
  /-- Pool tiers on which reefing runs, and on which it is forced (10 R219). -/
  reefing : List PoolTier := []
  forced : List PoolTier := []
  deriving DecidableEq, Repr

/-! ### Ordering (05) -/

/-- One access of a device agent that is not performed yet. -/
structure MemOp where
  store : Bool
  /-- load-acquire or store-release. -/
  sem : Bool
  dpa : Nat
  len : Nat
  data : List Byte := []
  late : Bool := false
  /-- Macros that the agent's Boom had issued before it (R94). -/
  after : Nat := 0
  deriving DecidableEq, Repr

/-- What an agent asks for behind a SYNC: an access of memory, a further SYNC, or an access of a register (R93, R95). -/
inductive AgentItem where
  | mem (o : MemOp)
  | fence
  | write (a : RegAddr) (be : BitVec 4) (v : Word)
  | read (a : RegAddr) (be : BitVec 4)
  /-- A read without side effects. -/
  | peek (a : RegAddr) (be : BitVec 4)
  deriving DecidableEq, Repr

/-- What an agent has begun: accesses outstanding in program order, a SYNC that waits and the macros that its Boom had
issued before it, and what follows the SYNC (05 R88 to R95). -/
structure AgentSt where
  open_ : List MemOp := []
  sync : Bool := false
  syncAfter : Nat := 0
  behind : List AgentItem := []
  deriving DecidableEq, Repr

/-! ### Reliability (24) -/

/-- The instances recorded on one unit in one epoch (24 R591). -/
structure Usage where
  unit : UnitId
  epoch : Nat
  parts : List Nat := []
  insts : List Nat := []
  saturated : Bool := false
  deriving DecidableEq, Repr

/-- What the K48 keeps of an instance for SUSPECT events: its EQ and its admission order (24 R592, R594). -/
structure InstInfo where
  inst : Nat
  part : Nat
  sq : Nat
  tag : BitVec 64
  admitNo : Nat := 0
  /-- The instance was stopped by a Function Level Reset (R595). -/
  gone : Bool := false
  deriving DecidableEq, Repr

/-- An armed injection (24 R598, R603). -/
structure Inject where
  kind : Nat
  unit : UnitId
  arg : Nat
  deriving DecidableEq, Repr

/-- Detection (24). -/
structure Rel where
  usage : List Usage := []
  /-- Epochs in which partitions were outside FREE: partition, first epoch, last epoch once FREE again (R605). -/
  outside : List (Nat × Nat × Option Nat) := []
  insts : List InstInfo := []
  nextInst : Nat := 0
  /-- Ticks of the last start of a test and of the last pass, by unit key. -/
  testStart : SMap Nat := []
  testPass : SMap Nat := []
  late : List UnitId := []
  /-- Units of types 7 to 10 out of service (the others have a bit in their registers). -/
  out : List UnitId := []
  inject : Option Inject := none
  /-- Units that an injection alone took out of service (R599). -/
  injected : List UnitId := []
  /-- Lines of which one symbol was corrupted by an injection, by DPA divided by 64. -/
  marred : List Nat := []
  /-- Columns that deviate by an injection until a spare is taken: panel and column. -/
  deviant : List (Nat × Nat) := []
  /-- The next entry of the fault log (R596). -/
  logNext : Nat := 0
  /-- Pages whose FLT_LATCH was set since the aggregator last looked: page, cause, detail, time (R596). -/
  fresh : List (Nat × Nat × Nat × Nat) := []
  deriving DecidableEq, Repr

/-! ### Models (22) and the Spar fabric (11 to 14) -/

/-- One layer shard of a model on this package. -/
structure ShardShape where
  layer : Nat
  heads : Nat
  dim : Nat
  /-- The sliding window, or 0. -/
  window : Nat
  deriving DecidableEq, Repr

/-- Whether an image is loading, loaded, or reached by an UNLOAD_MODEL (04 R671, R81). -/
inductive ModelState where
  | loading | loaded | unloading
  deriving DecidableEq, Repr

/-- A section of an image: its type and its place in the image (22 Table 22.8). -/
structure Section where
  type : Nat
  offset : Nat
  length : Nat
  /-- DPA of the frames it was copied into (R546). -/
  dpa : Nat
  deriving DecidableEq, Repr

/-- A panel group bound to a logical group of a model (16 R376, 22 R549). -/
structure BoundGroup where
  logical : Nat
  phys : Nat
  mode : Nat
  /-- The group was bound by a tag match, and its verify read is still to be made (22 R549). -/
  retained : Bool
  /-- Re-referenced, and given sentinel expectations, since its panels were programmed (16 R379). -/
  referenced : Bool := false
  deriving DecidableEq, Repr

/-- A model image of a partition. -/
structure Model where
  part : Nat
  handle : Nat
  st : ModelState
  digest : BitVec 384
  conduct : Nat
  vocab : Nat
  shards : List ShardShape
  /-- The image holds macro lists of each attention mode (13 R305). -/
  online : Bool
  orderFree : Bool
  /-- A decode walk of the image samples (R72). -/
  samples : Bool
  sections : List Section
  /-- Frames of the image (first frame, length). -/
  frames : List (Nat × Nat)
  /-- First frames of the working memory of each prefill lane (13 R303). -/
  lanes : List Nat
  groups : List BoundGroup
  deriving DecidableEq, Repr

/-- A Spar plan bound to a Spar (11 R242). -/
structure BoundPlan where
  part : Nat
  handle : Nat
  plan : Nat
  spar : Nat
  yards : List Nat
  luffs : List Nat
  clews : List Nat
  banks : List Nat
  deriving DecidableEq, Repr

/-- A walk (12 R261). -/
structure Walk where
  spar : Nat
  id : Nat
  part : Nat
  tags : List (BitVec 64)
  handle : Nat
  plan : Nat
  layer : Nat
  decode : Bool
  /-- Index in the walk table, and of its STEPS entry. -/
  index : Nat
  step : Nat
  /-- DPA of the macro list, and its length. -/
  list : Nat
  count : Nat
  next : Nat := 0
  /-- b0 to b15. -/
  regs : List Word
  /-- First byte of the working memory of its lane (13 R303, 22 R547). -/
  lane : Option Nat := none
  /-- A stop has taken effect at the last macro issued (R275). -/
  stopped : Bool := false
  /-- State areas in banks that are live across the last step_end macro: address, length, and where they
  are spilled (13 R303, 14 R339). -/
  liveAreas : List (Nat × Nat × Option Nat) := []
  /-- Areas copied out when a stop completed: address and bytes. -/
  spilled : List (Nat × List Byte) := []
  test : Bool := false
  deriving DecidableEq, Repr

/-- A macro in flight (12 R273): its walk and index, its slot, the macro with its addresses relocated,
the bounds and pointer lists read at issue, the units it uses, the byte ranges that it reads and
writes, whether its bounds are read, whether work was handed to another unit (a scatter engine, the
collective engine), and whether its accesses are performed. -/
structure MacroSt where
  spar : Nat
  slot : Nat
  walk : Nat
  index : Nat
  part : Nat
  word : BitVec 1024
  bounds : List Nat := []
  lists : List (List Nat) := []
  units : List UnitId := []
  reads : List (Nat × Nat) := []
  writes : List (Nat × Nat) := []
  resolved : Bool := false
  started : Bool := false
  done : Bool := false
  /-- Its number among those that its Boom issued, and whether its accesses are still to begin (05 R94). -/
  num : Nat := 0
  late : Bool := false
  /-- Its pins wait, and are counted (09 R193). -/
  asked : Bool := false
  deriving DecidableEq, Repr

/-- The Spars (11 to 14). -/
structure Fabric where
  plans : List BoundPlan := []
  walks : List Walk := []
  flight : List MacroSt := []
  /-- Macros issued by each Boom; slots freed in this cycle: Spar, slot and
  partition (12 R279). -/
  issued : SMap Nat := []
  freed : List (Nat × Nat × Nat) := []
  /-- Lanes of working memory in use: partition, tag, lane (13 R303). -/
  lanes : List (Nat × BitVec 64 × Nat) := []
  /-- Walks that wait for room: Spar, partition, tags, handle, walk index. -/
  waiting : List (Nat × Nat × List (BitVec 64) × Nat × Nat) := []
  /-- Tick of the latest parity error of a Spar's switch (R257). -/
  parity : List (Nat × Nat × Nat) := []
  /-- Contents of a Clew's stores: the CLEW section of its plan's image (14 R323). -/
  stores : SMap (List Byte) := []
  /-- Tick at which a store word of a Clew was last uncorrectable (14 R342). -/
  storeUe : SMap Nat := []
  /-- The partition whose data a bank last held, plus one (06 R115, 11 R253). -/
  lastUser : SMap Nat := []
  /-- Steps and jobs of a request that have retired: partition, tag, STEPS index (22 R548). -/
  doneSteps : List (Nat × BitVec 64 × Nat) := []
  /-- The last served at a Boom's unreserved positions: a shared partition, or 128 for test walks; and the last walk served of a
  partition on a Boom, by 256 × Boom + partition (12 R274). Each is stored plus one. -/
  turnPart : SMap Nat := []
  turnWalk : SMap Nat := []
  /-- Corrected words of banks in the last 24 hours: bank and tick (11 R256). -/
  bankCe : List (Nat × Nat) := []
  deriving DecidableEq, Repr

/-! ### Canvas (15, 16) -/

/-- A group's tag in non-volatile cells (22 R549). -/
structure GroupTag where
  valid : Bool := false
  digest : BitVec 384 := 0
  logical : Nat := 0
  mode : Nat := 0
  deriving DecidableEq, Repr

/-- A panel group beside its registers (16). -/
structure Group where
  tag : GroupTag := {}
  /-- Partition and handle of the model image that is placed in it. -/
  model : Option (Nat × Nat) := none
  /-- f_G and f_T in Q2.14, and T_ref in 1/4 °C (R383, R385). -/
  fG : Nat := 0x4000
  fT : Nat := 0x4000
  tRef : Option Int := none
  /-- Tick of the last re-reference, and whether one is owed (R386). -/
  lastRef : Option Nat := none
  due : Bool := false
  /-- Sensor reading in 1/4 °C (R385). -/
  temp : Int := 0
  /-- The partition that last held the group, plus one (06 R121). -/
  last : Nat := 0
  /-- Panels that VISIT_NOW asked to be visited (Table 16.5). -/
  visit : List Nat := []
  deriving DecidableEq, Repr

/-- A panel (15, 16), by die × 2,048 + panel. -/
structure Panel where
  out : Bool := false
  /-- Levels by row: bits [4c+3:4c] hold column c, the spares being columns 1,024 to 1,039; an erased
  cell is at level 0 (15 R346). -/
  cells : SMap Nat := []
  /-- The weight columns that took spares, in the order of the spares (R379, R390). -/
  spares : List Nat := []
  /-- Weight columns whose spare is still to be programmed. -/
  sparing : List Nat := []
  /-- Correction factors per weight column in Q2.14; an unlisted one is 1.0 (R383). -/
  factors : SMap Nat := []
  visits : Nat := 0
  /-- Where a deviation stands: column, and deviations seen (R389). -/
  dev : List (Nat × Nat) := []
  /-- Telltale count at the last visit with no deviation (R390). -/
  clean : Nat := 0
  /-- Program cycles (27). -/
  cycles : Nat := 0
  /-- Programming is owed, and the next batch of 8,192 once it has begun (R378, R380). -/
  owed : Bool := false
  batch : Option Nat := none
  /-- A refresh is owed, and the programming is a refresh (R387). -/
  refreshDue : Bool := false
  refreshing : Bool := false
  /-- DPA of the payload's copy (R381), and of the payload in the image. -/
  copy : Option Nat := none
  image : Option Nat := none
  deriving DecidableEq, Repr

/-- One sub-evaluation waiting: job, row tile and column tile, and, once the gain is latched, its
non-zero rows from the `from_`-th on, `count` of them, the gain and policy, and whether it is the RETRY
repeat (15 R356, R357, R365). -/
structure SubEval where
  ti : Nat
  tj : Nat
  latched : Bool := false
  from_ : Nat := 0
  count : Nat := 0
  gain : Nat := 0
  retry : Bool := false
  repeat_ : Bool := false
  deriving DecidableEq, Repr

/-- A Canvas job (15 R348, R364). -/
structure Job where
  /-- Its place among the 64 of its die (R372), and the die. -/
  slot : Nat
  die : Nat
  part : Nat
  tags : List (BitVec 64)
  handle : Nat
  decode : Bool
  /-- Its class, 0 LIVE, 1 STANDARD, 2 BULK (07 Table 7.1), and the index of its STEPS entry. -/
  cls : Nat
  step : Nat
  /-- The job descriptor with its addresses relocated (R349). -/
  desc : BitVec 512
  vectors : Nat
  /-- The vector being evaluated: log2 of s_x, and its integers. -/
  vec : Nat := 0
  exp : Int := 0
  ints : List Int := []
  /-- Sub-evaluations to start; per output column twice the running exact sum of partials and the exact
  value Y*; per column tile the bound of R393 in 2^−10; whether a column was clamped. -/
  todo : List SubEval := []
  sums : SMap Int := []
  exact : SMap Int := []
  slack : SMap Nat := []
  clamped : Bool := false
  deriving DecidableEq, Repr

/-- The Canvas dies. -/
structure Canvas where
  groups : SMap Group := []
  panels : SMap Panel := []
  /-- Jobs that run, in start order. -/
  jobs : List Job := []
  /-- Jobs that wait for one of a die's 64 places, in start order: die, partition, tag, handle, job. -/
  waiting : List (Nat × Nat × BitVec 64 × Nat × Nat) := []
  /-- Tick of the last slot of a die. -/
  slots : SMap Nat := []
  /-- Panels held for upkeep in the slot that runs (R366, R395). -/
  held : List Nat := []
  deriving DecidableEq, Repr

inductive Jtag where
  | idcode | bypass | samplePreload | extest | clamp | highz
  deriving DecidableEq, Repr
/-- A mirror page that this package holds for its ring neighbour: the request, its shard and local page, the first
frame, the scale record and the slots published (17 R416). -/
structure MirrorPage where
  tag : BitVec 64
  shard : Nat
  page : Nat
  frame : Nat
  scale : List Byte
  valid : Nat
  deriving DecidableEq, Repr

/-- What the home made of a pass's partial records: the combined records, and the rows' outputs in BF16 and in
FP32 (17 R415). -/
structure RingResult where
  tag : BitVec 64
  rows : List Byte
  bf16 : List Byte
  fp32 : List Byte
  deriving DecidableEq, Repr

/-- What a message between packages says of itself (18 R448). -/
structure MsgHead where
  part : Nat
  vc : Nat
  dst : Nat
  key : Nat
  tag : Nat
  handle : Nat
  xkind : Nat
  fmt : Nat
  deriving DecidableEq, Repr

/-- Activations that a ring member sent to the next pipeline stage and keeps until that stage's ring releases the pass that
consumes them (17 R406). -/
structure KeptSend where
  tag : BitVec 64
  head : MsgHead
  data : List Byte
  deriving DecidableEq, Repr

/-- A ring entry beside its registers (17). -/
structure Ring where
  /-- Tick of FORM, and the sides that answered in agreement (R404). -/
  formed : Option Nat := none
  leftOk : Bool := false
  rightOk : Bool := false
  /-- At the leader: the READYs in hand: member, request, layer, pages; and the tick of the first (R411, R423). -/
  readies : List (Nat × BitVec 64 × Nat × Nat) := []
  firstReady : Option Nat := none
  /-- Tick at which this member sent READY and had no START yet, and the leader. -/
  sentReady : Option (Nat × Nat) := none
  /-- The pass that runs: T0, D, its steps, the next step to begin, ticks added by DELAY, the steps that this
  member and its left neighbour released, and the DELAYs taken: member and step (R411, R412). -/
  running : Bool := false
  t0 : Nat := 0
  d : Nat := 0
  steps : Nat := 0
  step : Nat := 0
  moved : Nat := 0
  released : List Nat := []
  leftReleased : List Nat := []
  delayed : List (Nat × Nat) := []
  /-- The SWEEPs of the decode step that runs: request, shard, and the rows and queries carried (R414). -/
  sweeps : List (BitVec 64 × Nat × List Byte) := []
  /-- Partial records that the home holds: request, member, record; and what it made of them (R414, R415). -/
  partials : List (BitVec 64 × Nat × RingPartial) := []
  results : List RingResult := []
  /-- The stalled member and the tick of the STALL while RECOVERING; rolled back (R423, R426). -/
  stalled : Option Nat := none
  since : Nat := 0
  rolled : Bool := false
  /-- Mirror pages held for the left neighbour (R416). -/
  mirror : List MirrorPage := []
  /-- Activations kept for the next stage, oldest first (R406). -/
  kept : List KeptSend := []
  /-- A paired ring recovers: the tick since which this entry's passes are held (R422). -/
  pairedSince : Option Nat := none
  deriving DecidableEq, Repr
/-! ### Glicor Link (18) -/

/-- A DATA flit sent and not covered by an ack: its sequence number, its bits, and the message and
segment that it is part of (R437). -/
structure SentFlit where
  seq : Nat
  flit : BitVec 2048
  msg : Nat
  index : Nat
  splice : Option Nat := none
  deriving DecidableEq, Repr

/-- A segment to be sent on a bundle, or sent and not yet acknowledged: its flits without sequence
numbers, acks and credits, and how many were sent (R443, R453). -/
structure TxSeg where
  msg : Nat
  index : Nat
  bundle : Nat
  vc : Nat
  part : Option Nat
  dst : BitVec 16
  flits : List (BitVec 2048)
  sent : Nat := 0
  /-- The splice point of the request whose activations it carries (10 R227). -/
  splice : Option Nat := none
  deriving DecidableEq, Repr

/-- A message being sent: its number, the macro that sent it (Spar and slot), its virtual channel and destination
(R448, R451). -/
structure TxMsg where
  num : Nat
  owner : Nat × Nat
  /-- The macro retires with the message: a SEND, or a GATHER away from the root. -/
  retires : Bool
  vc : Nat
  dst : BitVec 16
  deriving DecidableEq, Repr

/-- A message being received, or received and not yet taken (R443): the fields of its segment headers,
and the segments present. -/
structure RxMsg where
  src : BitVec 16
  vc : Nat
  msgId : Nat
  total : Nat
  count : Nat
  key : Nat
  tag : BitVec 64
  handle : Nat
  xkind : Nat
  fmt : Nat
  parts : List (Nat × List Byte)
  deriving DecidableEq, Repr

/-- A bundle beside its registers. -/
structure Bundle where
  /-- Next sequence number to send, and the flits not acknowledged, oldest first (R437). -/
  nextSeq : Nat := 0
  unacked : List SentFlit := []
  /-- Next sequence number expected, and whether a NAK was sent and the expected flit is not in. -/
  expect : Nat := 0
  nakSent : Bool := false
  /-- Tick at which ack last advanced or a replay last began. -/
  lastAck : Nat := 0
  /-- Ticks of the replays of the last 10 ms, and replays since ack last advanced (R456). -/
  replays : List Nat := []
  stuck : Nat := 0
  /-- Flits to send again, oldest first (R437). -/
  again : List SentFlit := []
  /-- Per VC: flits sent, credits returned by the peer, flits of ours freed since training, all modulo
  4,096; the tick since which its credit is zero with flits waiting (R438, R456). -/
  sent : SMap Nat := []
  returned : SMap Nat := []
  freed : SMap Nat := []
  zero : SMap Nat := []
  /-- VC whose credit count the next flit carries (R435), rotation position (R440). -/
  cvc : Nat := 0
  pos : Nat := 0
  /-- Weighted round-robin: turns left per partition (128 for device traffic) × 8 + VC; and the shared
  partition served last. -/
  turns : SMap Nat := []
  lastShared : Nat := 0
  /-- Payload of the segments whose flits arrive, by source coordinates × 8 + VC (R443). -/
  gather : SMap (List Byte) := []
  /-- Tick at which training began, and at which IDENT was entered; attempts since DOWN, and the tick of the next
  attempt (R449, R450). -/
  trainStart : Option Nat := none
  identAt : Option Nat := none
  attempts : Nat := 0
  retryAt : Option Nat := none
  /-- Serial and coordinates of the peer before it went DOWN (R455). -/
  oldPeer : Option (Nat × Nat) := none
  deriving DecidableEq, Repr

/-- Glicor Link. -/
structure Links where
  /-- Owner of each of the 256 rotation positions of every bundle; 0xFF for none (R440). -/
  rot : SMap Nat := []
  bundles : SMap Bundle := []
  tx : List TxSeg := []
  txMsgs : List TxMsg := []
  /-- Messages numbered so far, and the next message ID of each VC (Table 18.5). -/
  msgs : Nat := 0
  msgIds : SMap Nat := []
  /-- The next bundle of the round-robin of segments (R443). -/
  spread : Nat := 0
  /-- Messages of which segments are missing, and messages delivered in order and not yet taken. -/
  rx : List RxMsg := []
  inbox : List RxMsg := []
  /-- Messages delivered: source, VC, message ID (R454). -/
  delivered : List (Nat × Nat × Nat) := []
  /-- XFER macros that wait for messages: Spar, slot, tick of issue (R448). -/
  waits : List (Nat × Nat × Nat) := []
  deriving DecidableEq, Repr

/-! ### Topology (19) -/

/-- A takeover that runs on this spare (R477). -/
structure Takeover where
  x : Nat
  /-- 0 fence, 1 rebind, 2 settle. -/
  stage : Nat
  since : Nat
  /-- Leaves that have not confirmed. -/
  left : List Nat
  /-- Packages that asked for it; `none` for a register write. -/
  asked : List (Option Nat)
  deriving DecidableEq, Repr

/-- The machine tree. -/
structure Topology where
  /-- Destination, and its rails of planes A and B as the leaves last reported them (R469). -/
  reach : List (Nat × Nat × Nat) := []
  admitted : List Nat := []
  /-- The plan that the last LOAD took, and the bundles classed since the rig check last began (R471, R472). -/
  plan : Option (List Word) := none
  classed : List Nat := []
  /-- Bundles on which RIG_OK was sent, and received (R473). -/
  rigSent : List Nat := []
  rigGot : List Nat := []
  /-- Tick at which the training of all bundles first ended (R486). -/
  trained : Option Nat := none
  /-- Coordinates of the spare before a takeover (R479, R484). -/
  spare : Option Nat := none
  take : Option Takeover := none
  /-- Takeovers that this member asked for: X and the spare slot asked last (R477). -/
  asks : List (Nat × Nat) := []
  deriving DecidableEq, Repr
/-! ### The Telltale (20) -/

/-- What the last TELLTALE flit of a bundle said (R491, R493): its sender's root ID, hops, state and send time;
its local receive time, both in 1/64 tick; and the tick it came in. -/
structure TtlPeer where
  root : BitVec 96
  hops : Nat
  state : Nat
  tTx : Nat
  rx : Nat
  heard : Nat
  deriving DecidableEq, Repr

/-- A registered event (R497): target tick, client, the dies it wakes, and the tick of its registration. -/
structure TtlEvent where
  target : Nat
  client : TtlClient
  dies : List Nat
  tick : Nat
  deriving DecidableEq, Repr

/-- The Telltale beside its registers and its count. -/
structure Telltale where
  peers : List (Nat × TtlPeer) := []
  /-- Per bundle: the send times of the flits of which the echo may still come, the number of the next
  exchange, and the cycle from which the next flit may go (R436). -/
  sent : SMap (List Nat) := []
  seq : SMap Nat := []
  next : SMap Nat := []
  /-- The bundle of the upstream. -/
  upstream : Option Nat := none
  /-- Consecutive exchanges that meet the lock condition, and that were discarded; the tick of the last valid
  one; the tick of the last state change (R494, R504, R505). -/
  good : Nat := 0
  bad : Nat := 0
  lastGood : Nat := 0
  since : Nat := 0
  /-- The acquire window has ended, and the counter has been stepped since ACQUIRE or UNSYNC was entered
  (R495, R507). -/
  acquired : Bool := false
  stepped : Bool := false
  /-- The last offset of the upstream while ACQUIRE listens, in 1/64 tick. -/
  theta : Option Int := none
  /-- The steered rate in ppm, and what the count has below 1/64 tick, in 1/64,000,000 tick. -/
  rate : Int := 0
  sub : Nat := 0
  /-- The comparator table by index, ascending (R497). -/
  table : List (Nat × TtlEvent) := []
  /-- Tick of the last write of a software slot's registers (R500). -/
  swev : SMap Nat := []
  deriving DecidableEq, Repr
/-! ### Ratlines and clocks (21) -/

/-- One direction of a ratline link (R512, R525, R526): the next sequence number to send and the oldest not
acknowledged, the next expected, the tick at which ack last advanced, consecutive replays since; the ticks of its CRC
failures; the tick at which a lane test began; bad wires of each half; the tick of the link's last training. -/
structure Ratline where
  next : Nat := 0
  base : Nat := 0
  expect : Nat := 0
  lastAck : Nat := 0
  stuck : Nat := 0
  fails : List Nat := []
  test : Option Nat := none
  low : Nat := 0
  high : Nat := 0
  trained : Nat := 0
  /-- The unacknowledged units of transfers: sequence number, source and destination die (R523). -/
  units : List (Nat × Nat × Nat) := []
  /-- The next position of the rotation (R513). -/
  pos : Nat := 0
  deriving DecidableEq, Repr

/-- What the ratlines took out of service (R521, R528): dies, and the units that left service with them. -/
structure Clocks where
  cut : List Nat := []
  lost : List UnitId := []
  /-- The owners of the rotation positions of every ratline direction, by near shares (R513). -/
  rot : SMap Nat := []
  deriving DecidableEq, Repr

/-! ### Power, idle states, temperatures (23) -/

/-- A domain in an idle state: the state; the tick since which it has been idle; the count at which its exit starts,
where it has a next event; the tick at which its exit ends (R564 to R567). -/
structure IdleSt where
  dom : IdleDomain
  st : Nat
  since : Nat
  start : Option Nat
  ready : Option Nat := none
  deriving DecidableEq, Repr

/-- Power and thermal control beside their registers. -/
structure Power where
  /-- Tick at which the hold of a rail began (R561). -/
  hold : List (Nat × Nat) := []
  /-- Tick since which the rail of a die held in reset has been above release; dies that their supply holds in
  reset (R562). -/
  above : List (Nat × Nat) := []
  supply : List Nat := []
  idle : List IdleSt := []
  /-- Power samples of the last 10 ms, newest first; the cap in force; the tick of the last sample at which the 1 ms
  average was not below 95% of the cap (R571, R572, R579). -/
  samples : List Nat := []
  cap : Nat := 1150
  high : Nat := 0
  /-- The last order that a master other than MASTHEAD wrote (R573). -/
  order : Nat := 0
  /-- A monitor failed its self-check (R580). -/
  monFail : Bool := false
  /-- Throttle step of a unit, the tick since which it has been below its limit less 5 °C, the units above their
  limit, and those whose sensor failed (R575, R580). -/
  step : SMap Nat := []
  cool : SMap Nat := []
  hot : List Nat := []
  failed : List Nat := []
  deriving DecidableEq, Repr

/-- Boot, flash and OTP (22, 25). -/
structure Boot where
  /-- Dies held in reset, by the die codes of RST_CMD (22 R535). -/
  inReset : List Nat := []
  /-- The SPI flash by address; an erased byte reads 0xFF (22 R539). -/
  flash : SMap Byte := []
  /-- The OTP security version where it was advanced beyond the delivered one (22 R544). -/
  svn : Option Word := none
  /-- The Masthead firmware was verified and started, and the dies loaded (R541). -/
  running : Bool := false
  /-- Both banks failed (R542). -/
  dead : Bool := false
  /-- The BOOT_CONFIG component in use (R543). -/
  config : List Byte := []
  /-- What the running bank's header says: security version, svn_commit; and the component digests as they were
  hashed, by type (R540, R541, R544). -/
  bankSvn : Nat := 0
  svnCommit : Bool := false
  digests : List (Nat × BitVec 384) := []
  /-- Measurements 8 and 9, as they were when the Masthead firmware started (25 Table 25.6). -/
  measured : List Nat := []
  /-- The boot is a trial that is not committed (R544). -/
  trial : Bool := false
  /-- Units lost in service: no reset restores them (27 R645). -/
  lost : List UnitId := []
  /-- A package op of RST_CMD was performed in this cycle: nothing that arrives after it is (R555). -/
  opDone : Bool := false
  /-- The device key pair exists: it is generated afresh after each reset, once the random source passes
  (08 R161, 28 R665). -/
  devPair : Bool := false
  deriving DecidableEq, Repr

/-! ### Management (25) -/

/-- A firmware update (R613): the bank that is written, the image's size, bytes written, and how far the flow is:
0 requested, 1 component checked, 2 pulling data, 3 verified and applied, 4 failed. -/
structure Update where
  bank : Nat
  size : Nat := 0
  got : Nat := 0
  phase : Nat := 0
  deriving DecidableEq, Repr

/-- The sideband beside its registers. -/
structure Sideband where
  update : Option Update := none
  /-- SPDM: a version is agreed, capabilities, algorithms; sessions being set up and established; the next session ID
  (R615). -/
  spdm : Nat := 0
  handshakes : List Nat := []
  sessions : List Nat := []
  nextSession : Nat := 1
  /-- Requests received in this cycle: eight are held (R609). -/
  held : Nat := 0
  deriving DecidableEq, Repr

/-! ### The machine -/

/-- The pins (26). -/
structure Pins where
  pwrOk : Bool := true
  perst : Bool := false
  testMode : Bool := false
  /-- THERMTRIP_N driven (26 R633). -/
  thermtrip : Bool := false
  /-- The trip came in the tick in which PWR_OK deasserted (26 R641). -/
  tripHeld : Bool := false
  jtag : Jtag := .idcode
  /-- VPROG_CV in mV (26 R642). -/
  vprog : Nat := 2500
  deriving DecidableEq, Repr

/-- The configuration space of the functions as far as it is written: the base addresses of the PF and of the VFs, the
payload and read request sizes in bytes, and Link IDE (04 R55, R57). -/
structure PciCfg where
  bar0 : BitVec 64 := 0
  bar2 : BitVec 64 := 0
  vfBar0 : BitVec 64 := 0
  vfBar2 : BitVec 64 := 0
  payload : Nat := 128
  readRequest : Nat := 512
  ide : Bool := false
  deriving DecidableEq, Repr

/-- The state of the K48. -/
structure State where
  /-- Commands waiting, first in, first out. -/
  pending : List Instr := []
  /-- Registers by key; an unlisted one holds its reset value. -/
  regs : SMap Word := []
  time : Time := {}
  arb : Arb := {}
  pins : Pins := {}
  /-- What the block has given to the outside, oldest first. -/
  out : List Out := []
  /-- Free values taken so far: the model's own field. -/
  freeCtr : Nat := 0
  msix : SMap MsixEntry := []
  parts : SMap Part := []
  /-- Event queues by partition × 4 + EQ; 512 is the PF device-event queue. -/
  eqs : SMap EqSt := []
  descs : List Desc := []
  reqs : List Req := []
  nextFetch : Nat := 0
  rr : RoundRobin := {}
  models : List Model := []
  mem : Mem := {}
  paging : Paging := {}
  agents : SMap AgentSt := []
  fab : Fabric := {}
  cnv : Canvas := {}
  rings : SMap Ring := []
  links : Links := {}
  top : Topology := {}
  ttl : Telltale := {}
  rats : SMap Ratline := []
  clk : Clocks := {}
  power : Power := {}
  rel : Rel := {}
  boot : Boot := {}
  sbd : Sideband := {}
  pci : PciCfg := {}
  deriving DecidableEq, Repr

/-- The machine right after reset: a POR, whose cause stands in RST_STAT and RST_HIST (22 R532, R533). -/
def State.reset : State := { regs := [(Key.rstStat, 0x100), (Key.rstHist, 1)] }

end Sys2Proof.Machine
end

