-- ==== Sys2Proof/Machine/Ops.lean ====
section
/-! DEFINITION. The named operations over registers, fault latches, interrupts and outputs that every
meaning shares. The block has no program counter and no exception entry: raising an interrupt or a
fault latch is an effect on the state. -/

namespace Sys2Proof.Machine

/-- Ticks of 10 ns since reset: four arbitration cycles each (03 Table 3.1). -/
def State.tick (s : State) : Nat := s.time.cycle / 4

/-- The Telltale window of the current time: 100 ticks of the Telltale count (03 R44). -/
def State.window (s : State) : Nat := s.time.count.toNat / 100

/-- The register with key `k`. -/
def State.reg (s : State) (k : Nat) : Word := SMap.get resetVal s.regs k

/-- The register with key `k` set. -/
def State.setReg (s : State) (k : Nat) (v : Word) : State :=
  { s with regs := SMap.set resetVal s.regs k v }

/-- Bits `[h:l]` of a register. -/
def State.fld (s : State) (k h l : Nat) : Nat := getBits (s.reg k) h l

/-- Bit `b` of a register. -/
def State.bit (s : State) (k b : Nat) : Bool := decide (s.fld k b b = 1)

/-- Bits `[h:l]` of a register set to `x`. -/
def State.setFld (s : State) (k h l x : Nat) : State := s.setReg k (putBits (s.reg k) h l x)

/-- Bit `b` of a register set. -/
def State.setBit (s : State) (k b : Nat) (x : Bool) : State :=
  s.setFld k b b (if x then 1 else 0)

/-- A count register incremented; it saturates at 0xFFFF_FFFF (28 R660). -/
def State.inc (s : State) (k : Nat) : State := s.setReg k (satInc (s.reg k))

/-- `n` added to a count register. -/
def State.addCnt (s : State) (k n : Nat) : State := s.setReg k (satAdd (s.reg k) n)

/-- The registers with keys in `[lo, hi)` at their reset values: an unlisted register is. -/
def State.resetKeys (s : State) (lo hi : Nat) : State :=
  { s with regs := s.regs.filter fun e => !(decide (lo ≤ e.1) && decide (e.1 < hi)) }

/-- A thing given to the outside. -/
def State.emit (s : State) (o : Out) : State := { s with out := s.out ++ [o] }

/-- The next free choice. -/
def State.choice (s : State) : Nat := Config.freeNat s.freeCtr

/-- The state after a free choice was taken. -/
def State.chosen (s : State) : State := { s with freeCtr := s.freeCtr + 1 }

/-- `f` applied to each element in turn. -/
def foldState {α : Type} (s : State) (l : List α) (f : State → α → State) : State := l.foldl f s

/-! ### What registers held when the cycle began -/

/-- The value a register held before any write or clear of this cycle (03 R41). -/
def State.oldReg (s : State) (k : Nat) : Option Word := (s.arb.old.find? fun e => decide (e.1 = k)).map fun e => e.2

/-- The value of a register noted before it is written or cleared in this cycle. -/
def State.noteOld (s : State) (k : Nat) : State :=
  match s.oldReg k with
  | some _ => s
  | none => { s with arb := { s.arb with old := s.arb.old ++ [(k, s.reg k)] } }

/-! ### Interrupts -/

/-- The MSI-X entry of vector `v` (04 R58). -/
def State.msixAt (s : State) (v : Nat) : MsixEntry := SMap.get (fun _ => {}) s.msix v

/-- The MSI-X entry of vector `v` set. -/
def State.setMsix (s : State) (v : Nat) (e : MsixEntry) : State :=
  { s with msix := SMap.set (fun _ => {}) s.msix v e }

/-- Vector `v` signalled: an MSI-X message, or the pending bit while the entry is masked (04 R58,
R86). Entries 1,600 to 2,047 are never signalled. -/
def State.signal (s : State) (v : Nat) : State :=
  if v < 1600 then
    let e := s.msixAt v
    if e.mask then s.setMsix v { e with pend := true } else s.emit (.msix v e.addr e.data)
  else s

/-- The device vector on which a page's interrupt sources are signalled (04 Table 4.4). -/
def pageVector (p : Nat) : Option Nat :=
  if p = 6 then some 1536
  else if p = 4 ∨ p = 5 then some 1537
  else if p = 7 then some 1538
  else if (0x1D0 ≤ p ∧ p ≤ 0x1DD) then some 1539
  else none

/-- Bits of IRQ_STAT of page `p` set; a device page signals its vector when IRQ_EN permits a bit that
was clear (03 R54, 04 Table 4.4, 24 R596). -/
def State.setIrq (s : State) (p : Nat) (bits : Word) : State :=
  let old := s.reg (Key.irqStat p)
  let s1 := (s.noteOld (Key.irqStat p)).setReg (Key.irqStat p) (old ||| bits)
  match pageVector p with
  | none => s1
  | some v => if bits &&& ~~~old &&& s.reg (Key.irqEn p) ≠ 0 then s1.signal v else s1

/-- One bit of IRQ_STAT of page `p` set. -/
def State.irq (s : State) (p b : Nat) : State := s.setIrq p (BitVec.ofNat 32 (2 ^ b))

/-! ### Fault latches -/

/-- A fault of cause `c` with its detail latched on page `p` (03 R39): a cause already set sets the
multi bit, and FLT_INFO describes the first fault since the latch was clear. The aggregator sees it
whoever the owner is (24 R596). -/
def State.latchOn (s : State) (p c detail : Nat) : State :=
  let old := s.reg (Key.fltLatch p)
  let add : Word := if s.bit (Key.fltLatch p) c then 0x80000000 else BitVec.ofNat 32 (2 ^ c)
  let s1 := s.setReg (Key.fltLatch p) (old ||| add)
  let s2 := if old = 0 then
      s1.setReg (Key.fltInfo p) (BitVec.ofNat 32 (c * 2 ^ 27 + detail % 2 ^ 27)) else s1
  s2

/-- A fault latched on page `p`: the page's latch, what the aggregator will see, and interrupt source 0 (03 R54). -/
def State.latch (s : State) (p c detail : Nat) : State :=
  let s1 := ((s.noteOld (Key.fltLatch p)).noteOld (Key.fltInfo p)).latchOn p c detail
  let s2 : State := { s1 with
    arb := { s1.arb with latched := s1.arb.latched ++ [(p, c, detail)] }
    rel := { s1.rel with fresh := s1.rel.fresh ++ [(p, c, detail % 2 ^ 27, s1.time.count.toNat)] } }
  s2.irq p 0

/-! ### Pages and dies -/

/-- The pages of the blocks, as first pages. -/
abbrev pgDev : Nat := 0x0
abbrev pgMst : Nat := 0x1
abbrev pgClk : Nat := 0x2
abbrev pgRst : Nat := 0x3
abbrev pgPwr : Nat := 0x4
abbrev pgThm : Nat := 0x5
abbrev pgFlt : Nat := 0x6
abbrev pgTtl : Nat := 0x7
abbrev pgAdm : Nat := 0x8
abbrev pgPci : Nat := 0x9
abbrev pgSbd : Nat := 0xA
abbrev pgSec : Nat := 0xB
abbrev pgPrt (p : Nat) : Nat := 0x10 + p
abbrev pgDbl (p : Nat) : Nat := 0x90 + p
abbrev pgSpr (k : Nat) : Nat := 0x110 + k
abbrev pgBom (k : Nat) : Nat := 0x118 + k
abbrev pgYrd (i : Nat) : Nat := 0x120 + i
abbrev pgLuf (i : Nat) : Nat := 0x140 + i
abbrev pgClw (i : Nat) : Nat := 0x148 + i
abbrev pgKvp : Nat := 0x158
abbrev pgSct : Nat := 0x159
abbrev pgRfe : Nat := 0x15A
abbrev pgPmg : Nat := 0x15B
abbrev pgNrm (i : Nat) : Nat := 0x160 + i
abbrev pgFar (i : Nat) : Nat := 0x168 + i
abbrev pgCnv (d : Nat) : Nat := 0x180 + d
abbrev pgCpg (g : Nat) : Nat := 0x184 + g / 4
abbrev pgLnk (b : Nat) : Nat := 0x1D0 + b
abbrev pgTop : Nat := 0x1DC
abbrev pgJry : Nat := 0x1DD
abbrev pgShr : Nat := 0x1DE
abbrev pgCol : Nat := 0x1DF

/-- A fault of a panel group: FLT_INFO.detail holds the group's place on its page in [16:15]
(28 R661), the panel in [14:10] and the column in [9:0] (16 R402). -/
def State.latchGroup (s : State) (g c panel col : Nat) : State :=
  s.latch (pgCpg g) c (g % 4 * 2 ^ 15 + panel * 2 ^ 10 + col)

/-- Start-up has completed (22 R551). -/
def State.ready (s : State) : Bool := s.bit Key.rstStat 31

/-- The op code of a macro in flight (12 Table 12.3). -/
def MacroSt.op (m : MacroSt) : Nat := m.word.toNat % 256

/-! ### Partition accessors -/

/-- The hidden part of partition `p`. -/
def State.part (s : State) (p : Nat) : Part := SMap.get (fun _ => {}) s.parts p

/-- The hidden part of partition `p` set. -/
def State.setPart (s : State) (p : Nat) (x : Part) : State :=
  { s with parts := SMap.set (fun _ => {}) s.parts p x }

/-- The states of 06 Table 6.2. -/
abbrev psFree : Nat := 0
abbrev psConfig : Nat := 1
abbrev psActive : Nat := 2
abbrev psDraining : Nat := 3
abbrev psResetting : Nat := 4
abbrev psReleasing : Nat := 5
abbrev psHalted : Nat := 6

/-- The state of partition `p` (06 R110). -/
def State.pstate (s : State) (p : Nat) : Nat := s.fld (Key.prtState p) 2 0

/-- A partition whose last passing COMMIT was sealed (06 Table 6.9). -/
def State.isSealed (s : State) (p : Nat) : Bool := decide (p < 128) && s.bit (Key.prtState p) 3

/-- The state a partition's conditions name: those of a RESETTING partition are of the state it
held before, for what R111 returns it to. -/
def State.setLastErr (s : State) (p e : Nat) : State := s.setFld (Key.prtState p) 15 8 e

/-- PRT_STATE.iso_held follows its definition (06 R122). -/
def State.isoUpdate (s : State) (p : Nat) : State :=
  let st := s.pstate p
  let ok := (st = psActive ∨ st = psDraining ∨ st = psResetting) ∧ s.isSealed p = true
    ∧ s.bit (Key.prtState p) 5 = false
  s.setBit (Key.prtState p) 4 (decide ok)

/-- Partition `p` moved to state `st`: IRQ_STAT bit 2 is set on every state change (06 R133), and
iso_held follows. -/
def State.setPState (s : State) (p st : Nat) : State :=
  let changed := s.pstate p ≠ st
  let s1 := (s.setFld (Key.prtState p) 2 0 st).isoUpdate p
  if changed then s1.irq (pgPrt p) 2 else s1

/-- All partitions. -/
abbrev allParts : List Nat := List.range 128

end Sys2Proof.Machine
end

