-- ==== Sys2Proof/Machine/Events.lean ====
section
/-! DEFINITION. The Telltale comparator table and the software event slots (20 R497 to R501). -/

namespace Sys2Proof.Machine

/-- The lowest free comparator of the 512. -/
def freeIndex (t : List (Nat × TtlEvent)) : Nat → Nat → Option Nat
  | _, 0 => none
  | i, fuel + 1 => if t.any fun e => decide (e.1 = i) then freeIndex t (i + 1) fuel else some i

/-- An entry put in its place by index. -/
def insEvent (e : Nat × TtlEvent) : List (Nat × TtlEvent) → List (Nat × TtlEvent)
  | [] => [e]
  | x :: l => if e.1 < x.1 then e :: x :: l else x :: insEvent e l

/-- An event registered: a full table leaves it unregistered and counts it (R497). -/
def State.ttlRegister (s : State) (target : Nat) (client : TtlClient) (dies : List Nat) : State :=
  match freeIndex s.ttl.table 0 512 with
  | some i => { s with ttl := { s.ttl with table := insEvent (i, ⟨target, client, dies, s.tick⟩) s.ttl.table } }
  | none => s.inc Key.ttlEvtFullCnt

/-- The outstanding events of a ring entry moved later (17 R412). -/
def State.ttlDelay (s : State) (k e : Nat) : State :=
  let move := fun (x : Nat × TtlEvent) => if x.2.client = .ring k then (x.1, { x.2 with target := x.2.target + e }) else x
  { s with ttl := { s.ttl with table := s.ttl.table.map move } }

/-- An event that is due: the counter is at or after its target, and it was not registered in this tick. -/
def State.eventDue (s : State) (e : Nat × TtlEvent) : Bool :=
  decide (e.2.target ≤ s.time.count.toNat) && decide (e.2.tick < s.tick)

/-- The target of a software slot. -/
def State.swevTarget (s : State) (i : Nat) : Nat := (s.reg (Key.ttlSwevHi i)).toNat * 2 ^ 32 + (s.reg (Key.ttlSwevLo i)).toNat

/-- A software slot that is due: a write takes effect from the next tick (R500). -/
def State.swevDue (s : State) (i : Nat) : Bool :=
  s.bit (Key.ttlSwevCtl i) 0 && decide (s.swevTarget i ≤ s.time.count.toNat)
    && decide (SMap.get (fun _ => 0) s.ttl.swev i ≤ s.tick)

/-- Every due event fires, in ascending comparator index, and then the software slots: a slot's arm is cleared and its
interrupt is set (R497, R499, R500). -/
def State.fireDue (s : State) : State :=
  let fires := s.ttl.table.filter s.eventDue
  let s1 := fires.foldl (fun t e => t.emit (.event e.2.client e.2.target)) s
  let s2 := { s1 with ttl := { s1.ttl with table := s1.ttl.table.filter fun e => !s.eventDue e } }
  ((List.range 4).filter s.swevDue).foldl (fun t i => (t.setBit (Key.ttlSwevCtl i) 0 false).irq pgTtl (3 + i)) s2

/-- The ticks to the earliest event that wakes a die (R498). -/
def State.ttlNext (s : State) (die : Nat) : Nat :=
  let now := s.time.count.toNat
  ((s.ttl.table.filter fun e => decide (die ∈ e.2.dies)).map fun e => e.2.target - now).foldl min 0xFFFFFFFF

end Sys2Proof.Machine
end

