-- ==== Sys2Proof/Machine/Inject.lean ====
section
/-! DEFINITION. An armed injection as the operations of its target meet it (24 R598). -/

namespace Sys2Proof.Machine

/-- The armed injection is of a kind, and its target satisfies a test. -/
def State.injHits (s : State) (kind : Nat) (f : Inject → Bool) : Bool :=
  match s.rel.inject with
  | some i => decide (i.kind = kind) && s.bit Key.fltInjCtl 0 && f i
  | none => false

/-- The injection has acted: it is done, once. -/
def State.injActed (s : State) : State :=
  ({ s with rel := { s.rel with inject := none } } : State).setFld Key.fltInjStat 31 30 2

/-- A line lies in `[a, a + n)`. -/
def lineIn (a n line : Nat) : Bool := decide (0 < n) && decide (a / 64 ≤ line) && decide (line ≤ (a + n - 1) / 64)

/-- A write of `[a, a + n)`: a corrupted line is written afresh, and an armed MEM_CE or MEM_UE corrupts its line. -/
def State.injWrite (s : State) (a n : Nat) : State :=
  let s1 := if s.rel.marred = [] then s else
    { s with rel := { s.rel with marred := s.rel.marred.filter fun l => !lineIn a n l } }
  if s1.injHits 1 fun i => lineIn a n (i.arg / 64) then
    let l := (s1.rel.inject.map fun i => i.arg / 64).getD 0
    ({ s1 with rel := { s1.rel with marred := s1.rel.marred ++ [l] } } : State).injActed
  else if s1.injHits 2 fun i => lineIn a n (i.arg / 64) then
    let l := (s1.rel.inject.map fun i => i.arg / 64).getD 0
    ({ s1 with mem := { s1.mem with poison := s1.mem.poison ++ [l] } } : State).injActed
  else s1

end Sys2Proof.Machine
end

