-- ==== Sys2Proof/Machine/Frames.lean ====
section
/-! DEFINITION. Memory: the device address map, lines and frames, pools, allocation and release of
frames, the scrub backlog (06 R120, R137; 08 R154 to R162; 09 R186 to R189). Frames are numbered by
DPA divided by 4,096. -/

namespace Sys2Proof.Machine

/-! ### The address map (08 Table 8.2) -/

/-- First byte of near region `k`, and of far quad `q`. -/
def nearBase (k : Nat) : Nat := k * 0x1800000000
def farBase (q : Nat) : Nat := 0x10000000000 + q * 0x6000000000
/-- Bytes of a region and of a quad, and of their device regions at the top. -/
abbrev nearBytes : Nat := 0x1800000000
abbrev farBytes : Nat := 0x6000000000
abbrev nearDev : Nat := 0x100000000
abbrev farDev : Nat := 0x400000000

/-- Where a DPA lies: near region, far quad, Spar SRAM, or reserved (08 Table 8.2). -/
inductive Place where
  | near (k : Nat) | far (q : Nat) | sram (k : Nat) | reserved
  deriving DecidableEq, Repr

/-- The place of a DPA. -/
def placeOf (a : Nat) : Place :=
  if a < 0x6000000000 then .near (a / nearBytes)
  else if 0x10000000000 ≤ a ∧ a < 0x28000000000 then .far ((a - 0x10000000000) / farBytes)
  else if 0x40000000000 ≤ a ∧ a < 0x40018000000 then .sram ((a - 0x40000000000) / 0x6000000)
  else .reserved

/-- The unit that holds a DPA: near stack 0 to 7 or far channel 8 to 23, interleaved at 256 bytes
(08 R154). -/
def unitOf (a : Nat) : Option Nat :=
  match placeOf a with
  | .near k => some (2 * k + a / 256 % 2)
  | .far q => some (8 + 4 * q + (a - farBase q) / 256 % 4)
  | _ => none

/-- The register page of memory unit `u`. -/
def unitPage (u : Nat) : Nat := 0x160 + u

/-- A DPA in the device region of a region or quad (08 Table 8.2). -/
def inDevice (a : Nat) : Bool :=
  match placeOf a with
  | .near k => decide (nearBase k + (nearBytes - nearDev) ≤ a)
  | .far q => decide (farBase q + (farBytes - farDev) ≤ a)
  | _ => false

/-- The tier of a frame. -/
def frameTier (f : Nat) : Tier := if f < 0x6000000 then .near else .far

/-- Near region `k`, far quad `q` online: every stack or channel of it is (08 R174, R176). -/
def State.nearOnline (s : State) (k : Nat) : Bool :=
  s.bit (Key.nrmStat (2 * k)) 1 && s.bit (Key.nrmStat (2 * k + 1)) 1
def State.farOnline (s : State) (q : Nat) : Bool :=
  (List.range 4).all fun c => s.bit (Key.farStat (4 * q + c)) 1

/-- The allocatable part of each online region or quad of a tier: first frame and frames. -/
def State.spans (s : State) (t : Tier) : List (Nat × Nat) :=
  match t with
  | .near => ((List.range 4).filter fun k => s.nearOnline k).map fun k =>
      (nearBase k / 4096, (nearBytes - nearDev) / 4096)
  | .far => ((List.range 4).filter fun q => s.farOnline q).map fun q =>
      (farBase q / 4096, (farBytes - farDev) / 4096)

/-! ### Frames in use -/

/-- The partition whose quota a use counts against (06 R113, 10 R214). -/
def Use.payer : Use → Option Nat
  | .kv p => some p
  | .index p => p
  | .burst p => some p
  | .model p _ => some p

/-- Frames of an extent list that satisfy a test. -/
def framesWhere (l : List Extent) (f : Extent → Bool) : Nat :=
  (l.map fun e => if f e then e.len else 0).sum

/-- Frames of tier `t` in use or set aside by partition `p` (KVP_NEARn, KVP_FARn; 09 R204). -/
def State.usedBy (s : State) (p : Nat) (t : Tier) : Nat :=
  framesWhere s.mem.used fun e => decide (e.use.payer = some p) && decide (frameTier e.start = t)

/-- Frames of tier `t` that partition `p` released and that wait for scrub (06 R120). -/
def State.scrubOf (s : State) (p : Option Nat) (t : Option Tier) : Nat :=
  (s.mem.scrub.map fun e => if e.part = p ∧ (t = none ∨ t = some (frameTier e.start))
    then e.len else 0).sum

/-- The quota of partition `p` in frames: its committed reservation or ceiling (06 R113). -/
def State.quota (s : State) (p : Nat) (t : Tier) : Nat :=
  match t with
  | .near => (s.part p).held.nearQuota * 256
  | .far => (s.part p).held.farQuota * 256


/-- A partition that holds a sealed reservation (06 R113). -/
def State.sealedHolder (s : State) (p : Nat) : Bool :=
  (s.part p).held.valid && (s.part p).held.isSealed

/-- The pool of partition `p` (07 R137). -/
def State.poolOf (s : State) (p : Nat) : PoolId :=
  if s.isSealed p then .own (BitVec.ofNat 7 p) else .unreserved

/-- The gaps of `[start, stop)` that sorted stretches leave. -/
def gapsIn (start stop : Nat) : List (Nat × Nat) → List (Nat × Nat)
  | [] => if start < stop then [(start, stop - start)] else []
  | (a, n) :: rest =>
    if a + n ≤ start then gapsIn start stop rest
    else if stop ≤ a then (if start < stop then [(start, stop - start)] else [])
    else (if start < a then [(start, a - start)] else []) ++ gapsIn (max start (a + n)) stop rest

/-- Stretches in ascending order. -/
def sortSpans : List (Nat × Nat) → List (Nat × Nat)
  | [] => []
  | x :: xs => ins x (sortSpans xs)
where
  ins (x : Nat × Nat) : List (Nat × Nat) → List (Nat × Nat)
    | [] => [x]
    | y :: ys => if x.1 ≤ y.1 then x :: y :: ys else y :: ins x ys

/-- What some stretches leave of others. -/
def without (rs holes : List (Nat × Nat)) : List (Nat × Nat) :=
  rs.flatMap fun e => gapsIn e.1 (e.1 + e.2) (sortSpans holes)

/-- The first `n` frames of a list of stretches. -/
def takeRanges : List (Nat × Nat) → Nat → List (Nat × Nat)
  | [], _ => []
  | (a, k) :: rest, n => if n = 0 then [] else (a, min k n) :: takeRanges rest (n - k)

/-- Sorted stretches with those that touch joined. -/
def joinRanges : List (Nat × Nat) → List (Nat × Nat)
  | [] => []
  | x :: rest =>
    match joinRanges rest with
    | [] => [x]
    | y :: l => if x.1 + x.2 = y.1 then (x.1, x.2 + y.2) :: l else x :: y :: l

/-- How many frames stretches hold. -/
def rangeSum (l : List (Nat × Nat)) : Nat := (l.map fun e => e.2).sum

/-- A frame lies in a list of stretches. -/
def inRanges (l : List (Nat × Nat)) (f : Nat) : Bool := l.any fun e => decide (e.1 ≤ f) && decide (f < e.1 + e.2)

/-- The frames of a tier that a list of partitions has reserved. -/
def State.reservedBy (s : State) (ps : List Nat) : List (Nat × Nat) :=
  (ps.filter s.sealedHolder).flatMap fun p => (s.part p).held.frames

/-- The frames of a pool's tier that are in service: a sealed partition's reserved frames, or those that no partition has
reserved (07 R137). -/
def State.poolRanges (s : State) (pool : PoolId) (t : Tier) : List (Nat × Nat) :=
  match pool with
  | .own p => joinRanges (sortSpans ((s.part p.toNat).held.frames.filter fun e => inRanges (s.spans t) e.1))
  | .unreserved => without (s.spans t) (s.reservedBy allParts)

/-- Everything that occupies frames: extents, the backlog, retired frames, and frames freed in this tick that do not count yet for
the operation that runs. -/
def State.occupied (s : State) : List (Nat × Nat) :=
  let young := match s.mem.hide with
    | none => []
    | some c => (s.mem.fresh.filter fun x => decide (c ∉ x.seen)).map fun x => (x.start, x.len)
  sortSpans ((s.mem.used.map fun e => (e.start, e.len)) ++ (s.mem.scrub.map fun e => (e.start, e.len))
    ++ (s.mem.retired.map fun f => (f, 1)) ++ young)

/-- Frames of a tier that a pool holds: a retired frame that is not in use any longer has left it (08 R159). -/
def State.poolFrames (s : State) (pool : PoolId) (t : Tier) : Nat :=
  let rs := s.poolRanges pool t
  rangeSum rs - (s.mem.retired.filter fun f => inRanges rs f
    && !(s.mem.used.any fun e => decide (e.start ≤ f) && decide (f < e.start + e.len))
    && !(s.mem.scrub.any fun e => decide (e.start ≤ f) && decide (f < e.start + e.len))).length

/-- Free frames of a pool's tier: frames in the backlog are not free (09 R189). -/
def State.poolFree (s : State) (pool : PoolId) (t : Tier) : Nat := rangeSum (without (s.poolRanges pool t) s.occupied)

/-- A pool's tier is below `m` thousandths of its frames; a tier in which the pool holds no frames
is left out (09 R189). -/
def State.tierBelow (s : State) (pool : PoolId) (t : Tier) (m : Nat) : Bool :=
  let n := s.poolFrames pool t
  decide (0 < n) && decide (s.poolFree pool t * 1000 < n * m)

/-- KVP_LOW and KVP_CRIT in thousandths (09 Table 9.5). -/
def State.kvpLow (s : State) : Nat := s.fld Key.kvpWater 9 0
def State.kvpCrit (s : State) : Nat := s.fld Key.kvpWater 25 16

/-- The pool's free fraction is below KVP_LOW: the lower of its tiers' fractions; with no frames in
either tier the fraction is 0 (09 R189). -/
def State.poolLow (s : State) (pool : PoolId) : Bool :=
  if s.poolFrames pool .near + s.poolFrames pool .far = 0 then decide (0 < s.kvpLow)
  else s.tierBelow pool .near s.kvpLow || s.tierBelow pool .far s.kvpLow

/-- KVP_STAT's watermark bits of the unreserved pool as they are now (09 R189, Table 9.5). -/
def State.kvpMarks (s0 : State) : Nat :=
  let s : State := { s0 with mem := { s0.mem with hide := none } }
  let b := fun (x : Bool) (i : Nat) => if x then 2 ^ i else 0
  b (s.tierBelow .unreserved .near s.kvpCrit) 31 + b (s.tierBelow .unreserved .far s.kvpCrit) 30
    + b (s.tierBelow .unreserved .near s.kvpLow) 29 + b (s.tierBelow .unreserved .far s.kvpLow) 28

/-- KVP_STAT brought up to date, with the interrupts that crossing a mark raises: bit 2 for KVP_LOW
and bit 3 for KVP_CRIT, in either direction (09 R204). -/
def State.kvpUpdate (s : State) : State :=
  let old := (s.reg Key.kvpStat).toNat / 2 ^ 28
  let new := s.kvpMarks / 2 ^ 28
  let held := min 65535 (s.paging.shards.filter fun h => h.held).length
  let s1 := s.setReg Key.kvpStat (BitVec.ofNat 32 (new * 2 ^ 28 + held))
  let s2 := if old % 4 ≠ new % 4 then s1.irq pgKvp 2 else s1
  if old / 4 ≠ new / 4 then s2.irq pgKvp 3 else s2

/-! ### Free places -/

/-- How many places `n` consecutive blocks have in a list of gaps. -/
def placesIn (gaps : List (Nat × Nat)) (n : Nat) : Nat :=
  (gaps.map fun g => g.2 + 1 - n).sum

/-- Place number `i` of those. -/
def placeAt (gaps : List (Nat × Nat)) (n i : Nat) : Option Nat :=
  match gaps with
  | [] => none
  | g :: rest => if i < g.2 + 1 - n then some (g.1 + i) else placeAt rest n (i - (g.2 + 1 - n))

/-- A free place for `n` consecutive frames in the given stretches. The spec names none: it is one end of a smallest gap that fits,
which one being a free choice (DESIGN CHOICE), so that no gap is split while pages of one size are set aside. -/
def State.pickPlace (s : State) (ranges : List (Nat × Nat)) (n : Nat) : Option Nat :=
  let fit := (without ranges s.occupied).filter fun g => decide (n ≤ g.2)
  let least := fit.foldl (fun m g => min m g.2) (fit.headD (0, 0)).2
  let ends := (fit.filter fun g => decide (g.2 = least)).flatMap fun g => [g.1, g.1 + (g.2 - n)]
  if ends = [] then none else ends[s.choice % ends.length]?

/-- The near regions of Spars on which a reservation holds units (08 R156). -/
def Held.regions (h : Held) : List Nat :=
  (List.range 4).filter fun k =>
    decide (bitsOf h.yrd (8 * k + 7) (8 * k) ≠ 0) || decide (bitsOf h.luf (2 * k + 1) (2 * k) ≠ 0)
      || decide (bitsOf h.clw (4 * k + 3) (4 * k) ≠ 0)

/-- A stretch lies in one of the near regions. -/
def inNear (ks : List Nat) (e : Nat × Nat) : Bool := ks.any fun k => decide (e.1 * 4096 / nearBytes = k)

/-- The frames of a tier that a COMMIT reserves for partition `p` (07 R137): those that it uses already, then free ones, in the near
tier first those of its own Spars' regions (08 R156), then frames that others still use. Which they are is the model's choice. -/
def State.chooseFrames (s : State) (p : Nat) (h : Held) (t : Tier) (n : Nat) : List (Nat × Nat) :=
  let open_ := without (s.spans t) (s.reservedBy (allParts.filter fun q => decide (q ≠ p)))
  let mine := ((s.mem.used.filter fun e => decide (e.use.payer = some p) && inRanges open_ e.start
    && inRanges open_ (e.start + e.len - 1)).map fun e => (e.start, e.len))
  let free := without open_ s.occupied
  let own := free.filter fun e => decide (t = .near) && inNear h.regions e
  let first := mine ++ own ++ free.filter fun e => decide (e ∉ own)
  joinRanges (sortSpans (takeRanges (first ++ without open_ first) n))

/-- A place for `n` consecutive frames of tier `t` of a pool: a sealed partition's near frames come first from the regions of its own
Spars (08 R156). -/
def State.findPlace (s : State) (pool : PoolId) (t : Tier) (n : Nat) : Option Nat :=
  let all := s.poolRanges pool t
  match pool, t with
  | .own p, .near =>
    match s.pickPlace (all.filter (inNear (s.part p.toNat).held.regions)) n with
    | some f => some f
    | none => s.pickPlace all n
  | _, _ => s.pickPlace all n

/-- `n` consecutive frames of tier `t` taken from a pool for `use` with key index `key`; a partition stays within its quota. -/
def State.takeIn (s : State) (pool : PoolId) (t : Tier) (n : Nat) (use : Use) (key : Nat) : Option (Nat × State) :=
  if (match use.payer with
    | some q => decide (s.quota q t < s.usedBy q t + n)
    | none => false) then none
  else match s.findPlace pool t n with
    | none => none
    | some f =>
      let c := s.chosen
      let u : Extent := ⟨f, n, use, key⟩
      some (f, ({ c with mem := { c.mem with used := c.mem.used ++ [u] } } : State).kvpUpdate)

/-- A page's worth of frames: from the near part of the pool when it is free there, otherwise from
the far part (09 R187). -/
def State.takePage (s : State) (p n : Nat) (use : Use) (key : Nat) : Option (Nat × State) :=
  match s.takeIn (s.poolOf p) .near n use key with
  | some r => some r
  | none => s.takeIn (s.poolOf p) .far n use key

/-- `k` pages' worth of frames, all of them or none (09 R186). -/
def State.takePages (s : State) (p n : Nat) (use : Use) (key : Nat) : Nat → Option (List Nat × State)
  | 0 => some ([], s)
  | k + 1 =>
    match s.takePage p n use key with
    | none => none
    | some (f, s1) =>
      match s1.takePages p n use key k with
      | none => none
      | some (fs, s2) => some (f :: fs, s2)

/-! ### Frames freed in the same tick (07 R147, 08 R171, 09 R198) -/

/-- An operation of kind `c` begins: frames freed in this tick do not count for it unless an earlier one of its kind came since. -/
def State.hideFresh (s : State) (c : Nat) : State := { s with mem := { s.mem with hide := some c } }

/-- It ends: those frames count for the next. -/
def State.showFresh (s : State) (c : Nat) : State :=
  { s with mem := { s.mem with hide := none, fresh := s.mem.fresh.map fun x => if c ∈ x.seen then x else { x with seen := c :: x.seen } } }

/-- A take of the page manager: one operation, for which frames freed earlier in the tick do not count (09 R198). -/
def State.asTake (s : State) (f : State → State) : State := (f (s.hideFresh 2)).showFresh 2

/-! ### Release and scrub -/

/-- A pool had a frame freed: the hold timer of its held shards starts again (09 R188). -/
def State.touchHold (s : State) (pool : PoolId) : State :=
  let h := s.paging.holdTick.map fun e => if e.1 = pool then (e.1, s.tick) else e
  { s with paging := { s.paging with holdTick := h } }

/-- The extent at frame `f` leaves use. -/
def Mem.dropUse (m : Mem) (f : Nat) : Mem :=
  { m with used := m.used.filter fun e => decide (e.start ≠ f) }

/-- The extent at frame `f`. -/
def State.extentAt (s : State) (f : Nat) : Option Extent := s.mem.used.find? fun e => decide (e.start = f)

/-- A frame is retired: it is never allocated again before the next full reset, and it counts in the RETIRED register of unit `u`
(08 R159). -/
def State.retireFrame (s : State) (f u : Nat) : State :=
  if f ∈ s.mem.retired then s
  else (({ s with mem := { s.mem with retired := s.mem.retired ++ [f] } } : State).inc (regKey (unitPage u) 0x114)).kvpUpdate

/-- Frames that were to be retired once `[f, f + n)` is left are retired. -/
def State.retireLeft (s : State) (f n : Nat) : State :=
  let hit := s.mem.retiring.filter fun e => decide (f ≤ e.1) && decide (e.1 < f + n)
  if hit = [] then s
  else hit.foldl (fun t e => t.retireFrame e.1 e.2)
    { s with mem := { s.mem with retiring := s.mem.retiring.filter fun e => decide (e ∉ hit) } }

/-- An extent that was set aside and never opened or copied: it holds no data, and it becomes free
at once (06 R120). -/
def State.freeFresh (s : State) (f : Nat) : State :=
  match s.extentAt f with
  | none => s
  | some e =>
    let m := s.mem.dropUse f
    let s0 : State := { s with mem := { m with fresh := m.fresh ++ [{ start := e.start, len := e.len }] } }
    let s1 := (s0.retireLeft e.start e.len).kvpUpdate
    match e.use.payer with
    | some p => s1.touchHold (s.poolOf p)
    | none => s1.touchHold .unreserved

/-- An extent released by its holder: its frames enter the scrub backlog (06 R120). -/
def State.freeScrub (s : State) (f : Nat) : State :=
  match s.extentAt f with
  | none => s
  | some e =>
    ({ s with mem := { s.mem.dropUse f with scrub := s.mem.scrub ++ [⟨e.start, e.len, e.use.payer, e.key⟩] } } : State).retireLeft e.start e.len

/-- The use and key of the extent at frame `f` changed. -/
def State.reuse (s : State) (f : Nat) (use : Use) (key : Nat) : State :=
  let u := s.mem.used.map fun e => if e.start = f then { e with use := use, key := key } else e
  { s with mem := { s.mem with used := u } }

/-- Frame `f` taken out of the backlog. -/
def splitScrub (l : List ScrubItem) (f : Nat) : List ScrubItem :=
  l.flatMap fun e =>
    if e.start ≤ f ∧ f < e.start + e.len then
      (if e.start < f then [{ e with len := f - e.start }] else [])
        ++ (if f + 1 < e.start + e.len then [{ e with start := f + 1, len := e.start + e.len - (f + 1) }] else [])
    else [e]

/-- Frame `f` is in the backlog. -/
def State.inScrub (s : State) (f : Nat) : Option ScrubItem :=
  s.mem.scrub.find? fun e => decide (e.start ≤ f) && decide (f < e.start + e.len)

/-- The stretches of bytes left when `[a, a + n)` is written anew. -/
def cutGarbled (l : List (Nat × Nat × Nat)) (a n : Nat) : List (Nat × Nat × Nat) :=
  l.flatMap fun g => (gapsIn g.1 (g.1 + g.2.1) [(a, n)]).map fun e => (e.1, e.2, g.2.2)

/-- A frame's bytes overwritten, its zero-fill bit set (08 R162). -/
def Mem.zeroFrame (m : Mem) (f n : Nat) : Mem :=
  { m with bytes := SMap.clearRange m.bytes (f * 4096) (n * 4096)
           written := SMap.clearRange m.written f n
           poison := m.poison.filter fun l => !(decide (f * 64 ≤ l) && decide (l < (f + n) * 64))
           garbled := cutGarbled m.garbled (f * 4096) (n * 4096) }

/-- The key index of frame `f` (08 R161): a released frame keeps it until it is scrubbed (R162). -/
def State.frameKey (s : State) (f : Nat) : Nat :=
  match s.mem.used.find? fun e => decide (e.start ≤ f) && decide (f < e.start + e.len) with
  | some e => e.key
  | none =>
    match s.inScrub f with
    | some e => e.key
    | none => 2047

/-- The key pair of index `k` is overwritten: what was written under it is in the backlog, and reads as it may (06 R119). -/
def State.garble (s : State) (k : Nat) : State :=
  let hit := (s.mem.scrub.filter fun e => decide (e.key = k)).map fun e => (4096 * e.start, 4096 * e.len, s.freeCtr)
  { s with mem := { s.mem with garbled := hit ++ s.mem.garbled }, freeCtr := s.freeCtr + 1 }

/-! ### Bytes -/

/-- Bytes read at a DPA: a frame whose zero-fill bit is set holds zero bytes (08 R162). -/
def State.rd (s : State) (a n : Nat) : List Byte := SMap.bytes s.mem.bytes a n

/-- What an agent's load returns: a byte written under a key pair that is overwritten since is free (06 R119). -/
def State.loadBytes (s : State) (a n : Nat) : List Byte :=
  if s.mem.garbled = [] then s.rd a n
  else (s.rd a n).zipIdx.map fun x => match s.mem.garbled.find? fun g => decide (g.1 ≤ a + x.2) && decide (a + x.2 < g.1 + g.2.1) with
    | some g => Config.garbled g.2.2 (a + x.2)
    | none => x.1

/-- A little-endian number read at a DPA. -/
def State.rdNat (s : State) (a n : Nat) : Nat := leNat (s.rd a n)

/-- Bytes written at a DPA; the zero-fill bits of the frames clear (08 R162). -/
def State.wr (s : State) (a : Nat) (bs : List Byte) : State :=
  let fs := (List.range (bs.length / 4096 + 2)).filter fun i => a / 4096 + i ≤ (a + bs.length - 1) / 4096
  ({ s with mem := { s.mem with
      bytes := SMap.putBytes s.mem.bytes a bs
      written := if bs = [] then s.mem.written else
        fs.foldl (fun m i => SMap.set (fun _ => false) m (a / 4096 + i) true) s.mem.written } } : State).injWrite a bs.length

/-- A little-endian number of `n` bytes written at a DPA. -/
def State.wrNat (s : State) (a n v : Nat) : State := s.wr a (leBytes v n)

/-- A line of `[a, a + n)` is poisoned (08 R173). -/
def State.poisoned (s : State) (a n : Nat) : Option Nat :=
  (s.mem.poison.find? fun l => decide (a / 64 ≤ l) && decide (l ≤ (a + n - 1) / 64)).map fun l => l * 64

/-- A block of `n` bytes, `n`-aligned, taken in a device region of the tier: number `pick m` of the `m` that are free. -/
def State.takeBlockAt (s : State) (t : Tier) (n : Nat) (pick : Nat → Nat) : Option (Nat × State) :=
  let spans := match t with
    | .near => ((List.range 4).filter fun k => s.nearOnline k).map fun k =>
        ((nearBase k + (nearBytes - nearDev)) / n, nearDev / n)
    | .far => ((List.range 4).filter fun q => s.farOnline q).map fun q =>
        ((farBase q + (farBytes - farDev)) / n, farDev / n)
  let occ := sortSpans (s.mem.blocks.map fun b => (b.1 / n, ceilDiv b.2 n))
  let gaps := spans.flatMap fun e => gapsIn e.1 (e.1 + e.2) occ
  let m := placesIn gaps 1
  if m = 0 then none
  else match placeAt gaps 1 (pick m) with
    | none => none
    | some b => some (b * n, { s with mem := { s.mem with blocks := s.mem.blocks ++ [(b * n, n)] } })

/-- A block taken; which one is a free choice. -/
def State.takeBlock (s : State) (t : Tier) (n : Nat) : Option (Nat × State) :=
  s.chosen.takeBlockAt t n fun m => s.choice % m

/-- A 16-byte entry of a device region taken, in the near tier when it has one: the lowest that is free (DESIGN CHOICE). -/
def State.takeEntry (s : State) : Option (Nat × State) :=
  match s.takeBlockAt .near 16 fun _ => 0 with
  | some x => some x
  | none => s.takeBlockAt .far 16 fun _ => 0

/-- A block of a device region given back; it is overwritten. -/
def State.dropBlock (s : State) (a : Nat) : State :=
  match s.mem.blocks.find? fun b => decide (b.1 = a) with
  | none => s
  | some b => { s with mem := { s.mem with
      blocks := s.mem.blocks.filter fun x => decide (x.1 ≠ a)
      bytes := SMap.clearRange s.mem.bytes a b.2
      written := s.mem.written } }

end Sys2Proof.Machine
end

