-- ==== Sys2Proof/Machine/Records.lean ====
section
/-! DEFINITION. Event queues and their records, interrupt moderation, and the list of live descriptors
(04 R64, R68 to R75, R80, R87). -/

namespace Sys2Proof.Machine

/-- The status codes of 04 Table 4.9a. -/
abbrev stOk : Nat := 0x00
abbrev stFrameLong : Nat := 0x01
abbrev stApproximate : Nat := 0x02
abbrev stClamped : Nat := 0x03
abbrev stDeferredCapacity : Nat := 0x10
abbrev stDeferredPriority : Nat := 0x11
abbrev stPreempted : Nat := 0x12
abbrev stRefusedLength : Nat := 0x20
abbrev stRefusedPool : Nat := 0x21
abbrev stRefusedQuota : Nat := 0x22
abbrev stRefusedFrame : Nat := 0x23
abbrev stRefusedStopped : Nat := 0x24
abbrev stRefusedModel : Nat := 0x25
abbrev stCancelledHost : Nat := 0x30
abbrev stCancelledReset : Nat := 0x31
abbrev stFaultSupply : Nat := 0x40
abbrev stFaultRing : Nat := 0x41
abbrev stFaultMemory : Nat := 0x42
abbrev stFaultUnit : Nat := 0x43
abbrev stFaultLink : Nat := 0x44
abbrev stSuspect : Nat := 0x50

/-- The record kinds of 04 Table 4.8. -/
abbrev kCompletion : BitVec 4 := 1
abbrev kAdmitted : BitVec 4 := 2
abbrev kNotice : BitVec 4 := 3
abbrev kEvent : BitVec 4 := 4

/-- Where an event queue has its registers: EQ `e` of partition `p` has number 4p + e, and number
512 is the PF device-event queue (28 R663). -/
def eqCfgKey (q : Nat) : Nat := if q = 512 then Key.pciDeqCfg else Key.prtEqCfg (q / 4) (q % 4)
def eqTailKey (q : Nat) : Nat := if q = 512 then Key.pciDeqTail else Key.prtEqTail (q / 4) (q % 4)
/-- The vector of an event queue (04 R58, 28 R663). -/
def eqVector (q : Nat) : Nat := if q = 512 then 1540 else q / 4 * 12 + 8 + q % 4

/-- The hidden part of event queue `q`. -/
def State.eq (s : State) (q : Nat) : EqSt := SMap.get (fun _ => {}) s.eqs q
def State.setEq (s : State) (q : Nat) (x : EqSt) : State :=
  { s with eqs := SMap.set (fun _ => {}) s.eqs q x }

/-- Depth of event queue `q` (04 Table 4.12). -/
def State.eqDepth (s : State) (q : Nat) : Nat := 2 ^ s.fld (eqCfgKey q) 15 12

/-- The queue is enabled and holds a released slot (04 R74). -/
def State.eqRoom (s : State) (q : Nat) : Bool :=
  s.bit (eqCfgKey q) 31 && decide ((s.eq q).used < s.eqDepth q)

/-- `n` more records counted on an event queue, and its vector signalled when the count reaches
mod_count or a COMPLETION arrives with cpl_now set; signalling resets count and timer. cpl_now has no
effect on the device-event queue (04 R75, 28 R663). -/
def State.moderate (s : State) (q : Nat) (completion : Bool) : State :=
  let cfg := eqCfgKey q
  let x := s.eq q
  let count := x.count + 1
  let modCount := max 1 (s.fld cfg 23 16)
  let now := completion && s.bit cfg 29 && decide (q ≠ 512)
  if s.bit cfg 30 && (decide (modCount ≤ count) || now) then
    (s.setEq q { x with count := 0, since := none }).signal (eqVector q)
  else
    s.setEq q { x with count := count, since := if x.since = none then some s.tick else x.since }

/-- A slot of event queue `q` taken: the slot's index, the record's phase bit, and the state after
(04 R68, R71). -/
def State.eqSlot (s : State) (q : Nat) : Nat × Bool × State :=
  let x := s.eq q
  let d := s.eqDepth q
  let slot := s.fld (eqTailKey q) 15 0
  let next := (slot + 1) % d
  let s1 := s.setFld (eqTailKey q) 15 0 next
  (slot, !x.odd, s1.setEq q { x with used := x.used + 1, odd := if next = 0 then !x.odd else x.odd })

/-- The live descriptor of a tag, of those that passed their checks (04 R64). -/
def State.desc (s : State) (p : Nat) (tag : BitVec 64) : Option Desc :=
  s.descs.find? fun d => decide (d.part = p) && decide (d.tag = tag)

/-- The live request of a tag. -/
def State.req (s : State) (p : Nat) (tag : BitVec 64) : Option Req :=
  s.reqs.find? fun r => decide (r.part = p) && decide (r.tag = tag)

/-- A request's record replaced. -/
def State.setReq (s : State) (r : Req) : State :=
  let l := s.reqs.map fun x => if x.part = r.part ∧ x.tag = r.tag then r else x
  { s with reqs := l }

/-- A live request that has not ended: its COMPLETION is not due yet. -/
def Req.active (r : Req) : Bool := decide (r.phase ≠ .ended)

/-- Descriptor number `n` is live no longer: its COMPLETION record is written (04 R64). -/
def State.dropDesc (s : State) (n : Nat) : State :=
  { s with
    descs := s.descs.filter fun d => decide (d.num ≠ n)
    reqs := s.reqs.filter fun r => decide (r.fetchNo ≠ n) }

/-! ### What the K48 asks of host memory (04 R56, R68, 05 R97) -/

/-- The 32 bytes of a record (04 Table 4.8). -/
def EqRec.bytes (r : EqRec) : List Byte :=
  let flags := (if r.clamped then 4 else 0) + (if r.approx then 2 else 0) + if r.frameLong then 1 else 0
  leBytes r.tag.toNat 8 ++ [r.kind.setWidth 8, r.status, r.detail, BitVec.ofNat 8 flags] ++ leBytes r.sqHead.toNat 2
    ++ [r.sq.setWidth 8, 0] ++ leBytes r.a.toNat 4 ++ leBytes r.b.toNat 4 ++ leBytes r.c.toNat 4
    ++ [0, 0, 0, if r.phase then 0x80 else 0]

/-- A request to host memory: a posted write of bytes, or a read of a length. Its address is untranslated, and its requester
is the function that owns the queue, ring or frame: 0 is the PF, n + 1 is VF n (04 R56). -/
structure HostReq where
  fn : Nat
  addr : Nat
  bytes : List Byte := []
  read : Nat := 0
  /-- The attributes of a write (05 Table 5.1). -/
  relaxed : Bool := false
  idBased : Bool := false
  noSnoop : Bool := false
  deriving DecidableEq, Repr

/-- The function that owns an interrupt vector (04 R58). -/
def vectorFn (v : Nat) : Nat := if v < 1536 then v / 12 + 1 else 0

/-- What goes out over PCIe to host memory. -/
def Out.hostReq : Out → Option HostReq
  | .eqRec p _ _ addr r => some { fn := p + 1, addr := addr.toNat, bytes := r.bytes }
  | .token p _ addr w => some { fn := p + 1, addr := addr.toNat, bytes := leBytes w.toNat 4 }
  | .msix v addr data => some { fn := vectorFn v, addr := addr.toNat, bytes := leBytes data.toNat 4 }
  | .devRec _ addr ws => some { fn := 0, addr := addr.toNat, bytes := ws.flatMap fun w => leBytes w.toNat 4 }
  | .hostRead fn addr len => some { fn := fn, addr := addr.toNat, read := len }
  | .dstList addr dpas => some { fn := 0, addr := addr, bytes := dpas.flatMap fun d => leBytes d 8 }
  | _ => none

/-- The address of slot `i` of a ring of `size`-byte slots whose base address stands in two registers. -/
def State.slotAddr (s : State) (lo hi size i : Nat) : BitVec 64 :=
  BitVec.ofNat 64 ((s.reg hi).toNat * 2 ^ 32 + (s.reg lo).toNat / 4096 * 4096 + size * i)

/-- A record written into event queue `4p + e`, which has room: one posted write with the source SQ's
head as it is now, then what the record triggers (04 R68, R97). A COMPLETION ends the life of its
descriptor. -/
def State.putRec (s : State) (p e : Nat) (r : EqRec) : State :=
  let q := 4 * p + e
  let (slot, phase, s1) := s.eqSlot q
  let head := BitVec.ofNat 16 (s1.fld (Key.prtSqHead p r.sq.toNat) 11 0)
  let addr := s1.slotAddr (regKey (pgPrt p) (0x280 + 0x10 * e)) (regKey (pgPrt p) (0x284 + 0x10 * e)) 32 slot
  let s2 := s1.emit (.eqRec p e slot addr { r with sqHead := head, phase := phase })
  let s3 := match r.ends with
    | some n => s2.dropDesc n
    | none => s2
  s3.moderate q (decide (r.kind = kCompletion))

/-- A record due on an event queue: it is written, or waits behind those that wait already (04 R74).
An EVENT that is written counts in FLT_SUSPECT_CNT when it is posted (24 R607), not here. -/
def State.postOn (s : State) (p e : Nat) (r : EqRec) : State :=
  let q := 4 * p + e
  let x := s.eq q
  if s.eqRoom q && decide (x.wait = []) then s.putRec p e r
  else s.setEq q { x with wait := x.wait ++ [r] }

/-- The event queue of a submission queue (04 Table 4.12). -/
def State.eqOf (s : State) (p sq : Nat) : Nat := s.fld (Key.prtSqCfg p sq) 17 16

/-- A record due about a descriptor of SQ `sq`. -/
def State.post (s : State) (p : Nat) (r : EqRec) : State := s.postOn p (s.eqOf p r.sq.toNat) r

/-- Records that waited, written while there is room (04 R74); `n` bounds them. -/
def State.flushEq (s : State) (p e : Nat) : Nat → State
  | 0 => s
  | n + 1 =>
    let q := 4 * p + e
    let x := s.eq q
    match x.wait with
    | [] => s
    | r :: rest =>
      if s.eqRoom q then ((s.setEq q { x with wait := rest }).putRec p e r).flushEq p e n else s

/-- A COMPLETION record. -/
def completion (tag : BitVec 64) (sq status detail : Nat) (a b c : Nat) : EqRec where
  tag := tag
  kind := kCompletion
  status := BitVec.ofNat 8 status
  detail := BitVec.ofNat 8 detail
  sq := BitVec.ofNat 3 sq
  a := BitVec.ofNat 32 a
  b := BitVec.ofNat 32 b
  c := BitVec.ofNat 32 c

/-- A descriptor fetched: it is live from here, under the next number (04 R64). -/
def State.fetch (s : State) (p sq : Nat) (tag : BitVec 64) (k : DescKind) : State :=
  { s with descs := s.descs ++ [⟨s.nextFetch, p, sq, tag, k, false⟩], nextFetch := s.nextFetch + 1 }

/-- The COMPLETION of descriptor number `n`: the record is posted, and until it is written the
descriptor stays live (04 R64, R74). -/
def State.complete (s : State) (p n : Nat) (r : EqRec) : State :=
  let l := s.descs.map fun d => if d.num = n then { d with ended := true } else d
  { s with descs := l }.post p { r with ends := some n }

/-- CANCELs whose target's COMPLETION record is written complete after it (04 R77). -/
def State.settleCancels (s : State) (p : Nat) : State :=
  (s.descs.filter fun d => decide (d.part = p) && !d.ended && match d.kind with
    | .cancel t => (s.req p t).isNone
    | _ => false).foldl (fun t d => t.complete p d.num (completion d.tag d.sq stOk 0 1 0 0)) s

/-- Every record that can be written now is, and with it what waited for it. -/
def State.flush (s : State) (p e : Nat) : State := (s.flushEq p e (s.eq (4 * p + e)).wait.length).settleCancels p

/-- The descriptor fetched last completes at once, with nothing else changed (04 R65). -/
def State.refuse (s : State) (p sq : Nat) (tag : BitVec 64) (status detail : Nat) : State :=
  s.complete p (s.nextFetch - 1) (completion tag sq status detail 0 0 0)

/-- A NOTICE (04 Table 4.9). -/
def State.notice (s : State) (r : Req) (status detail a : Nat) : State :=
  s.post r.part
    { completion r.tag r.sq status detail a 0 0 with kind := kNotice }

end Sys2Proof.Machine
end

