-- ==== Sys2Proof/Machine/Pages.lean ====
section
/-! DEFINITION. Page-table entries, splice records, sequence shards, and what releasing pages does
(08 R168, R170; 09 R179 to R188, R202; 10 R209 to R211, R214). -/

namespace Sys2Proof.Machine

/-- A page-table entry or splice record (09 Table 9.2). -/
structure Pte where
  frame : Nat := 0
  far : Bool := false
  present : Bool := false
  pinned : Bool := false
  protected_ : Bool := false
  shared : Bool := false
  dirty : Bool := false
  mirror : Bool := false
  refcount : Nat := 0
  valid : Nat := 0
  score : Nat := 0
  gen : Nat := 0
  pins : Nat := 0
  deriving DecidableEq, Repr

/-- The entry that 128 bits spell (09 Table 9.2). -/
def Pte.ofNat (n : Nat) : Pte where
  frame := bitsOf n 39 0
  far := n.testBit 40
  present := n.testBit 41
  pinned := n.testBit 42
  protected_ := n.testBit 43
  shared := n.testBit 44
  dirty := n.testBit 45
  mirror := n.testBit 46
  refcount := bitsOf n 63 48
  valid := bitsOf n 72 64
  score := bitsOf n 95 80
  gen := bitsOf n 103 96
  pins := bitsOf n 111 104

/-- The 128 bits of an entry; reserved bits are 0. -/
def Pte.toNat (e : Pte) : Nat :=
  let b := fun (x : Bool) (i : Nat) => if x then 2 ^ i else 0
  e.frame % 2 ^ 40 + b e.far 40 + b e.present 41 + b e.pinned 42 + b e.protected_ 43 + b e.shared 44
    + b e.dirty 45 + b e.mirror 46 + e.refcount % 2 ^ 16 * 2 ^ 48 + e.valid % 512 * 2 ^ 64
    + e.score % 2 ^ 16 * 2 ^ 80 + e.gen % 256 * 2 ^ 96 + e.pins % 256 * 2 ^ 104

/-- The entry at a DPA, and an entry written there with a single 16-byte write (09 R185). -/
def State.pte (s : State) (a : Nat) : Pte := Pte.ofNat (s.rdNat a 16)
def State.setPte (s : State) (a : Nat) (e : Pte) : State := s.wrNat a 16 e.toNat

/-- The pinned bit follows the pin count (09 R185). -/
def Pte.withPins (e : Pte) (n : Nat) : Pte := { e with pins := n, pinned := decide (n ≠ 0) }

/-- The first frame of an entry's page: tier-relative frames of the far tier begin at the tier's
first DPA (09 Table 9.2, 08 Table 8.2). -/
def Pte.first (e : Pte) : Nat := if e.far then 0x10000000 + e.frame else e.frame
def Pte.withFirst (e : Pte) (f : Nat) : Pte :=
  match frameTier f with
  | .near => { e with far := false, frame := f }
  | .far => { e with far := true, frame := f - 0x10000000 }

/-- A present entry is well-formed (09 R185); `last` when it is its sequence shard's last page. -/
def Pte.wellFormed (e : Pte) (last : Bool) : Bool :=
  decide (e.frame < (if e.far then 0x18000000 else 0x6000000)) && decide (e.valid ≤ 256)
    && (last || decide (e.valid = 256)) && decide (1 ≤ e.refcount)
    && decide (e.pinned = decide (e.pins ≠ 0))

/-- The scale record of an entry lies 0x8000 above it in its block, for page-table blocks and for
the blocks of index nodes alike (09 R183). -/
def scaleOf (entry : Nat) : Nat := entry + 0x8000

/-! ### Sequence shards -/

/-- The sequence shards of a request. -/
def State.shardsOf (s : State) (p : Nat) (tag : BitVec 64) : List Shard :=
  s.paging.shards.filter fun h => decide (h.part = p) && decide (h.tag = tag)

/-- A sequence shard replaced. -/
def State.setShard (s : State) (h : Shard) : State :=
  let l := s.paging.shards.map fun x => if x.pt = h.pt then h else x
  { s with paging := { s.paging with shards := l } }

/-- The sequence shard whose page-table block lies at a DPA. -/
def State.shardAt (s : State) (pt : Nat) : Option Shard :=
  s.paging.shards.find? fun h => decide (h.pt = pt)

/-- Page size in frames (09 R179). -/
def pageUnits (heads dim : Nat) : Nat := ceilDiv (256 * heads * dim * 2) 4096

/-- The entry index of page `p` (09 R183, R194). -/
def Shard.entryIx (h : Shard) (p : Nat) : Nat := if h.ring > 0 then p % h.ring else p

/-- DPA of the entry of page `p` in the sequence's own block. -/
def Shard.entryAt (h : Shard) (p : Nat) : Nat := h.pt + 16 * h.entryIx p

/-- DPA of the authoritative entry of page `p`: the splice record where the page is shared
(10 R210). -/
def State.authAt (s : State) (h : Shard) (p : Nat) : Nat :=
  let own := h.entryAt p
  if (s.pte own).shared then
    match h.splices.find? fun e => decide (e.1 = p) with
    | some e => e.2
    | none => own
  else own

/-- Pages the shard holds entries for, oldest first. -/
def Shard.pages (h : Shard) : List Nat :=
  let n := ceilDiv h.len 256
  if h.ring > 0 then (List.range n).filter fun p => decide (n ≤ p + h.ring) else List.range n

/-! ### Domain keys -/

/-- The key index under which a request's pages are encrypted (10 R208, R209). -/
def scopeKey (p : Nat) : Scope → Nat
  | .slot s => 128 + s
  | _ => p

/-- A domain key is destroyed once no page is encrypted under it (10 R209). -/
def State.dropKeys (s : State) : State :=
  let used := fun (b : Nat) => s.mem.used.any fun e => decide (e.key = 128 + b)
  let gone := s.paging.domainKeys.filter fun b => !used b
  gone.foldl (fun t b => t.garble (128 + b)) { s with paging := { s.paging with domainKeys := s.paging.domainKeys.filter used } }

/-- The key of a scope exists, or can be generated now; generation counts in SEC_KEYGEN_CNT
(10 R209, 28 R665). -/
def State.needKey (s : State) : Scope → Option State
  | .slot b =>
    if b ∈ s.paging.domainKeys then some s
    else if s.bit Key.secStat 31 then
      some ({ s with paging := { s.paging with domainKeys := s.paging.domainKeys ++ [b] } }.inc
        Key.secKeygenCnt)
    else none
  | _ => some s

/-! ### Releasing pages -/

/-- A move is still to commit. -/
def Move.live (m : Move) : Bool := decide (m.st = .copying) || decide (m.st = .copied)

/-- The status of a burst none of whose moves is live: MEM_ERROR, PARTIAL or DONE (08 R170, R173). -/
def Burst.status (b : Burst) : Nat :=
  if b.memErr then 5 else if b.moves.any fun m => decide (m.st = .aborted) then 1 else 0

/-- A burst completes: status and moved are written back where its descriptor lies (08 R166), and it is counted. -/
def State.endBurst (s : State) (home : BurstHome) (tag : BitVec 64) (status moved : Nat) : State :=
  (match home with
    | .own => s
    | .device a => s.wr (a + 0x38) [BitVec.ofNat 8 status, BitVec.ofNat 8 moved]
    | .ring a => s.emit (.writeBack a tag status moved)).inc Key.pmgDoneCnt

/-- Bursts none of whose moves is live complete (08 R166). -/
def State.finishBursts (s : State) : State :=
  let closed := fun (b : Burst) => b.moves.all fun m => !m.live
  let done := (s.paging.flight ++ s.paging.waiting ++ s.paging.deferred).filter closed
  let s1 := { s with paging := { s.paging with
    flight := s.paging.flight.filter fun b => !closed b
    waiting := s.paging.waiting.filter fun b => !closed b
    deferred := s.paging.deferred.filter fun b => !closed b } }
  done.foldl (fun t b => t.endBurst b.home b.tag b.status (b.moves.filter fun m => decide (m.st = .committed)).length) s1

/-- Moves of bursts in flight that satisfy a test abort, and with `freed` those of bursts that were not issued: their reserved
destination frames enter the backlog, the page keeps its source frame, and the other pages of the burst proceed (08 R170). -/
def State.abortWhere (s : State) (test : Burst → Move → Bool) (freed : Bool) : State :=
  let hit := fun (b : Burst) (m : Move) => test b m && m.live
  let kill := fun (b : Burst) =>
    { b with moves := b.moves.map fun m => if hit b m then { m with st := .aborted } else m }
  let dsts := s.paging.flight.flatMap fun b => (b.moves.filter (hit b)).map fun m => m.dst
  let s1 := { s with paging := { s.paging with
    flight := s.paging.flight.map kill
    waiting := if freed then s.paging.waiting.map kill else s.paging.waiting
    deferred := if freed then s.paging.deferred.map kill else s.paging.deferred } }
  (dsts.foldl State.freeScrub s1).finishBursts

/-- The page whose first frame is `f` is written: its copy in progress aborts. -/
def State.abortMoves (s : State) (f : Nat) : State := s.abortWhere (fun _ m => decide (m.src = f)) false

/-- The page whose first frame is `f` is freed. -/
def State.freeMoves (s : State) (f : Nat) : State := s.abortWhere (fun _ m => decide (m.src = f)) true

/-- Nothing waits any longer on an entry. -/
def State.dropPending (s : State) (a : Nat) : State :=
  { s with paging := { s.paging with
    pending := s.paging.pending.filter fun x => decide (x.entry ≠ a)
    promote := s.paging.promote.filter fun x => decide (x ≠ a) } }

/-- The page that an entry describes is freed: a move of it aborts, and its frames enter the
backlog (08 R170, 06 R120). -/
def State.freePage (s : State) (a : Nat) : State :=
  let e := s.pte a
  ((s.freeMoves e.first).dropPending a).freeScrub e.first

/-- A page's protected bit in some shard that refers to a splice record. -/
def State.recProtected (s : State) (a : Nat) : Bool :=
  s.paging.shards.any fun h => h.splices.any fun e => decide (e.2 = a) && (s.pte (h.entryAt e.1)).protected_

/-- A splice record is protected while its page is protected in any referring shard (10 R211). -/
def State.syncProtect (s : State) (a : Nat) : State :=
  let e := s.pte a
  if e.protected_ = s.recProtected a then s else s.setPte a { e with protected_ := s.recProtected a }

/-- One referrer less of a splice record; a page that nothing refers to is freed once its pin count is zero (10 R211, R221, R232). -/
def State.unref (s : State) (rec : Nat) : State :=
  let e := s.pte rec
  if e.refcount ≤ 1 then
    if e.present && decide (e.pins ≠ 0) then
      let x : Pending := { entry := rec, drop := true, since := s.tick, loose := true }
      ({ s with paging := { s.paging with pending := s.paging.pending ++ [x] } }).setPte rec { e with refcount := 0 }
    else
      let s1 := if e.present then s.freePage rec else s
      s1.setPte rec { e with refcount := 0, present := false }
  else (s.setPte rec { e with refcount := e.refcount - 1 }).syncProtect rec

/-- A splice record is referred to by some shard. -/
def State.recUsed (s : State) (rec : Nat) : Bool :=
  s.paging.shards.any fun h => h.splices.any fun e => decide (e.2 = rec)

/-- The blocks of nodes that left the index are given back once no shard refers to their records. -/
def State.dropRecBlock (s : State) (block : Nat) : State :=
  if s.paging.nodes.any (fun n => decide (n.block = block)) then s
  else if s.paging.shards.any (fun h => h.splices.any fun e => decide (e.2 / 0x10000 * 0x10000 = block)) then s
  else if s.paging.pending.any (fun x => decide (x.entry / 0x10000 * 0x10000 = block)) then s
  else s.dropBlock block

/-- Page `p` of a shard released: a spliced page loses one referrer, a private page is freed. The entry keeps its generation, which
its next opening increments (09 R184). -/
def State.releasePage (s : State) (h : Shard) (p : Nat) : State :=
  let own := h.entryAt p
  let e := s.pte own
  if !e.present then s
  else
    let gen := (s.pte (s.authAt h p)).gen
    match h.splices.find? fun x => decide (x.1 = p) with
    | some x => (s.setPte own { gen := gen }).unref x.2
    | none => (s.freePage own).setPte own { gen := gen }

/-- A shard released: its pages, its holding and reservation, its page-table block (07 R136,
06 R120). -/
def State.releaseShard (s : State) (h : Shard) : State :=
  let s1 := h.pages.foldl (fun t p => t.releasePage h p) s
  let s2 := (h.holding ++ h.mirrorHold).foldl State.freeFresh s1
  let s3 := match h.reservation with
    | some f => s2.freeFresh f
    | none => s2
  let blocks := (h.splices.map fun e => e.2 / 0x10000 * 0x10000).eraseDups
  let s4 := { (s3.dropBlock h.pt).dropBlock h.resEntry with paging := { s3.paging with
    shards := s3.paging.shards.filter fun x => decide (x.pt ≠ h.pt) } }
  (blocks.foldl State.dropRecBlock s4).dropKeys

/-- Every shard of a request released. -/
def State.releaseShards (s : State) (p : Nat) (tag : BitVec 64) : State :=
  (s.shardsOf p tag).foldl State.releaseShard s

/-- Protection follows: page 0 and the last eight pages of a shard (10 Quantities, R211). -/
def State.protectShard (s : State) (h : Shard) : State :=
  let n := ceilDiv h.len 256
  h.pages.foldl (fun t p =>
    let own := h.entryAt p
    let e := t.pte own
    let x := decide (p = 0) || decide (n ≤ p + 8)
    let t1 := if e.protected_ = x then t else t.setPte own { e with protected_ := x }
    if e.shared then t1.syncProtect (t.authAt h p) else t1) s

/-- A shard replaced, and the entry that records its reservation written: its frame and tier, with present clear (09 R187). -/
def State.setRes (s : State) (h : Shard) : State :=
  (s.setShard h).setPte h.resEntry (match h.reservation with
    | some f => ({} : Pte).withFirst f
    | none => {})

/-- Every byte of a range lies in frames that a partition pays for, or in page-table blocks of its
sequence shards (R277). -/
def State.ownsFrom (s : State) (p a stop : Nat) : Nat → Bool
  | 0 => decide (stop ≤ a)
  | fuel + 1 =>
    if stop ≤ a then true
    else
      match s.mem.used.find? fun (e : Extent) => decide (e.use.payer = some p) && decide (4096 * e.start ≤ a)
          && decide (a < 4096 * (e.start + e.len)) with
      | some e => s.ownsFrom p (4096 * (e.start + e.len)) stop fuel
      | none =>
        match s.paging.shards.find? fun h => decide (h.part = p) && decide (h.pt ≤ a) && decide (a < h.pt + 0x10000) with
        | some h => s.ownsFrom p (h.pt + 0x10000) stop fuel
        | none => false
def State.owns (s : State) (p : Nat) (r : Nat × Nat) : Bool :=
  decide (r.2 = 0) || s.ownsFrom p r.1 (r.1 + r.2) (s.mem.used.length + s.paging.shards.length + 1)

end Sys2Proof.Machine
end

