-- ==== Sys2Proof/Machine/Requests.lean ====
section
/-! DEFINITION. Requests: lanes, their end, and what their end releases (04 R68 to R70, R77, R81;
06 R111, R126; 07 R136 to R151; 17 R417). -/

namespace Sys2Proof.Machine

/-! ### Ring entries -/

/-- The causes that RING_END carries (17 R417), as the model numbers them. -/
def ringCauseCode : RingCause → Nat
  | .cancel => 0 | .reset => 1 | .release => 2 | .flr => 3 | .fault => 4

/-- Fields of ring entry `k` (17 Table 17.3). -/
def State.ringHandle (s : State) (k : Nat) : Nat := s.fld (Key.shrRingCfg k) 31 16
def State.ringSize (s : State) (k : Nat) : Nat := s.fld (Key.shrRingCfg k) 15 10
def State.ringMember (s : State) (k : Nat) : Nat := s.fld (Key.shrRingCfg k) 9 5
def State.ringMirror (s : State) (k : Nat) : Bool := s.bit (Key.shrRingCfg k) 4
def State.ringPart (s : State) (k : Nat) : Nat := s.fld (Key.shrRingPart k) 7 0
def State.ringState (s : State) (k : Nat) : Nat := s.fld (Key.shrRingStat k) 31 29

/-- The hidden part of ring entry `k`. -/
def State.ring (s : State) (k : Nat) : Ring := SMap.get (fun _ => {}) s.rings k
def State.setRing (s : State) (k : Nat) (x : Ring) : State :=
  { s with rings := SMap.set (fun _ => {}) s.rings k x }

/-- The ring entry that a handle names: entries that are IDLE name nothing. -/
def State.ringOf (s : State) (handle : Nat) : Option Nat :=
  if handle = 0 then none
  else (List.range 8).find? fun k => decide (s.ringHandle k = handle) && decide (s.ringState k ≠ 0)

/-- The ring entry that a descriptor's handle names, whatever its state (17 R405). -/
def State.ringNamed (s : State) (handle : Nat) : Option Nat :=
  match s.ringOf handle with
  | some k => some k
  | none => if handle = 0 then none else (List.range 8).find? fun k => decide (s.ringHandle k = handle)

/-- The ring entry of a SHROUD request. -/
def State.reqRing (s : State) (r : Req) : Option Nat :=
  if r.d.shroud then s.ringOf r.d.ring else none

/-- The ring's RING_END sent to every other member, through the right neighbour (17 R417). -/
def State.sendRingEnd (s : State) (k : Nat) (tag : BitVec 64) (c : RingCause) : State :=
  let n := s.ringSize k
  let m := s.ringMember k
  let dst := BitVec.ofNat 16 (s.fld (Key.shrRingRight k) 15 0)
  ((List.range n).filter fun i => decide (i ≠ m)).foldl
    (fun t i => t.emit (.routed dst (.ring "RING_END" [s.ringHandle k, tag.toNat, ringCauseCode c, i]))) s

/-! ### Models -/

/-- The image of a handle. -/
def State.model (s : State) (p handle : Nat) : Option Model :=
  s.models.find? fun m => decide (m.part = p) && decide (m.handle = handle)

/-- A model's record replaced. -/
def State.setModel (s : State) (m : Model) : State :=
  let l := s.models.map fun x => if x.part = m.part ∧ x.handle = m.handle then m else x
  { s with models := l }

/-! ### Lanes (07) -/

/-- Prefill and decode lanes of partition `p` (07 Table 7.3). -/
def State.prefillLanes (s : State) (p : Nat) : Nat := max 1 (s.fld (Key.admLanes p) 27 24)
def State.decodeLanes (s : State) (p : Nat) : Nat := max 1 (min 1024 (s.fld (Key.admLanes p) 10 0))

/-- A request in its prefill phase, of which prefix lookup is the beginning (02 R27). -/
def Req.inPrefill (r : Req) : Bool := decide (r.phase = .lookup) || decide (r.phase = .prefill)
def Req.inDecode (r : Req) : Bool := decide (r.phase = .decode) || decide (r.phase = .final)

/-- Lanes in use. -/
def State.lanesUsed (s : State) (p : Nat) (decode : Bool) : Nat :=
  (s.reqs.filter fun r => decide (r.part = p) && r.lane && (if decode then r.inDecode else r.inPrefill)).length

/-- A lane of the phase is free. -/
def State.laneFree (s : State) (p : Nat) (decode : Bool) : Bool :=
  decide (s.lanesUsed p decode < (if decode then s.decodeLanes p else s.prefillLanes p))

/-- The same for an admission decision: a lane released in the tick counts only from the next decision (07 R147). -/
def State.laneFreeNow (s : State) (p : Nat) (decode : Bool) : Bool :=
  decide (s.lanesUsed p decode + (s.rr.freed.filter fun x => decide (x = (p, decode))).length
    < (if decode then s.decodeLanes p else s.prefillLanes p))

/-- A lane that a request gives up is noted. -/
def State.noteLane (s : State) (r : Req) : State :=
  if r.lane ∧ r.marked = none then { s with rr := { s.rr with freed := s.rr.freed ++ [(r.part, r.inDecode)] } } else s

/-- Admitted and not ended. -/
def Req.admitted (r : Req) : Bool := r.active && decide (r.phase ≠ .deferred)

/-! ### Ending a request -/

/-- The status of a request that succeeds: the first condition that applies (04 R70). -/
def Req.okStatus (r : Req) : Nat :=
  if r.approx then stApproximate else if r.clamped then stClamped
  else if r.frameLong then stFrameLong else stOk

/-- The COMPLETION record of a request (04 Table 4.9): token records written, prompt tokens used,
prompt tokens spliced, and the flags that apply. -/
def Req.record (r : Req) (status detail : Nat) : EqRec :=
  { completion r.tag r.sq status detail r.written r.tokens.length r.spliced with
    clamped := r.clamped, approx := r.approx, frameLong := r.frameLong }

/-- A request's work stops: it leaves its walks and the lists of waiting work; a walk that serves no
request any longer issues nothing more. -/
def State.stopWork (s : State) (p : Nat) (tag : BitVec 64) : State :=
  let ws := s.fab.walks.map fun w =>
    if w.part = p ∧ tag ∈ w.tags then
      let ts := w.tags.filter fun t => decide (t ≠ tag)
      { w with tags := ts, stopped := w.stopped || decide (ts = []) } else w
  let ws2 := ws.filter fun w => !(w.stopped && decide (w.tags = []) && !w.test
    && (s.fab.flight.all fun m => !(decide (m.spar = w.spar) && decide (m.walk = w.id))))
  let wait := s.fab.waiting.filter fun x => !(decide (x.2.1 = p) && decide (tag ∈ x.2.2.1))
  let done := s.fab.doneSteps.filter fun x => !(decide (x.1 = p) && decide (x.2.1 = tag))
  let jw := s.cnv.waiting.filter fun x => !(decide (x.2.1 = p) && decide (x.2.2.1 = tag))
  { s with
    fab := { s.fab with walks := ws2, waiting := wait, doneSteps := done }
    cnv := { s.cnv with waiting := jw } }

/-- The steps that a request's walks and jobs have done are forgotten when the step ends (R348). -/
def State.clearSteps (s : State) (p : Nat) (tag : BitVec 64) : State :=
  { s with fab := { s.fab with doneSteps := s.fab.doneSteps.filter fun x => !(decide (x.1 = p) && decide (x.2.1 = tag)) } }

/-- The lane of a marked victim passes to the request it was marked for (07 R143, R149). -/
def State.passLane (s : State) (r : Req) : State :=
  match r.marked with
  | some t =>
    match s.req r.part t with
    | some x => if r.lane && x.active && !x.lane then s.setReq { x with lane := true } else s
    | none => s
  | none => s

/-- The mirror pages held for a neighbour's part of a request are freed (17 R416). -/
def State.releaseMirrors (s : State) (p : Nat) (tag : BitVec 64) : State :=
  (List.range 8).foldl (fun t k =>
    let x := t.ring k
    let mine := x.mirror.filter fun y => decide (t.ringPart k = p) && decide (y.tag = tag)
    if mine = [] then t
    else (mine.foldl (fun u y => u.freeScrub y.frame) t).setRing k
      { x with mirror := x.mirror.filter fun y => decide (y ∉ mine) }) s

/-- A request leaves its work, its lane and its pages, with no record written. -/
def State.release (s : State) (r : Req) : State :=
  let s1 := ((s.noteLane r).setReq { r with phase := .ended, lane := false, preempted := false, marked := none, owed := [] }).passLane r
  (((s1.stopWork r.part r.tag).releaseMirrors r.part r.tag).releaseShards r.part r.tag).kvpUpdate

/-- A request ends with a status: its work stops, its pages are released, its COMPLETION is posted,
and the CANCELs that wait for it complete. A member of a ring that ends a request in any way but the
home's END tells the other members (17 R417); no record is posted for a request that a spare adopted (17 R427). -/
def State.finish (s : State) (r : Req) (status detail : Nat) (cause : Option RingCause) : State :=
  let s1 := match cause, s.reqRing r with
    | some c, some k => if r.admitted then s.sendRingEnd k r.tag c else s
    | _, _ => s
  let s2 := s1.release r
  let s3 := if r.adopted then s2.dropDesc r.fetchNo else s2.complete r.part r.fetchNo (r.record status detail)
  s3.settleCancels r.part

/-- A fault ends a request. -/
def State.fail (s : State) (r : Req) (status detail : Nat) : State :=
  s.finish r status detail (some .fault)

/-- A fault ends every active request that satisfies a test, in fetch order. -/
def State.failAll (s : State) (f : Req → Bool) (status detail : Nat) : State :=
  (s.reqs.filter fun r => r.active && f r).foldl (fun t r => t.fail r status detail) s

/-- A fault ends the request of a tag, if it is active. -/
def State.failTag (s : State) (p : Nat) (tag : BitVec 64) (status detail : Nat) : State :=
  match s.req p tag with
  | some r => if r.active then s.fail r status detail else s
  | none => s

/-- A request stops without a record: a RELEASE or a Function Level Reset (04 R84, 06 R111). -/
def State.dropReq (s : State) (r : Req) (c : RingCause) : State :=
  let s1 := match s.reqRing r with
    | some k => if r.admitted then s.sendRingEnd k r.tag c else s
    | none => s
  (s1.release r).dropDesc r.fetchNo

/-- The requests that use a sequence shard, and the shards that refer to a splice record. -/
def State.failShards (s : State) (f : Shard → Bool) (status detail : Nat) : State :=
  (s.paging.shards.filter f).foldl (fun t h => t.failTag h.part h.tag status detail) s

/-- The instance number of the next request (24 R591), remembered with its queue. -/
def State.newInstance (s : State) (p sq : Nat) (tag : BitVec 64) : State :=
  let r := s.rel
  { s with rel := { r with nextInst := r.nextInst + 1, insts := r.insts ++ [⟨r.nextInst, p, sq, tag, 0, false⟩] } }

end Sys2Proof.Machine
end

