-- ==== Sys2Proof/Machine/Units.lean ====
section
/-! DEFINITION. Units: service, holders, usage records, loss (06 R113, R129, R130; 24 R588 to R595)
and the SUSPECT events. -/

namespace Sys2Proof.Machine

/-- The unit types of 24 Table 24.3. -/
abbrev utYard : Nat := 1
abbrev utLuff : Nat := 2
abbrev utClew : Nat := 3
abbrev utGroup : Nat := 4
abbrev utBank : Nat := 5
abbrev utBoom : Nat := 6
abbrev utScatter : Nat := 7
abbrev utMigration : Nat := 8
abbrev utCollective : Nat := 9
abbrev utJobSeq : Nat := 10

/-- How many units of a type there are. -/
def unitCount (t : Nat) : Nat :=
  if t = 1 then 32 else if t = 2 then 8 else if t = 3 then 16 else if t = 4 then 256
  else if t = 5 then 192 else if t = 6 then 4 else if t = 7 then 4 else if t = 8 then 1
  else if t = 9 then 2 else if t = 10 then 4 else 0

/-- The status and detail of a request that was using a lost unit (24 Table 24.3). -/
def unitFault (t : Nat) : Nat × Nat :=
  if t = 1 then (stFaultUnit, 0x10) else if t = 2 then (stFaultUnit, 0x15)
  else if t = 3 then (stFaultUnit, 0x16) else if t = 4 then (stFaultUnit, 0x18)
  else if t = 5 then (stFaultMemory, 0x06) else if t = 6 then (stFaultUnit, 0x14)
  else if t = 7 then (stFaultUnit, 0x1C) else if t = 8 then (stFaultUnit, 0x1D)
  else if t = 9 then (stFaultLink, 0x06) else (stFaultUnit, 0x18)

/-- The 32-bit unit ID (24 R590). -/
def unitWord (u : UnitId) : Nat := u.type * 2 ^ 24 + u.sub % 256 * 2 ^ 16 + u.index % 2 ^ 16

/-- The unit without its sub-index, by which service and usage are kept. -/
def unitBase (u : UnitId) : UnitId := { u with sub := 0 }
def unitKey (u : UnitId) : Nat := u.type * 65536 + u.index

/-- A unit's register bit that reads "in service", where it has one (11 R259, R260; 12 R287; 13 R316;
14 R345; 15 R373). -/
def serviceBit (u : UnitId) : Option (Nat × Nat) :=
  if u.type = 1 then some (Key.yrdStat u.index, 31)
  else if u.type = 2 then some (Key.lufStat u.index, 31)
  else if u.type = 3 then some (Key.clwStat u.index, 31)
  else if u.type = 4 then some (Key.cpgStat u.index, 31)
  else if u.type = 5 then some (Key.sprBank (u.index / 48) (u.index % 48), 0)
  else if u.type = 6 then some (Key.bomStat u.index, 31)
  else none

/-- The unit is in service. -/
def State.inService (s : State) (u : UnitId) : Bool :=
  match serviceBit u with
  | some (k, b) => s.bit k b
  | none => s.ready && decide (unitBase u ∉ s.rel.out)

/-- The unit put in service, or taken out of it. -/
def State.setService (s : State) (u : UnitId) (x : Bool) : State :=
  match serviceBit u with
  | some (k, b) => s.setBit k b x
  | none =>
    let o := s.rel.out.filter fun y => decide (y ≠ unitBase u)
    { s with rel := { s.rel with out := if x then o else o ++ [unitBase u] } }

/-- The Spar that carries a unit of types 1, 2, 3, 5, 6 or 7. -/
def sparOfUnit (u : UnitId) : Option Nat :=
  if u.type = 1 then some (u.index / 8) else if u.type = 2 then some (u.index / 2)
  else if u.type = 3 then some (u.index / 4) else if u.type = 5 then some (u.index / 48)
  else if u.type = 6 ∨ u.type = 7 then some u.index else none

/-- The units of a Spar that partitions hold (06 R113): its Yards, Luffs, Clews and banks. -/
def sparUnits (k : Nat) : List UnitId :=
  ((List.range 8).map fun i => ⟨1, 8 * k + i, 0⟩) ++ ((List.range 2).map fun i => ⟨2, 2 * k + i, 0⟩)
    ++ ((List.range 4).map fun i => ⟨3, 4 * k + i, 0⟩) ++ ((List.range 48).map fun i => ⟨5, 48 * k + i, 0⟩)

/-- The mask of a reservation that names units of a type. -/
def Held.mask (h : Held) (t : Nat) : Nat :=
  if t = 1 then h.yrd else if t = 2 then h.luf else if t = 3 then h.clw
  else if t = 4 then h.cpg else if t = 5 then h.bank else 0

/-- The partition that holds a unit: sealed for types 1, 2, 3 and 5, either kind for a group (R113). -/
def State.holder (s : State) (u : UnitId) : Option Nat :=
  allParts.find? fun p =>
    let h := (s.part p).held
    h.valid && (h.isSealed || decide (u.type = 4)) && (h.mask u.type).testBit u.index

/-- A Yard, Luff, Clew or bank in the pool: in service, and held by no sealed partition (06 R113). -/
def State.inPool (s : State) (u : UnitId) : Bool := s.inService u && decide (s.holder u = none)

/-- Units of a type in the pool. -/
def State.poolCount (s : State) (t : Nat) : Nat :=
  ((List.range (unitCount t)).filter fun i => s.inPool ⟨t, i, 0⟩).length

/-- The pool holds at least one Yard, Luff, Clew and bank (06 R130). -/
def State.poolAlive (s : State) : Bool :=
  decide (0 < s.poolCount 1) && decide (0 < s.poolCount 2) && decide (0 < s.poolCount 3)
    && decide (0 < s.poolCount 5)

/-! ### Which requests use a unit -/

/-- The bound plan of a walk. -/
def State.planOf (s : State) (w : Walk) : Option BoundPlan :=
  s.fab.plans.find? fun b => decide (b.part = w.part) && decide (b.handle = w.handle)
    && decide (b.plan = w.plan) && decide (b.spar = w.spar)

/-- The bound plan includes a unit. -/
def BoundPlan.has (b : BoundPlan) (u : UnitId) : Bool :=
  (decide (u.type = 1) && decide (u.index ∈ b.yards)) || (decide (u.type = 2) && decide (u.index ∈ b.luffs))
    || (decide (u.type = 3) && decide (u.index ∈ b.clews)) || (decide (u.type = 5) && decide (u.index ∈ b.banks))
    || (decide (u.type = 6) && decide (u.index = b.spar))

/-- The physical groups in which a model is placed. -/
def Model.physGroups (m : Model) : List Nat := m.groups.map fun g => g.phys

/-- The requests that are using a unit: those whose walk has a plan with it, whose Canvas job uses it,
whose scatter descriptor or migrating page it works on. -/
def State.usersOf (s : State) (u : UnitId) : List (Nat × BitVec 64) :=
  if u.type = 1 ∨ u.type = 2 ∨ u.type = 3 ∨ u.type = 5 ∨ u.type = 6 then
    (s.fab.walks.filter fun w => match s.planOf w with
      | some b => b.has u
      | none => false).flatMap fun w => w.tags.map fun t => (w.part, t)
  else if u.type = 4 then
    (s.cnv.jobs.filter fun j => match s.model j.part j.handle with
      | some m => decide (u.index ∈ m.physGroups)
      | none => false).flatMap fun j => j.tags.map fun t => (j.part, t)
  else if u.type = 7 then
    (s.paging.scatter.filter fun d => decide (d.spar = u.index)).filterMap fun d =>
      (s.shardAt (bitsOf d.desc.toNat (8 * 0x10 + 63) (8 * 0x10))).map fun h => (h.part, h.tag)
  else if u.type = 8 then
    s.paging.shards.filterMap fun h =>
      if s.paging.flight.any (fun b => b.moves.any fun m => match m.entry with
        | some e => decide (h.pt ≤ e) && decide (e < h.pt + 0x10000)
        | none => false) then some (h.part, h.tag) else none
  else if u.type = 9 then
    (s.fab.flight.filter fun m => decide (m.op = 6) && !m.done).flatMap fun m =>
      (s.fab.walks.filter fun w => decide (w.spar = m.spar) && decide (w.id = m.walk)).flatMap fun w =>
        w.tags.map fun t => (w.part, t)
  else
    (s.cnv.jobs.filter fun j => decide (j.die = u.index)).flatMap fun j => j.tags.map fun t => (j.part, t)

/-! ### Usage records (24 R591) -/

/-- The epoch of the current time: 1 ms of the Telltale count. -/
def State.epoch (s : State) : Nat := s.time.count.toNat / 100000

/-- Work of an instance of partition `p` ran on a unit: the partition's bit, and the instance among
at most 4,096; the 4,097th marks the epoch saturated. -/
def Usage.record (x : Usage) (p inst : Nat) : Usage :=
  let parts := if p ∈ x.parts then x.parts else x.parts ++ [p]
  if inst ∈ x.insts then { x with parts := parts }
  else if x.saturated ∨ 4096 ≤ x.insts.length then { x with parts := parts, saturated := true }
  else { x with parts := parts, insts := x.insts ++ [inst] }

/-- The usage record of a unit in the current epoch brought up to date. -/
def State.useUnit (s : State) (u : UnitId) (p inst : Nat) : State :=
  let b := unitBase u
  let e := s.epoch
  let l := if s.rel.usage.any fun x => decide (x.unit = b) && decide (x.epoch = e)
    then s.rel.usage.map fun x => if x.unit = b ∧ x.epoch = e then x.record p inst else x
    else s.rel.usage ++ [({ unit := b, epoch := e } : Usage).record p inst]
  { s with rel := { s.rel with usage := l } }

/-- A partition leaves FREE, or enters it, in the current epoch (R605). -/
def State.leavesFree (s : State) (p : Nat) : State :=
  { s with rel := { s.rel with outside := s.rel.outside ++ [(p, s.epoch, none)] } }
def State.entersFree (s : State) (p : Nat) : State :=
  { s with rel := { s.rel with outside := s.rel.outside.map fun x => if x.1 = p ∧ x.2.2 = none then (x.1, x.2.1, some s.epoch) else x } }

/-- The partitions outside FREE at some time of an epoch. -/
def State.outsideFree (s : State) (e : Nat) : List Nat :=
  ((s.rel.outside.filter fun x => decide (x.2.1 ≤ e) && (x.2.2.map fun b => decide (e ≤ b)).getD true).map fun x => x.1).eraseDups

/-- An uncorrectable word of a unit's usage records: USAGE_UE latches, and the epochs that the word covers count as saturated for
every partition that was outside FREE in them (R605). -/
def State.usageUe (s : State) (u : UnitId) (epochs : List Nat) : State :=
  let b := unitBase u
  let hit := epochs.filter fun e => decide (e ≤ s.epoch) && decide (s.epoch < e + 64)
  let l := hit.foldl (fun (l : List Usage) e =>
    let old := (l.find? fun x => decide (x.unit = b) && decide (x.epoch = e)).getD { unit := b, epoch := e }
    (l.filter fun x => !(decide (x.unit = b) && decide (x.epoch = e)))
      ++ [{ old with parts := (old.parts ++ s.outsideFree e).eraseDups, saturated := true }]) s.rel.usage
  ({ s with rel := { s.rel with usage := l } } : State).latch pgFlt 3 0

/-- Work of a live request on a unit. -/
def State.useFor (s : State) (u : UnitId) (p : Nat) (tag : BitVec 64) : State :=
  match s.req p tag with
  | some r => s.useUnit u p r.inst
  | none => s

/-- Work of the requests of a walk on units. -/
def State.useWalk (s : State) (us : List UnitId) (w : Walk) : State :=
  us.foldl (fun t u => w.tags.foldl (fun x g => x.useFor u w.part g) t) s

/-! ### SUSPECT (24 R592 to R595) -/

/-- One EVENT record, or its loss: a partition FREE or RELEASING, or a disabled EQ, gets none, and
SUSPECT_LOST latches (R595). -/
def State.postEvent (s : State) (p e : Nat) (r : EqRec) : State :=
  if s.pstate p = psFree ∨ s.pstate p = psReleasing ∨ s.bit (Key.prtEqCfg p e) 31 = false then
    (s.latch pgFlt 2 0).inc Key.fltSuspectLostCnt
  else (s.postOn p e r).inc Key.fltSuspectCnt

/-- The EVENT record of a detection at Telltale time `t` (04 Table 4.9, 24 R592). -/
def suspectRec (tag : BitVec 64) (sq cls : Nat) (u : UnitId) (t : Nat) : EqRec :=
  { completion tag sq stSuspect cls (unitWord u) (t % 2 ^ 32) (t / 2 ^ 32) with kind := kEvent }

/-- Insertion of an instance by admission order. -/
def insInst (x : InstInfo) : List InstInfo → List InstInfo
  | [] => [x]
  | y :: ys => if x.admitNo ≤ y.admitNo then x :: y :: ys else y :: insInst x ys

/-- SUSPECT for a SELFTEST or SENTINEL fault of a unit found now, the window starting at Telltale
time `start`, widened to its epoch's start: one event per instance recorded in the window, in
admission order, then one per partition of a saturated epoch on its EQ0 (R592 to R594). -/
def State.suspect (s : State) (u : UnitId) (cls start : Nat) : State :=
  let t := s.time.count.toNat
  let xs := s.rel.usage.filter fun x => decide (x.unit = unitBase u) && decide (start / 100000 ≤ x.epoch)
    && decide (x.epoch ≤ t / 100000)
  let ids : List Nat := (xs.flatMap fun x => x.insts).eraseDups
  let infos := (s.rel.insts.filter fun (i : InstInfo) => decide (i.inst ∈ ids) && !i.gone).foldr insInst []
  let s1 := infos.foldl (fun a i => a.postEvent i.part (a.eqOf i.part i.sq)
    (suspectRec i.tag i.sq cls u t)) s
  let parts := ((xs.filter fun x => x.saturated).flatMap fun x => x.parts).eraseDups
  parts.foldl (fun a p => a.postEvent p 0 (suspectRec (BitVec.allOnes 64) 0 cls u t)) s1

/-! ### Loss of a unit (06 R129, R130) -/

/-- The checks MINIMUM to CANVAS_CONC of 06 Table 6.5 on a sealed reservation; 0 when all hold. -/
def State.minimumCheck (s : State) (h : Held) : Nat :=
  if h.yrd = 0 ∨ h.luf = 0 ∨ h.clw = 0 ∨ bitsOf h.bw 31 24 = 0 ∨ bitsOf h.bw 23 16 = 0
      ∨ bitsOf h.bw 15 8 = 0 ∨ h.nearQuota < 1024 then 0x05
  else if (List.range 4).any (fun k =>
      (decide (bitsOf h.yrd (8 * k + 7) (8 * k) ≠ 0) || decide (bitsOf h.luf (2 * k + 1) (2 * k) ≠ 0)
        || decide (bitsOf h.clw (4 * k + 3) (4 * k) ≠ 0))
      && (decide (bitsOf h.bank (48 * k + 47) (48 * k) = 0) || decide (bitsOf h.slots (8 * k + 7) (8 * k) = 0)))
    then 0x06
  else if (List.range 4).any (fun d =>
      let gs := (List.range 64).filter fun g => h.cpg.testBit (64 * d + g)
      let conc := bitsOf h.conc (8 * d + 7) (8 * d)
      let panels := (gs.map fun g => s.fld (Key.cpgStat (64 * d + g)) 5 0).sum
      (decide (gs ≠ []) && decide (conc = 0)) || decide (panels < 32 * conc))
    then 0x07
  else 0

/-- A partition enters HALTED: never-admitted deferred requests complete with REFUSED_STOPPED 0x03,
every other live request with the given status (06 R129, R130, 07 R150). -/
def State.halt (s : State) (p st dt : Nat) : State :=
  let s1 := (s.setPState p psHalted).latch (pgPrt p) 1 0
  (s1.reqs.filter fun r => decide (r.part = p) && r.active).foldl (fun t r =>
    if r.phase = .deferred then t.finish r stRefusedStopped 0x03 none else t.fail r st dt) s1

/-- Bit `i` of a number cleared. -/
def clearBitN (n i : Nat) : Nat := if n.testBit i then n - 2 ^ i else n

/-- A unit's bit cleared in a reservation and in the partition's mask registers. -/
def State.dropMask (s : State) (p : Nat) (u : UnitId) : State :=
  let x := s.part p
  let h := x.held
  let i := u.index
  let h' : Held :=
    if u.type = 1 then { h with yrd := clearBitN h.yrd i } else if u.type = 2 then { h with luf := clearBitN h.luf i }
    else if u.type = 3 then { h with clw := clearBitN h.clw i } else if u.type = 4 then { h with cpg := clearBitN h.cpg i }
    else { h with bank := clearBitN h.bank i }
  let s1 := s.setPart p { x with held := h' }
  if u.type = 1 then s1.setBit (Key.prtYrdMask p) i false
  else if u.type = 2 then s1.setBit (Key.prtLufMask p) i false
  else if u.type = 3 then s1.setBit (Key.prtClwMask p) i false
  else if u.type = 4 then s1.setBit (Key.prtCpgMask p (i / 32)) (i % 32) false
  else s1.setBit (Key.prtBankMask p (i / 32)) (i % 32) false

/-- A state that HALTED can follow (06 Table 6.3). -/
def mayHalt (st : Nat) : Bool := decide (st = psActive) || decide (st = psDraining) || decide (st = psResetting)

/-- Plans that held a unit are unbound, so that waiting work binds again. -/
def State.unbindUnit (s : State) (u : UnitId) : State :=
  { s with fab := { s.fab with plans := s.fab.plans.filter fun b => !b.has u } }

/-- A unit leaves service. Its users complete with status `st` and detail `dt`. A unit held by a
partition leaves its mask and latches UNIT_LOST, and a sealed partition whose minimum is no longer
met halts (R129); when the loss empties the pool, every shared partition at work halts (R130). A unit
of a type that no partition holds only loses its users. -/
def State.loseUnitAs (s : State) (u : UnitId) (st dt : Nat) : State :=
  if s.inService u then
    let holder := s.holder u
    let users := (s.usersOf u).eraseDups
    let s0 := s.setService u false
    let s1 := match holder with
      | some p => (s0.dropMask p u).latch (pgPrt p) 0 (u.type * 256 + u.index)
      | none => s0
    let s2 := (users.foldl (fun t x => t.failTag x.1 x.2 st dt) s1).unbindUnit u
    match holder with
    | some p =>
      if (s2.part p).held.isSealed ∧ mayHalt (s2.pstate p) = true ∧ s2.minimumCheck (s2.part p).held ≠ 0
      then s2.halt p st dt else s2
    | none =>
      if (u.type = 1 ∨ u.type = 2 ∨ u.type = 3 ∨ u.type = 5) ∧ s2.poolAlive = false then
        (allParts.filter fun p => !s2.isSealed p && mayHalt (s2.pstate p)).foldl
          (fun t p => t.halt p st dt) s2
      else s2
  else s

/-- A unit leaves service with the status of its type (24 Table 24.3). -/
def State.loseUnit (s : State) (u : UnitId) : State :=
  s.loseUnitAs u (unitFault u.type).1 (unitFault u.type).2

/-- A Boom leaves service, and with it every unit of its Spar; requests using the Spar complete with
the given status (12 R285, 11 R257). -/
def State.loseSpar (s : State) (k st dt : Nat) : State :=
  (sparUnits k).foldl (fun t u => t.loseUnitAs u st dt) (s.loseUnitAs ⟨utBoom, k, 0⟩ st dt)

end Sys2Proof.Machine
end

