-- ==== Sys2Proof/Machine/Wake.lean ====
section
/-! DEFINITION. Idle domains, and work waking them (23 R563 to R567). -/

namespace Sys2Proof.Machine

/-- The exit latency of an idle state in ticks, and with the guard of 10% (Table 23.4). -/
def exitTicks (st : Nat) : Nat :=
  if st = 1 then 4 else if st = 2 then 300 else if st = 3 then 6000 else if st = 4 then 50000 else 400000
def exitGuard (st : Nat) : Nat := (exitTicks st * 11 + 9) / 10

/-- The idle state of a domain. -/
def State.idleOf (s : State) (d : IdleDomain) : Option IdleSt := s.power.idle.find? fun x => decide (x.dom = d)

/-- A domain's idle state noted. -/
def State.setIdle (s : State) (x : IdleSt) : State :=
  { s with power := { s.power with idle := (s.power.idle.filter fun y => decide (y.dom ≠ x.dom)) ++ [x] } }

/-- A domain out of its idle state. -/
def State.dropIdle (s : State) (d : IdleDomain) : State :=
  { s with power := { s.power with idle := s.power.idle.filter fun y => decide (y.dom ≠ d) } }

/-- A domain is awake: in no idle state (0 notes since when it has been idle), or its exit has ended. -/
def State.awake (s : State) (d : IdleDomain) : Bool :=
  match s.idleOf d with
  | none => true
  | some x => match x.ready with
    | some t => decide (t ≤ s.tick)
    | none => decide (x.st = 0)

/-- Canvas groups of a die whose read bias comes back are re-referenced (R564, 16 R386). -/
def State.rereferenceDie (s : State) (d : Nat) : State :=
  let owe := fun (m : SMap Group) (g : Nat) => SMap.upd (fun _ => {}) m (64 * d + g) fun x =>
    if x.tRef = none then x else { x with due := true }
  { s with cnv := { s.cnv with groups := (List.range 64).foldl owe s.cnv.groups } }

/-- A domain begins the exit from its idle state. -/
def State.beginExit (s : State) (x : IdleSt) : State :=
  let s1 := s.setIdle { x with ready := some (s.tick + exitTicks x.st) }
  match x.dom, decide (x.st = 4) with
  | .canvas d, true => s1.rereferenceDie d
  | .package, _ => s1.setBit Key.pwrStat 27 false
  | _, _ => s1

/-- Work wakes a domain: one that is idle begins its exit, and one whose exit has ended is awake (R567). -/
def State.wake (s : State) (d : IdleDomain) : State :=
  match s.idleOf d with
  | none => s
  | some x => match x.ready with
    | some t => if t ≤ s.tick then s.dropIdle d else s
    | none => if x.st = 0 then s.dropIdle d else s.beginExit x

/-- The package and some domains woken. -/
def State.wakeAll (s : State) (ds : List IdleDomain) : State := (IdleDomain.package :: ds).foldl State.wake s

/-- The package and some domains are awake. -/
def State.allAwake (s : State) (ds : List IdleDomain) : Bool := (IdleDomain.package :: ds).all s.awake

/-- Work for a Canvas die: the state with the die woken, and whether it may go on. -/
def State.cnvWork (s : State) (d : Nat) : State × Bool :=
  let t := s.wakeAll [.canvas d]
  (t, t.allAwake [.canvas d])

/-- The domain of a unit; the banks of a plan are those of its partition's holder. -/
def unitDomain (u : UnitId) : Option IdleDomain :=
  if u.type = 1 then some (.yard u.index) else if u.type = 2 then some (.luff u.index)
  else if u.type = 3 then some (.clew u.index) else if u.type = 6 then some (.boom u.index) else none

/-- The domains that a walk's macros need: its Boom, the units of its plan and its holder's banks on the Spar. -/
def State.planDomains (s : State) (b : BoundPlan) : List IdleDomain :=
  .boom b.spar :: .banks b.spar (if s.isSealed b.part then some b.part else none)
    :: (b.yards.map IdleDomain.yard ++ b.luffs.map IdleDomain.luff ++ b.clews.map IdleDomain.clew)

/-! ### Events and idle domains (R565, R567) -/

/-- The dies whose events a domain may wait for. -/
def domainDies : IdleDomain → List Nat
  | .yard i => [i / 8]
  | .luff i => [i / 2]
  | .clew i => [i / 4]
  | .boom k => [k]
  | .banks k _ => [k]
  | .canvas d => [4 + d]
  | .package => List.range 12

/-- The sealed partition that wholly holds a domain. -/
def State.domainHolder (s : State) (d : IdleDomain) : Option Nat :=
  match d with
  | .yard i => s.holder ⟨utYard, i, 0⟩
  | .luff i => s.holder ⟨utLuff, i, 0⟩
  | .clew i => s.holder ⟨utClew, i, 0⟩
  | .banks _ h => h
  | .canvas c =>
    match (((List.range 64).filterMap fun i => s.holder ⟨utGroup, 64 * c + i, 0⟩).eraseDups) with
    | [p] => if s.isSealed p then some p else none
    | _ => none
  | _ => none

/-- An event counts for a domain: it wakes its die, and for a domain that a sealed partition holds it is of that
partition or device upkeep of the domain (R565). -/
def State.counts (s : State) (d : IdleDomain) (e : TtlEvent) : Bool :=
  e.dies.any (fun x => decide (x ∈ domainDies d)) &&
    match s.domainHolder d with
    | none => true
    | some p => match e.client, d with
      | .ring k, _ => decide (s.ringPart k = p)
      | .reref _, .canvas _ => true
      | .sweep _, .canvas _ => true
      | .test i, _ => decide (s.holder ⟨utClew, i, 0⟩ = some p)
      | _, _ => false

/-- An event registered, as an idle domain meets it: one whose exit start is later than the target exits at once, and
PWR_WAKE_LATE_CNT counts; one without an event plans its exit (R567). -/
def State.meetEvent (e : TtlEvent) (s : State) (x : IdleSt) : State :=
  if x.ready ≠ none ∨ s.counts x.dom e = false then s
  else match x.start with
    | some t => if e.target < t then (s.beginExit x).inc Key.pwrWakeLateCnt else s
    | none =>
      if x.st = 0 then s.dropIdle x.dom
      else if e.target ≤ s.time.count.toNat + exitGuard x.st then s.beginExit x
      else s.setIdle { x with start := some (e.target - exitGuard x.st) }

/-- An event registered (20 R497), and what it does to idle domains. -/
def State.scheduleEvent (s : State) (target : Nat) (client : TtlClient) (dies : List Nat) : State :=
  let s1 := s.ttlRegister target client dies
  s1.power.idle.foldl (State.meetEvent ⟨target, client, dies, s.tick⟩) s1

/-! ### The tests of dedicated Clews (24 R587) -/

/-- The next time at which the test of a Clew that a sealed partition holds is due: its phase of 40 ms is fixed at COMMIT, and free. -/
def State.testDue (s : State) (i : Nat) : Nat :=
  let now := s.time.count.toNat
  now + 1 + (Config.testPhase i + 4000000 - (now + 1) % 4000000) % 4000000

/-- The test of a Clew that a sealed partition holds registered as an event of the partition. -/
def State.planTest (s : State) (i : Nat) : State := s.scheduleEvent (s.testDue i) (.test i) [i / 4]

/-- The events of a Clew's tests removed. -/
def State.dropTest (s : State) (i : Nat) : State :=
  { s with ttl := { s.ttl with table := s.ttl.table.filter fun e => decide (e.2.client ≠ .test i) } }

/-- A Clew's test has its time: a pooled Clew's at any, a dedicated one's once its event has fired. -/
def State.testTime (s : State) (u : UnitId) : Bool :=
  !(decide (u.type = 3) && s.ttl.table.any fun e => decide (e.2.client = .test u.index))

end Sys2Proof.Machine
end

