-- ==== Sys2Proof/Machine/Bus.lean ====
section
/-! DEFINITION. The bus front end: masters and what they may reach, partial accesses, dies in reset,
the lock, and the arbitration of contradicting writes field by field (03 R34 to R50, R668). -/

namespace Sys2Proof.Machine

/-- The master ID codes of 03 Table 3.3; their numerical order is the order of R41. -/
def masterId : Master → Nat
  | .masthead _ => 0x01
  | .bmc => 0x02
  | .hostPf => 0x03
  | .fabric => 0x04
  | .vf n => 0x80 + n.toNat

/-- An access of a management core. -/
def isMasthead : Master → Bool
  | .masthead _ => true
  | _ => false

/-- The number of an agent: the cores, then the Booms. -/
def agentKey : Agent → Nat
  | .core i => i.toNat
  | .boom k => 2 + k.toNat

/-- The die that serves a page, by the die codes of RST_CMD (21 R667). -/
def pageDie (p : Nat) : Nat :=
  match blockOf p with
  | some (.spr, k) => k
  | some (.bom, k) => k
  | some (.yrd, i) => i / 8
  | some (.luf, i) => i / 2
  | some (.clw, i) => i / 4
  | some (.nrm, i) => i / 2
  | some (.cnv, d) => 4 + d
  | some (.cpg, k) => 4 + k / 16
  | some (.lnk, b) => 8 + b / 6
  | some (.pci, _) => 10
  | some (.pmg, _) => 10
  | some (.far, _) => 10
  | some (.prt, _) => 10
  | some (.dbl, _) => 10
  | _ => 11

/-- The page's die is held in reset (03 R50). -/
def State.pageDead (s : State) (p : Nat) : Bool := decide (pageDie p ∈ s.boot.inReset)

/-- A page that FABRIC reaches (03 Table 3.3). -/
def fabricPage (p : Nat) : Bool := decide (p = pgTtl) || (decide (0x1D0 ≤ p) && decide (p ≤ 0x1DF))

/-- The master with an ID may read a page (03 Table 3.3). -/
def idMayRead (id p : Nat) : Bool :=
  if id = 0x01 ∨ id = 0x03 then true
  else if id = 0x02 then !(decide (0x10 ≤ p) && decide (p ≤ 0x10F))
  else if id = 0x04 then fabricPage p
  else if 0x80 ≤ id ∧ id ≤ 0xFF then decide (p = pgPrt (id - 0x80)) || decide (p = pgDbl (id - 0x80))
  else false

/-- A master may read a page. -/
def mayRead (m : Master) (p : Nat) : Bool := idMayRead (masterId m) p

/-- A master may write a register of a page (03 Table 3.3 and the rules that R668 lists). OWNER is
judged apart (R38). -/
def mayWrite (m : Master) (p off : Nat) (v : Word) : Bool :=
  let table := match m with
    | .masthead _ => true
    | .bmc => decide (p ∈ [pgRst, pgPwr, pgThm, pgSbd, pgTop, pgJry]) || (decide (p = pgTtl) && decide (off = 0x114))
    | .hostPf => !decide (p ∈ [pgMst, pgSbd, pgSec])
    | .fabric => fabricPage p
    | .vf n => decide (p = pgPrt n.toNat) || decide (p = pgDbl n.toNat)
  let two := isMasthead m || decide (m = .hostPf)
  let three := two || decide (m = .bmc)
  let rule :=
    match blockOf p with
    | some (.prt, _) => if 0x100 ≤ off ∧ off < 0x200 then two else true
    | some (.lnk, b) => if off = 0x180 ∧ b = 0 then two else true
    | some (.top, _) =>
      if off = 0x100 then isMasthead m || decide (m = .bmc)
      else if off = 0x104 ∨ (0x140 ≤ off ∧ off < 0x170) then three else true
    | some (.jry, _) => if off = 0x104 then three else true
    | some (.ttl, _) => if off = 0x114 then three else true
    | some (.rst, _) => if off = 0x104 ∧ getBits v 7 0 = 2 then isMasthead m else true
    | some (.flt, _) => if off = 0x120 ∧ getBits v 7 0 = 9 then isMasthead m else true
    | some (.pmg, _) => two
    | some (.rfe, _) => if 0x100 ≤ off then two else true
    | some (.bom, _) => if 0x100 ≤ off then two else true
    | some (.cpg, _) => if 0x100 ≤ off then two else true
    | _ => true
  table && rule

/-- MST_DENY_CNT counts a refused or partial write (03 R35, R36, R50, R668). -/
def State.deny (s : State) : State := s.inc Key.mstDenyCnt

/-- What OWNER of a page names (03 R37). -/
def State.owner (s : State) (p : Nat) : Nat := s.fld (Key.owner p) 7 0

/-- A write gate: `some t` when the access ends here with state `t`, `none` when the write goes on.
Partial byte enables, an excluded master and a die in reset are ignored and counted (R35, R36, R50,
R668); OWNER takes writes from MASTHEAD and the current fault owner (R38). -/
def State.writeGate (s : State) (m : Master) (p off : Nat) (be : BitVec 4) (v : Word) : Option State :=
  if be ≠ 0xF ∨ off % 4 ≠ 0 then some s.deny
  else if off = 0x28 ∧ (blockOf p).isSome = true then
    if (isMasthead m = true ∨ masterId m = s.owner p) ∧ mayRead m p = true ∧ s.pageDead p = false then none
    else some s.deny
  else if mayWrite m p off v && !s.pageDead p then none
  else some s.deny

/-- The page's lock as it stood at the start of this cycle: a lock takes effect at the end of the
cycle in which it is written (03 R40). -/
def State.locked (s : State) (p : Nat) : Bool :=
  match s.oldReg (Key.blkCtrl p) with
  | some w => decide (getBits w 2 2 = 1)
  | none => s.bit (Key.blkCtrl p) 2

/-! ### Arbitration (03 R41 to R48) -/

/-- `a` is less conservative than `b` in a direction (R42). -/
def lessConservative (d : Dir) (a b : Nat) : Bool :=
  match d with
  | .none => false
  | .lower => decide (b < a)
  | .higher => decide (a < b)

/-- The most conservative of some entries. -/
def mostConservative (d : Dir) : List ArbEntry → Option ArbEntry
  | [] => none
  | e :: rest =>
    match mostConservative d rest with
    | none => some e
    | some b => if lessConservative d e.value b.value then some b else some e

/-- The judgement of one write of one field. -/
structure Verdict where
  /-- The value is applied. -/
  apply : Bool
  /-- The value that it was judged against, when they contradict. -/
  against : Option ArbEntry
  deriving DecidableEq, Repr

/-- The judgement of a write of value `v` by master `m` to the field at `(key, lo)`, against what
other masters wrote in the same window. For a safety-class field a value less conservative than one
another master wrote is discarded (R45); for any other field the master latest in the order of R41
stands (R46). A resolution is judged against the value that stands (R47). -/
def judge (log : List ArbEntry) (key lo m v : Nat) (d : Dir) : Verdict :=
  let es := log.filter fun e => decide (e.key = key) && decide (e.lo = lo)
  let stand := es.find? fun e => e.stands
  let others := es.filter fun e => decide (e.master ≠ m)
  let free : Verdict := match stand with
    | none => ⟨true, none⟩
    | some t => if t.master = m ∨ t.value = v then ⟨true, none⟩ else ⟨true, some t⟩
  if d = .none then
    match free.against with
    | none => free
    | some t => ⟨decide (t.master < m), some t⟩
  else
    match mostConservative d others with
    | none => free
    | some b => if lessConservative d v b.value then ⟨false, some b⟩ else free

/-- The log after a write of a field: what was written, and whether it stands. Of equal values the later
master's stands. Of a safety-class field every value of the window counts (R45), of another each master's
latest. -/
def logWrite (log : List ArbEntry) (key lo m v cycle : Nat) (apply all : Bool) : List ArbEntry :=
  let mine := fun (e : ArbEntry) => decide (e.key = key) && decide (e.lo = lo)
  let later := log.any fun e => mine e && e.stands && decide (m < e.master) && decide (e.value = v)
  let takes := apply && !later
  let kept := log.filter fun e => all || !(mine e && decide (e.master = m))
  let kept2 := if takes then kept.map fun e => if mine e then { e with stands := false } else e else kept
  kept2 ++ [⟨key, lo, m, v, cycle, takes⟩]

/-- What the fields of one 32-bit write came to. -/
structure Merge where
  word : Word
  log : List ArbEntry
  /-- The first contradiction: the entry, and whether the new value stands. -/
  first : Option (ArbEntry × Bool) := none
  safety : Bool := false
  mask : Nat := 0
  deriving DecidableEq, Repr

/-- One field of a write, in a register with key `k` (R48). -/
def mergeField (k id cycle : Nat) (locked : Bool) (v : Word) (a : Merge) (f : Field) : Merge :=
  let x := getBits v f.hi f.lo
  match f.acc with
  | .w1c => { a with word := a.word &&& ~~~v }
  | .rw | .rwl =>
    if f.acc = .rwl ∧ locked = true then a
    else
      let j := judge a.log k f.lo id x f.dir
      let word := if j.apply then putBits a.word f.hi f.lo x else a.word
      let log := logWrite a.log k f.lo id x cycle j.apply (decide (f.dir ≠ .none))
      match j.against with
      | none => { a with word := word, log := log }
      | some e => { word := word, log := log
                    first := if a.first = none then some (e, j.apply) else a.first
                    safety := a.safety || decide (f.dir ≠ .none)
                    mask := a.mask ||| ((x ^^^ e.value) <<< f.lo) }
  | _ => a

/-- A resolution latches CONFLICT of page `p` and updates the log of the MST page (R47). -/
def State.resolution (s : State) (p off id : Nat) (e : ArbEntry) (safety : Bool) (mask : Nat) : State :=
  let a := min id e.master
  let b := max id e.master
  let old := s.reg (Key.conflict p)
  let window := decide (e.cycle ≠ s.arb.num)
  let word := 2 ^ 31 + (if safety then 2 ^ 29 else 0) + (if window then 2 ^ 28 else 0) + a * 2 ^ 20 + b * 2 ^ 12
    + off / 4 % 1024 * 4
  let s1 := s.noteOld (Key.conflict p)
  let s2 := s1.setReg (Key.conflict p)
    (if old.toNat.testBit 31 then old ||| 0x40000000 else BitVec.ofNat 32 word)
  let s3 := ((s2.setReg Key.mstCflPage (BitVec.ofNat 32 p)).setReg Key.mstCflMask (BitVec.ofNat 32 mask)).inc
    Key.mstCflCnt
  s3.irq p 1

/-- A 32-bit write that passed its gate stored field by field into the register at offset `off` of
page `p`. `only` restricts it to some fields; `coff` is the offset that CONFLICT records. -/
def State.storeOn (s : State) (m : Master) (k : Nat) (fs : List Field) (p coff : Nat) (v : Word) : State :=
  let id := masterId m
  let s1 := s.noteOld k
  let a := fs.foldl (mergeField k id s.arb.num (s.locked p) v) { word := s1.reg k, log := s1.arb.log }
  let s2 := { s1 with arb := { s1.arb with log := a.log } }.setReg k a.word
  match a.first with
  | none => s2
  | some (e, _) => s2.resolution p coff id e a.safety a.mask

/-- A write stored into a register of a page. -/
def State.store (s : State) (m : Master) (p off : Nat) (v : Word) : State :=
  s.storeOn m (regKey p off) (fieldsOf (regKey p off)) p off v

/-- A write stored into the fields of a register that satisfy a test. -/
def State.storeFields (s : State) (m : Master) (p off : Nat) (v : Word) (f : Field → Bool) : State :=
  s.storeOn m (regKey p off) ((fieldsOf (regKey p off)).filter f) p off v

/-- The value of the field at bit `b` that a write would leave, judged but not stored. -/
def State.wouldBe (s : State) (m : Master) (p off b : Nat) (v : Word) : Bool :=
  ((s.store m p off v).bit (regKey p off) b)

/-- A die whose management link is DOWN: its register accesses fail after retry (R51). -/
def State.pageCut (s : State) (p : Nat) : Bool :=
  decide (pageDie p ∈ s.clk.cut) && decide (s.fld (Key.clkRlStat (27 + pageDie p)) 31 29 = 0)

/-- The next arbitration cycle begins. -/
def State.nextCycle (s : State) : State :=
  { s with arb := { s.arb with old := [], latched := [], order := [], num := s.arb.num + 1 }, fab := { s.fab with freed := [] } }

/-- A write of page `p` by master `m` takes its place in the order of R41: one that comes after a write of the page by a
later master belongs to the next arbitration cycle. -/
def State.inTurn (s : State) (m : Master) (p : Nat) : State :=
  let t := if (s.arb.order.any fun e => decide (e.1 = p) && decide (masterId m < e.2)) then s.nextCycle else s
  { t with arb := { t.arb with order := t.arb.order ++ [(p, masterId m)] } }

/-- What registers held before the writes of this cycle is noted for every register that changed from `s` to `t` (R41). -/
def State.noteSince (t s : State) : State :=
  let changed := (((t.regs ++ s.regs).map fun e => e.1).eraseDups).filter fun k =>
    decide (t.reg k ≠ s.reg k) && (t.oldReg k).isNone
  { t with arb := { t.arb with old := t.arb.old ++ changed.map fun k => (k, s.reg k) } }

/-- What an agent has begun (05 R88). -/
def State.agent (s : State) (a : Agent) : AgentSt := SMap.get (fun _ => {}) s.agents (agentKey a)
def State.setAgent (s : State) (a : Agent) (x : AgentSt) : State :=
  { s with agents := SMap.set (fun _ => {}) s.agents (agentKey a) x }

/-- A SYNC of the core that a register access comes from has not completed: the access does not start (05 R93, R95). -/
def State.coreWaits (s : State) (m : Master) : Bool :=
  match m with
  | .masthead c => (s.agent (.core c)).sync
  | _ => false

/-- An access that follows a SYNC of its core waits behind it. -/
def State.waitBehind (s : State) (m : Master) (x : AgentItem) : State :=
  match m with
  | .masthead c => s.setAgent (.core c) { s.agent (.core c) with behind := (s.agent (.core c)).behind ++ [x] }
  | _ => s

/-- A FABRIC access is accepted only from a peer whose identity the rig check has accepted (18 R444). The rows name no bundle: one
counts as such while some bundle is admitted. Nothing that arrives in the cycle of a package op of RST_CMD after it is performed (22
R555). -/
def State.heard (s : State) (m : Master) : Bool := !s.boot.opDone && (!decide (m = .fabric) || !s.top.admitted.isEmpty)

/-- A gated write: `f` runs when the gate lets the write pass; one to a die whose management link is DOWN is lost (R51).
A write that follows a SYNC of its core is held whole until that completes (05 R93). -/
def State.gated (s : State) (m : Master) (p off : Nat) (be : BitVec 4) (v : Word) (f : State → State) : State :=
  if s.heard m = false then s
  else if s.coreWaits m then s.waitBehind m (.write (.page (BitVec.ofNat 14 p) (BitVec.ofNat 12 off)) be v)
  else match s.writeGate m p off be v with
  | some t => t
  | none => if s.pageCut p then s.latch pgFlt 0 (27 + pageDie p) else (f (s.inTurn m p)).noteSince (s.inTurn m p)

end Sys2Proof.Machine
end

