-- ==== Sys2Proof/Machine/Operands.lean ====
section
/-! DEFINITION. Operand forms: the fields of descriptors (04 Tables 4.5, 4.6; 08 Table 8.3; 09 Table
9.4), and the checks of their reserved fields and ranges (04 R65). Bit 0 is the least significant bit
of byte 0 (00 R3). -/

namespace Sys2Proof.Machine

/-- `n` bits from bit `b` of byte `off` of a descriptor. -/
def dfield {w : Nat} (d : BitVec w) (off b n : Nat) : Nat := bitsOf d.toNat (8 * off + b + n - 1) (8 * off + b)

/-- The type byte of a host descriptor, and its tag. -/
def descType (d : BitVec 1024) : Nat := dfield d 0 0 8
def descTag (d : BitVec 1024) : BitVec 64 := BitVec.ofNat 64 (dfield d 8 0 64)

/-- The bits that a descriptor of a type uses, as (byte, bit, number) (04 Tables 4.5 and 4.6). -/
def usedBits (type : Nat) : List (Nat × Nat × Nat) :=
  if type = 0x01 then
    [(0x00, 0, 8), (0x01, 0, 2), (0x02, 0, 1), (0x03, 0, 2), (0x04, 0, 16), (0x06, 0, 16), (0x08, 0, 64),
     (0x10, 0, 64), (0x18, 0, 32), (0x1C, 0, 32), (0x20, 0, 64), (0x28, 0, 16), (0x2C, 0, 5), (0x30, 0, 64),
     (0x38, 0, 32), (0x3C, 0, 32), (0x40, 0, 18), (0x48, 0, 256)]
  else if type = 0x02 then [(0x00, 0, 8), (0x08, 0, 64), (0x10, 0, 64)]
  else if type = 0x03 then [(0x00, 0, 8), (0x08, 0, 64)]
  else if type = 0x04 then [(0x00, 0, 8), (0x08, 0, 64), (0x10, 0, 64), (0x18, 0, 64)]
  else [(0x00, 0, 8), (0x04, 0, 16), (0x08, 0, 64)]

/-- The mask of used bits. -/
def usedMask (type : Nat) : Nat :=
  ((usedBits type).map fun x => (2 ^ x.2.2 - 1) * 2 ^ (8 * x.1 + x.2.1)).sum

/-- A reserved bit of a descriptor is set (00 R4, 04 R65 check 2). -/
def reservedSet (type : Nat) (d : BitVec 1024) : Bool :=
  decide (d.toNat &&& (2 ^ 1024 - 1 - usedMask type) ≠ 0)

/-- The fields of a REQUEST descriptor (04 Table 4.5). -/
def reqDesc (d : BitVec 1024) : ReqDesc where
  prio := dfield d 0x01 0 2
  allowDrop := decide (dfield d 0x02 0 1 = 1)
  orderFree := decide (dfield d 0x03 1 1 = 1)
  shroud := decide (dfield d 0x03 0 1 = 1)
  model := dfield d 0x04 0 16
  domain := dfield d 0x06 0 16
  count := dfield d 0x18 0 32
  maxNew := dfield d 0x1C 0 32
  outAddr := BitVec.ofNat 64 (dfield d 0x20 0 64)
  outLog2 := dfield d 0x2C 0 5
  ring := dfield d 0x28 0 16
  seed := BitVec.ofNat 64 (dfield d 0x30 0 64)
  temperature := BitVec.ofNat 32 (dfield d 0x38 0 32)
  topP := BitVec.ofNat 32 (dfield d 0x3C 0 32)
  topK := dfield d 0x40 0 18
  stops := (List.range 8).map fun i => BitVec.ofNat 32 (dfield d (0x48 + 4 * i) 0 32)

/-- Check 3 of R65 on a descriptor that is no REQUEST: a zero handle, or a misaligned image. -/
def otherFieldBad (type : Nat) (d : BitVec 1024) : Bool :=
  if type = 0x04 then decide (dfield d 0x10 0 12 ≠ 0)
  else if type = 0x05 then decide (dfield d 0x04 0 16 = 0)
  else false

end Sys2Proof.Machine
end

