-- ==== Sys2Proof/Machine/Queues.lean ====
section
/-! DEFINITION. Submission and event queues, doorbells, descriptor fetch and its checks, the CANCEL,
NOP and UNLOAD_MODEL descriptors, output rings and moderation (04 R59 to R87). -/

namespace Sys2Proof.Machine

open Host

/-! ### Doorbells (R60) -/

/-- Depth of submission queue `q` of partition `p`. -/
def State.sqDepth (s : State) (p q : Nat) : Nat := 2 ^ s.fld (Key.prtSqCfg p q) 15 12

/-- Descriptors of an SQ that are not fetched yet (R59). -/
def State.unfetched (s : State) (p q : Nat) : Nat :=
  let d := s.sqDepth p q
  (s.fld (Key.dblSq p q) 11 0 + d - s.fld (Key.prtSqHead p q) 11 0) % d

/-- Another master wrote another value to a doorbell in this window, and it stands (R79). -/
def State.rival (s : State) (m : Master) (k x : Nat) : Bool :=
  s.arb.log.any fun e => decide (e.key = k) && e.stands && decide (e.master ≠ masterId m) && decide (e.value ≠ x)

/-- What a doorbell is judged against: its current value, or, when the views contradict in one window, what it held
before the window's first write (R79). -/
def State.bellBase (s : State) (m : Master) (k x now : Nat) : Nat :=
  if s.rival m k x then ((s.arb.bells.find? fun e => decide (e.1 = k)).map fun e => e.2).getD now else now

/-- What a doorbell held noted before the window's first write of it. -/
def State.noteBell (s : State) (k now : Nat) : State :=
  if s.arb.bells.any fun e => decide (e.1 = k) then s
  else { s with arb := { s.arb with bells := s.arb.bells ++ [(k, now)] } }

/-- A doorbell write of value `v` to SQ `q` (R60): ignored with DB_DISABLED, DB_RANGE or DB_OVERRUN in that order; a value
equal to the tail is a no-op; else the tail advances, as the arbitration of contradicting views allows (R79), and an idle
package wakes (23 R567). -/
def State.writeDblSq (s : State) (m : Master) (p q : Nat) (v : Word) : State :=
  let x := getBits v 11 0
  let d := s.sqDepth p q
  let k := Key.dblSq p q
  let tail := s.fld k 11 0
  let head := s.fld (Key.prtSqHead p q) 11 0
  let old := s.bellBase m k x tail
  let base := if (head + d - old) % d ≤ (tail + d - old) % d then head else old
  let ahead := if old = tail then (tail + d - head) % d else (base + d - head) % d
  let adv := if old = tail then (x + d - tail) % d else (x + d - base) % d
  if s.bit (Key.prtSqCfg p q) 31 = false then s.latch (pgDbl p) 2 q
  else if d ≤ x then s.latch (pgDbl p) 0 q
  else if d - 1 < ahead + adv then s.latch (pgDbl p) 1 q
  else ((s.noteBell k tail).store m (pgDbl p) (0x100 + 4 * q) v).wakeAll []

/-- A doorbell write of an EQ head (R60): the advance releases slots, and records that waited are
written (R74). The queue number in FLT_INFO counts EQs after the eight SQs. -/
def State.writeDblEq (s : State) (m : Master) (p e : Nat) (v : Word) : State :=
  let x := getBits v 15 0
  let d := s.eqDepth (4 * p + e)
  let k := Key.dblEq p e
  let head := s.fld k 15 0
  let old := s.bellBase m k x head
  let st := s.eq (4 * p + e)
  let used := st.used + (head + d - old) % d
  if s.bit (Key.prtEqCfg p e) 31 = false then s.latch (pgDbl p) 2 (8 + e)
  else if d ≤ x then s.latch (pgDbl p) 0 (8 + e)
  else if used < (x + d - old) % d then s.latch (pgDbl p) 1 (8 + e)
  else
    let s1 := (s.noteBell k head).store m (pgDbl p) (0x120 + 4 * e) v
    let adv := (s1.fld k 15 0 + d - old) % d
    (s1.setEq (4 * p + e) { st with used := used - adv }).flush p e

/-- SQ_DOORBELL. -/
def execSqDoorbell (m : Master) (p : BitVec 7) (q : BitVec 3) (be : BitVec 4) (v : Word) (s : State) :
    Outcome State Fault Refusal :=
  .next (s.gated m (pgDbl p.toNat) (0x100 + 4 * q.toNat) be v fun t => t.writeDblSq m p.toNat q.toNat v)

/-- EQ_DOORBELL. -/
def execEqDoorbell (m : Master) (p : BitVec 7) (e : BitVec 2) (be : BitVec 4) (v : Word) (s : State) :
    Outcome State Fault Refusal :=
  .next (s.gated m (pgDbl p.toNat) (0x120 + 4 * e.toNat) be v fun t => t.writeDblEq m p.toNat e.toNat v)

/-! ### Enabling and disabling queues (R80, R87) -/

/-- Fields of a queue's configuration that a write may change: enable always, the others only while
the queue is disabled (R80). -/
def cfgField (enabled : Bool) (f : Field) : Bool := decide (f.lo = 31) || !enabled

/-- A write of SQ_CFG (R80, R87, 06 R110). A write that sets enable is ignored in a FREE or RELEASING
partition; one whose size is out of range leaves the queue disabled and latches DB_CFG; else head and
tail become 0 and err clears. Clearing enable discards the slots not fetched. -/
def State.writeSqCfg (s : State) (m : Master) (p q : Nat) (v : Word) : State :=
  let k := Key.prtSqCfg p q
  let was := s.bit k 31
  let st := s.pstate p
  if v.toNat.testBit 31 ∧ was = false ∧ (st = psFree ∨ st = psReleasing) then s
  else
    let s1 := s.storeFields m (pgPrt p) (0x208 + 0x10 * q) v (cfgField was)
    let now := s1.bit k 31
    if was = false ∧ now = true then
      let size := s1.fld k 15 12
      if size < 4 ∨ 12 < size then (s1.setBit k 31 false).latch (pgDbl p) 4 q
      else ((s1.setBit k 30 false).setFld (Key.prtSqHead p q) 11 0 0).setFld (Key.dblSq p q) 11 0 0
    else s1

/-- A write of EQ_CFG (R80, R87): enabling sets tail and head to 0 and begins the first pass (R71);
records that waited are written. -/
def State.writeEqCfg (s : State) (m : Master) (p e : Nat) (v : Word) : State :=
  let k := Key.prtEqCfg p e
  let was := s.bit k 31
  let st := s.pstate p
  if v.toNat.testBit 31 ∧ was = false ∧ (st = psFree ∨ st = psReleasing) then s
  else
    let s1 := s.storeFields m (pgPrt p) (0x288 + 0x10 * e) v (cfgField was)
    let now := s1.bit k 31
    if was = false ∧ now = true then
      if s1.fld k 15 12 < 5 then (s1.setBit k 31 false).latch (pgDbl p) 4 (8 + e)
      else
        let x := s1.eq (4 * p + e)
        let s2 := (s1.setFld (Key.prtEqTail p e) 15 0 0).setFld (Key.dblEq p e) 15 0 0
        (s2.setEq (4 * p + e) { wait := x.wait }).flush p e
    else s1

/-- SQ_ENABLE: a write of SQ_CFG whose enable bit is set. -/
def execSqEnable (m : Master) (p : BitVec 7) (q : BitVec 3) (be : BitVec 4) (v : Word) (s : State) :
    Outcome State Fault Refusal :=
  let w := v ||| 0x80000000
  .next (s.gated m (pgPrt p.toNat) (0x208 + 0x10 * q.toNat) be w fun t => t.writeSqCfg m p.toNat q.toNat w)

/-- SQ_DISABLE: a write of SQ_CFG whose enable bit is clear. -/
def execSqDisable (m : Master) (p : BitVec 7) (q : BitVec 3) (be : BitVec 4) (v : Word) (s : State) :
    Outcome State Fault Refusal :=
  let w := v &&& 0x7FFFFFFF
  .next (s.gated m (pgPrt p.toNat) (0x208 + 0x10 * q.toNat) be w fun t => t.writeSqCfg m p.toNat q.toNat w)

/-- EQ_ENABLE: a write of EQ_CFG whose enable bit is set. -/
def execEqEnable (m : Master) (p : BitVec 7) (e : BitVec 2) (be : BitVec 4) (v : Word) (s : State) :
    Outcome State Fault Refusal :=
  let w := v ||| 0x80000000
  .next (s.gated m (pgPrt p.toNat) (0x288 + 0x10 * e.toNat) be w fun t => t.writeEqCfg m p.toNat e.toNat w)

/-- EQ_DISABLE: a write of EQ_CFG whose enable bit is clear. -/
def execEqDisable (m : Master) (p : BitVec 7) (e : BitVec 2) (be : BitVec 4) (v : Word) (s : State) :
    Outcome State Fault Refusal :=
  let w := v &&& 0x7FFFFFFF
  .next (s.gated m (pgPrt p.toNat) (0x288 + 0x10 * e.toNat) be w fun t => t.writeEqCfg m p.toNat e.toNat w)

/-! ### Fetching (R59, R61, R82) -/

/-- An SQ has a descriptor that can be fetched. -/
def State.sqReady (s : State) (p q : Nat) : Bool :=
  s.bit (Key.prtSqCfg p q) 31 && !s.bit (Key.prtSqCfg p q) 30 && decide (s.unfetched p q ≠ 0)
    && !s.pageDead (pgPrt p)

/-- The first of `n` indices from `start` on, cyclically, that satisfies a test. -/
def firstFrom (n start : Nat) (f : Nat → Bool) : Option Nat :=
  ((List.range n).map fun i => (start + i) % n).find? f

/-- A partition with a descriptor that can be fetched. -/
def State.partReady (s : State) (p : Nat) : Bool := (List.range 8).any fun q => s.sqReady p q

/-- It is the turn of SQ `q` of partition `p`: partitions are served round-robin, and a partition's
SQs round-robin, one descriptor at a time (R61). -/
def State.fetchTurn (s : State) (p q : Nat) : Bool :=
  s.sqReady p q && decide (firstFrom 128 s.rr.part s.partReady = some p)
    && decide (firstFrom 8 (SMap.get (fun _ => 0) s.rr.sq p) (s.sqReady p) = some q)

/-- The slot at the head of SQ `q` read from host memory. -/
def State.readSlot (s : State) (p q : Nat) : State :=
  s.emit (.hostRead (p + 1) (s.slotAddr (regKey (pgPrt p) (0x200 + 0x10 * q)) (regKey (pgPrt p) (0x204 + 0x10 * q)) 128
    (s.fld (Key.prtSqHead p q) 11 0)) 128)

/-- A descriptor leaves its slot: SQ_HEAD advances, and the turn passes on (R59, R61). -/
def State.fetched (s : State) (p q : Nat) : State :=
  let d := s.sqDepth p q
  let h := (s.fld (Key.prtSqHead p q) 11 0 + 1) % d
  let rr := s.rr
  let t := s.readSlot p q
  { t.setFld (Key.prtSqHead p q) 11 0 h with
    rr := { rr with part := (p + 1) % 128, sq := SMap.set (fun _ => 0) rr.sq p ((q + 1) % 8) } }

/-- FETCH_ERROR (R82): the SQ stops with err set, SQ_FETCH latches, and the SQ's vector is signalled. -/
def execFetchError (p : BitVec 7) (q : BitVec 3) (s : State) : Outcome State Fault Refusal :=
  let p := p.toNat
  let q := q.toNat
  .next (if s.fetchTurn p q then
    (((s.readSlot p q).setBit (Key.prtSqCfg p q) 30 true).latch (pgDbl p) 3 q).signal (12 * p + q) else s)

/-! ### Descriptor checks (R64, R65) -/

/-- The tag is live in the partition (R64). -/
def State.tagLive (s : State) (p : Nat) (tag : BitVec 64) : Bool :=
  s.descs.any fun d => decide (d.part = p) && decide (d.tag = tag)

/-- The first failing of checks 1 to 4 of R65, as a detail of REFUSED_FRAME: type, reserved fields,
field values (`bad`), tag uniqueness. The tag is judged against the descriptors live before this one. -/
def State.descCheck (s : State) (p : Nat) (d : BitVec 1024) (bad : Bool) : Option Nat :=
  let ty := descType d
  if ty = 0 ∨ 5 < ty then some 0x03
  else if reservedSet ty d then some 0x04
  else if bad then some 0x05
  else if s.tagLive p (descTag d) then some 0x06
  else none

/-- What a fetched descriptor of no live request does: before start-up has completed it is refused (R86); then the checks, then
`f` with the descriptor live. -/
def State.serve (s : State) (p q : Nat) (d : BitVec 1024) (k : DescKind) (f : State → Nat → State) : State :=
  let s1 := s.fetched p q
  if s1.ready = false then (s1.fetch p q (descTag d) k).refuse p q (descTag d) stRefusedStopped 0x01
  else match s1.descCheck p d (otherFieldBad (descType d) d) with
  | some dt => (s1.fetch p q (descTag d) k).refuse p q (descTag d) stRefusedFrame dt
  | none => f (s1.fetch p q (descTag d) k) s1.nextFetch

/-- A command for a descriptor of one type holds when it is the queue's turn and the descriptor's type
byte is that type or no type at all. -/
def State.servable (s : State) (p q type : Nat) (d : BitVec 1024) : Bool :=
  s.fetchTurn p q && (decide (descType d = type) || decide (descType d = 0) || decide (5 < descType d))

/-- NOP (R63): completes OK. -/
def execNop (p : BitVec 7) (q : BitVec 3) (d : BitVec 1024) (s : State) : Outcome State Fault Refusal :=
  let p := p.toNat
  let q := q.toNat
  .next (if s.servable p q 0x03 d then
    s.serve p q d .nop fun t n => t.complete p n (completion (descTag d) q stOk 0 0 0 0)
  else s)

/-- A CANCEL reaches its target (R73, R77, 07 R149, 17 R421): a deferred or preempted request, one that a full output ring
holds, or one whose ring recovers, completes at once; a running one completes at its next page or decode step. -/
def State.cancelTarget (s : State) (r : Req) : State :=
  let recovering := match s.reqRing r with
    | some k => decide (s.ringState k = 3)
    | none => false
  if r.phase = .deferred ∨ r.preempted = true ∨ r.lane = false ∨ r.owed ≠ [] ∨ recovering = true then
    s.finish r stCancelledHost 0 (some .cancel)
  else s.setReq { r with stop := some (stCancelledHost, 0), stopCause := some .cancel }

/-- CANCEL (R63, R77): the live target stops and completes before the CANCEL does; with no live target
the CANCEL completes with a = 0. A target that ends already is live until its record is written, and the CANCEL
completes after that with a = 1 (R77, R78). -/
def execCancel (p : BitVec 7) (q : BitVec 3) (d : BitVec 1024) (s : State) : Outcome State Fault Refusal :=
  let p := p.toNat
  let q := q.toNat
  let target := BitVec.ofNat 64 (dfield d 0x10 0 64)
  .next (if s.servable p q 0x02 d then
    s.serve p q d (.cancel target) fun t n =>
      match t.req p target with
      | none => t.complete p n (completion (descTag d) q stOk 0 0 0 0)
      | some r =>
        if r.active then
          -- the target ends at its step; one whose last token record is written runs to its end (R78)
          if r.phase = .final ∧ r.owed = [] ∧ r.preempted = false then t else t.cancelTarget r
        else t
  else s)

/-- UNLOAD_MODEL (R81): a loaded handle is marked and waits for its live requests; any other handle
completes at once with REFUSED_MODEL 0x01. -/
def execUnloadModel (p : BitVec 7) (q : BitVec 3) (d : BitVec 1024) (s : State) : Outcome State Fault Refusal :=
  let p := p.toNat
  let q := q.toNat
  let h := dfield d 0x04 0 16
  .next (if s.servable p q 0x05 d then
    s.serve p q d (.unload h) fun t n =>
      match t.model p h with
      | some m =>
        if m.st = .loaded then t.setModel { m with st := .unloading }
        else if m.st = .unloading then t
        else t.complete p n (completion (descTag d) q stRefusedModel 0x01 0 0 0)
      | none => t.complete p n (completion (descTag d) q stRefusedModel 0x01 0 0 0)
  else s)

/-! ### Output rings (R71 to R73, R83) -/

/-- The token record of record number `i` (04, Output rings): phase, last, token ID; it goes to slot
i mod depth. -/
def tokenWord (i depth : Nat) (last : Bool) (token : BitVec 18) : Word :=
  BitVec.ofNat 32 ((if i / depth % 2 = 0 then 2 ^ 31 else 0) + (if last then 2 ^ 30 else 0) + token.toNat)

/-- Token records that are owed written while the ring has room: record i only while i − consumed is
below the depth (R73). Each counts on the EQ of the request's SQ (R75). -/
def State.writeTokens (s : State) (r : Req) : List (BitVec 18 × Bool) → State × Req
  | [] => (s, { r with owed := [] })
  | (t, last) :: rest =>
    let depth := 2 ^ r.d.outLog2
    if r.written < depth + r.consumed then
      let addr := r.d.outAddr + BitVec.ofNat 64 (4 * (r.written % depth))
      let s1 := s.emit (.token r.part r.tag addr (tokenWord r.written depth last t))
      let s2 := s1.moderate (4 * r.part + s1.eqOf r.part r.sq) false
      s2.writeTokens { r with written := r.written + 1 } rest
    else (s, { r with owed := (t, last) :: rest })

/-- OUTPUT_RING_REREAD (R73, R83): before a record that would overrun the ring, and every 10 µs while it stays full, the
consumed count is read, and records that fit are written; a PCIe error completes the request with FAULT_MEMORY 0x01. -/
def execOutputRingReread (p : BitVec 7) (tag : BitVec 64) (consumed : HostRead Word) (s : State) :
    Outcome State Fault Refusal :=
  .next (match s.req p.toNat tag with
    | none => s
    | some r =>
      if r.active && decide (r.owed ≠ []) && (!r.ringFull || decide (r.lastRead + 1000 ≤ s.tick)) then
        let s0 := s.emit (.hostRead (r.part + 1) (r.d.outAddr + BitVec.ofNat 64 (4 * 2 ^ r.d.outLog2)) 4)
        match consumed with
        | none => s0.fail r stFaultMemory 0x01
        | some c =>
          let (s1, r1) := s0.writeTokens { r with consumed := c.toNat, lastRead := s.tick } r.owed
          s1.setReq { r1 with ringFull := decide (r1.owed ≠ []) }
      else s)

/-! ### Moderation (R75) -/

/-- The timer of event queue `q` has run out: mod_time µs since the first counted record. -/
def State.modDue (s : State) (q : Nat) : Bool :=
  match (s.eq q).since with
  | none => false
  | some t => decide (s.fld (eqCfgKey q) 11 0 ≠ 0) && decide (t + 100 * s.fld (eqCfgKey q) 11 0 ≤ s.tick)
      && s.bit (eqCfgKey q) 30

/-- MODERATION_TIMER: the EQ's vector is signalled, and count and timer are reset. -/
def execModerationTimer (eq : Option (BitVec 7 × BitVec 2)) (s : State) : Outcome State Fault Refusal :=
  let q := match eq with
    | some (p, e) => 4 * p.toNat + e.toNat
    | none => 512
  .next (if s.modDue q then
    (s.setEq q { s.eq q with count := 0, since := none }).signal (eqVector q) else s)

end Sys2Proof.Machine
end

