-- ==== Sys2Proof/Machine/Num.lean ====
section
/-! DEFINITION. Number formats and exact arithmetic: IEEE 754 binary32, binary16, BF16 and the OCP FP8
formats, decoded to exact values and rounded once, to nearest with ties to even (00 Notation; 09
R182; 10 R217; 11 R246; 13 R290; 14 R318). -/

namespace Sys2Proof.Machine

/-- A floating-point value: a NaN, an infinity, or (−1)^neg · m · 2^e; a zero keeps its sign. -/
inductive Fp where
  | nan
  | inf (neg : Bool)
  | fin (neg : Bool) (m : Nat) (e : Int)
  deriving DecidableEq, Repr

/-- A format: exponent bits, fraction bits, and whether it is the OCP E4M3 format (no infinity; the
one NaN is all ones; 448 is the largest magnitude). -/
structure Fmt where
  eb : Nat
  mb : Nat
  e4m3 : Bool := false
  deriving DecidableEq, Repr

def fmt32 : Fmt := ⟨8, 23, false⟩
def fmt16 : Fmt := ⟨5, 10, false⟩
def fmtBf : Fmt := ⟨8, 7, false⟩
def fmtE4 : Fmt := ⟨4, 3, true⟩
def fmtE5 : Fmt := ⟨5, 2, false⟩

/-- The exponent bias, and the exponent of the least significant bit of a subnormal. -/
def Fmt.bias (f : Fmt) : Nat := 2 ^ (f.eb - 1) - 1
def Fmt.low (f : Fmt) : Int := 1 - (f.bias : Int) - f.mb

/-- The value of a bit pattern. -/
def Fmt.decode (f : Fmt) (bits : Nat) : Fp :=
  let neg := bits.testBit (f.eb + f.mb)
  let ex := bits / 2 ^ f.mb % 2 ^ f.eb
  let fr := bits % 2 ^ f.mb
  if f.e4m3 then
    if ex = 15 ∧ fr = 7 then .nan
    else if ex = 0 then .fin neg fr f.low else .fin neg (2 ^ f.mb + fr) (f.low + ex - 1)
  else if ex = 2 ^ f.eb - 1 then (if fr = 0 then .inf neg else .nan)
  else if ex = 0 then .fin neg fr f.low else .fin neg (2 ^ f.mb + fr) (f.low + ex - 1)

/-- Bits of a number: 0 for 0. -/
def bitLen (n : Nat) : Nat := if n = 0 then 0 else Nat.log2 n + 1

/-- `m` shifted right by `d` bits, rounded to nearest with ties to even. -/
def shrRne (m d : Nat) : Nat :=
  if d = 0 then m
  else
    let q := m >>> d
    let r := m % 2 ^ d
    let half := 2 ^ (d - 1)
    if half < r ∨ (r = half ∧ q % 2 = 1) then q + 1 else q

/-- m · 2^e in units of 2^u, rounded to nearest with ties to even. -/
def toUnits (m : Nat) (e u : Int) : Nat :=
  if u ≤ e then m <<< (e - u).toNat else shrRne m (u - e).toNat

/-- The bit pattern of a magnitude m · 2^e rounded once; `none` when it overflows the format. -/
def Fmt.roundMag (f : Fmt) (m : Nat) (e : Int) : Option Nat :=
  if m = 0 then some 0
  else
    let top := e + bitLen m - 1
    let u := max (top - f.mb) f.low
    let n := toUnits m e u
    let (n, u) := if n = 2 ^ (f.mb + 1) then (2 ^ f.mb, u + 1) else (n, u)
    if n < 2 ^ f.mb then some n
    else
      let ex := (u - f.low).toNat + 1
      let lim := if f.e4m3 then ex < 16 ∧ ¬(ex = 15 ∧ n = 2 ^ f.mb + 7) else ex < 2 ^ f.eb - 1
      if lim then some (ex * 2 ^ f.mb + (n - 2 ^ f.mb)) else none

/-- The bits of an infinity (of E4M3, its largest magnitude), of the largest magnitude, of the quiet
NaN, and of the sign. -/
def Fmt.infBits (f : Fmt) : Nat := if f.e4m3 then 0x7E else (2 ^ f.eb - 1) * 2 ^ f.mb
def Fmt.maxBits (f : Fmt) : Nat := if f.e4m3 then 0x7E else (2 ^ f.eb - 1) * 2 ^ f.mb - 1
def Fmt.nanBits (f : Fmt) : Nat :=
  if f.e4m3 then 0x7F else (2 ^ f.eb - 1) * 2 ^ f.mb + 2 ^ (f.mb - 1)
def Fmt.signBit (f : Fmt) (neg : Bool) : Nat := if neg then 2 ^ (f.eb + f.mb) else 0

/-- A value rounded to a format, to nearest with ties to even; a magnitude beyond the format gives an
infinity. -/
def Fmt.encode (f : Fmt) : Fp → Nat
  | .nan => f.nanBits
  | .inf neg => f.signBit neg + f.infBits
  | .fin neg m e => f.signBit neg + (f.roundMag m e).getD f.infBits

/-- A value rounded to a format with saturation to the largest magnitude, and whether it saturated. -/
def Fmt.encodeSat (f : Fmt) : Fp → Nat × Bool
  | .nan => (f.nanBits, false)
  | .inf neg => (f.signBit neg + f.maxBits, true)
  | .fin neg m e =>
    match f.roundMag m e with
    | some b => (f.signBit neg + b, false)
    | none => (f.signBit neg + f.maxBits, true)

/-! ### Exact arithmetic on finite values, as signed dyadics -/

/-- A dyadic number m · 2^e. -/
structure Dy where
  m : Int
  e : Int
  deriving DecidableEq, Repr

def Dy.zero : Dy := ⟨0, 0⟩
def Dy.ofNat (n : Nat) : Dy := ⟨n, 0⟩
def Dy.ofInt (n : Int) : Dy := ⟨n, 0⟩
/-- `2^k`. -/
def Dy.pow2 (k : Int) : Dy := ⟨1, k⟩

/-- A dyadic in units of a lower exponent. -/
def Dy.at_ (x : Dy) (e : Int) : Int := x.m * 2 ^ (x.e - e).toNat

def Dy.add (x y : Dy) : Dy := let e := min x.e y.e; ⟨x.at_ e + y.at_ e, e⟩
def Dy.neg (x : Dy) : Dy := ⟨-x.m, x.e⟩
def Dy.sub (x y : Dy) : Dy := x.add y.neg
def Dy.mul (x y : Dy) : Dy := ⟨x.m * y.m, x.e + y.e⟩
def Dy.abs (x : Dy) : Dy := ⟨(x.m.natAbs : Int), x.e⟩
def Dy.lt (x y : Dy) : Bool := let e := min x.e y.e; decide (x.at_ e < y.at_ e)
def Dy.le (x y : Dy) : Bool := let e := min x.e y.e; decide (x.at_ e ≤ y.at_ e)
def Dy.isZero (x : Dy) : Bool := decide (x.m = 0)
/-- Multiplied by 2^k. -/
def Dy.shift (x : Dy) (k : Int) : Dy := ⟨x.m, x.e + k⟩
/-- The largest integer not above the value. -/
def Dy.floor (x : Dy) : Int := if 0 ≤ x.e then x.m * 2 ^ x.e.toNat else x.m / 2 ^ (-x.e).toNat
/-- The nearest integer, ties to even. -/
def Dy.rne (x : Dy) : Int :=
  if 0 ≤ x.e then x.m * 2 ^ x.e.toNat
  else (if x.m < 0 then -1 else 1) * (shrRne x.m.natAbs (-x.e).toNat : Int)

/-- The value of a dyadic; an exact zero is +0. -/
def Dy.toFp (x : Dy) : Fp := .fin (decide (x.m < 0)) x.m.natAbs x.e

/-- The dyadic of a finite value; 0 for the others. -/
def Fp.toDy : Fp → Dy
  | .fin neg m e => ⟨if neg then -(m : Int) else m, e⟩
  | _ => Dy.zero

def Fp.isNan : Fp → Bool
  | .nan => true
  | _ => false
def Fp.isInf : Fp → Bool
  | .inf _ => true
  | _ => false
def Fp.isFin : Fp → Bool
  | .fin _ _ _ => true
  | _ => false
def Fp.neg? : Fp → Bool
  | .nan => false
  | .inf n => n
  | .fin n _ _ => n
def Fp.isZero : Fp → Bool
  | .fin _ m _ => decide (m = 0)
  | _ => false
/-- The value with its sign changed. -/
def Fp.negate : Fp → Fp
  | .nan => .nan
  | .inf n => .inf (!n)
  | .fin n m e => .fin (!n) m e

/-- A dyadic rounded to a format, as a dyadic again; overflow keeps the sign as an infinity. -/
def Fmt.round (f : Fmt) (x : Dy) : Fp := f.decode (f.encode x.toFp)

/-- IEEE addition and multiplication, rounded once to a format. An exact zero sum is +0 unless both
are −0 (IEEE 754, round to nearest). -/
def Fp.add (f : Fmt) (x y : Fp) : Fp :=
  match x, y with
  | .nan, _ => .nan
  | _, .nan => .nan
  | .inf a, .inf b => if a = b then .inf a else .nan
  | .inf a, _ => .inf a
  | _, .inf b => .inf b
  | .fin a ma ea, .fin b mb eb =>
    let d := (Fp.toDy (.fin a ma ea)).add (Fp.toDy (.fin b mb eb))
    if d.m = 0 then .fin (a && b) 0 0 else f.round d
def Fp.mul (f : Fmt) (x y : Fp) : Fp :=
  match x, y with
  | .nan, _ => .nan
  | _, .nan => .nan
  | .inf a, .inf b => .inf (a != b)
  | .inf a, .fin b m _ => if m = 0 then .nan else .inf (a != b)
  | .fin a m _, .inf b => if m = 0 then .nan else .inf (a != b)
  | .fin a ma ea, .fin b mb eb => f.decode (f.encode (.fin (a != b) (ma * mb) (ea + eb)))
def Fp.sub (f : Fmt) (x y : Fp) : Fp := Fp.add f x y.negate

/-- x < y for values that are no NaN; −0 and +0 are equal. -/
def Fp.lt : Fp → Fp → Bool
  | .nan, _ => false
  | _, .nan => false
  | .inf a, .inf b => a && !b
  | .inf a, _ => a
  | _, .inf b => !b
  | x, y => (Fp.toDy x).lt (Fp.toDy y)
def Fp.max (x y : Fp) : Fp := if x.lt y then y else x

/-- 2^ceil(log2 x) as an exponent, for a positive magnitude m · 2^e (09 R182). -/
def ceilLog2 (m : Nat) (e : Int) : Int :=
  if m = 2 ^ (bitLen m - 1) then e + bitLen m - 1 else e + bitLen m

/-- ceil(log2(m · 2^e / 448)): the least k with m · 2^e ≤ 448 · 2^k (09 R182). -/
def ceilLog2Over448 (m : Nat) (e : Int) : Int :=
  -- 448 = 7 · 2^6: compare m · 2^e with 7 · 2^(k+6)
  let k := e + bitLen m - 9
  if Dy.le ⟨m, e⟩ ⟨7, k + 6⟩ then k else if Dy.le ⟨m, e⟩ ⟨7, k + 7⟩ then k + 1 else k + 2

end Sys2Proof.Machine
end

