-- ==== Sys2Proof/Machine/Special.lean ====
section
/-! DEFINITION. The special functions of the Clews at both conduct levels (14 R317 to R322), FP32
operations in the modes of R320, and the exp2 of the Luffs (13 R294, R297). Level 1 evaluates in fixed
point with `prec` fractional bits and rounds once; cases that can tie are exact. -/

namespace Sys2Proof.Machine

/-! ### Fixed point -/

/-- Fractional bits of the fixed-point evaluation. -/
def prec : Nat := 640
/-- 1 in fixed point. -/
def fx1 : Nat := 2 ^ prec
/-- A non-negative dyadic in fixed point, truncated. -/
def Dy.fx (x : Dy) : Nat :=
  let k := x.e + prec
  if 0 ≤ k then x.m.natAbs * 2 ^ k.toNat else x.m.natAbs / 2 ^ (-k).toNat
def fxMul (a b : Nat) : Nat := a * b / fx1
def fxDiv (a b : Nat) : Nat := a * fx1 / b

/-- Σ x^i / i! from term `t` on, the next index being `k`. -/
def expSeries (x : Nat) : Nat → Nat → Nat → Nat
  | 0, _, _ => 0
  | n + 1, k, t => t + expSeries x n (k + 1) (fxMul t x / (k + 1))
/-- e^x for 0 ≤ x < 1. -/
def fxExp (x : Nat) : Nat := expSeries x 200 0 fx1

/-- Σ t·r^i / (2i + 1), r being the square of an argument. -/
def oddSeries (r : Nat) (alt : Bool) : Nat → Nat → Nat → Int → Int
  | 0, _, _, _ => 0
  | n + 1, k, t, sg => sg * (t / (2 * k + 1) : Nat) + oddSeries r alt n (k + 1) (fxMul t r) (if alt then -sg else sg)
/-- atanh y and atan y for y ≤ 1/3. -/
def fxAtanh (y : Nat) : Nat := (oddSeries (fxMul y y) false 220 0 y 1).toNat
def fxAtan (y : Nat) : Nat := (oddSeries (fxMul y y) true 220 0 y 1).toNat
/-- ln 2, π and √(2/π). -/
def fxLn2 : Nat := 2 * fxAtanh (fx1 / 3)
def fxPi : Nat := 16 * fxAtan (fx1 / 5) - 4 * fxAtan (fx1 / 239)
def fxSqrt2Pi : Nat := Nat.sqrt (2 * fx1 * fx1 * fx1 / fxPi)

/-- A fixed-point number as a dyadic, and times 2^n. -/
def fxDy (a : Nat) (n : Int) : Dy := ⟨a, n - prec⟩

/-- 2^x for a dyadic x with |x| below 2^16. -/
def dyExp2 (x : Dy) : Dy :=
  let n := x.floor
  let f := (x.sub (Dy.ofInt n)).fx
  fxDy (fxExp (fxMul f fxLn2)) n

/-- e^(±a) for a fixed-point a. -/
def fxExpSigned (a : Nat) (neg : Bool) : Dy :=
  let k := a / fxLn2
  let r := a % fxLn2
  if neg then (if r = 0 then ⟨1, -(k : Int)⟩ else fxDy (fxExp (fxLn2 - r)) (-(k : Int) - 1)) else fxDy (fxExp r) k

/-- sin(π·r) for 0 ≤ r ≤ 1/2. -/
def sinSeries (t2 : Nat) : Nat → Nat → Nat → Int → Int
  | 0, _, _, _ => 0
  | n + 1, k, t, sg => sg * (t : Int) + sinSeries t2 n (k + 2) (fxMul t t2 / ((k + 1) * (k + 2))) (-sg)
def fxSinPi (r : Nat) : Nat := let t := fxMul r fxPi; (sinSeries (fxMul t t) 120 1 t 1).toNat

/-- Σ 2^n z^(2n+1) / (1·3·…·(2n+1)). -/
def erfSeries (z2 : Nat) : Nat → Nat → Nat → Nat
  | 0, _, _ => 0
  | n + 1, k, t => t + erfSeries z2 n (k + 2) (2 * fxMul t z2 / (k + 2))
/-- erf z for 0 ≤ z < 22. -/
def fxErf (z : Nat) : Nat :=
  let z2 := fxMul z z
  let s := erfSeries z2 2200 1 z
  let e := (fxExpSigned z2 true).fx
  -- 2/√π = √(2/π)·√2
  fxMul (fxMul (fxMul s e) fxSqrt2Pi) (Nat.sqrt (2 * fx1 * fx1))

/-! ### Exact quotients and roots -/

/-- n / d · 2^e as a magnitude that rounds as the quotient does: a sticky bit stands for the remainder. -/
def quot (n d : Nat) (e : Int) : Nat × Int :=
  let k := bitLen d + 300 - min (bitLen n) 200
  let q := n * 2 ^ k / d
  (2 * q + (if n * 2 ^ k % d = 0 then 0 else 1), e - k - 1)

/-- A quotient of dyadics as a value, signs taken separately. -/
def Dy.quotient (x y : Dy) : Fp :=
  let (m, e) := quot x.m.natAbs y.m.natAbs (x.e - y.e)
  .fin (decide (x.m < 0) != decide (y.m < 0)) m e

/-- √(m·2^e) likewise. -/
def root (m : Nat) (e : Int) : Nat × Int :=
  let (m1, e1) := if e % 2 = 0 then (m, e) else (2 * m, e - 1)
  let n := m1 * 2 ^ 400
  let r := Nat.sqrt n
  (2 * r + (if r * r = n then 0 else 1), e1 / 2 - 200 - 1)

/-! ### FP32 words -/

/-- Values of FP32 words. -/
def f32 (w : Nat) : Fp := fmt32.decode w
def toF32 (x : Fp) : Nat := fmt32.encode x
abbrev f32Nan : Nat := 0x7FC00000
abbrev f32Max : Nat := 0x7F7FFFFF
/-- log2(e), √(2/π) and 0.044715 rounded to FP32. -/
abbrev f32Log2e : Nat := 0x3FB8AA3B
abbrev f32K : Nat := 0x3F4C422A
abbrev f32A : Nat := 0x3D372713

/-- The result of a Clew operation: its word, NaN arguments, and saturating substitutions (R320). -/
structure FnOut where
  w : Nat
  nan : Nat := 0
  sat : Nat := 0
  deriving DecidableEq, Repr

/-- A value as the result of an operation: beyond the range it is an infinity, or the largest magnitude
in saturating mode; an undefined one is a domain error (R320). -/
def finishFp (sat : Bool) (o : FnOut) (x : Fp) : FnOut :=
  match x with
  | .nan => if sat then { o with w := 0, sat := o.sat + 1 } else { o with w := f32Nan }
  | _ =>
    let w := toF32 x
    if w % 0x80000000 = 0x7F800000 ∧ sat = true then { o with w := w - 0x800000 + 0x7FFFFF, sat := o.sat + 1 }
    else { o with w := w }

/-- Arguments of an operation made ready in a mode: NaN arguments are counted, and in saturating mode an
infinity is the largest magnitude. `none` when a NaN decides the result. -/
def argFp (sat : Bool) (o : FnOut) (w : Nat) : FnOut × Option Fp :=
  match f32 w with
  | .nan => ({ o with nan := o.nan + 1, sat := if sat then o.sat + 1 else o.sat, w := if sat then 0 else f32Nan }, none)
  | .inf n =>
    if sat then ({ o with sat := o.sat + 1 }, some (f32 (f32Max + (if n then 0x80000000 else 0))))
    else (o, some (.inf n))
  | x => (o, some x)

/-- A two-operand operation in a mode. -/
def binOp (sat : Bool) (f : Fp → Fp → Fp) (a b : Nat) : FnOut :=
  let (o1, x) := argFp sat ⟨0, 0, 0⟩ a
  let (o2, y) := argFp sat o1 b
  match x, y with
  | some x, some y => finishFp sat o2 (f x y)
  | _, _ => o2

/-- FP32 operations rounded once, in propagating mode. -/
def addW (a b : Nat) : Nat := toF32 (Fp.add fmt32 (f32 a) (f32 b))
def subW (a b : Nat) : Nat := toF32 (Fp.sub fmt32 (f32 a) (f32 b))
def mulW (a b : Nat) : Nat := toF32 (Fp.mul fmt32 (f32 a) (f32 b))

/-- a × b + c rounded once. -/
def fmaFp (a b c : Fp) : Fp :=
  match a, b, c with
  | .fin _ _ _, .fin _ _ _, .fin cn _ _ =>
    let p := a.toDy.mul b.toDy
    let d := p.add c.toDy
    if d.m = 0 then .fin ((a.neg? != b.neg?) && cn) 0 0 else fmt32.round d
  | _, _, _ => Fp.add fmt32 (Fp.mul fmt32 a b) c

/-! ### Level 1 (R319, R321) -/

/-- Function codes of Table 14.2 that change method at level 0. -/
def isK32 (code : Nat) : Bool := decide (code ∈ [0x01, 0x03, 0x04, 0x06, 0x07, 0x08, 0x09])

/-- tanh a for a ≥ 0. -/
def fxTanh (a : Nat) : Nat :=
  let e := (fxExpSigned (2 * a) true).fx
  fxDiv (fx1 - e) (fx1 + e)

/-- 1 / (1 + e^(−x)). -/
def fxSigmoid (a : Nat) (neg : Bool) : Nat :=
  let e := (fxExpSigned a true).fx
  if neg then fxDiv e (fx1 + e) else fxDiv fx1 (fx1 + e)

/-- A result that is exactly zero: its sign is free where Table 14.3 gives none. -/
def exactZero (code w : Nat) : Fp := .fin (Config.zeroNeg code w) 0 0

/-- The exact function of a finite argument, as a value to be rounded once; `.nan` is a domain error and
an infinity a result beyond the range. -/
def levelOne (code w : Nat) (x : Fp) : Fp :=
  let d := x.toDy
  let neg := x.neg?
  let a := d.abs
  let big := !(a.lt (Dy.ofNat 0x4000))
  let sg := fun (y : Dy) => if neg then y.neg.toFp else y.toFp
  if code = 0x01 then
    if big then (if neg then .fin false 1 (-4000) else .inf false) else (dyExp2 d).toFp
  else if code = 0x02 then
    if x.isZero then .inf true else if neg then .nan
    else
      let m := d.m.natAbs
      let k := bitLen m - 1
      let y := fxDiv (m * fx1 - 2 ^ k * fx1) (m * fx1 + 2 ^ k * fx1)
      let l := fxDiv (2 * fxAtanh y) fxLn2
      let v := (fxDy l 0).add (Dy.ofInt (d.e + k))
      if v.m = 0 then exactZero code w else v.toFp
  else if code = 0x03 then
    if x.isZero then .inf neg else sg (Dy.mk (quot 1 d.m.natAbs (-d.e)).1 (quot 1 d.m.natAbs (-d.e)).2)
  else if code = 0x04 then
    if x.isZero then .inf neg else if neg then .nan
    else
      let r := root (2 ^ 400 / d.m.natAbs * 2 + (if 2 ^ 400 % d.m.natAbs = 0 then 0 else 1)) (-401 - d.e)
      .fin false r.1 r.2
  else if code = 0x05 then
    if x.isZero then x else if neg then .nan else .fin false (root d.m.natAbs d.e).1 (root d.m.natAbs d.e).2
  else if code = 0x06 then
    if x.isZero then exactZero code w else if big then sg (Dy.ofNat 1) else sg (fxDy (fxTanh a.fx) 0)
  else if code = 0x07 then
    if big then (if neg then .fin false 1 (-4000) else .fin false 1 0) else (fxDy (fxSigmoid a.fx neg) 0).toFp
  else if code = 0x08 then
    if x.isZero then exactZero code w
    else if big then (if neg then .fin true 1 (-4000) else x)
    else sg (a.mul (fxDy (fxSigmoid a.fx neg) 0))
  else if code = 0x09 then
    if x.isZero then exactZero code w
    else if !(a.lt (Dy.ofNat 64)) then (if neg then .fin true 1 (-4000) else x)
    else
      let f := a.fx
      let u := fxMul fxSqrt2Pi (f + fxMul (fxMul f f) f * 44715 / 1000000)
      let t := fxTanh u
      let h := if neg then fx1 - t else fx1 + t
      if h = 0 then .fin neg 1 (-4000) else sg ((a.mul (fxDy h 0)).shift (-1))
  else if code = 0x0A then
    if x.isZero then exactZero code w
    else if !(a.lt (Dy.ofNat 30)) then (if neg then .fin true 1 (-4000) else x)
    else
      let t := fxErf (fxDiv a.fx (Nat.sqrt (2 * fx1 * fx1)))
      let h := if neg then fx1 - t else fx1 + t
      if h = 0 then .fin neg 1 (-4000) else sg ((a.mul (fxDy h 0)).shift (-1))
  else if code = 0x0B then
    if x.isZero then exactZero code w else if !(a.lt (Dy.ofNat 20)) then sg (Dy.ofNat 1) else sg (fxDy (fxErf a.fx) 0)
  else if code = 0x0C ∨ code = 0x0D then
    let y := if code = 0x0C then d else d.add ⟨1, -1⟩
    let r := (y.sub (Dy.ofInt (y.floor / 2 * 2))).fx
    let (r, ng) := if r < fx1 then (r, false) else (r - fx1, true)
    let q := if 2 * r ≤ fx1 then r else fx1 - r
    if q = 0 then exactZero code w
    else
      let v := fxDy (fxSinPi q) 0
      if ng then v.neg.toFp else v.toFp
  else if code = 0x0E then
    if big then (if neg then .fin false 1 (-4000) else .inf false) else (fxExpSigned a.fx neg).toFp
  else if neg ∨ x.isZero then exactZero code w else x

/-- The function of an infinity in propagating mode (Table 14.3, and limits). -/
def ofInf (code : Nat) (neg : Bool) : Fp :=
  if code = 0x01 ∨ code = 0x0E ∨ code = 0x0F then (if neg then .fin false 0 0 else .inf false)
  else if code = 0x02 ∨ code = 0x05 then (if neg then .nan else .inf false)
  else if code = 0x03 then .fin neg 0 0
  else if code = 0x04 then (if neg then .nan else .fin false 0 0)
  else if code = 0x06 ∨ code = 0x0B then .fin neg 1 0
  else if code = 0x07 then (if neg then .fin false 0 0 else .fin false 1 0)
  else if code = 0x0C ∨ code = 0x0D then .nan
  else if neg then .fin true 0 0 else .inf false

/-! ### Level 0 (R322, Table 14.4) -/

/-- A word whose value is subnormal becomes +0.0. -/
def flushW (w : Nat) : Nat := if w / 0x800000 % 256 = 0 then 0 else w

/-- A fixed-point number with 30 fractional bits, rounded to nearest. -/
def near30 (a : Nat) : Nat := (a * 2 ^ 31 / fx1 + 1) / 2
/-- T_i, c1 and c2 of the EXP2 method. -/
def k32T (i : Nat) : Nat := near30 (dyExp2 ⟨i, -5⟩).fx
def k32C1 : Nat := near30 fxLn2
def k32C2 : Nat := near30 (fxMul fxLn2 fxLn2 / 2)

/-- EXP2 of a finite argument at level 0. -/
def k32Exp2 (x : Fp) : Fp :=
  let d := x.toDy
  if !(d.lt (Dy.ofNat 128)) then .inf false
  else if d.lt (Dy.ofInt (-126)) then .fin false 0 0
  else
    let n := d.floor
    let f := d.sub (Dy.ofInt n)
    let i := (f.shift 5).floor.toNat
    let r := ((f.sub ⟨i, -5⟩).shift 30).floor.toNat
    let t := fun (a b : Nat) => a * b / 2 ^ 30
    let q := 2 ^ 30 + t k32C1 r + t (t k32C2 r) r
    let y := t (k32T i) q
    let k := bitLen y - 24
    .fin false (y / 2 ^ k * 2 ^ k) (n - 30)

/-- RCP of a nonzero finite argument at level 0. -/
def k32Rcp (w : Nat) : Nat :=
  let x := w % 0x80000000
  let e : Int := (x / 0x800000 : Nat) - 127
  let i := x / 2 ^ 17 % 64
  let t := (2 * 1024 * 128 / (129 + 2 * i) + 1) / 2
  let y0 := toF32 (.fin false t (-10 - e))
  let two := 0x40000000
  let step := fun (y : Nat) => mulW y (subW two (mulW x y))
  step (step y0) + w / 0x80000000 * 0x80000000

/-- RSQRT of a positive finite argument at level 0. -/
def k32Rsqrt (w : Nat) : Nat :=
  let e : Int := (w / 0x800000 : Nat) - 127
  let k := e / 2
  let m := 2 ^ 23 + w % 2 ^ 23
  let m4 := if e % 2 = 0 then m else 2 * m
  let i := (m4 - 2 ^ 23) / 2 ^ 19
  let t := (Nat.sqrt (4 * 1024 * 1024 * 32 / (33 + 2 * i)) + 1) / 2
  let y0 := toF32 (.fin false t (-10 - k))
  let h := mulW 0x3F000000 w
  let step := fun (y : Nat) => mulW y (subW 0x3FC00000 (mulW (mulW h y) y))
  step (step y0)

/-- SIGMOID at level 0 of a word that is no NaN: RCP(1 + EXP2(−x × L)), each inner function in the mode. -/
def k32Sigmoid (sat : Bool) (w : Nat) : FnOut :=
  let a := flushW (mulW (flushW w ^^^ 0x80000000) f32Log2e)
  let (o, x) := argFp sat ⟨0, 0, 0⟩ a
  match x with
  | none => o
  | some x =>
    let e := match x with
      | .inf n => if n then finishFp sat o (.fin false 0 0) else finishFp sat o (.inf false)
      | x => finishFp sat o (k32Exp2 x)
    let s := addW 0x3F800000 (flushW e.w)
    { e with w := if s = 0x7F800000 then 0 else flushW (k32Rcp s) }

/-- A K32 function at level 0 of a finite argument, after R320, R321 and the flush of its argument. -/
def levelZero (sat : Bool) (code w : Nat) : FnOut :=
  let o : FnOut := ⟨0, 0, 0⟩
  if code = 0x01 then finishFp sat o (k32Exp2 (f32 w))
  else if code = 0x03 then { o with w := k32Rcp w }
  else if code = 0x04 then { o with w := k32Rsqrt w }
  else if code = 0x07 then k32Sigmoid sat w
  else if code = 0x08 then
    let s := k32Sigmoid sat w
    { s with w := mulW w s.w }
  else if code = 0x06 then
    let s := k32Sigmoid sat (mulW 0x40000000 w)
    { s with w := subW (mulW 0x40000000 (flushW s.w)) 0x3F800000 }
  else
    let x3 := mulW (mulW w w) w
    let u := flushW (mulW f32K (addW w (mulW f32A x3)))
    let s := if (f32 u).isInf then ⟨(if u ≥ 0x80000000 then 0xBF800000 else 0x3F800000), 0, 0⟩ else
      let s := k32Sigmoid sat (mulW 0x40000000 u)
      { s with w := flushW (subW (mulW 0x40000000 (flushW s.w)) 0x3F800000) }
    { s with w := mulW (mulW 0x3F000000 w) (addW 0x3F800000 s.w) }

/-- A function evaluated on an FP32 word, at a conduct level and in a mode (R318 to R322). -/
def evalFn (level0 sat : Bool) (code w : Nat) : FnOut :=
  let k := level0 && isK32 code
  match f32 w with
  | .nan => { w := if sat then 0 else f32Nan, nan := 1, sat := if sat then 1 else 0 }
  | .inf neg =>
    if sat = true ∧ code = 0x03 then { w := if neg then 0x80000000 else 0, sat := 1 }
    else if sat then
      let m := f32Max + (if neg then 0x80000000 else 0)
      let o := if k ∧ !(code = 0x04 ∧ neg) then levelZero sat code m
        else finishFp sat ⟨0, 0, 0⟩ (levelOne code m (f32 m))
      { o with w := if k then flushW o.w else o.w, sat := o.sat + 1 }
    else finishFp sat ⟨0, 0, 0⟩ (ofInf code neg)
  | x0 =>
    let special := fun (x : Fp) (u : Nat) => finishFp sat ⟨0, 0, 0⟩ (levelOne code u x)
    if k then
      if (code = 0x03 ∧ x0.isZero = true) ∨ (code = 0x04 ∧ (x0.isZero = true ∨ x0.neg? = true)) then special x0 w
      else
        let u := flushW w
        if (code = 0x03 ∨ code = 0x04) ∧ u = 0 then special (f32 0) 0
        else
          let o := levelZero sat code u
          if (f32 o.w).isInf ∧ sat = true then { o with w := o.w - 1, sat := o.sat + 1 }
          else { o with w := flushW o.w }
    else special x0 w

/-! ### The exp2 of the Luffs -/

/-- exp2 of a non-positive number in online mode, rounded to FP32 with error below 1 ulp: one of the two
neighbours of the exact value, which one being free; an exact value has none (13 R294). -/
def exp2Online (d : Dy) : Nat :=
  let up := Config.exp2Up d.m d.e
  if d.lt (Dy.ofInt (-200)) then (if up then 1 else 0)
  else
    let y := dyExp2 d
    -- the neighbours below and above: units of the last place, truncated
    let top := y.e + bitLen y.m.natAbs - 1
    let u := max (top - 23) (-149)
    let q := (y.shift (-u)).floor
    let lo := Dy.mk q u
    if lo.sub y = ⟨0, (lo.sub y).e⟩ then toF32 lo.toFp
    else toF32 (if up then (Dy.mk (q + 1) u).toFp else lo.toFp)

/-- The integer nearest to 2^(32 − d), ties to even, and 0 from d = 33 on (13 R297, 14 R329). -/
def pOf (d : Fp) : Nat :=
  match d with
  | .fin _ _ _ =>
    let x := d.toDy
    if !(x.lt (Dy.ofNat 33)) then 0 else (dyExp2 ((Dy.ofNat 32).sub x)).rne.toNat
  | _ => 0

end Sys2Proof.Machine
end

