-- ==== Sys2Proof/Machine/Crypto.lean ====
section
/-! DEFINITION. SHA-384 (FIPS 180-4), ECDSA over P-384 (FIPS 186), CRC-32C and CRC-64/ECMA-182, as
10 R212, 22 R541 and R545, 18 R435 and R443 use them. -/

namespace Sys2Proof.Machine

/-! ### SHA-384 -/

/-- The round constants: fractions of the cube roots of the first 80 primes. -/
def shaK0 : List Nat :=
  [0x428A2F98D728AE22, 0x7137449123EF65CD, 0xB5C0FBCFEC4D3B2F, 0xE9B5DBA58189DBBC, 0x3956C25BF348B538]
  ++ [0x59F111F1B605D019, 0x923F82A4AF194F9B, 0xAB1C5ED5DA6D8118, 0xD807AA98A3030242, 0x12835B0145706FBE]
  ++ [0x243185BE4EE4B28C, 0x550C7DC3D5FFB4E2, 0x72BE5D74F27B896F, 0x80DEB1FE3B1696B1, 0x9BDC06A725C71235]
  ++ [0xC19BF174CF692694, 0xE49B69C19EF14AD2, 0xEFBE4786384F25E3, 0x0FC19DC68B8CD5B5, 0x240CA1CC77AC9C65]
def shaK1 : List Nat :=
  [0x2DE92C6F592B0275, 0x4A7484AA6EA6E483, 0x5CB0A9DCBD41FBD4, 0x76F988DA831153B5, 0x983E5152EE66DFAB]
  ++ [0xA831C66D2DB43210, 0xB00327C898FB213F, 0xBF597FC7BEEF0EE4, 0xC6E00BF33DA88FC2, 0xD5A79147930AA725]
  ++ [0x06CA6351E003826F, 0x142929670A0E6E70, 0x27B70A8546D22FFC, 0x2E1B21385C26C926, 0x4D2C6DFC5AC42AED]
  ++ [0x53380D139D95B3DF, 0x650A73548BAF63DE, 0x766A0ABB3C77B2A8, 0x81C2C92E47EDAEE6, 0x92722C851482353B]
def shaK2 : List Nat :=
  [0xA2BFE8A14CF10364, 0xA81A664BBC423001, 0xC24B8B70D0F89791, 0xC76C51A30654BE30, 0xD192E819D6EF5218]
  ++ [0xD69906245565A910, 0xF40E35855771202A, 0x106AA07032BBD1B8, 0x19A4C116B8D2D0C8, 0x1E376C085141AB53]
  ++ [0x2748774CDF8EEB99, 0x34B0BCB5E19B48A8, 0x391C0CB3C5C95A63, 0x4ED8AA4AE3418ACB, 0x5B9CCA4F7763E373]
  ++ [0x682E6FF3D6B2B8A3, 0x748F82EE5DEFB2FC, 0x78A5636F43172F60, 0x84C87814A1F0AB72, 0x8CC702081A6439EC]
def shaK3 : List Nat :=
  [0x90BEFFFA23631E28, 0xA4506CEBDE82BDE9, 0xBEF9A3F7B2C67915, 0xC67178F2E372532B, 0xCA273ECEEA26619C]
  ++ [0xD186B8C721C0C207, 0xEADA7DD6CDE0EB1E, 0xF57D4F7FEE6ED178, 0x06F067AA72176FBA, 0x0A637DC5A2C898A6]
  ++ [0x113F9804BEF90DAE, 0x1B710B35131C471B, 0x28DB77F523047D84, 0x32CAAB7B40C72493, 0x3C9EBE0A15C9BEBC]
  ++ [0x431D67C49C100D4C, 0x4CC5D4BECB3E42B6, 0x597F299CFC657E2A, 0x5FCB6FAB3AD6FAEC, 0x6C44198C4A475817]
def shaK : List Nat := shaK0 ++ shaK1 ++ shaK2 ++ shaK3

/-- The initial hash value of SHA-384. -/
def shaInit : List Nat :=
  [0xCBBB9D5DC1059ED8, 0x629A292A367CD507, 0x9159015A3070DD17, 0x152FECD8F70E5939]
  ++ [0x67332667FFC00B31, 0x8EB44A8768581511, 0xDB0C2E0D64F98FA7, 0x47B5481DBEFA4FA4]

abbrev w64 : Nat := 0x10000000000000000
def rotr64 (x n : Nat) : Nat := (x >>> n ||| x <<< (64 - n)) % w64
def shaCh (x y z : Nat) : Nat := (x &&& y) ^^^ ((w64 - 1 - x) &&& z)
def shaMaj (x y z : Nat) : Nat := (x &&& y) ^^^ (x &&& z) ^^^ (y &&& z)
def shaS0 (x : Nat) : Nat := rotr64 x 28 ^^^ rotr64 x 34 ^^^ rotr64 x 39
def shaS1 (x : Nat) : Nat := rotr64 x 14 ^^^ rotr64 x 18 ^^^ rotr64 x 41
def shaG0 (x : Nat) : Nat := rotr64 x 1 ^^^ rotr64 x 8 ^^^ x >>> 7
def shaG1 (x : Nat) : Nat := rotr64 x 19 ^^^ rotr64 x 61 ^^^ x >>> 6

/-- The big-endian number that bytes spell, and its bytes. -/
def beNat (l : List Byte) : Nat := l.foldl (fun a b => a * 256 + b.toNat) 0
def beBytes (v n : Nat) : List Byte := (leBytes v n).reverse

/-- `n` further schedule words; `w` holds the last 16, newest first. -/
def shaSched : Nat → List Nat → List Nat
  | 0, _ => []
  | n + 1, w =>
    let x := (shaG1 (w.getD 1 0) + w.getD 6 0 + shaG0 (w.getD 14 0) + w.getD 15 0) % w64
    x :: shaSched n (x :: w.take 15)

/-- The rounds of one block on the eight working words. -/
def shaRounds : List (Nat × Nat) → List Nat → List Nat
  | [], v => v
  | (k, w) :: rest, v =>
    match v with
    | [a, b, c, d, e, f, g, h] =>
      let t1 := h + shaS1 e + shaCh e f g + k + w
      let t2 := shaS0 a + shaMaj a b c
      shaRounds rest [(t1 + t2) % w64, a, b, c, (d + t1) % w64, e, f, g]
    | _ => v

/-- One 128-byte block. -/
def shaBlock (hv : List Nat) (blk : List Byte) : List Nat :=
  let w := (List.range 16).map fun i => beNat ((blk.drop (8 * i)).take 8)
  let ws := w ++ shaSched 64 w.reverse
  List.zipWith (fun a b => (a + b) % w64) hv (shaRounds (shaK.zip ws) hv)

/-- The blocks of a padded message; `n` bounds them. -/
def shaBlocks : Nat → List Nat → List Byte → List Nat
  | 0, hv, _ => hv
  | n + 1, hv, l => if l = [] then hv else shaBlocks n (shaBlock hv (l.take 128)) (l.drop 128)

/-- The 48 bytes of SHA-384. -/
def sha384 (m : List Byte) : List Byte :=
  let zeros := (239 - m.length % 128) % 128
  let p := m ++ 0x80#8 :: List.replicate zeros 0#8 ++ beBytes (8 * m.length) 16
  ((shaBlocks (p.length / 128) shaInit p).flatMap fun x => beBytes x 8).take 48

/-- The hash as a number, byte 0 lowest. -/
def digestOf (m : List Byte) : BitVec 384 := BitVec.ofNat 384 (leNat (sha384 m))

/-! ### ECDSA over P-384 -/

abbrev ecP : Nat := 2 ^ 384 - 2 ^ 128 - 2 ^ 96 + 2 ^ 32 - 1
abbrev ecN : Nat :=
  0xFFFFFFFFFFFFFFFFFFFFFFFFFFFFFFFFFFFFFFFFFFFFFFFFC7634D81F4372DDF581A0DB248B0A77AECEC196ACCC52973
abbrev ecB : Nat :=
  0xB3312FA7E23EE7E4988E056BE3F82D19181D9C6EFE8141120314088F5013875AC656398D8A2ED19D2A85C8EDD3EC2AEF
abbrev ecGx : Nat :=
  0xAA87CA22BE8B05378EB1C71EF320AD746E1D3B628BA79B9859F741E082542A385502F25DBF55296C3A545E3872760AB7
abbrev ecGy : Nat :=
  0x3617DE4A96262C6F5D9E98BF9292DC29F8F41DBD289A147CE9DA3113B5F0B8C00A60B1CE1D7E819D7A431D7C90EA0E5F

/-- b^e mod m by its low `n` bits. -/
def powMod : Nat → Nat → Nat → Nat → Nat
  | 0, _, _, _ => 1
  | n + 1, b, e, m =>
    let r := powMod n (b * b % m) (e / 2) m
    if e % 2 = 1 then r * b % m else r

/-- The inverse modulo a prime. -/
def invMod (a m : Nat) : Nat := powMod 384 (a % m) (m - 2) m

/-- Points of the curve; `none` is the point at infinity. -/
abbrev EcPoint := Option (Nat × Nat)

def ecAdd : EcPoint → EcPoint → EcPoint
  | none, q => q
  | p, none => p
  | some (x1, y1), some (x2, y2) =>
    if x1 = x2 ∧ (y1 + y2) % ecP = 0 then none
    else
      let l := if x1 = x2 then 3 * (x1 * x1 + ecP - 1) * invMod (2 * y1) ecP % ecP
        else (y2 + ecP - y1) * invMod (x2 + ecP - x1) ecP % ecP
      let x3 := (l * l + 2 * ecP - x1 - x2) % ecP
      some (x3, (l * (x1 + ecP - x3) + ecP - y1) % ecP)

/-- k · P by the low `n` bits of k. -/
def ecMul : Nat → Nat → EcPoint → EcPoint
  | 0, _, _ => none
  | n + 1, k, p =>
    let r := ecMul n (k / 2) (ecAdd p p)
    if k % 2 = 1 then ecAdd r p else r

/-- A point of the curve other than infinity. -/
def ecOn (x y : Nat) : Bool :=
  decide (x < ecP) && decide (y < ecP)
    && decide (y * y % ecP = (x * x * x + (ecP - 3) * x + ecB) % ecP)

/-- An ECDSA signature r, s over a 48-byte digest verifies under the key (x, y). -/
def ecdsaOk (digest : List Byte) (x y r s : Nat) : Bool :=
  decide (1 ≤ r) && decide (r < ecN) && decide (1 ≤ s) && decide (s < ecN) && ecOn x y
    && (let w := invMod s ecN
        let z := beNat digest
        match ecAdd (ecMul 384 (z * w % ecN) (some (ecGx, ecGy))) (ecMul 384 (r * w % ecN) (some (x, y))) with
        | none => false
        | some (vx, _) => decide (vx % ecN = r))

/-! ### Cyclic redundancy checks -/

/-- `f n`, with `n` computed first: the kernel then works through a long checksum without nesting. -/
def withValue (n : Nat) (f : Nat → Nat) : Nat :=
  match n with
  | 0 => f 0
  | k + 1 => f (k + 1)

/-- CRC-32C, reflected, with initial value and final inversion of all ones (the Castagnoli code). -/
def crc32cBits : Nat → Nat → Nat
  | 0, c => c
  | n + 1, c => withValue (if c % 2 = 1 then c / 2 ^^^ 0x82F63B78 else c / 2) fun d => crc32cBits n d
def crc32c (l : List Byte) : Nat :=
  (l.foldl (fun c b => crc32cBits 8 (c ^^^ b.toNat)) 0xFFFFFFFF) ^^^ 0xFFFFFFFF

/-- CRC-64 with the ECMA-182 polynomial, initial value all ones, unreflected (18 R435). -/
def crc64Bits : Nat → Nat → Nat
  | 0, c => c
  | n + 1, c =>
    withValue (if c.testBit 63 then (c * 2 % w64) ^^^ 0x42F0E1EBA9EA3693 else c * 2) fun d => crc64Bits n d
def crc64 (l : List Byte) : Nat := l.foldl (fun c b => crc64Bits 8 (c ^^^ b.toNat <<< 56)) (w64 - 1)

end Sys2Proof.Machine
end

