-- ==== Sys2Proof/Machine/Images.lean ====
section
/-! DEFINITION. Leaving the prefix index and releasing a model image (04 R81; 10 R209, R214, R232;
16 R381, R382; 22 R549). -/

namespace Sys2Proof.Machine

/-- Nodes and leaves leave the index: each record loses one referrer, and pages at zero are freed
(10 R232). -/
def State.removeNodes (s : State) (f : Node → Bool) : State :=
  let gone := s.paging.nodes.filter f
  let s1 := { s with paging := { s.paging with nodes := s.paging.nodes.filter fun n => !f n } }
  let s2 := gone.foldl (fun t n => n.recs.foldl State.unref t) s1
  (gone.foldl (fun t n => t.dropRecBlock n.block) s2).dropKeys

/-! ### Panel groups -/

/-- The hidden part of panel group `g`, and of panel `q` (die × 2,048 + panel of the die, which is
32 × group + place). -/
def State.group (s : State) (g : Nat) : Group := SMap.get (fun _ => {}) s.cnv.groups g
def State.setGroup (s : State) (g : Nat) (x : Group) : State :=
  { s with cnv := { s.cnv with groups := SMap.set (fun _ => {}) s.cnv.groups g x } }
def State.panel (s : State) (q : Nat) : Panel := SMap.get (fun _ => {}) s.cnv.panels q
def State.setPanel (s : State) (q : Nat) (x : Panel) : State :=
  { s with cnv := { s.cnv with panels := SMap.set (fun _ => {}) s.cnv.panels q x } }

/-- The panels of a group. -/
def groupPanels (g : Nat) : List Nat := (List.range 32).map fun q => 32 * g + q

/-- A panel's copy is deleted (16 R381), and programming of it stops. -/
def State.clearPanelWork (s : State) (q : Nat) : State :=
  let x := s.panel q
  let s1 := match x.copy with
    | some a => s.dropBlock a
    | none => s
  s1.setPanel q { x with copy := none, image := none, batch := none, sparing := [], dev := [], owed := false, refreshDue := false, refreshing := false }

/-- A group no longer holds weights of a loaded model: it is unprogrammed, and its tag stays
(16 R382, 22 R549). -/
def State.unbindGroup (s : State) (g : Nat) : State :=
  let x := s.group g
  let s1 := s.setGroup g { x with model := none, due := false }
  let s2 := s1.setBit (Key.cpgStat g) 30 false
  (groupPanels g).foldl State.clearPanelWork s2

/-- The cells of a group erased: every level 0, no factors, no deviations; the group's tag is cleared.
Spare maps and program cycles stay (16 R382, R390; 22 R549). -/
def State.eraseGroup (s : State) (g : Nat) : State :=
  let s1 := s.unbindGroup g
  let s2 := s1.setGroup g { s1.group g with tag := {}, fG := 0x4000 }
  (groupPanels g).foldl (fun t q => t.setPanel q { t.panel q with cells := [], factors := [], dev := [] }) s2

/-- First byte of SRAM bank `i` of the package (08 Table 8.2, 11 R237). -/
def bankBase (i : Nat) : Nat := 0x40000000000 + i / 48 * 0x6000000 + i % 48 * 0x200000

/-- A bank's bytes zeroed (06 R121). -/
def State.zeroBank (s : State) (i : Nat) : State :=
  { s with mem := { s.mem with bytes := SMap.clearRange s.mem.bytes (bankBase i) 0x200000 } }

/-- Weight groups of a partition's image that is released. -/
def State.unbindGroups (s : State) (m : Model) : State :=
  m.groups.foldl (fun t b => t.unbindGroup b.phys) s

/-! ### Releasing an image -/

/-- The UNLOAD_MODEL descriptors that wait for a handle complete OK (04 R81). -/
def State.unloadsDone (s : State) (p handle : Nat) : State :=
  (s.descs.filter fun d => decide (d.part = p) && decide (d.kind = .unload handle) && !d.ended).foldl
    (fun t d => t.complete p d.num (completion d.tag d.sq stOk 0 0 0 0)) s

/-- An image's frames, plans and groups are given back, and its record goes. The UNLOAD_MODELs that
wait for it complete OK. -/
def State.releaseImage (s : State) (m : Model) : State :=
  let s1 := m.frames.foldl (fun t f => t.freeScrub f.1) s
  let s2 := s1.unbindGroups m
  let s3 := { s2 with
    fab := { s2.fab with
      plans := s2.fab.plans.filter fun b => !(decide (b.part = m.part) && decide (b.handle = m.handle))
      waiting := s2.fab.waiting.filter fun x => !(decide (x.2.1 = m.part) && decide (x.2.2.2.1 = m.handle)) }
    cnv := { s2.cnv with
      jobs := s2.cnv.jobs.filter fun j => !(decide (j.part = m.part) && decide (j.handle = m.handle))
      waiting := s2.cnv.waiting.filter fun x => !(decide (x.2.1 = m.part) && decide (x.2.2.2.1 = m.handle)) }
    models := s2.models.filter fun x => !(decide (x.part = m.part) && decide (x.handle = m.handle)) }
  (s3.unloadsDone m.part m.handle).kvpUpdate

/-- A loaded image released by other means than UNLOAD_MODEL (04 R81, 08 R174, 22 R535): the live
requests naming it have ended already. -/
def State.releaseModel (s : State) (m : Model) : State := s.releaseImage m

/-- A LOAD_MODEL that fails: its frames are released, the groups it had begun are left unprogrammed,
and it completes with REFUSED_MODEL and handle 0 (16 R377, 22 R546). -/
def State.refuseLoad (s : State) (m : Model) (detail : Nat) : State :=
  let d := s.descs.find? fun d => decide (d.part = m.part) && decide (d.kind = .load m.handle) && !d.ended
  let s1 := s.releaseImage m
  match d with
  | some x => s1.complete m.part x.num (completion x.tag x.sq stRefusedModel detail 0 0 0)
  | none => s1

/-- A bank passes to a partition: it is cleared when it last held another's data (06 R115). -/
def State.claimBank (s : State) (p i : Nat) : State :=
  let s1 := if SMap.get (fun _ => 0) s.fab.lastUser i = p + 1 then s else s.zeroBank i
  { s1 with fab := { s1.fab with lastUser := SMap.set (fun _ => 0) s1.fab.lastUser i (p + 1) } }

/-- A bound plan has units that a sealed partition other than its own holds: they serve that partition only (06 R116). -/
def State.planLost (s : State) (b : BoundPlan) : Bool :=
  let gone := fun (t i : Nat) => match s.holder ⟨t, i, 0⟩ with
    | some q => decide (q ≠ b.part)
    | none => s.isSealed b.part
  b.yards.any (gone 1) || b.luffs.any (gone 2) || b.clews.any (gone 3) || b.banks.any (gone 5)

/-- Plans whose units were taken are unbound, unless macros of theirs are in flight still (06 R116, 12 R281). -/
def State.dropLostPlans (s : State) : State :=
  let busy := fun (b : BoundPlan) => s.fab.flight.any fun m => s.fab.walks.any fun w =>
    decide (m.spar = w.spar) && decide (m.walk = w.id) && decide (w.part = b.part) && decide (w.handle = b.handle)
      && decide (w.plan = b.plan) && decide (w.spar = b.spar)
  { s with fab := { s.fab with plans := s.fab.plans.filter fun b => !s.planLost b || busy b } }

end Sys2Proof.Machine
end

