-- ==== Sys2Proof/Machine/Memory.lean ====
section
/-! DEFINITION. The memory tiers and the page migration engine (08 R154 to R178), pins, commits and
drops (09 R193, R202; 10 R221 to R225). -/

namespace Sys2Proof.Machine

open Host

/-! ### Lines that fail (R173, R177) -/

/-- The registers of unit `u`'s page by offset. -/
def unitReg (u off : Nat) : Nat := regKey (unitPage u) off

/-- The error registers of a unit name the latest error. -/
def State.errDpa (s : State) (u a : Nat) : State :=
  (s.setReg (unitReg u 0x10C) (BitVec.ofNat 32 a)).setReg (unitReg u 0x110)
    (BitVec.ofNat 32 (a / 2 ^ 32 % 1024))

/-- 24 hours in ticks. -/
abbrev dayTicks : Nat := 8640000000000

/-- A corrected line: it is counted, the latest error is named, and it is kept for 24 hours (R157, R159, R177). -/
def State.lineCe (s : State) (a : Nat) : State :=
  match unitOf a with
  | some u =>
    let s1 := (s.inc (unitReg u 0x104)).errDpa u a
    let ce := s1.mem.ce.filter fun e => decide (s1.tick < e.2 + dayTicks)
    { s1 with mem := { s1.mem with ce := ce ++ [(a / 64, s1.tick)] } }
  | none => s

/-- A read of `[a, a + n)`: every line of it with a corrupted symbol is corrected inline and counted (R157, 24 R598). -/
def State.readMarred (s : State) (a n : Nat) : State :=
  let hit := s.rel.marred.filter (lineIn a n)
  if hit = [] then s
  else hit.foldl (fun t l => t.lineCe (64 * l))
    { s with rel := { s.rel with marred := s.rel.marred.filter fun x => decide (x ∉ hit) } }

/-- Reads of some ranges. -/
def State.readRanges (s : State) (rs : List (Nat × Nat)) : State := rs.foldl (fun t r => t.readMarred r.1 r.2) s

/-- An uncorrectable line: UE latches on the unit's page, it is counted, and the frame is retired
(R173). -/
def State.lineUe (s : State) (a : Nat) : State :=
  match unitOf a with
  | some u =>
    (((s.inc (unitReg u 0x108)).errDpa u a).latch (unitPage u) 0 (a / 64)).retireFrame (a / 4096) u
  | none => s

/-- The status and detail of a request that consumes a poisoned line (R173). -/
def ueStatus (a : Nat) : Nat × Nat :=
  (stFaultMemory, match frameTier (a / 4096) with
    | .near => 0x02
    | .far => 0x03)

/-- An uncorrectable line met by work of a request: the request that consumes it completes. -/
def State.lineUeFor (s : State) (a p : Nat) (tag : BitVec 64) : State :=
  (s.lineUe a).failTag p tag (ueStatus a).1 (ueStatus a).2

/-! ### Entries (R202, 10 R210) -/

/-- The sequence shard whose page-table block holds an entry. -/
def State.shardOfEntry (s : State) (a : Nat) : Option Shard :=
  s.paging.shards.find? fun h => decide (h.pt ≤ a) && decide (a < h.pt + 0x8000)

/-- The authoritative entry of an entry: the splice record when it is shared (10 R210). -/
def State.auth (s : State) (a : Nat) : Nat :=
  if (s.pte a).shared then
    match s.shardOfEntry a with
    | some h => match h.splices.find? fun x => decide (h.entryAt x.1 = a) with
      | some x => x.2
      | none => a
    | none => a
  else a

/-- The entry describes the last page of a sequence shard, or the page of a leaf (R185). -/
def State.lastEntry (s : State) (a : Nat) : Bool :=
  (s.paging.shards.any fun h => decide (0 < h.len)
    && (decide (h.entryAt ((h.len - 1) / 256) = a) || h.splices.any fun x => decide (x.2 = a) && decide (x.1 = (h.len - 1) / 256)))
  || s.paging.nodes.any fun n => decide (n.tokens.length < 256) && decide (a ∈ n.recs)

/-- The requests that use an entry's sequence shard complete with FAULT_MEMORY 0x05 (R202). -/
def State.failEntry (s : State) (a : Nat) : State :=
  s.failShards (fun h => (decide (h.pt ≤ a) && decide (a < h.pt + 0x10000))
    || h.splices.any fun x => decide (x.2 = a)) stFaultMemory 0x05

/-- An entry that is not well-formed was read: PTE_BAD latches (R202). -/
def State.pteBad (s : State) (a : Nat) : State := (s.latch pgKvp 1 (a / 64)).failEntry a

/-- An uncorrectable line of a page-table block was read: PT_UE latches (R202). -/
def State.ptUe (s : State) (a : Nat) : State := ((s.lineUe a).latch pgKvp 0 (a / 64)).failEntry a

/-- An uncorrectable line in an index node: that node and everything below it leave the index, IDX_UE
latches, and every live request that splices through a removed record ends (R231). -/
def State.nodeBelow (s : State) (root : Node) : Nat → Node → Bool
  | 0, _ => false
  | fuel + 1, n =>
    decide (n = root) || (match n.parent with
      | none => false
      | some h => s.paging.nodes.any fun x =>
          decide (x.scope = n.scope) && decide (x.hash = h) && decide (x.tokens.length = 256)
            && s.nodeBelow root fuel x)

def State.indexUe (s : State) (a : Nat) (tag : BitVec 64) : State :=
  match s.paging.nodes.find? fun n => decide (n.block ≤ a) && decide (a < n.block + 0x10000) with
  | none => s
  | some root =>
    let below := s.nodeBelow root 70000
    let recs := (s.paging.nodes.filter below).flatMap fun n => n.recs
    let s1 := ((s.lineUe a).latch pgRfe 0 (tag.toNat % 2 ^ 27)).removeNodes below
    s1.failShards (fun h => h.splices.any fun x => decide (x.2 ∈ recs)) stFaultMemory 0x05

/-- An uncorrectable line `l` was read for the entry `a` of the page that a sequence's entry `own` names: a line of an index node
takes the node away (10 R231), one of a page-table block latches PT_UE (R202). -/
def State.entryUe (s : State) (own l : Nat) : State :=
  if s.paging.nodes.any fun n => decide (n.block ≤ l) && decide (l < n.block + 0x10000) then
    s.indexUe l (match s.shardOfEntry own with
      | some h => h.tag
      | none => 0)
  else s.ptUe l

/-- What a reader of an entry meets first: an uncorrectable line, or an entry that is not well-formed (R202). `none`: it can be
used. -/
def State.entryBad (s : State) (own : Nat) : Option State :=
  let a := s.auth own
  match s.poisoned own 16, s.poisoned a 16 with
  | some l, _ => some (s.entryUe own l)
  | none, some l => some (s.entryUe own l)
  | none, none => if (s.pte a).present && !(s.pte a).wellFormed (s.lastEntry a) then some (s.pteBad a) else none

/-- A reader's pin of an entry must wait: the pin count is at its limit, or a commit or drop has waited for the pin hold (R193,
10 R225). -/
def State.pinWaits (s : State) (own : Nat) : Bool :=
  let a := s.auth own
  (s.pte a).present && (decide ((s.pte a).pins = 255) || s.paging.pending.any fun x => decide (x.entry = a) && x.barred)

/-! ### Bursts (R166 to R170) -/

/-- The use of frames that a burst reserves, and the partition under which it takes them. -/
def burstUse (p : Nat) : Use := if p < 128 then .burst p else .index none
def burstPool (s : State) (p : Nat) : PoolId := if p < 128 then s.poolOf p else .unreserved

/-- Destination frames for every move of a burst, all of them or none (R167). -/
def State.reserveMoves (s : State) (b : Burst) : List Move → Option (List Move × State)
  | [] => some ([], s)
  | m :: rest =>
    if m.live then
      match s.takeIn (burstPool s b.part) b.dest.tier b.units (burstUse b.part) (s.frameKey m.src) with
      | none => none
      | some (f, s1) =>
        match s1.reserveMoves b rest with
        | none => none
        | some (ms, s2) => some ({ m with dst := f } :: ms, s2)
    else
      match s.reserveMoves b rest with
      | none => none
      | some (ms, s2) => some (m :: ms, s2)

/-- The destination DPAs written where the descriptor asks (Table 8.3). -/
def State.writeDst (s : State) (b : Burst) : State :=
  let ds := b.moves.map fun m => m.dst * 4096
  if b.dstList = 0 then s
  else match b.home with
    | .ring _ => s.emit (.dstList b.dstList ds)
    | _ => s.wr b.dstList (ds.flatMap fun d => leBytes d 8)

/-- A burst issued, if a place in flight and every destination frame is there. -/
def State.tryIssue (s : State) (b : Burst) : Option State :=
  match s.reserveMoves b b.moves with
  | none => none
  | some (ms, s1) =>
    let b' := { b with moves := ms }
    some ({ s1 with paging := { s1.paging with flight := s1.paging.flight ++ [b'] } }.writeDst b')

/-- A burst whose turn it is: it is deferred when frames are short or an earlier burst waits for the same pool, and issued
otherwise (R167). -/
def State.placeBurst (s : State) (b : Burst) : State :=
  let defer : State := { s.inc Key.pmgDeferCnt with paging := { s.paging with deferred := s.paging.deferred ++ [b] } }
  if s.paging.deferred.any (fun x => decide (x.dest = b.dest)) then defer
  else match s.tryIssue b with
    | some t => t
    | none => defer

/-- A burst submitted (R167, R169): it completes with NO_QUOTA if it can never fit, and waits behind earlier ones while 16 are in
flight. -/
def State.submitBurst (s : State) (b : Burst) : State :=
  let need := b.moves.length * b.units
  if b.part < 128 ∧ s.quota b.part b.dest.tier < need then s.endBurst b.home b.tag 3 0
  else if s.paging.waiting ≠ [] ∨ 16 ≤ s.paging.flight.length then
    { s with paging := { s.paging with waiting := s.paging.waiting ++ [b] } }
  else s.placeBurst b

/-- Waiting bursts take their turn while places are free. -/
def State.issueWaiting (s : State) : Nat → State
  | 0 => s
  | n + 1 =>
    match s.paging.waiting with
    | [] => s
    | b :: rest =>
      if 16 ≤ s.paging.flight.length then s
      else ({ s with paging := { s.paging with waiting := rest } }.placeBurst b).issueWaiting n

/-- A deferred queue examined from its head; it stops at the first burst that does not fit (R167). -/
def State.recheck (s : State) (dest : PoolTier) : Nat → State
  | 0 => s
  | n + 1 =>
    match s.paging.deferred.find? fun b => decide (b.dest = dest) with
    | none => s
    | some b =>
      if 16 ≤ s.paging.flight.length then s
      else match s.tryIssue b with
        | none => s
        | some t =>
          ({ t with paging := { t.paging with deferred := t.paging.deferred.erase b } }).recheck dest n

/-! ### Commits and drops (R168, 10 R221 to R225) -/

/-- The frames of a page copied. -/
def State.copyPage (s : State) (src dst units : Nat) : State :=
  let n := units * 4096
  let keep := (SMap.clearRange s.mem.bytes (dst * 4096) n)
  let moved := (s.mem.bytes.filter fun e => decide (src * 4096 ≤ e.1) && decide (e.1 < src * 4096 + n)).map
    fun e => (e.1 - src * 4096 + dst * 4096, e.2)
  { s with mem := { s.mem with
    bytes := moved.foldl (fun m e => SMap.set (fun _ => 0) m e.1 e.2) keep
    written := (List.range units).foldl (fun m i => SMap.set (fun _ => false) m (dst + i) true) s.mem.written } }

/-- The move of an entry committed: tier, frame and generation change in one write, the destination frames take the page's use and
keep its key pair, and the source frames enter the backlog (R168). A page in the far tier has its far copy (09 R184). -/
def State.commitMove (s : State) (b : Burst) (m : Move) : State :=
  let (use, key) := match s.extentAt m.src with
    | some e => (e.use, e.key)
    | none => (burstUse b.part, b.key)
  let s1 := (s.reuse m.dst use key).freeScrub m.src
  let s2 := match m.entry with
    | some a =>
      let e := s1.pte a
      s1.setPte a { e.withFirst m.dst with gen := (e.gen + 1) % 256, dirty := e.dirty && decide (frameTier m.dst = .near) }
    | none => s1
  if b.home ≠ .own then s2
  else if b.op = 1 then s2.inc Key.rfePromoteCnt
  else if b.op = 2 then s2.inc Key.rfeDemoteCnt else s2

/-- The state of move `i` of burst `tag` changed. -/
def State.setMove (s : State) (tag : BitVec 64) (i : Nat) (st : MoveState) (err : Bool) : State :=
  let fl := s.paging.flight.map fun b => if b.tag = tag then
    { b with moves := b.moves.modify i fun m => { m with st := st }, memErr := b.memErr || err } else b
  { s with paging := { s.paging with flight := fl } }

/-- The engine's pin for move `i` of burst `tag` waits (09 R193). -/
def State.askMove (s : State) (tag : BitVec 64) (i : Nat) : State :=
  let fl := s.paging.flight.map fun b => if b.tag = tag then
    { b with moves := b.moves.modify i fun m => { m with asked := true } } else b
  { s with paging := { s.paging with flight := fl } }

/-- A page dropped: present clears with valid unchanged, the frames enter the backlog, and each
request that loses the page carries approx (10 R221). -/
def State.performDrop (s : State) (a : Nat) : State :=
  let e := s.pte a
  let tags := (s.paging.shards.filter fun h => (decide (h.pt ≤ a) && decide (a < h.pt + 0x8000))
    || h.splices.any fun x => decide (x.2 = a)).map fun h => (h.part, h.tag)
  let s1 := (s.freePage a).setPte a { e with present := false, pins := 0, pinned := false }
  let s2 := tags.foldl (fun t x => match t.req x.1 x.2 with
    | some r => t.setReq { r with approx := true }
    | none => t) s1
  (s2.inc Key.rfeDropCnt).dropKeys

/-- The commit that an entry waits for, as burst tag and place in it. -/
def State.copiedMove (s : State) (a : Nat) : Option (Burst × Nat × Move) :=
  s.paging.flight.findSome? fun b =>
    (b.moves.zipIdx.find? fun m => decide (m.1.entry = some a) && decide (m.1.st = .copied)).map
      fun m => (b, m.2, m.1)

/-- A page that nothing refers to is freed (10 R232). -/
def State.freeLoose (s : State) (a : Nat) : State :=
  let e := s.pte a
  ((s.freePage a).setPte a { e with present := false, pins := 0, pinned := false, refcount := 0 }).dropRecBlock (a / 0x10000 * 0x10000)
    |>.dropKeys

/-- A pin of an entry is among the commands that wait: they reach it in the same tick, and pins go first (10 R223). -/
def State.pinAhead (s : State) (a : Nat) : Bool :=
  s.pending.any fun c => match c with
    | .pin e _ => decide (s.auth e = a)
    | _ => false

/-- What waits on an entry is performed if its pin count is zero and no pin goes first (10 R223, R224). -/
def State.performPending (s : State) (a : Nat) : State :=
  if (s.pte a).pins ≠ 0 ∨ s.pinAhead a = true then s
  else match s.paging.pending.find? fun x => decide (x.entry = a) with
    | none => s
    | some x =>
      let s1 := { s with paging := { s.paging with
        pending := s.paging.pending.filter fun y => decide (y.entry ≠ a) } }
      if x.loose then s1.freeLoose a
      else if x.drop then s1.performDrop a
      else match s1.copiedMove a with
        | some (b, i, m) => ((s1.commitMove b m).setMove b.tag i .committed false).finishBursts
        | none => s1

/-- A commit or drop begins to wait on an entry, or is performed at once. -/
def State.pend (s : State) (a : Nat) (drop : Bool) : State :=
  ({ s with paging := { s.paging with
    pending := s.paging.pending ++ [({ entry := a, drop := drop, since := s.tick } : Pending)] } }).performPending a

/-! ### Pins (09 R193, 10 R223) -/

/-- The pin of a reader that waits is tried: GRANT, REDIRECT, DROPPED, or a further wait. `fresh` is
a pin that arrives now. -/
def State.tryPin (s : State) (entry : Nat) (gen : Byte) (fresh : Bool) : State :=
  let a := s.auth entry
  let e := s.pte a
  let g := BitVec.ofNat 8 e.gen
  let tier := if e.far then 1 else 0
  let barred := s.paging.pending.any fun x => decide (x.entry = a) && x.barred
  match s.entryBad entry with
  | some t => t
  | none =>
  if e.present = false then s.emit (.pin 2 0 0 0 0)
  else if barred ∨ (e.pins = 255 ∧ (gen = 0 ∨ gen = g)) then
    let s1 := if fresh then s.inc Key.kvpPinWaitCnt else s
    { s1 with paging := { s1.paging with pinWait := s1.paging.pinWait ++ [⟨entry, gen⟩] } }
  else if gen ≠ 0 ∧ gen ≠ g then
    (s.emit (.pin 1 tier e.frame e.valid g)).inc Key.rfeRedirectCnt
  else (s.setPte a (e.withPins (e.pins + 1))).emit (.pin 0 tier e.frame e.valid g)

/-- The waiting pins of an entry are tried in the order in which they came. -/
def State.wakePins (s : State) (a : Nat) : State :=
  let mine := s.paging.pinWait.filter fun x => decide (s.auth x.entry = a)
  let s1 := { s with paging := { s.paging with
    pinWait := s.paging.pinWait.filter fun x => decide (s.auth x.entry ≠ a) } }
  mine.foldl (fun t x => t.tryPin x.entry x.gen false) s1

/-! ### The commands of the migration engine -/

/-- A descriptor of Table 8.3. -/
structure PmgDesc where
  op : Nat
  count : Nat
  units : Nat
  part : Nat
  key : Nat
  tag : BitVec 64
  src : Nat
  dst : Nat
  ptes : Nat
  deriving DecidableEq, Repr

def pmgDesc (d : BitVec 512) : PmgDesc where
  op := bitsOf d.toNat 7 0
  count := bitsOf d.toNat 15 8
  units := bitsOf d.toNat 23 16
  part := bitsOf d.toNat 31 24
  key := bitsOf d.toNat 47 32
  tag := BitVec.ofNat 64 (bitsOf d.toNat 127 64)
  src := bitsOf d.toNat 191 128
  dst := bitsOf d.toNat 255 192
  ptes := bitsOf d.toNat 319 256

/-- The descriptor breaks no range of Table 8.3, names frames of its partition only, in the source
tier of its op, and sets no pte_list on the host ring (R169). -/
def State.pmgOk (s : State) (x : PmgDesc) (src : List Nat) (host : Bool) : Bool :=
  decide (1 ≤ x.op) && decide (x.op ≤ 3) && decide (1 ≤ x.count) && decide (x.count ≤ 64)
    && decide (4 ≤ x.units) && decide (x.units ≤ 128) && decide (x.part < 128) && decide (x.key < 2048)
    && decide (src.length = x.count) && !(host && decide (x.ptes ≠ 0))
    && src.all fun a => decide (a % 4096 = 0) && (match s.extentAt (a / 4096) with
      | some e => decide (e.use.payer = some x.part) && decide (e.len = x.units)
      | none => false)
      && (decide (x.op = 3) || decide (frameTier (a / 4096) = if x.op = 1 then .far else .near))

/-- The destination tier of an op. -/
def pmgDest (x : PmgDesc) (src : List Nat) : Tier :=
  if x.op = 1 then .near else if x.op = 2 then .far else frameTier (src.headD 0 / 4096)

/-- The burst that a descriptor asks for. -/
def State.pmgBurst (s : State) (x : PmgDesc) (src : List Nat) (home : BurstHome) : Burst :=
  let entry := fun (i : Nat) => if x.ptes = 0 then none else some (s.rdNat (x.ptes + 8 * i) 8)
  { op := x.op, part := x.part, key := x.key, tag := x.tag, units := x.units
    moves := src.zipIdx.map fun a => { src := a.1 / 4096, dst := 0, entry := entry a.2 }
    dest := ⟨s.poolOf x.part, pmgDest x src⟩, home := home, dstList := x.dst }

/-- A burst submitted by its descriptor, or BAD_DESC. -/
def State.pmgSubmit (s : State) (d : BitVec 512) (src : List Nat) (home : BurstHome) : State :=
  let x := pmgDesc d
  if s.pmgOk x src (match home with
    | .ring _ => true
    | _ => false) then s.submitBurst (s.pmgBurst x src home)
  else s.endBurst home x.tag 4 0

/-- A slot of the host ring is fetched: the ring is enabled and not empty (R178). -/
def State.pmgRingReady (s : State) : Bool :=
  s.bit Key.pmgHrCfg 31 && decide (s.fld Key.pmgHrHead 9 0 ≠ s.fld Key.pmgHrTail 9 0)

/-- A descriptor whose op is no op at all may stand under any of the three commands: it is refused with BAD_DESC. -/
def opMatches (op : Nat) (d : BitVec 512) : Bool :=
  let o := (pmgDesc d).op
  decide (o = op) || decide (o = 0) || decide (3 < o)

/-- A burst of the host ring (R178): the slot at the head and the source list are read from host memory, and the head advances. A
failed read latches HR_FETCH; the spec says no more of it, and the slot stays at the head (DESIGN CHOICE). -/
def State.pmgRing (s : State) (op : Nat) (d : HostRead (BitVec 512)) (list : HostRead (List (BitVec 64))) : State :=
  let head := s.fld Key.pmgHrHead 9 0
  let addr := s.slotAddr Key.pmgHrBaseLo Key.pmgHrBaseHi 64 head
  let s1 := s.emit (.hostRead 0 addr 64)
  match d with
  | none => s1.latch pgPmg 1 0
  | some x =>
    if opMatches op x = false then s
    else
      let s2 := s1.emit (.hostRead 0 (BitVec.ofNat 64 (pmgDesc x).src) (8 * (pmgDesc x).count))
      match list with
      | none => s2.latch pgPmg 1 0
      | some l =>
        let depth := 2 ^ s.fld Key.pmgHrCfg 15 12
        (s2.setFld Key.pmgHrHead 9 0 ((head + 1) % depth)).pmgSubmit x (l.map BitVec.toNat) (.ring addr)

/-- A burst command: of the host ring while a slot waits there, or by a descriptor that an internal client laid in the device
region, with its source list in memory (R166). -/
def State.pmgCommand (s : State) (op : Nat) (d : HostRead (BitVec 512)) (list : HostRead (List (BitVec 64))) : BurstSrc → State
  | .ring => if s.pmgRingReady then s.pmgRing op d list else s
  | .device a =>
    let own : BitVec 512 := BitVec.ofNat 512 (s.rdNat a.toNat 64)
    let x := pmgDesc own
    if inDevice a.toNat = true ∧ opMatches op own = true then
      s.pmgSubmit own ((List.range x.count).map fun i => s.rdNat (x.src + 8 * i) 8) (.device a.toNat)
    else s

/-- PROMOTE (R167). -/
def execPromote (src : BurstSrc) (d : HostRead (BitVec 512)) (list : HostRead (List (BitVec 64))) (s : State) :
    Outcome State Fault Refusal :=
  .next (s.pmgCommand 1 d list src).kvpUpdate

/-- DEMOTE (R167). -/
def execDemote (src : BurstSrc) (d : HostRead (BitVec 512)) (list : HostRead (List (BitVec 64))) (s : State) :
    Outcome State Fault Refusal :=
  .next (s.pmgCommand 2 d list src).kvpUpdate

/-- COPY (R167). -/
def execCopy (src : BurstSrc) (d : HostRead (BitVec 512)) (list : HostRead (List (BitVec 64))) (s : State) : Outcome State Fault Refusal :=
  .next (s.pmgCommand 3 d list src).kvpUpdate

/-- BURST_RECHECK (R167, R171): the deferred queue of one destination pool, from its head. Frames freed in the tick of a check count
at the next. -/
def execBurstRecheck (pool : PoolId) (t : Tier) (s : State) : Outcome State Fault Refusal :=
  let s1 := ((s.hideFresh 1).recheck ⟨pool, t⟩ s.paging.deferred.length).showFresh 1
  .next (s1.issueWaiting s1.paging.waiting.length).kvpUpdate

/-- Two stretches of `n` frames meet. -/
def framesMeet (n a b : Nat) : Bool := decide (a < b + n) && decide (b < a + n)

/-- A burst issued earlier has a page to move whose frames meet those of a move: bursts that overlap are performed in issue order
(R169). -/
def State.moveHeld (s : State) (b : Burst) (m : Move) : Bool :=
  (s.paging.flight.takeWhile fun x => decide (x ≠ b)).any fun x => x.moves.any fun y =>
    y.live && [y.src, y.dst].any fun f => [m.src, m.dst].any fun g => framesMeet (max x.units b.units) f g

/-- PAGE_COMMIT (R168, R173): page `i` of a burst is pinned, copied and unpinned (09 R193); its commit waits until the
pin count is zero. An uncorrectable line aborts the move, and COPY_UE latches. -/
def execPageCommit (tag : BitVec 64) (i : Nat) (ue : Bool) (s : State) : Outcome State Fault Refusal :=
  .next (match s.paging.flight.find? fun b => decide (b.tag = tag) with
    | none => s
    | some b =>
      match b.moves[i]? with
      | none => s
      | some m =>
        if m.st ≠ .copying ∨ (⟨utMigration, 0, 0⟩ : UnitId) ∈ s.rel.out ∨ s.moveHeld b m = true then s
        else if (match m.entry with
            | some a => s.pinWaits a
            | none => false) then
          if m.asked then s else (s.askMove tag i).inc Key.kvpPinWaitCnt
        else
          let bad := match s.poisoned (4096 * m.src) (4096 * b.units) with
            | some l => some l
            | none => if ue then some (4096 * m.src) else none
          let s1 := match bad with
            | some l =>
              let t := ((s.lineUe l).latch pgPmg 0 0).setMove tag i .aborted true
              (t.freeScrub m.dst).finishBursts
            | none =>
              let t := (s.readMarred (4096 * m.src) (4096 * b.units)).copyPage m.src m.dst b.units
              match m.entry with
              | none => ((t.commitMove b m).setMove tag i .committed false).finishBursts
              | some a => (t.setMove tag i .copied false).pend a false
          (s1.issueWaiting s1.paging.waiting.length).kvpUpdate)

/-- A write of PMG_HR_TAIL, as a doorbell (R178, 04 R60): a value beyond the depth, or one that
overruns the ring, or any value while the ring is disabled, is ignored. -/
def State.writePmgHrTail (s : State) (m : Master) (v : Word) : State :=
  let x := getBits v 9 0
  let d := 2 ^ s.fld Key.pmgHrCfg 15 12
  let tail := s.fld Key.pmgHrTail 9 0
  let waiting := (tail + d - s.fld Key.pmgHrHead 9 0) % d
  if s.bit Key.pmgHrCfg 31 = false ∨ d ≤ x ∨ d - 1 < waiting + (x + d - tail) % d then s
  else s.store m pgPmg 0x11C v

/-- PMG_HR_TAIL. -/
def execPmgHrTail (m : Master) (be : BitVec 4) (v : Word) (s : State) : Outcome State Fault Refusal :=
  .next (s.gated m pgPmg 0x11C be v fun t => t.writePmgHrTail m v)

/-- A write of PMG_HR_CFG under the SQ rules (R178, 04 R80, R87): a size outside 4 to 10 leaves the
ring disabled; enabling sets head and tail to 0; other fields change only while it is disabled. -/
def State.writePmgHrCfg (s : State) (m : Master) (v : Word) : State :=
  let was := s.bit Key.pmgHrCfg 31
  let s1 := s.storeFields m pgPmg 0x118 v fun f => decide (f.lo = 31) || !was
  let now := s1.bit Key.pmgHrCfg 31
  if was = false ∧ now = true then
    let size := s1.fld Key.pmgHrCfg 15 12
    if size < 4 ∨ 10 < size then s1.setBit Key.pmgHrCfg 31 false
    else (s1.setFld Key.pmgHrHead 9 0 0).setFld Key.pmgHrTail 9 0 0
  else s1

/-- PMG_HR_ENABLE. -/
def execPmgHrEnable (m : Master) (be : BitVec 4) (v : Word) (s : State) : Outcome State Fault Refusal :=
  .next (s.gated m pgPmg 0x118 be v fun t => t.writePmgHrCfg m v)

/-! ### Pins as commands -/

/-- PIN (10 R223). A commit or drop that came before it in the tick is performed after it, if the pin was not granted. -/
def execPin (entry : Nat) (gen : Byte) (s : State) : Outcome State Fault Refusal :=
  .next ((s.tryPin entry gen true).performPending (s.auth entry)).kvpUpdate

/-- UNPIN (09 R193): the last unpin lets a waiting commit or drop be performed, and waiting pins are
tried. -/
def execUnpin (entry : Nat) (s : State) : Outcome State Fault Refusal :=
  let a := s.auth entry
  let e := s.pte a
  .next (if e.pins = 0 then s
    else ((s.setPte a (e.withPins (e.pins - 1))).performPending a).wakePins a)

/-- PAGE_DROP (10 R221): a drop that waits on an entry is performed when its pin count is zero. -/
def execPageDrop (entry : Nat) (s : State) : Outcome State Fault Refusal :=
  .next (if s.paging.pending.any fun x => decide (x.entry = entry) && x.drop then
    ((s.performPending entry).wakePins entry).kvpUpdate else s)

/-- Ticks of the pin hold (10 Table 10.3). -/
def State.pinHold (s : State) : Nat := 100 * max 1 (s.fld Key.rfePinHold 15 0)

/-- PIN_HOLD_EXPIRE (10 R225): once a commit or drop has waited for the pin hold, later pins wait. -/
def execPinHoldExpire (entry : Nat) (s : State) : Outcome State Fault Refusal :=
  let hold := s.pinHold
  let l := s.paging.pending.map fun x =>
    if x.entry = entry ∧ x.since + hold ≤ s.tick then { x with barred := true } else x
  .next { s with paging := { s.paging with pending := l } }

/-! ### Frames, patrol, refresh -/

/-- The entry that names a frame, if a page begins there. -/
def State.entryOf (s : State) (f : Nat) : Option Nat :=
  let mine := s.paging.shards.flatMap fun h => h.pages.map fun p => s.authAt h p
  (mine ++ s.paging.nodes.flatMap fun n => n.recs).find? fun a => (s.pte a).present && decide ((s.pte a).first = f)

/-- Corrected errors of a frame within 24 hours, oldest first: their lines (R159). -/
def State.frameErrors (s : State) (f : Nat) : List Nat :=
  (s.mem.ce.filter fun e => decide (e.1 / 64 = f) && decide (s.tick < e.2 + dayTicks)).map fun e => e.1

/-- An entry is in a live move of a burst, or waits for a commit or drop (R172, 10 R219). -/
def State.inMove (s : State) (a : Nat) : Bool :=
  (s.paging.pending.any fun x => decide (x.entry = a))
    || (s.paging.flight ++ s.paging.deferred ++ s.paging.waiting).any fun b =>
      b.moves.any fun m => m.live && decide (m.entry = some a)

/-- FRAME_RETIRE (R159): a frame that has recorded 16 corrected errors within 24 hours leaves use. The migration engine moves the page
that holds it to fresh frames of its tier, and the frame is retired and counted with the commit. A frame that holds no page of an
entry is retired when its holder releases it, and a free one at once (DESIGN CHOICE). A page in a move is left until that ends
(R172). -/
def execFrameRetire (frame : Nat) (s : State) : Outcome State Fault Refusal :=
  let lines := s.frameErrors frame
  let line := lines.getLastD 0
  .next (match unitOf (64 * line) with
    | none => s
    | some u =>
      if frame ∈ s.mem.retired ∨ inDevice (frame * 4096) = true ∨ lines.length < 16 ∨ (s.mem.retiring.any fun e => decide (e.1 = frame)) then s
      else
        let latched := s.latch (unitPage u) 1 line
        let later : State := { latched with mem := { latched.mem with retiring := latched.mem.retiring ++ [(frame, u)] } }
        match s.mem.used.find? fun e => decide (e.start ≤ frame) && decide (frame < e.start + e.len) with
        | none => (if (s.inScrub frame).isSome then later.retireLeft frame 1 else latched.retireFrame frame u).kvpUpdate
        | some e =>
          match s.entryOf e.start with
          | none => later
          | some a =>
            if s.inMove a then s
            else
              let part := match e.use.payer with
                | some p => p
                | none => 128
              let tag := BitVec.ofNat 64 (2 ^ 63 + s.paging.burstNo)
              let s2 := { later with paging := { later.paging with burstNo := later.paging.burstNo + 1 } }
              (s2.submitBurst {
                op := 3, part := part, key := e.key, tag := tag, units := e.len
                moves := [{ src := e.start, dst := 0, entry := some a }]
                dest := ⟨burstPool s2 part, frameTier frame⟩ }).kvpUpdate)

/-- The unit number of a stack or channel. -/
def memUnit (t : Tier) (u : BitVec 4) : Option Nat :=
  match t with
  | .near => if u.toNat < 8 then some u.toNat else none
  | .far => some (8 + u.toNat)

/-- PATROL (R158): a patrol pass of an online stack or channel completes; every line was read: marred ones are corrected, and
uncorrectable ones are handled as such (R173). -/
def execPatrol (t : Tier) (u : BitVec 4) (s : State) : Outcome State Fault Refusal :=
  .next (match memUnit t u with
    | some n =>
      if s.bit (unitReg n 0x100) 1 then
        let mine := fun (l : Nat) => decide (unitOf (64 * l) = some n)
        (s.mem.poison.filter mine).foldl (fun t l => t.lineUe (64 * l))
          ((s.rel.marred.filter mine).foldl (fun t l => t.readMarred (64 * l) 64) (s.inc (unitReg n 0x11C)))
      else s
    | none => s)

/-- The refresh interval in ticks at a temperature in 1/4 °C (R158): 3.9 µs for a stack up to 85 °C and half of it above; for a far
channel what its device asks for, which the spec does not state. -/
def refreshTicks (t : Tier) (temp : Int) : Nat :=
  match t with
  | .near => if 340 < temp then 195 else 390
  | .far => Config.farRefresh temp

/-- BANK_REFRESH (R158): banks are refreshed at the interval that the temperature readout asks for; the readout stands in STAT. -/
def execBankRefresh (t : Tier) (u : BitVec 4) (temp : Int) (s : State) : Outcome State Fault Refusal :=
  .next (match memUnit t u with
    | some n =>
      let s1 := { s with mem := { s.mem with refresh := SMap.set (fun _ => 390) s.mem.refresh n (refreshTicks t temp) } }
      s1.setFld (unitReg n 0x100) 31 16 (temp % 65536).toNat
    | none => s)

/-! ### Loss of a region or quad (R174, R175) -/

/-- The units of the region or quad of a unit, and a test for frames in it. -/
def siblings (n : Nat) : List Nat :=
  if n < 8 then [n / 2 * 2, n / 2 * 2 + 1] else (List.range 4).map fun i => (n - 8) / 4 * 4 + 8 + i
def inRegion (n f : Nat) : Bool :=
  if n < 8 then decide (nearBase (n / 2) / 4096 ≤ f) && decide (f < (nearBase (n / 2) + nearBytes) / 4096)
  else decide (farBase ((n - 8) / 4) / 4096 ≤ f) && decide (f < (farBase ((n - 8) / 4) + farBytes) / 4096)

/-- A sequence shard holds a page, a set-aside frame or its page table in a region. -/
def State.shardIn (s : State) (n : Nat) (h : Shard) : Bool :=
  inRegion n (h.pt / 4096) || (h.pages.any fun p =>
      let e := s.pte (s.authAt h p)
      e.present && inRegion n e.first)
    || h.holding.any (inRegion n) || h.mirrorHold.any (inRegion n)
    || (match h.reservation with
      | some f => inRegion n f
      | none => false)

/-- A region or quad leaves service: LOST latches; every live request holding a page there completes
with FAULT_MEMORY 0x04; models with data there are released with the requests that name them no
longer served; index nodes with a record there leave the index, and moves into it abort (R174). -/
def State.loseRegion (s : State) (n : Nat) : State :=
  if s.bit (unitReg n 0x100) 1 then
    let s1 := (siblings n).foldl (fun t k => t.setBit (unitReg k 0x100) 1 false) (s.latch (unitPage n) 3 0)
    let s2 := s1.failShards (s1.shardIn n) stFaultMemory 0x04
    let s3 := s2.removeNodes fun x => inRegion n (x.block / 4096)
      || x.recs.any fun a => (s2.pte a).present && inRegion n (s2.pte a).first
    let hit := s3.models.filter fun m => m.frames.any fun f => inRegion n f.1
    (hit.foldl (fun t m =>
      if m.st = .loading then t.refuseLoad m 0x01
      else (t.failAll (fun r => decide (r.part = m.part) && decide (r.d.model = m.handle)) stRefusedModel 0x01).releaseModel m)
      (s3.abortWhere (fun _ x => inRegion n x.dst) false)).kvpUpdate
  else s

/-- A unit fails in service: it is lost for good (27 R645), and its region or quad with it. -/
def State.failMemory (s : State) (n : Nat) : State :=
  let t : State := if n ∈ s.mem.lost then s else { s with mem := { s.mem with lost := s.mem.lost ++ [n] } }
  t.loseRegion n

/-- STACK_LOST (R174). -/
def execStackLost (t : Tier) (u : BitVec 4) (s : State) : Outcome State Fault Refusal :=
  .next (match memUnit t u with
    | some n => s.failMemory n
    | none => s)

/-- CIPHER_FAULT (R175). -/
def execCipherFault (t : Tier) (u : BitVec 4) (s : State) : Outcome State Fault Refusal :=
  .next (match memUnit t u with
    | some n => (s.latch (unitPage n) 4 0).failMemory n
    | none => s)

/-! ### Training (R176) -/

/-- Training of unit `n` ends (R176): its duration and the retry mark; a unit that failed twice latches TRAIN_FAIL. -/
def State.trainUnit (s : State) (n : Nat) (us : Word) (retried failed : Bool) : State :=
  let t := (s.setReg (unitReg n 0x118) us).setBit (unitReg n 0x100) 2 (retried || failed)
  if failed then (t.setBit (unitReg n 0x100) 0 false).latch (unitPage n) 2 0 else t.setBit (unitReg n 0x100) 0 true

/-- Units whose region or quad is whole come online: all of it trained, none of it lost in service (R174, R176). -/
def State.bringOnline (s : State) (ns : List Nat) : State :=
  ns.foldl (fun t n => t.setBit (unitReg n 0x100) 1
    ((siblings n).all fun k => s.bit (unitReg k 0x100) 0 && decide (k ∉ s.mem.lost))) s

/-- MEMORY_TRAINED (R176): every unit trained; a unit that was retried carries the mark, and one that
failed again leaves its region or quad out of service and latches TRAIN_FAIL. Every frame's
zero-fill bit is set and its key index is 2,047, so no data of a previous boot is readable. The event
comes about while memory is not trained and start-up has not completed. -/
def execMemoryTrained (retried failed : List (Tier × BitVec 4)) (us : List Word) (s : State) :
    Outcome State Fault Refusal :=
  let all := List.range 24
  let of := fun (l : List (Tier × BitVec 4)) => l.filterMap fun x => memUnit x.1 x.2
  .next (if s.ready ∨ s.mem.trained then s
    else
      let s1 := all.foldl (fun t n => t.trainUnit n (us.getD n 0) (decide (n ∈ of retried)) (decide (n ∈ of failed))) s
      let s2 := s1.bringOnline all
      { s2 with mem := { s2.mem with bytes := [], written := [], poison := [], trained := true } }.kvpUpdate)

/-- A store into a page whose copy is in progress aborts the page's move (R170). -/
def State.abortStored (s : State) (a n : Nat) : State :=
  let hits := s.paging.flight.flatMap fun b => (b.moves.filter fun m =>
    m.live && decide (m.src * 4096 < a + n) && decide (a < (m.src + b.units) * 4096)).map fun m => m.src
  hits.foldl State.abortMoves s

/-- An output written: it aborts the move of a page whose copy is in progress (R170). -/
def State.put (s : State) (a : Nat) (bytes : List Byte) : State := (s.abortStored a bytes.length).wr a bytes

end Sys2Proof.Machine
end

