-- ==== Sys2Proof/Machine/Kv.lean ====
section
/-! DEFINITION. The scatter step: opening pages, page scales, copy-on-write, publishing rows, held
shards (09 R182 to R201; 10 R216). -/

namespace Sys2Proof.Machine

open Host

/-! ### Scales and rows (R180 to R182) -/

/-- A BF16 value of a row, and the rows themselves: element `i` of row `t`. -/
def bfAt (row : List Byte) (i : Nat) : Nat := leNat ((row.drop (2 * i)).take 2)

/-- The element of a row for head `h`, dimension `x`. -/
def rowElem (row : List Byte) (dim h x : Nat) : Nat := bfAt row (h * dim + x)

/-- The largest magnitude among the finite elements of a head in some rows, and whether every element
is finite. -/
def maxMag (rows : List (List Byte)) (dim h : Nat) : Nat × Bool :=
  rows.foldl (fun a row => (List.range dim).foldl (fun a x =>
    let b := rowElem row dim h x % 0x8000
    if b < 0x7F80 then (max a.1 b, a.2) else (a.1, false)) a) (0, true)

/-- The scale of a head for a page opened with some rows: max(s_prev, 2^ceil(log2(a / 448))), 1.0 with
no predecessor and a = 0. The spec gives no scale for a row with a NaN or an infinity, nor for one without a
predecessor whose power of two is below BF16: those are free (`free`). Positive BF16 patterns order as numbers. -/
def pageScale (prev : Option Nat) (rows : List (List Byte)) (dim h free : Nat) : Nat :=
  let (a, finite) := maxMag rows dim h
  if finite = false then free
  else if a = 0 then prev.getD 0x3F80
  else match fmtBf.decode a with
    | .fin _ m e =>
      let k := ceilLog2Over448 m e
      if k < -133 then (match prev with
        | some x => if x = 0 then free else x
        | none => free)
      else max (prev.getD 0) (fmtBf.encode (.fin false 1 k))
    | _ => free

/-- m₁ · 2^e₁ divided by m₂ · 2^e₂, exact to a sticky bit far below any rounding. -/
def divSticky (m1 : Nat) (e1 : Int) (m2 : Nat) (e2 : Int) : Nat × Int :=
  let n := m1 * 2 ^ 64
  (n / m2 * 2 + (if n % m2 = 0 then 0 else 1), e1 - e2 - 65)

/-- m · 2^e exceeds 448. -/
def over448 (m : Nat) (e : Int) : Bool :=
  if 0 ≤ e then decide (448 < m * 2 ^ e.toNat) else decide (448 * 2 ^ (-e).toNat < m)

/-- A BF16 element under a BF16 scale as an FP8 byte, and whether it saturated: its scaled magnitude exceeds 448 (R182). -/
def toE4 (x scale : Nat) : Nat × Bool :=
  match fmtBf.decode x, fmtBf.decode scale with
  | .fin n m e, .fin _ sm se =>
    if sm = 0 then fmtE4.encodeSat (if m = 0 then .fin n 0 0 else .inf n)
    else let (q, qe) := divSticky m e sm se; ((fmtE4.encodeSat (.fin n q qe)).1, over448 q qe)
  | v, _ => fmtE4.encodeSat v

/-- A scale record (R181): key and value scale of heads 0 to 3. -/
def scaleRec (ks vs : List Nat) : List Byte :=
  (List.range 4).flatMap fun h => leBytes (ks.getD h 0) 2 ++ leBytes (vs.getD h 0) 2

/-- The scales of a record. -/
def State.scales (s : State) (a : Nat) : List Nat × List Nat :=
  let w := fun (i : Nat) => s.rdNat (a + 2 * i) 2
  ((List.range 4).map fun h => w (2 * h), (List.range 4).map fun h => w (2 * h + 1))

/-- The FP8 bytes of one row for every head, with the saturations counted. -/
def rowBytes (row : List Byte) (dim : Nat) (sc : List Nat) (heads : Nat) : List (List Byte) × Nat :=
  (List.range heads).foldl (fun a h =>
    let bs := (List.range dim).map fun x => toE4 (rowElem row dim h x) (sc.getD h 0x3F80)
    (a.1 ++ [bs.map fun b => BitVec.ofNat 8 b.1], a.2 + (bs.filter fun b => b.2).length)) ([], 0)

/-- The key and value rows of one token written into slot `t` of the page at frame `f` (R180). -/
def State.writeRow (s : State) (h : Shard) (f t : Nat) (sc : List Nat × List Nat) (k v : List Byte) : State :=
  let base := f * 4096
  let half := h.heads * 256 * h.dim
  let (kb, kn) := rowBytes k h.dim sc.1 h.heads
  let (vb, vn) := rowBytes v h.dim sc.2 h.heads
  let s1 := kb.zipIdx.foldl (fun a x => a.wr (base + (x.2 * 256 + t) * h.dim) x.1) s
  let s2 := vb.zipIdx.foldl (fun a x => a.wr (base + half + (x.2 * 256 + t) * h.dim) x.1) s1
  s2.addCnt Key.kvpSatCnt (kn + vn)

/-! ### Frames of a shard (R187, R188) -/

/-- The scope of a shard's request. -/
def State.shardScope (s : State) (h : Shard) : Scope :=
  match s.req h.part h.tag with
  | some r => r.scope
  | none => .none

/-- The key index that set-aside frames hold: a binding slot's key appears with its first open page. -/
def asideKey (p : Nat) : Scope → Nat
  | .slot _ => 2047
  | _ => p

/-- A shard is held from now on. The timer of its pool begins with the first held shard of the pool (R188). -/
def State.holdShard (s : State) (h : Shard) : State :=
  let pool := s.poolOf h.part
  let going := s.paging.shards.any fun x => x.held && decide (s.poolOf x.part = pool)
  let others := s.paging.holdTick.filter fun e => decide (e.1 ≠ pool)
  let t : State := if going then s else { s with paging := { s.paging with holdTick := others ++ [(pool, s.tick)] } }
  (t.setRes { h with held := true }).kvpUpdate

/-- A step of a shard's request waits: for a reservation when the shard is held, or for a domain key (28 R665). -/
def State.waitShard (s : State) (h : Shard) : State :=
  if h.held then s.setShard { h with waiting := true }
  else if (s.needKey (s.shardScope h)).isNone then s.holdShard { h with waiting := true }
  else s

/-- A new reservation for a shard, in either tier, or the shard is held (R187, R188). -/
def State.reserve (s : State) (h : Shard) : State :=
  match s.takePage h.part h.units (.kv h.part) (asideKey h.part (s.shardScope h)) with
  | some (f, t) => t.setRes { h with reservation := some f, held := false, waiting := false }
  | none => s.holdShard { h with reservation := none }

/-- The frame that the next page takes: from the holding, near pages first, else the reservation.
With no frame the opening waits. -/
def Shard.nextFrame (h : Shard) : Option Nat :=
  match h.holding with
  | f :: _ => some f
  | [] => h.reservation

/-- The reservation was taken for page `page`: a new one follows unless that page is the last that the shard can hold (R187, R194). -/
def State.reserveAfter (s : State) (h : Shard) (page : Nat) : State :=
  if 2047 ≤ page then s.setRes { h with reservation := none } else s.reserve { h with reservation := none }

/-- The frame taken out of the shard's holding or reservation. -/
def State.takeNext (s : State) (h : Shard) (page : Nat) : State :=
  match h.holding with
  | _ :: rest => s.setShard { h with holding := rest }
  | [] => s.reserveAfter h page

/-- The shard as it stands. -/
def State.again (s : State) (h : Shard) : Shard := (s.shardAt h.pt).getD h

/-! ### Opening pages (R182, R191, R194) -/

/-- A page of a window ring can be reused in place: the page it displaces is private and near. -/
def State.reusable (s : State) (h : Shard) (page : Nat) : Bool :=
  decide (0 < h.ring) && decide (h.ring ≤ page)
    && (let e := s.pte (h.entryAt page)
        e.present && decide (e.refcount = 1) && !e.shared && !e.far)

/-- The openings of some pages must wait: a page to be reused is pinned (R199), the frames of the
holding, the reservation and what can be reserved after it fall short (R188), or the domain key
cannot be generated (10 R209, 28 R665). -/
def State.opensWait (s : State) (h : Shard) (pages : List Nat) : Bool :=
  let need := (pages.filter fun p => !s.reusable h p).length
  let have_ := h.holding.length + (if h.reservation = none then 0 else 1)
  (pages.any fun p => s.reusable h p && decide ((s.pte (h.entryAt p)).pins ≠ 0))
    || (decide (have_ < need) && (decide (h.reservation = none)
      || (s.takePages h.part h.units (.kv h.part) h.part (need - have_)).isNone))
    || (decide (pages ≠ []) && (s.needKey (s.shardScope h)).isNone)

/-- Page `page` opened with the rows that the opening scatter writes into it (R191). -/
def State.openPage (s : State) (h : Shard) (page : Nat) (ks vs : List (List Byte)) : State :=
  let a := h.entryAt page
  let old := s.pte a
  let scope := s.shardScope h
  let s0 := (s.needKey scope).getD s
  let key := scopeKey h.part scope
  let prev := if page = 0 then none
    else some (s0.scales (scaleOf (s0.authAt h (page - 1))))
  let (s1, f) :=
    if s0.reusable h page then (s0.abortMoves old.first |>.dropPending a, old.first)
    else
      let s' := if h.ring > 0 ∧ h.ring ≤ page then s0.releasePage h (page - h.ring) else s0
      let h' := { s'.again h with splices := (s'.again h).splices.filter fun x => decide (h.ring = 0 ∨ x.1 + h.ring ≠ page) }
      let f := (h'.nextFrame).getD 0
      (((s'.setShard h').takeNext h' page).reuse f (.kv h.part) key, f)
  let scale := fun (rows : List (List Byte)) (get : List Nat × List Nat → List Nat) (no : Nat) =>
    (List.range h.heads).map fun i =>
      pageScale (prev.map fun x => (get x).getD i 0) rows h.dim i (Config.freeNat (s1.freeCtr + no + i) % 0x7F80)
  let kk := scale ks (fun x => x.1) 0
  let vv := scale vs (fun x => x.2) 4
  let e : Pte := { old with
    present := true, shared := false, dirty := true, mirror := false, refcount := 1, valid := 0
    score := 0x3C00, gen := (old.gen + 1) % 256, pins := 0, pinned := false, protected_ := false }
  let s2 := { s1 with mem := s1.mem.zeroFrame f h.units, freeCtr := s1.freeCtr + 8 }
  (s2.setPte a (e.withFirst f)).wr (scaleOf a) (scaleRec kk vv)

/-! ### Copy-on-write (10 R216) -/

/-- A shared partial page must be copied before a row is written into it. -/
def State.needsCopy (s : State) (h : Shard) (page : Nat) : Bool :=
  (s.pte (h.entryAt page)).shared && decide (1 < (s.pte (s.authAt h page)).refcount)

/-- The page's valid slots and scale record copied into the reservation, the entry made private, the
record's referrer dropped, and a new reservation taken. The source's pin (`appendWaits`) is released in the same step. -/
def State.copyOnWrite (s : State) (h : Shard) (page : Nat) : State :=
  match h.reservation with
  | none => s
  | some f =>
    let a := h.entryAt page
    let recd := s.authAt h page
    let src := s.pte recd
    let own := s.pte a
    let scope := s.shardScope h
    let s0 := ((s.needKey scope).getD s).reuse f (.kv h.part) (scopeKey h.part scope)
    let s1 := s0.copyPage src.first f h.units
    let s2 := s1.wr (scaleOf a) (s1.rd (scaleOf recd) 16)
    let e : Pte := { own with
      present := true, shared := false, refcount := 1, valid := src.valid, dirty := true, mirror := false
      gen := (src.gen + 1) % 256, score := src.score, pins := 0, pinned := false }
    let s3 := s2.setPte a (e.withFirst f)
    let h' := { h with reservation := none, splices := h.splices.filter fun x => decide (x.1 ≠ page) }
    let s4 := (s3.setShard h').unref recd
    (s4.reserveAfter (s4.again h') page).inc Key.rfeCowCnt

/-! ### APPEND (R190 to R201) -/

/-- A scatter descriptor (Table 9.4). -/
structure ScatDesc where
  op : Nat
  heads : Nat
  dim : Nat
  count : Nat
  ring : Nat
  tag : BitVec 64
  pt : Nat
  srcK : Nat
  srcV : Nat
  pos : Nat
  deriving DecidableEq, Repr

def scatDesc (d : BitVec 512) : ScatDesc where
  op := bitsOf d.toNat 7 0
  heads := bitsOf d.toNat 15 8
  dim := bitsOf d.toNat 23 16
  count := bitsOf d.toNat 47 32
  ring := bitsOf d.toNat 63 48
  tag := BitVec.ofNat 64 (bitsOf d.toNat 127 64)
  pt := bitsOf d.toNat 191 128
  srcK := bitsOf d.toNat 255 192
  srcV := bitsOf d.toNat 319 256
  pos := bitsOf d.toNat 351 320

/-- The head dimension of a code (Table 9.4). -/
def dimOf (c : Nat) : Nat := 64 * (c + 1)

/-- The descriptor breaks no range, and its block is a 64 KiB aligned one of the device region
(R196). -/
def ScatDesc.ok (x : ScatDesc) : Bool :=
  decide (x.op = 1) && decide (1 ≤ x.heads) && decide (x.heads ≤ 4) && decide (x.dim ≤ 3)
    && decide (1 ≤ x.count) && decide (x.count ≤ 4096) && decide (x.pt % 0x10000 = 0) && inDevice x.pt

/-- The members' share of a SHROUD sequence: token `u` of this member (17 R409) belongs to local page
u / 256; in LOCAL mode it is token `u` itself. An append counts local tokens. -/
def State.appendPages (x : ScatDesc) : List Nat :=
  (List.range (x.count / 256 + 2)).map (fun i => x.pos / 256 + i)
    |>.filter fun p => decide (256 * p < x.pos + x.count)

/-- The pages that an APPEND opens: those whose first token it writes. -/
def ScatDesc.opens (x : ScatDesc) : List Nat :=
  (State.appendPages x).filter fun p => decide (x.pos ≤ 256 * p)

/-- The shard as an APPEND's descriptor lays its pages out (R190, R191): heads, dimension and ring are the descriptor's. -/
def ScatDesc.layout (x : ScatDesc) (h : Shard) : Shard := { h with heads := x.heads, dim := dimOf x.dim, ring := x.ring }

/-- An APPEND copies a shared page first. -/
def State.appendCopies (s : State) (h : Shard) (x : ScatDesc) : Bool :=
  decide (x.pos % 256 ≠ 0) && s.needsCopy h (x.pos / 256)

/-- The copy's pin of its source must wait (10 R216). -/
def State.copyPinWaits (s : State) (h : Shard) (x : ScatDesc) : Bool :=
  s.appendCopies h x && s.pinWaits (h.entryAt (x.pos / 256))

/-- An APPEND must wait: a copy with no reservation, or an opening that waits. -/
def State.appendWaits (s : State) (h : Shard) (x : ScatDesc) : Bool :=
  (s.appendCopies h x && (decide (h.reservation = none) || (s.needKey (s.shardScope h)).isNone))
  || s.opensWait h x.opens

/-- The rows of `n` tokens from token `i` of a source. -/
def State.rows (s : State) (src i n bytes : Nat) : List (List Byte) :=
  (List.range n).map fun j => s.rd (src + (i + j) * bytes) bytes

/-- The FP8 bytes of slots `[from_, from_ + n)` of a page: for each slot every head's keys, then values. -/
def State.slotBytes (s : State) (h : Shard) (f from_ n : Nat) : List Byte :=
  let half := h.heads * 256 * h.dim
  (List.range n).flatMap fun i =>
    ((List.range h.heads).flatMap fun x => s.rd (f * 4096 + (x * 256 + from_ + i) * h.dim) h.dim)
      ++ (List.range h.heads).flatMap fun x => s.rd (f * 4096 + half + (x * 256 + from_ + i) * h.dim) h.dim

/-- Rows appended by a member of a mirrored ring go to its right neighbour as written, with the page's scale
record when the page was opened (17 R416). -/
def State.mirrorOut (s : State) (h : Shard) (page from_ n : Nat) (opened : Bool) : State :=
  match s.req h.part h.tag with
  | none => s
  | some r => match s.reqRing r with
    | none => s
    | some k =>
      if s.ringMirror k then
        let a := s.authAt h page
        let scale := if opened then s.rd (scaleOf a) 16 else []
        s.emit (.routed (BitVec.ofNat 16 (s.fld (Key.shrRingRight k) 15 0)) (.ring "MIRROR_ROWS"
          ([s.ringHandle k, h.tag.toNat, h.idx, page, from_, scale.length]
            ++ (scale ++ s.slotBytes h (s.pte a).first from_ n).map BitVec.toNat)))
      else s

/-- Rows of tokens `from_` on of one page appended: the page is opened or copied first if it must be, the rows are
written under its scales, and the valid count is published (R191, R192). -/
def State.appendRows (s : State) (pt page from_ : Nat) (ks vs : List (List Byte)) : State :=
  match s.shardAt pt with
  | none => s
  | some h =>
    let n := ks.length
    let to_ := from_ + n
    let opened := decide (from_ % 256 = 0)
    let s1 :=
      if opened then s.openPage h page ks vs
      else if s.needsCopy h page then s.copyOnWrite h page else s
    let h1 := s1.again h
    let a := s1.authAt h1 page
    let e := s1.pte a
    let s2 := s1.abortMoves e.first
    let sc := s2.scales (scaleOf a)
    let s3 := (List.range n).foldl (fun t i =>
      t.writeRow h1 e.first (from_ % 256 + i) sc (ks.getD i []) (vs.getD i [])) s2
    let s4 := s3.setPte a { s3.pte a with valid := to_ - 256 * page, dirty := true, mirror := false }
    let h2 := { s4.again h1 with len := to_ }
    ((s4.setShard h2).protectShard h2).mirrorOut h2 page (from_ % 256) n opened

/-- The first token and the number of tokens that an APPEND writes into a page. -/
def ScatDesc.span (x : ScatDesc) (page : Nat) : Nat × Nat :=
  let from_ := max x.pos (256 * page)
  (from_, min (x.pos + x.count) (256 * page + 256) - from_)

/-- The source ranges of the rows of a page. -/
def ScatDesc.sources (x : ScatDesc) (page : Nat) : List (Nat × Nat) :=
  let (from_, n) := x.span page
  let bytes := 2 * x.heads * dimOf x.dim
  [x.srcK, x.srcV].map fun a => (a + (from_ - x.pos) * bytes, n * bytes)

/-- Tokens of one page of an APPEND appended, in the descriptor's layout. -/
def State.appendPage (s : State) (pt : Nat) (x : ScatDesc) (page : Nat) : State :=
  match s.shardAt pt with
  | none => s
  | some h =>
    let (from_, n) := x.span page
    let bytes := 2 * x.heads * dimOf x.dim
    let ks := s.rows x.srcK (from_ - x.pos) n bytes
    let vs := s.rows x.srcV (from_ - x.pos) n bytes
    let t := ((s.readRanges (x.sources page)).setShard (x.layout h)).appendRows pt page from_ ks vs
    match t.shardAt pt with
    | some g => t.setShard { g with heads := h.heads, dim := h.dim, ring := h.ring }
    | none => t

/-- The bucket of a request from its page count (07 R138). -/
def bucketOf (pages : Nat) : Nat := if pages ≤ 1 then 0 else Nat.log2 (pages - 1) + 1

/-- A request's bucket recomputed from its longest shard (07 R138). -/
def State.rebucket (s : State) (p : Nat) (tag : BitVec 64) : State :=
  match s.req p tag with
  | none => s
  | some r =>
    let n := ((s.shardsOf p tag).map fun h => ceilDiv h.len 256).foldl max 0
    s.setReq { r with bucket := max r.bucket (bucketOf n) }

/-- The status of a scatter descriptor that is not performed: BAD_DESC, BAD_POS, LIMIT (R191, R195, R196). A layout larger than
the shard's pages is BAD_DESC too (DESIGN CHOICE: the spec does not say). -/
def State.appendStatus (s : State) (x : ScatDesc) : Nat :=
  if x.ok = false then 2
  else match s.shardAt x.pt with
    | none => 2
    | some h =>
      if h.units < pageUnits x.heads (dimOf x.dim) then 2
      else if x.pos ≠ h.len then 1
      else if x.ring = 0 ∧ 524288 < x.pos + x.count then 3
      else 0

/-- The cause of an APPEND status on the SCT page. -/
def sctCause (st : Nat) : Nat := if st = 1 then 0 else if st = 2 then 1 else if st = 3 then 2 else 3

/-- A status other than DONE latches its cause for an engine and a request's tag (R201, R205). -/
def State.sctFault (s : State) (engine : Nat) (tag : BitVec 64) (st : Nat) : State :=
  s.latch pgSct (sctCause st) (engine % 4 * 2 ^ 25 + tag.toNat % 2 ^ 25)

/-- The request that issued a scatter descriptor ends: the live one of the macro's partition with the descriptor's tag, or else
those of the macro's walk (R201). -/
def State.failIssuer (s : State) (c : Scatter) (tag : BitVec 64) (st dt : Nat) : State :=
  match s.fab.flight.find? fun m => decide (m.spar = c.spar) && decide (m.slot = c.slot) && decide (m.op = 5) with
  | none => s
  | some m =>
    match s.req m.part tag with
    | some r => s.fail r st dt
    | none =>
      match s.fab.walks.find? fun w => decide (w.spar = m.spar) && decide (w.id = m.walk) with
      | some w => w.tags.foldl (fun t g => t.failTag m.part g st dt) s
      | none => s

/-- A scatter descriptor completes: status and opened are written back into it, its macro is done,
and a status other than DONE latches its cause and ends the request that issued it (R190, R201). -/
def State.scatterEnd (s : State) (c : Scatter) (x : ScatDesc) (st opened : Nat) : State :=
  let fl := s.fab.flight.map fun (m : MacroSt) =>
    if m.spar = c.spar ∧ m.slot = c.slot ∧ m.op = 5 then { m with done := true } else m
  let s1 := { s with
    paging := { s.paging with scatter := s.paging.scatter.erase c }
    fab := { s.fab with flight := fl } }
  let s2 := ((s1.wr (c.dpa + 0x38) [BitVec.ofNat 8 st, BitVec.ofNat 8 opened]).inc (Key.sctDone c.spar)).addCnt (Key.sctOpen c.spar) opened
  if st = 0 then s2.addCnt (Key.sctTokens c.spar) x.count
  else (s2.sctFault c.spar x.tag st).failIssuer c x.tag stFaultUnit (0x20 + st)

/-- What stops an APPEND before a page: an uncorrectable line in the page's sources or in the entries that it reads, among them
`ue`, or an entry that is not well-formed (R201, R202). -/
def State.appendBad (s : State) (h : Shard) (x : ScatDesc) (page : Nat) (ue : Option Nat) : Option State :=
  let hit := fun (r : Nat × Nat) => match s.poisoned r.1 r.2, ue with
    | some l, _ => some l
    | none, some a => if 0 < r.2 ∧ lineIn r.1 r.2 (a / 64) = true then some a else none
    | none, none => none
  let own := h.entryAt page
  match [(own, 16), (scaleOf own, 16)].findSome? hit, (if x.pos % 256 ≠ 0 ∧ page = x.pos / 256 then s.entryBad own else none),
      (x.sources page).findSome? hit with
  | some l, _, _ => some (s.ptUe l)
  | none, some t, _ => some t
  | none, none, some l => some (s.lineUe l)
  | none, none, none => none

/-- An APPEND page by page: what was written before a MEM_ERROR stays (R201). `n` counts the pages opened. -/
def State.appendRun (s : State) (c : Scatter) (x : ScatDesc) (ue : Option Nat) (n : Nat) : List Nat → State
  | [] => s.scatterEnd c x 0 n
  | p :: rest =>
    match s.shardAt x.pt with
    | none => s.scatterEnd c x 4 n
    | some h =>
      match s.appendBad (x.layout h) x p ue with
      | some t => t.scatterEnd c x 4 n
      | none => (s.appendPage x.pt x p).appendRun c x ue (n + if x.pos ≤ 256 * p then 1 else 0) rest

/-- A scatter descriptor's pin waits, and is counted (R193). -/
def State.askScatter (s : State) (c : Scatter) : State :=
  let l := s.paging.scatter.map fun y => if y = c then { y with asked := true } else y
  ({ s with paging := { s.paging with scatter := l } }).inc Key.kvpPinWaitCnt

/-- A descriptor whose turn it is, performed or waiting. -/
def State.append (s : State) (c : Scatter) (ue : Option Nat) : State :=
  let x := scatDesc c.desc
  let st := s.appendStatus x
  if st ≠ 0 then s.scatterEnd c x st 0
  else match s.shardAt x.pt with
    | none => s
    | some h0 =>
      let h := x.layout h0
      if (⟨utScatter, c.spar, 0⟩ : UnitId) ∈ s.rel.out then s.failIssuer c x.tag stFaultUnit 0x1C
      else if s.copyPinWaits h x then (if c.asked then s else s.askScatter c)
      else if s.appendWaits h x then s.waitShard h0
      else (((s.useFor ⟨utScatter, c.spar, 0⟩ h.part h.tag).appendRun c x ue 0 (State.appendPages x)).rebucket h.part h.tag).kvpUpdate

/-- APPEND (R191): scatter engine `k` performs the oldest of its descriptors that names its
page-table block. `ue` is the DPA of an uncorrectable line met in the sources or the page table. -/
def execAppend (k : BitVec 2) (d : BitVec 512) (ue : Option Nat) (s : State) : Outcome State Fault Refusal :=
  .next (match s.paging.scatter.find? fun c => decide ((scatDesc c.desc).pt = (scatDesc d).pt) with
    | none => s
    | some c => if c.spar ≠ k.toNat ∨ c.desc ≠ d then s else s.asTake fun t => t.append c ue)

/-! ### Held shards (R188) -/

/-- The order in which a request was admitted. -/
def State.admitOf (s : State) (h : Shard) : Nat :=
  match s.req h.part h.tag with
  | some r => r.admitNo
  | none => 0

/-- The held shards of a pool, in order of their requests' admission. -/
def State.heldOf (s : State) (pool : PoolId) : List Shard :=
  let l := s.paging.shards.filter fun h => h.held && decide (s.poolOf h.part = pool)
  l.foldr (fun h acc => (acc.takeWhile fun x => decide (s.admitOf x < s.admitOf h)) ++ h ::
    (acc.dropWhile fun x => decide (s.admitOf x < s.admitOf h))) []

/-- Held shards reserve in order, up to the first that cannot. -/
def State.reserveHeld (s : State) : List Shard → State
  | [] => s
  | h :: rest =>
    if h.reservation ≠ none then
      -- held for want of a domain key (28 R665)
      if (s.needKey (s.shardScope h)).isNone then s
      else (s.setShard { h with held := false, waiting := false }).reserveHeld rest
    else
      let s1 := s.reserve h
      if (s1.again h).held then s else s1.reserveHeld rest

/-- HELD_RESERVE (R188). -/
def execHeldReserve (pool : PoolId) (s : State) : Outcome State Fault Refusal :=
  .next (s.asTake fun t => t.reserveHeld (t.heldOf pool)).kvpUpdate

/-- `a` is ended before `b` under R188: the lower class, then the later admission. -/
def endsFirst (a b : Req) : Bool :=
  decide (b.d.prio < a.d.prio) || (decide (b.d.prio = a.d.prio) && decide (b.admitNo < a.admitNo))

/-- HOLD_TIMEOUT (R188): no frame of the pool was freed for hold_ms while it had a held shard; the
lowest-class, most recently admitted of the requests whose step waits completes with REFUSED_POOL 0x02. -/
def execHoldTimeout (pool : PoolId) (s : State) : Outcome State Fault Refusal :=
  let ms := max 1 (s.fld Key.kvpCfg 7 0)
  let since := (s.paging.holdTick.find? fun e => decide (e.1 = pool)).map fun e => e.2
  let rs := ((s.heldOf pool).filter fun h => h.waiting).filterMap fun h => s.req h.part h.tag
  let pick := rs.foldl (fun (a : Option Req) r => match a with
    | none => some r
    | some x => if endsFirst r x then some r else some x) none
  .next (match since, pick with
    | some t, some r =>
      if t + ms * 100000 ≤ s.tick then
        let s1 := ((s.fail r stRefusedPool 0x02).inc Key.kvpHoldEndCnt).irq pgKvp 4
        (s1.touchHold pool).kvpUpdate
      else s
    | _, _ => s)

end Sys2Proof.Machine
end

