-- ==== Sys2Proof/Machine/Splice.lean ====
section
/-! DEFINITION. Splice domains, the prefix index, lookup and indexing, scores and reefing (10 R206 to
R234). -/

namespace Sys2Proof.Machine

open Host

/-! ### Scopes and binding slots (R206 to R209) -/

/-- A binding slot is bound, or closing. -/
def State.slotBound (s : State) (b : Nat) : Bool := s.bit (Key.rfeBindCtl b) 31
def State.slotClosing (s : State) (b : Nat) : Bool := s.bit (Key.rfeBindCtl b) 30
def State.slotDomain (s : State) (b : Nat) : Nat := s.fld (Key.rfeBindCtl b) 15 0
/-- A slot's mask names partition `p`. -/
def State.slotHas (s : State) (b p : Nat) : Bool := s.bit (Key.rfeBindMask b (p / 32)) (p % 32)

/-- The scope of a request of partition `p` in domain `d` (R206). -/
def State.scopeFor (s : State) (p d : Nat) : Scope :=
  if d = 0 then .none
  else match (List.range 64).find? fun b => s.slotBound b && decide (s.slotDomain b = d) && s.slotHas b p with
    | some b => .slot b
    | none => .pair p d

/-- PRT_STATE.xsplice_bound of a partition: a slot, bound or closing, names it (06 R123). -/
def State.xspliceUpdate (s : State) (p : Nat) : State :=
  let x := decide (s.pstate p ≠ psFree) && (List.range 64).any fun b => (s.slotBound b || s.slotClosing b) && s.slotHas b p
  (s.setBit (Key.prtState p) 5 x).isoUpdate p

/-- The partitions that a slot names. -/
def State.slotParts (s : State) (b : Nat) : List Nat := allParts.filter fun p => s.slotHas b p

/-- The first failing check of BIND (R208, Table 10.6); 0 when all hold. -/
def State.bindCheck (s : State) (b : Nat) : Nat :=
  let d := s.slotDomain b
  let ps := s.slotParts b
  if s.slotBound b ∨ s.slotClosing b then 1
  else if d = 0 ∨ ((List.range 64).any fun x => s.slotBound x && decide (s.slotDomain x = d)
      && ps.any fun p => s.slotHas x p) then 2
  else if ps.length < 2 ∨ (ps.any fun p => decide (s.pstate p = psFree) || !s.bit (Key.prtCfg p) 1) then 3
  else if ps.any (fun p => (s.paging.nodes.any fun n => decide (n.scope = .pair p d))
      || s.reqs.any fun r => r.active && decide (r.scope = .pair p d)) then 4
  else 0

/-- RFE_BIND_CMD with op BIND. -/
def State.bindSlot (s : State) (b : Nat) : State :=
  let c := s.bindCheck b
  if c ≠ 0 then s.setReg Key.rfeBindErr (BitVec.ofNat 32 c)
  else
    let s1 := (s.setBit (Key.rfeBindCtl b) 31 true).setReg Key.rfeBindErr 0
    (s1.slotParts b).foldl State.xspliceUpdate s1

/-- RFE_BIND_CMD with op UNBIND: the slot closes, and its nodes leave the index (R209). -/
def State.unbindSlot (s : State) (b : Nat) : State :=
  if s.slotBound b then
    let s1 := ((s.setBit (Key.rfeBindCtl b) 31 false).setBit (Key.rfeBindCtl b) 30 true).setReg Key.rfeBindErr 0
    s1.removeNodes fun n => decide (n.scope = .slot b)
  else s.setReg Key.rfeBindErr 1

/-- A write of RFE_BIND_CMD (Table 10.4). -/
def State.writeBindCmd (s : State) (v : Word) : State :=
  let b := getBits v 5 0
  let op := getBits v 15 8
  if op = 1 then s.bindSlot b else if op = 2 then s.unbindSlot b else s.setReg Key.rfeBindErr 5

/-- BIND (R208). -/
def execBind (m : Master) (be : BitVec 4) (slot : BitVec 6) (s : State) : Outcome State Fault Refusal :=
  let v : Word := BitVec.ofNat 32 (0x100 + slot.toNat)
  .next (s.gated m pgRfe 0x130 be v fun t => t.writeBindCmd v)

/-- UNBIND (R209). -/
def execUnbind (m : Master) (be : BitVec 4) (slot : BitVec 6) (s : State) : Outcome State Fault Refusal :=
  let v : Word := BitVec.ofNat 32 (0x200 + slot.toNat)
  .next (s.gated m pgRfe 0x130 be v fun t => t.writeBindCmd v)

/-- A slot holds a page: a page is encrypted under its key. -/
def State.slotHolds (s : State) (b : Nat) : Bool := s.mem.used.any fun e => decide (e.key = 128 + b)

/-- SLOT_FREE (R209): a closing slot that holds no page and is no live request's scope becomes free. -/
def execSlotFree (slot : BitVec 6) (s : State) : Outcome State Fault Refusal :=
  let b := slot.toNat
  .next (if s.slotClosing b ∧ s.slotHolds b = false
      ∧ (s.reqs.any fun r => r.active && decide (r.scope = .slot b)) = false then
    let s1 := s.setBit (Key.rfeBindCtl b) 30 false
    (s1.slotParts b).foldl State.xspliceUpdate s1
  else s)

/-! ### The chain (R212) -/

/-- The 8-byte identifier of a scope. -/
def scopeNumber : Scope → Nat
  | .none => 0
  | .slot b => b
  | .pair p d => 64 + p * 65536 + d

/-- A hash truncated to 16 bytes. -/
def hash16 (m : List Byte) : BitVec 128 := BitVec.ofNat 128 (leNat ((sha384 m).take 16))

/-- Token IDs as little-endian bytes. -/
def tokenBytes (l : List Word) : List Byte := l.flatMap fun t => leBytes t.toNat 4

/-- The seed, the chain step, and the key of a tail leaf. -/
def chainSeed (digest : BitVec 384) (sc : Scope) : BitVec 128 :=
  hash16 (leBytes digest.toNat 48 ++ leBytes (Config.scopeId (scopeNumber sc)).toNat 8)
def chainStep (h : BitVec 128) (chunk : List Word) : BitVec 128 := hash16 (leBytes h.toNat 16 ++ tokenBytes chunk)
def leafKey (h : BitVec 128) (toks : List Word) : BitVec 128 :=
  hash16 (leBytes h.toNat 16 ++ leBytes toks.length 2 ++ tokenBytes toks)

/-! ### Matching (R213) -/

/-- Every splice record of a node is present; some record is at the largest count. -/
def State.nodeReady (s : State) (n : Node) : Bool := n.recs.all fun a => (s.pte a).present
def State.nodeFull (s : State) (n : Node) : Bool := n.recs.any fun a => decide ((s.pte a).refcount = 65535)

/-- The node of a chunk. One that was inserted in this tick is seen only by later lookups (R228). -/
def State.nodeAt (s : State) (sc : Scope) (h : BitVec 128) : Option Node :=
  s.paging.nodes.find? fun n => decide (n.scope = sc) && decide (n.hash = h) && decide (n.tokens.length = 256) && decide (n.born ≠ s.tick)

/-- One page spliced into a shard: the record's count rises, the sequence's entry carries copies of
its fields with shared set, and the holding falls by one page, a far one first (R213, 09 R186). -/
def State.spliceInto (s : State) (h : Shard) (a page : Nat) : State :=
  let e := { s.pte a with refcount := (s.pte a).refcount + 1 }
  let s1 := (s.setPte a e).setPte (h.entryAt page) { e with shared := true }
  let s2 := s1.wr (scaleOf (h.entryAt page)) (s1.rd (scaleOf a) 16)
  let given := h.holding.getLast?
  let h' := { h with holding := h.holding.dropLast, splices := h.splices ++ [(page, a)] }
  let s3 := s2.setShard h'
  match given with
  | some f => s3.freeFresh f
  | none => s3

/-- A node spliced in every layer shard of a request (R213). -/
def State.spliceNode (s : State) (p : Nat) (tag : BitVec 64) (n : Node) (page : Nat) : State :=
  ((s.shardsOf p tag).foldl (fun t h =>
    match n.recs[h.idx]? with
    | some a => t.spliceInto h a page
    | none => t) s).addCnt Key.rfeSpliceCnt n.recs.length

/-- The walk over full chunks: the state, the last matched hash, the chunks matched. -/
def State.walkChain (s : State) (r : Req) : Nat → BitVec 128 → Nat → State × BitVec 128 × Nat
  | 0, h, m => (s, h, m)
  | fuel + 1, h, m =>
    let toks := (r.tokens.drop (256 * m)).take 256
    if r.tokens.length - 1 < 256 * (m + 1) then (s, h, m)
    else
      let h2 := chainStep h toks
      match s.nodeAt r.scope h2 with
      | none => (s, h, m)
      | some n =>
        if n.tokens ≠ toks then (s.inc Key.rfeCollideCnt, h, m)
        else if s.nodeReady n && !s.nodeFull n then
          (s.spliceNode r.part r.tag n m).walkChain r fuel h2 (m + 1)
        else (s, h, m)

/-- The tail leaves of a parent that fit into what is left of a prompt and whose hash matches it (R212). -/
def State.fittingLeaves (s : State) (sc : Scope) (parent : BitVec 128) (rest : List Word) (limit : Nat) : List Node :=
  s.paging.nodes.filter fun n => decide (n.scope = sc) && decide (n.parent = some parent) && decide (n.born ≠ s.tick)
    && decide (n.tokens.length < 256) && decide (n.tokens.length ≤ limit)
    && decide (n.hash = leafKey parent (rest.take n.tokens.length))

/-- The longest of them with the same tokens. -/
def longestLeaf (ls : List Node) (rest : List Word) : Option Node :=
  (ls.filter fun n => decide (n.tokens = rest.take n.tokens.length)).foldl
    (fun a n => match a with
      | none => some n
      | some x => if x.tokens.length < n.tokens.length then some n else some x) none

/-- The lookup of one request: what it matched is spliced, and the lengths of its shards follow. -/
def State.lookup (s : State) (r : Req) (digest : BitVec 384) : State :=
  let seed := chainSeed digest r.scope
  let (s0, h, m) := s.walkChain r (r.tokens.length / 256 + 1) seed 0
  let rest := r.tokens.drop (256 * m)
  let ls := s0.fittingLeaves r.scope h rest (r.tokens.length - 1 - 256 * m)
  let s1 := s0.addCnt Key.rfeCollideCnt (ls.filter fun n => decide (n.tokens ≠ rest.take n.tokens.length)).length
  let (s2, point) := match longestLeaf ls rest with
    | some lf => if s1.nodeFull lf then (s1, 256 * m) else
        (s1.spliceNode r.part r.tag lf m, 256 * m + lf.tokens.length)
    | none => (s1, 256 * m)
  let s3 := (s2.shardsOf r.part r.tag).foldl (fun t x =>
    let x' := { x with len := point }
    (t.setShard x').protectShard x') s2
  s3.setReq { r with spliced := point, phase := .prefill, layer := 0, qpage := point / 256 }

/-- PREFIX_LOOKUP (R27, R213): once per request, after admission and in its lane; a request with no
scope splices nothing. -/
def execPrefixLookup (p : BitVec 7) (tag : BitVec 64) (ue : Option Nat) (s : State) :
    Outcome State Fault Refusal :=
  .next (match s.req p.toNat tag with
    | none => s
    | some r =>
      if r.phase = .lookup ∧ r.lane = true then
        let s0 := match ue with
          | some a => s.indexUe a tag
          | none => s
        match r.scope, s0.model r.part r.d.model with
        | .none, _ => s0.setReq { r with phase := .prefill, layer := 0, qpage := 0 }
        | _, some m => (s0.lookup r m.digest).kvpUpdate
        | _, none => s0.setReq { r with phase := .prefill, layer := 0, qpage := 0 }
      else s)

/-! ### Indexing at completion (R215) -/

/-- A node or leaf is held only by the index, and has no child. -/
def State.indexOnly (s : State) (n : Node) : Bool := n.recs.all fun a => decide ((s.pte a).refcount = 1)
def State.hasChild (s : State) (n : Node) : Bool :=
  s.paging.nodes.any fun x => decide (x.scope = n.scope) && decide (x.parent = some n.hash) && decide (x ≠ n)
def State.droppable (s : State) (n : Node) : Bool := s.indexOnly n && !s.hasChild n
/-- The highest score among a node's records. -/
def State.nodeScore (s : State) (n : Node) : Nat := (n.recs.map fun a => (s.pte a).score).foldl max 0
/-- The node of least score among some. -/
def State.leastNode (s : State) (l : List Node) : Option Node :=
  l.foldl (fun a n => match a with
    | none => some n
    | some x => if s.nodeScore n < s.nodeScore x then some n else some x) none

/-- A node dropped with every one of its records (R220, R221): it leaves the index, and a record that is pinned is released once its
pin count is zero. -/
def State.dropNode (s : State) (n : Node) : State :=
  (s.removeNodes fun x => decide (x = n)).addCnt Key.rfeDropCnt n.recs.length

/-- References to an entry moved to the record that takes its place. -/
def State.retarget (s : State) (a b : Nat) : State :=
  let mm := fun (m : Move) => if m.entry = some a then { m with entry := some b } else m
  let mv := fun (x : Burst) => { x with moves := x.moves.map mm }
  let pend := s.paging.pending.map fun x => if x.entry = a then { x with entry := b } else x
  { s with paging := { s.paging with
    flight := s.paging.flight.map mv, deferred := s.paging.deferred.map mv
    waiting := s.paging.waiting.map mv, pending := pend
    promote := s.paging.promote.map fun x => if x = a then b else x } }

/-- A page of a shard becomes shared with its record at `a`: the index counts as one referrer beside
the sequence, and the charge passes to the payer (R214, R215). -/
def State.indexPage (s : State) (h : Shard) (page a p : Nat) : State :=
  let own := h.entryAt page
  let e := s.pte own
  let key := s.frameKey e.first
  let rc := { e with shared := true, refcount := 2, protected_ := false }
  let s1 := ((s.retarget own a).setPte a rc).wr (scaleOf a) (s.rd (scaleOf own) 16)
  let s2 := (s1.setPte own { e with shared := true, refcount := 2 }).reuse e.first (.index (some p)) key
  (s2.setShard { h with splices := h.splices ++ [(page, a)] }).syncProtect a

/-- Room for a further node: below the limit, or a droppable node makes room (R215). -/
def State.nodeRoom (s : State) : Option State :=
  if s.paging.nodes.length < 1048576 then some s
  else match s.leastNode (s.paging.nodes.filter s.droppable) with
    | some n => some (s.dropNode n)
    | none => none

/-- Room under a parent for a further leaf: at most four, and one held only by the index gives way. -/
def State.leafRoom (s : State) (sc : Scope) (parent : BitVec 128) : Option State :=
  let ls := s.paging.nodes.filter fun n => decide (n.scope = sc) && decide (n.parent = some parent)
    && decide (n.tokens.length < 256)
  if ls.length < 4 then some s
  else match s.leastNode (ls.filter s.indexOnly) with
    | some n => some (s.dropNode n)
    | none => none

/-- One page of a request inserted as a node or leaf; `none` when indexing stops here. -/
def State.insertNode (s : State) (r : Req) (digest : BitVec 384) (page : Nat) (parent : BitVec 128)
    (toks : List Word) : Option State :=
  let hash := if toks.length = 256 then chainStep parent toks else leafKey parent toks
  if (s.paging.nodes.any fun n => decide (n.scope = r.scope) && decide (n.hash = hash) && decide (n.tokens = toks))
  then none
  else
    match (if toks.length = 256 then some s else s.leafRoom r.scope parent) with
    | none => none
    | some s0 =>
      match s0.nodeRoom with
      | none => none
      | some s1 =>
        match s1.takeBlock .far 0x10000 with
        | none => none
        | some (blk, s2) =>
          let hs := s2.shardsOf r.part r.tag
          let s3 := hs.foldl (fun t h => t.indexPage h page (blk + 16 * h.idx) r.part) s2
          let n : Node := { scope := r.scope, digest := digest, hash := hash, parent := some parent
                            tokens := toks, payer := some r.part
                            recs := (List.range hs.length).map fun i => blk + 16 * i, block := blk, born := s.tick }
          some { s3 with paging := { s3.paging with nodes := s3.paging.nodes ++ [n] } }

/-- A page of some shard was dropped. -/
def State.pageGone (s : State) (r : Req) (page : Nat) : Bool :=
  (s.shardsOf r.part r.tag).any fun h => !(s.pte (s.authAt h page)).present

/-- A page is spliced. -/
def State.pageSpliced (s : State) (r : Req) (page : Nat) : Bool :=
  (s.shardsOf r.part r.tag).any fun h => h.splices.any fun x => decide (x.1 = page)

/-- The pages of a request indexed in page order from `page` on. -/
def State.indexFrom (s : State) (r : Req) (digest : BitVec 384) (toks : List Word) :
    Nat → Nat → BitVec 128 → State
  | 0, _, _ => s
  | fuel + 1, page, parent =>
    let chunk := (toks.drop (256 * page)).take 256
    if chunk = [] ∨ s.pageGone r page then s
    else if chunk.length = 256 ∧ s.pageSpliced r page then
      s.indexFrom r digest toks fuel (page + 1) (chainStep parent chunk)
    else if s.pageSpliced r page then s
    else match s.insertNode r digest page parent chunk with
      | none => s
      | some t => t.indexFrom r digest toks fuel (page + 1) (chainStep parent chunk)

/-- The pages of a request that completes with a success are indexed before they are released; a
closing slot indexes nothing more (R209, R215). -/
def State.indexRequest (s : State) (r : Req) : State :=
  let open_ := match r.scope with
    | .none => false
    | .slot b => s.slotBound b
    | .pair _ _ => true
  match s.model r.part r.d.model with
  | none => s
  | some m =>
    let toks := r.tokens ++ r.answer
    if open_ then s.indexFrom r m.digest toks (toks.length / 256 + 1) 0 (chainSeed m.digest r.scope) else s

/-! ### Scores (R217, R218) -/

/-- s + (m − s) × 2^(−k) in FP32, rounded to FP16. -/
def scoreRead (sc m k : Nat) : Nat :=
  let x := fmt16.decode sc
  let d := Fp.sub fmt32 (fmt32.decode m) x
  let d2 := Fp.mul fmt32 d (.fin false 1 (-(k : Int)))
  fmt16.encode (Fp.add fmt32 x d2)

/-- s − s × 2^(−a), with the same rounding. -/
def scoreAge (sc a : Nat) : Nat :=
  let x := fmt16.decode sc
  fmt16.encode (Fp.sub fmt32 x (Fp.mul fmt32 x (.fin false 1 (-(a : Int)))))

/-- The entries that hold the scores of the package: those of private pages, and splice records. -/
def State.scored (s : State) : List Nat :=
  let own := s.paging.shards.flatMap fun h => (h.pages.map fun p => s.authAt h p).filter fun a => (s.pte a).present
  (own ++ (s.paging.nodes.flatMap fun n => n.recs).filter fun a => (s.pte a).present).eraseDups

/-- AGE_PERIOD (R218). -/
def execAgePeriod (s : State) : Outcome State Fault Refusal :=
  let ms := max 1 (s.fld Key.rfeCfg 23 16)
  let a := max 1 (s.fld Key.rfeCfg 7 4)
  .next (if s.paging.aged + ms * 100000 ≤ s.tick then
    let s1 := s.scored.foldl (fun t x => t.setPte x { t.pte x with score := scoreAge (t.pte x).score a }) s
    { s1 with paging := { s1.paging with aged := s.tick } }
  else s)

/-! ### Promotion (R222) -/

/-- Bits of a burst tag of an internal client. -/
def State.nextTag (s : State) : BitVec 64 := BitVec.ofNat 64 (2 ^ 63 + s.paging.burstNo)

/-- The partition that pays for the page of an entry (128 for none), its key and its frames. -/
def State.pageOwner (s : State) (a : Nat) : Nat × Nat × Nat :=
  match s.extentAt (s.pte a).first with
  | some e => (e.use.payer.getD 128, e.key, e.len)
  | none => (128, 2047, 0)

/-- An internal burst of up to 64 entries of one partition and one key. -/
def State.internalBurst (s : State) (op : Nat) (es : List Nat) : State :=
  match es with
  | [] => s
  | a :: _ =>
    let (p, key, units) := s.pageOwner a
    let t : Tier := if op = 1 then .near else .far
    let b : Burst := {
      op := op, part := p, key := key, tag := s.nextTag, units := units
      moves := es.map fun x => { src := (s.pte x).first, dst := 0, entry := some x }
      dest := ⟨burstPool s p, t⟩ }
    { s with paging := { s.paging with burstNo := s.paging.burstNo + 1 } }.submitBurst b

/-- Entries grouped by owner, key and size, and each group cut into bursts of 64. -/
def State.internalBursts (s : State) (op : Nat) : Nat → List Nat → State
  | 0, _ => s
  | fuel + 1, es =>
    match es with
    | [] => s
    | a :: _ =>
      let mine := (es.filter fun x => decide (s.pageOwner x = s.pageOwner a)).take 64
      (s.internalBurst op mine).internalBursts op fuel (es.filter fun x => decide (x ∉ mine))

/-- The near free fraction of a pool is at least KVP_LOW plus the stop margin. -/
def State.nearRoomy (s : State) (pool : PoolId) : Bool :=
  let n := s.poolFrames pool .near
  decide (0 < n) && decide (n * (s.kvpLow + s.fld Key.rfeThresh 9 0) ≤ s.poolFree pool .near * 1000)

/-- A score is at least a threshold, both FP16. -/
def reaches (threshold score : Nat) : Bool :=
  match fmt16.decode threshold, fmt16.decode score with
  | .inf true, .fin _ _ _ => true
  | .fin a m e, .fin b n k => (Fp.toDy (.fin a m e)).le (Fp.toDy (.fin b n k))
  | _, _ => false

/-- A page's score updated by a decode read of attention mass `m`, and a far page at or above the
threshold queued for promotion (R217, R222). -/
def State.readPage (s : State) (a m : Nat) : State :=
  let e := s.pte a
  let sc := scoreRead e.score m (max 1 (s.fld Key.rfeCfg 3 0))
  let s1 := s.setPte a { e with score := sc }
  let pool := burstPool s1 (s1.pageOwner a).1
  if e.far ∧ e.present ∧ reaches (s1.fld Key.rfeThresh 31 16) sc = true ∧ s1.nearRoomy pool
      ∧ s1.inMove a = false ∧ a ∉ s1.paging.promote then
    { s1 with paging := { s1.paging with promote := s1.paging.promote ++ [a] } }
  else s1

/-- The queued promotions issued. -/
def State.issuePromotions (s : State) : State :=
  let es := s.paging.promote
  ({ s with paging := { s.paging with promote := [] } }).internalBursts 1 es.length es

/-! ### Reefing (R219 to R221) -/

/-- A candidate: its score, the DPA by which ties are broken, and the page's entry or the node. -/
structure Candidate where
  score : Nat
  dpa : Nat
  entry : Option Nat := none
  node : Option Node := none
  deriving DecidableEq, Repr

/-- Lower score first, then lower DPA. -/
def Candidate.before (a b : Candidate) : Bool :=
  decide (a.score < b.score) || (decide (a.score = b.score) && decide (a.dpa < b.dpa))

def sortCands : List Candidate → List Candidate
  | [] => []
  | x :: xs => ins x (sortCands xs)
where
  ins (x : Candidate) : List Candidate → List Candidate
    | [] => [x]
    | y :: ys => if y.before x then y :: ins x ys else x :: y :: ys

/-- The pool a page belongs to: that of its payer, or the unreserved one (R214). -/
def State.pagePool (s : State) (a : Nat) : PoolId := burstPool s (s.pageOwner a).1

/-- The page of an entry can be taken on a tier of a pool. -/
def State.takeable (s : State) (pool : PoolId) (t : Tier) (a : Nat) : Bool :=
  let e := s.pte a
  e.present && decide (frameTier e.first = t) && decide (s.pagePool a = pool) && !(s.pte a).protected_ && !s.inMove a

/-- The candidates on a tier of a pool (R220, Table 10.2): private pages that would be dropped or
demoted, droppable nodes as a whole, and other indexed pages in the near tier. A node that a lookup of this tick splices (`ahead`)
is not droppable (R228). -/
def State.candidates (s : State) (ahead : Node → Bool) (pool : PoolId) (t : Tier) : List Candidate :=
  let free := fun (n : Node) => s.droppable n && !ahead n
  let dpa := fun a => (s.pte a).first * 4096
  let priv := s.paging.shards.flatMap fun h => (h.pages.filterMap fun p =>
    let a := h.entryAt p
    let drop := match s.req h.part h.tag with
      | some r => r.d.allowDrop
      | none => false
    if !(s.pte a).shared && s.takeable pool t a && (drop || decide (t = .near)) then
      some ({ score := (s.pte a).score, dpa := dpa a, entry := some a } : Candidate)
    else none)
  let nodes := (s.paging.nodes.filter free).filterMap fun n =>
    let here := n.recs.filter fun a => s.takeable pool t a
    if here ≠ [] ∧ (n.recs.all fun a => !(s.pte a).protected_ && !s.inMove a) then
      some ({ score := s.nodeScore n, dpa := (here.map dpa).foldl min (2 ^ 43), node := some n } : Candidate)
    else none
  let shared := if t = .far then [] else
    let inNodes := (s.paging.nodes.filter fun n => !free n).flatMap fun n => n.recs
    let inShards := s.paging.shards.flatMap fun h => (h.splices.map fun x => x.2).filter fun a =>
      !(s.paging.nodes.any fun n => decide (a ∈ n.recs))
    ((inNodes ++ inShards).eraseDups.filter fun a => s.takeable pool t a).map fun a =>
      ({ score := (s.pte a).score, dpa := dpa a, entry := some a } : Candidate)
  sortCands (priv ++ nodes ++ shared)

/-- Source frames of bursts in flight or deferred that lie in a tier of a pool. -/
def State.leaving (s : State) (pool : PoolId) (t : Tier) : Nat :=
  ((s.paging.flight ++ s.paging.deferred ++ s.paging.waiting).map fun b =>
    if burstPool s b.part = pool then
      (b.moves.filter fun m => m.live && decide (frameTier m.src = t)).length * b.units else 0).sum

/-- Frames of the backlog that belong to a tier of a pool. -/
def State.poolScrub (s : State) (pool : PoolId) (t : Tier) : Nat :=
  (s.mem.scrub.map fun e =>
    let mine := match pool with
      | .own p => decide (e.part = some p.toNat)
      | .unreserved => match e.part with
        | none => true
        | some q => !s.sealedHolder q
    if mine && decide (frameTier e.start = t) then e.len else 0).sum

/-- Reefing has done enough: free frames, the backlog and the frames that leave reach KVP_LOW plus
the stop margin (R219); `extra` counts frames selected but not submitted. -/
def State.reefDone (s : State) (pool : PoolId) (t : Tier) (extra : Nat) : Bool :=
  decide (s.poolFrames pool t * (s.kvpLow + s.fld Key.rfeThresh 9 0)
    ≤ (s.poolFree pool t + s.poolScrub pool t + s.leaving pool t + extra) * 1000)

/-- The lookups that wait among the commands reach their nodes in this tick, and go first (R228): the state that they leave. -/
def State.lookAhead (s : State) : State :=
  s.pending.foldl (fun t c => match c with
    | .prefixLookup p tag _ => match t.req p.toNat tag with
      | some r => match t.model r.part r.d.model with
        | some m => if r.phase = .lookup ∧ r.lane = true ∧ r.scope ≠ .none then t.lookup r m.digest else t
        | none => t
      | none => t
    | _ => t) s

/-- A candidate shares no page with those chosen already. -/
def Candidate.fresh (c : Candidate) (chosen : List Nat) : Bool :=
  (match c.entry with
    | some a => decide (a ∉ chosen)
    | none => true)
  && (match c.node with
    | some n => n.recs.all fun a => decide (a ∉ chosen)
    | none => true)

/-- Candidates taken in ascending score until enough frames leave: drops at once, demotions gathered. A node whose last child was
dropped becomes a candidate itself. -/
def State.reefTake (s : State) (ahead : Node → Bool) (pool : PoolId) (t : Tier) (demote : List Nat) (extra : Nat) : Nat → State × List Nat
  | 0 => (s, demote)
  | fuel + 1 =>
    if s.reefDone pool t extra then (s, demote)
    else match (s.candidates ahead pool t).find? fun c => c.fresh demote with
      | none => (s, demote)
      | some c => match c.node, c.entry with
        | some n, _ => (s.dropNode n).reefTake ahead pool t demote extra fuel
        | none, some a =>
          let drop := !(s.pte a).shared && (match s.shardOfEntry a with
            | some h => match s.req h.part h.tag with
              | some r => r.d.allowDrop
              | none => false
            | none => false)
          if drop then (s.pend a true).reefTake ahead pool t demote extra fuel
          else s.reefTake ahead pool t (demote ++ [a]) (extra + (s.pageOwner a).2.2) fuel
        | none, none => (s, demote)

/-- REEF_SELECT (R219, R220). Reefing runs on a tier of a pool while it is below KVP_LOW; forced
reefing that starts raises the RFE page's interrupt bit 2. -/
def execReefSelect (pool : PoolId) (t : Tier) (s : State) : Outcome State Fault Refusal :=
  let pt : PoolTier := ⟨pool, t⟩
  let low := s.tierBelow pool t s.kvpLow
  let crit := s.tierBelow pool t s.kvpCrit
  let others := fun (l : List PoolTier) => l.filter fun x => decide (x ≠ pt)
  let s0 := { s with paging := { s.paging with
    reefing := if low then others s.paging.reefing ++ [pt] else others s.paging.reefing
    forced := if crit then others s.paging.forced ++ [pt] else others s.paging.forced } }
  let s1 := if crit ∧ pt ∉ s.paging.forced then s0.irq pgRfe 2 else s0
  .next (if low then
      let after := s1.lookAhead
      let (s2, es) := s1.reefTake (fun n => !after.indexOnly n) pool t [] 0 (s1.scored.length + s1.paging.nodes.length)
      let s3 := s2.internalBursts 2 es.length es
      let s4 := if s3.reefDone pool t 0 then
        { s3 with paging := { s3.paging with reefing := others s3.paging.reefing } } else s3
      s4.kvpUpdate
    else s1)

end Sys2Proof.Machine
end

