-- ==== Sys2Proof/Machine/Admission.lean ====
section
/-! DEFINITION. Admission, deferral and preemption, and the steps of a request (02 R26 to R30; 04 R62
to R73; 07 R134 to R153; 17 R405, R407, R408, R417). -/

namespace Sys2Proof.Machine

open Host

/-! ### Checks of a REQUEST (R65 to R67, R305, R405) -/

/-- Check 3 of R65 on a REQUEST: prio, out_log2, max_new, model, alignment, and the ring check of 17
R405. -/
def State.requestFieldBad (s : State) (p : Nat) (d : ReqDesc) (frameAddr : Nat) : Bool :=
  decide (d.prio = 3) || decide (d.outLog2 < 4) || decide (16 < d.outLog2) || decide (d.maxNew = 0)
    || decide (d.model = 0) || decide (frameAddr % 4 ≠ 0) || decide (d.outAddr.toNat % 64 ≠ 0)
    || (if d.shroud then match s.ringNamed d.ring with
        | some k => decide (s.ringPart k ≠ p)
        | none => true
      else decide (d.ring ≠ 0))

/-- A handle that a REQUEST can name: loaded, and reached by no UNLOAD_MODEL. -/
def State.loadedModel (s : State) (p handle : Nat) : Option Model :=
  match s.model p handle with
  | some m => if m.st = .loaded then some m else none
  | none => none

/-- The token frame judged (R67): a detail of REFUSED_FRAME, or the tokens and whether the frame is
longer than declared. -/
def State.frameCheck (s : State) (p : Nat) (d : ReqDesc) (frame : HostRead (List Word)) :
    Nat ⊕ (List Word × Bool) :=
  if d.count = 0 then .inl 0x02
  else match frame with
    | none => .inl 0x08
    | some ws =>
      let used := ws.take d.count
      if used.length < d.count ∨ 0xFFFFFFFF#32 ∈ used then .inl 0x01
      else
        let vocab := (s.loadedModel p d.model).map fun m => m.vocab
        if (match vocab with
          | some v => used.any fun t => decide (v ≤ t.toNat)
          | none => false) then .inl 0x07
        else .inr (used, decide (ws.getD d.count 0xFFFFFFFF ≠ 0xFFFFFFFF))

/-- The checks that follow R65: the handle (R66), the attention mode (13 R305), the ring (17 R405). -/
def State.modelCheck (s : State) (p : Nat) (d : ReqDesc) : Option (Nat × Nat) :=
  match s.model p d.model with
  | none => some (stRefusedModel, 0x01)
  | some m =>
    if m.st = .loading then some (stRefusedModel, 0x01)
    else if m.st = .unloading then some (stRefusedModel, 0x02)
    else if (if d.orderFree then !m.orderFree else !m.online) then some (stRefusedModel, 0x03)
    else if d.shroud then
      match s.ringNamed d.ring with
      | some k => if s.ringState k = 2 ∧ s.fld Key.jryStat 31 29 ≠ 1 then none else some (stRefusedStopped, 0x04)
      | none => some (stRefusedStopped, 0x04)
    else none

/-! ### Length, footprint and order (R135 to R138, R140) -/

/-- The token limit of a request (R135, R145, 17 R418). -/
def State.limitOf (s : State) (d : ReqDesc) : Nat :=
  if d.shroud then
    match s.ringNamed d.ring with
    | some k => min (s.ringSize k * 524288) 16777216
    | none => 524288
  else 524288

/-- Pages below `n` that lie on member `m` of `size` (17 R407). -/
def stripe (n size m : Nat) : Nat := if m < n then (n - m + size - 1) / size else 0

/-- The prompt pages of one shard that this package holds, and the pages of the mirror holding. -/
def State.promptPages (s : State) (d : ReqDesc) : Nat × Nat :=
  let n := ceilDiv d.count 256
  if d.shroud then
    match s.ringNamed d.ring with
    | some k =>
      let size := s.ringSize k
      let m := s.ringMember k
      (stripe n size m, if s.ringMirror k then stripe n size ((m + size - 1) % size) else 0)
    | none => (n, 0)
  else (n, 0)

/-- The home of a SHROUD request's ring is this member (17 R408). -/
def State.isHome (s : State) (d : ReqDesc) : Bool :=
  match s.ringNamed d.ring with
  | some k => decide ((ceilDiv d.count 256 - 1) % s.ringSize k = s.ringMember k)
  | none => false

/-- The footprint of a request in frames: every shard's prompt pages and one more (R135). -/
def State.needFrames (s : State) (m : Model) (d : ReqDesc) : Nat :=
  let (n, mir) := s.promptPages d
  (m.shards.map fun h => (n + 1 + mir) * pageUnits h.heads h.dim).sum

/-- Frames and pages of a request's commitment: its private pages, its holdings and its reservations
(R136). -/
def State.shardPages (s : State) (h : Shard) : Nat :=
  (h.pages.filter fun p => let e := s.pte (h.entryAt p); e.present && !e.shared).length
    + h.holding.length + h.mirrorHold.length + (if h.reservation = none then 0 else 1)
def State.chargeFrames (s : State) (p : Nat) : Nat :=
  ((s.paging.shards.filter fun h => decide (h.part = p)).map fun h => s.shardPages h * h.units).sum
def State.chargePages (s : State) (p : Nat) : Nat :=
  ((s.paging.shards.filter fun h => decide (h.part = p)).map s.shardPages).sum

/-- Live requests of a partition (R64): live REQUEST descriptors. -/
def State.liveCount (s : State) (p : Nat) : Nat :=
  (s.descs.filter fun d => decide (d.part = p) && decide (d.kind = .request)).length

/-- The queue's order: class, then preempted before deferred, then age (R140). -/
def Req.key (r : Req) : Nat × Nat × Nat := (r.d.prio, if r.preempted then 0 else 1, if r.preempted then r.admitNo else r.fetchNo)
def Req.ahead (a b : Req) : Bool :=
  let x := a.key
  let y := b.key
  decide (x.1 < y.1) || (decide (x.1 = y.1) && (decide (x.2.1 < y.2.1) || (decide (x.2.1 = y.2.1) && decide (x.2.2 < y.2.2))))

/-- A request waits: deferred or preempted. -/
def Req.waits (r : Req) : Bool := r.active && (decide (r.phase = .deferred) || r.preempted)

/-- The requests of the partition that wait ahead of `r`. -/
def State.waitingBefore (s : State) (r : Req) : List Req :=
  s.reqs.filter fun x => decide (x.part = r.part) && x.waits && decide (x.fetchNo ≠ r.fetchNo) && x.ahead r

/-- The victim of a phase: BULK before STANDARD, then the latest admitted; never LIVE, never a SHROUD
request, never one that is marked (R142, R148, 17 R410). -/
def State.pickVictim (s : State) (p : Nat) (decode : Bool) : Option Req :=
  (s.reqs.filter fun r => decide (r.part = p) && r.active && r.lane && !r.preempted
      && (if decode then r.inDecode else r.inPrefill) && decide (r.d.prio ≠ 0) && !r.d.shroud
      && decide (r.marked = none)).foldl
    (fun a r => match a with
      | none => some r
      | some x => if x.d.prio < r.d.prio ∨ (x.d.prio = r.d.prio ∧ x.admitNo < r.admitNo) then some r else some x)
    none

/-! ### Setting frames aside (R186, R407) -/

/-- One shard's page table, holding, reservation and mirror holding. -/
def State.asideShard (s : State) (r : Req) (sc : Scope) (sh : ShardShape) (idx pages mir : Nat) :
    Option State :=
  let units := pageUnits sh.heads sh.dim
  let use := Use.kv r.part
  let key := asideKey r.part sc
  match (match s.takeBlock .near 0x10000 with
    | some x => some x
    | none => s.takeBlock .far 0x10000) with
  | none => none
  | some (pt, s1) =>
    match s1.takePages r.part units use key (pages + 1) with
    | none => none
    | some (fs, s2) =>
      let rec mirrors : Nat → State → Option (List Nat × State)
        | 0, t => some ([], t)
        | n + 1, t =>
          match t.takeIn (t.poolOf r.part) .far units use r.part with
          | none => none
          | some (f, t1) => match mirrors n t1 with
            | none => none
            | some (l, t2) => some (f :: l, t2)
      match (mirrors mir s2).bind fun x => x.2.takeEntry.map fun y => (x.1, y.1, y.2) with
      | none => none
      | some (ms, re, s3) =>
        let h : Shard := {
          part := r.part, tag := r.tag, idx := idx, pt := pt, heads := sh.heads, dim := sh.dim, units := units, resEntry := re
          ring := if sh.window = 0 then 0 else ceilDiv sh.window 256 + 1
          holding := fs.take pages, reservation := fs[pages]?, mirrorHold := ms }
        some (({ s3 with paging := { s3.paging with shards := s3.paging.shards ++ [h] } } : State).setRes h)

/-- Every shard of a request, all of them or none; those with the largest pages first (DESIGN CHOICE). -/
def State.setAside (s : State) (r : Req) (m : Model) (sc : Scope) : Option State :=
  let (n, mir) := s.promptPages r.d
  let size := fun (x : ShardShape × Nat) => pageUnits x.1.heads x.1.dim
  (m.shards.zipIdx.insertionSort fun x y => size y ≤ size x).foldl (fun a x => match a with
    | none => none
    | some t => t.asideShard r sc x.1 x.2 n mir) (some s)

/-! ### The decision (R135) -/

/-- What admission decides about a request. -/
inductive Decision where
  | refuse (status detail : Nat)
  | defer (status detail ahead : Nat)
  /-- Admitted: the frames are set aside in the state, and a lane is free or a victim gives way. -/
  | accept (s : State) (victim : Option Req)

/-- The scope of a request (R206, R207, 17 R410). -/
def State.reqScope (s : State) (r : Req) (m : Model) : Scope :=
  if r.d.shroud ∨ (m.shards.any fun h => decide (h.window ≠ 0)) then .none else s.scopeFor r.part r.d.domain

/-- The admission procedure of R135. -/
def State.decide_ (s : State) (r : Req) : Decision :=
  let p := r.part
  match s.model p r.d.model with
  | none => .refuse stRefusedModel 0x01
  | some m =>
    let need := s.needFrames m r.d
    let quota := s.quota p .near + s.quota p .far
    let pool := s.poolOf p
    let frames := s.poolFrames pool .near + s.poolFrames pool .far
    let free := s.poolFree pool .near + s.poolFree pool .far
    if s.limitOf r.d < r.d.count + 1 then .refuse stRefusedLength 0x01
    else if 8192 < s.liveCount p then .refuse stRefusedQuota 0x02
    else if quota < need then .refuse stRefusedQuota 0x01
    else if s.isSealed p = false ∧ frames < need then .refuse stRefusedPool 0x01
    else
      let ahead := (s.waitingBefore r).length
      if 0 < ahead then .defer stDeferredPriority 0x00 ahead
      else if s.poolLow pool then .defer stDeferredCapacity 0x01 0
      else if quota < s.chargeFrames p + need then .defer stDeferredCapacity 0x02 0
      else if free * 1000 < need * 1000 + s.kvpLow * frames then .defer stDeferredCapacity 0x03 0
      else match s.setAside r m (s.reqScope r m) with
        | none => .defer stDeferredCapacity 0x03 0
        | some t =>
          if s.laneFreeNow p false then .accept t none
          else match (if r.d.prio = 0 then s.pickVictim p false else none) with
            | none => .defer stDeferredCapacity 0x04 0
            | some v => .accept t (some v)

/-- An ADMITTED record (04 Table 4.9). -/
def admittedRec (r : Req) (bucket : Nat) : EqRec :=
  { completion r.tag r.sq 0 0 bucket 0 0 with kind := kAdmitted }

/-- A decision carried out. A victim is marked for the request, which has no lane until it stops
(R143). -/
def State.carry (s : State) (r : Req) : Decision → State
  | .refuse st dt => s.finish r st dt none
  | .defer st dt a =>
    if r.notice = some (st, dt) then s
    else (s.setReq { r with notice := some (st, dt) }).notice r st dt a
  | .accept t victim =>
    let bucket := bucketOf (s.promptPages r.d).1
    let scope := match s.model r.part r.d.model with
      | some m => s.reqScope r m
      | none => .none
    let r1 := { r with phase := .lookup, admitNo := s.rr.admits, bucket := bucket, scope := scope
                       lane := decide (victim = none) }
    let infos := t.rel.insts.map fun (i : InstInfo) => if i.inst = r.inst then { i with admitNo := s.rr.admits } else i
    let t1 := { t.setReq r1 with rr := { t.rr with admits := t.rr.admits + 1 }
                                 rel := { t.rel with insts := infos } }
    let t2 := match victim with
      | some v => t1.setReq { v with marked := some r.tag }
      | none => t1
    t2.post r.part (admittedRec r1 bucket)

/-- A decision begins and ends: frames and lanes released in its tick count only from the next one (R147). -/
def State.beginDecision (s : State) : State := s.hideFresh 0
def State.endDecision (s : State) : State :=
  let t := s.showFresh 0
  { t with rr := { t.rr with freed := [] } }.kvpUpdate

/-- A request decided now; held shards of its pool obtain frames first (R188). -/
def State.admitNow (s : State) (r : Req) : State :=
  let s1 := s.beginDecision.reserveHeld (s.heldOf (s.poolOf r.part))
  (s1.carry r (s1.decide_ r)).endDecision

/-! ### REQUEST -/

/-- A REQUEST descriptor of an accepted type: the checks in order, then admission. -/
def State.serveRequest (s : State) (p q : Nat) (d : BitVec 1024) (frame : HostRead (List Word)) : State :=
  let tag := descTag d
  let x := reqDesc d
  let bad := s.requestFieldBad p x (dfield d 0x10 0 64)
  let checked := s.descCheck p d bad
  let s1 := s.fetch p q tag .request
  if s.ready = false then s1.refuse p q tag stRefusedStopped 0x01
  else if s.pstate p ≠ psActive ∨ (s.part p).keyOwed = true ∨ (s.part p).flr = true then s1.refuse p q tag stRefusedStopped 0x02
  else match checked with
    | some dt => s1.refuse p q tag stRefusedFrame dt
    | none =>
      let s1 := if x.count = 0 then s1
        else s1.emit (.hostRead (p + 1) (BitVec.ofNat 64 (dfield d 0x10 0 64)) (4 * (x.count + 1)))
      match s.frameCheck p x frame with
      | .inl dt => s1.refuse p q tag stRefusedFrame dt
      | .inr (toks, long) =>
        match s.modelCheck p x with
        | some (st, dt) =>
          s1.complete p (s1.nextFetch - 1) { completion tag q st dt 0 toks.length 0 with frameLong := long }
        | none =>
          let r : Req := { part := p, sq := q, tag := tag, d := x, tokens := toks, frameLong := long
                           phase := .deferred, fetchNo := s.nextFetch, inst := s.rel.nextInst }
          let s2 := s1.newInstance p q tag
          ({ s2 with reqs := s2.reqs ++ [r] }).admitNow r

/-- REQUEST (R135): the descriptor is taken from its queue, checked, and admitted, deferred or
refused. -/
def execRequest (p : BitVec 7) (q : BitVec 3) (d : BitVec 1024) (frame : HostRead (List Word)) (s : State) :
    Outcome State Fault Refusal :=
  let p := p.toNat
  let q := q.toNat
  .next (if s.servable p q 0x01 d then
    let s1 := s.fetched p q
    if descType d = 0x01 then s1.serveRequest p q d frame
    else (s1.fetch p q (descTag d) .nop).refuse p q (descTag d) stRefusedFrame 0x03
  else s)

/-! ### DEFERRED_RERUN (R140, R147) -/

/-- The head of a partition's deferred requests. -/
def State.deferredHead (s : State) (p : Nat) : Option Req :=
  (s.reqs.filter fun r => decide (r.part = p) && decide (r.phase = .deferred)).foldl
    (fun a r => match a with
      | none => some r
      | some x => if r.ahead x then some r else some x) none

/-- Decisions from the head of the queue, up to the first request that does not fit. -/
def State.rerun (s : State) (p : Nat) : Nat → State
  | 0 => s
  | n + 1 =>
    match s.deferredHead p with
    | none => s
    | some r =>
      let s1 := s.beginDecision.reserveHeld (s.heldOf (s.poolOf p))
      match s1.decide_ r with
      | .defer st dt a => (s1.carry r (.defer st dt a)).endDecision
      | dec => (s1.carry r dec).endDecision.rerun p n

/-- A partition has deferred requests. -/
def State.hasDeferred (s : State) (p : Nat) : Bool :=
  s.reqs.any fun r => decide (r.part = p) && decide (r.phase = .deferred)

/-- DEFERRED_RERUN: partitions are taken round-robin (R147). -/
def execDeferredRerun (p : BitVec 7) (s : State) : Outcome State Fault Refusal :=
  let p := p.toNat
  .next (if firstFrom 128 s.rr.adm s.hasDeferred = some p then
    let s1 := s.rerun p s.reqs.length
    { s1 with rr := { s1.rr with adm := (p + 1) % 128 } }
  else s)

/-! ### Preemption and lanes (R142 to R144, R149) -/

/-- A marked victim stops at the end of its step: NOTICE PREEMPTED, and its lane passes on. -/
def State.preempt (s : State) (r : Req) (detail : Nat) : State :=
  let s1 := s.passLane r
  let s2 := s1.setReq { r with preempted := true, lane := false, marked := none }
  (s2.notice r stPreempted detail 0).inc Key.admPreemptCnt

/-- A request that completed prefill takes a decode lane, or a LIVE one marks a decoding victim, or it gives its prefill
lane up and waits for a decode lane (R142; the wait is a DESIGN CHOICE). -/
def State.toDecode (s : State) (r : Req) : State :=
  let r1 := { r with lane := false }
  let s1 := (s.noteLane { r with phase := .prefill }).setReq r1
  if s1.laneFree r.part true then s1.setReq { r1 with lane := true }
  else if r.d.prio = 0 then
    match s1.pickVictim r.part true with
    | some v => s1.setReq { v with marked := some r.tag }
    | none => s1
  else s1

/-- The next page step of a prefill (R143): query pages of a chunk of 16, layer by layer, chunk by
chunk; `none` when the prefill is complete. -/
def nextStep (first last layers layer qpage : Nat) : Option (Nat × Nat) :=
  let chunk := first + (qpage - first) / 16 * 16
  let stop := min last (chunk + 16)
  if qpage + 1 < stop then some (layer, qpage + 1)
  else if layer + 1 < layers then some (layer + 1, chunk)
  else if stop < last then some (0, stop)
  else none

/-- Layers of which this package holds a shard. -/
def Model.layerCount (m : Model) : Nat := (m.shards.map fun h => h.layer).eraseDups.length

/-- A request's ring is not held by a recovery, its own (17 R423) or that of a ring paired with it (17 R422). -/
def State.ringRuns (s : State) (r : Req) : Bool :=
  match s.reqRing r with
  | some k => decide (s.ringState k = 2) && (s.ring k).pairedSince.isNone
  | none => true

/-- This package samples the request: its image samples, and in SHROUD mode it is the home (R72, 17
R408). -/
def State.sampling (s : State) (r : Req) : Bool :=
  (match s.model r.part r.d.model with
    | some m => m.samples
    | none => false) && (!r.d.shroud || s.isHome r.d)

/-- Answer token j + 1 of a request: the one that its walks drew, or the one given. It is the last when it is a stop token, the
max_new-th, or stands at the length limit (R72, R145). The sampling package writes its token record. -/
def State.answerToken (s : State) (r : Req) (given : BitVec 18) : State × Req :=
  let token := match r.drawn with
    | some w => w.setWidth 18
    | none => given
  let j := r.j + 1
  let w : Word := token.zeroExtend 32
  let stopped := decide (w ∈ r.d.stops)
  let full := decide (s.limitOf r.d ≤ r.d.count + j)
  let last := stopped || decide (r.d.maxNew ≤ j) || full
  let fin := if full && !stopped && decide (j < r.d.maxNew) then (stRefusedLength, 0x02) else (0, 0)
  let r1 := { r with j := j, answer := r.answer ++ [w], fin := fin, drawn := none
                     phase := if last then .final else .decode }
  if s.sampling r then s.writeTokens r1 [(token, last)] else (s, r1)

/-- PREFILL_PAGE_STEP (R143): one query page of one layer is complete. A stop takes effect here
(04 R77), and a marked victim gives its lane away. The last step of the prefill yields the first answer token (02 R28), and the
request goes on to decode. -/
def execPrefillPageStep (p : BitVec 7) (tag : BitVec 64) (s : State) (token : BitVec 18 := 0) : Outcome State Fault Refusal :=
  .next (match s.req p.toNat tag with
    | none => s
    | some r =>
      if r.phase = .prefill ∧ r.lane = true ∧ r.preempted = false ∧ s.ringRuns r = true then
        let s := s.clearSteps r.part r.tag
        match r.stop with
        | some (st, dt) => s.finish r st dt r.stopCause
        | none =>
          let layers := match s.model r.part r.d.model with
            | some m => max 1 m.layerCount
            | none => 1
          match nextStep (r.spliced / 256) (s.promptPages r.d).1 layers r.layer r.qpage with
          | some (l, q) =>
            let r1 := { r with layer := l, qpage := q }
            if r.marked = none then s.setReq r1 else s.preempt r1 0x01
          | none =>
            let (s1, r1) := s.answerToken r token
            if r.marked = none then s1.toDecode r1 else s1.preempt r1 0x01
      else s)

/-- The walks of a request that a stop held go on: spilled state areas are copied back before their next macros
issue (13 R303, 12 R275); an uncorrectable line of the spill copy ends their requests (13 R314). -/
def State.restoreWalks (s : State) (p : Nat) (tag : BitVec 64) : State :=
  let mine := fun (w : Walk) => decide (w.part = p) && w.stopped && decide (tag ∈ w.tags)
  let back := fun (t : State) (w : Walk) (a : Nat × Nat × Option Nat) => match a.2.2 with
    | some d => match t.poisoned d a.2.1 with
      | some l => w.tags.foldl (fun u g => u.lineUeFor l w.part g) t
      | none => t.wr a.1 (t.rd d a.2.1)
    | none => match w.spilled.find? fun e => decide (e.1 = a.1) with
      | some e => t.wr e.1 e.2
      | none => t
  let s1 := (s.fab.walks.filter mine).foldl (fun t w => w.liveAreas.foldl (fun u a => back u w a) t) s
  let ws := s1.fab.walks.map fun w => if mine w then { w with stopped := false, spilled := [] } else w
  { s1 with fab := { s1.fab with walks := ws } }

/-- RESUME (R144): a preempted request, or one that waits for a decode lane after its prefill, goes on
when a lane of its phase is free and no request ahead of it can use it. The state that its stop
spilled is restored (13 R303). -/
def execResume (p : BitVec 7) (tag : BitVec 64) (s : State) : Outcome State Fault Refusal :=
  let p := p.toNat
  .next (match s.req p tag with
    | none => s
    | some r =>
      let decode := r.inDecode
      let waits := r.preempted || (r.inDecode && !r.lane
        && !(s.reqs.any fun x => decide (x.part = p) && decide (x.marked = some tag)))
      let blocked := (s.waitingBefore r).any fun x =>
        if x.preempted then decide (x.inDecode = decode)
        else !decode && (match s.decide_ x with
          | .accept _ _ => true
          | _ => false)
      if r.active && waits && s.laneFree p decode && !blocked then
        (s.setReq { r with preempted := false, lane := true }).restoreWalks p tag
      else s)

/-! ### Decode rounds (R139) -/

/-- A request that takes part in its partition's decode rounds: it holds a decode lane, and nothing holds it. A SHROUD request steps
with the passes of its ring (17 R411). -/
def Req.inRound (r : Req) : Bool :=
  r.active && r.inDecode && r.lane && !r.preempted && decide (r.owed = []) && !r.d.shroud

/-- The requests of a partition that the decode round still takes; when all have stepped, a new round begins with all of them. -/
def State.roundLeft (s : State) (p : Nat) : List Req :=
  let all := s.reqs.filter fun r => decide (r.part = p) && r.inRound
  let left := all.filter fun r => !r.stepped
  if left = [] then all else left

/-- It is a request's turn: the round takes the non-empty buckets in ascending order (R139). Rounds are per partition (DEDUCED):
another partition's load does not hold a partition's steps up. -/
def State.roundTurn (s : State) (r : Req) : Bool :=
  let l := s.roundLeft r.part
  !r.inRound || ((l.any fun x => decide (x.fetchNo = r.fetchNo)) && l.all fun x => decide (r.bucket ≤ x.bucket))

/-- A request comes before another of its batch: class order, then admission order (R139). -/
def Req.batchAhead (a b : Req) : Bool :=
  decide (a.d.prio < b.d.prio) || (decide (a.d.prio = b.d.prio) && decide (a.admitNo < b.admitNo))

/-- It is a request's turn to step: the sequences of a batch step in batch order, so that a shared page takes their scores in that
order (13 R307). -/
def State.stepTurn (s : State) (r : Req) : Bool :=
  s.roundTurn r && (!r.inRound || (s.roundLeft r.part).all fun x =>
    !(decide (x.bucket = r.bucket) && decide (x.d.model = r.d.model) && decide (x.d.orderFree = r.d.orderFree) && x.batchAhead r))

/-- A request steps: with the first step of a round those of the round before are forgotten. -/
def State.noteStep (s : State) (r : Req) : State :=
  if r.inRound ∧ r.stepped = true then
    { s with reqs := s.reqs.map fun x => if x.part = r.part then { x with stepped := false } else x }
  else s

/-! ### Decode steps and the end (R29, R30, R72, R73, R145) -/

/-- The attention mass of each page read in a step (13 R307): the masses of its rows are added in FP32 in ascending KV head order, and
the sum is divided by the number of query heads. -/
def stepMasses (l : List PageMass) : List (Nat × Nat) :=
  ((l.map fun x => x.entry).eraseDups).map fun a =>
    let mine := (List.range 4).flatMap fun h => l.filter fun x => decide (x.entry = a) && decide (x.head = h)
    let sum := mine.foldl (fun y x => Fp.add fmt32 y (fmt32.decode x.mass)) (.fin false 0 0)
    (a, if sum.isZero then 0 else fmt32.encode (sum.toDy.quotient (Dy.ofNat mine.length)))

/-- The pages read in a decode step take their scores (10 R217): by the masses that its walks formed, or, where they formed none, by
those given: shard, page, attention mass in FP32. -/
def State.scoreStep (s : State) (r : Req) (masses : List (Nat × Nat × Nat)) : State :=
  let given := masses.filterMap fun x =>
    ((s.shardsOf r.part r.tag).find? fun h => decide (h.idx = x.1)).map fun h => (h.entryAt x.2.1, x.2.2)
  (((if r.masses = [] then given else stepMasses r.masses).foldl (fun t x =>
    let a := t.auth x.1
    if (t.pte a).present then t.readPage a x.2 else t) s).issuePromotions).kvpUpdate

/-- DECODE_STEP (R143): one answer token has passed through every layer, and the next is drawn. A stop takes effect at the end of
the step; when the token is the last, a CANCEL comes too late, and a RESET still ends the request (04 R77, R78, R85; 06 R111).
`ue` is an uncorrectable line that the step's reads met. -/
def execDecodeStep (p : BitVec 7) (tag : BitVec 64) (token : BitVec 18) (masses : List (Nat × Nat × Nat))
    (ue : Option Nat) (s : State) : Outcome State Fault Refusal :=
  .next (match s.req p.toNat tag with
    | none => s
    | some r =>
      if r.phase = .decode ∧ r.lane = true ∧ r.preempted = false ∧ r.owed = [] ∧ s.ringRuns r = true ∧ s.stepTurn r = true then
        let s := (s.clearSteps r.part r.tag).noteStep r
        let formed := r
        let r := { r with stepped := !r.d.shroud, masses := [] }
        match ue with
        | some a => s.lineUeFor a r.part r.tag
        | none =>
          let (s2, r2) := (s.scoreStep formed masses).answerToken r token
          let last := decide (r2.phase = .final)
          match r.stop with
          | some (st, dt) =>
            if last ∧ r.stopCause = some .cancel then s2.setReq { r2 with stop := none, stopCause := none }
            else if last then s2.setReq r2
            else (s2.setReq r2).finish r2 st dt r.stopCause
          | none => if r.marked = none then s2.setReq r2 else (s2.setReq r2).preempt r2 0x02
      else s)

/-- Tokens of the first `g` of a sequence that member `m` of `n` holds (17 R407). -/
def localTokens (g n m : Nat) : Nat := 256 * stripe (g / 256) n m + (if g / 256 % max 1 n = m then g % 256 else 0)

/-- Every shard of a request holds the keys and values of its prompt and of every answer token (02 R29). -/
def State.appended (s : State) (r : Req) : Bool :=
  let g := r.d.count + r.j
  let n := match s.reqRing r with
    | some k => localTokens g (s.ringSize k) (s.ringMember k)
    | none => g
  (s.shardsOf r.part r.tag).all fun h => decide (h.len = n)

/-- The END of a request leaves this member for its right neighbour, unless that is the home, which sent it (17 R417). -/
def State.ringPassesEnd (s : State) (d : ReqDesc) : Bool :=
  match s.ringNamed d.ring with
  | some k => decide ((s.ringMember k + 1) % max 1 (s.ringSize k) ≠ (ceilDiv d.count 256 - 1) % max 1 (s.ringSize k))
  | none => false

/-- FINAL_PASS (R29, R30): with the last token's keys and values appended the request completes;
the sampling package completes only after its last token record. A success indexes the request's
pages first (10 R215). In SHROUD mode the pass carries the home's END around the ring (17 R417). -/
def execFinalPass (p : BitVec 7) (tag : BitVec 64) (s : State) : Outcome State Fault Refusal :=
  .next (match s.req p.toNat tag with
    | none => s
    | some r =>
      if r.phase = .final ∧ r.lane = true ∧ r.preempted = false ∧ r.owed = [] ∧ s.ringRuns r = true ∧ s.stepTurn r = true
          ∧ (r.stop.isSome = true ∨ s.appended r = true) then
        let s := s.noteStep r
        match r.stop with
        | some (st, dt) => s.finish r st dt r.stopCause
        | none =>
          let (st, dt) := if r.fin.1 = 0 then (r.okStatus, 0) else r.fin
          let s1 := match s.reqRing r with
            | some k => if s.ringPassesEnd r.d then
                s.emit (.routed (BitVec.ofNat 16 (s.fld (Key.shrRingRight k) 15 0))
                  (.ring "END" [s.ringHandle k, tag.toNat, st, dt])) else s
            | none => s
          let s2 := if st ≤ 3 then s1.indexRequest r else s1
          s2.finish r st dt none
      else s)

end Sys2Proof.Machine
end

