-- ==== Sys2Proof/Machine/ImageFormat.lean ====
section
/-! DEFINITION. The formats of a model image and the checks that LOAD_MODEL makes on them: the header
(22 R545, R546), the fabric plan (11 R239 to R241), walks and macros (12 R262 to R270; 13 R301 to R304;
14 R323 to R326, R336; 18 R446), and steps (22 R548). -/

namespace Sys2Proof.Machine

/-- A little-endian number of `n` bytes at an offset of a byte string. -/
def leAt (l : List Byte) (off n : Nat) : Nat := leNat ((l.drop off).take n)

/-- A byte string of `n` bytes at an offset. -/
def cut (l : List Byte) (off n : Nat) : List Byte := (l.drop off).take n

/-! ### The header (22 Table 22.8) -/

/-- One section of the table: type, offset, length. -/
structure SectionRef where
  type : Nat
  offset : Nat
  length : Nat
  deriving DecidableEq, Repr

/-- The section table of an image. -/
def sectionTable (img : List Byte) : List SectionRef :=
  (List.range (leAt img 6 2)).map fun s =>
    { type := leAt img (0x40 + 32 * s) 2
      offset := leAt img (0x48 + 32 * s) 8
      length := leAt img (0x50 + 32 * s) 8 }

/-- The section of a type. -/
def sectionOf (l : List SectionRef) (t : Nat) : Option SectionRef := l.find? fun s => decide (s.type = t)

/-- The bytes of a section; none where it is absent. -/
def sectionBytes (img : List Byte) (t : Nat) : List Byte :=
  match sectionOf (sectionTable img) t with
  | some s => cut img s.offset s.length
  | none => []

/-- Check 1 of R546: the header and section table of an image that a descriptor says has `len` bytes. -/
def headerOk (img : List Byte) (len : Nat) : Bool :=
  let secs := leAt img 6 2
  let l := sectionTable img
  let sig := leAt img 0x18 8
  let types : List Nat := l.map SectionRef.type
  decide (img.length = len) && decide (0x40 ≤ len)
    && decide (leAt img 0 4 = 0x474D494D) && decide (leAt img 4 2 = 0x0100) && decide (1 ≤ secs) && decide (secs ≤ 16)
    && decide (leAt img 8 1 ≤ 1) && decide (leAt img 9 1 ≤ 7)
    && decide (leAt img 0x0A 6 = 0) && decide (leAt img 0x20 32 = 0)
    && decide (leAt img 0x10 8 = len) && decide (sig + 96 = len) && decide (0x40 + 32 * secs ≤ sig)
    && l.all (fun s => decide (1 ≤ s.type) && decide (s.type ≤ 8) && decide (s.offset + s.length ≤ sig))
    && ((List.range secs).all fun s => decide (leAt img (0x42 + 32 * s) 6 = 0) && decide (leAt img (0x58 + 32 * s) 8 = 0))
    && decide types.Nodup && [1, 2, 3, 8].all (fun t => decide (t ∈ types))
    && (decide (5 ∈ types) == decide (6 ∈ types))

/-- The digest of an image, and its signature's words r and s (22 R545). -/
def imageDigest (img : List Byte) : BitVec 384 := digestOf (img.take (leAt img 0x18 8))
def imageSig (img : List Byte) : List Byte := cut img (leAt img 0x18 8) 96

/-! ### SHAPE against Table 1.5 (22 R546, 01 R11) -/

/-- The limits of Table 1.5 on a shape. -/
def shapeOk (x : ShapeInfo) : Bool :=
  decide (x.layers ≤ 256) && decide (x.vocab ≤ 262144) && decide (x.headDim ∈ [64, 128, 192, 256])
    && decide (1 ≤ x.qHeads) && decide (x.qHeads ≤ 128) && decide (1 ≤ x.kvHeads) && decide (x.kvHeads ≤ 32)
    && decide (x.qHeads % x.kvHeads = 0) && decide (x.qHeads / x.kvHeads ≤ 16)
    && x.windows.all fun w => decide (w ≤ 131072)

/-! ### The fabric plan (11 R239 to R241) -/

/-- A configuration record (11 Table 11.3), 32 bytes. -/
abbrev PlanRec := BitVec 256

def PlanRec.type (r : PlanRec) : Nat := dfield r 0 0 8
def PlanRec.plan (r : PlanRec) : Nat := dfield r 1 0 8
def PlanRec.index (r : PlanRec) : Nat := dfield r 2 0 8
/-- Byte `i` of a record. -/
def PlanRec.byte (r : PlanRec) (i : Nat) : Nat := dfield r i 0 8

/-- The records of a container. -/
def planRecs (c : List Byte) : List PlanRec :=
  (List.range (leAt c 8 4)).map fun i => BitVec.ofNat 256 (leAt c (leAt c 0xC 4 + 32 * i) 32)

/-- The demand of a Spar plan: banks, Clews, Luffs, Yards. -/
structure Demand where
  banks : Nat
  clews : Nat
  luffs : Nat
  yards : Nat
  deriving DecidableEq, Repr

/-- The Spar plans of a container, their demands, and its identifier. -/
def planCount (c : List Byte) : Nat := leAt c 6 1
def demandOf (c : List Byte) (j : Nat) : Demand :=
  ⟨leAt c (0x13 + 4 * j) 1, leAt c (0x12 + 4 * j) 1, leAt c (0x11 + 4 * j) 1, leAt c (0x10 + 4 * j) 1⟩
def planId (c : List Byte) : Nat := leAt c 0x20 8

/-- The bytes of a record that its type uses (11 Table 11.4, 13 Table 13.4, 14 R335); the others are 0. -/
def recUsed (type : Nat) : List Nat :=
  [0, 1, 2] ++
  (if type = 1 then [4, 5, 6, 7] else if type = 2 then [4, 5, 6]
    else if type = 3 then [4, 5, 6, 7, 8, 9, 10, 11, 12] else if type = 4 then [4, 5, 6] else if type = 5 then [4, 5]
    else if type = 6 then [4, 5, 6, 8, 9, 10, 11, 12, 13, 14, 15, 16, 17, 18, 19, 20, 21, 22, 23, 24]
    else [4, 5, 6])

/-- The used destinations of a STREAM record: element type, index, port. -/
def PlanRec.dests (r : PlanRec) : List (Nat × Nat × Nat) :=
  ((List.range 4).filter fun i => decide (r.byte (8 + 4 * i) = 1)).map fun i =>
    (r.byte (11 + 4 * i), r.byte (10 + 4 * i), r.byte (9 + 4 * i))
def PlanRec.source (r : PlanRec) : Nat × Nat × Nat := (r.byte 4, r.byte 5, r.byte 6)

/-- A record of good form (detail 0x10). -/
def recFormOk (plans : Nat) (r : PlanRec) : Bool :=
  decide (1 ≤ r.type) && decide (r.type ≤ 7) && decide (r.plan < plans)
    && ((List.range 32).all fun i => decide (i ∈ recUsed r.type) || decide (r.byte i = 0))
    && (if r.type = 2 then decide (r.byte 5 ≤ 48) && decide (1 ≤ r.byte 6) && decide (r.byte 6 ≤ 8)
        else if r.type = 4 then decide (r.byte 4 ≤ 1)
        else if r.type = 6 then decide (2 ≤ r.byte 24) && decide (r.byte 24 ≤ 32)
          && (List.range 4).all (fun i => decide (r.byte (8 + 4 * i) ≤ 1))
        else if r.type = 7 then decide (r.byte 4 ≤ 3) else true)

/-- Elements of a type that a plan has: its demand, one scatter engine, four ports, 256 streams. -/
def Demand.count (d : Demand) (type : Nat) : Nat :=
  if type = 1 then d.yards else if type = 2 then d.luffs else if type = 3 then d.clews else if type = 4 then d.banks
  else if type = 5 then 1 else if type = 7 then 4 else 256

/-- The checks PLAN_FORMAT, PLAN_RANGE and PLAN_STREAM (11 R241); 0 when they pass. -/
def planCheck (c : List Byte) : Nat :=
  let plans := planCount c
  let n := leAt c 8 4
  let off := leAt c 0xC 4
  let recs := planRecs c
  let js := List.range plans
  let streams := fun (j : Nat) => recs.filter fun r => decide (r.type = 6) && decide (r.plan = j)
  let ids := fun (j : Nat) => (streams j).map PlanRec.index
  let known := fun (j x : Nat) => decide (x ∈ ids j)
  if leAt c 0 4 ≠ 0x4E4C5046 ∨ leAt c 4 2 ≠ 0x0100 ∨ plans < 1 ∨ 4 < plans ∨ leAt c 7 1 ≠ 0 ∨ n < 1 ∨ 16384 < n
      ∨ off % 32 ≠ 0 ∨ off < 0x40 ∨ c.length < off + 32 * n ∨ leAt c 0x28 24 ≠ 0
      ∨ (List.range 4).any (fun j => decide (plans ≤ j) && decide (leAt c (0x10 + 4 * j) 4 ≠ 0))
      ∨ recs.any (fun r => !recFormOk plans r) then 0x10
  else if js.any (fun j =>
      let d := demandOf c j
      decide (d.banks < 1) || decide (48 < d.banks) || decide (4 < d.clews) || decide (2 < d.luffs) || decide (8 < d.yards))
      ∨ recs.any (fun r => decide ((demandOf c r.plan).count r.type ≤ r.index)) then 0x11
  else if js.any (fun j =>
      let ss := streams j
      ss.any (fun r => decide (r.byte 4 = 0) || decide (r.dests = []))
        || !decide (ss.map PlanRec.source).Nodup || !decide (ss.flatMap PlanRec.dests).Nodup
        || recs.any fun r => decide (r.plan = j) &&
          (if r.type = 1 then [4, 5, 6, 7].any fun i => !known j (r.byte i)
           else if r.type = 4 then decide (r.byte 4 = 1) && (!known j (r.byte 5) || !known j (r.byte 6))
           else if r.type = 7 then [5, 6].any fun i => decide (r.byte i ≠ 0xFF) && !known j (r.byte i)
           else false)) then 0x12
  else 0

/-! ### Macros (12 Tables 12.2 to 12.4) -/

/-- A macro: 128 bytes. -/
abbrev Mac := BitVec 1024

def Mac.op (w : Mac) : Nat := dfield w 0 0 8
def Mac.last (w : Mac) : Bool := decide (dfield w 1 4 1 = 1)
def Mac.stepEnd (w : Mac) : Bool := decide (dfield w 1 3 1 = 1)
def Mac.sync (w : Mac) : Bool := decide (dfield w 1 2 1 = 1)
def Mac.rel (w : Mac) : Bool := decide (dfield w 1 1 1 = 1)
def Mac.acq (w : Mac) : Bool := decide (dfield w 1 0 1 = 1)
def Mac.fmtA (w : Mac) : Nat := dfield w 2 4 4
def Mac.fmtB (w : Mac) : Nat := dfield w 2 0 4
def Mac.fmtC (w : Mac) : Nat := dfield w 3 4 4
def Mac.bSingle (w : Mac) : Bool := decide (dfield w 3 0 1 = 1)
def Mac.yardMask (w : Mac) : Nat := dfield w 4 0 8
def Mac.kSplit (w : Mac) : Nat := dfield w 5 0 8
def Mac.epi (w : Mac) : Nat := dfield w 6 0 8
/-- The source of bound `i`: M, N, K, batch. -/
def Mac.bsrc (w : Mac) (i : Nat) : Nat := dfield w 7 (2 * i) 2
/-- The field of bound `i`. -/
def Mac.bound (w : Mac) (i : Nat) : Nat := if i = 3 then dfield w 0x14 0 16 else dfield w (8 + 4 * i) 0 32
def Mac.grp (w : Mac) : Nat := dfield w 0x16 0 8
def Mac.boundAddr (w : Mac) : Nat := dfield w 0x18 0 64
def Mac.u16 (w : Mac) (off : Nat) : Nat := dfield w off 0 16
def Mac.u8 (w : Mac) (off : Nat) : Nat := dfield w off 0 8
def Mac.u32 (w : Mac) (off : Nat) : Nat := dfield w off 0 32
def Mac.u64 (w : Mac) (off : Nat) : Nat := dfield w off 0 64

/-- An operand descriptor (12 Table 12.4). -/
structure Operand where
  base : Nat
  ld : Nat
  bstride : Nat
  sram : Bool
  trans : Bool
  plist : Bool
  deriving DecidableEq, Repr

/-- The operand descriptor at an offset of a macro. -/
def Mac.operand (w : Mac) (off : Nat) : Operand where
  base := w.u64 off
  ld := w.u32 (off + 8)
  bstride := w.u32 (off + 0xC)
  sram := decide (dfield w (off + 0x10) 2 1 = 1)
  trans := decide (dfield w (off + 0x10) 1 1 = 1)
  plist := decide (dfield w (off + 0x10) 0 1 = 1)

/-- The bits of an operand descriptor that are used; trans only in op_b. -/
def operandUsed (off : Nat) (trans : Bool) : List (Nat × Nat × Nat) :=
  [(off, 0, 64), (off + 8, 0, 32), (off + 0xC, 0, 32), (off + 0x10, 0, 1), (off + 0x10, 2, 1)]
    ++ (if trans then [(off + 0x10, 1, 1)] else [])

/-- The bits of a macro that its op uses (12 Tables 12.2, 12.3; 13 Table 13.3; 14 Table 14.8; 18 Table
18.6). -/
def macUsed (op : Nat) : List (Nat × Nat × Nat) :=
  let head := [(0, 0, 8), (1, 0, 5)]
  if op = 1 then
    head ++ [(2, 0, 8), (3, 4, 4), (3, 0, 1), (4, 0, 32), (8, 0, 96), (0x14, 0, 24), (0x18, 0, 64)]
      ++ operandUsed 0x20 false ++ operandUsed 0x38 true ++ operandUsed 0x50 false
      ++ [(0x68, 0, 64), (0x70, 0, 72)]
  else if op = 2 then
    head ++ [(2, 4, 4), (3, 4, 4), (7, 0, 4), (7, 6, 2), (8, 0, 64), (0x14, 0, 16), (0x18, 0, 64)]
      ++ operandUsed 0x20 false ++ operandUsed 0x50 false
  else if op = 3 then
    head ++ [(4, 0, 2), (5, 0, 8), (6, 0, 2), (7, 4, 2), (7, 0, 3), (8, 0, 4), (9, 0, 24), (0xC, 0, 64), (0x14, 0, 16),
      (0x18, 0, 64)] ++ operandUsed 0x20 false ++ operandUsed 0x38 false ++ operandUsed 0x50 false ++ operandUsed 0x68 false
  else if op = 4 then
    head ++ [(4, 0, 4), (5, 0, 16), (7, 6, 2), (8, 0, 8), (9, 0, 2), (0xC, 0, 160)]
      ++ operandUsed 0x20 false ++ operandUsed 0x38 false ++ operandUsed 0x50 false ++ operandUsed 0x68 false
  else if op = 5 then [(0, 0, 8), (8, 0, 64)]
  else
    head ++ [(4, 0, 8), (5, 4, 4), (5, 0, 3), (6, 0, 16), (8, 0, 64), (0x10, 0, 8), (0x11, 0, 2), (0x14, 0, 32)]
      ++ operandUsed 0x20 false ++ operandUsed 0x38 false

/-- A reserved bit of a macro is set. -/
def macReserved (w : Mac) : Bool :=
  let mask := ((macUsed w.op).map fun x => (2 ^ x.2.2 - 1) * 2 ^ (8 * x.1 + x.2.1)).sum
  decide (w.toNat &&& (2 ^ 1024 - 1 - mask) ≠ 0)

/-- Bytes of an element of a format code (12 Table 12.2). -/
def fmtBytes (f : Nat) : Nat := if f ≤ 2 then 1 else if f ≤ 4 then 2 else 4

/-- A pair that Table 11.5 lists (11 R244), and its K chunk. -/
def pairOk (a b : Nat) : Bool :=
  (decide (a ≤ 1) && decide (b ≤ 1)) || (decide (a = 2) && decide (b = 2))
    || (decide (a = 3) && (decide (b = 3) || decide (b ≤ 1))) || (decide (a = 4) && decide (b = 4))
def kChunk (a : Nat) : Nat := if a ≤ 2 then 32 else 16

/-- Ones of a mask of at most 8 bits. -/
def popcount (n : Nat) : Nat := ((List.range 8).filter fun i => n.testBit i).length

/-- The tile rules of Table 12.6 that are checked at load. -/
def tileOk (w : Mac) : Bool :=
  let mt := w.u16 0x68; let nt := w.u16 0x6A; let kt := w.u16 0x6C
  let ms := w.u16 0x70; let ns := w.u16 0x72; let ks := w.u16 0x74
  let ea := fmtBytes w.fmtA
  let eb := fmtBytes w.fmtB
  let kc := kChunk w.fmtA
  let oy := w.u8 0x78
  [mt, nt, ms, ns].all (fun x => decide (x % 32 = 0) && decide (0 < x))
    && [kt, ks].all (fun x => decide (x % kc = 0) && decide (0 < x)) && decide (ns ≤ 256)
    && decide (mt % ms = 0) && decide (nt % ns = 0) && decide (kt % ks = 0)
    && decide (w.u8 0x6E ≤ 5) && decide (w.u8 0x76 ≤ 5) && (decide (oy = 1) || decide (oy = 4))
    && (decide (oy ≠ 4) || decide (ms / 32 * (ns / 32) ≤ 8))
    && decide (ks * ns * eb ≤ if w.bSingle then 524288 else 262144)
    && decide (2 * (if (w.operand 0x20).sram then 0 else mt * kt * ea)
        + 2 * (if (w.operand 0x38).sram then 0 else kt * nt * eb) ≤ w.u8 0x77 * 0x200000)
    && (decide (w.kSplit ≤ 1) || decide (w.epi ≠ 0xFF))

/-- The check of a GEMM macro under a demand (12 R262, R264); 0 when it passes. -/
def gemmCheck (d : Demand) (w : Mac) : Nat :=
  if 4 < w.fmtA ∨ 4 < w.fmtB ∨ 6 < w.fmtC ∨ macReserved w = true ∨ (List.range 4).any (fun i => decide (w.bsrc i = 3))
      ∨ w.grp = 0 then 0x14
  else if pairOk w.fmtA w.fmtB = false
      ∨ (w.epi = 0xFF ∧ w.fmtC ≠ (if w.fmtA = 2 then 6 else 5)) ∨ (w.epi ≠ 0xFF ∧ (w.fmtC = 2 ∨ w.fmtC = 6)) then 0x15
  else if tileOk w = false then 0x16
  else if w.yardMask = 0 ∨ 2 ^ d.yards ≤ w.yardMask ∨ d.banks < w.u8 0x6F + w.u8 0x77 ∨ w.kSplit = 0 ∨ 8 < w.kSplit
      ∨ popcount w.yardMask % w.kSplit ≠ 0 then 0x17
  else 0

/-- The check of a COPY macro. -/
def copyCheck (w : Mac) : Nat :=
  if 6 < w.fmtA ∨ w.fmtC ≠ w.fmtA ∨ macReserved w = true ∨ [0, 1, 3].any (fun i => decide (w.bsrc i = 3)) then 0x14 else 0

/-! ### ATTN macros (13 Table 13.3) -/

def Mac.luffMask (w : Mac) : Nat := dfield w 4 0 2
def Mac.pass (w : Mac) : Nat := dfield w 5 6 2
def Mac.causal (w : Mac) : Bool := decide (dfield w 5 5 1 = 1)
def Mac.window (w : Mac) : Bool := decide (dfield w 5 4 1 = 1)
def Mac.decode (w : Mac) : Bool := decide (dfield w 5 3 1 = 1)
def Mac.first (w : Mac) : Bool := decide (dfield w 5 2 1 = 1)
def Mac.final (w : Mac) : Bool := decide (dfield w 5 1 1 = 1)
def Mac.partial_ (w : Mac) : Bool := decide (dfield w 5 0 1 = 1)
def Mac.mass (w : Mac) : Bool := decide (dfield w 6 1 1 = 1)
def Mac.fmtO (w : Mac) : Nat := dfield w 6 0 1
def Mac.headDim (w : Mac) : Nat := 64 * (dfield w 7 4 2 + 1)
def Mac.shardHeads (w : Mac) : Nat := dfield w 7 0 3
def Mac.kvHeads (w : Mac) : Nat := dfield w 8 0 4
def Mac.qGroup (w : Mac) : Nat := dfield w 9 0 8
def Mac.kpMode (w : Mac) : Nat := dfield w 0xA 0 8
def Mac.diag (w : Mac) : Nat := dfield w 0xB 0 8
def Mac.win (w : Mac) : Nat := w.u32 0xC

/-- The range and consistency rules of an ATTN macro (13 R302, R304, R310). -/
def attnCheck (d : Demand) (w : Mac) : Nat :=
  if macReserved w = true ∨ w.shardHeads < 1 ∨ 4 < w.shardHeads ∨ 2 ^ w.shardHeads ≤ w.kvHeads
      ∨ w.qGroup < 1 ∨ 16 < w.qGroup ∨ 64 < w.qGroup * w.shardHeads ∨ 2 < w.kpMode ∨ 16 < w.diag
      ∨ (w.window = true ∧ (w.win < 1 ∨ 131072 < w.win)) ∨ (w.window = false ∧ w.win ≠ 0)
      ∨ (w.pass = 3 ∧ (w.first = false ∨ w.final = false)) ∨ (w.pass = 1 ∧ (w.final = true ∨ w.partial_ = true))
      ∨ (w.kpMode = 1 ∧ w.final = true) ∨ (w.decode = true ∧ w.kpMode ≠ 0) ∨ (w.mass = true ∧ w.decode = false) then 0x14
  else if w.luffMask = 0 ∨ 2 ^ d.luffs ≤ w.luffMask then 0x17
  else 0

/-! ### XFER macros (18 Table 18.6) -/

def Mac.xkind (w : Mac) : Nat := w.u8 4
def Mac.xvc (w : Mac) : Nat := dfield w 5 4 4
def Mac.lgroup (w : Mac) : Nat := dfield w 5 0 3
def Mac.xfmt (w : Mac) : Nat := w.u8 6
def Mac.peer (w : Mac) : Nat := w.u8 7
def Mac.statsOp (w : Mac) : Nat := w.u8 0x10

/-- The form of an XFER macro. -/
def xferCheck (w : Mac) : Nat :=
  if macReserved w = true ∨ w.xkind < 1 ∨ 6 < w.xkind ∨ w.xvc < 1 ∨ 5 < w.xvc ∨ w.xfmt ∉ [3, 4, 5, 6]
      ∨ 2 < dfield w 0x11 0 2 ∨ (w.xkind = 6 ∧ (w.statsOp < 1 ∨ 4 < w.statsOp)) then 0x14 else 0

/-- The check of one macro but for CLEW macros, under its plan's demand (12 R262, 13 R304). -/
def macCheck (d : Demand) (w : Mac) : Nat :=
  if w.op = 1 then gemmCheck d w
  else if w.op = 2 then copyCheck w
  else if w.op = 3 then attnCheck d w
  else if w.op = 4 ∨ w.op = 5 then (if macReserved w then 0x14 else 0)
  else if w.op = 6 then xferCheck w
  else 0x14

/-! ### Clew programs, epilogue records and CLEW macros (14 R336) -/

def Mac.clewMask (w : Mac) : Nat := dfield w 4 0 4
def Mac.ckind (w : Mac) : Nat := w.u8 5
def Mac.func (w : Mac) : Nat := w.u8 6
def Mac.csat (w : Mac) : Bool := decide (dfield w 7 7 1 = 1)
def Mac.rms (w : Mac) : Bool := decide (dfield w 7 6 1 = 1)
def Mac.fmtIn (w : Mac) : Nat := dfield w 8 4 4
def Mac.fmtOut (w : Mac) : Nat := dfield w 8 0 4
def Mac.crsrc (w : Mac) : Nat := dfield w 9 0 2
def Mac.cols (w : Mac) : Nat := w.u32 0x10

/-- A step word: op, dst, a, b, c, imm (14 Table 14.5). -/
def stepField (x h l : Nat) : Nat := bitsOf x h l

/-- Program `p` of a store: its step words. -/
def programOf (c : ClewInfo) (p : Nat) : List Nat :=
  match c.programs[p]? with
  | some (st, n) => ((c.steps.drop st).take n)
  | none => []

/-- A program that ends within its steps, whose ops are known and whose imms are in range. -/
def programOk (l : List Nat) : Bool :=
  match l with
  | [] => false
  | x :: rest =>
    let op := stepField x 31 26
    let imm := stepField x 9 0
    if op = 0 then true
    else if 0x0B < op then false
    else if op = 7 ∧ (imm < 1 ∨ 0x0F < imm) then false
    else if op = 8 ∧ 63 < imm then false
    else programOk rest

/-- A function code or the call of a program of the store. -/
def funcOk (c : ClewInfo) (f : Nat) : Bool :=
  (decide (1 ≤ f) && decide (f ≤ 0x0F)) || (decide (0x80 ≤ f) && decide (f < 0xC0) && decide (programOf c (f - 0x80) ≠ []))

/-- The limit on the columns of a CLEW macro (14 Table 14.10). -/
def colLimit (k : Nat) : Nat := if k = 5 then 32768 else if 2 ≤ k ∧ k ≤ 4 then 262144 else if 6 ≤ k then 131072 else 0xFFFFFFFF

/-- The check of a CLEW macro (14 R336). -/
def clewCheck (c : ClewInfo) (d : Demand) (w : Mac) : Nat :=
  if w.ckind < 1 ∨ 8 < w.ckind ∨ (w.ckind = 1 ∧ funcOk c w.func = false) ∨ 6 < w.fmtIn ∨ 6 < w.fmtOut ∨ 2 < w.crsrc
      ∨ (w.crsrc = 0 ∧ 65536 < w.u32 0xC) ∨ colLimit w.ckind < w.cols
      ∨ (6 ≤ w.ckind ∧ (w.u32 0x14 < 1 ∨ 1048576 < w.u32 0x14)) then 0x14
  else if w.clewMask = 0 ∨ 2 ^ d.clews ≤ w.clewMask then 0x17
  else 0

/-- The form of an epilogue record (14 Table 14.7). -/
def epiOk (c : ClewInfo) (r : BitVec 256) : Bool :=
  decide (dfield r 1 0 1 = 0) && decide (dfield r 2 0 16 = 0) && decide (dfield r 1 4 2 ≤ 2) && decide (dfield r 1 1 2 ≤ 2)
    && (decide (dfield r 0 0 8 = 0xFF) || funcOk c (dfield r 0 0 8))

/-! ### Walks and steps (22 R547, R548) -/

/-- An entry of the walk table. -/
structure WalkEntry where
  phase : Nat
  mode : Nat
  plan : Nat
  layer : Nat
  count : Nat
  offset : Nat
  regs : List Word
  deriving DecidableEq, Repr

/-- The walk table of a WALKS section. -/
def walkEntry (w : List Byte) (i : Nat) : WalkEntry :=
  let a := 0x40 + 64 * i
  { phase := leAt w a 1, mode := leAt w (a + 1) 1, plan := leAt w (a + 2) 1, layer := leAt w (a + 3) 1
    count := leAt w (a + 4) 4, offset := leAt w (a + 8) 8
    regs := (List.range 12).map fun k => BitVec.ofNat 32 (leAt w (a + 0x10 + 4 * k) 4) }
def walkTable (w : List Byte) : List WalkEntry := (List.range (leAt w 0 4)).map (walkEntry w)

/-- The macros of a walk. -/
def walkMacs (w : List Byte) (e : WalkEntry) : List Mac :=
  (List.range e.count).map fun i => BitVec.ofNat 1024 (leAt w (e.offset + 128 * i) 128)

/-- The walk table lies in its section and names plans of the container. -/
def walksOk (w : List Byte) (plans : Nat) : Bool :=
  decide (0x40 + 64 * leAt w 0 4 ≤ w.length) && (walkTable w).all fun e =>
    decide (e.phase ≤ 1) && decide (e.mode ≤ 2) && decide (e.plan < plans) && decide (e.offset % 128 = 0)
      && decide (e.offset + 128 * e.count ≤ w.length)

/-- The first failing check among some; 0 when all pass. -/
def firstBad : List Nat → Nat
  | [] => 0
  | x :: rest => if x ≠ 0 then x else firstBad rest

/-- The checks of R262 and R304 on every macro of the image. -/
def walksCheck (w c : List Byte) : Nat :=
  if walksOk w (planCount c) = false then 0x14
  else firstBad ((walkTable w).flatMap fun e => (walkMacs w e).map (macCheck (demandOf c e.plan)))

/-- The checks of R336. -/
def clewSectionCheck (w c : List Byte) (x : ClewInfo) : Nat :=
  let called := (List.range 64).filter fun p => decide (programOf x p ≠ [])
  if (x.programs.any fun p => decide (32 < p.2) || decide (256 < p.1 + p.2))
      ∨ (x.epis.any fun l => decide (255 < l.length) || l.any fun r => !epiOk x r) then 0x14
  else if called.any fun p => !programOk (programOf x p) then 0x18
  else firstBad ((walkTable w).flatMap fun e =>
    ((walkMacs w e).filter fun m => decide (m.op = 4)).map (clewCheck x (demandOf c e.plan)))

/-- An entry of the STEPS section: phase, mode, kind (0 walk, 1 job), index, predecessors. -/
structure StepEntry where
  phase : Nat
  mode : Nat
  kind : Nat
  index : Nat
  preds : List Nat
  deriving DecidableEq, Repr

def stepEntry (b : List Byte) (i : Nat) : StepEntry :=
  { phase := leAt b (16 * i) 1, mode := leAt b (16 * i + 1) 1, kind := leAt b (16 * i + 2) 1
    index := leAt b (16 * i + 4) 2
    preds := ((List.range 4).map fun k => leAt b (16 * i + 6 + 2 * k) 2).filter fun x => decide (x ≠ 0xFFFF) }
def stepTable (b : List Byte) : List StepEntry := (List.range (b.length / 16)).map (stepEntry b)

/-! ### What a model gets from its walks -/

/-- The attention layers of the image: for each layer, the shard that the first ATTN macro of its walks
names (13 Table 13.3). -/
def shardShapes (w : List Byte) : List ShardShape :=
  let all := (walkTable w).filterMap fun e =>
    ((walkMacs w e).find? fun m => decide (m.op = 3)).map fun m =>
      ({ layer := e.layer, heads := m.shardHeads, dim := m.headDim, window := m.win } : ShardShape)
  (List.range 256).filterMap fun l => all.find? fun x => decide (x.layer = l)

/-- The image holds a list of a mode for every layer and phase (13 R305): 1 online, 2 ORDER-FREE. -/
def hasMode (w : List Byte) (m : Nat) : Bool :=
  let t := walkTable w
  t.all fun e => t.any fun x => decide (x.phase = e.phase) && decide (x.layer = e.layer) && (decide (x.mode = 0) || decide (x.mode = m))

/-- A decode walk of the image samples (04 R72). -/
def hasSample (w : List Byte) : Bool :=
  (walkTable w).any fun e => decide (e.phase = 1) && (walkMacs w e).any fun m => decide (m.op = 4) && decide (m.ckind = 5)

end Sys2Proof.Machine
end

