-- ==== Sys2Proof/Machine/CanvasFormat.lean ====
section
/-! DEFINITION. What an image says about the Canvas: job descriptors, tile maps, the weight section and
its group records, and the checks of 15 R350 and 16 R377 on them. -/

namespace Sys2Proof.Machine

/-! ### Job descriptors (15 Table 15.2) -/

abbrev JobDesc := BitVec 512

def JobDesc.op (d : JobDesc) : Nat := dfield d 0x00 0 8
def JobDesc.fmtOut (d : JobDesc) : Nat := dfield d 0x01 0 2
def JobDesc.tilesK (d : JobDesc) : Nat := dfield d 0x02 0 8
def JobDesc.tilesN (d : JobDesc) : Nat := dfield d 0x04 0 16
def JobDesc.vsrc (d : JobDesc) : Nat := dfield d 0x06 0 8
def JobDesc.k (d : JobDesc) : Nat := dfield d 0x08 0 32
def JobDesc.n (d : JobDesc) : Nat := dfield d 0x0C 0 32
def JobDesc.vectors (d : JobDesc) : Nat := dfield d 0x10 0 32
def JobDesc.xLd (d : JobDesc) : Nat := dfield d 0x14 0 32
def JobDesc.map (d : JobDesc) : Nat := dfield d 0x18 0 64
def JobDesc.x (d : JobDesc) : Nat := dfield d 0x20 0 64
def JobDesc.y (d : JobDesc) : Nat := dfield d 0x28 0 64
def JobDesc.yLd (d : JobDesc) : Nat := dfield d 0x30 0 32
def JobDesc.scale (d : JobDesc) : Nat := dfield d 0x38 0 64

/-- The bytes of the address fields, which LOAD_MODEL or the start of the job relocates (22 R547). -/
abbrev jobAddrs : List Nat := [0x18, 0x20, 0x28, 0x38]

/-- The ranges of Table 15.2 and of R364. -/
def JobDesc.inRange (d : JobDesc) : Bool :=
  decide (d.op = 1) && decide (d.fmtOut ≤ 1) && decide (1 ≤ d.k) && decide (d.k ≤ 65536) && decide (1 ≤ d.n)
    && decide (d.n ≤ 262144) && decide (d.tilesK = (d.k + 1023) / 1024) && decide (d.tilesN = (d.n + 1023) / 1024)
    && decide (d.vsrc ≤ 2) && decide (1 ≤ d.vectors) && decide (d.vectors ≤ 65536) && decide (d.xLd % 64 = 0)
    && decide (d.yLd % 64 = 0) && decide (d.tilesK * d.tilesN ≤ 8192)

/-- The place of the map entry of tile (i, j) in the map. -/
def JobDesc.entry (d : JobDesc) (i j : Nat) : Nat := 8 * (i * d.tilesN + j)

/-- The pair bit of a map entry (R350), and the panel it names as die × 2,048 + panel. -/
def mapPair (e : Nat) : Bool := e.testBit 18
def mapPanel (e : Nat) : Nat := e / 65536 % 4 * 2048 + e % 65536

/-- The job descriptors that STEPS names: index i is the i-th of the CANVAS_JOBS section. -/
def jobAt (img : List Byte) (i : Nat) : JobDesc := BitVec.ofNat 512 (leAt (sectionBytes img 5) (64 * i) 64)
def jobIndices (img : List Byte) : List Nat :=
  (((stepTable (sectionBytes img 8)).filter fun e => decide (e.kind = 1)).map StepEntry.index).eraseDups

/-! ### The weight section (16 Tables 16.2 and 16.3) -/

/-- A group record. -/
structure GroupRec where
  logical : Nat
  mode : Nat
  policy : Nat
  gain : Nat
  mask : Nat
  payload : Nat
  /-- The reserved bits of the record are zero. -/
  clean : Bool
  deriving DecidableEq, Repr

/-- The group records of a weight section; `group_offset` counts from the section's first byte. -/
def groupRecs (w : List Byte) : List GroupRec :=
  (List.range (leAt w 6 2)).map fun i =>
    let a := leAt w 8 4 + 32 * i
    let b := leAt w (a + 3) 1
    { logical := leAt w a 2, mode := leAt w (a + 2) 1, policy := b / 4 % 2, gain := b % 4
      mask := leAt w (a + 4) 4, payload := leAt w (a + 8) 8
      clean := decide (b / 8 = 0) && decide (leAt w (a + 0x10) 16 = 0) }

/-- The panels of a group that a record names, each with its payload's place in the image: of an
AVERAGED pair, both panels get the one payload (R378). -/
def GroupRec.panels (r : GroupRec) : List (Nat × Nat) :=
  let named := (List.range 32).filter fun q => r.mask.testBit q
  let placed := named.zipIdx.map fun e => (e.1, r.payload + 524288 * e.2)
  if r.mode = 1 then placed.flatMap fun e => [e, (e.1 + 1, e.2)] else placed

/-- The panels that must be in service in a physical group that takes a record (R376). -/
def GroupRec.needs (r : GroupRec) : List Nat := r.panels.map fun e => e.1

/-- A byte of a payload whose nibbles are weights: no nibble is 0x8. -/
def weightByte (b : Byte) : Bool := decide (b.toNat % 16 ≠ 8) && decide (b.toNat / 16 ≠ 8)

def strictlyRising : List Nat → Bool
  | [] => true
  | [_] => true
  | a :: b :: rest => decide (a < b) && strictlyRising (b :: rest)

/-- The check CANVAS_IMAGE of R377. -/
def weightCheck (img : List Byte) : Nat :=
  match sectionOf (sectionTable img) 6 with
  | none => 0
  | some sec =>
    let w := cut img sec.offset sec.length
    let off := leAt w 8 4
    let n := leAt w 6 2
    let recs := groupRecs w
    if leAt w 0 4 ≠ 0x53564E43 ∨ leAt w 4 2 ≠ 0x0100 ∨ n < 1 ∨ 256 < n ∨ off % 32 ≠ 0 ∨ w.length < off + 32 * n
        ∨ leAt w 0xC 0x34 ≠ 0 then 0x1A
    else if strictlyRising (recs.map GroupRec.logical) = false ∨ recs.any (fun r => !r.clean || decide (255 < r.logical)
        || decide (1 < r.mode) || (decide (r.mode = 1) && decide (r.mask &&& 0xAAAAAAAA ≠ 0))) then 0x1A
    else if recs.any (fun r => r.panels.any fun e => decide (img.length < e.2 + 524288)
        || !(cut img e.2 524288).all weightByte) then 0x1A
    else 0

/-- The check CANVAS_MAP of R350 on one job: the descriptor, and every map entry, which lies in the image. -/
def jobOk (img : List Byte) (recs : List GroupRec) (i : Nat) : Bool :=
  let d := jobAt img i
  let base := d.map % 2 ^ 62
  decide (64 * i + 64 ≤ (sectionBytes img 5).length) && d.inRange && decide (d.map / 2 ^ 62 = 2)
    && decide (base + 8 * (d.tilesK * d.tilesN) ≤ img.length)
    && (List.range (d.tilesK * d.tilesN)).all fun t =>
      let e := leAt img (base + 8 * t) 8
      let q := mapPanel e
      match recs.find? fun r => decide (r.logical = q / 32) with
      | none => false
      | some r => decide (e % 65536 < 2048) && (!mapPair e || (decide (q % 2 = 0) && decide (r.mode = 1)))

def jobsCheck (img : List Byte) : Nat :=
  if (jobIndices img).all (jobOk img (groupRecs (sectionBytes img 6))) then 0 else 0x19

end Sys2Proof.Machine
end

