-- ==== Sys2Proof/Machine/Canvas.lean ====
section
/-! DEFINITION. Canvas evaluation (15): jobs, input buffers, slots, converters, the overflow policy and the
combiner, and the commands EVAL, EVALUATION_SLOT and RETRY_REPEAT.

The charge that a column gathers is free but for what the spec says of it: `Config.charge` gives how far
it lies from the ideal one, and R393 bounds the value that a column puts out. -/

namespace Sys2Proof.Machine

open Host

/-! ### Panels and groups (R346, R347) -/

abbrev dieOfPanel (q : Nat) : Nat := q / 2048
abbrev groupOfPanel (q : Nat) : Nat := q / 32

/-- CPG_STAT.programmed and CPG_STAT.averaged of a group, and f_c × f_T in Q2.14 (16 R384). -/
def State.programmed (s : State) (g : Nat) : Bool := s.bit (Key.cpgStat g) 30
def State.averaged (s : State) (g : Nat) : Bool := s.bit (Key.cpgStat g) 29
def q14Mul (a b : Nat) : Nat := min 0xFFFF (shrRne (a * b) 14)

/-- Physical column of weight column `c`: the last spare that it took, or itself (16 R379, R390). -/
def spareIx (c : Nat) : List Nat → Nat → Option Nat
  | [], _ => none
  | x :: rest, i =>
    match spareIx c rest (i + 1) with
    | some j => some j
    | none => if x = c then some i else none
def Panel.column (x : Panel) (c : Nat) : Nat :=
  match spareIx c x.spares 0 with
  | some i => 1024 + i
  | none => c

/-- The level of a cell. -/
def Panel.level (x : Panel) (r pc : Nat) : Nat := SMap.get (fun _ => 0) x.cells r / 16 ^ pc % 16

/-- The factor of a weight column. -/
def Panel.factor (x : Panel) (c : Nat) : Nat := SMap.get (fun _ => 0x4000) x.factors c

/-- A panel that is programmed: part of a programmed group, with a payload and no programming owed. -/
def State.panelReady (s : State) (q : Nat) : Bool :=
  let x := s.panel q
  s.programmed (groupOfPanel q) && !x.out && decide (x.image ≠ none)

/-! ### Digits, pulses and the converter (R352, R354, R355) -/

/-- The rows that phase `ph` (PL, NL, PH, NH) drives, each with its digit. -/
def phaseRows (ph : Nat) (rows : List (Nat × Int)) : List (Nat × Nat) :=
  rows.filterMap fun e =>
    let neg := decide (e.2 < 0)
    let m := e.2.natAbs
    let digit := if ph < 2 then m % 16 else m / 16
    if neg = decide (ph % 2 = 1) ∧ digit ≠ 0 then some (e.1, digit) else none

/-- The code of a phase on a physical column at gain `g`: the charge, in 1/16 u, is the ideal one and a
free deviation. A column whose driven rows average below 128 u does not overflow. -/
def Panel.code (x : Panel) (q pc ph g n : Nat) (rows : List (Nat × Int)) : Nat :=
  let dr := phaseRows ph rows
  let ideal := (dr.map fun e => e.2 * x.level e.1 pc).sum
  let step : Int := 16 * 2 ^ (g + 2)
  let raw := (16 * (ideal : Int) + Config.charge q pc ph n + step / 2) / step
  let v := min 4095 raw.toNat
  if ideal < 128 * dr.length then min 4094 v else v

/-- A raw code corrected by a factor (16 R384). -/
def corrected (code f : Nat) : Nat := (code * f + 2 ^ 13) >>> 14

/-- What a column of one panel gives in a sub-evaluation: its partial (R358) and whether it overflowed. -/
structure ColOut where
  part : Int
  ovf : Bool

/-- The codes of a column combined (R358); `f` is the factor, or none in AVERAGED mode. -/
def Panel.combine (x : Panel) (q c g n : Nat) (f : Option Nat) (rows : List (Nat × Int)) : ColOut :=
  let pc := x.column c
  let raw := fun ph => x.code q pc ph g n rows
  let cor := fun ph => match f with
    | some k => (corrected (raw ph) k : Int)
    | none => (raw ph : Int)
  let sx := (rows.map fun e => e.2).sum
  { part := 2 ^ (g + 2) * (16 * (cor 2 - cor 3) + (cor 0 - cor 1)) - 8 * sx
    ovf := (List.range 4).any fun ph => decide (raw ph = 4095) }

/-- The factor that a column's codes take in this slot. -/
def State.factorOf (s : State) (q c : Nat) : Option Nat :=
  let g := groupOfPanel q
  if s.averaged g then none else some (q14Mul ((s.panel q).factor c) (s.group g).fT)

/-- The exact sum Σ x_int · w of a weight column, from the panel's levels (R346, 16 R393). -/
def Panel.exactSum (x : Panel) (c : Nat) (rows : List (Nat × Int)) : Int :=
  (rows.map fun e => e.2 * ((x.level e.1 (x.column c) : Int) - 8)).sum

/-! ### Input buffers (R351) -/

/-- 2^k with k the least for which m · 2^e ≤ 127 · 2^k. -/
def ceilLog2Over127 (m : Nat) (e : Int) : Int :=
  let k := e + bitLen m - 7
  if Dy.le ⟨m, e⟩ ⟨127, k⟩ then k else k + 1

/-- An input vector: K BF16 values. -/
def State.readVector (s : State) (d : JobDesc) (v : Nat) : List Fp :=
  (List.range d.k).map fun i => fmtBf.decode (s.rdNat (d.x + v * d.xLd + 2 * i) 2)

/-- The largest magnitude of some finite values. -/
def vectorMax (l : List Fp) : Dy :=
  l.foldl (fun a x => if a.lt x.toDy.abs then x.toDy.abs else a) Dy.zero

/-- The exponent of s_x and the integers x_int of a vector that is neither special nor zero. -/
def quantise (l : List Fp) : Int × List Int :=
  let a := vectorMax l
  let k := ceilLog2Over127 a.m.natAbs a.e
  (k, l.map fun x => (x.toDy.shift (-k)).rne)

/-- The rows of a row tile with x_int ≠ 0, as (row, x_int), ascending. -/
def tileRows (ints : List Int) (ti : Nat) : List (Nat × Int) :=
  (((ints.drop (1024 * ti)).take 1024).zipIdx.map fun e => (e.2, e.1)).filter fun e => decide (e.2 ≠ 0)

/-! ### Jobs (R348, R349, R364) -/

/-- The bits of an output: FP32 or BF16, rounded once. -/
def outFmt (d : JobDesc) : Fmt := if d.fmtOut = 0 then fmt32 else fmtBf
def outBytes (d : JobDesc) : Nat := if d.fmtOut = 0 then 4 else 2

/-- Output y[n] from twice the column value (R359): Y2 · 2^(exp − 1) · s_w, rounded once. -/
def outWord (d : JobDesc) (y2 e : Int) (sw : Nat) : Nat :=
  let w := fmt32.decode sw
  let f := outFmt d
  match w with
  | .nan => f.nanBits
  | .inf neg => if y2 = 0 then f.nanBits else f.encode (.inf (neg != decide (y2 < 0)))
  | .fin neg m ew =>
    if y2 = 0 ∨ m = 0 then 0 else f.encode (.fin (neg != decide (y2 < 0)) (y2.natAbs * m) (ew + e - 1))

/-- All outputs of a vector written with one value. -/
def State.writeAll (s : State) (d : JobDesc) (v w : Nat) : State :=
  (List.range d.n).foldl (fun t n => t.wrNat (d.y + v * d.yLd + outBytes d * n) (outBytes d) w)
    (s.abortStored (d.y + v * d.yLd) (outBytes d * d.n))

/-- The groups that a job's tiles use. -/
def State.mapEntry (s : State) (d : JobDesc) (ti tj : Nat) : Nat := s.rdNat (d.map + d.entry ti tj) 8
def jobTiles (d : JobDesc) : List (Nat × Nat) :=
  (List.range d.tilesK).flatMap fun i => (List.range d.tilesN).map fun j => (i, j)

/-- The panels that a tile's evaluation drives: a pair drives both (R347). -/
def State.tilePanels (s : State) (d : JobDesc) (ti tj : Nat) : List Nat :=
  let e := s.mapEntry d ti tj
  let q := mapPanel e
  if mapPair e || s.averaged (groupOfPanel q) then [q / 2 * 2, q / 2 * 2 + 1] else [q]

def State.setJob (s : State) (j : Job) : State :=
  { s with cnv := { s.cnv with jobs := s.cnv.jobs.map fun x => if x.die = j.die ∧ x.slot = j.slot then j else x } }

/-- CNV_JOBS follows the jobs that run on a die. -/
def State.countJobs (s : State) (die : Nat) : State :=
  s.setFld (Key.cnvJobs die) 6 0 (s.cnv.jobs.filter fun j => decide (j.die = die)).length

/-- A re-reference of a group is due (16 R386): asked for, or its period is over. -/
def State.refDue (s : State) (g : Nat) : Bool :=
  let x := s.group g
  x.due || match x.lastRef with
    | some t => decide (t + max 1 (s.fld (Key.cpgUpkCfg g) 31 16) * 100000 ≤ s.tick)
    | none => false

/-- The bound of R393 holds for a job: its groups are re-referenced as R386 requires, and the sensors
read inside the Canvas range of 26 R632, 20 to 85 °C. -/
def State.boundHolds (s : State) (d : JobDesc) : Bool :=
  (((jobTiles d).map fun t => groupOfPanel (mapPanel (s.mapEntry d t.1 t.2))).eraseDups).all fun g =>
    let x := s.group g
    !s.refDue g && decide (x.lastRef ≠ none) && decide (80 ≤ x.temp) && decide (x.temp ≤ 340)

/-- The doubled column value that an output takes: the sum, kept in R393's bound where that holds. -/
def boundedSum (y2 exact slack : Int) : Int :=
  let room := 2 * slack / 1024
  max (2 * exact - room) (min (2 * exact + room) y2)

/-- The outputs of the vector that a job has evaluated (R359), in its partition's frames alone (01 R19). -/
def State.writeVector (s : State) (j : Job) : State :=
  let d : JobDesc := j.desc
  let keep := !j.clamped && s.boundHolds d
  if s.owns j.part (d.y + j.vec * d.yLd, outBytes d * d.n) = false then s
  else (List.range d.n).foldl (fun t n =>
    let sum := SMap.get (fun _ => 0) j.sums n
    let y2 := if keep then boundedSum sum (SMap.get (fun _ => 0) j.exact n) ((SMap.get (fun _ => 0) j.slack (n / 1024) : Nat) : Int)
      else sum
    t.wrNat (d.y + j.vec * d.yLd + outBytes d * n) (outBytes d) (outWord d y2 j.exp (t.rdNat (d.scale + 4 * n) 4)))
    (s.abortStored (d.y + j.vec * d.yLd) (outBytes d * d.n))

/-- An uncorrectable line under a job ends its requests (R370, 08 R173). -/
def State.jobUe (s : State) (j : Job) (a : Nat) : State :=
  let s1 := (s.latch (pgCnv j.die) 0 j.slot).lineUe a
  j.tags.foldl (fun t g => t.failTag j.part g (ueStatus a).1 (ueStatus a).2) s1

/-- What a job reads and writes for its vector `v` lies in its partition's frames (01 R19, R20). -/
def State.jobMay (s : State) (j : Job) (v : Nat) : Bool :=
  let d : JobDesc := j.desc
  [(d.x + v * d.xLd, 2 * d.k), (d.y + v * d.yLd, outBytes d * d.n), (d.scale, 4 * d.n)].all (s.owns j.part)

/-- A job leaves its die. -/
def State.dropJob (s : State) (j : Job) : State :=
  ({ s with cnv := { s.cnv with jobs := s.cnv.jobs.filter fun x => !(decide (x.die = j.die) && decide (x.slot = j.slot)) } } : State).countJobs j.die

/-- The job at its vector `j.vec`, with its sub-evaluations to start; a zero vector or one that holds a
NaN or an infinity is written at once (R351). After its last vector it leaves (R348). The vector runs on the die's job sequencer (24 R591). A vector,
output or scale outside the partition's frames ends the job's requests with FAULT_UNIT 0x13, as R283 ends a macro's (DESIGN CHOICE:
15 names no case for it). -/
def State.loadVector (s : State) (j : Job) : Nat → State
  | 0 => s
  | fuel + 1 =>
    let d : JobDesc := j.desc
    if j.vectors ≤ j.vec then
      ({ s with fab := { s.fab with doneSteps := s.fab.doneSteps ++ j.tags.map fun t => (j.part, t, j.step) } } : State).dropJob j
    else if s.jobMay j j.vec = false then
      j.tags.foldl (fun t g => t.failTag j.part g stFaultUnit 0x13) (s.dropJob j)
    else
      let s := j.tags.foldl (fun t g => t.useFor ⟨utJobSeq, j.die, 0⟩ j.part g) s
      match s.poisoned (d.x + j.vec * d.xLd) (2 * d.k) with
      | some a => (s.dropJob j).jobUe j a
      | none =>
        let xs := s.readVector d j.vec
        let j1 : Job := { j with sums := [], exact := [], slack := [], clamped := false, todo := [], ints := [] }
        let next : Job := { j1 with vec := j.vec + 1 }
        if xs.any (fun x => !x.isFin) then
          (((s.writeAll d j.vec (outFmt d).nanBits).inc (Key.cnvNanCnt j.die)).setJob next).loadVector next fuel
        else if xs.all Fp.isZero then
          ((s.writeAll d j.vec 0).setJob next).loadVector next fuel
        else
          let q := quantise xs
          let todo := (jobTiles d).filterMap fun t =>
            if tileRows q.2 t.1 = [] then none else some ({ ti := t.1, tj := t.2 } : SubEval)
          s.setJob { j1 with exp := q.1, ints := q.2, todo := todo }

/-- A job whose vector is complete goes on to its next. -/
def State.advanceJob (s : State) (j : Job) : State :=
  if j.todo = [] then
    (s.writeVector j).loadVector { j with vec := j.vec + 1 } (j.vectors - j.vec + 1)
  else s.setJob j

/-! ### Sub-evaluations (R356 to R358) -/

/-- The request of each tag carries clamped (R357, 04 R70). -/
def State.carryClamp (s : State) (j : Job) : State :=
  j.tags.foldl (fun t g => match t.req j.part g with
    | some r => t.setReq { r with clamped := true }
    | none => t) s

/-- Clamped columns of a panel counted (R357, Table 15.6). -/
def State.countClamps (s : State) (q : Nat) (cols : List Nat) : State :=
  cols.foldl (fun t c =>
    (t.inc (Key.cpgClampCnt (groupOfPanel q))).setFld (Key.cpgOvfLast (groupOfPanel q)) 14 0 (q % 32 * 1024 + c)) s

/-- A sub-evaluation performed at gain `gain`: `rep` tells the RETRY repeat. The measurement takes a number
of its own. An overflow under RETRY below gain 3 leaves the repeat to be made; otherwise the partials
are summed, and further rows of the tile are left to be evaluated. -/
def State.evaluate (s : State) (j : Job) (e : SubEval) (gain : Nat) (rep : Bool) : State :=
  let d : JobDesc := j.desc
  let qs := s.tilePanels d e.ti e.tj
  let g := groupOfPanel (mapPanel (s.mapEntry d e.ti e.tj))
  let all := tileRows j.ints e.ti
  let rows := (all.drop e.from_).take e.count
  let n := s.freeCtr
  let s0 := { s with freeCtr := n + 1 }
  let outs := qs.map fun q => (q, (List.range 1024).map fun c => (s.panel q).combine q c gain n (s.factorOf q c) rows)
  let s1 := qs.foldl (fun t q => ((t.inc (Key.cnvEvalCnt (dieOfPanel q))).inc (Key.cpgEvalCnt (groupOfPanel q)))) s0
  let s2 := j.tags.foldl (fun t tag => t.useFor ⟨utGroup, g, 0⟩ j.part tag) s1
  let s3 := if e.from_ ≠ 0 ∧ rep = false then s2.inc (Key.cnvSplitCnt (dieOfPanel (32 * g))) else s2
  let s4 := if rep then s3.inc (Key.cnvRetryCnt (dieOfPanel (32 * g))) else s3
  let ovf := outs.any fun o => o.2.any fun c => c.ovf
  let others := j.todo.filter fun x => !(decide (x.ti = e.ti) && decide (x.tj = e.tj))
  if ovf && e.retry && !rep && decide (gain < 3) then
    s4.setJob { j with todo := { e with repeat_ := true, gain := gain } :: others }
  else
    let s5 := if ovf then
        let t := outs.foldl (fun t o => t.countClamps o.1
          ((o.2.zipIdx.filter fun c => c.1.ovf).map fun c => c.2)) s4
        t.carryClamp j
      else s4
    let twice : Int := if qs.length = 2 then 1 else 2
    let cols := (List.range 1024).filter fun c => decide (1024 * e.tj + c < d.n)
    let sums := cols.foldl (fun (m : SMap Int) c =>
      let p := (outs.map fun o => match o.2[c]? with
        | some x => x.part
        | none => 0).sum
      SMap.upd (fun _ => 0) m (1024 * e.tj + c) fun y => y + twice * p) j.sums
    let exact := cols.foldl (fun (m : SMap Int) c =>
      SMap.upd (fun _ => 0) m (1024 * e.tj + c) fun y => y + (s.panel (mapPanel (s.mapEntry d e.ti e.tj))).exactSum c rows) j.exact
    let eps := if s.averaged g then 1 else 2
    let mags := (rows.map fun r => r.2.natAbs).sum
    let slack := SMap.upd (fun _ => 0) j.slack e.tj fun y => y + 17 * 2 ^ (gain + 2) * 1024 + eps * 15 * mags
    let left := if e.from_ + e.count < all.length
      then [{ e with from_ := e.from_ + e.count, repeat_ := false }] else []
    let j1 : Job := { j with sums := sums, exact := exact, slack := slack, clamped := j.clamped || ovf, todo := left ++ others }
    s5.advanceJob j1

/-- A sub-evaluation started in a slot: gain and policy are latched, and the split boundaries with the
first of its tile (R356, R365). -/
def State.startEval (s : State) (j : Job) (e : SubEval) : State :=
  let d : JobDesc := j.desc
  let cfg := s.reg (Key.cpgEvalCfg (groupOfPanel (mapPanel (s.mapEntry d e.ti e.tj))))
  let gain := getBits cfg 1 0
  let e1 : SubEval := { e with
    latched := true, gain := gain, retry := decide (getBits cfg 2 2 = 1)
    count := if e.latched then e.count else 128 * 2 ^ gain }
  s.evaluate j e1 gain false

/-! ### Slots and concurrency (R361 to R363, 16 R380) -/

/-- The die's concurrency limit (23). -/
def State.cnvLimit (s : State) (die : Nat) : Nat := s.fld (Key.cnvStat die) 10 0

/-- A sealed partition's allowance of evaluating panels on a die, and what shared partitions use. -/
def State.sealedAllowance (s : State) (die p : Nat) : Nat :=
  let res := bitsOf (s.part p).held.conc (8 * die + 7) (8 * die) * 32
  if res = 0 then 0 else if s.cnvLimit die < 512 then max 1 (res * s.cnvLimit die / 512) else res
def State.sealedParts (s : State) : List Nat :=
  allParts.filter fun p => (s.part p).held.valid && (s.part p).held.isSealed
def State.sharedAllowance (s : State) (die : Nat) : Nat :=
  s.cnvLimit die - (s.sealedParts.map fun p => s.sealedAllowance die p).sum

/-- The owner of an allowance: a sealed partition, or 128 for the unreserved budget. -/
def State.budgetOf (s : State) (p : Nat) : Nat := if s.isSealed p then p else 128
def State.allowance (s : State) (die b : Nat) : Nat :=
  if b < 128 then s.sealedAllowance die b else s.sharedAllowance die

/-- The partition for which a panel is programmed (16 R380). -/
def State.panelOwner (s : State) (q : Nat) : Nat :=
  match (s.group (groupOfPanel q)).model with
  | some (p, _) => s.budgetOf p
  | none => 128

/-- The panels of a die that are programming, each of which counts as 4. -/
def State.programming (s : State) (die : Nat) : List Nat :=
  (s.cnv.panels.filter fun e => decide (dieOfPanel e.1 = die) && decide (e.2.batch ≠ none)).map fun e => e.1

/-- What a slot has given out: panels by owner. -/
abbrev Spent := SMap Nat

def Spent.of (m : Spent) (b : Nat) : Nat := SMap.get (fun _ => 0) m b
def Spent.add (m : Spent) (b n : Nat) : Spent := SMap.upd (fun _ => 0) m b fun x => x + n

/-- Sub-evaluations of a job whose panels are on a die. -/
def State.onDie (s : State) (die : Nat) (j : Job) : List SubEval :=
  j.todo.filter fun e => decide (dieOfPanel (mapPanel (s.mapEntry j.desc e.ti e.tj)) = die)

/-- The order of R363 between jobs: decode before prefill (01 R14), then LIVE, STANDARD, BULK (07 Table 7.1), then start order. -/
def jobOrder (l : List Job) : List Job :=
  let pick := fun (dec : Bool) (c : Nat) => l.filter fun (j : Job) => decide (j.decode = dec) && decide (min 2 j.cls = c)
  [true, false].flatMap fun dec => (List.range 3).flatMap fun c => pick dec c

/-- What one slot has decided: the work to start, the panels it uses, what it spent, and the partitions
that wait. -/
structure SlotPlan where
  start : List (Nat × Nat × SubEval) := []
  used : List Nat
  spent : Spent
  waits : List Nat := []

/-- One sub-evaluation considered for a slot. -/
def State.consider (s : State) (die : Nat) (j : Job) (a : SlotPlan) (e : SubEval) : SlotPlan :=
  let qs := s.tilePanels j.desc e.ti e.tj
  let g := groupOfPanel (mapPanel (s.mapEntry j.desc e.ti e.tj))
  if e.repeat_ ∨ qs.any (fun q => decide (q ∈ a.used)) ∨ (s.group g).lastRef = none ∨ s.programmed g = false then a
  else
    let b := s.budgetOf j.part
    let total := (a.spent.map fun x => x.2).sum
    if a.spent.of b + qs.length ≤ s.allowance die b ∧ total + qs.length ≤ s.cnvLimit die then
      { a with start := a.start ++ [(j.die, j.slot, e)], used := a.used ++ qs, spent := a.spent.add b qs.length }
    else { a with waits := if j.part ∈ a.waits then a.waits else a.waits ++ [j.part] }

/-- The work that a slot on a die starts. Panels under programming, waiting for a spare, held for upkeep, or
owed a RETRY repeat take no other evaluation (R357, R366, 16 R390). -/
def State.planSlot (s : State) (die : Nat) : SlotPlan :=
  let prog := s.programming die
  let reps := s.cnv.jobs.flatMap fun j => (s.onDie die j).filterMap fun e =>
    if e.repeat_ then some (s.budgetOf j.part, s.tilePanels j.desc e.ti e.tj) else none
  let spent0 := prog.foldl (fun (m : Spent) q => m.add (s.panelOwner q) 4) []
  let spent1 := reps.foldl (fun (m : Spent) r => m.add r.1 r.2.length) spent0
  let spares := (s.cnv.panels.filter fun e => decide (e.2.sparing ≠ [])).map fun e => e.1
  let a : SlotPlan := { used := prog ++ spares ++ (reps.flatMap fun r => r.2) ++ s.cnv.held, spent := spent1 }
  (jobOrder s.cnv.jobs).foldl (fun a j => (s.onDie die j).foldl (fun b e => s.consider die j b e) a) a

/-- The die leaves service: each of its groups is lost with FAULT_UNIT 0x18 (R369). -/
def State.loseCanvas (s : State) (die : Nat) : State :=
  (List.range 64).foldl (fun t g => t.loseUnitAs ⟨utGroup, 64 * die + g, 0⟩ stFaultUnit 0x18)
    (s.setBit (Key.cnvStat die) 31 false)

/-- EVALUATION_SLOT (R353, R361 to R363, R369): a slot opens on a die, 420 ns after the last. The
evaluations that it starts run, convert, combine and write their partials within it. `chk` is the
duplicate comparison of the combiner and buffers in this slot. -/
def execEvaluationSlot (die : BitVec 2) (chk : Check) (s : State) : Outcome State Fault Refusal :=
  let d := die.toNat
  .next (if s.bit (Key.cnvStat d) 31 = false ∨ s.tick < SMap.get (fun _ => 0) s.cnv.slots d + 42 then s
  else if (s.cnv.jobs.any fun j => decide (j.die = d)) && !(s.cnvWork d).2 then (s.cnvWork d).1
  else
    let s := if s.cnv.jobs.any fun j => decide (j.die = d) then (s.cnvWork d).1 else s
    let plan := s.planSlot d
    let slot := match plan.start with
      | x :: _ => x.2.1
      | [] => 0
    let free : List Nat := s.cnv.held.filter fun q => decide (dieOfPanel q ≠ d)
    let s0 := { s with cnv := { s.cnv with slots := SMap.set (fun _ => 0) s.cnv.slots d s.tick, held := free } }
    let s1 := s0.setFld (Key.cnvStat d) 26 16 (plan.spent.map fun x => x.2).sum
    let s2 := plan.waits.foldl (fun t _ => t.inc (Key.cnvWaitCnt d)) s1
    if 2 ≤ chk.mismatches.toNat then (s2.latch (pgCnv d) 2 slot).loseCanvas d
    else
      let s3 := if chk.mismatches = 1 then s2.latch (pgCnv d) 1 slot else s2
      plan.start.foldl (fun t x =>
        match t.cnv.jobs.find? fun j => decide (j.die = x.1) && decide (j.slot = x.2.1) with
        | some j => if x.2.2 ∈ j.todo then t.startEval j x.2.2 else t
        | none => t) s3)

/-- RETRY_REPEAT (R357): the repeat that a panel owes, at one gain higher, ahead of all else. -/
def execRetryRepeat (die : BitVec 2) (panel : BitVec 11) (s : State) : Outcome State Fault Refusal :=
  let q := 2048 * die.toNat + panel.toNat
  let owed := s.cnv.jobs.findSome? fun j =>
    (j.todo.find? fun e => e.repeat_ && decide (q ∈ s.tilePanels j.desc e.ti e.tj)).map fun e => (j, e)
  .next (match owed with
    | some (j, e) => if q ∈ s.cnv.held then s else s.evaluate j e (e.gain + 1) true
    | none => s)

/-! ### Starting a job (R348, R364, R370) -/

/-- The lane of working memory that a prefill request holds, taken if it has none (13 R303, 22 R547). -/
def State.laneOf (s : State) (p : Nat) (tag : BitVec 64) : Option Nat :=
  (s.fab.lanes.find? fun x => decide (x.1 = p) && decide (x.2.1 = tag)).map fun x => x.2.2
def State.takeLane (s : State) (p : Nat) (tag : BitVec 64) : State :=
  if s.laneOf p tag ≠ none then s
  else
    let taken : List Nat := (s.fab.lanes.filter fun x => decide (x.1 = p)).map fun x => x.2.2
    match (List.range 16).find? fun i => decide (i ∉ taken) with
    | some i => { s with fab := { s.fab with lanes := s.fab.lanes ++ [(p, tag, i)] } }
    | none => s

/-- An address as it stands when a walk or job starts: bits 63 and 62 name the lane's working memory
(22 R547). One that the lane cannot give stays as it is, and lies outside every space. -/
def relocLane (lane : Option Nat) (a : Nat) : Nat :=
  if a / 2 ^ 62 = 3 then
    match lane with
    | some b => b + a % 2 ^ 62
    | none => a
  else a

/-- A field of 64 bits at byte `off` replaced. -/
def setField64 {w : Nat} (d : BitVec w) (off v : Nat) : BitVec w :=
  let old := dfield d off 0 64
  BitVec.ofNat w (d.toNat - old * 2 ^ (8 * off) + v % 2 ^ 64 * 2 ^ (8 * off))

/-- First byte of the working memory of a request's lane. -/
def State.laneBase (s : State) (m : Model) (tag : BitVec 64) : Option Nat :=
  match s.laneOf m.part tag with
  | some i => m.lanes[i]?.map fun f => 4096 * f
  | none => none

/-- The batch of a request in its decode round (07 R139): requests of one partition, model and bucket in
class order and then in order of admission, cut into batches of ADM_CFG.batch_max. As a walk follows one
attention mode (13 R305), requests of one batch have one mode. -/
def State.batchOf (s : State) (r : Req) : List (BitVec 64) :=
  let same := s.reqs.filter fun x => x.active && decide (x.part = r.part) && decide (x.d.model = r.d.model)
    && decide (x.d.orderFree = r.d.orderFree) && decide (x.bucket = r.bucket) && x.inDecode && x.lane
    && !x.preempted
  let pos := fun (a : Req) => (same.filter fun b => b.batchAhead a).length
  let size := max 1 (min 64 (s.fld Key.admCfg 7 0))
  let mine := pos r / size
  let members := same.filter fun a => decide (pos a / size = mine)
  let ordered := (List.range same.length).filterMap fun i => members.find? fun a => decide (pos a = i)
  ordered.map fun a => a.tag

/-- Prompt tokens of the chunk in which a request's prefill stands (02): 16 pages, and the first token. -/
def chunkOf (r : Req) : Nat × Nat :=
  let first := r.spliced / 256
  let page := first + (r.qpage - first) / 16 * 16
  let start := 256 * page
  (start, min 4096 (r.d.count - start))

/-- The STEPS entry of a walk or job for a request's phase and mode (22 R548). -/
def State.steps (s : State) (m : Model) : List StepEntry :=
  match m.sections.find? fun x => decide (x.type = 8) with
  | some x => stepTable (s.rd x.dpa x.length)
  | none => []
def stepIndex (l : List StepEntry) (kind index : Nat) (decode orderFree : Bool) : Option (Nat × StepEntry) :=
  (l.zipIdx.find? fun e => decide (e.1.kind = kind) && decide (e.1.index = index)
    && decide (e.1.phase = if decode then 1 else 0)
    && (decide (e.1.mode = 0) || decide (e.1.mode = if orderFree then 2 else 1))).map fun e => (e.2, e.1)

/-- Every predecessor that the image names has retired for every request of the batch (R348). -/
def State.predsDone (s : State) (p : Nat) (tags : List (BitVec 64)) (e : StepEntry) : Bool :=
  e.preds.all fun i => tags.all fun t => s.fab.doneSteps.any fun x =>
    decide (x.1 = p) && decide (x.2.1 = t) && decide (x.2.2 = i)

/-- The requests that a walk or job of a request's step serves. -/
def State.stepTags (s : State) (r : Req) : List (BitVec 64) :=
  if r.inDecode then s.batchOf r else [r.tag]

/-- A request whose next step may start work: it holds a lane, and no stop has taken effect. The final pass is such a step (02 R29). -/
def Req.working (r : Req) : Bool :=
  (decide (r.phase = .prefill) || r.inDecode) && r.lane && !r.preempted

/-- The job of an image, relocated for a request. -/
def State.jobDesc (s : State) (m : Model) (r : Req) (job : Nat) : JobDesc :=
  match m.sections.find? fun x => decide (x.type = 5) with
  | some x =>
    let d : JobDesc := BitVec.ofNat 512 (s.rdNat (x.dpa + 64 * job) 64)
    let lane := s.laneBase m r.tag
    jobAddrs.foldl (fun e off => setField64 e off (relocLane lane (dfield e off 0 64))) d
  | none => 0

/-- The class of a job: the most urgent of the requests that it serves. -/
def State.jobClass (s : State) (p : Nat) (tags : List (BitVec 64)) : Nat :=
  (tags.filterMap fun g => (s.req p g).map fun r => r.d.prio).foldl min 2

/-- A job starts on a die: its vector count, its map and its panels are looked at, and its first vector is
loaded (R364, R370). -/
def State.startJob (s : State) (die : Nat) (m : Model) (r : Req) (job step : Nat) : State :=
  let tags := s.stepTags r
  let s0 := if r.phase = .prefill then s.takeLane r.part r.tag else s
  let d := s0.jobDesc m r job
  let count := if d.vsrc = 0 then d.vectors else if d.vsrc = 1 then (if r.inDecode then tags.length else (chunkOf r).2)
    else (if r.inDecode then tags.length else 0)
  let taken : List Nat := (s.cnv.jobs.filter fun j => decide (j.die = die)).map fun j => j.slot
  let slot := match (List.range 64).find? fun i => decide (i ∉ taken) with
    | some i => i
    | none => 0
  let failAll := fun (t : State) (st dt : Nat) => tags.foldl (fun x g => x.failTag r.part g st dt) t
  let j : Job := { slot := slot, die := die, part := r.part, tags := tags, handle := m.handle
                   decode := r.inDecode, cls := s.jobClass r.part tags, step := step, desc := d, vectors := count }
  if 65536 < count then failAll (s0.latch (pgCnv die) 4 slot) stFaultUnit 0x12
  else
    match s0.poisoned d.map (8 * (d.tilesK * d.tilesN)) with
    | some a => s0.jobUe j a
    | none =>
      match s0.poisoned d.scale (4 * d.n) with
      | some a => s0.jobUe j a
      | none =>
        let gone := (jobTiles d).any fun t =>
          !s0.inService ⟨utGroup, groupOfPanel (mapPanel (s0.mapEntry d t.1 t.2)), 0⟩
        let bad := (jobTiles d).any fun t => (s0.tilePanels d t.1 t.2).any fun q =>
          !s0.panelReady q || decide ((s0.group (groupOfPanel q)).model ≠ some (m.part, m.handle))
        if gone ∨ (⟨utJobSeq, die, 0⟩ : UnitId) ∈ s0.rel.out then failAll s0 stFaultUnit 0x18
        else if bad then failAll (s0.latch (pgCnv die) 3 slot) stFaultUnit 0x1B
        else
          let s1 := { s0 with cnv := { s0.cnv with jobs := s0.cnv.jobs ++ [j] } }
          (s1.countJobs die).loadVector j (count + 1)

/-- A request's job started, or put behind the 64 that run on the die and those that wait for it (R364); `front` is the first of
these. -/
def State.beginJob (s : State) (die : Nat) (m : Model) (r : Req) (job : Nat) (front : Bool) : State :=
  match stepIndex (s.steps m) 1 job r.inDecode r.d.orderFree with
  | none => s
  | some (i, e) =>
    let tags := s.stepTags r
    let again := s.cnv.jobs.any (fun j => decide (j.part = r.part) && decide (j.step = i) && tags.any fun t => decide (t ∈ j.tags))
      || s.fab.doneSteps.any (fun x => decide (x.1 = r.part) && decide (x.2.1 ∈ tags) && decide (x.2.2 = i))
    if again ∨ s.predsDone r.part tags e = false then s
    else if (s.cnv.jobs.filter fun j => decide (j.die = die)).length < 64 ∧ (front = true ∨ s.cnv.waiting.all (fun w => decide (w.1 ≠ die)) = true) then s.startJob die m r job i
    else if (die, r.part, r.tag, m.handle, job) ∈ s.cnv.waiting then s
    else { s with cnv := { s.cnv with waiting := s.cnv.waiting ++ [(die, r.part, r.tag, m.handle, job)] } }

/-- EVAL (R348, R349, R364, R370): the K48 starts a job of a request's step. -/
def execEval (die : BitVec 2) (p : BitVec 7) (tag : BitVec 64) (handle : BitVec 16) (job : Nat) (s : State) :
    Outcome State Fault Refusal :=
  .next (match s.req p.toNat tag, s.model p.toNat handle.toNat with
    | some r, some m =>
      if r.working ∧ s.roundTurn r = true ∧ r.d.model = m.handle ∧ s.bit (Key.cnvStat die.toNat) 31 = true then
        s.beginJob die.toNat m r job false
      else s
    | _, _ => s)

/-- The jobs that wait for a place on a die start in start order (R364). -/
def State.startWaiting (s : State) : Nat → State
  | 0 => s
  | fuel + 1 =>
    match s.cnv.waiting.find? fun w => decide ((s.cnv.jobs.filter fun j => decide (j.die = w.1)).length < 64) with
    | none => s
    | some w =>
      let s1 := { s with cnv := { s.cnv with waiting := s.cnv.waiting.filter fun x => decide (x ≠ w) } }
      match s1.req w.2.1 w.2.2.1, s1.model w.2.1 w.2.2.2.1 with
      | some r, some m => (if r.working then s1.beginJob w.1 m r w.2.2.2.2 true else s1).startWaiting fuel
      | _, _ => s1.startWaiting fuel

end Sys2Proof.Machine
end

