-- ==== Sys2Proof/Machine/Upkeep.lean ====
section
/-! DEFINITION. Canvas programming and drift upkeep (16): batches, verify reads, erasure, re-references,
temperature tracking, refresh, the sentinel sweep and spares. -/

namespace Sys2Proof.Machine

open Host

/-! ### Panels that leave service (R391) -/

/-- The image that is placed in a group. -/
def State.groupModel (s : State) (g : Nat) : Option Model :=
  match (s.group g).model with
  | some (p, h) => s.model p h
  | none => none

/-- CPG_STAT.panels follows the panels of a group that are in service. -/
def State.countPanels (s : State) (g : Nat) : State :=
  s.setFld (Key.cpgStat g) 5 0 ((groupPanels g).filter fun q => !(s.panel q).out).length

/-- A load that meets a failure of programming is refused with CANVAS_PROGRAM (R377, R402). -/
def State.failProgram (s : State) (g panel col : Nat) : State :=
  let s1 := s.latchGroup g 2 panel col
  match s1.groupModel g with
  | some m => if m.st = .loading then s1.refuseLoad m 0x1C else s1
  | none => s1

/-- A panel leaves service and SPARES_OUT latches. A load that needs it fails, and a group that holds a
tile of a loaded image in it is lost with FAULT_UNIT 0x18 (R391, 15 R368). -/
def State.panelOut (s : State) (q col : Nat) : State :=
  let g := groupOfPanel q
  let x := s.panel q
  let holds := decide (x.image ≠ none)
  let m := s.groupModel g
  let s1 := ((s.setPanel q { x with out := true, owed := false, batch := none, sparing := [], refreshing := false }).countPanels g).latchGroup g 1 (q % 32) col
  match m with
  | some m =>
    if m.st = .loading then s1.failProgram g (q % 32) col
    else if holds then s1.loseUnitAs ⟨utGroup, g, q % 32⟩ stFaultUnit 0x18
    else s1
  | none => s1

/-! ### The copy (R381, R399) -/

/-- The copy of a panel's payload made readable: an uncorrectable line latches COPY_UE and is read again
from the image; when that fails, every group that holds the image is lost. The answer tells whether
the copy can be used. -/
def State.checkCopy (s : State) (q : Nat) : Bool × State :=
  let x := s.panel q
  let g := groupOfPanel q
  match x.copy, x.image with
  | some a, some i =>
    match s.poisoned a 524288 with
    | none => (true, s)
    | some _ =>
      let s1 := s.latchGroup g 4 (q % 32) 0
      match s1.poisoned i 524288 with
      | none =>
        let clean : List Nat := s1.mem.poison.filter fun l => !(decide (a ≤ 64 * l) && decide (64 * l < a + 524288))
        let s2 := { s1 with mem := { s1.mem with poison := clean } }
        (true, s2.wr a (s2.rd i 524288))
      | some _ =>
        let gs : List Nat := match s1.groupModel g with
          | some m => m.physGroups
          | none => [g]
        (false, gs.foldl (fun t y => t.loseUnitAs ⟨utGroup, y, 0⟩ stFaultUnit 0x18) s1)
  | _, _ => (false, s)

/-- The target levels of row `r`: bits [4c+3:4c] hold w + 8 of column c (15 R346, 16 R375). -/
def State.targetRow (s : State) (q r : Nat) : Nat :=
  match (s.panel q).copy with
  | some a => Nat.xor (s.rdNat (a + 512 * r) 512) (8 * ((16 ^ 1024 - 1) / 15))
  | none => 0
def rowLevel (row c : Nat) : Nat := row / 16 ^ c % 16

/-- A cell of a row set to a level. -/
def setLevel (row pc lv : Nat) : Nat := row - rowLevel row pc * 16 ^ pc + lv % 16 * 16 ^ pc
def Panel.setCells (x : Panel) (r : Nat) (f : Nat → Nat) : Panel :=
  { x with cells := SMap.upd (fun _ => 0) x.cells r f }

/-! ### Programming (R378 to R380, R642) -/

/-- Panels, in units of one evaluating panel, that an allowance has given to programming on a die. -/
def State.programSpent (s : State) (die b : Nat) : Nat :=
  4 * ((s.programming die).filter fun q => decide (s.panelOwner q = b)).length

/-- A further panel may start programming on a die (R380). -/
def State.mayProgram (s : State) (q : Nat) : Bool :=
  let die := dieOfPanel q
  let b := s.panelOwner q
  decide ((s.programming die).length < 64) && decide (s.programSpent die b + 4 ≤ s.allowance die b)
    && decide (4 * ((s.programming die).length + 1) ≤ s.cnvLimit die)

/-- The first RESET pulse of any programming clears the group's tag; but for a refresh, the group no longer
counts as programmed (R378, 22 R549). -/
def State.startBatches (s : State) (q : Nat) : State :=
  let g := groupOfPanel q
  let x := s.panel q
  let s1 := s.setGroup g { s.group g with tag := {} }
  let s2 := s1.setPanel q { x with batch := some 0, dev := [] }
  if x.refreshing then s2 else s2.setBit (Key.cpgStat g) 30 false

/-- The batch `b` of a panel: 128 weight cells of one row reach their levels, and a cell whose column has a
spare is written there as well. -/
def State.writeBatch (s : State) (q b : Nat) : State :=
  let x := s.panel q
  let row := s.targetRow q (b / 8)
  let cols := (List.range 128).map fun i => b % 8 * 128 + i
  s.setPanel q (x.setCells (b / 8) fun old =>
    cols.foldl (fun v c => setLevel (setLevel v c (rowLevel row c)) (x.column c) (rowLevel row c)) old)

/-- Columns with a cell that did not stop take spares; a 17th takes the panel out of service (R379). -/
def State.failColumns (s : State) (q : Nat) (cols : List Nat) : State :=
  cols.foldl (fun t c =>
    let x := t.panel q
    if x.out ∨ c ∈ x.sparing then t
    else if 16 ≤ x.spares.length + x.sparing.length then t.panelOut q c
    else t.setPanel q { x with sparing := x.sparing ++ [c] }) s

/-- A panel's batches are done: a program cycle is counted, and a refresh is followed by a re-reference
of its group (R387). -/
def State.endBatches (s : State) (q : Nat) : State :=
  let g := groupOfPanel q
  let x := s.panel q
  let s1 := s.setPanel q { x with batch := none, owed := false, cycles := x.cycles + 1 }
  if x.refreshing then (s1.inc (Key.cpgRefreshCnt g)).setGroup g { s1.group g with due := true } else s1

/-- PROGRAM_BATCH (R378 to R380): the next batch of a panel that is programmed. The first starts the panel
when VPROG and the allowance let it. `failed` are the columns with a cell that did not stop within 16
iterations. -/
def execProgramBatch (die : BitVec 2) (panel : BitVec 11) (failed : List (BitVec 10)) (s : State) :
    Outcome State Fault Refusal :=
  let q := 2048 * die.toNat + panel.toNat
  let g := groupOfPanel q
  let x := s.panel q
  .next (if x.out ∨ x.owed = false then s
  else
    match x.batch with
    | none =>
      let s0 := (s.cnvWork die.toNat).1
      if (s.cnvWork die.toNat).2 = false then s0
      else if s0.pins.vprog < 2375 then s0.failProgram g (q % 32) 0
      else if s0.mayProgram q = false then s0
      else
        let s1 := (s0.startBatches q).writeBatch q 0
        let s2 := s1.setPanel q { s1.panel q with batch := some 1 }
        s2.failColumns q ((failed.map BitVec.toNat).filter fun c => decide (c < 128))
    | some b =>
      let s1 := s.writeBatch q b
      let s2 := s1.setPanel q { s1.panel q with batch := some (b + 1) }
      let s3 := s2.failColumns q ((failed.map BitVec.toNat).filter fun c => decide (c / 128 = b % 8))
      if b + 1 = 8192 ∧ (s3.panel q).out = false ∧ (s3.panel q).owed = true then s3.endBatches q else s3)

/-- The bound group of a physical group, with its image. -/
def State.boundGroup (s : State) (g : Nat) : Option (Model × BoundGroup) :=
  match s.groupModel g with
  | some m => (m.groups.find? fun b => decide (b.phys = g)).map fun b => (m, b)
  | none => none
def State.setBound (s : State) (m : Model) (b : BoundGroup) : State :=
  s.setModel { m with groups := m.groups.map fun x => if x.phys = b.phys then b else x }

/-- VERIFY_READ (22 R549): the cells of a group that LOAD_MODEL bound by its tag are read; a panel with a
cell out of tolerance is programmed again. It counts as programming and waits like it (R380). -/
def execVerifyRead (g : Byte) (bad : List (BitVec 5 × BitVec 10)) (s : State) : Outcome State Fault Refusal :=
  let gi := g.toNat
  .next (match s.boundGroup gi with
    | some (m, b) =>
      if b.retained = true ∧ s.mayProgram (32 * gi) = true then
        let qs := ((bad.map fun e => 32 * gi + e.1.toNat).filter fun q => decide ((s.panel q).image ≠ none)).eraseDups
        let s1 := s.setBound m { b with retained := false }
        qs.foldl (fun t q => t.setPanel q { t.panel q with owed := true }) s1
      else s
    | none => s)

/-- ERASE (R382, 26 R642): a group that holds no image and no valid tag is brought to level 0; a panel with
a cell that will not erase leaves service. -/
def execErase (g : Byte) (stuck : List (BitVec 5)) (s : State) : Outcome State Fault Refusal :=
  let gi := g.toNat
  .next (if (s.group gi).model ≠ none ∨ (s.group gi).tag.valid = true then s
  else if s.pins.vprog < 2375 then s.latchGroup gi 2 0 0
  else stuck.foldl (fun t p => t.panelOut (32 * gi + p.toNat) 0) (s.eraseGroup gi))

/-! ### Re-reference (R383 to R386, R400) -/

/-- n / d rounded to nearest with ties to even. -/
def rneDiv (n d : Nat) : Nat :=
  let q := n / d
  let r := 2 * (n % d)
  if d < r ∨ (r = d ∧ q % 2 = 1) then q + 1 else q

/-- The charge that a re-reference expects on a weight column, and the code that it measures (R383). -/
def State.expected (s : State) (q c : Nat) : Nat :=
  7 * ((List.range 1024).map fun r => rowLevel (s.targetRow q r) c).sum
def State.measured (s : State) (q c n : Nat) : Nat :=
  let x := s.panel q
  x.code q (x.column c) 0 3 n ((List.range 1024).map fun r => (r, (7 : Int)))

/-- The factor in Q2.14, before its limit: a code of 0 has no finite factor. -/
def factorFrom (e code : Nat) : Nat := if code = 0 then 0x10000 else rneDiv (e * 2 ^ 14) (32 * code)

/-- The factors of a panel measured, as measurement `n`; and the largest. -/
def State.measurePanel (s : State) (q n : Nat) : State × Nat :=
  let fs := (List.range 1024).map fun c => factorFrom (s.expected q c) (s.measured q c n)
  let m := fs.zipIdx.foldl (fun (a : SMap Nat) f => SMap.set (fun _ => 0x4000) a f.2 (min f.1 0xFFFF)) []
  (s.setPanel q { s.panel q with factors := m }, fs.foldl max 0)

/-- The panels of a group that hold a tile and are in service. -/
def State.tilesOf (s : State) (g : Nat) : List Nat :=
  (groupPanels g).filter fun q => decide ((s.panel q).image ≠ none) && !(s.panel q).out

/-- The refresh threshold of a group's mode (Table 16.1). -/
def State.threshold (s : State) (g : Nat) : Nat :=
  match s.boundGroup g with
  | some (_, b) => if b.mode = 1 then 20480 else 28672
  | none => 28672

/-- A re-referenced panel judged by its largest factor: at 4.0 after a refresh it leaves service, above
the threshold it is to be refreshed (R387, R400). -/
def State.judgePanel (s : State) (q top : Nat) : State :=
  let g := groupOfPanel q
  let x := s.panel q
  if 0x10000 ≤ top ∧ x.refreshing = true then (s.latchGroup g 3 (q % 32) 0).panelOut q 0
  else s.setPanel q { x with refreshing := false, refreshDue := decide (s.threshold g < top) }

/-- A group counts as programmed: its tag is written, and CPG_STAT follows (R378, 22 R549). -/
def State.countProgrammed (s : State) (g : Nat) : State :=
  match s.boundGroup g with
  | some (m, b) =>
    let tag : GroupTag := { valid := true, digest := m.digest, logical := b.logical, mode := b.mode }
    let s1 := s.setGroup g { s.group g with tag := tag }
    let s2 := (s1.setBit (Key.cpgStat g) 30 true).setBit (Key.cpgStat g) 29 (decide (b.mode = 1))
    s2.setBound m { b with referenced := true }
  | none => s

/-- The group's programming, spares and verify read are complete. -/
def State.settled (s : State) (g : Nat) : Bool :=
  (match s.boundGroup g with
    | some (_, b) => !b.retained
    | none => false)
  && (s.tilesOf g).all fun q => let x := s.panel q; !x.owed && decide (x.batch = none) && decide (x.sparing = [])

/-- REREFERENCE (R383 to R386, R395, R397): every panel of the group is driven and its factors are
formed; f_G, T_ref and the time are recorded. The panels are held for the slot. -/
def execRereference (g : Byte) (temp : Int) (s : State) : Outcome State Fault Refusal :=
  let gi := g.toNat
  let x := s.group gi
  let qs := s.tilesOf gi
  .next (if s.inService ⟨utGroup, gi, 0⟩ = false ∨ s.settled gi = false
      ∨ (s.refDue gi = false ∧ x.lastRef ≠ none) then s
  else
    let chk := qs.foldl (fun (a : Bool × State) q => let r := a.2.checkCopy q; (a.1 && r.1, r.2)) (true, s)
    let s0 := chk.2
    if chk.1 = false then s0
    else
      let n := s0.freeCtr
      let out := qs.foldl (fun (a : State × List (Nat × Nat)) q =>
        let r := a.1.measurePanel q n; (r.1, a.2 ++ [(q, r.2)])) ({ s0 with freeCtr := n + 1 }, [])
      let cols := qs.flatMap fun q => (List.range 1024).map fun c => (s0.expected q c, 32 * s0.measured q c n)
      let exp := (cols.map fun e => e.1).sum
      let got := (cols.map fun e => e.2).sum
      let fG := if got = 0 then 0xFFFF else min 0xFFFF (rneDiv (exp * 2 ^ 14) got)
      let x1 := out.1.group gi
      let s1 := out.1.setGroup gi { x1 with fG := fG, fT := 0x4000, tRef := some temp, temp := temp, lastRef := some s.tick, due := false }
      let s2 := s1.setReg (Key.cpgRerefTt gi) (BitVec.ofNat 32 s.time.count.toNat)
      let s3 := s2.setReg (Key.cpgFmax gi) (BitVec.ofNat 32 (min 0xFFFF ((out.2.map fun e => e.2).foldl max 0)))
      let s4 := { s3 with cnv := { s3.cnv with held := s3.cnv.held ++ qs } }
      let s5 := s4.countProgrammed gi
      let s6 := s5.scheduleEvent (s.time.count.toNat + 100000 * max 1 (s.fld (Key.cpgUpkCfg gi) 31 16)) (.reref gi) [4 + gi / 64]
      out.2.foldl (fun t e => t.judgePanel e.1 e.2) s6)

/-- f_T for a temperature (R385): 1 + τ × (T − T_ref) in Q2.14, τ being FP16 per °C. -/
def trackFactor (tau : Nat) (t tRef : Int) : Nat :=
  let d : Dy := (Dy.ofInt 1).add ((fmt16.decode tau).toDy.mul ⟨t - tRef, -2⟩)
  min 0xFFFF (d.shift 14).rne.toNat

/-- TEMP_TRACK (R385, R386, R396): the group's sensor is read, f_T follows, and a change beyond temp_delta
asks for a re-reference. -/
def execTempTrack (g : Byte) (temp : Int) (s : State) : Outcome State Fault Refusal :=
  let gi := g.toNat
  let x := s.group gi
  .next (match x.tRef with
    | none => s.setGroup gi { x with temp := temp }
    | some t =>
      let delta := max 1 (s.fld (Key.cpgUpkCfg gi) 15 8)
      s.setGroup gi { x with
        temp := temp, fT := trackFactor (s.fld (Key.cpgTcoef gi) 15 0) temp t
        due := x.due || decide (delta < (temp - t).natAbs) })

/-- REFRESH (R387, R399, 26 R642): a panel with a factor above the threshold is programmed again from the
copy, one panel of a group at a time. -/
def execRefresh (die : BitVec 2) (panel : BitVec 11) (s : State) : Outcome State Fault Refusal :=
  let q := 2048 * die.toNat + panel.toNat
  let g := groupOfPanel q
  let x := s.panel q
  .next (if x.out ∨ x.refreshDue = false ∨ (groupPanels g).any (fun y => (s.panel y).refreshing) then s
  else if s.pins.vprog < 2375 then
    (s.latchGroup g 2 (q % 32) 0).setPanel q { x with refreshDue := false }
  else
    let r := s.checkCopy q
    if r.1 then r.2.setPanel q { r.2.panel q with owed := true, refreshDue := false, refreshing := true } else r.2)

/-! ### The sentinel sweep (R388 to R392) -/

/-- The partition that holds a group has switched its sweep off (R392). -/
def State.upkeepOff (s : State) (g : Nat) : Bool :=
  match s.holder ⟨utGroup, g, 0⟩ with
  | some p => s.bit (Key.prtCfg p) 2
  | none => false

/-- A panel is to be visited again in its next slot. -/
def State.visitAgain (s : State) (q : Nat) : State :=
  let g := groupOfPanel q
  let x := s.group g
  if q ∈ x.visit then s else s.setGroup g { x with visit := x.visit ++ [q] }

/-- A fault that the sentinel finds: COL_FAULT latches, and SUSPECT goes to the requests that used the
group since the panel's last clean visit (R389, R390). -/
def State.columnFault (s : State) (q c : Nat) : State :=
  let g := groupOfPanel q
  let s1 := s.latchGroup g 0 (q % 32) c
  s1.suspect ⟨utGroup, g, q % 32⟩ (if (q, c) ∈ s.rel.deviant then 0x88 else 0x08) (s.panel q).clean

/-- A deviating column one step further: first deviation, repeat with inverted signs, re-reference, and
then a fault. -/
def State.deviate (s : State) (q c : Nat) : State :=
  let g := groupOfPanel q
  let x := s.panel q
  match x.dev.find? fun e => decide (e.1 = c) with
  | none => ((s.setPanel q { x with dev := x.dev ++ [(c, 1)] }).inc (Key.cpgSentDevCnt g)).visitAgain q
  | some (_, 1) =>
    let s1 := s.setPanel q { x with dev := x.dev.map fun e => if e.1 = c then (c, 2) else e }
    (s1.setGroup g { s1.group g with due := true }).visitAgain q
  | some _ =>
    if (s.group g).due then s.visitAgain q
    else
      let s1 := s.setPanel q { x with dev := x.dev.filter fun e => decide (e.1 ≠ c), sparing := if c ∈ x.sparing then x.sparing else x.sparing ++ [c] }
      s1.columnFault q c

/-- An armed SENTINEL_DEV injection for a panel acts: its column deviates until a spare is taken (24 R598). -/
def State.injSentinel (s : State) (q : Nat) : State :=
  if s.injHits 8 fun i => decide (i.unit.index * 32 + i.unit.sub % 32 = q) then
    let c := (s.rel.inject.map fun i => i.arg % 1024).getD 0
    ({ s with rel := { s.rel with deviant := s.rel.deviant ++ [(q, c)] } } : State).injActed
  else s

/-- SENTINEL_VISIT (R388 to R392, R395): a panel is visited. `deviant` are the columns beyond their bound,
`refs` tells that every reference column deviates as well. -/
def execSentinelVisit (die : BitVec 2) (panel : BitVec 11) (deviant : List (BitVec 10)) (refs : Bool) (s : State) :
    Outcome State Fault Refusal :=
  let q := 2048 * die.toNat + panel.toNat
  let g := groupOfPanel q
  let asked := decide (q ∈ (s.group g).visit)
  .next (if s.inService ⟨utGroup, g, 0⟩ = false ∨ s.panelReady q = false ∨ (s.panel q).batch ≠ none
      ∨ s.awake (.canvas die.toNat) = false
      ∨ (s.upkeepOff g = true ∧ asked = false) then s
  else
    let r := s.checkCopy q
    if r.1 = false then r.2
    else
      let s1 := r.2.injSentinel q
      let x := s1.panel q
      let injected := (s1.rel.deviant.filter fun e => decide (e.1 = q)).map fun e => e.2
      let cols := (deviant.map BitVec.toNat ++ injected).eraseDups
      let late := x.dev.any fun e => decide (e.2 = 2) && decide (e.1 ∈ cols)
      let s2 := s1.setPanel q { x with
        visits := x.visits + 1, dev := x.dev.filter fun e => decide (e.1 ∈ cols)
        clean := if cols = [] then s1.time.count.toNat else x.clean }
      let s3 := s2.setGroup g { s2.group g with visit := (s2.group g).visit.filter fun y => decide (y ≠ q) }
      let s4 := { (s3.inc (Key.cpgSweepCnt g)) with cnv := { s3.cnv with held := s3.cnv.held ++ [q] } }
      if refs ∧ late = true ∧ (s4.group g).due = false then (s4.panelOut q 0).columnFault q 0
      else cols.foldl (fun t c => t.deviate q c) s4)

/-- A column's weights programmed into the spare that it takes. -/
def State.writeSpare (s : State) (q c pc : Nat) : State :=
  let x := s.panel q
  s.setPanel q ((List.range 1024).foldl (fun (y : Panel) r =>
    y.setCells r fun old => setLevel old pc (rowLevel (s.targetRow q r) c)) x)

/-- SPARE_PROGRAM (R379, R390, R391, R398): a column that waits for a spare gets it, and after a sentinel
fault its factor. A 17th, or a spare whose cells do not stop, takes the panel out of service. -/
def execSpareProgram (die : BitVec 2) (panel : BitVec 11) (col : BitVec 10) (stuck : Bool) (s : State) :
    Outcome State Fault Refusal :=
  let q := 2048 * die.toNat + panel.toNat
  let g := groupOfPanel q
  let c := col.toNat
  let x := s.panel q
  .next (if x.out ∨ c ∉ x.sparing ∨ x.batch ≠ none then s
  else if s.pins.vprog < 2375 then s.failProgram g (q % 32) c
  else if 16 ≤ x.spares.length then s.panelOut q c
  else
    let r := s.checkCopy q
    if r.1 = false then r.2
    else
      let x1 := r.2.panel q
      let pc := 1024 + x1.spares.length
      let s1 := r.2.setPanel q { x1 with spares := x1.spares ++ [c], sparing := x1.sparing.filter fun y => decide (y ≠ c) }
      let s0 := { s1 with rel := { s1.rel with deviant := s1.rel.deviant.filter fun e => decide (e ≠ (q, c)) } }
      let s2 := (s0.writeSpare q c pc).inc (Key.cpgRemapCnt g)
      if stuck then s2.panelOut q c
      else if s2.programmed g then
        let n := s2.freeCtr
        (({ s2 with freeCtr := n + 1 } : State).measurePanel q n).1
      else s2)

/-! ### Commands of CPG_UPK_CMD (R402) -/

/-- CPG_UPK_CMD written: 0x01 asks for a re-reference, 0x02 for a visit of every panel. -/
def State.writeUpkCmd (s : State) (g : Nat) (v : Word) : State :=
  let x := s.group g
  let op := getBits v 7 0
  if op = 1 then (s.setGroup g { x with due := true }).wakeAll [.canvas (g / 64)]
  else if op = 2 then (s.setGroup g { x with visit := s.tilesOf g }).wakeAll [.canvas (g / 64)]
  else s

def upkCmdAt (g : Byte) : Nat := 0x224 + 0x400 * (g.toNat % 4)

/-- REREFERENCE_NOW (R402). -/
def execRereferenceNow (m : Master) (g : Byte) (be : BitVec 4) (s : State) : Outcome State Fault Refusal :=
  .next (s.gated m (pgCpg g.toNat) (upkCmdAt g) be 1 fun t => t.writeUpkCmd g.toNat 1)

/-- VISIT_NOW (R402). -/
def execVisitNow (m : Master) (g : Byte) (be : BitVec 4) (s : State) : Outcome State Fault Refusal :=
  .next (s.gated m (pgCpg g.toNat) (upkCmdAt g) be 2 fun t => t.writeUpkCmd g.toNat 2)

end Sys2Proof.Machine
end

