-- ==== Sys2Proof/Machine/Models.lean ====
section
/-! DEFINITION. Loading and unloading a model image (04 R63, R81, R671; 22 R545 to R550, R557). -/

namespace Sys2Proof.Machine

open Host

/-! ### The boot configuration (22 R543) -/

/-- A byte of the BOOT_CONFIG component in use; 0 where there is none. -/
def State.configByte (s : State) (i : Nat) : Nat := leAt s.boot.config i 1

/-- The reset value of TTL_CFG.candidate: flag 1 of the boot configuration in use (22 Table 22.7). -/
def State.bootCandidate (s : State) : Bool := decide (s.boot.config = []) || decide (s.configByte 1 / 2 % 2 = 1)
/-- The model-signing keys: their number, and key `k` as x and y. -/
def State.modelKeys (s : State) : Nat := s.configByte 2
def State.modelKey (s : State) (k : Nat) : Nat × Nat :=
  (beNat (cut s.boot.config (8 + 96 * k) 48), beNat (cut s.boot.config (8 + 96 * k + 48) 48))

/-- Check 2 of R546: the signature of the image under the key that its header names. -/
def State.signatureOk (s : State) (img : List Byte) : Bool :=
  let k := leAt img 9 1
  let sig := imageSig img
  let key := s.modelKey k
  decide (k < s.modelKeys) && ecdsaOk (sha384 (cut img 0 (leAt img 0x18 8))) key.1 key.2 (beNat (cut sig 0 48)) (beNat (cut sig 48 48))

/-! ### Relocation (R547) -/

/-- Bytes of the 64-bit address fields of a macro. -/
def macAddrs (op : Nat) : List Nat :=
  if op = 1 then [0x18, 0x20, 0x38, 0x50] else if op = 2 then [0x18, 0x20, 0x50]
  else if op = 3 then [0x18, 0x20, 0x38, 0x50, 0x68] else if op = 4 then [0x20, 0x38, 0x50, 0x68]
  else if op = 5 then [0x08] else [0x20, 0x38]

/-- An address field with bit 63 set and bit 62 clear is an offset into the image: the DPA to which its
section was copied. -/
def relocImage (secs : List Section) (a : Nat) : Nat :=
  let off := a % 2 ^ 62
  if a / 2 ^ 62 = 2 then
    match secs.find? fun x => decide (x.offset ≤ off) && decide (off < x.offset + x.length) with
    | some x => x.dpa + (off - x.offset)
    | none => a
  else a

/-- The 64-bit fields at some bytes from a DPA relocated in memory. -/
def State.relocAt (s : State) (secs : List Section) (a : Nat) (offs : List Nat) : State :=
  offs.foldl (fun t o => t.wrNat (a + o) 8 (relocImage secs (t.rdNat (a + o) 8))) s

/-- The DPA of a section's first byte. -/
def dpaOf (secs : List Section) (t : Nat) : Nat :=
  match secs.find? fun x => decide (x.type = t) with
  | some x => x.dpa
  | none => 0

/-- The macros, job descriptors and scatter descriptors of an image relocated. -/
def State.relocate (s : State) (img : List Byte) (secs : List Section) : State :=
  let w := sectionBytes img 3
  let base := dpaOf secs 3
  let macs := (walkTable w).flatMap fun e => (List.range e.count).map fun i => e.offset + 128 * i
  let s1 := (macs.eraseDups).foldl (fun t o => t.relocAt secs (base + o) (macAddrs (leAt w o 1))) s
  let s2 := (jobIndices img).foldl (fun t i => t.relocAt secs (dpaOf secs 5 + 64 * i) jobAddrs) s1
  let descs := (macs.filter fun o => decide (leAt w o 1 = 5)).filterMap fun o =>
    let a := leAt w (o + 8) 8
    if a / 2 ^ 62 = 2 then some (relocImage secs a) else none
  (descs.eraseDups).foldl (fun t a => t.relocAt secs a [0x10, 0x18, 0x20]) s2

/-! ### Placing (R546, R549; 16 R376, R381) -/

/-- A section copied into frames of its tier; none where the quota or pool has no room. -/
def State.placeSection (s : State) (p h : Nat) (img : List Byte) (r : SectionRef) : Option (Section × (Nat × Nat) × State) :=
  let n := (r.length + 4095) / 4096
  let t := if r.type = 7 then Tier.near else Tier.far
  match s.takeIn (s.poolOf p) t n (.model p h) (scopeKey p .none) with
  | some (f, s1) =>
    some ({ type := r.type, offset := r.offset, length := r.length, dpa := 4096 * f }, (f, n),
      s1.wr (4096 * f) (cut img r.offset r.length))
  | none => none

def State.placeSections (s : State) (p h : Nat) (img : List Byte) :
    List SectionRef → Option (List Section × List (Nat × Nat) × State)
  | [] => some ([], [], s)
  | r :: rest =>
    match s.placeSection p h img r with
    | none => none
    | some (x, f, s1) =>
      match s1.placeSections p h img rest with
      | none => none
      | some (xs, fs, s2) => some (x :: xs, f :: fs, s2)

/-- The working memory of each prefill lane, from the near quota (13 R303). -/
def State.placeLanes (s : State) (p h n : Nat) : Nat → Option (List Nat × State)
  | 0 => some ([], s)
  | k + 1 =>
    match s.takeIn (s.poolOf p) .near n (.model p h) (scopeKey p .none) with
    | none => none
    | some (f, s1) =>
      match s1.placeLanes p h n k with
      | none => none
      | some (fs, s2) => some (f :: fs, s2)

/-- A group that a record may be bound to (16 R376): the partition's, in service, without an image, with
every panel that the record needs. -/
def State.eligible (s : State) (p g : Nat) (r : GroupRec) : Bool :=
  (s.part p).held.cpg.testBit g && s.inService ⟨utGroup, g, 0⟩ && decide ((s.group g).model = none)
    && r.needs.all fun q => !(s.panel (32 * g + q)).out

/-- Logical groups bound to physical ones: first by tag (R549), then in ascending order to the
lowest-numbered eligible groups (16 R376). -/
def State.bindGroups (s : State) (p : Nat) (digest : BitVec 384) (recs : List GroupRec) : Option (List BoundGroup) :=
  let byTag := recs.filterMap fun r =>
    ((List.range 256).find? fun g =>
      let t := (s.group g).tag
      s.eligible p g r && t.valid && decide (t.digest = digest) && decide (t.logical = r.logical) && decide (t.mode = r.mode)).map
        fun g => ({ logical := r.logical, phys := g, mode := r.mode, retained := true } : BoundGroup)
  let rest := recs.filter fun r => byTag.all fun b => decide (b.logical ≠ r.logical)
  let out := rest.foldl (fun (a : Option (List BoundGroup)) r =>
    match a with
    | none => none
    | some l =>
      ((List.range 256).find? fun g => s.eligible p g r && l.all fun b => decide (b.phys ≠ g)).map
        fun g => l ++ [({ logical := r.logical, phys := g, mode := r.mode, retained := false } : BoundGroup)]) (some byTag)
  out

/-- A panel of a bound group: its payload and a copy of it in the far device region, and programming owed
unless the group was bound by its tag (16 R381). `none` where the region has no room. -/
def State.placePanel (s : State) (secs : List Section) (g q payload : Nat) (retained : Bool) : Option State :=
  match s.takeBlock .far 524288 with
  | none => none
  | some (a, s1) =>
    let src := relocImage secs (2 ^ 63 + payload)
    let s2 := s1.wr a (s1.rd src 524288)
    some (s2.setPanel (32 * g + q) { s2.panel (32 * g + q) with image := some src, copy := some a, owed := !retained })

def State.placePanels (s : State) (secs : List Section) (g : Nat) (retained : Bool) : List (Nat × Nat) → Option State
  | [] => some s
  | e :: rest =>
    match s.placePanel secs g e.1 e.2 retained with
    | none => none
    | some t => t.placePanels secs g retained rest

/-- A bound group takes its image: CPG_EVAL_CFG is written unless the page is locked (15 R371), and its
first re-reference is still to come. -/
def State.placeGroup (s : State) (p h : Nat) (secs : List Section) (recs : List GroupRec) (b : BoundGroup) : Option State :=
  match recs.find? fun r => decide (r.logical = b.logical) with
  | none => some s
  | some r =>
    let g := b.phys
    let s1 := s.setGroup g { s.group g with model := some (p, h), lastRef := none, tRef := none, due := false, visit := [] }
    let s2 := if s1.locked (pgCpg g) then s1 else s1.setFld (Key.cpgEvalCfg g) 2 0 (r.policy * 4 + r.gain)
    s2.placePanels secs g b.retained r.panels

def State.placeGroups (s : State) (p h : Nat) (secs : List Section) (recs : List GroupRec) : List BoundGroup → Option State
  | [] => some s
  | b :: rest =>
    match s.placeGroup p h secs recs b with
    | none => none
    | some t => t.placeGroups p h secs recs rest

/-- The map entries rewritten to physical dies and panels (16 R376). -/
def State.rewriteMaps (s : State) (img : List Byte) (secs : List Section) (bs : List BoundGroup) : State :=
  let offs := ((jobIndices img).flatMap fun i =>
    let d := jobAt img i
    (List.range (d.tilesK * d.tilesN)).map fun t => d.map % 2 ^ 62 + 8 * t).eraseDups
  offs.foldl (fun t o =>
    let e := leAt img o 8
    let q := mapPanel e
    match bs.find? fun b => decide (b.logical = q / 32) with
    | some b =>
      let y := 32 * b.phys + q % 32
      t.wrNat (relocImage secs (2 ^ 63 + o)) 8 (e / 2 ^ 18 * 2 ^ 18 + y / 2048 * 65536 + y % 2048)
    | none => t) s

/-! ### LOAD_MODEL -/

/-- A Spar of which a sealed partition holds at least a demand (11 R241). -/
def Held.fits (h : Held) (d : Demand) (k : Nat) : Bool :=
  decide (d.yards ≤ popcount (bitsOf h.yrd (8 * k + 7) (8 * k))) && decide (d.luffs ≤ popcount (bitsOf h.luf (2 * k + 1) (2 * k)))
    && decide (d.clews ≤ popcount (bitsOf h.clw (4 * k + 3) (4 * k))) && decide (d.banks ≤ popcount (bitsOf h.bank (48 * k + 47) (48 * k)))

/-- The check PLAN_FIT (11 R241). -/
def State.planFits (s : State) (p : Nat) (c : List Byte) : Bool :=
  !s.isSealed p || (List.range (planCount c)).all fun j =>
    (List.range 4).any fun k => (s.part p).held.fits (demandOf c j) k

/-- The checks of sections that precede the binding of groups, in the order of R546. -/
def State.contentCheck (s : State) (p : Nat) (img : List Byte) : Nat :=
  let c := sectionBytes img 2
  let w := sectionBytes img 3
  firstBad [planCheck c, if s.planFits p c then 0 else 0x13, walksCheck w c,
    clewSectionCheck w c (Config.clew (sectionBytes img 4)), jobsCheck img, weightCheck img]

/-- The model of an image, once its sections have their places. -/
def modelOf (p h : Nat) (img : List Byte) (secs : List Section) (frames : List (Nat × Nat)) (lanes : List Nat)
    (bs : List BoundGroup) : Model :=
  let w := sectionBytes img 3
  { part := p, handle := h, st := .loading, digest := imageDigest img, conduct := leAt img 8 1
    vocab := (Config.shape (sectionBytes img 1)).vocab, shards := shardShapes w
    online := hasMode w 1, orderFree := hasMode w 2, samples := hasSample w
    sections := secs, frames := frames, lanes := lanes, groups := bs }

/-- The conduct check (R550): the first image sets DEV_CONDUCT, and every later one must have its level. -/
def State.conductCheck (s : State) (level : Nat) : Bool × State :=
  if s.bit Key.devConduct 31 then (decide (s.fld Key.devConduct 7 0 = level), s)
  else (true, (s.noteOld Key.devConduct).setReg Key.devConduct (BitVec.ofNat 32 (2 ^ 31 + level)))

/-- An image that passed the checks on its header placed; or the detail with which it is refused, the state
being that before the placing. -/
def State.placeImage (s : State) (p h : Nat) (img : List Byte) : Nat ⊕ State :=
  match s.placeSections p h img (sectionTable img) with
  | none => .inl 0x21
  | some (secs, fs, s1) =>
    let n := max 1 (Config.laneFrames (imageDigest img))
    match s1.placeLanes p h n (s.prefillLanes p) with
    | none => .inl 0x21
    | some (lanes, s2) =>
      let bad := s2.contentCheck p img
      if bad ≠ 0 then .inl bad
      else
        let recs := groupRecs (sectionBytes img 6)
        match s2.bindGroups p (imageDigest img) recs with
        | none => .inl 0x1B
        | some bs =>
          let s3 := (s2.relocate img secs).rewriteMaps img secs bs
          match s3.placeGroups p h secs recs bs with
          | none => .inl 0x21
          | some s4 =>
            let m := modelOf p h img secs (fs ++ lanes.map fun f => (f, n)) lanes bs
            .inr { s4 with models := s4.models ++ [m] }

/-- The lowest handle that no image of a partition holds (04 R671). -/
def State.freeHandle (s : State) (p : Nat) : Option Nat :=
  let taken : List Nat := (s.models.filter fun m => decide (m.part = p)).map fun m => m.handle
  (List.range (taken.length + 1)).map (fun i => i + 1) |>.find? fun h => decide (h ≤ 65535) && decide (h ∉ taken)

/-- A LOAD_MODEL that passed R65: the handle, the read of the image, and the checks of R546 in order. -/
def State.serveLoad (s : State) (p q : Nat) (d : BitVec 1024) (image : HostRead (List Byte)) : State :=
  let tag := descTag d
  match s.freeHandle p with
  | none => (s.fetch p q tag .nop).refuse p q tag stRefusedModel 0x23
  | some h =>
    let s1 := (s.fetch p q tag (.load h)).emit (.hostRead (p + 1) (BitVec.ofNat 64 (dfield d 0x10 0 64)) (dfield d 0x18 0 64))
    match image with
    | none => s1.refuse p q tag stRefusedModel 0x22
    | some img =>
      if headerOk img (dfield d 0x18 0 64) = false then s1.refuse p q tag stRefusedModel 0x1D
      else if s1.signatureOk img = false then s1.refuse p q tag stRefusedModel 0x1E
      else
        let c := s1.conductCheck (leAt img 8 1)
        if c.1 = false then c.2.refuse p q tag stRefusedModel 0x1F
        else if shapeOk (Config.shape (sectionBytes img 1)) = false then c.2.refuse p q tag stRefusedModel 0x20
        else match c.2.placeImage p h img with
          | .inl detail => c.2.refuse p q tag stRefusedModel detail
          | .inr t => t.kvpUpdate

/-- LOAD_MODEL (04 R63, R671; 22 R546). -/
def execLoadModel (p : BitVec 7) (q : BitVec 3) (d : BitVec 1024) (image : HostRead (List Byte)) (s : State) :
    Outcome State Fault Refusal :=
  let p := p.toNat
  let q := q.toNat
  let tag := descTag d
  .next (if s.servable p q 0x04 d then
    let s1 := s.fetched p q
    let f := s1.fetch p q tag .nop
    if s1.ready = false then f.refuse p q tag stRefusedStopped 0x01
    else if s1.pstate p ≠ psActive ∨ (s1.part p).keyOwed = true ∨ (s1.part p).flr = true then f.refuse p q tag stRefusedStopped 0x02
    else match s1.descCheck p d (otherFieldBad (descType d) d) with
      | some dt => f.refuse p q tag stRefusedFrame dt
      | none => s1.serveLoad p q d image
  else s)

/-- Every group of an image is programmed and re-referenced (16 R378, R379). -/
def Model.placed (m : Model) : Bool := m.groups.all fun b => b.referenced && !b.retained

/-- MODEL_LOAD_COMPLETE (16 R379): the load completes OK and returns the handle. -/
def execModelLoadComplete (p : BitVec 7) (handle : BitVec 16) (s : State) : Outcome State Fault Refusal :=
  let p := p.toNat
  let h := handle.toNat
  .next (match s.model p h with
    | none => s
    | some m =>
      if m.st = .loading ∧ m.placed = true then
        let s1 := s.setModel { m with st := .loaded }
        match s1.descs.find? fun d => decide (d.part = p) && decide (d.kind = .load h) && !d.ended with
        | some d => s1.complete p d.num (completion d.tag d.sq stOk 0 h 0 0)
        | none => s1
      else s)

/-- UNLOAD_COMPLETE (04 R81, 10 R232): with no live request left, one whose record is still to be written among them, the
image's nodes leave the index and the image is released. -/
def execUnloadComplete (p : BitVec 7) (handle : BitVec 16) (s : State) : Outcome State Fault Refusal :=
  let p := p.toNat
  let h := handle.toNat
  .next (match s.model p h with
    | none => s
    | some m =>
      let live := s.reqs.any fun r => decide (r.part = p) && decide (r.d.model = h)
      if m.st = .unloading ∧ live = false then
        let mine := fun (n : Node) => decide (n.digest = m.digest)
          && (decide (n.payer = some p) || match n.scope with
            | .pair x _ => decide (x = p)
            | .slot b => s.slotHas b p
            | .none => false)
        (s.removeNodes mine).releaseImage m
      else s)

/-! ### Conduct (R550, R557) -/

/-- DEV_CONDUCT written with level 0 or 1 while it is unset. One that a LOAD_MODEL set in this cycle comes
after this write in arbitration order: that load is then judged against the written level. -/
def State.writeConduct (s : State) (v : Word) : State :=
  let level := getBits v 7 0
  let byLoad := match s.oldReg Key.devConduct with
    | some w => decide (getBits w 31 31 = 0)
    | none => false
  if 1 < level then s
  else if s.bit Key.devConduct 31 = false then s.setReg Key.devConduct (BitVec.ofNat 32 (2 ^ 31 + level))
  else if byLoad then
    let s1 := s.setReg Key.devConduct (BitVec.ofNat 32 (2 ^ 31 + level))
    (s1.models.filter fun m => decide (m.st = .loading) && decide (m.conduct ≠ level)).foldl
      (fun t m => t.refuseLoad m 0x1F) s1
  else s

/-- CONDUCT_WRITE (R550). -/
def execConductWrite (m : Master) (be : BitVec 4) (v : Word) (s : State) : Outcome State Fault Refusal :=
  .next (s.gated m pgDev 0x100 be v fun t => t.writeConduct v)

end Sys2Proof.Machine
end

