-- ==== Sys2Proof/Machine/Ordering.lean ====
section
/-! DEFINITION. The accesses of the device agents and their order (05 R88 to R94, R102 to R106). -/

namespace Sys2Proof.Machine

open Host

/-- All agents. -/
def allAgents : List Agent := [.core 0, .core 1, .boom 0, .boom 1, .boom 2, .boom 3]

/-- The die that an agent is on, by the die codes of RST_CMD. -/
def agentDie : Agent → Nat
  | .core _ => 11
  | .boom k => k.toNat

/-- The die that serves an address, if any. -/
def memDie (a : Nat) : Option Nat :=
  match placeOf a with
  | .near k => some k
  | .sram k => some k
  | .far _ => some 10
  | .reserved => none

/-- The memory at an address is in service. -/
def State.memOnline (s : State) (a : Nat) : Bool :=
  match placeOf a with
  | .near k => s.nearOnline k
  | .far q => s.farOnline q
  | .sram _ => true
  | .reserved => false

/-- Two accesses touch a common byte. -/
def MemOp.meets (a b : MemOp) : Bool := decide (a.dpa < b.dpa + b.len) && decide (b.dpa < a.dpa + a.len)

/-- Free bytes. -/
def freeBytes (n k : Nat) : List Byte := (List.range n).map fun i => Config.freeByte (k + i)

/-! ### The parts of an access (R89) -/

/-- The naturally aligned pieces of 8, 4, 2 and 1 bytes of `[a, a + n)`, the largest first from the left (DESIGN CHOICE):
each is single-copy atomic, so an aligned access of such a width is one piece. -/
def pieces : Nat → Nat → Nat → List (Nat × Nat)
  | 0, _, _ => []
  | fuel + 1, a, n =>
    if n = 0 then []
    else
      let w := if a % 8 = 0 ∧ 8 ≤ n then 8 else if a % 4 = 0 ∧ 4 ≤ n then 4 else if a % 2 = 0 ∧ 2 ≤ n then 2 else 1
      (a, w) :: pieces fuel (a + w) (n - w)

/-- The parts in which an access may be observed (R89). -/
def MemOp.parts (o : MemOp) : List MemOp :=
  (pieces o.len o.dpa o.len).map fun p => { o with dpa := p.1, len := p.2, data := (o.data.drop (p.1 - o.dpa)).take p.2 }

/-! ### Performing an access (R88, R104) -/

/-- An access of an agent cannot reach the die of its address: one of the two is out of service (21 R521). -/
def State.pathCut (s : State) (a : Agent) (dpa : Nat) : Bool :=
  match memDie dpa with
  | some d => decide (d ≠ agentDie a) && (decide (d ∈ s.clk.cut) || decide (agentDie a ∈ s.clk.cut))
  | none => false

/-- An access that the ratlines fail: reported on the CLK and FLT pages (R104, 21 R527). The link is a free choice among those of
the die. -/
def State.accessLost (s : State) : State :=
  ((s.latch pgClk 5 (s.choice % 38)).latch pgFlt 0 (s.choice % 38)).chosen

/-- What an access that has no memory behind it returns, when it is a load. -/
def State.answerLoad (s : State) (a : Agent) (o : MemOp) (bytes : List Byte) : State :=
  if o.store then s else s.emit (.loaded a o.dpa bytes false)

/-- An access is performed (R88): a store reaches its point of coherence; a load returns the bytes there, poisoned where a
line is (08 R173). An access of a reserved range completes with zero data and latches a ratline fault (08 R160); the
spec gives that fault no link. Memory out of service holds nothing: its bytes are free. -/
def State.perform (s : State) (a : Agent) (o : MemOp) : State :=
  if memDie o.dpa = none then ((s.latch pgFlt 0 (s.choice % 64)).chosen).answerLoad a o (List.replicate o.len 0)
  else if s.pathCut a o.dpa then
    ({ s with freeCtr := s.freeCtr + o.len }).accessLost.answerLoad a o (freeBytes o.len s.freeCtr)
  else if s.memOnline o.dpa then
    if o.store then
      let t := (s.abortStored o.dpa o.len).wr o.dpa o.data
      { t with mem := { t.mem with garbled := cutGarbled t.mem.garbled o.dpa o.len } }
    else
      match s.poisoned o.dpa o.len with
      | some l => (s.lineUe l).emit (.loaded a o.dpa (s.loadBytes o.dpa o.len) true)
      | none => (s.readMarred o.dpa o.len).emit (.loaded a o.dpa (s.loadBytes o.dpa o.len) false)
  else ({ s with freeCtr := s.freeCtr + o.len }).answerLoad a o (freeBytes o.len s.freeCtr)

/-! ### What holds an access back (R89 to R94) -/

/-- An earlier access of the same agent holds a later one back: they meet (R89), the later one is a store-release, or the earlier
one a load-acquire (R91). -/
def MemOp.holds (x o : MemOp) : Bool := x.meets o || (o.sem && o.store) || (x.sem && !x.store)

/-- A macro that its Boom issued before an access, and that is not performed, holds the access back: its operands are not known
yet, they meet the access, a flag of it orders what follows, or the access is a store-release (R94). -/
def MacroSt.holdsOp (m : MacroSt) (o : MemOp) : Bool :=
  let hit := fun (r : Nat × Nat) => decide (r.1 < o.dpa + o.len) && decide (o.dpa < r.1 + r.2)
  decide (m.num < o.after) && !m.done
    && (!m.resolved || m.reads.any hit || m.writes.any hit || Mac.acq m.word || Mac.sync m.word || (o.sem && o.store))

/-- Nothing holds back an access of an agent that follows the outstanding ones `before`. -/
def State.opFree (s : State) (a : Agent) (before : List MemOp) (o : MemOp) : Bool :=
  before.all (fun x => !x.holds o) && match a with
  | .core _ => true
  | .boom k => s.fab.flight.all fun m => decide (m.spar ≠ k.toNat) || !m.holdsOp o

/-- Accesses performed in program order, those held back left out; `kept` gathers them. -/
def State.runOps (s : State) (a : Agent) (kept : List MemOp) : List MemOp → State × List MemOp
  | [] => (s, kept)
  | o :: rest => if s.opFree a kept o then (s.perform a o).runOps a kept rest else s.runOps a (kept ++ [o]) rest

/-- How many outstanding accesses reach up to the last one that holds a new one back. -/
def mustPrecede (l : List MemOp) (o : MemOp) : Nat :=
  ((List.range l.length).filter fun i => match l[i]? with
    | some x => x.holds o
    | none => false).foldl (fun m i => max m (i + 1)) 0

/-- One part of an access begins. A late one stays outstanding, and others of its agent may be performed before it (R90);
another is performed at once, after what must precede it, unless a macro holds it back. -/
def State.beginPart (s : State) (a : Agent) (o : MemOp) : State :=
  let l := (s.agent a).open_
  if o.late then s.setAgent a { s.agent a with open_ := l ++ [o] }
  else
    let n := mustPrecede l o
    let r := s.runOps a [] (l.take n)
    let left := r.2 ++ l.drop n
    if r.1.opFree a left o then (r.1.setAgent a { s.agent a with open_ := left }).perform a o
    else r.1.setAgent a { s.agent a with open_ := left ++ [o] }

/-- Macros that the agent's Boom has issued. -/
def State.issuedBy (s : State) : Agent → Nat
  | .core _ => 0
  | .boom k => SMap.get (fun _ => 0) s.fab.issued k.toNat

/-- An access begins, part by part. -/
def State.beginOp (s : State) (a : Agent) (o : MemOp) : State :=
  ({ o with after := s.issuedBy a }).parts.foldl (fun t x => t.beginPart a x) s

/-- An access of an agent: while a SYNC waits, nothing that follows it starts (R93). -/
def State.access (s : State) (a : Agent) (o : MemOp) : State :=
  let x := s.agent a
  if x.sync then s.setAgent a { x with behind := x.behind ++ [.mem o] } else s.beginOp a o

/-! ### The commands -/

/-- PLAIN_LOAD (R90). -/
def execPlainLoad (a : Agent) (dpa : BitVec 43) (len : Nat) (late : Bool) (s : State) :
    Outcome State Fault Refusal :=
  .next (s.access a { store := false, sem := false, dpa := dpa.toNat, len := len, late := late })

/-- PLAIN_STORE (R90). -/
def execPlainStore (a : Agent) (dpa : BitVec 43) (data : List Byte) (late : Bool) (s : State) :
    Outcome State Fault Refusal :=
  .next (s.access a { store := true, sem := false, dpa := dpa.toNat, len := data.length, data := data, late := late })

/-- LOAD_ACQUIRE (R91). -/
def execLoadAcquire (a : Agent) (dpa : BitVec 43) (len : Nat) (s : State) : Outcome State Fault Refusal :=
  .next (s.access a { store := false, sem := true, dpa := dpa.toNat, len := len })

/-- STORE_RELEASE (R91). -/
def execStoreRelease (a : Agent) (dpa : BitVec 43) (data : List Byte) (late : Bool) (s : State) :
    Outcome State Fault Refusal :=
  .next (s.access a { store := true, sem := true, dpa := dpa.toNat, len := data.length, data := data, late := late })

/-- A SYNC of an agent waits. -/
def State.waitSync (s : State) (a : Agent) (behind : List AgentItem) : State :=
  s.setAgent a { s.agent a with sync := true, syncAfter := s.issuedBy a, behind := behind }

/-- SYNC (R93): it waits until every access before it is performed. -/
def execSync (a : Agent) (s : State) : Outcome State Fault Refusal :=
  let x := s.agent a
  .next (if x.sync then s.setAgent a { x with behind := x.behind ++ [.fence] } else s.waitSync a [])

/-- Every access before an agent's SYNC is performed, those of its Boom's macros too (R93, R94). -/
def State.syncDone (s : State) (a : Agent) : Bool :=
  let x := s.agent a
  decide (x.open_ = []) && match a with
  | .core _ => true
  | .boom k => s.fab.flight.all fun m => decide (m.spar ≠ k.toNat) || m.done || decide (x.syncAfter ≤ m.num)

/-- An agent's own accesses hold back a macro that its Boom issued after them: a SYNC waits, an access and the macro meet, or a flag
orders them (R94). -/
def State.agentHolds (s : State) (m : MacroSt) (reads writes : List (Nat × Nat)) : Bool :=
  let x := s.agent (.boom (BitVec.ofNat 2 m.spar))
  let hit := fun (o : MemOp) (r : Nat × Nat) => decide (r.1 < o.dpa + o.len) && decide (o.dpa < r.1 + r.2)
  (x.sync && decide (x.syncAfter ≤ m.num)) || x.open_.any fun o =>
    decide (o.after ≤ m.num)
      && (writes.any (hit o) || (o.store && reads.any (hit o)) || (o.sem && !o.store) || Mac.rel m.word || Mac.sync m.word)

/-- The accesses that may be performed next: agent and place among its outstanding ones. -/
def State.openOps (s : State) : List (Agent × Nat) :=
  allAgents.flatMap fun a =>
    ((List.range (s.agent a).open_.length).filter fun i => match (s.agent a).open_[i]? with
      | some o => s.opFree a ((s.agent a).open_.take i) o
      | none => false).map fun i => (a, i)

/-- One outstanding access of an agent performed. -/
def State.performAt (s : State) (a : Agent) (i : Nat) : State :=
  match (s.agent a).open_[i]? with
  | some o => (s.setAgent a { s.agent a with open_ := (s.agent a).open_.eraseIdx i }).perform a o
  | none => s

/-- A die goes into reset: no access of its Boom, and none to its memory, is pending when it leaves it (R106). -/
def State.dropAccesses (s : State) (d : Nat) : State :=
  let stays := fun (o : MemOp) => decide (memDie o.dpa ≠ some d)
  allAgents.foldl (fun (t : State) a =>
    if agentDie a = d then t.setAgent a {}
    else if (t.agent a).open_ = [] ∧ (t.agent a).behind = [] then t
    else t.setAgent a { t.agent a with
      open_ := (t.agent a).open_.filter stays
      behind := (t.agent a).behind.filter fun x => match x with
        | .mem o => stays o
        | _ => true }) s

end Sys2Proof.Machine
end

