-- ==== Sys2Proof/Machine/Fabric.lean ====
section
/-! DEFINITION. What the Spars share (11, 12): bound plans, walks, slots, bounds, operands and the ranges
that they cover, hazards between macros in flight, and the binding and starting of work (PLAN_BIND,
WALK_START). -/

namespace Sys2Proof.Machine

open Host

/-! ### Walks and macros in flight -/

def State.walkAt (s : State) (spar id : Nat) : Option Walk :=
  s.fab.walks.find? fun w => decide (w.spar = spar) && decide (w.id = id)
def State.setWalk (s : State) (w : Walk) : State :=
  { s with fab := { s.fab with walks := s.fab.walks.map fun x => if x.spar = w.spar ∧ x.id = w.id then w else x } }
def State.dropWalk (s : State) (w : Walk) : State :=
  { s with fab := { s.fab with walks := s.fab.walks.filter fun x => !(decide (x.spar = w.spar) && decide (x.id = w.id)) } }
def State.setFlight (s : State) (m : MacroSt) : State :=
  { s with fab := { s.fab with flight := s.fab.flight.map fun x => if x.spar = m.spar ∧ x.slot = m.slot then m else x } }
def State.inFlight (s : State) (w : Walk) : List MacroSt :=
  s.fab.flight.filter fun m => decide (m.spar = w.spar) && decide (m.walk = w.id)

/-- Every request of a walk completes with a fault. -/
def State.failWalk (s : State) (w : Walk) (st dt : Nat) : State :=
  w.tags.foldl (fun t g => t.failTag w.part g st dt) s

/-- An uncorrectable line that a walk meets (12 R284, 08 R173). -/
def State.walkUe (s : State) (w : Walk) (a : Nat) : State :=
  (s.lineUe a).failWalk w (ueStatus a).1 (ueStatus a).2

/-- The detail of a BOM fault: the walk, and the macro's index (12 R287). -/
def macroDetail (w : Walk) : Nat := w.id % 64 * 2 ^ 20 + w.next % 2 ^ 20

/-! ### Slots (R273) -/

/-- Slots of a Spar held by a partition, those freed in this cycle among them (R279), and those reserved for sealed
partitions. -/
def State.slotsOf (s : State) (k p : Nat) : Nat :=
  (s.fab.flight.filter fun m => decide (m.spar = k) && decide (m.part = p)).length
    + (s.fab.freed.filter fun e => decide (e.1 = k) && decide (e.2.2 = p)).length
def State.reservedSlots (s : State) (k p : Nat) : Nat := 8 * bitsOf (s.part p).held.slots (8 * k + 7) (8 * k)
def State.unreservedSlots (s : State) (k : Nat) : Nat :=
  1024 - (s.sealedParts.map fun p => s.reservedSlots k p).sum

/-- A slot of Spar `k` is open to partition `p`; a test walk draws on the unreserved slots. -/
def State.slotOpen (s : State) (k p : Nat) (test : Bool) : Bool :=
  if s.isSealed p && !test then decide (s.slotsOf k p < s.reservedSlots k p)
  else
    let shared := s.fab.flight.filter fun m => decide (m.spar = k) && !s.isSealed m.part
    let freed := s.fab.freed.filter fun e => decide (e.1 = k) && !s.isSealed e.2.2
    decide (shared.length + freed.length < s.unreservedSlots k)
      && (test || decide (s.slotsOf k p < 8 * max 1 (s.fld (Key.bomCfg k) 7 0)))

/-- The lowest free slot number of a Spar; one freed in this cycle counts from the next (R279). -/
def State.freeSlot (s : State) (k : Nat) : Option Nat :=
  let used : List Nat := (s.fab.flight.filter fun m => decide (m.spar = k)).map fun m => m.slot
  (List.range 1024).find? fun i => decide (i ∉ used) && decide ((k, i) ∉ s.fab.freed.map fun e => (e.1, e.2.1))

/-! ### Operands, bounds and pointer lists (R265 to R268, R276) -/

/-- Where matrix `i` of an operand starts: its pointer-list entry, or base + i × bstride (R266). -/
def Operand.at_ (o : Operand) (l : List Nat) (i : Nat) : Nat :=
  if o.plist then l.getD i 0 else o.base + i * o.bstride

/-- The bytes that a matrix of some rows covers (R276). -/
def matrixRange (a ld rows rowBytes : Nat) : Nat × Nat :=
  if rows = 0 ∨ rowBytes = 0 then (a, 0) else (a, ld * (rows - 1) + rowBytes)

/-- A bound of a macro (R267): the field, the walk register it names, or the memory word. -/
def State.boundOf (s : State) (w : Walk) (m : Mac) (i : Nat) : Nat :=
  if m.bsrc i = 0 then m.bound i
  else if m.bsrc i = 1 then (w.regs.getD (m.bound i % 16) 0).toNat
  else s.rdNat (m.boundAddr + 4 * i) 4

/-- The bound words that a macro reads from memory. -/
def boundWords (m : Mac) (is : List Nat) : List (Nat × Nat) :=
  (is.filter fun i => decide (m.bsrc i = 2)).map fun i => (m.boundAddr + 4 * i, 4)

/-- The entries of a pointer list. -/
def State.readList (s : State) (o : Operand) (n : Nat) : List Nat :=
  if o.plist then (List.range n).map fun i => s.rdNat (o.base + 8 * i) 8 else []
def listWords (o : Operand) (n : Nat) : List (Nat × Nat) := if o.plist ∧ n ≠ 0 then [(o.base, 8 * n)] else []

/-- Two byte ranges have a byte in common. -/
def meets (a b : Nat × Nat) : Bool :=
  decide (0 < a.2) && decide (0 < b.2) && decide (a.1 < b.1 + b.2) && decide (b.1 < a.1 + a.2)

/-- Every byte of a range lies in banks of a bound plan. -/
def BoundPlan.inBanks (b : BoundPlan) (r : Nat × Nat) : Bool :=
  decide (r.2 = 0) || (List.range (r.2 / 0x200000 + 2)).all fun i =>
    let a := max r.1 (r.1 / 0x200000 * 0x200000 + i * 0x200000)
    decide (r.1 + r.2 ≤ a) || b.banks.any fun x => decide (bankBase x ≤ a) && decide (a < bankBase x + 0x200000)

/-- Ranges of an operand lie where R277 allows. -/
def State.allowed (s : State) (b : BoundPlan) (o : Operand) (rs : List (Nat × Nat)) : Bool :=
  rs.all fun r => if o.sram then b.inBanks r else s.owns b.part r

/-! ### What a macro comes to at issue -/

/-- A macro resolved: an error (0 none, 1 BOUND_RANGE, 2 BAD_ADDR, 3 GROUP_MISSING), whether it retires with no
access, its bounds and lists, and its ranges and units. -/
structure Resolved where
  err : Nat := 0
  idle : Bool := false
  bounds : List Nat := []
  lists : List (List Nat) := []
  reads : List (Nat × Nat) := []
  writes : List (Nat × Nat) := []
  units : List UnitId := []

/-! ### Hazards (05 R94, 12 R276, R281, R282) -/

/-- An earlier macro in flight holds a later one back: by an overlap of ranges of which one writes, by a
unit that both need, by an order flag, or because its own bounds are not read yet. -/
def holdsBack (a : MacroSt) (reads writes : List (Nat × Nat)) (units : List UnitId) (later : Mac) : Bool :=
  let flagged := decide (dfield a.word 1 0 1 = 1) || decide (dfield a.word 1 2 1 = 1)
  let lateFlag := Mac.sync later || Mac.rel later
  !a.resolved
    || a.writes.any (fun x => reads.any (meets x) || writes.any (meets x)) || a.reads.any (fun x => writes.any (meets x))
    || (!a.done && (a.units.any fun u => decide (u ∈ units) && (decide (u.type ≤ 3))))
    || (!a.done && (flagged || lateFlag))

/-- The macros of a Boom that were issued before one in flight. -/
def State.earlier (s : State) (m : MacroSt) : List MacroSt :=
  ((s.fab.flight.filter fun x => decide (x.spar = m.spar)).takeWhile fun x => decide (x.slot ≠ m.slot))

/-! ### PLAN_BIND (11 R242, R243, R253) -/

/-- Units of a type on Spar `k` that a partition may bind: a sealed one's own, or the pool's; none that a
bound plan has. -/
def State.bindable (s : State) (p k t per : Nat) : List Nat :=
  ((List.range per).map fun i => per * k + i).filter fun i =>
    s.inService ⟨t, i, 0⟩ && (if s.isSealed p then ((s.part p).held.mask t).testBit i else s.inPool ⟨t, i, 0⟩)
      && s.fab.plans.all fun b => !b.has ⟨t, i, 0⟩

/-- A plan whose work is over: no walk runs on it. -/
def State.planIdle (s : State) (b : BoundPlan) : Bool :=
  s.fab.walks.all fun w => match s.planOf w with
    | some x => decide (x ≠ b)
    | none => true

/-- A section of a loaded image. -/
def State.section (s : State) (m : Model) (t : Nat) : List Byte :=
  match m.sections.find? fun x => decide (x.type = t) with
  | some x => s.rd x.dpa x.length
  | none => []

/-- The streams and the records of a Spar plan of an image's container. -/
def planSize (c : List Byte) (j : Nat) : Nat × Nat :=
  let l := (planRecs c).filter fun r => decide (r.plan = j)
  ((l.filter fun r => decide (r.type = 6)).length, l.length)

/-- The streams and records of the plans bound to Spar `k`, with another plan's, keep within R252. -/
def State.planRoom (s : State) (k : Nat) (more : Nat × Nat) : Bool :=
  let l := (s.fab.plans.filter fun b => decide (b.spar = k)).filterMap fun b =>
    (s.model b.part b.handle).map fun m => planSize (s.section m 2) b.plan
  decide ((l.map fun e => e.1).sum + more.1 ≤ 256) && decide ((l.map fun e => e.2).sum + more.2 ≤ 16384)

/-- The units that a demand takes on a Spar; none where they do not suffice. -/
def State.fitPlan (s : State) (p h j k : Nat) (d : Demand) : Option BoundPlan :=
  let y := s.bindable p k 1 8
  let l := s.bindable p k 2 2
  let c := s.bindable p k 3 4
  let b := s.bindable p k 5 48
  if d.yards ≤ y.length ∧ d.luffs ≤ l.length ∧ d.clews ≤ c.length ∧ d.banks ≤ b.length ∧ s.inService ⟨utBoom, k, 0⟩ then
    some { part := p, handle := h, plan := j, spar := k, yards := y.take d.yards, luffs := l.take d.luffs
           clews := c.take d.clews, banks := b.take d.banks }
  else none

/-- A plan of an image that fits on a Spar: its units suffice there, and the streams and records have room (R242, R252). -/
def State.fitModel (s : State) (m : Model) (j k : Nat) (d : Demand) : Option BoundPlan :=
  if s.planRoom k (planSize (s.section m 2) j) then s.fitPlan m.part m.handle j k d else none

/-- A plan bound: its banks pass to the partition, its Clews' stores are loaded (14 R323), its FIFO banks and
its identifier show in the Spar's registers. -/
def State.bindPlan (s : State) (m : Model) (b : BoundPlan) : State :=
  let c := s.section m 2
  let clew := s.section m 4
  let s1 := { s with fab := { s.fab with plans := s.fab.plans ++ [b] } }
  let s2 := b.banks.foldl (fun t i => t.claimBank b.part i) s1
  let s3 := b.clews.foldl (fun (t : State) i =>
    { t with fab := { t.fab with stores := SMap.set (fun _ => []) t.fab.stores i clew } }) s2
  let fifo := (planRecs c).filter fun r => decide (r.type = 4) && decide (r.plan = b.plan) && decide (r.byte 4 = 1)
  let s4 := (b.banks.zipIdx).foldl (fun t e =>
    t.setBit (Key.sprBank b.spar (e.1 % 48)) 1 (fifo.any fun r => decide (r.index = e.2))) s3
  (s4.setReg (Key.sprPlanIdLo b.spar) (BitVec.ofNat 32 (planId c))).setReg (Key.sprPlanIdHi b.spar)
    (BitVec.ofNat 32 (planId c / 2 ^ 32))

/-- Idle plans that must give their units up: those of the partition itself, and of shared partitions when
the units come from the pool. -/
def State.displaceable (s : State) (p : Nat) : List BoundPlan :=
  s.fab.plans.filter fun b => s.planIdle b && (decide (b.part = p) || (!s.isSealed p && !s.isSealed b.part))

/-- A plan bound to a Spar, with idle plans unbound one after another while units are short. -/
def State.tryBind (s : State) (m : Model) (j k : Nat) (d : Demand) : List BoundPlan → State × Bool
  | [] =>
    match s.fitModel m j k d with
    | some b => (s.bindPlan m b, true)
    | none => (s, false)
  | x :: rest =>
    match s.fitModel m j k d with
    | some b => (s.bindPlan m b, true)
    | none =>
      let t := { s with fab := { s.fab with plans := s.fab.plans.filter fun y => decide (y ≠ x) } }
      t.tryBind m j k d rest

/-- The place of waiting work in the order of R140: class, then the fetch of its oldest request. -/
def State.workOrder (s : State) (p : Nat) (tags : List (BitVec 64)) : Nat × Nat :=
  let rs := tags.filterMap fun g => s.req p g
  let c := (rs.map fun r => r.d.prio).foldl min 3
  (c, ((rs.filter fun r => decide (r.d.prio = c)).map fun r => r.fetchNo).foldl min s.nextFetch)
def earlierWork (a b : Nat × Nat) : Bool := decide (a.1 < b.1) || (decide (a.1 = b.1) && decide (a.2 < b.2))

/-- The image and Spar plan of a walk that waits. -/
def State.waitingPlan (s : State) (x : Nat × Nat × List (BitVec 64) × Nat × Nat) : Option (Model × Nat) :=
  match s.model x.2.1 x.2.2.2.1 with
  | some m => ((walkTable (s.section m 3))[x.2.2.2.2]?).map fun e => (m, e.plan)
  | none => none

/-- Work of another shared plan waits ahead of a shared plan's, and its plan could be bound to the Spar now: the pool's units go to it
first (11 R243). -/
def State.bindAhead (s : State) (m : Model) (j k : Nat) : Bool :=
  let free : State := { s with fab := { s.fab with plans := s.fab.plans.filter fun b => decide (b ∉ s.displaceable m.part) } }
  let place := fun (x : Nat × Nat × List (BitVec 64) × Nat × Nat) => s.workOrder x.2.1 x.2.2.1
  let mine := (s.fab.waiting.filter fun x => decide (s.waitingPlan x = some (m, j))).map place
  !s.isSealed m.part && s.fab.waiting.any fun x => match s.waitingPlan x with
    | some (y, i) => !s.isSealed y.part && decide (x.1 = k) && decide ((y.part, y.handle, i) ≠ (m.part, m.handle, j))
        && (s.fab.plans.all fun b => decide ((b.part, b.handle, b.plan) ≠ (y.part, y.handle, i)))
        && (free.fitModel y i k (demandOf (s.section y 2) i)).isSome && mine.all fun o => earlierWork (place x) o
    | none => false

/-- PLAN_BIND (11 R242, R243): a Spar plan of an image is bound to a Spar whose units suffice; otherwise it
waits. A plan bound to another Spar moves only while no walk runs on it. -/
def execPlanBind (p : BitVec 7) (handle : BitVec 16) (plan : BitVec 2) (spar : BitVec 2) (s : State) :
    Outcome State Fault Refusal :=
  .next (match s.model p.toNat handle.toNat with
    | none => s
    | some m =>
      let j := plan.toNat
      let c := s.section m 2
      let mine := s.fab.plans.find? fun b => decide (b.part = m.part) && decide (b.handle = m.handle) && decide (b.plan = j)
      let move := match mine with
        | some b => decide (b.spar ≠ spar.toNat) && s.planIdle b
        | none => true
      if m.st = .loading ∨ planCount c ≤ j ∨ move = false ∨ s.bindAhead m j spar.toNat = true then s
      else
        let s1 := { s with fab := { s.fab with plans := s.fab.plans.filter fun b => decide (some b ≠ mine) } }
        let r := s1.tryBind m j spar.toNat (demandOf c j) (s1.displaceable m.part)
        if r.2 then r.1 else s)

/-! ### WALK_START (12 R261, R277, Table 12.5; 13 R289; 14 R332) -/

/-- A request's sequence shard of a layer. -/
def State.layerShard (s : State) (m : Model) (tag : BitVec 64) (layer : Nat) : Option Shard :=
  match (m.shards.zipIdx.find? fun e => decide (e.1.layer = layer)) with
  | some e => s.paging.shards.find? fun h => decide (h.part = m.part) && decide (h.tag = tag) && decide (h.idx = e.2)
  | none => none

/-- b0 to b3 (Table 12.5). A prefill walk takes its Spar plan's share of the chunk's rows, shares differing by
at most one. -/
def State.stepRegs (s : State) (m : Model) (r : Req) (tags : List (BitVec 64)) (plan plans layer : Nat) : List Word :=
  let h := s.layerShard m r.tag layer
  let len := match h with
    | some x => x.len
    | none => 0
  let rows := (chunkOf r).2
  let n := max 1 plans
  let b0 := if r.inDecode then tags.length else rows / n + (if plan < rows % n then 1 else 0)
  let b3 := if r.inDecode then tags.length else 0
  [b0, len, (len + 255) / 256, b3].map (BitVec.ofNat 32)

/-- The pointer-list entry of a sequence in op_pt: its page-table block, and its pages after the step's
append (13 R289). -/
def State.ptEntry (s : State) (m : Model) (tag : BitVec 64) (layer n : Nat) : Nat :=
  match s.layerShard m tag layer with
  | some h => h.pt + ((h.len + n + 255) / 256) % 4096
  | none => 0

/-- The pointer lists of page-table blocks that the K48 writes before a walk starts, where the partition's data may lie (00 R19); a
list elsewhere is BAD_ADDR when its macro issues. -/
def State.writeLists (s : State) (m : Model) (macs : List Mac) (tags : List (BitVec 64)) (layer n : Nat) : State :=
  (macs.filter fun x => decide (x.op = 3) && (x.operand 0x38).plist).foldl (fun t x =>
    tags.zipIdx.foldl (fun u e =>
      let a := (x.operand 0x38).base + 8 * e.2
      if u.owns m.part (a, 8) then u.wrNat a 8 (u.ptEntry m e.1 layer n) else u) t) s

/-- The parameter record of a request (14 R332): seed, j, K, top_p, c and greedy. -/
def paramRecord (r : Req) : List Byte :=
  let t := f32 r.d.temperature.toNat
  let greedy := match t with
    | .fin neg m e => neg || decide (m = 0) || decide (m < 2 ^ 23 ∧ e = fmt32.low)
    | _ => true
  let k := if r.d.topK = 0 ∨ 1024 < r.d.topK then 1024 else r.d.topK
  let c := if greedy then 0x3F800000 else toF32 ((f32 f32Log2e).toDy.quotient t.toDy)
  leBytes r.d.seed.toNat 8 ++ leBytes (r.j + 1) 4 ++ leBytes k 4 ++ leBytes r.d.topP.toNat 4 ++ leBytes c 4
    ++ leBytes (if greedy then 1 else 0) 4 ++ leBytes 0 4

/-- Where row `i` of an operand whose rows are records of `n` bytes lies. -/
def Operand.row (o : Operand) (i n : Nat) : Nat := o.base + i * (if o.ld = 0 then n else o.ld)

/-- The parameter records that the K48 writes into op_aux of the softmax and sampling macros of a decode
walk before it starts. -/
def State.writeParams (s : State) (p : Nat) (macs : List Mac) (tags : List (BitVec 64)) : State :=
  (macs.filter fun x => decide (x.op = 4) && decide (2 ≤ x.ckind) && decide (x.ckind ≤ 5)
    && decide ((x.operand 0x50).base ≠ 0)).foldl (fun t x =>
      tags.zipIdx.foldl (fun u e => match u.req p e.1 with
        | some r => u.wr ((x.operand 0x50).row e.2 32) (paramRecord r)
        | none => u) t) s

/-- The lowest walk number that a Boom has free. -/
def State.freeWalk (s : State) (k : Nat) : Option Nat :=
  let used : List Nat := (s.fab.walks.filter fun w => decide (w.spar = k)).map fun w => w.id
  (List.range 64).find? fun i => decide (i ∉ used)

/-- A macro word with its lane addresses in place (22 R547). -/
def laneMac (lane : Option Nat) (m : Mac) : Mac :=
  (macAddrs m.op).foldl (fun x off => setField64 x off (relocLane lane (x.u64 off))) m

/-- Macro `i` of a walk. -/
def State.macAt (s : State) (w : Walk) (i : Nat) : Mac :=
  laneMac w.lane (BitVec.ofNat 1024 (s.rdNat (w.list + 128 * i) 128))

/-- The chunk of a prefill is the last: its walks compute the logits of the first answer token (02 R28), and draw it under the
parameter record (DEDUCED: R332 names decode walks). -/
def State.lastChunk (s : State) (r : Req) : Bool :=
  decide (r.phase = .prefill) && decide ((s.promptPages r.d).1 ≤ (chunkOf r).1 / 256 + 16)

/-- A walk of a request's step started on a Spar to which its plan is bound. -/
def State.startWalk (s : State) (k : Nat) (m : Model) (r : Req) (tags : List (BitVec 64)) (index step : Nat) (e : WalkEntry)
    (id plans : Nat) : State :=
  let s1 := if r.phase = .prefill then s.takeLane r.part r.tag else s
  let w : Walk := { spar := k, id := id, part := r.part, tags := tags, handle := m.handle, plan := e.plan, layer := e.layer
                    decode := r.inDecode, index := index, step := step
                    list := dpaOf m.sections 3 + e.offset, count := e.count
                    regs := s1.stepRegs m r tags e.plan plans e.layer ++ e.regs
                    lane := if r.phase = .prefill then s1.laneBase m r.tag else none }
  match s1.poisoned w.list (128 * w.count) with
  | some a => s1.walkUe w a
  | none =>
    let macs := (List.range w.count).map (s1.macAt w)
    let n := if r.inDecode then 1 else (chunkOf r).2
    let s2 := s1.writeLists m macs tags e.layer n
    let s3 := if r.inDecode ∨ s2.lastChunk r = true then s2.writeParams r.part macs tags else s2
    let s4 := { s3 with fab := { s3.fab with walks := s3.fab.walks ++ [w] } }
    s4.useWalk [⟨utBoom, k, 0⟩] w

/-- A walk that waits could start on its Boom: there is room, and its plan is bound there. -/
def State.startable (s : State) (x : Nat × Nat × List (BitVec 64) × Nat × Nat) : Bool :=
  decide (s.freeWalk x.1 ≠ none) && match s.waitingPlan x with
    | some (m, i) => s.fab.plans.any fun b => decide (b.part = m.part) && decide (b.handle = m.handle) && decide (b.plan = i) && decide (b.spar = x.1)
    | none => true

/-- A walk that waits on the Boom and could start stands before some work in the order of R140 (R277). -/
def State.walkAhead (s : State) (k p : Nat) (tags : List (BitVec 64)) : Bool :=
  s.fab.waiting.any fun x => decide (x.1 = k) && s.startable x && earlierWork (s.workOrder x.2.1 x.2.2.1) (s.workOrder p tags)

/-- A walk of a request's step: started, or put behind the 64 walks of the Boom or a plan that is not bound. -/
def State.beginWalk (s : State) (k : Nat) (m : Model) (r : Req) (tags : List (BitVec 64)) (index : Nat) : State :=
  match (walkTable (s.section m 3))[index]?, stepIndex (s.steps m) 0 index r.inDecode r.d.orderFree with
  | some e, some (i, st) =>
    let again := s.fab.walks.any (fun w => decide (w.part = r.part) && decide (w.step = i) && tags.any fun t => decide (t ∈ w.tags))
      || s.fab.doneSteps.any (fun x => decide (x.1 = r.part) && decide (x.2.1 ∈ tags) && decide (x.2.2 = i))
    let fits := decide (e.phase = if r.inDecode then 1 else 0)
      && (decide (e.mode = 0) || decide (e.mode = if r.d.orderFree then 2 else 1))
    if again ∨ fits = false ∨ s.predsDone r.part tags st = false then s
    else
      let bound := s.fab.plans.any fun b => decide (b.part = m.part) && decide (b.handle = m.handle)
        && decide (b.plan = e.plan) && decide (b.spar = k)
      match s.freeWalk k with
      | some id =>
        if bound ∧ s.walkAhead k r.part tags = false then s.startWalk k m r tags index i e id (planCount (s.section m 2))
        else if (k, r.part, tags, m.handle, index) ∈ s.fab.waiting then s
        else { s with fab := { s.fab with waiting := s.fab.waiting ++ [(k, r.part, tags, m.handle, index)] } }
      | none =>
        if (k, r.part, tags, m.handle, index) ∈ s.fab.waiting then s
        else { s with fab := { s.fab with waiting := s.fab.waiting ++ [(k, r.part, tags, m.handle, index)] } }
  | _, _ => s

/-- The request whose step a walk serves, when the tags are those of the step. -/
def State.walkReq (s : State) (p : Nat) (tags : List (BitVec 64)) (handle : Nat) : Option Req :=
  match tags with
  | [] => none
  | t :: _ =>
    match s.req p t with
    | some r => if r.working ∧ r.d.model = handle ∧ s.stepTags r = tags then some r else none
    | none => none

/-- WALK_START (12 R261, R277): a walk of a step starts on a Spar. -/
def execWalkStart (spar : BitVec 2) (p : BitVec 7) (tags : List (BitVec 64)) (handle : BitVec 16) (walk : Nat)
    (s : State) : Outcome State Fault Refusal :=
  .next (match s.walkReq p.toNat tags handle.toNat, s.model p.toNat handle.toNat with
    | some r, some m => if s.inService ⟨utBoom, spar.toNat, 0⟩ ∧ s.roundTurn r = true then s.beginWalk spar.toNat m r tags walk else s
    | _, _ => s)

/-- The walks that wait start in the order of R140, when a Boom has room and their plan is bound (12 R277, 11 R243). -/
def State.startWalks (s : State) : Nat → State
  | 0 => s
  | fuel + 1 =>
    let l := s.fab.waiting.filter s.startable
    match l.find? fun x => l.all fun y => !(decide (y.1 = x.1) && earlierWork (s.workOrder y.2.1 y.2.2.1) (s.workOrder x.2.1 x.2.2.1)) with
    | none => s
    | some x =>
      let s1 := { s with fab := { s.fab with waiting := s.fab.waiting.filter fun y => decide (y ≠ x) } }
      match s1.walkReq x.2.1 x.2.2.1 x.2.2.2.1, s1.model x.2.1 x.2.2.2.1 with
      | some r, some m => (s1.beginWalk x.1 m r x.2.2.1 x.2.2.2.2).startWalks fuel
      | _, _ => s1.startWalks fuel

end Sys2Proof.Machine
end

