-- ==== Sys2Proof/Machine/Clew.lean ====
section
/-! DEFINITION. The Clews (14): conversions, micro-programs, fused epilogues, and the kinds of the CLEW
macro: MAP, the three softmax passes, SAMPLE and the three normalization passes. -/

namespace Sys2Proof.Machine

/-! ### Formats (R317, R325; 12 Table 12.2) -/

/-- The floating-point format of a code; FP32 for the integer codes. -/
def fmtOf (code : Nat) : Fmt :=
  if code = 0 then fmtE4 else if code = 1 then fmtE5 else if code = 3 then fmtBf else if code = 4 then fmt16 else fmt32

/-- A two's-complement integer of `n` bits. -/
def signed (v n : Nat) : Int := if v < 2 ^ (n - 1) then (v : Int) else (v : Int) - 2 ^ n

/-- The exact value of an element in a format. -/
def elemFp (code v : Nat) : Fp :=
  if code = 2 then (Dy.ofInt (signed v 8)).toFp else if code = 6 then (Dy.ofInt (signed v 32)).toFp
  else (fmtOf code).decode v

/-- An element converted to an FP32 word: exact but for INT32, which rounds (R317). -/
def elemF32 (code v : Nat) : Nat := if code = 5 then v else toF32 (elemFp code v)

/-- The bits of an FP32 word in an output format, and whether it saturated (R325). -/
def convertOut (code : Nat) (sat : Bool) (w : Nat) : Nat × Bool :=
  if code = 2 ∨ code = 6 then (Config.intOut code w % 2 ^ (8 * fmtBytes code), false)
  else if code = 5 then (w, false)
  else
    let f := fmtOf code
    if sat then f.encodeSat (f32 w)
    else if code = 0 then
      match f32 w with
      | .nan => (0x7F, false)
      | .inf _ => (0x7F, false)
      | .fin neg m e => match f.roundMag m e with
        | some b => (f.signBit neg + b, false)
        | none => (0x7F, false)
    else (f.encode (f32 w), false)

/-! ### Micro-programs (R323) -/

/-- The registers of a program: r0 to r15. -/
abbrev ProgRegs := List Nat

/-- The counts of a run gathered. -/
def FnOut.plus (o x : FnOut) : FnOut := { w := x.w, nan := o.nan + x.nan, sat := o.sat + x.sat }

/-- One step's result. -/
def stepOut (lvl0 sat : Bool) (c : ClewInfo) (x : Nat) (rs : ProgRegs) : FnOut :=
  let op := stepField x 31 26
  let a := rs.getD (stepField x 21 18) 0
  let b := rs.getD (stepField x 17 14) 0
  let d := rs.getD (stepField x 13 10) 0
  let imm := stepField x 9 0
  if op = 1 then binOp sat (Fp.add fmt32) a b
  else if op = 2 then binOp sat (Fp.sub fmt32) a b
  else if op = 3 then binOp sat (Fp.mul fmt32) a b
  else if op = 4 then
    let (o1, x1) := argFp sat ⟨0, 0, 0⟩ a
    let (o2, x2) := argFp sat o1 b
    let (o3, x3) := argFp sat o2 d
    match x1, x2, x3 with
    | some p, some q, some r => finishFp sat o3 (fmaFp p q r)
    | _, _, _ => o3
  else if op = 5 then binOp sat Fp.max a b
  else if op = 6 then binOp sat (fun p q => if q.lt p then q else p) a b
  else if op = 7 then evalFn lvl0 sat imm a
  else if op = 8 then ⟨c.consts.getD imm 0, 0, 0⟩
  else if op = 9 then ⟨if (f32 0).lt (f32 a) then b else d, 0, 0⟩
  else if op = 10 then ⟨a % 0x80000000, 0, 0⟩
  else ⟨if a < 0x80000000 then a + 0x80000000 else a - 0x80000000, 0, 0⟩

/-- A program run from its steps. -/
def runSteps (lvl0 sat : Bool) (c : ClewInfo) : List Nat → ProgRegs → FnOut → FnOut
  | [], rs, o => { o with w := rs.getD 0 0 }
  | x :: rest, rs, o =>
    if stepField x 31 26 = 0 then { o with w := rs.getD 0 0 }
    else
      let y := stepOut lvl0 sat c x rs
      runSteps lvl0 sat c rest (rs.set (stepField x 25 22) y.w) (o.plus y)

/-- A function code, or the call of program code − 0x80, on one element. -/
def callFn (lvl0 sat : Bool) (c : ClewInfo) (f w : Nat) : FnOut :=
  if f < 0x80 then evalFn lvl0 sat f w
  else runSteps lvl0 sat c (programOf c (f - 0x80)) (w :: List.replicate 15 0) ⟨w, 0, 0⟩

/-! ### Fused epilogues (R325) -/

abbrev EpiRec := BitVec 256

def EpiRec.act (r : EpiRec) : Nat := dfield r 0 0 8
def EpiRec.sat (r : EpiRec) : Bool := decide (dfield r 1 7 1 = 1)
def EpiRec.biasFp32 (r : EpiRec) : Bool := decide (dfield r 1 6 1 = 1)
def EpiRec.post (r : EpiRec) : Nat := dfield r 1 4 2
def EpiRec.bias (r : EpiRec) : Bool := decide (dfield r 1 3 1 = 1)
def EpiRec.scaleMode (r : EpiRec) : Nat := dfield r 1 1 2
def EpiRec.scale (r : EpiRec) : Nat := dfield r 4 0 32
def EpiRec.scaleVec (r : EpiRec) : Nat := dfield r 0x08 0 64
def EpiRec.biasVec (r : EpiRec) : Nat := dfield r 0x10 0 64
def EpiRec.postOp (r : EpiRec) : Nat := dfield r 0x18 0 64

/-- A record with its addresses relocated (22 R547). -/
def EpiRec.placed (r : EpiRec) (secs : List Section) (lane : Option Nat) : EpiRec :=
  [0x08, 0x10, 0x18].foldl (fun x o => setField64 x o (relocLane lane (relocImage secs (dfield x o 0 64)))) r

/-- Bytes that an epilogue reads for outputs of M × N. -/
def EpiRec.reads (r : EpiRec) (m n ldC fmtC : Nat) : List (Nat × Nat) :=
  (if r.scaleMode = 2 then [(r.scaleVec, 4 * n)] else [])
    ++ (if r.bias then [(r.biasVec, (if r.biasFp32 then 4 else 2) * n)] else [])
    ++ (if r.post ≠ 0 then [matrixRange r.postOp ldC m (n * fmtBytes fmtC)] else [])

/-- The partials of an output combined in ascending split index, one rounding for each addition. -/
def combineParts : List Nat → Nat
  | [] => 0
  | x :: rest => rest.foldl addW x

/-- The epilogue on one output: its bits in fmt_c, and what was counted. -/
def State.epilogue (s : State) (lvl0 : Bool) (c : ClewInfo) (r : EpiRec) (fmtC ldC row col : Nat) (parts : List Nat) :
    FnOut :=
  let a := combineParts parts
  let b := if r.scaleMode = 0 then a else mulW a (if r.scaleMode = 1 then r.scale else s.rdNat (r.scaleVec + 4 * col) 4)
  let d := if r.bias then
      addW b (if r.biasFp32 then s.rdNat (r.biasVec + 4 * col) 4 else elemF32 3 (s.rdNat (r.biasVec + 2 * col) 2))
    else b
  let e := if r.act = 0xFF then (⟨d, 0, 0⟩ : FnOut) else callFn lvl0 r.sat c r.act d
  let p := elemF32 fmtC (s.rdNat (r.postOp + row * ldC + col * fmtBytes fmtC) (fmtBytes fmtC))
  let f := if r.post = 0 then e.w else if r.post = 1 then addW e.w p else mulW e.w p
  let o := convertOut fmtC r.sat f
  { e with w := o.1, sat := if o.2 then e.sat + 1 else e.sat }

/-- The counts of a Clew brought up to date. -/
def State.countClew (s : State) (i n : Nat) (o : FnOut) : State :=
  ((s.addCnt (Key.clwElemCnt i) n).addCnt (Key.clwNanCnt i) o.nan).addCnt (Key.clwSatCnt i) o.sat

/-! ### The CLEW macro (R326, R327) -/

/-- Conduct level 0 is in force (R322). -/
def State.level0 (s : State) : Bool := s.bit Key.devConduct 31 && decide (s.fld Key.devConduct 7 0 = 0)

/-- The rows of a CLEW macro. -/
def clewRows (w : Walk) (m : Mac) : Nat :=
  if m.crsrc = 0 then m.u32 0xC else if m.crsrc = 1 then (w.regs.getD 0 0).toNat else (w.regs.getD 3 0).toNat

/-- First byte of row `r` of an operand of rows or of records of `n` bytes. -/
def rowOf (o : Operand) (l : List Nat) (r n : Nat) : Nat := o.at_ l 0 + r * (if o.ld = 0 then n else o.ld)

/-- Bytes in a row of op_x, op_y, op_aux and op_stats, by kind. -/
def clewRowBytes (m : Mac) : Nat × Nat × Nat × Nat :=
  let x := m.cols * fmtBytes m.fmtIn
  let y := m.cols * fmtBytes m.fmtOut
  let k := m.ckind
  if k = 1 then (x, y, 0, 0) else if k = 2 then (x, 0, 32, 8) else if k = 3 then (x, 8192, 32, 16)
  else if k = 4 then (x, y, 32, 16) else if k = 5 then (8 * m.cols, 4, 32, 16)
  else if k = 6 then (x, 0, 0, 4) else if k = 7 then (x, 0, 0, 56) else (x, y, 0, 56)

/-- A CLEW macro at issue: its rows, its ranges and its units. -/
def State.resolveClew (s : State) (b : BoundPlan) (w : Walk) (m : Mac) : Resolved :=
  let rows := clewRows w m
  let ox := m.operand 0x20
  let oy := m.operand 0x38
  let oa := m.operand 0x50
  let os := m.operand 0x68
  let lists := [ox, oy, oa, os].map fun o => s.readList o 1
  let (bx, by_, ba, bs) := clewRowBytes m
  let k := m.ckind
  let at4 := fun (o : Operand) (i n rec : Nat) =>
    if n = 0 then [] else [matrixRange (o.at_ (lists.getD i []) 0) (if o.ld = 0 then rec else o.ld) rows n]
  let rx := at4 ox 0 bx bx
  let ry := at4 oy 1 by_ by_
  let ra := if 2 ≤ k ∧ k ≤ 5 then (if oa.base = 0 then [] else at4 oa 2 ba 32)
    else if k = 8 then [(oa.at_ (lists.getD 2 []) 0, (if m.rms then 4 else 8) * m.cols)] else []
  let rs := at4 os 3 bs 64
  let short := decide (1 < rows) && ((decide (k ≠ 5) && decide (ox.ld < bx)) || ((decide (k = 1) || decide (k = 4) || decide (k = 8)) && decide (oy.ld < by_)))
  let bad := decide (65536 < rows) || short
  let ok := s.allowed b ox rx && s.allowed b oy ry && s.allowed b oa ra && s.allowed b os rs
    && ([ox, oy, oa, os].all fun o => s.allowed b { o with sram := false } (listWords o 1))
  if rows = 0 then { idle := true, bounds := [0] }
  else
    { err := if bad then 1 else if ok then 0 else 2
      bounds := [rows], lists := lists
      reads := rx ++ ra ++ (if k = 2 ∨ k = 6 then [] else rs) ++ [ox, oy, oa, os].flatMap fun o => listWords o 1
      writes := ry ++ (if k = 2 ∨ k = 3 ∨ k = 6 ∨ k = 7 then rs else [])
      units := (b.clews.zipIdx.filter fun e => m.clewMask.testBit e.2).map fun e => ⟨utClew, e.1, 0⟩ }

/-- The FP32 words of a row of op_x. -/
def State.clewRow (s : State) (m : Mac) (lists : List (List Nat)) (r : Nat) : List Nat :=
  let a := rowOf (m.operand 0x20) (lists.getD 0 []) r (m.cols * fmtBytes m.fmtIn)
  (List.range m.cols).map fun i => elemF32 m.fmtIn (s.rdNat (a + i * fmtBytes m.fmtIn) (fmtBytes m.fmtIn))

/-- Where the records and outputs of a row lie. -/
def statsAt (m : Mac) (lists : List (List Nat)) (r : Nat) : Nat := rowOf (m.operand 0x68) (lists.getD 3 []) r 64
def paramAt (m : Mac) (lists : List (List Nat)) (r : Nat) : Nat := rowOf (m.operand 0x50) (lists.getD 2 []) r 32
def outAt (m : Mac) (lists : List (List Nat)) (r n : Nat) : Nat := rowOf (m.operand 0x38) (lists.getD 1 []) r n

/-- A row of outputs written in fmt_out. -/
def State.writeRowOut (s : State) (m : Mac) (lists : List (List Nat)) (r : Nat) (l : List Nat) : State × Nat :=
  let n := fmtBytes m.fmtOut
  let cs := l.map (convertOut m.fmtOut m.csat)
  (s.wr (outAt m lists r (m.cols * n)) (cs.flatMap fun c => leBytes c.1 n), (cs.filter fun c => c.2).length)

/-! ### Softmax (R328 to R330) -/

/-- c of a row: from its parameter record, or param. -/
def State.smaxC (s : State) (m : Mac) (lists : List (List Nat)) (r : Nat) : Nat :=
  if (m.operand 0x50).base = 0 then m.u32 0x14 else s.rdNat (paramAt m lists r + 0x14) 4

/-- u_i of each element, a NaN counting as −infinity; and the number of NaNs. -/
def smaxU (xs : List Nat) (c : Nat) : List Fp × Nat :=
  let us := xs.map fun x => Fp.mul fmt32 (f32 x) (f32 c)
  (us.map fun u => if u.isNan then .inf true else u, (us.filter Fp.isNan).length)

def negInf : Fp := .inf true

/-- P of each u_i for a maximum M (R329). -/
def smaxP (us : List Fp) (mx : Fp) (none_ : Bool) : List Nat :=
  us.map fun u =>
    if none_ ∨ mx = negInf then 0
    else if mx = .inf false then (if u = .inf false then 2 ^ 32 else 0)
    else match u with
      | .fin _ _ _ => pOf (Fp.sub fmt32 mx u)
      | _ => 0

/-- Candidates in descending P, ties to the lower token ID. -/
def insertP (x : Nat × Nat) : List (Nat × Nat) → List (Nat × Nat)
  | [] => [x]
  | y :: rest => if y.1 < x.1 ∨ (y.1 = x.1 ∧ x.2 < y.2) then x :: y :: rest else y :: insertP x rest
def sortPs (l : List (Nat × Nat)) : List (Nat × Nat) := l.foldl (fun a x => insertP x a) []

/-- A candidate entry: P in [50:18], token in [17:0]. -/
def candEntry (c : Nat × Nat) : Nat := c.1 % 2 ^ 33 * 2 ^ 18 + c.2 % 2 ^ 18

def State.smaxMaxRow (s : State) (m : Mac) (lists : List (List Nat)) (r : Nat) : State × FnOut :=
  let u := smaxU (s.clewRow m lists r) (s.smaxC m lists r)
  let mx := u.1.foldl Fp.max negInf
  let none_ := u.1.all fun x => decide (x = negInf)
  ((s.wrNat (statsAt m lists r) 4 (toF32 mx)).wrNat (statsAt m lists r + 4) 4 (if none_ then 1 else 0), ⟨0, u.2, 0⟩)

def State.smaxMax (s : State) (m : Mac) (lists : List (List Nat)) (r : Nat) : Fp × Bool :=
  (f32 (s.rdNat (statsAt m lists r) 4), decide (s.rdNat (statsAt m lists r + 4) 4 % 2 = 1))

def State.smaxSumRow (s : State) (m : Mac) (lists : List (List Nat)) (r : Nat) : State × FnOut :=
  let u := smaxU (s.clewRow m lists r) (s.smaxC m lists r)
  let mx := s.smaxMax m lists r
  let ps := smaxP u.1 mx.1 mx.2
  let cands := (sortPs ((ps.zipIdx.filter fun e => decide (0 < e.1)).map fun e => (e.1, m.u32 0x1C + e.2))).take 1024
  let s1 := s.wrNat (statsAt m lists r + 8) 8 ps.sum
  let entries := cands.map candEntry ++ List.replicate (1024 - cands.length) 0
  (s1.wr (outAt m lists r 8192) (entries.flatMap fun e => leBytes e 8), ⟨0, 0, 0⟩)

/-- p_i of SMAX_OUT in fmt_out: the quotient correctly rounded (R330). -/
def probOut (code : Nat) (sat : Bool) (p z : Nat) : Nat :=
  if z = 0 ∨ p = 0 then 0
  else
    let q := (Dy.ofNat p).quotient (Dy.ofNat z)
    if code = 2 ∨ code = 6 then (convertOut code sat (toF32 q)).1 else (fmtOf code).encode q

def State.smaxOutRow (s : State) (m : Mac) (lists : List (List Nat)) (r : Nat) : State × FnOut :=
  let u := smaxU (s.clewRow m lists r) (s.smaxC m lists r)
  let mx := s.smaxMax m lists r
  let z := s.rdNat (statsAt m lists r + 8) 8
  let n := fmtBytes m.fmtOut
  (s.wr (outAt m lists r (m.cols * n)) ((smaxP u.1 mx.1 mx.2).flatMap fun p => leBytes (probOut m.fmtOut m.csat p z) n), ⟨0, 0, 0⟩)

/-! ### The sampler (R333) -/

/-- The shortest prefix whose P sum to at least `t`, or all. -/
def nucleus (t : Nat) : List (Nat × Nat) → Nat → List (Nat × Nat)
  | [], _ => []
  | x :: rest, acc => if t ≤ acc + x.1 then [x] else x :: nucleus t rest (acc + x.1)

/-- The first candidate whose prefix sum exceeds `v`. -/
def drawFrom (v : Nat) : List (Nat × Nat) → Nat → Option Nat
  | [], _ => none
  | x :: rest, acc => if v < acc + x.1 then some x.2 else drawFrom v rest (acc + x.1)

/-- The token that a row's parameters draw from merged candidates. -/
def sampleToken (seed : Nat) (j k topP : Nat) (greedy : Bool) (z : Nat) (entries : List Nat) : Option Nat :=
  let cand := sortPs ((entries.map fun e => (bitsOf e 50 18, bitsOf e 17 0)).filter fun c => decide (0 < c.1))
  match cand with
  | [] => none
  | top :: _ =>
    if greedy then some top.2
    else
      let c1 := cand.take (min k cand.length)
      let c2 := match f32 topP with
        | .nan => c1
        | .inf neg => if neg then c1.take 1 else c1
        | x =>
          if x.toDy.le Dy.zero then c1.take 1
          else if x.toDy.lt (Dy.ofNat 1) then nucleus (-((x.toDy.mul (Dy.ofNat z)).neg.floor)).toNat c1 0
          else c1
      let zk := (c2.map fun c => c.1).sum
      let h := leNat ((sha384 (leBytes seed 8 ++ leBytes j 4)).take 8)
      drawFrom (h * zk / 2 ^ 64) c2 0

def State.sampleRow (s : State) (m : Mac) (lists : List (List Nat)) (r : Nat) : Option Nat :=
  let a := paramAt m lists r
  let x := rowOf (m.operand 0x20) (lists.getD 0 []) r (8 * m.cols)
  sampleToken (s.rdNat a 8) (s.rdNat (a + 8) 4) (s.rdNat (a + 0xC) 4) (s.rdNat (a + 0x10) 4) (decide (s.rdNat (a + 0x18) 4 % 2 = 1))
    (s.rdNat (statsAt m lists r + 8) 8) ((List.range m.cols).map fun i => s.rdNat (x + 8 * i) 8)

/-! ### Normalization (R334) -/

/-- floor(log2 |x|) of a nonzero finite value. -/
def floorLog2 (x : Fp) : Int :=
  match x with
  | .fin _ m e => e + bitLen m - 1
  | _ => 0

def State.normMaxRow (s : State) (m : Mac) (lists : List (List Nat)) (r : Nat) : State × FnOut :=
  let xs := (s.clewRow m lists r).map f32
  let es := (xs.filter fun x => x.isFin && !x.isZero).map floorLog2
  let e := es.foldl max (-150)
  let bad := xs.any fun x => !x.isFin
  ((s.wrNat (statsAt m lists r) 2 (e % 65536).toNat).wrNat (statsAt m lists r + 2) 2 (if bad then 1 else 0), ⟨0, 0, 0⟩)

/-- E and bad of a row's record. -/
def State.normE (s : State) (m : Mac) (lists : List (List Nat)) (r : Nat) : Int × Bool :=
  (signed (s.rdNat (statsAt m lists r) 2) 16, decide (s.rdNat (statsAt m lists r + 2) 2 % 2 = 1))

def State.normSumRow (s : State) (m : Mac) (lists : List (List Nat)) (r : Nat) : State × FnOut :=
  let e := (s.normE m lists r).1
  let ds := ((s.clewRow m lists r).map f32).map fun x => x.toDy
  let s1 := (ds.map fun x => (x.shift (62 - e)).rne).sum
  let s2 := (ds.map fun x => ((x.mul x).shift (124 - 2 * e)).rne).sum
  ((s.wrNat (statsAt m lists r + 8) 24 (s1 % 2 ^ 192).toNat).wrNat (statsAt m lists r + 0x20) 24 (s2 % 2 ^ 192).toNat, ⟨0, 0, 0⟩)

/-- A rational num / (den · 2^k) rounded to an FP32 word. -/
def ratioW (num : Int) (den : Nat) (k : Int) : Nat :=
  if num = 0 then 0 else toF32 ((Dy.mk num (-k)).quotient (Dy.ofNat den))

def State.normOutRow (s : State) (lvl0 : Bool) (m : Mac) (lists : List (List Nat)) (r : Nat) : State × FnOut :=
  let (e, bad) := s.normE m lists r
  let s1 := signed (s.rdNat (statsAt m lists r + 8) 24) 192
  let s2 := (s.rdNat (statsAt m lists r + 0x20) 24 : Int)
  let n := m.u32 0x14
  let mu := if m.rms then 0 else ratioW s1 n (62 - e)
  let var := if m.rms then ratioW s2 n (124 - 2 * e) else ratioW (max 0 (n * s2 - s1 * s1)) (n * n) (124 - 2 * e)
  let rs := evalFn lvl0 m.csat 0x04 (addW var (m.u32 0x18))
  let aux := (m.operand 0x50).at_ (lists.getD 2 []) 0
  let ys := (s.clewRow m lists r).zipIdx.map fun x =>
    if bad then (if m.csat then 0 else f32Nan)
    else
      let g := mulW (mulW (subW x.1 mu) rs.w) (s.rdNat (aux + 4 * x.2) 4)
      if m.rms then g else addW g (s.rdNat (aux + 4 * m.cols + 4 * x.2) 4)
  let o := s.writeRowOut m lists r ys
  (o.1, if bad then ⟨0, 0, o.2⟩ else ⟨0, rs.nan, rs.sat + o.2⟩)

/-- MAP on a row. -/
def State.mapRow (s : State) (lvl0 : Bool) (c : ClewInfo) (m : Mac) (lists : List (List Nat)) (r : Nat) : State × FnOut :=
  let os := (s.clewRow m lists r).map (callFn lvl0 m.csat c m.func)
  let o := s.writeRowOut m lists r (os.map fun x => x.w)
  (o.1, ⟨0, (os.map fun x => x.nan).sum, (os.map fun x => x.sat).sum + o.2⟩)

/-- One row of a CLEW macro but SAMPLE. -/
def State.clewKind (s : State) (c : ClewInfo) (m : Mac) (lists : List (List Nat)) (r : Nat) : State × FnOut :=
  let k := m.ckind
  if k = 1 then s.mapRow s.level0 c m lists r else if k = 2 then s.smaxMaxRow m lists r
  else if k = 3 then s.smaxSumRow m lists r else if k = 4 then s.smaxOutRow m lists r
  else if k = 6 then s.normMaxRow m lists r else if k = 7 then s.normSumRow m lists r
  else s.normOutRow s.level0 m lists r

/-- The row of a request in its final pass, which computes no logits (02 R29). -/
def State.finalRow (s : State) (w : Walk) (r : Nat) : Bool :=
  match (w.tags[r]?).bind fun g => s.req w.part g with
  | some x => decide (x.phase = .final)
  | none => false

/-- A SAMPLE row draws the next answer token of its sequence (R333). -/
def State.draw (s : State) (w : Walk) (r tok : Nat) : State :=
  match (w.tags[r]?).bind fun g => s.req w.part g with
  | some x => if x.active ∧ x.phase ≠ .final then s.setReq { x with drawn := some (BitVec.ofNat 32 tok) } else s
  | none => s

/-- A CLEW macro performed: row r goes to the (r mod c)-th Clew of the mask (R317). A SAMPLE row with no
candidate ends its request with FAULT_UNIT 0x17 (R343). -/
def State.performClew (s : State) (b : BoundPlan) (w : Walk) (x : MacroSt) : State :=
  let m : Mac := x.word
  let rows := x.bounds.getD 0 0
  let clews := (b.clews.zipIdx.filter fun e => m.clewMask.testBit e.2).map fun e => e.1
  (List.range rows).foldl (fun t r =>
    let i := clews.getD (r % max 1 clews.length) 0
    if m.ckind = 5 ∧ t.finalRow w r = true then t
    else if m.ckind = 5 then
      match t.sampleRow m x.lists r with
      | some tok => ((((t.wrNat (outAt m x.lists r 4) 4 tok).inc (Key.clwSampleCnt i)).countClew i m.cols ⟨0, 0, 0⟩).draw w r tok)
      | none => match w.tags[r]? with
        | some g => t.failTag w.part g stFaultUnit 0x17
        | none => t
    else
      let o := t.clewKind (Config.clew (SMap.get (fun _ => []) t.fab.stores i)) m x.lists r
      o.1.countClew i m.cols o.2) s

end Sys2Proof.Machine
end

