-- ==== Sys2Proof/Machine/Yards.lean ====
section
/-! DEFINITION. The Yards (11 R244 to R250) and what GEMM and COPY macros do (12 R264 to R272). -/

namespace Sys2Proof.Machine

/-! ### Accumulation (R246, R247) -/

/-- An exact product: a NaN for a NaN operand and for infinity times zero. -/
def exactMul (x y : Fp) : Fp :=
  match x, y with
  | .nan, _ => .nan
  | _, .nan => .nan
  | .inf a, .inf b => .inf (a != b)
  | .inf a, .fin b m _ => if m = 0 then .nan else .inf (a != b)
  | .fin a m _, .inf b => if m = 0 then .nan else .inf (a != b)
  | .fin a ma ea, .fin b mb eb => .fin (a != b) (ma * mb) (ea + eb)

/-- Values summed exactly; opposite infinities give a NaN. -/
def exactSum (l : List Fp) : Fp :=
  if l.any Fp.isNan ∨ (l.any (fun x => decide (x = .inf false)) ∧ l.any (fun x => decide (x = .inf true))) then .nan
  else if l.any (fun x => decide (x = .inf false)) then .inf false
  else if l.any (fun x => decide (x = .inf true)) then .inf true
  else
    let d := l.foldl (fun a x => a.add x.toDy) Dy.zero
    if d.m = 0 then .fin false 0 0 else d.toFp

/-- A chunk added to an accumulator word: summed exactly, rounded once. -/
def chunkAdd (acc : Nat) (l : List (Fp × Fp)) : Nat :=
  toF32 (exactSum (f32 acc :: l.map fun p => exactMul p.1 p.2))

/-- An exact INT8 sum into a 32-bit accumulator; and whether it saturated. -/
def satAcc (v : Int) : Int × Bool :=
  if 0x7FFFFFFF < v then (0x7FFFFFFF, true) else if v < -0x80000000 then (-0x80000000, true) else (v, false)

/-- The word of an accumulator that a Yard puts out, and the saturations met. -/
structure AccOut where
  w : Nat
  sats : Nat := 0

/-- Chunks of K elements, in ascending order. -/
def chunksOf (kc lo hi : Nat) : List (List Nat) :=
  (List.range ((hi - lo + kc - 1) / kc)).map fun i =>
    ((List.range kc).map fun j => lo + i * kc + j).filter fun k => decide (k < hi)

/-- An output over a K range, from the elements of A's row and B's column. -/
def dotRange (int8 : Bool) (kc lo hi : Nat) (a b : Nat → Fp) : AccOut :=
  if int8 then
    let r := (chunksOf kc lo hi).foldl (fun (st : Int × Nat) ks =>
      let v := satAcc (st.1 + (ks.map fun k => ((a k).toDy.mul (b k).toDy).floor).sum)
      (v.1, if v.2 then st.2 + 1 else st.2)) (0, 0)
    ⟨(r.1 % 2 ^ 32).toNat, r.2⟩
  else ⟨(chunksOf kc lo hi).foldl (fun acc ks => chunkAdd acc (ks.map fun k => (a k, b k))) 0, 0⟩

/-! ### Tiles and their Yards (R269, R271) -/

/-- The indices of a level's tiles in the order of a loop-order code (Table 12.5a). -/
def loopOrder (code nm nn nk : Nat) : List (Nat × Nat × Nat) :=
  let ms := List.range nm
  let ns := List.range nn
  let ks := List.range nk
  if code = 0 then ms.flatMap fun m => ns.flatMap fun n => ks.map fun k => (m, n, k)
  else if code = 1 then ms.flatMap fun m => ks.flatMap fun k => ns.map fun n => (m, n, k)
  else if code = 2 then ns.flatMap fun n => ms.flatMap fun m => ks.map fun k => (m, n, k)
  else if code = 3 then ns.flatMap fun n => ks.flatMap fun k => ms.map fun m => (m, n, k)
  else if code = 4 then ks.flatMap fun k => ms.flatMap fun m => ns.map fun n => (m, n, k)
  else ks.flatMap fun k => ns.flatMap fun n => ms.map fun m => (m, n, k)

def ceilQ (a b : Nat) : Nat := (a + b - 1) / b

/-- The S output blocks in the order in which a walk over the tiles first reaches them. -/
def blockOrder (m : Mac) (mm nn kk : Nat) : List (Nat × Nat) :=
  let mt := m.u16 0x68; let nt := m.u16 0x6A; let kt := m.u16 0x6C
  let ms := m.u16 0x70; let ns := m.u16 0x72; let ks := m.u16 0x74
  let outer := loopOrder (m.u8 0x6E) (ceilQ mm mt) (ceilQ nn nt) (max 1 (ceilQ kk kt))
  let inner := loopOrder (m.u8 0x76) (mt / ms) (nt / ns) (kt / ks)
  ((outer.flatMap fun o => inner.map fun i => (o.1 * (mt / ms) + i.1, o.2.1 * (nt / ns) + i.2.1)).filter
    fun b => decide (b.1 * ms < mm) && decide (b.2 * ns < nn)).eraseDups

/-- The Yard K range of a macro (R270). -/
def yardK (m : Mac) (k : Nat) : Nat :=
  if m.kSplit ≤ 1 then k else ceilQ (ceilQ k m.kSplit) (kChunk m.fmtA) * kChunk m.fmtA

/-- The physical Yards of a macro's mask, ascending. -/
def macYards (b : BoundPlan) (m : Mac) : List Nat :=
  (b.yards.zipIdx.filter fun e => m.yardMask.testBit e.2).map fun e => e.1

/-- The Yard that computes K range `i` of block number `j`. -/
def yardFor (ys : List Nat) (split j i : Nat) : Nat :=
  let g := max 1 (ys.length / max 1 split)
  ys.getD (j % g * max 1 split + i) 0

/-- The number of the S output block that holds an output. -/
def blockNo (bs : List (Nat × Nat)) (m : Mac) (r c : Nat) : Nat :=
  bs.idxOf (r / m.u16 0x70, c / m.u16 0x72)

/-- The K ranges of a macro: one for each split. -/
def kRanges (m : Mac) (k : Nat) : List (Nat × Nat) :=
  (List.range (max 1 m.kSplit)).map fun i => (min k (i * yardK m k), min k ((i + 1) * yardK m k))

/-! ### GEMM at issue (Table 12.6, R268, R276, R277) -/

/-- The rules of Table 12.6 that are checked at issue. -/
def gemmRules (m : Mac) (mm nn kk batch : Nat) : Bool :=
  let kt := m.u16 0x6C
  let ks := m.u16 0x74
  let oneTile := fun (code tiles : Nat) => decide (code = 0) || decide (code = 2) || decide (tiles ≤ 1)
  let ea := fmtBytes m.fmtA
  let eb := fmtBytes m.fmtB
  let b := m.operand 0x38
  decide (mm ≤ 16777216) && decide (nn ≤ 16777216) && decide (kk ≤ 1048576) && decide (batch ≤ 65535)
    && (decide (1 < m.kSplit) || (oneTile (m.u8 0x6E) (ceilQ kk kt) && oneTile (m.u8 0x76) (min (kt / ks) (ceilQ kk ks))))
    && (decide (m.kSplit ≤ 1) || (decide (kk ≤ kt) && decide (yardK m kk ≤ ks)))
    && (!(decide (m.u8 0x78 = 1) && decide (32 < m.u16 0x70)) || decide (yardK m kk ≤ ks))
    && decide (kk * ea ≤ (m.operand 0x20).ld) && decide ((if b.trans then kk else nn) * eb ≤ b.ld)
    && decide (nn * fmtBytes m.fmtC ≤ (m.operand 0x50).ld)

/-- The epilogue record of a macro, relocated; none with epi 0xFF. -/
def State.epiRec (s : State) (w : Walk) (m : Mac) : Option EpiRec :=
  if m.epi = 0xFF then none
  else
    match s.model w.part w.handle with
    | some x =>
      let c := Config.clew (s.section x 4)
      some (EpiRec.placed ((c.epis.getD w.plan []).getD m.epi 0) x.sections w.lane)
    | none => none

/-- A GEMM at issue. -/
def State.resolveGemm (s : State) (b : BoundPlan) (w : Walk) (m : Mac) : Resolved :=
  let bd := (List.range 4).map (s.boundOf w m)
  let mm := bd.getD 0 0
  let nn := bd.getD 1 0
  let kk := bd.getD 2 0
  let batch := bd.getD 3 0
  let words := boundWords m [0, 1, 2, 3]
  let oa := m.operand 0x20
  let ob := m.operand 0x38
  let oc := m.operand 0x50
  let bs := ceilQ batch (max 1 m.grp)
  if mm = 0 ∨ nn = 0 ∨ batch = 0 then { idle := true, bounds := bd }
  else if gemmRules m mm nn kk batch = false then { err := 1, bounds := bd }
  else
    let la := s.readList oa batch
    let lb := s.readList ob bs
    let lc := s.readList oc batch
    let ra := (List.range batch).map fun i => matrixRange (oa.at_ la i) oa.ld mm (kk * fmtBytes m.fmtA)
    let rb := (List.range bs).map fun i => matrixRange (ob.at_ lb i) ob.ld (if ob.trans then nn else kk) ((if ob.trans then kk else nn) * fmtBytes m.fmtB)
    let rc := (List.range batch).map fun i => matrixRange (oc.at_ lc i) oc.ld mm (nn * fmtBytes m.fmtC)
    let lists := listWords oa batch ++ listWords ob bs ++ listWords oc batch
    let re := match s.epiRec w m with
      | some r => r.reads mm nn oc.ld m.fmtC
      | none => []
    let ok := s.allowed b oa ra && s.allowed b ob rb && s.allowed b oc rc
      && (words ++ lists).all (s.owns b.part) && re.all fun r => s.owns b.part r || b.inBanks r
    { err := if ok then 0 else 2, bounds := bd, lists := [la, lb, lc]
      reads := ra ++ rb ++ words ++ lists ++ re, writes := rc
      units := (macYards b m).map (fun i => ⟨utYard, i, 0⟩) ++ (if m.epi = 0xFF then [] else b.clews.map fun i => ⟨utClew, i, 0⟩) }

/-- A COPY at issue. -/
def State.resolveCopy (s : State) (b : BoundPlan) (w : Walk) (m : Mac) : Resolved :=
  let rows := s.boundOf w m 0
  let n := s.boundOf w m 1
  let batch := s.boundOf w m 3
  let words := boundWords m [0, 1, 3]
  let oa := m.operand 0x20
  let oc := m.operand 0x50
  let eb := fmtBytes m.fmtA
  if rows = 0 ∨ n = 0 ∨ batch = 0 then { idle := true, bounds := [rows, n, batch] }
  else if 16777216 < rows ∨ 16777216 < n ∨ 65535 < batch ∨ oa.ld < n * eb ∨ oc.ld < n * eb then { err := 1 }
  else
    let la := s.readList oa batch
    let lc := s.readList oc batch
    let ra := (List.range batch).map fun i => matrixRange (oa.at_ la i) oa.ld rows (n * eb)
    let rc := (List.range batch).map fun i => matrixRange (oc.at_ lc i) oc.ld rows (n * eb)
    let lists := listWords oa batch ++ listWords oc batch
    { err := if s.allowed b oa ra && s.allowed b oc rc && (words ++ lists).all (s.owns b.part) then 0 else 2
      bounds := [rows, n, batch], lists := [la, [], lc], reads := ra ++ words ++ lists, writes := rc }

/-! ### GEMM performed -/

/-- An output of a GEMM from each split: the accumulator words. -/
def State.gemmParts (s : State) (m : Mac) (a b ldA ldB kk r c : Nat) (trans : Bool) : List AccOut :=
  let ea := fmtBytes m.fmtA
  let eb := fmtBytes m.fmtB
  let rowA := fun k => elemFp m.fmtA (s.rdNat (a + r * ldA + k * ea) ea)
  let colB := fun k => elemFp m.fmtB (s.rdNat (if trans then b + c * ldB + k * eb else b + k * ldB + c * eb) eb)
  (kRanges m kk).map fun e => dotRange (decide (m.fmtA = 2)) (kChunk m.fmtA) e.1 e.2 rowA colB

/-- The Clew that takes a Yard's partial tiles: the first of the plan that lists the Yard's output stream
(14 R335), or the plan's first. -/
def State.clewFor (s : State) (b : BoundPlan) (y : Nat) : Option Nat :=
  match s.model b.part b.handle with
  | none => b.clews[0]?
  | some x =>
    let rs := (planRecs (s.section x 2)).filter fun r => decide (r.plan = b.plan)
    let out := (rs.find? fun r => decide (r.type = 1) && decide (r.index = b.yards.idxOf y)).map fun r => r.byte 7
    match rs.find? fun r => decide (r.type = 3) && (List.range 8).any fun i => decide (some (r.byte (4 + i)) = out) with
    | some r => match b.clews[r.index]? with
      | some c => some c
      | none => b.clews[0]?
    | none => b.clews[0]?

/-- One output written: the epilogue's result, or the accumulator itself; with its Clew's counts and the
saturations of its Yards. `t` is the state written to, `s` that before the macro. -/
def State.gemmOut (s t : State) (b : BoundPlan) (m : Mac) (e : Option EpiRec) (info : ClewInfo) (ys : List Nat) (blk : Nat)
    (oc dst r c : Nat) (parts : List AccOut) : State :=
  let n := fmtBytes m.fmtC
  let t1 := (parts.zipIdx.filter fun p => decide (0 < p.1.sats)).foldl (fun u p => u.addCnt (Key.yrdSatCnt (yardFor ys m.kSplit blk p.2)) p.1.sats) t
  match e with
  | none => t1.wrNat dst n ((parts.getD 0 ⟨0, 0⟩).w)
  | some rec_ =>
    let words := parts.map fun p => if m.fmtA = 2 then elemF32 6 p.w else p.w
    let o := s.epilogue s.level0 info rec_ m.fmtC oc r c words
    let t2 := t1.wrNat dst n o.w
    match s.clewFor b (yardFor ys m.kSplit blk 0) with
    | some i => t2.countClew i 1 o
    | none => t2

/-- Steps of a block on a Yard: one for each 32-row tile, 32-column tile and K chunk. -/
def blockSteps (m : Mac) (mm nn : Nat) (blk : Nat × Nat) (lo hi : Nat) : Nat :=
  let ms := m.u16 0x70
  let ns := m.u16 0x72
  ceilQ (min ms (mm - blk.1 * ms)) 32 * ceilQ (min ns (nn - blk.2 * ns)) 32 * ceilQ (hi - lo) (kChunk m.fmtA)

/-- A matrix of a GEMM's batch performed. -/
def State.gemmMatrix (s t : State) (b : BoundPlan) (m : Mac) (e : Option EpiRec) (info : ClewInfo) (mm nn kk a bb c : Nat) : State :=
  let ys := macYards b m
  let bs := blockOrder m mm nn kk
  let oa := m.operand 0x20
  let ob := m.operand 0x38
  let oc := m.operand 0x50
  let outs := (List.range mm).flatMap fun r => (List.range nn).map fun col =>
    (r, col, s.gemmParts m a bb oa.ld ob.ld kk r col ob.trans)
  let t1 := outs.foldl (fun u x =>
    s.gemmOut u b m e info ys (blockNo bs m x.1 x.2.1) oc.ld (c + x.1 * oc.ld + x.2.1 * fmtBytes m.fmtC) x.1 x.2.1 x.2.2) t
  let nanTiles := ((outs.flatMap fun x => (x.2.2.zipIdx.filter fun p => decide (m.fmtA ≠ 2) && (f32 p.1.w).isNan).map fun p =>
    (x.1 / 32, x.2.1 / 32, p.2, blockNo bs m x.1 x.2.1)).eraseDups)
  let t2 := nanTiles.foldl (fun u x => u.inc (Key.yrdNanCnt (yardFor ys m.kSplit x.2.2.2 x.2.2.1))) t1
  bs.zipIdx.foldl (fun u blk => (kRanges m kk).zipIdx.foldl (fun v kr =>
    v.addCnt (Key.yrdStepCnt (yardFor ys m.kSplit blk.2 kr.2)) (blockSteps m mm nn blk.1 kr.1.1 kr.1.2)) u) t2

/-- A GEMM performed: every output from the operands as they stand before it (R272). -/
def State.performGemm (s : State) (b : BoundPlan) (w : Walk) (x : MacroSt) : State :=
  let m : Mac := x.word
  let mm := x.bounds.getD 0 0
  let nn := x.bounds.getD 1 0
  let kk := x.bounds.getD 2 0
  let batch := x.bounds.getD 3 0
  let info := Config.clew (match s.model w.part w.handle with
    | some y => s.section y 4
    | none => [])
  let e := s.epiRec w m
  (List.range batch).foldl (fun t i =>
    s.gemmMatrix t b m e info mm nn kk ((m.operand 0x20).at_ (x.lists.getD 0 []) i)
      ((m.operand 0x38).at_ (x.lists.getD 1 []) (i / max 1 m.grp)) ((m.operand 0x50).at_ (x.lists.getD 2 []) i)) s

/-- A COPY performed. -/
def State.performCopy (s : State) (x : MacroSt) : State :=
  let m : Mac := x.word
  let rows := x.bounds.getD 0 0
  let n := x.bounds.getD 1 0 * fmtBytes m.fmtA
  let oa := m.operand 0x20
  let oc := m.operand 0x50
  (List.range (x.bounds.getD 2 0)).foldl (fun t i => (List.range rows).foldl (fun u r =>
    u.wr (oc.at_ (x.lists.getD 2 []) i + r * oc.ld) (s.rd (oa.at_ (x.lists.getD 0 []) i + r * oa.ld) n)) t) s

end Sys2Proof.Machine
end

