-- ==== Sys2Proof/Machine/Luff.lean ====
section
/-! DEFINITION. The Luffs (13): rows and positions, scores and masks, the online and ORDER-FREE modes, and what an
ATTN macro does. -/

namespace Sys2Proof.Machine

/-! ### Rows (R288, R289) -/

/-- A row of an ATTN macro: its number, sequence, KV head, query head of the shard, token and position. -/
structure AttnRow where
  no : Nat
  seq : Nat
  head : Nat
  q : Nat
  tok : Nat
  pos : Nat
  deriving DecidableEq, Repr

/-- The sequences of a macro: each one's page-table block, pages, and length; and in SHROUD mode the members of its ring, this member,
and the member whose block is read (17 R409). -/
structure AttnSeq where
  pt : Nat
  pages : Nat
  len : Nat
  n : Nat := 1
  own : Nat := 0
  block : Nat := 0
  deriving DecidableEq, Repr

/-- The position of a token of this member, and the number of a key page in the whole sequence (17 R409). -/
def AttnSeq.posOf (q : AttnSeq) (u : Nat) : Nat := 256 * (u / 256 * q.n + q.own) + u % 256
def AttnSeq.pageNo (q : AttnSeq) (p : Nat) : Nat := p * q.n + q.block

/-- KV heads served, ascending. -/
def Mac.heads (m : Mac) : List Nat := (List.range 4).filter fun h => m.kvHeads.testBit h

/-- The key page's entry, and the entry that is authoritative for it (R290). -/
def attnOwn (m : Mac) (q : AttnSeq) (p : Nat) : Nat :=
  let r := m.u16 0x14
  q.pt + 16 * (if r = 0 then p else p % r)
def State.attnEntry (s : State) (m : Mac) (q : AttnSeq) (p : Nat) : Nat := s.auth (attnOwn m q p)

/-- The step of a circulation at which macro `index` of a walk stands: how many macros of its rows came since the one that has
`first` (17 R413). -/
def State.circStep (s : State) (w : Walk) (index : Nat) (m : Mac) : Nat :=
  let same := fun (y : Mac) => decide (y.op = 3) && decide (y.kvHeads = m.kvHeads)
    && decide ((y.operand 0x68).base = (m.operand 0x68).base)
  if m.first then 0
  else (((List.range index).map (s.macAt w)).filter same).reverse.takeWhile (fun y => !y.first) |>.length.succ

/-- What the K48 supplies of a SHROUD sequence: the ring, and the block that is read at a step; in prefill the pages of that block up
to the round's last, in decode the length of the whole sequence with the new token (17 R409, R413, R414). -/
def State.striped (s : State) (w : Walk) (index : Nat) (m : Mac) (i b1 : Nat) (q : AttnSeq) : AttnSeq :=
  match (w.tags[i]?).bind fun g => s.req w.part g with
  | none => q
  | some r =>
    match s.reqRing r with
    | none => q
    | some k =>
      let n := max 1 (s.ringSize k)
      let own := s.ringMember k
      if m.decode then { q with n := n, own := own, block := own, len := r.d.count + r.j }
      else
        let block := (own + n - s.circStep w index m % n) % n
        { q with n := n, own := own, block := block, pages := min (16 * (b1 / 4096 + 1)) (stripe (ceilDiv r.d.count 256) n block) }

/-- The sequences, from the pointer-list entries or the block named by op_pt. -/
def State.attnSeqs (s : State) (w : Walk) (index : Nat) (m : Mac) (bounds : List Nat) (lists : List (List Nat)) : List AttnSeq :=
  let b0 := bounds.getD 0 0
  let b1 := bounds.getD 1 0
  if m.decode then
    (List.range b0).map fun i =>
      let e := (m.operand 0x38).at_ (lists.getD 1 []) i
      let q : AttnSeq := { pt := e / 65536 * 65536, pages := e % 4096, len := 0 }
      s.striped w index m i b1
        { q with len := if q.pages = 0 then 0 else 256 * (q.pages - 1) + (s.pte (s.attnEntry m q (q.pages - 1))).valid }
  else
    let e := (m.operand 0x38).at_ (lists.getD 1 []) 0
    [s.striped w index m 0 b1 { pt := e / 65536 * 65536, pages := (b1 + b0 + 255) / 256, len := b1 + b0 }]

/-- The rows of a macro in their order. -/
def attnRows (m : Mac) (bounds : List Nat) (seqs : List AttnSeq) : List AttnRow :=
  let toks := if m.decode then 1 else bounds.getD 0 0
  let raw := seqs.zipIdx.flatMap fun q => m.heads.flatMap fun h => (List.range m.qGroup).flatMap fun j =>
    (List.range toks).map fun t =>
      (q.2, h, h * m.qGroup + j, t, if m.decode then q.1.len - 1 else q.1.posOf (bounds.getD 1 0 + t))
  raw.zipIdx.map fun x => { no := x.2, seq := x.1.1, head := x.1.2.1, q := x.1.2.2.1, tok := x.1.2.2.2.1, pos := x.1.2.2.2.2 }

/-- pq and pl: the pages of the first and last query positions (R302). -/
def queryPages (bounds : List Nat) : Nat × Nat :=
  let b0 := bounds.getD 0 0
  let b1 := bounds.getD 1 0
  (b1 / 256, (b1 + b0 - 1) / 256)

/-- The pages that a row reads, and whether the macro completes it (R302). -/
def rowPages (m : Mac) (bounds : List Nat) (q : AttnSeq) : List Nat :=
  let (pq, _) := queryPages bounds
  if m.decode then List.range q.pages
  else if m.kpMode = 0 then List.range q.pages else if m.kpMode = 1 then List.range pq else [pq + m.diag]

/-- The rows that a macro works on: with DIAG those of query pages pq + diag to pl. -/
def rowWorks (m : Mac) (bounds : List Nat) (r : AttnRow) : Bool :=
  m.decode || decide (m.kpMode ≠ 2) || decide ((queryPages bounds).1 + m.diag ≤ r.pos / 256)

def rowCompletes (m : Mac) (bounds : List Nat) (r : AttnRow) : Bool :=
  m.final && (m.decode || decide (m.kpMode = 0) || decide ((queryPages bounds).1 + m.diag = r.pos / 256))

/-! ### Scores and masks (R291 to R293) -/

/-- A key page as a Luff sees it: its number in the whole sequence, and the local one. -/
structure KeyPage where
  no : Nat
  ix : Nat
  here : Bool
  base : Nat
  valid : Nat
  kKey : Int
  kVal : Int
  deriving DecidableEq, Repr

/-- The exponent of a scale, which is a power of two (09 R182). -/
def scaleExp (w : Nat) : Int :=
  match fmtBf.decode w with
  | .fin _ m e => if m = 0 then 0 else e + bitLen m - 1
  | _ => 0

def State.keyPage (s : State) (m : Mac) (q : AttnSeq) (h p : Nat) : KeyPage :=
  let a := s.attnEntry m q p
  let e := s.pte a
  let sc := s.scales (scaleOf a)
  { no := q.pageNo p, ix := p, here := e.present, base := 4096 * e.first, valid := e.valid
    kKey := scaleExp (sc.1.getD h 0), kVal := scaleExp (sc.2.getD h 0) }

/-- A slot is masked for a row (R292). -/
def slotMasked (m : Mac) (k : KeyPage) (pos slot : Nat) : Bool :=
  let key := 256 * k.no + slot
  decide (k.valid ≤ slot) || !k.here || (m.causal && decide (pos < key)) || (m.window && decide (key + m.win ≤ pos))

/-- Key and value elements of a slot. -/
def State.keyElems (s : State) (m : Mac) (k : KeyPage) (h slot : Nat) : List Fp :=
  (List.range m.headDim).map fun d => fmtE4.decode (s.rdNat (k.base + (h * 256 + slot) * m.headDim + d) 1)
def State.valElems (s : State) (m : Mac) (k : KeyPage) (h slot : Nat) : List Fp :=
  (List.range m.headDim).map fun d =>
    fmtE4.decode (s.rdNat (k.base + (m.shardHeads * 256 + h * 256 + slot) * m.headDim + d) 1)

/-- The score t_j of a row's elements against key elements (R291). -/
def score (m : Mac) (qs ks : List Fp) (kKey : Int) : Fp :=
  let g := fmt32.decode (fmt32.encode (exactSum ((qs.zip ks).map fun p => exactMul p.1 p.2)))
  fmt32.decode (fmt32.encode (exactMul (exactMul g (.fin false 1 kKey)) (f32 (m.u32 0x10))))

/-- An unmasked slot of a page for a row: its score, and its value elements. -/
structure Slot where
  t : Fp
  vals : List Fp
  bad : Bool

/-- The unmasked slots of a page for a row. A score that is no finite number, and a NaN element, make the row's
output a NaN (R299). -/
def State.rowSlots (s : State) (m : Mac) (k : KeyPage) (r : AttnRow) (qs : List Fp) : List Slot :=
  ((List.range 256).filter fun j => !slotMasked m k r.pos j).map fun j =>
    let ks := s.keyElems m k r.head j
    let vs := s.valElems m k r.head j
    let t := score m qs ks k.kKey
    { t := t, vals := vs, bad := !t.isFin || ks.any Fp.isNan || vs.any Fp.isNan }

/-! ### Online mode (R294, R295) -/

/-- A row's state (m, l, O) as FP32 values; a bad row holds NaNs. -/
structure Online where
  m : Fp
  l : Fp
  o : List Fp
  deriving DecidableEq, Repr

def Online.zero (dim : Nat) : Online := ⟨.inf true, .fin false 0 0, List.replicate dim (.fin false 0 0)⟩
def Online.bad (dim : Nat) : Online := ⟨.nan, .nan, List.replicate dim .nan⟩

/-- exp2 of a difference of which neither is a NaN; 0 from −∞. -/
def expDiff (a b : Fp) : Fp :=
  if a.isFin ∧ b.isFin then f32 (exp2Online (a.toDy.sub b.toDy)) else .fin false 0 0

/-- x × a + y × b rounded once. -/
def mulAdd2 (x a y b : Fp) : Fp := fmt32.decode (fmt32.encode (exactSum [exactMul x a, exactMul y b]))

/-- A page or range state merged into a row state. -/
def Online.merge (s p : Online) : Online :=
  let mx := Fp.max s.m p.m
  let a := expDiff s.m mx
  let b := expDiff p.m mx
  ⟨mx, mulAdd2 s.l a p.l b, (s.o.zip p.o).map fun x => mulAdd2 x.1 a x.2 b⟩

/-- The state of a page with unmasked slots. -/
def pageState (dim : Nat) (k : KeyPage) (sl : List Slot) : Online :=
  let mp := sl.foldl (fun a x => Fp.max a x.t) (.inf true)
  let ps := sl.map fun x => expDiff x.t mp
  let col := fun d => exactSum ((sl.zip ps).map fun e => exactMul (exactMul e.2 (e.1.vals.getD d (.fin false 0 0))) (.fin false 1 k.kVal))
  let r32 := fun (x : Fp) => fmt32.decode (fmt32.encode x)
  ⟨mp, r32 (exactSum ps), (List.range dim).map fun d => r32 (col d)⟩

/-- Pages merged into a state in ascending order; a bad slot makes the row bad. -/
def mergePages (dim : Nat) (st : Online) (l : List (KeyPage × List Slot)) : Online :=
  l.foldl (fun a e =>
    if e.2 = [] then a
    else if e.2.any (fun x => x.bad) ∨ a.l.isNan = true then Online.bad dim
    else a.merge (pageState dim e.1 e.2)) st

/-- A row's pages: in decode, pages that span several 32-page ranges are merged range by range (R295). -/
def onlineRow (m : Mac) (st : Online) (l : List (KeyPage × List Slot)) : Online :=
  let dim := m.headDim
  let ranges := (l.map fun e => e.1.ix / 32).eraseDups
  if m.decode ∧ 1 < ranges.length then
    ranges.foldl (fun a i =>
      let x := mergePages dim (Online.zero dim) (l.filter fun e => decide (e.1.ix / 32 = i))
      if x.l.isNan ∨ a.l.isNan = true then Online.bad dim
      else if x.m = .inf true then a else a.merge x) st
  else mergePages dim st l

/-- Online records (Table 13.2). -/
def readOnline (s : State) (a dim : Nat) : Online :=
  ⟨f32 (s.rdNat a 4), f32 (s.rdNat (a + 4) 4), (List.range dim).map fun d => f32 (s.rdNat (a + 8 + 4 * d) 4)⟩
def onlineBytes (x : Online) : List Byte :=
  leBytes (toF32 x.m) 4 ++ leBytes (toF32 x.l) 4 ++ x.o.flatMap fun v => leBytes (toF32 v) 4

/-- The output elements of a complete online row: O_d / l correctly rounded. -/
def onlineOut (f : Fmt) (x : Online) : List Nat :=
  x.o.map fun v =>
    if x.l.isNan ∨ v.isNan then f.nanBits
    else if x.l.isZero ∨ v.isZero then 0
    else match v, x.l with
      | .fin _ _ _, .fin _ _ _ => f.encode (v.toDy.quotient x.l.toDy)
      | .inf n, .fin _ _ _ => f.encode (.inf n)
      | .fin _ _ _, _ => 0
      | _, _ => f.nanBits

/-! ### ORDER-FREE mode (R296, R297) -/

/-- A row's ORDER-FREE state; M is a NaN in a bad row. -/
structure Exact where
  m : Fp
  sigma : Int
  empty : Bool
  l : Nat
  a : List Int
  deriving DecidableEq, Repr

/-- Pass MAX over a row's pages, from a state. -/
def maxRow (m : Mac) (st : Exact) (l : List (KeyPage × List Slot)) : Exact :=
  let used := l.filter fun e => decide (e.2 ≠ [])
  if used = [] then st
  else if (used.any fun e => e.2.any fun x => x.bad) ∨ st.m.isNan = true then { st with m := .nan, empty := false }
  else
    let mx := used.foldl (fun a e => e.2.foldl (fun b x => Fp.max b x.t) a) (.inf true)
    let ks := used.map fun e => e.1.kVal
    let hi := ks.foldl max (ks.getD 0 0)
    let lo := ks.foldl min (ks.getD 0 0)
    let sg := max lo (hi - 52)
    if st.empty ∨ m.first = true then { st with m := mx, sigma := sg, empty := false }
    else { st with m := Fp.max st.m mx, sigma := Config.sigmaMerge st.sigma sg }

/-- An integer kept in 128-bit two's complement. -/
def wrap128 (v : Int) : Int := signed (v % 2 ^ 128).toNat 128

/-- Pass SUM over a row's pages. -/
def sumRow (st : Exact) (l : List (KeyPage × List Slot)) : Exact :=
  l.foldl (fun a e => e.2.foldl (fun b x =>
    if x.bad ∨ b.m.isNan = true then { b with m := .nan }
    else
      let p := pOf (Fp.sub fmt32 b.m x.t)
      let add := (b.a.zip x.vals).map fun y =>
        wrap128 (y.1 + (((Dy.ofNat p).mul ((y.2.toDy).shift 9)).shift (e.1.kVal - b.sigma)).rne)
      { b with l := (b.l + p) % 2 ^ 128, a := add }) a) st

def readExact (s : State) (a dim : Nat) : Exact :=
  ⟨f32 (s.rdNat a 4), signed (s.rdNat (a + 4) 2) 16, decide (s.rdNat (a + 6) 2 % 2 = 1), s.rdNat (a + 0x10) 16,
    (List.range dim).map fun d => signed (s.rdNat (a + 0x20 + 16 * d) 16) 128⟩
def exactHead (x : Exact) : List Byte :=
  leBytes (toF32 x.m) 4 ++ leBytes (x.sigma % 65536).toNat 2 ++ leBytes (if x.empty then 1 else 0) 2 ++ leBytes 0 8
def exactBytes (x : Exact) : List Byte :=
  exactHead x ++ leBytes x.l 16 ++ x.a.flatMap fun v => leBytes (v % 2 ^ 128).toNat 16

def exactOut (f : Fmt) (x : Exact) : List Nat :=
  x.a.map fun v =>
    if x.m.isNan then f.nanBits
    else if x.empty ∨ x.l = 0 ∨ v = 0 then 0
    else f.encode ((Dy.mk v (x.sigma - 9)).quotient (Dy.ofNat x.l))

/-! ### The ATTN macro at issue (R302, R309 to R311) -/

def recSize (m : Mac) : Nat := if m.pass = 0 then 8 + 4 * m.headDim else 32 + 16 * m.headDim

/-- The state banks of the Luffs of a macro's mask (Table 13.4). -/
def State.stateBanks (s : State) (b : BoundPlan) (m : Mac) : List Nat :=
  match s.model b.part b.handle with
  | none => []
  | some x =>
    let rs := (planRecs (s.section x 2)).filter fun r => decide (r.type = 2) && decide (r.plan = b.plan) && m.luffMask.testBit r.index
    rs.flatMap fun r => (List.range (r.byte 5)).filterMap fun i => b.banks[r.byte 4 + i]?

def macLuffs (b : BoundPlan) (m : Mac) : List Nat :=
  (b.luffs.zipIdx.filter fun e => m.luffMask.testBit e.2).map fun e => e.1

/-- An ATTN macro at issue. Its bounds are b0 (in decode b3) and b1. -/
def State.resolveAttn (s : State) (b : BoundPlan) (w : Walk) (m : Mac) : Resolved :=
  let b0 := (w.regs.getD (if m.decode then 3 else 0) 0).toNat
  let b1 := (w.regs.getD 1 0).toNat
  let bounds := [b0, b1]
  let oq := m.operand 0x20
  let op := m.operand 0x38
  let oo := m.operand 0x50
  let os := m.operand 0x68
  let seqs := if m.decode then b0 else 1
  let toks := if m.decode then 1 else b0
  let rows := seqs * m.heads.length * m.qGroup * toks
  let (pq, pl) := queryPages bounds
  if b0 = 0 ∨ (m.decode = false ∧ m.kpMode = 2 ∧ pl < pq + m.diag) then { idle := true, bounds := bounds }
  else if 65536 < rows ∨ (m.decode = true ∧ 64 < b0) then { err := 1 }
  else
    let lists := [oq, op, oo, os].map fun o => s.readList o seqs
    let words := [oq, op, oo, os].flatMap fun o => listWords o seqs
    let es := if m.fmtO = 0 then 2 else 4
    let wide := m.shardHeads * m.qGroup * m.headDim
    let rq := (List.range seqs).map fun i => matrixRange (oq.at_ (lists.getD 0 []) i) oq.ld toks (2 * wide)
    let rp := (List.range seqs).map fun i => (op.at_ (lists.getD 1 []) i / 65536 * 65536, 65536)
    let ro := if m.pass = 1 ∨ m.final = false then []
      else if m.partial_ then [(oo.at_ (lists.getD 2 []) 0, rows * recSize m)]
      else (List.range seqs).map fun i => matrixRange (oo.at_ (lists.getD 2 []) i) oo.ld toks (es * wide)
    let state := !(m.first && m.final) || decide (m.pass = 2)
    let rs := if state then [(os.at_ (lists.getD 3 []) 0, rows * recSize m)] else []
    let banks : BoundPlan := { b with banks := s.stateBanks b m }
    let ok := s.allowed b oq rq && s.allowed b op rp && s.allowed b oo ro
      && (if os.sram then s.allowed banks os rs else s.allowed b os rs) && words.all (s.owns b.part)
    { err := if ok then 0 else 2, bounds := bounds, lists := lists
      reads := rq ++ rp ++ rs ++ words, writes := ro ++ rs, units := (macLuffs b m).map fun i => ⟨utLuff, i, 0⟩ }

/-! ### Work counted on Luffs (R293, R306, Table 13.6) -/

/-- Query blocks: up to 64 consecutive rows of one sequence and KV head. -/
def attnBlocks (rows : List AttnRow) : List (List AttnRow) :=
  let keys := (rows.map fun r => (r.seq, r.head)).eraseDups
  keys.flatMap fun k =>
    let l := rows.filter fun r => decide ((r.seq, r.head) = k)
    (List.range ((l.length + 63) / 64)).map fun i => (l.drop (64 * i)).take 64

/-- A block is skipped against a page (R293). -/
def blockSkips (m : Mac) (blk : List AttnRow) (p : Nat) : Bool :=
  let ps := blk.map fun r => r.pos
  let hi := ps.foldl max 0
  let lo := ps.foldl min hi
  (m.causal && decide (hi < 256 * p)) || (m.window && decide (256 * p + 255 + m.win ≤ lo))

/-- The index of the least of some loads; the lower index on a tie. -/
def leastLoad (l : List Nat) : Nat := l.idxOf (l.foldl min (l.getD 0 0))

/-- Work pieces given one by one to the Luff with the least load. -/
def assignLoads (n : Nat) (costs : List Nat) : List Nat :=
  (costs.foldl (fun (st : List Nat × List Nat) c =>
    let i := leastLoad st.1
    (st.1.set i (st.1.getD i 0 + c), st.2 ++ [i])) (List.replicate n 0, [])).2

/-- A piece of an ATTN macro's work: rows, and the pages against which they run. -/
structure Piece where
  seq : AttnSeq
  rows : List AttnRow
  pages : List Nat

/-- The pages that a piece's block is not skipped against. -/
def Piece.run (m : Mac) (x : Piece) : List Nat := x.pages.filter fun p => !blockSkips m x.rows (x.seq.pageNo p)

/-- Pieces in the order in which they are given out: in prefill blocks, in decode 32-page ranges of each
sequence and KV head by descending unskipped pages (R306). -/
def insertPiece (m : Mac) (x : Piece) : List Piece → List Piece
  | [] => [x]
  | y :: rest =>
    if (y.run m).length < (x.run m).length then x :: y :: rest else y :: insertPiece m x rest
def attnPieces (m : Mac) (bounds : List Nat) (seqs : List AttnSeq) (rows : List AttnRow) : List Piece :=
  let blocks := attnBlocks rows
  let seqOf := fun (b : List AttnRow) => match b with
    | r :: _ => seqs.getD r.seq { pt := 0, pages := 0, len := 0 }
    | [] => { pt := 0, pages := 0, len := 0 }
  if m.decode then
    let raw := blocks.flatMap fun b =>
      let ps := rowPages m bounds (seqOf b)
      ((ps.map fun p => p / 32).eraseDups).map fun i =>
        ({ seq := seqOf b, rows := b, pages := ps.filter fun p => decide (p / 32 = i) } : Piece)
    raw.foldl (fun a x => insertPiece m x a) []
  else blocks.map fun b => { seq := seqOf b, rows := b, pages := rowPages m bounds (seqOf b) }

/-- The Luff that completes a row: the one that takes its block, in decode the first of its ranges given out (DESIGN CHOICE: R299
does not say which Luff of several counts). -/
def rowLuff (luffs : List Nat) (m : Mac) (ps : List Piece) (r : AttnRow) : Nat :=
  let who := assignLoads luffs.length (ps.map fun x => (x.run m).length)
  match (ps.zip who).find? fun e => decide (r ∈ e.1.rows) with
  | some e => luffs.getD e.2 0
  | none => luffs.getD 0 0

/-- The counters of the Luffs after a macro's work. -/
def State.countLuffs (s : State) (luffs : List Nat) (m : Mac) (ps : List Piece) : State :=
  let run := fun (x : Piece) => x.run m
  let who := assignLoads luffs.length (ps.map fun x => (run x).length)
  let given := ps.zip who
  let s1 := given.foldl (fun t e =>
    let i := luffs.getD e.2 0
    (t.addCnt (Key.lufBlockCnt i) (run e.1).length).addCnt (Key.lufSkipCnt i) (e.1.pages.length - (run e.1).length)) s
  let parts := given.flatMap fun e => match e.1.rows with
    | r :: _ => (run e.1).map fun p => ((r.seq, r.head, p), e.2)
    | [] => []
  ((parts.map fun x => x.1).eraseDups).foldl (fun t k =>
    let ls := (parts.filter fun x => decide (x.1 = k)).map fun x => x.2
    t.inc (Key.lufPageCnt (luffs.getD (ls.foldl min (ls.getD 0 0)) 0))) s1

/-! ### ATTN performed -/

/-- A row's query elements. -/
def State.queryElems (s : State) (m : Mac) (lists : List (List Nat)) (r : AttnRow) : List Fp :=
  let a := (m.operand 0x20).at_ (lists.getD 0 []) r.seq + r.tok * (m.operand 0x20).ld + 2 * (r.q * m.headDim)
  (List.range m.headDim).map fun d => fmtBf.decode (s.rdNat (a + 2 * d) 2)

/-- A complete row's output, or its partial record, written. -/
def State.writeRowResult (s : State) (m : Mac) (lists : List (List Nat)) (r : AttnRow) (rec_ : List Byte) (out : Fmt → List Nat)
    (bad : Bool) (luff : Nat) : State :=
  let s1 := if bad then s.inc (Key.lufNanCnt luff) else s
  if m.partial_ then s1.wr ((m.operand 0x50).at_ (lists.getD 2 []) 0 + r.no * recSize m) rec_
  else
    let es := if m.fmtO = 0 then 2 else 4
    let a := (m.operand 0x50).at_ (lists.getD 2 []) r.seq + r.tok * (m.operand 0x50).ld + es * (r.q * m.headDim)
    s1.wr a ((out (if m.fmtO = 0 then fmtBf else fmt32)).flatMap fun v => leBytes v es)

/-- The pages of a row with their unmasked slots. -/
def State.rowScores (s : State) (m : Mac) (bounds : List Nat) (lists : List (List Nat)) (seqs : List AttnSeq) (r : AttnRow) :
    List (KeyPage × List Slot) :=
  let q := seqs.getD r.seq { pt := 0, pages := 0, len := 0 }
  let qs := s.queryElems m lists r
  (rowPages m bounds q).map fun p => let k := s.keyPage m q r.head p; (k, s.rowSlots m k r qs)

/-- One row of an ATTN macro. `s` is the state before the macro, `t` the one written to. -/
def State.attnRow (s t : State) (m : Mac) (bounds : List Nat) (lists : List (List Nat)) (seqs : List AttnSeq) (luff : Nat)
    (r : AttnRow) : State :=
  let l := s.rowScores m bounds lists seqs r
  let at_ := (m.operand 0x68).at_ (lists.getD 3 []) 0 + r.no * recSize m
  let dim := m.headDim
  let done := rowCompletes m bounds r
  if m.pass = 0 then
    let x := onlineRow m (if m.first then Online.zero dim else readOnline s at_ dim) l
    if done then t.writeRowResult m lists r (onlineBytes x) (fun f => onlineOut f x) x.l.isNan luff
    else t.wr at_ (onlineBytes x)
  else if m.pass = 1 then
    let x := maxRow m (if m.first then ⟨.inf true, 0, true, 0, []⟩ else readExact s at_ 0) l
    t.wr at_ (exactHead x)
  else
    let st := if m.pass = 3 then maxRow m ⟨.inf true, 0, true, 0, []⟩ l else readExact s at_ dim
    let st1 : Exact := if m.first then { st with l := 0, a := List.replicate dim 0 } else st
    let x := sumRow st1 l
    if done then t.writeRowResult m lists r (exactBytes x) (fun f => exactOut f x) x.m.isNan luff
    else t.wr at_ (exactBytes x)

/-- A decode sequence whose reads met a dropped page carries approx (R312). -/
def State.carryApprox (s : State) (m : Mac) (w : Walk) (seqs : List AttnSeq) : State :=
  seqs.zipIdx.foldl (fun t q =>
    let gone := (List.range q.1.pages).any fun p =>
      !(s.pte (s.attnEntry m q.1 p)).present && !(m.window && decide (256 * q.1.pageNo p + 255 + m.win ≤ q.1.len - 1))
    match w.tags[q.2]? with
    | some g => match t.req w.part g with
      | some r => if gone then t.setReq { r with approx := true } else t
      | none => t
    | none => t) s

/-! ### Attention mass (R307) -/

/-- x × 2^y / z as FP32, rounded once (DESIGN CHOICE: R307 names no rounding). -/
def massOf (x : Dy) (z : Dy) : Nat := if z.m = 0 then 0 else fmt32.encode (x.quotient z)

/-- The mass of a complete row on each of its pages. A NaN row contributes 0. -/
def State.rowMass (s : State) (m : Mac) (bounds : List Nat) (lists : List (List Nat)) (seqs : List AttnSeq) (r : AttnRow) :
    List PageMass :=
  let q := seqs.getD r.seq { pt := 0, pages := 0, len := 0 }
  let l := s.rowScores m bounds lists seqs r
  let run := l.filter fun e => !blockSkips m [r] e.1.no
  let dim := m.headDim
  let entry := fun (k : KeyPage) (v : Nat) => ({ entry := attnOwn m q k.ix, head := r.head, mass := v } : PageMass)
  if m.pass = 0 then
    let x := onlineRow m (Online.zero dim) l
    run.map fun e =>
      let y := pageState dim e.1 e.2
      entry e.1 (if x.l.isNan ∨ e.2 = [] then 0 else massOf ((exactMul y.l (expDiff y.m x.m)).toDy) x.l.toDy)
  else
    let st := maxRow m ⟨.inf true, 0, true, 0, []⟩ l
    let x := sumRow { st with l := 0, a := [] } l
    run.map fun e =>
      entry e.1 (if x.m.isNan then 0 else massOf (Dy.ofNat (sumRow { st with l := 0, a := [] } [e]).l) (Dy.ofNat x.l))

/-- The masses of a decode macro kept for the end of its step. Those of a SHROUD sequence are known only with the home's final
states (17 R415). -/
def State.keepMasses (s : State) (t : State) (m : Mac) (w : Walk) (bounds : List Nat) (lists : List (List Nat)) (seqs : List AttnSeq)
    (rows : List AttnRow) : State :=
  if m.mass = false ∨ m.partial_ = true then t
  else (rows.filter (rowCompletes m bounds)).foldl (fun u r =>
    match (w.tags[r.seq]?).bind fun g => u.req w.part g with
    | some x => u.setReq { x with masses := x.masses ++ s.rowMass m bounds lists seqs r }
    | none => u) t

/-! ### What a Luff meets when it reads (R290, R312, R314; 09 R193, R202) -/

/-- The pages that a macro reads: the number of the sequence, its entry, and the entry that is authoritative. -/
def State.attnReads (s : State) (m : Mac) (bounds : List Nat) (seqs : List AttnSeq) (rows : List AttnRow) : List (Nat × Nat × Nat) :=
  ((attnPieces m bounds seqs rows).flatMap fun x => match x.rows with
    | r :: _ => (x.run m).map fun p => (r.seq, attnOwn m x.seq p, s.attnEntry m x.seq p)
    | [] => []).eraseDups

/-- The parts of a page that a macro reads: the keys and values of its heads. -/
def State.pageParts (s : State) (m : Mac) (a : Nat) : List (Nat × Nat) :=
  let base := 4096 * (s.pte a).first
  let part := 256 * m.headDim
  m.heads.flatMap fun h => [(base + h * part, part), (base + (m.shardHeads + h) * part, part)]

/-- One page read: the sequence that meets a line or an entry that fails ends, corrected lines are counted. -/
def State.readKeyPage (s : State) (m : Mac) (w : Walk) (x : Nat × Nat × Nat) : State :=
  match s.entryBad x.2.1 with
  | some t => t
  | none =>
    if (s.pte x.2.2).present = false then s
    else match s.poisoned (scaleOf x.2.2) 16, (s.pageParts m x.2.2).findSome? fun r => s.poisoned r.1 r.2 with
      | some l, _ => s.entryUe x.2.1 l
      | none, some l => match w.tags[x.1]? with
        | some g => s.lineUeFor l w.part g
        | none => s.lineUe l
      | none, none => s.readRanges (s.pageParts m x.2.2)

/-- A macro's pins that must wait now: they are counted once. -/
def State.attnPinWaits (s : State) (w : Walk) (x : MacroSt) : Nat :=
  let m : Mac := x.word
  if m.op ≠ 3 then 0
  else
    let seqs := s.attnSeqs w x.index m x.bounds x.lists
    let rows := (attnRows m x.bounds seqs).filter (rowWorks m x.bounds)
    ((s.attnReads m x.bounds seqs rows).filter fun r => s.pinWaits r.2.1).length

/-- An ATTN macro performed: every page is pinned, read and unpinned in the step. -/
def State.performAttn (s0 : State) (b : BoundPlan) (w : Walk) (x : MacroSt) : State :=
  let m : Mac := x.word
  let seqs := s0.attnSeqs w x.index m x.bounds x.lists
  let rows := (attnRows m x.bounds seqs).filter (rowWorks m x.bounds)
  let s := (s0.attnReads m x.bounds seqs rows).foldl (fun t r => t.readKeyPage m w r) s0
  let luffs := macLuffs b m
  let ps := attnPieces m x.bounds seqs rows
  let s1 := rows.foldl (fun t r => s0.attnRow t m x.bounds x.lists seqs (rowLuff luffs m ps r) r) s
  let s2 := (s1.countLuffs luffs m ps).carryApprox m w seqs
  s0.keepMasses s2 m w x.bounds x.lists seqs rows

/-- Whether rows of the macro's state remain incomplete after it (R303). -/
def attnLeaves (m : Mac) (bounds : List Nat) : Bool :=
  let (pq, pl) := queryPages bounds
  if m.decode ∨ m.kpMode = 0 then !m.final
  else if m.kpMode = 1 then true else decide (pq + m.diag < pl) || (!m.final && decide (pq + m.diag = pl))

end Sys2Proof.Machine
end

