-- ==== Sys2Proof/Machine/Net.lean ====
section
/-! DEFINITION. Bundles, their roles and states, the leaves they reach, and the rotation positions of a
partition (18 R431, R440, R449; 19 R464, R467). -/

namespace Sys2Proof.Machine

/-- The states of a bundle (18 Table 18.7). -/
abbrev bsDown : Nat := 0
abbrev bsEqualise : Nat := 1
abbrev bsLock : Nat := 2
abbrev bsIdent : Nat := 3
abbrev bsHeld : Nat := 4
abbrev bsUp : Nat := 5

/-- The hidden part of bundle `b`. -/
def State.bundle (s : State) (b : Nat) : Bundle := SMap.get (fun _ => {}) s.links.bundles b
def State.setBundle (s : State) (b : Nat) (x : Bundle) : State :=
  { s with links := { s.links with bundles := SMap.set (fun _ => {}) s.links.bundles b x } }

/-- The state of a bundle, and the sheeting code in force. -/
def State.bundleState (s : State) (b : Nat) : Nat := s.fld (Key.lnkStat b) 31 29
def State.sheet (s : State) : Nat := s.fld Key.lnkSheet 2 0

/-- The role of a bundle under a sheeting code (18 Table 18.2): 1 left, 2 right, 3 Stay A, 4 Stay B. -/
def roleOf (code b : Nat) : Nat :=
  let stay := if b < 6 then 3 else 4
  if code = 0 then (if b % 6 < 3 then 1 else 2)
  else if code = 1 then (if b % 6 < 2 then 1 else if b % 6 < 4 then 2 else stay)
  else if code = 2 then (if b = 0 ∨ b = 1 ∨ b = 6 then 1 else if b = 2 ∨ b = 7 ∨ b = 8 then 2 else stay)
  else if code = 3 then (if b % 6 = 0 then 1 else if b % 6 = 1 then 2 else stay)
  else stay

/-- The role of a bundle of this package. -/
def State.role (s : State) (b : Nat) : Nat := roleOf s.sheet b

/-- A Stay bundle. -/
def State.isStay (s : State) (b : Nat) : Bool := decide (3 ≤ s.role b)

/-- The coordinates of a bundle's peer, and whether the peer is a switch (18 Table 18.10). -/
def State.peerCoords (s : State) (b : Nat) : Nat := s.fld (Key.lnkPeerId b) 31 16
def State.peerSwitch (s : State) (b : Nat) : Bool := decide (s.fld (Key.lnkPeerId b) 3 0 = 1)

/-- All bundles. -/
abbrev allBundles : List Nat := List.range 12

/-- The Stay bundles that are UP and face a leaf. -/
def State.leafBundles (s : State) : List Nat :=
  allBundles.filter fun b => s.isStay b && decide (s.bundleState b = bsUp) && s.peerSwitch b

/-- The leaf ID that a Stay bundle reaches: the slot byte of its peer's coordinates (19 Table 19.4). -/
def State.leafOf (s : State) (b : Nat) : Nat := s.peerCoords b % 256

/-- The leaves reached (19 R464). -/
def State.leaves (s : State) : List Nat := (s.leafBundles.map s.leafOf).eraseDups

/-- A message sent to every leaf that the package reaches. -/
def State.toLeaves (s : State) (name : String) (args : List Nat) : State :=
  s.leafBundles.foldl (fun t b => t.emit (.link b (.leaf name args))) s

/-- Owner of rotation position `i` of every bundle; 0xFF for none (18 R440). -/
def State.rotOwner (s : State) (i : Nat) : Nat := SMap.get (fun _ => 0xFF) s.links.rot i

/-- The positions that a partition owns. -/
def State.rotOf (s : State) (p : Nat) : List Nat := (List.range 256).filter fun i => decide (s.rotOwner i = p)

/-- The rotation positions of a partition given up, and `n` taken: the lowest free ones that are not 16q (18 R440). -/
def takePositions (r : SMap Nat) (p n : Nat) : SMap Nat :=
  let r0 := r.filter fun e => decide (e.2 ≠ p)
  let free := (List.range 256).filter fun i => decide (i % 16 ≠ 0) && decide (SMap.get (fun _ => 0xFF) r0 i = 0xFF)
  (free.take n).foldl (fun m i => SMap.set (fun _ => 0xFF) m i p) r0

/-- The positions of a partition: on every bundle as many as its link share, on every ratline direction as its near share (18 R440,
21 R513). -/
def State.takeRotation (s : State) (p link near : Nat) : State :=
  { s with links := { s.links with rot := takePositions s.links.rot p link }, clk := { s.clk with rot := takePositions s.clk.rot p near } }

end Sys2Proof.Machine
end

