-- ==== Sys2Proof/Machine/RingOps.lean ====
section
/-! DEFINITION. Ring entries: their state, the requests on them, and their failing and fencing (17 R404, R424 to
R429). -/

namespace Sys2Proof.Machine

/-- The states of a ring entry (17 Table 17.4). -/
abbrev rgIdle : Nat := 0
abbrev rgForming : Nat := 1
abbrev rgReady : Nat := 2
abbrev rgRecovering : Nat := 3
abbrev rgFailed : Nat := 4
abbrev rgFenced : Nat := 5

/-- The neighbours of a ring entry. -/
def State.ringLeft (s : State) (k : Nat) : Nat := s.fld (Key.shrRingLeft k) 15 0
def State.ringRight (s : State) (k : Nat) : Nat := s.fld (Key.shrRingRight k) 15 0

/-- A message to a neighbour. -/
def State.toLeft (s : State) (k : Nat) (name : String) (args : List Nat) : State :=
  s.emit (.routed (BitVec.ofNat 16 (s.ringLeft k)) (.ring name (s.ringHandle k :: args)))
def State.toRight (s : State) (k : Nat) (name : String) (args : List Nat) : State :=
  s.emit (.routed (BitVec.ofNat 16 (s.ringRight k)) (.ring name (s.ringHandle k :: args)))

/-- An entry in a state with a reason; IRQ_STAT bit 2 is set at every change (R429). -/
def State.setRingState (s : State) (k st reason : Nat) : State :=
  let s1 := (s.setFld (Key.shrRingStat k) 31 29 st).setFld (Key.shrRingStat k) 28 24 reason
  if s.ringState k = st then s1 else s1.irq pgShr 2

/-- FLT_INFO.detail of the SHR page (R429). -/
def ringDetail (k member x : Nat) : Nat := k * 2 ^ 24 + member * 2 ^ 16 + x

/-- SHR_LAST_EVT: 1 STALL, 2 RECOVERED, 3 FAILED, 4 FENCED (Table 17.3). -/
def State.ringEvent (s : State) (k member ev : Nat) : State :=
  s.setReg Key.shrLastEvt (BitVec.ofNat 32 (ringDetail k member ev))

/-- A READY entry whose passes go on: no ring paired with it recovers (R422). -/
def State.ringGoes (s : State) (k : Nat) : Bool := decide (s.ringState k = rgReady) && (s.ring k).pairedSince.isNone

/-- The live requests of a ring entry, in fetch order. -/
def State.ringReqs (s : State) (k : Nat) : List Req :=
  s.reqs.filter fun r => r.active && decide (s.reqRing r = some k)

/-- The home of a request's ring: member (P − 1) mod n (R408). -/
def State.homeOf (s : State) (k : Nat) (r : Req) : Nat := (ceilDiv r.d.count 256 - 1) % max 1 (s.ringSize k)

/-- Requests of a ring complete with FAULT_RING and no RING_END: every member hears of the failure itself. -/
def State.endRing (s : State) (rs : List Req) (dt : Nat) : State :=
  rs.foldl (fun t r => t.finish r stFaultRing dt none) s

/-- An entry fails: the event, RECOVER_FAIL where the FAULT_RING detail is 0x02, 0x07, 0x08 or 0x09, and its
requests. -/
def State.ringFails (s : State) (k member dt : Nat) : State :=
  let s1 := (s.setRingState k rgFailed (s.fld (Key.shrRingStat k) 28 24)).ringEvent k member 3
  let s2 := if dt ∈ [0x02, 0x07, 0x08, 0x09] then s1.latch pgShr 2 (ringDetail k member dt) else s1
  let s3 := s2.setRing k { s2.ring k with running := false, stalled := none, pairedSince := none, readies := [], firstReady := none, sentReady := none }
  s3.endRing (s.ringReqs k) dt

/-- A stalled package fences itself: its requests of the ring complete with FAULT_RING 0x05 without RING_END, and the
entry becomes FENCED (R424). -/
def State.fenceRing (s : State) (k : Nat) : State :=
  let m := s.ringMember k
  let s1 := ((s.setRingState k rgFenced 0).ringEvent k m 4).latch pgShr 3 (ringDetail k m 0x05)
  let s2 := s1.setRing k { s1.ring k with running := false, stalled := none, pairedSince := none, readies := [], firstReady := none, sentReady := none }
  s2.endRing (s.ringReqs k) 0x05

end Sys2Proof.Machine
end

