-- ==== Sys2Proof/Machine/Xfer.lean ====
section
/-! DEFINITION. The collective engine and the XFER macro (18 R443 to R448, R451; 19 R468, R469): groups, routes, the
cutting of messages into segments, and what the waiting macros make of the messages that arrive. -/

namespace Sys2Proof.Machine

/-! ### Groups (R445, Table 18.11) -/

def State.colValid (s : State) (g : Nat) : Bool := s.bit (Key.colGrpCfg g) 0
def State.colHandle (s : State) (g : Nat) : Nat := s.fld (Key.colGrpCfg g) 31 16
def State.colRank (s : State) (g : Nat) : Nat := s.fld (Key.colGrpCfg g) 15 11
def State.colSize (s : State) (g : Nat) : Nat := s.fld (Key.colGrpCfg g) 10 5
def State.colLgroup (s : State) (g : Nat) : Nat := s.fld (Key.colGrpCfg g) 4 2
def State.colPart (s : State) (g : Nat) : Nat := s.fld (Key.colGrpPart g) 7 0
/-- The coordinates of rank `r`. -/
def State.colMember (s : State) (g r : Nat) : Nat :=
  if r % 2 = 0 then s.fld (Key.colGrpMbr g (r / 2)) 15 0 else s.fld (Key.colGrpMbr g (r / 2)) 31 16
def State.colMembers (s : State) (g : Nat) : List Nat := (List.range (s.colSize g)).map (s.colMember g)

/-- The entry of a partition with a logical index. -/
def State.groupFor (s : State) (p lg : Nat) : Option Nat :=
  (List.range 32).find? fun g => s.colValid g && decide (s.colPart g = p) && decide (s.colLgroup g = lg)

/-- The entry with a message's handle that lists its source (R444). -/
def State.groupOf (s : State) (handle src : Nat) : Option Nat :=
  (List.range 32).find? fun g => s.colValid g && decide (s.colHandle g = handle) && decide (src ∈ s.colMembers g)

/-! ### The XFER macro's operands (R446) -/

/-- Rows of the macro: its field, b0 or b3. -/
def xferRows (w : Walk) (m : Mac) : Nat :=
  let c := dfield m 0x11 0 2
  if c = 0 then m.u32 0x14 else if c = 1 then (w.regs.getD 0 0).toNat else (w.regs.getD 3 0).toNat

/-- Bytes of a row: elements, or one stats record. -/
def xferRowBytes (m : Mac) : Nat := if m.xkind = 6 then 64 else m.u32 8 * fmtBytes m.xfmt

/-- The step between rows of an operand. -/
def Operand.step (o : Operand) (n : Nat) : Nat := if o.ld = 0 then n else o.ld

/-- The macro writes an output on this rank: all kinds but SEND, and GATHER only at its root. -/
def xferWrites (m : Mac) (rank : Nat) : Bool :=
  if m.xkind = 1 then false else if m.xkind = 5 then decide (m.peer = rank) else true

/-- Rows of the output: one block for each rank under ALLGATHER and GATHER. -/
def xferOutRows (m : Mac) (rows size : Nat) : Nat := if m.xkind = 4 ∨ m.xkind = 5 then rows * size else rows

/-- An XFER macro at issue. Its bounds are its rows, its group, and its request's tag. -/
def State.resolveXfer (s : State) (b : BoundPlan) (w : Walk) (m : Mac) : Resolved :=
  match s.groupFor w.part m.lgroup with
  | none => { err := 3 }
  | some g =>
    let rows := xferRows w m
    let n := xferRowBytes m
    let rank := s.colRank g
    let size := s.colSize g
    let os := m.operand 0x20
    let od := m.operand 0x38
    let out := xferOutRows m rows size
    let bounds := [rows, g, (w.tags.headD 0).toNat]
    if rows = 0 ∨ n = 0 then { idle := true, bounds := bounds }
    else if 16777216 < rows ∨ ((m.xkind = 1 ∨ m.xkind = 2 ∨ m.xkind = 5) ∧ size ≤ m.peer)
        ∨ (m.xkind ≠ 2 ∧ 1 < rows ∧ os.step n < n) ∨ (xferWrites m rank = true ∧ 1 < out ∧ od.step n < n) then { err := 1 }
    else
      let ls := s.readList os 1
      let ld := s.readList od 1
      let rs := if m.xkind = 2 then [] else [matrixRange (os.at_ ls 0) (os.step n) rows n]
      let rd := if xferWrites m rank then [matrixRange (od.at_ ld 0) (od.step n) out n] else []
      let words := listWords os 1 ++ listWords od 1
      { err := if s.allowed b os rs && s.allowed b od rd && words.all (s.owns b.part) then 0 else 2
        bounds := bounds, lists := [ls, ld], reads := rs ++ words, writes := rd }

/-- The rows of this rank, packed (op_src). -/
def State.xferOwn (s : State) (x : MacroSt) : List Byte :=
  let m : Mac := x.word
  let o := m.operand 0x20
  let n := xferRowBytes m
  (List.range (x.bounds.getD 0 0)).flatMap fun r => s.rd (o.at_ (x.lists.getD 0 []) 0 + r * o.step n) n

/-- Packed rows written from row `r0` of op_dst on. -/
def State.xferPut (s : State) (x : MacroSt) (r0 : Nat) (bs : List Byte) : State :=
  let m : Mac := x.word
  let o := m.operand 0x38
  let n := xferRowBytes m
  (List.range (bs.length / max 1 n)).foldl (fun t r =>
    t.put (o.at_ (x.lists.getD 1 []) 0 + (r0 + r) * o.step n) (cut bs (r * n) n)) s

/-! ### Routes (19 R468, R469) -/

/-- The Shroud bundles of a role that are UP and whose peer has some coordinates. -/
def State.shroudTo (s : State) (role dst : Nat) : List Nat :=
  allBundles.filter fun b => decide (s.role b = role) && decide (s.bundleState b = bsUp) && decide (s.peerCoords b = dst)

/-- A ring entry that is READY or FORMING has a neighbour on one side. -/
def State.neighbour (s : State) (left : Bool) (dst : Nat) : Bool :=
  (List.range 8).any fun k => (decide (s.ringState k = rgReady) || decide (s.ringState k = rgForming))
    && decide ((if left then s.ringLeft k else s.ringRight k) = dst)

/-- A destination's rails as the leaves last reported them; bit i of plane A or B. -/
def State.railsTo (s : State) (dst : Nat) : Nat × Nat :=
  match s.top.reach.find? fun e => decide (e.1 = dst) with
  | some e => e.2
  | none => (0, 0)

/-- A Stay bundle takes the rail of its actual peer (R473). -/
def State.railReaches (s : State) (b dst : Nat) : Bool :=
  let l := s.leafOf b
  let r := s.railsTo dst
  if l < 8 then r.1.testBit l else r.2.testBit (l - 8)

/-- The bundles that carry a message. -/
def State.routeTo (s : State) (dst : Nat) : List Nat :=
  let l := if s.neighbour true dst then s.shroudTo 1 dst else []
  let r := if s.neighbour false dst then s.shroudTo 2 dst else []
  if l ++ r ≠ [] then l ++ r else s.leafBundles.filter fun b => s.railReaches b dst

/-! ### Messages cut into segments (R443, Table 18.5) -/

/-- Payload bytes of a flit, and data bytes of a segment: 64 flits less the header and the CRC-32C. -/
abbrev flitRoom : Nat := 236
abbrev segRoom : Nat := 64 * 236 - 36
abbrev msgRoom : Nat := 16777216

/-- A flit without its sequence number, acknowledgement, credits and CRC. -/
def dataFlit (dst src vc : Nat) (first last : Bool) (payload : List Byte) : BitVec 2048 :=
  BitVec.ofNat 2048 (2 ^ 92 + vc * 2 ^ 88 + dst % 65536 * 2 ^ 48 + src % 65536 * 2 ^ 32 + payload.length * 2 ^ 8
    + (if first then 2 ^ 7 else 0) + (if last then 2 ^ 6 else 0) + leNat payload * 2 ^ 96)

/-- The flits of a segment. -/
def segFlits (dst src vc : Nat) (header data : List Byte) : List (BitVec 2048) :=
  let all := header ++ data ++ leBytes (crc32c data) 4
  let n := ceilDiv all.length flitRoom
  (List.range n).map fun i => dataFlit dst src vc (decide (i = 0)) (decide (i + 1 = n)) (cut all (i * flitRoom) flitRoom)

/-- A list cut into parts of at most `n`. -/
def cutParts (l : List Byte) (n : Nat) : List (List Byte) := (List.range (ceilDiv l.length n)).map fun i => cut l (i * n) n

/-- The coordinates of this package (19 R461). -/
def State.coords (s : State) : Nat := if s.bit Key.topCoord 31 then s.fld Key.topCoord 15 0 else 0xFFFF

/-- A message of at most 16 MiB queued on the bundles of a route, round-robin. -/
def State.queueMsg (s : State) (owner : Nat × Nat) (retires : Bool) (h : MsgHead) (route : List Nat) (data : List Byte) : State :=
  let id := SMap.get (fun _ => 0) s.links.msgIds h.vc
  let segs := cutParts data segRoom
  let head := fun (i : Nat) => leBytes id 4 ++ leBytes data.length 4 ++ leBytes i 2 ++ leBytes segs.length 2 ++ leBytes h.key 4
    ++ leBytes h.tag 8 ++ leBytes h.handle 2 ++ [BitVec.ofNat 8 h.xkind, BitVec.ofNat 8 h.fmt] ++ leBytes 0 4
  let num := s.links.msgs
  let tx := segs.zipIdx.map fun e => ({
    msg := num, index := e.2, bundle := route.getD ((s.links.spread + e.2) % max 1 route.length) 0, vc := h.vc, part := some h.part
    dst := BitVec.ofNat 16 h.dst, flits := segFlits h.dst s.coords h.vc (head e.2) e.1
    splice := (s.req h.part (BitVec.ofNat 64 h.tag)).map fun r => r.spliced } : TxSeg)
  { s with links := { s.links with
    tx := s.links.tx ++ tx
    txMsgs := s.links.txMsgs ++ [⟨num, owner, retires, h.vc, BitVec.ofNat 16 h.dst⟩]
    msgs := num + 1, msgIds := SMap.set (fun _ => 0) s.links.msgIds h.vc ((id + 1) % 2 ^ 32)
    spread := s.links.spread + segs.length } }

/-- A destination that no rail reaches: NO_ROUTE latches (R469). -/
def State.noRoute (s : State) (dst : Nat) : State := s.latch pgTop 3 dst

/-- A walk's requests whose traffic no rail carries end with NO_ROUTE, and are counted (R469). -/
def State.cutWalk (s : State) (w : Walk) : State :=
  let n := (w.tags.filter fun g => match s.req w.part g with
    | some r => r.active
    | none => false).length
  (s.failWalk w stFaultLink 0x01).addCnt Key.topNorouteCnt n

/-- Data sent to a rank, in messages of at most 16 MiB; `false` when no route leads there. -/
def State.sendTo (s : State) (owner : Nat × Nat) (retires : Bool) (h : MsgHead) (data : List Byte) : State × Bool :=
  match s.routeTo h.dst with
  | [] => (s.noRoute h.dst, false)
  | r => ((cutParts data msgRoom).foldl (fun t d => t.queueMsg owner retires h r d) s, true)

/-! ### What a waiting macro makes of its messages (R447, R448) -/

/-- The ranks whose data the macro needs. -/
def xferNeeds (m : Mac) (rank size : Nat) : List Nat :=
  if m.xkind = 1 then []
  else if m.xkind = 2 then [m.peer]
  else if m.xkind = 5 ∧ m.peer ≠ rank then []
  else (List.range size).filter fun r => decide (r ≠ rank)

/-- The kind a message must carry for the macro to take it: a RECV takes what a SEND sent. -/
def xferTakes (m : Mac) : Nat := if m.xkind = 2 then 1 else m.xkind

/-- The messages in the inbox that a macro takes from a rank, in their order. -/
def State.xferFrom (s : State) (x : MacroSt) (r : Nat) : List RxMsg :=
  let m : Mac := x.word
  let g := x.bounds.getD 1 0
  let n := ceilDiv (x.bounds.getD 0 0 * xferRowBytes m) msgRoom
  (s.links.inbox.filter fun q => decide (q.src.toNat = s.colMember g r) && decide (q.handle = s.colHandle g)
    && decide (q.vc = m.xvc) && decide (q.key = m.u32 0xC) && decide (q.tag.toNat = x.bounds.getD 2 0)
    && decide (q.xkind = xferTakes m)).take n

/-- The bytes of a complete message. -/
def RxMsg.data (q : RxMsg) : List Byte :=
  (List.range q.count).flatMap fun i => match q.parts.find? fun e => decide (e.1 = i) with
    | some e => e.2
    | none => []

/-- A message's length or format differs from what the macro expects (R448). -/
def shapeBad (m : Mac) (total : Nat) (ms : List RxMsg) : Bool :=
  ms.zipIdx.any fun e => decide (e.1.fmt ≠ m.xfmt) || decide (e.1.total ≠ min msgRoom (total - e.2 * msgRoom))

/-- The elements of packed data in a format. -/
def elems (fmt : Nat) (bs : List Byte) : List Nat :=
  (List.range (bs.length / fmtBytes fmt)).map fun i => leAt bs (i * fmtBytes fmt) (fmtBytes fmt)

/-- An element summed over the ranks in ascending order: each addition rounded once in FP32, or an exact INT32 sum
that saturates (R447). -/
def reduceElem (fmt : Nat) (xs : List Nat) : Nat :=
  if fmt = 6 then
    let v := (xs.map fun x => signed x 32).sum
    ((max (-2 ^ 31) (min (2 ^ 31 - 1) v)) % 2 ^ 32).toNat
  else match xs with
    | [] => 0
    | x :: rest => (fmtOf fmt).encode (rest.foldl (fun a y => Fp.add fmt32 a (elemFp fmt y)) (elemFp fmt x))

/-- The combined fields of a row's stats records over the ranks, as (offset, bytes) (R447). -/
def statsFields (op : Nat) (rs : List (List Byte)) : List (Nat × List Byte) :=
  let sumAt := fun (off n : Nat) (sg : Bool) =>
    leBytes (((rs.map fun r => if sg then signed (leAt r off n) (8 * n) else (leAt r off n : Int)).sum) % 2 ^ (8 * n)).toNat n
  if op = 1 then
    let mx := (rs.map fun r => f32 (leAt r 0 4)).foldl Fp.max (.inf true)
    [(0, leBytes (toF32 mx) 4), (4, leBytes (if (rs.all fun r => decide (leAt r 4 4 % 2 = 1)) then 1 else 0) 4)]
  else if op = 2 then [(8, sumAt 8 8 false)]
  else if op = 3 then
    let es := rs.map fun r => signed (leAt r 0 2) 16
    let e := es.foldl max (es.headD 0)
    [(0, leBytes (e % 65536).toNat 2), (2, leBytes (if (rs.any fun r => decide (leAt r 2 2 % 2 = 1)) then 1 else 0) 2)]
  else [(8, sumAt 8 24 true), (0x20, sumAt 0x20 24 false)]

/-- The output of a macro whose messages are in: `ds` holds every rank's data in ascending rank order. -/
def State.xferOutput (s : State) (x : MacroSt) (rank : Nat) (ds : List (List Byte)) : State :=
  let m : Mac := x.word
  let rows := x.bounds.getD 0 0
  if m.xkind = 2 then s.xferPut x 0 (ds.headD [])
  else if m.xkind = 3 then
    let es : List (List Nat) := ds.map (elems m.xfmt)
    let n := (es.headD []).length
    s.xferPut x 0 ((List.range n).flatMap fun i => leBytes (reduceElem m.xfmt (es.map fun l => l.getD i 0)) (fmtBytes m.xfmt))
  else if m.xkind = 4 ∨ (m.xkind = 5 ∧ m.peer = rank) then
    ds.zipIdx.foldl (fun t d => t.xferPut x (d.2 * rows) d.1) s
  else if m.xkind = 6 then
    let o := m.operand 0x38
    (List.range rows).foldl (fun t r =>
      (statsFields m.statsOp (ds.map fun d => cut d (64 * r) 64)).foldl (fun u f =>
        u.put (o.at_ (x.lists.getD 1 []) 0 + r * o.step 64 + f.1) f.2) t) s
  else s

/-- A macro no longer waits. -/
def State.xferDone (s : State) (x : MacroSt) : State :=
  let s1 := { s with links := { s.links with waits := s.links.waits.filter fun e => !(decide (e.1 = x.spar) && decide (e.2.1 = x.slot)) } }
  s1.setFlight { x with done := true }

/-- A fault of the COL page ends the requests of a macro (Table 18.11). -/
def State.xferFail (s : State) (x : MacroSt) (cause dt : Nat) : State :=
  let s1 := (s.latch pgCol cause (x.bounds.getD 1 0)).xferDone x
  match s1.walkAt x.spar x.walk with
  | some w => s1.failWalk w stFaultLink dt
  | none => s1

/-- A waiting macro taken up: SHAPE where a message does not fit it, its output where all are in. -/
def State.tryXfer (s : State) (x : MacroSt) : State :=
  let m : Mac := x.word
  let g := x.bounds.getD 1 0
  let rank := s.colRank g
  let need := xferNeeds m rank (s.colSize g)
  let total := x.bounds.getD 0 0 * xferRowBytes m
  let got : List (Nat × List RxMsg) := need.map fun r => (r, s.xferFrom x r)
  let used := got.flatMap fun e => e.2
  if (got.any fun e => shapeBad m total e.2) then
    { s with links := { s.links with inbox := s.links.inbox.filter fun q => decide (q ∉ used) } }.xferFail x 2 0x05
  else if (got.all fun e => decide (e.2.length = ceilDiv total msgRoom)) then
    let own := s.xferOwn x
    let ranks := if m.xkind = 2 then [m.peer] else List.range (s.colSize g)
    let ds := ranks.map fun r => match got.find? fun e => decide (e.1 = r) with
      | some e => e.2.flatMap RxMsg.data
      | none => own
    let s1 := { s with links := { s.links with inbox := s.links.inbox.filter fun q => decide (q ∉ used) } }
    (s1.xferOutput x rank ds).xferDone x
  else s

/-- Every waiting macro is looked at, oldest first. -/
def State.tryWaits (s : State) : State :=
  s.links.waits.foldl (fun t e => match t.fab.flight.find? fun x => decide (x.spar = e.1) && decide (x.slot = e.2.1) with
    | some x => t.tryXfer x
    | none => { t with links := { t.links with waits := t.links.waits.filter fun y => decide (y ≠ e) } }) s

/-- Data sent that a SHROUD request's next stage consumes is kept on the request's ring entry (17 R406). -/
def State.keepSent (s : State) (w : Walk) (h : MsgHead) (data : List Byte) : State :=
  w.tags.foldl (fun t g => match (t.req w.part g).bind fun r => t.reqRing r with
    | some k => let y := t.ring k
      t.setRing k { y with kept := (y.kept.filter fun e => (t.req w.part e.tag).isSome) ++ [⟨g, h, data⟩] }
    | none => t) s

/-- Kept activations of a request sent again to the member `dst` of the next stage (17 R406, R426). -/
def State.resendKept (s : State) (k : Nat) (tag : BitVec 64) (dst : Nat) : State :=
  ((s.ring k).kept.filter fun e => decide (e.tag = tag)).foldl (fun t e =>
    (t.sendTo (0, 64) false { e.head with dst := dst } e.data).1) s

/-- An XFER macro performed: its data leaves, and it waits for what it needs. A destination that no rail reaches
completes its requests with NO_ROUTE. -/
def State.performXfer (s : State) (w : Walk) (x : MacroSt) : State :=
  let m : Mac := x.word
  let g := x.bounds.getD 1 0
  let rank := s.colRank g
  let size := s.colSize g
  let targets := if m.xkind = 1 then [m.peer] else if m.xkind = 2 then []
    else if m.xkind = 5 then (if m.peer = rank then [] else [m.peer])
    else (List.range size).filter fun r => decide (r ≠ rank)
  let retires := decide (m.xkind = 1) || (decide (m.xkind = 5) && decide (m.peer ≠ rank))
  let data := s.xferOwn x
  let head := fun (t : Nat) => ({ part := w.part, vc := m.xvc, dst := s.colMember g t, key := m.u32 0xC, tag := x.bounds.getD 2 0
                                  handle := s.colHandle g, xkind := m.xkind, fmt := m.xfmt } : MsgHead)
  let s0 := if m.xkind = 1 then s.keepSent w (head m.peer) data else s
  let r := targets.foldl (fun (a : State × Bool) t =>
    if a.2 then a.1.sendTo (x.spar, x.slot) retires (head t) data else a) (s0, true)
  if r.2 = false then (r.1.xferDone x).cutWalk w
  else if retires then r.1
  else
    let s1 := { r.1 with links := { r.1.links with waits := r.1.links.waits ++ [(x.spar, x.slot, s.tick)] } }
    s1.tryXfer x

end Sys2Proof.Machine
end

