-- ==== Sys2Proof/Machine/Link.lean ====
section
/-! DEFINITION. Glicor Link (18): flits and their retry, credits and rotation, segments and messages received,
training and the identity exchange, and what takes a bundle down. -/

namespace Sys2Proof.Machine

open Host

/-! ### Flits (R435, Table 18.3) -/

def flitField (f : BitVec 2048) (h l : Nat) : Nat := bitsOf f.toNat h l
def flitKind (f : BitVec 2048) : Nat := flitField f 95 92
def flitVc (f : BitVec 2048) : Nat := flitField f 91 88
def flitSeq (f : BitVec 2048) : Nat := flitField f 87 76
def flitAck (f : BitVec 2048) : Nat := flitField f 75 64
def flitSrc (f : BitVec 2048) : Nat := flitField f 47 32
def flitCvc (f : BitVec 2048) : Nat := flitField f 31 28
def flitCredits (f : BitVec 2048) : Nat := flitField f 27 16
def flitLen (f : BitVec 2048) : Nat := flitField f 15 8
def flitFirst (f : BitVec 2048) : Bool := decide (flitField f 7 7 = 1)
def flitLast (f : BitVec 2048) : Bool := decide (flitField f 6 6 = 1)

/-- The CRC-64 of a flit, over bytes 0 to 247. -/
def flitCrc (f : BitVec 2048) : Nat := crc64 (leBytes f.toNat 248)
def flitOk (f : BitVec 2048) : Bool := decide (flitField f 2047 1984 = flitCrc f)
def flitPayload (f : BitVec 2048) : List Byte := leBytes (flitField f (8 * 248 - 1) 96) (min 236 (flitLen f))

/-- A flit with its sequence number, acknowledgement, credits and CRC in place. -/
def sealFlit (f : BitVec 2048) (seq ack cvc credits : Nat) : BitVec 2048 :=
  let x := BitVec.ofNat 2048 (f.toNat % 2 ^ 1984 + seq % 4096 * 2 ^ 76 + ack % 4096 * 2 ^ 64 + cvc * 2 ^ 28 + credits % 4096 * 2 ^ 16)
  BitVec.ofNat 2048 (x.toNat + flitCrc x * 2 ^ 1984)

/-! ### Acknowledgements and credits (R437, R438) -/

/-- Credits of the peer for a VC of bundle `b`: what it advertised less what is in flight. -/
def State.credit (s : State) (b vc : Nat) : Nat :=
  let x := s.bundle b
  let flying := (SMap.get (fun _ => 0) x.sent vc + 4096 - SMap.get (fun _ => 0) x.returned vc) % 4096
  s.fld (Key.lnkVcCredit b vc) 27 16 - flying

/-- An acknowledgement covers a sequence number. -/
def covers (ack seq : Nat) : Bool := decide ((ack + 4096 - seq) % 4096 < 512)

/-- Segments of bundle `b` all of whose flits are sent and acknowledged leave; messages with no segment left are
acknowledged, and the macros that wait for no more than that are done (R448). -/
def State.settleTx (s : State) (b : Nat) : State :=
  let un := (s.bundle b).unacked
  let tx := s.links.tx.filter fun g => !(decide (g.bundle = b) && decide (g.sent = g.flits.length)
    && un.all fun f => !(decide (f.msg = g.msg) && decide (f.index = g.index)))
  let gone := s.links.txMsgs.filter fun m => tx.all fun g => decide (g.msg ≠ m.num)
  let left := s.links.txMsgs.filter fun m => decide (m ∉ gone)
  let s1 := { s with links := { s.links with tx := tx, txMsgs := left } }
  (gone.filter fun m => m.retires && left.all fun x => decide (x.owner ≠ m.owner)).foldl (fun t m =>
    match t.fab.flight.find? fun x => decide (x.spar = m.owner.1) && decide (x.slot = m.owner.2) with
    | some x => t.xferDone x
    | none => t) s1

/-- What every good flit carries: an acknowledgement and a credit count (R435). -/
def State.takeAck (s : State) (b ack cvc credits : Nat) : State :=
  let x := s.bundle b
  let un := x.unacked.filter fun f => !covers ack f.seq
  let x1 : Bundle := { x with
    unacked := un, again := x.again.filter fun f => !covers ack f.seq
    returned := if cvc < 6 then SMap.set (fun _ => 0) x.returned cvc credits else x.returned
    lastAck := if un.length < x.unacked.length then s.tick else x.lastAck
    stuck := if un.length < x.unacked.length then 0 else x.stuck }
  (s.setBundle b x1).settleTx b
def State.takeHeader (s : State) (b : Nat) (f : BitVec 2048) : State := s.takeAck b (flitAck f) (flitCvc f) (flitCredits f)

/-- A bundle exchanges flits: it is HELD or UP. -/
def State.bundleRuns (s : State) (b : Nat) : Bool := decide (s.bundleState b = bsHeld) || decide (s.bundleState b = bsUp)

/-- Every unacknowledged flit is sent again, in order (R437). -/
def State.replay (s : State) (b : Nat) : State :=
  let x := s.bundle b
  if x.unacked = [] then s
  else (s.setBundle b { x with
    again := x.unacked, lastAck := s.tick, stuck := x.stuck + 1
    replays := (x.replays.filter fun t => decide (s.tick < t + 1000000)) ++ [s.tick] }).inc (Key.lnkRetryCnt b)

/-- NAK with the last flit accepted; no further one until the expected flit arrives. -/
def State.sendNak (s : State) (b : Nat) : State :=
  let x := s.bundle b
  if x.nakSent then s
  else (s.setBundle b { x with nakSent := true }).emit (.link b (.nak (BitVec.ofNat 12 (x.expect + 4095))))

/-! ### Segments and messages received (R443, R444, R454, R457) -/

/-- Insertion of a complete message by its message ID. -/
def insRx (x : RxMsg) : List RxMsg → List RxMsg
  | [] => [x]
  | y :: ys => if x.msgId ≤ y.msgId then x :: y :: ys else y :: insRx x ys

def RxMsg.whole (q : RxMsg) : Bool := decide (q.parts.length = q.count)

/-- A complete message delivered or discarded (R444). -/
def State.deliver (s : State) (q : RxMsg) : State :=
  let s1 := { s with links := { s.links with delivered := s.links.delivered ++ [(q.src.toNat, q.vc, q.msgId)] } }
  if q.xkind = 0 then
    if q.handle = 0 ∨ ((List.range 8).any fun k => decide (s.ringHandle k = q.handle) && decide (s.ringState k ≠ rgIdle)
        && (decide (s.ringLeft k = q.src.toNat) || decide (s.ringRight k = q.src.toNat))) then s1.inc Key.colMsgCnt
    else s1.inc Key.colRejectCnt
  else if (s.groupOf q.handle q.src.toNat).isSome then
    ({ s1 with links := { s1.links with inbox := s1.links.inbox ++ [q] } }.inc Key.colMsgCnt).tryWaits
  else s1.inc Key.colRejectCnt

/-- Complete messages are delivered in the order of their message IDs: one waits while an earlier one of its source
and VC is incomplete. -/
def State.deliverAll (s : State) : Nat → State
  | 0 => s
  | fuel + 1 =>
    let ripe := fun (q : RxMsg) => q.whole && s.links.rx.all fun y =>
      !(decide (y.src = q.src) && decide (y.vc = q.vc) && decide (y.msgId < q.msgId))
    match s.links.rx.find? ripe with
    | none => s
    | some q =>
      ({ s with links := { s.links with rx := s.links.rx.filter fun y => decide (y ≠ q) } }.deliver q).deliverAll fuel

/-- An armed E2E_CRC injection is for the group of a segment (24 R598). -/
def State.injSegment (s : State) (handle src : Nat) : Bool := s.injHits 10 fun i => decide (s.groupOf handle src = some i.arg)

/-- A segment received: its CRC-32C is checked, it is placed by its index, and a complete message is delivered. A
segment that came before is discarded. -/
def State.recvSegment (s : State) (src vc : Nat) (hdr : BitVec 256) (data : List Byte) (crc : Nat) : State :=
  let id := dfield hdr 0 0 32
  let handle := dfield hdr 0x18 0 16
  let index := dfield hdr 8 0 16
  let same := fun (q : RxMsg) => decide (q.src.toNat = src) && decide (q.vc = vc) && decide (q.msgId = id)
  if (src, vc, id) ∈ s.links.delivered then s
  else if crc32c data ≠ crc ∨ s.injSegment handle src = true then
    let s0 := if s.injSegment handle src then s.injActed else s
    let s1 := { s0 with links := { s.links with rx := s.links.rx.filter fun q => !same q } }
    match s.groupOf handle src with
    | some g => (s1.latch pgCol 1 g).failTag (s.colPart g) (BitVec.ofNat 64 (dfield hdr 0x10 0 64)) stFaultLink 0x03
    | none => s1.latch pgCol 1 0
  else
    let fresh : RxMsg := {
      src := BitVec.ofNat 16 src, vc := vc, msgId := id, total := dfield hdr 4 0 32, count := dfield hdr 0xA 0 16
      key := dfield hdr 0xC 0 32, tag := BitVec.ofNat 64 (dfield hdr 0x10 0 64), handle := handle
      xkind := dfield hdr 0x1A 0 8, fmt := dfield hdr 0x1B 0 8, parts := [] }
    let q := (s.links.rx.find? same).getD fresh
    if q.parts.any fun e => decide (e.1 = index) then s
    else
      let q1 : RxMsg := { q with parts := q.parts ++ [(index, data)] }
      let rx := (s.links.rx.filter fun y => !same y) ++ [q1]
      { s with links := { s.links with rx := rx } }.deliverAll rx.length

/-- A transfer whose sender's splice point for the request differs from this package's own (10 R227): the request. -/
def State.skewed (s : State) (src : Nat) (hdr : BitVec 256) (splice : Option Nat) : Option Req :=
  match s.groupOf (dfield hdr 0x18 0 16) src, splice with
  | some g, some x =>
    match s.req (s.colPart g) (BitVec.ofNat 64 (dfield hdr 0x10 0 64)) with
    | some r => if dfield hdr 0x1A 0 8 ≠ 0 ∧ r.phase ∈ [Phase.prefill, Phase.decode] ∧ r.spliced ≠ x then some r else none
    | none => none
  | _, _ => none

/-- A segment that came over a link. `splice` is the splice point, in tokens, that a transfer of activations carries; Table 18.5
gives it no place. One that differs from this package's own ends the request (10 R227). -/
def State.takeSegment (s : State) (src vc : Nat) (hdr : BitVec 256) (data : List Byte) (crc : Nat) (splice : Option Nat) : State :=
  match s.skewed src hdr splice with
  | some r => ((s.latch pgRfe 1 (r.tag.toNat % 2 ^ 27)).inc Key.rfeSkewCnt).fail r stFaultUnit 0x30
  | none => s.recvSegment src vc hdr data crc

/-- SEGMENT (R443, 10 R227): a segment of a bundle that is UP. -/
def execSegment (b : BitVec 4) (src : BitVec 16) (vc : BitVec 3) (header : BitVec 256) (data : List Byte) (crc : Word)
    (splice : Option Nat) (s : State) : Outcome State Fault Refusal :=
  .next (if s.bundleState b.toNat = bsUp then
      (s.wakeAll []).takeSegment src.toNat vc.toNat header data crc.toNat splice
    else s)

/-- An accepted DATA flit's payload joins its segment; the last one completes it. -/
def State.gatherFlit (s : State) (b : Nat) (f : BitVec 2048) (splice : Option Nat) : State :=
  let x := s.bundle b
  let k := flitSrc f * 8 + flitVc f
  let old := if flitFirst f then [] else SMap.get (fun _ => []) x.gather k
  let all := old ++ flitPayload f
  if flitLast f then
    (s.setBundle b { x with gather := SMap.set (fun _ => []) x.gather k [] }).takeSegment (flitSrc f) (flitVc f)
      (BitVec.ofNat 256 (leAt all 0 32)) (cut all 32 (all.length - 36)) (leAt all (all.length - 4) 4) splice
  else s.setBundle b { x with gather := SMap.set (fun _ => []) x.gather k all }

/-- DATA (R437): a DATA flit is accepted in order with a good CRC; the first failure is answered with NAK. In HELD
only VC0 crosses (R449). `marked` says that a codeword it touches was uncorrectable (R434). -/
def execData (b : BitVec 4) (flit : BitVec 2048) (marked : Bool) (s : State) (splice : Option Nat := none) : Outcome State Fault Refusal :=
  let b := b.toNat
  .next (if s.bundleRuns b = false then s
    else
      let s0 := if marked then s.inc (Key.lnkFecUncCnt b) else s
      if flitKind flit = 1 ∧ s0.injHits 3 (fun i => decide (i.arg = b)) = true then ((s0.inc (Key.lnkCrcCnt b)).sendNak b).injActed
      else if marked ∨ flitOk flit = false then (s0.inc (Key.lnkCrcCnt b)).sendNak b
      else
        let s1 := s0.takeHeader b flit
        if flitKind flit ≠ 1 ∨ (s.bundleState b = bsHeld ∧ flitVc flit ≠ 0) then s1
        else
          let x := s1.bundle b
          if flitSeq flit ≠ x.expect then s1.sendNak b
          else
            let vc := flitVc flit
            let freed := SMap.set (fun _ => 0) x.freed vc ((SMap.get (fun _ => 0) x.freed vc + 1) % 4096)
            (s1.setBundle b { x with expect := (x.expect + 1) % 4096, nakSent := false, freed := freed }).gatherFlit b flit splice)

/-- NAK (R437, R452): the sender replays from the flit after the one acknowledged. -/
def execNak (b : BitVec 4) (flit : BitVec 2048) (s : State) : Outcome State Fault Refusal :=
  let b := b.toNat
  .next (if s.bundleRuns b = false then s
    else if flitOk flit = false then s.inc (Key.lnkCrcCnt b)
    else
      let s1 := s.takeHeader b flit
      if flitKind flit = 2 ∧ flitLen flit = 1 then s1.replay b else s1)

/-- IDLE_FLIT (R435): an IDLE flit carries an acknowledgement and credits. -/
def execIdleFlit (b : BitVec 4) (flit : BitVec 2048) (s : State) : Outcome State Fault Refusal :=
  let b := b.toNat
  .next (if s.bundleRuns b = false then s
    else if flitOk flit = false then s.inc (Key.lnkCrcCnt b)
    else s.takeHeader b flit)

/-- REPLAY_TIMEOUT (R437): no acknowledgement for 2 µs with flits outstanding. -/
def execReplayTimeout (b : BitVec 4) (s : State) : Outcome State Fault Refusal :=
  let b := b.toNat
  let x := s.bundle b
  .next (if s.bundleRuns b = true ∧ x.unacked ≠ [] ∧ x.lastAck + 200 ≤ s.tick then s.replay b else s)

/-! ### Taking a bundle down (R450, R453, R456) -/

/-- A segment whose way is gone finds another: it is sent whole on another bundle; `none` when nothing leads there. -/
def State.reroute (s : State) (gone : TxSeg → Bool) (g : TxSeg) : Option TxSeg :=
  if !gone g then some g
  else
    let r := s.routeTo g.dst.toNat
    let same := r.filter fun c => decide (s.role c = s.role g.bundle)
    let l := if same = [] then r else same
    match l with
    | [] => none
    | _ => some { g with bundle := l.getD (g.index % l.length) 0, sent := 0 }

/-- Traffic whose way is gone: its unacknowledged segments go another way, and the requests of a message with no way
left complete with NO_ROUTE. -/
def State.resendAll (s : State) (gone : TxSeg → Bool) : State :=
  let lost := (s.links.tx.filter fun g => (s.reroute gone g).isNone).map fun g => (g.msg, g.dst)
  let tx := (s.links.tx.filterMap (s.reroute gone)).filter fun g => lost.all fun e => decide (e.1 ≠ g.msg)
  let s1 := { s with links := { s.links with tx := tx } }
  let msgs := s.links.txMsgs.filter fun m => lost.any fun e => decide (e.1 = m.num)
  let s2 := { s1 with links := { s1.links with txMsgs := s.links.txMsgs.filter fun m => decide (m ∉ msgs) } }
  msgs.foldl (fun t m =>
    let t1 := t.noRoute m.dst.toNat
    match t1.fab.flight.find? fun x => decide (x.spar = m.owner.1) && decide (x.slot = m.owner.2) with
    | some x =>
      let t2 := t1.xferDone x
      (match t2.walkAt x.spar x.walk with
        | some w => t2.cutWalk w
        | none => t2)
    | none => t1) s2

/-- A package that sees every Stay bundle DOWN while a ring entry is READY fences itself (19 R483). -/
def State.fenceIfCut (s : State) (b : Nat) : State :=
  if s.isStay b && (allBundles.filter s.isStay).all fun c => decide (s.bundleState c = bsDown) then
    ((List.range 8).filter fun k => decide (s.ringState k = rgReady)).foldl State.fenceRing s
  else s

/-- What a bundle forgets as it goes DOWN, and when it trains again. -/
def Bundle.reset (x : Bundle) (retry : Option Nat) (attempts : Nat) (old : Option (Nat × Nat)) : Bundle :=
  { pos := x.pos, turns := x.turns, lastShared := x.lastShared, retryAt := retry, attempts := attempts, oldPeer := old }

/-- The bundle is neither admitted nor waiting for RIG_OK. -/
def State.unadmit (s : State) (b : Nat) : State :=
  { s with top := { s.top with admitted := s.top.admitted.filter fun c => decide (c ≠ b)
                               rigSent := s.top.rigSent.filter fun c => decide (c ≠ b)
                               rigGot := s.top.rigGot.filter fun c => decide (c ≠ b)
                               classed := s.top.classed.filter fun c => decide (c ≠ b) } }

/-- A bundle enters DOWN. `hold` when hold_down keeps it there. -/
def State.bundleDown (s : State) (b : Nat) (hold : Bool) : State :=
  if s.bundleState b = bsDown then
    if hold then s.setBundle b { s.bundle b with retryAt := none } else s
  else
    let was := s.bundleState b
    let x := s.bundle b
    let old := if was = bsUp ∨ was = bsHeld then
      some (s.fld (Key.lnkPeerSerialLo b) 31 0 + 2 ^ 32 * s.fld (Key.lnkPeerSerialHi b) 31 0, s.peerCoords b) else x.oldPeer
    let training := decide (was < bsHeld)
    let attempts := if training then x.attempts else 0
    let retry := if hold ∨ s.bit (Key.lnkCtl b) 0 = true then none
      else if training then some (s.tick + (if x.attempts ≤ 1 then 10000000 else 100000000)) else some s.tick
    let s1 := ((s.setFld (Key.lnkStat b) 31 29 bsDown).setFld (Key.lnkStat b) 3 0 0).inc (Key.lnkDownCnt b)
    (((s1.setBundle b (x.reset retry attempts old)).unadmit b).resendAll fun g => decide (g.bundle = b)).fenceIfCut b

/-- A condition of Table 18.9: it latches its cause, with the lane mask, and takes the bundle down. -/
def State.downFor (s : State) (b cause lanes : Nat) : State := (s.latch (pgLnk b) cause lanes).bundleDown b false

/-- LOS: loss of lock or FEC lock on some lanes. -/
def execLos (b : BitVec 4) (lanes : BitVec 4) (s : State) : Outcome State Fault Refusal :=
  .next (if b.toNat < 12 ∧ 2 ≤ s.bundleState b.toNat then s.downFor b.toNat 5 lanes.toNat else s)

/-- RETRY_LIMIT: more than retry_limit replays within 10 ms. -/
def execRetryLimit (b : BitVec 4) (s : State) : Outcome State Fault Refusal :=
  let b := b.toNat
  let n := ((s.bundle b).replays.filter fun t => decide (s.tick < t + 1000000)).length
  .next (if s.bundleRuns b = true ∧ max 1 (s.fld (Key.lnkCfg b) 31 16) < n then s.downFor b 2 0 else s)

/-- REPLAY_FAIL: eight consecutive replays without ack advancing. -/
def execReplayFail (b : BitVec 4) (s : State) : Outcome State Fault Refusal :=
  let b := b.toNat
  .next (if s.bundleRuns b = true ∧ 8 ≤ (s.bundle b).stuck then s.downFor b 3 0 else s)

/-- CREDIT_STALL: a VC with flits waiting and zero credit for credit_ms. -/
def execCreditStall (b : BitVec 4) (vc : BitVec 3) (s : State) : Outcome State Fault Refusal :=
  let b := b.toNat
  let since := SMap.get (fun _ => 0) (s.bundle b).zero vc.toNat
  .next (if s.bundleRuns b = true ∧ since ≠ 0 ∧ since - 1 + 100000 * max 1 (s.fld (Key.lnkCfg b) 15 8) ≤ s.tick
    then s.downFor b 4 0 else s)

/-- TRAIN_FAIL: training not complete within 400 ms. -/
def execTrainFail (b : BitVec 4) (s : State) : Outcome State Fault Refusal :=
  let b := b.toNat
  .next (match (s.bundle b).trainStart with
    | some t => if 1 ≤ s.bundleState b ∧ s.bundleState b ≤ 3 ∧ t + 40000000 ≤ s.tick
        then s.downFor b 0 (15 - s.fld (Key.lnkStat b) 3 0) else s
    | none => s)

/-- BER_WARN: the pre-FEC symbol error ratio of the last 1 ms above 2^−13: 85,000,000 symbols in 1 ms. The bundle
stays as it is. -/
def execBerWarn (b : BitVec 4) (errors : Word) (s : State) : Outcome State Fault Refusal :=
  let b := b.toNat
  .next (if b < 12 ∧ s.bundleState b ≠ bsDown then
      let s1 := s.setReg (Key.lnkSymErr b) errors
      if 85000000 < errors.toNat * 8192 then s1.latch (pgLnk b) 6 0 else s1
    else s)

/-! ### Training and identity (R449, R450) -/

/-- The identity record of this package on bundle `b` (Table 18.8). -/
def State.identOf (s : State) (b : Nat) : BitVec 512 :=
  BitVec.ofNat 512 (leNat (leBytes 0x0100 2 ++ leBytes 0 1 ++ leBytes (s.role b) 1 ++ leBytes b 1 ++ leBytes s.sheet 1
    ++ leBytes s.coords 2 ++ leBytes Config.otpSerial.toNat 8 ++ leBytes 16 2
    ++ (List.range 5).flatMap (fun _ => leBytes 256 2) ++ leBytes 512 2))

/-- A bundle begins to train. -/
def State.startTraining (s : State) (b : Nat) : State :=
  let x := s.bundle b
  (s.setFld (Key.lnkStat b) 31 29 bsEqualise).setBundle b
    { x with trainStart := some s.tick, identAt := none, attempts := x.attempts + 1, retryAt := none }

/-- RETRAIN (R450): a DOWN bundle trains again at once, after 100 ms and then every 1 s, but not while hold_down is
set. -/
def execRetrain (b : BitVec 4) (s : State) : Outcome State Fault Refusal :=
  let b := b.toNat
  .next (match (s.bundle b).retryAt with
    | some t => if b < 12 ∧ 8 + b / 6 ∉ s.boot.inReset ∧ s.bundleState b = bsDown ∧ s.bit (Key.lnkCtl b) 0 = false ∧ t ≤ s.tick then s.startTraining b else s
    | none => s)

/-- LINK_TRAINING (R430, R449): the outcome of equalisation and lock. With all four lanes locked the bundle enters
IDENT and sends its identity record; otherwise it goes DOWN. -/
def execLinkTraining (b : BitVec 4) (r : TrainResult) (s : State) : Outcome State Fault Refusal :=
  let b := b.toNat
  .next (if s.bundleState b = bsEqualise ∨ s.bundleState b = bsLock then
      let s1 := (s.setFld (Key.lnkStat b) 3 0 r.lanes.toNat).setReg (Key.lnkTrainUs b) r.us
      if r.lanes = 0xF then
        let s2 := (s1.setFld (Key.lnkStat b) 31 29 bsIdent).setBundle b { s1.bundle b with identAt := some s.tick }
        s2.emit (.link b (.identity (s2.identOf b)))
      else s1.bundleDown b false
    else s)

/-- Why an identity record fails IDENT: the major version, a credit count below the minimum, or a nonzero reserved
byte (R450). -/
def identBad (r : BitVec 512) : Bool :=
  decide (dfield r 1 0 8 ≠ 1) || decide (dfield r 0x10 0 16 < 8)
    || ((List.range 5).any fun i => decide (dfield r (0x12 + 2 * i) 0 16 < 64)) || decide (dfield r 0x1E 0 (8 * 34) ≠ 0)

/-- IDENTITY_RECORD (R449, R450): the peer's record is checked; the bundle enters HELD, or fails IDENT. -/
def execIdentityRecord (b : BitVec 4) (rec : BitVec 512) (s : State) : Outcome State Fault Refusal :=
  let b := b.toNat
  .next (if s.bundleState b ≠ bsIdent then s
    else if identBad rec then s.downFor b 1 0
    else
      let s1 := (((s.setReg (Key.lnkPeerSerialLo b) (BitVec.ofNat 32 (dfield rec 8 0 32))).setReg (Key.lnkPeerSerialHi b)
        (BitVec.ofNat 32 (dfield rec 0xC 0 32))).setReg (Key.lnkPeerId b) (BitVec.ofNat 32
          (dfield rec 6 0 16 * 2 ^ 16 + dfield rec 4 0 8 * 2 ^ 8 + dfield rec 3 0 4 * 2 ^ 4 + dfield rec 2 0 4))).setReg
        (Key.lnkPeerVer b) (BitVec.ofNat 32 (dfield rec 0 0 16))
      let s2 := (List.range 6).foldl (fun t v => t.setFld (Key.lnkVcCredit b v) 27 16 (min 4095 (dfield rec (0x10 + 2 * v) 0 16))) s1
      ((s2.setFld (Key.lnkStat b) 31 29 bsHeld).setBundle b
        { s2.bundle b with trainStart := none, identAt := none, attempts := 0 }).unadmit b)

/-- IDENT_TIMEOUT (R450): no valid record within 10 ms. -/
def execIdentTimeout (b : BitVec 4) (s : State) : Outcome State Fault Refusal :=
  let b := b.toNat
  .next (match (s.bundle b).identAt with
    | some t => if s.bundleState b = bsIdent ∧ t + 1000000 ≤ s.tick then s.downFor b 1 0 else s
    | none => s)

/-! ### Registers (Table 18.10) -/

/-- A write of LNK_CTL: hold_down takes the bundle DOWN and keeps it there; without it the bundle trains again. -/
def State.writeLnkCtl (s : State) (m : Master) (b : Nat) (v : Word) : State :=
  let t := s.store m (pgLnk b) 0x104 v
  if t.bit (Key.lnkCtl b) 0 then t.bundleDown b true
  else if s.bit (Key.lnkCtl b) 0 then t.setBundle b { t.bundle b with retryAt := some t.tick } else t

/-- HOLD_DOWN (19 R478): a write of LNK_CTL. -/
def execHoldDown (m : Master) (b : BitVec 4) (be : BitVec 4) (v : Word) (s : State) : Outcome State Fault Refusal :=
  .next (if b.toNat < 12 then s.gated m (pgLnk b.toNat) 0x104 be v fun t => t.writeLnkCtl m b.toNat v else s)

/-- hold_down set by the block itself on the Shroud bundles whose peer has some coordinates (19 R478). -/
def State.holdShroud (s : State) (x : Nat) : State :=
  (allBundles.filter fun b => decide (s.role b ≤ 2) && decide (s.peerCoords b = x) && decide (s.bundleState b ≠ bsDown)).foldl
    (fun t b => (t.setBit (Key.lnkCtl b) 0 true).bundleDown b true) s

/-- A write of LNK_SHEET: a code above 4 is ignored (R432). -/
def State.writeLnkSheet (s : State) (m : Master) (v : Word) : State :=
  if getBits v 6 4 ≤ 4 then s.store m (pgLnk 0) 0x180 v else s

/-- SHEET_WRITE (R432). -/
def execSheetWrite (m : Master) (be : BitVec 4) (v : Word) (s : State) : Outcome State Fault Refusal :=
  .next (s.gated m (pgLnk 0) 0x180 be v fun t => t.writeLnkSheet m v)

/-! ### XFER timeouts (R448) -/

/-- MSG_TIMEOUT: a RECV or collective whose messages are incomplete msg_timeout ms after issue. -/
def execMsgTimeout (spar : BitVec 2) (slot : BitVec 10) (s : State) : Outcome State Fault Refusal :=
  .next (match s.links.waits.find? fun e => decide (e.1 = spar.toNat) && decide (e.2.1 = slot.toNat),
      s.fab.flight.find? fun x => decide (x.spar = spar.toNat) && decide (x.slot = slot.toNat) with
    | some e, some x =>
      if e.2.2 + 100000 * max 1 (s.fld (Key.lnkCfg 0) 7 0) ≤ s.tick then s.xferFail x 0 0x02 else s
    | _, _ => s)

/-! ### Sending: one flit on each bundle at each flit boundary (R437 to R440) -/

/-- A message is among the eight of its VC and destination that may be in flight (R451). -/
def State.mayFly (s : State) (g : TxSeg) : Bool :=
  ((s.links.txMsgs.filter fun m => decide (m.vc = g.vc) && decide (m.dst = g.dst)).take 8).any fun m => decide (m.num = g.msg)

/-- The next segment of a partition's VC on a bundle, with flits still to send. -/
def State.nextSeg (s : State) (b p vc : Nat) : Option TxSeg :=
  s.links.tx.find? fun g => decide (g.bundle = b) && decide (g.part = some p) && decide (g.vc = vc)
    && decide (g.sent < g.flits.length) && s.mayFly g

/-- A partition has a flit of a VC that may be sent now. -/
def State.flitReady (s : State) (b p vc : Nat) : Bool :=
  (s.nextSeg b p vc).isSome && decide (0 < s.credit b vc) && decide ((s.bundle b).unacked.length < 512)

/-- The weights of VC1 to VC5 (Table 18.4). -/
def vcWeight (vc : Nat) : Nat := if vc = 4 then 2 else if vc = 5 then 1 else 4

/-- The VC served by weighted round-robin, and the turns it has then had: a VC with nothing to send yields. -/
def wrr (ready : Nat → Bool) (vc used : Nat) : Nat → Option (Nat × Nat)
  | 0 => none
  | fuel + 1 =>
    if ready vc && decide (used < vcWeight vc) then some (vc, used + 1)
    else wrr ready (if vc = 5 then 1 else vc + 1) 0 fuel

/-- The VC that a partition sends on at this position. -/
def State.pickVc (s : State) (b p : Nat) : Option (Nat × Nat) :=
  let t := (s.bundle b).turns
  wrr (s.flitReady b p) (max 1 (SMap.get (fun _ => 0) t (8 * p))) (SMap.get (fun _ => 0) t (8 * p + 1)) 6

/-- The partition that sends at a position: its owner; or, where none owns it, the shared partitions in turn. -/
def State.pickPart (s : State) (b pos : Nat) : Option Nat :=
  let o := s.rotOwner pos
  if o ≠ 0xFF then (if (s.pickVc b o).isSome then some o else none)
  else
    let last := (s.bundle b).lastShared
    let ps := ((s.links.tx.filter fun g => decide (g.bundle = b)).filterMap fun g => g.part).eraseDups
    let ok := ps.filter fun p => !s.isSealed p && (s.pickVc b p).isSome
    let key := fun (p : Nat) => (p + 128 - (last + 1)) % 128
    ok.foldl (fun (a : Option Nat) p => match a with
      | none => some p
      | some q => if key p < key q then some p else some q) none

/-- A flit given to a bundle: it carries the acknowledgement and the next VC's credit count. -/
def State.putFlit (s : State) (b seq : Nat) (f : BitVec 2048) (splice : Option Nat) : State :=
  let x := s.bundle b
  let out := sealFlit f seq (x.expect + 4095) x.cvc (SMap.get (fun _ => 0) x.freed x.cvc)
  s.emit (.link b (.data (BitVec.ofNat 12 seq) out splice))

/-- A partition's next flit of a VC sent for the first time: a credit is debited, and the flit stays in the retry
buffer. -/
def State.sendFresh (s : State) (b p vc used : Nat) : State :=
  match s.nextSeg b p vc with
  | none => s
  | some g =>
    let f := g.flits.getD g.sent 0
    let s1 := s.putFlit b (s.bundle b).nextSeq f g.splice
    let x := s1.bundle b
    let x1 : Bundle := { x with
      nextSeq := (x.nextSeq + 1) % 4096
      unacked := x.unacked ++ [⟨x.nextSeq, f, g.msg, g.index, g.splice⟩]
      lastAck := if x.unacked = [] then s.tick else x.lastAck
      sent := SMap.set (fun _ => 0) x.sent vc ((SMap.get (fun _ => 0) x.sent vc + 1) % 4096)
      turns := SMap.set (fun _ => 0) (SMap.set (fun _ => 0) x.turns (8 * p) vc) (8 * p + 1) used
      lastShared := if s.isSealed p then x.lastShared else p }
    let tx := s1.links.tx.map fun (y : TxSeg) =>
      if y.msg = g.msg ∧ y.index = g.index then { y with sent := y.sent + 1 } else y
    { s1.setBundle b x1 with links := { (s1.setBundle b x1).links with tx := tx } }

/-- VCs of a bundle with flits waiting and no credit, and since when (Table 18.9). -/
def State.markStalls (s : State) (b : Nat) : State :=
  let x := s.bundle b
  let z := (List.range 6).foldl (fun (m : SMap Nat) vc =>
    let waiting := s.links.tx.any fun g => decide (g.bundle = b) && decide (g.vc = vc) && decide (g.sent < g.flits.length)
    if waiting && decide (s.credit b vc = 0) then
      (if SMap.get (fun _ => 0) m vc = 0 then SMap.set (fun _ => 0) m vc (s.tick + 1) else m)
    else SMap.set (fun _ => 0) m vc 0) x.zero
  s.setBundle b { x with zero := z }

/-- A flit boundary of a bundle: a replay goes first, else what the rotation position gives; the position and the
VC whose credits are carried move on with every flit, IDLE ones too. -/
def State.boundary (s : State) (b : Nat) : State :=
  let x := s.bundle b
  let s1 := match x.again with
    | f :: rest =>
      let t := s.putFlit b f.seq f.flit f.splice
      t.setBundle b { t.bundle b with again := rest }
    | [] =>
      if s.bundleState b = bsUp then
        match s.pickPart b x.pos with
        | none => s
        | some p => match s.pickVc b p with
          | some (vc, used) => s.sendFresh b p vc used
          | none => s
      else s
  let y := s1.bundle b
  (s1.setBundle b { y with pos := (y.pos + 1) % 256, cvc := (y.cvc + 1) % 6 }).markStalls b

end Sys2Proof.Machine
end

