-- ==== Sys2Proof/Machine/Rings.lean ====
section
/-! DEFINITION. Shroud rings (17): formation, the passes and their schedule, the decode sweep and its partial records,
mirroring, stalls and recovery. -/

namespace Sys2Proof.Machine

open Host

/-! ### Formation (R403, R404, R428, R429) -/

/-- An entry's formation fails with a reason; FORM_FAIL latches. -/
def State.formFails (s : State) (k reason : Nat) : State :=
  let m := s.ringMember k
  let s1 := ((s.setRingState k rgFailed reason).ringEvent k m 3).latch pgShr 0 (ringDetail k m reason)
  s1.setRing k { s1.ring k with formed := none, leftOk := false, rightOk := false }

/-- The identity sent to the neighbours that have not answered in agreement. -/
def State.sendForm (s : State) (k : Nat) : State :=
  let x := s.ring k
  let args := [s.ringSize k, s.ringMember k, if s.ringMirror k then 1 else 0, s.coords]
  let s1 := if x.leftOk then s else s.toLeft k "FORM" args
  if x.rightOk then s1 else s1.toRight k "FORM" args

/-- FORM written to the command register of an IDLE entry. A size outside 2 to 32 (R418), or a member index that the size does not
hold, forms no ring: it fails with reason SIZE (DESIGN CHOICE: R404 names no reason for it). -/
def State.form (s : State) (k : Nat) : State :=
  if s.ringState k ≠ rgIdle then s
  else if s.ready = false ∨ s.pstate (s.ringPart k) ≠ psActive then s.formFails k 0x06
  else if ((List.range 8).any fun j => decide (j ≠ k) && decide (s.ringHandle j = s.ringHandle k)) then s.formFails k 0x04
  else if s.sheet = 4 then s.formFails k 0x05
  else if s.ringSize k < 2 ∨ 32 < s.ringSize k ∨ s.ringSize k ≤ s.ringMember k then s.formFails k 0x02
  else
    let s1 := (s.setRingState k rgForming 0).setRing k { s.ring k with formed := some s.tick, leftOk := false, rightOk := false }
    s1.sendForm k

/-- DISSOLVE written to the command register: ignored with BUSY while live requests use the entry; otherwise the entry
is IDLE again, its mirror frames are freed, and both neighbours' entries fail with PEER_LEFT. -/
def State.dissolve (s : State) (k : Nat) : State :=
  if s.ringState k = rgIdle then s
  else if s.ringReqs k ≠ [] then s.setFld (Key.shrRingStat k) 28 24 0x07
  else
    let s1 := (s.ring k).mirror.foldl (fun t x => t.freeScrub x.frame) s
    let s2 := (s1.toLeft k "PEER_LEFT" []).toRight k "PEER_LEFT" []
    (s2.setRingState k rgIdle 0).setRing k {}

/-- A write of SHR_RINGk_CMD. -/
def State.writeRingCmd (s : State) (k : Nat) (v : Word) : State :=
  if getBits v 7 0 = 1 then s.form k else if getBits v 7 0 = 2 then s.dissolve k else s

/-- FORM (R404). -/
def execForm (m : Master) (k : BitVec 3) (be : BitVec 4) (s : State) : Outcome State Fault Refusal :=
  .next (s.gated m pgShr (0x414 + 0x40 * k.toNat) be 1 fun t => t.writeRingCmd k.toNat 1)

/-- DISSOLVE (R429). -/
def execDissolve (m : Master) (k : BitVec 3) (be : BitVec 4) (s : State) : Outcome State Fault Refusal :=
  .next (s.gated m pgShr (0x414 + 0x40 * k.toNat) be 2 fun t => t.writeRingCmd k.toNat 2)

/-- FORM_RETRY (R404): every 10 µs a forming member asks again. -/
def execFormRetry (k : BitVec 3) (s : State) : Outcome State Fault Refusal :=
  .next (if s.ringState k.toNat = rgForming then s.sendForm k.toNat else s)

/-- A forming entry whose two sides agree becomes READY; while the package is UNSYNC it waits (20 R505). -/
def State.tryForm (s : State) (k : Nat) : State :=
  let y := s.ring k
  if s.ringState k = rgForming ∧ y.leftOk = true ∧ y.rightOk = true ∧ s.fld Key.ttlStat 31 29 ≠ 4 then
    (s.setRing k { y with formed := none }).setRingState k rgReady 0
  else s

/-- FORM_ANSWER (R404): an answer from one side. Another ring's is ignored; a disagreeing one fails the entry. -/
def execFormAnswer (k : BitVec 3) (left : Bool) (a : RingAnswer) (s : State) : Outcome State Fault Refusal :=
  let k := k.toNat
  let n := s.ringSize k
  let m := s.ringMember k
  .next (if s.ringState k ≠ rgForming ∨ a.handle.toNat ≠ s.ringHandle k then s
    else if a.size.toNat ≠ n then s.formFails k 0x02
    else if a.mirror ≠ s.ringMirror k then s.formFails k 0x09
    else if a.member.toNat ≠ (if left then (m + n - 1) % max 1 n else (m + 1) % max 1 n)
        ∨ a.coords.toNat ≠ (if left then s.ringLeft k else s.ringRight k) then s.formFails k 0x03
    else
      let x := s.ring k
      let both := decide (n = 2)
      let y := { x with leftOk := x.leftOk || left || both, rightOk := x.rightOk || !left || both }
      (s.setRing k y).tryForm k)

/-- FORM_TIMEOUT (R404): 1,000 ms without agreeing answers from both neighbours. -/
def execFormTimeout (k : BitVec 3) (s : State) : Outcome State Fault Refusal :=
  .next (match (s.ring k.toNat).formed with
    | some t => if s.ringState k.toNat = rgForming ∧ t + 100000000 ≤ s.tick then s.formFails k.toNat 0x01 else s
    | none => s)

/-! ### The schedule of a pass (R411, R412) -/

/-- A message that a request needs, to the right neighbour. Where no Shroud bundle and no rail leads there the request ends with
NO_ROUTE (18 R453, 19 R469). -/
def State.ringSend (s : State) (k : Nat) (r : Req) (name : String) (args : List Nat) : State :=
  if s.routeTo (s.ringRight k) = [] then
    ((s.noRoute (s.ringRight k)).fail r stFaultLink 0x01).inc Key.topNorouteCnt
  else s.toRight k name args

/-- The leader of a request's passes: member 0 in prefill, the home in decode. -/
def State.leaderOf (s : State) (k : Nat) (r : Req) : Nat := if r.inPrefill then 0 else s.homeOf k r

/-- Steps of a pass (R413, R414). -/
def State.passSteps (s : State) (k : Nat) (r : Req) : Nat :=
  (if r.inPrefill then s.ringSize k else 1) * (if r.d.orderFree then 2 else 1)

/-- The bundles over which a ring's blocks go to the right neighbour. -/
def State.ringBundles (s : State) (k : Nat) : Nat := max 1 (s.routeTo (s.ringRight k)).length

/-- D: at least 100 ticks, and 1.1 × (B × c + X) rounded up, X being the time to send B pages: a bundle carries
236 × 803,125 / 204,800 payload bytes in a tick. -/
def stepTicks (b c pageBytes bundles : Nat) : Nat :=
  let rate := bundles * 236 * 803125
  max 100 (ceilDiv (11 * (b * c * rate + b * pageBytes * 204800)) (10 * rate))

/-- The bytes of a page of a request's layer. -/
def State.layerBytes (s : State) (r : Req) (layer : Nat) : Nat :=
  match s.model r.part r.d.model with
  | some m => match m.shards.find? fun h => decide (h.layer = layer) with
    | some h => 4096 * pageUnits h.heads h.dim
    | none => 0
  | none => 0
def State.layerCost (s : State) (r : Req) (layer : Nat) : Nat :=
  match s.model r.part r.d.model with
  | some m => Config.pageCost m.digest layer
  | none => 0

/-- A ring's step or pass start registered as a Telltale event that wakes the Spars and the link dies (20 R497). -/
def State.ringAlarm (s : State) (k target : Nat) : State := s.scheduleEvent target (.ring k) [0, 1, 2, 3, 8, 9]

/-- A pass begins on this member. -/
def State.beginPass (s : State) (k t0 d steps : Nat) : State :=
  ((if steps = 0 then s else s.ringAlarm k t0).ringAlarm k (t0 + d)).setRing k { s.ring k with
    readies := [], firstReady := none, sentReady := none, running := decide (0 < steps), t0 := t0, d := d, steps := steps
    step := 0, moved := 0, released := [], leftReleased := [], delayed := [], partials := [] }

/-- The leader has every READY of a pass: it sends START with T0 1,000 ticks ahead. -/
def State.tryStart (s : State) (k : Nat) (r : Req) (layer : Nat) : State :=
  let n := s.ringSize k
  let mine := (s.ring k).readies.filter fun e => decide (e.2.1 = r.tag) && decide (e.2.2.1 = layer)
  if s.ringGoes k && (List.range n).all fun i => mine.any fun e => decide (e.1 = i) then
    let b := (mine.map fun e => e.2.2.2).foldl max 0
    let d := stepTicks b (s.layerCost r layer) (s.layerBytes r layer) (s.ringBundles k)
    let t0 := s.time.count.toNat + 1000
    let steps := s.passSteps k r
    if s.routeTo (s.ringRight k) = [] then s.ringSend k r "START" []
    else (s.toRight k "START" [s.ringMember k, t0, d, steps]).beginPass k t0 d steps
  else s

/-- READY (R411): a member's inputs for a pass are in place. With this member's own index it is this member that says
so: it sends READY towards the leader. The leader gathers them; another member passes them on to its right. -/
def execReady (k : BitVec 3) (member : BitVec 5) (tag : BitVec 64) (layer pages : Nat) (s : State) :
    Outcome State Fault Refusal :=
  let k := k.toNat
  let own := s.ringMember k
  let args := [member.toNat, tag.toNat, layer, pages]
  .next (if s.ringState k ≠ rgReady ∨ s.ringSize k ≤ member.toNat then s
    else match (s.ringReqs k).find? fun r => decide (r.tag = tag) && r.admitted with
      | none => if member.toNat = own then s else s.toRight k "READY" args
      | some r =>
        let leader := s.leaderOf k r
        if leader = own then
          let x := s.ring k
          let e := (member.toNat, tag, layer, pages)
          let l := (x.readies.filter fun y => !(decide (y.1 = e.1) && decide (y.2.1 = tag) && decide (y.2.2.1 = layer))) ++ [e]
          (s.setRing k { x with readies := l, firstReady := some (x.firstReady.getD s.tick) }).tryStart k r layer
        else
          let msg := s.ringSend k r "READY" args
          if member.toNat = own then msg.setRing k { msg.ring k with sentReady := some (s.tick, leader) } else msg)

/-- START (R411): the leader's START passes around the ring and sets the due ticks. -/
def execStart (k : BitVec 3) (leader : BitVec 5) (t0 : BitVec 64) (d : Nat) (steps : Nat) (s : State) :
    Outcome State Fault Refusal :=
  let k := k.toNat
  let own := s.ringMember k
  .next (if s.ringState k ≠ rgReady ∨ leader.toNat = own then s
    else
      let s1 := if (own + 1) % max 1 (s.ringSize k) = leader.toNat then s
        else s.toRight k "START" [leader.toNat, t0.toNat, d, steps]
      s1.beginPass k t0.toNat d steps)

/-- The due tick of a step. -/
def Ring.due (x : Ring) (k : Nat) : Nat := x.t0 + (k + 1) * x.d + x.moved

/-- Rows that a mirrored member appended and whose mirror is not acknowledged (R411, R416). -/
def State.mirrorOwed (s : State) (k : Nat) : Bool :=
  s.ringMirror k && (s.ringReqs k).any fun r => (s.shardsOf r.part r.tag).any fun h => h.pages.any fun p =>
    let e := s.pte (h.entryAt p)
    e.present && decide (0 < e.valid) && !e.mirror

/-- This member's work of the current step is done: no ATTN macro of the ring's requests is in flight, and every
appended row is acknowledged. -/
def State.stepDone (s : State) (k : Nat) : Bool :=
  let tags := (s.ringReqs k).map fun r => r.tag
  !s.mirrorOwed k && s.fab.flight.all fun m => m.done || decide (m.op ≠ 3) || match s.walkAt m.spar m.walk with
    | some w => !(decide (w.part = s.ringPart k) && w.tags.any fun t => decide (t ∈ tags))
    | none => true

/-- The steps that are over and whose work is done are released to the right neighbour, and a pass all of whose steps
are released ends. -/
def State.ringRelease (s : State) (k : Nat) : State :=
  let x := s.ring k
  if x.running && x.pairedSince.isNone && s.stepDone k then
    let l := (List.range x.step).filter fun i => decide (i ∉ x.released)
    let s1 := l.foldl (fun t i => t.toRight k "RELEASE" [i]) s
    let rel := x.released ++ l
    s1.setRing k { x with released := rel, running := !(decide (x.step = x.steps) && decide (rel.length = x.steps)
      && decide (x.leftReleased.length = x.steps)) }
  else s

/-- STEP_DUE (R411): the due tick of the step that runs has come, and the next one begins. -/
def execStepDue (k : BitVec 3) (s : State) : Outcome State Fault Refusal :=
  let k := k.toNat
  let x := s.ring k
  .next (if s.ringGoes k = true ∧ x.running = true ∧ x.step < x.steps ∧ x.due x.step ≤ s.time.count.toNat
    then
      let s1 := if x.step + 1 < x.steps then s.ringAlarm k (x.due (x.step + 1)) else s
      (s1.setRing k { x with step := x.step + 1 }).ringRelease k
    else s)

/-- RING_RELEASE (R411, R419): the left neighbour's RELEASE, in time up to 5,000 ticks after the due tick; a later one
is ignored. While a paired ring recovers no timeout runs (R422). From the ring of the next stage, `stage`, the RELEASE ends
the keeping of the oldest activations sent to it (R406). -/
def execRingRelease (k : BitVec 3) (step : Nat) (s : State) (stage : Bool := false) : Outcome State Fault Refusal :=
  let k := k.toNat
  let x := s.ring k
  .next (if stage then s.setRing k { x with kept := x.kept.drop 1 }
    else if s.ringState k = rgReady ∧ x.running = true ∧ step < x.steps ∧ step ∉ x.leftReleased
      ∧ (x.pairedSince.isSome = true ∨ s.time.count.toNat ≤ x.due step + 5000)
    then (s.setRing k { x with leftReleased := x.leftReleased ++ [step] }).ringRelease k else s)

/-- DELAY (R412, R420): every remaining due tick moves later by e, at most D, when the DELAY comes before its step is
due; each member may send one for each step. This member's own index stands for its own clock being re-divided. -/
def execDelay (k : BitVec 3) (member : BitVec 5) (step : Nat) (e : Nat) (s : State) : Outcome State Fault Refusal :=
  let k := k.toNat
  let x := s.ring k
  let own := s.ringMember k
  .next (if s.ringState k = rgReady ∧ x.running = true ∧ e ≤ x.d ∧ x.step ≤ step ∧ step < x.steps
      ∧ s.time.count.toNat < x.due step ∧ (member.toNat, step) ∉ x.delayed then
      let s1 := ((s.ttlDelay k e).setRing k { x with moved := x.moved + e, delayed := x.delayed ++ [(member.toNat, step)] }).inc Key.shrDelayCnt
      if member.toNat ≠ own ∧ (own + 1) % max 1 (s.ringSize k) = member.toNat then s1
      else s1.toRight k "DELAY" [member.toNat, step, e]
    else s)

/-! ### Decode: SWEEP and partial records (R409, R414, R415) -/

/-- The rows of a SWEEP's token appended by the member that holds its page, or the wait for it (09 R187, R188). The LIMIT of an
APPEND latches on the SCT page (09 R201); which engine appends is a free choice. -/
def State.sweepAppend (s : State) (r : Req) (h : Shard) (at_ : Nat) (rows : List Byte) (pass : State → State) : State :=
  let bytes := 2 * h.heads * h.dim
  if 524288 ≤ at_ then ((s.sctFault s.choice r.tag 3).chosen).fail r stFaultUnit 0x23
  else if s.opensWait h (if at_ % 256 = 0 then [at_ / 256] else []) then s.waitShard h
  else pass (s.appendRows h.pt (at_ / 256) at_ [rows.take bytes] [(rows.drop bytes).take bytes]).kvpUpdate

/-- SWEEP (R414): the member that holds the new token's page appends the token, and every member but the home's left
neighbour passes the SWEEP on. On the home the row stands for the start of the sweep. `rows` holds the key row, the
value row and the queries. The token with answer index j stands at position count + j − 1. -/
def execSweep (k : BitVec 3) (tag : BitVec 64) (token : BitVec 18) (j : Nat) (shard : Nat) (rows : List Byte) (s : State) :
    Outcome State Fault Refusal :=
  let k := k.toNat
  let n := max 1 (s.ringSize k)
  let own := s.ringMember k
  .next (match (s.ringReqs k).find? fun r => decide (r.tag = tag) && r.inDecode with
    | none => s
    | some r =>
      match (s.shardsOf r.part tag).find? fun h => decide (h.idx = shard) with
      | none => s
      | some h =>
        if s.ringState k ≠ rgReady then s
        else
          let pos := r.d.count + j - 1
          let mine := decide (0 < j) && decide (pos / 256 % n = own)
          let at_ := pos / 256 / n * 256 + pos % 256
          let pass := fun (t : State) =>
            let x := t.ring k
            let sw := (x.sweeps.filter fun y => !(decide (y.1 = tag) && decide (y.2.1 = shard))) ++ [(tag, shard, rows)]
            let t1 := t.setRing k { x with sweeps := sw }
            if (own + 1) % n = t.homeOf k r then t1
            else t1.ringSend k r "SWEEP" ([tag.toNat, token.toNat, j, shard] ++ rows.map BitVec.toNat)
          if mine && decide (h.len = at_) then s.asTake fun t => t.sweepAppend r h at_ rows pass
          else pass s)

/-- Records cut out of bytes, and an ORDER-FREE or online record read from its bytes (13 Table 13.2). -/
def onlineOf (l : List Byte) (dim : Nat) : Online :=
  ⟨f32 (leAt l 0 4), f32 (leAt l 4 4), (List.range dim).map fun d => f32 (leAt l (8 + 4 * d) 4)⟩
def exactOf (l : List Byte) (dim : Nat) : Exact :=
  ⟨f32 (leAt l 0 4), signed (leAt l 4 2) 16, decide (leAt l 6 2 % 2 = 1), leAt l 0x10 16,
    (List.range dim).map fun d => signed (leAt l (0x20 + 16 * d) 16) 128⟩

/-- Online records of a row merged in ascending member index. -/
def mergeOnline (dim : Nat) (rs : List Online) : Online :=
  rs.foldl (fun a x => if a.l.isNan ∨ x.l.isNan = true then Online.bad dim else if x.m = .inf true then a else a.merge x) (Online.zero dim)

/-- ORDER-FREE records of a row added. -/
def addExact (rs : List Exact) : Exact :=
  match rs with
  | [] => ⟨.inf true, 0, true, 0, []⟩
  | x :: rest => rest.foldl (fun a y =>
      { a with m := if y.m.isNan then .nan else a.m, l := (a.l + y.l) % 2 ^ 128
               a := (a.a.zip y.a).map fun e => wrap128 (e.1 + e.2) }) x

/-- M and σ of a row from what the members returned: words of M, κlo, κhi, empty. -/
def sigmaOf (rs : List (Word × Int × Int × Bool)) : Word × Int × Bool :=
  let used := rs.filter fun e => !e.2.2.2
  let mx := (used.map fun e => f32 e.1.toNat).foldl (fun a x => if a.isNan ∨ x.isNan = true then .nan else Fp.max a x) (.inf true)
  let lo := used.foldl (fun a e => min a e.2.1) ((used.map fun e => e.2.1).headD 0)
  let hi := used.foldl (fun a e => max a e.2.2.1) ((used.map fun e => e.2.2.1).headD 0)
  (BitVec.ofNat 32 (toF32 mx), max lo (hi - 52), decide (used = []))

/-- The numbers of a partial record in a message. -/
def partialNums : RingPartial → List Nat
  | .online d l => 0 :: d.toNat :: l.map BitVec.toNat
  | .maxes l => 1 :: l.flatMap fun e => [e.1.toNat, (e.2.1 % 65536).toNat, (e.2.2.1 % 65536).toNat, if e.2.2.2 then 1 else 0]
  | .sums d l => 2 :: d.toNat :: l.map BitVec.toNat

/-- The home has every member's partial record of a step: it combines them. Step 0 of an ORDER-FREE pass gives M and σ,
which go around with step 1. -/
def State.combineRing (s : State) (k : Nat) (tag : BitVec 64) : State :=
  let x := s.ring k
  let n := s.ringSize k
  let mine := x.partials.filter fun e => decide (e.1 = tag)
  let rs : List RingPartial := (List.range n).filterMap fun i => (mine.find? fun e => decide (e.2.1 = i)).map fun e => e.2.2
  if rs.length < n then s
  else
    let s1 := s.setRing k { x with partials := x.partials.filter fun e => decide (e.1 ≠ tag) }
    let keep := fun (t : State) (y : RingResult) =>
      t.setRing k { t.ring k with results := ((t.ring k).results.filter fun z => decide (z.tag ≠ tag)) ++ [y] }
    let out := fun (bytes : Nat) (l : List Nat) => l.flatMap fun v => leBytes v bytes
    match rs with
    | .online d l :: _ =>
      let dim := dimOf d.toNat
      let size := 8 + 4 * dim
      let rows := (List.range (l.length / size)).map fun i => mergeOnline dim (rs.filterMap fun r => match r with
        | .online _ b => some (onlineOf (cut b (i * size) size) dim)
        | _ => none)
      keep s1 ⟨tag, rows.flatMap onlineBytes, out 2 (rows.flatMap (onlineOut fmtBf)), out 4 (rows.flatMap (onlineOut fmt32))⟩
    | .sums d l :: _ =>
      let dim := dimOf d.toNat
      let size := 32 + 16 * dim
      let rows := (List.range (l.length / size)).map fun i => addExact (rs.filterMap fun r => match r with
        | .sums _ b => some (exactOf (cut b (i * size) size) dim)
        | _ => none)
      keep s1 ⟨tag, rows.flatMap exactBytes, out 2 (rows.flatMap (exactOut fmtBf)), out 4 (rows.flatMap (exactOut fmt32))⟩
    | .maxes l :: _ =>
      let rows := (List.range l.length).map fun i => sigmaOf (rs.filterMap fun r => match r with
        | .maxes b => b[i]?
        | _ => none)
      let args := tag.toNat :: rows.flatMap fun e => [e.1.toNat, (e.2.1 % 65536).toNat, if e.2.2 then 1 else 0]
      match (s1.ringReqs k).find? fun r => decide (r.tag = tag) with
      | some r => s1.ringSend k r "SIGMA" args
      | none => s1.toRight k "SIGMA" args
    | [] => s1

/-- PARTIAL_RECORD (R414, R415): the home gathers the members' records; another member passes them on. -/
def execPartialRecord (k : BitVec 3) (tag : BitVec 64) (member : BitVec 5) (r : RingPartial) (s : State) :
    Outcome State Fault Refusal :=
  let k := k.toNat
  .next (match (s.ringReqs k).find? fun q => decide (q.tag = tag) && q.inDecode with
    | none => s
    | some q =>
      if s.ringState k ≠ rgReady ∨ s.ringSize k ≤ member.toNat then s
      else if s.homeOf k q = s.ringMember k then
        let x := s.ring k
        let l := (x.partials.filter fun e => !(decide (e.1 = tag) && decide (e.2.1 = member.toNat))) ++ [(tag, member.toNat, r)]
        (s.setRing k { x with partials := l }).combineRing k tag
      else s.ringSend k q "PARTIAL" ([tag.toNat, member.toNat] ++ partialNums r))

/-! ### The end of a request (R417) -/

/-- The status and detail with which the other members end a request. -/
def ringEndStatus : RingCause → Nat × Nat
  | .cancel => (stCancelledHost, 0)
  | .reset => (stCancelledReset, 0)
  | _ => (stFaultRing, 0x03)

/-- RING_END (R417): another member ended the request; this one ends it at its next step boundary, at once when it
holds no lane, or its ring or a paired one recovers (R422). -/
def execRingEnd (k : BitVec 3) (tag : BitVec 64) (cause : RingCause) (s : State) : Outcome State Fault Refusal :=
  let k := k.toNat
  let e := ringEndStatus cause
  .next (match (s.ringReqs k).find? fun r => decide (r.tag = tag) with
    | none => s
    | some r =>
      if r.lane ∧ s.ringGoes k then s.setReq { r with stop := some e, stopCause := none }
      else s.finish r e.1 e.2 none)

/-! ### Stalls (R420, R421, R423 to R426) -/

/-- The coordinates of a member, where it is a neighbour. -/
def State.memberCoords (s : State) (k i : Nat) : Option Nat :=
  let n := max 1 (s.ringSize k)
  let m := s.ringMember k
  if i = (m + n - 1) % n then some (s.ringLeft k) else if i = (m + 1) % n then some (s.ringRight k) else none

/-- STALL(x) taken: a stalled member fences itself; without mirroring the ring fails; with it the ring's requests are
held, those whose home is x end, and the entry recovers. A second stall fails the ring. Hears a member the first
time, it tells both neighbours. -/
def State.takeStall (s : State) (k x : Nat) : State :=
  let y := s.ring k
  if s.ringState k = rgRecovering then
    if y.stalled = some x then s
    else ((s.inc Key.shrStallCnt).ringEvent k x 1).ringFails k x 0x07
  else if s.ringState k ≠ rgReady then s
  else
    let s0 := ((s.toLeft k "STALL" [x]).toRight k "STALL" [x]).inc Key.shrStallCnt
    if x = s.ringMember k then s0.fenceRing k
    else
      let s1 := (s0.ringEvent k x 1).latch pgShr 1 (ringDetail k x 0)
      let s2 := match s.memberCoords k x with
        | some c => s1.holdShroud c
        | none => s1
      if s.ringMirror k then
        let s3 := (s2.setRingState k rgRecovering 0).setRing k { s2.ring k with
          running := false, readies := [], firstReady := none, sentReady := none, stalled := some x, since := s.tick, rolled := false }
        s3.endRing ((s3.ringReqs k).filter fun r => decide (s3.homeOf k r = x)) 0x04
      else s2.ringFails k x 0x01

/-- A stall that this member detects: STALL goes over the Stay as well, and it also asks slot 32 of the stalled member's group for a takeover (19 R477). -/
def State.declareStall (s0 : State) (k x : Nat) : State :=
  let s := match s0.memberCoords k x with
    | some c => s0.emit (.routed (BitVec.ofNat 16 c) (.leaf "STALL" [s0.ringHandle k, x]))
    | none => s0
  let s1 := match s.ringMirror k, s.memberCoords k x with
    | true, some c =>
      let slot := c / 256 * 256 + 32
      let t := s.emit (.routed (BitVec.ofNat 16 slot) (.leaf "TAKEOVER" [c]))
      { t with top := { t.top with asks := t.top.asks ++ [(c, 32)] } }
    | _, _ => s
  s1.takeStall k x

/-- A ring paired with entry k recovers: the entry's passes are held, with no timeout (R422). -/
def State.pairedHold (s : State) (k : Nat) : State :=
  if s.ringState k = rgReady ∧ (s.ring k).pairedSince.isNone = true then s.setRing k { s.ring k with pairedSince := some s.tick } else s

/-- The paired ring is READY again: the passes go on, their due ticks later by the time held (R422). -/
def State.pairedGoes (s : State) (k : Nat) : State :=
  let x := s.ring k
  match x.pairedSince with
  | none => s
  | some t => (s.setRing k { x with pairedSince := none, moved := x.moved + (s.tick - t), firstReady := x.firstReady.map fun _ => s.tick
                                    sentReady := x.sentReady.map fun e => (s.tick, e.2) }).ringRelease k

/-- STALL (R423) of a member of this entry's ring, or, `paired`, of a member of a ring paired with it (R406, R422). -/
def execStall (k : BitVec 3) (member : BitVec 5) (s : State) (paired : Bool := false) : Outcome State Fault Refusal :=
  .next (if paired then s.pairedHold k.toNat else if member.toNat < s.ringSize k.toNat then s.takeStall k.toNat member.toNat else s)

/-- STEP_TIMEOUT (R423): the left neighbour's RELEASE of a step is missing 5,000 ticks after the step was due. -/
def execStepTimeout (k : BitVec 3) (s : State) : Outcome State Fault Refusal :=
  let k := k.toNat
  let x := s.ring k
  let n := max 1 (s.ringSize k)
  let missing := (List.range x.steps).any fun i => decide (i ∉ x.leftReleased) && decide (x.due i + 5000 ≤ s.time.count.toNat)
  .next (if s.ringGoes k = true ∧ x.running = true ∧ missing = true then s.declareStall k ((s.ringMember k + n - 1) % n) else s)

/-- BARRIER_TIMEOUT (R423): a READY missing at the leader, or START missing after a READY, for barrier_ms. -/
def execBarrierTimeout (k : BitVec 3) (member : BitVec 5) (s : State) : Outcome State Fault Refusal :=
  let k := k.toNat
  let x := s.ring k
  let wait := 100000 * max 1 (s.fld Key.shrCfg 15 8)
  let silent := match x.firstReady with
    | some t => decide (t + wait ≤ s.tick) && x.readies.all fun e => decide (e.1 ≠ member.toNat)
    | none => false
  let leaderGone := match x.sentReady with
    | some e => decide (e.1 + wait ≤ s.tick) && decide (e.2 = member.toNat)
    | none => false
  .next (if s.ringGoes k = true ∧ member.toNat < s.ringSize k ∧ (silent = true ∨ leaderGone = true)
    then s.declareStall k member.toNat else s)

/-! ### Recovery (R426) -/

/-- A shard rolled back to `n` tokens: the pages opened since go back to the holding, one of them to the reservation where the shard
has none. -/
def State.rollShard (s : State) (h0 : Shard) (n : Nat) : State :=
  let h := s.again h0
  if h.len ≤ n then s
  else
    let keep := ceilDiv n 256
    let gone := (h.pages.filter fun p => decide (keep ≤ p) && (s.pte (h.entryAt p)).present)
    let frames := gone.map fun p => (s.pte (h.entryAt p)).first
    let s1 := gone.foldl (fun t p =>
      let a := h.entryAt p
      ((t.freeMoves (t.pte a).first).dropPending a).setPte a { gen := (t.pte a).gen }) s
    let s2 := if n % 256 = 0 then s1 else
      let a := h.entryAt (n / 256)
      s1.setPte a { s1.pte a with valid := n % 256 }
    let h2 := { s2.again h with len := n }
    match h2.reservation, frames with
    | none, f :: rest => s2.setRes { h2 with holding := rest ++ h2.holding, reservation := some f, held := false, waiting := false }
    | _, _ => s2.setShard { h2 with holding := frames ++ h2.holding }

/-- The length that a request's shards on member `m` had when the interrupted round or step began. -/
def State.startLength (s : State) (k : Nat) (r : Req) (m : Nat) : Nat :=
  let n := s.ringSize k
  if r.inPrefill then min (localTokens r.d.count n m) (4096 * (r.qpage / 16))
  else localTokens (r.d.count + r.j - 1) n m

/-- The context of a request, and the mirror pages, sent to the spare that took X: its token IDs, or where the image's layers start
after the first a request to the previous stage to resend its activations (R406). A mirror line that cannot be read
ends the request with MIRROR_LOST. -/
def State.sendContext (s : State) (k x : Nat) (dst : Nat) (r : Req) : State :=
  let msg := fun (name : String) (a : List Nat) => Out.routed (BitVec.ofNat 16 dst) (.ring name (s.ringHandle k :: a))
  let pages := (s.ring k).mirror.filter fun p => decide (p.tag = r.tag)
  let bytes := fun (p : MirrorPage) => match (s.shardsOf r.part r.tag).find? fun h => decide (h.idx = p.shard) with
    | some h => 4096 * h.units
    | none => 0
  let later := match s.model r.part r.d.model with
    | some m => m.shards.all fun h => decide (0 < h.layer)
    | none => false
  let s1 := s.emit (msg "CONTEXT" ([r.tag.toNat, r.d.count, r.d.maxNew, s.startLength k r x, r.answer.length, if later then 1 else 0]
    ++ (if later then [] else (r.tokens ++ r.answer).map BitVec.toNat)))
  if pages.any fun p => (s.poisoned (p.frame * 4096) (bytes p)).isSome then
    (s1.latch pgShr 2 (ringDetail k x 0x09)).finish r stFaultRing 0x09 none
  else pages.foldl (fun t p => t.emit (msg "MIRROR_PAGE"
    ([r.tag.toNat, p.shard, p.page, p.valid] ++ (p.scale ++ s.rd (p.frame * 4096) (bytes p)).map BitVec.toNat))) s1

/-- TAKEN(X) heard (19 R478, R477): every member of a recovering ring rolls back, and the stalled member's right
neighbour sends the spare the contexts and the mirror. -/
def State.ringTaken (s : State) (c : Nat) : State :=
  ((List.range 8).filter fun k => decide (s.ringState k = rgRecovering)).foldl (fun t k =>
    match (t.ring k).stalled with
    | none => t
    | some x =>
      if (t.ring k).rolled = true ∨ t.memberCoords k x ≠ some c ∧ t.memberCoords k x ≠ none then t
      else
        let rs := t.ringReqs k
        let t1 := rs.foldl (fun u r => (u.shardsOf r.part r.tag).foldl (fun v h => v.rollShard h (u.startLength k r (u.ringMember k))) u) t
        let t2 := t1.setRing k { t1.ring k with rolled := true }
        if (x + 1) % max 1 (t.ringSize k) = t.ringMember k then rs.foldl (fun u r => u.sendContext k x c r) t2 else t2) s

/-- RECOVER_TIMEOUT (R426): the recovery did not end within recover_ms. -/
def execRecoverTimeout (k : BitVec 3) (s : State) : Outcome State Fault Refusal :=
  let k := k.toNat
  let x := s.ring k
  .next (if s.ringState k = rgRecovering ∧ x.since + 100000 * max 1 (s.fld Key.shrCfg 31 16) ≤ s.tick
    then s.ringFails k (x.stalled.getD 0) 0x08 else s)

/-- The mirror of this member's pages sent afresh to the spare; their mirror bits stay clear until it acknowledges
them (R426, step 5). -/
def State.remirror (s : State) (k : Nat) : State :=
  (s.ringReqs k).foldl (fun t r => (t.shardsOf r.part r.tag).foldl (fun u h => h.pages.foldl (fun v p =>
    let a := h.entryAt p
    let e := v.pte a
    if e.present then (v.setPte a { e with mirror := false, dirty := true }).mirrorOut h p 0 e.valid true else v) u) t) s

/-- A recovery ends on this member: the entry is READY, and the round or step restarts at the ring's first layer. -/
def State.ringRecovered (s : State) (k : Nat) : State :=
  let x := s.ring k
  let who := x.stalled.getD (s.ringMember k)
  let n := max 1 (s.ringSize k)
  let s1 := ((s.setRingState k rgReady 0).ringEvent k who 2).inc Key.shrRecoverCnt
  let s2 := s1.setRing k { s1.ring k with stalled := none, rolled := false }
  let s3 := (s2.ringReqs k).foldl (fun t r =>
    if r.inPrefill then t.setReq { r with layer := 0, qpage := r.qpage / 16 * 16 } else t.clearSteps r.part r.tag) s2
  if (s.ringMember k + 1) % n = who ∧ who ≠ s.ringMember k then s3.remirror k else s3

/-- A page of an adopted request written as this member's own. -/
def State.adoptPage (s : State) (h0 : Shard) (page len : Nat) (bytes : List Byte) : State :=
  let h := s.again h0
  match h.nextFrame with
  | none => s
  | some f =>
    let a := h.entryAt page
    let s1 := (s.takeNext h page).reuse f (.kv h.part) h.part
    let s2 := { s1 with mem := s1.mem.zeroFrame f h.units }
    let e : Pte := { present := true, dirty := true, refcount := 1, score := 0x3C00, gen := ((s2.pte a).gen + 1) % 256, valid := min 256 (len - 256 * page) }
    let s3 := (s2.setPte a (e.withFirst f)).wr (scaleOf a) (bytes.take 16)
    let s4 := s3.wr (f * 4096) ((bytes.drop 16).take (4096 * h.units))
    s4.setShard { s4.again h with len := max (s4.again h).len (min len (256 * page + 256)) }

/-- A request adopted by the spare: its shards are set aside, and it posts no records (R427). -/
def State.adopt (s : State) (k : Nat) (c : RingContext) : Option State :=
  let d := reqDesc c.desc
  let p := s.ringPart k
  let tag := descTag c.desc
  match s.model p d.model with
  | none => none
  | some m =>
    let full := localTokens d.count (s.ringSize k) (s.ringMember k)
    let phase : Phase := if c.answer ≠ [] ∨ full ≤ c.lengths.headD 0 then .decode else .prefill
    let r : Req := { part := p, sq := 0, tag := tag, d := d, tokens := c.tokens, frameLong := false, phase := phase
                     fetchNo := s.nextFetch, inst := s.rel.nextInst, admitNo := s.rr.admits, j := c.answer.length, answer := c.answer
                     qpage := c.lengths.headD 0 / 256, bucket := bucketOf (s.promptPages d).1, adopted := true }
    match (s.newInstance p 0 tag).setAside r m .none with
    | none => none
    | some t =>
      let lane := t.laneFree p (decide (phase = .decode))
      some { t with reqs := t.reqs ++ [{ r with lane := lane, preempted := !lane }], nextFetch := t.nextFetch + 1
                    rr := { t.rr with admits := t.rr.admits + 1 } }

/-- CONTEXT (R426): the spare takes up a request and writes the pages streamed from the mirror; with the last part its
entry becomes READY. On another member a last part says that the recovery has ended. The context may hold a request to the
previous stage to resend its activations: the spare passes it to the member named, and on that member, whose entry is held for
the paired ring (R422), `resend` names the spare that gets the activations kept (R406); its last part ends the hold. -/
def execContext (k : BitVec 3) (c : RingContext) (s : State) : Outcome State Fault Refusal :=
  let k := k.toNat
  let tag := descTag c.desc
  let ask := fun (t : State) => match c.resend with
    | some dst => t.emit (.routed dst (.ring "RESEND" [t.ringHandle k, tag.toNat]))
    | none => t
  let spare := decide (s.fld Key.jryStat 31 29 = 3) && ((s.ring k).stalled = none || (s.ring k).stalled = some (s.ringMember k))
  .next (if spare then
      if s.ringState k ≠ rgIdle ∧ s.ringState k ≠ rgRecovering then s
      else
        let s0 := if s.ringState k = rgIdle then (s.setRingState k rgRecovering 0).setRing k
          { s.ring k with stalled := some (s.ringMember k), since := s.tick } else s
        let held := (s0.ringReqs k).find? fun r => decide (r.tag = tag)
        if c.mirrorOk = false then
          let s1 := s0.latch pgShr 2 (ringDetail k (s.ringMember k) 0x09)
          match held with
          | some r => s1.finish r stFaultRing 0x09 none
          | none => s1
        else
          let s1 := if held.isSome then some s0 else s0.adopt k c
          match s1 with
          | none => s0.ringFails k (s.ringMember k) 0x02
          | some t =>
            let t1 := c.pages.foldl (fun u g => match (u.shardsOf (u.ringPart k) tag).find? fun h => decide (h.idx = g.1) with
              | some h => u.adoptPage h g.2.1 (c.lengths.getD g.1 0) g.2.2
              | none => u) t
            ask (if c.last then t1.ringRecovered k else t1).kvpUpdate
    else if (s.ring k).pairedSince.isSome = true then
      let s1 := match c.resend with
        | some dst => s.resendKept k tag dst.toNat
        | none => s
      if c.last then s1.pairedGoes k else s1
    else if c.last = true ∧ s.ringState k = rgRecovering ∧ (s.ring k).rolled = true then s.ringRecovered k
    else s)

/-! ### Mirroring (R416) -/

/-- A mirror frame for a page of the left neighbour: one set aside, or one of the far part of the pool. -/
def State.mirrorFrame (s : State) (h : Shard) : Option (Nat × State) :=
  match h.mirrorHold with
  | f :: rest => some (f, s.setShard { h with mirrorHold := rest })
  | [] => s.takeIn (s.poolOf h.part) .far h.units (.kv h.part) h.part

/-- MIRROR_ROWS (R416): the left neighbour's scale record and rows of a page, written into a mirror frame under the
partition's key on this package, and acknowledged. `slot` is the first slot of the rows; each slot holds every head's
key bytes, then value bytes. -/
def execMirrorRows (k : BitVec 3) (tag : BitVec 64) (shard page slot : Nat) (scale rows : List Byte) (s : State) :
    Outcome State Fault Refusal :=
  let k := k.toNat
  .next (s.asTake fun s => if (s.ringState k ≠ rgReady ∧ s.ringState k ≠ rgRecovering) ∨ s.ringMirror k = false then s
    else match (s.shardsOf (s.ringPart k) tag).find? fun h => decide (h.idx = shard) with
      | none => s
      | some h =>
        let x := s.ring k
        let same := fun (p : MirrorPage) => decide (p.tag = tag) && decide (p.shard = shard) && decide (p.page = page)
        let have_ : Option (MirrorPage × State) := match x.mirror.find? same with
          | some p => some (p, s)
          | none => match s.mirrorFrame h with
            | none => none
            | some (f, t) => some (⟨tag, shard, page, f, [], 0⟩, { t with mem := t.mem.zeroFrame f h.units })
        match have_ with
        | none => s
        | some (p, s1) =>
          let half := h.heads * 256 * h.dim
          let each := 2 * h.heads * h.dim
          let n := rows.length / max 1 each
          let s2 := (List.range n).foldl (fun t i => (List.range h.heads).foldl (fun u z =>
            (u.wr (p.frame * 4096 + (z * 256 + slot + i) * h.dim) (cut rows (i * each + z * h.dim) h.dim)).wr
              (p.frame * 4096 + half + (z * 256 + slot + i) * h.dim) (cut rows (i * each + (h.heads + z) * h.dim) h.dim)) t) s1
          let q := { p with scale := if scale = [] then p.scale else scale, valid := max p.valid (slot + n) }
          let y := s2.ring k
          let s3 := s2.setRing k { y with mirror := (y.mirror.filter fun z => !same z) ++ [q] }
          s3.toLeft k "MIRROR_ACK" [tag.toNat, shard, page, q.valid])

/-- MIRROR_ACK (R416): when every published row of the page is acknowledged, the entry's mirror bit is set and dirty
is cleared. -/
def execMirrorAck (entry : Nat) (valid : Nat) (s : State) : Outcome State Fault Refusal :=
  .next (match s.shardOfEntry entry with
    | none => s
    | some h =>
      match s.req h.part h.tag with
      | none => s
      | some r => match s.reqRing r with
        | none => s
        | some k =>
          let a := s.auth entry
          let e := s.pte a
          if s.ringMirror k ∧ e.present = true ∧ e.valid ≤ valid then (s.setPte a { e with mirror := true, dirty := false }).ringRelease k
          else s)

end Sys2Proof.Machine
end

