-- ==== Sys2Proof/Machine/Boom.lean ====
section
/-! DEFINITION. The Booms (12): a walk's next macro issued into a slot, held, performed and retired; the checks and
failures of the units that perform it; test walks; units retired by a register (11 R250, R255 to R257; 13 R308, R313;
14 R340, R342). -/

namespace Sys2Proof.Machine

open Host

/-! ### What a macro comes to -/

/-- The row of the opcode table that a macro belongs to: its op, and the kind of a CLEW or XFER macro. -/
def macRow (m : Mac) : Nat × Nat := (m.op, if m.op = 4 then m.ckind else if m.op = 6 then m.xkind else 0)

/-- A SCATTER macro at issue: its descriptor, its sources, and the page-table block it works on (13 R311). All of them lie where the
partition's data may lie (R277, 00 R19, R20). -/
def State.resolveScatter (s : State) (b : BoundPlan) (m : Mac) : Resolved :=
  let a := m.u64 8
  let x := scatDesc (BitVec.ofNat 512 (s.rdNat a 64))
  let n := x.count * (2 * x.heads * dimOf x.dim)
  let may := fun (r : Nat × Nat) => s.owns b.part r || b.inBanks r
  let foreign := s.paging.shards.any fun h => decide (h.pt = x.pt) && decide (h.part ≠ b.part)
  { err := if may (a, 64) && (!x.ok || (may (x.srcK, n) && may (x.srcV, n) && !foreign)) then 0 else 2
    reads := [(a, 64), (x.srcK, n), (x.srcV, n)], writes := [(a + 0x38, 2), (x.pt / 65536 * 65536, 65536)]
    units := [⟨utScatter, b.spar, 0⟩] }

/-- A macro resolved at issue. -/
def State.resolveMac (s : State) (b : BoundPlan) (w : Walk) (m : Mac) : Resolved :=
  if m.op = 1 then s.resolveGemm b w m else if m.op = 2 then s.resolveCopy b w m
  else if m.op = 3 then s.resolveAttn b w m else if m.op = 4 then s.resolveClew b w m
  else if m.op = 5 then s.resolveScatter b m
  else { s.resolveXfer b w m with units := [⟨utCollective, 0, 0⟩, ⟨utCollective, 1, 0⟩] }

/-- The bound words and pointer-list entries that a macro reads before anything else of it is known (R267). -/
def State.firstWords (s : State) (w : Walk) (m : Mac) : List (Nat × Nat) :=
  if m.op = 1 ∨ m.op = 2 then
    boundWords m [0, 1, 2, 3] ++ [0x20, 0x38, 0x50].flatMap fun o => listWords (m.operand o) (s.boundOf w m 3)
  else if m.op = 3 then
    let n := if m.decode then (w.regs.getD 3 0).toNat else 1
    [0x20, 0x38, 0x50, 0x68].flatMap fun o => listWords (m.operand o) n
  else if m.op = 4 then [0x20, 0x38, 0x50, 0x68].flatMap fun o => listWords (m.operand o) 1
  else if m.op = 5 then [(m.u64 8, 64)]
  else [0x20, 0x38].flatMap fun o => listWords (m.operand o) 1

/-- The plan of a walk; a test walk takes a plan that its partition has bound on the Spar, or else the units there
that it may use. -/
def State.walkPlan (s : State) (w : Walk) : Option BoundPlan :=
  if w.test then
    match s.fab.plans.find? fun b => decide (b.part = w.part) && decide (b.spar = w.spar) with
    | some b => some b
    | none => some { part := w.part, handle := 0, plan := 0, spar := w.spar, yards := s.bindable w.part w.spar 1 8
                     luffs := s.bindable w.part w.spar 2 2, clews := s.bindable w.part w.spar 3 4, banks := s.bindable w.part w.spar 5 48 }
  else s.planOf w

/-! ### Stops, spills and the end of a walk (R275, R280, 13 R303, 14 R339) -/

/-- A test walk ends with a status: 0, or a cause index plus 1 (Table 12.7). -/
def State.testEnds (s : State) (k st : Nat) : State :=
  (s.setFld (Key.bomTestStat k) 7 0 st).setBit (Key.bomTestStat k) 31 false

/-- A stop that is complete: state areas in banks are copied to their spill areas and kept. -/
def State.spillWalk (s : State) (w : Walk) : State :=
  let kept := w.liveAreas.map fun a => (a.1, s.rd a.1 a.2.1)
  let s1 := w.liveAreas.foldl (fun t a => match a.2.2 with
    | some d => t.wr d (s.rd a.1 a.2.1)
    | none => t) s
  s1.setWalk { w with spilled := kept }

/-- What becomes of a walk none of whose macros is in flight: it has ended, or its stop is complete. -/
def State.settleWalk (s : State) (spar id : Nat) : State :=
  match s.walkAt spar id with
  | none => s
  | some w =>
    if s.inFlight w ≠ [] then s
    else if w.test then
      if w.stopped then s.dropWalk w
      else if w.count ≤ w.next then (s.dropWalk w).testEnds spar 0 else s
    else if w.count ≤ w.next then
      let t := s.dropWalk w
      { t with fab := { t.fab with doneSteps := t.fab.doneSteps ++ w.tags.map fun g => (w.part, g, w.step) } }
    else if w.tags = [] then s.dropWalk w
    else if w.stopped ∧ w.spilled = [] then s.spillWalk w
    else s

/-- A request's stop is asked for: a preemption, a CANCEL or a RESET. -/
def State.stopAsked (s : State) (p : Nat) (tag : BitVec 64) : Bool :=
  match s.req p tag with
  | some r => r.stop.isSome || r.marked.isSome || r.preempted
  | none => true

/-- A stop takes effect at a step_end macro: a prefill walk issues nothing more; sequences leave a decode walk. -/
def State.takeStops (s : State) (w : Walk) : State :=
  if w.test then s
  else if w.decode then
    let left := w.tags.filter fun t => !s.stopAsked w.part t
    s.setWalk { w with stopped := decide (left = []) }
  else if w.tags.any (s.stopAsked w.part) then s.setWalk { w with stopped := true } else s

/-! ### A macro performed -/

/-- State areas in banks that a macro leaves live, or finishes with. -/
def State.trackAreas (s : State) (w0 : Walk) (x : MacroSt) : State :=
  let m : Mac := x.word
  match s.walkAt x.spar x.walk with
  | none => s
  | some w =>
    let o := m.operand 0x68
    if (m.op ≠ 3 ∧ m.op ≠ 4) ∨ o.sram = false ∨ w0.test = true then s
    else
      let clewRange := fun (rows : Nat) => ((rowOf o (x.lists.getD 3 []) 0 64), (if o.ld = 0 then 64 else o.ld) * (rows - 1) + 64)
      let (a, n, live, spill) :=
        if m.op = 3 then
          let seqs := if m.decode then x.bounds.getD 0 0 else 1
          let toks := if m.decode then 1 else x.bounds.getD 0 0
          (o.at_ (x.lists.getD 3 []) 0, seqs * m.heads.length * m.qGroup * toks * recSize m, attnLeaves m x.bounds, some (m.u64 0x18))
        else
          let r := clewRange (x.bounds.getD 0 0)
          (r.1, r.2, decide (m.ckind = 2 ∨ m.ckind = 3 ∨ m.ckind = 6 ∨ m.ckind = 7), none)
      let others := w.liveAreas.filter fun e => decide (e.1 ≠ a)
      s.setWalk { w with liveAreas := if live then others ++ [(a, n, spill)] else others }

/-- The ranges whose lines a macro itself consumes: the page-table blocks of an ATTN macro are read entry by entry
(`readKeyPage`), and the sources and the block of a SCATTER macro by the scatter engine (`appendBad`). -/
def consumed (m : Mac) (rs : List (Nat × Nat)) : List (Nat × Nat) :=
  if m.op = 5 then rs.take 1 else if m.op = 3 then rs.filter fun r => decide (r.2 ≠ 65536) || decide (r.1 % 65536 ≠ 0) else rs

/-- A macro's accesses performed: an uncorrectable line among what it reads ends its requests instead, and corrected ones are
counted (08 R157, R173). -/
def State.performMacro (s0 : State) (b : BoundPlan) (w : Walk) (x : MacroSt) : State :=
  let m : Mac := x.word
  match ((consumed m x.reads).filterMap fun r => s0.poisoned r.1 r.2).head? with
  | some a => (s0.setFlight { x with done := true }).walkUe w a
  | none =>
    let s := s0.readRanges (consumed m x.reads)
    if m.op = 5 then
      if 32 ≤ (s.paging.scatter.filter fun c => decide (c.spar = x.spar)).length then s
      else
        let c : Scatter := { spar := x.spar, slot := x.slot, dpa := m.u64 8, desc := BitVec.ofNat 512 (s.rdNat (m.u64 8) 64) }
        let t := s.setFlight { x with started := true }
        { t with paging := { t.paging with scatter := t.paging.scatter ++ [c] } }
    else if m.op = 6 then
      let y := { x with started := true }
      (s.setFlight y).performXfer w y
    else
      let t := if m.op = 1 then s.performGemm b w x else if m.op = 2 then s.performCopy x
        else if m.op = 3 then s.performAttn b w x else s.performClew b w x
      let t2 := x.writes.foldl (fun (u : State) r => u.abortStored r.1 r.2) t
      (t2.setFlight { x with done := true }).trackAreas w x

/-- A macro that failed a check at issue leaves its slot, and its requests complete: BOUND_RANGE, BAD_ADDR or
GROUP_MISSING (R283, 18 R445). Earlier macros of its walk retire. -/
def State.issueFails (s : State) (w : Walk) (index err : Nat) : State :=
  let k := w.spar
  let detail := w.id % 64 * 2 ^ 20 + index % 2 ^ 20
  let s1 := if err = 1 then s.latch (pgBom k) 0 detail else if err = 2 then s.latch (pgBom k) 1 detail else s
  let s2 := if w.test then s1.testEnds k err else s1
  let s3 := match s2.walkAt k w.id with
    | some y => s2.setWalk { y with stopped := true }
    | none => s2
  let s4 := if err = 1 then s3.failWalk w stFaultUnit 0x12 else if err = 2 then s3.failWalk w stFaultUnit 0x13
    else s3.failWalk w stFaultLink 0x04
  s4.settleWalk k w.id

/-- The bytes that earlier macros still in flight write. -/
def State.writesBefore (s : State) (x : MacroSt) : List (Nat × Nat) := (s.earlier x).flatMap fun a => a.writes

/-- A macro in flight taken as far as it can go: its bounds are read once no earlier macro still writes them, and its
accesses are performed once no earlier macro holds it back and its pins are granted; a pin that waits is tried again later. -/
def State.advance (s : State) (x0 : MacroSt) : State :=
  match s.fab.flight.find? fun y => decide (y.spar = x0.spar) && decide (y.slot = x0.slot), s.walkAt x0.spar x0.walk with
  | some x, some w =>
    let m : Mac := x.word
    if x.done || x.started then s
    else match s.walkPlan w with
      | none => s
      | some b =>
        let words := s.firstWords w m
        let blind := ((s.writesBefore x).any fun r => words.any (meets r)) || s.agentHolds x words []
        if !x.resolved && (blind || (s.earlier x).any fun a => !a.resolved) then s
        else match (if x.resolved then none else (words.filterMap fun r => s.poisoned r.1 r.2).head?) with
        | some a => (s.setFlight { x with resolved := true, done := true }).walkUe w a
        | none =>
          let r := if x.resolved then ({} : Resolved) else s.resolveMac b w m
          let y := if x.resolved then x else { x with
            bounds := r.bounds, lists := r.lists, reads := r.reads, writes := r.writes, units := r.units, resolved := true
            done := r.idle }
          if r.err ≠ 0 then
            { s with fab := { s.fab with flight := s.fab.flight.filter fun z => !(decide (z.spar = x.spar) && decide (z.slot = x.slot)) } }.issueFails w x.index r.err
          else
            let s1 := if x.resolved then s.setFlight y else (s.setFlight y).inc (Key.bomIssueCnt x.spar)
            if r.idle then s1
            else
              let s2 := if x.resolved then s1 else s1.useWalk (⟨utBoom, x.spar, 0⟩ :: y.units) w
              if ((s2.earlier y).any fun a => holdsBack a y.reads y.writes y.units m) || s2.agentHolds y y.reads y.writes then
                (if x.resolved then s2 else s2.inc (Key.bomHazardCnt x.spar))
              else if y.late then s2
              else
                let n := s2.attnPinWaits w y
                if n = 0 then s2.performMacro b w y
                else
                  let s3 := s2.setFlight { y with late := true, asked := true }
                  if y.asked then s3 else s3.addCnt Key.kvpPinWaitCnt n
  | _, _ => s

/-- The macros in flight of a Boom, in issue order, taken as far as they can go. -/
def State.advanceAll (s : State) (k : Nat) : State :=
  (s.fab.flight.filter fun x => decide (x.spar = k)).foldl State.advance s

/-! ### Checks and failures of the units (11 R250, R256, R257; 12 R285; 13 R308; 14 R342) -/

/-- The check of an operation on units of a type: an armed RESIDUE injection of one of them makes it mismatch, once or
twice (24 R598). `per` counts the checkers of a unit. -/
def State.injCheck (s : State) (t per : Nat) (us : List Nat) (c : Check) : Check :=
  match s.rel.inject with
  | some i =>
    if (i.kind = 5 ∨ i.kind = 6) ∧ i.unit.type = t ∧ i.unit.index ∈ us then
      ⟨if i.kind = 5 then 1 else 2, false, per * us.idxOf i.unit.index⟩
    else c
  | none => c

/-- The injection acted if the check is its own; a unit that it takes out of service is noted (R599). -/
def State.injChecked (s : State) (t : Nat) (us : List Nat) : State :=
  match s.rel.inject with
  | some i =>
    if (i.kind = 5 ∨ i.kind = 6) ∧ i.unit.type = t ∧ i.unit.index ∈ us then
      let s1 := s.injActed
      if i.kind = 6 then { s1 with rel := { s1.rel with injected := s1.rel.injected ++ [unitBase i.unit] } } else s1
    else s
  | none => s

/-- A residue or duplicate check of a Yard: a first mismatch that passes on re-execution latches RES_TRANS, a second
one takes the Yard out of service. `at_` counts dot-product units, 1,024 for each Yard of the mask. -/
def State.yardCheck (s0 : State) (b : BoundPlan) (m : Mac) (c0 : Check) : State :=
  let c := s0.injCheck utYard 1024 (macYards b m) c0
  let s := s0.injChecked utYard (macYards b m)
  let i := (macYards b m).getD (c.at_ / 1024) 0
  if c.mismatches = 0 ∨ macYards b m = [] then s
  else
    let s1 := s.latch (pgYrd i) (if c.mismatches = 1 then 0 else 1) (c.at_ % 1024)
    let s2 := if c.dup then s1.latch (pgYrd i) 2 (c.at_ % 1024) else s1
    if c.mismatches = 1 then s2.inc (Key.yrdResTransCnt i) else s2.loseUnit ⟨utYard, i, 0⟩

/-- The same for a Luff: `at_` counts blocks, 65,536 for each Luff of the mask. -/
def State.luffCheck (s0 : State) (b : BoundPlan) (m : Mac) (c0 : Check) : State :=
  let c := s0.injCheck utLuff 65536 (macLuffs b m) c0
  let s := s0.injChecked utLuff (macLuffs b m)
  let i := (macLuffs b m).getD (c.at_ / 65536) 0
  if c.mismatches = 0 ∨ macLuffs b m = [] then s
  else
    let s1 := s.latch (pgLuf i) (if c.mismatches = 1 then 0 else 1) (c.at_ % 65536)
    let s2 := if c.dup then s1.latch (pgLuf i) 2 (c.at_ % 65536) else s1
    if c.mismatches = 1 then s2.inc (Key.lufResTransCnt i) else s2.loseUnit ⟨utLuff, i, 0⟩

/-- A bank with an uncorrectable word is retired (11 R256). -/
def State.bankUe (s : State) (k b : Nat) : State :=
  ((s.latch (pgSpr k) 0 (b % 128 * 2 ^ 20)).setBit (Key.sprBank k b) 2 true).loseUnit ⟨utBank, 48 * k + b, 0⟩

/-- Corrected words of a bank are counted, and kept for 24 hours (11 R238, R256). -/
def State.bankCorrected (s : State) (k b n : Nat) : State :=
  let keep := s.fab.bankCe.filter fun e => decide (s.tick < e.2 + 8640000000000)
  let s1 := s.addCnt (Key.sprBankCeCnt k) n
  { s1 with fab := { s1.fab with bankCe := keep ++ List.replicate n (48 * k + b, s.tick) } }

/-- A bank recorded 64 corrected words within 24 hours, and no macro in flight works with it (11 R256). -/
def State.bankDue (s : State) (i : Nat) : Bool :=
  decide (64 ≤ (s.fab.bankCe.filter fun e => decide (e.1 = i) && decide (s.tick < e.2 + 8640000000000)).length)
    && s.fab.flight.all fun x => x.done || match s.walkAt x.spar x.walk with
      | some w => match s.walkPlan w with
        | some b => decide (i ∉ b.banks)
        | none => true
      | none => true

/-- A flit parity error on a link of a Spar: a second one within 1 s takes the Spar out of service (11 R257). -/
def State.parityError (s : State) (w : Walk) (sw stream : Nat) : State :=
  let k := w.spar
  let again := s.fab.parity.any fun e => decide (e.1 = k) && decide (e.2.1 = sw) && decide (s.tick ≤ e.2.2 + 100000000)
  let s1 := (s.latch (pgSpr k) 1 (sw * 2 ^ 20 + stream)).inc (Key.sprStreamErrCnt k)
  let l := (s1.fab.parity.filter fun e => !(decide (e.1 = k) && decide (e.2.1 = sw))) ++ [(k, sw, s.tick)]
  let s2 := ({ s1 with fab := { s1.fab with parity := l } }).failWalk w stFaultUnit 0x11
  if again then s2.loseSpar k stFaultUnit 0x11 else s2

/-- An uncorrectable word of a Clew's store: the store is loaded again; a second one within 24 hours takes the Clew out
of service (14 R342). -/
def State.storeUeAt (s : State) (w : Walk) (c slot : Nat) : State :=
  let again := match s.fab.storeUe.find? fun e => decide (e.1 = c) with
    | some e => decide (s.tick < e.2 + 8640000000000)
    | none => false
  let s1 := s.latch (pgClw c) 1 slot
  let l := (s1.fab.storeUe.filter fun e => decide (e.1 < c)) ++ (c, s.tick) :: s1.fab.storeUe.filter fun e => decide (c < e.1)
  let s2 := ({ s1 with fab := { s1.fab with storeUe := l } }).failWalk w stFaultUnit 0x16
  if again then s2.loseUnit ⟨utClew, c, 0⟩ else s2

/-- What a failure that a macro met does. -/
def State.sparFault (s : State) (w : Walk) : SparFault → State
  | .streamParity sw st => s.parityError w sw.toNat st.toNat
  | .slotUe => (s.latch (pgBom w.spar) 3 (macroDetail w)).loseSpar w.spar stFaultUnit 0x14
  | .storeUe c sl => if c.toNat / 4 = w.spar then s.storeUeAt w c.toNat sl.toNat else s
  | .bankCe b n => if b.toNat < 48 then s.bankCorrected w.spar b.toNat n else s
  | .bankUe b => if b.toNat < 48 then s.bankUe w.spar b.toNat else s
  | .lineUe a => s.walkUe w a

/-! ### Issue (R261, R273, R274) -/

/-- The partition under which a walk is served: test walks are served beside the shared partitions (R274). -/
def turnKey (w : Walk) : Nat := if w.test then 128 else w.part

/-- A walk's next macro is issuable: a slot is open to it, and its units are bound and awake (R274, 23 R566). -/
def State.issuable (s : State) (w : Walk) : Bool :=
  !w.stopped && decide (w.next < w.count) && (s.freeSlot w.spar).isSome && s.slotOpen w.spar w.part w.test && match s.walkPlan w with
    | some b => !s.planLost b && s.allAwake (s.planDomains b)
    | none => false

/-- The next of some numbers after the last one served, in a circle (`last` is stored plus one). -/
def nextTurn (l : List Nat) (last : Nat) : Option Nat :=
  match ((l.filter fun x => decide (last ≤ x)).min? : Option Nat) with
  | some x => some x
  | none => l.min?

/-- It is the turn of a walk: at unreserved positions shared partitions and test walks with issuable macros are served
round-robin, and each partition's walks are served round-robin (R274). -/
def State.walkTurn (s : State) (w : Walk) : Bool :=
  let ready := s.fab.walks.filter fun x => decide (x.spar = w.spar) && s.issuable x
  let shared := ready.filter fun x => x.test || !s.isSealed x.part
  let mine := ready.filter fun x => decide (turnKey x = turnKey w)
  ((s.isSealed w.part && !w.test)
      || decide (nextTurn (shared.map turnKey) (SMap.get (fun _ => 0) s.fab.turnPart w.spar) = some (turnKey w)))
    && decide (nextTurn (mine.map fun x => x.id) (SMap.get (fun _ => 0) s.fab.turnWalk (256 * w.spar + turnKey w)) = some w.id)

/-- A walk was served. -/
def State.noteTurn (s : State) (w : Walk) : State :=
  { s with fab := { s.fab with
    turnPart := if s.isSealed w.part ∧ w.test = false then s.fab.turnPart else SMap.set (fun _ => 0) s.fab.turnPart w.spar (turnKey w + 1)
    turnWalk := SMap.set (fun _ => 0) s.fab.turnWalk (256 * w.spar + turnKey w) (w.id + 1) } }

/-- The macro put into a slot. -/
def State.enterSlot (s : State) (w : Walk) (m : Mac) (slot : Nat) (done late : Bool) : State :=
  let n := SMap.get (fun _ => 0) s.fab.issued w.spar
  let x : MacroSt := { spar := w.spar, slot := slot, walk := w.id, index := w.next, part := w.part, word := m
                       resolved := done, done := done, num := n, late := late && !done }
  let s0 := s.setWalk { w with next := if m.last then w.count else w.next + 1 }
  let s1 := s0.noteTurn w
  { (if done then s1.inc (Key.bomIssueCnt w.spar) else s1) with fab := { s1.fab with flight := s1.fab.flight ++ [x], issued := SMap.set (fun _ => 0) s1.fab.issued w.spar (n + 1) } }

/-- A test walk's macro fails decode: the checks of LOAD_MODEL, with every unit of a Spar in the demand. -/
def State.testMacBad (s : State) (w : Walk) (m : Mac) : Bool :=
  let d : Demand := { yards := 8, luffs := 2, clews := 4, banks := 48 }
  if m.op = 4 then
    let info := Config.clew (match (s.walkPlan w).bind fun b => s.model b.part b.handle with
      | some x => s.section x 4
      | none => [])
    decide (clewCheck info d m ≠ 0)
  else decide (macCheck d m ≠ 0)

/-- The macro `m` of walk `w` taken into slot `slot`; one that is settled at once is advanced, and a macro that ends a step
lets the walk's stops take effect. -/
def State.takeMac (s : State) (w : Walk) (m : Mac) (slot : Nat) (settled late : Bool) : State :=
  match s.walkAt w.spar w.id with
  | none => s
  | some w1 =>
    let s1 := s.enterSlot w1 m slot settled late
    let s2 := match s1.fab.flight.find? fun x => decide (x.spar = w.spar) && decide (x.slot = slot) with
      | some x => s1.advance x
      | none => s1
    match m.stepEnd, s2.walkAt w.spar w.id with
    | true, some w2 => s2.takeStops w2
    | _, _ => s2

/-- The macro `m` of walk `w` taken into a free slot, with the checks of its bound units: `inj` are the
injected units before. -/
def State.issueMac (s : State) (w : Walk) (m : Mac) (b : BoundPlan) (slot : Nat) (inj : List UnitId)
    (chk : Check) (f : Option SparFault) (late : Bool) : State :=
  let s1 := if m.op = 1 then s.yardCheck b m chk else if m.op = 3 then s.luffCheck b m chk else s
  let s2 := match f with
    | some e => s1.sparFault w e
    | none => s1
  s2.takeMac w m slot (f.isSome || decide (2 ≤ chk.mismatches.toNat) || decide (s2.rel.injected ≠ inj)) late

/-- A walk stands behind a step_end macro, and a stop of it is asked for: it takes effect at once (R280). -/
def State.stopsHere (s : State) (w : Walk) : Bool :=
  !w.test && !w.stopped && decide (0 < w.next) && Mac.stepEnd (s.macAt w (w.next - 1))
    && (if w.decode then w.tags.all (s.stopAsked w.part) else w.tags.any (s.stopAsked w.part))

/-- The next macro of a walk issued, when it belongs to row `row` and it is the walk's turn. A macro that finds no slot waits. -/
def State.issue (s : State) (spar id : Nat) (row : Nat × Nat) (chk : Check) (f : Option SparFault) (late : Bool) : State :=
  match s.walkAt spar id with
  | none => s
  | some w =>
    if s.stopsHere w then (s.takeStops w).settleWalk spar id
    else if w.stopped ∨ w.count ≤ w.next ∨ s.inService ⟨utBoom, spar, 0⟩ = false then s
    else match s.poisoned (w.list + 128 * w.next) 128 with
      | some a => (s.setWalk { w with stopped := true }).walkUe w a
      | none =>
        let m := s.macAt w w.next
        if w.test && s.testMacBad w m then
          ((s.latch (pgBom spar) 2 (macroDetail w)).testEnds spar 3).setWalk { w with stopped := true } |>.settleWalk spar id
        else if macRow m ≠ row then s
        else if (match s.walkPlan w with
            | some b => s.planLost b
            | none => false) then s.dropLostPlans
        else match s.walkPlan w, s.freeSlot spar, s.slotOpen spar w.part w.test with
          | some b, some slot, true =>
            let s0 := s.wakeAll (s.planDomains b)
            if s0.allAwake (s.planDomains b) = false ∨ s0.walkTurn w = false then s0 else s0.issueMac w m b slot s.rel.injected chk f late
          | some _, _, _ => s.inc (Key.bomStallCnt spar)
          | none, _, _ => s

/-- A clean check. -/
def noCheck : Check := ⟨0, false, 0⟩

/-- GEMM (R263). -/
def execGemm (spar : BitVec 2) (w : BitVec 6) (chk : Check) (f : Option SparFault) (s : State) (late : Bool := false) :
    Outcome State Fault Refusal :=
  .next (s.issue spar.toNat w.toNat (1, 0) chk f late)

/-- COPY_MACRO (R263). -/
def execCopyMacro (spar : BitVec 2) (w : BitVec 6) (f : Option SparFault) (s : State) (late : Bool := false) :
    Outcome State Fault Refusal :=
  .next (s.issue spar.toNat w.toNat (2, 0) noCheck f late)

/-- ATTN (13 R302). -/
def execAttn (spar : BitVec 2) (w : BitVec 6) (chk : Check) (f : Option SparFault) (s : State) (late : Bool := false) :
    Outcome State Fault Refusal :=
  .next (s.issue spar.toNat w.toNat (3, 0) chk f late)

/-- SCATTER (R263, 09 R191). -/
def execScatter (spar : BitVec 2) (w : BitVec 6) (s : State) (late : Bool := false) : Outcome State Fault Refusal :=
  .next (s.issue spar.toNat w.toNat (5, 0) noCheck none late)

/-- MAP (14 R323). -/
def execMap (spar : BitVec 2) (w : BitVec 6) (f : Option SparFault) (s : State) (late : Bool := false) : Outcome State Fault Refusal :=
  .next (s.issue spar.toNat w.toNat (4, 1) noCheck f late)

/-- SMAX_MAX (14 R328). -/
def execSmaxMax (spar : BitVec 2) (w : BitVec 6) (f : Option SparFault) (s : State) (late : Bool := false) : Outcome State Fault Refusal :=
  .next (s.issue spar.toNat w.toNat (4, 2) noCheck f late)

/-- SMAX_SUM (14 R329). -/
def execSmaxSum (spar : BitVec 2) (w : BitVec 6) (f : Option SparFault) (s : State) (late : Bool := false) : Outcome State Fault Refusal :=
  .next (s.issue spar.toNat w.toNat (4, 3) noCheck f late)

/-- SMAX_OUT (14 R330). -/
def execSmaxOut (spar : BitVec 2) (w : BitVec 6) (f : Option SparFault) (s : State) (late : Bool := false) : Outcome State Fault Refusal :=
  .next (s.issue spar.toNat w.toNat (4, 4) noCheck f late)

/-- SAMPLE (14 R333). -/
def execSample (spar : BitVec 2) (w : BitVec 6) (f : Option SparFault) (s : State) (late : Bool := false) : Outcome State Fault Refusal :=
  .next (s.issue spar.toNat w.toNat (4, 5) noCheck f late)

/-- NORM_MAX (14 R334). -/
def execNormMax (spar : BitVec 2) (w : BitVec 6) (f : Option SparFault) (s : State) (late : Bool := false) : Outcome State Fault Refusal :=
  .next (s.issue spar.toNat w.toNat (4, 6) noCheck f late)

/-- NORM_SUM (14 R334). -/
def execNormSum (spar : BitVec 2) (w : BitVec 6) (f : Option SparFault) (s : State) (late : Bool := false) : Outcome State Fault Refusal :=
  .next (s.issue spar.toNat w.toNat (4, 7) noCheck f late)

/-- NORM_OUT (14 R334). -/
def execNormOut (spar : BitVec 2) (w : BitVec 6) (f : Option SparFault) (s : State) (late : Bool := false) : Outcome State Fault Refusal :=
  .next (s.issue spar.toNat w.toNat (4, 8) noCheck f late)

/-- SEND (18 R448). -/
def execSend (spar : BitVec 2) (w : BitVec 6) (s : State) (late : Bool := false) : Outcome State Fault Refusal :=
  .next (s.issue spar.toNat w.toNat (6, 1) noCheck none late)

/-- RECV (18 R448). -/
def execRecv (spar : BitVec 2) (w : BitVec 6) (s : State) (late : Bool := false) : Outcome State Fault Refusal :=
  .next (s.issue spar.toNat w.toNat (6, 2) noCheck none late)

/-- ALLREDUCE (18 R447). -/
def execAllreduce (spar : BitVec 2) (w : BitVec 6) (s : State) (late : Bool := false) : Outcome State Fault Refusal :=
  .next (s.issue spar.toNat w.toNat (6, 3) noCheck none late)

/-- ALLGATHER (18 R447). -/
def execAllgather (spar : BitVec 2) (w : BitVec 6) (s : State) (late : Bool := false) : Outcome State Fault Refusal :=
  .next (s.issue spar.toNat w.toNat (6, 4) noCheck none late)

/-- GATHER (18 R447). -/
def execGather (spar : BitVec 2) (w : BitVec 6) (s : State) (late : Bool := false) : Outcome State Fault Refusal :=
  .next (s.issue spar.toNat w.toNat (6, 5) noCheck none late)

/-- STATS (18 R447). -/
def execStats (spar : BitVec 2) (w : BitVec 6) (s : State) (late : Bool := false) : Outcome State Fault Refusal :=
  .next (s.issue spar.toNat w.toNat (6, 6) noCheck none late)

/-! ### Retirement (R273) -/

/-- MACRO_RETIRE (R273, R275): a macro all of whose accesses are performed frees its slot; macros that it held go on;
the walk ends, or its stop is complete. -/
def execMacroRetire (spar : BitVec 2) (slot : BitVec 10) (s : State) : Outcome State Fault Refusal :=
  .next (match s.fab.flight.find? fun x => decide (x.spar = spar.toNat) && decide (x.slot = slot.toNat) with
    | none => s
    | some x =>
      if x.done then
        let s1 := { s with fab := { s.fab with
          flight := s.fab.flight.filter fun y => decide (y ≠ x), freed := s.fab.freed ++ [(x.spar, x.slot, x.part)] } }
        (s1.advanceAll x.spar).settleWalk x.spar x.walk
      else s)

/-! ### Test walks (R287) -/

/-- A write of BOM_TEST_CMD with start set: a macro list runs for a partition that is ACTIVE. -/
def State.writeBomTest (s : State) (k : Nat) (v : Word) : State :=
  let p := getBits v 15 8
  let n := getBits v 31 16
  if getBits v 0 0 = 0 ∨ 128 ≤ p ∨ s.pstate p ≠ psActive ∨ s.bit (Key.bomTestStat k) 31 = true then s
  else match s.freeWalk k with
    | none => s
    | some id =>
      let list := (s.reg (Key.bomTestLo k)).toNat + 2 ^ 32 * (s.reg (Key.bomTestHi k)).toNat
      let w : Walk := { spar := k, id := id, part := p, tags := [], handle := 0, plan := 0, layer := 0, decode := false, index := 0
                        step := 0, list := list, count := n, regs := List.replicate 16 0, test := true }
      let s1 := (s.setReg (Key.bomTestStat k) 0x80000000)
      ({ s1 with fab := { s1.fab with walks := s1.fab.walks ++ [w] } }).settleWalk k id

/-- BOM_TEST_START (R287). -/
def execBomTestStart (m : Master) (k : BitVec 2) (be : BitVec 4) (v : Word) (s : State) : Outcome State Fault Refusal :=
  .next (s.gated m (pgBom k.toNat) 0x188 be v fun t => t.writeBomTest k.toNat v)

/-! ### Units taken out of service (11 R255, R256; 13 R313; 14 R340) -/

/-- A write of a unit's CTL register: retire set takes the unit out of service. -/
def State.writeRetire (s : State) (m : Master) (p : Nat) (u : UnitId) (v : Word) : State :=
  let t := s.store m p 0x104 v
  if t.bit (regKey p 0x104) 0 ∧ s.bit (regKey p 0x104) 0 = false then t.loseUnit u else t

/-- YARD_RETIRE (11 R255). -/
def execYardRetire (m : Master) (i : BitVec 5) (be : BitVec 4) (v : Word) (s : State) : Outcome State Fault Refusal :=
  .next (s.gated m (pgYrd i.toNat) 0x104 be v fun t => t.writeRetire m (pgYrd i.toNat) ⟨utYard, i.toNat, 0⟩ v)

/-- LUFF_RETIRE (13 R313). -/
def execLuffRetire (m : Master) (i : BitVec 3) (be : BitVec 4) (v : Word) (s : State) : Outcome State Fault Refusal :=
  .next (s.gated m (pgLuf i.toNat) 0x104 be v fun t => t.writeRetire m (pgLuf i.toNat) ⟨utLuff, i.toNat, 0⟩ v)

/-- CLEW_RETIRE (14 R340). -/
def execClewRetire (m : Master) (i : BitVec 4) (be : BitVec 4) (v : Word) (s : State) : Outcome State Fault Refusal :=
  .next (s.gated m (pgClw i.toNat) 0x104 be v fun t => t.writeRetire m (pgClw i.toNat) ⟨utClew, i.toNat, 0⟩ v)

/-- BANK_RETIRE (11 R256): a bank that recorded 64 corrected words within 24 hours is retired once its current macros have ended. -/
def execBankRetire (bank : Byte) (s : State) : Outcome State Fault Refusal :=
  let k := bank.toNat / 48
  let b := bank.toNat % 48
  .next (if bank.toNat < 192 ∧ s.inService ⟨utBank, bank.toNat, 0⟩ = true ∧ s.bankDue bank.toNat = true then
      ((s.latch (pgSpr k) 2 (b * 2 ^ 20)).setBit (Key.sprBank k b) 2 true).loseUnit ⟨utBank, bank.toNat, 0⟩
    else s)

end Sys2Proof.Machine
end

