-- ==== Sys2Proof/Machine/Topology.lean ====
section
/-! DEFINITION. The machine tree: coordinates, the rig check, reach notices and the jury spare (19). -/

namespace Sys2Proof.Machine

open Host

/-! ### The rig check (R471 to R474) -/

/-- Coordinates and a plan are valid and link training has ended (R486). -/
def State.rigMayRun (s : State) : Bool := s.bit Key.topCoord 31 && s.top.plan.isSome && s.top.trained.isSome

/-- The loaded plan's entry of a bundle; an unused one where none is loaded. -/
def State.rigPlanOf (s : State) (b : Nat) : Word := (s.top.plan.getD []).getD b 0

/-- A bundle has a peer that completed IDENT. -/
def State.hasPeer (s : State) (b : Nat) : Bool := decide (bsHeld ≤ s.bundleState b)

/-- The peer of a bundle in the layout of a plan entry (Table 19.6), 0 without one. -/
def State.foundOf (s : State) (b : Nat) : Nat :=
  if s.hasPeer b then
    2 ^ 31 + (if s.peerSwitch b then 2 ^ 30 else 0) + s.peerCoords b * 2 ^ 8 + s.fld (Key.lnkPeerId b) 15 8
  else 0

/-- The peer complements this bundle's role: left faces right and right left; a switch faces a Stay bundle (R431). -/
def State.complements (s : State) (b : Nat) : Bool :=
  let r := s.role b
  let q := s.fld (Key.lnkPeerId b) 7 4
  if s.peerSwitch b then decide (3 ≤ r) else (decide (r = 1) && decide (q = 2)) || (decide (r = 2) && decide (q = 1))

/-- The peer of bundle `b` is the one planned for bundle `c`. -/
def State.peerFits (s : State) (b c : Nat) : Bool :=
  let p := s.rigPlanOf c
  p.toNat.testBit 31 && s.hasPeer b && decide (putBits p 29 24 0 = BitVec.ofNat 32 (s.foundOf b))

/-- The class of a bundle and its partner when SWAPPED (R472). -/
def State.rigClass (s : State) (b : Nat) : Nat × Nat :=
  let used := (s.rigPlanOf b).toNat.testBit 31
  if !s.hasPeer b then (if used then 2 else 0, 0)
  else if decide (s.peerCoords b = s.coords) && !s.peerSwitch b then (3, 0)
  else if s.peerFits b b then (if s.complements b then 0 else 3, 0)
  else match allBundles.find? fun c => decide (c ≠ b) && s.peerFits b c && s.peerFits c b with
    | some c => (1, c)
    | none => (3, 0)

/-- A class with which a bundle is admitted: MATCH, or SWAPPED with a partner of the same role and plane (R473). -/
def State.admits (s : State) (b : Nat) (c : Nat × Nat) : Bool :=
  s.hasPeer b && (decide (c.1 = 0) || (decide (c.1 = 1) && decide (s.role b = s.role c.2)))

/-- A bundle goes UP once RIG_OK was sent and received on it (R473). -/
def State.tryUp (s : State) (b : Nat) : State :=
  if s.bundleState b = bsHeld ∧ b ∈ s.top.admitted ∧ b ∈ s.top.rigSent ∧ b ∈ s.top.rigGot then
    s.setFld (Key.lnkStat b) 31 29 bsUp
  else s

/-- A bundle admitted: RIG_OK is sent on it. -/
def State.admitBundle (s : State) (b : Nat) : State :=
  let s1 := if b ∈ s.top.rigSent then s else
    { s.emit (.link b (.leaf "RIG_OK" [])) with top := { s.top with rigSent := s.top.rigSent ++ [b] } }
  { s1 with top := { s1.top with admitted := (b :: s1.top.admitted).eraseDups } }.tryUp b

/-- A bundle that is not admitted any more: an UP one returns to HELD. -/
def State.holdBundle (s : State) (b : Nat) : State :=
  let keep := fun (l : List Nat) => l.filter fun c => decide (c ≠ b)
  let s1 := { s with top := { s.top with admitted := keep s.top.admitted, rigSent := keep s.top.rigSent } }
  if s.bundleState b = bsUp then s1.setFld (Key.lnkStat b) 31 29 bsHeld else s1

/-- Every bundle that is not in training has been classed. -/
def State.rigDone (s : State) : State :=
  let due := allBundles.any fun b => (decide (s.bundleState b = bsDown) || s.hasPeer b) && decide (b ∉ s.top.classed)
  if due then s else s.setBit Key.topRigStat 31 true

/-- One bundle classed: its class and peer are shown, a mismatch latches, and it is admitted or held. -/
def State.classBundle (s : State) (b : Nat) : State :=
  let c := s.rigClass b
  let found := s.foundOf b + (if c.1 = 1 then c.2 * 2 ^ 26 else 0)
  let s1 := (s.setFld Key.topRigStat (2 * b + 1) (2 * b) c.1).setReg (Key.topFound b) (BitVec.ofNat 32 found)
  let s2 := if c.1 = 0 then s1 else s1.latch pgTop 0 b
  let s3 := if c.1 = 3 ∧ s.peerCoords b = s.coords then s2.latch pgTop 2 b else s2
  let s4 := { s3 with top := { s3.top with classed := (b :: s3.top.classed).eraseDups } }
  if s.admits b c then s4.admitBundle b else s4.holdBundle b

/-- RIG_CHECK (R472): a bundle that reached HELD or stays DOWN, or that a LOAD has to be held against, is classed; both
bundles of a swap are. -/
def execRigCheck (b : BitVec 4) (s : State) : Outcome State Fault Refusal :=
  let b := b.toNat
  .next (if b < 12 ∧ s.rigMayRun = true ∧ (s.bundleState b = bsDown ∨ s.hasPeer b = true) then
      let c := s.rigClass b
      let s1 := s.classBundle b
      (if c.1 = 1 then s1.classBundle c.2 else s1).rigDone
    else s)

/-- RIG_OK (R473) received on a bundle. -/
def execRigOk (b : BitVec 4) (s : State) : Outcome State Fault Refusal :=
  let b := b.toNat
  .next (if b < 12 ∧ s.hasPeer b = true then
      { s with top := { s.top with rigGot := (b :: s.top.rigGot).eraseDups } }.tryUp b
    else s)

/-- The check begins again: nothing is classed. -/
def State.rigAgain (s : State) : State :=
  { s.setBit Key.topRigStat 31 false with top := { s.top with classed := [] } }

/-- LOAD: the entries become the plan. An admitted bundle that stays MATCH is left in service; every other returns to
HELD (R471, R474). -/
def State.rigLoad (s : State) : State :=
  let s1 := { s with top := { s.top with plan := some (allBundles.map fun b => s.reg (Key.topPlan b)) } }
  (allBundles.foldl (fun t b =>
    if b ∈ t.top.admitted ∧ (s1.rigClass b).1 = 0 then t else t.holdBundle b) s1).rigAgain

/-- A write of TOP_RIG_CMD: LOAD or CHECK. -/
def State.writeRigCmd (s : State) (v : Word) : State :=
  if getBits v 7 0 = 1 then s.rigLoad else if getBits v 7 0 = 2 then s.rigAgain else s

/-- LOAD (R471). -/
def execLoad (m : Master) (be : BitVec 4) (s : State) : Outcome State Fault Refusal :=
  .next (s.gated m pgTop 0x104 be 1 fun t => t.writeRigCmd 1)

/-- CHECK (R471). -/
def execCheck (m : Master) (be : BitVec 4) (s : State) : Outcome State Fault Refusal :=
  .next (s.gated m pgTop 0x104 be 2 fun t => t.writeRigCmd 2)

/-- RIG_TIMEOUT (R486): coordinates and a plan are not valid wait_s after the end of link training. -/
def execRigTimeout (s : State) : Outcome State Fault Refusal :=
  .next (match s.top.trained with
    | some t =>
      if s.rigMayRun = false ∧ s.bit Key.topRigStat 30 = false
          ∧ t + 100000000 * max 1 (s.fld Key.topRigCfg 7 0) ≤ s.tick then
        (s.setBit Key.topRigStat 30 true).latch pgTop 1 0
      else s
    | none => s)

/-! ### Coordinates (R461, R462) -/

/-- A write of TOP_COORD: with a group above 63 or a slot above 33, with a partition beyond CONFIG, or while the spare
serves or is taking, it is ignored; performed, it returns every UP bundle to HELD and the rig check runs again. -/
def State.writeTopCoord (s : State) (m : Master) (v : Word) : State :=
  let idle := allParts.all fun p => decide (s.pstate p ≤ psConfig)
  if getBits v 15 8 ≤ 63 ∧ getBits v 7 0 ≤ 33 ∧ idle = true ∧ s.fld Key.jryStat 31 29 ≤ 1 then
    (allBundles.foldl State.holdBundle (s.store m pgTop 0x100 v)).rigAgain
  else s

/-- TOP_COORD_WRITE (R461, R462). -/
def execTopCoordWrite (m : Master) (be : BitVec 4) (v : Word) (s : State) : Outcome State Fault Refusal :=
  .next (s.gated m pgTop 0x100 be v fun t => t.writeTopCoord m v)

/-! ### Reach (R469, R475, R482) -/

/-- REACH: the rails on which a destination is reachable; segments on a rail withdrawn are sent whole on another. -/
def execReach (coords : BitVec 16) (railsA railsB : BitVec 6) (s : State) : Outcome State Fault Refusal :=
  let dst := coords.toNat
  let l := s.top.reach.filter fun e => decide (e.1 ≠ dst)
  let l1 := if railsA = 0 ∧ railsB = 0 then l else l ++ [(dst, railsA.toNat, railsB.toNat)]
  let s1 : State := { s with top := { s.top with reach := l1 } }
  .next (s1.resendAll fun g => decide (g.dst = coords) && s1.isStay g.bundle && !s1.railReaches g.bundle dst)

/-! ### The jury spare (R476 to R480, R484, R488) -/

/-- The states of the spare. -/
abbrev jyIdle : Nat := 0
abbrev jyArmed : Nat := 1
abbrev jyTaking : Nat := 2
abbrev jyServing : Nat := 3

/-- The spare's state. -/
def State.jury (s : State) : Nat := s.fld Key.jryStat 31 29

/-- The spare in a state with a reason. -/
def State.setJury (s : State) (st reason : Nat) : State := (s.setFld Key.jryStat 31 29 st).setFld Key.jryStat 28 24 reason

/-- Every Stay bundle has passed the rig check. -/
def State.staysPassed (s : State) : Bool :=
  (allBundles.filter s.isStay).all fun b => decide (b ∈ s.top.admitted)
    || (decide (b ∈ s.top.classed) && decide (s.fld Key.topRigStat (2 * b + 1) (2 * b) = 0))

/-- ARM: only from IDLE, at slot 32 or 33, with every Stay bundle through the rig check. -/
def State.juryArm (s : State) : State :=
  if s.jury ≠ jyIdle then s.setJury s.jury 1
  else if s.coords % 256 ≠ 32 ∧ s.coords % 256 ≠ 33 then s.setJury jyIdle 2
  else if s.staysPassed = false then s.setJury jyIdle 3
  else s.setJury jyArmed 0

/-- DISARM: only from ARMED. -/
def State.juryDisarm (s : State) : State :=
  if s.jury = jyArmed then s.setJury jyIdle 0 else s.setJury s.jury 1

/-- A takeover goes on once every leaf has confirmed its stage: the fence, then the rebinding (R477). -/
def State.takeOn (s : State) : Nat → State
  | 0 => s
  | fuel + 1 =>
    match s.top.take with
    | none => s
    | some k =>
      if k.left ≠ [] ∨ 2 ≤ k.stage then s
      else if k.stage = 0 then
        let s1 := s.setReg Key.topCoord (BitVec.ofNat 32 (2 ^ 31 + k.x))
        let s2 := s1.toLeaves "REBIND" [k.x]
        { s2 with top := { s2.top with take := some { k with stage := 1, since := s.tick, left := s2.leaves } } }.takeOn fuel
      else { s with top := { s.top with take := some { k with stage := 2, since := s.tick } } }

/-- The spare takes coordinates: FENCE goes to every leaf of the group (R477). -/
def State.juryTake (s : State) (x : Nat) (asked : Option Nat) : State :=
  let s1 := ((s.setJury jyTaking 0).setFld Key.jryStat 15 0 x).toLeaves "FENCE" [x]
  { s1 with top := { s1.top with
    spare := some s.coords, take := some ⟨x, 0, s.tick, s1.leaves, [asked]⟩ } }.takeOn 2

/-- A spare accepts coordinates of its own group while ARMED. -/
def State.juryTakes (s : State) (x : Nat) : Bool := decide (s.jury = jyArmed) && decide (x / 256 = s.coords / 256)

/-- A write of JRY_CMD (R488). -/
def State.writeJryCmd (s : State) (v : Word) : State :=
  let x := getBits v 31 16
  if getBits v 7 0 = 1 then s.juryArm
  else if getBits v 7 0 = 2 then s.juryDisarm
  else if getBits v 7 0 = 3 then (if s.juryTakes x then s.juryTake x none else s.setJury s.jury 1)
  else s

/-- ARM (R476). -/
def execArm (m : Master) (be : BitVec 4) (s : State) : Outcome State Fault Refusal :=
  .next (s.gated m pgJry 0x104 be 1 fun t => t.writeJryCmd 1)

/-- DISARM (R476). -/
def execDisarm (m : Master) (be : BitVec 4) (s : State) : Outcome State Fault Refusal :=
  .next (s.gated m pgJry 0x104 be 2 fun t => t.writeJryCmd 2)

/-- A member asks for a takeover: the ARMED spare accepts; a second request for the coordinates that are being taken
waits for TAKEN; any other is answered BUSY (R477, R480). -/
def State.askTakeover (s : State) (x member : Nat) : State :=
  if s.juryTakes x then s.juryTake x (some member)
  else match s.top.take with
    | some k =>
      if s.jury = jyTaking ∧ k.x = x then { s with top := { s.top with take := some { k with asked := k.asked ++ [some member] } } }
      else s.emit (.routed (BitVec.ofNat 16 member) (.leaf "BUSY" [s.coords % 256, x]))
    | none => s.emit (.routed (BitVec.ofNat 16 member) (.leaf "BUSY" [s.coords % 256, x]))

/-- TAKEOVER (R477): a write of JRY_CMD by a master, or the message of a ring member. -/
def execTakeover (src : Option Master) (be : BitVec 4) (x : BitVec 16) (member : BitVec 16) (s : State) :
    Outcome State Fault Refusal :=
  match src with
  | some m =>
    let v : Word := BitVec.ofNat 32 (x.toNat * 2 ^ 16 + 3)
    .next (s.gated m pgJry 0x104 be v fun t => t.writeJryCmd v)
  | none => .next (s.askTakeover x.toNat member.toNat)

/-- BUSY (R477, R480): slot 33 is asked next; when it is busy too, there is no spare. `failed` says instead that the spare's takeover
failed, which counts as no spare (R484). -/
def execBusy (slot : Byte) (x : BitVec 16) (s : State) (failed : Bool := false) : Outcome State Fault Refusal :=
  let x := x.toNat
  .next (match s.top.asks.find? fun e => decide (e.1 = x) && decide (e.2 = slot.toNat) with
    | none => s
    | some _ =>
      let rest := s.top.asks.filter fun e => decide (e.1 ≠ x)
      if slot = 32 ∧ failed = false then
        let dest := x / 256 * 256 + 33
        { s.emit (.routed (BitVec.ofNat 16 dest) (.leaf "TAKEOVER" [x])) with top := { s.top with asks := rest ++ [(x, 33)] } }
      else
        let s1 := { s with top := { s.top with asks := rest } }
        ((List.range 8).filter fun k => decide (s1.ringState k = rgRecovering)).foldl (fun t k =>
          match (t.ring k).stalled with
          | some i => if t.memberCoords k i = some x then t.ringFails k i 0x02 else t
          | none => t) s1)

/-- A leaf's confirmation of a stage. -/
def State.leafConfirms (s : State) (stage leaf : Nat) : State :=
  match s.top.take with
  | some k =>
    if k.stage = stage ∧ s.jury = jyTaking then
      { s with top := { s.top with take := some { k with left := k.left.filter fun l => decide (l ≠ leaf) } } }.takeOn 2
    else s
  | none => s

/-- FENCE_CONFIRM (R477). -/
def execFenceConfirm (leaf : BitVec 4) (s : State) : Outcome State Fault Refusal := .next (s.leafConfirms 0 leaf.toNat)

/-- REBIND_CONFIRM (R477). -/
def execRebindConfirm (leaf : BitVec 4) (s : State) : Outcome State Fault Refusal := .next (s.leafConfirms 1 leaf.toNat)

/-- The neighbours of the spare's configured ring entries. -/
def State.juryRings (s : State) : List Nat :=
  (((List.range 8).filter fun k => decide (2 ≤ s.ringSize k)).flatMap fun k => [s.ringLeft k, s.ringRight k]).eraseDups

/-- SETTLE_END (R477): TAKEN goes to the requesters and the rings' members, and the spare serves. -/
def execSettleEnd (s : State) : Outcome State Fault Refusal :=
  .next (match s.top.take with
    | some k =>
      if k.stage = 2 ∧ s.jury = jyTaking ∧ k.since + 100 * max 1 (s.fld Key.jryCfg 31 16) ≤ s.tick then
        let dest := (k.asked.filterMap id ++ s.juryRings).eraseDups
        let s1 := dest.foldl (fun t c => t.emit (.routed (BitVec.ofNat 16 c) (.leaf "TAKEN" [k.x]))) s
        let s2 := (s1.setJury jyServing 0).inc Key.jryTakeCnt
        { s2 with top := { s2.top with take := none } }
      else s
    | none => s)

/-- CONFIRM_TIMEOUT (R484): the takeover fails, and the requesters are told. -/
def execConfirmTimeout (s : State) : Outcome State Fault Refusal :=
  .next (match s.top.take with
    | some k =>
      if k.stage < 2 ∧ s.jury = jyTaking ∧ k.since + 100 * max 1 (s.fld Key.jryCfg 15 0) ≤ s.tick then
        let s1 := (s.latch pgJry 1 k.x).latch pgJry 0 k.x
        let s2 := if k.stage = 0 then s1 else s1.setReg Key.topCoord (BitVec.ofNat 32 (2 ^ 31 + s.top.spare.getD 0))
        let told := (k.asked.filterMap id).foldl (fun t c => t.emit (.routed (BitVec.ofNat 16 c) (.leaf "TAKE_FAIL" [s.top.spare.getD 0 % 256, k.x]))) s2
        let s3 := (told.toLeaves "UNREBIND" [k.x]).setJury jyArmed 4
        { s3 with top := { s3.top with take := none, spare := none } }
      else s
    | none => s)

/-- TAKEN (R478): Shroud bundles to the coordinates are held down, and the rings roll back. -/
def execTaken (x : BitVec 16) (s : State) : Outcome State Fault Refusal :=
  let x := x.toNat
  let s1 := { s with top := { s.top with asks := s.top.asks.filter fun e => decide (e.1 ≠ x) } }
  .next ((s1.holdShroud x).ringTaken x)

end Sys2Proof.Machine
end

