-- ==== Sys2Proof/Machine/Telltale.lean ====
section
/-! DEFINITION. The Telltale: its exchanges, its states, steering and stepping, the flits it sends, and the passing of
its time (20, 18 R436). -/

namespace Sys2Proof.Machine

open Host

/-- The states of the Telltale (Table 20.4). -/
abbrev tsFree : Nat := 0
abbrev tsAcquire : Nat := 1
abbrev tsLocked : Nat := 2
abbrev tsHoldover : Nat := 3
abbrev tsUnsync : Nat := 4

/-- The state, and whether this package is the root. -/
def State.ttlState (s : State) : Nat := s.fld Key.ttlStat 31 29
def State.isRoot (s : State) : Bool := s.bit Key.ttlStat 28

/-- The count in 1/64 tick. -/
def State.now64 (s : State) : Nat := s.time.count.toNat * 64 + s.time.frac.toNat

/-- The count set, in 1/64 tick. -/
def State.setNow64 (s : State) (n : Nat) : State :=
  { s with time := { s.time with count := BitVec.ofNat 64 (n / 64), frac := BitVec.ofNat 6 n } }

/-- This package's root ID (R490). -/
def State.rootId (s : State) : BitVec 96 := BitVec.ofNat 96 (s.coords * 2 ^ 80 + Config.otpSerial.toNat)

/-- The Telltale enters a state: IRQ_STAT bit 2 is set at every change (R508). -/
def State.setTtlState (s : State) (st : Nat) : State :=
  if s.ttlState = st then s
  else
    let s1 := (s.setFld Key.ttlStat 31 29 st).irq pgTtl 2
    let s2 := { s1 with ttl := { s1.ttl with since := s.tick, good := 0, bad := 0, lastGood := s.tick } }
    if st = tsLocked then (List.range 8).foldl State.tryForm s2
    else if st = tsUnsync then { s2 with ttl := { s2.ttl with stepped := false } }
    else s2

/-- FLT_INFO.detail of the TTL page: the upstream bundle. -/
def State.latchTtl (s : State) (c : Nat) : State := s.latch pgTtl c (s.ttl.upstream.getD 0)

/-- SYNC_LOST: UNSYNC is entered. -/
def State.loseSync (s : State) : State := (s.setTtlState tsUnsync).latchTtl 0

/-- The root that this package follows: the lowest root ID, then the fewest hops, then the lower bundle, among the
peers that are LOCKED or in HOLDOVER and were heard within lost_us; a package's own ID is no upstream (R491). -/
def State.pickUpstream (s : State) : Option (Nat × TtlPeer) :=
  let fresh := s.ttl.peers.filter fun e => (decide (e.2.state = tsLocked) || decide (e.2.state = tsHoldover))
    && decide (s.tick < e.2.heard + 100 * max 1 (s.fld Key.ttlCfg 7 0)) && decide (e.2.root ≠ s.rootId)
    && decide (s.bundleState e.1 = bsHeld ∨ s.bundleState e.1 = bsUp)
  fresh.foldl (fun (a : Option (Nat × TtlPeer)) e => match a with
    | none => some e
    | some x =>
      let key := fun (y : Nat × TtlPeer) => (y.2.root.toNat * 256 + y.2.hops) * 16 + y.1
      if key e < key x then some e else a) none

/-- TTL_STAT shows the upstream, the hops and the root's coordinates. -/
def State.showUpstream (s : State) (root : Bool) (b hops : Nat) (id : BitVec 96) : State :=
  (((s.setBit Key.ttlStat 28 root).setFld Key.ttlStat 27 24 b).setFld Key.ttlStat 23 16 (min 255 hops)).setFld
    Key.ttlStat 15 0 (id.toNat / 2 ^ 80)

/-- The upstream chosen again. A root follows only a lower root ID; a package with no peer to follow keeps what it
had. -/
def State.follow (s : State) : State :=
  match s.pickUpstream with
  | none => s
  | some (b, p) =>
    if s.isRoot && !decide (p.root.toNat < s.rootId.toNat) then s
    else
      let s1 := s.showUpstream false b (p.hops + 1) p.root
      let g := if s.isRoot then 0 else s.ttl.good
      { s1 with ttl := { s1.ttl with upstream := some b, good := g, lastGood := if s.isRoot then s.tick else s.ttl.lastGood } }

/-- This package is the root, with its present count. -/
def State.becomeRoot (s : State) : State :=
  let s1 := (s.showUpstream true 0 0 s.rootId).setTtlState tsLocked
  { s1 with ttl := { s1.ttl with upstream := none, rate := 0 } }

/-- A LOCKED candidate with an ID below that of the root it follows takes over (R490). -/
def State.claimRoot (s : State) : State :=
  match s.ttl.upstream with
  | some b =>
    let id := ((s.ttl.peers.find? fun e => decide (e.1 = b)).map fun e => e.2.root).getD 0
    if s.ttlState = tsLocked ∧ s.bit Key.ttlCfg 31 = true ∧ s.isRoot = false ∧ s.rootId.toNat < id.toNat then s.becomeRoot else s
  | none => s

/-- The tick length steered to cancel an offset, by at most 500 ppm (R494). -/
def State.steer (s : State) (theta : Int) : State :=
  let n : Int := (min 500 (Config.steer theta) : Nat)
  { s with ttl := { s.ttl with rate := if theta = 0 then 0 else if 0 < theta then -n else n } }

/-- The counter set to the upstream's value at once (R495, R501, R502). -/
def State.stepBy (s : State) (theta : Int) : State :=
  let s1 := ((s.setNow64 (s.now64 - theta).toNat).latchTtl 1).inc Key.ttlStepCnt
  let peers := s.ttl.peers.map fun e => (e.1, { e.2 with rx := ((e.2.rx : Int) - theta).toNat })
  let s2 := { s1 with
    ttl := { s1.ttl with stepped := true, good := 0, sent := [], peers := peers, rate := 0 }
    arb := { s1.arb with log := [], bells := [] } }
  s2.fireDue

/-- A step is allowed in UNSYNC: no ring entry is READY or RECOVERING and no SHROUD request is live (R495). -/
def State.mayStep (s : State) : Bool :=
  ((List.range 8).all fun k => decide (s.ringState k ≠ rgReady) && decide (s.ringState k ≠ rgRecovering))
    && s.reqs.all fun r => !(r.active && r.d.shroud)

/-- LOCKED under the lock condition: 16 consecutive exchanges. -/
def State.tryLock (s : State) : State := if 16 ≤ s.ttl.good then (s.setTtlState tsLocked).claimRoot else s

/-- A LOCKED follower enters HOLDOVER (R504). -/
def State.holdover (s : State) : State := (s.setTtlState tsHoldover).inc Key.ttlLossCnt

/-- A valid exchange with the upstream: `theta` is the offset in 1/64 tick, `good` whether it meets the lock
condition (R494, R504, R505). -/
def State.useOffset (s : State) (theta : Int) (good : Bool) : State :=
  let s1 := (s.setReg Key.ttlOffset (BitVec.ofInt 32 theta))
  let s2 := { s1 with ttl := { s1.ttl with bad := 0, lastGood := s.tick, good := if good then s1.ttl.good + 1 else 0 } }
  let far := decide (64000 < theta.natAbs)
  match s.ttlState with
  | 1 =>
    if s.ttl.acquired = false then { s2 with ttl := { s2.ttl with theta := some theta } }
    else if s.ttl.stepped = false then s2.stepBy theta
    else (s2.steer theta).tryLock
  | 2 => if far then s2.holdover else (s2.steer theta).claimRoot
  | 3 => if far then s2 else (s2.steer theta).tryLock
  | 4 => if !s.ttl.stepped && s.mayStep then s2.stepBy theta else (s2.steer theta).tryLock
  | _ => s2

/-- A discarded exchange: TS_BAD latches, and sixteen in a row end LOCKED. -/
def State.discard (s : State) : State :=
  let s1 := s.latchTtl 2
  let s2 : State := { s1 with ttl := { s1.ttl with bad := s1.ttl.bad + 1, good := 0 } }
  if s2.ttlState = tsLocked ∧ 16 ≤ s2.ttl.bad then s2.holdover else s2

/-- An exchange with the upstream: t1 and t4 are its times, t2 and t3 local ones (R494). -/
def State.exchange (s : State) (t1 t2 t3 t4 : Int) : State :=
  let d2 := (t2 - t1) + (t4 - t3)
  let o2 := (t2 - t1) - (t4 - t3)
  if d2 < 0 ∨ 1280000 < d2 then s.discard else s.useOffset (o2.fdiv 2) (decide (o2.natAbs < 64))

/-- A field of a TELLTALE payload: `n` bytes at offset `o` (Table 20.2). -/
def ttlField (f : BitVec 2048) (o n : Nat) : Nat := flitField f (96 + 8 * (o + n) - 1) (96 + 8 * o)

/-- What a TELLTALE flit received at local time `rx` says of its sender. -/
def ttlPeer (flit : BitVec 2048) (rx tick : Nat) : TtlPeer :=
  { root := BitVec.ofNat 96 (ttlField flit 0x04 12), hops := ttlField flit 3 1, state := ttlField flit 2 1
    tTx := ttlField flit 0x16 10, rx := rx, heard := tick }

/-- A TELLTALE flit of a bundle taken: its sender is noted, the upstream chosen, and an exchange with it formed when
the flit echoes one that this package sent. -/
def State.takeTelltale (s : State) (b : Nat) (p : TtlPeer) (echo echoRx : Nat) : State :=
  let s1 : State := { s with ttl := { s.ttl with peers := (b, p) :: s.ttl.peers.filter fun e => decide (e.1 ≠ b) } }
  let s2 := s1.follow
  if s2.ttl.upstream = some b ∧ s2.isRoot = false ∧ echo ∈ SMap.get (fun _ => []) s2.ttl.sent b then
    s2.exchange p.tTx p.rx echo echoRx
  else s2

/-- TELLTALE (R436, R491, R493, R494): a flit received at local time `rx`. -/
def execTelltale (b : BitVec 4) (flit : BitVec 2048) (rx : BitVec 80) (s : State) : Outcome State Fault Refusal :=
  let b := b.toNat
  .next (if s.bundleRuns b = false then s
    else if flitOk flit = false then s.inc (Key.lnkCrcCnt b)
    else
      let s1 := s.takeHeader b flit
      if flitKind flit = 4 then
        s1.takeTelltale b (ttlPeer flit rx.toNat s.tick) (ttlField flit 0x20 10) (ttlField flit 0x2A 10)
      else s1)

/-- EVENT_FIRE (R497): every event that is due fires. -/
def execEventFire (s : State) : Outcome State Fault Refusal := .next s.fireDue

/-- A write of a software slot's register: the new target takes effect from the next tick (R500). -/
def State.writeSwev (s : State) (m : Master) (off : Nat) (v : Word) : State :=
  let t := s.store m pgTtl off v
  { t with ttl := { t.ttl with swev := SMap.set (fun _ => 0) t.ttl.swev ((off - 0x140) / 16) (s.tick + 1) } }

/-- SWEV_ARM (R499). -/
def execSwevArm (m : Master) (i : BitVec 2) (be : BitVec 4) (v : Word) (s : State) : Outcome State Fault Refusal :=
  let off := 0x148 + 0x10 * i.toNat
  .next (s.gated m pgTtl off be v fun t => t.writeSwev m off v)

/-- LOST_TIMEOUT (R504): no valid exchange for lost_us. -/
def execLostTimeout (s : State) : Outcome State Fault Refusal :=
  .next (if s.ttlState = tsLocked ∧ s.isRoot = false ∧ s.ttl.lastGood + 100 * max 1 (s.fld Key.ttlCfg 7 0) ≤ s.tick
    then s.holdover else s)

/-- HOLDOVER_EXPIRE (R505): UNSYNC, and every READY or RECOVERING ring entry fails with TIME_LOST. -/
def execHoldoverExpire (s : State) : Outcome State Fault Refusal :=
  .next (if s.ttlState = tsHoldover ∧ s.ttl.since + 100000 * max 1 (s.fld Key.ttlCfg 15 8) ≤ s.tick then
      ((List.range 8).filter fun k => decide (s.ringState k = rgReady) || decide (s.ringState k = rgRecovering)).foldl
        (fun t k => t.ringFails k (t.ringMember k) 0x06) s.loseSync
    else s)

/-- ACQUIRE_END (R507). -/
def execAcquireEnd (s : State) : Outcome State Fault Refusal :=
  .next (if s.ttlState = tsAcquire ∧ s.ttl.acquired = false ∧ s.ttl.since + 100000 * max 1 (s.fld Key.ttlCfg 23 16) ≤ s.tick then
      let s1 := { s with ttl := { s.ttl with acquired := true } }
      match s1.pickUpstream with
      | some _ =>
        (match s1.ttl.theta with
          | some o => s1.follow.stepBy o
          | none => s1.follow)
      | none => if s1.bit Key.ttlCfg 31 then s1.becomeRoot else s1.loseSync
    else s)

/-- Link training has ended for the first time: the Telltale enters ACQUIRE, and the rig check may begin (R486, R507). -/
def State.endTraining (s : State) : State :=
  if s.top.trained = none ∧ s.boot.running = true
      ∧ (allBundles.all fun b => decide ((s.bundle b).trainStart = none)) = true
      ∧ (allBundles.any fun b => decide (s.bundleState b ≠ bsDown) || decide ((s.bundle b).retryAt ≠ none)
          || s.bit (Key.lnkCtl b) 0) = true then
    ({ s with top := { s.top with trained := some s.tick } } : State).setTtlState tsAcquire
  else s

/-! ### The flits sent (R436, R493) -/

/-- The TELLTALE flit of a bundle. -/
def State.ttlFlit (s : State) (b : Nat) : BitVec 2048 :=
  let x := s.bundle b
  let peer := s.ttl.peers.find? fun e => decide (e.1 = b)
  let root := if s.isRoot then s.rootId.toNat else
    match s.ttl.peers.find? fun e => some e.1 = s.ttl.upstream with
    | some e => e.2.root.toNat
    | none => 2 ^ 96 - 1
  let body := leBytes 0x0100 2 ++ leBytes s.ttlState 1 ++ leBytes (s.fld Key.ttlStat 23 16) 1 ++ leBytes root 12
    ++ leBytes (SMap.get (fun _ => 0) s.ttl.seq b) 2 ++ leBytes 0 4 ++ leBytes s.now64 10
    ++ leBytes ((peer.map fun e => e.2.tTx).getD 0) 10 ++ leBytes ((peer.map fun e => e.2.rx).getD 0) 10
  let f := BitVec.ofNat 2048 (4 * 2 ^ 92 + 236 * 2 ^ 8 + leNat body * 2 ^ 96)
  sealFlit f 0 (x.expect + 4095) x.cvc (SMap.get (fun _ => 0) x.freed x.cvc)

/-- A TELLTALE flit sent on a bundle. -/
def State.sendTelltale (s : State) (b : Nat) : State :=
  let s1 := s.emit (.link b (.telltale (s.ttlFlit b)))
  let sent := (SMap.get (fun _ => []) s.ttl.sent b ++ [s.now64]).reverse.take 16 |>.reverse
  { s1 with ttl := { s1.ttl with
    sent := SMap.set (fun _ => []) s1.ttl.sent b sent
    seq := SMap.set (fun _ => 0) s1.ttl.seq b ((SMap.get (fun _ => 0) s1.ttl.seq b + 1) % 65536)
    next := SMap.set (fun _ => 0) s1.ttl.next b (s.time.cycle + 400) } }

/-- A flit boundary of a bundle: a TELLTALE flit goes ahead of any other, at most once per µs; the displaced flit keeps
its position and goes at the next boundary (R436, R452). -/
def State.linkBoundary (s : State) (b : Nat) : State :=
  if s.ttlState ≠ tsFree ∧ SMap.get (fun _ => 0) s.ttl.next b ≤ s.time.cycle then s.sendTelltale b else s.boundary b

/-- The flits of a cycle: a flit lasts 2,048 / 803.125 ns, so that 32,125 boundaries pass in 32,768 cycles (18 R435). -/
def State.sendFlits (s : State) : State :=
  let c := s.time.cycle
  if c * 32125 / 32768 = (c + 1) * 32125 / 32768 then s
  else (allBundles.filter s.bundleRuns).foldl State.linkBoundary s

/-! ### Time -/

/-- The count advances by a cycle of 2.5 ns: 16/64 tick, at the steered rate (R489); the Telltale window that ends
takes its writes with it (03 R44). -/
def State.advanceCount (s : State) : State :=
  let acc : Int := s.ttl.sub + 16000000 + 16 * s.ttl.rate
  let s1 := { s.setNow64 (s.now64 + acc.toNat / 1000000) with ttl := { s.ttl with sub := acc.toNat % 1000000 } }
  if s1.window = s.window then s1 else { s1 with arb := { s1.arb with log := [], bells := [] } }

end Sys2Proof.Machine
end

