-- ==== Sys2Proof/Machine/Resets.lean ====
section
/-! DEFINITION. Resets of the package and of a die, the boot chain, trial boots and start-up (22; 26 R628, R629, R634,
R639 to R641; 27 R645). -/

namespace Sys2Proof.Machine

open Host

/-! ### Flash and the select record (R538, R539) -/

/-- Bytes of the flash; an erased byte reads 0xFF. -/
def State.flashRd (s : State) (a n : Nat) : List Byte := (List.range n).map fun i => SMap.get (fun _ => 0xFF) s.boot.flash (a + i)

/-- Bytes programmed into the flash. -/
def State.flashWr (s : State) (a : Nat) (bs : List Byte) : State :=
  let f := bs.zipIdx.foldl (fun (m : SMap Byte) e => SMap.set (fun _ => 0xFF) m (a + e.2) e.1) s.boot.flash
  { s with boot := { s.boot with flash := f } }

/-- A range of the flash erased. -/
def State.flashErase (s : State) (a n : Nat) : State := { s with boot := { s.boot with flash := SMap.clearRange s.boot.flash a n } }

/-- First byte of a bank: 0 A, 1 B (Table 22.5). -/
def flashBank (b : Nat) : Nat := 0x1000000 * (b + 1)

/-- A select record: its sector, seq, active bank and pending. -/
structure Select where
  sector : Nat := 1
  seq : Nat := 0
  bank : Nat := 0
  pending : Bool := false
  deriving DecidableEq, Repr

/-- The select record of a sector, when its magic and CRC are valid. -/
def State.selectAt (s : State) (k : Nat) : Option Select :=
  let r := s.flashRd (0x1000 * k) 16
  if leAt r 0 4 = 0x4C535A53 ∧ leAt r 12 4 = crc32c (cut r 0 12) then
    some { sector := k, seq := leAt r 4 4, bank := leAt r 8 1 % 2, pending := decide (leAt r 9 1 = 1) }
  else none

/-- The record in use: the valid one with the higher seq, else bank A with pending clear. -/
def State.select (s : State) : Select :=
  match s.selectAt 0, s.selectAt 1 with
  | some a, some b => if a.seq < b.seq then b else a
  | some a, none => a
  | none, some b => b
  | none, none => {}

/-- A new select record, in the sector that does not hold the one in use. -/
def State.writeSelect (s : State) (bank : Nat) (pending : Bool) : State :=
  let x := s.select
  let k := 1 - x.sector
  let r := leBytes 0x4C535A53 4 ++ leBytes ((x.seq + 1) % 2 ^ 32) 4 ++ leBytes bank 1 ++ leBytes (if pending then 1 else 0) 1 ++ leBytes 0 2
  (s.flashErase (0x1000 * k) 0x1000).flashWr (0x1000 * k) (r ++ leBytes (crc32c r) 4)

/-! ### A bank (R540, R541) -/

/-- A component entry: type, length, offset, hash. -/
def bankEntry (h : List Byte) (i : Nat) : Nat × Nat × Nat × List Byte :=
  let a := 0xA0 + 64 * i
  (leAt h a 1, leAt h (a + 4) 4, leAt h (a + 8) 8, cut h (a + 16) 48)

/-- The header of a bank with its entries and signature; its component entries. -/
def State.bankHead (s : State) (b : Nat) : List Byte :=
  let n := leAt (s.flashRd (flashBank b) 0xA0) 6 2
  s.flashRd (flashBank b) (0xA0 + 64 * min n 16 + 96)
def bankEntries (h : List Byte) : List (Nat × Nat × Nat × List Byte) := (List.range (min 16 (leAt h 6 2))).map (bankEntry h)

/-- The OTP security version. -/
def State.otpSvn (s : State) : Nat := (s.boot.svn.getD Config.otpSvn).toNat

/-- Steps 1 to 4 of R541: a listed key that is not revoked, the signature, the security version, and a header and
entries in range with every type once. -/
def State.bankSigned (s : State) (b : Nat) : Bool :=
  let h := s.bankHead b
  let n := leAt h 6 2
  let es := bankEntries h
  let key := cut h 0x40 96
  let sig := cut h (0xA0 + 64 * n) 96
  decide (leAt h 0 4 = 0x4D465A53) && decide (leAt h 4 2 = 0x0100) && decide (6 ≤ n) && decide (n ≤ 16)
    && (List.range 4).any (fun k => decide (Config.otpKey k = digestOf key) && !Config.otpRevoked k)
    && ecdsaOk (sha384 (cut h 0 (0xA0 + 64 * n))) (beNat (cut key 0 48)) (beNat (cut key 48 48)) (beNat (cut sig 0 48)) (beNat (cut sig 48 48))
    && decide (s.otpSvn ≤ leAt h 8 4)
    && es.all (fun e => decide (e.2.2.1 + e.2.1 ≤ 0x1000000))
    && [1, 2, 3, 4, 5, 6].all (fun t => decide ((es.filter fun e => decide (e.1 = t)).length = 1))

/-- The stepping code of this package: BLK_VER.stepping reads 1, stepping A (27 Table 27.1). -/
def stepping : Nat := 1

/-- A component as it is read: its bytes, and whether their hash matches the entry. -/
def State.componentBytes (s : State) (b : Nat) (e : Nat × Nat × Nat × List Byte) : List Byte := s.flashRd (flashBank b + e.2.2.1) e.2.1

/-- Every check of a bank passes: the hashes, and MASTHEAD_FW (type 1) is of a release that supports the stepping (27 R650). -/
def State.bankOk (s : State) (b : Nat) : Bool :=
  s.bankSigned b && (bankEntries (s.bankHead b)).all fun e =>
    decide (6 < e.1) || decide (e.1 = 0) || (decide (sha384 (s.componentBytes b e) = e.2.2.2)
      && (decide (e.1 ≠ 1) || Config.fwSupports (s.componentBytes b e) stepping))

/-! ### Canvas limits (23 R577) -/

/-- The concurrency limit of a Canvas die: the lower of its ladder limit and its thermal limit, halved while a dip acts,
and at least 32 (23 Table 23.5, R575). -/
def State.canvasLimit (s : State) (d : Nat) : Nat :=
  let lv := s.fld Key.pwrStat 31 29
  let a := if lv = 0 then 512 else if lv = 1 then 384 else if lv ≤ 3 then 256 else 128
  let st := SMap.get (fun _ => 0) s.power.step (4 + d)
  let b := if st = 0 then 512 else 512 / 2 ^ st
  let c := min a b
  max 32 (if s.bit (Key.pwrRailStat (4 + d)) 1 then c / 2 else c)

/-- CNV_STAT shows the limit of each die in service; slots take it as they open. -/
def State.limitUpdate (s : State) : State :=
  ((List.range 4).filter fun d => s.bit (Key.cnvStat d) 31).foldl (fun t d => t.setFld (Key.cnvStat d) 10 0 (t.canvasLimit d)) s

/-! ### Units of a die -/

/-- The die of a unit. -/
def unitDie (u : UnitId) : Nat :=
  if u.type = 4 then 4 + u.index / 64 else if u.type = 8 then 10 else if u.type = 9 then 8 + u.index
  else if u.type = 10 then 4 + u.index else (sparOfUnit u).getD 11

/-- Every unit of Table 24.3; and those of a die. -/
def allUnits : List UnitId := (List.range 11).flatMap fun t => (List.range (unitCount t)).map fun i => ⟨t, i, 0⟩
def dieUnits (d : Nat) : List UnitId := allUnits.filter fun u => decide (unitDie u = d)

/-- Units lost in service on dies that are not in reset: no reset restores them (27 R645). -/
def State.lostUnits (s : State) (us : List UnitId) : List UnitId :=
  if s.ready then us.filter fun u => !s.inService u && decide (unitDie u ∉ s.boot.inReset) && decide (u ∉ s.clk.lost) && decide (u ∉ s.boot.lost) && decide (u ∉ s.rel.injected)
  else []

/-- A unit passes or fails the self-test of a start-up: it comes into service, or stays out and latches the cause that
its page has (11 R258, 13 R315, 14 R344). -/
def State.startUnit (s : State) (failed : List UnitId) (u : UnitId) : State :=
  if u ∈ failed then
    if u.type = 1 then s.latch (pgYrd u.index) 1 0 else if u.type = 2 then s.latch (pgLuf u.index) 1 0
    else if u.type = 3 then s.latch (pgClw u.index) 0 0 else s.setService u false
  else if u ∈ s.boot.lost then s.setService u false
  else s.setService u true

/-- The blocks of a die enabled by the firmware that starts them (03 R53). -/
def State.enableBlocks (s : State) (d : Nat) : State :=
  ((List.range 1024).filter fun p => (blockOf p).isSome && decide (pageDie p = d)).foldl (fun t p => t.setBit (Key.blkCtrl p) 0 true) s

/-- Units of a die come up, and its blocks are enabled; a Canvas die shows its limit, its panels and its coefficient. -/
def State.startDie (s0 : State) (d : Nat) (failed : List UnitId) : State :=
  let s := s0.enableBlocks d
  let s1 := (dieUnits d).foldl (fun t u => t.startUnit failed u) s
  if 4 ≤ d ∧ d ≤ 7 then
    let c := d - 4
    let s2 := (s1.setBit (Key.cnvStat c) 31 true).setFld (Key.cnvStat c) 10 0 (s1.canvasLimit c)
    (List.range 64).foldl (fun t i =>
      (t.countPanels (64 * c + i)).setFld (Key.cpgTcoef (64 * c + i)) 15 0 (Config.otpTau c).toNat) s2
  else s1

/-! ### Package resets (R532 to R534) -/

/-- The pages whose fault latches the always-on domain keeps. -/
def keptPages : List Nat := [pgClk, pgRst, pgPwr, pgThm, pgFlt]

/-- What a package reset keeps of the registers: RST_HIST, LNK_SHEET.next, now in force, and the kept pages' latches. -/
def State.keptRegs (s : State) : SMap Word :=
  let next := s.fld Key.lnkSheet 6 4
  let sheet := [(Key.lnkSheet, BitVec.ofNat 32 (next * 16 + next))]
  let l := (Key.rstHist, s.reg Key.rstHist) :: sheet ++ keptPages.flatMap fun p => [(Key.fltLatch p, s.reg (Key.fltLatch p)), (Key.fltInfo p, s.reg (Key.fltInfo p))]
  l.foldl (fun m e => SMap.set resetVal m e.1 e.2) []

/-- What a panel keeps: its cells, its spares, its cycles, and that it left service. -/
def Panel.kept (x : Panel) : Panel := { out := x.out, cells := x.cells, spares := x.spares, cycles := x.cycles }

/-- What the Canvas keeps: weights, spare maps and group tags. -/
def Canvas.kept (c : Canvas) : Canvas where
  groups := c.groups.filterMap fun e => let y : Group := { tag := e.2.tag }; if y = {} then none else some (e.1, y)
  panels := c.panels.filterMap fun e => let y := e.2.kept; if y = {} then none else some (e.1, y)

/-- Kept latches set their page's bit when the aggregator starts (24 R606). -/
def State.keptFaults (s : State) : List (Nat × Nat × Nat × Nat) :=
  (keptPages.filter fun p => decide (s.reg (Key.fltLatch p) ≠ 0)).map fun p =>
    (p, s.fld (Key.fltInfo p) 31 27, s.fld (Key.fltInfo p) 26 0, 0)

/-- Every die in reset and everything forgotten that no reset keeps: a trial that is not committed ends with the
previous bank named (R544), and the target bank of an update that is abandoned is invalid (25 R617). `por` clears the always-on domain. -/
def State.clearAll (s00 : State) (por : Bool) : State :=
  let s0 := match s00.sbd.update with
    | some u => s00.flashErase (flashBank u.bank) 4
    | none => s00
  let s := if s0.boot.trial then (s0.latch pgRst 0 0).writeSelect (1 - s0.select.bank) false else s0
  let s1 : State := {
    pending := s.pending, out := s.out, freeCtr := s.freeCtr, pins := s.pins
    regs := if por then [] else s.keptRegs
    cnv := s.cnv.kept
    mem := { lost := s.mem.lost }
    boot := { flash := s.boot.flash, svn := s.boot.svn, lost := s.boot.lost ++ s.lostUnits allUnits } }
  { s1 with rel := { s1.rel with fresh := s1.keptFaults } }

/-- A package-scope reset with its cause (R532, R533). While PWR_OK is low the package stays as it is. -/
def State.packageReset (s : State) (cause : Nat) : State :=
  if s.pins.pwrOk = false then s
  else
    let t := s.clearAll (decide (cause = 1))
    (t.setFld Key.rstStat 15 8 cause).setReg Key.rstHist (BitVec.ofNat 32 ((t.reg Key.rstHist).toNat * 256 % 2 ^ 32 + cause))

/-- POR (R532, 26 R628, R633, R641): PWR_OK asserts. THERMTRIP_N is released, unless the trip came in the tick of the
deassertion. -/
def execPor (s : State) : Outcome State Fault Refusal :=
  let s1 : State := { s with pins := { s.pins with pwrOk := true, thermtrip := s.pins.thermtrip && s.pins.tripHeld, tripHeld := false } }
  let t := s1.packageReset 1
  .next (if s.pins.tripHeld then t.latch pgThm 1 0 else t)

/-- PERST (R532). -/
def execPerst (s : State) : Outcome State Fault Refusal := .next (s.packageReset 2)

/-- WATCHDOG (R532, R558). -/
def execWatchdog (s : State) : Outcome State Fault Refusal := .next ((s.latch pgRst 2 0).packageReset 5)

/-- A lockstep mismatch. -/
def State.lockstepReset (s : State) : State := (s.latch pgRst 3 0).packageReset 6

/-- LOCKSTEP_MISMATCH (R532, R558). -/
def execLockstepMismatch (s : State) : Outcome State Fault Refusal := .next s.lockstepReset

/-! ### Die resets (R535, R536) -/

/-- The registers of a die's pages at reset, but for fault latches and the sheeting code (R50, R534). -/
def State.resetDiePages (s : State) (d : Nat) : State :=
  let gone := fun (k : Nat) => decide (pageDie (k / 1024) = d) && decide (k ≠ Key.lnkSheet)
    && decide (k ≠ Key.fltLatch (k / 1024)) && decide (k ≠ Key.fltInfo (k / 1024))
  { s with regs := s.regs.filter fun e => !gone e.1 }

/-- Requests whose walks run on a Spar complete; the walks are gone. -/
def State.failSpar (s : State) (k st dt : Nat) : State :=
  let ws := s.fab.walks.filter fun w => decide (w.spar = k)
  let s1 := (ws.flatMap fun w => w.tags.map fun t => (w.part, t)).eraseDups.foldl (fun t x => t.failTag x.1 x.2 st dt) s
  { s1 with fab := { s1.fab with
    walks := s1.fab.walks.filter fun w => decide (w.spar ≠ k)
    flight := s1.fab.flight.filter fun m => decide (m.spar ≠ k)
    plans := s1.fab.plans.filter fun b => decide (b.spar ≠ k) } }

/-- The stores of a Spar's Clews and the contents of its banks are gone (11 R258, 14 R344). -/
def State.clearSpar (s : State) (k : Nat) : State :=
  { s with
    fab := { s.fab with stores := SMap.clearRange s.fab.stores (4 * k) 4, lastUser := SMap.clearRange s.fab.lastUser (48 * k) 48 }
    mem := { s.mem with bytes := SMap.clearRange s.mem.bytes (bankBase (48 * k)) 0x6000000 } }

/-- The units of a die leave service; its requests complete with a status and detail. Its memory region, its models or
its bundles go with it (R535, Table 22.4; 21 R528). `load` is the detail that refuses a load in progress. -/
def State.dieLeaves (s : State) (d st dt : Nat) : State :=
  if d ≤ 3 then
    let s1 := (s.failSpar d st dt).loseSpar d st dt
    ((s1.loseUnitAs ⟨utScatter, d, 0⟩ st dt).loseRegion (2 * d)).clearSpar d
  else if d ≤ 7 then
    let c := d - 4
    let jobs := s.cnv.jobs.filter fun j => decide (j.die = c)
    let s1 := (jobs.flatMap fun j => j.tags.map fun t => (j.part, t)).eraseDups.foldl (fun t x => t.failTag x.1 x.2 st dt) s
    let hit := s1.models.filter fun m => m.physGroups.any fun g => decide (g / 64 = c)
    let s2 := hit.foldl (fun t m => if m.st = .loading then t.refuseLoad m 0x1C else t.releaseModel m) s1
    let s3 := (dieUnits d).foldl (fun t u => t.loseUnitAs u st dt) s2
    let groups := s3.cnv.groups.filterMap fun e => if e.1 / 64 = c then
      (let y : Group := { tag := e.2.tag }; if y = {} then none else some (e.1, y)) else some e
    let panels := s3.cnv.panels.filterMap fun e => if e.1 / 2048 = c then
      (let y := e.2.kept; if y = {} then none else some (e.1, y)) else some e
    { s3 with cnv := { s3.cnv with groups := groups, panels := panels, jobs := s3.cnv.jobs.filter fun j => decide (j.die ≠ c) } }
  else if d ≤ 9 then
    let s1 := s.loseUnitAs ⟨utCollective, d - 8, 0⟩ st dt
    ((List.range 6).map fun i => 6 * (d - 8) + i).foldl (fun t b => t.bundleDown b true) s1
  else s

/-- A die-scope reset with its cause: 0x10 DIE_SUPPLY, 0x11 DIE_COMMAND. A die already in reset stays there (R555). -/
def State.dieReset (s : State) (d cause : Nat) : State :=
  if d ∈ s.boot.inReset ∨ 9 < d then s
  else
    let lost := s.lostUnits (dieUnits d)
    let (st, dt) := if cause = 0x10 then (stFaultSupply, 0) else (stFaultUnit, 0x1A)
    let s1 := s.dieLeaves d st dt
    let s2 := ((s1.setReg Key.rstDieLast (BitVec.ofNat 32 (d * 256 + cause))).resetDiePages d).dropAccesses d
    { s2 with boot := { s2.boot with inReset := s2.boot.inReset ++ [d], lost := s2.boot.lost ++ lost } }

/-- DIE_RETURN (R536): the die's firmware is loaded again, it trains and tests itself; units that pass come into
service, and bundles train. Stacks may fail their training again (08 R176). -/
def execDieReturn (die : BitVec 4) (failed : List UnitId) (s : State) (retried badStacks : List (BitVec 1) := []) (us : List Word := []) :
    Outcome State Fault Refusal :=
  let d := die.toNat
  .next (if d ∈ s.boot.inReset ∧ d ∉ s.power.supply ∧ d ∉ s.clk.cut ∧ d ≤ 9 ∧ s.pins.pwrOk = true then
      let s1 := ({ s with boot := { s.boot with inReset := s.boot.inReset.filter fun x => decide (x ≠ d) } } : State).inc Key.rstDieCnt
      let s2 := if s1.boot.running then s1.startDie d failed else s1
      if d ≤ 3 then
        let region := fun (f : Nat) => inRegion (2 * d) f
        let at_ := fun (l : List (BitVec 1)) (i : Nat) => decide (BitVec.ofNat 1 i ∈ l)
        let s3 := ([0, 1].foldl (fun t i => t.trainUnit (2 * d + i) (us.getD i 0) (at_ retried i) (at_ badStacks i)) s2).bringOnline [2 * d, 2 * d + 1]
        ({ s3 with mem := { s3.mem with
          bytes := s3.mem.bytes.filter fun e => !region (e.1 / 4096), written := s3.mem.written.filter fun e => !region e.1
          poison := s3.mem.poison.filter fun l => !region (l / 64) } } : State).kvpUpdate
      else if 8 ≤ d then ((List.range 6).map fun i => 6 * (d - 8) + i).foldl State.startTraining s2
      else s2
    else s)

/-! ### RST_CMD (R544, R555, R558) -/

/-- A package op of RST_CMD: nothing arriving after it in its cycle is performed (R555). -/
def State.packageOp (s : State) (cause : Nat) : State :=
  let t := s.packageReset cause
  { t with boot := { t.boot with opDone := true } }

/-- ACTIVATE: ignored with act_err during an update, during a trial, or when the other bank fails its checks; else a
select record names that bank as a trial, and the package resets. -/
def State.activate (s : State) : State :=
  let other := 1 - s.fld Key.rstStat 27 27
  if s.sbd.update.isSome ∨ s.boot.trial = true ∨ s.bankSigned other = false then s.setBit Key.rstStat 25 true
  else
    let t := (s.writeSelect other true).packageOp 4
    { t with boot := { t.boot with trial := true } }

/-- A write of RST_CMD. -/
def State.writeRstCmd (s : State) (v : Word) : State :=
  let die := getBits v 15 8
  if getBits v 7 0 = 1 then s.packageOp 3
  else if getBits v 7 0 = 2 then
    (if die = 10 ∨ die = 11 then s.packageOp 3 else s.dieReset die 0x11)
  else if getBits v 7 0 = 3 then s.activate
  else s

/-- PACKAGE_RESET. -/
def execPackageReset (m : Master) (be : BitVec 4) (s : State) : Outcome State Fault Refusal :=
  .next (s.gated m pgRst 0x104 be 1 fun t => t.writeRstCmd 1)

/-- DIE_COMMAND. -/
def execDieCommand (m : Master) (be : BitVec 4) (die : Byte) (s : State) : Outcome State Fault Refusal :=
  let v : Word := BitVec.ofNat 32 (die.toNat * 256 + 2)
  .next (s.gated m pgRst 0x104 be v fun t => t.writeRstCmd v)

/-- ACTIVATE. -/
def execActivate (m : Master) (be : BitVec 4) (s : State) : Outcome State Fault Refusal :=
  .next (s.gated m pgRst 0x104 be 3 fun t => t.writeRstCmd 3)

/-! ### Boot and start-up (R541 to R544, R551) -/

/-- With canvas_keep clear every group is erased (R551, R534). -/
def State.eraseCanvas (s : State) : State :=
  { s with cnv := { s.cnv with
    groups := []
    panels := s.cnv.panels.filterMap fun e => let y : Panel := { out := e.2.out, cycles := e.2.cycles }; if y = {} then none else some (e.1, y) } }

/-- The firmware of a bank starts: its boot configuration is in use, the dies are loaded and tested, and the links
train. `pending` says that the select record calls it a trial. -/
def State.startFirmware (s : State) (b : Nat) (pending : Bool) (failed : List UnitId) : State :=
  let h := s.bankHead b
  let es := (bankEntries h).filter fun e => decide (1 ≤ e.1) && decide (e.1 ≤ 6)
  let config := match es.find? fun e => decide (e.1 = 6) with
    | some e => s.componentBytes b e
    | none => []
  let sheet := if leAt config 0 1 ≤ 4 then leAt config 0 1 else 2
  let flags := leAt config 1 1
  let revoked := (List.range 4).map fun k => if Config.otpRevoked k then 2 ^ k else 0
  let s1 : State := { s with boot := { s.boot with
    running := true, config := config, bankSvn := leAt h 8 4, svnCommit := decide (leAt h 0xC 1 % 2 = 1), trial := pending
    digests := es.map fun e => (e.1, BitVec.ofNat 384 (leNat e.2.2.2)) } }
  let s2 := ((s1.setBit Key.rstStat 27 (decide (b = 1))).setBit Key.rstStat 26 pending).setReg Key.rstKeys
    (BitVec.ofNat 32 (revoked.sum * 16 + min 8 (leAt config 2 1)))
  let s3 := if s2.fld Key.rstStat 15 8 = 1 then s2.setReg Key.lnkSheet (BitVec.ofNat 32 (sheet * 16 + sheet)) else s2
  let m := [leAt h 8 4, b, if pending then 1 else 0, s.otpSvn, (s2.reg Key.rstKeys).toNat]
  let s3 : State := { s3 with boot := { s3.boot with measured := m } }
  let s4 := s3.setBit Key.ttlCfg 31 (decide (flags / 2 % 2 = 1))
  let s5 := if flags % 2 = 1 then s4 else s4.eraseCanvas
  let s6 := (List.range 12).foldl (fun t d => if d ∈ t.boot.inReset ∨ d ∈ t.clk.cut then t else t.startDie d failed) s5
  (allBundles.filter fun x => decide (8 + x / 6 ∉ s6.boot.inReset)).foldl State.startTraining s6

/-- BOOT (R539 to R543): once the PLL is locked the boot ROM verifies the selected bank, and the other one when it
fails; when both fail, the package stays in BOOT. `failed` are the units that fail their self-test. -/
def execBoot (failed : List UnitId) (s : State) : Outcome State Fault Refusal :=
  let x := s.select
  .next (if s.pins.pwrOk = false ∨ s.boot.running = true ∨ s.boot.dead = true ∨ s.bit Key.clkStat 31 = false then s
    else if s.bankOk x.bank then s.startFirmware x.bank x.pending failed
    else
      let s1 := s.latch pgRst 0 0
      let s2 := if x.pending then s1.writeSelect (1 - x.bank) false else s1
      let s3 : State := { s2 with boot := { s2.boot with trial := false } }
      if s3.bankOk (1 - x.bank) then s3.startFirmware (1 - x.bank) false failed
      else
        let s4 := s3.latch pgRst 1 0
        { s4 with boot := { s4.boot with dead := true } })

/-- A trial is committed: its record loses pending, and the OTP security version advances (R544). -/
def State.commitTrial (s : State) : State :=
  if s.boot.trial then
    let s1 := (s.writeSelect (s.fld Key.rstStat 27 27) false).setBit Key.rstStat 26 false
    let svn := if s.boot.svnCommit ∧ s.otpSvn < s.boot.bankSvn then some (BitVec.ofNat 32 s.boot.bankSvn) else s.boot.svn
    { s1 with boot := { s1.boot with trial := false, svn := svn } }
  else s

/-- STARTUP_COMPLETE (R551, 01 R18): memory and link training have ended (Table 22.10), Telltale synchronisation has completed,
LOCKED, root or UNSYNC (20 R507), and every bundle has been classed or RIG_TIMEOUT has latched, and the device key pair exists (28 R665).
Not in manufacturing test (26 R634). -/
def execStartupComplete (s : State) : Outcome State Fault Refusal :=
  .next (if s.ready ∨ s.boot.running = false ∨ s.ttl.acquired = false ∨ s.fld Key.ttlStat 31 29 < 2 ∨ s.mem.trained = false ∨ s.boot.devPair = false ∨ s.pins.testMode = true
      ∨ (s.bit Key.topRigStat 31 = false ∧ s.bit Key.topRigStat 30 = false) then s
    else
      let us := s.time.cycle / 400
      (((s.setBit Key.rstStat 31 true).setReg Key.rstTimeUs (BitVec.ofNat 32 us)).irq pgRst 2).commitTrial)

end Sys2Proof.Machine
end

