-- ==== Sys2Proof/Machine/Ratlines.lean ====
section
/-! DEFINITION. Ratline links and clocks (21; 03 R51). -/

namespace Sys2Proof.Machine

open Host

/-! ### Links and routes (R510, R511) -/

/-- The dies at the ends of a link, by the die codes of RST_CMD (Table 21.2). -/
def linkEnds (l : Nat) : Nat × Nat :=
  if l < 6 then [(0, 1), (0, 2), (0, 3), (1, 2), (1, 3), (2, 3)].getD l (0, 1)
  else if l < 10 then (l - 6, l - 2)
  else if l < 14 then (l - 6, 4 + (l - 9) % 4)
  else if l < 18 then (l - 14, 10)
  else if l < 26 then (8 + (l - 18) / 4, (l - 18) % 4)
  else if l = 26 then (8, 9)
  else (11, l - 27)

/-- Spare wires per direction (Table 21.2). -/
def linkSpares (l : Nat) : Nat := if l < 6 then 20 else if l < 18 then 10 else if l < 27 then 5 else 1

/-- The states of CLK_RLl_STAT. -/
abbrev rlDown : Nat := 0
abbrev rlTrain : Nat := 1
abbrev rlUp : Nat := 2
abbrev rlDegraded : Nat := 3

/-- The state of a link. -/
def State.rlState (s : State) (l : Nat) : Nat := s.fld (Key.clkRlStat l) 31 29

/-- The peers of a die over links of L0 to L26 that are not DOWN. -/
def State.rlPeers (s : State) (d : Nat) : List Nat :=
  ((List.range 27).filter fun l => decide (s.rlState l ≠ rlDown)).filterMap fun l =>
    let e := linkEnds l
    if e.1 = d then some e.2 else if e.2 = d then some e.1 else none

/-- The dies within some links of a list of dies. -/
def State.within (s : State) : Nat → List Nat → List Nat
  | 0, ds => ds
  | n + 1, ds => s.within n (ds ++ ds.flatMap s.rlPeers).eraseDups

/-- Dies 0 to 9 that are out of service: no route of at most three links reaches them from HM0, or their management
link is DOWN (R521). -/
def State.cutDies (s : State) : List Nat :=
  let near := s.within 3 [10]
  (List.range 10).filter fun d => decide (d ∉ near) || decide (s.rlState (27 + d) = rlDown)

/-- The link of L0 to L26 between two dies, when it is UP (R511). -/
def State.linkBetween (s : State) (a b : Nat) : Option Nat :=
  (List.range 27).find? fun l => (decide (linkEnds l = (a, b)) || decide (linkEnds l = (b, a))) && decide (rlUp ≤ s.rlState l)

/-- The route of transfers from one die to another (R511): the direct link when it is UP, otherwise the shortest path of at most three
links (R521); among equal ones that whose first intermediate die comes first. -/
def State.route (s : State) (a b : Nat) : Option (List Nat) :=
  let hop := s.linkBetween
  let dies := List.range 11
  match hop a b, (dies.findSome? fun c => match hop a c, hop c b with
      | some x, some y => some [x, y]
      | _, _ => none),
    (dies.findSome? fun c => dies.findSome? fun d => match hop a c, hop c d, hop d b with
      | some x, some y, some z => some [x, y, z]
      | _, _, _ => none) with
  | some l, _, _ => some [l]
  | none, some r, _ => some r
  | none, none, r => r

/-! ### One direction of a link -/

/-- The place of a link's direction. -/
def ratKey (l : Nat) (back : Bool) : Nat := 2 * l + (if back then 1 else 0)

/-- A direction. -/
def State.rat (s : State) (l : Nat) (back : Bool) : Ratline := SMap.get (fun _ => {}) s.rats (ratKey l back)

/-- A direction set. -/
def State.setRat (s : State) (l : Nat) (back : Bool) (r : Ratline) : State :=
  { s with rats := SMap.set (fun _ => {}) s.rats (ratKey l back) r }

/-- Units sent and not acknowledged. -/
def Ratline.outstanding (r : Ratline) : Nat := (r.next + 4096 - r.base) % 4096

/-- The throttle level in force: the order, and at least 2 at half width; not of a management link (R514). An order
waits for a lane test to end (R524). -/
def State.levelUpdate (s : State) (l : Nat) : State :=
  if 27 ≤ l ∨ (s.rat l false).test ≠ none ∨ (s.rat l true).test ≠ none then s
  else s.setFld (Key.clkRlStat l) 28 27
    (max (s.fld Key.clkRlThrot 1 0) (if s.rlState l = rlDegraded then 2 else 0))

/-- A link's state set, and its level. -/
def State.setRl (s : State) (l st : Nat) : State := (s.setFld (Key.clkRlStat l) 31 29 st).levelUpdate l

/-! ### DOWN (R526 to R528) -/

/-- A die leaves service: R129 or R130 applies to each of its units, and its memory region or bundles go with it. -/
def State.cutDie (s : State) (d : Nat) : State :=
  let units := (dieUnits d).filter s.inService
  let regions := if d ≤ 3 then ([2 * d, 2 * d + 1].filter fun n => s.bit (unitReg n 0x100) 1).map fun n => (⟨0, n, 0⟩ : UnitId) else []
  let s1 := (units.foldl State.loseUnit s).dieLeaves d stFaultUnit 0x14
  { s1 with clk := { s1.clk with cut := s1.clk.cut ++ [d], lost := s1.clk.lost ++ units ++ regions } }

/-- A die is reachable again: what left service with it returns. -/
def State.rejoinDie (s : State) (d : Nat) : State :=
  let back := s.clk.lost.filter fun u => if u.type = 0 then decide (u.index / 2 = d) else decide (unitDie u = d)
  let up := if d ∈ s.boot.inReset then [] else back
  let s1 := up.foldl (fun t u => if u.type = 0 then t.setBit (unitReg u.index 0x100) 1 true else t.setService u true) s
  ({ s1 with clk := { s1.clk with
      cut := s1.clk.cut.filter fun x => decide (x ≠ d)
      lost := s1.clk.lost.filter fun u => decide (u ∉ back) } } : State).kvpUpdate

/-- Routes computed anew: dies leave service or return, and the package resets with cause RATLINE when L37 is DOWN or
HM0 has no link left (R511, R528). -/
def State.routesUpdate (s : State) : State :=
  if s.rlState 37 = rlDown ∨ [14, 15, 16, 17].all (fun l => decide (s.rlState l = rlDown)) = true then s.packageReset 8
  else
    let cut := s.cutDies
    let s1 := (s.clk.cut.filter fun d => decide (d ∉ cut)).foldl State.rejoinDie s
    (cut.filter fun d => decide (d ∉ s.clk.cut)).foldl State.cutDie s1

/-- The detail of a request whose transfer failed: the partials of a Canvas job have their own (15 R370). -/
def State.ratlineDetail (s : State) (l p : Nat) (tag : BitVec 64) : Nat :=
  if 6 ≤ l ∧ l ≤ 13 ∧ (s.cnv.jobs.any fun j => decide (j.part = p) && decide (tag ∈ j.tags)) = true then 0x18 else 0x19

/-- A link goes DOWN. Its outstanding units have failed: on L0 to L26 data transfers, whose consumers `lost` complete;
on a management link register accesses (R51). -/
def State.linkDown (s : State) (l : Nat) (lost : List (BitVec 7 × BitVec 64)) : State :=
  let failed := decide (0 < (s.rat l false).outstanding) || decide (0 < (s.rat l true).outstanding)
  let s1 := (s.setRl l rlDown).latch pgClk 4 l
  let s2 := if failed then
      let t := if l < 27 then s1.latch pgClk 5 l else s1
      let t1 := t.latch pgFlt 0 l
      if l < 27 then lost.foldl (fun u x => u.failTag x.1.toNat x.2 stFaultUnit (u.ratlineDetail l x.1.toNat x.2)) t1 else t1
    else s1
  let s3 := (s2.setRat l false { trained := s.tick }).setRat l true {}
  s3.routesUpdate

/-! ### Retry (R512, R526) -/

/-- Every unacknowledged unit of a direction is sent again; after 16 replays without an advance of ack the link goes
DOWN. -/
def State.replayUnits (s : State) (l : Nat) (back : Bool) (lost : List (BitVec 7 × BitVec 64)) : State :=
  let r := s.rat l back
  let s1 := (s.setRat l back { r with stuck := r.stuck + 1, lastAck := s.tick }).inc (Key.clkRlRetryCnt l)
  let s2 := (List.range r.outstanding).foldl (fun t i => t.emit (.ratline l back (BitVec.ofNat 12 (r.base + i)))) s1
  if 16 ≤ r.stuck + 1 then s2.linkDown l lost else s2

/-- An ack covers units of a direction. -/
def State.ackUnits (s : State) (l : Nat) (back : Bool) (ack : Nat) : State :=
  let r := s.rat l back
  let n := (ack + 1 + 4096 - r.base) % 4096
  if 0 < n ∧ n ≤ r.outstanding then
    s.setRat l back { r with
      base := (r.base + n) % 4096, stuck := 0, lastAck := s.tick
      units := r.units.filter fun u => decide (n ≤ (u.1 + 4096 - r.base) % 4096) }
  else s

/-- An armed RATLINE_CRC corrupts the next unit of its link (24 Table 24.4). -/
def State.unitCrc (s : State) (l : Nat) (crcOk : Bool) : Bool × State :=
  if s.injHits 4 fun i => decide (i.arg = l) then (false, s.injActed) else (crcOk, s)

/-- A unit of a transfer between two dies can be sent on a link: the link is on their route, and no unit of theirs is unacknowledged
on another one (R511, R523). -/
def State.unitMaySend (s : State) (l : Nat) : Option (Nat × Nat) → Bool
  | none => true
  | some e =>
    match s.route e.1 e.2 with
    | none => false
    | some r => decide (l ∈ r) && (List.range 27).all fun x => decide (x ∈ r)
        || [false, true].all fun back => (s.rat x back).units.all fun u => decide (u.2 ≠ e)

/-- The rotation position at which a unit of a partition, or, `none`, of the device goes: the first from the direction's own on that a
sealed partition owns, or for other traffic one that nobody owns. Positions passed over carry nothing of it (R513). -/
def State.unitPos (s : State) (l : Nat) (back : Bool) (p : Option Nat) : Option Nat :=
  let owner := match p with
    | some q => if s.isSealed q then q else 0xFF
    | none => 0xFF
  ((List.range 256).map fun i => ((s.rat l back).pos + i) % 256).find? fun i => decide (SMap.get (fun _ => 0xFF) s.clk.rot i = owner)

/-- RATLINE_UNIT (R512): a unit of a direction arrives. It is accepted when its CRC passes and its sequence number is the
next expected; else the sender replays. The sender holds at most 256 unacknowledged units. `lost` are the requests
that lose their data should the link go DOWN with it, `ends` the source and the destination die of the transfer that it belongs
to, and `part` the partition whose traffic it is. On L27 to L37 units go in the order in which they come (R513). -/
def execRatlineUnit (l : BitVec 6) (back : Bool) (seq ack : BitVec 12) (crcOk : Bool) (lost : List (BitVec 7 × BitVec 64))
    (s : State) (ends : Option (Nat × Nat) := none) (part : Option (BitVec 7) := none) : Outcome State Fault Refusal :=
  let n := l.toNat
  let r := s.rat n back
  let pos := if n < 27 then s.unitPos n back (part.map BitVec.toNat) else some 0
  let fresh := decide (seq.toNat = r.next) && decide (r.outstanding < 256) && s.unitMaySend n ends && pos.isSome
  let again := decide ((seq.toNat + 4096 - r.base) % 4096 < r.outstanding)
  .next (if 37 < n ∨ s.rlState n < rlUp ∨ r.test ≠ none ∨ (fresh || again) = false then s
    else
      let mine := match ends with
        | some e => [(r.next, e)]
        | none => []
      let r1 := if fresh then { r with
        next := (r.next + 1) % 4096, units := r.units ++ mine, pos := (pos.getD 0 + 1) % 256
        lastAck := if r.outstanding = 0 then s.tick else r.lastAck } else r
      let (ok, s1) := (s.setRat n back r1).unitCrc n crcOk
      let s2 := if ok then s1.ackUnits n (!back) ack.toNat else s1
      if ok ∧ seq.toNat = r1.expect then s2.setRat n back { s2.rat n back with expect := (r1.expect + 1) % 4096 }
      else if ok then s2.replayUnits n back lost
      else
        let q := s2.rat n back
        let recent := (q.fails.filter fun t => decide (s.tick < t + 100)) ++ [s.tick]
        ((s2.setRat n back { q with fails := recent }).inc (Key.clkRlCrcCnt n)).replayUnits n back lost)

/-- RATLINE_REPLAY_TIMEOUT (R512): ack has not advanced for 200 ns while units are outstanding. -/
def execRatlineReplayTimeout (l : BitVec 6) (back : Bool) (lost : List (BitVec 7 × BitVec 64)) (s : State) :
    Outcome State Fault Refusal :=
  let n := l.toNat
  let r := s.rat n back
  .next (if 37 < n ∨ s.rlState n < rlUp ∨ r.test ≠ none ∨ r.outstanding = 0 ∨ s.tick < r.lastAck + 20 then s
    else s.replayUnits n back lost)

/-! ### Lane tests and training (R525 to R527, R530) -/

/-- LANE_TEST (R525): four CRC failures of a direction within 1 µs start a lane test. -/
def execLaneTest (l : BitVec 6) (back : Bool) (s : State) : Outcome State Fault Refusal :=
  let n := l.toNat
  let r := s.rat n back
  .next (if 37 < n ∨ s.rlState n < rlUp ∨ r.test ≠ none ∨ r.fails.length < 4 ∨ r.fails.any (fun t => decide (t + 100 ≤ s.tick)) then s
    else s.setRat n back { r with test := some s.tick, fails := [] })

/-- The width at which a link runs with so many bad wires in each half of a direction. -/
def widthState (l low high : Nat) : Nat :=
  if low + high ≤ linkSpares l then rlUp else if low = 0 ∨ high = 0 then rlDegraded else rlDown

/-- Spares in use: those of the direction that uses more. -/
def State.sparesUpdate (s : State) (l : Nat) : State :=
  let used := fun (b : Bool) => min (linkSpares l) ((s.rat l b).low + (s.rat l b).high)
  s.setFld (Key.clkRlStat l) 26 22 (max (used false) (used true))

/-- LANE_TEST_END (R525, R526): 500 ns later failing wires are remapped, or the link runs at half width, or goes DOWN. -/
def execLaneTestEnd (l : BitVec 6) (back : Bool) (badLow badHigh : Nat) (lost : List (BitVec 7 × BitVec 64)) (s : State) :
    Outcome State Fault Refusal :=
  let n := l.toNat
  let r := s.rat n back
  .next (match r.test with
    | none => s
    | some t0 =>
      if s.tick < t0 + 50 then s
      else
        let r1 := { r with test := none, low := r.low + badLow, high := r.high + badHigh }
        let s1 := ((s.setRat n back r1).sparesUpdate n).levelUpdate n
        let st := widthState n r1.low r1.high
        if st = rlDown then s1.linkDown n lost
        else if st = rlDegraded then
          let s2 := if s1.rlState n = rlDegraded then s1 else (s1.setRl n rlDegraded).latch pgClk 3 n
          s2.replayUnits n back lost
        else
          let s2 := if badLow + badHigh = 0 then s1
            else (s1.latch pgClk 2 n).addCnt (Key.clkRlRepairCnt n) (badLow + badHigh)
          s2.replayUnits n back lost)

/-- RATLINE_RETRAIN (R527, R530): a link trains at start-up, or every 100 ms while it is DOWN. `badLow` and `badHigh` are
the failing wires of its worse direction. -/
def execRatlineRetrain (l : BitVec 6) (badLow badHigh : Nat) (s : State) : Outcome State Fault Refusal :=
  let n := l.toNat
  let st := s.rlState n
  .next (if 37 < n ∨ s.bit Key.clkStat 31 = false ∨ rlUp ≤ st ∨ (st = rlDown ∧ s.tick < (s.rat n false).trained + 10000000) then s
    else
      let s1 := ((s.setRat n false { low := badLow, high := badHigh, trained := s.tick }).setRat n true {}).sparesUpdate n
      let w := widthState n badLow badHigh
      if w = rlDown then (if st = rlDown then s1 else s1.linkDown n [])
      else
        let s2 := s1.setRl n w
        let s3 := if w = rlDegraded then s2.latch pgClk 3 n else s2
        if st = rlDown then s3.routesUpdate else s3)

/-! ### Clocks (R515 to R517, R529, R530) -/

/-- The divisor that stands for a Spar: the largest requested (R516). -/
def State.fabWanted (s : State) (k : Nat) : Nat :=
  max (max (s.fld (Key.clkFab k) 7 6) (s.fld (Key.clkFab k) 5 4)) (max (s.fld (Key.clkFab k) 3 2) (s.fld (Key.clkFab k) 1 0))

/-- DIVISOR_CHANGE (R517): at a boundary the divisor requested is in force. -/
def execDivisorChange (k : BitVec 2) (s : State) : Outcome State Fault Refusal :=
  let n := k.toNat
  .next (if s.fld (Key.clkFab n) 9 8 = s.fabWanted n then s
    else (s.setFld (Key.clkFab n) 9 8 (s.fabWanted n)).inc Key.clkRedivCnt)

/-- SW_DIVISOR (R516). -/
def execSwDivisor (m : Master) (k : BitVec 2) (be : BitVec 4) (v : Word) (s : State) : Outcome State Fault Refusal :=
  let off := 0x110 + 4 * k.toNat
  .next (s.gated m pgClk off be v fun t => t.store m pgClk off v)

/-- Every link's level follows the order (R514). -/
def State.levels (s : State) : State := (List.range 27).foldl State.levelUpdate s

/-- A write of CLK_RL_THROT. An order of a master other than the power controller is kept for R573. -/
def State.writeRlThrot (s : State) (m : Master) (v : Word) : State :=
  let s1 := s.store m pgClk 0x108 v
  let s2 : State := if isMasthead m = true ∨ s.locked pgClk = true ∨ s1.fld Key.clkRlThrot 1 0 ≠ getBits v 1 0 then s1
    else { s1 with power := { s1.power with order := getBits v 1 0 } }
  s2.levels

/-- THROTTLE_ORDER (R514, R524). -/
def execThrottleOrder (m : Master) (be : BitVec 4) (v : Word) (s : State) : Outcome State Fault Refusal :=
  .next (s.gated m pgClk 0x108 be v fun t => t.writeRlThrot m v)

/-- REF_BAD (R529): the reference is measured; more than 1,000 ppm off for 10 µs resets the package. -/
def execRefBad (ppm : BitVec 16) (s : State) : Outcome State Fault Refusal :=
  let s1 := s.setFld Key.clkStat 15 0 ppm.toNat
  .next (if s.pins.pwrOk = false then s
    else if ppm.toInt.natAbs ≤ 1000 then s1
    else ((s1.setBit Key.clkStat 30 false).latch pgClk 1 0).packageReset 7)

/-- PLL_UNLOCK (R529). -/
def execPllUnlock (s : State) : Outcome State Fault Refusal :=
  .next (if s.bit Key.clkStat 31 = false then s
    else ((s.setBit Key.clkStat 31 false).latch pgClk 0 0).packageReset 7)

/-- PLL_LOCK (R530): the ratlines begin to train. -/
def execPllLock (s : State) : Outcome State Fault Refusal :=
  .next (if s.pins.pwrOk = false ∨ s.bit Key.clkStat 31 = true then s
    else
      let s1 := (s.setBit Key.clkStat 31 true).setBit Key.clkStat 30 true
      (List.range 38).foldl (fun t l => t.setRl l rlTrain) s1)

end Sys2Proof.Machine
end

