-- ==== Sys2Proof/Machine/Power.lean ====
section
/-! DEFINITION. Supply dips, idle states, power capping and thermal throttling (23; 26 R633, R637, R641). -/

namespace Sys2Proof.Machine

open Host

/-! ### Rails (R559 to R562) -/

/-- A rail of 0.800 V nominal: the others are of 0.750 V (Table 23.2). -/
def rail800 (r : Nat) : Bool := (decide (4 ≤ r) && decide (r ≤ 7)) || decide (r = 11)

/-- The warning, release and reset thresholds and the absolute maximum (26 Table 26.11), in half millivolts. -/
def railWarn (r : Nat) : Nat := if rail800 r then 1472 else 1380
def railRelease (r : Nat) : Nat := if rail800 r then 1488 else 1395
def railReset (r : Nat) : Nat := if rail800 r then 1360 else 1275
def railMax (r : Nat) : Nat := if rail800 r then 2000 else 1900

/-- A rail's reading reported: its voltage, whether it is above warning, and the lowest since the last read. -/
def State.railSample (s : State) (r mv : Nat) : State :=
  let v := min mv 0xFFFF
  let s1 := (s.setFld (Key.pwrRailStat r) 31 16 v).setBit (Key.pwrRailStat r) 0 (decide (railWarn r ≤ 2 * mv))
  let old := s1.fld (Key.pwrRailMin r) 15 0
  s1.setFld (Key.pwrRailMin r) 15 0 (if old = 0 then v else min old v)

/-- The hold of a rail ends or is cancelled. -/
def State.dropHold (s : State) (r : Nat) : State :=
  let s1 : State := { s with power := { s.power with hold := s.power.hold.filter fun h => decide (h.1 ≠ r) } }
  s1.setBit (Key.pwrRailStat r) 2 false

/-- Whether a dip acts on a rail, with the action of Table 23.3. -/
def State.setDip (s : State) (r : Nat) (acts : Bool) : State :=
  let s1 := s.setBit (Key.pwrRailStat r) 1 acts
  if r ≤ 3 then s1.setFld (Key.clkFab r) 7 6 (if acts then 3 else 0)
  else if r ≤ 7 then s1.limitUpdate
  else s1

/-- A rail that a supply reset holds is no longer above release. -/
def State.dropAbove (s : State) (r : Nat) : State :=
  { s with power := { s.power with above := s.power.above.filter fun h => decide (h.1 ≠ r) } }

/-- WARNING_CROSSING (R560, R561): a rail falls below its warning threshold. -/
def execWarningCrossing (r : BitVec 4) (mv : MilliVolt) (s : State) : Outcome State Fault Refusal :=
  let n := r.toNat
  if n ≤ 11 ∧ s.pins.pwrOk = true ∧ 2 * mv < railWarn n then
    .next (((((s.railSample n mv).dropHold n).dropAbove n).latch pgPwr 0 n).setDip n true)
  else .next s

/-- RELEASE_CROSSING (R561, R562): a rail rises above its release threshold; a dip's hold begins. Above the absolute
maximum no behaviour of the manual holds (26 R637). -/
def execReleaseCrossing (r : BitVec 4) (mv : MilliVolt) (s : State) : Outcome State Fault Refusal :=
  let n := r.toNat
  if 11 < n ∨ s.pins.pwrOk = false ∨ 2 * mv ≤ railRelease n then .next s
  else if railMax n < 2 * mv then .fault .beyondRatings
  else
    let s1 := s.railSample n mv
    let s2 : State := if n ∈ s1.power.supply ∧ (s1.power.above.any fun h => decide (h.1 = n)) = false then
        { s1 with power := { s1.power with above := s1.power.above ++ [(n, s1.tick)] } } else s1
    .next (if s2.bit (Key.pwrRailStat n) 1 = true ∧ s2.bit (Key.pwrRailStat n) 2 = false then
        ({ s2 with power := { s2.power with hold := s2.power.hold ++ [(n, s2.tick)] } } : State).setBit (Key.pwrRailStat n) 2 true
      else s2)

/-- DIP_RECOVERED (R561): the hold of 10 µs ends. -/
def execDipRecovered (r : BitVec 4) (s : State) : Outcome State Fault Refusal :=
  let n := r.toNat
  .next (if s.power.hold.any fun h => decide (h.1 = n) && decide (h.2 + 1000 ≤ s.tick) then
      (((s.dropHold n).setDip n false).inc (Key.pwrRailDipCnt n)).inc Key.pwrDipCnt
    else s)

/-- RESET_CROSSING (R562, 26 R639): a rail falls below its reset threshold; its die, or for rails 10 and 11 the package,
is reset. -/
def execResetCrossing (r : BitVec 4) (mv : MilliVolt) (s : State) : Outcome State Fault Refusal :=
  let n := r.toNat
  .next (if n ≤ 11 ∧ s.pins.pwrOk = true ∧ 2 * mv < railReset n then
      let s1 := ((((s.railSample n mv).dropHold n).dropAbove n).setDip n false).latch pgPwr 2 n
      if 10 ≤ n then s1.packageReset 9
      else
        let sup := (s1.power.supply.filter fun x => decide (x ≠ n)) ++ [n]
        (({ s1 with power := { s1.power with supply := sup } } : State)).dieReset n 0x10
    else s)

/-- DIE_SUPPLY_RELEASE (R562): the rail has stayed above release for 1 ms, and the die may return. -/
def execDieSupplyRelease (r : BitVec 4) (mv : MilliVolt) (s : State) : Outcome State Fault Refusal :=
  let n := r.toNat
  .next (if (s.power.above.any fun h => decide (h.1 = n) && decide (h.2 + 100000 ≤ s.tick)) = true
      ∧ railRelease n < 2 * mv ∧ 2 * mv ≤ railMax n then
      let s1 := (s.railSample n mv).dropAbove n
      { s1 with power := { s1.power with supply := s1.power.supply.filter fun x => decide (x ≠ n) } }
    else s)

/-! ### Idle states (R563 to R569) -/

/-- A unit is at work: a macro in flight uses it, or a walk's plan has it. -/
def State.unitBusy (s : State) (u : UnitId) : Bool :=
  s.fab.flight.any (fun m => m.units.any fun x => decide (unitBase x = u)) ||
    s.fab.walks.any fun w => match s.planOf w with
      | some b => b.has u
      | none => false

/-- A Canvas die that may be idle: no job, programming or refresh runs or waits on it. -/
def State.canvasIdle (s : State) (d : Nat) : Bool :=
  !(s.cnv.jobs.any fun j => decide (j.die = d)) && !(s.cnv.waiting.any fun w => decide (w.1 = d))
    && !(s.cnv.panels.any fun e => decide (e.1 / 2048 = d) && (e.2.owed || e.2.batch.isSome || decide (e.2.sparing ≠ []) || e.2.refreshing))

/-- Every group of a Canvas die is unheld or held by one partition (R568). -/
def State.canvasHeldOnce (s : State) (d : Nat) : Bool :=
  decide ((((List.range 64).filterMap fun i => s.holder ⟨utGroup, 64 * d + i, 0⟩).eraseDups).length ≤ 1)

/-- The package may enter I5 (R569). -/
def State.packageIdle (s : State) : Bool :=
  (allParts.all fun p => !mayHalt (s.pstate p))
    && ((List.range 8).all fun k => !decide (s.ringState k ∈ [rgForming, rgReady, rgRecovering]))
    && decide (s.fab.walks = []) && decide (s.fab.flight = []) && decide (s.fab.waiting = [])
    && (List.range 4).all fun d => s.canvasIdle d && s.canvasHeldOnce d

/-- A domain of the machine with no pending work. -/
def State.domainIdle (s : State) (d : IdleDomain) : Bool :=
  match d with
  | .yard i => decide (i < 32) && !s.unitBusy ⟨utYard, i, 0⟩
  | .luff i => decide (i < 8) && !s.unitBusy ⟨utLuff, i, 0⟩
  | .clew i => decide (i < 16) && !s.unitBusy ⟨utClew, i, 0⟩
  | .boom k => decide (k < 4) && !(s.fab.walks.any fun w => decide (w.spar = k))
      && !(s.fab.waiting.any fun w => decide (w.1 = k))
  | .banks k h => decide (k < 4) && !(s.fab.walks.any fun w => decide (w.spar = k)
      && decide ((if s.isSealed w.part then some w.part else none) = h))
  | .canvas c => decide (c < 4) && s.canvasIdle c
  | .package => s.packageIdle

/-- The states that a domain may enter, shallowest first (Table 23.4), of those enabled; I2 to I5 only after ready
(R581), and I4 only while R568 lets it. -/
def State.idleStates (s : State) (d : IdleDomain) : List Nat :=
  let own := match d with
    | .yard _ => [1, 2]
    | .luff _ => [1, 2]
    | .banks _ _ => [1, 3]
    | .canvas c => if s.canvasHeldOnce c then [1, 4] else [1]
    | .package => [5]
    | _ => [1]
  own.filter fun x => s.bit Key.pwrIdleEn (x - 1) && (decide (x = 1) || s.ready)

/-- A domain in an idle state: the entry is counted. In I5 the Canvas dies are in I4. -/
def State.enterIdle (s : State) (x : IdleSt) : State :=
  let s1 := s.setIdle x
  let s2 := if x.st = 0 then s1 else s1.inc (Key.pwrEntry (x.st - 1))
  if x.st = 5 then
    let dies := (List.range 4).filter fun d => s2.bit (Key.cnvStat d) 31 && (match s2.idleOf (.canvas d) with
      | some y => decide (y.st ≠ 4)
      | none => true)
    let enter := fun (t : State) (d : Nat) =>
      let y : IdleSt := { dom := .canvas d, st := 4, since := t.tick, start := x.start.map fun c => c + exitGuard 5 - exitGuard 4 }
      (t.setIdle y).inc (Key.pwrEntry 3)
    (dies.foldl enter s2).setBit Key.pwrStat 27 true
  else s2

/-- The target of a domain's next event (R565). -/
def State.nextEvent (s : State) (d : IdleDomain) : Option Nat :=
  ((s.ttl.table.filter fun e => s.counts d e.2).map fun e => e.2.target).min?

/-- The sweep burst of an idle Canvas die is registered as an event (R568). -/
def State.planSweep (s : State) (d : IdleDomain) : State :=
  match d with
  | .canvas c =>
    let bound := (List.range 64).filter fun i => s.inService ⟨utGroup, 64 * c + i, 0⟩ && decide ((s.group (64 * c + i)).model ≠ none)
      && !s.upkeepOff (64 * c + i)
    let every := (bound.map fun i => min 20 (max 1 (s.fld (Key.cpgUpkCfg (64 * c + i)) 4 0))).min?
    match every with
    | some ms => if s.ttl.table.any fun e => decide (e.2.client = .sweep c) then s
        else s.ttlRegister (s.time.count.toNat + 100000 * ms) (.sweep c) [4 + c]
    | none => s
  | _ => s

/-- IDLE_ENTRY (R564, R566): a domain with no pending work enters the deepest enabled state of which 1.1 × the exit
latency is less than the time to its next event; with no next event it enters I1. -/
def execIdleEntry (d : IdleDomain) (s : State) : Outcome State Fault Refusal :=
  .next (if s.boot.running = false ∨ (s.idleOf d).isSome = true ∨ s.domainIdle d = false then s
    else
      let s1 := s.planSweep d
      let now := s1.time.count.toNat
      match s1.nextEvent d with
      | none =>
        let st := if 1 ∈ s1.idleStates d then 1 else 0
        s1.enterIdle ⟨d, st, s1.tick, none, none⟩
      | some t =>
        match (s1.idleStates d).filter (fun x => decide (now + exitGuard x < t)) |>.getLast? with
        | some x => s1.enterIdle ⟨d, x, s1.tick, some (t - exitGuard x), none⟩
        | none => s1)

/-- IDLE_EXIT (R564): the exit starts at the planned count; once it has ended the domain is awake. -/
def execIdleExit (d : IdleDomain) (s : State) : Outcome State Fault Refusal :=
  .next (match s.idleOf d with
    | none => s
    | some x => match x.ready, x.start with
      | some t, _ => if t ≤ s.tick then s.dropIdle d else s
      | none, some c => if c ≤ s.time.count.toNat then s.beginExit x else s
      | none, none => s)

/-- The hold-off of a state in ticks (Table 23.7). -/
def State.holdoff (s : State) (st : Nat) : Nat :=
  let f := fun (h l : Nat) => max 1 (s.fld Key.pwrHoldoff h l)
  if st = 2 then 100 * f 7 0 else if st = 3 then 1000 * f 15 8 else if st = 4 then 100000 * f 23 16 else 1000000 * f 31 24

/-- HOLDOFF_EXPIRE (R566): a domain with no next event enters a deeper enabled state once it has been idle for that
state's hold-off. -/
def execHoldoffExpire (d : IdleDomain) (s : State) : Outcome State Fault Refusal :=
  .next (match s.idleOf d with
    | none => s
    | some x =>
      if x.start ≠ none ∨ x.ready ≠ none ∨ s.domainIdle d = false then s
      else match (s.idleStates d).filter (fun y => decide (x.st < y) && decide (2 ≤ y) && decide (x.since + s.holdoff y ≤ s.tick)) |>.getLast? with
        | some y => s.enterIdle { x with st := y }
        | none => s)

/-! ### Power capping (R571 to R573, R580) -/

/-- The average of some samples. -/
def average (l : List Nat) : Nat := if l = [] then 0 else l.sum / l.length

/-- POWER_SAMPLE (R571): package power is measured; PWR_STAT reports the 1 ms average. -/
def execPowerSample (watts : Nat) (s : State) : Outcome State Fault Refusal :=
  .next (if s.boot.running = false then s
    else
      let l := (watts :: s.power.samples).take 1000
      let avg := min 0xFFFF (average (l.take 100))
      let s1 : State := { s with power := { s.power with
        samples := l, high := if 100 * avg < 95 * s.power.cap then s.power.high else s.tick } }
      s1.setFld Key.pwrStat 15 0 avg)

/-- The ratline order and the CK_FAB request of a level (Table 23.5). -/
def ladderOrder (l : Nat) : Nat := if l = 3 then 1 else if l = 4 then 2 else 0
def ladderFab (l : Nat) : Nat := l - 1

/-- CLK_RL_THROT.order written by the power controller as MASTHEAD (R573). -/
def State.writeOrder (s : State) : State :=
  s.writeRlThrot (.masthead 0) (BitVec.ofNat 32 (max (ladderOrder (s.fld Key.pwrStat 31 29)) s.power.order))

/-- The ladder moved to a level. -/
def State.setLevel (s : State) (l : Nat) : State :=
  if s.fld Key.pwrStat 31 29 = l then s
  else
    let s1 := ((s.setFld Key.pwrStat 31 29 l).inc Key.pwrLevelCnt).irq pgPwr 2
    let s2 := (List.range 4).foldl (fun t k => t.setFld (Key.clkFab k) 3 2 (ladderFab l)) s1
    s2.limitUpdate.writeOrder

/-- CONTROL_PERIOD (R572, R573, R579, R580): the ladder is adjusted. -/
def execControlPeriod (s : State) : Outcome State Fault Refusal :=
  .next (if s.boot.running = false then s
    else
      let cap := min 1400 (max 600 (s.fld Key.pwrCap 10 0))
      let s1 : State := { s with power := { s.power with cap := cap } }
      let l := s.fld Key.pwrStat 31 29
      let avg := s.fld Key.pwrStat 15 0
      let next := if s.power.monFail then 4 else if cap < avg then min 4 (l + 1)
        else if s.power.high + 1000000 ≤ s.tick then l - 1 else l
      let s2 := if next = l then (if ladderOrder l = 0 then s1 else s1.writeOrder) else s1.setLevel next
      let unmet := decide (l = 4) && decide (cap < average s.power.samples)
      let s3 := s2.setBit Key.pwrStat 28 unmet
      if unmet && !s.bit Key.pwrStat 28 then s3.latch pgPwr 1 0 else s3)

/-- MON_FAIL (R580): a rail monitor, or the current sense, fails its self-check. -/
def execMonFail (r : Option (BitVec 4)) (s : State) : Outcome State Fault Refusal :=
  let n := (r.map BitVec.toNat).getD 0
  .next (if s.pins.pwrOk = false ∨ 11 < n then s
    else
      let t := s.latch pgPwr 3 n
      let s1 : State := { t with power := { t.power with monFail := true } }
      if s1.boot.running then s1.setLevel 4 else s1)

/-- PWR_CAP_WRITE (R579). -/
def execPwrCapWrite (m : Master) (be : BitVec 4) (v : Word) (s : State) : Outcome State Fault Refusal :=
  .next (s.gated m pgPwr 0x100 be v fun t => t.store m pgPwr 0x100 v)

/-! ### Thermal limits (R574 to R576, R579, R580) -/

/-- THM_LIMIT_WRITE (R579). -/
def execThmLimitWrite (m : Master) (be : BitVec 4) (v : Word) (s : State) : Outcome State Fault Refusal :=
  .next (s.gated m pgThm 0x100 be v fun t => t.store m pgThm 0x100 v)

/-- A thermal unit: a die, a stack or a channel (R583). -/
def thermalUnit (u : Nat) : Bool :=
  decide (u < 12) || (decide (16 ≤ u) && decide (u < 24)) || (decide (32 ≤ u) && decide (u < 48))

/-- The throttle limit of a unit in 1/4 °C (Table 23.6, Table 23.8). -/
def State.thermalLimit (s : State) (u : Nat) : Int :=
  let f := fun (h l top : Nat) => 4 * min top (max 60 (s.fld Key.thmLimit h l))
  if 4 ≤ u ∧ u ≤ 7 then f 23 16 85 else if u ≤ 11 then f 15 8 100 else f 7 0 95

/-- The throttle step of a unit. -/
def State.thermalStep (s : State) (u : Nat) : Nat := SMap.get (fun _ => 0) s.power.step u

/-- A unit's throttle step set, with what it does. -/
def State.setStep (s : State) (u n : Nat) : State :=
  if s.thermalStep u = n then s
  else
    let s1 : State := ({ s with power := { s.power with step := SMap.set (fun _ => 0) s.power.step u n } } : State).inc Key.thmStepCnt
    let s2 := if s.thermalStep u = 0 ∧ u ∉ [8, 9, 10, 11] then s1.latch pgThm 0 u else s1
    if u ≤ 3 then s2.setFld (Key.clkFab u) 5 4 n else if u ≤ 7 then s2.limitUpdate else s2

/-- What one evaluation makes of a unit's reading. -/
def State.evaluateUnit (s : State) (e : Nat × TempReading) : State :=
  let u := e.1
  let t := e.2.temp
  let bad := decide (t < -160) || decide (600 < t) || decide (40 < (t - e.2.pair).natAbs)
  let lim := s.thermalLimit u
  let above := decide (lim < t)
  let hot := decide (u ∈ s.power.hot)
  let throttles := decide (u ∉ [8, 9, 10, 11])
  let s1 := if bad && !decide (u ∈ s.power.failed) then
      (let x := s.latch pgThm 2 u
       { x with power := { x.power with failed := x.power.failed ++ [u] } } : State) else s
  let s2 := if above && !hot && !throttles then s1.latch pgThm 0 u else s1
  let others := s2.power.hot.filter fun x => decide (x ≠ u)
  let s3 : State := { s2 with power := { s2.power with hot := if above then others ++ [u] else others } }
  let cool := SMap.get (fun _ => 0) s3.power.cool u
  let setCool := fun (x : State) (n : Nat) => ({ x with power := { x.power with cool := SMap.set (fun _ => 0) x.power.cool u n } } : State)
  let s4 := if u ∈ s3.power.failed then s3.setStep u 3
    else if throttles = false then s3
    else if above then (setCool s3 0).setStep u (min 3 (s3.thermalStep u + 1))
    else if t < lim - 20 then
      (if cool = 0 then setCool s3 (s3.tick + 1)
       else if cool + 1000000 ≤ s3.tick + 1 then (setCool s3 (s3.tick + 1)).setStep u (s3.thermalStep u - 1)
       else s3)
    else setCool s3 0
  if u < 12 then
    s4.setReg (Key.thmDie u) (BitVec.ofNat 32 ((BitVec.ofInt 16 t).toNat * 65536 + s4.thermalStep u * 2 + (if above then 1 else 0)))
  else s4

/-- THERMAL_EVALUATION (R575, R580): every 1 ms each unit read takes a step, and the summary follows. -/
def execThermalEvaluation (readings : List (Nat × TempReading)) (s : State) : Outcome State Fault Refusal :=
  .next (if s.boot.running = false then s
    else
      let l := readings.filter fun e => thermalUnit e.1
      let s1 := l.foldl State.evaluateUnit s
      let hottest := ((l.filter fun e => decide (e.1 < 12)).map fun e => e.2.temp).max?
      let s2 := match hottest with
        | some t => s1.setFld Key.thmStat 15 0 (BitVec.ofInt 16 t).toNat
        | none => s1
      s2.setBit Key.thmStat 31 (s2.power.step.any fun e => decide (0 < e.2)))

/-- THERMAL_TRIP (R576, 26 R633, R641): a unit reaches its trip temperature. In the tick in which PWR_OK deasserts the
trip is latched for good. -/
def execThermalTrip (u : Nat) (s : State) : Outcome State Fault Refusal :=
  .next (if thermalUnit u = false then s
    else
      let t := s.latch pgThm 1 u
      let down := decide (s.pins.pwrOk = false)
      if down ∧ 4 ≤ s.time.cycle then s
      else ({ t with pins := { t.pins with thermtrip := true, tripHeld := t.pins.tripHeld || down } } : State).packageReset 0x0A)

end Sys2Proof.Machine
end

