-- ==== Sys2Proof/Machine/Faults.lean ====
section
/-! DEFINITION. Rotating self-tests, usage epochs, aggregation and error injection (24). -/

namespace Sys2Proof.Machine

open Host

/-! ### Self-tests (R586 to R589) -/

/-- A unit of class SELFTEST (Table 24.2). -/
def selftestUnit (u : UnitId) : Bool :=
  (decide (u.type = 3) || (decide (6 ≤ u.type) && decide (u.type ≤ 10))) && decide (u.index < unitCount u.type)

/-- A unit is covered by upkeep: not dedicated to a partition that sets upkeep_off (R586). -/
def State.covered (s : State) (u : UnitId) : Bool :=
  match s.holder u with
  | some p => !s.bit (Key.prtCfg p) 2
  | none => true

/-- The page that latches a failed self-test. -/
def testLatch (u : UnitId) : Option (Nat × Nat) := if u.type = 3 then some (pgClw u.index, 0) else none

/-- A unit fails its test: it leaves service, its users complete, and SUSPECT follows from the start of its last passing
test (R588, R592, R594). A Boom takes its Spar with it. -/
def State.testFails (s : State) (u : UnitId) (injected : Bool) : State :=
  let start := SMap.get (fun _ => 0) s.rel.testPass (unitKey u)
  let s1 := match testLatch u with
    | some (p, c) => s.latch p c 0
    | none => s
  let s2 := if u.type = 6 then s1.loseSpar u.index (unitFault 6).1 (unitFault 6).2 else s1.loseUnit u
  let gone := (u :: (if u.type = 6 then sparUnits u.index else [])).filter fun x => s1.inService x && !s2.inService x
  let s3 : State := if injected then { s2 with rel := { s2.rel with injected := s2.rel.injected ++ gone } } else s2
  s3.suspect u (if injected then 0x87 else 0x07) start

/-- SELFTEST (R587, R588): a covered unit is taken at the end of its current operation, tested and returned, or fails. -/
def execSelftest (u : UnitId) (ok : Bool) (s : State) : Outcome State Fault Refusal :=
  let b := unitBase u
  .next (if selftestUnit b = false ∨ s.ready = false ∨ s.inService b = false ∨ s.covered b = false ∨ s.testTime b = false then s
    else
      let now := s.time.count.toNat
      let injected := s.injHits 7 fun i => decide (unitBase i.unit = b)
      let t := (if injected then s.injActed else s).inc Key.fltSelftestCnt
      let t0 := if b.type = 3 ∧ (s.holder b).isSome = true then t.planTest b.index else t
      let t1 : State := { t0 with rel := { t0.rel with testStart := SMap.set (fun _ => 0) t0.rel.testStart (unitKey b) now } }
      if ok && !injected then
        { t1 with rel := { t1.rel with
          testPass := SMap.set (fun _ => 0) t1.rel.testPass (unitKey b) now, late := t1.rel.late.filter fun x => decide (x ≠ b) } }
      else t1.testFails b injected)

/-- The Telltale count from which a unit's 40 ms run: the start of its last test, or of the rotation (R606). -/
def State.testSince (s : State) (u : UnitId) : Nat :=
  max (SMap.get (fun _ => 0) s.rel.testStart (unitKey u)) (100 * (s.reg Key.rstTimeUs).toNat)

/-- SELFTEST_LATE (R589): a covered unit's test has not started within 40 ms. -/
def execSelftestLate (u : UnitId) (s : State) : Outcome State Fault Refusal :=
  let b := unitBase u
  .next (if selftestUnit b = false ∨ s.ready = false ∨ s.covered b = false ∨ b ∈ s.rel.late
      ∨ s.time.count.toNat < s.testSince b + 4000000 then s
    else
      let t := s.latch pgFlt 1 (unitWord b % 2 ^ 24)
      { t with rel := { t.rel with late := t.rel.late ++ [b] } })

/-- USAGE_EPOCH (R591, R600): records older than 64 epochs are dropped, and with them instances that no record names. `ue` is an
uncorrectable word met in a unit's records, with the epochs that it covers (R605). -/
def execUsageEpoch (s0 : State) (ue : Option (UnitId × List Nat) := none) : Outcome State Fault Refusal :=
  let s := match ue with
    | some (u, l) => s0.usageUe u l
    | none => s0
  let keep := s.rel.usage.filter fun x => decide (s.epoch < x.epoch + 64)
  let live := fun (i : InstInfo) => keep.any (fun x => decide (i.inst ∈ x.insts)) || s.reqs.any fun r => decide (r.inst = i.inst)
  .next { s with rel := { s.rel with
    usage := keep, insts := s.rel.insts.filter live
    outside := s.rel.outside.filter fun x => (x.2.2.map fun b => decide (s.epoch < b + 64)).getD true } }

/-! ### Aggregation (R596, R604) -/

/-- Records of the device-event queue not released, as room for an entry is judged: with the head in force before any
write of this cycle (28 R666). -/
def State.deqUsed (s : State) : Nat :=
  let d := s.eqDepth 512
  (s.eq 512).used + match s.oldReg Key.pciDeqHead with
    | some w => (s.fld Key.pciDeqHead 15 0 + d - getBits w 15 0) % d
    | none => 0

/-- A log entry copied into the device-event queue, or counted as lost (28 R663, R664). -/
def State.copyEvent (s : State) (ws : List Nat) : State :=
  if s.bit Key.pciDeqCfg 31 = false then s
  else if s.eqDepth 512 ≤ s.deqUsed then s.inc Key.pciDeqLostCnt
  else
    let (slot, phase, s1) := s.eqSlot 512
    let rec_ : List Word := (ws ++ [0, 0, 0, if phase then 2 ^ 31 else 0]).map (BitVec.ofNat 32)
    (s1.emit (.devRec slot (s1.slotAddr Key.pciDeqBaseLo Key.pciDeqBaseHi 32 slot) rec_)).moderate 512 false

/-- One latched fault aggregated: the page's bit, the log entry and its record, the interrupt. -/
def State.aggregate (s : State) (e : Nat × Nat × Nat × Nat) : State :=
  let (p, c, detail, time) := e
  let n := s.rel.logNext
  let s1 := if s.reg (Key.fltLatch p) = 0 then s else s.setBit (Key.fltPend (p / 32)) (p % 32) true
  let ws := [c * 2 ^ 27 + p, detail, time % 2 ^ 32, time / 2 ^ 32]
  let s2 := ws.zipIdx.foldl (fun t w => t.setReg (Key.fltLog n w.2) (BitVec.ofNat 32 w.1)) s1
  (({ s2 with rel := { s2.rel with logNext := (n + 1) % 64 } } : State).copyEvent ws).irq pgFlt 2

/-- FAULT_AGGREGATE (R596): within 1 µs of a latch. -/
def execFaultAggregate (s : State) : Outcome State Fault Refusal :=
  let l := s.rel.fresh
  .next (l.foldl State.aggregate { s with rel := { s.rel with fresh := [] } })

/-! ### Injection (R597 to R599, R603) -/

/-- A unit that an injection by partition `p` may target: of the pool, or dedicated to the partition (R597). -/
def State.mayInject (s : State) (p : Nat) (u : UnitId) : Bool :=
  decide (u.index < unitCount u.type) && s.inService u && match s.holder u with
    | some q => decide (q = p)
    | none => true

/-- A DPA lies in frames of a partition. -/
def State.dpaOf (s : State) (p dpa : Nat) : Bool :=
  s.mem.used.any fun e => decide (e.start ≤ dpa / 4096) && decide (dpa / 4096 < e.start + e.len) && decide (e.use.payer = some p)

/-- An injection's target satisfies R597. -/
def State.injectionAllowed (s : State) (i : Inject) (p : Nat) : Bool :=
  if i.kind ≤ 2 then s.dpaOf p i.arg
  else if i.kind = 3 then decide (i.arg < 12)
  else if i.kind = 4 then decide (i.arg < 38)
  else if i.kind ≤ 6 then (decide (i.unit.type = 1) || decide (i.unit.type = 2)) && s.mayInject p i.unit
  else if i.kind = 7 then selftestUnit i.unit && s.mayInject p i.unit
  else if i.kind = 8 then decide (i.unit.type = 4) && decide (i.unit.sub < 32) && decide (i.arg < 1024) && s.mayInject p i.unit
  else if i.kind = 9 then true
  else decide (i.arg < 32) && s.colValid i.arg

/-- FLT_INJ_STAT: the result, the replaced flag and the type. -/
def State.injResult (s : State) (result : Nat) (replaced : Bool) (op : Nat) : State :=
  s.setReg Key.fltInjStat (BitVec.ofNat 32 (result * 2 ^ 30 + (if replaced then 2 ^ 29 else 0) + op))

/-- RESTORE of a unit (R599): one that an injection alone took out of service returns after it passes a fresh self-test. -/
def State.restoreUnit (s : State) (u : UnitId) (passes : Bool) : State :=
  if u ∈ s.rel.injected ∧ s.inService u = false then
    let s1 := s.inc Key.fltSelftestCnt
    let s2 : State := if passes then
        (({ s1 with rel := { s1.rel with injected := s1.rel.injected.filter fun x => decide (x ≠ u) } } : State).setService u true)
      else s1
    s2.injResult 2 false 0x80
  else s.injResult 3 false 0x80

/-- The unit and the argument that the registers name for an injection type. -/
def State.injectFor (s : State) (kind utype : Nat) : Inject :=
  let t := (s.reg Key.fltInjTgt).toNat
  let arg := (s.reg Key.fltInjArgHi).toNat * 2 ^ 32 + (s.reg Key.fltInjArgLo).toNat
  { kind := kind, unit := ⟨utype, t % 2 ^ 16, t / 2 ^ 16 % 256⟩, arg := if kind = 3 ∨ kind = 4 then t % 64 else arg }

/-- A write of FLT_INJ_CMD. `passes` is the outcome of the self-test of a RESTORE. -/
def State.writeInjCmd (s : State) (v : Word) (passes : Bool) : State :=
  let op := getBits v 7 0
  let i := s.injectFor op (getBits v 15 8)
  if op = 0x80 then s.restoreUnit (unitBase i.unit) passes
  else if op = 0 ∨ 0x0A < op then s
  else if s.bit Key.fltInjCtl 0 = false ∨ s.injectionAllowed i (s.fld Key.fltInjTgt 31 24) = false then s.injResult 3 false op
  else if op = 9 then s.lockstepReset
  else ({ s with rel := { s.rel with inject := some i } } : State).injResult 1 s.rel.inject.isSome op

/-- An injection row: a write of FLT_INJ_CMD with its op. -/
def State.injectRow (s : State) (m : Master) (be : BitVec 4) (v : Word) (op : Nat) : State :=
  let w := putBits v 7 0 op
  s.gated m pgFlt 0x120 be w fun t => t.writeInjCmd w false

/-- MEM_CE (R598). -/
def execMemCe (m : Master) (be : BitVec 4) (v : Word) (s : State) : Outcome State Fault Refusal := .next (s.injectRow m be v 1)
/-- MEM_UE (R598). -/
def execMemUe (m : Master) (be : BitVec 4) (v : Word) (s : State) : Outcome State Fault Refusal := .next (s.injectRow m be v 2)
/-- LINK_CRC (R598). -/
def execLinkCrc (m : Master) (be : BitVec 4) (v : Word) (s : State) : Outcome State Fault Refusal := .next (s.injectRow m be v 3)
/-- RATLINE_CRC (R598). -/
def execRatlineCrc (m : Master) (be : BitVec 4) (v : Word) (s : State) : Outcome State Fault Refusal := .next (s.injectRow m be v 4)
/-- RESIDUE_TRANS (R598). -/
def execResidueTrans (m : Master) (be : BitVec 4) (v : Word) (s : State) : Outcome State Fault Refusal := .next (s.injectRow m be v 5)
/-- RESIDUE_HARD (R598). -/
def execResidueHard (m : Master) (be : BitVec 4) (v : Word) (s : State) : Outcome State Fault Refusal := .next (s.injectRow m be v 6)
/-- SELFTEST_FAIL (R598). -/
def execSelftestFail (m : Master) (be : BitVec 4) (v : Word) (s : State) : Outcome State Fault Refusal := .next (s.injectRow m be v 7)
/-- SENTINEL_DEV (R598). -/
def execSentinelDev (m : Master) (be : BitVec 4) (v : Word) (s : State) : Outcome State Fault Refusal := .next (s.injectRow m be v 8)
/-- LOCKSTEP (R598). -/
def execLockstep (m : Master) (be : BitVec 4) (v : Word) (s : State) : Outcome State Fault Refusal := .next (s.injectRow m be v 9)
/-- E2E_CRC (R598). -/
def execE2eCrc (m : Master) (be : BitVec 4) (v : Word) (s : State) : Outcome State Fault Refusal := .next (s.injectRow m be v 10)

/-- RESTORE (R599). -/
def execRestore (m : Master) (be : BitVec 4) (v : Word) (passes : Bool) (s : State) : Outcome State Fault Refusal :=
  let w := putBits v 7 0 0x80
  .next (s.gated m pgFlt 0x120 be w fun t => t.writeInjCmd w passes)

end Sys2Proof.Machine
end

