-- ==== Sys2Proof/Machine/Electrical.lean ====
section
/-! DEFINITION. Powering down and the JTAG port (26). -/

namespace Sys2Proof.Machine

open Host

/-- POWER_DOWN (R629, R640, R641): PWR_OK deasserts; every die is held in reset at once, and no record is written. A trip
of the same tick is kept. -/
def execPowerDown (s : State) : Outcome State Fault Refusal :=
  .next (if s.pins.pwrOk = false then s
    else
      let t := s.clearAll false
      { t with
        pins := { s.pins with pwrOk := false, tripHeld := s.pins.thermtrip && decide (s.time.cycle < 4) }
        boot := { t.boot with inReset := List.range 12 } })

/-- An instruction that takes the pins (R635). -/
def takesPins (j : Jtag) : Bool := decide (j = .extest) || decide (j = .clamp) || decide (j = .highz)

/-- A JTAG instruction in force: leaving one that takes the pins resets the package with cause COMMAND (R635). -/
def State.tapTo (s : State) (j : Jtag) : State :=
  if s.pins.jtag = j then s
  else
    let t : State := { s with pins := { s.pins with jtag := j } }
    if takesPins s.pins.jtag then t.packageReset 3 else t

/-- BYPASS (R635). -/
def execBypass (s : State) : Outcome State Fault Refusal := .next (s.tapTo .bypass)

/-- IDCODE (R635): the port reads 0x14B4_85A7. -/
def execIdcode (s : State) : Outcome State Fault Refusal := .next ((s.tapTo .idcode).emit (.idcode 0x14B485A7))

/-- SAMPLE/PRELOAD (R635): the boundary cells take the pins' values, which are outside the block. -/
def execSamplePreload (s : State) : Outcome State Fault Refusal := .next (s.tapTo .samplePreload)

/-- EXTEST (R635): the boundary cells drive the pins. -/
def execExtest (s : State) : Outcome State Fault Refusal := .next (s.tapTo .extest)

/-- CLAMP (R635). -/
def execClamp (s : State) : Outcome State Fault Refusal := .next (s.tapTo .clamp)

/-- HIGHZ (R635). -/
def execHighz (s : State) : Outcome State Fault Refusal := .next (s.tapTo .highz)

/-- TAP_EXIT (R635): the TAP leaves its instruction; after a reset of the port IDCODE is in force. -/
def execTapExit (s : State) : Outcome State Fault Refusal := .next (s.tapTo .idcode)

end Sys2Proof.Machine
end

