-- ==== Sys2Proof/Machine/Partitions.lean ====
section
/-! DEFINITION. Partitions: the commands of PRT_CMD, the checks of COMMIT, teardown, keys and the scrub
backlog, and the resets that reach every partition (03 R52; 04 R84, R85; 06 R110 to R133; 22 R537;
28 R665). -/

namespace Sys2Proof.Machine

open Host

/-! ### The configuration in the registers (06 Table 6.8) -/

/-- Words of a register array as one number, word 0 lowest. -/
def State.words (s : State) (key : Nat → Nat) (n : Nat) : Nat :=
  ((List.range n).map fun k => (s.reg (key k)).toNat * 2 ^ (32 * k)).sum

/-- What a COMMIT of partition `p` would hold. -/
def State.configured (s : State) (p : Nat) : Held where
  valid := true
  isSealed := s.bit (Key.prtCfg p) 0
  yrd := (s.reg (Key.prtYrdMask p)).toNat
  luf := s.fld (Key.prtLufMask p) 7 0
  clw := s.fld (Key.prtClwMask p) 15 0
  cpg := s.words (Key.prtCpgMask p) 8
  bank := s.words (Key.prtBankMask p) 6
  slots := (s.reg (Key.prtSlots p)).toNat
  conc := (s.reg (Key.prtCnvConc p)).toNat
  bw := (s.reg (Key.prtBw p)).toNat / 256 * 256
  nearQuota := (s.reg (Key.prtNearQuota p)).toNat
  farQuota := (s.reg (Key.prtFarQuota p)).toNat

/-- Every unit that a configuration names. -/
def Held.units (h : Held) : List UnitId :=
  [utYard, utLuff, utClew, utGroup, utBank].flatMap fun t =>
    ((List.range (unitCount t)).filter fun i => (h.mask t).testBit i).map fun i => ⟨t, i, 0⟩

/-- The sealed reservations of the partitions other than `p`, and `h` among them when it is sealed. -/
def State.sealedWith (s : State) (p : Nat) (h : Held) : List Held :=
  ((allParts.filter fun q => decide (q ≠ p) && s.sealedHolder q).map fun q => (s.part q).held)
    ++ (if h.isSealed then [h] else [])

/-- A sum over reservations of byte `i` of a register. -/
def byteSum (l : List Held) (f : Held → Nat) (i : Nat) : Nat := (l.map fun h => bitsOf (f h) (8 * i + 7) (8 * i)).sum

/-- The sealed sums exceed a limit of Table 6.7: slots per Spar, concurrency per die, each bandwidth. -/
def sharesExceed (l : List Held) : Bool :=
  ((List.range 4).any fun k => decide (960 < 8 * byteSum l Held.slots k))
    || ((List.range 4).any fun d => decide (16 < byteSum l Held.conc d))
    || ([1, 2, 3].any fun i => decide (240 < byteSum l Held.bw i))

/-- MiB of a tier that can be reserved: what is in service (08 R174, Table 6.7). -/
def State.reservable (s : State) (t : Tier) : Nat := ((s.spans t).map fun e => e.2).sum / 256

/-- The first failing check of COMMIT (R114, Table 6.5); 0 when all pass. -/
def State.commitCheck (s : State) (p : Nat) : Nat :=
  let h := s.configured p
  let us := h.units
  let l := s.sealedWith p h
  if s.pstate p ≠ psConfig then 0x01
  else if us.any fun u => !s.inService u then 0x02
  else if us.any fun u => match s.holder u with
      | some q => decide (q ≠ p)
      | none => false then 0x03
  else if h.isSealed = false ∧ (h.yrd ≠ 0 ∨ h.luf ≠ 0 ∨ h.clw ≠ 0 ∨ h.bank ≠ 0 ∨ h.slots ≠ 0 ∨ h.conc ≠ 0
      ∨ h.bw ≠ 0) then 0x04
  else if h.isSealed = true ∧ s.minimumCheck h ≠ 0 then s.minimumCheck h
  else if sharesExceed l then 0x08
  else if s.reservable .near < (l.map Held.nearQuota).sum ∨ s.reservable .far < (l.map Held.farQuota).sum then 0x09
  else if s.models.any fun m => decide (m.part = p) && m.groups.any fun b => !h.cpg.testBit b.phys then 0x0A
  else if h.isSealed = false ∧ (s.setPart p { s.part p with held := {} }).poolAlive = false then 0x0B
  else 0

/-! ### Taking and giving up resources -/

/-- The rotation positions of Boom `k` that partition `p` owns given up, and one position for each 8
slots of `n` units taken, lowest free first (12 R274). -/
def State.takeBoom (s : State) (p k n : Nat) : State :=
  let own := fun (t : State) (i : Nat) => t.fld (Key.bomRot k (i / 4)) (8 * (i % 4) + 7) (8 * (i % 4))
  let put := fun (t : State) (i x : Nat) => t.setFld (Key.bomRot k (i / 4)) (8 * (i % 4) + 7) (8 * (i % 4)) x
  let s1 := ((List.range 128).filter fun i => decide (own s i = p)).foldl (fun t i => put t i 0xFF) s
  (((List.range 128).filter fun i => decide (own s1 i = 0xFF)).take n).foldl (fun t i => put t i p) s1

/-- Groups and banks that partition `p` held and does not hold under `h` are erased and zeroed, so that
another partition can hold them (R121). -/
def State.dropUnits (s : State) (p : Nat) (h : Held) : State :=
  let old := (s.part p).held
  let gs := (List.range 256).filter fun g => old.cpg.testBit g && !h.cpg.testBit g
  let bs := (List.range 192).filter fun b => old.isSealed && old.bank.testBit b && !h.bank.testBit b
  let s1 := gs.foldl (fun t g => (t.eraseGroup g).setFld (Key.cpgStat g) 15 8 0xFF) s
  (bs.foldl State.zeroBank s1)

/-- A group or a bank that partition `p` takes is erased or zeroed first when another held it last (R121). -/
def State.claimGroup (s : State) (p g : Nat) : State :=
  let x := s.group g
  let t := if x.last = 0 ∨ x.last = p + 1 then s else s.eraseGroup g
  t.setGroup g { t.group g with last := p + 1 }

/-- Partition `p` holds `h` from here on (R113), and a sealed one has its frames (07 R137): rotation positions of the Booms and
bundles, the tests of its Clews (24 R587) and the groups' CPG_STAT.partition follow; plans of others give its units up. -/
def State.hold (s : State) (p : Nat) (h0 : Held) : State :=
  let sr := s.dropUnits p h0
  let h := if h0.isSealed then
      { h0 with frames := sr.chooseFrames p h0 .near (256 * h0.nearQuota) ++ sr.chooseFrames p h0 .far (256 * h0.farQuota) }
    else h0
  let sg := ((List.range 256).filter fun g => h.cpg.testBit g).foldl (fun t g => t.claimGroup p g) sr
  let s1 := if h.isSealed then ((List.range 192).filter fun b => h.bank.testBit b).foldl (fun t b => t.claimBank p b) sg else sg
  let s2 := (s1.setPart p { s1.part p with held := h }).dropLostPlans
  let s3 := ((List.range 256).filter fun g => h.cpg.testBit g).foldl
    (fun t g => t.setFld (Key.cpgStat g) 15 8 p) s2
  let s4 := (List.range 4).foldl (fun t k => t.takeBoom p k (bitsOf h.slots (8 * k + 7) (8 * k))) s3
  let was := (List.range 16).filter fun i => (s.part p).held.isSealed && (s.part p).held.clw.testBit i
  let s5 := was.foldl State.dropTest s4
  let s6 := ((List.range 16).filter fun i => h.isSealed && h.clw.testBit i).foldl State.planTest s5
  s6.takeRotation p (bitsOf h.bw 15 8) (bitsOf h.bw 31 24)

/-- SHARE sent to the leaves after a COMMIT of a sealed partition with a label (19 R467). -/
def State.sendShare (s : State) (p : Nat) : State :=
  let l := s.fld (Key.topLabel p) 15 0
  if s.isSealed p ∧ l ≠ 0 then s.toLeaves "SHARE" (l :: s.rotOf p) else s

/-! ### Commands (R111, R112) -/

/-- A key pair is generated (R118); it counts in PRT_KEYGEN and SEC_KEYGEN_CNT (28 R665). -/
def State.keygen (s : State) (p : Nat) : State :=
  (((s.setPart p { s.part p with keyPair := true, keyOwed := false }).inc (Key.prtKeygen p))).inc Key.secKeygenCnt

/-- Every never-admitted deferred request of a partition completes with REFUSED_STOPPED 0x03 (07 R150). -/
def State.refuseDeferred (s : State) (p : Nat) : State :=
  (s.reqs.filter fun r => decide (r.part = p) && decide (r.phase = .deferred)).foldl
    (fun t r => t.finish r stRefusedStopped 0x03 none) s

/-- A live request that the partition's RESET reaches: a deferred or preempted one, and one with no
lane, completes at once; another at its next page or decode step (R111, 07 R150). -/
def State.resetReq (s : State) (r : Req) : State :=
  if r.phase = .deferred ∨ r.preempted = true ∨ r.lane = false then
    s.finish r stCancelledReset 0 (some .reset)
  else s.setReq { r with stop := some (stCancelledReset, 0), stopCause := some .reset }

/-- Every live request stops without a record, every waiting record and live descriptor of the
partition is abandoned (R111, R127; 04 R84). -/
def State.stopAll (s : State) (p : Nat) (c : RingCause) : State :=
  let s1 := (s.reqs.filter fun r => decide (r.part = p) && r.active).foldl (fun t r => t.dropReq r c) s
  let insts := s1.rel.insts.map fun i => if i.part = p then { i with gone := true } else i
  { s1 with
    reqs := s1.reqs.filter fun r => decide (r.part ≠ p)
    descs := s1.descs.filter fun d => decide (d.part ≠ p)
    rel := { s1.rel with insts := insts }
    eqs := s1.eqs.filter fun e => !(decide (e.1 / 4 = p) && decide (e.1 < 512)) }

/-- The models of a partition released, and its nodes leave the index (R111; 10 R232). -/
def State.releaseOwned (s : State) (p : Nat) : State :=
  let s1 := (s.models.filter fun m => decide (m.part = p)).foldl State.releaseModel s
  s1.removeNodes fun n => decide (n.payer = some p) || (match n.scope with
    | .pair q _ => decide (q = p)
    | _ => false)

/-- What a released partition paid for in bound slots is paid for by no partition (10 R214). -/
def State.uncharge (s : State) (p : Nat) : State :=
  let used := s.mem.used.map fun e => if e.use = .index (some p) then { e with use := .index none } else e
  { s with mem := { s.mem with used := used } }

/-- The keys of a partition begin to be overwritten; a destruction that is not confirmed goes on (R119, R131). -/
def State.destroyKeys (s : State) (p : Nat) (flr : Bool) : State :=
  let x := s.part p
  s.setPart p { x with keyPair := false, keyOwed := false, flr := flr
                       destroy := some (match x.destroy with
                         | some t => t
                         | none => s.tick) }

/-- Bursts of a partition end with it: its pages are gone. -/
def State.dropBursts (s : State) (p : Nat) : State :=
  let mine := fun (b : Burst) => decide (b.part = p)
  let frames := (s.paging.flight.filter mine).flatMap fun b => (b.moves.filter Move.live).map fun m => m.dst
  let s1 := frames.foldl State.freeScrub s
  { s1 with paging := { s1.paging with
    flight := s1.paging.flight.filter fun b => !mine b
    waiting := s1.paging.waiting.filter fun b => !mine b
    deferred := s1.paging.deferred.filter fun b => !mine b } }

/-- RELEASE begins: queues are disabled, requests stop without records, models are released, keys are
destroyed (R111, R119). -/
def State.beginRelease (s : State) (p : Nat) : State :=
  let s1 := (s.stopAll p .release).releaseOwned p
  let s2 := (List.range 8).foldl (fun t q => t.setBit (Key.prtSqCfg p q) 31 false) s1
  let s3 := (List.range 4).foldl (fun t e => t.setBit (Key.prtEqCfg p e) 31 false) s2
  let s4 := s3.dropBursts p
  (((s4.uncharge p).destroyKeys p false).setPState p psReleasing).kvpUpdate

/-- A write of PRT_CMD: one command of Table 6.3, or BAD_OP, or STATE (R111, R114, R132). -/
def State.writePrtCmd (s : State) (p : Nat) (v : Word) : State :=
  let op := getBits v 7 0
  let st := s.pstate p
  if op = 0 ∨ 5 < op then s.setLastErr p 0x0C
  else if op = 1 then
    if st = psFree ∧ s.ready = true ∧ s.bit Key.secStat 31 = true then
      ((((s.setLastErr p 0).keygen p).setPState p psConfig).xspliceUpdate p).leavesFree p
    else s.setLastErr p 0x01
  else if op = 2 then
    let c := s.commitCheck p
    if c ≠ 0 then s.setLastErr p c
    else
      let h := s.configured p
      let s1 := ((s.setLastErr p 0).hold p h).setBit (Key.prtState p) 3 h.isSealed
      ((s1.setPState p psActive).sendShare p).kvpUpdate
  else if op = 3 then
    if st = psActive then ((s.setLastErr p 0).setPState p psDraining).refuseDeferred p
    else if st = psHalted then (s.setLastErr p 0).setPState p psConfig
    else s.setLastErr p 0x01
  else if op = 4 then
    if st = psActive ∨ st = psDraining then
      let s1 := (s.setLastErr p 0).setPart p { s.part p with prior := st }
      let s2 := s1.setPState p psResetting
      (s2.reqs.filter fun r => decide (r.part = p) && r.active).foldl State.resetReq s2
    else s.setLastErr p 0x01
  else if st = psFree ∨ st = psReleasing then s.setLastErr p 0x01
  else (s.setLastErr p 0).beginRelease p

/-- The partition to whose PRT_CMD a command is a write. -/
def prtOf : Instr → Option Nat
  | .assign _ p _ | .commit _ p _ | .drain _ p _ | .reset _ p _ | .release _ p _ => some p.toNat
  | _ => none

/-- A command for a lower partition is among the commands that wait: they reach their pages in this tick, and it goes first
(R112). -/
def State.lowerPrt (s : State) (p : Nat) : Bool :=
  s.pending.any fun c => match prtOf c with
    | some q => decide (q < p)
    | none => false

/-- One write of PRT_CMD performed. -/
def State.prtNow (s : State) (m : Master) (p : Nat) (be : BitVec 4) (op : Nat) : State :=
  s.gated m (pgPrt p) 0x104 be (BitVec.ofNat 32 op) fun t => t.writePrtCmd p (BitVec.ofNat 32 op)

/-- The commands of this tick that followed those of lower partitions are performed in ascending partition number once none of
these is left (R112). -/
def State.prtLater (s : State) : State :=
  allParts.foldl (fun t p =>
    let l := (t.part p).later
    if l = [] ∨ t.lowerPrt p = true then t
    else l.foldl (fun u x => u.prtNow x.1 p x.2.1 x.2.2) (t.setPart p { t.part p with later := [] })) s

/-- A command written to PRT_CMD. -/
def State.prtCommand (s : State) (m : Master) (p : BitVec 7) (be : BitVec 4) (op : Nat) : State :=
  if s.lowerPrt p.toNat then
    s.setPart p.toNat { s.part p.toNat with later := (s.part p.toNat).later ++ [(m, be, op)] }
  else (s.prtNow m p.toNat be op).prtLater

/-- ASSIGN. -/
def execAssign (m : Master) (p : BitVec 7) (be : BitVec 4) (s : State) : Outcome State Fault Refusal :=
  .next (s.prtCommand m p be 1)

/-- COMMIT. -/
def execCommit (m : Master) (p : BitVec 7) (be : BitVec 4) (s : State) : Outcome State Fault Refusal :=
  .next (s.prtCommand m p be 2)

/-- DRAIN. -/
def execDrain (m : Master) (p : BitVec 7) (be : BitVec 4) (s : State) : Outcome State Fault Refusal :=
  .next (s.prtCommand m p be 3)

/-- RESET. -/
def execReset (m : Master) (p : BitVec 7) (be : BitVec 4) (s : State) : Outcome State Fault Refusal :=
  .next (s.prtCommand m p be 4)

/-- RELEASE. -/
def execRelease (m : Master) (p : BitVec 7) (be : BitVec 4) (s : State) : Outcome State Fault Refusal :=
  .next (s.prtCommand m p be 5)

/-- A live request of the partition remains: one whose COMPLETION is not written yet is live. -/
def State.reqsLeft (s : State) (p : Nat) : Bool := s.reqs.any fun r => decide (r.part = p)

/-- DRAIN_DONE: a draining partition in which no live request remains is in CONFIG (R111). -/
def execDrainDone (p : BitVec 7) (s : State) : Outcome State Fault Refusal :=
  let p := p.toNat
  .next (if s.pstate p = psDraining ∧ s.reqsLeft p = false then s.setPState p psConfig else s)

/-- RESET_DONE: with the last COMPLETION record written the partition returns to the state held before
RESET (R111). -/
def execResetDone (p : BitVec 7) (s : State) : Outcome State Fault Refusal :=
  let p := p.toNat
  .next (if s.pstate p = psResetting ∧ s.reqsLeft p = false then s.setPState p (s.part p).prior else s)

/-- TEARDOWN_COMPLETE: key destruction is confirmed, and nothing written under the old pair can be read any longer; banks are zeroed
and groups erased; masks, shares, quotas and PRT_CFG return to zero (R111, R119). The confirmation also completes a Function Level
Reset that waits for it: a new pair is generated, or owed while the random source fails (R119, R131; 28 R665). -/
def execTeardownComplete (p : BitVec 7) (s : State) : Outcome State Fault Refusal :=
  let p := p.toNat
  .next (if s.pstate p = psReleasing then
    let s1 := (s.garble p).hold p {}
    let s2 := s1.resetKeys (Key.prtCfg p) (Key.prtCfg p + 1)
    let s3 := s2.resetKeys (Key.prtYrdMask p) (Key.prtScrubPend p)
    let s4 := { s3 with
      fab := { s3.fab with
        walks := s3.fab.walks.filter fun w => decide (w.part ≠ p)
        flight := s3.fab.flight.filter fun m => decide (m.part ≠ p) }
      cnv := { s3.cnv with jobs := s3.cnv.jobs.filter fun j => decide (j.part ≠ p) } }
    let s5 := ((s4.setLastErr p 0).setBit (Key.prtState p) 3 false).setBit (Key.prtState p) 5 false
    (((s5.setPart p {}).setPState p psFree).entersFree p).kvpUpdate
  else if (s.part p).flr then
    let s1 := (s.garble p).setPart p { s.part p with destroy := none, flr := false, keyFailed := false }
    if s1.bit Key.secStat 31 then s1.keygen p else s1.setPart p { s1.part p with keyOwed := true }
  else s)

/-- KEY_FAIL: a key engine that has not confirmed destruction within 1 ms latches it (R131). -/
def execKeyFail (p : BitVec 7) (s : State) : Outcome State Fault Refusal :=
  let p := p.toNat
  let x := s.part p
  .next (match x.destroy with
    | some t =>
      if t + 100000 ≤ s.tick ∧ x.keyFailed = false then
        (s.setPart p { x with keyFailed := true }).latch (pgPrt p) 2 0
      else s
    | none => s)

/-- SCRUB_COMPLETE: a frame of the backlog was overwritten and becomes free, or its scrub write failed:
it is retired, and SCRUB_RETIRE latches (R120, R131). A frame of a partition with an unconfirmed key
destruction stays in the backlog. -/
def execScrubComplete (frame : Nat) (ok : Bool) (s : State) : Outcome State Fault Refusal :=
  .next (match s.inScrub frame with
    | none => s
    | some e =>
      let blocked := match e.part with
        | some p => (s.part p).keyFailed
        | none => false
      if blocked then s
      else
        let s1 := { s with mem := { s.mem.zeroFrame frame 1 with scrub := splitScrub s.mem.scrub frame } }
        if ok then
          let s2 : State := { s1 with mem := { s1.mem with fresh := s1.mem.fresh ++ [{ start := frame, len := 1 }] } }
          let s3 := match e.part with
            | some p => s2.touchHold (s2.poolOf p)
            | none => s2.touchHold .unreserved
          s3.kvpUpdate
        else
          -- which of the units that share the frame counts it is a free choice
          let us := siblings ((unitOf (4096 * frame)).getD 0)
          let s3 := (s1.retireFrame frame (us.getD (s1.choice % us.length) 0)).chosen
          (match e.part with
            | some p => s3.latch (pgPrt p) 3 0
            | none => s3).kvpUpdate)

/-! ### Function Level Resets (03 R52, 04 R84, 06 R111, R119) -/

/-- The common header of a page at its reset values but for FLT_LATCH, FLT_INFO and BLK_CTRL.enable
(03 R52). -/
def State.resetHeader (s : State) (p : Nat) : State :=
  let en := s.bit (Key.blkCtrl p) 0
  let s1 := s.resetKeys (Key.blkCtrl p) (Key.blkCtrl p + 1)
  let s2 := s1.resetKeys (Key.irqStat p) (Key.irqForce p + 1)
  let s3 := s2.resetKeys (Key.owner p) (Key.conflict p + 1)
  s3.setBit (Key.blkCtrl p) 0 en

/-- Queue and interrupt configuration of a partition at its reset values (04 R84). -/
def State.resetQueues (s : State) (p : Nat) : State :=
  let s1 := ((s.resetHeader (pgPrt p)).resetHeader (pgDbl p)).resetKeys (Key.prtSqBaseLo p 0) (Key.prtSqBaseLo p 0 + 0x100)
  let s2 := s1.resetKeys (Key.dblSq p 0) (Key.dblSq p 0 + 0x40)
  { s2 with msix := s2.msix.filter fun e => decide (e.1 / 12 ≠ p) }

/-- A Function Level Reset of VF `p` (04 R84): everything the partition runs stops without records, its
queues are at reset, its models are released. In a partition that is neither FREE nor RELEASING the keys
are destroyed, and the reset completes once that is confirmed (R119); RESETTING returns to its prior state (06 R111). -/
def State.flr (s : State) (p : Nat) : State :=
  let st := s.pstate p
  let s1 := ((s.stopAll p .flr).releaseOwned p).dropBursts p
  let s2 := s1.resetQueues p
  let s3 :=
    if st = psFree ∨ st = psReleasing then s2
    else
      let s5 := s2.destroyKeys p true
      if st = psResetting then s5.setPState p (s5.part p).prior else s5
  s3.kvpUpdate

/-- VF_FLR. -/
def execVfFlr (n : BitVec 7) (s : State) : Outcome State Fault Refusal := .next (s.flr n.toNat)

/-- What a PF Function Level Reset, a Hot Reset and a DL_Down do alike: every partition as R84 describes,
the PCI page, the PF's MSI-X entries, the PMG host ring and the BOM test walks at reset (22 R537). -/
def State.pfReset (s : State) : State :=
  let s1 := allParts.foldl State.flr s
  let s2 := (s1.resetHeader pgPci).resetKeys (Key.pciStat) (Key.pciStat + 0x100)
  let s3 := { s2 with
    msix := s2.msix.filter fun e => decide (e.1 < 1536)
    eqs := s2.eqs.filter fun e => decide (e.1 < 512)
    fab := { s2.fab with walks := s2.fab.walks.filter fun w => !w.test } }
  let s4 := s3.resetKeys Key.pmgHrBaseLo (Key.pmgHrHead + 1)
  (List.range 4).foldl (fun t k => t.resetKeys (Key.bomTestLo k) (Key.bomTestStat k + 1)) s4

/-- PF_FLR. -/
def execPfFlr (s : State) : Outcome State Fault Refusal := .next s.pfReset

/-- Configuration space at its reset values (22 R537). -/
def State.resetConfig (s : State) : State := { s with pci := {} }

/-- HOT_RESET: the PF's reset, and that of configuration space (22 R537). -/
def execHotReset (s : State) : Outcome State Fault Refusal := .next s.pfReset.resetConfig

/-- DL_DOWN: the PF's reset, and that of configuration space (22 R537). -/
def execDlDown (s : State) : Outcome State Fault Refusal := .next s.pfReset.resetConfig

/-- RNG_FAIL: the random source fails its continuous test (28 R665). -/
def execRngFail (s : State) : Outcome State Fault Refusal :=
  .next (if s.bit Key.secStat 31 then
    ((s.setBit Key.secStat 31 false).latch pgSec 0 0).inc Key.secRngFailCnt else s)

/-- The device key pair is generated where none exists since the reset (08 R161); it counts in SEC_KEYGEN_CNT
(28 R665). -/
def State.devKeygen (s : State) : State :=
  if s.boot.devPair then s
  else ({ s with boot := { s.boot with devPair := true } } : State).inc Key.secKeygenCnt

/-- RNG_OK: the random source passes; the device pair and the pairs that Function Level Resets owe are generated
(28 R665). -/
def execRngOk (s : State) : Outcome State Fault Refusal :=
  .next (let s1 := (s.setBit Key.secStat 31 true).devKeygen
    (allParts.filter fun p => (s1.part p).keyOwed).foldl State.keygen s1)

end Sys2Proof.Machine
end

