-- ==== Sys2Proof/Machine/Registers.lean ====
section
/-! DEFINITION. Register access: reads with the views that other state gives, their side effects, and the writes of
every page (03; 04 R57, R58, R670; 28 R660 to R666, R669). -/

namespace Sys2Proof.Machine

open Host

/-! ### Views -/

/-- The block of a page is in service, for the pages of units (03 Table 3.8). A page of several units is so while any of
them is (DEDUCED). -/
def State.blockInService (s : State) (p : Nat) : Bool :=
  match blockOf p with
  | some (.yrd, i) => s.inService ⟨utYard, i, 0⟩
  | some (.luf, i) => s.inService ⟨utLuff, i, 0⟩
  | some (.clw, i) => s.inService ⟨utClew, i, 0⟩
  | some (.bom, i) => s.inService ⟨utBoom, i, 0⟩
  | some (.cnv, i) => s.bit (Key.cnvStat i) 31
  | some (.nrm, i) => s.bit (Key.nrmStat i) 1
  | some (.far, i) => s.bit (Key.farStat i) 1
  | some (.pmg, _) => s.inService ⟨utMigration, 0, 0⟩
  | some (.sct, _) => (List.range 4).any fun i => s.inService ⟨utScatter, i, 0⟩
  | some (.col, _) => s.inService ⟨utCollective, 0, 0⟩
  | some (.cpg, k) => (List.range 4).any fun i => s.inService ⟨utGroup, 4 * k + i, 0⟩
  | _ => true

/-- One bit of a view. -/
def bitAt (b : Bool) (n : Nat) : Nat := if b then 2 ^ n else 0

/-- BLK_STAT (03 Table 3.8). -/
def State.blkStat (s : State) (p : Nat) : Nat :=
  let dead := s.pageDead p
  bitAt dead 4 + bitAt (s.bit (Key.blkCtrl p) 2) 3 + bitAt (s.bit (Key.blkCtrl p) 0 && !dead && s.blockInService p) 2
    + bitAt (s.bit (Key.conflict p) 31) 1 + bitAt (decide (s.reg (Key.fltLatch p) ≠ 0)) 0

/-- Pages of the page map. -/
def allPages : List Nat := (List.range 0x1E0).filter fun p => (blockOf p).isSome

/-- Pages with a fault latched (24 Table 24.5). -/
def State.faultPages (s : State) : Nat := (allPages.filter fun p => decide (s.reg (Key.fltLatch p) ≠ 0)).length

/-- ALERT_N is driven low (26 R633). -/
def State.alert (s : State) : Bool := decide (0 < s.faultPages)

/-- The start-up phase (22 Table 22.11). -/
def State.phase (s : State) : Nat :=
  if s.ready then 4 else if s.ttl.acquired then 3 else if s.top.trained.isSome then 2 else if s.boot.running then 1 else 0

/-- Macros in flight that use a unit. -/
def State.macrosOn (s : State) (u : UnitId) : List MacroSt :=
  s.fab.flight.filter fun m => !m.done && m.units.any fun x => decide (unitBase x = u)

/-- A unit's busy bit and partition field, over its in-service bit (11 R260, 13 R316, 14 R345). -/
def State.unitView (s : State) (u : UnitId) (home : Nat) : Nat :=
  match s.macrosOn u with
  | [] => home / 2 ^ 31 * 2 ^ 31 + 0xFF
  | m :: _ => home / 2 ^ 31 * 2 ^ 31 + 2 ^ 30 + m.part

/-- The programs in a Clew's store. -/
def State.programsOf (s : State) (i : Nat) : Nat :=
  match SMap.get (fun _ => []) s.fab.stores i with
  | [] => 0
  | b => min 64 ((Config.clew b).programs.filter fun x => decide (0 < x.2)).length

/-- Link slots of a Spar that sealed partitions hold: two per Yard and one per Luff or Clew (11 R236). -/
def State.linkSlots (s : State) (k : Nat) : Nat :=
  (allParts.map fun p =>
    let h := (s.part p).held
    if h.valid ∧ h.isSealed then
      2 * ((List.range 8).filter fun i => h.yrd.testBit (8 * k + i)).length + ((List.range 2).filter fun i => h.luf.testBit (2 * k + i)).length
        + ((List.range 4).filter fun i => h.clw.testBit (4 * k + i)).length
    else 0).sum

/-- The values that read-only fields take from other state; every other register is its own home. -/
def State.blockView (s : State) (b : Block) (i off w : Nat) : Nat :=
  match b with
  | .dev => if off = 0x108 then Config.otpSerial.toNat % 2 ^ 32 else if off = 0x10C then Config.otpSerial.toNat / 2 ^ 32 else w
  | .rst => if off = 0x100 then w / 2 ^ 31 * 2 ^ 31 + s.phase * 2 ^ 28 + w % 2 ^ 28 else if off = 0x118 then s.otpSvn else w
  | .flt => if off = 0x100 then s.faultPages * 65536 + s.rel.logNext else w
  | .ttl =>
    if off = 0x100 then s.time.count.toNat % 2 ^ 32 else if off = 0x104 then s.time.shadow.toNat
    else if off = 0x110 then (if s.ttl.acquired then (Config.ttlErr s.time.count.toNat).toNat else 0)
    else if 0x200 ≤ off ∧ off < 0x228 then s.ttlNext ((off - 0x200) / 4) else w
  | .adm =>
    let n := (off - 0x400) / 0x10
    if off = 0x104 then min 65535 (s.reqs.filter fun r => r.active && decide (r.phase = .deferred)).length
    else if off < 0x400 then w
    else if off % 16 = 4 then
      let mine := s.reqs.filter fun r => r.active && decide (r.part = n)
      min 65535 (mine.filter fun r => decide (r.phase = .deferred)).length * 65536 + min 65535 (mine.filter fun r => r.preempted).length
    else if off % 16 = 8 then s.chargePages n
    else if off % 16 = 12 then min 0x3FFF (s.liveCount n)
    else w
  | .sbd => if off = 0x104 then
      bitAt s.sbd.update.isSome 31 + s.sbd.sessions.length % 8 * 2 ^ 24 + w % 256 else w
  | .sec => if off = 0x100 then
      w / 2 ^ 31 * 2 ^ 31 + s.paging.domainKeys.length * 65536 + min 255 (allParts.filter fun p => (s.part p).keyPair).length else w
  | .prt => if off = 0x174 then ceilDiv (s.scrubOf (some i) none) 256 else w
  | .spr =>
    if off = 0x100 then
      (s.fab.plans.filter fun x => decide (x.spar = i)).length * 65536
        + ((List.range 48).filter fun x => s.inService ⟨utBank, 48 * i + x, 0⟩).length * 256
        + ((List.range 8).filter fun x => s.inService ⟨utYard, 8 * i + x, 0⟩).length
    else if off = 0x114 then (if s.boot.running then 32 - s.linkSlots i else 0) else w
  | .bom =>
    if off = 0x100 then w / 2 ^ 31 * 2 ^ 31 + (s.fab.walks.filter fun x => decide (x.spar = i)).length * 2 ^ 24
      + (s.fab.flight.filter fun x => decide (x.spar = i)).length
    else if off = 0x114 then s.unreservedSlots i
    else if 0x200 ≤ off ∧ off < 0x400 then s.slotsOf i ((off - 0x200) / 4) else w
  | .yrd => if off = 0x100 then s.unitView ⟨utYard, i, 0⟩ w else w
  | .luf => if off = 0x100 then s.unitView ⟨utLuff, i, 0⟩ w else w
  | .clw => if off = 0x100 then s.unitView ⟨utClew, i, 0⟩ w + bitAt s.level0 29 + s.programsOf i * 256 else w
  | .kvp =>
    let n := (off - 0x400) / 8
    if off = 0x108 then s.kvpMarks + min 65535 (s.paging.shards.filter fun h => h.held).length
    else if off = 0x10C then s.poolFree .unreserved .near else if off = 0x110 then s.poolFree .unreserved .far
    else if off < 0x400 then w else s.usedBy n (if off % 8 = 0 then .near else .far)
  | .sct => if off % 16 = 0 then (s.paging.scatter.filter fun x => decide (x.spar = (off - 0x100) / 16)).length else w
  | .rfe => if off = 0x10C then
      let any := fun (l : List PoolTier) (t : Tier) => l.any fun x => decide (x.tier = t)
      bitAt (any s.paging.forced .near) 31 + bitAt (any s.paging.forced .far) 30 + bitAt (any s.paging.reefing .near) 29
        + bitAt (any s.paging.reefing .far) 28 + s.paging.nodes.length else w
  | .pmg => if off = 0x100 then
      bitAt (decide (s.paging.deferred ≠ [])) 31 + s.paging.flight.length * 65536 + min 65535 s.paging.deferred.length else w
  | .cnv => if off = 0x118 then (s.cnv.jobs.filter fun j => decide (j.die = i)).length else w
  | .cpg =>
    let g := 4 * i + off / 0x400
    if off % 0x400 = 0x204 then
      let ps := (List.range 32).map fun x => s.panel (32 * g + x)
      bitAt (ps.any fun x => x.refreshing) 31 + bitAt (s.group g).due 30 + (ps.map fun x => x.spares.length).sum
    else w
  | .lnk =>
    if off = 0x100 then w / 2 ^ 29 * 2 ^ 29 + (if s.boot.running then s.role i * 2 ^ 26 else 0) + w % 16
    else if 0x140 ≤ off ∧ off < 0x158 then w / 65536 * 65536 + s.credit i ((off - 0x140) / 4) else w
  | .shr => if 0x400 ≤ off ∧ off % 0x40 = 0x10 then
      w / 65536 * 65536 + min 65535 (s.ringReqs ((off - 0x400) / 0x40)).length else w
  | .col => if off = 0x100 then min 65535 s.links.txMsgs.length * 65536 + ((List.range 32).filter s.colValid).length else w
  | _ => w

/-- What a register holds, as a read sees it apart from the cycle rule: reserved offsets read zero (00 R4). -/
def State.view (s : State) (p off : Nat) : Word :=
  match blockOf p, findReg p off with
  | some (b, i), some _ =>
    let w := s.reg (regKey p off)
    if off = 0xC then BitVec.ofNat 32 (s.blkStat p)
    else if off = 0x20 then s.reg (Key.fltLatch p)
    else if off < 0x100 then w
    else BitVec.ofNat 32 (s.blockView b i off w.toNat)
  | _, _ => 0

/-! ### Reads (R35, R36, R37, R41, R47, R49 to R51, R503) -/

/-- The registers as they were before any write or clear of this cycle (R41). -/
def State.atStart (s : State) : State :=
  { s with regs := s.arb.old.foldl (fun r e => SMap.set resetVal r e.1 e.2) s.regs }

/-- The word at a byte address of BAR0, for a read of this cycle. -/
def State.wordAt (s : State) (a : Nat) : Word := s.atStart.view (a / 4096) (a % 4096 / 4 * 4)

/-- The bytes that byte enables choose. -/
def maskBytes (be : BitVec 4) (w : Word) : Word :=
  let m := ((List.range 4).map fun i => if be.toNat.testBit i then 0xFF * 256 ^ i else 0).sum
  w &&& BitVec.ofNat 32 m

/-- The owner's read of FLT_LATCH clears it and FLT_INFO; a fault of this cycle is latched after the clear (R37, R49). -/
def State.clearLatch (s : State) (p : Nat) : State :=
  let s1 := ((s.noteOld (Key.fltLatch p)).noteOld (Key.fltInfo p)).setReg (Key.fltLatch p) 0
  let s2 := s1.setReg (Key.fltInfo p) 0
  let s3 := (s.arb.latched.filter fun e => decide (e.1 = p)).foldl (fun t e => t.latchOn e.1 e.2.1 e.2.2) s2
  if s3.reg (Key.fltLatch p) = 0 then s3.setBit (Key.fltPend (p / 32)) (p % 32) false else s3

/-- A read of CONFLICT clears it; one that was latched in this cycle stays (R47). -/
def State.clearConflict (s : State) (p : Nat) : State :=
  if s.oldReg (Key.conflict p) = some 0 then s else (s.noteOld (Key.conflict p)).setReg (Key.conflict p) 0

/-- A read clears the RC fields of a register: exactly the count that it returns (21 R518). -/
def State.clearCounts (s : State) (k : Nat) : State :=
  let rcs := (fieldsOf k).filter fun f => decide (f.acc = .rc)
  if rcs = [] ∨ (s.oldReg k).isSome = true then s
  else
    let t := s.noteOld k
    t.setReg k (rcs.foldl (fun w f => putBits w f.hi f.lo 0) (t.reg k))

/-- What a full read by a master that may read the page does. -/
def State.readEffect (s : State) (m : Master) (p off : Nat) : State :=
  if off = 0x1C then (if s.owner p = masterId m then s.clearLatch p else s)
  else if off = 0x2C then s.clearConflict p
  else if p = pgTtl ∧ off = 0x100 then { s with time := { s.time with shadow := BitVec.ofNat 32 (s.time.count.toNat / 2 ^ 32) } }
  else s.clearCounts (regKey p off)

/-- Four bytes from a byte offset: a read that is not aligned touches two words (R36). -/
def State.bytesAt (s : State) (m : Master) (p off : Nat) : Word :=
  let a := 4096 * p + off
  let lo := s.wordAt a
  if off % 4 = 0 then lo
  else
    let q := (a + 4) / 4096
    let hi : Word := if mayRead m q && !s.pageDead q && !s.pageCut q then s.wordAt (a + 4) else 0
    BitVec.ofNat 32 ((hi.toNat * 2 ^ 32 + lo.toNat) / 2 ^ (8 * (off % 4)))

/-- A read of a page by a master: what it returns, and the state after. -/
def State.readReg (s : State) (m : Master) (p off : Nat) (be : BitVec 4) : Word × State :=
  let a := off / 4 * 4
  if mayRead m p = false then (0, s)
  else if s.pageDead p then (maskBytes be (if a = 0xC then 0x10 else 0), s)
  else if s.pageCut p then (0, s.latch pgFlt 0 (27 + pageDie p))
  else
    if be = 0xF ∧ off = a then (s.atStart.view p a, s.readEffect m p a) else (maskBytes be (s.bytesAt m p off), s)

/-- A read whose value is returned to the master; one that follows a SYNC of its core waits behind it (05 R93). -/
def State.read (s : State) (m : Master) (p off : Nat) (be : BitVec 4) : State :=
  if s.heard m = false then s
  else if s.coreWaits m then s.waitBehind m (.read (.page (BitVec.ofNat 14 p) (BitVec.ofNat 12 off)) be)
  else
    let r := s.readReg m p off be
    r.2.emit (.reply m r.1)

/-! ### BAR2 and configuration space (04 R55, R57, R58, R670) -/

/-- A word of a table entry. -/
def MsixEntry.word (e : MsixEntry) (w : Nat) : Word :=
  if w = 0 then e.addr.setWidth 32 else if w = 1 then (e.addr >>> 32).setWidth 32 else if w = 2 then e.data
  else if e.mask then 1 else 0

/-- The vector and the word of a table offset, through the PF or through VF `n`. -/
def msixPlace (vf : Option Nat) (off : Nat) : Option (Nat × Nat) :=
  match vf with
  | none => if off < 0x8000 then some (off / 16, off / 4 % 4) else none
  | some n => if off < 0xC0 then some (12 * n + off / 16, off / 4 % 4) else none

/-- The first vector of a word of the pending-bit array at 0x8000 of the PF's BAR2, or at 0x800 of a VF's. -/
def pendPlace (vf : Option Nat) (off : Nat) : Option Nat :=
  match vf with
  | none => if 0x8000 ≤ off ∧ off < 0x8100 then some ((off - 0x8000) / 4 * 32) else none
  | some n => if 0x800 ≤ off ∧ off < 0x804 then some (12 * n) else none

/-- The master whose BAR a table is in. -/
def msixMaster (m : Master) (vf : Option Nat) : Bool :=
  match m, vf with
  | .hostPf, none => true
  | .vf n, some k => decide (n.toNat = k)
  | _, _ => false

/-- A word of BAR2: of the table, of the pending-bit array, or zero. -/
def State.bar2Word (s : State) (vf : Option Nat) (off : Nat) : Word :=
  match msixPlace vf off, pendPlace vf off with
  | some (n, w), _ => (s.msixAt n).word w
  | none, some v =>
    let n := if vf = none then 32 else 12
    BitVec.ofNat 32 (((List.range n).map fun i => bitAt (s.msixAt (v + i)).pend i).sum)
  | none, none => 0

/-- The enabled bytes of what a read of BAR2 touches. -/
def State.bar2Read (s : State) (m : Master) (vf : Option Nat) (off : Nat) (be : BitVec 4) : Word :=
  if msixMaster m vf then
    let w := (s.bar2Word vf (off / 4 * 4 + 4)).toNat * 2 ^ 32 + (s.bar2Word vf (off / 4 * 4)).toNat
    maskBytes be (BitVec.ofNat 32 (w / 2 ^ (8 * (off % 4))))
  else 0

/-- A base address register of a size 2^n: 64-bit, non-prefetchable. -/
def barWord (a : BitVec 64) (w : Nat) : Word := if w % 2 = 0 then BitVec.ofNat 32 (a.toNat % 2 ^ 32 + 4) else BitVec.ofNat 32 (a.toNat / 2 ^ 32)

/-- Half of a base address register written: the bits below its size stay 0. -/
def barSet (a : BitVec 64) (w size : Nat) (v : Word) : BitVec 64 :=
  let x := if w % 2 = 0 then a.toNat / 2 ^ 32 * 2 ^ 32 + v.toNat else v.toNat * 2 ^ 32 + a.toNat % 2 ^ 32
  BitVec.ofNat 64 (x / size * size)

/-- The capabilities of a function, as the model numbers them: SR-IOV, MSI-X, AER, FLR, DOE, IDE, ATS, PRI, PASID (04 Table 4.2). -/
def capabilityWord (pf : Bool) : Word := if pf then 0x3F else 0x0E

/-- What a part of a function's configuration space reads (04 Tables 4.2, 4.3). -/
def State.cfgWord (s : State) (pf : Bool) : CfgField → Word
  | .ids => if pf then 0x4B485A7C else 0x4B495A7C
  | .classCode => 0x120000
  | .subsystem => if pf then 0x4B485A7C else 0x4B495A7C
  | .bar w => if pf then barWord (if w.toNat < 2 then s.pci.bar0 else s.pci.bar2) w.toNat else 0
  | .vfBar w => if pf then barWord (if w.toNat < 2 then s.pci.vfBar0 else s.pci.vfBar2) w.toNat else 0
  | .sriov => if pf then 0x00010180 else 0
  | .capabilities => capabilityWord pf
  | .maxPayload => BitVec.ofNat 32 s.pci.payload
  | .maxReadRequest => BitVec.ofNat 32 s.pci.readRequest
  | .ide => if pf ∧ s.pci.ide = true then 1 else 0

/-- A write of configuration space: the base address registers by their sizes (04 Table 4.3), the payload sizes and read
requests that Tables 4.1 and 4.2 allow, and Link IDE. -/
def State.cfgWrite (s : State) (f : CfgField) (v : Word) : State :=
  let c := s.pci
  match f with
  | .bar w => { s with pci := if w.toNat < 2 then { c with bar0 := barSet c.bar0 w.toNat 0x4000000 v }
      else { c with bar2 := barSet c.bar2 w.toNat 0x10000 v } }
  | .vfBar w => { s with pci := if w.toNat < 2 then { c with vfBar0 := barSet c.vfBar0 w.toNat 0x2000 v }
      else { c with vfBar2 := barSet c.vfBar2 w.toNat 0x1000 v } }
  | .maxPayload => if v.toNat ∈ [128, 256, 512] then { s with pci := { c with payload := v.toNat } } else s
  | .maxReadRequest => if v.toNat ∈ [128, 256, 512, 1024, 2048, 4096] then { s with pci := { c with readRequest := v.toNat } } else s
  | .ide => { s with pci := { c with ide := v.toNat.testBit 0 } }
  | .ids | .classCode | .subsystem | .sriov | .capabilities => s

/-- A master that reaches a function's configuration space: the host, as the PF or as the function itself. -/
def cfgMaster (m : Master) (fn : Nat) : Bool :=
  match m with
  | .hostPf => true
  | .vf n => decide (fn = n.toNat + 1)
  | _ => false

/-! ### The width of an access (R36) -/

/-- A place on a 64-bit boundary, and the word after a place. -/
def addrAligned : RegAddr → Bool
  | .page _ off => decide (off.toNat % 8 = 0)
  | .msixPf off => decide (off.toNat % 8 = 0)
  | .msixVf _ off => decide (off.toNat % 8 = 0)
  | .config _ _ => false
def addrNext : RegAddr → RegAddr
  | .page p off => .page p (off + 4)
  | .msixPf off => .msixPf (off + 4)
  | .msixVf n off => .msixVf n (off + 4)
  | .config fn f => .config fn f

/-- A 32-bit read of any place. -/
def State.readAt (s : State) (m : Master) (a : RegAddr) (be : BitVec 4) : State :=
  match a with
  | .page p off => s.read m p.toNat off.toNat be
  | .msixPf off => s.emit (.reply m (s.bar2Read m none off.toNat be))
  | .msixVf n off => s.emit (.reply m (s.bar2Read m (some n.toNat) off.toNat be))
  | .config fn f => s.emit (.reply m (if cfgMaster m fn.toNat then maskBytes be (s.cfgWord (decide (fn = 0)) f) else 0))

/-- What a read without side effects returns of a word that it touches. -/
def State.peekAt (s : State) (m : Master) (a : RegAddr) (be : BitVec 4) : State :=
  match a with
  | .page p off =>
    if s.heard m = false then s
    else if s.coreWaits m then s.waitBehind m (.peek a be)
    else
    let r := s.readReg m p.toNat off.toNat be
    (if s.pageCut p.toNat then r.2 else s).emit (.reply m r.1)
  | _ => s.readAt m a be

/-- RC_READ: a read of a register, of BAR2 or of configuration space. An aligned 64-bit read is two reads, lower address
first; any other one has no side effects (R36). -/
def execRcRead (m : Master) (a : RegAddr) (be : BitVec 4) (hi : Option (BitVec 4)) (s : State) : Outcome State Fault Refusal :=
  .next (match hi with
    | none => s.readAt m a be
    | some be2 =>
      if addrAligned a = true ∧ be = 0xF ∧ be2 = 0xF then (s.readAt m a be).readAt m (addrNext a) be2
      else (s.peekAt m a be).peekAt m (addrNext a) be2)

/-- FLT_LATCH_READ (R37). -/
def execFltLatchRead (m : Master) (p : BitVec 14) (be : BitVec 4) (s : State) : Outcome State Fault Refusal :=
  .next (s.read m p.toNat 0x1C be)

/-- CONFLICT_READ (R47). -/
def execConflictRead (m : Master) (p : BitVec 14) (be : BitVec 4) (s : State) : Outcome State Fault Refusal :=
  .next (s.read m p.toNat 0x2C be)

/-- TTL_NOW_READ (20 R503). -/
def execTtlNowRead (m : Master) (be : BitVec 4) (s : State) : Outcome State Fault Refusal := .next (s.read m pgTtl 0x100 be)

/-! ### Writes of the common header (R38, R40, R54, R669) -/

/-- A register after a soft reset of its page: its fields at their reset values, but read-only ones, BLK_CTRL.lock, OWNER,
the fault latch, DEV_CONDUCT and LNK_SHEET.next; TTL_CFG.candidate resets to its place in the boot configuration. -/
def softWord (k : Nat) (w : Word) : Word :=
  let off := k % 1024 * 4
  if off = 0x1C ∨ off = 0x24 ∨ off = 0x28 ∨ k = Key.devConduct ∨ k = Key.lnkSheet then w
  else if off = 8 then w &&& 4
  else (fieldsOf k).foldl (fun x f => if f.acc = .ro then x else putBits x f.hi f.lo f.reset) w

/-- A soft reset of a page. -/
def State.pageSoftReset (s : State) (p : Nat) : State :=
  let t := { s with regs := s.regs.filterMap fun e =>
    if e.1 / 1024 = p then (let w := softWord e.1 e.2; if w = resetVal e.1 then none else some (e.1, w)) else some e }
  if p = pgClk then t.levels else if p = pgKvp then t.kvpUpdate else if p = pgTtl then t.setBit Key.ttlCfg 31 t.bootCandidate else t

/-- A write of BLK_CTRL: a soft reset is performed when its bit stands, and enable was clear or is cleared by the same write
(R669). -/
def State.writeCtrl (s : State) (m : Master) (p : Nat) (v : Word) : State :=
  let t := s.store m p 8 v
  let soft := t.bit (Key.blkCtrl p) 1 && !(s.bit (Key.blkCtrl p) 0 && t.bit (Key.blkCtrl p) 0)
  let t1 := t.setBit (Key.blkCtrl p) 1 false
  if soft then t1.pageSoftReset p else t1

/-- A write of the common header. -/
def State.writeHeader (s : State) (m : Master) (p off : Nat) (v : Word) : State :=
  if off = 8 then s.writeCtrl m p v
  else if off = 0x10 ∨ off = 0x14 then s.store m p off v
  else if off = 0x18 then s.setIrq p v
  else if off = 0x28 then (if idMayRead (getBits v 7 0) p then s.store m p off v else s)
  else s

/-! ### The device-event queue (28 R663, R666) -/

/-- A write of PCI_DEQ_CFG, under the rules of an EQ (04 R80, R87). -/
def State.writeDeqCfg (s : State) (m : Master) (v : Word) : State :=
  let k := Key.pciDeqCfg
  let was := s.bit k 31
  let s1 := s.storeFields m pgPci 0x118 v (cfgField was)
  if was = false ∧ s1.bit k 31 = true then
    if s1.fld k 15 12 < 5 then (s1.setBit k 31 false).latch pgPci 0 0
    else ((s1.setFld Key.pciDeqTail 15 0 0).setFld Key.pciDeqHead 15 0 0).setEq 512 {}
  else s1

/-- A write of PCI_DEQ_HEAD releases records, as for DBL_EQe. -/
def State.writeDeqHead (s : State) (m : Master) (v : Word) : State :=
  let x := getBits v 15 0
  let d := s.eqDepth 512
  let head := s.fld Key.pciDeqHead 15 0
  let st := s.eq 512
  if s.bit Key.pciDeqCfg 31 = false ∨ d ≤ x ∨ st.used < (x + d - head) % d then s
  else
    let s1 := s.store m pgPci 0x120 v
    s1.setEq 512 { st with used := st.used - (s1.fld Key.pciDeqHead 15 0 + d - head) % d }

/-! ### Writes of the block registers -/

/-- An XFER of a group is in flight (18 R460). -/
def State.colBusy (s : State) (g : Nat) : Bool :=
  s.fab.flight.any fun x => decide (x.op = 6) && !x.done && decide (s.groupFor x.part (Mac.lgroup x.word) = some g)

/-- A write of a COL group entry: only while it is not valid, but for its valid bit (18 R460). -/
def State.writeCol (s : State) (m : Master) (off : Nat) (v : Word) : State :=
  let g := (off - 0x400) / 0x50
  if s.colValid g = false then s.store m pgCol off v
  else if (off - 0x400) % 0x50 = 0 ∧ (getBits v 0 0 = 1 ∨ s.colBusy g = false) then
    s.storeFields m pgCol off v fun f => decide (f.lo = 0)
  else s

/-- A write of KVP_WATER: ignored whole when it would leave crit ≥ low or low > 500 (09 Table 9.5). -/
def State.writeWater (s : State) (m : Master) (v : Word) : State :=
  let t := s.store m pgKvp 0x100 v
  if t.kvpCrit < t.kvpLow ∧ t.kvpLow ≤ 500 then t.kvpUpdate else s

/-- A write of a PRT page. -/
def State.writePrt (s : State) (m : Master) (p off : Nat) (v : Word) : State :=
  if off = 0x104 then s.writePrtCmd p v
  else if off < 0x200 then (if s.pstate p = psConfig then s.store m (pgPrt p) off v else s)
  else if off < 0x280 then
    let q := (off - 0x200) / 16
    if off % 16 = 8 then s.writeSqCfg m p q v else if s.bit (Key.prtSqCfg p q) 31 then s else s.store m (pgPrt p) off v
  else
    let e := (off - 0x280) / 16
    if 3 < e then s
    else if off % 16 = 8 then s.writeEqCfg m p e v else if s.bit (Key.prtEqCfg p e) 31 then s else s.store m (pgPrt p) off v

/-- A write of a block register that passed its gate. -/
def State.writeBlock (s : State) (m : Master) (b : Block) (i p off : Nat) (v : Word) : State :=
  match b with
  | .dev => if off = 0x100 then s.writeConduct v else s
  | .clk => if off = 0x108 then s.writeRlThrot m v else s.store m p off v
  | .rst => if off = 0x104 then s.writeRstCmd v else s
  | .flt => if off = 0x120 then (if getBits v 7 0 = 0x80 then s.chosen.writeInjCmd v (decide (s.choice % 2 = 0)) else s.writeInjCmd v false)
      else s.store m p off v
  | .ttl => if 0x140 ≤ off ∧ off < 0x180 then s.writeSwev m off v else s.store m p off v
  | .pci => if off = 0x118 then s.writeDeqCfg m v else if off = 0x120 then s.writeDeqHead m v
      else if s.bit Key.pciDeqCfg 31 then s else s.store m p off v
  | .prt => s.writePrt m i off v
  | .dbl => if off < 0x120 then s.writeDblSq m i ((off - 0x100) / 4) v
      else if off < 0x130 then s.writeDblEq m i ((off - 0x120) / 4) v else s
  | .bom => if off = 0x188 then s.writeBomTest i v else s.store m p off v
  | .yrd => if off = 0x104 then s.writeRetire m p ⟨utYard, i, 0⟩ v else s
  | .luf => if off = 0x104 then s.writeRetire m p ⟨utLuff, i, 0⟩ v else s
  | .clw => if off = 0x104 then s.writeRetire m p ⟨utClew, i, 0⟩ v else s
  | .kvp => if off = 0x100 then s.writeWater m v else s.store m p off v
  | .rfe => if off = 0x130 then s.writeBindCmd v
      else if 0x400 ≤ off then
        (let k := Key.rfeBindCtl ((off - 0x400) / 0x20)
         if s.bit k 31 ∨ s.bit k 30 then s else s.store m p off v)
      else s.store m p off v
  | .pmg => if off = 0x118 then s.writePmgHrCfg m v else if off = 0x11C then s.writePmgHrTail m v
      else if s.bit Key.pmgHrCfg 31 then s else s.store m p off v
  | .cpg => if off % 0x400 = 0x224 then s.writeUpkCmd (4 * i + off / 0x400) v else s.store m p off v
  | .lnk => if off = 0x104 then s.writeLnkCtl m i v else if off = 0x180 then (if i = 0 then s.writeLnkSheet m v else s)
      else s.store m p off v
  | .top => if off = 0x100 then s.writeTopCoord m v else if off = 0x104 then s.writeRigCmd v else s.store m p off v
  | .jry => if off = 0x104 then s.writeJryCmd v else s.store m p off v
  | .shr =>
    let k := (off - 0x400) / 0x40
    if off < 0x400 then s.store m p off v
    else if off % 0x40 = 0x14 then s.writeRingCmd k v
    else if s.ringState k = rgIdle then s.store m p off v else s
  | .col => if 0x400 ≤ off then s.writeCol m off v else s
  | .pwr | .thm | .adm | .sbd => s.store m p off v
  | .mst | .sec | .spr | .sct | .nrm | .far | .cnv => s

/-- A write that passed its gate: reserved offsets and read-only registers take none (00 R4, R5). -/
def State.writeReg (s : State) (m : Master) (p off : Nat) (v : Word) : State :=
  match blockOf p, findReg p off with
  | some (b, i), some _ => if off < 0x100 then s.writeHeader m p off v else s.writeBlock m b i p off v
  | _, _ => s

/-- A write of a page by a master. -/
def State.writePage (s : State) (m : Master) (p off : Nat) (be : BitVec 4) (v : Word) : State :=
  s.gated m p off be v fun t => t.writeReg m p off v

/-! ### MSI-X tables (04 R57, R58, R670) -/

/-- A word of a table entry set. -/
def MsixEntry.setWord (e : MsixEntry) (w : Nat) (v : Word) : MsixEntry :=
  if w = 0 then { e with addr := BitVec.ofNat 64 (e.addr.toNat / 2 ^ 32 * 2 ^ 32 + v.toNat) }
  else if w = 1 then { e with addr := BitVec.ofNat 64 (v.toNat * 2 ^ 32 + e.addr.toNat % 2 ^ 32) }
  else if w = 2 then { e with data := v }
  else { e with mask := decide (getBits v 0 0 = 1) }

/-- A word of entry `n` written, with the arbitration between the two views. An entry whose mask is cleared sends what
was pending. -/
def State.writeMsix (s : State) (m : Master) (n w : Nat) (v : Word) : State :=
  let e := s.msixAt n
  let f : Field := if w = 3 then { hi := 0, lo := 0, acc := .rw } else { hi := 31, lo := 0, acc := .rw }
  let a := mergeField (2 ^ 20 + 4 * n + w) (masterId m) s.arb.num false v { word := e.word w, log := s.arb.log } f
  let e1 := e.setWord w a.word
  let s1 : State := ({ s with arb := { s.arb with log := a.log } } : State).setMsix n e1
  let s2 := match a.first with
    | some (x, _) => s1.resolution (pgDbl (n / 12)) (0x800 + 16 * (n % 12) + 4 * w) (masterId m) x false a.mask
    | none => s1
  if e1.pend ∧ e1.mask = false then (s2.setMsix n { e1 with pend := false }).emit (.msix n e1.addr e1.data) else s2

/-- A write of an MSI-X table through one of its views. -/
def State.writeTable (s : State) (m : Master) (vf : Option Nat) (off : Nat) (be : BitVec 4) (v : Word) : State :=
  if msixMaster m vf = false then s.deny
  else match msixPlace vf off with
    | none => s
    | some (n, w) => if be ≠ 0xF ∨ off % 4 ≠ 0 then s.deny else s.writeMsix m n w v

/-- A 32-bit write of any place. -/
def State.writeAt (s : State) (m : Master) (a : RegAddr) (be : BitVec 4) (v : Word) : State :=
  match a with
  | .page p off => s.writePage m p.toNat off.toNat be v
  | .msixPf off => s.writeTable m none off.toNat be v
  | .msixVf n off => s.writeTable m (some n.toNat) off.toNat be v
  | .config fn f => if cfgMaster m fn.toNat = true ∧ fn = 0 ∧ be = 0xF then s.cfgWrite f v else s

/-- REGISTER_WRITE: a write of any register, of an MSI-X table or of configuration space. An aligned 64-bit write is two
writes, lower address first; any other one is partial and counts once (R36). -/
def execRegisterWrite (m : Master) (a : RegAddr) (be : BitVec 4) (v : Word) (s : State) (hi : Option (BitVec 4 × Word) := none) :
    Outcome State Fault Refusal :=
  .next (match hi with
    | none => s.writeAt m a be v
    | some (be2, v2) =>
      if addrAligned a = true ∧ be = 0xF ∧ be2 = 0xF then (s.writeAt m a be v).writeAt m (addrNext a) be2 v2 else s.writeAt m a 0 v)

/-! ### The rows of single registers -/

/-- OWNER_WRITE (R38). -/
def execOwnerWrite (m : Master) (p : BitVec 14) (be : BitVec 4) (v : Word) (s : State) : Outcome State Fault Refusal :=
  .next (s.writePage m p.toNat 0x28 be v)

/-- LOCK (R40): a write of BLK_CTRL with lock set. -/
def execLock (m : Master) (p : BitVec 14) (be : BitVec 4) (v : Word) (s : State) : Outcome State Fault Refusal :=
  .next (s.writePage m p.toNat 8 be (v ||| 4))

/-- SOFT_RESET (R669): a write of BLK_CTRL with soft_reset set. -/
def execSoftReset (m : Master) (p : BitVec 14) (be : BitVec 4) (v : Word) (s : State) : Outcome State Fault Refusal :=
  .next (s.writePage m p.toNat 8 be (v ||| 2))

/-- IRQ_FORCE (R54). -/
def execIrqForce (m : Master) (p : BitVec 14) (be : BitVec 4) (v : Word) (s : State) : Outcome State Fault Refusal :=
  .next (s.writePage m p.toNat 0x18 be v)

/-- IRQ_STAT_CLEAR (R54). -/
def execIrqStatClear (m : Master) (p : BitVec 14) (be : BitVec 4) (v : Word) (s : State) : Outcome State Fault Refusal :=
  .next (s.writePage m p.toNat 0x10 be v)

/-- DEQ_HEAD (28 R663, R666). -/
def execDeqHead (m : Master) (be : BitVec 4) (v : Word) (s : State) : Outcome State Fault Refusal :=
  .next (s.writePage m pgPci 0x120 be v)

/-- DEQ_ENABLE (28 R663): a write of PCI_DEQ_CFG with enable set. -/
def execDeqEnable (m : Master) (be : BitVec 4) (v : Word) (s : State) : Outcome State Fault Refusal :=
  .next (s.writePage m pgPci 0x118 be (v ||| 0x80000000))

end Sys2Proof.Machine
end

