-- ==== Sys2Proof/Machine/Agents.lean ====
section
/-! DEFINITION. What agents do as time passes, and what follows a SYNC (05 R88 to R95, R103). -/

namespace Sys2Proof.Machine

open Host

/-- What follows a SYNC starts, up to the next SYNC (R93). -/
def State.startBehind (s : State) (a : Agent) : List AgentItem → State
  | [] => s
  | .fence :: rest => s.waitSync a rest
  | .mem o :: rest => (s.beginOp a o).startBehind a rest
  | .write p be v :: rest =>
    (match a with
      | .core c => s.writeAt (.masthead c) p be v
      | .boom _ => s).startBehind a rest
  | .read p be :: rest =>
    (match a with
      | .core c => s.readAt (.masthead c) p be
      | .boom _ => s).startBehind a rest
  | .peek p be :: rest =>
    (match a with
      | .core c => s.peekAt (.masthead c) p be
      | .boom _ => s).startBehind a rest

/-- SYNC_COMPLETE (R93): with every access before it performed, the SYNC completes. The macros that it held back go on (R94). -/
def execSyncComplete (a : Agent) (s : State) : Outcome State Fault Refusal :=
  let x := s.agent a
  .next (if x.sync = true ∧ s.syncDone a = true then
      let t := (s.setAgent a { x with sync := false, syncAfter := 0, behind := [] }).startBehind a x.behind
      match a with
      | .core _ => t
      | .boom k => t.advanceAll k.toNat
    else s)

/-- Macros whose accesses have not begun: issued to be performed later (R94). -/
def State.lateMacros (s : State) : List MacroSt := s.fab.flight.filter fun x => x.late

/-- A macro's accesses begin. -/
def State.wakeMacro (s : State) (x : MacroSt) : State :=
  let y := { x with late := false }
  (s.setFlight y).advance y

/-- What passes of what agents and Booms have begun in one cycle: any of it, in any order that the rules allow, at the machine's
choice (R90, R94, R103). `fuel` is how much there is. -/
def State.drain : Nat → State → State
  | 0, s => s
  | fuel + 1, s =>
    let ops := s.openOps
    let macs := s.lateMacros
    if ops = [] ∧ macs = [] then s
    else
      let c := s.choice % (ops.length + macs.length + 1)
      match ops[c]?, macs[c - ops.length]? with
      | some o, _ => State.drain fuel (s.chosen.performAt o.1 o.2)
      | none, some x => State.drain fuel (s.chosen.wakeMacro x)
      | none, none => s.chosen

/-- Accesses and macros that wait to be performed. -/
def State.begun (s : State) : Nat :=
  (allAgents.map fun a => (s.agent a).open_.length).sum + s.lateMacros.length

end Sys2Proof.Machine
end

