-- ==== Sys2Proof/Machine/Sideband.lean ====
section
/-! DEFINITION. The management sideband: MCTP control, PLDM, firmware update, the vendor message set and SPDM (25).

A request is performed as it arrives; those of one cycle of CK_MGT are outstanding together, and the ninth finds no place
(R609, DESIGN CHOICE). Numbers of the DMTF standards that the spec does not repeat are PRESUMED. -/

namespace Sys2Proof.Machine

open Host

/-! ### Requests and responses -/

/-- A response. -/
def State.answer (s : State) (code : Nat) (payload : List Byte) : State := s.emit (.sideband code payload)

/-- A message received: nothing is answered while PWR_OK is low; commands that need the Masthead firmware return NOT_READY until it
runs (R621). -/
def State.received (s : State) (early : Bool) (f : State → State) : State :=
  if s.pins.pwrOk = false then s
  else
    let t := s.inc Key.sbdRxCnt
    if early || s.boot.running then f t else t.answer 4 []

/-- A request received: one that finds eight outstanding is counted, and answered NOT_READY where `told`, else dropped (R609). -/
def State.request (s : State) (told early : Bool) (f : State → State) : State :=
  if s.pins.pwrOk = false then s
  else if 8 ≤ s.sbd.held then
    let t := (s.inc Key.sbdRxCnt).inc Key.sbdDropCnt
    if told then t.answer 4 [] else t
  else ({ s with sbd := { s.sbd with held := s.sbd.held + 1 } } : State).received early f

/-! ### MCTP control (R608) -/

/-- SET_ENDPOINT_ID: set or force an endpoint ID. -/
def execSetEndpointId (op eid : Byte) (s : State) : Outcome State Fault Refusal :=
  .next (s.request false true fun t =>
    if op.toNat ≤ 1 ∧ 8 ≤ eid.toNat ∧ eid.toNat ≤ 0xFE then (t.setFld Key.sbdStat 7 0 eid.toNat).answer 0 [0, eid, 0]
    else t.answer 2 [])

/-- GET_ENDPOINT_ID. -/
def execGetEndpointId (s : State) : Outcome State Fault Refusal :=
  .next (s.request false true fun t => t.answer 0 [BitVec.ofNat 8 (t.fld Key.sbdStat 7 0), 0, 0])

/-- The message types supported. -/
def mctpTypes : List Nat := [0x00, 0x01, 0x05, 0x06, 0x7E]

/-- GET_MCTP_VERSION_SUPPORT. -/
def execGetMctpVersionSupport (type : Byte) (s : State) : Outcome State Fault Refusal :=
  .next (s.request false true fun t =>
    if type.toNat = 0xFF ∨ type.toNat ∈ mctpTypes then t.answer 0 (Config.mctpVersions type.toNat) else t.answer 0x80 [])

/-- GET_MESSAGE_TYPE_SUPPORT. -/
def execGetMessageTypeSupport (s : State) : Outcome State Fault Refusal :=
  .next (s.request false true fun t => t.answer 0 (BitVec.ofNat 8 mctpTypes.length :: mctpTypes.map (BitVec.ofNat 8)))

/-! ### PLDM base and monitoring (R612) -/

/-- GET_TID. -/
def execGetTid (s : State) : Outcome State Fault Refusal := .next (s.request true true fun t => t.answer 0 [Config.pldmTid])

/-- The commands of a PLDM type that are supported. -/
def pldmCommands (type : Nat) : List Nat :=
  if type = 0 then [2, 3, 4, 5] else if type = 2 then [0x11, 0x50, 0x51]
  else if type = 5 then [0x10, 0x13, 0x14, 0x15, 0x16, 0x17, 0x18, 0x1A] else []

/-- GET_PLDM_VERSION. -/
def execGetPldmVersion (type : Byte) (s : State) : Outcome State Fault Refusal :=
  .next (s.request true true fun t =>
    if pldmCommands type.toNat = [] then t.answer 0x83 [] else t.answer 0 (Config.pldmVersion type.toNat))

/-- GET_PLDM_TYPES: types 0, 2 and 5. -/
def execGetPldmTypes (s : State) : Outcome State Fault Refusal := .next (s.request true true fun t => t.answer 0 (leBytes 0x25 8))

/-- GET_PLDM_COMMANDS. -/
def execGetPldmCommands (type : Byte) (s : State) : Outcome State Fault Refusal :=
  .next (s.request true true fun t =>
    if pldmCommands type.toNat = [] then t.answer 0x83 []
    else t.answer 0 (leBytes ((pldmCommands type.toNat).map fun c => 2 ^ c).sum 32))

/-- The sensors of Table 25.5. -/
def sensors : List Nat :=
  ((List.range 12).map fun i => 1 + i) ++ ((List.range 8).map fun i => 0x10 + i) ++ ((List.range 16).map fun i => 0x20 + i)
    ++ [0x40, 0x41, 0x42] ++ ((List.range 12).map fun i => 0x50 + i) ++ [0x60]

/-- A die out of service. -/
def State.dieOut (s : State) (d : Nat) : Bool := decide (d ∈ s.boot.inReset) || decide (d ∈ s.clk.cut)

/-- The latest reading of a sensor, and whether it is available. -/
def State.sensor (s : State) (x : Nat) : Nat × Bool :=
  if x < 0x10 then (s.fld (Key.thmDie (x - 1)) 31 16, !s.dieOut (x - 1) && decide (x - 1 ∉ s.power.failed))
  else if x < 0x18 then (s.fld (Key.nrmStat (x - 0x10)) 31 16, s.bit (Key.nrmStat (x - 0x10)) 1 && decide (x ∉ s.power.failed))
  else if x < 0x30 then (s.fld (Key.farStat (x - 0x20)) 31 16, s.bit (Key.farStat (x - 0x20)) 1 && decide (x ∉ s.power.failed))
  else if x = 0x40 then (s.fld Key.pwrStat 15 0, true)
  else if x = 0x41 then (s.fld Key.pwrCap 10 0, true)
  else if x = 0x42 then (s.fld Key.pwrStat 31 29, true)
  else if x < 0x60 then (s.fld (Key.pwrRailStat (x - 0x50)) 31 16, !s.dieOut (x - 0x50))
  else (s.fld Key.ttlStat 31 29, true)

/-- GET_SENSOR_READING: the operational state (0 enabled, 2 unavailable) and the reading. -/
def execGetSensorReading (sensor : BitVec 16) (s : State) : Outcome State Fault Refusal :=
  .next (s.request true false fun t =>
    if sensor.toNat ∈ sensors then
      let r := t.sensor sensor.toNat
      t.answer 0 (BitVec.ofNat 8 (if r.2 then 0 else 2) :: leBytes r.1 4)
    else t.answer 0x80 [])

/-- GET_PDR_REPOSITORY_INFO: the repository is available, and holds one record per sensor. -/
def execGetPdrRepositoryInfo (s : State) : Outcome State Fault Refusal :=
  .next (s.request true false fun t => t.answer 0 (0 :: leBytes sensors.length 4))

/-- The warning and fatal limits of a sensor, upper or for rails lower; all ones where Table 25.5 gives none. -/
def sensorLimits (x : Nat) : Nat × Nat :=
  if x < 0x10 then (if 5 ≤ x ∧ x ≤ 8 then (340, 400) else (400, 460))
  else if x < 0x30 then (380, 420)
  else if x = 0x40 then (1150, 1400)
  else if x = 0x42 then (4, 0xFFFFFFFF)
  else if 0x50 ≤ x ∧ x < 0x5C then (railWarn (x - 0x50) / 2, railReset (x - 0x50) / 2)
  else (0xFFFFFFFF, 0xFFFFFFFF)

/-- GET_PDR: record n is of the n-th sensor; record 0 names the first. -/
def execGetPdr (record : Word) (s : State) : Outcome State Fault Refusal :=
  .next (s.request true false fun t =>
    match sensors[record.toNat - 1]? with
    | some x => t.answer 0 (leBytes x 2 ++ leBytes (sensorLimits x).1 4 ++ leBytes (sensorLimits x).2 4)
    | none => t.answer 0x82 [])

/-! ### Firmware update (R613, R614, R617, R620) -/

/-- The update's record set. -/
def State.setUpdate (s : State) (u : Option Update) : State := { s with sbd := { s.sbd with update := u } }

/-- A message of the update that the K48 sends. -/
def State.firmware (s : State) (name : String) (args : List Nat) : State := s.emit (.firmware name args)

/-- REQUEST_UPDATE: the target is the bank not booted, or bank A in BOOT_FAIL. -/
def execRequestUpdate (s : State) : Outcome State Fault Refusal :=
  .next (s.request true true fun t =>
    if t.sbd.update.isSome then t.answer 0x81 []
    else (t.setUpdate (some { bank := if t.boot.dead then 0 else 1 - t.fld Key.rstStat 27 27 })).answer 0 [])

/-- PASS_COMPONENT_TABLE: the one component is firmware, identifier 1. -/
def execPassComponentTable (classification identifier : BitVec 16) (_stamp : Word) (s : State) : Outcome State Fault Refusal :=
  .next (s.request true true fun t =>
    match t.sbd.update with
    | none => t.answer 0x80 []
    | some u =>
      if 1 < u.phase then t.answer 0x84 []
      else if classification.toNat = 0x000A ∧ identifier.toNat = 1 then (t.setUpdate (some { u with phase := 1 })).answer 0 [0, 0]
      else t.answer 0 [1, 6])

/-- The bytes that the next chunk holds. -/
def Update.want (u : Update) : Nat := min 1024 (u.size - u.got)

/-- The next chunk is asked for. -/
def State.askChunk (s : State) (u : Update) : State := (s.setUpdate (some u)).firmware "RequestFirmwareData" [u.got, u.want]

/-- A failure of the update: the bank stays invalid, and another UpdateComponent may follow. -/
def State.updateFails (s : State) (u : Update) (name : String) : State :=
  ((s.flashErase (flashBank u.bank) 4).setUpdate (some { u with phase := 1, size := 0, got := 0 })).firmware name [1]

/-- UPDATE_COMPONENT: an image of at most 16 MiB is accepted and the target bank erased. -/
def execUpdateComponent (size : Nat) (eraseOk : Bool) (s : State) : Outcome State Fault Refusal :=
  .next (s.request true true fun t =>
    match t.sbd.update with
    | none => t.answer 0x80 []
    | some u =>
      if u.phase ≠ 1 then t.answer 0x84 []
      else if size = 0 ∨ 0x1000000 < size then t.answer 0 [1, 6]
      else
        let t1 := (t.answer 0 [0, 0]).flashErase (flashBank u.bank) 0x1000000
        let u1 : Update := { u with size := size, got := 0, phase := 2 }
        if eraseOk then t1.askChunk u1 else (t1.latch pgSbd 3 0).updateFails u1 "TransferComplete")

/-- The image is complete: the bank is checked under R541 steps 1 to 4. -/
def State.verifyBank (s : State) (u : Update) : State :=
  let t := s.firmware "TransferComplete" [0]
  if t.bankSigned u.bank then ((t.setUpdate (some { u with phase := 3 })).firmware "VerifyComplete" [0]).firmware "ApplyComplete" [0]
  else t.updateFails u "VerifyComplete"

/-- REQUEST_FIRMWARE_DATA: the chunk that was asked for arrives and is written to flash. One of another length is asked for
again. -/
def execRequestFirmwareData (chunk : List Byte) (programOk : Bool) (s : State) : Outcome State Fault Refusal :=
  .next (s.received true fun t =>
    match t.sbd.update with
    | none => t
    | some u =>
      if u.phase ≠ 2 then t
      else if chunk.length ≠ u.want then t.askChunk u
      else if programOk = false then (t.latch pgSbd 3 0).updateFails u "TransferComplete"
      else
        let t1 := t.flashWr (flashBank u.bank + u.got) chunk
        let u1 : Update := { u with got := u.got + chunk.length }
        if u1.got < u1.size then t1.askChunk u1 else (t1.setUpdate (some u1)).verifyBank u1)

/-- ACTIVATE_FIRMWARE (R614): the update ends; in BOOT_FAIL bank A is named and the package resets. -/
def execActivateFirmware (selfContained : Bool) (s : State) : Outcome State Fault Refusal :=
  .next (s.request true true fun t =>
    match t.sbd.update with
    | none => t.answer 0x80 []
    | some u =>
      if u.phase ≠ 3 then t.answer 0x85 []
      else
        let t1 := (t.answer 0 [0, 0]).setUpdate none
        if t1.boot.dead then (t1.writeSelect 0 false).packageReset 4
        else if selfContained then t1.activate
        else t1)

/-! ### The vendor message set (R610, R611) -/

/-- A register's value in force, as master BMC. -/
def State.bmcVal (s : State) (p off : Nat) : List Byte :=
  let t : State := { s with arb := { s.arb with old := [] } }
  leBytes (t.readReg .bmc p off 0xF).1.toNat 4

/-- A register written as master BMC. -/
def State.bmcWrite (s : State) (p off v : Nat) : State := s.writePage .bmc p off 0xF (BitVec.ofNat 32 v)

/-- A vendor request: NOT_READY, SECURE_ONLY (`open_` is GET_INFO), then its own checks. One of a session that has ended is
dropped (R618). -/
def State.vendor (s : State) (session : Option Nat) (open_ : Bool) (f : State → State) : State :=
  match session with
  | some n => if n ∈ s.sbd.sessions then s.request true false f else s
  | none => s.request true false fun t => if t.bit Key.sbdCfg 8 && !open_ then t.answer 5 [] else f t

/-- GET_INFO. -/
def execGetInfo (payload : List Byte) (session : Option Nat) (s : State) : Outcome State Fault Refusal :=
  .next (s.vendor session true fun t =>
    if payload ≠ [] then t.answer 2 []
    else t.answer 0 (leBytes Config.otpSerial.toNat 8 ++ t.bmcVal pgDev 4 ++ t.bmcVal pgRst 0x100 ++ t.bmcVal pgRst 0x118
      ++ t.bmcVal pgTop 0x100 ++ t.bmcVal pgTtl 0x108))

/-- SET_COORD. -/
def execSetCoord (payload : List Byte) (session : Option Nat) (s : State) : Outcome State Fault Refusal :=
  .next (s.vendor session false fun t =>
    if payload.length ≠ 4 then t.answer 2 []
    else if leAt payload 2 2 ≠ 0 then t.answer 3 []
    else
      let t1 := t.bmcWrite pgTop 0x100 (2 ^ 31 + leAt payload 0 2)
      t1.answer 0 (t1.bmcVal pgTop 0x100))

/-- GET_COORD. -/
def execGetCoord (payload : List Byte) (session : Option Nat) (s : State) : Outcome State Fault Refusal :=
  .next (s.vendor session false fun t => if payload ≠ [] then t.answer 2 [] else t.answer 0 (t.bmcVal pgTop 0x100))

/-- RIG_PLAN. -/
def execRigPlan (payload : List Byte) (session : Option Nat) (s : State) : Outcome State Fault Refusal :=
  let first := leAt payload 0 1
  let n := leAt payload 1 1
  let flags := leAt payload 2 1
  let entry := fun i => leAt payload (4 + 4 * i) 4
  .next (s.vendor session false fun t =>
    if payload.length < 4 then t.answer 2 []
    else if n = 0 ∨ 12 < n ∨ 12 < first + n ∨ 1 < flags ∨ leAt payload 3 1 ≠ 0 then t.answer 3 []
    else if payload.length ≠ 4 + 4 * n then t.answer 2 []
    else if (List.range n).any fun i => decide (bitsOf (entry i) 29 24 ≠ 0) then t.answer 3 []
    else
      let t1 := (List.range n).foldl (fun u i => u.bmcWrite pgTop (0x140 + 4 * (first + i)) (entry i)) t
      let t2 := if flags = 1 then t1.bmcWrite pgTop 0x104 1 else t1
      t2.answer 0 (t2.bmcVal pgTop 0x108))

/-- RIG_STATUS. -/
def execRigStatus (payload : List Byte) (session : Option Nat) (s : State) : Outcome State Fault Refusal :=
  .next (s.vendor session false fun t =>
    if payload ≠ [] then t.answer 2 []
    else t.answer 0 (t.bmcVal pgTop 0x108 ++ (List.range 12).flatMap fun b => t.bmcVal pgTop (0x180 + 4 * b)))

/-- POWER_ORDER. -/
def execPowerOrder (payload : List Byte) (session : Option Nat) (s : State) : Outcome State Fault Refusal :=
  let mask := leAt payload 0 1
  .next (s.vendor session false fun t =>
    if payload.length ≠ 12 then t.answer 2 []
    else if 3 < mask ∨ leAt payload 1 3 ≠ 0 then t.answer 3 []
    else
      let t1 := if mask % 2 = 1 then t.bmcWrite pgPwr 0x100 (leAt payload 4 4) else t
      let t2 := if mask / 2 = 1 then t1.bmcWrite pgThm 0x100 (leAt payload 8 4) else t1
      t2.answer 0 (t2.bmcVal pgPwr 0x100 ++ t2.bmcVal pgThm 0x100))

/-- POWER_STATUS. -/
def execPowerStatus (payload : List Byte) (session : Option Nat) (s : State) : Outcome State Fault Refusal :=
  .next (s.vendor session false fun t =>
    if payload ≠ [] then t.answer 2 []
    else t.answer 0 (t.bmcVal pgPwr 0x104 ++ t.bmcVal pgThm 0x104 ++ (List.range 12).flatMap fun d => t.bmcVal pgThm (0x140 + 4 * d)))

/-- FAULT_PEEK: FLT_PEEK and FLT_INFO of pages, and FLT_STAT; clears nothing. -/
def execFaultPeek (payload : List Byte) (session : Option Nat) (s : State) : Outcome State Fault Refusal :=
  let first := leAt payload 0 2
  let n := leAt payload 2 2
  .next (s.vendor session false fun t =>
    if payload.length ≠ 4 then t.answer 2 []
    else if n = 0 ∨ 8 < n then t.answer 3 []
    else t.answer 0 (((List.range n).flatMap fun i => t.bmcVal (first + i) 0x20 ++ t.bmcVal (first + i) 0x24) ++ t.bmcVal pgFlt 0x100))

/-- FAULT_LOG. -/
def execFaultLog (payload : List Byte) (session : Option Nat) (s : State) : Outcome State Fault Refusal :=
  let first := leAt payload 0 1
  let n := leAt payload 1 1
  .next (s.vendor session false fun t =>
    if payload.length ≠ 4 then t.answer 2 []
    else if n = 0 ∨ 8 < n ∨ 64 < first + n ∨ leAt payload 2 2 ≠ 0 then t.answer 3 []
    else t.answer 0 ((List.range (4 * n)).flatMap fun i => t.bmcVal pgFlt (0x400 + 16 * first + 4 * i)))

/-- Words read one after another as master BMC, with what each read does. -/
def State.bmcRead (s : State) (p off : Nat) : Nat → List Byte × State
  | 0 => ([], s)
  | n + 1 =>
    let r := s.readReg .bmc p off 0xF
    let rest := r.2.bmcRead p (off + 4) n
    (leBytes r.1.toNat 4 ++ rest.1, rest.2)

/-- REG_READ. -/
def execRegRead (payload : List Byte) (session : Option Nat) (s : State) : Outcome State Fault Refusal :=
  let off := leAt payload 2 2
  let n := leAt payload 4 4
  .next (s.vendor session false fun t =>
    if payload.length ≠ 8 then t.answer 2 []
    else if n = 0 ∨ 12 < n ∨ 0x1000 < off + 4 * n then t.answer 3 []
    else
      let r := t.bmcRead (leAt payload 0 2) off n
      r.2.answer 0 r.1)

/-- REG_WRITE: one word, and the value in force after it. -/
def execRegWrite (payload : List Byte) (session : Option Nat) (s : State) : Outcome State Fault Refusal :=
  let p := leAt payload 0 2
  let off := leAt payload 2 2
  .next (s.vendor session false fun t =>
    if payload.length ≠ 8 then t.answer 2 []
    else if 0xFFF < off then t.answer 3 []
    else
      let t1 := t.bmcWrite p off (leAt payload 4 4)
      t1.answer 0 (t1.bmcVal p off))

/-- RESET: the response precedes the reset. -/
def execResetCommand (payload : List Byte) (session : Option Nat) (s : State) : Outcome State Fault Refusal :=
  let op := leAt payload 0 1
  .next (s.vendor session false fun t =>
    if payload.length ≠ 4 then t.answer 2 []
    else if (op ≠ 1 ∧ op ≠ 3) ∨ leAt payload 1 3 ≠ 0 then t.answer 3 []
    else (t.answer 0 []).bmcWrite pgRst 0x104 op)

/-- JURY. -/
def execJury (payload : List Byte) (session : Option Nat) (s : State) : Outcome State Fault Refusal :=
  .next (s.vendor session false fun t =>
    if payload.length ≠ 4 then t.answer 2 []
    else
      let t1 := t.bmcWrite pgJry 0x104 (leAt payload 0 4)
      t1.answer 0 (t1.bmcVal pgJry 0x100))

/-! ### SPDM (R615, R618, R619) -/

/-- An SPDM response. -/
def State.spdmSay (s : State) (name : String) (data : List Nat) : State := s.emit (.spdm name data)

/-- A signed SPDM response: the signature is a free value. -/
def State.spdmSign (s : State) (name : String) (data : List Nat) : State :=
  ({ s with freeCtr := s.freeCtr + 1 } : State).spdmSay name (data ++ [Config.spdmSignature s.freeCtr])

/-- Where the requests that are allowed only later in the connection are refused. -/
def State.spdmError (s : State) (code : Nat) : State := s.spdmSay "ERROR" [code]

/-- Insertion in ascending order. -/
def insNat (x : Nat) : List Nat → List Nat
  | [] => [x]
  | y :: l => if x ≤ y then x :: y :: l else y :: insNat x l

/-- The digests of components 1 to 6, in order. -/
def State.bootDigests (s : State) : List (BitVec 384) :=
  (List.range 6).map fun i => ((s.boot.digests.find? fun e => decide (e.1 = i + 1)).map fun e => e.2).getD 0

/-- A measurement block (Table 25.6). -/
def State.measurement (s : State) (i : Nat) : List Nat :=
  if i = 1 then [Config.romDigest.toNat]
  else if i ≤ 7 then [(s.bootDigests.getD (i - 2) 0).toNat]
  else if i = 8 then s.boot.measured.take 3
  else if i = 9 then s.boot.measured.drop 3
  else if i = 10 then [(s.reg Key.devConduct).toNat]
  else if i = 11 then
    let ds := ((s.models.filter fun m => decide (m.st = .loaded)).map fun m => m.digest.toNat).foldr insNat []
    [leNat (sha384 (ds.flatMap fun d => (leBytes d 48).reverse)).reverse]
  else [s.fld Key.fltInjCtl 0 0, s.fld Key.pciStat 21 21]

/-- The certificate chain of slot 0. -/
def State.chain (s : State) : List Nat := (Config.certChain Config.otpSerial s.bootDigests).map BitVec.toNat

/-- An SPDM request performed. -/
def State.spdm (s : State) (r : SpdmReq) : State :=
  let stage := s.sbd.spdm
  let at_ := fun (t : State) (n : Nat) => ({ t with sbd := { t.sbd with spdm := n } } : State)
  match r with
  | .getVersion => (at_ s 1).spdmSay "VERSION" [0x13]
  | .getCapabilities => if stage = 1 then (at_ s 2).spdmSay "CAPABILITIES" [0x2D6] else s.spdmError 4
  | .negotiateAlgorithms => if stage = 2 then (at_ s 3).spdmSay "ALGORITHMS" [0x80, 0x2, 0x10, 0x2] else s.spdmError 4
  | .getDigests => if stage < 3 then s.spdmError 4
      else s.spdmSay "DIGESTS" [1, leNat (sha384 (s.chain.map (BitVec.ofNat 8))).reverse]
  | .getCertificate slot => if stage < 3 then s.spdmError 4 else if slot.toNat ≠ 0 then s.spdmError 1
      else s.spdmSay "CERTIFICATE" (0 :: s.chain)
  | .challenge slot => if stage < 3 then s.spdmError 4 else if slot.toNat ≠ 0 then s.spdmError 1
      else s.spdmSign "CHALLENGE_AUTH" [0]
  | .getMeasurements i signed =>
      let n := i.toNat
      if stage < 3 then s.spdmError 4 else if 12 < n ∧ n < 0xFF then s.spdmError 1
      else
        let data := if n = 0 then [12] else if n = 0xFF then (List.range 12).flatMap fun j => (j + 1) :: s.measurement (j + 1)
          else n :: s.measurement n
        if signed then s.spdmSign "MEASUREMENTS" data else s.spdmSay "MEASUREMENTS" data
  | .keyExchange slot => if stage < 3 then s.spdmError 4 else if slot.toNat ≠ 0 then s.spdmError 1
      else if 4 ≤ s.sbd.sessions.length + s.sbd.handshakes.length then s.spdmError 0x0A
      else
        let id := s.sbd.nextSession
        ({ s with sbd := { s.sbd with handshakes := s.sbd.handshakes ++ [id], nextSession := id + 1 } } : State).spdmSign "KEY_EXCHANGE_RSP" [id]
  | .finish ok =>
      match s.sbd.handshakes with
      | [] => s.spdmError 4
      | id :: rest =>
        if ok then ({ s with sbd := { s.sbd with handshakes := rest, sessions := s.sbd.sessions ++ [id] } } : State).spdmSay "FINISH_RSP" [id]
        else (({ s with sbd := { s.sbd with handshakes := rest } } : State).latch pgSbd 2 0).spdmError 6

/-- SPDM_REQUEST (R615, R621), over MCTP or over PF DOE. -/
def execSpdmRequest (r : SpdmReq) (doe : Bool) (s : State) : Outcome State Fault Refusal :=
  .next (if doe then (if s.boot.running then s.spdm r else s) else s.request false false fun t => t.spdm r)

/-- SESSION_END (R618). -/
def execSessionEnd (id : Nat) (s : State) : Outcome State Fault Refusal :=
  .next { s with sbd := { s.sbd with
    sessions := s.sbd.sessions.filter fun x => decide (x ≠ id), handshakes := s.sbd.handshakes.filter fun x => decide (x ≠ id) } }

/-! ### Transport failures (R608, R619) -/

/-- SMB_TIMEOUT: clock or data held low for more than 25 ms. -/
def execSmbTimeout (s : State) : Outcome State Fault Refusal := .next (if s.pins.pwrOk = false then s else s.latch pgSbd 0 0)

/-- REASSEMBLY: a message left incomplete for 100 ms is discarded. -/
def execReassembly (s : State) : Outcome State Fault Refusal := .next (if s.pins.pwrOk = false then s else s.latch pgSbd 1 0)

/-- PEC_ERROR: a packet is dropped. -/
def execPecError (s : State) : Outcome State Fault Refusal := .next (if s.pins.pwrOk = false then s else s.inc Key.sbdPecErrCnt)

end Sys2Proof.Machine
end

