-- ==== Sys2Proof/Machine/Dispatch.lean ====
section
/-! DEFINITION. One arm per command: its meaning. -/

namespace Sys2Proof.Machine

open Host

def exec (i : Instr) (s : State) : Host.Outcome State Fault Refusal :=
  match i with
  | .registerWrite m a be v hi => Sys2Proof.Machine.execRegisterWrite m a be v s hi
  | .rcRead m a be hi => Sys2Proof.Machine.execRcRead m a be hi s
  | .fltLatchRead m p be => Sys2Proof.Machine.execFltLatchRead m p be s
  | .conflictRead m p be => Sys2Proof.Machine.execConflictRead m p be s
  | .ownerWrite m p be v => Sys2Proof.Machine.execOwnerWrite m p be v s
  | .lock m p be v => Sys2Proof.Machine.execLock m p be v s
  | .softReset m p be v => Sys2Proof.Machine.execSoftReset m p be v s
  | .irqForce m p be v => Sys2Proof.Machine.execIrqForce m p be v s
  | .irqStatClear m p be v => Sys2Proof.Machine.execIrqStatClear m p be v s
  | .ttlNowRead m be => Sys2Proof.Machine.execTtlNowRead m be s
  | .faultAggregate => Sys2Proof.Machine.execFaultAggregate s
  | .deqHead m be v => Sys2Proof.Machine.execDeqHead m be v s
  | .deqEnable m be v => Sys2Proof.Machine.execDeqEnable m be v s
  | .sqDoorbell m p q be v => Sys2Proof.Machine.execSqDoorbell m p q be v s
  | .eqDoorbell m p e be v => Sys2Proof.Machine.execEqDoorbell m p e be v s
  | .sqEnable m p q be v => Sys2Proof.Machine.execSqEnable m p q be v s
  | .sqDisable m p q be v => Sys2Proof.Machine.execSqDisable m p q be v s
  | .eqEnable m p e be v => Sys2Proof.Machine.execEqEnable m p e be v s
  | .eqDisable m p e be v => Sys2Proof.Machine.execEqDisable m p e be v s
  | .fetchError p q => Sys2Proof.Machine.execFetchError p q s
  | .request p q d frame => Sys2Proof.Machine.execRequest p q d frame s
  | .cancel p q d => Sys2Proof.Machine.execCancel p q d s
  | .nop p q d => Sys2Proof.Machine.execNop p q d s
  | .loadModel p q d image => Sys2Proof.Machine.execLoadModel p q d image s
  | .modelLoadComplete p handle => Sys2Proof.Machine.execModelLoadComplete p handle s
  | .unloadModel p q d => Sys2Proof.Machine.execUnloadModel p q d s
  | .unloadComplete p handle => Sys2Proof.Machine.execUnloadComplete p handle s
  | .outputRingReread p tag consumed => Sys2Proof.Machine.execOutputRingReread p tag consumed s
  | .moderationTimer eq => Sys2Proof.Machine.execModerationTimer eq s
  | .vfFlr n => Sys2Proof.Machine.execVfFlr n s
  | .pfFlr => Sys2Proof.Machine.execPfFlr s
  | .hotReset => Sys2Proof.Machine.execHotReset s
  | .dlDown => Sys2Proof.Machine.execDlDown s
  | .plainLoad a dpa len late => Sys2Proof.Machine.execPlainLoad a dpa len late s
  | .plainStore a dpa data late => Sys2Proof.Machine.execPlainStore a dpa data late s
  | .loadAcquire a dpa len => Sys2Proof.Machine.execLoadAcquire a dpa len s
  | .storeRelease a dpa data late => Sys2Proof.Machine.execStoreRelease a dpa data late s
  | .sync a => Sys2Proof.Machine.execSync a s
  | .syncComplete a => Sys2Proof.Machine.execSyncComplete a s
  | .assign m p be => Sys2Proof.Machine.execAssign m p be s
  | .commit m p be => Sys2Proof.Machine.execCommit m p be s
  | .drain m p be => Sys2Proof.Machine.execDrain m p be s
  | .drainDone p => Sys2Proof.Machine.execDrainDone p s
  | .reset m p be => Sys2Proof.Machine.execReset m p be s
  | .resetDone p => Sys2Proof.Machine.execResetDone p s
  | .release m p be => Sys2Proof.Machine.execRelease m p be s
  | .teardownComplete p => Sys2Proof.Machine.execTeardownComplete p s
  | .keyFail p => Sys2Proof.Machine.execKeyFail p s
  | .scrubComplete frame ok => Sys2Proof.Machine.execScrubComplete frame ok s
  | .deferredRerun p => Sys2Proof.Machine.execDeferredRerun p s
  | .prefixLookup p tag ue => Sys2Proof.Machine.execPrefixLookup p tag ue s
  | .prefillPageStep p tag token => Sys2Proof.Machine.execPrefillPageStep p tag s token
  | .decodeStep p tag token masses ue => Sys2Proof.Machine.execDecodeStep p tag token masses ue s
  | .resume p tag => Sys2Proof.Machine.execResume p tag s
  | .finalPass p tag => Sys2Proof.Machine.execFinalPass p tag s
  | .promote src d list => Sys2Proof.Machine.execPromote src d list s
  | .demote src d list => Sys2Proof.Machine.execDemote src d list s
  | .copy src d list => Sys2Proof.Machine.execCopy src d list s
  | .burstRecheck pool t => Sys2Proof.Machine.execBurstRecheck pool t s
  | .pageCommit tag n ue => Sys2Proof.Machine.execPageCommit tag n ue s
  | .pmgHrTail m be v => Sys2Proof.Machine.execPmgHrTail m be v s
  | .pmgHrEnable m be v => Sys2Proof.Machine.execPmgHrEnable m be v s
  | .frameRetire frame => Sys2Proof.Machine.execFrameRetire frame s
  | .patrol t u => Sys2Proof.Machine.execPatrol t u s
  | .bankRefresh t u temp => Sys2Proof.Machine.execBankRefresh t u temp s
  | .stackLost t u => Sys2Proof.Machine.execStackLost t u s
  | .cipherFault t u => Sys2Proof.Machine.execCipherFault t u s
  | .memoryTrained retried failed us => Sys2Proof.Machine.execMemoryTrained retried failed us s
  | .append k d ue => Sys2Proof.Machine.execAppend k d ue s
  | .pin entry gen => Sys2Proof.Machine.execPin entry gen s
  | .unpin entry => Sys2Proof.Machine.execUnpin entry s
  | .heldReserve pool => Sys2Proof.Machine.execHeldReserve pool s
  | .holdTimeout pool => Sys2Proof.Machine.execHoldTimeout pool s
  | .bind m be slot => Sys2Proof.Machine.execBind m be slot s
  | .unbind m be slot => Sys2Proof.Machine.execUnbind m be slot s
  | .slotFree slot => Sys2Proof.Machine.execSlotFree slot s
  | .agePeriod => Sys2Proof.Machine.execAgePeriod s
  | .reefSelect pool t => Sys2Proof.Machine.execReefSelect pool t s
  | .pageDrop entry => Sys2Proof.Machine.execPageDrop entry s
  | .pinHoldExpire entry => Sys2Proof.Machine.execPinHoldExpire entry s
  | .planBind p handle plan spar => Sys2Proof.Machine.execPlanBind p handle plan spar s
  | .walkStart spar p tags handle walk => Sys2Proof.Machine.execWalkStart spar p tags handle walk s
  | .gemm spar w chk f late => Sys2Proof.Machine.execGemm spar w chk f s late
  | .copyMacro spar w f late => Sys2Proof.Machine.execCopyMacro spar w f s late
  | .attn spar w chk f late => Sys2Proof.Machine.execAttn spar w chk f s late
  | .scatter spar w late => Sys2Proof.Machine.execScatter spar w s late
  | .map spar w f late => Sys2Proof.Machine.execMap spar w f s late
  | .smaxMax spar w f late => Sys2Proof.Machine.execSmaxMax spar w f s late
  | .smaxSum spar w f late => Sys2Proof.Machine.execSmaxSum spar w f s late
  | .smaxOut spar w f late => Sys2Proof.Machine.execSmaxOut spar w f s late
  | .sample spar w f late => Sys2Proof.Machine.execSample spar w f s late
  | .normMax spar w f late => Sys2Proof.Machine.execNormMax spar w f s late
  | .normSum spar w f late => Sys2Proof.Machine.execNormSum spar w f s late
  | .normOut spar w f late => Sys2Proof.Machine.execNormOut spar w f s late
  | .send spar w late => Sys2Proof.Machine.execSend spar w s late
  | .recv spar w late => Sys2Proof.Machine.execRecv spar w s late
  | .allreduce spar w late => Sys2Proof.Machine.execAllreduce spar w s late
  | .allgather spar w late => Sys2Proof.Machine.execAllgather spar w s late
  | .gather spar w late => Sys2Proof.Machine.execGather spar w s late
  | .stats spar w late => Sys2Proof.Machine.execStats spar w s late
  | .macroRetire spar slot => Sys2Proof.Machine.execMacroRetire spar slot s
  | .bomTestStart m k be v => Sys2Proof.Machine.execBomTestStart m k be v s
  | .yardRetire m n be v => Sys2Proof.Machine.execYardRetire m n be v s
  | .luffRetire m n be v => Sys2Proof.Machine.execLuffRetire m n be v s
  | .clewRetire m n be v => Sys2Proof.Machine.execClewRetire m n be v s
  | .bankRetire bank => Sys2Proof.Machine.execBankRetire bank s
  | .eval die p tag handle job => Sys2Proof.Machine.execEval die p tag handle job s
  | .evaluationSlot die chk => Sys2Proof.Machine.execEvaluationSlot die chk s
  | .retryRepeat die panel => Sys2Proof.Machine.execRetryRepeat die panel s
  | .programBatch die panel failed => Sys2Proof.Machine.execProgramBatch die panel failed s
  | .verifyRead g bad => Sys2Proof.Machine.execVerifyRead g bad s
  | .erase g stuck => Sys2Proof.Machine.execErase g stuck s
  | .rereference g temp => Sys2Proof.Machine.execRereference g temp s
  | .tempTrack g temp => Sys2Proof.Machine.execTempTrack g temp s
  | .refresh die panel => Sys2Proof.Machine.execRefresh die panel s
  | .sentinelVisit die panel deviant refs => Sys2Proof.Machine.execSentinelVisit die panel deviant refs s
  | .spareProgram die panel col stuck => Sys2Proof.Machine.execSpareProgram die panel col stuck s
  | .rereferenceNow m g be => Sys2Proof.Machine.execRereferenceNow m g be s
  | .visitNow m g be => Sys2Proof.Machine.execVisitNow m g be s
  | .form m k be => Sys2Proof.Machine.execForm m k be s
  | .formRetry k => Sys2Proof.Machine.execFormRetry k s
  | .formAnswer k left a => Sys2Proof.Machine.execFormAnswer k left a s
  | .formTimeout k => Sys2Proof.Machine.execFormTimeout k s
  | .dissolve m k be => Sys2Proof.Machine.execDissolve m k be s
  | .ready k member tag layer pages => Sys2Proof.Machine.execReady k member tag layer pages s
  | .start k leader t0 d steps => Sys2Proof.Machine.execStart k leader t0 d steps s
  | .ringRelease k step stage => Sys2Proof.Machine.execRingRelease k step s stage
  | .stepDue k => Sys2Proof.Machine.execStepDue k s
  | .delay k member step e => Sys2Proof.Machine.execDelay k member step e s
  | .sweep k tag token j shard rows => Sys2Proof.Machine.execSweep k tag token j shard rows s
  | .partialRecord k tag member r => Sys2Proof.Machine.execPartialRecord k tag member r s
  | .ringEnd k tag cause => Sys2Proof.Machine.execRingEnd k tag cause s
  | .stepTimeout k => Sys2Proof.Machine.execStepTimeout k s
  | .barrierTimeout k member => Sys2Proof.Machine.execBarrierTimeout k member s
  | .stall k member paired => Sys2Proof.Machine.execStall k member s paired
  | .recoverTimeout k => Sys2Proof.Machine.execRecoverTimeout k s
  | .context k c => Sys2Proof.Machine.execContext k c s
  | .mirrorRows k tag shard page slot scale rows => Sys2Proof.Machine.execMirrorRows k tag shard page slot scale rows s
  | .mirrorAck entry valid => Sys2Proof.Machine.execMirrorAck entry valid s
  | .data b flit marked splice => Sys2Proof.Machine.execData b flit marked s splice
  | .nak b flit => Sys2Proof.Machine.execNak b flit s
  | .replayTimeout b => Sys2Proof.Machine.execReplayTimeout b s
  | .telltale b flit rx => Sys2Proof.Machine.execTelltale b flit rx s
  | .linkTraining b r => Sys2Proof.Machine.execLinkTraining b r s
  | .identityRecord b rec => Sys2Proof.Machine.execIdentityRecord b rec s
  | .identTimeout b => Sys2Proof.Machine.execIdentTimeout b s
  | .retrain b => Sys2Proof.Machine.execRetrain b s
  | .los b lanes => Sys2Proof.Machine.execLos b lanes s
  | .retryLimit b => Sys2Proof.Machine.execRetryLimit b s
  | .replayFail b => Sys2Proof.Machine.execReplayFail b s
  | .creditStall b vc => Sys2Proof.Machine.execCreditStall b vc s
  | .trainFail b => Sys2Proof.Machine.execTrainFail b s
  | .berWarn b errors => Sys2Proof.Machine.execBerWarn b errors s
  | .segment b src vc header data crc splice => Sys2Proof.Machine.execSegment b src vc header data crc splice s
  | .msgTimeout spar slot => Sys2Proof.Machine.execMsgTimeout spar slot s
  | .holdDown m b be v => Sys2Proof.Machine.execHoldDown m b be v s
  | .sheetWrite m be v => Sys2Proof.Machine.execSheetWrite m be v s
  | .topCoordWrite m be v => Sys2Proof.Machine.execTopCoordWrite m be v s
  | .load m be => Sys2Proof.Machine.execLoad m be s
  | .check m be => Sys2Proof.Machine.execCheck m be s
  | .rigCheck b => Sys2Proof.Machine.execRigCheck b s
  | .rigOk b => Sys2Proof.Machine.execRigOk b s
  | .rigTimeout => Sys2Proof.Machine.execRigTimeout s
  | .reach coords railsA railsB => Sys2Proof.Machine.execReach coords railsA railsB s
  | .arm m be => Sys2Proof.Machine.execArm m be s
  | .disarm m be => Sys2Proof.Machine.execDisarm m be s
  | .takeover src be x member => Sys2Proof.Machine.execTakeover src be x member s
  | .busy slot x failed => Sys2Proof.Machine.execBusy slot x s failed
  | .fenceConfirm leaf => Sys2Proof.Machine.execFenceConfirm leaf s
  | .rebindConfirm leaf => Sys2Proof.Machine.execRebindConfirm leaf s
  | .settleEnd => Sys2Proof.Machine.execSettleEnd s
  | .confirmTimeout => Sys2Proof.Machine.execConfirmTimeout s
  | .taken x => Sys2Proof.Machine.execTaken x s
  | .eventFire => Sys2Proof.Machine.execEventFire s
  | .swevArm m sl be v => Sys2Proof.Machine.execSwevArm m sl be v s
  | .lostTimeout => Sys2Proof.Machine.execLostTimeout s
  | .holdoverExpire => Sys2Proof.Machine.execHoldoverExpire s
  | .acquireEnd => Sys2Proof.Machine.execAcquireEnd s
  | .ratlineUnit l back seq ack crcOk lost ends part => Sys2Proof.Machine.execRatlineUnit l back seq ack crcOk lost s ends part
  | .ratlineReplayTimeout l back lost => Sys2Proof.Machine.execRatlineReplayTimeout l back lost s
  | .laneTest l back => Sys2Proof.Machine.execLaneTest l back s
  | .laneTestEnd l back badLow badHigh lost => Sys2Proof.Machine.execLaneTestEnd l back badLow badHigh lost s
  | .ratlineRetrain l badLow badHigh => Sys2Proof.Machine.execRatlineRetrain l badLow badHigh s
  | .divisorChange k => Sys2Proof.Machine.execDivisorChange k s
  | .swDivisor m k be v => Sys2Proof.Machine.execSwDivisor m k be v s
  | .throttleOrder m be v => Sys2Proof.Machine.execThrottleOrder m be v s
  | .refBad ppm => Sys2Proof.Machine.execRefBad ppm s
  | .pllUnlock => Sys2Proof.Machine.execPllUnlock s
  | .por => Sys2Proof.Machine.execPor s
  | .perst => Sys2Proof.Machine.execPerst s
  | .packageReset m be => Sys2Proof.Machine.execPackageReset m be s
  | .dieCommand m be die => Sys2Proof.Machine.execDieCommand m be die s
  | .activate m be => Sys2Proof.Machine.execActivate m be s
  | .watchdog => Sys2Proof.Machine.execWatchdog s
  | .lockstepMismatch => Sys2Proof.Machine.execLockstepMismatch s
  | .dieReturn die failed retried badStacks us => Sys2Proof.Machine.execDieReturn die failed s retried badStacks us
  | .boot failed => Sys2Proof.Machine.execBoot failed s
  | .startupComplete => Sys2Proof.Machine.execStartupComplete s
  | .conductWrite m be v => Sys2Proof.Machine.execConductWrite m be v s
  | .warningCrossing r mv => Sys2Proof.Machine.execWarningCrossing r mv s
  | .releaseCrossing r mv => Sys2Proof.Machine.execReleaseCrossing r mv s
  | .dipRecovered r => Sys2Proof.Machine.execDipRecovered r s
  | .resetCrossing r mv => Sys2Proof.Machine.execResetCrossing r mv s
  | .dieSupplyRelease r mv => Sys2Proof.Machine.execDieSupplyRelease r mv s
  | .idleEntry dom => Sys2Proof.Machine.execIdleEntry dom s
  | .idleExit dom => Sys2Proof.Machine.execIdleExit dom s
  | .holdoffExpire dom => Sys2Proof.Machine.execHoldoffExpire dom s
  | .powerSample watts => Sys2Proof.Machine.execPowerSample watts s
  | .controlPeriod => Sys2Proof.Machine.execControlPeriod s
  | .pwrCapWrite m be v => Sys2Proof.Machine.execPwrCapWrite m be v s
  | .thmLimitWrite m be v => Sys2Proof.Machine.execThmLimitWrite m be v s
  | .thermalEvaluation readings => Sys2Proof.Machine.execThermalEvaluation readings s
  | .thermalTrip u => Sys2Proof.Machine.execThermalTrip u s
  | .selftest u ok => Sys2Proof.Machine.execSelftest u ok s
  | .selftestLate u => Sys2Proof.Machine.execSelftestLate u s
  | .memCe m be v => Sys2Proof.Machine.execMemCe m be v s
  | .memUe m be v => Sys2Proof.Machine.execMemUe m be v s
  | .linkCrc m be v => Sys2Proof.Machine.execLinkCrc m be v s
  | .ratlineCrc m be v => Sys2Proof.Machine.execRatlineCrc m be v s
  | .residueTrans m be v => Sys2Proof.Machine.execResidueTrans m be v s
  | .residueHard m be v => Sys2Proof.Machine.execResidueHard m be v s
  | .selftestFail m be v => Sys2Proof.Machine.execSelftestFail m be v s
  | .sentinelDev m be v => Sys2Proof.Machine.execSentinelDev m be v s
  | .lockstep m be v => Sys2Proof.Machine.execLockstep m be v s
  | .e2eCrc m be v => Sys2Proof.Machine.execE2eCrc m be v s
  | .restore m be v passes => Sys2Proof.Machine.execRestore m be v passes s
  | .setEndpointId op eid => Sys2Proof.Machine.execSetEndpointId op eid s
  | .getEndpointId => Sys2Proof.Machine.execGetEndpointId s
  | .getMctpVersionSupport type => Sys2Proof.Machine.execGetMctpVersionSupport type s
  | .getMessageTypeSupport => Sys2Proof.Machine.execGetMessageTypeSupport s
  | .getTid => Sys2Proof.Machine.execGetTid s
  | .getPldmVersion type => Sys2Proof.Machine.execGetPldmVersion type s
  | .getPldmTypes => Sys2Proof.Machine.execGetPldmTypes s
  | .getPldmCommands type => Sys2Proof.Machine.execGetPldmCommands type s
  | .getSensorReading sensor => Sys2Proof.Machine.execGetSensorReading sensor s
  | .getPdrRepositoryInfo => Sys2Proof.Machine.execGetPdrRepositoryInfo s
  | .getPdr record => Sys2Proof.Machine.execGetPdr record s
  | .requestUpdate => Sys2Proof.Machine.execRequestUpdate s
  | .passComponentTable classification identifier stamp => Sys2Proof.Machine.execPassComponentTable classification identifier stamp s
  | .updateComponent size eraseOk => Sys2Proof.Machine.execUpdateComponent size eraseOk s
  | .requestFirmwareData chunk programOk => Sys2Proof.Machine.execRequestFirmwareData chunk programOk s
  | .activateFirmware selfContained => Sys2Proof.Machine.execActivateFirmware selfContained s
  | .getInfo payload session => Sys2Proof.Machine.execGetInfo payload session s
  | .setCoord payload session => Sys2Proof.Machine.execSetCoord payload session s
  | .getCoord payload session => Sys2Proof.Machine.execGetCoord payload session s
  | .rigPlan payload session => Sys2Proof.Machine.execRigPlan payload session s
  | .rigStatus payload session => Sys2Proof.Machine.execRigStatus payload session s
  | .powerOrder payload session => Sys2Proof.Machine.execPowerOrder payload session s
  | .powerStatus payload session => Sys2Proof.Machine.execPowerStatus payload session s
  | .faultPeek payload session => Sys2Proof.Machine.execFaultPeek payload session s
  | .faultLog payload session => Sys2Proof.Machine.execFaultLog payload session s
  | .regRead payload session => Sys2Proof.Machine.execRegRead payload session s
  | .regWrite payload session => Sys2Proof.Machine.execRegWrite payload session s
  | .resetCommand payload session => Sys2Proof.Machine.execResetCommand payload session s
  | .jury payload session => Sys2Proof.Machine.execJury payload session s
  | .spdmRequest r doe => Sys2Proof.Machine.execSpdmRequest r doe s
  | .sessionEnd id => Sys2Proof.Machine.execSessionEnd id s
  | .smbTimeout => Sys2Proof.Machine.execSmbTimeout s
  | .reassembly => Sys2Proof.Machine.execReassembly s
  | .powerDown => Sys2Proof.Machine.execPowerDown s
  | .bypass => Sys2Proof.Machine.execBypass s
  | .idcode => Sys2Proof.Machine.execIdcode s
  | .samplePreload => Sys2Proof.Machine.execSamplePreload s
  | .extest => Sys2Proof.Machine.execExtest s
  | .clamp => Sys2Proof.Machine.execClamp s
  | .highz => Sys2Proof.Machine.execHighz s
  | .tapExit => Sys2Proof.Machine.execTapExit s
  | .rngFail => Sys2Proof.Machine.execRngFail s
  | .usageEpoch ue => Sys2Proof.Machine.execUsageEpoch s ue
  | .rngOk => Sys2Proof.Machine.execRngOk s
  | .idleFlit b flit => Sys2Proof.Machine.execIdleFlit b flit s
  | .pecError => Sys2Proof.Machine.execPecError s
  | .pllLock => Sys2Proof.Machine.execPllLock s
  | .monFail r => Sys2Proof.Machine.execMonFail r s

end Sys2Proof.Machine
end

