-- ==== Sys2Proof/Machine/Idle.lean ====
section
/-! DEFINITION. What happens when a cycle of CK_MGT passes with no command: the Telltale count advances and due events
fire, flits leave, steps that are done release, and work that waits for room starts. -/

namespace Sys2Proof.Machine

/-- The cycle counter goes on, and the cycle that ends takes its arbitration with it (03 R41; 22 R555; 25 R609). -/
def State.endCycle (s : State) : State :=
  { s.nextCycle with time := { s.time with cycle := s.time.cycle + 1 }, boot := { s.boot with opDone := false }, sbd := { s.sbd with held := 0 } }

/-- The tick that ends takes with it what was freed in it (07 R147, 08 R171, 09 R198). -/
def State.endTick (s : State) : State :=
  { s with mem := { s.mem with fresh := [] }, rr := { s.rr with freed := [] } }

/-- Steps of running rings that are over and whose work is done are released (17 R411). -/
def State.releaseRings (s : State) : State :=
  (List.range 8).foldl (fun t k => if t.ringState k = rgReady then t.ringRelease k else t) s

/-- One cycle of 2.5 ns passes (DESIGN CHOICE: this is what a step on an empty queue is). -/
def State.idle (s : State) : State :=
  let s1 := s.endCycle.advanceCount
  let s2 := if s1.tick = s.tick then s1 else s1.endTick.fireDue
  let s3 := s2.endTraining.sendFlits.releaseRings
  let s4 := (s3.startWaiting s3.cnv.waiting.length).startWalks s3.fab.waiting.length
  State.drain s4.begun s4

end Sys2Proof.Machine
end

