-- ==== Sys2Proof/Safety.lean ====
section
/-! DEFINITION. What a safe run of the block keeps, and the words in which claims about its commands are stated. -/

namespace Sys2Proof.Machine

/-- Memory in canonical form: addresses rise, and no listed byte is the zero that an unlisted one reads as. -/
abbrev Memory.wf (m : Mem) : Prop := SMap.wf (fun _ => (0 : Byte)) m.bytes

/-- Registers in canonical form: keys rise, and none is listed at its reset value. -/
abbrev State.RegsCanonical (s : State) : Prop := SMap.wf resetVal s.regs

/-- The form that every step keeps, so that equal registers and equal memories are equal data. -/
abbrev State.Canonical (s : State) : Prop := s.RegsCanonical ∧ Memory.wf s.mem

/-- A step of the block is safe in a state when it ends in a next state in canonical form: no rail is beyond its ratings. -/
def State.SafeStep (s : State) : Prop := ∃ t, step s = .next t ∧ t.Canonical

/-! ### Accesses -/

/-- An access of a master that the block hears, and that no SYNC of its core holds back (05 R93; 18 R444; 22 R555). -/
abbrev State.Hears (s : State) (m : Master) : Prop := s.heard m = true ∧ s.coreWaits m = false

/-- No master later in the order of R41 has written the page in this cycle (03 R41). -/
abbrev State.InOrder (s : State) (m : Master) (p : Nat) : Prop := ∀ e ∈ s.arb.order, e.1 = p → e.2 ≤ masterId m

/-- A full 32-bit write that its page takes in this cycle: it is heard, aligned and in order, its master may write there, and the die
that serves the page is neither in reset nor cut off (03 R34, R36, R41, R50, R51). OWNER has a gate of its own (R38). -/
abbrev State.Takes (s : State) (m : Master) (p off : Nat) (v : Word) : Prop :=
  s.Hears m ∧ s.InOrder m p ∧ off % 4 = 0 ∧ off ≠ 0x28 ∧ mayWrite m p off v = true ∧ s.pageDead p = false ∧ s.pageCut p = false

/-- A read that its page answers: it is heard, the master may read the page, and the die that serves it is neither in reset nor cut off
(03 R34, R50, R51). -/
abbrev State.Readable (s : State) (m : Master) (p : Nat) : Prop :=
  s.Hears m ∧ mayRead m p = true ∧ s.pageDead p = false ∧ s.pageCut p = false

/-- A command written to PRT_CMD of partition `p` is performed at once: none for a lower partition waits, and none was put off (06 R112). -/
abbrev State.PrtFirst (s : State) (p : Nat) : Prop := s.lowerPrt p = false ∧ ∀ q ∈ allParts, (s.part q).later = []

/-- Agent `a` has nothing outstanding: no access, no SYNC, no macro of its Boom that is not performed (05 R88, R93, R94). -/
abbrev State.Unhindered (s : State) (a : Agent) : Prop :=
  (s.agent a).sync = false ∧ (s.agent a).open_ = [] ∧ ∀ m ∈ s.fab.flight, m.done = true

/-- Every byte of `[dpa, dpa + n)` is memory that agent `a` reaches and that is in service (08 Table 8.2; 21 R521). -/
abbrev State.Reaches (s : State) (a : Agent) (dpa n : Nat) : Prop :=
  ∀ i, i < n → (memDie (dpa + i)).isSome = true ∧ s.pathCut a (dpa + i) = false ∧ s.memOnline (dpa + i) = true

/-- No byte of memory is uncorrectable, corrected or under a lost key. -/
abbrev State.CleanMemory (s : State) : Prop := s.mem.poison = [] ∧ s.rel.marred = [] ∧ s.mem.garbled = []

/-- `t` is what `s` with the effect `u` of a write holds: all but what arbitration notes of the write itself (03 R41). -/
def WroteAs (u t : State) : Prop := t = { u with arb := { u.arb with old := t.arb.old, order := t.arb.order } }

/-- No other master wrote the register with key `k` in this window (03 R43, R44). -/
abbrev State.Uncontested (s : State) (m : Master) (k : Nat) : Prop := ∀ e ∈ s.arb.log, e.key = k → e.master = masterId m

/-- No register was written or cleared, and no fault was latched, in this cycle yet (03 R41, R49). -/
abbrev State.FreshCycle (s : State) : Prop := s.arb.old = [] ∧ s.arb.latched = []

/-- What one field of a register holds after a write of `v` (00 Table 0.2). -/
def fieldWritten (locked : Bool) (v w : Word) (f : Field) : Word :=
  match f.acc with
  | .w1c => w &&& ~~~v
  | .rw => putBits w f.hi f.lo (getBits v f.hi f.lo)
  | .rwl => if locked then w else putBits w f.hi f.lo (getBits v f.hi f.lo)
  | _ => w

/-- What a register holds after an uncontested write of `v` (00 Table 0.2, 03 R48). -/
def wordWritten (fs : List Field) (locked : Bool) (v w : Word) : Word := fs.foldl (fieldWritten locked v) w

/-- A register that its page stores as written: IRQ_EN of every page, and the block registers of the PWR, THM, ADM and SBD pages. -/
def plainRegister (p off : Nat) : Bool :=
  match blockOf p with
  | some (b, _) =>
    (findReg p off).isSome
      && (decide (off = 0x14) || (decide (0x100 ≤ off) && decide (b ∈ [Block.pwr, .thm, .adm, .sbd])))
  | none => false

/-! ### What a command leaves -/

/-- Every register but those with keys in `ks` holds what it held. -/
def RegsBut (ks : List Nat) (s t : State) : Prop := ∀ k, k ∉ ks → t.reg k = s.reg k

/-- The keys of what a fault latched on page `p` writes: FLT_LATCH, FLT_INFO and IRQ_STAT (03 R39, R54). -/
def latchKeys (p : Nat) : List Nat := [Key.fltLatch p, Key.fltInfo p, Key.irqStat p]

/-- A fault of cause `c` stands latched on page `p`, with its interrupt source (03 R39, R54). -/
abbrev State.Latched (s : State) (p c : Nat) : Prop := s.bit (Key.fltLatch p) c = true ∧ s.bit (Key.irqStat p) 0 = true

/-- A record of partition `p` about a tag is written into an event queue, or waits for a slot there (04 R68, R74). -/
def State.Posted (s : State) (p : Nat) (tag : BitVec 64) (kind : BitVec 4) (status detail : Nat) : Prop :=
  ∃ e x, x.tag = tag ∧ x.kind = kind ∧ x.status = BitVec.ofNat 8 status ∧ x.detail = BitVec.ofNat 8 detail ∧
    ((∃ slot, ∃ a, Out.eqRec p e slot a x ∈ s.out) ∨ x ∈ (s.eq (4 * p + e)).wait)

/-- A byte of memory as it reads: both tiers, the device regions and Spar SRAM (08 R162, R176). -/
def State.byteAt (s : State) (a : Nat) : Byte := SMap.byte s.mem.bytes a

/-- No byte of memory changes. -/
def SameMemory (s t : State) : Prop := ∀ a, t.byteAt a = s.byteAt a

/-- A sideband request taken: it is outstanding, and counted (25 R603, R609). -/
def State.asked (s : State) : State := ({ s with sbd := { s.sbd with held := s.sbd.held + 1 } } : State).inc Key.sbdRxCnt

/-- What a write of FLT_INJ_CMD with a type and a unit type leaves: the injection armed in place of one that was, where injection is
enabled and its target allowed, else DENIED, with an armed one as it was (24 R598). -/
def State.InjectsAs (s : State) (op utype : Nat) (t : State) : Prop :=
  RegsBut [Key.fltInjStat] s t ∧ SameMemory s t ∧ t.out = s.out ∧ t.fld Key.fltInjStat 7 0 = op ∧
    if s.bit Key.fltInjCtl 0 = true ∧ s.injectionAllowed (s.injectFor op utype) (s.fld Key.fltInjTgt 31 24) = true then
      t.rel.inject = some (s.injectFor op utype) ∧ t.fld Key.fltInjStat 31 30 = 1 ∧
        (t.bit Key.fltInjStat 29 = true ↔ s.rel.inject ≠ none)
    else t.rel.inject = s.rel.inject ∧ t.fld Key.fltInjStat 31 30 = 3

/-- The next macro of walk `id` on Spar `spar` is of row `row` and free to issue into `slot` under plan `b`: the walk runs and no stop of
it is asked for, its word can be read, the Boom and the plan's units are in service, a slot is open, what the plan needs is awake,
and it is the walk's turn (12 R261, R263, R273, R274, R280; 23 R567). -/
abbrev State.Issues (s : State) (spar : BitVec 2) (id : BitVec 6) (row : Nat × Nat) (w : Walk) (b : BoundPlan) (slot : Nat) : Prop :=
  s.walkAt spar.toNat id.toNat = some w ∧ s.stopsHere w = false ∧ w.stopped = false ∧ w.next < w.count ∧ w.test = false ∧
    s.inService ⟨utBoom, spar.toNat, 0⟩ = true ∧ s.poisoned (w.list + 128 * w.next) 128 = none ∧
    macRow (s.macAt w w.next) = row ∧ s.walkPlan w = some b ∧ s.planLost b = false ∧ s.freeSlot spar.toNat = some slot ∧
    s.slotOpen spar.toNat w.part false = true ∧ (s.wakeAll (s.planDomains b)).allAwake (s.planDomains b) = true ∧
    (s.wakeAll (s.planDomains b)).walkTurn w = true

/-- The next macro of a walk issued into a slot, after what its plan needs is woken. -/
def State.issued (s : State) (w : Walk) (b : BoundPlan) (slot : Nat) (chk : Check) (f : Option SparFault) (late : Bool) : State :=
  (s.wakeAll (s.planDomains b)).issueMac w (s.macAt w w.next) b slot s.rel.injected chk f late

end Sys2Proof.Machine
end

