-- ==== Sys2Proof/Certificates/Slice0/Obligations.lean ====
section
/-! DEFINITION. The statements about the block: the machine, then the commands family by family. -/

open Sys2Proof Sys2Proof.Machine

/-! ### The machine -/

/-- A step on a state with a command at the front of the queue is that command's effect on the state with the queue's rest. -/
def Obligations.StepRunsFrontCommand : Prop :=
  ∀ (c : Instr) (rest : List Instr) (s : State),
    step { s with pending := c :: rest } = exec c { s with pending := rest }

/-- A step on an empty queue is one idle cycle, never a fault or a refusal: no command appears, and what was given to the outside stays
given (the model's choice: log entry 12). -/
def Obligations.IdleStepCompletes : Prop :=
  ∀ s : State, s.pending = [] → ∃ t, step s = .next t ∧ t = s.idle ∧ t.pending = [] ∧ s.out <+: t.out

/-- What the spec says of the state right after reset: fault owners, clear locks, enables, conflicts and fault latches, read-only
page identities, no partition in use, memory that reads zero. -/
def Obligations.ResetState : Prop :=
  (∀ p : Nat, (blockOf p).isSome = true →
    State.reset.owner p = (if p ≤ 0xB then 0x01 else 0x03) ∧ State.reset.bit (Key.blkCtrl p) 0 = false ∧
      State.reset.bit (Key.blkCtrl p) 2 = false ∧ State.reset.reg (Key.conflict p) = 0 ∧ State.reset.reg (Key.fltLatch p) = 0)

/-- Right after reset every partition is FREE, no byte of memory reads other than zero, nothing waits and nothing was sent, and the
state is in canonical form. -/
def Obligations.ResetIsEmpty : Prop :=
  State.reset.Canonical ∧ (∀ p : Nat, State.reset.pstate p = psFree) ∧ (∀ a, State.reset.byteAt a = 0) ∧ State.reset.pending = [] ∧ State.reset.out = []

/-- Every step keeps registers and memory in canonical form, from every state that has it. -/
def Obligations.StepKeepsCanonical : Prop :=
  ∀ s t : State, s.Canonical → step s = .next t → t.Canonical

/-- A step takes the front command and no other, takes back nothing that was given to the outside, and takes no free value twice. -/
def Obligations.StepTakesOneCommand : Prop :=
  ∀ s t : State, step s = .next t → t.pending = s.pending.tail ∧ s.out <+: t.out ∧ s.freeCtr ≤ t.freeCtr

/-- No command but a rail's release crossing ever stops: every other one answers a next state for all operands, in every state. -/
def Obligations.CommandsComplete : Prop :=
  ∀ (c : Instr) (s : State),
    (∀ r v, c ≠ .releaseCrossing r v) → ∃ t, exec c s = .next t

/-! ### Register pages (03) -/

/-- A full write of a plain register stores its writable fields and keeps the others, and changes nothing else; this covers the power
cap and the thermal limit, which have rows of their own. -/
def Obligations.RegisterWriteStores : Prop :=
  (∀ (s : State) (m : Master) (p : BitVec 14) (off : BitVec 12) (v : Word),
    plainRegister p.toNat off.toNat = true → s.Takes m p.toNat off.toNat v → s.Uncontested m (regKey p.toNat off.toNat) →
    ∃ t, exec (.registerWrite m (.page p off) 0xF v none) s = .next t ∧
      t.reg (regKey p.toNat off.toNat) =
        wordWritten (fieldsOf (regKey p.toNat off.toNat)) (s.locked p.toNat) v (s.reg (regKey p.toNat off.toNat)) ∧
      RegsBut [regKey p.toNat off.toNat] s t ∧ SameMemory s t ∧ t.out = s.out) ∧
  (∀ (s : State) (m : Master) (v : Word), s.Takes m pgPwr 0x100 v → s.Uncontested m (regKey pgPwr 0x100) →
    ∃ t, exec (.pwrCapWrite m 0xF v) s = .next t ∧
      t.reg (regKey pgPwr 0x100) = wordWritten (fieldsOf (regKey pgPwr 0x100)) (s.locked pgPwr) v (s.reg (regKey pgPwr 0x100)) ∧
      RegsBut [regKey pgPwr 0x100] s t ∧ SameMemory s t ∧ t.out = s.out) ∧
  (∀ (s : State) (m : Master) (v : Word), s.Takes m pgThm 0x100 v → s.Uncontested m (regKey pgThm 0x100) →
    ∃ t, exec (.thmLimitWrite m 0xF v) s = .next t ∧
      t.reg (regKey pgThm 0x100) = wordWritten (fieldsOf (regKey pgThm 0x100)) (s.locked pgThm) v (s.reg (regKey pgThm 0x100)) ∧
      RegsBut [regKey pgThm 0x100] s t ∧ SameMemory s t ∧ t.out = s.out)

/-- R35: a read by a master that Table 3.3 does not permit returns zero and clears nothing, and a write by one that it does not permit is
ignored; both complete normally, with no error raised, and each such write counts in MST_DENY_CNT, which saturates. -/
def Obligations.ForbiddenAccess : Prop :=
  (∀ (s : State) (m : Master) (p : BitVec 14) (off : BitVec 12) (be : BitVec 4), s.Hears m →
    mayRead m p.toNat = false → exec (.rcRead m (.page p off) be none) s = .next (s.emit (.reply m 0))) ∧
  (∀ (s : State) (m : Master) (p : BitVec 14) (off : BitVec 12) (be : BitVec 4) (v : Word), s.Hears m →
    off.toNat ≠ 0x28 → mayWrite m p.toNat off.toNat v = false →
    exec (.registerWrite m (.page p off) be v none) s = .next (s.setReg Key.mstDenyCnt (satInc (s.reg Key.mstDenyCnt)))) ∧
  (∀ (s : State) (m : Master) (p : BitVec 14) (be : BitVec 4) (v : Word), s.Hears m → (blockOf p.toNat).isSome = true →
    isMasthead m = false → masterId m ≠ s.owner p.toNat →
    exec (.ownerWrite m p be v) s = .next (s.setReg Key.mstDenyCnt (satInc (s.reg Key.mstDenyCnt))))

/-- A write with partial byte enables, one that is not aligned, and one to a page whose die is held in reset are ignored and count in
MST_DENY_CNT (R36, R50). -/
def Obligations.PartialWrites : Prop :=
  ∀ (s : State) (m : Master) (p : BitVec 14) (off : BitVec 12) (be : BitVec 4) (v : Word), s.Hears m →
    be ≠ 0xF ∨ off.toNat % 4 ≠ 0 ∨ s.pageDead p.toNat = true →
    exec (.registerWrite m (.page p off) be v none) s = .next (s.setReg Key.mstDenyCnt (satInc (s.reg Key.mstDenyCnt)))

/-- IRQ_STAT bits written 1 clear, a bit written 1 to IRQ_FORCE sets the same bit of IRQ_STAT, and OWNER takes the ID of a master that
can read the page, from MASTHEAD and the fault owner, unless the page is locked. -/
def Obligations.HeaderWrites : Prop :=
  (∀ (s : State) (m : Master) (p : BitVec 14) (v : Word), (blockOf p.toNat).isSome = true → s.Takes m p.toNat 0x10 v →
    s.Uncontested m (Key.irqStat p.toNat) →
    ∃ t, exec (.irqStatClear m p 0xF v) s = .next t ∧ t.reg (Key.irqStat p.toNat) = s.reg (Key.irqStat p.toNat) &&& ~~~v ∧
      RegsBut [Key.irqStat p.toNat] s t ∧ SameMemory s t ∧ t.out = s.out) ∧
  (∀ (s : State) (m : Master) (p : BitVec 14) (v : Word), (blockOf p.toNat).isSome = true → s.Takes m p.toNat 0x18 v →
    ∃ t, exec (.irqForce m p 0xF v) s = .next t ∧ t.reg (Key.irqStat p.toNat) = s.reg (Key.irqStat p.toNat) ||| v ∧
      RegsBut [Key.irqStat p.toNat] s t ∧ SameMemory s t) ∧
  (∀ (s : State) (m : Master) (p : BitVec 14) (v : Word), (blockOf p.toNat).isSome = true →
    isMasthead m = true ∨ masterId m = s.owner p.toNat → s.Readable m p.toNat → s.InOrder m p.toNat → idMayRead (getBits v 7 0) p.toNat = true →
    s.Uncontested m (Key.owner p.toNat) →
    ∃ t, exec (.ownerWrite m p 0xF v) s = .next t ∧
      t.owner p.toNat = (if s.locked p.toNat then s.owner p.toNat else getBits v 7 0) ∧
      RegsBut [Key.owner p.toNat] s t ∧ SameMemory s t ∧ t.out = s.out)

/-- LOCK sets the lock of a page that is not locked. SOFT_RESET of a page that is not locked and not enabled clears its interrupts, their
enables and its control bits, keeps owner and fault latch, and reaches no other page; the link order and the watermark bits that
the CLK and KVP pages follow with are left to those pages. -/
def Obligations.LockAndSoftReset : Prop :=
  (∀ (s : State) (m : Master) (p : BitVec 14) (v : Word), (blockOf p.toNat).isSome = true → s.Takes m p.toNat 8 (v ||| 4) →
    s.Uncontested m (Key.blkCtrl p.toNat) → s.locked p.toNat = false → getBits v 1 1 = 0 →
    ∃ t, exec (.lock m p 0xF v) s = .next t ∧ t.bit (Key.blkCtrl p.toNat) 2 = true ∧
      t.bit (Key.blkCtrl p.toNat) 0 = decide (getBits v 0 0 = 1) ∧
      RegsBut [Key.blkCtrl p.toNat] s t ∧ SameMemory s t ∧ t.out = s.out) ∧
  (∀ (s : State) (m : Master) (p : BitVec 14) (v : Word), (blockOf p.toNat).isSome = true → s.Takes m p.toNat 8 (v ||| 2) →
    s.Uncontested m (Key.blkCtrl p.toNat) → s.locked p.toNat = false → getBits v 2 0 = 0 → s.RegsCanonical →
    p.toNat ≠ pgClk → p.toNat ≠ pgKvp →
    ∃ t, exec (.softReset m p 0xF v) s = .next t ∧ t.reg (Key.blkCtrl p.toNat) = 0 ∧ t.reg (Key.irqStat p.toNat) = 0 ∧
      t.reg (Key.irqEn p.toNat) = 0 ∧ t.reg (Key.owner p.toNat) = s.reg (Key.owner p.toNat) ∧
      t.reg (Key.fltLatch p.toNat) = s.reg (Key.fltLatch p.toNat) ∧ t.reg (Key.fltInfo p.toNat) = s.reg (Key.fltInfo p.toNat) ∧
      (∀ k, k / 1024 ≠ p.toNat → t.reg k = s.reg k) ∧ SameMemory s t ∧ t.out = s.out)

/-- R37: only the fault owner's read of FLT_LATCH clears it, and that read also clears FLT_INFO; a read by any other master returns the
value and clears nothing; FLT_PEEK always returns the latched value and never clears. (Reads return what was held before the
cycle's accesses, so the cycle is taken to have none before.) -/
def Obligations.FaultLatchReads : Prop :=
  (∀ (s : State) (m : Master) (p : BitVec 14), (blockOf p.toNat).isSome = true → s.Readable m p.toNat → s.FreshCycle →
    s.owner p.toNat = masterId m →
    ∃ t, exec (.fltLatchRead m p 0xF) s = .next t ∧ t.out = s.out ++ [.reply m (s.reg (Key.fltLatch p.toNat))] ∧
      t.reg (Key.fltLatch p.toNat) = 0 ∧ t.reg (Key.fltInfo p.toNat) = 0 ∧
      RegsBut [Key.fltLatch p.toNat, Key.fltInfo p.toNat, Key.fltPend (p.toNat / 32)] s t ∧ SameMemory s t) ∧
  (∀ (s : State) (m : Master) (p : BitVec 14), (blockOf p.toNat).isSome = true → s.Readable m p.toNat → s.FreshCycle →
    s.owner p.toNat ≠ masterId m →
    exec (.fltLatchRead m p 0xF) s = .next (s.emit (.reply m (s.reg (Key.fltLatch p.toNat))))) ∧
  (∀ (s : State) (m : Master) (p : BitVec 14), (blockOf p.toNat).isSome = true → s.Readable m p.toNat → s.FreshCycle →
    exec (.rcRead m (.page p 0x20) 0xF none) s = .next (s.emit (.reply m (s.reg (Key.fltLatch p.toNat)))))

/-- A full read returns the register and clears its counts; a read of CONFLICT clears it; a read of TTL_NOW_LO latches the upper half
of the Telltale count; a partial read has none of these effects (03 R36, R41, R47; 20 R503). -/
def Obligations.ReadsAndTheirEffects : Prop :=
  (∀ (s : State) (m : Master) (p : BitVec 14) (off : BitVec 12), off.toNat % 4 = 0 → s.Readable m p.toNat → s.FreshCycle →
    off.toNat ≠ 0x1C → off.toNat ≠ 0x2C → ¬ (p.toNat = pgTtl ∧ off.toNat = 0x100) →
    ∃ t, exec (.rcRead m (.page p off) 0xF none) s = .next t ∧ t.out = s.out ++ [.reply m (s.view p.toNat off.toNat)] ∧
      (∀ f ∈ fieldsOf (regKey p.toNat off.toNat), f.acc = .rc → t.fld (regKey p.toNat off.toNat) f.hi f.lo = 0) ∧
      RegsBut [regKey p.toNat off.toNat] s t ∧ SameMemory s t) ∧
  (∀ (s : State) (m : Master) (p : BitVec 14), s.Readable m p.toNat → s.FreshCycle →
    ∃ t, exec (.conflictRead m p 0xF) s = .next t ∧ t.out = s.out ++ [.reply m (s.view p.toNat 0x2C)] ∧
      t.reg (Key.conflict p.toNat) = 0 ∧ RegsBut [Key.conflict p.toNat] s t ∧ SameMemory s t) ∧
  (∀ (s : State) (m : Master), s.Readable m pgTtl → s.FreshCycle →
    ∃ t, exec (.ttlNowRead m 0xF) s = .next t ∧ t.out = s.out ++ [.reply m (BitVec.ofNat 32 s.time.count.toNat)] ∧
      t.time.shadow = BitVec.ofNat 32 (s.time.count.toNat / 2 ^ 32) ∧ RegsBut [] s t ∧ SameMemory s t) ∧
  (∀ (s : State) (m : Master) (p : BitVec 14) (off : BitVec 12) (be : BitVec 4), s.Readable m p.toNat → be ≠ 0xF →
    ∃ v, exec (.rcRead m (.page p off) be none) s = .next (s.emit (.reply m v)))

/-- The device-event queue: a release moves its head, enabling it empties it, and each latched fault is aggregated into the next entry of
the fault log, its page marked pending (24 R596, 28 R663). -/
def Obligations.DeviceEventQueue : Prop :=
  (∀ (s : State) (m : Master) (v : Word), s.Takes m pgPci 0x120 v → s.Uncontested m Key.pciDeqHead →
    s.bit Key.pciDeqCfg 31 = true → getBits v 15 0 < s.eqDepth 512 →
    (getBits v 15 0 + s.eqDepth 512 - s.fld Key.pciDeqHead 15 0) % s.eqDepth 512 ≤ (s.eq 512).used →
    ∃ t, exec (.deqHead m 0xF v) s = .next t ∧ t.fld Key.pciDeqHead 15 0 = getBits v 15 0 ∧
      (t.eq 512).used = (s.eq 512).used - (getBits v 15 0 + s.eqDepth 512 - s.fld Key.pciDeqHead 15 0) % s.eqDepth 512 ∧
      RegsBut [Key.pciDeqHead] s t ∧ SameMemory s t) ∧
  (∀ (s : State) (m : Master) (v : Word), s.Takes m pgPci 0x118 (v ||| 0x80000000) → s.Uncontested m Key.pciDeqCfg →
    s.bit Key.pciDeqCfg 31 = false → 5 ≤ getBits v 15 12 →
    ∃ t, exec (.deqEnable m 0xF v) s = .next t ∧ t.bit Key.pciDeqCfg 31 = true ∧ t.fld Key.pciDeqCfg 15 12 = getBits v 15 12 ∧
      t.fld Key.pciDeqTail 15 0 = 0 ∧ t.fld Key.pciDeqHead 15 0 = 0 ∧ (t.eq 512).used = 0 ∧
      RegsBut [Key.pciDeqCfg, Key.pciDeqTail, Key.pciDeqHead] s t ∧ SameMemory s t) ∧
  (∀ (s : State) (p c detail time : Nat), s.rel.fresh = [(p, c, detail, time)] → p < 0x1E0 → s.bit Key.pciDeqCfg 31 = false →
    ∃ t, exec .faultAggregate s = .next t ∧ t.rel.fresh = [] ∧ t.rel.logNext = (s.rel.logNext + 1) % 64 ∧
      t.reg (Key.fltLog s.rel.logNext 0) = BitVec.ofNat 32 (c * 2 ^ 27 + p) ∧
      t.reg (Key.fltLog s.rel.logNext 1) = BitVec.ofNat 32 detail ∧
      (s.reg (Key.fltLatch p) ≠ 0 → t.bit (Key.fltPend (p / 32)) (p % 32) = true) ∧ t.bit (Key.irqStat pgFlt) 2 = true ∧
      SameMemory s t)

/-! ### Queues and descriptors (04) -/

/-- Doorbells: an SQ tail and an EQ head that an uncontested write within range moves stand as written, and the EQ head releases slots; a
doorbell of a disabled queue, and one out of range, change nothing but the fault latch of the doorbell page, with its interrupt. -/
def Obligations.Doorbells : Prop :=
  (∀ (s : State) (m : Master) (p : BitVec 7) (q : BitVec 3) (v : Word),
    s.Takes m (pgDbl p.toNat) (0x100 + 4 * q.toNat) v → s.Uncontested m (Key.dblSq p.toNat q.toNat) →
    s.bit (Key.prtSqCfg p.toNat q.toNat) 31 = true → getBits v 11 0 < s.sqDepth p.toNat q.toNat →
    (s.fld (Key.dblSq p.toNat q.toNat) 11 0 + s.sqDepth p.toNat q.toNat - s.fld (Key.prtSqHead p.toNat q.toNat) 11 0)
        % s.sqDepth p.toNat q.toNat
      + (getBits v 11 0 + s.sqDepth p.toNat q.toNat - s.fld (Key.dblSq p.toNat q.toNat) 11 0) % s.sqDepth p.toNat q.toNat
      < s.sqDepth p.toNat q.toNat →
    ∃ t, exec (.sqDoorbell m p q 0xF v) s = .next t ∧ t.fld (Key.dblSq p.toNat q.toNat) 11 0 = getBits v 11 0 ∧
      t.fld (Key.prtSqHead p.toNat q.toNat) 11 0 = s.fld (Key.prtSqHead p.toNat q.toNat) 11 0 ∧ SameMemory s t ∧ t.out = s.out) ∧
  (∀ (s : State) (m : Master) (p : BitVec 7) (e : BitVec 2) (v : Word),
    s.Takes m (pgDbl p.toNat) (0x120 + 4 * e.toNat) v → s.Uncontested m (Key.dblEq p.toNat e.toNat) →
    s.bit (Key.prtEqCfg p.toNat e.toNat) 31 = true → getBits v 15 0 < s.eqDepth (4 * p.toNat + e.toNat) →
    s.fld (Key.dblEq p.toNat e.toNat) 15 0 < s.eqDepth (4 * p.toNat + e.toNat) →
    (getBits v 15 0 + s.eqDepth (4 * p.toNat + e.toNat) - s.fld (Key.dblEq p.toNat e.toNat) 15 0)
        % s.eqDepth (4 * p.toNat + e.toNat) ≤ (s.eq (4 * p.toNat + e.toNat)).used →
    (s.eq (4 * p.toNat + e.toNat)).wait = [] →
    ∃ t, exec (.eqDoorbell m p e 0xF v) s = .next t ∧ t.fld (Key.dblEq p.toNat e.toNat) 15 0 = getBits v 15 0 ∧
      (t.eq (4 * p.toNat + e.toNat)).used = (s.eq (4 * p.toNat + e.toNat)).used -
        (getBits v 15 0 + s.eqDepth (4 * p.toNat + e.toNat) - s.fld (Key.dblEq p.toNat e.toNat) 15 0)
          % s.eqDepth (4 * p.toNat + e.toNat) ∧
      RegsBut [Key.dblEq p.toNat e.toNat] s t ∧ SameMemory s t ∧ t.out = s.out) ∧
  (∀ (s : State) (m : Master) (p : BitVec 7) (q : BitVec 3) (v : Word),
    s.Takes m (pgDbl p.toNat) (0x100 + 4 * q.toNat) v → s.bit (Key.prtSqCfg p.toNat q.toNat) 31 = false →
    ∃ t, exec (.sqDoorbell m p q 0xF v) s = .next t ∧ t.Latched (pgDbl p.toNat) 2 ∧
      RegsBut (latchKeys (pgDbl p.toNat)) s t ∧ SameMemory s t) ∧
  (∀ (s : State) (m : Master) (p : BitVec 7) (q : BitVec 3) (v : Word),
    s.Takes m (pgDbl p.toNat) (0x100 + 4 * q.toNat) v → s.bit (Key.prtSqCfg p.toNat q.toNat) 31 = true →
    s.sqDepth p.toNat q.toNat ≤ getBits v 11 0 →
    ∃ t, exec (.sqDoorbell m p q 0xF v) s = .next t ∧ t.Latched (pgDbl p.toNat) 0 ∧
      RegsBut (latchKeys (pgDbl p.toNat)) s t ∧ SameMemory s t)

/-- Enabling a queue of a legal size empties it, and disabling it clears its enable bit, in a partition that is neither FREE nor
RELEASING; a moderation timer that has run out signals its queue and is reset, and a reread of an output ring takes its new count. -/
def Obligations.QueuesAndTimers : Prop :=
  (∀ (s : State) (m : Master) (p : BitVec 7) (q : BitVec 3) (v : Word),
    s.Takes m (pgPrt p.toNat) (0x208 + 0x10 * q.toNat) (v ||| 0x80000000) → s.Uncontested m (Key.prtSqCfg p.toNat q.toNat) →
    s.bit (Key.prtSqCfg p.toNat q.toNat) 31 = false → s.pstate p.toNat ≠ psFree → s.pstate p.toNat ≠ psReleasing →
    4 ≤ getBits v 15 12 → getBits v 15 12 ≤ 12 →
    ∃ t, exec (.sqEnable m p q 0xF v) s = .next t ∧ t.bit (Key.prtSqCfg p.toNat q.toNat) 31 = true ∧
      t.bit (Key.prtSqCfg p.toNat q.toNat) 30 = false ∧ t.sqDepth p.toNat q.toNat = 2 ^ getBits v 15 12 ∧
      t.fld (Key.prtSqHead p.toNat q.toNat) 11 0 = 0 ∧ t.fld (Key.dblSq p.toNat q.toNat) 11 0 = 0 ∧
      RegsBut [Key.prtSqCfg p.toNat q.toNat, Key.prtSqHead p.toNat q.toNat, Key.dblSq p.toNat q.toNat] s t ∧ SameMemory s t ∧
      t.out = s.out) ∧
  (∀ (s : State) (m : Master) (p : BitVec 7) (q : BitVec 3) (v : Word),
    s.Takes m (pgPrt p.toNat) (0x208 + 0x10 * q.toNat) (v &&& 0x7FFFFFFF) → s.Uncontested m (Key.prtSqCfg p.toNat q.toNat) →
    s.bit (Key.prtSqCfg p.toNat q.toNat) 31 = true →
    ∃ t, exec (.sqDisable m p q 0xF v) s = .next t ∧ t.bit (Key.prtSqCfg p.toNat q.toNat) 31 = false ∧
      t.fld (Key.prtSqCfg p.toNat q.toNat) 15 12 = s.fld (Key.prtSqCfg p.toNat q.toNat) 15 12 ∧
      RegsBut [Key.prtSqCfg p.toNat q.toNat] s t ∧ SameMemory s t ∧ t.out = s.out) ∧
  (∀ (s : State) (m : Master) (p : BitVec 7) (e : BitVec 2) (v : Word),
    s.Takes m (pgPrt p.toNat) (0x288 + 0x10 * e.toNat) (v ||| 0x80000000) → s.Uncontested m (Key.prtEqCfg p.toNat e.toNat) →
    s.bit (Key.prtEqCfg p.toNat e.toNat) 31 = false → s.pstate p.toNat ≠ psFree → s.pstate p.toNat ≠ psReleasing →
    5 ≤ getBits v 15 12 → (s.eq (4 * p.toNat + e.toNat)).wait = [] →
    ∃ t, exec (.eqEnable m p e 0xF v) s = .next t ∧ t.bit (Key.prtEqCfg p.toNat e.toNat) 31 = true ∧
      t.fld (Key.prtEqTail p.toNat e.toNat) 15 0 = 0 ∧ t.fld (Key.dblEq p.toNat e.toNat) 15 0 = 0 ∧
      (t.eq (4 * p.toNat + e.toNat)).used = 0 ∧
      RegsBut [Key.prtEqCfg p.toNat e.toNat, Key.prtEqTail p.toNat e.toNat, Key.dblEq p.toNat e.toNat] s t ∧ SameMemory s t ∧
      t.out = s.out) ∧
  (∀ (s : State) (m : Master) (p : BitVec 7) (e : BitVec 2) (v : Word),
    s.Takes m (pgPrt p.toNat) (0x288 + 0x10 * e.toNat) (v &&& 0x7FFFFFFF) → s.Uncontested m (Key.prtEqCfg p.toNat e.toNat) →
    s.bit (Key.prtEqCfg p.toNat e.toNat) 31 = true →
    ∃ t, exec (.eqDisable m p e 0xF v) s = .next t ∧ t.bit (Key.prtEqCfg p.toNat e.toNat) 31 = false ∧
      t.fld (Key.prtEqCfg p.toNat e.toNat) 15 12 = s.fld (Key.prtEqCfg p.toNat e.toNat) 15 12 ∧
      RegsBut [Key.prtEqCfg p.toNat e.toNat] s t ∧ SameMemory s t ∧ t.out = s.out) ∧
  (∀ (s : State) (p : BitVec 7) (e : BitVec 2), s.modDue (4 * p.toNat + e.toNat) = true →
    ∃ t, exec (.moderationTimer (some (p, e))) s = .next t ∧ (t.eq (4 * p.toNat + e.toNat)).count = 0 ∧
      (t.eq (4 * p.toNat + e.toNat)).since = none ∧ RegsBut [] s t ∧ SameMemory s t) ∧
  (∀ s : State, s.modDue 512 = true →
    ∃ t, exec (.moderationTimer none) s = .next t ∧ (t.eq 512).count = 0 ∧ (t.eq 512).since = none ∧ RegsBut [] s t ∧
      SameMemory s t) ∧
  (∀ (s : State) (p : BitVec 7) (tag : BitVec 64) (c : Word) (r : Req), s.req p.toNat tag = some r → r.active = true → r.owed ≠ [] →
    r.lastRead + 1000 ≤ s.tick →
    ∃ t r', exec (.outputRingReread p tag (some c)) s = .next t ∧ t.req p.toNat tag = some r' ∧ r'.consumed = c.toNat ∧
      r'.lastRead = s.tick ∧ r'.answer = r.answer ∧ SameMemory s t)

/-- Descriptors: a fetch error stops its queue and latches SQ_FETCH; a NOP completes OK; a CANCEL with no live target completes OK at once,
and a running target is marked to stop; an UNLOAD_MODEL of a loaded image marks it. Each descriptor that is served leaves its slot. -/
def Obligations.DescriptorsServed : Prop :=
  (∀ (s : State) (p : BitVec 7) (q : BitVec 3), s.fetchTurn p.toNat q.toNat = true →
    ∃ t, exec (.fetchError p q) s = .next t ∧ t.bit (Key.prtSqCfg p.toNat q.toNat) 30 = true ∧ t.Latched (pgDbl p.toNat) 3 ∧
      RegsBut (Key.prtSqCfg p.toNat q.toNat :: latchKeys (pgDbl p.toNat)) s t ∧ SameMemory s t) ∧
  (∀ (s : State) (p : BitVec 7) (q : BitVec 3) (d : BitVec 1024), s.fetchTurn p.toNat q.toNat = true → descType d = 0x03 →
    s.ready = true → (s.fetched p.toNat q.toNat).descCheck p.toNat d false = none →
    ∃ t, exec (.nop p q d) s = .next t ∧ t.Posted p.toNat (descTag d) kCompletion stOk 0 ∧
      t.fld (Key.prtSqHead p.toNat q.toNat) 11 0
        = (s.fld (Key.prtSqHead p.toNat q.toNat) 11 0 + 1) % s.sqDepth p.toNat q.toNat % 4096 ∧ SameMemory s t) ∧
  (∀ (s : State) (p : BitVec 7) (q : BitVec 3) (d : BitVec 1024), s.fetchTurn p.toNat q.toNat = true → descType d = 0x02 →
    s.ready = true → (s.fetched p.toNat q.toNat).descCheck p.toNat d false = none → s.req p.toNat (BitVec.ofNat 64 (dfield d 0x10 0 64)) = none →
    ∃ t, exec (.cancel p q d) s = .next t ∧ t.Posted p.toNat (descTag d) kCompletion stOk 0 ∧ SameMemory s t) ∧
  (∀ (s : State) (p : BitVec 7) (q : BitVec 3) (d : BitVec 1024) (r : Req), s.fetchTurn p.toNat q.toNat = true → descType d = 0x02 →
    s.ready = true → (s.fetched p.toNat q.toNat).descCheck p.toNat d false = none → s.req p.toNat (BitVec.ofNat 64 (dfield d 0x10 0 64)) = some r →
    r.active = true → r.phase = .decode → r.preempted = false → r.lane = true → r.owed = [] → s.reqRing r = none →
    ∃ t, exec (.cancel p q d) s = .next t ∧
      t.req p.toNat r.tag = some { r with stop := some (stCancelledHost, 0), stopCause := some .cancel } ∧ SameMemory s t ∧
      t.out = (s.readSlot p.toNat q.toNat).out) ∧
  (∀ (s : State) (p : BitVec 7) (q : BitVec 3) (d : BitVec 1024) (m : Model), s.fetchTurn p.toNat q.toNat = true →
    descType d = 0x05 → s.ready = true → (s.fetched p.toNat q.toNat).descCheck p.toNat d false = none → dfield d 0x04 0 16 ≠ 0 →
    s.model p.toNat (dfield d 0x04 0 16) = some m → m.st = .loaded →
    ∃ t, exec (.unloadModel p q d) s = .next t ∧ t.model p.toNat (dfield d 0x04 0 16) = some { m with st := .unloading } ∧
      SameMemory s t ∧ t.out = (s.readSlot p.toNat q.toNat).out)

/-- Requests and images enter: a served REQUEST that passes every check is decided by the admission procedure, one that arrives while
start-up runs or while its partition is not ACTIVE completes REFUSED_STOPPED, and so does a LOAD_MODEL; a loaded image completes its
LOAD_MODEL and is ready, and an image that no request uses is released. -/
def Obligations.RequestsAndImages : Prop :=
  (∀ (s : State) (p : BitVec 7) (q : BitVec 3) (d : BitVec 1024) (frame : HostRead (List Word)) (toks : List Word) (long : Bool),
    s.fetchTurn p.toNat q.toNat = true → descType d = 0x01 → s.ready = true → s.pstate p.toNat = psActive →
    (s.part p.toNat).keyOwed = false → (s.part p.toNat).flr = false →
    (s.fetched p.toNat q.toNat).descCheck p.toNat d
      ((s.fetched p.toNat q.toNat).requestFieldBad p.toNat (reqDesc d) (dfield d 0x10 0 64)) = none →
    (s.fetched p.toNat q.toNat).frameCheck p.toNat (reqDesc d) frame = .inr (toks, long) →
    (s.fetched p.toNat q.toNat).modelCheck p.toNat (reqDesc d) = none →
    ∃ (t u : State) (r : Req), exec (.request p q d frame) s = .next t ∧ t = u.admitNow r ∧ u.reqs = s.reqs ++ [r] ∧
      r.part = p.toNat ∧ r.tag = descTag d ∧ r.tokens = toks ∧ r.d = reqDesc d ∧ r.frameLong = long ∧ r.phase = .deferred ∧ SameMemory s u) ∧
  (∀ (s : State) (p : BitVec 7) (q : BitVec 3) (d : BitVec 1024) (frame : HostRead (List Word)),
    s.fetchTurn p.toNat q.toNat = true → descType d = 0x01 → s.ready = false →
    ∃ t, exec (.request p q d frame) s = .next t ∧ t.Posted p.toNat (descTag d) kCompletion stRefusedStopped 0x01 ∧ SameMemory s t) ∧
  (∀ (s : State) (p : BitVec 7) (q : BitVec 3) (d : BitVec 1024) (image : HostRead (List Byte)),
    s.fetchTurn p.toNat q.toNat = true → descType d = 0x04 → s.ready = true → s.pstate p.toNat = psActive →
    (s.part p.toNat).keyOwed = false → (s.part p.toNat).flr = false →
    (s.fetched p.toNat q.toNat).descCheck p.toNat d (otherFieldBad (descType d) d) = none →
    exec (.loadModel p q d image) s = .next ((s.fetched p.toNat q.toNat).serveLoad p.toNat q.toNat d image)) ∧
  (∀ (s : State) (p : BitVec 7) (q : BitVec 3) (d : BitVec 1024) (image : HostRead (List Byte)),
    s.fetchTurn p.toNat q.toNat = true → descType d = 0x04 → s.ready = false →
    ∃ t, exec (.loadModel p q d image) s = .next t ∧ t.Posted p.toNat (descTag d) kCompletion stRefusedStopped 0x01 ∧
      SameMemory s t) ∧
  (∀ (s : State) (p : BitVec 7) (h : BitVec 16) (m : Model) (x : Desc), s.model p.toNat h.toNat = some m → m.st = .loading →
    m.placed = true → (s.descs.find? fun d => decide (d.part = p.toNat) && decide (d.kind = .load h.toNat) && !d.ended) = some x →
    ∃ t, exec (.modelLoadComplete p h) s = .next t ∧ t.model p.toNat h.toNat = some { m with st := .loaded } ∧
      t.Posted p.toNat x.tag kCompletion stOk 0 ∧ SameMemory s t) ∧
  (∀ (s : State) (p : BitVec 7) (h : BitVec 16) (m : Model), s.model p.toNat h.toNat = some m → m.st = .unloading →
    (s.reqs.any fun r => decide (r.part = p.toNat) && decide (r.d.model = h.toNat)) = false →
    ∃ t, exec (.unloadComplete p h) s = .next t ∧ t.model p.toNat h.toNat = none ∧
      (∀ x ∈ t.fab.plans, ¬ (x.part = p.toNat ∧ x.handle = h.toNat)))

/-! ### Requests and steps (07, 02) -/

/-- The steps of a request: the lookup of one with no scope leads to its prefill; a prefill page step goes to the next page or layer; a
decode step takes the token as the next of the answer, and the last one leads to the final pass; a preempted request with a lane free
resumes; the final pass completes the request; and a rerun of deferred requests passes the turn to the next partition. -/
def Obligations.RequestSteps : Prop :=
  (∀ (s : State) (p : BitVec 7) (tag : BitVec 64) (r : Req), s.req p.toNat tag = some r → r.phase = .lookup → r.lane = true →
    r.scope = .none →
    ∃ t, exec (.prefixLookup p tag none) s = .next t ∧ t.req p.toNat tag = some { r with phase := .prefill, layer := 0, qpage := 0 } ∧
      RegsBut [] s t ∧ SameMemory s t ∧ t.out = s.out) ∧
  (∀ (s : State) (p : BitVec 7) (tag : BitVec 64) (token : BitVec 18) (r : Req) (m : Model) (l q : Nat), s.req p.toNat tag = some r → r.phase = .prefill →
    r.lane = true → r.preempted = false → s.ringRuns r = true → r.stop = none → r.marked = none →
    s.model r.part r.d.model = some m →
    nextStep (r.spliced / 256) (s.promptPages r.d).1 (max 1 m.layerCount) r.layer r.qpage = some (l, q) →
    ∃ t, exec (.prefillPageStep p tag token) s = .next t ∧ t.req p.toNat tag = some { r with layer := l, qpage := q } ∧
      RegsBut [] s t ∧ SameMemory s t ∧ t.out = s.out) ∧
  (∀ (s : State) (p : BitVec 7) (tag : BitVec 64) (token : BitVec 18) (r : Req), s.req p.toNat tag = some r → r.phase = .decode →
    r.lane = true → r.preempted = false → r.owed = [] → s.ringRuns r = true → s.stepTurn r = true → r.stop = none → r.marked = none →
    r.drawn = none → r.masses = [] → s.paging.promote = [] →
    ∃ t r', exec (.decodeStep p tag token [] none) s = .next t ∧ t.req p.toNat tag = some r' ∧ r'.j = r.j + 1 ∧
      r'.answer = r.answer ++ [token.zeroExtend 32] ∧
      r'.phase = (if token.zeroExtend 32 ∈ r.d.stops ∨ r.d.maxNew ≤ r.j + 1 ∨ s.limitOf r.d ≤ r.d.count + (r.j + 1) then .final
        else .decode) ∧ SameMemory s t) ∧
  (∀ (s : State) (p : BitVec 7) (tag : BitVec 64) (r : Req), s.req p.toNat tag = some r → r.active = true → r.preempted = true →
    s.laneFree p.toNat r.inDecode = true → s.waitingBefore r = [] → s.mem.poison = [] →
    ∃ t r', exec (.resume p tag) s = .next t ∧ t.req p.toNat tag = some r' ∧ r'.preempted = false ∧ r'.lane = true ∧
      r'.phase = r.phase) ∧
  (∀ (s : State) (p : BitVec 7) (tag : BitVec 64) (r : Req), s.req p.toNat tag = some r → r.phase = .final → r.lane = true →
    r.preempted = false → r.owed = [] → s.reqRing r = none → s.stepTurn r = true → s.appended r = true → r.stop = none →
    r.adopted = false → 3 < r.fin.1 →
    ∃ t, exec (.finalPass p tag) s = .next t ∧ t.Posted p.toNat tag kCompletion r.fin.1 r.fin.2) ∧
  (∀ (s : State) (p : BitVec 7), firstFrom 128 s.rr.adm s.hasDeferred = some p.toNat →
    ∃ t, exec (.deferredRerun p) s = .next t ∧ t.rr.adm = (p.toNat + 1) % 128 ∧
      t.reqs = (s.rerun p.toNat s.reqs.length).reqs)

/-! ### Memory ordering (05) -/

/-- An access of an agent that nothing holds back, part by part: a store puts its bytes in memory and no others, at once or, when it is
late, later; a load and a load-acquire return the bytes that stand there; a store-release leaves no access before it outstanding.
An access of a reserved address completes: a load with zero data, a store without effect, and a fault is latched (05 R88 to R91; 08
Table 8.2, R160). -/
def Obligations.AgentAccesses : Prop :=
  (∀ (s : State) (a : Agent) (dpa : BitVec 43) (data : List Byte), s.Unhindered a → s.Reaches a dpa.toNat data.length →
    s.paging.flight = [] →
    ∃ t, exec (.plainStore a dpa data false) s = .next t ∧ t.rd dpa.toNat data.length = data ∧
      (∀ x, x < dpa.toNat ∨ dpa.toNat + data.length ≤ x → t.byteAt x = s.byteAt x) ∧ (t.agent a).open_ = [] ∧ RegsBut [] s t ∧
      t.out = s.out) ∧
  (∀ (s : State) (a : Agent) (dpa : BitVec 43) (data : List Byte), (s.agent a).sync = false →
    ∃ t, exec (.plainStore a dpa data true) s = .next t ∧
      (t.agent a).open_ = (s.agent a).open_ ++ ({ store := true, sem := false, dpa := dpa.toNat, len := data.length, data := data
                                                  late := true, after := s.issuedBy a } : MemOp).parts ∧
      RegsBut [] s t ∧ SameMemory s t ∧ t.out = s.out) ∧
  (∀ (s : State) (a : Agent) (dpa : BitVec 43) (len : Nat), (s.agent a).sync = false →
    ∃ t, exec (.plainLoad a dpa len true) s = .next t ∧
      (t.agent a).open_ = (s.agent a).open_ ++ ({ store := false, sem := false, dpa := dpa.toNat, len := len, late := true
                                                  after := s.issuedBy a } : MemOp).parts ∧
      RegsBut [] s t ∧ SameMemory s t ∧ t.out = s.out) ∧
  (∀ (s : State) (a : Agent) (dpa : BitVec 43) (len : Nat), s.Unhindered a → s.Reaches a dpa.toNat len → s.CleanMemory →
    (∃ t, exec (.plainLoad a dpa len false) s = .next t ∧ t.out = s.out ++ (pieces len dpa.toNat len).map (fun x =>
        Out.loaded a x.1 (s.rd x.1 x.2) false) ∧ (t.agent a).open_ = [] ∧ RegsBut [] s t ∧ SameMemory s t) ∧
      ∃ t, exec (.loadAcquire a dpa len) s = .next t ∧ t.out = s.out ++ (pieces len dpa.toNat len).map (fun x =>
        Out.loaded a x.1 (s.rd x.1 x.2) false) ∧ (t.agent a).open_ = [] ∧ RegsBut [] s t ∧ SameMemory s t) ∧
  (∀ (s : State) (a : Agent) (dpa : BitVec 43) (data : List Byte), (s.agent a).sync = false → (∀ m ∈ s.fab.flight, m.done = true) →
    data ≠ [] → ∃ t, exec (.storeRelease a dpa data false) s = .next t ∧ (t.agent a).open_ = []) ∧
  (∀ (s : State) (a : Agent) (dpa : BitVec 43) (data : List Byte), s.Unhindered a → s.Reaches a dpa.toNat data.length →
    s.paging.flight = [] →
    ∃ t, exec (.storeRelease a dpa data false) s = .next t ∧ t.rd dpa.toNat data.length = data ∧
      (∀ x, x < dpa.toNat ∨ dpa.toNat + data.length ≤ x → t.byteAt x = s.byteAt x) ∧ RegsBut [] s t ∧ t.out = s.out) ∧
  (∀ (s : State) (a : Agent) (dpa : BitVec 43) (len : Nat), s.Unhindered a → 0 < len → (∀ i, i < len → memDie (dpa.toNat + i) = none) →
    ∃ t, exec (.plainLoad a dpa len false) s = .next t ∧ t.Latched pgFlt 0 ∧
      (∀ x ∈ pieces len dpa.toNat len, Out.loaded a x.1 (List.replicate x.2 0) false ∈ t.out) ∧
      RegsBut (latchKeys pgFlt) s t ∧ SameMemory s t) ∧
  (∀ (s : State) (a : Agent) (dpa : BitVec 43) (data : List Byte), s.Unhindered a → data ≠ [] →
    (∀ i, i < data.length → memDie (dpa.toNat + i) = none) →
    ∃ t, exec (.plainStore a dpa data false) s = .next t ∧ t.Latched pgFlt 0 ∧ RegsBut (latchKeys pgFlt) s t ∧ SameMemory s t)

/-- R93: a SYNC completes only when every access of its agent that precedes it is performed, those of its Boom's macros among them, and
no access that follows it starts before it completes: a memory access and a register access of its core wait behind it, and a macro
that its Boom issued later is not performed. -/
def Obligations.SyncHoldsBack : Prop :=
  (∀ (s : State) (a : Agent), (s.agent a).sync = false →
    ∃ t, exec (.sync a) s = .next t ∧ (t.agent a).sync = true ∧ (t.agent a).syncAfter = s.issuedBy a ∧
      (t.agent a).open_ = (s.agent a).open_ ∧ RegsBut [] s t ∧ SameMemory s t ∧ t.out = s.out) ∧
  (∀ (s : State) (a : Agent) (o : MemOp), (s.agent a).sync = true →
    ((s.access a o).agent a).behind = (s.agent a).behind ++ [.mem o] ∧ ((s.access a o).agent a).open_ = (s.agent a).open_ ∧
      RegsBut [] s (s.access a o) ∧ SameMemory s (s.access a o) ∧ (s.access a o).out = s.out) ∧
  (∀ (s : State) (a : Agent) (dpa : BitVec 43) (len : Nat) (data : List Byte) (late : Bool),
    exec (.plainLoad a dpa len late) s
      = .next (s.access a { store := false, sem := false, dpa := dpa.toNat, len := len, late := late }) ∧
    exec (.loadAcquire a dpa len) s = .next (s.access a { store := false, sem := true, dpa := dpa.toNat, len := len }) ∧
    exec (.plainStore a dpa data late) s
      = .next (s.access a { store := true, sem := false, dpa := dpa.toNat, len := data.length, data := data, late := late }) ∧
    exec (.storeRelease a dpa data late) s
      = .next (s.access a { store := true, sem := true, dpa := dpa.toNat, len := data.length, data := data, late := late })) ∧
  (∀ (s : State) (c : BitVec 1) (p : BitVec 14) (off : BitVec 12) (be : BitVec 4) (v : Word), s.boot.opDone = false →
    (s.agent (.core c)).sync = true →
    (∃ t, exec (.registerWrite (.masthead c) (.page p off) be v none) s = .next t ∧
      (t.agent (.core c)).behind = (s.agent (.core c)).behind ++ [.write (.page p off) be v] ∧ RegsBut [] s t ∧ SameMemory s t ∧
      t.out = s.out) ∧
    ∃ t, exec (.rcRead (.masthead c) (.page p off) be none) s = .next t ∧
      (t.agent (.core c)).behind = (s.agent (.core c)).behind ++ [.read (.page p off) be] ∧ RegsBut [] s t ∧ SameMemory s t ∧
      t.out = s.out) ∧
  (∀ (s : State) (x y : MacroSt), (s.agent (.boom (BitVec.ofNat 2 x.spar))).sync = true →
    (s.fab.flight.find? fun z => decide (z.spar = x.spar) && decide (z.slot = x.slot)) = some y → y.spar = x.spar →
    (s.agent (.boom (BitVec.ofNat 2 x.spar))).syncAfter ≤ y.num → y.done = false → y.started = false →
    RegsBut [] s (s.advance x) ∧ SameMemory s (s.advance x) ∧ (s.advance x).out = s.out) ∧
  (∀ (s : State) (a : Agent), (s.agent a).sync = true → (s.agent a).open_ ≠ [] → exec (.syncComplete a) s = .next s) ∧
  (∀ (s : State) (k : BitVec 2) (m : MacroSt), (s.agent (.boom k)).sync = true → m ∈ s.fab.flight → m.spar = k.toNat → m.done = false →
    m.num < (s.agent (.boom k)).syncAfter → exec (.syncComplete (.boom k)) s = .next s) ∧
  (∀ (s : State) (a : Agent), (s.agent a).sync = true → (s.agent a).open_ = [] → (s.agent a).behind = [] → s.fab.flight = [] →
    ∃ t, exec (.syncComplete a) s = .next t ∧ (t.agent a).sync = false ∧ RegsBut [] s t ∧ SameMemory s t ∧ t.out = s.out)

/-! ### Partitions and resets of functions (06, 04 R84) -/

/-- The commands of a partition in the states that allow them: ASSIGN, COMMIT, DRAIN, RESET and RELEASE move it to CONFIG, ACTIVE, DRAINING,
RESETTING and RELEASING, and the ends of drain, reset and teardown move it on (06 Table 6.3, R111, R133). -/
def Obligations.PartitionCommands : Prop :=
  (∀ (s : State) (m : Master) (p : BitVec 7), s.PrtFirst p.toNat → s.Takes m (pgPrt p.toNat) 0x104 1 → s.pstate p.toNat = psFree → s.ready = true →
    s.bit Key.secStat 31 = true →
    ∃ t, exec (.assign m p 0xF) s = .next t ∧ t.pstate p.toNat = psConfig ∧ (t.part p.toNat).keyPair = true ∧
      t.reg (Key.prtKeygen p.toNat) = satInc (s.reg (Key.prtKeygen p.toNat)) ∧ t.fld (Key.prtState p.toNat) 15 8 = 0 ∧
      t.bit (Key.irqStat (pgPrt p.toNat)) 2 = true ∧ SameMemory s t) ∧
  (∀ (s : State) (m : Master) (p : BitVec 7), s.PrtFirst p.toNat → s.Takes m (pgPrt p.toNat) 0x104 2 → s.commitCheck p.toNat = 0 →
    ∃ t, exec (.commit m p 0xF) s = .next t ∧ t.pstate p.toNat = psActive ∧
      (∃ fr, (t.part p.toNat).held = { s.configured p.toNat with frames := fr } ∧
        (s.bit (Key.prtCfg p.toNat) 0 = false → fr = [])) ∧
      t.isSealed p.toNat = s.bit (Key.prtCfg p.toNat) 0) ∧
  (∀ (s : State) (m : Master) (p : BitVec 7), s.PrtFirst p.toNat → s.Takes m (pgPrt p.toNat) 0x104 2 → s.commitCheck p.toNat ≠ 0 →
    ∃ t, exec (.commit m p 0xF) s = .next t ∧ WroteAs (s.setFld (Key.prtState p.toNat) 15 8 (s.commitCheck p.toNat)) t) ∧
  (∀ (s : State) (m : Master) (p : BitVec 7), s.PrtFirst p.toNat → s.Takes m (pgPrt p.toNat) 0x104 3 → s.pstate p.toNat = psActive →
    s.hasDeferred p.toNat = false →
    ∃ t, exec (.drain m p 0xF) s = .next t ∧ t.pstate p.toNat = psDraining ∧ SameMemory s t) ∧
  (∀ (s : State) (m : Master) (p : BitVec 7), s.PrtFirst p.toNat → s.Takes m (pgPrt p.toNat) 0x104 4 → s.pstate p.toNat = psActive →
    s.reqsLeft p.toNat = false →
    ∃ t, exec (.reset m p 0xF) s = .next t ∧ t.pstate p.toNat = psResetting ∧ (t.part p.toNat).prior = psActive ∧ SameMemory s t) ∧
  (∀ (s : State) (m : Master) (p : BitVec 7), s.PrtFirst p.toNat → s.Takes m (pgPrt p.toNat) 0x104 5 → s.pstate p.toNat ≠ psFree →
    s.pstate p.toNat ≠ psReleasing →
    ∃ t, exec (.release m p 0xF) s = .next t ∧ t.pstate p.toNat = psReleasing ∧ (t.part p.toNat).keyPair = false ∧
      (t.part p.toNat).destroy.isSome = true) ∧
  (∀ (s : State) (p : BitVec 7), s.pstate p.toNat = psDraining → s.reqsLeft p.toNat = false →
    ∃ t, exec (.drainDone p) s = .next t ∧ t.pstate p.toNat = psConfig ∧
      RegsBut [Key.prtState p.toNat, Key.irqStat (pgPrt p.toNat)] s t ∧ SameMemory s t) ∧
  (∀ (s : State) (p : BitVec 7), s.pstate p.toNat = psResetting → s.reqsLeft p.toNat = false → (s.part p.toNat).prior < 8 →
    ∃ t, exec (.resetDone p) s = .next t ∧ t.pstate p.toNat = (s.part p.toNat).prior ∧
      RegsBut [Key.prtState p.toNat, Key.irqStat (pgPrt p.toNat)] s t ∧ SameMemory s t) ∧
  (∀ (s : State) (p : BitVec 7), s.pstate p.toNat = psReleasing →
    ∃ t, exec (.teardownComplete p) s = .next t ∧ t.pstate p.toNat = psFree ∧ t.part p.toNat = {} ∧
      t.reg (Key.prtCfg p.toNat) = resetVal (Key.prtCfg p.toNat))

/-- A command that the partition's state does not allow changes nothing but the last error: STATE, or BAD_OP for an unknown one
(R114, R132). -/
def Obligations.PartitionErrors : Prop :=
  (∀ (s : State) (m : Master) (p : BitVec 7), s.PrtFirst p.toNat → s.Takes m (pgPrt p.toNat) 0x104 1 → s.pstate p.toNat ≠ psFree →
    ∃ t, exec (.assign m p 0xF) s = .next t ∧ WroteAs (s.setFld (Key.prtState p.toNat) 15 8 0x01) t) ∧
  (∀ (s : State) (m : Master) (p : BitVec 7), s.PrtFirst p.toNat → s.Takes m (pgPrt p.toNat) 0x104 3 → s.pstate p.toNat = psFree →
    ∃ t, exec (.drain m p 0xF) s = .next t ∧ WroteAs (s.setFld (Key.prtState p.toNat) 15 8 0x01) t) ∧
  (∀ (s : State) (m : Master) (p : BitVec 7), s.PrtFirst p.toNat → s.Takes m (pgPrt p.toNat) 0x104 5 → s.pstate p.toNat = psFree →
    ∃ t, exec (.release m p 0xF) s = .next t ∧ WroteAs (s.setFld (Key.prtState p.toNat) 15 8 0x01) t) ∧
  (∀ (s : State) (m : Master) (p : BitVec 7) (v : Word), s.Takes m (pgPrt p.toNat) 0x104 v → 5 < getBits v 7 0 →
    ∃ t, exec (.registerWrite m (.page (BitVec.ofNat 14 (pgPrt p.toNat)) 0x104) 0xF v none) s = .next t ∧
      WroteAs (s.setFld (Key.prtState p.toNat) 15 8 0x0C) t)

/-- Keys and function resets: an unconfirmed key destruction latches KEY_FAIL once; a scrubbed frame reads zero and leaves the backlog,
and other bytes stay; a reset of a function destroys the keys of a partition in use and is complete, with a new pair, once that is
confirmed; a PF reset empties the PF's vectors and the device-event queue, and a Hot Reset and a DL_Down reset configuration space
too; the random source fails and passes again, and owed keys are generated then (R119, R120, R131, 04 R84, 22 R537, 28 R665). -/
def Obligations.KeysAndFunctionResets : Prop :=
  (∀ (s : State) (p : BitVec 7) (t0 : Nat), (s.part p.toNat).destroy = some t0 → t0 + 100000 ≤ s.tick →
    (s.part p.toNat).keyFailed = false →
    ∃ t, exec (.keyFail p) s = .next t ∧ (t.part p.toNat).keyFailed = true ∧ t.Latched (pgPrt p.toNat) 2 ∧
      RegsBut (latchKeys (pgPrt p.toNat)) s t ∧ SameMemory s t) ∧
  (∀ (s : State) (f : Nat) (e : ScrubItem), s.inScrub f = some e → (∀ p, e.part = some p → (s.part p).keyFailed = false) →
    ∃ t, exec (.scrubComplete f true) s = .next t ∧ t.inScrub f = none ∧
      (∀ a, f * 4096 ≤ a → a < f * 4096 + 4096 → t.byteAt a = 0) ∧
      (∀ a, a < f * 4096 ∨ f * 4096 + 4096 ≤ a → t.byteAt a = s.byteAt a)) ∧
  (∀ (s : State) (n : BitVec 7), s.pstate n.toNat = psActive → s.bit Key.secStat 31 = true → s.reqsLeft n.toNat = false →
    s.models = [] → s.paging.nodes = [] → s.paging.flight = [] →
    ∃ t, exec (.vfFlr n) s = .next t ∧ (t.part n.toNat).keyPair = false ∧ (t.part n.toNat).flr = true ∧
      (t.part n.toNat).destroy.isSome = true) ∧
  (∀ (s : State) (n : BitVec 7), s.pstate n.toNat ≠ psReleasing → (s.part n.toNat).flr = true → s.bit Key.secStat 31 = true →
    ∃ t, exec (.teardownComplete n) s = .next t ∧ (t.part n.toNat).keyPair = true ∧ (t.part n.toNat).flr = false ∧
      t.reg (Key.prtKeygen n.toNat) = satInc (s.reg (Key.prtKeygen n.toNat)) ∧
      RegsBut [Key.prtKeygen n.toNat, Key.secKeygenCnt] s t ∧ SameMemory s t) ∧
  (∀ s : State, ∃ t, exec .pfFlr s = .next t ∧ exec .hotReset s = .next { t with pci := {} } ∧
    exec .dlDown s = .next { t with pci := {} } ∧
    (∀ v, 1536 ≤ v → t.msixAt v = {}) ∧ t.eq 512 = {} ∧ t.reg Key.pmgHrCfg = resetVal Key.pmgHrCfg) ∧
  (∀ s : State, s.bit Key.secStat 31 = true →
    ∃ t, exec .rngFail s = .next t ∧ t.bit Key.secStat 31 = false ∧ t.Latched pgSec 0 ∧
      t.reg Key.secRngFailCnt = satInc (s.reg Key.secRngFailCnt) ∧
      RegsBut (Key.secStat :: Key.secRngFailCnt :: latchKeys pgSec) s t ∧ SameMemory s t) ∧
  (∀ s : State, ∃ t, exec .rngOk s = .next t ∧ t.bit Key.secStat 31 = true ∧ t.boot.devPair = true ∧
    (∀ p, p < 128 → (s.part p).keyOwed = true → (t.part p).keyPair = true ∧ (t.part p).keyOwed = false) ∧ SameMemory s t)

/-! ### Migration and the memory tiers (08) -/

/-- A burst command whose descriptor is in order submits the burst that it describes, and one that breaks a range completes BAD_DESC with
nothing moved; a slot of the host ring that cannot be read latches HR_FETCH; a burst that can never fit its quota completes NO_QUOTA;
others wait while 16 are in flight (R166, R167, R169, R178). -/
def Obligations.MigrationBursts : Prop :=
  (∀ (s : State) (a : BitVec 43) (d : BitVec 512) (src : List Nat) (r : HostRead (BitVec 512))
      (l : HostRead (List (BitVec 64))), inDevice a.toNat = true → d = BitVec.ofNat 512 (s.rdNat a.toNat 64) →
    src = (List.range (pmgDesc d).count).map (fun i => s.rdNat ((pmgDesc d).src + 8 * i) 8) → s.pmgOk (pmgDesc d) src false = true →
    ((pmgDesc d).op = 1 → ∃ b, b.tag = (pmgDesc d).tag ∧ b.moves.length = src.length ∧ b.op = 1 ∧ b.part = (pmgDesc d).part ∧
      exec (.promote (.device a) r l) s = .next (s.submitBurst b).kvpUpdate) ∧
    ((pmgDesc d).op = 2 → ∃ b, b.tag = (pmgDesc d).tag ∧ b.moves.length = src.length ∧ b.op = 2 ∧ b.part = (pmgDesc d).part ∧
      exec (.demote (.device a) r l) s = .next (s.submitBurst b).kvpUpdate) ∧
    ((pmgDesc d).op = 3 → ∃ b, b.tag = (pmgDesc d).tag ∧ b.moves.length = src.length ∧ b.op = 3 ∧ b.part = (pmgDesc d).part ∧
      exec (.copy (.device a) r l) s = .next (s.submitBurst b).kvpUpdate)) ∧
  (∀ (s : State) (d : BitVec 512) (l : List (BitVec 64)), s.pmgRingReady = true → s.pmgOk (pmgDesc d) (l.map BitVec.toNat) true = true →
    ((pmgDesc d).op = 1 → ∃ (u : State) (b : Burst), b.tag = (pmgDesc d).tag ∧ b.moves.length = l.length ∧
      u.fld Key.pmgHrHead 9 0 = (s.fld Key.pmgHrHead 9 0 + 1) % 2 ^ s.fld Key.pmgHrCfg 15 12 % 1024 ∧
      exec (.promote .ring (some d) (some l)) s = .next (u.submitBurst b).kvpUpdate) ∧
    ((pmgDesc d).op = 2 → ∃ (u : State) (b : Burst), b.tag = (pmgDesc d).tag ∧ b.moves.length = l.length ∧
      u.fld Key.pmgHrHead 9 0 = (s.fld Key.pmgHrHead 9 0 + 1) % 2 ^ s.fld Key.pmgHrCfg 15 12 % 1024 ∧
      exec (.demote .ring (some d) (some l)) s = .next (u.submitBurst b).kvpUpdate) ∧
    ((pmgDesc d).op = 3 → ∃ (u : State) (b : Burst), b.tag = (pmgDesc d).tag ∧ b.moves.length = l.length ∧
      u.fld Key.pmgHrHead 9 0 = (s.fld Key.pmgHrHead 9 0 + 1) % 2 ^ s.fld Key.pmgHrCfg 15 12 % 1024 ∧
      exec (.copy .ring (some d) (some l)) s = .next (u.submitBurst b).kvpUpdate)) ∧
  (∀ (s : State) (a : BitVec 43) (d : BitVec 512) (r : HostRead (BitVec 512)) (l : HostRead (List (BitVec 64))), inDevice a.toNat = true → d = BitVec.ofNat 512 (s.rdNat a.toNat 64) →
    (pmgDesc d).op = 1 →
    s.pmgOk (pmgDesc d) ((List.range (pmgDesc d).count).map fun i => s.rdNat ((pmgDesc d).src + 8 * i) 8) false = false →
    exec (.promote (.device a) r l) s = .next (((s.wr (a.toNat + 0x38) [4, 0]).inc Key.pmgDoneCnt).kvpUpdate)) ∧
  (∀ (s : State) (list : HostRead (List (BitVec 64))), s.pmgRingReady = true →
    ∃ t, exec (.promote .ring none list) s = .next t ∧ t.Latched pgPmg 1 ∧
      t.fld Key.pmgHrHead 9 0 = s.fld Key.pmgHrHead 9 0 ∧ SameMemory s t) ∧
  (∀ (s : State) (b : Burst), b.part < 128 → s.quota b.part b.dest.tier < b.moves.length * b.units →
    s.submitBurst b = s.endBurst b.home b.tag 3 0) ∧
  (∀ (s : State) (b : Burst), b.moves.length * b.units ≤ s.quota b.part b.dest.tier →
    s.paging.waiting ≠ [] ∨ 16 ≤ s.paging.flight.length →
    (s.submitBurst b).paging.waiting = s.paging.waiting ++ [b] ∧ SameMemory s (s.submitBurst b))

/-- The migration engine goes on: a recheck examines the deferred queue of its pool and then lets waiting bursts issue; a copy of a page
with an entry is written to its destination frames and waits on the entry's pins; and the host ring's doorbell and enable follow
the SQ rules (R167, R168, R178). -/
def Obligations.MigrationProgress : Prop :=
  (∀ (s : State) (pool : PoolId) (t : Tier), s.paging.waiting = [] → s.paging.deferred = [] →
    ∃ u, exec (.burstRecheck pool t) s = .next u ∧ u.paging = s.paging ∧ RegsBut [Key.kvpStat, Key.irqStat pgKvp] s u ∧
      SameMemory s u) ∧
  (∀ (s : State) (pool : PoolId) (t : Tier) (b : Burst) (rest : List Burst), s.paging.waiting = [] → s.paging.deferred = b :: rest →
    b.dest = ⟨pool, t⟩ → (s.hideFresh 1).tryIssue b = none →
    ∃ u, exec (.burstRecheck pool t) s = .next u ∧ u.paging = s.paging ∧ RegsBut [Key.kvpStat, Key.irqStat pgKvp] s u ∧
      SameMemory s u) ∧
  (∀ (s : State) (tag : BitVec 64) (i : Nat) (b : Burst) (m : Move) (a : Nat),
    (s.paging.flight.find? fun x => decide (x.tag = tag)) = some b → b.moves[i]? = some m → m.st = .copying → m.entry = some a →
    (⟨utMigration, 0, 0⟩ : UnitId) ∉ s.rel.out → s.moveHeld b m = false → s.pinWaits a = false → s.CleanMemory →
    ((s.copyPage m.src m.dst b.units).pte a).pins ≠ 0 → s.paging.waiting = [] →
    ∃ t, exec (.pageCommit tag i false) s = .next t ∧
      t.paging.flight = (s.setMove tag i .copied false).paging.flight ∧
      t.paging.pending = s.paging.pending ++ [{ entry := a, drop := false, since := s.tick }] ∧
      SameMemory (s.copyPage m.src m.dst b.units) t ∧
      (∀ x, x < m.dst * 4096 ∨ (m.dst + b.units) * 4096 ≤ x → t.byteAt x = s.byteAt x)) ∧
  (∀ (s : State) (m : Master) (v : Word), s.Takes m pgPmg 0x11C v → s.Uncontested m Key.pmgHrTail → s.bit Key.pmgHrCfg 31 = true →
    getBits v 9 0 < 2 ^ s.fld Key.pmgHrCfg 15 12 →
    (s.fld Key.pmgHrTail 9 0 + 2 ^ s.fld Key.pmgHrCfg 15 12 - s.fld Key.pmgHrHead 9 0) % 2 ^ s.fld Key.pmgHrCfg 15 12
      + (getBits v 9 0 + 2 ^ s.fld Key.pmgHrCfg 15 12 - s.fld Key.pmgHrTail 9 0) % 2 ^ s.fld Key.pmgHrCfg 15 12
      < 2 ^ s.fld Key.pmgHrCfg 15 12 →
    ∃ t, exec (.pmgHrTail m 0xF v) s = .next t ∧ t.fld Key.pmgHrTail 9 0 = getBits v 9 0 ∧ RegsBut [Key.pmgHrTail] s t ∧
      SameMemory s t ∧ t.out = s.out) ∧
  (∀ (s : State) (m : Master) (v : Word), s.Takes m pgPmg 0x118 v → s.Uncontested m Key.pmgHrCfg → s.bit Key.pmgHrCfg 31 = false →
    getBits v 31 31 = 1 → 4 ≤ getBits v 15 12 → getBits v 15 12 ≤ 10 →
    ∃ t, exec (.pmgHrEnable m 0xF v) s = .next t ∧ t.bit Key.pmgHrCfg 31 = true ∧ t.fld Key.pmgHrHead 9 0 = 0 ∧
      t.fld Key.pmgHrTail 9 0 = 0 ∧ RegsBut [Key.pmgHrCfg, Key.pmgHrHead, Key.pmgHrTail] s t ∧ SameMemory s t ∧ t.out = s.out)

/-- The memory units: a frame with sixteen corrected errors that nothing holds leaves use at once and is latched; a patrol pass is
counted; a refresh reads the temperature and takes the interval that it asks for; a lost stack and a cipher fault take the region out
of service; training leaves no byte of a previous boot readable (R158, R159, R174 to R176). -/
def Obligations.MemoryUnits : Prop :=
  (∀ (s : State) (f u : Nat), unitOf (64 * (s.frameErrors f).getLastD 0) = some u → 16 ≤ (s.frameErrors f).length →
    f ∉ s.mem.retired → inDevice (f * 4096) = false → (s.mem.retiring.any fun e => decide (e.1 = f)) = false →
    (s.mem.used.find? fun e => decide (e.start ≤ f) && decide (f < e.start + e.len)) = none → s.inScrub f = none →
    ∃ t, exec (.frameRetire f) s = .next t ∧ t.mem.retired = s.mem.retired ++ [f] ∧ t.Latched (unitPage u) 1 ∧
      t.reg (regKey (unitPage u) 0x114) = satInc (s.reg (regKey (unitPage u) 0x114)) ∧
      RegsBut (Key.kvpStat :: Key.irqStat pgKvp :: regKey (unitPage u) 0x114 :: latchKeys (unitPage u)) s t ∧ SameMemory s t) ∧
  (∀ (s : State) (t : Tier) (u : BitVec 4) (n : Nat), memUnit t u = some n → s.bit (unitReg n 0x100) 1 = true → s.CleanMemory →
    exec (.patrol t u) s = .next (s.setReg (unitReg n 0x11C) (satInc (s.reg (unitReg n 0x11C))))) ∧
  (∀ (s : State) (t : Tier) (u : BitVec 4) (n : Nat) (temp : Int), memUnit t u = some n →
    ∃ w, exec (.bankRefresh t u temp) s = .next w ∧ w.fld (unitReg n 0x100) 31 16 = (temp % 65536).toNat ∧
      SMap.get (fun _ => 390) w.mem.refresh n = refreshTicks t temp ∧ RegsBut [unitReg n 0x100] s w ∧ SameMemory s w ∧
      w.out = s.out) ∧
  (∀ (s : State) (t : Tier) (u : BitVec 4) (n : Nat), memUnit t u = some n → s.bit (unitReg n 0x100) 1 = true →
    s.paging.shards = [] → s.paging.nodes = [] → s.models = [] → s.paging.flight = [] →
    (∃ w, exec (.stackLost t u) s = .next w ∧ w.Latched (unitPage n) 3 ∧ w.bit (unitReg n 0x100) 1 = false ∧ n ∈ w.mem.lost ∧
      SameMemory s w) ∧
    (∃ w, exec (.cipherFault t u) s = .next w ∧ w.Latched (unitPage n) 4 ∧ w.bit (unitReg n 0x100) 1 = false ∧ n ∈ w.mem.lost ∧
      SameMemory s w)) ∧
  (∀ (s : State) (retried failed : List (Tier × BitVec 4)) (us : List Word), s.ready = false → s.mem.trained = false →
    ∃ t, exec (.memoryTrained retried failed us) s = .next t ∧ t.mem.trained = true ∧ (∀ a, t.byteAt a = 0) ∧
      ∀ n, n < 24 → t.reg (unitReg n 0x118) = us.getD n 0)

/-! ### KV pages, splicing and reefing (09, 10) -/

/-- Pins: an entry that is present, in order and not barred is granted and its pin count rises, and the last unpin gives the page back to what
waits on it (R193, R223); an entry that is not present answers DROPPED. -/
def Obligations.Pins : Prop :=
  (∀ (s : State) (entry : Nat) (gen : Byte), (s.pte (s.auth entry)).present = true →
    s.entryBad entry = none →
    (s.paging.pending.any fun x => decide (x.entry = s.auth entry) && x.barred) = false → (s.pte (s.auth entry)).pins < 255 →
    gen = 0 ∨ gen = BitVec.ofNat 8 (s.pte (s.auth entry)).gen →
    ∃ t, exec (.pin entry gen) s = .next t ∧
      t = ((s.setPte (s.auth entry) ((s.pte (s.auth entry)).withPins ((s.pte (s.auth entry)).pins + 1))).emit
        (.pin 0 (if (s.pte (s.auth entry)).far then 1 else 0) (s.pte (s.auth entry)).frame (s.pte (s.auth entry)).valid
          (BitVec.ofNat 8 (s.pte (s.auth entry)).gen))).kvpUpdate ∧
      (∀ a, a < s.auth entry ∨ s.auth entry + 16 ≤ a → t.byteAt a = s.byteAt a)) ∧
  (∀ (s : State) (entry : Nat) (gen : Byte), (s.pte (s.auth entry)).present = false → s.entryBad entry = none →
    s.paging.pending = [] → exec (.pin entry gen) s = .next (s.emit (.pin 2 0 0 0 0)).kvpUpdate) ∧
  (∀ (s : State) (entry : Nat), (s.pte (s.auth entry)).pins ≠ 0 → s.paging.pending = [] → s.paging.pinWait = [] →
    ∃ t, exec (.unpin entry) s = .next t ∧ t.pte (s.auth entry) = (s.pte (s.auth entry)).withPins ((s.pte (s.auth entry)).pins - 1) ∧
      (∀ a, a < s.auth entry ∨ s.auth entry + 16 ≤ a → t.byteAt a = s.byteAt a) ∧ t.out = s.out) ∧
  (∀ (s : State) (entry : Nat), exec (.pinHoldExpire entry) s = .next { s with paging := { s.paging with
    pending := s.paging.pending.map fun x => if x.entry = entry ∧ x.since + s.pinHold ≤ s.tick then { x with barred := true } else x } })

/-- Appending and holding: an APPEND in order writes its rows page by page and completes; one out of order completes with its status;
a pool without held shards reserves nothing, and a pool held past its time ends the request that waits (R188, R191, R195). The page
manager's operations are one at a time, and frames freed in their tick do not count for them (R198). -/
def Obligations.AppendAndHold : Prop :=
  (∀ (s u : State) (k : BitVec 2) (d : BitVec 512) (c : Scatter) (h : Shard), u = s.hideFresh 2 →
    (s.paging.scatter.find? fun x => decide ((scatDesc x.desc).pt = (scatDesc d).pt)) = some c → c.spar = k.toNat → c.desc = d →
    u.appendStatus (scatDesc d) = 0 → u.shardAt (scatDesc d).pt = some h → (⟨utScatter, k.toNat, 0⟩ : UnitId) ∉ s.rel.out →
    u.copyPinWaits ((scatDesc d).layout h) (scatDesc d) = false → u.appendWaits ((scatDesc d).layout h) (scatDesc d) = false →
    exec (.append k d none) s = .next ((((u.useFor ⟨utScatter, k.toNat, 0⟩ ((scatDesc d).layout h).part
      ((scatDesc d).layout h).tag).appendRun c (scatDesc d) none 0 (State.appendPages (scatDesc d))).rebucket
        ((scatDesc d).layout h).part ((scatDesc d).layout h).tag).kvpUpdate.showFresh 2)) ∧
  (∀ (s u : State) (k : BitVec 2) (d : BitVec 512) (c : Scatter) (ue : Option Nat), u = s.hideFresh 2 →
    (s.paging.scatter.find? fun x => decide ((scatDesc x.desc).pt = (scatDesc d).pt)) = some c → c.spar = k.toNat → c.desc = d →
    u.appendStatus (scatDesc d) ≠ 0 →
    exec (.append k d ue) s = .next ((u.scatterEnd c (scatDesc d) (u.appendStatus (scatDesc d)) 0).showFresh 2)) ∧
  (∀ (s : State) (pool : PoolId), s.heldOf pool = [] →
    ∃ t, exec (.heldReserve pool) s = .next t ∧ t.paging = s.paging ∧ RegsBut [Key.kvpStat, Key.irqStat pgKvp] s t ∧
      SameMemory s t) ∧
  (∀ (s : State) (pool : PoolId) (since : Nat) (h : Shard) (r : Req),
    ((s.paging.holdTick.find? fun e => decide (e.1 = pool)).map fun e => e.2) = some since → s.heldOf pool = [h] → h.waiting = true →
    s.req h.part h.tag = some r → r.adopted = false → s.reqRing r = none →
    since + max 1 (s.fld Key.kvpCfg 7 0) * 100000 ≤ s.tick →
    ∃ t, exec (.holdTimeout pool) s = .next t ∧ t.Posted r.part r.tag kCompletion stRefusedPool 0x02 ∧
      t.bit (Key.irqStat pgKvp) 4 = true)

/-- Bind slots and reefing: BIND of a slot that passes its checks binds it and UNBIND of a bound slot closes it, a closing slot that holds
nothing becomes free, scores age once a period, reefing of a tier above its mark stops, and a drop waits for its page's pins
(R208, R209, R218, R219, R221). -/
def Obligations.SlotsAndReefing : Prop :=
  (∀ (s : State) (m : Master) (slot : BitVec 6), s.Takes m pgRfe 0x130 (BitVec.ofNat 32 (0x100 + slot.toNat)) →
    s.bindCheck slot.toNat = 0 →
    ∃ t, exec (.bind m 0xF slot) s = .next t ∧ t.bit (Key.rfeBindCtl slot.toNat) 31 = true ∧ t.reg Key.rfeBindErr = 0 ∧
      (∀ p, p ∈ s.slotParts slot.toNat → t.bit (Key.prtState p) 5 = true) ∧ SameMemory s t) ∧
  (∀ (s : State) (m : Master) (slot : BitVec 6), s.Takes m pgRfe 0x130 (BitVec.ofNat 32 (0x100 + slot.toNat)) →
    s.bindCheck slot.toNat ≠ 0 →
    ∃ t, exec (.bind m 0xF slot) s = .next t ∧ WroteAs (s.setReg Key.rfeBindErr (BitVec.ofNat 32 (s.bindCheck slot.toNat))) t) ∧
  (∀ (s : State) (m : Master) (slot : BitVec 6), s.Takes m pgRfe 0x130 (BitVec.ofNat 32 (0x200 + slot.toNat)) →
    s.slotBound slot.toNat = true → (∀ n ∈ s.paging.nodes, n.scope ≠ .slot slot.toNat) →
    ∃ t, exec (.unbind m 0xF slot) s = .next t ∧ t.bit (Key.rfeBindCtl slot.toNat) 31 = false ∧
      t.bit (Key.rfeBindCtl slot.toNat) 30 = true ∧ t.reg Key.rfeBindErr = 0 ∧ SameMemory s t) ∧
  (∀ (s : State) (slot : BitVec 6), s.slotClosing slot.toNat = true → s.slotHolds slot.toNat = false →
    (s.reqs.any fun r => r.active && decide (r.scope = .slot slot.toNat)) = false →
    ∃ t, exec (.slotFree slot) s = .next t ∧ t.bit (Key.rfeBindCtl slot.toNat) 30 = false ∧ SameMemory s t) ∧
  (∀ s : State, s.paging.aged + max 1 (s.fld Key.rfeCfg 23 16) * 100000 ≤ s.tick →
    ∃ t, exec .agePeriod s = .next t ∧ t.paging.aged = s.tick ∧ (s.scored = [] → SameMemory s t)) ∧
  (∀ (s : State) (pool : PoolId) (t : Tier), s.tierBelow pool t s.kvpLow = false → s.tierBelow pool t s.kvpCrit = false →
    ∃ w, exec (.reefSelect pool t) s = .next w ∧ ⟨pool, t⟩ ∉ w.paging.reefing ∧ ⟨pool, t⟩ ∉ w.paging.forced ∧ SameMemory s w) ∧
  (∀ (s : State) (pool : PoolId) (t : Tier), s.tierBelow pool t s.kvpLow = true → s.tierBelow pool t s.kvpCrit = false →
    s.pending = [] → s.candidates (fun n => !s.indexOnly n) pool t = [] → s.reefDone pool t 0 = false →
    ∃ w, exec (.reefSelect pool t) s = .next w ∧ ⟨pool, t⟩ ∈ w.paging.reefing ∧ SameMemory s w) ∧
  (∀ (s : State) (entry : Nat), (s.paging.pending.any fun x => decide (x.entry = entry) && x.drop) = true →
    (s.pte entry).pins ≠ 0 → s.paging.pinWait = [] →
    ∃ t, exec (.pageDrop entry) s = .next t ∧ t.paging.pending = s.paging.pending ∧ SameMemory s t)

/-! ### Spar, Boom and the units (11 to 14, 18) -/

/-- Binding and starting: a Spar plan whose units are free and suffice is bound with them and its identifier shows, one that finds no units
waits, and a decode walk of a bound plan whose step comes next starts with its first macro (R242, R243, R261). -/
def Obligations.PlansAndWalks : Prop :=
  (∀ (s : State) (p : BitVec 7) (h : BitVec 16) (plan spar : BitVec 2) (m : Model) (b : BoundPlan),
    s.model p.toNat h.toNat = some m → m.st ≠ .loading → plan.toNat < planCount (s.section m 2) →
    (s.fab.plans.find? fun x => decide (x.part = m.part) && decide (x.handle = m.handle) && decide (x.plan = plan.toNat)) = none →
    s.bindAhead m plan.toNat spar.toNat = false →
    s.fitModel m plan.toNat spar.toNat (demandOf (s.section m 2) plan.toNat) = some b →
    ∃ t, exec (.planBind p h plan spar) s = .next t ∧ t.fab.plans = s.fab.plans ++ [b] ∧ b.spar = spar.toNat ∧
      t.reg (Key.sprPlanIdLo spar.toNat) = BitVec.ofNat 32 (planId (s.section m 2)) ∧ t.out = s.out) ∧
  (∀ (s : State) (p : BitVec 7) (h : BitVec 16) (plan spar : BitVec 2) (m : Model),
    s.model p.toNat h.toNat = some m → m.st ≠ .loading → plan.toNat < planCount (s.section m 2) →
    (s.fab.plans.find? fun x => decide (x.part = m.part) && decide (x.handle = m.handle) && decide (x.plan = plan.toNat)) = none →
    s.displaceable m.part = [] →
    s.fitModel m plan.toNat spar.toNat (demandOf (s.section m 2) plan.toNat) = none →
    exec (.planBind p h plan spar) s = .next s) ∧
  (∀ (s : State) (spar : BitVec 2) (p : BitVec 7) (tags : List (BitVec 64)) (h : BitVec 16) (walk : Nat) (r : Req) (m : Model)
    (e : WalkEntry) (i id : Nat) (st : StepEntry),
    s.walkReq p.toNat tags h.toNat = some r → r.phase = .decode → s.model p.toNat h.toNat = some m →
    s.inService ⟨utBoom, spar.toNat, 0⟩ = true → s.roundTurn r = true → s.walkAhead spar.toNat r.part tags = false →
    (walkTable (s.section m 3))[walk]? = some e → e.phase = 1 → e.mode = 0 →
    stepIndex (s.steps m) 0 walk true r.d.orderFree = some (i, st) →
    (∀ w ∈ s.fab.walks, w.part = r.part → ∀ t ∈ tags, t ∉ w.tags) → s.fab.doneSteps = [] → s.predsDone r.part tags st = true →
    s.freeWalk spar.toNat = some id →
    (s.fab.plans.any fun b => decide (b.part = m.part) && decide (b.handle = m.handle) && decide (b.plan = e.plan)
      && decide (b.spar = spar.toNat)) = true →
    s.poisoned (dpaOf m.sections 3 + e.offset) (128 * e.count) = none →
    ∃ t w, exec (.walkStart spar p tags h walk) s = .next t ∧ t.fab.walks = s.fab.walks ++ [w] ∧ w.spar = spar.toNat ∧ w.id = id ∧
      w.part = r.part ∧ w.tags = tags ∧ w.next = 0 ∧ w.count = e.count ∧ w.list = dpaOf m.sections 3 + e.offset)

/-- A macro of a Yard, a Luff, a Clew, a scatter engine, the copy path or the collective engine that is next in its walk is issued into
the lowest free slot when its row's command comes, with the checks of its units (R263, R273, R274; 13 R302; 14 R323, R328 to R334;
18 R447, R448). -/
def Obligations.MacrosIssue : Prop :=
  ∀ (s : State) (spar : BitVec 2) (id : BitVec 6) (w : Walk) (b : BoundPlan) (slot : Nat) (chk : Check) (f : Option SparFault)
    (late : Bool),
    (s.Issues spar id (1, 0) w b slot → exec (.gemm spar id chk f late) s = .next (s.issued w b slot chk f late)) ∧
    (s.Issues spar id (2, 0) w b slot → exec (.copyMacro spar id f late) s = .next (s.issued w b slot ⟨0, false, 0⟩ f late)) ∧
    (s.Issues spar id (3, 0) w b slot → exec (.attn spar id chk f late) s = .next (s.issued w b slot chk f late)) ∧
    (s.Issues spar id (5, 0) w b slot → exec (.scatter spar id late) s = .next (s.issued w b slot ⟨0, false, 0⟩ none late)) ∧
    (s.Issues spar id (4, 1) w b slot → exec (.map spar id f late) s = .next (s.issued w b slot ⟨0, false, 0⟩ f late)) ∧
    (s.Issues spar id (4, 2) w b slot → exec (.smaxMax spar id f late) s = .next (s.issued w b slot ⟨0, false, 0⟩ f late)) ∧
    (s.Issues spar id (4, 3) w b slot → exec (.smaxSum spar id f late) s = .next (s.issued w b slot ⟨0, false, 0⟩ f late)) ∧
    (s.Issues spar id (4, 4) w b slot → exec (.smaxOut spar id f late) s = .next (s.issued w b slot ⟨0, false, 0⟩ f late)) ∧
    (s.Issues spar id (4, 5) w b slot → exec (.sample spar id f late) s = .next (s.issued w b slot ⟨0, false, 0⟩ f late)) ∧
    (s.Issues spar id (4, 6) w b slot → exec (.normMax spar id f late) s = .next (s.issued w b slot ⟨0, false, 0⟩ f late)) ∧
    (s.Issues spar id (4, 7) w b slot → exec (.normSum spar id f late) s = .next (s.issued w b slot ⟨0, false, 0⟩ f late)) ∧
    (s.Issues spar id (4, 8) w b slot → exec (.normOut spar id f late) s = .next (s.issued w b slot ⟨0, false, 0⟩ f late)) ∧
    (s.Issues spar id (6, 1) w b slot → exec (.send spar id late) s = .next (s.issued w b slot ⟨0, false, 0⟩ none late)) ∧
    (s.Issues spar id (6, 2) w b slot → exec (.recv spar id late) s = .next (s.issued w b slot ⟨0, false, 0⟩ none late)) ∧
    (s.Issues spar id (6, 3) w b slot → exec (.allreduce spar id late) s = .next (s.issued w b slot ⟨0, false, 0⟩ none late)) ∧
    (s.Issues spar id (6, 4) w b slot → exec (.allgather spar id late) s = .next (s.issued w b slot ⟨0, false, 0⟩ none late)) ∧
    (s.Issues spar id (6, 5) w b slot → exec (.gather spar id late) s = .next (s.issued w b slot ⟨0, false, 0⟩ none late)) ∧
    (s.Issues spar id (6, 6) w b slot → exec (.stats spar id late) s = .next (s.issued w b slot ⟨0, false, 0⟩ none late))

/-- Issue and its order: a macro put into a slot is last in its Boom's order, and its walk goes on to the next macro; one that
finds no slot waits and is counted; and a macro in flight whose bytes an earlier one in flight still writes is held back: nothing of
it is performed (R273, R274, R276). -/
def Obligations.MacroIssueOrder : Prop :=
  (∀ (s : State) (w : Walk) (m : Mac) (slot : Nat) (done late : Bool), s.walkAt w.spar w.id = some w → m.last = false →
    ∃ x, (s.enterSlot w m slot done late).fab.flight = s.fab.flight ++ [x] ∧ x.spar = w.spar ∧ x.slot = slot ∧ x.walk = w.id ∧
      x.index = w.next ∧ x.word = m ∧ x.done = done ∧ x.num = SMap.get (fun _ => 0) s.fab.issued w.spar ∧
      SMap.get (fun _ => 0) (s.enterSlot w m slot done late).fab.issued w.spar = x.num + 1 ∧
      (s.enterSlot w m slot done late).walkAt w.spar w.id = some { w with next := w.next + 1 } ∧
      (done = true → (s.enterSlot w m slot done late).reg (Key.bomIssueCnt w.spar) = satInc (s.reg (Key.bomIssueCnt w.spar))) ∧
      (done = false → RegsBut [] s (s.enterSlot w m slot done late)) ∧
      RegsBut [Key.bomIssueCnt w.spar] s (s.enterSlot w m slot done late) ∧ SameMemory s (s.enterSlot w m slot done late)) ∧
  (∀ (s : State) (spar : BitVec 2) (id : BitVec 6) (w : Walk) (b : BoundPlan) (chk : Check) (f : Option SparFault) (late : Bool),
    s.walkAt spar.toNat id.toNat = some w → s.stopsHere w = false → w.stopped = false → w.next < w.count →
    s.inService ⟨utBoom, spar.toNat, 0⟩ = true → s.poisoned (w.list + 128 * w.next) 128 = none → w.test = false →
    macRow (s.macAt w w.next) = (1, 0) → s.walkPlan w = some b → s.planLost b = false → s.freeSlot spar.toNat = none →
    exec (.gemm spar id chk f late) s
      = .next (s.setReg (Key.bomStallCnt spar.toNat) (satInc (s.reg (Key.bomStallCnt spar.toNat))))) ∧
  (∀ (s : State) (x a : MacroSt) (w : Walk) (b : BoundPlan) (wr rd : Nat × Nat),
    (s.fab.flight.find? fun y => decide (y.spar = x.spar) && decide (y.slot = x.slot)) = some x → s.walkAt x.spar x.walk = some w →
    s.walkPlan w = some b → x.done = false → x.started = false → x.resolved = true → a ∈ s.earlier x → wr ∈ a.writes →
    rd ∈ x.reads → meets wr rd = true →
    RegsBut [] s (s.advance x) ∧ SameMemory s (s.advance x) ∧ (s.advance x).out = s.out ∧
      (s.advance x).fab.walks = s.fab.walks ∧
      ((s.advance x).fab.flight.find? fun y => decide (y.spar = x.spar) && decide (y.slot = x.slot)) = some x)

/-- Retirement: a macro that is performed frees its slot and, with the last of a decode walk, the walk's step is done; a test walk starts
under the rules of its partition; and a write that sets a unit's retire bit takes the unit out of service (R255, R256, R273,
R275, R287, 13 R313, 14 R340). -/
def Obligations.RetireAndTest : Prop :=
  (∀ (s : State) (spar : BitVec 2) (slot : BitVec 10) (x : MacroSt) (w : Walk), s.fab.flight = [x] → x.spar = spar.toNat →
    x.slot = slot.toNat → x.done = true → s.walkAt x.spar x.walk = some w → w.test = false → w.count ≤ w.next →
    ∃ t, exec (.macroRetire spar slot) s = .next t ∧ t.fab.flight = [] ∧ t.walkAt x.spar x.walk = none ∧
      t.fab.doneSteps = s.fab.doneSteps ++ w.tags.map (fun g => (w.part, g, w.step)) ∧ RegsBut [] s t ∧ SameMemory s t ∧
      t.out = s.out) ∧
  (∀ (s : State) (m : Master) (k : BitVec 2) (v : Word) (id : Nat), s.Takes m (pgBom k.toNat) 0x188 v → getBits v 0 0 = 1 →
    getBits v 15 8 < 128 → s.pstate (getBits v 15 8) = psActive → s.bit (Key.bomTestStat k.toNat) 31 = false →
    s.freeWalk k.toNat = some id → 0 < getBits v 31 16 →
    ∃ t w, exec (.bomTestStart m k 0xF v) s = .next t ∧ t.fab.walks = s.fab.walks ++ [w] ∧ w.test = true ∧
      w.part = getBits v 15 8 ∧ w.count = getBits v 31 16 ∧ w.tags = [] ∧ t.reg (Key.bomTestStat k.toNat) = 0x80000000 ∧
      RegsBut [Key.bomTestStat k.toNat] s t ∧ SameMemory s t) ∧
  (∀ (s : State) (m : Master) (i : BitVec 5) (v : Word), s.Takes m (pgYrd i.toNat) 0x104 v →
    s.Uncontested m (regKey (pgYrd i.toNat) 0x104) → s.locked (pgYrd i.toNat) = false →
    s.bit (regKey (pgYrd i.toNat) 0x104) 0 = false → getBits v 0 0 = 1 →
    ∃ t, exec (.yardRetire m i 0xF v) s = .next t ∧ WroteAs ((s.store m (pgYrd i.toNat) 0x104 v).loseUnit ⟨utYard, i.toNat, 0⟩) t) ∧
  (∀ (s : State) (m : Master) (i : BitVec 3) (v : Word), s.Takes m (pgLuf i.toNat) 0x104 v →
    s.Uncontested m (regKey (pgLuf i.toNat) 0x104) → s.locked (pgLuf i.toNat) = false →
    s.bit (regKey (pgLuf i.toNat) 0x104) 0 = false → getBits v 0 0 = 1 →
    ∃ t, exec (.luffRetire m i 0xF v) s = .next t ∧ WroteAs ((s.store m (pgLuf i.toNat) 0x104 v).loseUnit ⟨utLuff, i.toNat, 0⟩) t) ∧
  (∀ (s : State) (m : Master) (i : BitVec 4) (v : Word), s.Takes m (pgClw i.toNat) 0x104 v →
    s.Uncontested m (regKey (pgClw i.toNat) 0x104) → s.locked (pgClw i.toNat) = false →
    s.bit (regKey (pgClw i.toNat) 0x104) 0 = false → getBits v 0 0 = 1 →
    ∃ t, exec (.clewRetire m i 0xF v) s = .next t ∧ WroteAs ((s.store m (pgClw i.toNat) 0x104 v).loseUnit ⟨utClew, i.toNat, 0⟩) t) ∧
  (∀ (s : State) (bank : Byte), bank.toNat < 192 → s.inService ⟨utBank, bank.toNat, 0⟩ = true →
    s.bankDue bank.toNat = true →
    exec (.bankRetire bank) s = .next (((s.latch (pgSpr (bank.toNat / 48)) 2 (bank.toNat % 48 * 2 ^ 20)).setBit
      (Key.sprBank (bank.toNat / 48) (bank.toNat % 48)) 2 true).loseUnit ⟨utBank, bank.toNat, 0⟩)) ∧
  (∀ (s : State) (u : UnitId), s.inService u = true → s.usersOf u = [] → s.holder u = none →
    ((s.setService u false).unbindUnit u).poolAlive = true → s.loseUnit u = (s.setService u false).unbindUnit u)

/-! ### The Canvas (15, 16) -/

/-- Jobs and evaluation slots: a job of a working request goes to its die, an open slot without jobs is taken at its time and counted, an
open slot starts what its plan holds, and a panel that owes a repeat makes it at one gain higher (R348, R353, R357, R361 to R364). -/
def Obligations.CanvasEvaluates : Prop :=
  (∀ (s : State) (die : BitVec 2) (p : BitVec 7) (tag : BitVec 64) (h : BitVec 16) (job : Nat) (r : Req) (m : Model) (i : Nat)
    (e : StepEntry),
    s.req p.toNat tag = some r → s.model p.toNat h.toNat = some m → r.working = true → r.d.model = m.handle →
    s.bit (Key.cnvStat die.toNat) 31 = true → stepIndex (s.steps m) 1 job r.inDecode r.d.orderFree = some (i, e) →
    s.roundTurn r = true → s.cnv.jobs = [] → s.cnv.waiting = [] → s.fab.doneSteps = [] → s.predsDone r.part (s.stepTags r) e = true →
    exec (.eval die p tag h job) s = .next (s.startJob die.toNat m r job i)) ∧
  (∀ (s : State) (die : BitVec 2) (chk : Check), s.bit (Key.cnvStat die.toNat) 31 = true →
    SMap.get (fun _ => 0) s.cnv.slots die.toNat + 42 ≤ s.tick → s.cnv.jobs = [] → chk.mismatches = 0 →
    ∃ t, exec (.evaluationSlot die chk) s = .next t ∧ SMap.get (fun _ => 0) t.cnv.slots die.toNat = s.tick ∧
      t.cnv.held = (s.cnv.held.filter fun q => decide (dieOfPanel q ≠ die.toNat)) ∧
      RegsBut [Key.cnvStat die.toNat] s t ∧ t.bit (Key.cnvStat die.toNat) 31 = true ∧ SameMemory s t ∧ t.out = s.out) ∧
  (∀ (s : State) (die : BitVec 2) (chk : Check) (j : Job) (e : SubEval), s.bit (Key.cnvStat die.toNat) 31 = true →
    SMap.get (fun _ => 0) s.cnv.slots die.toNat + 42 ≤ s.tick → s.power.idle = [] → s.cnv.jobs = [j] → j.die = die.toNat →
    (s.planSlot die.toNat).start = [(j.die, j.slot, e)] → e ∈ j.todo → (s.planSlot die.toNat).waits = [] → chk.mismatches = 0 →
    exec (.evaluationSlot die chk) s = .next ((State.setFld { s with cnv := { s.cnv with
        slots := SMap.set (fun _ => 0) s.cnv.slots die.toNat s.tick
        held := s.cnv.held.filter fun q => decide (dieOfPanel q ≠ die.toNat) } }
      (Key.cnvStat die.toNat) 26 16 ((s.planSlot die.toNat).spent.map fun x => x.2).sum).startEval j e)) ∧
  (∀ (s : State) (die : BitVec 2) (panel : BitVec 11) (j : Job) (e : SubEval), s.cnv.jobs = [j] → j.todo = [e] →
    e.repeat_ = true → 2048 * die.toNat + panel.toNat ∈ s.tilePanels j.desc e.ti e.tj →
    2048 * die.toNat + panel.toNat ∉ s.cnv.held →
    exec (.retryRepeat die panel) s = .next (s.evaluate j e (e.gain + 1) true))

/-- Programming: a panel that owes programming starts it when VPROG and the allowance let it and its group's tag is cleared; a group
bound by its tag passes its verify read, with the panels that failed it owed; an erased group holds no cell and no tag
(R378, R380, R382, 22 R549). -/
def Obligations.CanvasPrograms : Prop :=
  (∀ (s : State) (die : BitVec 2) (panel : BitVec 11), (s.panel (2048 * die.toNat + panel.toNat)).out = false →
    (s.panel (2048 * die.toNat + panel.toNat)).owed = true → (s.panel (2048 * die.toNat + panel.toNat)).batch = none →
    s.power.idle = [] → 2375 ≤ s.pins.vprog → s.mayProgram (2048 * die.toNat + panel.toNat) = true →
    ∃ t, exec (.programBatch die panel []) s = .next t ∧ (t.panel (2048 * die.toNat + panel.toNat)).batch = some 1 ∧
      (t.group (groupOfPanel (2048 * die.toNat + panel.toNat))).tag = {} ∧ SameMemory s t ∧ t.out = s.out) ∧
  (∀ (s : State) (g : Byte) (bad : List (BitVec 5 × BitVec 10)) (m : Model) (b : BoundGroup), s.boundGroup g.toNat = some (m, b) →
    b.retained = true → s.mayProgram (32 * g.toNat) = true →
    ∃ t, exec (.verifyRead g bad) s = .next t ∧
      (∀ e ∈ bad, (s.panel (32 * g.toNat + e.1.toNat)).image ≠ none → (t.panel (32 * g.toNat + e.1.toNat)).owed = true) ∧
      RegsBut [] s t ∧ SameMemory s t ∧ t.out = s.out) ∧
  (∀ (s : State) (g : Byte), (s.group g.toNat).model = none → (s.group g.toNat).tag.valid = false → 2375 ≤ s.pins.vprog →
    (∀ q ∈ groupPanels g.toNat, (s.panel q).copy = none) →
    ∃ t, exec (.erase g []) s = .next t ∧ (t.group g.toNat).tag = {} ∧
      (∀ q ∈ groupPanels g.toNat, (t.panel q).cells = [] ∧ (t.panel q).factors = [] ∧ (t.panel q).dev = [] ∧
        (t.panel q).spares = (s.panel q).spares ∧ (t.panel q).cycles = (s.panel q).cycles) ∧ SameMemory s t ∧ t.out = s.out)

/-- Upkeep: a re-reference that is due takes the group's factors, temperature and time; a temperature follows and a change beyond the limit
asks for one; a panel above its threshold is owed programming; a visit without a deviation counts and makes the panel clean; a
waiting column gets the next spare; and the two commands ask for their work (R383 to R402). -/
def Obligations.CanvasUpkeep : Prop :=
  (∀ (s : State) (g : Byte) (temp : Int), s.inService ⟨utGroup, g.toNat, 0⟩ = true → s.settled g.toNat = true →
    s.refDue g.toNat = true → s.power.idle = [] → (∀ q ∈ s.tilesOf g.toNat, (s.panel q).refreshing = false ∧
      (s.panel q).copy.map (s.poisoned · 524288) = some none) →
    ∃ t, exec (.rereference g temp) s = .next t ∧ (t.group g.toNat).tRef = some temp ∧ (t.group g.toNat).fT = 0x4000 ∧
      (t.group g.toNat).lastRef = some s.tick ∧ (t.group g.toNat).due = false ∧ t.cnv.held = s.cnv.held ++ s.tilesOf g.toNat ∧
      t.freeCtr = s.freeCtr + 1 ∧ SameMemory s t ∧ t.out = s.out) ∧
  (∀ (s : State) (g : Byte) (temp : Int), (s.group g.toNat).tRef = none →
    exec (.tempTrack g temp) s = .next (s.setGroup g.toNat { s.group g.toNat with temp := temp })) ∧
  (∀ (s : State) (g : Byte) (temp t0 : Int), (s.group g.toNat).tRef = some t0 →
    ∃ t, exec (.tempTrack g temp) s = .next t ∧ (t.group g.toNat).temp = temp ∧
      ((t.group g.toNat).due = true ↔ (s.group g.toNat).due = true ∨ max 1 (s.fld (Key.cpgUpkCfg g.toNat) 15 8) < (temp - t0).natAbs) ∧
      RegsBut [] s t ∧ SameMemory s t ∧ t.out = s.out) ∧
  (∀ (s : State) (die : BitVec 2) (panel : BitVec 11) (a i : Nat), (s.panel (2048 * die.toNat + panel.toNat)).out = false →
    (s.panel (2048 * die.toNat + panel.toNat)).refreshDue = true → (∀ e ∈ s.cnv.panels, e.2.refreshing = false) → 2375 ≤ s.pins.vprog →
    (s.panel (2048 * die.toNat + panel.toNat)).copy = some a → (s.panel (2048 * die.toNat + panel.toNat)).image = some i →
    s.poisoned a 524288 = none →
    exec (.refresh die panel) s = .next (s.setPanel (2048 * die.toNat + panel.toNat)
      { s.panel (2048 * die.toNat + panel.toNat) with owed := true, refreshDue := false, refreshing := true })) ∧
  (∀ (s : State) (die : BitVec 2) (panel : BitVec 11) (refs : Bool) (a i : Nat),
    s.inService ⟨utGroup, groupOfPanel (2048 * die.toNat + panel.toNat), 0⟩ = true →
    s.panelReady (2048 * die.toNat + panel.toNat) = true → (s.panel (2048 * die.toNat + panel.toNat)).batch = none →
    s.power.idle = [] → s.upkeepOff (groupOfPanel (2048 * die.toNat + panel.toNat)) = false → s.rel.inject = none →
    s.rel.deviant = [] → (s.panel (2048 * die.toNat + panel.toNat)).copy = some a →
    (s.panel (2048 * die.toNat + panel.toNat)).image = some i → s.poisoned a 524288 = none →
    ∃ t, exec (.sentinelVisit die panel [] refs) s = .next t ∧
      (t.panel (2048 * die.toNat + panel.toNat)).visits = (s.panel (2048 * die.toNat + panel.toNat)).visits + 1 ∧
      (t.panel (2048 * die.toNat + panel.toNat)).clean = s.time.count.toNat ∧
      (t.panel (2048 * die.toNat + panel.toNat)).dev = [] ∧
      t.cnv.held = s.cnv.held ++ [2048 * die.toNat + panel.toNat] ∧
      RegsBut [Key.cpgSweepCnt (groupOfPanel (2048 * die.toNat + panel.toNat))] s t ∧ SameMemory s t ∧ t.out = s.out) ∧
  (∀ (s : State) (die : BitVec 2) (panel : BitVec 11) (col : BitVec 10) (a i : Nat),
    (s.panel (2048 * die.toNat + panel.toNat)).out = false → col.toNat ∈ (s.panel (2048 * die.toNat + panel.toNat)).sparing →
    (s.panel (2048 * die.toNat + panel.toNat)).batch = none → 2375 ≤ s.pins.vprog →
    (s.panel (2048 * die.toNat + panel.toNat)).spares.length < 16 →
    (s.panel (2048 * die.toNat + panel.toNat)).copy = some a → (s.panel (2048 * die.toNat + panel.toNat)).image = some i →
    s.poisoned a 524288 = none →
    ∃ t, exec (.spareProgram die panel col false) s = .next t ∧
      (t.panel (2048 * die.toNat + panel.toNat)).spares = (s.panel (2048 * die.toNat + panel.toNat)).spares ++ [col.toNat] ∧
      col.toNat ∉ (t.panel (2048 * die.toNat + panel.toNat)).sparing ∧
      RegsBut [Key.cpgRemapCnt (groupOfPanel (2048 * die.toNat + panel.toNat))] s t ∧ SameMemory s t ∧ t.out = s.out) ∧
  (∀ (s : State) (m : Master) (g : Byte), s.Takes m (pgCpg g.toNat) (upkCmdAt g) 1 →
    ∃ t, exec (.rereferenceNow m g 0xF) s = .next t ∧
      WroteAs ((s.setGroup g.toNat { s.group g.toNat with due := true }).wakeAll [.canvas (g.toNat / 64)]) t) ∧
  (∀ (s : State) (m : Master) (g : Byte), s.Takes m (pgCpg g.toNat) (upkCmdAt g) 2 →
    ∃ t, exec (.visitNow m g 0xF) s = .next t ∧
      WroteAs ((s.setGroup g.toNat { s.group g.toNat with visit := s.tilesOf g.toNat }).wakeAll [.canvas (g.toNat / 64)]) t)

/-- Numbers: every finite number of a format is its own rounding, rounding takes the nearest value and of two the even one, and a saturating
conversion of anything but NaN is finite (13 R291; 14 R320). -/
def Obligations.NumbersRound : Prop :=
  (∀ f ∈ [fmt32, fmt16, fmtBf, fmtE4, fmtE5], ∀ w : Nat, w < 2 ^ (1 + f.eb + f.mb) → (f.decode w).isFin = true →
    f.encode (f.decode w) = w) ∧
  (∀ m d : Nat, 2 * ((shrRne m d * 2 ^ d : Int) - m).natAbs ≤ 2 ^ d ∧
    (2 * ((shrRne m d * 2 ^ d : Int) - m).natAbs = 2 ^ d → shrRne m d % 2 = 0)) ∧
  (∀ f ∈ [fmt32, fmt16, fmtBf, fmtE4, fmtE5], ∀ x : Fp, x.isNan = false → (f.decode (f.encodeSat x).1).isFin = true)

/-! ### Rings (17) -/

/-- Forming and dissolving a ring entry: FORM of an entry that may form starts it and asks both neighbours, a forming member asks again, an
answer in agreement from the last side makes the entry READY and one that differs fails it, 1,000 ms without agreement fail it,
and DISSOLVE returns it to IDLE or, while requests use it, only says BUSY (R404, R429). -/
def Obligations.RingsForm : Prop :=
  (∀ (s : State) (m : Master) (k : BitVec 3), s.Takes m pgShr (0x414 + 0x40 * k.toNat) 1 → s.ringState k.toNat = rgIdle →
    s.ready = true → s.pstate (s.ringPart k.toNat) = psActive →
    ((List.range 8).any fun j => decide (j ≠ k.toNat) && decide (s.ringHandle j = s.ringHandle k.toNat)) = false → s.sheet ≠ 4 →
    2 ≤ s.ringSize k.toNat → s.ringSize k.toNat ≤ 32 → s.ringMember k.toNat < s.ringSize k.toNat →
    ∃ t mid a b, exec (.form m k 0xF) s = .next t ∧ t.ringState k.toNat = rgForming ∧ (t.ring k.toNat).formed = some s.tick ∧
      t.bit (Key.irqStat pgShr) 2 = true ∧ SameMemory s t ∧
      t.out = s.out ++ mid ++ [.routed (BitVec.ofNat 16 (s.ringLeft k.toNat)) (.ring "FORM" a),
        .routed (BitVec.ofNat 16 (s.ringRight k.toNat)) (.ring "FORM" b)]) ∧
  (∀ (s : State) (k : BitVec 3), s.ringState k.toNat = rgForming → exec (.formRetry k) s = .next (s.sendForm k.toNat)) ∧
  (∀ (s : State) (k : BitVec 3) (a : RingAnswer), s.ringState k.toNat = rgForming → a.handle.toNat = s.ringHandle k.toNat →
    a.size.toNat = s.ringSize k.toNat → a.mirror = s.ringMirror k.toNat →
    a.member.toNat = (s.ringMember k.toNat + s.ringSize k.toNat - 1) % max 1 (s.ringSize k.toNat) →
    a.coords.toNat = s.ringLeft k.toNat → (s.ring k.toNat).rightOk = true → s.fld Key.ttlStat 31 29 ≠ 4 →
    ∃ t, exec (.formAnswer k true a) s = .next t ∧ t.ringState k.toNat = rgReady ∧ (t.ring k.toNat).formed = none ∧
      t.bit (Key.irqStat pgShr) 2 = true ∧ SameMemory s t) ∧
  (∀ (s : State) (k : BitVec 3) (left : Bool) (a : RingAnswer), s.ringState k.toNat = rgForming →
    a.handle.toNat = s.ringHandle k.toNat → a.size.toNat ≠ s.ringSize k.toNat →
    ∃ t, exec (.formAnswer k left a) s = .next t ∧ t.ringState k.toNat = rgFailed ∧
      t.fld (Key.shrRingStat k.toNat) 28 24 = 0x02 ∧ t.Latched pgShr 0 ∧ SameMemory s t) ∧
  (∀ (s : State) (k : BitVec 3) (t0 : Nat), s.ringState k.toNat = rgForming → (s.ring k.toNat).formed = some t0 →
    t0 + 100000000 ≤ s.tick →
    ∃ t, exec (.formTimeout k) s = .next t ∧ t.ringState k.toNat = rgFailed ∧ t.fld (Key.shrRingStat k.toNat) 28 24 = 0x01 ∧
      t.Latched pgShr 0 ∧ SameMemory s t) ∧
  (∀ (s : State) (m : Master) (k : BitVec 3), s.Takes m pgShr (0x414 + 0x40 * k.toNat) 2 → s.ringState k.toNat ≠ rgIdle →
    s.ringReqs k.toNat = [] → (s.ring k.toNat).mirror = [] →
    ∃ t, exec (.dissolve m k 0xF) s = .next t ∧ t.ringState k.toNat = rgIdle ∧ t.ring k.toNat = {} ∧ SameMemory s t) ∧
  (∀ (s : State) (m : Master) (k : BitVec 3), s.Takes m pgShr (0x414 + 0x40 * k.toNat) 2 → s.ringState k.toNat ≠ rgIdle →
    s.ringReqs k.toNat ≠ [] →
    ∃ t, exec (.dissolve m k 0xF) s = .next t ∧ WroteAs (s.setFld (Key.shrRingStat k.toNat) 28 24 0x07) t)

/-- A pass of a ring: the leader gathers READY and a member relays it, START sets the pass out, a due step begins, RELEASE counts up to
5,000 ticks after it is due, a DELAY moves the rest, and SWEEP and the partial records go around to the home (R411, R412, R414,
R415, R419, R420). -/
def Obligations.RingsRun : Prop :=
  (∀ (s : State) (k : BitVec 3) (member : BitVec 5) (tag : BitVec 64) (layer pages : Nat) (r : Req),
    s.ringState k.toNat = rgReady → member.toNat < s.ringSize k.toNat →
    ((s.ringReqs k.toNat).find? fun r => decide (r.tag = tag) && r.admitted) = some r →
    s.leaderOf k.toNat r ≠ s.ringMember k.toNat → member.toNat ≠ s.ringMember k.toNat → s.routeTo (s.ringRight k.toNat) ≠ [] →
    ∃ a, exec (.ready k member tag layer pages) s
      = .next (s.emit (.routed (BitVec.ofNat 16 (s.ringRight k.toNat)) (.ring "READY" a)))) ∧
  (∀ (s : State) (k : BitVec 3) (member : BitVec 5) (tag : BitVec 64) (layer pages : Nat) (r : Req),
    s.ringState k.toNat = rgReady → member.toNat < s.ringSize k.toNat → 1 < s.ringSize k.toNat →
    ((s.ringReqs k.toNat).find? fun r => decide (r.tag = tag) && r.admitted) = some r →
    s.leaderOf k.toNat r = s.ringMember k.toNat → (s.ring k.toNat).readies = [] →
    ∃ t, exec (.ready k member tag layer pages) s = .next t ∧ (t.ring k.toNat).readies = [(member.toNat, tag, layer, pages)] ∧
      RegsBut [] s t ∧ SameMemory s t ∧ t.out = s.out) ∧
  (∀ (s : State) (k : BitVec 3) (leader : BitVec 5) (t0 : BitVec 64) (d steps : Nat), s.ringState k.toNat = rgReady →
    leader.toNat ≠ s.ringMember k.toNat →
    ∃ t, exec (.start k leader t0 d steps) s = .next t ∧ (t.ring k.toNat).t0 = t0.toNat ∧ (t.ring k.toNat).d = d ∧
      (t.ring k.toNat).steps = steps ∧ (t.ring k.toNat).step = 0 ∧ ((t.ring k.toNat).running = true ↔ 0 < steps) ∧ SameMemory s t) ∧
  (∀ (s : State) (k : BitVec 3), s.ringGoes k.toNat = true → (s.ring k.toNat).running = true →
    (s.ring k.toNat).step < (s.ring k.toNat).steps → (s.ring k.toNat).due (s.ring k.toNat).step ≤ s.time.count.toNat →
    ∃ t, exec (.stepDue k) s = .next t ∧ (t.ring k.toNat).step = (s.ring k.toNat).step + 1 ∧ SameMemory s t) ∧
  (∀ (s : State) (k : BitVec 3) (step : Nat), s.ringState k.toNat = rgReady → (s.ring k.toNat).running = true →
    step < (s.ring k.toNat).steps → step ∉ (s.ring k.toNat).leftReleased →
    (s.time.count.toNat ≤ (s.ring k.toNat).due step + 5000 →
      ∃ t, exec (.ringRelease k step false) s = .next t ∧ (t.ring k.toNat).leftReleased = (s.ring k.toNat).leftReleased ++ [step] ∧
        RegsBut [] s t ∧ SameMemory s t) ∧
    ((s.ring k.toNat).due step + 5000 < s.time.count.toNat → (s.ring k.toNat).pairedSince = none →
      exec (.ringRelease k step false) s = .next s)) ∧
  (∀ (s : State) (k : BitVec 3) (step : Nat),
    ∃ t, exec (.ringRelease k step true) s = .next t ∧ (t.ring k.toNat).kept = (s.ring k.toNat).kept.drop 1 ∧ RegsBut [] s t ∧
      SameMemory s t ∧ t.out = s.out) ∧
  (∀ (s : State) (k : BitVec 3) (member : BitVec 5) (step e : Nat), s.ringState k.toNat = rgReady →
    (s.ring k.toNat).running = true → e ≤ (s.ring k.toNat).d → (s.ring k.toNat).step ≤ step → step < (s.ring k.toNat).steps →
    s.time.count.toNat < (s.ring k.toNat).due step → (member.toNat, step) ∉ (s.ring k.toNat).delayed →
    ∃ t, exec (.delay k member step e) s = .next t ∧ (t.ring k.toNat).moved = (s.ring k.toNat).moved + e ∧
      t.reg Key.shrDelayCnt = satInc (s.reg Key.shrDelayCnt) ∧ RegsBut [Key.shrDelayCnt] s t ∧ SameMemory s t) ∧
  (∀ (s : State) (k : BitVec 3) (tag : BitVec 64) (token : BitVec 18) (shard : Nat) (rows : List Byte) (r : Req) (h : Shard),
    ((s.ringReqs k.toNat).find? fun r => decide (r.tag = tag) && r.inDecode) = some r →
    ((s.shardsOf r.part tag).find? fun h => decide (h.idx = shard)) = some h → s.ringState k.toNat = rgReady →
    s.routeTo (s.ringRight k.toNat) ≠ [] →
    (s.ringMember k.toNat + 1) % max 1 (s.ringSize k.toNat) ≠ s.homeOf k.toNat r →
    ∃ t a, exec (.sweep k tag token 0 shard rows) s = .next t ∧ (tag, shard, rows) ∈ (t.ring k.toNat).sweeps ∧
      t.out = s.out ++ [.routed (BitVec.ofNat 16 (s.ringRight k.toNat)) (.ring "SWEEP" a)] ∧ RegsBut [] s t ∧ SameMemory s t) ∧
  (∀ (s : State) (k : BitVec 3) (tag : BitVec 64) (member : BitVec 5) (x : RingPartial) (r : Req),
    ((s.ringReqs k.toNat).find? fun r => decide (r.tag = tag) && r.inDecode) = some r →
    s.ringState k.toNat = rgReady → member.toNat < s.ringSize k.toNat →
    (s.homeOf k.toNat r ≠ s.ringMember k.toNat → s.routeTo (s.ringRight k.toNat) ≠ [] → ∃ a, exec (.partialRecord k tag member x) s
      = .next (s.emit (.routed (BitVec.ofNat 16 (s.ringRight k.toNat)) (.ring "PARTIAL" a)))) ∧
    (s.homeOf k.toNat r = s.ringMember k.toNat → (s.ring k.toNat).partials = [] → 1 < s.ringSize k.toNat →
      ∃ t, exec (.partialRecord k tag member x) s = .next t ∧ (t.ring k.toNat).partials = [(tag, member.toNat, x)] ∧
        RegsBut [] s t ∧ SameMemory s t ∧ t.out = s.out))

/-- Ring failures and recovery: an END takes effect at the next step boundary, a STALL already heard changes nothing and a missing RELEASE or
READY declares one, a recovery that takes too long fails the ring with RECOVER_FAIL, a context that finds the request goes on, and
mirror rows are written, acknowledged and noted on the entry (R416, R417, R423, R426). -/
def Obligations.RingsRecover : Prop :=
  (∀ (s : State) (k : BitVec 3) (tag : BitVec 64) (cause : RingCause) (r : Req),
    ((s.ringReqs k.toNat).find? fun r => decide (r.tag = tag)) = some r → r.lane = true → s.ringGoes k.toNat = true →
    exec (.ringEnd k tag cause) s = .next (s.setReq { r with stop := some (ringEndStatus cause), stopCause := none })) ∧
  (∀ (s : State) (k : BitVec 3) (member : BitVec 5), member.toNat < s.ringSize k.toNat →
    (s.ringState k.toNat = rgRecovering → (s.ring k.toNat).stalled = some member.toNat → exec (.stall k member false) s = .next s) ∧
    (s.ringState k.toNat = rgReady → member.toNat ≠ s.ringMember k.toNat →
      exec (.stall k member false) s = .next (s.takeStall k.toNat member.toNat))) ∧
  (∀ (s : State) (k : BitVec 3) (member : BitVec 5), s.ringGoes k.toNat = true →
    ∃ t, exec (.stall k member true) s = .next t ∧ (t.ring k.toNat).pairedSince = some s.tick ∧ t.ringGoes k.toNat = false ∧
      RegsBut [] s t ∧ SameMemory s t ∧ t.out = s.out) ∧
  (∀ (s : State) (k : BitVec 3) (i : Nat), s.ringGoes k.toNat = true → (s.ring k.toNat).running = true →
    i < (s.ring k.toNat).steps → i ∉ (s.ring k.toNat).leftReleased → (s.ring k.toNat).due i + 5000 ≤ s.time.count.toNat →
    exec (.stepTimeout k) s = .next (s.declareStall k.toNat
      ((s.ringMember k.toNat + max 1 (s.ringSize k.toNat) - 1) % max 1 (s.ringSize k.toNat)))) ∧
  (∀ (s : State) (k : BitVec 3) (member : BitVec 5) (t0 : Nat), s.ringGoes k.toNat = true → member.toNat < s.ringSize k.toNat →
    (s.ring k.toNat).firstReady = some t0 → t0 + 100000 * max 1 (s.fld Key.shrCfg 15 8) ≤ s.tick →
    (∀ e ∈ (s.ring k.toNat).readies, e.1 ≠ member.toNat) →
    exec (.barrierTimeout k member) s = .next (s.declareStall k.toNat member.toNat)) ∧
  (∀ (s : State) (k : BitVec 3), s.ringState k.toNat = rgRecovering →
    (s.ring k.toNat).since + 100000 * max 1 (s.fld Key.shrCfg 31 16) ≤ s.tick → s.reqs = [] →
    ∃ t, exec (.recoverTimeout k) s = .next t ∧ t.ringState k.toNat = rgFailed ∧ t.Latched pgShr 2 ∧ SameMemory s t) ∧
  (∀ (s : State) (k : BitVec 3) (c : RingContext) (r : Req), s.fld Key.jryStat 31 29 = 3 → s.ringState k.toNat = rgRecovering →
    (s.ring k.toNat).stalled = some (s.ringMember k.toNat) → c.mirrorOk = true → c.pages = [] → c.last = true → c.resend = none →
    ((s.ringReqs k.toNat).find? fun r => decide (r.tag = descTag c.desc)) = some r →
    exec (.context k c) s = .next (s.ringRecovered k.toNat).kvpUpdate) ∧
  (∀ (s : State) (k : BitVec 3) (tag : BitVec 64) (shard page slot : Nat) (scale rows : List Byte) (h : Shard) (p : MirrorPage),
    s.ringState k.toNat = rgReady → s.ringMirror k.toNat = true → s.rel.inject = none →
    ((s.shardsOf (s.ringPart k.toNat) tag).find? fun h => decide (h.idx = shard)) = some h →
    ((s.ring k.toNat).mirror.find? fun p => decide (p.tag = tag) && decide (p.shard = shard) && decide (p.page = page)) = some p →
    ∃ t q a, exec (.mirrorRows k tag shard page slot scale rows) s = .next t ∧ q ∈ (t.ring k.toNat).mirror ∧ q.tag = p.tag ∧
      q.frame = p.frame ∧ q.valid = max p.valid (slot + rows.length / max 1 (2 * h.heads * h.dim)) ∧ RegsBut [] s t ∧
      t.out = s.out ++ [.routed (BitVec.ofNat 16 (s.ringLeft k.toNat)) (.ring "MIRROR_ACK" a)]) ∧
  (∀ (s : State) (entry valid k : Nat) (h : Shard) (r : Req), s.shardOfEntry entry = some h → s.req h.part h.tag = some r →
    s.reqRing r = some k → s.ringMirror k = true → (s.pte (s.auth entry)).present = true → (s.pte (s.auth entry)).valid ≤ valid →
    exec (.mirrorAck entry valid) s = .next ((s.setPte (s.auth entry)
      { s.pte (s.auth entry) with mirror := true, dirty := false }).ringRelease k))

/-! ### Links (18) -/

/-- A bundle trains and comes up: training that locks four lanes goes on to IDENT and sends the identity record, a good record of the peer
puts the bundle in HELD with the peer's identity and credits shown, a bad or missing one takes it DOWN, and a DOWN bundle trains
again at its time (R430, R449, R450). -/
def Obligations.LinksTrain : Prop :=
  (∀ (s : State) (b : BitVec 4) (r : TrainResult), s.bundleState b.toNat = bsEqualise ∨ s.bundleState b.toNat = bsLock →
    r.lanes = 0xF →
    ∃ t x, exec (.linkTraining b r) s = .next t ∧ t.bundleState b.toNat = bsIdent ∧ t.fld (Key.lnkStat b.toNat) 3 0 = 15 ∧
      t.reg (Key.lnkTrainUs b.toNat) = r.us ∧ (t.bundle b.toNat).identAt = some s.tick ∧
      RegsBut [Key.lnkStat b.toNat, Key.lnkTrainUs b.toNat] s t ∧ SameMemory s t ∧
      t.out = s.out ++ [.link b.toNat (.identity x)]) ∧
  (∀ (s : State) (b : BitVec 4) (rec : BitVec 512), b.toNat < 12 → s.bundleState b.toNat = bsIdent → identBad rec = false →
    ∃ t, exec (.identityRecord b rec) s = .next t ∧ t.bundleState b.toNat = bsHeld ∧
      t.reg (Key.lnkPeerSerialLo b.toNat) = BitVec.ofNat 32 (dfield rec 8 0 32) ∧
      t.reg (Key.lnkPeerSerialHi b.toNat) = BitVec.ofNat 32 (dfield rec 0xC 0 32) ∧
      (∀ v, v < 6 → t.fld (Key.lnkVcCredit b.toNat v) 27 16 = min 4095 (dfield rec (0x10 + 2 * v) 0 16)) ∧
      (t.bundle b.toNat).attempts = 0 ∧ b.toNat ∉ t.top.admitted ∧ SameMemory s t ∧ t.out = s.out) ∧
  (∀ (s : State) (b : BitVec 4) (rec : BitVec 512), s.bundleState b.toNat = bsIdent → identBad rec = true →
    exec (.identityRecord b rec) s = .next (s.downFor b.toNat 1 0)) ∧
  (∀ (s : State) (b : BitVec 4) (t0 : Nat), (s.bundle b.toNat).identAt = some t0 → s.bundleState b.toNat = bsIdent →
    t0 + 1000000 ≤ s.tick → exec (.identTimeout b) s = .next (s.downFor b.toNat 1 0)) ∧
  (∀ (s : State) (b : BitVec 4) (t0 : Nat), (s.bundle b.toNat).retryAt = some t0 → b.toNat < 12 →
    8 + b.toNat / 6 ∉ s.boot.inReset → s.bundleState b.toNat = bsDown → s.bit (Key.lnkCtl b.toNat) 0 = false → t0 ≤ s.tick →
    ∃ t, exec (.retrain b) s = .next t ∧ t.bundleState b.toNat = bsEqualise ∧ (t.bundle b.toNat).trainStart = some s.tick ∧
      (t.bundle b.toNat).attempts = (s.bundle b.toNat).attempts + 1 ∧ RegsBut [Key.lnkStat b.toNat] s t ∧ SameMemory s t ∧
      t.out = s.out) ∧
  (∀ (s : State) (b : BitVec 4) (t0 : Nat), (s.bundle b.toNat).trainStart = some t0 → s.bundleState b.toNat = bsLock →
    t0 + 40000000 ≤ s.tick →
    exec (.trainFail b) s = .next (s.downFor b.toNat 0 (15 - s.fld (Key.lnkStat b.toNat) 3 0)))

/-- A bundle goes down: loss of signal, too many replays, replays without progress and a stalled credit latch their cause and take it DOWN;
a bundle that goes DOWN without traffic is counted and shows no lane; hold_down keeps it there; and the sheet takes legal codes
(R432, R449 to R452, 19 R478). -/
def Obligations.LinksFail : Prop :=
  (∀ (s : State) (b lanes : BitVec 4), b.toNat < 12 → 2 ≤ s.bundleState b.toNat →
    exec (.los b lanes) s = .next (s.downFor b.toNat 5 lanes.toNat)) ∧
  (∀ (s : State) (b : BitVec 4), s.bundleRuns b.toNat = true → max 1 (s.fld (Key.lnkCfg b.toNat) 31 16)
      < ((s.bundle b.toNat).replays.filter fun t => decide (s.tick < t + 1000000)).length →
    exec (.retryLimit b) s = .next (s.downFor b.toNat 2 0)) ∧
  (∀ (s : State) (b : BitVec 4), s.bundleRuns b.toNat = true → 8 ≤ (s.bundle b.toNat).stuck →
    exec (.replayFail b) s = .next (s.downFor b.toNat 3 0)) ∧
  (∀ (s : State) (b : BitVec 4) (vc : BitVec 3) (n : Nat), s.bundleRuns b.toNat = true →
    SMap.get (fun _ => 0) (s.bundle b.toNat).zero vc.toNat = n + 1 →
    n + 100000 * max 1 (s.fld (Key.lnkCfg b.toNat) 15 8) ≤ s.tick →
    exec (.creditStall b vc) s = .next (s.downFor b.toNat 4 0)) ∧
  (∀ (s : State) (b : Nat) (hold : Bool), b < 12 → s.bundleState b ≠ bsDown → s.links.tx = [] → s.isStay b = false →
    (s.bundleDown b hold).bundleState b = bsDown ∧ (s.bundleDown b hold).fld (Key.lnkStat b) 3 0 = 0 ∧
      (s.bundleDown b hold).reg (Key.lnkDownCnt b) = satInc (s.reg (Key.lnkDownCnt b)) ∧
      (hold = true → ((s.bundleDown b hold).bundle b).retryAt = none) ∧
      RegsBut [Key.lnkStat b, Key.lnkDownCnt b] s (s.bundleDown b hold) ∧ SameMemory s (s.bundleDown b hold) ∧
      (s.bundleDown b hold).out = s.out) ∧
  (∀ (s : State) (m : Master) (b : BitVec 4) (v : Word), b.toNat < 12 → s.Takes m (pgLnk b.toNat) 0x104 v →
    s.Uncontested m (Key.lnkCtl b.toNat) → s.locked (pgLnk b.toNat) = false →
    (getBits v 0 0 = 1 → ∃ t, exec (.holdDown m b 0xF v) s = .next t ∧
      WroteAs ((s.store m (pgLnk b.toNat) 0x104 v).bundleDown b.toNat true) t) ∧
    (getBits v 0 0 = 0 → s.bit (Key.lnkCtl b.toNat) 0 = true →
      ∃ t, exec (.holdDown m b 0xF v) s = .next t ∧ (t.bundle b.toNat).retryAt = some s.tick ∧
        t.bit (Key.lnkCtl b.toNat) 0 = false ∧ RegsBut [Key.lnkCtl b.toNat] s t ∧ SameMemory s t ∧ t.out = s.out)) ∧
  (∀ (s : State) (m : Master) (v : Word), s.Takes m (pgLnk 0) 0x180 v → s.Uncontested m Key.lnkSheet →
    (getBits v 6 4 ≤ 4 → ∃ t, exec (.sheetWrite m 0xF v) s = .next t ∧ t.fld Key.lnkSheet 6 4 = getBits v 6 4 ∧
      RegsBut [Key.lnkSheet] s t ∧ SameMemory s t ∧ t.out = s.out) ∧
    (4 < getBits v 6 4 → ∃ t, exec (.sheetWrite m 0xF v) s = .next t ∧ WroteAs s t))

/-- Flits and segments: a DATA flit in order is accepted and one out of order or with a bad CRC is answered with NAK, a NAK and a missing
acknowledgement replay what is unacknowledged, IDLE and TELLTALE flits carry their header, the error ratio is shown and judged, a
segment of an UP bundle is received, one with a bad CRC latches, and a late message fails its macro (R434 to R437, R443, R452). -/
def Obligations.FlitsAndSegments : Prop :=
  (∀ (s : State) (b : BitVec 4) (flit : BitVec 2048), s.bundleState b.toNat = bsUp → s.rel.inject = none → flitOk flit = true →
    flitKind flit = 1 → flitLast flit = false → flitSeq flit = ((s.takeHeader b.toNat flit).bundle b.toNat).expect →
    ∃ t, exec (.data b flit false none) s = .next t ∧
      (t.bundle b.toNat).expect = (((s.takeHeader b.toNat flit).bundle b.toNat).expect + 1) % 4096 ∧
      (t.bundle b.toNat).nakSent = false ∧ t.regs = (s.takeHeader b.toNat flit).regs ∧
      SameMemory (s.takeHeader b.toNat flit) t) ∧
  (∀ (s : State) (b : BitVec 4) (flit : BitVec 2048), s.bundleState b.toNat = bsUp → s.rel.inject = none → flitOk flit = true →
    flitKind flit = 1 → flitSeq flit ≠ ((s.takeHeader b.toNat flit).bundle b.toNat).expect →
    exec (.data b flit false none) s = .next ((s.takeHeader b.toNat flit).sendNak b.toNat)) ∧
  (∀ (s : State) (b : BitVec 4) (flit : BitVec 2048), s.bundleRuns b.toNat = true → s.rel.inject = none → flitOk flit = false →
    (s.bundle b.toNat).nakSent = false →
    ∃ t, exec (.data b flit false none) s = .next t ∧ (t.bundle b.toNat).nakSent = true ∧
      t.reg (Key.lnkCrcCnt b.toNat) = satInc (s.reg (Key.lnkCrcCnt b.toNat)) ∧ RegsBut [Key.lnkCrcCnt b.toNat] s t ∧
      SameMemory s t ∧ t.out = s.out ++ [.link b.toNat (.nak (BitVec.ofNat 12 ((s.bundle b.toNat).expect + 4095)))]) ∧
  (∀ (s : State) (b : BitVec 4) (flit : BitVec 2048), s.bundleRuns b.toNat = true → flitOk flit = true → flitKind flit = 2 →
    flitLen flit = 1 → exec (.nak b flit) s = .next ((s.takeHeader b.toNat flit).replay b.toNat)) ∧
  (∀ (s : State) (b : BitVec 4) (flit : BitVec 2048), s.bundleRuns b.toNat = true → flitOk flit = true →
    exec (.idleFlit b flit) s = .next (s.takeHeader b.toNat flit)) ∧
  (∀ (s : State) (b : BitVec 4), s.bundleRuns b.toNat = true → (s.bundle b.toNat).unacked ≠ [] →
    (s.bundle b.toNat).lastAck + 200 ≤ s.tick →
    ∃ t, exec (.replayTimeout b) s = .next t ∧ (t.bundle b.toNat).again = (s.bundle b.toNat).unacked ∧
      (t.bundle b.toNat).unacked = (s.bundle b.toNat).unacked ∧ (t.bundle b.toNat).stuck = (s.bundle b.toNat).stuck + 1 ∧
      t.reg (Key.lnkRetryCnt b.toNat) = satInc (s.reg (Key.lnkRetryCnt b.toNat)) ∧ RegsBut [Key.lnkRetryCnt b.toNat] s t ∧
      SameMemory s t ∧ t.out = s.out) ∧
  (∀ (s : State) (b : BitVec 4) (flit : BitVec 2048) (rx : BitVec 80), s.bundleRuns b.toNat = true → flitOk flit = true →
    flitKind flit = 4 → exec (.telltale b flit rx) s = .next ((s.takeHeader b.toNat flit).takeTelltale b.toNat
      (ttlPeer flit rx.toNat s.tick) (ttlField flit 0x20 10) (ttlField flit 0x2A 10))) ∧
  (∀ (s : State) (b : BitVec 4) (errors : Word), b.toNat < 12 → s.bundleState b.toNat ≠ bsDown →
    ∃ t, exec (.berWarn b errors) s = .next t ∧ t.reg (Key.lnkSymErr b.toNat) = errors ∧ SameMemory s t ∧
      (85000000 < errors.toNat * 8192 → t.Latched (pgLnk b.toNat) 6 ∧
        RegsBut (Key.lnkSymErr b.toNat :: latchKeys (pgLnk b.toNat)) s t) ∧
      (errors.toNat * 8192 ≤ 85000000 → RegsBut [Key.lnkSymErr b.toNat] s t ∧ t.out = s.out)) ∧
  (∀ (s : State) (b : BitVec 4) (src : BitVec 16) (vc : BitVec 3) (hdr : BitVec 256) (data : List Byte) (crc : Word),
    s.bundleState b.toNat = bsUp → s.power.idle = [] →
    exec (.segment b src vc hdr data crc none) s = .next (s.recvSegment src.toNat vc.toNat hdr data crc.toNat)) ∧
  (∀ (s : State) (src vc crc : Nat) (hdr : BitVec 256) (data : List Byte), (src, vc, dfield hdr 0 0 32) ∉ s.links.delivered →
    crc32c data ≠ crc → s.rel.inject = none → s.groupOf (dfield hdr 0x18 0 16) src = none →
    (s.recvSegment src vc hdr data crc).Latched pgCol 1 ∧ RegsBut (latchKeys pgCol) s (s.recvSegment src vc hdr data crc) ∧
      SameMemory s (s.recvSegment src vc hdr data crc)) ∧
  (∀ (s : State) (spar : BitVec 2) (slot : BitVec 10) (x : MacroSt) (t0 : Nat),
    (s.links.waits.find? fun e => decide (e.1 = spar.toNat) && decide (e.2.1 = slot.toNat)) = some (spar.toNat, slot.toNat, t0) →
    (s.fab.flight.find? fun x => decide (x.spar = spar.toNat) && decide (x.slot = slot.toNat)) = some x →
    t0 + 100000 * max 1 (s.fld (Key.lnkCfg 0) 7 0) ≤ s.tick →
    exec (.msgTimeout spar slot) s = .next (s.xferFail x 0 0x02))

/-! ### Topology and takeover (19) -/

/-- The rig check: new coordinates of a package without work are taken and every bundle is held and checked again, LOAD and CHECK begin the
check, a check of a bundle shows its class and latches a mismatch, RIG_OK on both sides puts an admitted bundle UP, coordinates that
do not come in time latch, and reach follows what is said (R461, R462, R471 to R474, R486). -/
def Obligations.RigCheck : Prop :=
  (∀ (s : State) (m : Master) (v : Word), s.Takes m pgTop 0x100 v → s.Uncontested m Key.topCoord → getBits v 15 8 ≤ 63 →
    getBits v 7 0 ≤ 33 → (∀ p ∈ allParts, s.pstate p ≤ psConfig) → s.fld Key.jryStat 31 29 ≤ 1 →
    ∃ t, exec (.topCoordWrite m 0xF v) s = .next t ∧ t.fld Key.topCoord 15 0 = getBits v 15 0 ∧
      t.bit Key.topCoord 31 = v.toNat.testBit 31 ∧ t.top.classed = [] ∧ t.bit Key.topRigStat 31 = false ∧
      (∀ b, b < 12 → t.bundleState b ≠ bsUp) ∧ SameMemory s t ∧ t.out = s.out) ∧
  (∀ (s : State) (m : Master) (v : Word), s.Takes m pgTop 0x100 v → 63 < getBits v 15 8 →
    ∃ t, exec (.topCoordWrite m 0xF v) s = .next t ∧ WroteAs s t) ∧
  (∀ (s : State) (m : Master), s.Takes m pgTop 0x104 1 →
    ∃ t, exec (.load m 0xF) s = .next t ∧ t.top.plan = some (allBundles.map fun b => s.reg (Key.topPlan b)) ∧ t.top.classed = [] ∧
      t.bit Key.topRigStat 31 = false ∧ SameMemory s t ∧ t.out = s.out) ∧
  (∀ (s : State) (m : Master), s.Takes m pgTop 0x104 2 →
    ∃ t, exec (.check m 0xF) s = .next t ∧ t.top.classed = [] ∧ t.bit Key.topRigStat 31 = false ∧
      RegsBut [Key.topRigStat] s t ∧ SameMemory s t ∧ t.out = s.out) ∧
  (∀ (s : State) (b : BitVec 4), b.toNat < 12 → s.rigMayRun = true → s.hasPeer b.toNat = true → s.rigClass b.toNat = (3, 0) →
    s.peerCoords b.toNat ≠ s.coords → s.admits b.toNat (3, 0) = false →
    ∃ t, exec (.rigCheck b) s = .next t ∧ t.fld Key.topRigStat (2 * b.toNat + 1) (2 * b.toNat) = 3 ∧ b.toNat ∈ t.top.classed ∧
      b.toNat ∉ t.top.admitted ∧ t.Latched pgTop 0 ∧ SameMemory s t) ∧
  (∀ (s : State) (b : BitVec 4), b.toNat < 12 → s.bundleState b.toNat = bsHeld → b.toNat ∈ s.top.admitted →
    b.toNat ∈ s.top.rigSent →
    ∃ t, exec (.rigOk b) s = .next t ∧ t.bundleState b.toNat = bsUp ∧ RegsBut [Key.lnkStat b.toNat] s t ∧ SameMemory s t ∧
      t.out = s.out) ∧
  (∀ (s : State) (t0 : Nat), s.top.trained = some t0 → s.rigMayRun = false → s.bit Key.topRigStat 30 = false →
    t0 + 100000000 * max 1 (s.fld Key.topRigCfg 7 0) ≤ s.tick →
    ∃ t, exec .rigTimeout s = .next t ∧ t.bit Key.topRigStat 30 = true ∧ t.Latched pgTop 1 ∧
      RegsBut (Key.topRigStat :: latchKeys pgTop) s t ∧ SameMemory s t) ∧
  (∀ (s : State) (c : BitVec 16) (ra rb : BitVec 6), s.links.tx = [] → ra ≠ 0 →
    ∃ t, exec (.reach c ra rb) s = .next t ∧ (c.toNat, ra.toNat, rb.toNat) ∈ t.top.reach ∧
      (∀ e ∈ t.top.reach, e.1 = c.toNat → e = (c.toNat, ra.toNat, rb.toNat)) ∧ RegsBut [] s t ∧ SameMemory s t ∧ t.out = s.out)

/-- A takeover: ARM from IDLE at a spare's slot arms it, DISARM returns it, TAKEOVER of coordinates in its group fences the leaves, the last
confirmations of each stage take the coordinates and then settle, the end of settling serves and tells the requesters, a missing
confirmation fails back to ARMED, and a busy spare sends the requester on to slot 33 (R476 to R478, R480, R484, R488). -/
def Obligations.Takeover : Prop :=
  (∀ (s : State) (m : Master), s.Takes m pgJry 0x104 1 → s.jury = jyIdle →
    (s.coords % 256 = 32 → s.staysPassed = true →
      ∃ t, exec (.arm m 0xF) s = .next t ∧ t.jury = jyArmed ∧ t.fld Key.jryStat 28 24 = 0 ∧ RegsBut [Key.jryStat] s t ∧
        SameMemory s t ∧ t.out = s.out) ∧
    (s.coords % 256 < 32 →
      ∃ t, exec (.arm m 0xF) s = .next t ∧ t.jury = jyIdle ∧ t.fld Key.jryStat 28 24 = 2 ∧ RegsBut [Key.jryStat] s t ∧
        SameMemory s t ∧ t.out = s.out)) ∧
  (∀ (s : State) (m : Master), s.Takes m pgJry 0x104 2 → s.jury = jyArmed →
    ∃ t, exec (.disarm m 0xF) s = .next t ∧ t.jury = jyIdle ∧ RegsBut [Key.jryStat] s t ∧ SameMemory s t ∧ t.out = s.out) ∧
  (∀ (s : State) (x c : BitVec 16), s.jury = jyArmed → x.toNat / 256 = s.coords / 256 → s.leaves ≠ [] →
    ∃ t k, exec (.takeover none 0xF x c) s = .next t ∧ t.jury = jyTaking ∧ t.fld Key.jryStat 15 0 = x.toNat ∧
      t.top.take = some k ∧ k.x = x.toNat ∧ k.stage = 0 ∧ k.asked = [some c.toNat] ∧ t.top.spare = some s.coords ∧
      RegsBut [Key.jryStat] s t ∧ SameMemory s t) ∧
  (∀ (s : State) (be : BitVec 4) (x c : BitVec 16), s.jury ≠ jyArmed → s.top.take = none →
    exec (.takeover none be x c) s = .next (s.emit (.routed c (.leaf "BUSY" [s.coords % 256, x.toNat])))) ∧
  (∀ (s : State) (leaf : BitVec 4) (k : Machine.Takeover), s.top.take = some k → k.stage = 0 → s.jury = jyTaking →
    k.left = [leaf.toNat] → s.leaves ≠ [] →
    ∃ t k', exec (.fenceConfirm leaf) s = .next t ∧ t.reg Key.topCoord = BitVec.ofNat 32 (2 ^ 31 + k.x) ∧ t.top.take = some k' ∧
      k'.stage = 1 ∧ k'.since = s.tick ∧ RegsBut [Key.topCoord] s t ∧ SameMemory s t) ∧
  (∀ (s : State) (leaf : BitVec 4) (k : Machine.Takeover), s.top.take = some k → k.stage = 1 → s.jury = jyTaking →
    k.left = [leaf.toNat] →
    ∃ t k', exec (.rebindConfirm leaf) s = .next t ∧ t.top.take = some k' ∧ k'.stage = 2 ∧ k'.since = s.tick ∧
      RegsBut [] s t ∧ SameMemory s t ∧ t.out = s.out) ∧
  (∀ (s : State) (k : Machine.Takeover), s.top.take = some k → k.stage = 2 → s.jury = jyTaking →
    k.since + 100 * max 1 (s.fld Key.jryCfg 31 16) ≤ s.tick →
    ∃ t, exec .settleEnd s = .next t ∧ t.jury = jyServing ∧ t.top.take = none ∧
      t.reg Key.jryTakeCnt = satInc (s.reg Key.jryTakeCnt) ∧ RegsBut [Key.jryStat, Key.jryTakeCnt] s t ∧ SameMemory s t ∧
      (∀ c, some c ∈ k.asked → Out.routed (BitVec.ofNat 16 c) (.leaf "TAKEN" [k.x]) ∈ t.out)) ∧
  (∀ (s : State) (k : Machine.Takeover), s.top.take = some k → k.stage = 0 → s.jury = jyTaking →
    k.since + 100 * max 1 (s.fld Key.jryCfg 15 0) ≤ s.tick →
    ∃ t, exec .confirmTimeout s = .next t ∧ t.jury = jyArmed ∧ t.fld Key.jryStat 28 24 = 4 ∧ t.top.take = none ∧
      t.top.spare = none ∧ t.Latched pgJry 0 ∧ t.Latched pgJry 1 ∧ SameMemory s t) ∧
  (∀ (s : State) (x : BitVec 16) (i : Nat), (s.top.asks.find? fun e => decide (e.1 = x.toNat) && decide (e.2 = 32)) = some (i, 32) →
    exec (.busy 32 x false) s = .next { s.emit (.routed (BitVec.ofNat 16 (x.toNat / 256 * 256 + 33)) (.leaf "TAKEOVER" [x.toNat])) with
      top := { s.top with asks := (s.top.asks.filter fun e => decide (e.1 ≠ x.toNat)) ++ [(x.toNat, 33)] } }) ∧
  (∀ (s : State) (x : BitVec 16), (∀ k, k < 8 → s.ringState k ≠ rgRecovering) →
    (∀ b ∈ allBundles, s.role b ≤ 2 → s.peerCoords b = x.toNat → s.bundleState b = bsDown) →
    exec (.taken x) s = .next { s with top := { s.top with asks := s.top.asks.filter fun e => decide (e.1 ≠ x.toNat) } })

/-! ### The Telltale (20) -/

/-- The Telltale: due events fire in ascending index and leave the table, an armed software slot takes its target, a LOCKED follower without
an exchange for lost_us enters HOLDOVER, a HOLDOVER that lasts too long is UNSYNC and fails the rings that run, and the end of
ACQUIRE with no peer makes a root where that is allowed (R497, R499, R500, R504, R505, R507, R508). -/
def Obligations.TelltaleKeepsTime : Prop :=
  (∀ s : State, (∀ i, i < 4 → s.swevDue i = false) →
    ∃ t, exec .eventFire s = .next t ∧
      t.out = s.out ++ (s.ttl.table.filter s.eventDue).map (fun e => Out.event e.2.client e.2.target) ∧
      t.ttl.table = s.ttl.table.filter (fun e => !s.eventDue e) ∧ RegsBut [] s t ∧ SameMemory s t) ∧
  (∀ (s : State) (i : Nat), i < 4 → s.ttl.table = [] → (∀ j, j < 4 → (s.swevDue j = true ↔ j = i)) →
    ∃ t, exec .eventFire s = .next t ∧ t.bit (Key.ttlSwevCtl i) 0 = false ∧ t.bit (Key.irqStat pgTtl) (3 + i) = true ∧
      RegsBut [Key.ttlSwevCtl i, Key.irqStat pgTtl] s t ∧ SameMemory s t) ∧
  (∀ (s : State) (m : Master) (i : BitVec 2) (v : Word), s.Takes m pgTtl (0x148 + 0x10 * i.toNat) v →
    s.Uncontested m (Key.ttlSwevCtl i.toNat) →
    ∃ t, exec (.swevArm m i 0xF v) s = .next t ∧ t.bit (Key.ttlSwevCtl i.toNat) 0 = v.toNat.testBit 0 ∧
      SMap.get (fun _ => 0) t.ttl.swev i.toNat = s.tick + 1 ∧ RegsBut [Key.ttlSwevCtl i.toNat] s t ∧ SameMemory s t ∧
      t.out = s.out) ∧
  (∀ s : State, s.ttlState = tsLocked → s.isRoot = false → s.ttl.lastGood + 100 * max 1 (s.fld Key.ttlCfg 7 0) ≤ s.tick →
    ∃ t, exec .lostTimeout s = .next t ∧ t.ttlState = tsHoldover ∧ t.reg Key.ttlLossCnt = satInc (s.reg Key.ttlLossCnt) ∧
      t.ttl.since = s.tick ∧ t.bit (Key.irqStat pgTtl) 2 = true ∧
      RegsBut [Key.ttlStat, Key.ttlLossCnt, Key.irqStat pgTtl] s t ∧ SameMemory s t) ∧
  (∀ s : State, s.ttlState = tsHoldover → s.ttl.since + 100000 * max 1 (s.fld Key.ttlCfg 15 8) ≤ s.tick →
    (∀ k, k < 8 → s.ringState k ≠ rgReady ∧ s.ringState k ≠ rgRecovering) →
    ∃ t, exec .holdoverExpire s = .next t ∧ t.ttlState = tsUnsync ∧ t.Latched pgTtl 0 ∧ t.ttl.since = s.tick ∧
      RegsBut (Key.ttlStat :: latchKeys pgTtl) s t ∧ SameMemory s t) ∧
  (∀ s : State, s.ttlState = tsAcquire → s.ttl.acquired = false → s.ttl.peers = [] → s.bit Key.ttlCfg 31 = true →
    (∀ k, k < 8 → s.ringState k ≠ rgForming) → s.ttl.since + 100000 * max 1 (s.fld Key.ttlCfg 23 16) ≤ s.tick →
    ∃ t, exec .acquireEnd s = .next t ∧ t.ttlState = tsLocked ∧ t.isRoot = true ∧ t.ttl.upstream = none ∧ t.ttl.acquired = true ∧
      SameMemory s t)

/-! ### Ratlines and clocks (21) -/

/-- Ratlines and clocks: a unit in order is accepted and acknowledges its peer, one that fails its CRC is replayed and counted, a missing
acknowledgement replays every outstanding unit, four failures in 1 µs start a lane test and its end repairs, degrades or ends the
link, a link that is DOWN trains again, and divisors and orders are taken (R512, R514, R516, R517, R524 to R527, R530). -/
def Obligations.RatlinesAndClocks : Prop :=
  (∀ (s : State) (l : BitVec 6) (back : Bool) (seq ack : BitVec 12) (ends : Option (Nat × Nat)) (part : Option (BitVec 7)),
    l.toNat ≤ 37 → rlUp ≤ s.rlState l.toNat → s.unitMaySend l.toNat ends = true →
    (l.toNat < 27 → (s.unitPos l.toNat back (part.map BitVec.toNat)).isSome = true) →
    (s.rat l.toNat back).test = none → s.rel.inject = none → (s.rat l.toNat back).outstanding < 256 →
    seq.toNat = (s.rat l.toNat back).next → (s.rat l.toNat back).expect = seq.toNat → (s.rat l.toNat (!back)).outstanding = 0 →
    ∃ t, exec (.ratlineUnit l back seq ack true [] ends part) s = .next t ∧ (t.rat l.toNat back).next = (seq.toNat + 1) % 4096 ∧
      (t.rat l.toNat back).expect = (seq.toNat + 1) % 4096 ∧ RegsBut [] s t ∧ SameMemory s t ∧ t.out = s.out) ∧
  (∀ (s : State) (l : BitVec 6) (back : Bool) (seq ack : BitVec 12) (ends : Option (Nat × Nat)) (part : Option (BitVec 7)),
    l.toNat ≤ 37 → rlUp ≤ s.rlState l.toNat → s.unitMaySend l.toNat ends = true →
    (l.toNat < 27 → (s.unitPos l.toNat back (part.map BitVec.toNat)).isSome = true) →
    (s.rat l.toNat back).test = none → s.rel.inject = none → (s.rat l.toNat back).outstanding < 256 →
    seq.toNat = (s.rat l.toNat back).next → (s.rat l.toNat back).stuck < 15 →
    ∃ t, exec (.ratlineUnit l back seq ack false [] ends part) s = .next t ∧
      t.reg (Key.clkRlCrcCnt l.toNat) = satInc (s.reg (Key.clkRlCrcCnt l.toNat)) ∧
      t.reg (Key.clkRlRetryCnt l.toNat) = satInc (s.reg (Key.clkRlRetryCnt l.toNat)) ∧
      (t.rat l.toNat back).expect = (s.rat l.toNat back).expect ∧
      RegsBut [Key.clkRlCrcCnt l.toNat, Key.clkRlRetryCnt l.toNat] s t ∧ SameMemory s t) ∧
  (∀ (s : State) (l : BitVec 6) (back : Bool), l.toNat ≤ 37 → rlUp ≤ s.rlState l.toNat → (s.rat l.toNat back).test = none →
    (s.rat l.toNat back).outstanding ≠ 0 → (s.rat l.toNat back).lastAck + 20 ≤ s.tick → (s.rat l.toNat back).stuck < 15 →
    ∃ t, exec (.ratlineReplayTimeout l back []) s = .next t ∧ (t.rat l.toNat back).stuck = (s.rat l.toNat back).stuck + 1 ∧
      t.reg (Key.clkRlRetryCnt l.toNat) = satInc (s.reg (Key.clkRlRetryCnt l.toNat)) ∧
      t.out = s.out ++ (List.range (s.rat l.toNat back).outstanding).map (fun i =>
        Out.ratline l.toNat back (BitVec.ofNat 12 ((s.rat l.toNat back).base + i))) ∧
      RegsBut [Key.clkRlRetryCnt l.toNat] s t ∧ SameMemory s t) ∧
  (∀ (s : State) (l : BitVec 6) (back : Bool), l.toNat ≤ 37 → rlUp ≤ s.rlState l.toNat → (s.rat l.toNat back).test = none →
    4 ≤ (s.rat l.toNat back).fails.length → (∀ t ∈ (s.rat l.toNat back).fails, s.tick < t + 100) →
    ∃ t, exec (.laneTest l back) s = .next t ∧ (t.rat l.toNat back).test = some s.tick ∧ (t.rat l.toNat back).fails = [] ∧
      RegsBut [] s t ∧ SameMemory s t ∧ t.out = s.out) ∧
  (∀ (s : State) (l : BitVec 6) (back : Bool) (t0 : Nat), l.toNat ≤ 37 → (s.rat l.toNat back).test = some t0 → t0 + 50 ≤ s.tick →
    (s.rat l.toNat back).low = 0 → (s.rat l.toNat back).high = 0 → (s.rat l.toNat back).stuck < 15 → 0 < linkSpares l.toNat →
    ∃ t, exec (.laneTestEnd l back 1 0 []) s = .next t ∧ (t.rat l.toNat back).test = none ∧ (t.rat l.toNat back).low = 1 ∧
      t.Latched pgClk 2 ∧ t.rlState l.toNat = s.rlState l.toNat ∧ SameMemory s t) ∧
  (∀ (s : State) (l : BitVec 6), l.toNat ≤ 37 → s.bit Key.clkStat 31 = true → s.rlState l.toNat = rlTrain →
    ∃ t, exec (.ratlineRetrain l 0 0) s = .next t ∧ t.rlState l.toNat = rlUp ∧ (t.rat l.toNat false).trained = s.tick ∧
      RegsBut [Key.clkRlStat l.toNat] s t ∧ SameMemory s t ∧ t.out = s.out) ∧
  (∀ (s : State) (k : BitVec 2), s.fld (Key.clkFab k.toNat) 9 8 ≠ s.fabWanted k.toNat → s.fabWanted k.toNat < 4 →
    ∃ t, exec (.divisorChange k) s = .next t ∧ t.fld (Key.clkFab k.toNat) 9 8 = s.fabWanted k.toNat ∧
      t.reg Key.clkRedivCnt = satInc (s.reg Key.clkRedivCnt) ∧ RegsBut [Key.clkFab k.toNat, Key.clkRedivCnt] s t ∧
      SameMemory s t ∧ t.out = s.out) ∧
  (∀ (s : State) (m : Master) (k : BitVec 2) (v : Word), s.Takes m pgClk (0x110 + 4 * k.toNat) v →
    s.Uncontested m (Key.clkFab k.toNat) → s.locked pgClk = false →
    ∃ t, exec (.swDivisor m k 0xF v) s = .next t ∧ t.fld (Key.clkFab k.toNat) 1 0 = getBits v 1 0 ∧
      RegsBut [Key.clkFab k.toNat] s t ∧ SameMemory s t ∧ t.out = s.out) ∧
  (∀ (s : State) (m : Master) (v : Word), s.Takes m pgClk 0x108 v → s.Uncontested m Key.clkRlThrot → s.locked pgClk = false →
    ∃ t, exec (.throttleOrder m 0xF v) s = .next t ∧ t.fld Key.clkRlThrot 1 0 = getBits v 1 0 ∧
      (∀ l, l < 27 → (s.rat l false).test = none → (s.rat l true).test = none → s.rlState l = rlUp →
        t.fld (Key.clkRlStat l) 28 27 = getBits v 1 0) ∧ SameMemory s t ∧ t.out = s.out) ∧
  (∀ (s : State) (ppm : BitVec 16), s.pins.pwrOk = true → ppm.toInt.natAbs ≤ 1000 →
    ∃ t, exec (.refBad ppm) s = .next t ∧ t.fld Key.clkStat 15 0 = ppm.toNat ∧ RegsBut [Key.clkStat] s t ∧ SameMemory s t ∧
      t.out = s.out) ∧
  (∀ (s : State) (ppm : BitVec 16), s.pins.pwrOk = true → 1000 < ppm.toInt.natAbs →
    exec (.refBad ppm) s
      = .next ((((s.setFld Key.clkStat 15 0 ppm.toNat).setBit Key.clkStat 30 false).latch pgClk 1 0).packageReset 7)) ∧
  (∀ s : State, s.bit Key.clkStat 31 = true →
    exec .pllUnlock s = .next (((s.setBit Key.clkStat 31 false).latch pgClk 0 0).packageReset 7)) ∧
  (∀ s : State, s.pins.pwrOk = true → s.bit Key.clkStat 31 = false →
    ∃ t, exec .pllLock s = .next t ∧ t.bit Key.clkStat 31 = true ∧ t.bit Key.clkStat 30 = true ∧
      (∀ l, l < 38 → t.rlState l = rlTrain) ∧ SameMemory s t ∧ t.out = s.out)

/-! ### Resets and start-up (22) -/

/-- Resets: PERST, the watchdog, a lockstep mismatch, RST_CMD and the ends of JTAG instructions reset the package with their cause, POR
takes PWR_OK high, a die command resets its die alone, and a die that returns leaves reset (R532 to R536, R555, R558).
A package-scope reset with cause `c` leaves RST_STAT and RST_HIST with it, no
request, no image, no byte of memory and the package not ready; commands that wait and the pins stay. -/
def Obligations.Resets : Prop :=
  (∀ (s : State) (c : Nat), s.pins.pwrOk = true → c < 256 →
      (s.packageReset c).fld Key.rstStat 15 8 = c ∧ (s.packageReset c).ready = false ∧
        (s.packageReset c).fld Key.rstHist 7 0 = c ∧ (s.packageReset c).fld Key.rstHist 31 8
          = (if c = 1 then getBits (resetVal Key.rstHist) 23 0 else s.fld Key.rstHist 23 0) ∧
        (s.packageReset c).reqs = [] ∧ (s.packageReset c).models = [] ∧ (s.packageReset c).mem.bytes = [] ∧
        (s.packageReset c).boot.running = false ∧ (s.packageReset c).pending = s.pending ∧ (s.packageReset c).pins = s.pins) ∧
  (∀ s : State, exec .perst s = .next (s.packageReset 2)) ∧
  (∀ s : State, ∃ t, exec .por s = .next t ∧ t.pins.pwrOk = true ∧ t.fld Key.rstStat 15 8 = 1 ∧ t.ready = false ∧ t.reqs = [] ∧
    t.mem.bytes = []) ∧
  (∀ s : State, exec .watchdog s = .next ((s.latch pgRst 2 0).packageReset 5)) ∧
  (∀ s : State, exec .lockstepMismatch s = .next ((s.latch pgRst 3 0).packageReset 6)) ∧
  (∀ (s : State) (m : Master), s.Takes m pgRst 0x104 1 →
    ∃ t, exec (.packageReset m 0xF) s = .next t ∧ WroteAs (s.packageOp 3) t) ∧
  (∀ (s : State) (m : Master) (die : Byte), s.Takes m pgRst 0x104 (BitVec.ofNat 32 (die.toNat * 256 + 2)) →
    (die.toNat = 10 ∨ die.toNat = 11 → ∃ t, exec (.dieCommand m 0xF die) s = .next t ∧ WroteAs (s.packageOp 3) t) ∧
    (die.toNat ≤ 9 → ∃ t, exec (.dieCommand m 0xF die) s = .next t ∧ WroteAs (s.dieReset die.toNat 0x11) t) ∧
    (12 ≤ die.toNat → ∃ t, exec (.dieCommand m 0xF die) s = .next t ∧ WroteAs s t)) ∧
  (∀ (s : State) (c : Nat), (s.packageOp c).boot.opDone = true ∧ (s.packageOp c).reg Key.rstHist = (s.packageReset c).reg Key.rstHist ∧
    ∀ m, (s.packageOp c).heard m = false) ∧
  (∀ (s : State) (d cause : Nat), d ∈ s.boot.inReset → s.dieReset d cause = s) ∧
  (∀ (s : State) (d cause : Nat), d ∉ s.boot.inReset → d ≤ 9 →
    d ∈ (s.dieReset d cause).boot.inReset ∧ (s.dieReset d cause).reg Key.rstDieLast = BitVec.ofNat 32 (d * 256 + cause)) ∧
  (∀ (s : State) (m : Master), s.Takes m pgRst 0x104 3 → 
    ∃ t, exec (.activate m 0xF) s = .next t ∧ WroteAs s.activate t) ∧
  (∀ (s : State) (die : BitVec 4) (failed : List UnitId) (retried bad : List (BitVec 1)) (us : List Word),
    4 ≤ die.toNat → die.toNat ≤ 7 → die.toNat ∈ s.boot.inReset →
    die.toNat ∉ s.power.supply → die.toNat ∉ s.clk.cut → s.pins.pwrOk = true → s.boot.running = false →
    ∃ t, exec (.dieReturn die failed retried bad us) s = .next t ∧ die.toNat ∉ t.boot.inReset ∧
      t.reg Key.rstDieCnt = satInc (s.reg Key.rstDieCnt) ∧ RegsBut [Key.rstDieCnt] s t ∧ SameMemory s t ∧ t.out = s.out)

/-- Start-up: a bank that passes its checks starts, with neither good the package stays in BOOT with BOOT_FAIL latched, start-up completes
once time and topology are there, and DEV_CONDUCT takes a level once (R539 to R544, R551, R557). -/
def Obligations.StartUp : Prop :=
  (∀ (s : State) (failed : List UnitId), s.pins.pwrOk = true → s.boot.running = false → s.boot.dead = false →
    s.bit Key.clkStat 31 = true →
    ∃ t, exec (.boot failed) s = .next t ∧
      (s.bankOk s.select.bank = true → t = s.startFirmware s.select.bank s.select.pending failed)) ∧
  (∀ (s : State) (failed : List UnitId), s.pins.pwrOk = true → s.boot.running = false → s.boot.dead = false →
    s.bit Key.clkStat 31 = true → s.select.pending = false → s.bankOk s.select.bank = false →
    s.bankOk (1 - s.select.bank) = false →
    ∃ t, exec (.boot failed) s = .next t ∧ t.boot.dead = true ∧ t.boot.running = false ∧ t.Latched pgRst 0 ∧ t.Latched pgRst 1 ∧
      RegsBut (latchKeys pgRst) s t ∧ SameMemory s t) ∧
  (∀ s : State, s.ready = false → s.boot.running = true → s.ttl.acquired = true → 2 ≤ s.ttlState → s.mem.trained = true →
    s.boot.devPair = true → s.pins.testMode = false → s.bit Key.topRigStat 31 = true → s.boot.trial = false →
    ∃ t, exec .startupComplete s = .next t ∧ t.ready = true ∧ t.reg Key.rstTimeUs = BitVec.ofNat 32 (s.time.cycle / 400) ∧
      t.bit (Key.irqStat pgRst) 2 = true ∧ RegsBut [Key.rstStat, Key.rstTimeUs, Key.irqStat pgRst] s t ∧ SameMemory s t) ∧
  (∀ s : State, s.pins.testMode = true ∨ s.ttl.acquired = false ∨ s.mem.trained = false ∨ s.boot.devPair = false →
    exec .startupComplete s = .next s) ∧
  (∀ (s : State) (m : Master) (v : Word), s.Takes m pgDev 0x100 v → getBits v 7 0 ≤ 1 → s.bit Key.devConduct 31 = false →
    ∃ t, exec (.conductWrite m 0xF v) s = .next t ∧ t.bit Key.devConduct 31 = true ∧ t.fld Key.devConduct 7 0 = getBits v 7 0 ∧
      RegsBut [Key.devConduct] s t ∧ SameMemory s t ∧ t.out = s.out) ∧
  (∀ (s : State) (m : Master) (v : Word), s.Takes m pgDev 0x100 v → 1 < getBits v 7 0 →
    ∃ t, exec (.conductWrite m 0xF v) s = .next t ∧ WroteAs s t)

/-! ### Power and heat (23) -/

/-- Rails: below its warning a rail dips and latches, above its release the hold of a dip begins and after 10 µs the dip ends counted, below
its reset threshold its die or the package resets, a supply held above release for 1 ms lets the die return, and above the absolute
maximum the manual promises nothing: a fault (R560 to R562, 26 R637, R639). -/
def Obligations.Rails : Prop :=
  (∀ (s : State) (r : BitVec 4) (mv : MilliVolt), r.toNat ≤ 11 → s.pins.pwrOk = true → 2 * mv < railWarn r.toNat →
    ∃ t, exec (.warningCrossing r mv) s = .next t ∧ t.bit (Key.pwrRailStat r.toNat) 1 = true ∧
      t.bit (Key.pwrRailStat r.toNat) 2 = false ∧ t.Latched pgPwr 0 ∧
      (r.toNat ≤ 3 → t.fld (Key.clkFab r.toNat) 7 6 = 3) ∧ SameMemory s t) ∧
  (∀ (s : State) (r : BitVec 4) (mv : MilliVolt), r.toNat ≤ 11 → s.pins.pwrOk = true → railRelease r.toNat < 2 * mv →
    2 * mv ≤ railMax r.toNat → s.power.supply = [] → s.bit (Key.pwrRailStat r.toNat) 1 = true →
    s.bit (Key.pwrRailStat r.toNat) 2 = false →
    ∃ t, exec (.releaseCrossing r mv) s = .next t ∧ t.bit (Key.pwrRailStat r.toNat) 2 = true ∧
      t.power.hold = s.power.hold ++ [(r.toNat, s.tick)] ∧
      RegsBut [Key.pwrRailStat r.toNat, Key.pwrRailMin r.toNat] s t ∧ SameMemory s t ∧ t.out = s.out) ∧
  (∀ (s : State) (r : BitVec 4) (mv : MilliVolt), r.toNat ≤ 11 → s.pins.pwrOk = true → railRelease r.toNat < 2 * mv →
    railMax r.toNat < 2 * mv → exec (.releaseCrossing r mv) s = .fault .beyondRatings) ∧
  (∀ (s : State) (r : BitVec 4), 8 ≤ r.toNat → r.toNat ≤ 11 → (r.toNat, s.tick - 1000) ∈ s.power.hold → 1000 ≤ s.tick →
    ∃ t, exec (.dipRecovered r) s = .next t ∧ t.bit (Key.pwrRailStat r.toNat) 1 = false ∧
      t.bit (Key.pwrRailStat r.toNat) 2 = false ∧ (∀ h ∈ t.power.hold, h.1 ≠ r.toNat) ∧
      t.reg Key.pwrDipCnt = satInc (s.reg Key.pwrDipCnt) ∧
      t.reg (Key.pwrRailDipCnt r.toNat) = satInc (s.reg (Key.pwrRailDipCnt r.toNat)) ∧
      RegsBut [Key.pwrRailStat r.toNat, Key.pwrRailDipCnt r.toNat, Key.pwrDipCnt] s t ∧ SameMemory s t ∧ t.out = s.out) ∧
  (∀ (s : State) (r : BitVec 4) (mv : MilliVolt), 10 ≤ r.toNat → r.toNat ≤ 11 → s.pins.pwrOk = true →
    2 * mv < railReset r.toNat →
    exec (.resetCrossing r mv) s = .next ((((((s.railSample r.toNat mv).dropHold r.toNat).dropAbove r.toNat).setDip r.toNat
      false).latch pgPwr 2 r.toNat).packageReset 9)) ∧
  (∀ (s : State) (r : BitVec 4) (mv : MilliVolt), r.toNat ≤ 9 → s.pins.pwrOk = true → 2 * mv < railReset r.toNat →
    r.toNat ∉ s.boot.inReset →
    ∃ t, exec (.resetCrossing r mv) s = .next t ∧ r.toNat ∈ t.boot.inReset ∧
      t.reg Key.rstDieLast = BitVec.ofNat 32 (r.toNat * 256 + 0x10)) ∧
  (∀ (s : State) (r : BitVec 4) (mv : MilliVolt) (t0 : Nat), (r.toNat, t0) ∈ s.power.above → t0 + 100000 ≤ s.tick →
    railRelease r.toNat < 2 * mv → 2 * mv ≤ railMax r.toNat →
    ∃ t, exec (.dieSupplyRelease r mv) s = .next t ∧ r.toNat ∉ t.power.supply ∧ (∀ h ∈ t.power.above, h.1 ≠ r.toNat) ∧
      RegsBut [Key.pwrRailStat r.toNat, Key.pwrRailMin r.toNat] s t ∧ SameMemory s t ∧ t.out = s.out)

/-- Idle states: a unit with no pending work and no next event enters I1 where that is enabled, a domain whose exit has ended is awake, one
whose planned count has come begins its exit, and one that stays idle goes deeper after its hold-off (R564 to R566). -/
def Obligations.IdleStates : Prop :=
  (∀ (s : State) (i : Nat), s.boot.running = true → s.idleOf (.yard i) = none → s.domainIdle (.yard i) = true →
    s.nextEvent (.yard i) = none → s.bit Key.pwrIdleEn 0 = true →
    ∃ t, exec (.idleEntry (.yard i)) s = .next t ∧ t.idleOf (.yard i) = some ⟨.yard i, 1, s.tick, none, none⟩ ∧
      t.reg (Key.pwrEntry 0) = satInc (s.reg (Key.pwrEntry 0)) ∧ RegsBut [Key.pwrEntry 0] s t ∧ SameMemory s t ∧ t.out = s.out) ∧
  (∀ (s : State) (d : IdleDomain) (x : IdleSt) (t0 : Nat), s.idleOf d = some x → x.ready = some t0 → t0 ≤ s.tick →
    ∃ t, exec (.idleExit d) s = .next t ∧ t.idleOf d = none ∧ RegsBut [] s t ∧ SameMemory s t ∧ t.out = s.out) ∧
  (∀ (s : State) (d : IdleDomain) (x : IdleSt) (c : Nat), s.idleOf d = some x → x.ready = none → x.start = some c →
    (c ≤ s.time.count.toNat → exec (.idleExit d) s = .next (s.beginExit x)) ∧
    (s.time.count.toNat < c → exec (.idleExit d) s = .next s)) ∧
  (∀ (s : State) (i : Nat) (x : IdleSt), s.idleOf (.yard i) = some x → x.dom = .yard i → x.st = 1 → x.start = none → x.ready = none →
    s.domainIdle (.yard i) = true → s.bit Key.pwrIdleEn 1 = true → s.ready = true → x.since + s.holdoff 2 ≤ s.tick →
    ∃ t, exec (.holdoffExpire (.yard i)) s = .next t ∧ t.idleOf (.yard i) = some { x with st := 2 } ∧
      t.reg (Key.pwrEntry 1) = satInc (s.reg (Key.pwrEntry 1)) ∧ RegsBut [Key.pwrEntry 1] s t ∧ SameMemory s t ∧ t.out = s.out)

/-- Power and thermal control: the sample's average is reported, an average above the cap raises the ladder by one level, a monitor that
fails latches and forces the last level, a unit that crosses its limit latches, and its step rises, and a trip latches and resets the
package with THERMTRIP_N held (R571 to R576, R580, 26 R633). -/
def Obligations.PowerAndThermal : Prop :=
  (∀ (s : State) (watts : Nat), s.boot.running = true →
    ∃ t, exec (.powerSample watts) s = .next t ∧ t.power.samples = (watts :: s.power.samples).take 1000 ∧
      t.fld Key.pwrStat 15 0 = min 0xFFFF (average (((watts :: s.power.samples).take 1000).take 100)) ∧
      RegsBut [Key.pwrStat] s t ∧ SameMemory s t ∧ t.out = s.out) ∧
  (∀ s : State, s.boot.running = true → s.power.monFail = false → s.fld Key.pwrStat 31 29 < 4 →
    min 1400 (max 600 (s.fld Key.pwrCap 10 0)) < s.fld Key.pwrStat 15 0 →
    ∃ t, exec .controlPeriod s = .next t ∧ t.fld Key.pwrStat 31 29 = s.fld Key.pwrStat 31 29 + 1 ∧
      t.fld Key.pwrStat 15 0 = s.fld Key.pwrStat 15 0 ∧ t.reg Key.pwrLevelCnt = satInc (s.reg Key.pwrLevelCnt) ∧
      t.bit (Key.irqStat pgPwr) 2 = true ∧ SameMemory s t) ∧
  (∀ (s : State) (r : BitVec 4), s.pins.pwrOk = true → r.toNat ≤ 11 → s.boot.running = false →
    ∃ t, exec (.monFail (some r)) s = .next t ∧ t.Latched pgPwr 3 ∧ t.power.monFail = true ∧ RegsBut (latchKeys pgPwr) s t ∧
      SameMemory s t) ∧
  (∀ (s : State) (u : Nat) (x : TempReading), s.boot.running = true → 12 ≤ u → thermalUnit u = true → -160 ≤ x.temp →
    x.temp ≤ 600 → (x.temp - x.pair).natAbs ≤ 40 → s.thermalLimit u < x.temp → u ∉ s.power.hot → u ∉ s.power.failed →
    ∃ t, exec (.thermalEvaluation [(u, x)]) s = .next t ∧ (s.thermalStep u = 0 → t.Latched pgThm 0) ∧ u ∈ t.power.hot ∧
      t.thermalStep u = min 3 (s.thermalStep u + 1) ∧ SameMemory s t) ∧
  (∀ (s : State) (u : Nat), s.pins.pwrOk = true → thermalUnit u = true →
    ∃ t, exec (.thermalTrip u) s = .next t ∧ t.pins.thermtrip = true ∧ t.fld Key.rstStat 15 8 = 0x0A ∧ t.reqs = [] ∧
      t.bit (Key.fltLatch pgThm) 1 = true)

/-! ### Reliability (24) -/

/-- Self-tests: a covered unit that passes is counted and stays in service, a test that has not started in 40 ms latches SELFTEST_LATE with
the unit, a passed RESTORE of a unit that an injection took out returns it, and old usage records go (R586 to R591, R599, R600). -/
def Obligations.SelfTests : Prop :=
  (∀ (s : State) (u : UnitId), selftestUnit (unitBase u) = true → s.ready = true → s.inService (unitBase u) = true →
    s.covered (unitBase u) = true → s.testTime (unitBase u) = true → s.rel.inject = none →
    ∃ t, exec (.selftest u true) s = .next t ∧ t.reg Key.fltSelftestCnt = satInc (s.reg Key.fltSelftestCnt) ∧
      t.testSince (unitBase u) = max s.time.count.toNat (100 * (s.reg Key.rstTimeUs).toNat) ∧ unitBase u ∉ t.rel.late ∧
      RegsBut [Key.fltSelftestCnt] s t ∧ SameMemory s t ∧ t.out = s.out) ∧
  (∀ (s : State) (u : UnitId), selftestUnit (unitBase u) = true → s.ready = true → s.covered (unitBase u) = true →
    unitBase u ∉ s.rel.late → s.testSince (unitBase u) + 4000000 ≤ s.time.count.toNat →
    ∃ t, exec (.selftestLate u) s = .next t ∧ t.Latched pgFlt 1 ∧ t.rel.late = s.rel.late ++ [unitBase u] ∧
      RegsBut (latchKeys pgFlt) s t ∧ SameMemory s t) ∧
  (∀ (s : State) (m : Master) (v : Word), s.Takes m pgFlt 0x120 (putBits v 7 0 0x80) →
    unitBase (s.injectFor 0x80 (getBits v 15 8)).unit ∈ s.rel.injected →
    s.inService (unitBase (s.injectFor 0x80 (getBits v 15 8)).unit) = false →
    ∃ t, exec (.restore m 0xF v true) s = .next t ∧ unitBase (s.injectFor 0x80 (getBits v 15 8)).unit ∉ t.rel.injected ∧
      t.reg Key.fltSelftestCnt = satInc (s.reg Key.fltSelftestCnt) ∧ t.reg Key.fltInjStat = 0x80000080 ∧ SameMemory s t ∧
      t.out = s.out) ∧
  (∀ s : State, ∃ t, exec (.usageEpoch none) s = .next t ∧ (∀ x, x ∈ t.rel.usage ↔ x ∈ s.rel.usage ∧ s.epoch < x.epoch + 64) ∧
    RegsBut [] s t ∧ SameMemory s t ∧ t.out = s.out) ∧
  (∀ (s : State) (u : UnitId) (l : List Nat), ∃ t, exec (.usageEpoch (some (u, l))) s = .next t ∧ t.Latched pgFlt 3 ∧
    (∀ e ∈ l, e ≤ s.epoch → s.epoch < e + 64 → ∃ x ∈ t.rel.usage, x.unit = unitBase u ∧ x.epoch = e ∧ x.saturated = true ∧
      ∀ p ∈ s.outsideFree e, p ∈ x.parts) ∧ RegsBut (latchKeys pgFlt) s t ∧ SameMemory s t)

/-- Injections: each row arms the injection of its type where injection is enabled and its target allowed, replacing one that is armed, and
is denied otherwise, which leaves an armed one as it is; LOCKSTEP resets the package at once (R597, R598). -/
def Obligations.Injections : Prop :=
  ∀ (s : State) (m : Master) (v : Word),
    (s.Takes m pgFlt 0x120 (putBits v 7 0 1) → ∃ t, exec (.memCe m 0xF v) s = .next t ∧ s.InjectsAs 1 (getBits v 15 8) t) ∧
    (s.Takes m pgFlt 0x120 (putBits v 7 0 2) → ∃ t, exec (.memUe m 0xF v) s = .next t ∧ s.InjectsAs 2 (getBits v 15 8) t) ∧
    (s.Takes m pgFlt 0x120 (putBits v 7 0 3) → ∃ t, exec (.linkCrc m 0xF v) s = .next t ∧ s.InjectsAs 3 (getBits v 15 8) t) ∧
    (s.Takes m pgFlt 0x120 (putBits v 7 0 4) → ∃ t, exec (.ratlineCrc m 0xF v) s = .next t ∧ s.InjectsAs 4 (getBits v 15 8) t) ∧
    (s.Takes m pgFlt 0x120 (putBits v 7 0 5) → ∃ t, exec (.residueTrans m 0xF v) s = .next t ∧ s.InjectsAs 5 (getBits v 15 8) t) ∧
    (s.Takes m pgFlt 0x120 (putBits v 7 0 6) → ∃ t, exec (.residueHard m 0xF v) s = .next t ∧ s.InjectsAs 6 (getBits v 15 8) t) ∧
    (s.Takes m pgFlt 0x120 (putBits v 7 0 7) → ∃ t, exec (.selftestFail m 0xF v) s = .next t ∧ s.InjectsAs 7 (getBits v 15 8) t) ∧
    (s.Takes m pgFlt 0x120 (putBits v 7 0 8) → ∃ t, exec (.sentinelDev m 0xF v) s = .next t ∧ s.InjectsAs 8 (getBits v 15 8) t) ∧
    (s.Takes m pgFlt 0x120 (putBits v 7 0 10) → ∃ t, exec (.e2eCrc m 0xF v) s = .next t ∧ s.InjectsAs 10 (getBits v 15 8) t) ∧
    (s.Takes m pgFlt 0x120 (putBits v 7 0 9) → s.bit Key.fltInjCtl 0 = true →
      ∃ t, exec (.lockstep m 0xF v) s = .next t ∧ WroteAs ((s.latch pgRst 3 0).packageReset 6) t)

/-! ### Management (25) -/

/-- Sideband requests: each counts in SBD_RX_CNT and is answered as its command says; one that needs the Masthead firmware is answered
NOT_READY before it runs, and nothing is answered without PWR_OK (R603, R610, R621). The code numbers are PRESUMED from the DMTF
standards: see the log's entry on the sideband. -/
def Obligations.SidebandRequests : Prop :=
  (∀ s : State, s.pins.pwrOk = true → s.sbd.held < 8 →
    (∀ op eid : Byte, op.toNat ≤ 1 → 8 ≤ eid.toNat → eid.toNat ≤ 0xFE →
      ∃ t, exec (.setEndpointId op eid) s = .next t ∧ t.fld Key.sbdStat 7 0 = eid.toNat ∧
        t.out = s.out ++ [.sideband 0 [0, eid, 0]] ∧ RegsBut [Key.sbdRxCnt, Key.sbdStat] s t ∧ SameMemory s t) ∧
    exec .getEndpointId s = .next (s.asked.emit (.sideband 0 [BitVec.ofNat 8 (s.fld Key.sbdStat 7 0), 0, 0])) ∧
    (∀ type : Byte, type.toNat ∈ mctpTypes → exec (.getMctpVersionSupport type) s
      = .next (s.asked.emit (.sideband 0 (Config.mctpVersions type.toNat)))) ∧
    exec .getMessageTypeSupport s
      = .next (s.asked.emit (.sideband 0 (BitVec.ofNat 8 mctpTypes.length :: mctpTypes.map (BitVec.ofNat 8)))) ∧
    exec .getTid s = .next (s.asked.emit (.sideband 0 [Config.pldmTid])) ∧
    (∀ type : Byte, type.toNat ∈ [0, 2, 5] → exec (.getPldmVersion type) s
      = .next (s.asked.emit (.sideband 0 (Config.pldmVersion type.toNat)))) ∧
    exec .getPldmTypes s = .next (s.asked.emit (.sideband 0 [0x25, 0, 0, 0, 0, 0, 0, 0])) ∧
    (∀ type : Byte, type.toNat ∈ [0, 2, 5] → exec (.getPldmCommands type) s = .next (s.asked.emit
      (.sideband 0 (leBytes ((pldmCommands type.toNat).map fun c => 2 ^ c).sum 32))))) ∧
  (∀ s : State, s.pins.pwrOk = true → s.sbd.held < 8 → s.boot.running = true →
    (∀ n : BitVec 16, n.toNat ∈ sensors → exec (.getSensorReading n) s = .next (s.asked.emit (.sideband 0
      (BitVec.ofNat 8 (if (s.sensor n.toNat).2 then 0 else 2) :: leBytes (s.sensor n.toNat).1 4)))) ∧
    exec .getPdrRepositoryInfo s = .next (s.asked.emit (.sideband 0 [0, 52, 0, 0, 0])) ∧
    (∀ (n : Word) (x : Nat), sensors[n.toNat - 1]? = some x → exec (.getPdr n) s = .next (s.asked.emit
      (.sideband 0 (leBytes x 2 ++ leBytes (sensorLimits x).1 4 ++ leBytes (sensorLimits x).2 4))))) ∧
  (∀ (s : State) (n : BitVec 16), s.pins.pwrOk = true → s.sbd.held < 8 → s.boot.running = false →
    exec (.getSensorReading n) s = .next (s.asked.emit (.sideband 4 []))) ∧
  (∀ s : State, s.pins.pwrOk = false → exec .getTid s = .next s) ∧
  (∀ s : State, s.pins.pwrOk = true → 8 ≤ s.sbd.held →
    exec .getTid s = .next (((s.inc Key.sbdRxCnt).inc Key.sbdDropCnt).emit (.sideband 4 []))) ∧
  (∀ s : State, s.pins.pwrOk = true → s.sbd.held < 8 →
    (∃ t, exec .smbTimeout s = .next t ∧ t.Latched pgSbd 0 ∧ RegsBut (latchKeys pgSbd) s t ∧ SameMemory s t) ∧
    (∃ t, exec .reassembly s = .next t ∧ t.Latched pgSbd 1 ∧ RegsBut (latchKeys pgSbd) s t ∧ SameMemory s t) ∧
    exec .pecError s = .next (s.setReg Key.sbdPecErrCnt (satInc (s.reg Key.sbdPecErrCnt))))

/-- Vendor commands: each answers with the values in force, and a writing one writes as master BMC first; in secure mode one outside a
session is answered SECURE_ONLY, and a payload of the wrong length is refused (R604 to R609, R618). -/
def Obligations.VendorCommands : Prop :=
  (∀ (s u : State), s.pins.pwrOk = true → s.sbd.held < 8 → s.boot.running = true → s.bit Key.sbdCfg 8 = false → u = s.asked →
    exec (.getInfo [] none) s = .next (u.emit (.sideband 0 (leBytes Config.otpSerial.toNat 8 ++ u.bmcVal pgDev 4 ++
      u.bmcVal pgRst 0x100 ++ u.bmcVal pgRst 0x118 ++ u.bmcVal pgTop 0x100 ++ u.bmcVal pgTtl 0x108))) ∧
    exec (.getCoord [] none) s = .next (u.emit (.sideband 0 (u.bmcVal pgTop 0x100))) ∧
    exec (.rigStatus [] none) s = .next (u.emit (.sideband 0
      (u.bmcVal pgTop 0x108 ++ (List.range 12).flatMap fun b => u.bmcVal pgTop (0x180 + 4 * b)))) ∧
    exec (.powerStatus [] none) s = .next (u.emit (.sideband 0
      (u.bmcVal pgPwr 0x104 ++ u.bmcVal pgThm 0x104 ++ (List.range 12).flatMap fun d => u.bmcVal pgThm (0x140 + 4 * d)))) ∧
    (∀ l : List Byte, l.length = 4 → leAt l 2 2 = 0 → exec (.setCoord l none) s
      = .next ((u.bmcWrite pgTop 0x100 (2 ^ 31 + leAt l 0 2)).emit (.sideband 0
        ((u.bmcWrite pgTop 0x100 (2 ^ 31 + leAt l 0 2)).bmcVal pgTop 0x100)))) ∧
    (∀ l : List Byte, l.length = 8 → leAt l 0 1 < 12 → leAt l 1 1 = 1 → leAt l 2 1 = 0 → leAt l 3 1 = 0 →
      bitsOf (leAt l 4 4) 29 24 = 0 → exec (.rigPlan l none) s
      = .next ((u.bmcWrite pgTop (0x140 + 4 * leAt l 0 1) (leAt l 4 4)).emit (.sideband 0
        ((u.bmcWrite pgTop (0x140 + 4 * leAt l 0 1) (leAt l 4 4)).bmcVal pgTop 0x108)))) ∧
    (∀ l : List Byte, l.length = 12 → leAt l 0 1 = 1 → leAt l 1 3 = 0 → exec (.powerOrder l none) s
      = .next ((u.bmcWrite pgPwr 0x100 (leAt l 4 4)).emit (.sideband 0
        ((u.bmcWrite pgPwr 0x100 (leAt l 4 4)).bmcVal pgPwr 0x100 ++
          (u.bmcWrite pgPwr 0x100 (leAt l 4 4)).bmcVal pgThm 0x100)))) ∧
    (∀ l : List Byte, l.length = 4 → leAt l 2 2 = 1 → exec (.faultPeek l none) s
      = .next (u.emit (.sideband 0 (u.bmcVal (leAt l 0 2) 0x20 ++ u.bmcVal (leAt l 0 2) 0x24 ++ u.bmcVal pgFlt 0x100)))) ∧
    (∀ l : List Byte, l.length = 4 → leAt l 0 1 < 64 → leAt l 1 1 = 1 → leAt l 2 2 = 0 → exec (.faultLog l none) s
      = .next (u.emit (.sideband 0 ((List.range 4).flatMap fun i => u.bmcVal pgFlt (0x400 + 16 * leAt l 0 1 + 4 * i))))) ∧
    (∀ l : List Byte, l.length = 8 → leAt l 4 4 = 1 → leAt l 2 2 ≤ 0xFFC → exec (.regRead l none) s
      = .next ((u.readReg .bmc (leAt l 0 2) (leAt l 2 2) 0xF).2.emit (.sideband 0
        (leBytes (u.readReg .bmc (leAt l 0 2) (leAt l 2 2) 0xF).1.toNat 4)))) ∧
    (∀ l : List Byte, l.length = 8 → leAt l 2 2 ≤ 0xFFF → exec (.regWrite l none) s
      = .next ((u.bmcWrite (leAt l 0 2) (leAt l 2 2) (leAt l 4 4)).emit (.sideband 0
        ((u.bmcWrite (leAt l 0 2) (leAt l 2 2) (leAt l 4 4)).bmcVal (leAt l 0 2) (leAt l 2 2))))) ∧
    (∀ l : List Byte, l.length = 4 → leAt l 0 1 = 1 → leAt l 1 3 = 0 → exec (.resetCommand l none) s
      = .next ((u.emit (.sideband 0 [])).bmcWrite pgRst 0x104 1)) ∧
    (∀ l : List Byte, l.length = 4 → exec (.jury l none) s
      = .next ((u.bmcWrite pgJry 0x104 (leAt l 0 4)).emit (.sideband 0
        ((u.bmcWrite pgJry 0x104 (leAt l 0 4)).bmcVal pgJry 0x100)))) ∧
    (∀ l : List Byte, l ≠ [] → exec (.getCoord l none) s = .next (u.emit (.sideband 2 [])))) ∧
  (∀ (s : State) (l : List Byte), s.pins.pwrOk = true → s.sbd.held < 8 → s.boot.running = true → s.bit Key.sbdCfg 8 = true →
    exec (.getCoord l none) s = .next (s.asked.emit (.sideband 5 []))) ∧
  (∀ (s : State) (l : List Byte) (n : Nat), n ∉ s.sbd.sessions → exec (.getCoord l (some n)) s = .next s)

/-- The firmware update and SPDM: an update begins on the other bank, its component is passed and sized, and the first chunk is asked for;
chunks are written one after another; ActivateFirmware ends it and, in BOOT_FAIL, names bank A and resets; and SPDM answers in its
order, with at most four sessions (R611 to R618). -/
def Obligations.UpdatesAndSessions : Prop :=
  (∀ s : State, s.pins.pwrOk = true → s.sbd.held < 8 → s.sbd.update = none → s.boot.dead = false →
    exec .requestUpdate s = .next ((s.asked.setUpdate (some { bank := 1 - s.fld Key.rstStat 27 27 })).emit
      (.sideband 0 []))) ∧
  (∀ (s : State) (u : Update) (st : Word), s.pins.pwrOk = true → s.sbd.held < 8 → s.sbd.update = some u → u.phase ≤ 1 →
    exec (.passComponentTable 0x000A 1 st) s = .next ((s.asked.setUpdate (some { u with phase := 1 })).emit
      (.sideband 0 [0, 0]))) ∧
  (∀ (s : State) (u : Update) (size : Nat), s.pins.pwrOk = true → s.sbd.held < 8 → s.sbd.update = some u → u.phase = 1 → 0 < size →
    size ≤ 0x1000000 →
    ∃ t, exec (.updateComponent size true) s = .next t ∧ t.sbd.update = some { u with size := size, got := 0, phase := 2 } ∧
      t.boot.flash = SMap.clearRange s.boot.flash (flashBank u.bank) 0x1000000 ∧
      t.out = s.out ++ [.sideband 0 [0, 0], .firmware "RequestFirmwareData" [0, min 1024 size]] ∧
      RegsBut [Key.sbdRxCnt] s t ∧ SameMemory s t) ∧
  (∀ (s : State) (u : Update) (chunk : List Byte), s.pins.pwrOk = true → s.sbd.update = some u → u.phase = 2 →
    chunk.length = u.want → u.got + chunk.length < u.size →
    ∃ t, exec (.requestFirmwareData chunk true) s = .next t ∧ t.sbd.update = some { u with got := u.got + chunk.length } ∧
      t.boot.flash = (s.flashWr (flashBank u.bank + u.got) chunk).boot.flash ∧ RegsBut [Key.sbdRxCnt] s t ∧ SameMemory s t) ∧
  (∀ (s : State) (u : Update), s.pins.pwrOk = true → s.sbd.held < 8 → s.sbd.update = some u → u.phase = 3 → s.boot.dead = false →
    exec (.activateFirmware false) s = .next ((s.asked.emit (.sideband 0 [0, 0])).setUpdate none)) ∧
  (∀ s : State, s.boot.running = true →
    exec (.spdmRequest .getVersion true) s = .next (State.emit { s with sbd := { s.sbd with spdm := 1 } } (.spdm "VERSION" [0x13])) ∧
    (s.sbd.spdm = 1 → exec (.spdmRequest .getCapabilities true) s
      = .next (State.emit { s with sbd := { s.sbd with spdm := 2 } } (.spdm "CAPABILITIES" [0x2D6]))) ∧
    (s.sbd.spdm < 3 → exec (.spdmRequest .getDigests true) s = .next (s.spdmError 4)) ∧
    (∀ (id : Nat) (rest : List Nat), s.sbd.handshakes = id :: rest →
      ∃ t, exec (.spdmRequest (.finish true) true) s = .next t ∧ t.sbd.sessions = s.sbd.sessions ++ [id] ∧
        t.sbd.handshakes = rest ∧ RegsBut [] s t ∧ SameMemory s t) ∧
    (3 ≤ s.sbd.spdm → 4 ≤ s.sbd.sessions.length + s.sbd.handshakes.length →
      exec (.spdmRequest (.keyExchange 0) true) s = .next (s.spdmError 0x0A))) ∧
  (∀ (s : State) (id : Nat), ∃ t, exec (.sessionEnd id) s = .next t ∧ id ∉ t.sbd.sessions ∧ id ∉ t.sbd.handshakes ∧
    (∀ x, x ≠ id → (x ∈ t.sbd.sessions ↔ x ∈ s.sbd.sessions)) ∧ RegsBut [] s t ∧ SameMemory s t ∧ t.out = s.out)

/-! ### Electrical and test (26) -/

/-- Power-down and JTAG: PWR_OK low holds every die in reset and loses what memory held; an instruction of the TAP is in force until the
next, IDCODE reads 0x14B4_85A7, and leaving one that takes the pins resets the package (R629, R635, R640). -/
def Obligations.PowerDownAndTap : Prop :=
  (∀ s : State, s.pins.pwrOk = true →
    ∃ t, exec .powerDown s = .next t ∧ t.pins.pwrOk = false ∧ t.boot.inReset = List.range 12 ∧ t.mem.bytes = [] ∧ t.reqs = [] ∧
      t.ready = false ∧ t.reg Key.rstHist = s.reg Key.rstHist) ∧
  (∀ s : State, s.pins.jtag = .idcode →
    exec .bypass s = .next { s with pins := { s.pins with jtag := .bypass } } ∧
    exec .idcode s = .next (s.emit (.idcode 0x14B485A7)) ∧
    exec .samplePreload s = .next { s with pins := { s.pins with jtag := .samplePreload } } ∧
    exec .extest s = .next { s with pins := { s.pins with jtag := .extest } } ∧
    exec .clamp s = .next { s with pins := { s.pins with jtag := .clamp } } ∧
    exec .highz s = .next { s with pins := { s.pins with jtag := .highz } } ∧
    exec .tapExit s = .next s) ∧
  (∀ s : State, s.pins.jtag = .extest →
    exec .tapExit s = .next (State.packageReset { s with pins := { s.pins with jtag := .idcode } } 3))
end

