-- ==== Sys2Proof/Laws/SMap.lean ====
section
/-! SUPPORT. The laws of sparse arrays: what is read after a write, and that every operation keeps the canonical form. -/

namespace Sys2Proof

variable {α : Type}

@[simp] theorem SMap.get_nil (d : Nat → α) (k : Nat) : SMap.get d [] k = d k := rfl

theorem SMap.get_erase_same (d : Nat → α) (m : SMap α) (k : Nat) : SMap.get d (SMap.erase m k) k = d k := by
  induction m with
  | nil => rfl
  | cons e m ih =>
    obtain ⟨j, v⟩ := e
    by_cases h : j = k <;> simp [SMap.erase, SMap.get, h, ih]

theorem SMap.get_erase_ne (d : Nat → α) (m : SMap α) {k j : Nat} (h : j ≠ k) :
    SMap.get d (SMap.erase m k) j = SMap.get d m j := by
  induction m with
  | nil => rfl
  | cons e m ih =>
    obtain ⟨i, v⟩ := e
    by_cases h1 : i = k
    · subst h1
      have : i ≠ j := fun x => h x.symm
      simp [SMap.erase, SMap.get, ih, this]
    · by_cases h2 : i = j <;> simp [SMap.erase, SMap.get, h1, h2, ih, h]

/-- Every key of an array differs from `k`. -/
abbrev SMap.absent (m : SMap α) (k : Nat) : Prop := ∀ e ∈ m, e.1 ≠ k

theorem SMap.erase_absent (m : SMap α) (k : Nat) : SMap.absent (SMap.erase m k) k := by
  induction m with
  | nil => simp [SMap.erase]
  | cons e m ih =>
    obtain ⟨j, v⟩ := e
    by_cases h : j = k
    · simpa [SMap.erase, h] using ih
    · intro x hx
      simp only [SMap.erase, h, if_false, List.mem_cons] at hx
      rcases hx with rfl | hx
      · exact h
      · exact ih x hx

theorem SMap.get_insert_same (d : Nat → α) (m : SMap α) (k : Nat) (v : α) (h : SMap.absent m k) :
    SMap.get d (SMap.insert m k v) k = v := by
  induction m with
  | nil => simp [SMap.insert, SMap.get]
  | cons e m ih =>
    obtain ⟨j, w⟩ := e
    have h1 : j ≠ k := h (j, w) (by simp)
    have h2 : SMap.absent m k := fun x hx => h x (by simp [hx])
    by_cases hlt : k < j <;> simp [SMap.insert, SMap.get, hlt, h1, ih h2]

theorem SMap.get_insert_ne (d : Nat → α) (m : SMap α) {k j : Nat} (v : α) (h : j ≠ k) :
    SMap.get d (SMap.insert m k v) j = SMap.get d m j := by
  induction m with
  | nil => simp [SMap.insert, SMap.get, Ne.symm h]
  | cons e m ih =>
    obtain ⟨i, w⟩ := e
    by_cases hlt : k < i
    · simp [SMap.insert, SMap.get, hlt, Ne.symm h]
    · simp only [SMap.insert, hlt, if_false, SMap.get, ih]

/-- A write is read back. -/
@[simp] theorem SMap.get_set_same [DecidableEq α] (d : Nat → α) (m : SMap α) (k : Nat) (v : α) :
    SMap.get d (SMap.set d m k v) k = v := by
  unfold SMap.set
  split
  · next h => rw [SMap.get_erase_same, h]
  · exact SMap.get_insert_same d _ k v (SMap.erase_absent m k)

/-- A write leaves every other key alone. -/
theorem SMap.get_set_ne [DecidableEq α] (d : Nat → α) (m : SMap α) {k j : Nat} (v : α) (h : j ≠ k) :
    SMap.get d (SMap.set d m k v) j = SMap.get d m j := by
  unfold SMap.set
  split
  · exact SMap.get_erase_ne d m h
  · rw [SMap.get_insert_ne d _ v h, SMap.get_erase_ne d m h]

theorem SMap.mem_erase {m : SMap α} {k : Nat} {e : Nat × α} (h : e ∈ SMap.erase m k) : e ∈ m := by
  induction m with
  | nil => simp [SMap.erase] at h
  | cons x m ih =>
    obtain ⟨j, v⟩ := x
    by_cases h1 : j = k
    · simp only [SMap.erase, h1, if_true] at h
      exact List.mem_cons_of_mem _ (ih h)
    · simp only [SMap.erase, h1, if_false, List.mem_cons] at h
      rcases h with rfl | h
      · simp
      · exact List.mem_cons_of_mem _ (ih h)

theorem SMap.erase_sublist (m : SMap α) (k : Nat) : (SMap.erase m k).Sublist m := by
  induction m with
  | nil => simp [SMap.erase]
  | cons x m ih =>
    obtain ⟨j, v⟩ := x
    by_cases h1 : j = k
    · simpa [SMap.erase, h1] using ih.cons _
    · simp only [SMap.erase, h1, if_false]
      exact ih.cons_cons (j, v)

/-- The canonical form passes to any part of an array. -/
theorem SMap.wf_sublist {d : Nat → α} {m l : SMap α} (h : SMap.wf d m) (hl : l.Sublist m) : SMap.wf d l :=
  ⟨h.1.sublist hl, fun e he => h.2 e (hl.subset he)⟩

theorem SMap.wf_filter {d : Nat → α} {m : SMap α} (p : Nat × α → Bool) (h : SMap.wf d m) : SMap.wf d (m.filter p) :=
  SMap.wf_sublist h List.filter_sublist

theorem SMap.mem_insert {m : SMap α} {k : Nat} {v : α} {e : Nat × α} (h : e ∈ SMap.insert m k v) :
    e = (k, v) ∨ e ∈ m := by
  induction m with
  | nil => simpa [SMap.insert] using h
  | cons x m ih =>
    obtain ⟨j, w⟩ := x
    by_cases h1 : k < j
    · simpa [SMap.insert, h1] using h
    · simp only [SMap.insert, h1, if_false, List.mem_cons] at h
      rcases h with h | h
      · exact .inr (by simp [h])
      · rcases ih h with h | h
        · exact .inl h
        · exact .inr (List.mem_cons_of_mem _ h)

theorem SMap.wf_insert {d : Nat → α} {m : SMap α} {k : Nat} {v : α} (h : SMap.wf d m) (ha : SMap.absent m k)
    (hv : v ≠ d k) : SMap.wf d (SMap.insert m k v) := by
  constructor
  · induction m with
    | nil => simp [SMap.insert]
    | cons x m ih =>
      obtain ⟨j, w⟩ := x
      have hj : j ≠ k := ha (j, w) (by simp)
      have hp := List.pairwise_cons.1 h.1
      by_cases h1 : k < j
      · simp only [SMap.insert, h1, if_true]
        refine List.pairwise_cons.2 ⟨?_, h.1⟩
        intro e he
        rcases List.mem_cons.1 he with rfl | he
        · exact h1
        · exact Nat.lt_trans h1 (hp.1 e he)
      · simp only [SMap.insert, h1, if_false]
        refine List.pairwise_cons.2 ⟨?_, ih ⟨hp.2, fun e he => h.2 e (List.mem_cons_of_mem _ he)⟩
          fun e he => ha e (List.mem_cons_of_mem _ he)⟩
        intro e he
        rcases SMap.mem_insert he with rfl | he
        · exact Nat.lt_of_le_of_ne (Nat.not_lt.1 h1) hj
        · exact hp.1 e he
  · intro e he
    rcases SMap.mem_insert he with rfl | he
    · exact hv
    · exact h.2 e he

/-- A write keeps the canonical form. -/
theorem SMap.wf_set [DecidableEq α] {d : Nat → α} {m : SMap α} (k : Nat) (v : α) (h : SMap.wf d m) :
    SMap.wf d (SMap.set d m k v) := by
  unfold SMap.set
  have he := SMap.wf_sublist h (SMap.erase_sublist m k)
  split
  · exact he
  · next hv => exact SMap.wf_insert he (SMap.erase_absent m k) hv

/-- Clearing a range keeps the canonical form. -/
theorem SMap.wf_clearRange {d : Nat → α} {m : SMap α} (a n : Nat) (h : SMap.wf d m) : SMap.wf d (SMap.clearRange m a n) :=
  SMap.wf_filter _ h

/-- A run of bytes written keeps the canonical form. -/
theorem SMap.wf_putBytes {m : SMap Byte} (a : Nat) (l : List Byte) (h : SMap.wf (fun _ => 0) m) :
    SMap.wf (fun _ => 0) (SMap.putBytes m a l) := by
  induction l generalizing m a with
  | nil => exact h
  | cons b l ih => exact ih _ (SMap.wf_set _ _ h)

/-- A byte outside the run of bytes written reads as before. -/
theorem SMap.byte_putBytes_outside {m : SMap Byte} (a x : Nat) (l : List Byte) (h : x < a ∨ a + l.length ≤ x) :
    SMap.byte (SMap.putBytes m a l) x = SMap.byte m x := by
  induction l generalizing m a with
  | nil => rfl
  | cons b l ih =>
    have hx : x ≠ a := by
      simp only [List.length_cons] at h
      omega
    have := ih (m := SMap.set (fun _ => 0) m a b) (a + 1) (by
      simp only [List.length_cons] at h
      omega)
    simp only [SMap.putBytes]
    rw [this]
    exact SMap.get_set_ne _ _ _ hx

/-- A run of bytes written reads back. -/
theorem SMap.bytes_putBytes (m : SMap Byte) (a : Nat) (l : List Byte) :
    SMap.bytes (SMap.putBytes m a l) a l.length = l := by
  induction l generalizing m a with
  | nil => rfl
  | cons b l ih =>
    simp only [List.length_cons, SMap.bytes, SMap.putBytes]
    rw [ih, SMap.byte_putBytes_outside _ _ _ (by omega)]
    simp [SMap.byte]

end Sys2Proof
end

