-- ==== Sys2Proof/Laws/State.lean ====
section
/-! SUPPORT. What an update of the state leaves in every field: one lemma per field and update. -/

namespace Sys2Proof.Machine

/-! ### Registers and what is given outside -/

@[simp] theorem State.setReg_pending (s : State) (k : Nat) (v : Word) : (s.setReg k v).pending = s.pending := rfl
@[simp] theorem State.setReg_time (s : State) (k : Nat) (v : Word) : (s.setReg k v).time = s.time := rfl
@[simp] theorem State.setReg_arb (s : State) (k : Nat) (v : Word) : (s.setReg k v).arb = s.arb := rfl
@[simp] theorem State.setReg_pins (s : State) (k : Nat) (v : Word) : (s.setReg k v).pins = s.pins := rfl
@[simp] theorem State.setReg_out (s : State) (k : Nat) (v : Word) : (s.setReg k v).out = s.out := rfl
@[simp] theorem State.setReg_freeCtr (s : State) (k : Nat) (v : Word) : (s.setReg k v).freeCtr = s.freeCtr := rfl
@[simp] theorem State.setReg_msix (s : State) (k : Nat) (v : Word) : (s.setReg k v).msix = s.msix := rfl
@[simp] theorem State.setReg_parts (s : State) (k : Nat) (v : Word) : (s.setReg k v).parts = s.parts := rfl
@[simp] theorem State.setReg_eqs (s : State) (k : Nat) (v : Word) : (s.setReg k v).eqs = s.eqs := rfl
@[simp] theorem State.setReg_descs (s : State) (k : Nat) (v : Word) : (s.setReg k v).descs = s.descs := rfl
@[simp] theorem State.setReg_reqs (s : State) (k : Nat) (v : Word) : (s.setReg k v).reqs = s.reqs := rfl
@[simp] theorem State.setReg_nextFetch (s : State) (k : Nat) (v : Word) : (s.setReg k v).nextFetch = s.nextFetch := rfl
@[simp] theorem State.setReg_rr (s : State) (k : Nat) (v : Word) : (s.setReg k v).rr = s.rr := rfl
@[simp] theorem State.setReg_models (s : State) (k : Nat) (v : Word) : (s.setReg k v).models = s.models := rfl
@[simp] theorem State.setReg_mem (s : State) (k : Nat) (v : Word) : (s.setReg k v).mem = s.mem := rfl
@[simp] theorem State.setReg_paging (s : State) (k : Nat) (v : Word) : (s.setReg k v).paging = s.paging := rfl
@[simp] theorem State.setReg_agents (s : State) (k : Nat) (v : Word) : (s.setReg k v).agents = s.agents := rfl
@[simp] theorem State.setReg_fab (s : State) (k : Nat) (v : Word) : (s.setReg k v).fab = s.fab := rfl
@[simp] theorem State.setReg_cnv (s : State) (k : Nat) (v : Word) : (s.setReg k v).cnv = s.cnv := rfl
@[simp] theorem State.setReg_rings (s : State) (k : Nat) (v : Word) : (s.setReg k v).rings = s.rings := rfl
@[simp] theorem State.setReg_links (s : State) (k : Nat) (v : Word) : (s.setReg k v).links = s.links := rfl
@[simp] theorem State.setReg_top (s : State) (k : Nat) (v : Word) : (s.setReg k v).top = s.top := rfl
@[simp] theorem State.setReg_ttl (s : State) (k : Nat) (v : Word) : (s.setReg k v).ttl = s.ttl := rfl
@[simp] theorem State.setReg_rats (s : State) (k : Nat) (v : Word) : (s.setReg k v).rats = s.rats := rfl
@[simp] theorem State.setReg_clk (s : State) (k : Nat) (v : Word) : (s.setReg k v).clk = s.clk := rfl
@[simp] theorem State.setReg_power (s : State) (k : Nat) (v : Word) : (s.setReg k v).power = s.power := rfl
@[simp] theorem State.setReg_rel (s : State) (k : Nat) (v : Word) : (s.setReg k v).rel = s.rel := rfl
@[simp] theorem State.setReg_boot (s : State) (k : Nat) (v : Word) : (s.setReg k v).boot = s.boot := rfl
@[simp] theorem State.setReg_sbd (s : State) (k : Nat) (v : Word) : (s.setReg k v).sbd = s.sbd := rfl
@[simp] theorem State.setReg_pci (s : State) (k : Nat) (v : Word) : (s.setReg k v).pci = s.pci := rfl
@[simp] theorem State.setFld_pending (s : State) (k h l x : Nat) : (s.setFld k h l x).pending = s.pending := rfl
@[simp] theorem State.setFld_time (s : State) (k h l x : Nat) : (s.setFld k h l x).time = s.time := rfl
@[simp] theorem State.setFld_arb (s : State) (k h l x : Nat) : (s.setFld k h l x).arb = s.arb := rfl
@[simp] theorem State.setFld_pins (s : State) (k h l x : Nat) : (s.setFld k h l x).pins = s.pins := rfl
@[simp] theorem State.setFld_out (s : State) (k h l x : Nat) : (s.setFld k h l x).out = s.out := rfl
@[simp] theorem State.setFld_freeCtr (s : State) (k h l x : Nat) : (s.setFld k h l x).freeCtr = s.freeCtr := rfl
@[simp] theorem State.setFld_msix (s : State) (k h l x : Nat) : (s.setFld k h l x).msix = s.msix := rfl
@[simp] theorem State.setFld_parts (s : State) (k h l x : Nat) : (s.setFld k h l x).parts = s.parts := rfl
@[simp] theorem State.setFld_eqs (s : State) (k h l x : Nat) : (s.setFld k h l x).eqs = s.eqs := rfl
@[simp] theorem State.setFld_descs (s : State) (k h l x : Nat) : (s.setFld k h l x).descs = s.descs := rfl
@[simp] theorem State.setFld_reqs (s : State) (k h l x : Nat) : (s.setFld k h l x).reqs = s.reqs := rfl
@[simp] theorem State.setFld_nextFetch (s : State) (k h l x : Nat) : (s.setFld k h l x).nextFetch = s.nextFetch := rfl
@[simp] theorem State.setFld_rr (s : State) (k h l x : Nat) : (s.setFld k h l x).rr = s.rr := rfl
@[simp] theorem State.setFld_models (s : State) (k h l x : Nat) : (s.setFld k h l x).models = s.models := rfl
@[simp] theorem State.setFld_mem (s : State) (k h l x : Nat) : (s.setFld k h l x).mem = s.mem := rfl
@[simp] theorem State.setFld_paging (s : State) (k h l x : Nat) : (s.setFld k h l x).paging = s.paging := rfl
@[simp] theorem State.setFld_agents (s : State) (k h l x : Nat) : (s.setFld k h l x).agents = s.agents := rfl
@[simp] theorem State.setFld_fab (s : State) (k h l x : Nat) : (s.setFld k h l x).fab = s.fab := rfl
@[simp] theorem State.setFld_cnv (s : State) (k h l x : Nat) : (s.setFld k h l x).cnv = s.cnv := rfl
@[simp] theorem State.setFld_rings (s : State) (k h l x : Nat) : (s.setFld k h l x).rings = s.rings := rfl
@[simp] theorem State.setFld_links (s : State) (k h l x : Nat) : (s.setFld k h l x).links = s.links := rfl
@[simp] theorem State.setFld_top (s : State) (k h l x : Nat) : (s.setFld k h l x).top = s.top := rfl
@[simp] theorem State.setFld_ttl (s : State) (k h l x : Nat) : (s.setFld k h l x).ttl = s.ttl := rfl
@[simp] theorem State.setFld_rats (s : State) (k h l x : Nat) : (s.setFld k h l x).rats = s.rats := rfl
@[simp] theorem State.setFld_clk (s : State) (k h l x : Nat) : (s.setFld k h l x).clk = s.clk := rfl
@[simp] theorem State.setFld_power (s : State) (k h l x : Nat) : (s.setFld k h l x).power = s.power := rfl
@[simp] theorem State.setFld_rel (s : State) (k h l x : Nat) : (s.setFld k h l x).rel = s.rel := rfl
@[simp] theorem State.setFld_boot (s : State) (k h l x : Nat) : (s.setFld k h l x).boot = s.boot := rfl
@[simp] theorem State.setFld_sbd (s : State) (k h l x : Nat) : (s.setFld k h l x).sbd = s.sbd := rfl
@[simp] theorem State.setFld_pci (s : State) (k h l x : Nat) : (s.setFld k h l x).pci = s.pci := rfl
@[simp] theorem State.setBit_pending (s : State) (k b : Nat) (x : Bool) : (s.setBit k b x).pending = s.pending := rfl
@[simp] theorem State.setBit_time (s : State) (k b : Nat) (x : Bool) : (s.setBit k b x).time = s.time := rfl
@[simp] theorem State.setBit_arb (s : State) (k b : Nat) (x : Bool) : (s.setBit k b x).arb = s.arb := rfl
@[simp] theorem State.setBit_pins (s : State) (k b : Nat) (x : Bool) : (s.setBit k b x).pins = s.pins := rfl
@[simp] theorem State.setBit_out (s : State) (k b : Nat) (x : Bool) : (s.setBit k b x).out = s.out := rfl
@[simp] theorem State.setBit_freeCtr (s : State) (k b : Nat) (x : Bool) : (s.setBit k b x).freeCtr = s.freeCtr := rfl
@[simp] theorem State.setBit_msix (s : State) (k b : Nat) (x : Bool) : (s.setBit k b x).msix = s.msix := rfl
@[simp] theorem State.setBit_parts (s : State) (k b : Nat) (x : Bool) : (s.setBit k b x).parts = s.parts := rfl
@[simp] theorem State.setBit_eqs (s : State) (k b : Nat) (x : Bool) : (s.setBit k b x).eqs = s.eqs := rfl
@[simp] theorem State.setBit_descs (s : State) (k b : Nat) (x : Bool) : (s.setBit k b x).descs = s.descs := rfl
@[simp] theorem State.setBit_reqs (s : State) (k b : Nat) (x : Bool) : (s.setBit k b x).reqs = s.reqs := rfl
@[simp] theorem State.setBit_nextFetch (s : State) (k b : Nat) (x : Bool) : (s.setBit k b x).nextFetch = s.nextFetch := rfl
@[simp] theorem State.setBit_rr (s : State) (k b : Nat) (x : Bool) : (s.setBit k b x).rr = s.rr := rfl
@[simp] theorem State.setBit_models (s : State) (k b : Nat) (x : Bool) : (s.setBit k b x).models = s.models := rfl
@[simp] theorem State.setBit_mem (s : State) (k b : Nat) (x : Bool) : (s.setBit k b x).mem = s.mem := rfl
@[simp] theorem State.setBit_paging (s : State) (k b : Nat) (x : Bool) : (s.setBit k b x).paging = s.paging := rfl
@[simp] theorem State.setBit_agents (s : State) (k b : Nat) (x : Bool) : (s.setBit k b x).agents = s.agents := rfl
@[simp] theorem State.setBit_fab (s : State) (k b : Nat) (x : Bool) : (s.setBit k b x).fab = s.fab := rfl
@[simp] theorem State.setBit_cnv (s : State) (k b : Nat) (x : Bool) : (s.setBit k b x).cnv = s.cnv := rfl
@[simp] theorem State.setBit_rings (s : State) (k b : Nat) (x : Bool) : (s.setBit k b x).rings = s.rings := rfl
@[simp] theorem State.setBit_links (s : State) (k b : Nat) (x : Bool) : (s.setBit k b x).links = s.links := rfl
@[simp] theorem State.setBit_top (s : State) (k b : Nat) (x : Bool) : (s.setBit k b x).top = s.top := rfl
@[simp] theorem State.setBit_ttl (s : State) (k b : Nat) (x : Bool) : (s.setBit k b x).ttl = s.ttl := rfl
@[simp] theorem State.setBit_rats (s : State) (k b : Nat) (x : Bool) : (s.setBit k b x).rats = s.rats := rfl
@[simp] theorem State.setBit_clk (s : State) (k b : Nat) (x : Bool) : (s.setBit k b x).clk = s.clk := rfl
@[simp] theorem State.setBit_power (s : State) (k b : Nat) (x : Bool) : (s.setBit k b x).power = s.power := rfl
@[simp] theorem State.setBit_rel (s : State) (k b : Nat) (x : Bool) : (s.setBit k b x).rel = s.rel := rfl
@[simp] theorem State.setBit_boot (s : State) (k b : Nat) (x : Bool) : (s.setBit k b x).boot = s.boot := rfl
@[simp] theorem State.setBit_sbd (s : State) (k b : Nat) (x : Bool) : (s.setBit k b x).sbd = s.sbd := rfl
@[simp] theorem State.setBit_pci (s : State) (k b : Nat) (x : Bool) : (s.setBit k b x).pci = s.pci := rfl
@[simp] theorem State.inc_pending (s : State) (k : Nat) : (s.inc k).pending = s.pending := rfl
@[simp] theorem State.inc_time (s : State) (k : Nat) : (s.inc k).time = s.time := rfl
@[simp] theorem State.inc_arb (s : State) (k : Nat) : (s.inc k).arb = s.arb := rfl
@[simp] theorem State.inc_pins (s : State) (k : Nat) : (s.inc k).pins = s.pins := rfl
@[simp] theorem State.inc_out (s : State) (k : Nat) : (s.inc k).out = s.out := rfl
@[simp] theorem State.inc_freeCtr (s : State) (k : Nat) : (s.inc k).freeCtr = s.freeCtr := rfl
@[simp] theorem State.inc_msix (s : State) (k : Nat) : (s.inc k).msix = s.msix := rfl
@[simp] theorem State.inc_parts (s : State) (k : Nat) : (s.inc k).parts = s.parts := rfl
@[simp] theorem State.inc_eqs (s : State) (k : Nat) : (s.inc k).eqs = s.eqs := rfl
@[simp] theorem State.inc_descs (s : State) (k : Nat) : (s.inc k).descs = s.descs := rfl
@[simp] theorem State.inc_reqs (s : State) (k : Nat) : (s.inc k).reqs = s.reqs := rfl
@[simp] theorem State.inc_nextFetch (s : State) (k : Nat) : (s.inc k).nextFetch = s.nextFetch := rfl
@[simp] theorem State.inc_rr (s : State) (k : Nat) : (s.inc k).rr = s.rr := rfl
@[simp] theorem State.inc_models (s : State) (k : Nat) : (s.inc k).models = s.models := rfl
@[simp] theorem State.inc_mem (s : State) (k : Nat) : (s.inc k).mem = s.mem := rfl
@[simp] theorem State.inc_paging (s : State) (k : Nat) : (s.inc k).paging = s.paging := rfl
@[simp] theorem State.inc_agents (s : State) (k : Nat) : (s.inc k).agents = s.agents := rfl
@[simp] theorem State.inc_fab (s : State) (k : Nat) : (s.inc k).fab = s.fab := rfl
@[simp] theorem State.inc_cnv (s : State) (k : Nat) : (s.inc k).cnv = s.cnv := rfl
@[simp] theorem State.inc_rings (s : State) (k : Nat) : (s.inc k).rings = s.rings := rfl
@[simp] theorem State.inc_links (s : State) (k : Nat) : (s.inc k).links = s.links := rfl
@[simp] theorem State.inc_top (s : State) (k : Nat) : (s.inc k).top = s.top := rfl
@[simp] theorem State.inc_ttl (s : State) (k : Nat) : (s.inc k).ttl = s.ttl := rfl
@[simp] theorem State.inc_rats (s : State) (k : Nat) : (s.inc k).rats = s.rats := rfl
@[simp] theorem State.inc_clk (s : State) (k : Nat) : (s.inc k).clk = s.clk := rfl
@[simp] theorem State.inc_power (s : State) (k : Nat) : (s.inc k).power = s.power := rfl
@[simp] theorem State.inc_rel (s : State) (k : Nat) : (s.inc k).rel = s.rel := rfl
@[simp] theorem State.inc_boot (s : State) (k : Nat) : (s.inc k).boot = s.boot := rfl
@[simp] theorem State.inc_sbd (s : State) (k : Nat) : (s.inc k).sbd = s.sbd := rfl
@[simp] theorem State.inc_pci (s : State) (k : Nat) : (s.inc k).pci = s.pci := rfl
@[simp] theorem State.addCnt_pending (s : State) (k n : Nat) : (s.addCnt k n).pending = s.pending := rfl
@[simp] theorem State.addCnt_time (s : State) (k n : Nat) : (s.addCnt k n).time = s.time := rfl
@[simp] theorem State.addCnt_arb (s : State) (k n : Nat) : (s.addCnt k n).arb = s.arb := rfl
@[simp] theorem State.addCnt_pins (s : State) (k n : Nat) : (s.addCnt k n).pins = s.pins := rfl
@[simp] theorem State.addCnt_out (s : State) (k n : Nat) : (s.addCnt k n).out = s.out := rfl
@[simp] theorem State.addCnt_freeCtr (s : State) (k n : Nat) : (s.addCnt k n).freeCtr = s.freeCtr := rfl
@[simp] theorem State.addCnt_msix (s : State) (k n : Nat) : (s.addCnt k n).msix = s.msix := rfl
@[simp] theorem State.addCnt_parts (s : State) (k n : Nat) : (s.addCnt k n).parts = s.parts := rfl
@[simp] theorem State.addCnt_eqs (s : State) (k n : Nat) : (s.addCnt k n).eqs = s.eqs := rfl
@[simp] theorem State.addCnt_descs (s : State) (k n : Nat) : (s.addCnt k n).descs = s.descs := rfl
@[simp] theorem State.addCnt_reqs (s : State) (k n : Nat) : (s.addCnt k n).reqs = s.reqs := rfl
@[simp] theorem State.addCnt_nextFetch (s : State) (k n : Nat) : (s.addCnt k n).nextFetch = s.nextFetch := rfl
@[simp] theorem State.addCnt_rr (s : State) (k n : Nat) : (s.addCnt k n).rr = s.rr := rfl
@[simp] theorem State.addCnt_models (s : State) (k n : Nat) : (s.addCnt k n).models = s.models := rfl
@[simp] theorem State.addCnt_mem (s : State) (k n : Nat) : (s.addCnt k n).mem = s.mem := rfl
@[simp] theorem State.addCnt_paging (s : State) (k n : Nat) : (s.addCnt k n).paging = s.paging := rfl
@[simp] theorem State.addCnt_agents (s : State) (k n : Nat) : (s.addCnt k n).agents = s.agents := rfl
@[simp] theorem State.addCnt_fab (s : State) (k n : Nat) : (s.addCnt k n).fab = s.fab := rfl
@[simp] theorem State.addCnt_cnv (s : State) (k n : Nat) : (s.addCnt k n).cnv = s.cnv := rfl
@[simp] theorem State.addCnt_rings (s : State) (k n : Nat) : (s.addCnt k n).rings = s.rings := rfl
@[simp] theorem State.addCnt_links (s : State) (k n : Nat) : (s.addCnt k n).links = s.links := rfl
@[simp] theorem State.addCnt_top (s : State) (k n : Nat) : (s.addCnt k n).top = s.top := rfl
@[simp] theorem State.addCnt_ttl (s : State) (k n : Nat) : (s.addCnt k n).ttl = s.ttl := rfl
@[simp] theorem State.addCnt_rats (s : State) (k n : Nat) : (s.addCnt k n).rats = s.rats := rfl
@[simp] theorem State.addCnt_clk (s : State) (k n : Nat) : (s.addCnt k n).clk = s.clk := rfl
@[simp] theorem State.addCnt_power (s : State) (k n : Nat) : (s.addCnt k n).power = s.power := rfl
@[simp] theorem State.addCnt_rel (s : State) (k n : Nat) : (s.addCnt k n).rel = s.rel := rfl
@[simp] theorem State.addCnt_boot (s : State) (k n : Nat) : (s.addCnt k n).boot = s.boot := rfl
@[simp] theorem State.addCnt_sbd (s : State) (k n : Nat) : (s.addCnt k n).sbd = s.sbd := rfl
@[simp] theorem State.addCnt_pci (s : State) (k n : Nat) : (s.addCnt k n).pci = s.pci := rfl
@[simp] theorem State.resetKeys_pending (s : State) (a b : Nat) : (s.resetKeys a b).pending = s.pending := rfl
@[simp] theorem State.resetKeys_time (s : State) (a b : Nat) : (s.resetKeys a b).time = s.time := rfl
@[simp] theorem State.resetKeys_arb (s : State) (a b : Nat) : (s.resetKeys a b).arb = s.arb := rfl
@[simp] theorem State.resetKeys_pins (s : State) (a b : Nat) : (s.resetKeys a b).pins = s.pins := rfl
@[simp] theorem State.resetKeys_out (s : State) (a b : Nat) : (s.resetKeys a b).out = s.out := rfl
@[simp] theorem State.resetKeys_freeCtr (s : State) (a b : Nat) : (s.resetKeys a b).freeCtr = s.freeCtr := rfl
@[simp] theorem State.resetKeys_msix (s : State) (a b : Nat) : (s.resetKeys a b).msix = s.msix := rfl
@[simp] theorem State.resetKeys_parts (s : State) (a b : Nat) : (s.resetKeys a b).parts = s.parts := rfl
@[simp] theorem State.resetKeys_eqs (s : State) (a b : Nat) : (s.resetKeys a b).eqs = s.eqs := rfl
@[simp] theorem State.resetKeys_descs (s : State) (a b : Nat) : (s.resetKeys a b).descs = s.descs := rfl
@[simp] theorem State.resetKeys_reqs (s : State) (a b : Nat) : (s.resetKeys a b).reqs = s.reqs := rfl
@[simp] theorem State.resetKeys_nextFetch (s : State) (a b : Nat) : (s.resetKeys a b).nextFetch = s.nextFetch := rfl
@[simp] theorem State.resetKeys_rr (s : State) (a b : Nat) : (s.resetKeys a b).rr = s.rr := rfl
@[simp] theorem State.resetKeys_models (s : State) (a b : Nat) : (s.resetKeys a b).models = s.models := rfl
@[simp] theorem State.resetKeys_mem (s : State) (a b : Nat) : (s.resetKeys a b).mem = s.mem := rfl
@[simp] theorem State.resetKeys_paging (s : State) (a b : Nat) : (s.resetKeys a b).paging = s.paging := rfl
@[simp] theorem State.resetKeys_agents (s : State) (a b : Nat) : (s.resetKeys a b).agents = s.agents := rfl
@[simp] theorem State.resetKeys_fab (s : State) (a b : Nat) : (s.resetKeys a b).fab = s.fab := rfl
@[simp] theorem State.resetKeys_cnv (s : State) (a b : Nat) : (s.resetKeys a b).cnv = s.cnv := rfl
@[simp] theorem State.resetKeys_rings (s : State) (a b : Nat) : (s.resetKeys a b).rings = s.rings := rfl
@[simp] theorem State.resetKeys_links (s : State) (a b : Nat) : (s.resetKeys a b).links = s.links := rfl
@[simp] theorem State.resetKeys_top (s : State) (a b : Nat) : (s.resetKeys a b).top = s.top := rfl
@[simp] theorem State.resetKeys_ttl (s : State) (a b : Nat) : (s.resetKeys a b).ttl = s.ttl := rfl
@[simp] theorem State.resetKeys_rats (s : State) (a b : Nat) : (s.resetKeys a b).rats = s.rats := rfl
@[simp] theorem State.resetKeys_clk (s : State) (a b : Nat) : (s.resetKeys a b).clk = s.clk := rfl
@[simp] theorem State.resetKeys_power (s : State) (a b : Nat) : (s.resetKeys a b).power = s.power := rfl
@[simp] theorem State.resetKeys_rel (s : State) (a b : Nat) : (s.resetKeys a b).rel = s.rel := rfl
@[simp] theorem State.resetKeys_boot (s : State) (a b : Nat) : (s.resetKeys a b).boot = s.boot := rfl
@[simp] theorem State.resetKeys_sbd (s : State) (a b : Nat) : (s.resetKeys a b).sbd = s.sbd := rfl
@[simp] theorem State.resetKeys_pci (s : State) (a b : Nat) : (s.resetKeys a b).pci = s.pci := rfl
@[simp] theorem State.setLastErr_pending (s : State) (p e : Nat) : (s.setLastErr p e).pending = s.pending := rfl
@[simp] theorem State.setLastErr_time (s : State) (p e : Nat) : (s.setLastErr p e).time = s.time := rfl
@[simp] theorem State.setLastErr_arb (s : State) (p e : Nat) : (s.setLastErr p e).arb = s.arb := rfl
@[simp] theorem State.setLastErr_pins (s : State) (p e : Nat) : (s.setLastErr p e).pins = s.pins := rfl
@[simp] theorem State.setLastErr_out (s : State) (p e : Nat) : (s.setLastErr p e).out = s.out := rfl
@[simp] theorem State.setLastErr_freeCtr (s : State) (p e : Nat) : (s.setLastErr p e).freeCtr = s.freeCtr := rfl
@[simp] theorem State.setLastErr_msix (s : State) (p e : Nat) : (s.setLastErr p e).msix = s.msix := rfl
@[simp] theorem State.setLastErr_parts (s : State) (p e : Nat) : (s.setLastErr p e).parts = s.parts := rfl
@[simp] theorem State.setLastErr_eqs (s : State) (p e : Nat) : (s.setLastErr p e).eqs = s.eqs := rfl
@[simp] theorem State.setLastErr_descs (s : State) (p e : Nat) : (s.setLastErr p e).descs = s.descs := rfl
@[simp] theorem State.setLastErr_reqs (s : State) (p e : Nat) : (s.setLastErr p e).reqs = s.reqs := rfl
@[simp] theorem State.setLastErr_nextFetch (s : State) (p e : Nat) : (s.setLastErr p e).nextFetch = s.nextFetch := rfl
@[simp] theorem State.setLastErr_rr (s : State) (p e : Nat) : (s.setLastErr p e).rr = s.rr := rfl
@[simp] theorem State.setLastErr_models (s : State) (p e : Nat) : (s.setLastErr p e).models = s.models := rfl
@[simp] theorem State.setLastErr_mem (s : State) (p e : Nat) : (s.setLastErr p e).mem = s.mem := rfl
@[simp] theorem State.setLastErr_paging (s : State) (p e : Nat) : (s.setLastErr p e).paging = s.paging := rfl
@[simp] theorem State.setLastErr_agents (s : State) (p e : Nat) : (s.setLastErr p e).agents = s.agents := rfl
@[simp] theorem State.setLastErr_fab (s : State) (p e : Nat) : (s.setLastErr p e).fab = s.fab := rfl
@[simp] theorem State.setLastErr_cnv (s : State) (p e : Nat) : (s.setLastErr p e).cnv = s.cnv := rfl
@[simp] theorem State.setLastErr_rings (s : State) (p e : Nat) : (s.setLastErr p e).rings = s.rings := rfl
@[simp] theorem State.setLastErr_links (s : State) (p e : Nat) : (s.setLastErr p e).links = s.links := rfl
@[simp] theorem State.setLastErr_top (s : State) (p e : Nat) : (s.setLastErr p e).top = s.top := rfl
@[simp] theorem State.setLastErr_ttl (s : State) (p e : Nat) : (s.setLastErr p e).ttl = s.ttl := rfl
@[simp] theorem State.setLastErr_rats (s : State) (p e : Nat) : (s.setLastErr p e).rats = s.rats := rfl
@[simp] theorem State.setLastErr_clk (s : State) (p e : Nat) : (s.setLastErr p e).clk = s.clk := rfl
@[simp] theorem State.setLastErr_power (s : State) (p e : Nat) : (s.setLastErr p e).power = s.power := rfl
@[simp] theorem State.setLastErr_rel (s : State) (p e : Nat) : (s.setLastErr p e).rel = s.rel := rfl
@[simp] theorem State.setLastErr_boot (s : State) (p e : Nat) : (s.setLastErr p e).boot = s.boot := rfl
@[simp] theorem State.setLastErr_sbd (s : State) (p e : Nat) : (s.setLastErr p e).sbd = s.sbd := rfl
@[simp] theorem State.setLastErr_pci (s : State) (p e : Nat) : (s.setLastErr p e).pci = s.pci := rfl
@[simp] theorem State.isoUpdate_pending (s : State) (p : Nat) : (s.isoUpdate p).pending = s.pending := rfl
@[simp] theorem State.isoUpdate_time (s : State) (p : Nat) : (s.isoUpdate p).time = s.time := rfl
@[simp] theorem State.isoUpdate_arb (s : State) (p : Nat) : (s.isoUpdate p).arb = s.arb := rfl
@[simp] theorem State.isoUpdate_pins (s : State) (p : Nat) : (s.isoUpdate p).pins = s.pins := rfl
@[simp] theorem State.isoUpdate_out (s : State) (p : Nat) : (s.isoUpdate p).out = s.out := rfl
@[simp] theorem State.isoUpdate_freeCtr (s : State) (p : Nat) : (s.isoUpdate p).freeCtr = s.freeCtr := rfl
@[simp] theorem State.isoUpdate_msix (s : State) (p : Nat) : (s.isoUpdate p).msix = s.msix := rfl
@[simp] theorem State.isoUpdate_parts (s : State) (p : Nat) : (s.isoUpdate p).parts = s.parts := rfl
@[simp] theorem State.isoUpdate_eqs (s : State) (p : Nat) : (s.isoUpdate p).eqs = s.eqs := rfl
@[simp] theorem State.isoUpdate_descs (s : State) (p : Nat) : (s.isoUpdate p).descs = s.descs := rfl
@[simp] theorem State.isoUpdate_reqs (s : State) (p : Nat) : (s.isoUpdate p).reqs = s.reqs := rfl
@[simp] theorem State.isoUpdate_nextFetch (s : State) (p : Nat) : (s.isoUpdate p).nextFetch = s.nextFetch := rfl
@[simp] theorem State.isoUpdate_rr (s : State) (p : Nat) : (s.isoUpdate p).rr = s.rr := rfl
@[simp] theorem State.isoUpdate_models (s : State) (p : Nat) : (s.isoUpdate p).models = s.models := rfl
@[simp] theorem State.isoUpdate_mem (s : State) (p : Nat) : (s.isoUpdate p).mem = s.mem := rfl
@[simp] theorem State.isoUpdate_paging (s : State) (p : Nat) : (s.isoUpdate p).paging = s.paging := rfl
@[simp] theorem State.isoUpdate_agents (s : State) (p : Nat) : (s.isoUpdate p).agents = s.agents := rfl
@[simp] theorem State.isoUpdate_fab (s : State) (p : Nat) : (s.isoUpdate p).fab = s.fab := rfl
@[simp] theorem State.isoUpdate_cnv (s : State) (p : Nat) : (s.isoUpdate p).cnv = s.cnv := rfl
@[simp] theorem State.isoUpdate_rings (s : State) (p : Nat) : (s.isoUpdate p).rings = s.rings := rfl
@[simp] theorem State.isoUpdate_links (s : State) (p : Nat) : (s.isoUpdate p).links = s.links := rfl
@[simp] theorem State.isoUpdate_top (s : State) (p : Nat) : (s.isoUpdate p).top = s.top := rfl
@[simp] theorem State.isoUpdate_ttl (s : State) (p : Nat) : (s.isoUpdate p).ttl = s.ttl := rfl
@[simp] theorem State.isoUpdate_rats (s : State) (p : Nat) : (s.isoUpdate p).rats = s.rats := rfl
@[simp] theorem State.isoUpdate_clk (s : State) (p : Nat) : (s.isoUpdate p).clk = s.clk := rfl
@[simp] theorem State.isoUpdate_power (s : State) (p : Nat) : (s.isoUpdate p).power = s.power := rfl
@[simp] theorem State.isoUpdate_rel (s : State) (p : Nat) : (s.isoUpdate p).rel = s.rel := rfl
@[simp] theorem State.isoUpdate_boot (s : State) (p : Nat) : (s.isoUpdate p).boot = s.boot := rfl
@[simp] theorem State.isoUpdate_sbd (s : State) (p : Nat) : (s.isoUpdate p).sbd = s.sbd := rfl
@[simp] theorem State.isoUpdate_pci (s : State) (p : Nat) : (s.isoUpdate p).pci = s.pci := rfl
@[simp] theorem State.deny_pending (s : State) : (s.deny).pending = s.pending := rfl
@[simp] theorem State.deny_time (s : State) : (s.deny).time = s.time := rfl
@[simp] theorem State.deny_arb (s : State) : (s.deny).arb = s.arb := rfl
@[simp] theorem State.deny_pins (s : State) : (s.deny).pins = s.pins := rfl
@[simp] theorem State.deny_out (s : State) : (s.deny).out = s.out := rfl
@[simp] theorem State.deny_freeCtr (s : State) : (s.deny).freeCtr = s.freeCtr := rfl
@[simp] theorem State.deny_msix (s : State) : (s.deny).msix = s.msix := rfl
@[simp] theorem State.deny_parts (s : State) : (s.deny).parts = s.parts := rfl
@[simp] theorem State.deny_eqs (s : State) : (s.deny).eqs = s.eqs := rfl
@[simp] theorem State.deny_descs (s : State) : (s.deny).descs = s.descs := rfl
@[simp] theorem State.deny_reqs (s : State) : (s.deny).reqs = s.reqs := rfl
@[simp] theorem State.deny_nextFetch (s : State) : (s.deny).nextFetch = s.nextFetch := rfl
@[simp] theorem State.deny_rr (s : State) : (s.deny).rr = s.rr := rfl
@[simp] theorem State.deny_models (s : State) : (s.deny).models = s.models := rfl
@[simp] theorem State.deny_mem (s : State) : (s.deny).mem = s.mem := rfl
@[simp] theorem State.deny_paging (s : State) : (s.deny).paging = s.paging := rfl
@[simp] theorem State.deny_agents (s : State) : (s.deny).agents = s.agents := rfl
@[simp] theorem State.deny_fab (s : State) : (s.deny).fab = s.fab := rfl
@[simp] theorem State.deny_cnv (s : State) : (s.deny).cnv = s.cnv := rfl
@[simp] theorem State.deny_rings (s : State) : (s.deny).rings = s.rings := rfl
@[simp] theorem State.deny_links (s : State) : (s.deny).links = s.links := rfl
@[simp] theorem State.deny_top (s : State) : (s.deny).top = s.top := rfl
@[simp] theorem State.deny_ttl (s : State) : (s.deny).ttl = s.ttl := rfl
@[simp] theorem State.deny_rats (s : State) : (s.deny).rats = s.rats := rfl
@[simp] theorem State.deny_clk (s : State) : (s.deny).clk = s.clk := rfl
@[simp] theorem State.deny_power (s : State) : (s.deny).power = s.power := rfl
@[simp] theorem State.deny_rel (s : State) : (s.deny).rel = s.rel := rfl
@[simp] theorem State.deny_boot (s : State) : (s.deny).boot = s.boot := rfl
@[simp] theorem State.deny_sbd (s : State) : (s.deny).sbd = s.sbd := rfl
@[simp] theorem State.deny_pci (s : State) : (s.deny).pci = s.pci := rfl
@[simp] theorem State.emit_pending (s : State) (o : Out) : (s.emit o).pending = s.pending := rfl
@[simp] theorem State.emit_regs (s : State) (o : Out) : (s.emit o).regs = s.regs := rfl
@[simp] theorem State.emit_time (s : State) (o : Out) : (s.emit o).time = s.time := rfl
@[simp] theorem State.emit_arb (s : State) (o : Out) : (s.emit o).arb = s.arb := rfl
@[simp] theorem State.emit_pins (s : State) (o : Out) : (s.emit o).pins = s.pins := rfl
@[simp] theorem State.emit_freeCtr (s : State) (o : Out) : (s.emit o).freeCtr = s.freeCtr := rfl
@[simp] theorem State.emit_msix (s : State) (o : Out) : (s.emit o).msix = s.msix := rfl
@[simp] theorem State.emit_parts (s : State) (o : Out) : (s.emit o).parts = s.parts := rfl
@[simp] theorem State.emit_eqs (s : State) (o : Out) : (s.emit o).eqs = s.eqs := rfl
@[simp] theorem State.emit_descs (s : State) (o : Out) : (s.emit o).descs = s.descs := rfl
@[simp] theorem State.emit_reqs (s : State) (o : Out) : (s.emit o).reqs = s.reqs := rfl
@[simp] theorem State.emit_nextFetch (s : State) (o : Out) : (s.emit o).nextFetch = s.nextFetch := rfl
@[simp] theorem State.emit_rr (s : State) (o : Out) : (s.emit o).rr = s.rr := rfl
@[simp] theorem State.emit_models (s : State) (o : Out) : (s.emit o).models = s.models := rfl
@[simp] theorem State.emit_mem (s : State) (o : Out) : (s.emit o).mem = s.mem := rfl
@[simp] theorem State.emit_paging (s : State) (o : Out) : (s.emit o).paging = s.paging := rfl
@[simp] theorem State.emit_agents (s : State) (o : Out) : (s.emit o).agents = s.agents := rfl
@[simp] theorem State.emit_fab (s : State) (o : Out) : (s.emit o).fab = s.fab := rfl
@[simp] theorem State.emit_cnv (s : State) (o : Out) : (s.emit o).cnv = s.cnv := rfl
@[simp] theorem State.emit_rings (s : State) (o : Out) : (s.emit o).rings = s.rings := rfl
@[simp] theorem State.emit_links (s : State) (o : Out) : (s.emit o).links = s.links := rfl
@[simp] theorem State.emit_top (s : State) (o : Out) : (s.emit o).top = s.top := rfl
@[simp] theorem State.emit_ttl (s : State) (o : Out) : (s.emit o).ttl = s.ttl := rfl
@[simp] theorem State.emit_rats (s : State) (o : Out) : (s.emit o).rats = s.rats := rfl
@[simp] theorem State.emit_clk (s : State) (o : Out) : (s.emit o).clk = s.clk := rfl
@[simp] theorem State.emit_power (s : State) (o : Out) : (s.emit o).power = s.power := rfl
@[simp] theorem State.emit_rel (s : State) (o : Out) : (s.emit o).rel = s.rel := rfl
@[simp] theorem State.emit_boot (s : State) (o : Out) : (s.emit o).boot = s.boot := rfl
@[simp] theorem State.emit_sbd (s : State) (o : Out) : (s.emit o).sbd = s.sbd := rfl
@[simp] theorem State.emit_pci (s : State) (o : Out) : (s.emit o).pci = s.pci := rfl
@[simp] theorem State.chosen_pending (s : State) : (s.chosen).pending = s.pending := rfl
@[simp] theorem State.chosen_regs (s : State) : (s.chosen).regs = s.regs := rfl
@[simp] theorem State.chosen_time (s : State) : (s.chosen).time = s.time := rfl
@[simp] theorem State.chosen_arb (s : State) : (s.chosen).arb = s.arb := rfl
@[simp] theorem State.chosen_pins (s : State) : (s.chosen).pins = s.pins := rfl
@[simp] theorem State.chosen_out (s : State) : (s.chosen).out = s.out := rfl
@[simp] theorem State.chosen_msix (s : State) : (s.chosen).msix = s.msix := rfl
@[simp] theorem State.chosen_parts (s : State) : (s.chosen).parts = s.parts := rfl
@[simp] theorem State.chosen_eqs (s : State) : (s.chosen).eqs = s.eqs := rfl
@[simp] theorem State.chosen_descs (s : State) : (s.chosen).descs = s.descs := rfl
@[simp] theorem State.chosen_reqs (s : State) : (s.chosen).reqs = s.reqs := rfl
@[simp] theorem State.chosen_nextFetch (s : State) : (s.chosen).nextFetch = s.nextFetch := rfl
@[simp] theorem State.chosen_rr (s : State) : (s.chosen).rr = s.rr := rfl
@[simp] theorem State.chosen_models (s : State) : (s.chosen).models = s.models := rfl
@[simp] theorem State.chosen_mem (s : State) : (s.chosen).mem = s.mem := rfl
@[simp] theorem State.chosen_paging (s : State) : (s.chosen).paging = s.paging := rfl
@[simp] theorem State.chosen_agents (s : State) : (s.chosen).agents = s.agents := rfl
@[simp] theorem State.chosen_fab (s : State) : (s.chosen).fab = s.fab := rfl
@[simp] theorem State.chosen_cnv (s : State) : (s.chosen).cnv = s.cnv := rfl
@[simp] theorem State.chosen_rings (s : State) : (s.chosen).rings = s.rings := rfl
@[simp] theorem State.chosen_links (s : State) : (s.chosen).links = s.links := rfl
@[simp] theorem State.chosen_top (s : State) : (s.chosen).top = s.top := rfl
@[simp] theorem State.chosen_ttl (s : State) : (s.chosen).ttl = s.ttl := rfl
@[simp] theorem State.chosen_rats (s : State) : (s.chosen).rats = s.rats := rfl
@[simp] theorem State.chosen_clk (s : State) : (s.chosen).clk = s.clk := rfl
@[simp] theorem State.chosen_power (s : State) : (s.chosen).power = s.power := rfl
@[simp] theorem State.chosen_rel (s : State) : (s.chosen).rel = s.rel := rfl
@[simp] theorem State.chosen_boot (s : State) : (s.chosen).boot = s.boot := rfl
@[simp] theorem State.chosen_sbd (s : State) : (s.chosen).sbd = s.sbd := rfl
@[simp] theorem State.chosen_pci (s : State) : (s.chosen).pci = s.pci := rfl
@[simp] theorem State.setMsix_pending (s : State) (v : Nat) (e : MsixEntry) : (s.setMsix v e).pending = s.pending := rfl
@[simp] theorem State.setMsix_regs (s : State) (v : Nat) (e : MsixEntry) : (s.setMsix v e).regs = s.regs := rfl
@[simp] theorem State.setMsix_time (s : State) (v : Nat) (e : MsixEntry) : (s.setMsix v e).time = s.time := rfl
@[simp] theorem State.setMsix_arb (s : State) (v : Nat) (e : MsixEntry) : (s.setMsix v e).arb = s.arb := rfl
@[simp] theorem State.setMsix_pins (s : State) (v : Nat) (e : MsixEntry) : (s.setMsix v e).pins = s.pins := rfl
@[simp] theorem State.setMsix_out (s : State) (v : Nat) (e : MsixEntry) : (s.setMsix v e).out = s.out := rfl
@[simp] theorem State.setMsix_freeCtr (s : State) (v : Nat) (e : MsixEntry) : (s.setMsix v e).freeCtr = s.freeCtr := rfl
@[simp] theorem State.setMsix_parts (s : State) (v : Nat) (e : MsixEntry) : (s.setMsix v e).parts = s.parts := rfl
@[simp] theorem State.setMsix_eqs (s : State) (v : Nat) (e : MsixEntry) : (s.setMsix v e).eqs = s.eqs := rfl
@[simp] theorem State.setMsix_descs (s : State) (v : Nat) (e : MsixEntry) : (s.setMsix v e).descs = s.descs := rfl
@[simp] theorem State.setMsix_reqs (s : State) (v : Nat) (e : MsixEntry) : (s.setMsix v e).reqs = s.reqs := rfl
@[simp] theorem State.setMsix_nextFetch (s : State) (v : Nat) (e : MsixEntry) : (s.setMsix v e).nextFetch = s.nextFetch := rfl
@[simp] theorem State.setMsix_rr (s : State) (v : Nat) (e : MsixEntry) : (s.setMsix v e).rr = s.rr := rfl
@[simp] theorem State.setMsix_models (s : State) (v : Nat) (e : MsixEntry) : (s.setMsix v e).models = s.models := rfl
@[simp] theorem State.setMsix_mem (s : State) (v : Nat) (e : MsixEntry) : (s.setMsix v e).mem = s.mem := rfl
@[simp] theorem State.setMsix_paging (s : State) (v : Nat) (e : MsixEntry) : (s.setMsix v e).paging = s.paging := rfl
@[simp] theorem State.setMsix_agents (s : State) (v : Nat) (e : MsixEntry) : (s.setMsix v e).agents = s.agents := rfl
@[simp] theorem State.setMsix_fab (s : State) (v : Nat) (e : MsixEntry) : (s.setMsix v e).fab = s.fab := rfl
@[simp] theorem State.setMsix_cnv (s : State) (v : Nat) (e : MsixEntry) : (s.setMsix v e).cnv = s.cnv := rfl
@[simp] theorem State.setMsix_rings (s : State) (v : Nat) (e : MsixEntry) : (s.setMsix v e).rings = s.rings := rfl
@[simp] theorem State.setMsix_links (s : State) (v : Nat) (e : MsixEntry) : (s.setMsix v e).links = s.links := rfl
@[simp] theorem State.setMsix_top (s : State) (v : Nat) (e : MsixEntry) : (s.setMsix v e).top = s.top := rfl
@[simp] theorem State.setMsix_ttl (s : State) (v : Nat) (e : MsixEntry) : (s.setMsix v e).ttl = s.ttl := rfl
@[simp] theorem State.setMsix_rats (s : State) (v : Nat) (e : MsixEntry) : (s.setMsix v e).rats = s.rats := rfl
@[simp] theorem State.setMsix_clk (s : State) (v : Nat) (e : MsixEntry) : (s.setMsix v e).clk = s.clk := rfl
@[simp] theorem State.setMsix_power (s : State) (v : Nat) (e : MsixEntry) : (s.setMsix v e).power = s.power := rfl
@[simp] theorem State.setMsix_rel (s : State) (v : Nat) (e : MsixEntry) : (s.setMsix v e).rel = s.rel := rfl
@[simp] theorem State.setMsix_boot (s : State) (v : Nat) (e : MsixEntry) : (s.setMsix v e).boot = s.boot := rfl
@[simp] theorem State.setMsix_sbd (s : State) (v : Nat) (e : MsixEntry) : (s.setMsix v e).sbd = s.sbd := rfl
@[simp] theorem State.setMsix_pci (s : State) (v : Nat) (e : MsixEntry) : (s.setMsix v e).pci = s.pci := rfl
@[simp] theorem State.setPart_pending (s : State) (p : Nat) (x : Part) : (s.setPart p x).pending = s.pending := rfl
@[simp] theorem State.setPart_regs (s : State) (p : Nat) (x : Part) : (s.setPart p x).regs = s.regs := rfl
@[simp] theorem State.setPart_time (s : State) (p : Nat) (x : Part) : (s.setPart p x).time = s.time := rfl
@[simp] theorem State.setPart_arb (s : State) (p : Nat) (x : Part) : (s.setPart p x).arb = s.arb := rfl
@[simp] theorem State.setPart_pins (s : State) (p : Nat) (x : Part) : (s.setPart p x).pins = s.pins := rfl
@[simp] theorem State.setPart_out (s : State) (p : Nat) (x : Part) : (s.setPart p x).out = s.out := rfl
@[simp] theorem State.setPart_freeCtr (s : State) (p : Nat) (x : Part) : (s.setPart p x).freeCtr = s.freeCtr := rfl
@[simp] theorem State.setPart_msix (s : State) (p : Nat) (x : Part) : (s.setPart p x).msix = s.msix := rfl
@[simp] theorem State.setPart_eqs (s : State) (p : Nat) (x : Part) : (s.setPart p x).eqs = s.eqs := rfl
@[simp] theorem State.setPart_descs (s : State) (p : Nat) (x : Part) : (s.setPart p x).descs = s.descs := rfl
@[simp] theorem State.setPart_reqs (s : State) (p : Nat) (x : Part) : (s.setPart p x).reqs = s.reqs := rfl
@[simp] theorem State.setPart_nextFetch (s : State) (p : Nat) (x : Part) : (s.setPart p x).nextFetch = s.nextFetch := rfl
@[simp] theorem State.setPart_rr (s : State) (p : Nat) (x : Part) : (s.setPart p x).rr = s.rr := rfl
@[simp] theorem State.setPart_models (s : State) (p : Nat) (x : Part) : (s.setPart p x).models = s.models := rfl
@[simp] theorem State.setPart_mem (s : State) (p : Nat) (x : Part) : (s.setPart p x).mem = s.mem := rfl
@[simp] theorem State.setPart_paging (s : State) (p : Nat) (x : Part) : (s.setPart p x).paging = s.paging := rfl
@[simp] theorem State.setPart_agents (s : State) (p : Nat) (x : Part) : (s.setPart p x).agents = s.agents := rfl
@[simp] theorem State.setPart_fab (s : State) (p : Nat) (x : Part) : (s.setPart p x).fab = s.fab := rfl
@[simp] theorem State.setPart_cnv (s : State) (p : Nat) (x : Part) : (s.setPart p x).cnv = s.cnv := rfl
@[simp] theorem State.setPart_rings (s : State) (p : Nat) (x : Part) : (s.setPart p x).rings = s.rings := rfl
@[simp] theorem State.setPart_links (s : State) (p : Nat) (x : Part) : (s.setPart p x).links = s.links := rfl
@[simp] theorem State.setPart_top (s : State) (p : Nat) (x : Part) : (s.setPart p x).top = s.top := rfl
@[simp] theorem State.setPart_ttl (s : State) (p : Nat) (x : Part) : (s.setPart p x).ttl = s.ttl := rfl
@[simp] theorem State.setPart_rats (s : State) (p : Nat) (x : Part) : (s.setPart p x).rats = s.rats := rfl
@[simp] theorem State.setPart_clk (s : State) (p : Nat) (x : Part) : (s.setPart p x).clk = s.clk := rfl
@[simp] theorem State.setPart_power (s : State) (p : Nat) (x : Part) : (s.setPart p x).power = s.power := rfl
@[simp] theorem State.setPart_rel (s : State) (p : Nat) (x : Part) : (s.setPart p x).rel = s.rel := rfl
@[simp] theorem State.setPart_boot (s : State) (p : Nat) (x : Part) : (s.setPart p x).boot = s.boot := rfl
@[simp] theorem State.setPart_sbd (s : State) (p : Nat) (x : Part) : (s.setPart p x).sbd = s.sbd := rfl
@[simp] theorem State.setPart_pci (s : State) (p : Nat) (x : Part) : (s.setPart p x).pci = s.pci := rfl

/-! ### Panels, groups, rings, bundles and event queues -/

@[simp] theorem State.panel_setPanel_same (s : State) (q : Nat) (x : Panel) : (s.setPanel q x).panel q = x := by
  simp [State.panel, State.setPanel]
theorem State.panel_setPanel_ne (s : State) {q j : Nat} (x : Panel) (h : j ≠ q) : (s.setPanel q x).panel j = s.panel j := by
  simp [State.panel, State.setPanel, SMap.get_set_ne _ _ _ h]
@[simp] theorem State.setPanel_pending (s : State) (q : Nat) (x : Panel) : (s.setPanel q x).pending = s.pending := rfl
@[simp] theorem State.setPanel_regs (s : State) (q : Nat) (x : Panel) : (s.setPanel q x).regs = s.regs := rfl
@[simp] theorem State.setPanel_time (s : State) (q : Nat) (x : Panel) : (s.setPanel q x).time = s.time := rfl
@[simp] theorem State.setPanel_arb (s : State) (q : Nat) (x : Panel) : (s.setPanel q x).arb = s.arb := rfl
@[simp] theorem State.setPanel_pins (s : State) (q : Nat) (x : Panel) : (s.setPanel q x).pins = s.pins := rfl
@[simp] theorem State.setPanel_out (s : State) (q : Nat) (x : Panel) : (s.setPanel q x).out = s.out := rfl
@[simp] theorem State.setPanel_freeCtr (s : State) (q : Nat) (x : Panel) : (s.setPanel q x).freeCtr = s.freeCtr := rfl
@[simp] theorem State.setPanel_mem (s : State) (q : Nat) (x : Panel) : (s.setPanel q x).mem = s.mem := rfl
@[simp] theorem State.group_setGroup_same (s : State) (g : Nat) (x : Group) : (s.setGroup g x).group g = x := by
  simp [State.group, State.setGroup]
theorem State.group_setGroup_ne (s : State) {g j : Nat} (x : Group) (h : j ≠ g) : (s.setGroup g x).group j = s.group j := by
  simp [State.group, State.setGroup, SMap.get_set_ne _ _ _ h]
@[simp] theorem State.setGroup_pending (s : State) (g : Nat) (x : Group) : (s.setGroup g x).pending = s.pending := rfl
@[simp] theorem State.setGroup_regs (s : State) (g : Nat) (x : Group) : (s.setGroup g x).regs = s.regs := rfl
@[simp] theorem State.setGroup_time (s : State) (g : Nat) (x : Group) : (s.setGroup g x).time = s.time := rfl
@[simp] theorem State.setGroup_arb (s : State) (g : Nat) (x : Group) : (s.setGroup g x).arb = s.arb := rfl
@[simp] theorem State.setGroup_pins (s : State) (g : Nat) (x : Group) : (s.setGroup g x).pins = s.pins := rfl
@[simp] theorem State.setGroup_out (s : State) (g : Nat) (x : Group) : (s.setGroup g x).out = s.out := rfl
@[simp] theorem State.setGroup_freeCtr (s : State) (g : Nat) (x : Group) : (s.setGroup g x).freeCtr = s.freeCtr := rfl
@[simp] theorem State.setGroup_mem (s : State) (g : Nat) (x : Group) : (s.setGroup g x).mem = s.mem := rfl
@[simp] theorem State.ring_setRing_same (s : State) (k : Nat) (x : Ring) : (s.setRing k x).ring k = x := by
  simp [State.ring, State.setRing]
theorem State.ring_setRing_ne (s : State) {k j : Nat} (x : Ring) (h : j ≠ k) : (s.setRing k x).ring j = s.ring j := by
  simp [State.ring, State.setRing, SMap.get_set_ne _ _ _ h]
@[simp] theorem State.setRing_pending (s : State) (k : Nat) (x : Ring) : (s.setRing k x).pending = s.pending := rfl
@[simp] theorem State.setRing_regs (s : State) (k : Nat) (x : Ring) : (s.setRing k x).regs = s.regs := rfl
@[simp] theorem State.setRing_time (s : State) (k : Nat) (x : Ring) : (s.setRing k x).time = s.time := rfl
@[simp] theorem State.setRing_arb (s : State) (k : Nat) (x : Ring) : (s.setRing k x).arb = s.arb := rfl
@[simp] theorem State.setRing_pins (s : State) (k : Nat) (x : Ring) : (s.setRing k x).pins = s.pins := rfl
@[simp] theorem State.setRing_out (s : State) (k : Nat) (x : Ring) : (s.setRing k x).out = s.out := rfl
@[simp] theorem State.setRing_freeCtr (s : State) (k : Nat) (x : Ring) : (s.setRing k x).freeCtr = s.freeCtr := rfl
@[simp] theorem State.setRing_mem (s : State) (k : Nat) (x : Ring) : (s.setRing k x).mem = s.mem := rfl
@[simp] theorem State.bundle_setBundle_same (s : State) (b : Nat) (x : Bundle) : (s.setBundle b x).bundle b = x := by
  simp [State.bundle, State.setBundle]
theorem State.bundle_setBundle_ne (s : State) {b j : Nat} (x : Bundle) (h : j ≠ b) : (s.setBundle b x).bundle j = s.bundle j := by
  simp [State.bundle, State.setBundle, SMap.get_set_ne _ _ _ h]
@[simp] theorem State.setBundle_pending (s : State) (b : Nat) (x : Bundle) : (s.setBundle b x).pending = s.pending := rfl
@[simp] theorem State.setBundle_regs (s : State) (b : Nat) (x : Bundle) : (s.setBundle b x).regs = s.regs := rfl
@[simp] theorem State.setBundle_time (s : State) (b : Nat) (x : Bundle) : (s.setBundle b x).time = s.time := rfl
@[simp] theorem State.setBundle_arb (s : State) (b : Nat) (x : Bundle) : (s.setBundle b x).arb = s.arb := rfl
@[simp] theorem State.setBundle_pins (s : State) (b : Nat) (x : Bundle) : (s.setBundle b x).pins = s.pins := rfl
@[simp] theorem State.setBundle_out (s : State) (b : Nat) (x : Bundle) : (s.setBundle b x).out = s.out := rfl
@[simp] theorem State.setBundle_freeCtr (s : State) (b : Nat) (x : Bundle) : (s.setBundle b x).freeCtr = s.freeCtr := rfl
@[simp] theorem State.setBundle_mem (s : State) (b : Nat) (x : Bundle) : (s.setBundle b x).mem = s.mem := rfl
@[simp] theorem State.eq_setEq_same (s : State) (q : Nat) (x : EqSt) : (s.setEq q x).eq q = x := by
  simp [State.eq, State.setEq]
theorem State.eq_setEq_ne (s : State) {q j : Nat} (x : EqSt) (h : j ≠ q) : (s.setEq q x).eq j = s.eq j := by
  simp [State.eq, State.setEq, SMap.get_set_ne _ _ _ h]
@[simp] theorem State.setEq_pending (s : State) (q : Nat) (x : EqSt) : (s.setEq q x).pending = s.pending := rfl
@[simp] theorem State.setEq_regs (s : State) (q : Nat) (x : EqSt) : (s.setEq q x).regs = s.regs := rfl
@[simp] theorem State.setEq_time (s : State) (q : Nat) (x : EqSt) : (s.setEq q x).time = s.time := rfl
@[simp] theorem State.setEq_arb (s : State) (q : Nat) (x : EqSt) : (s.setEq q x).arb = s.arb := rfl
@[simp] theorem State.setEq_pins (s : State) (q : Nat) (x : EqSt) : (s.setEq q x).pins = s.pins := rfl
@[simp] theorem State.setEq_out (s : State) (q : Nat) (x : EqSt) : (s.setEq q x).out = s.out := rfl
@[simp] theorem State.setEq_freeCtr (s : State) (q : Nat) (x : EqSt) : (s.setEq q x).freeCtr = s.freeCtr := rfl
@[simp] theorem State.setEq_mem (s : State) (q : Nat) (x : EqSt) : (s.setEq q x).mem = s.mem := rfl

end Sys2Proof.Machine
end

