-- ==== Sys2Proof/Laws/Ops.lean ====
section
/-! SUPPORT. What the operations on registers, interrupts and fault latches do: a field set reads back, a latch stands, and the rest
is as it was. -/

namespace Sys2Proof

theorem bitsOf_testBit (v h l i : Nat) : (bitsOf v h l).testBit i = (decide (i < h + 1 - l) && v.testBit (l + i)) := by
  unfold bitsOf
  rw [Nat.testBit_mod_two_pow, Nat.testBit_shiftRight]

theorem putBits_testBit (w : Word) (h l x i : Nat) (hh : h < 32) (hi : i < 32) :
    (putBits w h l x).toNat.testBit i =
      (if l ≤ i ∧ i ≤ h then x.testBit (i - l) else w.toNat.testBit i) := by
  have hm : ∀ j, ((2 ^ (h + 1 - l) - 1) <<< l).testBit j = decide (l ≤ j ∧ j ≤ h) := by
    intro j
    rw [Nat.testBit_shiftLeft, Nat.testBit_two_pow_sub_one]
    by_cases hj : l ≤ j
    · have : (j - l < h + 1 - l) ↔ j ≤ h := by omega
      simp [hj, this]
    · simp [hj]
  have hle : (2 ^ (h + 1 - l) - 1) <<< l < 2 ^ 32 := by
    refine Nat.lt_pow_two_of_testBit _ fun j hj => ?_
    rw [hm]
    simp
    omega
  have e : 0xFFFFFFFF - ((2 ^ (h + 1 - l) - 1) <<< l) = 2 ^ 32 - (((2 ^ (h + 1 - l) - 1) <<< l) + 1) := by omega
  unfold putBits
  simp only [BitVec.toNat_ofNat, Nat.testBit_mod_two_pow, hi, decide_true, Bool.true_and, Nat.testBit_or, Nat.testBit_and,
    hm, Nat.testBit_shiftLeft, e, Nat.testBit_two_pow_sub_succ hle]
  by_cases hj : l ≤ i ∧ i ≤ h
  · simp [hj]
  · simp only [hj, decide_false, Bool.not_false, Bool.and_true, Bool.and_false, Bool.or_false, if_false]

/-- A field set reads back, cut to its width. -/
theorem getBits_putBits_same (w : Word) {h l : Nat} (x : Nat) (hh : h < 32) : getBits (putBits w h l x) h l = x % 2 ^ (h + 1 - l) := by
  refine Nat.eq_of_testBit_eq fun i => ?_
  unfold getBits
  rw [bitsOf_testBit, Nat.testBit_mod_two_pow]
  by_cases hi : i < h + 1 - l
  · rw [putBits_testBit _ _ _ _ _ hh (by omega)]
    have : l ≤ l + i ∧ l + i ≤ h := by omega
    simp [hi, this]
  · simp [hi]

/-- A field set leaves a field that shares no bit with it. -/
theorem getBits_putBits_ne (w : Word) {h l a b : Nat} (x : Nat) (hh : h < 32) (ha : a < 32) (hd : a < l ∨ h < b) :
    getBits (putBits w h l x) a b = getBits w a b := by
  refine Nat.eq_of_testBit_eq fun i => ?_
  unfold getBits
  rw [bitsOf_testBit, bitsOf_testBit]
  by_cases hi : i < a + 1 - b
  · rw [putBits_testBit _ _ _ _ _ hh (by omega)]
    have : ¬ (l ≤ b + i ∧ b + i ≤ h) := by omega
    simp [this]
  · simp [hi]

theorem getBits_lt (w : Word) (h l : Nat) : getBits w h l < 2 ^ (h + 1 - l) := Nat.mod_lt _ (by positivity)

namespace Machine

@[simp] theorem State.reg_setReg_same (s : State) (k : Nat) (v : Word) : (s.setReg k v).reg k = v := by simp [State.reg, State.setReg]

theorem State.reg_setReg_ne (s : State) {k j : Nat} (v : Word) (h : j ≠ k) : (s.setReg k v).reg j = s.reg j := by
  simp [State.reg, State.setReg, SMap.get_set_ne _ _ _ h]

theorem State.reg_setReg (s : State) (k j : Nat) (v : Word) : (s.setReg k v).reg j = if j = k then v else s.reg j := by
  split
  · next h => rw [h, State.reg_setReg_same]
  · next h => exact State.reg_setReg_ne s v h

@[simp] theorem State.fld_setFld_same (s : State) {k h l : Nat} (x : Nat) (hh : h < 32) : (s.setFld k h l x).fld k h l = x % 2 ^ (h + 1 - l) := by
  simp [State.fld, State.setFld, getBits_putBits_same _ _ hh]

theorem State.fld_setFld_ne (s : State) {k h l a b : Nat} (x : Nat) (hh : h < 32) (ha : a < 32) (hd : a < l ∨ h < b) :
    (s.setFld k h l x).fld k a b = s.fld k a b := by
  simp [State.fld, State.setFld, getBits_putBits_ne _ _ hh ha hd]

theorem State.reg_setFld_ne (s : State) {k j : Nat} (h l x : Nat) (hj : j ≠ k) : (s.setFld k h l x).reg j = s.reg j :=
  State.reg_setReg_ne s _ hj

theorem State.fld_other (s : State) {k j : Nat} (h l x a b : Nat) (hj : j ≠ k) : (s.setFld k h l x).fld j a b = s.fld j a b := by
  simp [State.fld, State.reg_setFld_ne s h l x hj]

@[simp] theorem State.bit_setBit_same (s : State) {k b : Nat} (x : Bool) (hb : b < 32) : (s.setBit k b x).bit k b = x := by
  have : b + 1 - b = 1 := by omega
  cases x <;> simp [State.bit, State.setBit, State.fld_setFld_same _ _ hb, this]

theorem State.bit_setBit_ne (s : State) {k b c : Nat} (x : Bool) (hb : b < 32) (hc : c < 32) (h : c ≠ b) : (s.setBit k b x).bit k c = s.bit k c := by
  have := State.fld_setFld_ne s (k := k) (if x then 1 else 0) hb hc (a := c) (b := c) (l := b) (by omega)
  simp only [State.bit, State.setBit, this]

theorem State.reg_setBit_ne (s : State) {k j : Nat} (b : Nat) (x : Bool) (hj : j ≠ k) : (s.setBit k b x).reg j = s.reg j :=
  State.reg_setReg_ne s _ hj

/-! ### Interrupts and fault latches, field by field -/

@[simp] theorem State.noteOld_pending (s : State) (k : Nat) : (s.noteOld k).pending = s.pending := by unfold State.noteOld; split <;> rfl
@[simp] theorem State.noteOld_regs (s : State) (k : Nat) : (s.noteOld k).regs = s.regs := by unfold State.noteOld; split <;> rfl
@[simp] theorem State.noteOld_time (s : State) (k : Nat) : (s.noteOld k).time = s.time := by unfold State.noteOld; split <;> rfl
@[simp] theorem State.noteOld_pins (s : State) (k : Nat) : (s.noteOld k).pins = s.pins := by unfold State.noteOld; split <;> rfl
@[simp] theorem State.noteOld_out (s : State) (k : Nat) : (s.noteOld k).out = s.out := by unfold State.noteOld; split <;> rfl
@[simp] theorem State.noteOld_freeCtr (s : State) (k : Nat) : (s.noteOld k).freeCtr = s.freeCtr := by unfold State.noteOld; split <;> rfl
@[simp] theorem State.noteOld_msix (s : State) (k : Nat) : (s.noteOld k).msix = s.msix := by unfold State.noteOld; split <;> rfl
@[simp] theorem State.noteOld_parts (s : State) (k : Nat) : (s.noteOld k).parts = s.parts := by unfold State.noteOld; split <;> rfl
@[simp] theorem State.noteOld_eqs (s : State) (k : Nat) : (s.noteOld k).eqs = s.eqs := by unfold State.noteOld; split <;> rfl
@[simp] theorem State.noteOld_descs (s : State) (k : Nat) : (s.noteOld k).descs = s.descs := by unfold State.noteOld; split <;> rfl
@[simp] theorem State.noteOld_reqs (s : State) (k : Nat) : (s.noteOld k).reqs = s.reqs := by unfold State.noteOld; split <;> rfl
@[simp] theorem State.noteOld_nextFetch (s : State) (k : Nat) : (s.noteOld k).nextFetch = s.nextFetch := by unfold State.noteOld; split <;> rfl
@[simp] theorem State.noteOld_rr (s : State) (k : Nat) : (s.noteOld k).rr = s.rr := by unfold State.noteOld; split <;> rfl
@[simp] theorem State.noteOld_models (s : State) (k : Nat) : (s.noteOld k).models = s.models := by unfold State.noteOld; split <;> rfl
@[simp] theorem State.noteOld_mem (s : State) (k : Nat) : (s.noteOld k).mem = s.mem := by unfold State.noteOld; split <;> rfl
@[simp] theorem State.noteOld_paging (s : State) (k : Nat) : (s.noteOld k).paging = s.paging := by unfold State.noteOld; split <;> rfl
@[simp] theorem State.noteOld_agents (s : State) (k : Nat) : (s.noteOld k).agents = s.agents := by unfold State.noteOld; split <;> rfl
@[simp] theorem State.noteOld_fab (s : State) (k : Nat) : (s.noteOld k).fab = s.fab := by unfold State.noteOld; split <;> rfl
@[simp] theorem State.noteOld_cnv (s : State) (k : Nat) : (s.noteOld k).cnv = s.cnv := by unfold State.noteOld; split <;> rfl
@[simp] theorem State.noteOld_rings (s : State) (k : Nat) : (s.noteOld k).rings = s.rings := by unfold State.noteOld; split <;> rfl
@[simp] theorem State.noteOld_links (s : State) (k : Nat) : (s.noteOld k).links = s.links := by unfold State.noteOld; split <;> rfl
@[simp] theorem State.noteOld_top (s : State) (k : Nat) : (s.noteOld k).top = s.top := by unfold State.noteOld; split <;> rfl
@[simp] theorem State.noteOld_ttl (s : State) (k : Nat) : (s.noteOld k).ttl = s.ttl := by unfold State.noteOld; split <;> rfl
@[simp] theorem State.noteOld_rats (s : State) (k : Nat) : (s.noteOld k).rats = s.rats := by unfold State.noteOld; split <;> rfl
@[simp] theorem State.noteOld_clk (s : State) (k : Nat) : (s.noteOld k).clk = s.clk := by unfold State.noteOld; split <;> rfl
@[simp] theorem State.noteOld_power (s : State) (k : Nat) : (s.noteOld k).power = s.power := by unfold State.noteOld; split <;> rfl
@[simp] theorem State.noteOld_rel (s : State) (k : Nat) : (s.noteOld k).rel = s.rel := by unfold State.noteOld; split <;> rfl
@[simp] theorem State.noteOld_boot (s : State) (k : Nat) : (s.noteOld k).boot = s.boot := by unfold State.noteOld; split <;> rfl
@[simp] theorem State.noteOld_sbd (s : State) (k : Nat) : (s.noteOld k).sbd = s.sbd := by unfold State.noteOld; split <;> rfl
@[simp] theorem State.noteOld_pci (s : State) (k : Nat) : (s.noteOld k).pci = s.pci := by unfold State.noteOld; split <;> rfl
@[simp] theorem State.signal_pending (s : State) (v : Nat) : (s.signal v).pending = s.pending := by unfold State.signal; dsimp only; split <;> (try split) <;> simp
@[simp] theorem State.signal_regs (s : State) (v : Nat) : (s.signal v).regs = s.regs := by unfold State.signal; dsimp only; split <;> (try split) <;> simp
@[simp] theorem State.signal_time (s : State) (v : Nat) : (s.signal v).time = s.time := by unfold State.signal; dsimp only; split <;> (try split) <;> simp
@[simp] theorem State.signal_arb (s : State) (v : Nat) : (s.signal v).arb = s.arb := by unfold State.signal; dsimp only; split <;> (try split) <;> simp
@[simp] theorem State.signal_pins (s : State) (v : Nat) : (s.signal v).pins = s.pins := by unfold State.signal; dsimp only; split <;> (try split) <;> simp
@[simp] theorem State.signal_freeCtr (s : State) (v : Nat) : (s.signal v).freeCtr = s.freeCtr := by unfold State.signal; dsimp only; split <;> (try split) <;> simp
@[simp] theorem State.signal_parts (s : State) (v : Nat) : (s.signal v).parts = s.parts := by unfold State.signal; dsimp only; split <;> (try split) <;> simp
@[simp] theorem State.signal_eqs (s : State) (v : Nat) : (s.signal v).eqs = s.eqs := by unfold State.signal; dsimp only; split <;> (try split) <;> simp
@[simp] theorem State.signal_descs (s : State) (v : Nat) : (s.signal v).descs = s.descs := by unfold State.signal; dsimp only; split <;> (try split) <;> simp
@[simp] theorem State.signal_reqs (s : State) (v : Nat) : (s.signal v).reqs = s.reqs := by unfold State.signal; dsimp only; split <;> (try split) <;> simp
@[simp] theorem State.signal_nextFetch (s : State) (v : Nat) : (s.signal v).nextFetch = s.nextFetch := by unfold State.signal; dsimp only; split <;> (try split) <;> simp
@[simp] theorem State.signal_rr (s : State) (v : Nat) : (s.signal v).rr = s.rr := by unfold State.signal; dsimp only; split <;> (try split) <;> simp
@[simp] theorem State.signal_models (s : State) (v : Nat) : (s.signal v).models = s.models := by unfold State.signal; dsimp only; split <;> (try split) <;> simp
@[simp] theorem State.signal_mem (s : State) (v : Nat) : (s.signal v).mem = s.mem := by unfold State.signal; dsimp only; split <;> (try split) <;> simp
@[simp] theorem State.signal_paging (s : State) (v : Nat) : (s.signal v).paging = s.paging := by unfold State.signal; dsimp only; split <;> (try split) <;> simp
@[simp] theorem State.signal_agents (s : State) (v : Nat) : (s.signal v).agents = s.agents := by unfold State.signal; dsimp only; split <;> (try split) <;> simp
@[simp] theorem State.signal_fab (s : State) (v : Nat) : (s.signal v).fab = s.fab := by unfold State.signal; dsimp only; split <;> (try split) <;> simp
@[simp] theorem State.signal_cnv (s : State) (v : Nat) : (s.signal v).cnv = s.cnv := by unfold State.signal; dsimp only; split <;> (try split) <;> simp
@[simp] theorem State.signal_rings (s : State) (v : Nat) : (s.signal v).rings = s.rings := by unfold State.signal; dsimp only; split <;> (try split) <;> simp
@[simp] theorem State.signal_links (s : State) (v : Nat) : (s.signal v).links = s.links := by unfold State.signal; dsimp only; split <;> (try split) <;> simp
@[simp] theorem State.signal_top (s : State) (v : Nat) : (s.signal v).top = s.top := by unfold State.signal; dsimp only; split <;> (try split) <;> simp
@[simp] theorem State.signal_ttl (s : State) (v : Nat) : (s.signal v).ttl = s.ttl := by unfold State.signal; dsimp only; split <;> (try split) <;> simp
@[simp] theorem State.signal_rats (s : State) (v : Nat) : (s.signal v).rats = s.rats := by unfold State.signal; dsimp only; split <;> (try split) <;> simp
@[simp] theorem State.signal_clk (s : State) (v : Nat) : (s.signal v).clk = s.clk := by unfold State.signal; dsimp only; split <;> (try split) <;> simp
@[simp] theorem State.signal_power (s : State) (v : Nat) : (s.signal v).power = s.power := by unfold State.signal; dsimp only; split <;> (try split) <;> simp
@[simp] theorem State.signal_rel (s : State) (v : Nat) : (s.signal v).rel = s.rel := by unfold State.signal; dsimp only; split <;> (try split) <;> simp
@[simp] theorem State.signal_boot (s : State) (v : Nat) : (s.signal v).boot = s.boot := by unfold State.signal; dsimp only; split <;> (try split) <;> simp
@[simp] theorem State.signal_sbd (s : State) (v : Nat) : (s.signal v).sbd = s.sbd := by unfold State.signal; dsimp only; split <;> (try split) <;> simp
@[simp] theorem State.signal_pci (s : State) (v : Nat) : (s.signal v).pci = s.pci := by unfold State.signal; dsimp only; split <;> (try split) <;> simp
@[simp] theorem State.setIrq_pending (s : State) (p : Nat) (b : Word) : (s.setIrq p b).pending = s.pending := by unfold State.setIrq; dsimp only; split <;> (try split) <;> simp
@[simp] theorem State.setIrq_time (s : State) (p : Nat) (b : Word) : (s.setIrq p b).time = s.time := by unfold State.setIrq; dsimp only; split <;> (try split) <;> simp
@[simp] theorem State.setIrq_pins (s : State) (p : Nat) (b : Word) : (s.setIrq p b).pins = s.pins := by unfold State.setIrq; dsimp only; split <;> (try split) <;> simp
@[simp] theorem State.setIrq_freeCtr (s : State) (p : Nat) (b : Word) : (s.setIrq p b).freeCtr = s.freeCtr := by unfold State.setIrq; dsimp only; split <;> (try split) <;> simp
@[simp] theorem State.setIrq_parts (s : State) (p : Nat) (b : Word) : (s.setIrq p b).parts = s.parts := by unfold State.setIrq; dsimp only; split <;> (try split) <;> simp
@[simp] theorem State.setIrq_eqs (s : State) (p : Nat) (b : Word) : (s.setIrq p b).eqs = s.eqs := by unfold State.setIrq; dsimp only; split <;> (try split) <;> simp
@[simp] theorem State.setIrq_descs (s : State) (p : Nat) (b : Word) : (s.setIrq p b).descs = s.descs := by unfold State.setIrq; dsimp only; split <;> (try split) <;> simp
@[simp] theorem State.setIrq_reqs (s : State) (p : Nat) (b : Word) : (s.setIrq p b).reqs = s.reqs := by unfold State.setIrq; dsimp only; split <;> (try split) <;> simp
@[simp] theorem State.setIrq_nextFetch (s : State) (p : Nat) (b : Word) : (s.setIrq p b).nextFetch = s.nextFetch := by unfold State.setIrq; dsimp only; split <;> (try split) <;> simp
@[simp] theorem State.setIrq_rr (s : State) (p : Nat) (b : Word) : (s.setIrq p b).rr = s.rr := by unfold State.setIrq; dsimp only; split <;> (try split) <;> simp
@[simp] theorem State.setIrq_models (s : State) (p : Nat) (b : Word) : (s.setIrq p b).models = s.models := by unfold State.setIrq; dsimp only; split <;> (try split) <;> simp
@[simp] theorem State.setIrq_mem (s : State) (p : Nat) (b : Word) : (s.setIrq p b).mem = s.mem := by unfold State.setIrq; dsimp only; split <;> (try split) <;> simp
@[simp] theorem State.setIrq_paging (s : State) (p : Nat) (b : Word) : (s.setIrq p b).paging = s.paging := by unfold State.setIrq; dsimp only; split <;> (try split) <;> simp
@[simp] theorem State.setIrq_agents (s : State) (p : Nat) (b : Word) : (s.setIrq p b).agents = s.agents := by unfold State.setIrq; dsimp only; split <;> (try split) <;> simp
@[simp] theorem State.setIrq_fab (s : State) (p : Nat) (b : Word) : (s.setIrq p b).fab = s.fab := by unfold State.setIrq; dsimp only; split <;> (try split) <;> simp
@[simp] theorem State.setIrq_cnv (s : State) (p : Nat) (b : Word) : (s.setIrq p b).cnv = s.cnv := by unfold State.setIrq; dsimp only; split <;> (try split) <;> simp
@[simp] theorem State.setIrq_rings (s : State) (p : Nat) (b : Word) : (s.setIrq p b).rings = s.rings := by unfold State.setIrq; dsimp only; split <;> (try split) <;> simp
@[simp] theorem State.setIrq_links (s : State) (p : Nat) (b : Word) : (s.setIrq p b).links = s.links := by unfold State.setIrq; dsimp only; split <;> (try split) <;> simp
@[simp] theorem State.setIrq_top (s : State) (p : Nat) (b : Word) : (s.setIrq p b).top = s.top := by unfold State.setIrq; dsimp only; split <;> (try split) <;> simp
@[simp] theorem State.setIrq_ttl (s : State) (p : Nat) (b : Word) : (s.setIrq p b).ttl = s.ttl := by unfold State.setIrq; dsimp only; split <;> (try split) <;> simp
@[simp] theorem State.setIrq_rats (s : State) (p : Nat) (b : Word) : (s.setIrq p b).rats = s.rats := by unfold State.setIrq; dsimp only; split <;> (try split) <;> simp
@[simp] theorem State.setIrq_clk (s : State) (p : Nat) (b : Word) : (s.setIrq p b).clk = s.clk := by unfold State.setIrq; dsimp only; split <;> (try split) <;> simp
@[simp] theorem State.setIrq_power (s : State) (p : Nat) (b : Word) : (s.setIrq p b).power = s.power := by unfold State.setIrq; dsimp only; split <;> (try split) <;> simp
@[simp] theorem State.setIrq_rel (s : State) (p : Nat) (b : Word) : (s.setIrq p b).rel = s.rel := by unfold State.setIrq; dsimp only; split <;> (try split) <;> simp
@[simp] theorem State.setIrq_boot (s : State) (p : Nat) (b : Word) : (s.setIrq p b).boot = s.boot := by unfold State.setIrq; dsimp only; split <;> (try split) <;> simp
@[simp] theorem State.setIrq_sbd (s : State) (p : Nat) (b : Word) : (s.setIrq p b).sbd = s.sbd := by unfold State.setIrq; dsimp only; split <;> (try split) <;> simp
@[simp] theorem State.setIrq_pci (s : State) (p : Nat) (b : Word) : (s.setIrq p b).pci = s.pci := by unfold State.setIrq; dsimp only; split <;> (try split) <;> simp
@[simp] theorem State.irq_pending (s : State) (p b : Nat) : (s.irq p b).pending = s.pending := by simp [State.irq]
@[simp] theorem State.irq_time (s : State) (p b : Nat) : (s.irq p b).time = s.time := by simp [State.irq]
@[simp] theorem State.irq_pins (s : State) (p b : Nat) : (s.irq p b).pins = s.pins := by simp [State.irq]
@[simp] theorem State.irq_freeCtr (s : State) (p b : Nat) : (s.irq p b).freeCtr = s.freeCtr := by simp [State.irq]
@[simp] theorem State.irq_parts (s : State) (p b : Nat) : (s.irq p b).parts = s.parts := by simp [State.irq]
@[simp] theorem State.irq_eqs (s : State) (p b : Nat) : (s.irq p b).eqs = s.eqs := by simp [State.irq]
@[simp] theorem State.irq_descs (s : State) (p b : Nat) : (s.irq p b).descs = s.descs := by simp [State.irq]
@[simp] theorem State.irq_reqs (s : State) (p b : Nat) : (s.irq p b).reqs = s.reqs := by simp [State.irq]
@[simp] theorem State.irq_nextFetch (s : State) (p b : Nat) : (s.irq p b).nextFetch = s.nextFetch := by simp [State.irq]
@[simp] theorem State.irq_rr (s : State) (p b : Nat) : (s.irq p b).rr = s.rr := by simp [State.irq]
@[simp] theorem State.irq_models (s : State) (p b : Nat) : (s.irq p b).models = s.models := by simp [State.irq]
@[simp] theorem State.irq_mem (s : State) (p b : Nat) : (s.irq p b).mem = s.mem := by simp [State.irq]
@[simp] theorem State.irq_paging (s : State) (p b : Nat) : (s.irq p b).paging = s.paging := by simp [State.irq]
@[simp] theorem State.irq_agents (s : State) (p b : Nat) : (s.irq p b).agents = s.agents := by simp [State.irq]
@[simp] theorem State.irq_fab (s : State) (p b : Nat) : (s.irq p b).fab = s.fab := by simp [State.irq]
@[simp] theorem State.irq_cnv (s : State) (p b : Nat) : (s.irq p b).cnv = s.cnv := by simp [State.irq]
@[simp] theorem State.irq_rings (s : State) (p b : Nat) : (s.irq p b).rings = s.rings := by simp [State.irq]
@[simp] theorem State.irq_links (s : State) (p b : Nat) : (s.irq p b).links = s.links := by simp [State.irq]
@[simp] theorem State.irq_top (s : State) (p b : Nat) : (s.irq p b).top = s.top := by simp [State.irq]
@[simp] theorem State.irq_ttl (s : State) (p b : Nat) : (s.irq p b).ttl = s.ttl := by simp [State.irq]
@[simp] theorem State.irq_rats (s : State) (p b : Nat) : (s.irq p b).rats = s.rats := by simp [State.irq]
@[simp] theorem State.irq_clk (s : State) (p b : Nat) : (s.irq p b).clk = s.clk := by simp [State.irq]
@[simp] theorem State.irq_power (s : State) (p b : Nat) : (s.irq p b).power = s.power := by simp [State.irq]
@[simp] theorem State.irq_rel (s : State) (p b : Nat) : (s.irq p b).rel = s.rel := by simp [State.irq]
@[simp] theorem State.irq_boot (s : State) (p b : Nat) : (s.irq p b).boot = s.boot := by simp [State.irq]
@[simp] theorem State.irq_sbd (s : State) (p b : Nat) : (s.irq p b).sbd = s.sbd := by simp [State.irq]
@[simp] theorem State.irq_pci (s : State) (p b : Nat) : (s.irq p b).pci = s.pci := by simp [State.irq]
@[simp] theorem State.latchOn_pending (s : State) (p c d : Nat) : (s.latchOn p c d).pending = s.pending := by
  unfold State.latchOn
  dsimp only
  split
  · exact (State.setReg_pending _ _ _).trans (State.setReg_pending _ _ _)
  · exact State.setReg_pending _ _ _
@[simp] theorem State.latchOn_time (s : State) (p c d : Nat) : (s.latchOn p c d).time = s.time := by
  unfold State.latchOn
  dsimp only
  split
  · exact (State.setReg_time _ _ _).trans (State.setReg_time _ _ _)
  · exact State.setReg_time _ _ _
@[simp] theorem State.latchOn_arb (s : State) (p c d : Nat) : (s.latchOn p c d).arb = s.arb := by
  unfold State.latchOn
  dsimp only
  split
  · exact (State.setReg_arb _ _ _).trans (State.setReg_arb _ _ _)
  · exact State.setReg_arb _ _ _
@[simp] theorem State.latchOn_pins (s : State) (p c d : Nat) : (s.latchOn p c d).pins = s.pins := by
  unfold State.latchOn
  dsimp only
  split
  · exact (State.setReg_pins _ _ _).trans (State.setReg_pins _ _ _)
  · exact State.setReg_pins _ _ _
@[simp] theorem State.latchOn_out (s : State) (p c d : Nat) : (s.latchOn p c d).out = s.out := by
  unfold State.latchOn
  dsimp only
  split
  · exact (State.setReg_out _ _ _).trans (State.setReg_out _ _ _)
  · exact State.setReg_out _ _ _
@[simp] theorem State.latchOn_freeCtr (s : State) (p c d : Nat) : (s.latchOn p c d).freeCtr = s.freeCtr := by
  unfold State.latchOn
  dsimp only
  split
  · exact (State.setReg_freeCtr _ _ _).trans (State.setReg_freeCtr _ _ _)
  · exact State.setReg_freeCtr _ _ _
@[simp] theorem State.latchOn_msix (s : State) (p c d : Nat) : (s.latchOn p c d).msix = s.msix := by
  unfold State.latchOn
  dsimp only
  split
  · exact (State.setReg_msix _ _ _).trans (State.setReg_msix _ _ _)
  · exact State.setReg_msix _ _ _
@[simp] theorem State.latchOn_parts (s : State) (p c d : Nat) : (s.latchOn p c d).parts = s.parts := by
  unfold State.latchOn
  dsimp only
  split
  · exact (State.setReg_parts _ _ _).trans (State.setReg_parts _ _ _)
  · exact State.setReg_parts _ _ _
@[simp] theorem State.latchOn_eqs (s : State) (p c d : Nat) : (s.latchOn p c d).eqs = s.eqs := by
  unfold State.latchOn
  dsimp only
  split
  · exact (State.setReg_eqs _ _ _).trans (State.setReg_eqs _ _ _)
  · exact State.setReg_eqs _ _ _
@[simp] theorem State.latchOn_descs (s : State) (p c d : Nat) : (s.latchOn p c d).descs = s.descs := by
  unfold State.latchOn
  dsimp only
  split
  · exact (State.setReg_descs _ _ _).trans (State.setReg_descs _ _ _)
  · exact State.setReg_descs _ _ _
@[simp] theorem State.latchOn_reqs (s : State) (p c d : Nat) : (s.latchOn p c d).reqs = s.reqs := by
  unfold State.latchOn
  dsimp only
  split
  · exact (State.setReg_reqs _ _ _).trans (State.setReg_reqs _ _ _)
  · exact State.setReg_reqs _ _ _
@[simp] theorem State.latchOn_nextFetch (s : State) (p c d : Nat) : (s.latchOn p c d).nextFetch = s.nextFetch := by
  unfold State.latchOn
  dsimp only
  split
  · exact (State.setReg_nextFetch _ _ _).trans (State.setReg_nextFetch _ _ _)
  · exact State.setReg_nextFetch _ _ _
@[simp] theorem State.latchOn_rr (s : State) (p c d : Nat) : (s.latchOn p c d).rr = s.rr := by
  unfold State.latchOn
  dsimp only
  split
  · exact (State.setReg_rr _ _ _).trans (State.setReg_rr _ _ _)
  · exact State.setReg_rr _ _ _
@[simp] theorem State.latchOn_models (s : State) (p c d : Nat) : (s.latchOn p c d).models = s.models := by
  unfold State.latchOn
  dsimp only
  split
  · exact (State.setReg_models _ _ _).trans (State.setReg_models _ _ _)
  · exact State.setReg_models _ _ _
@[simp] theorem State.latchOn_mem (s : State) (p c d : Nat) : (s.latchOn p c d).mem = s.mem := by
  unfold State.latchOn
  dsimp only
  split
  · exact (State.setReg_mem _ _ _).trans (State.setReg_mem _ _ _)
  · exact State.setReg_mem _ _ _
@[simp] theorem State.latchOn_paging (s : State) (p c d : Nat) : (s.latchOn p c d).paging = s.paging := by
  unfold State.latchOn
  dsimp only
  split
  · exact (State.setReg_paging _ _ _).trans (State.setReg_paging _ _ _)
  · exact State.setReg_paging _ _ _
@[simp] theorem State.latchOn_agents (s : State) (p c d : Nat) : (s.latchOn p c d).agents = s.agents := by
  unfold State.latchOn
  dsimp only
  split
  · exact (State.setReg_agents _ _ _).trans (State.setReg_agents _ _ _)
  · exact State.setReg_agents _ _ _
@[simp] theorem State.latchOn_fab (s : State) (p c d : Nat) : (s.latchOn p c d).fab = s.fab := by
  unfold State.latchOn
  dsimp only
  split
  · exact (State.setReg_fab _ _ _).trans (State.setReg_fab _ _ _)
  · exact State.setReg_fab _ _ _
@[simp] theorem State.latchOn_cnv (s : State) (p c d : Nat) : (s.latchOn p c d).cnv = s.cnv := by
  unfold State.latchOn
  dsimp only
  split
  · exact (State.setReg_cnv _ _ _).trans (State.setReg_cnv _ _ _)
  · exact State.setReg_cnv _ _ _
@[simp] theorem State.latchOn_rings (s : State) (p c d : Nat) : (s.latchOn p c d).rings = s.rings := by
  unfold State.latchOn
  dsimp only
  split
  · exact (State.setReg_rings _ _ _).trans (State.setReg_rings _ _ _)
  · exact State.setReg_rings _ _ _
@[simp] theorem State.latchOn_links (s : State) (p c d : Nat) : (s.latchOn p c d).links = s.links := by
  unfold State.latchOn
  dsimp only
  split
  · exact (State.setReg_links _ _ _).trans (State.setReg_links _ _ _)
  · exact State.setReg_links _ _ _
@[simp] theorem State.latchOn_top (s : State) (p c d : Nat) : (s.latchOn p c d).top = s.top := by
  unfold State.latchOn
  dsimp only
  split
  · exact (State.setReg_top _ _ _).trans (State.setReg_top _ _ _)
  · exact State.setReg_top _ _ _
@[simp] theorem State.latchOn_ttl (s : State) (p c d : Nat) : (s.latchOn p c d).ttl = s.ttl := by
  unfold State.latchOn
  dsimp only
  split
  · exact (State.setReg_ttl _ _ _).trans (State.setReg_ttl _ _ _)
  · exact State.setReg_ttl _ _ _
@[simp] theorem State.latchOn_rats (s : State) (p c d : Nat) : (s.latchOn p c d).rats = s.rats := by
  unfold State.latchOn
  dsimp only
  split
  · exact (State.setReg_rats _ _ _).trans (State.setReg_rats _ _ _)
  · exact State.setReg_rats _ _ _
@[simp] theorem State.latchOn_clk (s : State) (p c d : Nat) : (s.latchOn p c d).clk = s.clk := by
  unfold State.latchOn
  dsimp only
  split
  · exact (State.setReg_clk _ _ _).trans (State.setReg_clk _ _ _)
  · exact State.setReg_clk _ _ _
@[simp] theorem State.latchOn_power (s : State) (p c d : Nat) : (s.latchOn p c d).power = s.power := by
  unfold State.latchOn
  dsimp only
  split
  · exact (State.setReg_power _ _ _).trans (State.setReg_power _ _ _)
  · exact State.setReg_power _ _ _
@[simp] theorem State.latchOn_rel (s : State) (p c d : Nat) : (s.latchOn p c d).rel = s.rel := by
  unfold State.latchOn
  dsimp only
  split
  · exact (State.setReg_rel _ _ _).trans (State.setReg_rel _ _ _)
  · exact State.setReg_rel _ _ _
@[simp] theorem State.latchOn_boot (s : State) (p c d : Nat) : (s.latchOn p c d).boot = s.boot := by
  unfold State.latchOn
  dsimp only
  split
  · exact (State.setReg_boot _ _ _).trans (State.setReg_boot _ _ _)
  · exact State.setReg_boot _ _ _
@[simp] theorem State.latchOn_sbd (s : State) (p c d : Nat) : (s.latchOn p c d).sbd = s.sbd := by
  unfold State.latchOn
  dsimp only
  split
  · exact (State.setReg_sbd _ _ _).trans (State.setReg_sbd _ _ _)
  · exact State.setReg_sbd _ _ _
@[simp] theorem State.latchOn_pci (s : State) (p c d : Nat) : (s.latchOn p c d).pci = s.pci := by
  unfold State.latchOn
  dsimp only
  split
  · exact (State.setReg_pci _ _ _).trans (State.setReg_pci _ _ _)
  · exact State.setReg_pci _ _ _
@[simp] theorem State.latch_pending (s : State) (p c d : Nat) : (s.latch p c d).pending = s.pending := by unfold State.latch; simp
@[simp] theorem State.latch_time (s : State) (p c d : Nat) : (s.latch p c d).time = s.time := by unfold State.latch; simp
@[simp] theorem State.latch_pins (s : State) (p c d : Nat) : (s.latch p c d).pins = s.pins := by unfold State.latch; simp
@[simp] theorem State.latch_freeCtr (s : State) (p c d : Nat) : (s.latch p c d).freeCtr = s.freeCtr := by unfold State.latch; simp
@[simp] theorem State.latch_parts (s : State) (p c d : Nat) : (s.latch p c d).parts = s.parts := by unfold State.latch; simp
@[simp] theorem State.latch_eqs (s : State) (p c d : Nat) : (s.latch p c d).eqs = s.eqs := by unfold State.latch; simp
@[simp] theorem State.latch_descs (s : State) (p c d : Nat) : (s.latch p c d).descs = s.descs := by unfold State.latch; simp
@[simp] theorem State.latch_reqs (s : State) (p c d : Nat) : (s.latch p c d).reqs = s.reqs := by unfold State.latch; simp
@[simp] theorem State.latch_nextFetch (s : State) (p c d : Nat) : (s.latch p c d).nextFetch = s.nextFetch := by unfold State.latch; simp
@[simp] theorem State.latch_rr (s : State) (p c d : Nat) : (s.latch p c d).rr = s.rr := by unfold State.latch; simp
@[simp] theorem State.latch_models (s : State) (p c d : Nat) : (s.latch p c d).models = s.models := by unfold State.latch; simp
@[simp] theorem State.latch_mem (s : State) (p c d : Nat) : (s.latch p c d).mem = s.mem := by unfold State.latch; simp
@[simp] theorem State.latch_paging (s : State) (p c d : Nat) : (s.latch p c d).paging = s.paging := by unfold State.latch; simp
@[simp] theorem State.latch_agents (s : State) (p c d : Nat) : (s.latch p c d).agents = s.agents := by unfold State.latch; simp
@[simp] theorem State.latch_fab (s : State) (p c d : Nat) : (s.latch p c d).fab = s.fab := by unfold State.latch; simp
@[simp] theorem State.latch_cnv (s : State) (p c d : Nat) : (s.latch p c d).cnv = s.cnv := by unfold State.latch; simp
@[simp] theorem State.latch_rings (s : State) (p c d : Nat) : (s.latch p c d).rings = s.rings := by unfold State.latch; simp
@[simp] theorem State.latch_links (s : State) (p c d : Nat) : (s.latch p c d).links = s.links := by unfold State.latch; simp
@[simp] theorem State.latch_top (s : State) (p c d : Nat) : (s.latch p c d).top = s.top := by unfold State.latch; simp
@[simp] theorem State.latch_ttl (s : State) (p c d : Nat) : (s.latch p c d).ttl = s.ttl := by unfold State.latch; simp
@[simp] theorem State.latch_rats (s : State) (p c d : Nat) : (s.latch p c d).rats = s.rats := by unfold State.latch; simp
@[simp] theorem State.latch_clk (s : State) (p c d : Nat) : (s.latch p c d).clk = s.clk := by unfold State.latch; simp
@[simp] theorem State.latch_power (s : State) (p c d : Nat) : (s.latch p c d).power = s.power := by unfold State.latch; simp
@[simp] theorem State.latch_boot (s : State) (p c d : Nat) : (s.latch p c d).boot = s.boot := by unfold State.latch; simp
@[simp] theorem State.latch_sbd (s : State) (p c d : Nat) : (s.latch p c d).sbd = s.sbd := by unfold State.latch; simp
@[simp] theorem State.latch_pci (s : State) (p c d : Nat) : (s.latch p c d).pci = s.pci := by unfold State.latch; simp
@[simp] theorem State.setPState_pending (s : State) (p st : Nat) : (s.setPState p st).pending = s.pending := by unfold State.setPState; dsimp only; split <;> simp
@[simp] theorem State.setPState_time (s : State) (p st : Nat) : (s.setPState p st).time = s.time := by unfold State.setPState; dsimp only; split <;> simp
@[simp] theorem State.setPState_pins (s : State) (p st : Nat) : (s.setPState p st).pins = s.pins := by unfold State.setPState; dsimp only; split <;> simp
@[simp] theorem State.setPState_freeCtr (s : State) (p st : Nat) : (s.setPState p st).freeCtr = s.freeCtr := by unfold State.setPState; dsimp only; split <;> simp
@[simp] theorem State.setPState_parts (s : State) (p st : Nat) : (s.setPState p st).parts = s.parts := by unfold State.setPState; dsimp only; split <;> simp
@[simp] theorem State.setPState_eqs (s : State) (p st : Nat) : (s.setPState p st).eqs = s.eqs := by unfold State.setPState; dsimp only; split <;> simp
@[simp] theorem State.setPState_descs (s : State) (p st : Nat) : (s.setPState p st).descs = s.descs := by unfold State.setPState; dsimp only; split <;> simp
@[simp] theorem State.setPState_reqs (s : State) (p st : Nat) : (s.setPState p st).reqs = s.reqs := by unfold State.setPState; dsimp only; split <;> simp
@[simp] theorem State.setPState_nextFetch (s : State) (p st : Nat) : (s.setPState p st).nextFetch = s.nextFetch := by unfold State.setPState; dsimp only; split <;> simp
@[simp] theorem State.setPState_rr (s : State) (p st : Nat) : (s.setPState p st).rr = s.rr := by unfold State.setPState; dsimp only; split <;> simp
@[simp] theorem State.setPState_models (s : State) (p st : Nat) : (s.setPState p st).models = s.models := by unfold State.setPState; dsimp only; split <;> simp
@[simp] theorem State.setPState_mem (s : State) (p st : Nat) : (s.setPState p st).mem = s.mem := by unfold State.setPState; dsimp only; split <;> simp
@[simp] theorem State.setPState_paging (s : State) (p st : Nat) : (s.setPState p st).paging = s.paging := by unfold State.setPState; dsimp only; split <;> simp
@[simp] theorem State.setPState_agents (s : State) (p st : Nat) : (s.setPState p st).agents = s.agents := by unfold State.setPState; dsimp only; split <;> simp
@[simp] theorem State.setPState_fab (s : State) (p st : Nat) : (s.setPState p st).fab = s.fab := by unfold State.setPState; dsimp only; split <;> simp
@[simp] theorem State.setPState_cnv (s : State) (p st : Nat) : (s.setPState p st).cnv = s.cnv := by unfold State.setPState; dsimp only; split <;> simp
@[simp] theorem State.setPState_rings (s : State) (p st : Nat) : (s.setPState p st).rings = s.rings := by unfold State.setPState; dsimp only; split <;> simp
@[simp] theorem State.setPState_links (s : State) (p st : Nat) : (s.setPState p st).links = s.links := by unfold State.setPState; dsimp only; split <;> simp
@[simp] theorem State.setPState_top (s : State) (p st : Nat) : (s.setPState p st).top = s.top := by unfold State.setPState; dsimp only; split <;> simp
@[simp] theorem State.setPState_ttl (s : State) (p st : Nat) : (s.setPState p st).ttl = s.ttl := by unfold State.setPState; dsimp only; split <;> simp
@[simp] theorem State.setPState_rats (s : State) (p st : Nat) : (s.setPState p st).rats = s.rats := by unfold State.setPState; dsimp only; split <;> simp
@[simp] theorem State.setPState_clk (s : State) (p st : Nat) : (s.setPState p st).clk = s.clk := by unfold State.setPState; dsimp only; split <;> simp
@[simp] theorem State.setPState_power (s : State) (p st : Nat) : (s.setPState p st).power = s.power := by unfold State.setPState; dsimp only; split <;> simp
@[simp] theorem State.setPState_rel (s : State) (p st : Nat) : (s.setPState p st).rel = s.rel := by unfold State.setPState; dsimp only; split <;> simp
@[simp] theorem State.setPState_boot (s : State) (p st : Nat) : (s.setPState p st).boot = s.boot := by unfold State.setPState; dsimp only; split <;> simp
@[simp] theorem State.setPState_sbd (s : State) (p st : Nat) : (s.setPState p st).sbd = s.sbd := by unfold State.setPState; dsimp only; split <;> simp
@[simp] theorem State.setPState_pci (s : State) (p st : Nat) : (s.setPState p st).pci = s.pci := by unfold State.setPState; dsimp only; split <;> simp

/-! ### Registers after an interrupt or a latch -/

theorem State.reg_congr {s t : State} (h : t.regs = s.regs) (k : Nat) : t.reg k = s.reg k := by simp only [State.reg, h]

@[simp] theorem State.reg_emit (s : State) (o : Out) (k : Nat) : (s.emit o).reg k = s.reg k := rfl

@[simp] theorem State.reg_chosen (s : State) (k : Nat) : s.chosen.reg k = s.reg k := rfl

@[simp] theorem State.reg_setMsix (s : State) (v : Nat) (e : MsixEntry) (k : Nat) : (s.setMsix v e).reg k = s.reg k := rfl

@[simp] theorem State.reg_setPart (s : State) (v : Nat) (e : Part) (k : Nat) : (s.setPart v e).reg k = s.reg k := rfl

@[simp] theorem State.reg_noteOld (s : State) (j k : Nat) : (s.noteOld j).reg k = s.reg k := State.reg_congr (State.noteOld_regs s j) k

@[simp] theorem State.reg_signal (s : State) (v k : Nat) : (s.signal v).reg k = s.reg k := State.reg_congr (State.signal_regs s v) k

theorem State.reg_setIrq (s : State) (p : Nat) (b : Word) (k : Nat) :
    (s.setIrq p b).reg k = if k = Key.irqStat p then s.reg k ||| b else s.reg k := by
  unfold State.setIrq
  dsimp only
  split <;> (try split) <;> simp only [State.reg_signal, State.reg_setReg, State.reg_noteOld] <;> split <;> simp_all

theorem State.reg_irq (s : State) (p b k : Nat) :
    (s.irq p b).reg k = if k = Key.irqStat p then s.reg k ||| BitVec.ofNat 32 (2 ^ b) else s.reg k := State.reg_setIrq ..

theorem State.reg_irq_ne (s : State) (p b : Nat) {k : Nat} (h : k ≠ Key.irqStat p) : (s.irq p b).reg k = s.reg k := by
  rw [State.reg_irq, if_neg h]

theorem State.latchOn_other (s : State) (p c d : Nat) {k : Nat} (h : k ≠ Key.fltLatch p) (h2 : k ≠ Key.fltInfo p) :
    (s.latchOn p c d).reg k = s.reg k := by
  unfold State.latchOn
  dsimp only
  split
  · rw [State.reg_setReg_ne _ _ h2, State.reg_setReg_ne _ _ h]
  · rw [State.reg_setReg_ne _ _ h]

theorem State.latchOn_latch (s : State) (p c d : Nat) :
    (s.latchOn p c d).reg (Key.fltLatch p) = s.reg (Key.fltLatch p) |||
      (if s.bit (Key.fltLatch p) c then 0x80000000 else BitVec.ofNat 32 (2 ^ c)) := by
  have h : Key.fltLatch p ≠ Key.fltInfo p := by simp only [Key.fltLatch, Key.fltInfo, regKey]; omega
  unfold State.latchOn
  dsimp only
  split
  · rw [State.reg_setReg_ne _ _ h, State.reg_setReg_same]
  · rw [State.reg_setReg_same]

theorem State.reg_latch (s : State) (p c d k : Nat) :
    (s.latch p c d).reg k = if k = Key.irqStat p then s.reg k ||| 1 else (((s.noteOld (Key.fltLatch p)).noteOld (Key.fltInfo p)).latchOn p c d).reg k := by
  unfold State.latch
  dsimp only
  rw [State.reg_irq]
  by_cases h : k = Key.irqStat p
  · rw [if_pos h, if_pos h]
    have h1 : k ≠ Key.fltLatch p := by rw [h]; simp only [Key.fltLatch, Key.irqStat, regKey]; omega
    have h2 : k ≠ Key.fltInfo p := by rw [h]; simp only [Key.fltInfo, Key.irqStat, regKey]; omega
    have e := State.latchOn_other ((s.noteOld (Key.fltLatch p)).noteOld (Key.fltInfo p)) p c d h1 h2
    rw [State.reg_noteOld, State.reg_noteOld] at e
    exact congrArg (· ||| (1 : Word)) e
  · rw [if_neg h, if_neg h]
    rfl

/-- A fault latched writes no register but FLT_LATCH, FLT_INFO and IRQ_STAT of its page. -/
theorem State.reg_latch_ne (s : State) (p c d : Nat) {k : Nat} (h : k ≠ Key.fltLatch p) (h2 : k ≠ Key.fltInfo p) (h3 : k ≠ Key.irqStat p) :
    (s.latch p c d).reg k = s.reg k := by
  rw [State.reg_latch, if_neg h3, State.latchOn_other _ _ _ _ h h2]
  simp

theorem getBits_or_bit (w : Word) {c : Nat} (h : c < 32) : getBits (w ||| BitVec.ofNat 32 (2 ^ c)) c c = 1 := by
  have : getBits (w ||| BitVec.ofNat 32 (2 ^ c)) c c ≠ 0 := by
    intro e
    have := congrArg (fun n => n.testBit 0) e
    simp only [getBits, bitsOf_testBit] at this
    have h2 : 2 ^ c < 2 ^ 32 := Nat.pow_lt_pow_right (by decide) h
    simp only [BitVec.toNat_or, BitVec.toNat_ofNat, Nat.mod_eq_of_lt h2] at this
    simp [Nat.testBit_two_pow_self] at this
  have h3 := getBits_lt (w ||| BitVec.ofNat 32 (2 ^ c)) c c
  have : c + 1 - c = 1 := by omega
  rw [this] at h3
  omega

theorem getBits_or_other (w x : Word) {c : Nat} (h : getBits w c c = 1) : getBits (w ||| x) c c = 1 := by
  have : getBits (w ||| x) c c ≠ 0 := by
    intro e
    have := congrArg (fun n => n.testBit 0) e
    have g := congrArg (fun n => n.testBit 0) h
    simp only [getBits, bitsOf_testBit] at this g
    simp only [BitVec.toNat_or] at this
    simp at this g
    simp [g] at this
  have h3 := getBits_lt (w ||| x) c c
  have : c + 1 - c = 1 := by omega
  rw [this] at h3
  omega

/-- A fault latched stands in its page's FLT_LATCH. -/
theorem State.bit_latch (s : State) (p : Nat) {c : Nat} (d : Nat) (hc : c < 32) : (s.latch p c d).bit (Key.fltLatch p) c = true := by
  have h : Key.fltLatch p ≠ Key.irqStat p := by simp only [Key.fltLatch, Key.irqStat, regKey]; omega
  simp only [State.bit, State.fld, State.reg_latch, if_neg h, State.latchOn_latch, State.reg_noteOld]
  rw [decide_eq_true_eq]
  split
  · next hb =>
    simp only [decide_eq_true_eq] at hb
    exact getBits_or_other _ _ hb
  · exact getBits_or_bit _ hc

/-- The interrupt source of a latched fault stands. -/
theorem State.irq_latch (s : State) (p c d : Nat) : (s.latch p c d).bit (Key.irqStat p) 0 = true := by
  simp only [State.bit, State.fld, State.reg_latch, if_true]
  rw [decide_eq_true_eq]
  exact getBits_or_bit (c := 0) _ (by decide)

theorem State.bit_irq (s : State) (p : Nat) {b : Nat} (h : b < 32) : (s.irq p b).bit (Key.irqStat p) b = true := by
  simp only [State.bit, State.fld, State.reg_irq, if_true]
  rw [decide_eq_true_eq]
  exact getBits_or_bit _ h

theorem State.fld_congr {s t : State} {k : Nat} (h : t.reg k = s.reg k) (a b : Nat) : t.fld k a b = s.fld k a b := by simp only [State.fld, h]

theorem State.bit_congr {s t : State} {k : Nat} (h : t.reg k = s.reg k) (b : Nat) : t.bit k b = s.bit k b := by simp only [State.bit, State.fld_congr h]

end Machine

end Sys2Proof
end

