-- ==== Sys2Proof/Laws/Bus.lean ====
section
/-! SUPPORT. What a register write does that no other master contests: it sets the register as its fields' access says, and only the
bus's own notes beside it (03 R43, R48). -/

namespace Sys2Proof.Machine

theorem mostConservative_nil (d : Dir) : mostConservative d [] = none := rfl

theorem judge_uncontested {log : List ArbEntry} {k id : Nat} (h : ∀ e ∈ log, e.key = k → e.master = id) (lo v : Nat) (d : Dir) :
    judge log k lo id v d = ⟨true, none⟩ := by
  have h1 : ∀ e ∈ log.filter (fun e => decide (e.key = k) && decide (e.lo = lo)), e.master = id := by
    intro e he
    simp only [List.mem_filter, Bool.and_eq_true, decide_eq_true_eq] at he
    exact h e he.1 he.2.1
  have h2 : ((log.filter (fun e => decide (e.key = k) && decide (e.lo = lo))).filter fun e => decide (e.master ≠ id)) = [] := by
    rw [List.filter_eq_nil_iff]
    intro e he
    simp [h1 e he]
  have h3 : ∀ t, (log.filter (fun e => decide (e.key = k) && decide (e.lo = lo))).find? (fun e => e.stands) = some t → t.master = id :=
    fun t ht => h1 t (List.mem_of_find?_eq_some ht)
  unfold judge
  dsimp only
  rw [h2, mostConservative_nil]
  generalize (log.filter (fun e => decide (e.key = k) && decide (e.lo = lo))).find? (fun e => e.stands) = o at h3
  cases o with
  | none => dsimp only; split <;> rfl
  | some t =>
    have := h3 t rfl
    simp [this]

theorem logWrite_uncontested {log : List ArbEntry} {k id : Nat} (h : ∀ e ∈ log, e.key = k → e.master = id) (lo v c : Nat) (a all : Bool) :
    ∀ e ∈ logWrite log k lo id v c a all, e.key = k → e.master = id := by
  intro e he hk
  unfold logWrite at he
  dsimp only at he
  rw [List.mem_append] at he
  rcases he with he | he
  · split at he
    · obtain ⟨x, hx, rfl⟩ := List.mem_map.1 he
      have hx := List.mem_of_mem_filter hx
      have e1 : ∀ b : Bool, (if b = true then { x with stands := false } else x).key = x.key := fun b => by cases b <;> rfl
      have e2 : ∀ b : Bool, (if b = true then { x with stands := false } else x).master = x.master := fun b => by cases b <;> rfl
      rw [e1] at hk
      rw [e2]
      exact h x hx hk
    · exact h e (List.mem_of_mem_filter he) hk
  · simp only [List.mem_singleton] at he
    rw [he]

theorem mergeField_uncontested {k id : Nat} (c : Nat) (locked : Bool) (v : Word) (a : Merge) (f : Field)
    (h : ∀ e ∈ a.log, e.key = k → e.master = id) (hf : a.first = none) :
    (mergeField k id c locked v a f).word = fieldWritten locked v a.word f ∧ (mergeField k id c locked v a f).first = none ∧
      ∀ e ∈ (mergeField k id c locked v a f).log, e.key = k → e.master = id := by
  unfold mergeField fieldWritten
  have hl := fun x y => logWrite_uncontested h f.lo x c true y
  cases hacc : f.acc <;> cases locked <;> simp [judge_uncontested h, hf] <;> first | exact h | exact hl _ _

theorem foldl_mergeField_uncontested {k id : Nat} (c : Nat) (locked : Bool) (v : Word) (fs : List Field) (a : Merge)
    (h : ∀ e ∈ a.log, e.key = k → e.master = id) (hf : a.first = none) :
    (fs.foldl (mergeField k id c locked v) a).word = wordWritten fs locked v a.word ∧ (fs.foldl (mergeField k id c locked v) a).first = none := by
  induction fs generalizing a with
  | nil => exact ⟨rfl, hf⟩
  | cons f fs ih =>
    obtain ⟨h1, h2, h3⟩ := mergeField_uncontested c locked v a f h hf
    have := ih _ h3 h2
    simp only [List.foldl_cons, wordWritten] at this ⊢
    rw [← h1]
    exact this

@[simp] theorem State.noteOld_log (s : State) (k : Nat) : (s.noteOld k).arb.log = s.arb.log := by unfold State.noteOld; split <;> rfl

/-- An uncontested write sets its register and nothing else but the bus's own notes. -/
theorem State.storeOn_uncontested {s : State} {m : Master} {k : Nat} (h : s.Uncontested m k) (fs : List Field) (p off : Nat) (v : Word) :
    ∃ l o, s.storeOn m k fs p off v = { s.setReg k (wordWritten fs (s.locked p) v (s.reg k)) with arb := { s.arb with log := l, old := o } } := by
  obtain ⟨h1, h2⟩ := foldl_mergeField_uncontested s.arb.num (s.locked p) v fs { word := (s.noteOld k).reg k, log := (s.noteOld k).arb.log }
    (k := k) (id := masterId m) (by rw [State.noteOld_log]; exact h) rfl
  unfold State.storeOn
  dsimp only
  rw [h2]
  dsimp only
  rw [h1, State.reg_noteOld]
  unfold State.noteOld
  split
  · exact ⟨_, _, rfl⟩
  · exact ⟨_, _, rfl⟩

/-- A write in the order of R41 is in the cycle that runs: it is noted, and nothing else. -/
theorem State.inTurn_of_inOrder {s : State} {m : Master} {p : Nat} (h : s.InOrder m p) :
    s.inTurn m p = { s with arb := { s.arb with order := s.arb.order ++ [(p, masterId m)] } } := by
  have e : (s.arb.order.any fun e => decide (e.1 = p) && decide (masterId m < e.2)) = false := by
    rw [List.any_eq_false]
    intro x hx
    simp only [Bool.and_eq_true, decide_eq_true_eq, not_and, Nat.not_lt]
    exact h x hx
  simp [State.inTurn, e]

/-- What the gate does for a full write that its page takes: the write is performed, and what it changed is noted (R41). -/
theorem State.gated_of_takes {s : State} {m : Master} {p off : Nat} {v : Word} (h : s.Takes m p off v) (f : State → State) :
    s.gated m p off 0xF v f = (f (s.inTurn m p)).noteSince (s.inTurn m p) := by
  obtain ⟨⟨h1, h2⟩, _, h3, h4, h5, h6, h7⟩ := h
  simp [State.gated, State.writeGate, h1, h2, h3, h4, h5, h6, h7]

/-- A full write that its page takes is the page's own. -/
theorem State.writePage_of_takes {s : State} {m : Master} {p off : Nat} {v : Word} (h : s.Takes m p off v) :
    s.writePage m p off 0xF v = ((s.inTurn m p).writeReg m p off v).noteSince (s.inTurn m p) := by
  unfold State.writePage
  rw [State.gated_of_takes h]

/-- Every register but the written one is as before an uncontested write, and so is memory. -/
theorem State.storeOn_frame {s : State} {m : Master} {k : Nat} (h : s.Uncontested m k) (fs : List Field) (p off : Nat) (v : Word) :
    RegsBut [k] s (s.storeOn m k fs p off v) ∧ SameMemory s (s.storeOn m k fs p off v) ∧
      (s.storeOn m k fs p off v).reg k = wordWritten fs (s.locked p) v (s.reg k) ∧ (s.storeOn m k fs p off v).out = s.out := by
  obtain ⟨l, o, e⟩ := State.storeOn_uncontested h fs p off v
  rw [e]
  refine ⟨fun j hj => ?_, fun _ => rfl, State.reg_setReg_same .., rfl⟩
  exact State.reg_setReg_ne s _ (by simpa using hj)

end Sys2Proof.Machine
end

