-- ==== Sys2Proof/Laws/Keeps.lean ====
section
/-! SUPPORT. What every operation of the block leaves: the queue of commands, what was given to the outside, the count of free values
and the canonical form of registers and memory; with the rules by which that is shown of a definition's own parts. -/

namespace Sys2Proof.Machine

/-- What every operation of the block does to the state: it leaves the queue of waiting commands alone, takes back
nothing that it gave to the outside, takes no free value twice, and keeps the canonical form of registers and memory.
      -/
structure Keeps (r t : State) : Prop where
  queue : t.pending = r.pending
  outs : r.out <+: t.out
  free : r.freeCtr ≤ t.freeCtr
  regs : SMap.wf resetVal r.regs → SMap.wf resetVal t.regs
  bytes : SMap.wf (fun _ => (0 : Byte)) r.mem.bytes → SMap.wf (fun _ => (0 : Byte)) t.mem.bytes

theorem Keeps.refl (r : State) : Keeps r r := ⟨rfl, List.prefix_refl _, Nat.le_refl _, id, id⟩

theorem Keeps.trans {r s t : State} (h : Keeps r s) (g : Keeps s t) : Keeps r t :=
  ⟨g.queue.trans h.queue, h.outs.trans g.outs, Nat.le_trans h.free g.free, fun w => g.regs (h.regs w), fun w =>
      g.bytes (h.bytes w)⟩

theorem Keeps.of_mk {r t : State}
    {pending_ : List Instr} {regs_ : SMap Word} {time_ : Time} {arb_ : Arb} {pins_ : Pins} {out_ : List Out}
      {freeCtr_ : Nat} {msix_ : SMap MsixEntry} {parts_ : SMap Part} {eqs_ : SMap EqSt} {descs_ : List Desc} {reqs_ :
      List Req} {nextFetch_ : Nat} {rr_ : RoundRobin} {models_ : List Model} {mem_ : Mem} {paging_ : Paging} {agents_
      : SMap AgentSt} {fab_ : Fabric} {cnv_ : Canvas} {rings_ : SMap Ring} {links_ : Links} {top_ : Topology} {ttl_ :
      Telltale} {rats_ : SMap Ratline} {clk_ : Clocks} {power_ : Power} {rel_ : Rel} {boot_ : Boot} {sbd_ : Sideband}
      {pci_ : PciCfg}
    (h1 : pending_ = t.pending) (h2 : out_ = t.out) (h3 : SMap.wf resetVal t.regs → SMap.wf resetVal regs_)
    (h4 : SMap.wf (fun _ => (0 : Byte)) t.mem.bytes → SMap.wf (fun _ => (0 : Byte)) mem_.bytes)
    (h5 : t.freeCtr ≤ freeCtr_) (h : Keeps r t) :
    Keeps r (State.mk pending_ regs_ time_ arb_ pins_ out_ freeCtr_ msix_ parts_ eqs_ descs_ reqs_ nextFetch_ rr_
      models_ mem_ paging_ agents_ fab_ cnv_ rings_ links_ top_ ttl_ rats_ clk_ power_ rel_ boot_ sbd_ pci_) := by
  subst h1 h2
  exact ⟨h.queue, h.outs, Nat.le_trans h.free h5, fun w => h3 (h.regs w), fun w => h4 (h.bytes w)⟩

theorem Keeps.foldl {α : Type} {r s : State} (l : List α) (f : State → α → State) (h : Keeps r s)
    (hf : ∀ t x, Keeps r t → Keeps r (f t x)) : Keeps r (l.foldl f s) := by
  induction l generalizing s with
  | nil => exact h
  | cons a l ih => exact ih (hf _ _ h)

theorem Keeps.foldl1 {α β : Type} {r : State} {s : State × β} (l : List α) (f : State × β → α → State × β) (h : Keeps
      r s.1)
    (hf : ∀ t x, Keeps r t.1 → Keeps r (f t x).1) : Keeps r (l.foldl f s).1 := by
  induction l generalizing s with
  | nil => exact h
  | cons a l ih => exact ih (hf _ _ h)

theorem Keeps.cut {r t u : State} (h : Keeps r t) (f : Keeps r t → Keeps r u) : Keeps r u := f h

theorem Keeps.ite {r a b : State} {c : Prop} [Decidable c] (h : Keeps r a) (g : Keeps r b) : Keeps r (if c then a
      else b) := by
  split <;> assumption

theorem Keeps.ite1 {β : Type} {r : State} {a b : State × β} {c : Prop} [Decidable c] (h : Keeps r a.1) (g : Keeps r
      b.1) :
    Keeps r (if c then a else b).1 := by
  split <;> assumption

theorem Keeps.fn {α : Type} (_ : State → α) : True := trivial

theorem State.setReg_keeps {r s : State} {k : Nat} {v : Word} (h : Keeps r s) : Keeps r (s.setReg k v) :=
  ⟨h.queue, h.outs, h.free, fun w => SMap.wf_set _ _ (h.regs w), h.bytes⟩

theorem State.resetKeys_keeps {r s : State} {a b : Nat} (h : Keeps r s) : Keeps r (s.resetKeys a b) :=
  ⟨h.queue, h.outs, h.free, fun w => SMap.wf_filter _ (h.regs w), h.bytes⟩

theorem State.emit_keeps {r s : State} {o : Out} (h : Keeps r s) : Keeps r (s.emit o) :=
  ⟨h.queue, h.outs.trans (List.prefix_append _ _), h.free, h.regs, h.bytes⟩

/-- What an operation that may fail leaves is kept. -/
structure KeepsO (r : State) (o : Option State) : Prop where
  some_keeps : ∀ t, o = some t → Keeps r t

/-- What an operation that may fail leaves, beside its answer, is kept. -/
structure KeepsP {α : Type} (r : State) (o : Option (α × State)) : Prop where
  some_keeps : ∀ a t, o = some (a, t) → Keeps r t

theorem KeepsO.none (r : State) : KeepsO r Option.none := ⟨fun _ h => nomatch h⟩

theorem KeepsO.some {r t : State} (h : Keeps r t) : KeepsO r (Option.some t) := ⟨fun _ e => Option.some.inj e ▸ h⟩

theorem KeepsO.ite {r : State} {a b : Option State} {c : Prop} [Decidable c] (h : KeepsO r a) (g : KeepsO r b) :
    KeepsO r (if c then a else b) := by
  split <;> assumption

theorem KeepsO.cut {r t : State} {u : Option State} (h : Keeps r t) (f : Keeps r t → KeepsO r u) : KeepsO r u := f h

theorem KeepsO.foldl {α : Type} {r : State} {s : Option State} (l : List α) (f : Option State → α → Option State)
    (h : KeepsO r s) (hf : ∀ t x, KeepsO r t → KeepsO r (f t x)) : KeepsO r (l.foldl f s) := by
  induction l generalizing s with
  | nil => exact h
  | cons a l ih => exact ih (hf _ _ h)

theorem KeepsP.none {α : Type} (r : State) : KeepsP r (Option.none : Option (α × State)) := ⟨fun _ _ h => nomatch h⟩

theorem KeepsP.some {α : Type} {r : State} {a : α × State} (h : Keeps r a.2) : KeepsP r (Option.some a) :=
  ⟨fun b u e => by cases e; exact h⟩

theorem KeepsP.ite {α : Type} {r : State} {a b : Option (α × State)} {c : Prop} [Decidable c] (h : KeepsP r a)
    (g : KeepsP r b) : KeepsP r (if c then a else b) := by
  split <;> assumption

theorem KeepsP.cut {α : Type} {r t : State} {u : Option (α × State)} (h : Keeps r t) (f : Keeps r t → KeepsP r u) :
    KeepsP r u := f h

/-- What an operation leaves beside its answer is kept. -/
structure Keeps1 {β : Type} (r : State) (o : State × β) : Prop where
  keeps : Keeps r o.1

/-- What an operation leaves after its answer is kept. -/
structure Keeps2 {β : Type} (r : State) (o : β × State) : Prop where
  keeps : Keeps r o.2

theorem Keeps1.ite {β : Type} {r : State} {a b : State × β} {c : Prop} [Decidable c] (h : Keeps1 r a) (g : Keeps1 r
      b) :
    Keeps1 r (if c then a else b) := by
  split <;> assumption

theorem Keeps1.foldl {α β : Type} {r : State} {s : State × β} (l : List α) (f : State × β → α → State × β)
    (h : Keeps1 r s) (hf : ∀ t x, Keeps1 r t → Keeps1 r (f t x)) : Keeps1 r (l.foldl f s) := by
  induction l generalizing s with
  | nil => exact h
  | cons a l ih => exact ih (hf _ _ h)

theorem Keeps2.ite {β : Type} {r : State} {a b : β × State} {c : Prop} [Decidable c] (h : Keeps2 r a) (g : Keeps2 r
      b) :
    Keeps2 r (if c then a else b) := by
  split <;> assumption

theorem Keeps2.foldl {α β : Type} {r : State} {s : β × State} (l : List α) (f : β × State → α → β × State)
    (h : Keeps2 r s) (hf : ∀ t x, Keeps2 r t → Keeps2 r (f t x)) : Keeps2 r (l.foldl f s) := by
  induction l generalizing s with
  | nil => exact h
  | cons a l ih => exact ih (hf _ _ h)

theorem Keeps1.mk' {β : Type} {r s : State} {b : β} (h : Keeps r s) : Keeps1 r (s, b) := ⟨h⟩

theorem Keeps2.mk' {β : Type} {r s : State} {b : β} (h : Keeps r s) : Keeps2 r (b, s) := ⟨h⟩

theorem Keeps1.eq {β : Type} {r s : State} {b : β} {o : State × β} (h : Keeps1 r o) (e : o = (s, b)) : Keeps r s := by
  subst e
  exact h.keeps

theorem Keeps2.eq {β : Type} {r s : State} {b : β} {o : β × State} (h : Keeps2 r o) (e : o = (b, s)) : Keeps r s := by
  subst e
  exact h.keeps

theorem Keeps1.cut {r t : State} {β : Type} {u : State × β} (h : Keeps r t) (f : Keeps r t → Keeps1 r u) : Keeps1 r u
      := f h

theorem Keeps2.cut {r t : State} {β : Type} {u : β × State} (h : Keeps r t) (f : Keeps r t → Keeps2 r u) : Keeps2 r u
      := f h

theorem Keeps.fn2 {α β : Type} (_ : α → β → State) : True := trivial

theorem Keeps.memv (_ : Mem) : True := trivial

theorem Keeps2b_eq {β γ : Type} {r s : State} {b : β} {c : γ} {o : β × γ × State} (h : Keeps r o.2.2) (e : o = (b, c,
      s)) :
    Keeps r s := by
  subst e
  exact h

/-- What an outcome leaves, if it is a next state, is kept. -/
structure KeepsR (r : State) (o : Host.Outcome State Fault Refusal) : Prop where
  keeps : ∀ t, o = .next t → Keeps r t

theorem KeepsR.next {r s : State} (h : Keeps r s) : KeepsR r (.next s) := ⟨fun _ e => by cases e; exact h⟩

theorem KeepsR.fault (r : State) (f : Fault) : KeepsR r (.fault f) := ⟨fun _ e => nomatch e⟩

theorem KeepsR.ite {r : State} {a b : Host.Outcome State Fault Refusal} {c : Prop} [Decidable c] (h : KeepsR r a)
    (g : KeepsR r b) : KeepsR r (if c then a else b) := by
  split <;> assumption

theorem KeepsR.cut {r t : State} {u : Host.Outcome State Fault Refusal} (h : Keeps r t) (f : Keeps r t → KeepsR r u) :
    KeepsR r u := f h

theorem Keeps.getD {r s : State} {o : Option State} (h : KeepsO r o) (g : Keeps r s) : Keeps r (o.getD s) := by
  cases o with
  | none => exact g
  | some t => exact h.some_keeps t rfl

theorem Keeps.foldl2 {α β : Type} {r : State} {s : β × State} (l : List α) (f : β × State → α → β × State) (h : Keeps
      r s.2)
    (hf : ∀ t x, Keeps r t.2 → Keeps r (f t x).2) : Keeps r (l.foldl f s).2 := by
  induction l generalizing s with
  | nil => exact h
  | cons a l ih => exact ih (hf _ _ h)

theorem Keeps.ite2 {β : Type} {r : State} {a b : β × State} {c : Prop} [Decidable c] (h : Keeps r a.2) (g : Keeps r
      b.2) :
    Keeps r (if c then a else b).2 := by
  split <;> assumption

theorem Keeps.bytesv (_ : SMap Byte) : True := trivial

theorem Keeps.cutO {r u : State} {o : Option State} (h : KeepsO r o) (f : KeepsO r o → Keeps r u) : Keeps r u := f h

theorem Keeps.cutP {r u : State} {β : Type} {o : Option (β × State)} (h : KeepsP r o) (f : KeepsP r o → Keeps r u) :
      Keeps r u := f h

theorem Keeps.cut1 {r u : State} {β : Type} {o : State × β} (h : Keeps1 r o) (f : Keeps1 r o → Keeps r u) : Keeps r u
      := f h

theorem Keeps.cut2 {r u : State} {β : Type} {o : β × State} (h : Keeps2 r o) (f : Keeps2 r o → Keeps r u) : Keeps r u
      := f h

theorem SMap.wf_foldl_set {α : Type} {d : Nat → Byte} (l : List α) (k : α → Nat) (v : α → Byte) {m : SMap Byte}
    (h : SMap.wf d m) : SMap.wf d (l.foldl (fun m e => SMap.set d m (k e) (v e)) m) := by
  induction l generalizing m with
  | nil => exact h
  | cons a l ih => exact ih (SMap.wf_set _ _ h)

theorem KeepsO.oSome {r t : State} {o : Option State} (h : KeepsO r o) (e : o = Option.some t) : Keeps r t :=
      h.some_keeps _ e

theorem SMap.wf_filterMap {α : Type} {d : Nat → α} {m : SMap α} (f : Nat × α → Option (Nat × α)) (h : SMap.wf d m)
    (hf : ∀ e x, f e = some x → x.1 = e.1 ∧ (e.2 ≠ d e.1 → x.2 ≠ d x.1)) : SMap.wf d (m.filterMap f) := by
  refine ⟨?_, ?_⟩
  · rw [List.pairwise_filterMap]
    refine List.Pairwise.imp ?_ h.1
    intro a b hab x hx y hy
    rw [(hf a x hx).1, (hf b y hy).1]
    exact hab
  · intro x hx
    obtain ⟨e, he, hx⟩ := List.mem_filterMap.1 hx
    exact (hf e x hx).2 (h.2 e he)

theorem SMap.wf_foldl_setW {α : Type} {d : Nat → Word} (l : List α) (k : α → Nat) (v : α → Word) {m : SMap Word}
    (h : SMap.wf d m) : SMap.wf d (l.foldl (fun m e => SMap.set d m (k e) (v e)) m) := by
  induction l generalizing m with
  | nil => exact h
  | cons a l ih => exact ih (SMap.wf_set _ _ h)

theorem SMap.wf_nil' {α : Type} (d : Nat → α) : SMap.wf d ([] : SMap α) := by simp [SMap.wf]

theorem KeepsP.map {α β : Type} {r : State} {o : Option (α × State)} {f : α × State → β × State} (h : KeepsP r o)
    (hf : ∀ e, Keeps r e.2 → Keeps r (f e).2) : KeepsP r (o.map f) := by
  refine ⟨fun b t e => ?_⟩
  cases o with
  | none => cases e
  | some x =>
    have := hf x (h.some_keeps x.1 x.2 rfl)
    simp only [Option.map_some, Option.some.injEq] at e
    rw [e] at this
    exact this

/-- The state that a decision carries is kept. -/
structure KeepsD (r : State) (x : Decision) : Prop where
  admits : ∀ t v, x = .accept t v → Keeps r t

theorem KeepsD.refuse (r : State) (a b : Nat) : KeepsD r (.refuse a b) := ⟨fun _ _ e => nomatch e⟩

theorem KeepsD.defer (r : State) (a b c : Nat) : KeepsD r (.defer a b c) := ⟨fun _ _ e => nomatch e⟩

theorem KeepsD.accept {r t : State} {v : Option Req} (h : Keeps r t) : KeepsD r (.accept t v) := ⟨fun _ _ e => by
      cases e; exact h⟩

theorem KeepsD.ite {r : State} {a b : Decision} {c : Prop} [Decidable c] (h : KeepsD r a) (g : KeepsD r b) :
    KeepsD r (if c then a else b) := by
  split <;> assumption

theorem Keeps.upd {r t : State} 
    {pending_ : List Instr} {regs_ : SMap Word} {time_ : Time} {arb_ : Arb} {pins_ : Pins} {out_ : List Out}
      {freeCtr_ : Nat} {msix_ : SMap MsixEntry} {parts_ : SMap Part} {eqs_ : SMap EqSt} {descs_ : List Desc} {reqs_ :
      List Req} {nextFetch_ : Nat} {rr_ : RoundRobin} {models_ : List Model} {mem_ : Mem} {paging_ : Paging} {agents_
      : SMap AgentSt} {fab_ : Fabric} {cnv_ : Canvas} {rings_ : SMap Ring} {links_ : Links} {top_ : Topology} {ttl_ :
      Telltale} {rats_ : SMap Ratline} {clk_ : Clocks} {power_ : Power} {rel_ : Rel} {boot_ : Boot} {sbd_ : Sideband}
      {pci_ : PciCfg} (h : Keeps r t)
    (e : pending_ = t.pending ∧ out_ = t.out ∧ regs_ = t.regs ∧ mem_.bytes = t.mem.bytes ∧ freeCtr_ = t.freeCtr) :
    Keeps r (State.mk pending_ regs_ time_ arb_ pins_ out_ freeCtr_ msix_ parts_ eqs_ descs_ reqs_ nextFetch_ rr_
      models_ mem_ paging_ agents_ fab_ cnv_ rings_ links_ top_ ttl_ rats_ clk_ power_ rel_ boot_ sbd_ pci_) := by
  obtain ⟨e1, e2, e3, e4, e5⟩ := e
  exact Keeps.of_mk e1 e2 (fun w => e3 ▸ w) (fun w => e4 ▸ w) (Nat.le_of_eq e5.symm) h

end Sys2Proof.Machine
end

