-- ==== Sys2Proof/Laws/KeepsBase.lean ====
section
/-! SUPPORT. What the definitions of the shared operations: registers, events, frames, records, pages, requests, units and the bus keep. -/

set_option linter.unusedTactic false
set_option linter.unreachableTactic false

namespace Sys2Proof.Machine

/-! ### Ops -/

theorem State.setFld_keeps {r0_ s : State} {k h l x : Nat} (h_ : Keeps r0_ s) : Keeps r0_ (State.setFld s k h l x) := by
  unfold State.setFld
  with_reducible repeat' first
    | assumption | apply State.setReg_keeps

theorem State.setBit_keeps {r0_ s : State} {k b : Nat} {x : Bool} (h_ : Keeps r0_ s) : Keeps r0_ (State.setBit s k b x) := by
  unfold State.setBit
  with_reducible repeat' first
    | assumption | apply State.setFld_keeps

theorem State.inc_keeps {r0_ s : State} {k : Nat} (h_ : Keeps r0_ s) : Keeps r0_ (State.inc s k) := by
  unfold State.inc
  with_reducible repeat' first
    | assumption | apply State.setReg_keeps

theorem State.addCnt_keeps {r0_ s : State} {k n : Nat} (h_ : Keeps r0_ s) : Keeps r0_ (State.addCnt s k n) := by
  unfold State.addCnt
  with_reducible repeat' first
    | assumption | apply State.setReg_keeps

theorem State.chosen_keeps {r0_ s : State}  (h_ : Keeps r0_ s) : Keeps r0_ (State.chosen s) := by
  unfold State.chosen
  with_reducible repeat' first
    | assumption
    | (fail_if_no_progress ((apply Keeps.of_mk; (focus exact rfl); (focus exact rfl)); (with_unfolding_all focus first | (exact fun w => w) | exact SMap.wf_set _ _ | exact SMap.wf_filter _); (with_unfolding_all focus first | (exact fun w => w) | exact SMap.wf_putBytes _ _ | exact SMap.wf_clearRange _ _ | exact SMap.wf_filter _ | (exact fun w => SMap.wf_foldl_set _ _ _ (SMap.wf_clearRange _ _ w)) | (exact fun _ => SMap.wf_nil' _)); (focus first | exact Nat.le_refl _ | exact Nat.le_succ _ | exact Nat.le_add_right _ _)))

theorem foldState_keeps {r0_ s : State} {α : Type} {l : List α} {f : State → α → State} (h_ : Keeps r0_ s)
    (hf : ∀ t x, Keeps r0_ t → Keeps r0_ (f t x)) : Keeps r0_ (foldState s l f) := Keeps.foldl l f h_ hf

theorem State.noteOld_keeps {r0_ s : State} {k : Nat} (h_ : Keeps r0_ s) : Keeps r0_ (State.noteOld s k) := by
  unfold State.noteOld
  with_reducible repeat' first
    | assumption | (fail_if_no_progress refine Keeps.upd ?_ ⟨rfl, rfl, rfl, rfl, rfl⟩) | split

theorem State.setMsix_keeps {r0_ s : State} {v : Nat} {e : MsixEntry} (h_ : Keeps r0_ s) : Keeps r0_ (State.setMsix s v e) := by
  unfold State.setMsix
  with_reducible repeat' first
    | assumption | (fail_if_no_progress refine Keeps.upd ?_ ⟨rfl, rfl, rfl, rfl, rfl⟩)

theorem State.signal_keeps {r0_ s : State} {v : Nat} (h_ : Keeps r0_ s) : Keeps r0_ (State.signal s v) := by
  unfold State.signal
  with_reducible repeat' first
    | assumption | apply Keeps.ite | apply State.emit_keeps | apply State.setMsix_keeps

theorem State.setIrq_keeps {r0_ s : State} {p : Nat} {bits : Word} (h_ : Keeps r0_ s) : Keeps r0_ (State.setIrq s p bits) := by
  unfold State.setIrq
  with_reducible repeat' first
    | assumption | apply Keeps.ite | apply State.setReg_keeps | apply State.noteOld_keeps | apply State.signal_keeps
    | split

theorem State.irq_keeps {r0_ s : State} {p b : Nat} (h_ : Keeps r0_ s) : Keeps r0_ (State.irq s p b) := by
  unfold State.irq
  with_reducible repeat' first
    | assumption | apply State.setIrq_keeps

theorem State.latchOn_keeps {r0_ s : State} {p c detail : Nat} (h_ : Keeps r0_ s) : Keeps r0_ (State.latchOn s p c detail) := by
  unfold State.latchOn
  with_reducible repeat' first
    | assumption | apply Keeps.ite | apply State.setReg_keeps

theorem State.latch_keeps {r0_ s : State} {p c detail : Nat} (h_ : Keeps r0_ s) : Keeps r0_ (State.latch s p c detail) := by
  unfold State.latch
  with_reducible repeat' first
    | assumption | apply State.noteOld_keeps | apply State.irq_keeps | apply State.latchOn_keeps
    | (fail_if_no_progress refine Keeps.upd ?_ ⟨rfl, rfl, rfl, rfl, rfl⟩)

theorem State.latchGroup_keeps {r0_ s : State} {g c panel col : Nat} (h_ : Keeps r0_ s) : Keeps r0_ (State.latchGroup s g c panel col) := by
  unfold State.latchGroup
  with_reducible repeat' first
    | assumption | apply State.latch_keeps

theorem State.setPart_keeps {r0_ s : State} {p : Nat} {x : Part} (h_ : Keeps r0_ s) : Keeps r0_ (State.setPart s p x) := by
  unfold State.setPart
  with_reducible repeat' first
    | assumption | (fail_if_no_progress refine Keeps.upd ?_ ⟨rfl, rfl, rfl, rfl, rfl⟩)

theorem State.setLastErr_keeps {r0_ s : State} {p e : Nat} (h_ : Keeps r0_ s) : Keeps r0_ (State.setLastErr s p e) := by
  unfold State.setLastErr
  with_reducible repeat' first
    | assumption | apply State.setFld_keeps

theorem State.isoUpdate_keeps {r0_ s : State} {p : Nat} (h_ : Keeps r0_ s) : Keeps r0_ (State.isoUpdate s p) := by
  unfold State.isoUpdate
  with_reducible repeat' first
    | assumption | apply State.setBit_keeps

theorem State.setPState_keeps {r0_ s : State} {p st : Nat} (h_ : Keeps r0_ s) : Keeps r0_ (State.setPState s p st) := by
  unfold State.setPState
  with_reducible repeat' first
    | assumption | apply Keeps.ite | apply State.setFld_keeps | apply State.irq_keeps | apply State.isoUpdate_keeps

/-! ### Events -/

theorem State.ttlRegister_keeps {r0_ s : State} {target : Nat} {client : TtlClient} {dies : List Nat} (h_ : Keeps r0_ s) : Keeps r0_ (State.ttlRegister s target client dies) := by
  unfold State.ttlRegister
  with_reducible repeat' first
    | assumption | apply State.inc_keeps | (fail_if_no_progress refine Keeps.upd ?_ ⟨rfl, rfl, rfl, rfl, rfl⟩)
    | split

theorem State.ttlDelay_keeps {r0_ s : State} {k e : Nat} (h_ : Keeps r0_ s) : Keeps r0_ (State.ttlDelay s k e) := by
  unfold State.ttlDelay
  with_reducible repeat' first
    | assumption | (fail_if_no_progress refine Keeps.upd ?_ ⟨rfl, rfl, rfl, rfl, rfl⟩)

theorem State.fireDue_keeps {r0_ s : State}  (h_ : Keeps r0_ s) : Keeps r0_ (State.fireDue s) := by
  unfold State.fireDue
  with_reducible repeat' first
    | assumption | apply Keeps.foldl | apply State.emit_keeps | apply State.setBit_keeps | apply State.irq_keeps
    | (fail_if_no_progress refine Keeps.upd ?_ ⟨rfl, rfl, rfl, rfl, rfl⟩) | intro _ _ _

/-! ### Inject -/

theorem State.injActed_keeps {r0_ s : State}  (h_ : Keeps r0_ s) : Keeps r0_ (State.injActed s) := by
  unfold State.injActed
  with_reducible repeat' first
    | assumption | apply State.setFld_keeps | (fail_if_no_progress refine Keeps.upd ?_ ⟨rfl, rfl, rfl, rfl, rfl⟩)

theorem State.injWrite_keeps {r0_ s : State} {a n : Nat} (h_ : Keeps r0_ s) : Keeps r0_ (State.injWrite s a n) := by
  unfold State.injWrite
  with_reducible repeat' first
    | assumption | apply Keeps.ite | apply State.injActed_keeps
    | (fail_if_no_progress ((apply Keeps.of_mk; (focus exact rfl); (focus exact rfl)); (with_unfolding_all focus first | (exact fun w => w) | exact SMap.wf_set _ _ | exact SMap.wf_filter _); (with_unfolding_all focus first | (exact fun w => w) | exact SMap.wf_putBytes _ _ | exact SMap.wf_clearRange _ _ | exact SMap.wf_filter _ | (exact fun w => SMap.wf_foldl_set _ _ _ (SMap.wf_clearRange _ _ w)) | (exact fun _ => SMap.wf_nil' _)); (focus first | exact Nat.le_refl _ | exact Nat.le_succ _ | exact Nat.le_add_right _ _)))

/-! ### Frames -/

theorem State.kvpUpdate_keeps {r0_ s : State}  (h_ : Keeps r0_ s) : Keeps r0_ (State.kvpUpdate s) := by
  unfold State.kvpUpdate
  with_reducible repeat' first
    | assumption | apply Keeps.ite | apply State.setReg_keeps | apply State.irq_keeps

theorem State.takeIn_keepsO {r0_ s : State} {pool : PoolId} {t : Tier} {n : Nat} {use : Use} {key : Nat} (h_ : Keeps r0_ s) : KeepsP r0_ (State.takeIn s pool t n use key) := by
  unfold State.takeIn
  with_reducible repeat' first
    | assumption | exact KeepsP.none _ | apply KeepsP.some | apply KeepsP.ite | apply Keeps.ite | apply Keeps.foldl
    | apply Keeps.getD | apply State.chosen_keeps | apply State.kvpUpdate_keeps
    | ((fail_if_no_progress extract_lets +onlyGivenNames x); first | ((first | refine Keeps.cut (t := x) ?_ ?_ | refine KeepsP.cut (t := x) ?_ ?_ | refine Keeps.cutO (o := x) ?_ ?_ | refine Keeps.cutP (o := x) ?_ ?_ | refine Keeps.cut1 (o := x) ?_ ?_ | refine Keeps.cut2 (o := x) ?_ ?_); rotate_left; (clear_value x; intro hx); rotate_left; (try subst x)) | (have _h := Keeps.memv x; clear _h) | (have _h := Keeps.bytesv x; clear _h) | (have _h := Keeps.fn x; clear _h; dsimp only [x]; clear x) | (have _h := Keeps.fn2 x; clear _h; dsimp only [x]; clear x) | clear_value x)
    | (fail_if_no_progress refine Keeps.upd ?_ ⟨rfl, rfl, rfl, rfl, rfl⟩)
    | (fail_if_no_progress ((apply Keeps.of_mk; (focus exact rfl); (focus exact rfl)); (with_unfolding_all focus first | (exact fun w => w) | exact SMap.wf_set _ _ | exact SMap.wf_filter _); (with_unfolding_all focus first | (exact fun w => w) | exact SMap.wf_putBytes _ _ | exact SMap.wf_clearRange _ _ | exact SMap.wf_filter _ | (exact fun w => SMap.wf_foldl_set _ _ _ (SMap.wf_clearRange _ _ w)) | (exact fun _ => SMap.wf_nil' _)); (focus first | exact Nat.le_refl _ | exact Nat.le_succ _ | exact Nat.le_add_right _ _)))
    | apply Keeps.foldl1 | apply Keeps.foldl2 | apply Keeps.ite1 | apply Keeps.ite2
    | refine KeepsP.some_keeps (by assumption) _ _ (by assumption)
    | refine KeepsO.oSome (by assumption) (by assumption) | refine KeepsO.oSome (by assumption) rfl
    | refine KeepsP.some_keeps (by assumption) _ _ rfl | apply KeepsP.map | refine Keeps1.keeps (by assumption)
    | refine Keeps2.keeps (by assumption) | exact KeepsO.none _ | apply KeepsO.some | apply KeepsO.ite
    | apply KeepsO.foldl | apply Keeps1.mk' | apply Keeps1.ite | apply Keeps1.foldl | apply Keeps2.mk'
    | apply Keeps2.ite | apply Keeps2.foldl | intro _ _ _ | intro _ _ | intro _ | split
    | (fail_if_no_progress dsimp only) | refine KeepsO.oSome ?_ (by assumption)
    | refine KeepsP.some_keeps ?_ _ _ (by assumption) | refine Keeps1.eq ?_ (by assumption)
    | refine Keeps2.eq ?_ (by assumption)

theorem State.takePage_keepsO {r0_ s : State} {p n : Nat} {use : Use} {key : Nat} (h_ : Keeps r0_ s) : KeepsP r0_ (State.takePage s p n use key) := by
  unfold State.takePage
  with_reducible repeat' first
    | assumption | apply KeepsP.some | apply State.takeIn_keepsO | split
    | refine KeepsP.some_keeps ?_ _ _ (by assumption)

theorem State.takePages_keepsO {r0_ s : State} {p n : Nat} {use : Use} {key : Nat} {n_ : Nat} (h_ : Keeps r0_ s) : KeepsP r0_ (State.takePages s p n use key n_) := by
  induction n_ generalizing s p n use key with
  | zero =>
    unfold State.takePages
    with_reducible repeat' first
      | assumption | exact KeepsP.none _ | apply KeepsP.some
      | refine (State.takePage_keepsO ?_).some_keeps _ _ (by assumption)
      | refine (ih ?_).some_keeps _ _ (by assumption) | split
  | succ n ih =>
    unfold State.takePages
    with_reducible repeat' first
      | assumption | exact KeepsP.none _ | apply KeepsP.some
      | refine (State.takePage_keepsO ?_).some_keeps _ _ (by assumption)
      | refine (ih ?_).some_keeps _ _ (by assumption) | split

theorem State.hideFresh_keeps {r0_ s : State} {c : Nat} (h_ : Keeps r0_ s) : Keeps r0_ (State.hideFresh s c) := by
  unfold State.hideFresh
  with_reducible repeat' first
    | assumption | apply Keeps.ite | apply Keeps.foldl | apply Keeps.getD
    | ((fail_if_no_progress extract_lets +onlyGivenNames x); first | ((first | refine Keeps.cut (t := x) ?_ ?_ | refine Keeps.cutO (o := x) ?_ ?_ | refine Keeps.cutP (o := x) ?_ ?_ | refine Keeps.cut1 (o := x) ?_ ?_ | refine Keeps.cut2 (o := x) ?_ ?_); rotate_left; (clear_value x; intro hx); rotate_left; (try subst x)) | (have _h := Keeps.memv x; clear _h) | (have _h := Keeps.bytesv x; clear _h) | (have _h := Keeps.fn x; clear _h; dsimp only [x]; clear x) | (have _h := Keeps.fn2 x; clear _h; dsimp only [x]; clear x) | clear_value x)
    | (fail_if_no_progress refine Keeps.upd ?_ ⟨rfl, rfl, rfl, rfl, rfl⟩)
    | (fail_if_no_progress ((apply Keeps.of_mk; (focus exact rfl); (focus exact rfl)); (with_unfolding_all focus first | (exact fun w => w) | exact SMap.wf_set _ _ | exact SMap.wf_filter _); (with_unfolding_all focus first | (exact fun w => w) | exact SMap.wf_putBytes _ _ | exact SMap.wf_clearRange _ _ | exact SMap.wf_filter _ | (exact fun w => SMap.wf_foldl_set _ _ _ (SMap.wf_clearRange _ _ w)) | (exact fun _ => SMap.wf_nil' _)); (focus first | exact Nat.le_refl _ | exact Nat.le_succ _ | exact Nat.le_add_right _ _)))
    | apply Keeps.foldl1 | apply Keeps.foldl2 | apply Keeps.ite1 | apply Keeps.ite2
    | refine KeepsP.some_keeps (by assumption) _ _ (by assumption)
    | refine KeepsO.oSome (by assumption) (by assumption) | refine KeepsO.oSome (by assumption) rfl
    | refine KeepsP.some_keeps (by assumption) _ _ rfl | apply KeepsP.map | refine Keeps1.keeps (by assumption)
    | refine Keeps2.keeps (by assumption) | exact KeepsO.none _ | apply KeepsO.some | apply KeepsO.ite
    | apply KeepsO.foldl | exact KeepsP.none _ | apply KeepsP.some | apply KeepsP.ite | apply Keeps1.mk'
    | apply Keeps1.ite | apply Keeps1.foldl | apply Keeps2.mk' | apply Keeps2.ite | apply Keeps2.foldl | intro _ _ _
    | intro _ _ | intro _ | split | (fail_if_no_progress dsimp only) | refine KeepsO.oSome ?_ (by assumption)
    | refine KeepsP.some_keeps ?_ _ _ (by assumption) | refine Keeps1.eq ?_ (by assumption)
    | refine Keeps2.eq ?_ (by assumption)

theorem State.showFresh_keeps {r0_ s : State} {c : Nat} (h_ : Keeps r0_ s) : Keeps r0_ (State.showFresh s c) := by
  unfold State.showFresh
  with_reducible repeat' first
    | assumption | apply Keeps.ite | apply Keeps.foldl | apply Keeps.getD
    | ((fail_if_no_progress extract_lets +onlyGivenNames x); first | ((first | refine Keeps.cut (t := x) ?_ ?_ | refine Keeps.cutO (o := x) ?_ ?_ | refine Keeps.cutP (o := x) ?_ ?_ | refine Keeps.cut1 (o := x) ?_ ?_ | refine Keeps.cut2 (o := x) ?_ ?_); rotate_left; (clear_value x; intro hx); rotate_left; (try subst x)) | (have _h := Keeps.memv x; clear _h) | (have _h := Keeps.bytesv x; clear _h) | (have _h := Keeps.fn x; clear _h; dsimp only [x]; clear x) | (have _h := Keeps.fn2 x; clear _h; dsimp only [x]; clear x) | clear_value x)
    | (fail_if_no_progress refine Keeps.upd ?_ ⟨rfl, rfl, rfl, rfl, rfl⟩)
    | (fail_if_no_progress ((apply Keeps.of_mk; (focus exact rfl); (focus exact rfl)); (with_unfolding_all focus first | (exact fun w => w) | exact SMap.wf_set _ _ | exact SMap.wf_filter _); (with_unfolding_all focus first | (exact fun w => w) | exact SMap.wf_putBytes _ _ | exact SMap.wf_clearRange _ _ | exact SMap.wf_filter _ | (exact fun w => SMap.wf_foldl_set _ _ _ (SMap.wf_clearRange _ _ w)) | (exact fun _ => SMap.wf_nil' _)); (focus first | exact Nat.le_refl _ | exact Nat.le_succ _ | exact Nat.le_add_right _ _)))
    | apply Keeps.foldl1 | apply Keeps.foldl2 | apply Keeps.ite1 | apply Keeps.ite2
    | refine KeepsP.some_keeps (by assumption) _ _ (by assumption)
    | refine KeepsO.oSome (by assumption) (by assumption) | refine KeepsO.oSome (by assumption) rfl
    | refine KeepsP.some_keeps (by assumption) _ _ rfl | apply KeepsP.map | refine Keeps1.keeps (by assumption)
    | refine Keeps2.keeps (by assumption) | exact KeepsO.none _ | apply KeepsO.some | apply KeepsO.ite
    | apply KeepsO.foldl | exact KeepsP.none _ | apply KeepsP.some | apply KeepsP.ite | apply Keeps1.mk'
    | apply Keeps1.ite | apply Keeps1.foldl | apply Keeps2.mk' | apply Keeps2.ite | apply Keeps2.foldl | intro _ _ _
    | intro _ _ | intro _ | split | (fail_if_no_progress dsimp only) | refine KeepsO.oSome ?_ (by assumption)
    | refine KeepsP.some_keeps ?_ _ _ (by assumption) | refine Keeps1.eq ?_ (by assumption)
    | refine Keeps2.eq ?_ (by assumption)

theorem State.asTake_keeps {r0_ s : State} {f : State → State} (h_ : Keeps r0_ s) (hf : ∀ t, Keeps r0_ t → Keeps r0_ (f t)) :
    Keeps r0_ (s.asTake f) := by
  unfold State.asTake
  exact State.showFresh_keeps (hf _ (State.hideFresh_keeps h_))

theorem State.touchHold_keeps {r0_ s : State} {pool : PoolId} (h_ : Keeps r0_ s) : Keeps r0_ (State.touchHold s pool) := by
  unfold State.touchHold
  with_reducible repeat' first
    | assumption | (fail_if_no_progress refine Keeps.upd ?_ ⟨rfl, rfl, rfl, rfl, rfl⟩)

theorem State.retireFrame_keeps {r0_ s : State} {f u : Nat} (h_ : Keeps r0_ s) : Keeps r0_ (State.retireFrame s f u) := by
  unfold State.retireFrame
  with_reducible repeat' first
    | assumption | apply Keeps.ite | apply Keeps.foldl | apply Keeps.getD | apply State.inc_keeps
    | apply State.kvpUpdate_keeps
    | ((fail_if_no_progress extract_lets +onlyGivenNames x); first | ((first | refine Keeps.cut (t := x) ?_ ?_ | refine Keeps.cutO (o := x) ?_ ?_ | refine Keeps.cutP (o := x) ?_ ?_ | refine Keeps.cut1 (o := x) ?_ ?_ | refine Keeps.cut2 (o := x) ?_ ?_); rotate_left; (clear_value x; intro hx); rotate_left; (try subst x)) | (have _h := Keeps.memv x; clear _h) | (have _h := Keeps.bytesv x; clear _h) | (have _h := Keeps.fn x; clear _h; dsimp only [x]; clear x) | (have _h := Keeps.fn2 x; clear _h; dsimp only [x]; clear x) | clear_value x)
    | (fail_if_no_progress refine Keeps.upd ?_ ⟨rfl, rfl, rfl, rfl, rfl⟩)
    | (fail_if_no_progress ((apply Keeps.of_mk; (focus exact rfl); (focus exact rfl)); (with_unfolding_all focus first | (exact fun w => w) | exact SMap.wf_set _ _ | exact SMap.wf_filter _); (with_unfolding_all focus first | (exact fun w => w) | exact SMap.wf_putBytes _ _ | exact SMap.wf_clearRange _ _ | exact SMap.wf_filter _ | (exact fun w => SMap.wf_foldl_set _ _ _ (SMap.wf_clearRange _ _ w)) | (exact fun _ => SMap.wf_nil' _)); (focus first | exact Nat.le_refl _ | exact Nat.le_succ _ | exact Nat.le_add_right _ _)))
    | apply Keeps.foldl1 | apply Keeps.foldl2 | apply Keeps.ite1 | apply Keeps.ite2
    | refine KeepsP.some_keeps (by assumption) _ _ (by assumption)
    | refine KeepsO.oSome (by assumption) (by assumption) | refine KeepsO.oSome (by assumption) rfl
    | refine KeepsP.some_keeps (by assumption) _ _ rfl | apply KeepsP.map | refine Keeps1.keeps (by assumption)
    | refine Keeps2.keeps (by assumption) | exact KeepsO.none _ | apply KeepsO.some | apply KeepsO.ite
    | apply KeepsO.foldl | exact KeepsP.none _ | apply KeepsP.some | apply KeepsP.ite | apply Keeps1.mk'
    | apply Keeps1.ite | apply Keeps1.foldl | apply Keeps2.mk' | apply Keeps2.ite | apply Keeps2.foldl | intro _ _ _
    | intro _ _ | intro _ | split | (fail_if_no_progress dsimp only) | refine KeepsO.oSome ?_ (by assumption)
    | refine KeepsP.some_keeps ?_ _ _ (by assumption) | refine Keeps1.eq ?_ (by assumption)
    | refine Keeps2.eq ?_ (by assumption)

theorem State.retireLeft_keeps {r0_ s : State} {f n : Nat} (h_ : Keeps r0_ s) : Keeps r0_ (State.retireLeft s f n) := by
  unfold State.retireLeft
  with_reducible repeat' first
    | assumption | apply Keeps.ite | apply Keeps.foldl | apply Keeps.getD | apply State.retireFrame_keeps
    | ((fail_if_no_progress extract_lets +onlyGivenNames x); first | ((first | refine Keeps.cut (t := x) ?_ ?_ | refine Keeps.cutO (o := x) ?_ ?_ | refine Keeps.cutP (o := x) ?_ ?_ | refine Keeps.cut1 (o := x) ?_ ?_ | refine Keeps.cut2 (o := x) ?_ ?_); rotate_left; (clear_value x; intro hx); rotate_left; (try subst x)) | (have _h := Keeps.memv x; clear _h) | (have _h := Keeps.bytesv x; clear _h) | (have _h := Keeps.fn x; clear _h; dsimp only [x]; clear x) | (have _h := Keeps.fn2 x; clear _h; dsimp only [x]; clear x) | clear_value x)
    | (fail_if_no_progress refine Keeps.upd ?_ ⟨rfl, rfl, rfl, rfl, rfl⟩)
    | (fail_if_no_progress ((apply Keeps.of_mk; (focus exact rfl); (focus exact rfl)); (with_unfolding_all focus first | (exact fun w => w) | exact SMap.wf_set _ _ | exact SMap.wf_filter _); (with_unfolding_all focus first | (exact fun w => w) | exact SMap.wf_putBytes _ _ | exact SMap.wf_clearRange _ _ | exact SMap.wf_filter _ | (exact fun w => SMap.wf_foldl_set _ _ _ (SMap.wf_clearRange _ _ w)) | (exact fun _ => SMap.wf_nil' _)); (focus first | exact Nat.le_refl _ | exact Nat.le_succ _ | exact Nat.le_add_right _ _)))
    | apply Keeps.foldl1 | apply Keeps.foldl2 | apply Keeps.ite1 | apply Keeps.ite2
    | refine KeepsP.some_keeps (by assumption) _ _ (by assumption)
    | refine KeepsO.oSome (by assumption) (by assumption) | refine KeepsO.oSome (by assumption) rfl
    | refine KeepsP.some_keeps (by assumption) _ _ rfl | apply KeepsP.map | refine Keeps1.keeps (by assumption)
    | refine Keeps2.keeps (by assumption) | exact KeepsO.none _ | apply KeepsO.some | apply KeepsO.ite
    | apply KeepsO.foldl | exact KeepsP.none _ | apply KeepsP.some | apply KeepsP.ite | apply Keeps1.mk'
    | apply Keeps1.ite | apply Keeps1.foldl | apply Keeps2.mk' | apply Keeps2.ite | apply Keeps2.foldl | intro _ _ _
    | intro _ _ | intro _ | split | (fail_if_no_progress dsimp only) | refine KeepsO.oSome ?_ (by assumption)
    | refine KeepsP.some_keeps ?_ _ _ (by assumption) | refine Keeps1.eq ?_ (by assumption)
    | refine Keeps2.eq ?_ (by assumption)

theorem State.freeFresh_keeps {r0_ s : State} {f : Nat} (h_ : Keeps r0_ s) : Keeps r0_ (State.freeFresh s f) := by
  unfold State.freeFresh
  with_reducible repeat' first
    | assumption | apply Keeps.ite | apply Keeps.foldl | apply Keeps.getD | apply State.kvpUpdate_keeps
    | apply State.touchHold_keeps | apply State.retireLeft_keeps
    | ((fail_if_no_progress extract_lets +onlyGivenNames x); first | ((first | refine Keeps.cut (t := x) ?_ ?_ | refine Keeps.cutO (o := x) ?_ ?_ | refine Keeps.cutP (o := x) ?_ ?_ | refine Keeps.cut1 (o := x) ?_ ?_ | refine Keeps.cut2 (o := x) ?_ ?_); rotate_left; (clear_value x; intro hx); rotate_left; (try subst x)) | (have _h := Keeps.memv x; clear _h) | (have _h := Keeps.bytesv x; clear _h) | (have _h := Keeps.fn x; clear _h; dsimp only [x]; clear x) | (have _h := Keeps.fn2 x; clear _h; dsimp only [x]; clear x) | clear_value x)
    | (fail_if_no_progress refine Keeps.upd ?_ ⟨rfl, rfl, rfl, rfl, rfl⟩)
    | (fail_if_no_progress ((apply Keeps.of_mk; (focus exact rfl); (focus exact rfl)); (with_unfolding_all focus first | (exact fun w => w) | exact SMap.wf_set _ _ | exact SMap.wf_filter _); (with_unfolding_all focus first | (exact fun w => w) | exact SMap.wf_putBytes _ _ | exact SMap.wf_clearRange _ _ | exact SMap.wf_filter _ | (exact fun w => SMap.wf_foldl_set _ _ _ (SMap.wf_clearRange _ _ w)) | (exact fun _ => SMap.wf_nil' _)); (focus first | exact Nat.le_refl _ | exact Nat.le_succ _ | exact Nat.le_add_right _ _)))
    | apply Keeps.foldl1 | apply Keeps.foldl2 | apply Keeps.ite1 | apply Keeps.ite2
    | refine KeepsP.some_keeps (by assumption) _ _ (by assumption)
    | refine KeepsO.oSome (by assumption) (by assumption) | refine KeepsO.oSome (by assumption) rfl
    | refine KeepsP.some_keeps (by assumption) _ _ rfl | apply KeepsP.map | refine Keeps1.keeps (by assumption)
    | refine Keeps2.keeps (by assumption) | exact KeepsO.none _ | apply KeepsO.some | apply KeepsO.ite
    | apply KeepsO.foldl | exact KeepsP.none _ | apply KeepsP.some | apply KeepsP.ite | apply Keeps1.mk'
    | apply Keeps1.ite | apply Keeps1.foldl | apply Keeps2.mk' | apply Keeps2.ite | apply Keeps2.foldl | intro _ _ _
    | intro _ _ | intro _ | split | (fail_if_no_progress dsimp only) | refine KeepsO.oSome ?_ (by assumption)
    | refine KeepsP.some_keeps ?_ _ _ (by assumption) | refine Keeps1.eq ?_ (by assumption)
    | refine Keeps2.eq ?_ (by assumption)

theorem State.freeScrub_keeps {r0_ s : State} {f : Nat} (h_ : Keeps r0_ s) : Keeps r0_ (State.freeScrub s f) := by
  unfold State.freeScrub
  with_reducible repeat' first
    | assumption | apply Keeps.ite | apply Keeps.foldl | apply Keeps.getD | apply State.retireLeft_keeps
    | ((fail_if_no_progress extract_lets +onlyGivenNames x); first | ((first | refine Keeps.cut (t := x) ?_ ?_ | refine Keeps.cutO (o := x) ?_ ?_ | refine Keeps.cutP (o := x) ?_ ?_ | refine Keeps.cut1 (o := x) ?_ ?_ | refine Keeps.cut2 (o := x) ?_ ?_); rotate_left; (clear_value x; intro hx); rotate_left; (try subst x)) | (have _h := Keeps.memv x; clear _h) | (have _h := Keeps.bytesv x; clear _h) | (have _h := Keeps.fn x; clear _h; dsimp only [x]; clear x) | (have _h := Keeps.fn2 x; clear _h; dsimp only [x]; clear x) | clear_value x)
    | (fail_if_no_progress refine Keeps.upd ?_ ⟨rfl, rfl, rfl, rfl, rfl⟩)
    | (fail_if_no_progress ((apply Keeps.of_mk; (focus exact rfl); (focus exact rfl)); (with_unfolding_all focus first | (exact fun w => w) | exact SMap.wf_set _ _ | exact SMap.wf_filter _); (with_unfolding_all focus first | (exact fun w => w) | exact SMap.wf_putBytes _ _ | exact SMap.wf_clearRange _ _ | exact SMap.wf_filter _ | (exact fun w => SMap.wf_foldl_set _ _ _ (SMap.wf_clearRange _ _ w)) | (exact fun _ => SMap.wf_nil' _)); (focus first | exact Nat.le_refl _ | exact Nat.le_succ _ | exact Nat.le_add_right _ _)))
    | apply Keeps.foldl1 | apply Keeps.foldl2 | apply Keeps.ite1 | apply Keeps.ite2
    | refine KeepsP.some_keeps (by assumption) _ _ (by assumption)
    | refine KeepsO.oSome (by assumption) (by assumption) | refine KeepsO.oSome (by assumption) rfl
    | refine KeepsP.some_keeps (by assumption) _ _ rfl | apply KeepsP.map | refine Keeps1.keeps (by assumption)
    | refine Keeps2.keeps (by assumption) | exact KeepsO.none _ | apply KeepsO.some | apply KeepsO.ite
    | apply KeepsO.foldl | exact KeepsP.none _ | apply KeepsP.some | apply KeepsP.ite | apply Keeps1.mk'
    | apply Keeps1.ite | apply Keeps1.foldl | apply Keeps2.mk' | apply Keeps2.ite | apply Keeps2.foldl | intro _ _ _
    | intro _ _ | intro _ | split | (fail_if_no_progress dsimp only) | refine KeepsO.oSome ?_ (by assumption)
    | refine KeepsP.some_keeps ?_ _ _ (by assumption) | refine Keeps1.eq ?_ (by assumption)
    | refine Keeps2.eq ?_ (by assumption)

theorem State.reuse_keeps {r0_ s : State} {f : Nat} {use : Use} {key : Nat} (h_ : Keeps r0_ s) : Keeps r0_ (State.reuse s f use key) := by
  unfold State.reuse
  with_reducible repeat' first
    | assumption
    | (fail_if_no_progress ((apply Keeps.of_mk; (focus exact rfl); (focus exact rfl)); (with_unfolding_all focus first | (exact fun w => w) | exact SMap.wf_set _ _ | exact SMap.wf_filter _); (with_unfolding_all focus first | (exact fun w => w) | exact SMap.wf_putBytes _ _ | exact SMap.wf_clearRange _ _ | exact SMap.wf_filter _ | (exact fun w => SMap.wf_foldl_set _ _ _ (SMap.wf_clearRange _ _ w)) | (exact fun _ => SMap.wf_nil' _)); (focus first | exact Nat.le_refl _ | exact Nat.le_succ _ | exact Nat.le_add_right _ _)))

theorem State.garble_keeps {r0_ s : State} {k : Nat} (h_ : Keeps r0_ s) : Keeps r0_ (State.garble s k) := by
  unfold State.garble
  with_reducible repeat' first
    | assumption | apply Keeps.ite | apply Keeps.foldl | apply Keeps.getD
    | ((fail_if_no_progress extract_lets +onlyGivenNames x); first | ((first | refine Keeps.cut (t := x) ?_ ?_ | refine Keeps.cutO (o := x) ?_ ?_ | refine Keeps.cutP (o := x) ?_ ?_ | refine Keeps.cut1 (o := x) ?_ ?_ | refine Keeps.cut2 (o := x) ?_ ?_); rotate_left; (clear_value x; intro hx); rotate_left; (try subst x)) | (have _h := Keeps.memv x; clear _h) | (have _h := Keeps.bytesv x; clear _h) | (have _h := Keeps.fn x; clear _h; dsimp only [x]; clear x) | (have _h := Keeps.fn2 x; clear _h; dsimp only [x]; clear x) | clear_value x)
    | (fail_if_no_progress refine Keeps.upd ?_ ⟨rfl, rfl, rfl, rfl, rfl⟩)
    | (fail_if_no_progress ((apply Keeps.of_mk; (focus exact rfl); (focus exact rfl)); (with_unfolding_all focus first | (exact fun w => w) | exact SMap.wf_set _ _ | exact SMap.wf_filter _); (with_unfolding_all focus first | (exact fun w => w) | exact SMap.wf_putBytes _ _ | exact SMap.wf_clearRange _ _ | exact SMap.wf_filter _ | (exact fun w => SMap.wf_foldl_set _ _ _ (SMap.wf_clearRange _ _ w)) | (exact fun _ => SMap.wf_nil' _)); (focus first | exact Nat.le_refl _ | exact Nat.le_succ _ | exact Nat.le_add_right _ _)))
    | apply Keeps.foldl1 | apply Keeps.foldl2 | apply Keeps.ite1 | apply Keeps.ite2
    | refine KeepsP.some_keeps (by assumption) _ _ (by assumption)
    | refine KeepsO.oSome (by assumption) (by assumption) | refine KeepsO.oSome (by assumption) rfl
    | refine KeepsP.some_keeps (by assumption) _ _ rfl | apply KeepsP.map | refine Keeps1.keeps (by assumption)
    | refine Keeps2.keeps (by assumption) | exact KeepsO.none _ | apply KeepsO.some | apply KeepsO.ite
    | apply KeepsO.foldl | exact KeepsP.none _ | apply KeepsP.some | apply KeepsP.ite | apply Keeps1.mk'
    | apply Keeps1.ite | apply Keeps1.foldl | apply Keeps2.mk' | apply Keeps2.ite | apply Keeps2.foldl | intro _ _ _
    | intro _ _ | intro _ | split | (fail_if_no_progress dsimp only) | refine KeepsO.oSome ?_ (by assumption)
    | refine KeepsP.some_keeps ?_ _ _ (by assumption) | refine Keeps1.eq ?_ (by assumption)
    | refine Keeps2.eq ?_ (by assumption)

theorem State.wr_keeps {r0_ s : State} {a : Nat} {bs : List Byte} (h_ : Keeps r0_ s) : Keeps r0_ (State.wr s a bs) := by
  unfold State.wr
  with_reducible repeat' first
    | assumption | apply State.injWrite_keeps
    | (fail_if_no_progress ((apply Keeps.of_mk; (focus exact rfl); (focus exact rfl)); (with_unfolding_all focus first | (exact fun w => w) | exact SMap.wf_set _ _ | exact SMap.wf_filter _); (with_unfolding_all focus first | (exact fun w => w) | exact SMap.wf_putBytes _ _ | exact SMap.wf_clearRange _ _ | exact SMap.wf_filter _ | (exact fun w => SMap.wf_foldl_set _ _ _ (SMap.wf_clearRange _ _ w)) | (exact fun _ => SMap.wf_nil' _)); (focus first | exact Nat.le_refl _ | exact Nat.le_succ _ | exact Nat.le_add_right _ _)))

theorem State.wrNat_keeps {r0_ s : State} {a n v : Nat} (h_ : Keeps r0_ s) : Keeps r0_ (State.wrNat s a n v) := by
  unfold State.wrNat
  with_reducible repeat' first
    | assumption | apply State.wr_keeps

theorem State.takeBlockAt_keepsO {r0_ s : State} {t : Tier} {n : Nat} {pick : Nat → Nat} (h_ : Keeps r0_ s) : KeepsP r0_ (State.takeBlockAt s t n pick) := by
  unfold State.takeBlockAt
  with_reducible repeat' first
    | assumption | exact KeepsP.none _ | apply KeepsP.some | apply KeepsP.ite | apply Keeps.ite | apply Keeps.foldl
    | apply Keeps.getD
    | ((fail_if_no_progress extract_lets +onlyGivenNames x); first | ((first | refine Keeps.cut (t := x) ?_ ?_ | refine KeepsP.cut (t := x) ?_ ?_ | refine Keeps.cutO (o := x) ?_ ?_ | refine Keeps.cutP (o := x) ?_ ?_ | refine Keeps.cut1 (o := x) ?_ ?_ | refine Keeps.cut2 (o := x) ?_ ?_); rotate_left; (clear_value x; intro hx); rotate_left; (try subst x)) | (have _h := Keeps.memv x; clear _h) | (have _h := Keeps.bytesv x; clear _h) | (have _h := Keeps.fn x; clear _h; dsimp only [x]; clear x) | (have _h := Keeps.fn2 x; clear _h; dsimp only [x]; clear x) | clear_value x)
    | (fail_if_no_progress refine Keeps.upd ?_ ⟨rfl, rfl, rfl, rfl, rfl⟩)
    | (fail_if_no_progress ((apply Keeps.of_mk; (focus exact rfl); (focus exact rfl)); (with_unfolding_all focus first | (exact fun w => w) | exact SMap.wf_set _ _ | exact SMap.wf_filter _); (with_unfolding_all focus first | (exact fun w => w) | exact SMap.wf_putBytes _ _ | exact SMap.wf_clearRange _ _ | exact SMap.wf_filter _ | (exact fun w => SMap.wf_foldl_set _ _ _ (SMap.wf_clearRange _ _ w)) | (exact fun _ => SMap.wf_nil' _)); (focus first | exact Nat.le_refl _ | exact Nat.le_succ _ | exact Nat.le_add_right _ _)))
    | apply Keeps.foldl1 | apply Keeps.foldl2 | apply Keeps.ite1 | apply Keeps.ite2
    | refine KeepsP.some_keeps (by assumption) _ _ (by assumption)
    | refine KeepsO.oSome (by assumption) (by assumption) | refine KeepsO.oSome (by assumption) rfl
    | refine KeepsP.some_keeps (by assumption) _ _ rfl | apply KeepsP.map | refine Keeps1.keeps (by assumption)
    | refine Keeps2.keeps (by assumption) | exact KeepsO.none _ | apply KeepsO.some | apply KeepsO.ite
    | apply KeepsO.foldl | apply Keeps1.mk' | apply Keeps1.ite | apply Keeps1.foldl | apply Keeps2.mk'
    | apply Keeps2.ite | apply Keeps2.foldl | intro _ _ _ | intro _ _ | intro _ | split
    | (fail_if_no_progress dsimp only) | refine KeepsO.oSome ?_ (by assumption)
    | refine KeepsP.some_keeps ?_ _ _ (by assumption) | refine Keeps1.eq ?_ (by assumption)
    | refine Keeps2.eq ?_ (by assumption)

theorem State.takeBlock_keepsO {r0_ s : State} {t : Tier} {n : Nat} (h_ : Keeps r0_ s) : KeepsP r0_ (State.takeBlock s t n) := by
  unfold State.takeBlock
  with_reducible repeat' first
    | assumption | exact KeepsP.none _ | apply KeepsP.some | apply KeepsP.ite | apply Keeps.ite | apply Keeps.foldl
    | apply Keeps.getD | apply State.chosen_keeps | apply State.takeBlockAt_keepsO
    | refine (State.takeBlockAt_keepsO ?_).some_keeps _ _ (by assumption)
    | ((fail_if_no_progress extract_lets +onlyGivenNames x); first | ((first | refine Keeps.cut (t := x) ?_ ?_ | refine KeepsP.cut (t := x) ?_ ?_ | refine Keeps.cutO (o := x) ?_ ?_ | refine Keeps.cutP (o := x) ?_ ?_ | refine Keeps.cut1 (o := x) ?_ ?_ | refine Keeps.cut2 (o := x) ?_ ?_); rotate_left; (clear_value x; intro hx); rotate_left; (try subst x)) | (have _h := Keeps.memv x; clear _h) | (have _h := Keeps.bytesv x; clear _h) | (have _h := Keeps.fn x; clear _h; dsimp only [x]; clear x) | (have _h := Keeps.fn2 x; clear _h; dsimp only [x]; clear x) | clear_value x)
    | (fail_if_no_progress refine Keeps.upd ?_ ⟨rfl, rfl, rfl, rfl, rfl⟩)
    | (fail_if_no_progress ((apply Keeps.of_mk; (focus exact rfl); (focus exact rfl)); (with_unfolding_all focus first | (exact fun w => w) | exact SMap.wf_set _ _ | exact SMap.wf_filter _); (with_unfolding_all focus first | (exact fun w => w) | exact SMap.wf_putBytes _ _ | exact SMap.wf_clearRange _ _ | exact SMap.wf_filter _ | (exact fun w => SMap.wf_foldl_set _ _ _ (SMap.wf_clearRange _ _ w)) | (exact fun _ => SMap.wf_nil' _)); (focus first | exact Nat.le_refl _ | exact Nat.le_succ _ | exact Nat.le_add_right _ _)))
    | apply Keeps.foldl1 | apply Keeps.foldl2 | apply Keeps.ite1 | apply Keeps.ite2
    | refine KeepsP.some_keeps (by assumption) _ _ (by assumption)
    | refine KeepsO.oSome (by assumption) (by assumption) | refine KeepsO.oSome (by assumption) rfl
    | refine KeepsP.some_keeps (by assumption) _ _ rfl | apply KeepsP.map | refine Keeps1.keeps (by assumption)
    | refine Keeps2.keeps (by assumption) | exact KeepsO.none _ | apply KeepsO.some | apply KeepsO.ite
    | apply KeepsO.foldl | apply Keeps1.mk' | apply Keeps1.ite | apply Keeps1.foldl | apply Keeps2.mk'
    | apply Keeps2.ite | apply Keeps2.foldl | intro _ _ _ | intro _ _ | intro _ | split
    | (fail_if_no_progress dsimp only) | refine KeepsO.oSome ?_ (by assumption)
    | refine KeepsP.some_keeps ?_ _ _ (by assumption) | refine Keeps1.eq ?_ (by assumption)
    | refine Keeps2.eq ?_ (by assumption)

theorem State.takeEntry_keepsO {r0_ s : State}  (h_ : Keeps r0_ s) : KeepsP r0_ (State.takeEntry s) := by
  unfold State.takeEntry
  with_reducible repeat' first
    | assumption | exact KeepsP.none _ | apply KeepsP.some | apply KeepsP.ite | apply Keeps.ite | apply Keeps.foldl
    | apply Keeps.getD | apply State.takeBlockAt_keepsO
    | refine (State.takeBlockAt_keepsO ?_).some_keeps _ _ (by assumption)
    | ((fail_if_no_progress extract_lets +onlyGivenNames x); first | ((first | refine Keeps.cut (t := x) ?_ ?_ | refine KeepsP.cut (t := x) ?_ ?_ | refine Keeps.cutO (o := x) ?_ ?_ | refine Keeps.cutP (o := x) ?_ ?_ | refine Keeps.cut1 (o := x) ?_ ?_ | refine Keeps.cut2 (o := x) ?_ ?_); rotate_left; (clear_value x; intro hx); rotate_left; (try subst x)) | (have _h := Keeps.memv x; clear _h) | (have _h := Keeps.bytesv x; clear _h) | (have _h := Keeps.fn x; clear _h; dsimp only [x]; clear x) | (have _h := Keeps.fn2 x; clear _h; dsimp only [x]; clear x) | clear_value x)
    | (fail_if_no_progress refine Keeps.upd ?_ ⟨rfl, rfl, rfl, rfl, rfl⟩)
    | (fail_if_no_progress ((apply Keeps.of_mk; (focus exact rfl); (focus exact rfl)); (with_unfolding_all focus first | (exact fun w => w) | exact SMap.wf_set _ _ | exact SMap.wf_filter _); (with_unfolding_all focus first | (exact fun w => w) | exact SMap.wf_putBytes _ _ | exact SMap.wf_clearRange _ _ | exact SMap.wf_filter _ | (exact fun w => SMap.wf_foldl_set _ _ _ (SMap.wf_clearRange _ _ w)) | (exact fun _ => SMap.wf_nil' _)); (focus first | exact Nat.le_refl _ | exact Nat.le_succ _ | exact Nat.le_add_right _ _)))
    | apply Keeps.foldl1 | apply Keeps.foldl2 | apply Keeps.ite1 | apply Keeps.ite2
    | refine KeepsP.some_keeps (by assumption) _ _ (by assumption)
    | refine KeepsO.oSome (by assumption) (by assumption) | refine KeepsO.oSome (by assumption) rfl
    | refine KeepsP.some_keeps (by assumption) _ _ rfl | apply KeepsP.map | refine Keeps1.keeps (by assumption)
    | refine Keeps2.keeps (by assumption) | exact KeepsO.none _ | apply KeepsO.some | apply KeepsO.ite
    | apply KeepsO.foldl | apply Keeps1.mk' | apply Keeps1.ite | apply Keeps1.foldl | apply Keeps2.mk'
    | apply Keeps2.ite | apply Keeps2.foldl | intro _ _ _ | intro _ _ | intro _ | split
    | (fail_if_no_progress dsimp only) | refine KeepsO.oSome ?_ (by assumption)
    | refine KeepsP.some_keeps ?_ _ _ (by assumption) | refine Keeps1.eq ?_ (by assumption)
    | refine Keeps2.eq ?_ (by assumption)

theorem State.dropBlock_keeps {r0_ s : State} {a : Nat} (h_ : Keeps r0_ s) : Keeps r0_ (State.dropBlock s a) := by
  unfold State.dropBlock
  with_reducible repeat' first
    | assumption
    | (fail_if_no_progress ((apply Keeps.of_mk; (focus exact rfl); (focus exact rfl)); (with_unfolding_all focus first | (exact fun w => w) | exact SMap.wf_set _ _ | exact SMap.wf_filter _); (with_unfolding_all focus first | (exact fun w => w) | exact SMap.wf_putBytes _ _ | exact SMap.wf_clearRange _ _ | exact SMap.wf_filter _ | (exact fun w => SMap.wf_foldl_set _ _ _ (SMap.wf_clearRange _ _ w)) | (exact fun _ => SMap.wf_nil' _)); (focus first | exact Nat.le_refl _ | exact Nat.le_succ _ | exact Nat.le_add_right _ _)))
    | split

/-! ### Records -/

theorem State.setEq_keeps {r0_ s : State} {q : Nat} {x : EqSt} (h_ : Keeps r0_ s) : Keeps r0_ (State.setEq s q x) := by
  unfold State.setEq
  with_reducible repeat' first
    | assumption | (fail_if_no_progress refine Keeps.upd ?_ ⟨rfl, rfl, rfl, rfl, rfl⟩)

theorem State.moderate_keeps {r0_ s : State} {q : Nat} {completion : Bool} (h_ : Keeps r0_ s) : Keeps r0_ (State.moderate s q completion) := by
  unfold State.moderate
  with_reducible repeat' first
    | assumption | apply Keeps.ite | apply State.signal_keeps | apply State.setEq_keeps

theorem State.eqSlot_keeps22 {r0_ s : State} {q : Nat} (h_ : Keeps r0_ s) : Keeps r0_ (s.eqSlot q).2.2 := by
  unfold State.eqSlot
  exact State.setEq_keeps (State.setFld_keeps h_)

theorem State.setReq_keeps {r0_ s : State} {r : Req} (h_ : Keeps r0_ s) : Keeps r0_ (State.setReq s r) := by
  unfold State.setReq
  with_reducible repeat' first
    | assumption | (fail_if_no_progress refine Keeps.upd ?_ ⟨rfl, rfl, rfl, rfl, rfl⟩)

theorem State.dropDesc_keeps {r0_ s : State} {n : Nat} (h_ : Keeps r0_ s) : Keeps r0_ (State.dropDesc s n) := by
  unfold State.dropDesc
  with_reducible repeat' first
    | assumption | (fail_if_no_progress refine Keeps.upd ?_ ⟨rfl, rfl, rfl, rfl, rfl⟩)

theorem State.putRec_keeps {r0_ s : State} {p e : Nat} {r : EqRec} (h_ : Keeps r0_ s) : Keeps r0_ (State.putRec s p e r) := by
  unfold State.putRec
  with_reducible repeat' first
    | assumption | apply State.emit_keeps | apply State.moderate_keeps | apply State.eqSlot_keeps22
    | apply State.dropDesc_keeps | split

theorem State.postOn_keeps {r0_ s : State} {p e : Nat} {r : EqRec} (h_ : Keeps r0_ s) : Keeps r0_ (State.postOn s p e r) := by
  unfold State.postOn
  with_reducible repeat' first
    | assumption | apply Keeps.ite | apply State.setEq_keeps | apply State.putRec_keeps

theorem State.post_keeps {r0_ s : State} {p : Nat} {r : EqRec} (h_ : Keeps r0_ s) : Keeps r0_ (State.post s p r) := by
  unfold State.post
  with_reducible repeat' first
    | assumption | apply State.postOn_keeps

theorem State.flushEq_keeps {r0_ s : State} {p e : Nat} {n_ : Nat} (h_ : Keeps r0_ s) : Keeps r0_ (State.flushEq s p e n_) := by
  induction n_ generalizing s p e with
  | zero =>
    unfold State.flushEq
    with_reducible repeat' first
      | assumption | apply State.setEq_keeps | apply State.putRec_keeps | apply ih
      | ((fail_if_no_progress extract_lets +onlyGivenNames x); first | ((refine Keeps.cut (t := x) ?_ ?_); rotate_left; (clear_value x; intro hx); rotate_left; (try subst x)) | clear_value x)
      | split
  | succ n ih =>
    unfold State.flushEq
    with_reducible repeat' first
      | assumption | apply State.setEq_keeps | apply State.putRec_keeps | apply ih
      | ((fail_if_no_progress extract_lets +onlyGivenNames x); first | ((refine Keeps.cut (t := x) ?_ ?_); rotate_left; (clear_value x; intro hx); rotate_left; (try subst x)) | clear_value x)
      | split

theorem State.fetch_keeps {r0_ s : State} {p sq : Nat} {tag : BitVec 64} {k : DescKind} (h_ : Keeps r0_ s) : Keeps r0_ (State.fetch s p sq tag k) := by
  unfold State.fetch
  with_reducible repeat' first
    | assumption | (fail_if_no_progress refine Keeps.upd ?_ ⟨rfl, rfl, rfl, rfl, rfl⟩)

theorem State.complete_keeps {r0_ s : State} {p n : Nat} {r : EqRec} (h_ : Keeps r0_ s) : Keeps r0_ (State.complete s p n r) := by
  unfold State.complete
  with_reducible repeat' first
    | assumption | apply State.post_keeps | (fail_if_no_progress refine Keeps.upd ?_ ⟨rfl, rfl, rfl, rfl, rfl⟩)

theorem State.settleCancels_keeps {r0_ s : State} {p : Nat} (h_ : Keeps r0_ s) : Keeps r0_ (State.settleCancels s p) := by
  unfold State.settleCancels
  with_reducible repeat' first
    | assumption | apply Keeps.ite | apply Keeps.foldl | apply Keeps.getD | apply State.complete_keeps
    | ((fail_if_no_progress extract_lets +onlyGivenNames x); first | ((first | refine Keeps.cut (t := x) ?_ ?_ | refine Keeps.cutO (o := x) ?_ ?_ | refine Keeps.cutP (o := x) ?_ ?_ | refine Keeps.cut1 (o := x) ?_ ?_ | refine Keeps.cut2 (o := x) ?_ ?_); rotate_left; (clear_value x; intro hx); rotate_left; (try subst x)) | (have _h := Keeps.memv x; clear _h) | (have _h := Keeps.bytesv x; clear _h) | (have _h := Keeps.fn x; clear _h; dsimp only [x]; clear x) | (have _h := Keeps.fn2 x; clear _h; dsimp only [x]; clear x) | clear_value x)
    | (fail_if_no_progress refine Keeps.upd ?_ ⟨rfl, rfl, rfl, rfl, rfl⟩)
    | (fail_if_no_progress ((apply Keeps.of_mk; (focus exact rfl); (focus exact rfl)); (with_unfolding_all focus first | (exact fun w => w) | exact SMap.wf_set _ _ | exact SMap.wf_filter _); (with_unfolding_all focus first | (exact fun w => w) | exact SMap.wf_putBytes _ _ | exact SMap.wf_clearRange _ _ | exact SMap.wf_filter _ | (exact fun w => SMap.wf_foldl_set _ _ _ (SMap.wf_clearRange _ _ w)) | (exact fun _ => SMap.wf_nil' _)); (focus first | exact Nat.le_refl _ | exact Nat.le_succ _ | exact Nat.le_add_right _ _)))
    | apply Keeps.foldl1 | apply Keeps.foldl2 | apply Keeps.ite1 | apply Keeps.ite2
    | refine KeepsP.some_keeps (by assumption) _ _ (by assumption)
    | refine KeepsO.oSome (by assumption) (by assumption) | refine KeepsO.oSome (by assumption) rfl
    | refine KeepsP.some_keeps (by assumption) _ _ rfl | apply KeepsP.map | refine Keeps1.keeps (by assumption)
    | refine Keeps2.keeps (by assumption) | exact KeepsO.none _ | apply KeepsO.some | apply KeepsO.ite
    | apply KeepsO.foldl | exact KeepsP.none _ | apply KeepsP.some | apply KeepsP.ite | apply Keeps1.mk'
    | apply Keeps1.ite | apply Keeps1.foldl | apply Keeps2.mk' | apply Keeps2.ite | apply Keeps2.foldl | intro _ _ _
    | intro _ _ | intro _ | split | (fail_if_no_progress dsimp only) | refine KeepsO.oSome ?_ (by assumption)
    | refine KeepsP.some_keeps ?_ _ _ (by assumption) | refine Keeps1.eq ?_ (by assumption)
    | refine Keeps2.eq ?_ (by assumption)

theorem State.flush_keeps {r0_ s : State} {p e : Nat} (h_ : Keeps r0_ s) : Keeps r0_ (State.flush s p e) := by
  unfold State.flush
  with_reducible repeat' first
    | assumption | apply Keeps.ite | apply Keeps.foldl | apply Keeps.getD | apply State.flushEq_keeps
    | apply State.settleCancels_keeps
    | ((fail_if_no_progress extract_lets +onlyGivenNames x); first | ((first | refine Keeps.cut (t := x) ?_ ?_ | refine Keeps.cutO (o := x) ?_ ?_ | refine Keeps.cutP (o := x) ?_ ?_ | refine Keeps.cut1 (o := x) ?_ ?_ | refine Keeps.cut2 (o := x) ?_ ?_); rotate_left; (clear_value x; intro hx); rotate_left; (try subst x)) | (have _h := Keeps.memv x; clear _h) | (have _h := Keeps.bytesv x; clear _h) | (have _h := Keeps.fn x; clear _h; dsimp only [x]; clear x) | (have _h := Keeps.fn2 x; clear _h; dsimp only [x]; clear x) | clear_value x)
    | (fail_if_no_progress refine Keeps.upd ?_ ⟨rfl, rfl, rfl, rfl, rfl⟩)
    | (fail_if_no_progress ((apply Keeps.of_mk; (focus exact rfl); (focus exact rfl)); (with_unfolding_all focus first | (exact fun w => w) | exact SMap.wf_set _ _ | exact SMap.wf_filter _); (with_unfolding_all focus first | (exact fun w => w) | exact SMap.wf_putBytes _ _ | exact SMap.wf_clearRange _ _ | exact SMap.wf_filter _ | (exact fun w => SMap.wf_foldl_set _ _ _ (SMap.wf_clearRange _ _ w)) | (exact fun _ => SMap.wf_nil' _)); (focus first | exact Nat.le_refl _ | exact Nat.le_succ _ | exact Nat.le_add_right _ _)))
    | apply Keeps.foldl1 | apply Keeps.foldl2 | apply Keeps.ite1 | apply Keeps.ite2
    | refine KeepsP.some_keeps (by assumption) _ _ (by assumption)
    | refine KeepsO.oSome (by assumption) (by assumption) | refine KeepsO.oSome (by assumption) rfl
    | refine KeepsP.some_keeps (by assumption) _ _ rfl | apply KeepsP.map | refine Keeps1.keeps (by assumption)
    | refine Keeps2.keeps (by assumption) | exact KeepsO.none _ | apply KeepsO.some | apply KeepsO.ite
    | apply KeepsO.foldl | exact KeepsP.none _ | apply KeepsP.some | apply KeepsP.ite | apply Keeps1.mk'
    | apply Keeps1.ite | apply Keeps1.foldl | apply Keeps2.mk' | apply Keeps2.ite | apply Keeps2.foldl | intro _ _ _
    | intro _ _ | intro _ | split | (fail_if_no_progress dsimp only) | refine KeepsO.oSome ?_ (by assumption)
    | refine KeepsP.some_keeps ?_ _ _ (by assumption) | refine Keeps1.eq ?_ (by assumption)
    | refine Keeps2.eq ?_ (by assumption)

theorem State.refuse_keeps {r0_ s : State} {p sq : Nat} {tag : BitVec 64} {status detail : Nat} (h_ : Keeps r0_ s) : Keeps r0_ (State.refuse s p sq tag status detail) := by
  unfold State.refuse
  with_reducible repeat' first
    | assumption | apply State.complete_keeps

theorem State.notice_keeps {r0_ s : State} {r : Req} {status detail a : Nat} (h_ : Keeps r0_ s) : Keeps r0_ (State.notice s r status detail a) := by
  unfold State.notice
  with_reducible repeat' first
    | assumption | apply State.post_keeps

/-! ### Pages -/

theorem State.setPte_keeps {r0_ s : State} {a : Nat} {e : Pte} (h_ : Keeps r0_ s) : Keeps r0_ (State.setPte s a e) := by
  unfold State.setPte
  with_reducible repeat' first
    | assumption | apply State.wrNat_keeps

theorem State.setShard_keeps {r0_ s : State} {h : Shard} (h_ : Keeps r0_ s) : Keeps r0_ (State.setShard s h) := by
  unfold State.setShard
  with_reducible repeat' first
    | assumption | (fail_if_no_progress refine Keeps.upd ?_ ⟨rfl, rfl, rfl, rfl, rfl⟩)

theorem State.dropKeys_keeps {r0_ s : State}  (h_ : Keeps r0_ s) : Keeps r0_ (State.dropKeys s) := by
  unfold State.dropKeys
  with_reducible repeat' first
    | assumption | apply Keeps.ite | apply Keeps.foldl | apply Keeps.getD | apply State.garble_keeps
    | ((fail_if_no_progress extract_lets +onlyGivenNames x); first | ((first | refine Keeps.cut (t := x) ?_ ?_ | refine Keeps.cutO (o := x) ?_ ?_ | refine Keeps.cutP (o := x) ?_ ?_ | refine Keeps.cut1 (o := x) ?_ ?_ | refine Keeps.cut2 (o := x) ?_ ?_); rotate_left; (clear_value x; intro hx); rotate_left; (try subst x)) | (have _h := Keeps.memv x; clear _h) | (have _h := Keeps.bytesv x; clear _h) | (have _h := Keeps.fn x; clear _h; dsimp only [x]; clear x) | (have _h := Keeps.fn2 x; clear _h; dsimp only [x]; clear x) | clear_value x)
    | (fail_if_no_progress refine Keeps.upd ?_ ⟨rfl, rfl, rfl, rfl, rfl⟩)
    | (fail_if_no_progress ((apply Keeps.of_mk; (focus exact rfl); (focus exact rfl)); (with_unfolding_all focus first | (exact fun w => w) | exact SMap.wf_set _ _ | exact SMap.wf_filter _); (with_unfolding_all focus first | (exact fun w => w) | exact SMap.wf_putBytes _ _ | exact SMap.wf_clearRange _ _ | exact SMap.wf_filter _ | (exact fun w => SMap.wf_foldl_set _ _ _ (SMap.wf_clearRange _ _ w)) | (exact fun _ => SMap.wf_nil' _)); (focus first | exact Nat.le_refl _ | exact Nat.le_succ _ | exact Nat.le_add_right _ _)))
    | apply Keeps.foldl1 | apply Keeps.foldl2 | apply Keeps.ite1 | apply Keeps.ite2
    | refine KeepsP.some_keeps (by assumption) _ _ (by assumption)
    | refine KeepsO.oSome (by assumption) (by assumption) | refine KeepsO.oSome (by assumption) rfl
    | refine KeepsP.some_keeps (by assumption) _ _ rfl | apply KeepsP.map | refine Keeps1.keeps (by assumption)
    | refine Keeps2.keeps (by assumption) | exact KeepsO.none _ | apply KeepsO.some | apply KeepsO.ite
    | apply KeepsO.foldl | exact KeepsP.none _ | apply KeepsP.some | apply KeepsP.ite | apply Keeps1.mk'
    | apply Keeps1.ite | apply Keeps1.foldl | apply Keeps2.mk' | apply Keeps2.ite | apply Keeps2.foldl | intro _ _ _
    | intro _ _ | intro _ | split | (fail_if_no_progress dsimp only) | refine KeepsO.oSome ?_ (by assumption)
    | refine KeepsP.some_keeps ?_ _ _ (by assumption) | refine Keeps1.eq ?_ (by assumption)
    | refine Keeps2.eq ?_ (by assumption)

theorem State.needKey_keepsO {r0_ s : State}  {n_ : Scope} (h_ : Keeps r0_ s) : KeepsO r0_ (State.needKey s n_) := by
  cases n_ <;> unfold State.needKey
  all_goals
    with_reducible repeat' first
      | assumption | exact KeepsO.none _ | apply KeepsO.some | apply State.inc_keeps
      | (fail_if_no_progress refine Keeps.upd ?_ ⟨rfl, rfl, rfl, rfl, rfl⟩) | split

theorem State.endBurst_keeps {r0_ s : State} {home : BurstHome} {tag : BitVec 64} {status moved : Nat} (h_ : Keeps r0_ s) : Keeps r0_ (State.endBurst s home tag status moved) := by
  unfold State.endBurst
  with_reducible repeat' first
    | assumption | apply Keeps.ite | apply Keeps.foldl | apply Keeps.getD | apply State.emit_keeps
    | apply State.inc_keeps | apply State.wr_keeps
    | ((fail_if_no_progress extract_lets +onlyGivenNames x); first | ((first | refine Keeps.cut (t := x) ?_ ?_ | refine Keeps.cutO (o := x) ?_ ?_ | refine Keeps.cutP (o := x) ?_ ?_ | refine Keeps.cut1 (o := x) ?_ ?_ | refine Keeps.cut2 (o := x) ?_ ?_); rotate_left; (clear_value x; intro hx); rotate_left; (try subst x)) | (have _h := Keeps.memv x; clear _h) | (have _h := Keeps.bytesv x; clear _h) | (have _h := Keeps.fn x; clear _h; dsimp only [x]; clear x) | (have _h := Keeps.fn2 x; clear _h; dsimp only [x]; clear x) | clear_value x)
    | (fail_if_no_progress refine Keeps.upd ?_ ⟨rfl, rfl, rfl, rfl, rfl⟩)
    | (fail_if_no_progress ((apply Keeps.of_mk; (focus exact rfl); (focus exact rfl)); (with_unfolding_all focus first | (exact fun w => w) | exact SMap.wf_set _ _ | exact SMap.wf_filter _); (with_unfolding_all focus first | (exact fun w => w) | exact SMap.wf_putBytes _ _ | exact SMap.wf_clearRange _ _ | exact SMap.wf_filter _ | (exact fun w => SMap.wf_foldl_set _ _ _ (SMap.wf_clearRange _ _ w)) | (exact fun _ => SMap.wf_nil' _)); (focus first | exact Nat.le_refl _ | exact Nat.le_succ _ | exact Nat.le_add_right _ _)))
    | apply Keeps.foldl1 | apply Keeps.foldl2 | apply Keeps.ite1 | apply Keeps.ite2
    | refine KeepsP.some_keeps (by assumption) _ _ (by assumption)
    | refine KeepsO.oSome (by assumption) (by assumption) | refine KeepsO.oSome (by assumption) rfl
    | refine KeepsP.some_keeps (by assumption) _ _ rfl | apply KeepsP.map | refine Keeps1.keeps (by assumption)
    | refine Keeps2.keeps (by assumption) | exact KeepsO.none _ | apply KeepsO.some | apply KeepsO.ite
    | apply KeepsO.foldl | exact KeepsP.none _ | apply KeepsP.some | apply KeepsP.ite | apply Keeps1.mk'
    | apply Keeps1.ite | apply Keeps1.foldl | apply Keeps2.mk' | apply Keeps2.ite | apply Keeps2.foldl | intro _ _ _
    | intro _ _ | intro _ | split | (fail_if_no_progress dsimp only) | refine KeepsO.oSome ?_ (by assumption)
    | refine KeepsP.some_keeps ?_ _ _ (by assumption) | refine Keeps1.eq ?_ (by assumption)
    | refine Keeps2.eq ?_ (by assumption)

theorem State.finishBursts_keeps {r0_ s : State}  (h_ : Keeps r0_ s) : Keeps r0_ (State.finishBursts s) := by
  unfold State.finishBursts
  with_reducible repeat' first
    | assumption | apply Keeps.ite | apply Keeps.foldl | apply Keeps.getD | apply State.endBurst_keeps
    | ((fail_if_no_progress extract_lets +onlyGivenNames x); first | ((first | refine Keeps.cut (t := x) ?_ ?_ | refine Keeps.cutO (o := x) ?_ ?_ | refine Keeps.cutP (o := x) ?_ ?_ | refine Keeps.cut1 (o := x) ?_ ?_ | refine Keeps.cut2 (o := x) ?_ ?_); rotate_left; (clear_value x; intro hx); rotate_left; (try subst x)) | (have _h := Keeps.memv x; clear _h) | (have _h := Keeps.bytesv x; clear _h) | (have _h := Keeps.fn x; clear _h; dsimp only [x]; clear x) | (have _h := Keeps.fn2 x; clear _h; dsimp only [x]; clear x) | clear_value x)
    | (fail_if_no_progress refine Keeps.upd ?_ ⟨rfl, rfl, rfl, rfl, rfl⟩)
    | (fail_if_no_progress ((apply Keeps.of_mk; (focus exact rfl); (focus exact rfl)); (with_unfolding_all focus first | (exact fun w => w) | exact SMap.wf_set _ _ | exact SMap.wf_filter _); (with_unfolding_all focus first | (exact fun w => w) | exact SMap.wf_putBytes _ _ | exact SMap.wf_clearRange _ _ | exact SMap.wf_filter _ | (exact fun w => SMap.wf_foldl_set _ _ _ (SMap.wf_clearRange _ _ w)) | (exact fun _ => SMap.wf_nil' _)); (focus first | exact Nat.le_refl _ | exact Nat.le_succ _ | exact Nat.le_add_right _ _)))
    | apply Keeps.foldl1 | apply Keeps.foldl2 | apply Keeps.ite1 | apply Keeps.ite2
    | refine KeepsP.some_keeps (by assumption) _ _ (by assumption)
    | refine KeepsO.oSome (by assumption) (by assumption) | refine KeepsO.oSome (by assumption) rfl
    | refine KeepsP.some_keeps (by assumption) _ _ rfl | apply KeepsP.map | refine Keeps1.keeps (by assumption)
    | refine Keeps2.keeps (by assumption) | exact KeepsO.none _ | apply KeepsO.some | apply KeepsO.ite
    | apply KeepsO.foldl | exact KeepsP.none _ | apply KeepsP.some | apply KeepsP.ite | apply Keeps1.mk'
    | apply Keeps1.ite | apply Keeps1.foldl | apply Keeps2.mk' | apply Keeps2.ite | apply Keeps2.foldl | intro _ _ _
    | intro _ _ | intro _ | split | (fail_if_no_progress dsimp only) | refine KeepsO.oSome ?_ (by assumption)
    | refine KeepsP.some_keeps ?_ _ _ (by assumption) | refine Keeps1.eq ?_ (by assumption)
    | refine Keeps2.eq ?_ (by assumption)

theorem State.abortWhere_keeps {r0_ s : State} {test : Burst → Move → Bool} {freed : Bool} (h_ : Keeps r0_ s) : Keeps r0_ (State.abortWhere s test freed) := by
  unfold State.abortWhere
  with_reducible repeat' first
    | assumption | apply Keeps.ite | apply Keeps.foldl | apply Keeps.getD | apply State.freeScrub_keeps
    | apply State.finishBursts_keeps
    | ((fail_if_no_progress extract_lets +onlyGivenNames x); first | ((first | refine Keeps.cut (t := x) ?_ ?_ | refine Keeps.cutO (o := x) ?_ ?_ | refine Keeps.cutP (o := x) ?_ ?_ | refine Keeps.cut1 (o := x) ?_ ?_ | refine Keeps.cut2 (o := x) ?_ ?_); rotate_left; (clear_value x; intro hx); rotate_left; (try subst x)) | (have _h := Keeps.memv x; clear _h) | (have _h := Keeps.bytesv x; clear _h) | (have _h := Keeps.fn x; clear _h; dsimp only [x]; clear x) | (have _h := Keeps.fn2 x; clear _h; dsimp only [x]; clear x) | clear_value x)
    | (fail_if_no_progress refine Keeps.upd ?_ ⟨rfl, rfl, rfl, rfl, rfl⟩)
    | (fail_if_no_progress ((apply Keeps.of_mk; (focus exact rfl); (focus exact rfl)); (with_unfolding_all focus first | (exact fun w => w) | exact SMap.wf_set _ _ | exact SMap.wf_filter _); (with_unfolding_all focus first | (exact fun w => w) | exact SMap.wf_putBytes _ _ | exact SMap.wf_clearRange _ _ | exact SMap.wf_filter _ | (exact fun w => SMap.wf_foldl_set _ _ _ (SMap.wf_clearRange _ _ w)) | (exact fun _ => SMap.wf_nil' _)); (focus first | exact Nat.le_refl _ | exact Nat.le_succ _ | exact Nat.le_add_right _ _)))
    | apply Keeps.foldl1 | apply Keeps.foldl2 | apply Keeps.ite1 | apply Keeps.ite2
    | refine KeepsP.some_keeps (by assumption) _ _ (by assumption)
    | refine KeepsO.oSome (by assumption) (by assumption) | refine KeepsO.oSome (by assumption) rfl
    | refine KeepsP.some_keeps (by assumption) _ _ rfl | apply KeepsP.map | refine Keeps1.keeps (by assumption)
    | refine Keeps2.keeps (by assumption) | exact KeepsO.none _ | apply KeepsO.some | apply KeepsO.ite
    | apply KeepsO.foldl | exact KeepsP.none _ | apply KeepsP.some | apply KeepsP.ite | apply Keeps1.mk'
    | apply Keeps1.ite | apply Keeps1.foldl | apply Keeps2.mk' | apply Keeps2.ite | apply Keeps2.foldl | intro _ _ _
    | intro _ _ | intro _ | split | (fail_if_no_progress dsimp only) | refine KeepsO.oSome ?_ (by assumption)
    | refine KeepsP.some_keeps ?_ _ _ (by assumption) | refine Keeps1.eq ?_ (by assumption)
    | refine Keeps2.eq ?_ (by assumption)

theorem State.abortMoves_keeps {r0_ s : State} {f : Nat} (h_ : Keeps r0_ s) : Keeps r0_ (State.abortMoves s f) := by
  unfold State.abortMoves
  with_reducible repeat' first
    | assumption | apply Keeps.ite | apply Keeps.foldl | apply Keeps.getD | apply State.abortWhere_keeps
    | ((fail_if_no_progress extract_lets +onlyGivenNames x); first | ((first | refine Keeps.cut (t := x) ?_ ?_ | refine Keeps.cutO (o := x) ?_ ?_ | refine Keeps.cutP (o := x) ?_ ?_ | refine Keeps.cut1 (o := x) ?_ ?_ | refine Keeps.cut2 (o := x) ?_ ?_); rotate_left; (clear_value x; intro hx); rotate_left; (try subst x)) | (have _h := Keeps.memv x; clear _h) | (have _h := Keeps.bytesv x; clear _h) | (have _h := Keeps.fn x; clear _h; dsimp only [x]; clear x) | (have _h := Keeps.fn2 x; clear _h; dsimp only [x]; clear x) | clear_value x)
    | (fail_if_no_progress refine Keeps.upd ?_ ⟨rfl, rfl, rfl, rfl, rfl⟩)
    | (fail_if_no_progress ((apply Keeps.of_mk; (focus exact rfl); (focus exact rfl)); (with_unfolding_all focus first | (exact fun w => w) | exact SMap.wf_set _ _ | exact SMap.wf_filter _); (with_unfolding_all focus first | (exact fun w => w) | exact SMap.wf_putBytes _ _ | exact SMap.wf_clearRange _ _ | exact SMap.wf_filter _ | (exact fun w => SMap.wf_foldl_set _ _ _ (SMap.wf_clearRange _ _ w)) | (exact fun _ => SMap.wf_nil' _)); (focus first | exact Nat.le_refl _ | exact Nat.le_succ _ | exact Nat.le_add_right _ _)))
    | apply Keeps.foldl1 | apply Keeps.foldl2 | apply Keeps.ite1 | apply Keeps.ite2
    | refine KeepsP.some_keeps (by assumption) _ _ (by assumption)
    | refine KeepsO.oSome (by assumption) (by assumption) | refine KeepsO.oSome (by assumption) rfl
    | refine KeepsP.some_keeps (by assumption) _ _ rfl | apply KeepsP.map | refine Keeps1.keeps (by assumption)
    | refine Keeps2.keeps (by assumption) | exact KeepsO.none _ | apply KeepsO.some | apply KeepsO.ite
    | apply KeepsO.foldl | exact KeepsP.none _ | apply KeepsP.some | apply KeepsP.ite | apply Keeps1.mk'
    | apply Keeps1.ite | apply Keeps1.foldl | apply Keeps2.mk' | apply Keeps2.ite | apply Keeps2.foldl | intro _ _ _
    | intro _ _ | intro _ | split | (fail_if_no_progress dsimp only) | refine KeepsO.oSome ?_ (by assumption)
    | refine KeepsP.some_keeps ?_ _ _ (by assumption) | refine Keeps1.eq ?_ (by assumption)
    | refine Keeps2.eq ?_ (by assumption)

theorem State.freeMoves_keeps {r0_ s : State} {f : Nat} (h_ : Keeps r0_ s) : Keeps r0_ (State.freeMoves s f) := by
  unfold State.freeMoves
  with_reducible repeat' first
    | assumption | apply Keeps.ite | apply Keeps.foldl | apply Keeps.getD | apply State.abortWhere_keeps
    | ((fail_if_no_progress extract_lets +onlyGivenNames x); first | ((first | refine Keeps.cut (t := x) ?_ ?_ | refine Keeps.cutO (o := x) ?_ ?_ | refine Keeps.cutP (o := x) ?_ ?_ | refine Keeps.cut1 (o := x) ?_ ?_ | refine Keeps.cut2 (o := x) ?_ ?_); rotate_left; (clear_value x; intro hx); rotate_left; (try subst x)) | (have _h := Keeps.memv x; clear _h) | (have _h := Keeps.bytesv x; clear _h) | (have _h := Keeps.fn x; clear _h; dsimp only [x]; clear x) | (have _h := Keeps.fn2 x; clear _h; dsimp only [x]; clear x) | clear_value x)
    | (fail_if_no_progress refine Keeps.upd ?_ ⟨rfl, rfl, rfl, rfl, rfl⟩)
    | (fail_if_no_progress ((apply Keeps.of_mk; (focus exact rfl); (focus exact rfl)); (with_unfolding_all focus first | (exact fun w => w) | exact SMap.wf_set _ _ | exact SMap.wf_filter _); (with_unfolding_all focus first | (exact fun w => w) | exact SMap.wf_putBytes _ _ | exact SMap.wf_clearRange _ _ | exact SMap.wf_filter _ | (exact fun w => SMap.wf_foldl_set _ _ _ (SMap.wf_clearRange _ _ w)) | (exact fun _ => SMap.wf_nil' _)); (focus first | exact Nat.le_refl _ | exact Nat.le_succ _ | exact Nat.le_add_right _ _)))
    | apply Keeps.foldl1 | apply Keeps.foldl2 | apply Keeps.ite1 | apply Keeps.ite2
    | refine KeepsP.some_keeps (by assumption) _ _ (by assumption)
    | refine KeepsO.oSome (by assumption) (by assumption) | refine KeepsO.oSome (by assumption) rfl
    | refine KeepsP.some_keeps (by assumption) _ _ rfl | apply KeepsP.map | refine Keeps1.keeps (by assumption)
    | refine Keeps2.keeps (by assumption) | exact KeepsO.none _ | apply KeepsO.some | apply KeepsO.ite
    | apply KeepsO.foldl | exact KeepsP.none _ | apply KeepsP.some | apply KeepsP.ite | apply Keeps1.mk'
    | apply Keeps1.ite | apply Keeps1.foldl | apply Keeps2.mk' | apply Keeps2.ite | apply Keeps2.foldl | intro _ _ _
    | intro _ _ | intro _ | split | (fail_if_no_progress dsimp only) | refine KeepsO.oSome ?_ (by assumption)
    | refine KeepsP.some_keeps ?_ _ _ (by assumption) | refine Keeps1.eq ?_ (by assumption)
    | refine Keeps2.eq ?_ (by assumption)

theorem State.dropPending_keeps {r0_ s : State} {a : Nat} (h_ : Keeps r0_ s) : Keeps r0_ (State.dropPending s a) := by
  unfold State.dropPending
  with_reducible repeat' first
    | assumption | (fail_if_no_progress refine Keeps.upd ?_ ⟨rfl, rfl, rfl, rfl, rfl⟩)

theorem State.freePage_keeps {r0_ s : State} {a : Nat} (h_ : Keeps r0_ s) : Keeps r0_ (State.freePage s a) := by
  unfold State.freePage
  with_reducible repeat' first
    | assumption | apply Keeps.ite | apply Keeps.foldl | apply Keeps.getD | apply State.freeScrub_keeps
    | apply State.freeMoves_keeps | apply State.dropPending_keeps
    | ((fail_if_no_progress extract_lets +onlyGivenNames x); first | ((first | refine Keeps.cut (t := x) ?_ ?_ | refine Keeps.cutO (o := x) ?_ ?_ | refine Keeps.cutP (o := x) ?_ ?_ | refine Keeps.cut1 (o := x) ?_ ?_ | refine Keeps.cut2 (o := x) ?_ ?_); rotate_left; (clear_value x; intro hx); rotate_left; (try subst x)) | (have _h := Keeps.memv x; clear _h) | (have _h := Keeps.bytesv x; clear _h) | (have _h := Keeps.fn x; clear _h; dsimp only [x]; clear x) | (have _h := Keeps.fn2 x; clear _h; dsimp only [x]; clear x) | clear_value x)
    | (fail_if_no_progress refine Keeps.upd ?_ ⟨rfl, rfl, rfl, rfl, rfl⟩)
    | (fail_if_no_progress ((apply Keeps.of_mk; (focus exact rfl); (focus exact rfl)); (with_unfolding_all focus first | (exact fun w => w) | exact SMap.wf_set _ _ | exact SMap.wf_filter _); (with_unfolding_all focus first | (exact fun w => w) | exact SMap.wf_putBytes _ _ | exact SMap.wf_clearRange _ _ | exact SMap.wf_filter _ | (exact fun w => SMap.wf_foldl_set _ _ _ (SMap.wf_clearRange _ _ w)) | (exact fun _ => SMap.wf_nil' _)); (focus first | exact Nat.le_refl _ | exact Nat.le_succ _ | exact Nat.le_add_right _ _)))
    | apply Keeps.foldl1 | apply Keeps.foldl2 | apply Keeps.ite1 | apply Keeps.ite2
    | refine KeepsP.some_keeps (by assumption) _ _ (by assumption)
    | refine KeepsO.oSome (by assumption) (by assumption) | refine KeepsO.oSome (by assumption) rfl
    | refine KeepsP.some_keeps (by assumption) _ _ rfl | apply KeepsP.map | refine Keeps1.keeps (by assumption)
    | refine Keeps2.keeps (by assumption) | exact KeepsO.none _ | apply KeepsO.some | apply KeepsO.ite
    | apply KeepsO.foldl | exact KeepsP.none _ | apply KeepsP.some | apply KeepsP.ite | apply Keeps1.mk'
    | apply Keeps1.ite | apply Keeps1.foldl | apply Keeps2.mk' | apply Keeps2.ite | apply Keeps2.foldl | intro _ _ _
    | intro _ _ | intro _ | split | (fail_if_no_progress dsimp only) | refine KeepsO.oSome ?_ (by assumption)
    | refine KeepsP.some_keeps ?_ _ _ (by assumption) | refine Keeps1.eq ?_ (by assumption)
    | refine Keeps2.eq ?_ (by assumption)

theorem State.syncProtect_keeps {r0_ s : State} {a : Nat} (h_ : Keeps r0_ s) : Keeps r0_ (State.syncProtect s a) := by
  unfold State.syncProtect
  with_reducible repeat' first
    | assumption | apply Keeps.ite | apply Keeps.foldl | apply Keeps.getD | apply State.setPte_keeps
    | ((fail_if_no_progress extract_lets +onlyGivenNames x); first | ((first | refine Keeps.cut (t := x) ?_ ?_ | refine Keeps.cutO (o := x) ?_ ?_ | refine Keeps.cutP (o := x) ?_ ?_ | refine Keeps.cut1 (o := x) ?_ ?_ | refine Keeps.cut2 (o := x) ?_ ?_); rotate_left; (clear_value x; intro hx); rotate_left; (try subst x)) | (have _h := Keeps.memv x; clear _h) | (have _h := Keeps.bytesv x; clear _h) | (have _h := Keeps.fn x; clear _h; dsimp only [x]; clear x) | (have _h := Keeps.fn2 x; clear _h; dsimp only [x]; clear x) | clear_value x)
    | (fail_if_no_progress refine Keeps.upd ?_ ⟨rfl, rfl, rfl, rfl, rfl⟩)
    | (fail_if_no_progress ((apply Keeps.of_mk; (focus exact rfl); (focus exact rfl)); (with_unfolding_all focus first | (exact fun w => w) | exact SMap.wf_set _ _ | exact SMap.wf_filter _); (with_unfolding_all focus first | (exact fun w => w) | exact SMap.wf_putBytes _ _ | exact SMap.wf_clearRange _ _ | exact SMap.wf_filter _ | (exact fun w => SMap.wf_foldl_set _ _ _ (SMap.wf_clearRange _ _ w)) | (exact fun _ => SMap.wf_nil' _)); (focus first | exact Nat.le_refl _ | exact Nat.le_succ _ | exact Nat.le_add_right _ _)))
    | apply Keeps.foldl1 | apply Keeps.foldl2 | apply Keeps.ite1 | apply Keeps.ite2
    | refine KeepsP.some_keeps (by assumption) _ _ (by assumption)
    | refine KeepsO.oSome (by assumption) (by assumption) | refine KeepsO.oSome (by assumption) rfl
    | refine KeepsP.some_keeps (by assumption) _ _ rfl | apply KeepsP.map | refine Keeps1.keeps (by assumption)
    | refine Keeps2.keeps (by assumption) | exact KeepsO.none _ | apply KeepsO.some | apply KeepsO.ite
    | apply KeepsO.foldl | exact KeepsP.none _ | apply KeepsP.some | apply KeepsP.ite | apply Keeps1.mk'
    | apply Keeps1.ite | apply Keeps1.foldl | apply Keeps2.mk' | apply Keeps2.ite | apply Keeps2.foldl | intro _ _ _
    | intro _ _ | intro _ | split | (fail_if_no_progress dsimp only) | refine KeepsO.oSome ?_ (by assumption)
    | refine KeepsP.some_keeps ?_ _ _ (by assumption) | refine Keeps1.eq ?_ (by assumption)
    | refine Keeps2.eq ?_ (by assumption)

theorem State.unref_keeps {r0_ s : State} {rec : Nat} (h_ : Keeps r0_ s) : Keeps r0_ (State.unref s rec) := by
  unfold State.unref
  with_reducible repeat' first
    | assumption | apply Keeps.ite | apply Keeps.foldl | apply Keeps.getD | apply State.setPte_keeps
    | apply State.freePage_keeps | apply State.syncProtect_keeps
    | ((fail_if_no_progress extract_lets +onlyGivenNames x); first | ((first | refine Keeps.cut (t := x) ?_ ?_ | refine Keeps.cutO (o := x) ?_ ?_ | refine Keeps.cutP (o := x) ?_ ?_ | refine Keeps.cut1 (o := x) ?_ ?_ | refine Keeps.cut2 (o := x) ?_ ?_); rotate_left; (clear_value x; intro hx); rotate_left; (try subst x)) | (have _h := Keeps.memv x; clear _h) | (have _h := Keeps.bytesv x; clear _h) | (have _h := Keeps.fn x; clear _h; dsimp only [x]; clear x) | (have _h := Keeps.fn2 x; clear _h; dsimp only [x]; clear x) | clear_value x)
    | (fail_if_no_progress refine Keeps.upd ?_ ⟨rfl, rfl, rfl, rfl, rfl⟩)
    | (fail_if_no_progress ((apply Keeps.of_mk; (focus exact rfl); (focus exact rfl)); (with_unfolding_all focus first | (exact fun w => w) | exact SMap.wf_set _ _ | exact SMap.wf_filter _); (with_unfolding_all focus first | (exact fun w => w) | exact SMap.wf_putBytes _ _ | exact SMap.wf_clearRange _ _ | exact SMap.wf_filter _ | (exact fun w => SMap.wf_foldl_set _ _ _ (SMap.wf_clearRange _ _ w)) | (exact fun _ => SMap.wf_nil' _)); (focus first | exact Nat.le_refl _ | exact Nat.le_succ _ | exact Nat.le_add_right _ _)))
    | apply Keeps.foldl1 | apply Keeps.foldl2 | apply Keeps.ite1 | apply Keeps.ite2
    | refine KeepsP.some_keeps (by assumption) _ _ (by assumption)
    | refine KeepsO.oSome (by assumption) (by assumption) | refine KeepsO.oSome (by assumption) rfl
    | refine KeepsP.some_keeps (by assumption) _ _ rfl | apply KeepsP.map | refine Keeps1.keeps (by assumption)
    | refine Keeps2.keeps (by assumption) | exact KeepsO.none _ | apply KeepsO.some | apply KeepsO.ite
    | apply KeepsO.foldl | exact KeepsP.none _ | apply KeepsP.some | apply KeepsP.ite | apply Keeps1.mk'
    | apply Keeps1.ite | apply Keeps1.foldl | apply Keeps2.mk' | apply Keeps2.ite | apply Keeps2.foldl | intro _ _ _
    | intro _ _ | intro _ | split | (fail_if_no_progress dsimp only) | refine KeepsO.oSome ?_ (by assumption)
    | refine KeepsP.some_keeps ?_ _ _ (by assumption) | refine Keeps1.eq ?_ (by assumption)
    | refine Keeps2.eq ?_ (by assumption)

theorem State.dropRecBlock_keeps {r0_ s : State} {block : Nat} (h_ : Keeps r0_ s) : Keeps r0_ (State.dropRecBlock s block) := by
  unfold State.dropRecBlock
  with_reducible repeat' first
    | assumption | apply Keeps.ite | apply State.dropBlock_keeps

theorem State.releasePage_keeps {r0_ s : State} {h : Shard} {p : Nat} (h_ : Keeps r0_ s) : Keeps r0_ (State.releasePage s h p) := by
  unfold State.releasePage
  with_reducible repeat' first
    | assumption | apply Keeps.ite | apply State.setPte_keeps | apply State.freePage_keeps | apply State.unref_keeps
    | split

theorem State.releaseShard_keeps {r0_ s : State} {h : Shard} (h_ : Keeps r0_ s) : Keeps r0_ (State.releaseShard s h) := by
  unfold State.releaseShard
  with_reducible repeat' first
    | assumption | apply Keeps.foldl | apply State.freeFresh_keeps | apply State.dropBlock_keeps
    | apply State.dropKeys_keeps | apply State.dropRecBlock_keeps | apply State.releasePage_keeps
    | (fail_if_no_progress refine Keeps.upd ?_ ⟨rfl, rfl, rfl, rfl, rfl⟩) | intro _ _ _ | split

theorem State.releaseShards_keeps {r0_ s : State} {p : Nat} {tag : BitVec 64} (h_ : Keeps r0_ s) : Keeps r0_ (State.releaseShards s p tag) := by
  unfold State.releaseShards
  with_reducible repeat' first
    | assumption | apply Keeps.foldl | apply State.releaseShard_keeps

theorem State.protectShard_keeps {r0_ s : State} {h : Shard} (h_ : Keeps r0_ s) : Keeps r0_ (State.protectShard s h) := by
  unfold State.protectShard
  with_reducible repeat' first
    | assumption | apply Keeps.ite | apply Keeps.foldl | apply Keeps.getD | apply State.setPte_keeps
    | apply State.syncProtect_keeps
    | ((fail_if_no_progress extract_lets +onlyGivenNames x); first | ((first | refine Keeps.cut (t := x) ?_ ?_ | refine Keeps.cutO (o := x) ?_ ?_ | refine Keeps.cutP (o := x) ?_ ?_ | refine Keeps.cut1 (o := x) ?_ ?_ | refine Keeps.cut2 (o := x) ?_ ?_); rotate_left; (clear_value x; intro hx); rotate_left; (try subst x)) | (have _h := Keeps.memv x; clear _h) | (have _h := Keeps.bytesv x; clear _h) | (have _h := Keeps.fn x; clear _h; dsimp only [x]; clear x) | (have _h := Keeps.fn2 x; clear _h; dsimp only [x]; clear x) | clear_value x)
    | (fail_if_no_progress refine Keeps.upd ?_ ⟨rfl, rfl, rfl, rfl, rfl⟩)
    | (fail_if_no_progress ((apply Keeps.of_mk; (focus exact rfl); (focus exact rfl)); (with_unfolding_all focus first | (exact fun w => w) | exact SMap.wf_set _ _ | exact SMap.wf_filter _); (with_unfolding_all focus first | (exact fun w => w) | exact SMap.wf_putBytes _ _ | exact SMap.wf_clearRange _ _ | exact SMap.wf_filter _ | (exact fun w => SMap.wf_foldl_set _ _ _ (SMap.wf_clearRange _ _ w)) | (exact fun _ => SMap.wf_nil' _)); (focus first | exact Nat.le_refl _ | exact Nat.le_succ _ | exact Nat.le_add_right _ _)))
    | apply Keeps.foldl1 | apply Keeps.foldl2 | apply Keeps.ite1 | apply Keeps.ite2
    | refine KeepsP.some_keeps (by assumption) _ _ (by assumption)
    | refine KeepsO.oSome (by assumption) (by assumption) | refine KeepsO.oSome (by assumption) rfl
    | refine KeepsP.some_keeps (by assumption) _ _ rfl | apply KeepsP.map | refine Keeps1.keeps (by assumption)
    | refine Keeps2.keeps (by assumption) | exact KeepsO.none _ | apply KeepsO.some | apply KeepsO.ite
    | apply KeepsO.foldl | exact KeepsP.none _ | apply KeepsP.some | apply KeepsP.ite | apply Keeps1.mk'
    | apply Keeps1.ite | apply Keeps1.foldl | apply Keeps2.mk' | apply Keeps2.ite | apply Keeps2.foldl | intro _ _ _
    | intro _ _ | intro _ | split | (fail_if_no_progress dsimp only) | refine KeepsO.oSome ?_ (by assumption)
    | refine KeepsP.some_keeps ?_ _ _ (by assumption) | refine Keeps1.eq ?_ (by assumption)
    | refine Keeps2.eq ?_ (by assumption)

theorem State.setRes_keeps {r0_ s : State} {h : Shard} (h_ : Keeps r0_ s) : Keeps r0_ (State.setRes s h) := by
  unfold State.setRes
  with_reducible repeat' first
    | assumption | apply Keeps.ite | apply Keeps.foldl | apply Keeps.getD | apply State.setPte_keeps
    | apply State.setShard_keeps
    | ((fail_if_no_progress extract_lets +onlyGivenNames x); first | ((first | refine Keeps.cut (t := x) ?_ ?_ | refine Keeps.cutO (o := x) ?_ ?_ | refine Keeps.cutP (o := x) ?_ ?_ | refine Keeps.cut1 (o := x) ?_ ?_ | refine Keeps.cut2 (o := x) ?_ ?_); rotate_left; (clear_value x; intro hx); rotate_left; (try subst x)) | (have _h := Keeps.memv x; clear _h) | (have _h := Keeps.bytesv x; clear _h) | (have _h := Keeps.fn x; clear _h; dsimp only [x]; clear x) | (have _h := Keeps.fn2 x; clear _h; dsimp only [x]; clear x) | clear_value x)
    | (fail_if_no_progress refine Keeps.upd ?_ ⟨rfl, rfl, rfl, rfl, rfl⟩)
    | (fail_if_no_progress ((apply Keeps.of_mk; (focus exact rfl); (focus exact rfl)); (with_unfolding_all focus first | (exact fun w => w) | exact SMap.wf_set _ _ | exact SMap.wf_filter _); (with_unfolding_all focus first | (exact fun w => w) | exact SMap.wf_putBytes _ _ | exact SMap.wf_clearRange _ _ | exact SMap.wf_filter _ | (exact fun w => SMap.wf_foldl_set _ _ _ (SMap.wf_clearRange _ _ w)) | (exact fun _ => SMap.wf_nil' _)); (focus first | exact Nat.le_refl _ | exact Nat.le_succ _ | exact Nat.le_add_right _ _)))
    | apply Keeps.foldl1 | apply Keeps.foldl2 | apply Keeps.ite1 | apply Keeps.ite2
    | refine KeepsP.some_keeps (by assumption) _ _ (by assumption)
    | refine KeepsO.oSome (by assumption) (by assumption) | refine KeepsO.oSome (by assumption) rfl
    | refine KeepsP.some_keeps (by assumption) _ _ rfl | apply KeepsP.map | refine Keeps1.keeps (by assumption)
    | refine Keeps2.keeps (by assumption) | exact KeepsO.none _ | apply KeepsO.some | apply KeepsO.ite
    | apply KeepsO.foldl | exact KeepsP.none _ | apply KeepsP.some | apply KeepsP.ite | apply Keeps1.mk'
    | apply Keeps1.ite | apply Keeps1.foldl | apply Keeps2.mk' | apply Keeps2.ite | apply Keeps2.foldl | intro _ _ _
    | intro _ _ | intro _ | split | (fail_if_no_progress dsimp only) | refine KeepsO.oSome ?_ (by assumption)
    | refine KeepsP.some_keeps ?_ _ _ (by assumption) | refine Keeps1.eq ?_ (by assumption)
    | refine Keeps2.eq ?_ (by assumption)

/-! ### Requests -/

theorem State.setRing_keeps {r0_ s : State} {k : Nat} {x : Ring} (h_ : Keeps r0_ s) : Keeps r0_ (State.setRing s k x) := by
  unfold State.setRing
  with_reducible repeat' first
    | assumption | (fail_if_no_progress refine Keeps.upd ?_ ⟨rfl, rfl, rfl, rfl, rfl⟩)

theorem State.sendRingEnd_keeps {r0_ s : State} {k : Nat} {tag : BitVec 64} {c : RingCause} (h_ : Keeps r0_ s) : Keeps r0_ (State.sendRingEnd s k tag c) := by
  unfold State.sendRingEnd
  with_reducible repeat' first
    | assumption | apply Keeps.foldl | apply State.emit_keeps | intro _ _ _

theorem State.setModel_keeps {r0_ s : State} {m : Model} (h_ : Keeps r0_ s) : Keeps r0_ (State.setModel s m) := by
  unfold State.setModel
  with_reducible repeat' first
    | assumption | (fail_if_no_progress refine Keeps.upd ?_ ⟨rfl, rfl, rfl, rfl, rfl⟩)

theorem State.noteLane_keeps {r0_ s : State} {r : Req} (h_ : Keeps r0_ s) : Keeps r0_ (State.noteLane s r) := by
  unfold State.noteLane
  with_reducible repeat' first
    | assumption | apply Keeps.ite | apply Keeps.foldl | apply Keeps.getD
    | ((fail_if_no_progress extract_lets +onlyGivenNames x); first | ((first | refine Keeps.cut (t := x) ?_ ?_ | refine Keeps.cutO (o := x) ?_ ?_ | refine Keeps.cutP (o := x) ?_ ?_ | refine Keeps.cut1 (o := x) ?_ ?_ | refine Keeps.cut2 (o := x) ?_ ?_); rotate_left; (clear_value x; intro hx); rotate_left; (try subst x)) | (have _h := Keeps.memv x; clear _h) | (have _h := Keeps.bytesv x; clear _h) | (have _h := Keeps.fn x; clear _h; dsimp only [x]; clear x) | (have _h := Keeps.fn2 x; clear _h; dsimp only [x]; clear x) | clear_value x)
    | (fail_if_no_progress refine Keeps.upd ?_ ⟨rfl, rfl, rfl, rfl, rfl⟩)
    | (fail_if_no_progress ((apply Keeps.of_mk; (focus exact rfl); (focus exact rfl)); (with_unfolding_all focus first | (exact fun w => w) | exact SMap.wf_set _ _ | exact SMap.wf_filter _); (with_unfolding_all focus first | (exact fun w => w) | exact SMap.wf_putBytes _ _ | exact SMap.wf_clearRange _ _ | exact SMap.wf_filter _ | (exact fun w => SMap.wf_foldl_set _ _ _ (SMap.wf_clearRange _ _ w)) | (exact fun _ => SMap.wf_nil' _)); (focus first | exact Nat.le_refl _ | exact Nat.le_succ _ | exact Nat.le_add_right _ _)))
    | apply Keeps.foldl1 | apply Keeps.foldl2 | apply Keeps.ite1 | apply Keeps.ite2
    | refine KeepsP.some_keeps (by assumption) _ _ (by assumption)
    | refine KeepsO.oSome (by assumption) (by assumption) | refine KeepsO.oSome (by assumption) rfl
    | refine KeepsP.some_keeps (by assumption) _ _ rfl | apply KeepsP.map | refine Keeps1.keeps (by assumption)
    | refine Keeps2.keeps (by assumption) | exact KeepsO.none _ | apply KeepsO.some | apply KeepsO.ite
    | apply KeepsO.foldl | exact KeepsP.none _ | apply KeepsP.some | apply KeepsP.ite | apply Keeps1.mk'
    | apply Keeps1.ite | apply Keeps1.foldl | apply Keeps2.mk' | apply Keeps2.ite | apply Keeps2.foldl | intro _ _ _
    | intro _ _ | intro _ | split | (fail_if_no_progress dsimp only) | refine KeepsO.oSome ?_ (by assumption)
    | refine KeepsP.some_keeps ?_ _ _ (by assumption) | refine Keeps1.eq ?_ (by assumption)
    | refine Keeps2.eq ?_ (by assumption)

theorem State.stopWork_keeps {r0_ s : State} {p : Nat} {tag : BitVec 64} (h_ : Keeps r0_ s) : Keeps r0_ (State.stopWork s p tag) := by
  unfold State.stopWork
  with_reducible repeat' first
    | assumption | (fail_if_no_progress refine Keeps.upd ?_ ⟨rfl, rfl, rfl, rfl, rfl⟩)

theorem State.clearSteps_keeps {r0_ s : State} {p : Nat} {tag : BitVec 64} (h_ : Keeps r0_ s) : Keeps r0_ (State.clearSteps s p tag) := by
  unfold State.clearSteps
  with_reducible repeat' first
    | assumption | (fail_if_no_progress refine Keeps.upd ?_ ⟨rfl, rfl, rfl, rfl, rfl⟩)

theorem State.passLane_keeps {r0_ s : State} {r : Req} (h_ : Keeps r0_ s) : Keeps r0_ (State.passLane s r) := by
  unfold State.passLane
  with_reducible repeat' first
    | assumption | apply State.setReq_keeps | split

theorem State.releaseMirrors_keeps {r0_ s : State} {p : Nat} {tag : BitVec 64} (h_ : Keeps r0_ s) : Keeps r0_ (State.releaseMirrors s p tag) := by
  unfold State.releaseMirrors
  with_reducible repeat' first
    | assumption | apply Keeps.foldl | apply State.freeScrub_keeps | apply State.setRing_keeps
    | ((fail_if_no_progress extract_lets +onlyGivenNames x); first | ((refine Keeps.cut (t := x) ?_ ?_); rotate_left; (clear_value x; intro hx); rotate_left; (try subst x)) | clear_value x)
    | intro _ _ _ | split

theorem State.release_keeps {r0_ s : State} {r : Req} (h_ : Keeps r0_ s) : Keeps r0_ (State.release s r) := by
  unfold State.release
  with_reducible repeat' first
    | assumption | apply Keeps.ite | apply Keeps.foldl | apply Keeps.getD | apply State.kvpUpdate_keeps
    | apply State.setReq_keeps | apply State.releaseShards_keeps | apply State.noteLane_keeps
    | apply State.stopWork_keeps | apply State.passLane_keeps | apply State.releaseMirrors_keeps
    | ((fail_if_no_progress extract_lets +onlyGivenNames x); first | ((first | refine Keeps.cut (t := x) ?_ ?_ | refine Keeps.cutO (o := x) ?_ ?_ | refine Keeps.cutP (o := x) ?_ ?_ | refine Keeps.cut1 (o := x) ?_ ?_ | refine Keeps.cut2 (o := x) ?_ ?_); rotate_left; (clear_value x; intro hx); rotate_left; (try subst x)) | (have _h := Keeps.memv x; clear _h) | (have _h := Keeps.bytesv x; clear _h) | (have _h := Keeps.fn x; clear _h; dsimp only [x]; clear x) | (have _h := Keeps.fn2 x; clear _h; dsimp only [x]; clear x) | clear_value x)
    | (fail_if_no_progress refine Keeps.upd ?_ ⟨rfl, rfl, rfl, rfl, rfl⟩)
    | (fail_if_no_progress ((apply Keeps.of_mk; (focus exact rfl); (focus exact rfl)); (with_unfolding_all focus first | (exact fun w => w) | exact SMap.wf_set _ _ | exact SMap.wf_filter _); (with_unfolding_all focus first | (exact fun w => w) | exact SMap.wf_putBytes _ _ | exact SMap.wf_clearRange _ _ | exact SMap.wf_filter _ | (exact fun w => SMap.wf_foldl_set _ _ _ (SMap.wf_clearRange _ _ w)) | (exact fun _ => SMap.wf_nil' _)); (focus first | exact Nat.le_refl _ | exact Nat.le_succ _ | exact Nat.le_add_right _ _)))
    | apply Keeps.foldl1 | apply Keeps.foldl2 | apply Keeps.ite1 | apply Keeps.ite2
    | refine KeepsP.some_keeps (by assumption) _ _ (by assumption)
    | refine KeepsO.oSome (by assumption) (by assumption) | refine KeepsO.oSome (by assumption) rfl
    | refine KeepsP.some_keeps (by assumption) _ _ rfl | apply KeepsP.map | refine Keeps1.keeps (by assumption)
    | refine Keeps2.keeps (by assumption) | exact KeepsO.none _ | apply KeepsO.some | apply KeepsO.ite
    | apply KeepsO.foldl | exact KeepsP.none _ | apply KeepsP.some | apply KeepsP.ite | apply Keeps1.mk'
    | apply Keeps1.ite | apply Keeps1.foldl | apply Keeps2.mk' | apply Keeps2.ite | apply Keeps2.foldl | intro _ _ _
    | intro _ _ | intro _ | split | (fail_if_no_progress dsimp only) | refine KeepsO.oSome ?_ (by assumption)
    | refine KeepsP.some_keeps ?_ _ _ (by assumption) | refine Keeps1.eq ?_ (by assumption)
    | refine Keeps2.eq ?_ (by assumption)

theorem State.finish_keeps {r0_ s : State} {r : Req} {status detail : Nat} {cause : Option RingCause} (h_ : Keeps r0_ s) : Keeps r0_ (State.finish s r status detail cause) := by
  unfold State.finish
  with_reducible repeat' first
    | assumption | apply Keeps.ite | apply Keeps.foldl | apply Keeps.getD | apply State.dropDesc_keeps
    | apply State.complete_keeps | apply State.settleCancels_keeps | apply State.sendRingEnd_keeps
    | apply State.release_keeps
    | ((fail_if_no_progress extract_lets +onlyGivenNames x); first | ((first | refine Keeps.cut (t := x) ?_ ?_ | refine Keeps.cutO (o := x) ?_ ?_ | refine Keeps.cutP (o := x) ?_ ?_ | refine Keeps.cut1 (o := x) ?_ ?_ | refine Keeps.cut2 (o := x) ?_ ?_); rotate_left; (clear_value x; intro hx); rotate_left; (try subst x)) | (have _h := Keeps.memv x; clear _h) | (have _h := Keeps.bytesv x; clear _h) | (have _h := Keeps.fn x; clear _h; dsimp only [x]; clear x) | (have _h := Keeps.fn2 x; clear _h; dsimp only [x]; clear x) | clear_value x)
    | (fail_if_no_progress refine Keeps.upd ?_ ⟨rfl, rfl, rfl, rfl, rfl⟩)
    | (fail_if_no_progress ((apply Keeps.of_mk; (focus exact rfl); (focus exact rfl)); (with_unfolding_all focus first | (exact fun w => w) | exact SMap.wf_set _ _ | exact SMap.wf_filter _); (with_unfolding_all focus first | (exact fun w => w) | exact SMap.wf_putBytes _ _ | exact SMap.wf_clearRange _ _ | exact SMap.wf_filter _ | (exact fun w => SMap.wf_foldl_set _ _ _ (SMap.wf_clearRange _ _ w)) | (exact fun _ => SMap.wf_nil' _)); (focus first | exact Nat.le_refl _ | exact Nat.le_succ _ | exact Nat.le_add_right _ _)))
    | apply Keeps.foldl1 | apply Keeps.foldl2 | apply Keeps.ite1 | apply Keeps.ite2
    | refine KeepsP.some_keeps (by assumption) _ _ (by assumption)
    | refine KeepsO.oSome (by assumption) (by assumption) | refine KeepsO.oSome (by assumption) rfl
    | refine KeepsP.some_keeps (by assumption) _ _ rfl | apply KeepsP.map | refine Keeps1.keeps (by assumption)
    | refine Keeps2.keeps (by assumption) | exact KeepsO.none _ | apply KeepsO.some | apply KeepsO.ite
    | apply KeepsO.foldl | exact KeepsP.none _ | apply KeepsP.some | apply KeepsP.ite | apply Keeps1.mk'
    | apply Keeps1.ite | apply Keeps1.foldl | apply Keeps2.mk' | apply Keeps2.ite | apply Keeps2.foldl | intro _ _ _
    | intro _ _ | intro _ | split | (fail_if_no_progress dsimp only) | refine KeepsO.oSome ?_ (by assumption)
    | refine KeepsP.some_keeps ?_ _ _ (by assumption) | refine Keeps1.eq ?_ (by assumption)
    | refine Keeps2.eq ?_ (by assumption)

theorem State.fail_keeps {r0_ s : State} {r : Req} {status detail : Nat} (h_ : Keeps r0_ s) : Keeps r0_ (State.fail s r status detail) := by
  unfold State.fail
  with_reducible repeat' first
    | assumption | apply State.finish_keeps

theorem State.failAll_keeps {r0_ s : State} {f : Req → Bool} {status detail : Nat} (h_ : Keeps r0_ s) : Keeps r0_ (State.failAll s f status detail) := by
  unfold State.failAll
  with_reducible repeat' first
    | assumption | apply Keeps.foldl | apply State.fail_keeps | intro _ _ _

theorem State.failTag_keeps {r0_ s : State} {p : Nat} {tag : BitVec 64} {status detail : Nat} (h_ : Keeps r0_ s) : Keeps r0_ (State.failTag s p tag status detail) := by
  unfold State.failTag
  with_reducible repeat' first
    | assumption | apply State.fail_keeps | split

theorem State.dropReq_keeps {r0_ s : State} {r : Req} {c : RingCause} (h_ : Keeps r0_ s) : Keeps r0_ (State.dropReq s r c) := by
  unfold State.dropReq
  with_reducible repeat' first
    | assumption | apply State.dropDesc_keeps | apply State.sendRingEnd_keeps | apply State.release_keeps | split

theorem State.failShards_keeps {r0_ s : State} {f : Shard → Bool} {status detail : Nat} (h_ : Keeps r0_ s) : Keeps r0_ (State.failShards s f status detail) := by
  unfold State.failShards
  with_reducible repeat' first
    | assumption | apply Keeps.foldl | apply State.failTag_keeps | intro _ _ _

theorem State.newInstance_keeps {r0_ s : State} {p sq : Nat} {tag : BitVec 64} (h_ : Keeps r0_ s) : Keeps r0_ (State.newInstance s p sq tag) := by
  unfold State.newInstance
  with_reducible repeat' first
    | assumption | (fail_if_no_progress refine Keeps.upd ?_ ⟨rfl, rfl, rfl, rfl, rfl⟩)

/-! ### Units -/

theorem State.setService_keeps {r0_ s : State} {u : UnitId} {x : Bool} (h_ : Keeps r0_ s) : Keeps r0_ (State.setService s u x) := by
  unfold State.setService
  with_reducible repeat' first
    | assumption | apply State.setBit_keeps | (fail_if_no_progress refine Keeps.upd ?_ ⟨rfl, rfl, rfl, rfl, rfl⟩)
    | split

theorem State.useUnit_keeps {r0_ s : State} {u : UnitId} {p inst : Nat} (h_ : Keeps r0_ s) : Keeps r0_ (State.useUnit s u p inst) := by
  unfold State.useUnit
  with_reducible repeat' first
    | assumption | (fail_if_no_progress refine Keeps.upd ?_ ⟨rfl, rfl, rfl, rfl, rfl⟩)

theorem State.leavesFree_keeps {r0_ s : State} {p : Nat} (h_ : Keeps r0_ s) : Keeps r0_ (State.leavesFree s p) := by
  unfold State.leavesFree
  with_reducible repeat' first
    | assumption | apply Keeps.ite | apply Keeps.foldl | apply Keeps.getD
    | ((fail_if_no_progress extract_lets +onlyGivenNames x); first | ((first | refine Keeps.cut (t := x) ?_ ?_ | refine Keeps.cutO (o := x) ?_ ?_ | refine Keeps.cutP (o := x) ?_ ?_ | refine Keeps.cut1 (o := x) ?_ ?_ | refine Keeps.cut2 (o := x) ?_ ?_); rotate_left; (clear_value x; intro hx); rotate_left; (try subst x)) | (have _h := Keeps.memv x; clear _h) | (have _h := Keeps.bytesv x; clear _h) | (have _h := Keeps.fn x; clear _h; dsimp only [x]; clear x) | (have _h := Keeps.fn2 x; clear _h; dsimp only [x]; clear x) | clear_value x)
    | (fail_if_no_progress refine Keeps.upd ?_ ⟨rfl, rfl, rfl, rfl, rfl⟩)
    | (fail_if_no_progress ((apply Keeps.of_mk; (focus exact rfl); (focus exact rfl)); (with_unfolding_all focus first | (exact fun w => w) | exact SMap.wf_set _ _ | exact SMap.wf_filter _); (with_unfolding_all focus first | (exact fun w => w) | exact SMap.wf_putBytes _ _ | exact SMap.wf_clearRange _ _ | exact SMap.wf_filter _ | (exact fun w => SMap.wf_foldl_set _ _ _ (SMap.wf_clearRange _ _ w)) | (exact fun _ => SMap.wf_nil' _)); (focus first | exact Nat.le_refl _ | exact Nat.le_succ _ | exact Nat.le_add_right _ _)))
    | apply Keeps.foldl1 | apply Keeps.foldl2 | apply Keeps.ite1 | apply Keeps.ite2
    | refine KeepsP.some_keeps (by assumption) _ _ (by assumption)
    | refine KeepsO.oSome (by assumption) (by assumption) | refine KeepsO.oSome (by assumption) rfl
    | refine KeepsP.some_keeps (by assumption) _ _ rfl | apply KeepsP.map | refine Keeps1.keeps (by assumption)
    | refine Keeps2.keeps (by assumption) | exact KeepsO.none _ | apply KeepsO.some | apply KeepsO.ite
    | apply KeepsO.foldl | exact KeepsP.none _ | apply KeepsP.some | apply KeepsP.ite | apply Keeps1.mk'
    | apply Keeps1.ite | apply Keeps1.foldl | apply Keeps2.mk' | apply Keeps2.ite | apply Keeps2.foldl | intro _ _ _
    | intro _ _ | intro _ | split | (fail_if_no_progress dsimp only) | refine KeepsO.oSome ?_ (by assumption)
    | refine KeepsP.some_keeps ?_ _ _ (by assumption) | refine Keeps1.eq ?_ (by assumption)
    | refine Keeps2.eq ?_ (by assumption)

theorem State.entersFree_keeps {r0_ s : State} {p : Nat} (h_ : Keeps r0_ s) : Keeps r0_ (State.entersFree s p) := by
  unfold State.entersFree
  with_reducible repeat' first
    | assumption | apply Keeps.ite | apply Keeps.foldl | apply Keeps.getD
    | ((fail_if_no_progress extract_lets +onlyGivenNames x); first | ((first | refine Keeps.cut (t := x) ?_ ?_ | refine Keeps.cutO (o := x) ?_ ?_ | refine Keeps.cutP (o := x) ?_ ?_ | refine Keeps.cut1 (o := x) ?_ ?_ | refine Keeps.cut2 (o := x) ?_ ?_); rotate_left; (clear_value x; intro hx); rotate_left; (try subst x)) | (have _h := Keeps.memv x; clear _h) | (have _h := Keeps.bytesv x; clear _h) | (have _h := Keeps.fn x; clear _h; dsimp only [x]; clear x) | (have _h := Keeps.fn2 x; clear _h; dsimp only [x]; clear x) | clear_value x)
    | (fail_if_no_progress refine Keeps.upd ?_ ⟨rfl, rfl, rfl, rfl, rfl⟩)
    | (fail_if_no_progress ((apply Keeps.of_mk; (focus exact rfl); (focus exact rfl)); (with_unfolding_all focus first | (exact fun w => w) | exact SMap.wf_set _ _ | exact SMap.wf_filter _); (with_unfolding_all focus first | (exact fun w => w) | exact SMap.wf_putBytes _ _ | exact SMap.wf_clearRange _ _ | exact SMap.wf_filter _ | (exact fun w => SMap.wf_foldl_set _ _ _ (SMap.wf_clearRange _ _ w)) | (exact fun _ => SMap.wf_nil' _)); (focus first | exact Nat.le_refl _ | exact Nat.le_succ _ | exact Nat.le_add_right _ _)))
    | apply Keeps.foldl1 | apply Keeps.foldl2 | apply Keeps.ite1 | apply Keeps.ite2
    | refine KeepsP.some_keeps (by assumption) _ _ (by assumption)
    | refine KeepsO.oSome (by assumption) (by assumption) | refine KeepsO.oSome (by assumption) rfl
    | refine KeepsP.some_keeps (by assumption) _ _ rfl | apply KeepsP.map | refine Keeps1.keeps (by assumption)
    | refine Keeps2.keeps (by assumption) | exact KeepsO.none _ | apply KeepsO.some | apply KeepsO.ite
    | apply KeepsO.foldl | exact KeepsP.none _ | apply KeepsP.some | apply KeepsP.ite | apply Keeps1.mk'
    | apply Keeps1.ite | apply Keeps1.foldl | apply Keeps2.mk' | apply Keeps2.ite | apply Keeps2.foldl | intro _ _ _
    | intro _ _ | intro _ | split | (fail_if_no_progress dsimp only) | refine KeepsO.oSome ?_ (by assumption)
    | refine KeepsP.some_keeps ?_ _ _ (by assumption) | refine Keeps1.eq ?_ (by assumption)
    | refine Keeps2.eq ?_ (by assumption)

theorem State.usageUe_keeps {r0_ s : State} {u : UnitId} {epochs : List Nat} (h_ : Keeps r0_ s) : Keeps r0_ (State.usageUe s u epochs) := by
  unfold State.usageUe
  with_reducible repeat' first
    | assumption | apply Keeps.ite | apply Keeps.foldl | apply Keeps.getD | apply State.latch_keeps
    | ((fail_if_no_progress extract_lets +onlyGivenNames x); first | ((first | refine Keeps.cut (t := x) ?_ ?_ | refine Keeps.cutO (o := x) ?_ ?_ | refine Keeps.cutP (o := x) ?_ ?_ | refine Keeps.cut1 (o := x) ?_ ?_ | refine Keeps.cut2 (o := x) ?_ ?_); rotate_left; (clear_value x; intro hx); rotate_left; (try subst x)) | (have _h := Keeps.memv x; clear _h) | (have _h := Keeps.bytesv x; clear _h) | (have _h := Keeps.fn x; clear _h; dsimp only [x]; clear x) | (have _h := Keeps.fn2 x; clear _h; dsimp only [x]; clear x) | clear_value x)
    | (fail_if_no_progress refine Keeps.upd ?_ ⟨rfl, rfl, rfl, rfl, rfl⟩)
    | (fail_if_no_progress ((apply Keeps.of_mk; (focus exact rfl); (focus exact rfl)); (with_unfolding_all focus first | (exact fun w => w) | exact SMap.wf_set _ _ | exact SMap.wf_filter _); (with_unfolding_all focus first | (exact fun w => w) | exact SMap.wf_putBytes _ _ | exact SMap.wf_clearRange _ _ | exact SMap.wf_filter _ | (exact fun w => SMap.wf_foldl_set _ _ _ (SMap.wf_clearRange _ _ w)) | (exact fun _ => SMap.wf_nil' _)); (focus first | exact Nat.le_refl _ | exact Nat.le_succ _ | exact Nat.le_add_right _ _)))
    | apply Keeps.foldl1 | apply Keeps.foldl2 | apply Keeps.ite1 | apply Keeps.ite2
    | refine KeepsP.some_keeps (by assumption) _ _ (by assumption)
    | refine KeepsO.oSome (by assumption) (by assumption) | refine KeepsO.oSome (by assumption) rfl
    | refine KeepsP.some_keeps (by assumption) _ _ rfl | apply KeepsP.map | refine Keeps1.keeps (by assumption)
    | refine Keeps2.keeps (by assumption) | exact KeepsO.none _ | apply KeepsO.some | apply KeepsO.ite
    | apply KeepsO.foldl | exact KeepsP.none _ | apply KeepsP.some | apply KeepsP.ite | apply Keeps1.mk'
    | apply Keeps1.ite | apply Keeps1.foldl | apply Keeps2.mk' | apply Keeps2.ite | apply Keeps2.foldl | intro _ _ _
    | intro _ _ | intro _ | split | (fail_if_no_progress dsimp only) | refine KeepsO.oSome ?_ (by assumption)
    | refine KeepsP.some_keeps ?_ _ _ (by assumption) | refine Keeps1.eq ?_ (by assumption)
    | refine Keeps2.eq ?_ (by assumption)

theorem State.useFor_keeps {r0_ s : State} {u : UnitId} {p : Nat} {tag : BitVec 64} (h_ : Keeps r0_ s) : Keeps r0_ (State.useFor s u p tag) := by
  unfold State.useFor
  with_reducible repeat' first
    | assumption | apply State.useUnit_keeps | split

theorem State.useWalk_keeps {r0_ s : State} {us : List UnitId} {w : Walk} (h_ : Keeps r0_ s) : Keeps r0_ (State.useWalk s us w) := by
  unfold State.useWalk
  with_reducible repeat' first
    | assumption | apply Keeps.foldl | apply State.useFor_keeps | intro _ _ _

theorem State.postEvent_keeps {r0_ s : State} {p e : Nat} {r : EqRec} (h_ : Keeps r0_ s) : Keeps r0_ (State.postEvent s p e r) := by
  unfold State.postEvent
  with_reducible repeat' first
    | assumption | apply Keeps.ite | apply State.inc_keeps | apply State.latch_keeps | apply State.postOn_keeps

theorem State.suspect_keeps {r0_ s : State} {u : UnitId} {cls start : Nat} (h_ : Keeps r0_ s) : Keeps r0_ (State.suspect s u cls start) := by
  unfold State.suspect
  with_reducible repeat' first
    | assumption | apply Keeps.foldl | apply State.postEvent_keeps | intro _ _ _

theorem State.halt_keeps {r0_ s : State} {p st dt : Nat} (h_ : Keeps r0_ s) : Keeps r0_ (State.halt s p st dt) := by
  unfold State.halt
  with_reducible repeat' first
    | assumption | apply Keeps.ite | apply Keeps.foldl | apply State.latch_keeps | apply State.setPState_keeps
    | apply State.finish_keeps | apply State.fail_keeps | intro _ _ _

theorem State.dropMask_keeps {r0_ s : State} {p : Nat} {u : UnitId} (h_ : Keeps r0_ s) : Keeps r0_ (State.dropMask s p u) := by
  unfold State.dropMask
  with_reducible repeat' first
    | assumption | apply Keeps.ite | apply State.setBit_keeps | apply State.setPart_keeps

theorem State.unbindUnit_keeps {r0_ s : State} {u : UnitId} (h_ : Keeps r0_ s) : Keeps r0_ (State.unbindUnit s u) := by
  unfold State.unbindUnit
  with_reducible repeat' first
    | assumption | (fail_if_no_progress refine Keeps.upd ?_ ⟨rfl, rfl, rfl, rfl, rfl⟩)

theorem State.loseUnitAs_keeps {r0_ s : State} {u : UnitId} {st dt : Nat} (h_ : Keeps r0_ s) : Keeps r0_ (State.loseUnitAs s u st dt) := by
  unfold State.loseUnitAs
  with_reducible repeat' first
    | assumption | apply Keeps.foldl | apply State.latch_keeps | apply State.failTag_keeps
    | apply State.setService_keeps | apply State.halt_keeps | apply State.dropMask_keeps
    | apply State.unbindUnit_keeps
    | ((fail_if_no_progress extract_lets +onlyGivenNames x); first | ((refine Keeps.cut (t := x) ?_ ?_); rotate_left; (clear_value x; intro hx); rotate_left; (try subst x)) | clear_value x)
    | intro _ _ _ | split

theorem State.loseUnit_keeps {r0_ s : State} {u : UnitId} (h_ : Keeps r0_ s) : Keeps r0_ (State.loseUnit s u) := by
  unfold State.loseUnit
  with_reducible repeat' first
    | assumption | apply State.loseUnitAs_keeps

theorem State.loseSpar_keeps {r0_ s : State} {k st dt : Nat} (h_ : Keeps r0_ s) : Keeps r0_ (State.loseSpar s k st dt) := by
  unfold State.loseSpar
  with_reducible repeat' first
    | assumption | apply Keeps.foldl | apply State.loseUnitAs_keeps | intro _ _ _

/-! ### Wake -/

theorem State.setIdle_keeps {r0_ s : State} {x : IdleSt} (h_ : Keeps r0_ s) : Keeps r0_ (State.setIdle s x) := by
  unfold State.setIdle
  with_reducible repeat' first
    | assumption | (fail_if_no_progress refine Keeps.upd ?_ ⟨rfl, rfl, rfl, rfl, rfl⟩)

theorem State.dropIdle_keeps {r0_ s : State} {d : IdleDomain} (h_ : Keeps r0_ s) : Keeps r0_ (State.dropIdle s d) := by
  unfold State.dropIdle
  with_reducible repeat' first
    | assumption | (fail_if_no_progress refine Keeps.upd ?_ ⟨rfl, rfl, rfl, rfl, rfl⟩)

theorem State.rereferenceDie_keeps {r0_ s : State} {d : Nat} (h_ : Keeps r0_ s) : Keeps r0_ (State.rereferenceDie s d) := by
  unfold State.rereferenceDie
  with_reducible repeat' first
    | assumption | (fail_if_no_progress refine Keeps.upd ?_ ⟨rfl, rfl, rfl, rfl, rfl⟩)

theorem State.beginExit_keeps {r0_ s : State} {x : IdleSt} (h_ : Keeps r0_ s) : Keeps r0_ (State.beginExit s x) := by
  unfold State.beginExit
  with_reducible repeat' first
    | assumption | apply State.setBit_keeps | apply State.setIdle_keeps | apply State.rereferenceDie_keeps | split

theorem State.wake_keeps {r0_ s : State} {d : IdleDomain} (h_ : Keeps r0_ s) : Keeps r0_ (State.wake s d) := by
  unfold State.wake
  with_reducible repeat' first
    | assumption | apply State.dropIdle_keeps | apply State.beginExit_keeps | split

theorem State.wakeAll_keeps {r0_ s : State} {ds : List IdleDomain} (h_ : Keeps r0_ s) : Keeps r0_ (State.wakeAll s ds) := by
  unfold State.wakeAll
  with_reducible repeat' first
    | assumption | apply Keeps.foldl | apply State.wake_keeps

theorem State.cnvWork_keeps1 {r0_ s : State} {d : Nat} (h_ : Keeps r0_ s) : Keeps1 r0_ (State.cnvWork s d) := by
  unfold State.cnvWork
  with_reducible repeat' first
    | assumption | apply Keeps1.mk' | apply State.wakeAll_keeps

theorem State.meetEvent_keeps {r0_ s : State} {e : TtlEvent} {x : IdleSt} (h_ : Keeps r0_ s) : Keeps r0_ (State.meetEvent e s x) := by
  unfold State.meetEvent
  with_reducible repeat' first
    | assumption | apply State.inc_keeps | apply State.setIdle_keeps | apply State.dropIdle_keeps
    | apply State.beginExit_keeps | split

theorem State.scheduleEvent_keeps {r0_ s : State} {target : Nat} {client : TtlClient} {dies : List Nat} (h_ : Keeps r0_ s) : Keeps r0_ (State.scheduleEvent s target client dies) := by
  unfold State.scheduleEvent
  with_reducible repeat' first
    | assumption | apply Keeps.foldl | apply State.ttlRegister_keeps | apply State.meetEvent_keeps | intro _ _ _

theorem State.planTest_keeps {r0_ s : State} {i : Nat} (h_ : Keeps r0_ s) : Keeps r0_ (State.planTest s i) := by
  unfold State.planTest
  with_reducible repeat' first
    | assumption | apply Keeps.ite | apply Keeps.foldl | apply Keeps.getD | apply State.scheduleEvent_keeps
    | ((fail_if_no_progress extract_lets +onlyGivenNames x); first | ((first | refine Keeps.cut (t := x) ?_ ?_ | refine Keeps.cutO (o := x) ?_ ?_ | refine Keeps.cutP (o := x) ?_ ?_ | refine Keeps.cut1 (o := x) ?_ ?_ | refine Keeps.cut2 (o := x) ?_ ?_); rotate_left; (clear_value x; intro hx); rotate_left; (try subst x)) | (have _h := Keeps.memv x; clear _h) | (have _h := Keeps.bytesv x; clear _h) | (have _h := Keeps.fn x; clear _h; dsimp only [x]; clear x) | (have _h := Keeps.fn2 x; clear _h; dsimp only [x]; clear x) | clear_value x)
    | (fail_if_no_progress refine Keeps.upd ?_ ⟨rfl, rfl, rfl, rfl, rfl⟩)
    | (fail_if_no_progress ((apply Keeps.of_mk; (focus exact rfl); (focus exact rfl)); (with_unfolding_all focus first | (exact fun w => w) | exact SMap.wf_set _ _ | exact SMap.wf_filter _); (with_unfolding_all focus first | (exact fun w => w) | exact SMap.wf_putBytes _ _ | exact SMap.wf_clearRange _ _ | exact SMap.wf_filter _ | (exact fun w => SMap.wf_foldl_set _ _ _ (SMap.wf_clearRange _ _ w)) | (exact fun _ => SMap.wf_nil' _)); (focus first | exact Nat.le_refl _ | exact Nat.le_succ _ | exact Nat.le_add_right _ _)))
    | apply Keeps.foldl1 | apply Keeps.foldl2 | apply Keeps.ite1 | apply Keeps.ite2
    | refine KeepsP.some_keeps (by assumption) _ _ (by assumption)
    | refine KeepsO.oSome (by assumption) (by assumption) | refine KeepsO.oSome (by assumption) rfl
    | refine KeepsP.some_keeps (by assumption) _ _ rfl | apply KeepsP.map | refine Keeps1.keeps (by assumption)
    | refine Keeps2.keeps (by assumption) | exact KeepsO.none _ | apply KeepsO.some | apply KeepsO.ite
    | apply KeepsO.foldl | exact KeepsP.none _ | apply KeepsP.some | apply KeepsP.ite | apply Keeps1.mk'
    | apply Keeps1.ite | apply Keeps1.foldl | apply Keeps2.mk' | apply Keeps2.ite | apply Keeps2.foldl | intro _ _ _
    | intro _ _ | intro _ | split | (fail_if_no_progress dsimp only) | refine KeepsO.oSome ?_ (by assumption)
    | refine KeepsP.some_keeps ?_ _ _ (by assumption) | refine Keeps1.eq ?_ (by assumption)
    | refine Keeps2.eq ?_ (by assumption)

theorem State.dropTest_keeps {r0_ s : State} {i : Nat} (h_ : Keeps r0_ s) : Keeps r0_ (State.dropTest s i) := by
  unfold State.dropTest
  with_reducible repeat' first
    | assumption | apply Keeps.ite | apply Keeps.foldl | apply Keeps.getD
    | ((fail_if_no_progress extract_lets +onlyGivenNames x); first | ((first | refine Keeps.cut (t := x) ?_ ?_ | refine Keeps.cutO (o := x) ?_ ?_ | refine Keeps.cutP (o := x) ?_ ?_ | refine Keeps.cut1 (o := x) ?_ ?_ | refine Keeps.cut2 (o := x) ?_ ?_); rotate_left; (clear_value x; intro hx); rotate_left; (try subst x)) | (have _h := Keeps.memv x; clear _h) | (have _h := Keeps.bytesv x; clear _h) | (have _h := Keeps.fn x; clear _h; dsimp only [x]; clear x) | (have _h := Keeps.fn2 x; clear _h; dsimp only [x]; clear x) | clear_value x)
    | (fail_if_no_progress refine Keeps.upd ?_ ⟨rfl, rfl, rfl, rfl, rfl⟩)
    | (fail_if_no_progress ((apply Keeps.of_mk; (focus exact rfl); (focus exact rfl)); (with_unfolding_all focus first | (exact fun w => w) | exact SMap.wf_set _ _ | exact SMap.wf_filter _); (with_unfolding_all focus first | (exact fun w => w) | exact SMap.wf_putBytes _ _ | exact SMap.wf_clearRange _ _ | exact SMap.wf_filter _ | (exact fun w => SMap.wf_foldl_set _ _ _ (SMap.wf_clearRange _ _ w)) | (exact fun _ => SMap.wf_nil' _)); (focus first | exact Nat.le_refl _ | exact Nat.le_succ _ | exact Nat.le_add_right _ _)))
    | apply Keeps.foldl1 | apply Keeps.foldl2 | apply Keeps.ite1 | apply Keeps.ite2
    | refine KeepsP.some_keeps (by assumption) _ _ (by assumption)
    | refine KeepsO.oSome (by assumption) (by assumption) | refine KeepsO.oSome (by assumption) rfl
    | refine KeepsP.some_keeps (by assumption) _ _ rfl | apply KeepsP.map | refine Keeps1.keeps (by assumption)
    | refine Keeps2.keeps (by assumption) | exact KeepsO.none _ | apply KeepsO.some | apply KeepsO.ite
    | apply KeepsO.foldl | exact KeepsP.none _ | apply KeepsP.some | apply KeepsP.ite | apply Keeps1.mk'
    | apply Keeps1.ite | apply Keeps1.foldl | apply Keeps2.mk' | apply Keeps2.ite | apply Keeps2.foldl | intro _ _ _
    | intro _ _ | intro _ | split | (fail_if_no_progress dsimp only) | refine KeepsO.oSome ?_ (by assumption)
    | refine KeepsP.some_keeps ?_ _ _ (by assumption) | refine Keeps1.eq ?_ (by assumption)
    | refine Keeps2.eq ?_ (by assumption)

/-! ### Bus -/

theorem State.deny_keeps {r0_ s : State}  (h_ : Keeps r0_ s) : Keeps r0_ (State.deny s) := by
  unfold State.deny
  with_reducible repeat' first
    | assumption | apply State.inc_keeps

theorem State.writeGate_keepsO {r0_ s : State} {m : Master} {p off : Nat} {be : BitVec 4} {v : Word} (h_ : Keeps r0_ s) : KeepsO r0_ (State.writeGate s m p off be v) := by
  unfold State.writeGate
  with_reducible repeat' first
    | assumption | exact KeepsO.none _ | apply KeepsO.some | apply State.deny_keeps | split

theorem State.resolution_keeps {r0_ s : State} {p off id : Nat} {e : ArbEntry} {safety : Bool} {mask : Nat} (h_ : Keeps r0_ s) : Keeps r0_ (State.resolution s p off id e safety mask) := by
  unfold State.resolution
  with_reducible repeat' first
    | assumption | apply State.setReg_keeps | apply State.inc_keeps | apply State.noteOld_keeps
    | apply State.irq_keeps

theorem State.storeOn_keeps {r0_ s : State} {m : Master} {k : Nat} {fs : List Field} {p coff : Nat} {v : Word} (h_ : Keeps r0_ s) : Keeps r0_ (State.storeOn s m k fs p coff v) := by
  unfold State.storeOn
  with_reducible repeat' first
    | assumption | apply State.setReg_keeps | apply State.noteOld_keeps | apply State.resolution_keeps
    | ((fail_if_no_progress extract_lets +onlyGivenNames x); first | ((refine Keeps.cut (t := x) ?_ ?_); rotate_left; (clear_value x; intro hx); rotate_left; (try subst x)) | clear_value x)
    | (fail_if_no_progress refine Keeps.upd ?_ ⟨rfl, rfl, rfl, rfl, rfl⟩) | split

theorem State.store_keeps {r0_ s : State} {m : Master} {p off : Nat} {v : Word} (h_ : Keeps r0_ s) : Keeps r0_ (State.store s m p off v) := by
  unfold State.store
  with_reducible repeat' first
    | assumption | apply State.storeOn_keeps

theorem State.storeFields_keeps {r0_ s : State} {m : Master} {p off : Nat} {v : Word} {f : Field → Bool} (h_ : Keeps r0_ s) : Keeps r0_ (State.storeFields s m p off v f) := by
  unfold State.storeFields
  with_reducible repeat' first
    | assumption | apply State.storeOn_keeps

theorem State.nextCycle_keeps {r0_ s : State}  (h_ : Keeps r0_ s) : Keeps r0_ (State.nextCycle s) := by
  unfold State.nextCycle
  with_reducible repeat' first
    | assumption | apply Keeps.ite | apply Keeps.foldl | apply Keeps.getD
    | ((fail_if_no_progress extract_lets +onlyGivenNames x); first | ((first | refine Keeps.cut (t := x) ?_ ?_ | refine Keeps.cutO (o := x) ?_ ?_ | refine Keeps.cutP (o := x) ?_ ?_ | refine Keeps.cut1 (o := x) ?_ ?_ | refine Keeps.cut2 (o := x) ?_ ?_); rotate_left; (clear_value x; intro hx); rotate_left; (try subst x)) | (have _h := Keeps.memv x; clear _h) | (have _h := Keeps.bytesv x; clear _h) | (have _h := Keeps.fn x; clear _h; dsimp only [x]; clear x) | (have _h := Keeps.fn2 x; clear _h; dsimp only [x]; clear x) | clear_value x)
    | (fail_if_no_progress refine Keeps.upd ?_ ⟨rfl, rfl, rfl, rfl, rfl⟩)
    | (fail_if_no_progress ((apply Keeps.of_mk; (focus exact rfl); (focus exact rfl)); (with_unfolding_all focus first | (exact fun w => w) | exact SMap.wf_set _ _ | exact SMap.wf_filter _); (with_unfolding_all focus first | (exact fun w => w) | exact SMap.wf_putBytes _ _ | exact SMap.wf_clearRange _ _ | exact SMap.wf_filter _ | (exact fun w => SMap.wf_foldl_set _ _ _ (SMap.wf_clearRange _ _ w)) | (exact fun _ => SMap.wf_nil' _)); (focus first | exact Nat.le_refl _ | exact Nat.le_succ _ | exact Nat.le_add_right _ _)))
    | apply Keeps.foldl1 | apply Keeps.foldl2 | apply Keeps.ite1 | apply Keeps.ite2
    | refine KeepsP.some_keeps (by assumption) _ _ (by assumption)
    | refine KeepsO.oSome (by assumption) (by assumption) | refine KeepsO.oSome (by assumption) rfl
    | refine KeepsP.some_keeps (by assumption) _ _ rfl | apply KeepsP.map | refine Keeps1.keeps (by assumption)
    | refine Keeps2.keeps (by assumption) | exact KeepsO.none _ | apply KeepsO.some | apply KeepsO.ite
    | apply KeepsO.foldl | exact KeepsP.none _ | apply KeepsP.some | apply KeepsP.ite | apply Keeps1.mk'
    | apply Keeps1.ite | apply Keeps1.foldl | apply Keeps2.mk' | apply Keeps2.ite | apply Keeps2.foldl | intro _ _ _
    | intro _ _ | intro _ | split | (fail_if_no_progress dsimp only) | refine KeepsO.oSome ?_ (by assumption)
    | refine KeepsP.some_keeps ?_ _ _ (by assumption) | refine Keeps1.eq ?_ (by assumption)
    | refine Keeps2.eq ?_ (by assumption)

theorem State.inTurn_keeps {r0_ s : State} {m : Master} {p : Nat} (h_ : Keeps r0_ s) : Keeps r0_ (State.inTurn s m p) := by
  unfold State.inTurn
  with_reducible repeat' first
    | assumption | apply Keeps.ite | apply Keeps.foldl | apply Keeps.getD | apply State.nextCycle_keeps
    | ((fail_if_no_progress extract_lets +onlyGivenNames x); first | ((first | refine Keeps.cut (t := x) ?_ ?_ | refine Keeps.cutO (o := x) ?_ ?_ | refine Keeps.cutP (o := x) ?_ ?_ | refine Keeps.cut1 (o := x) ?_ ?_ | refine Keeps.cut2 (o := x) ?_ ?_); rotate_left; (clear_value x; intro hx); rotate_left; (try subst x)) | (have _h := Keeps.memv x; clear _h) | (have _h := Keeps.bytesv x; clear _h) | (have _h := Keeps.fn x; clear _h; dsimp only [x]; clear x) | (have _h := Keeps.fn2 x; clear _h; dsimp only [x]; clear x) | clear_value x)
    | (fail_if_no_progress refine Keeps.upd ?_ ⟨rfl, rfl, rfl, rfl, rfl⟩)
    | (fail_if_no_progress ((apply Keeps.of_mk; (focus exact rfl); (focus exact rfl)); (with_unfolding_all focus first | (exact fun w => w) | exact SMap.wf_set _ _ | exact SMap.wf_filter _); (with_unfolding_all focus first | (exact fun w => w) | exact SMap.wf_putBytes _ _ | exact SMap.wf_clearRange _ _ | exact SMap.wf_filter _ | (exact fun w => SMap.wf_foldl_set _ _ _ (SMap.wf_clearRange _ _ w)) | (exact fun _ => SMap.wf_nil' _)); (focus first | exact Nat.le_refl _ | exact Nat.le_succ _ | exact Nat.le_add_right _ _)))
    | apply Keeps.foldl1 | apply Keeps.foldl2 | apply Keeps.ite1 | apply Keeps.ite2
    | refine KeepsP.some_keeps (by assumption) _ _ (by assumption)
    | refine KeepsO.oSome (by assumption) (by assumption) | refine KeepsO.oSome (by assumption) rfl
    | refine KeepsP.some_keeps (by assumption) _ _ rfl | apply KeepsP.map | refine Keeps1.keeps (by assumption)
    | refine Keeps2.keeps (by assumption) | exact KeepsO.none _ | apply KeepsO.some | apply KeepsO.ite
    | apply KeepsO.foldl | exact KeepsP.none _ | apply KeepsP.some | apply KeepsP.ite | apply Keeps1.mk'
    | apply Keeps1.ite | apply Keeps1.foldl | apply Keeps2.mk' | apply Keeps2.ite | apply Keeps2.foldl | intro _ _ _
    | intro _ _ | intro _ | split | (fail_if_no_progress dsimp only) | refine KeepsO.oSome ?_ (by assumption)
    | refine KeepsP.some_keeps ?_ _ _ (by assumption) | refine Keeps1.eq ?_ (by assumption)
    | refine Keeps2.eq ?_ (by assumption)

theorem State.noteSince_keeps {r0_ t s : State} (h_ : Keeps r0_ t) : Keeps r0_ (t.noteSince s) :=
  ⟨h_.queue, h_.outs, h_.free, h_.regs, h_.bytes⟩

theorem State.setAgent_keeps {r0_ s : State} {a : Agent} {x : AgentSt} (h_ : Keeps r0_ s) : Keeps r0_ (State.setAgent s a x) := by
  unfold State.setAgent
  with_reducible repeat' first
    | assumption | (fail_if_no_progress refine Keeps.upd ?_ ⟨rfl, rfl, rfl, rfl, rfl⟩)

theorem State.waitBehind_keeps {r0_ s : State} {m : Master} {x : AgentItem} (h_ : Keeps r0_ s) : Keeps r0_ (State.waitBehind s m x) := by
  unfold State.waitBehind
  with_reducible repeat' first
    | assumption | apply Keeps.ite | apply Keeps.foldl | apply Keeps.getD | apply State.setAgent_keeps
    | ((fail_if_no_progress extract_lets +onlyGivenNames x); first | ((first | refine Keeps.cut (t := x) ?_ ?_ | refine Keeps.cutO (o := x) ?_ ?_ | refine Keeps.cutP (o := x) ?_ ?_ | refine Keeps.cut1 (o := x) ?_ ?_ | refine Keeps.cut2 (o := x) ?_ ?_); rotate_left; (clear_value x; intro hx); rotate_left; (try subst x)) | (have _h := Keeps.memv x; clear _h) | (have _h := Keeps.bytesv x; clear _h) | (have _h := Keeps.fn x; clear _h; dsimp only [x]; clear x) | (have _h := Keeps.fn2 x; clear _h; dsimp only [x]; clear x) | clear_value x)
    | (fail_if_no_progress refine Keeps.upd ?_ ⟨rfl, rfl, rfl, rfl, rfl⟩)
    | (fail_if_no_progress ((apply Keeps.of_mk; (focus exact rfl); (focus exact rfl)); (with_unfolding_all focus first | (exact fun w => w) | exact SMap.wf_set _ _ | exact SMap.wf_filter _); (with_unfolding_all focus first | (exact fun w => w) | exact SMap.wf_putBytes _ _ | exact SMap.wf_clearRange _ _ | exact SMap.wf_filter _ | (exact fun w => SMap.wf_foldl_set _ _ _ (SMap.wf_clearRange _ _ w)) | (exact fun _ => SMap.wf_nil' _)); (focus first | exact Nat.le_refl _ | exact Nat.le_succ _ | exact Nat.le_add_right _ _)))
    | apply Keeps.foldl1 | apply Keeps.foldl2 | apply Keeps.ite1 | apply Keeps.ite2
    | refine KeepsP.some_keeps (by assumption) _ _ (by assumption)
    | refine KeepsO.oSome (by assumption) (by assumption) | refine KeepsO.oSome (by assumption) rfl
    | refine KeepsP.some_keeps (by assumption) _ _ rfl | apply KeepsP.map | refine Keeps1.keeps (by assumption)
    | refine Keeps2.keeps (by assumption) | exact KeepsO.none _ | apply KeepsO.some | apply KeepsO.ite
    | apply KeepsO.foldl | exact KeepsP.none _ | apply KeepsP.some | apply KeepsP.ite | apply Keeps1.mk'
    | apply Keeps1.ite | apply Keeps1.foldl | apply Keeps2.mk' | apply Keeps2.ite | apply Keeps2.foldl | intro _ _ _
    | intro _ _ | intro _ | split | (fail_if_no_progress dsimp only) | refine KeepsO.oSome ?_ (by assumption)
    | refine KeepsP.some_keeps ?_ _ _ (by assumption) | refine Keeps1.eq ?_ (by assumption)
    | refine Keeps2.eq ?_ (by assumption)

theorem State.gated_keeps {r0_ s : State} {m : Master} {p off : Nat} {be : BitVec 4} {v : Word} {f : State → State}
    (h_ : Keeps r0_ s) (hf : ∀ t, Keeps r0_ t → Keeps r0_ (f t)) : Keeps r0_ (s.gated m p off be v f) := by
  unfold State.gated
  refine Keeps.ite h_ (Keeps.ite (State.waitBehind_keeps h_) ?_)
  split
  · exact (State.writeGate_keepsO h_).some_keeps _ (by assumption)
  · exact Keeps.ite (State.latch_keeps h_) (State.noteSince_keeps (hf _ (State.inTurn_keeps h_)))

end Sys2Proof.Machine
end

