-- ==== Sys2Proof/Laws/KeepsKv.lean ====
section
/-! SUPPORT. What the definitions of queues, images, memory, key-value pages, bind slots, admission and partitions keep. -/

set_option linter.unusedTactic false
set_option linter.unreachableTactic false

namespace Sys2Proof.Machine

/-! ### Queues -/

theorem State.noteBell_keeps {r0_ s : State} {k now : Nat} (h_ : Keeps r0_ s) : Keeps r0_ (State.noteBell s k now) := by
  unfold State.noteBell
  with_reducible repeat' first
    | assumption | apply Keeps.ite | (fail_if_no_progress refine Keeps.upd ?_ ⟨rfl, rfl, rfl, rfl, rfl⟩)

theorem State.writeDblSq_keeps {r0_ s : State} {m : Master} {p q : Nat} {v : Word} (h_ : Keeps r0_ s) : Keeps r0_ (State.writeDblSq s m p q v) := by
  unfold State.writeDblSq
  with_reducible repeat' first
    | assumption | apply Keeps.ite | apply State.latch_keeps | apply State.wakeAll_keeps | apply State.store_keeps
    | apply State.noteBell_keeps

theorem State.writeDblEq_keeps {r0_ s : State} {m : Master} {p e : Nat} {v : Word} (h_ : Keeps r0_ s) : Keeps r0_ (State.writeDblEq s m p e v) := by
  unfold State.writeDblEq
  with_reducible repeat' first
    | assumption | apply Keeps.ite | apply State.latch_keeps | apply State.setEq_keeps | apply State.flush_keeps
    | apply State.store_keeps | apply State.noteBell_keeps

theorem execSqDoorbell_keeps {r0_ s : State} {m : Master} {p : BitVec 7} {q : BitVec 3} {be : BitVec 4} {v : Word} (h_ : Keeps r0_ s) : KeepsR r0_ (execSqDoorbell m p q be v s) := by
  unfold execSqDoorbell
  with_reducible repeat' first
    | assumption | apply KeepsR.next | apply State.gated_keeps | apply State.writeDblSq_keeps | intro _ _

theorem execEqDoorbell_keeps {r0_ s : State} {m : Master} {p : BitVec 7} {e : BitVec 2} {be : BitVec 4} {v : Word} (h_ : Keeps r0_ s) : KeepsR r0_ (execEqDoorbell m p e be v s) := by
  unfold execEqDoorbell
  with_reducible repeat' first
    | assumption | apply KeepsR.next | apply State.gated_keeps | apply State.writeDblEq_keeps | intro _ _

theorem State.writeSqCfg_keeps {r0_ s : State} {m : Master} {p q : Nat} {v : Word} (h_ : Keeps r0_ s) : Keeps r0_ (State.writeSqCfg s m p q v) := by
  unfold State.writeSqCfg
  with_reducible repeat' first
    | assumption | apply Keeps.ite | apply State.setFld_keeps | apply State.setBit_keeps | apply State.latch_keeps
    | apply State.storeFields_keeps

theorem State.writeEqCfg_keeps {r0_ s : State} {m : Master} {p e : Nat} {v : Word} (h_ : Keeps r0_ s) : Keeps r0_ (State.writeEqCfg s m p e v) := by
  unfold State.writeEqCfg
  with_reducible repeat' first
    | assumption | apply Keeps.ite | apply State.setFld_keeps | apply State.setBit_keeps | apply State.latch_keeps
    | apply State.setEq_keeps | apply State.flush_keeps | apply State.storeFields_keeps

theorem execSqEnable_keeps {r0_ s : State} {m : Master} {p : BitVec 7} {q : BitVec 3} {be : BitVec 4} {v : Word} (h_ : Keeps r0_ s) : KeepsR r0_ (execSqEnable m p q be v s) := by
  unfold execSqEnable
  with_reducible repeat' first
    | assumption | apply KeepsR.next | apply State.gated_keeps | apply State.writeSqCfg_keeps | intro _ _

theorem execSqDisable_keeps {r0_ s : State} {m : Master} {p : BitVec 7} {q : BitVec 3} {be : BitVec 4} {v : Word} (h_ : Keeps r0_ s) : KeepsR r0_ (execSqDisable m p q be v s) := by
  unfold execSqDisable
  with_reducible repeat' first
    | assumption | apply KeepsR.next | apply State.gated_keeps | apply State.writeSqCfg_keeps | intro _ _

theorem execEqEnable_keeps {r0_ s : State} {m : Master} {p : BitVec 7} {e : BitVec 2} {be : BitVec 4} {v : Word} (h_ : Keeps r0_ s) : KeepsR r0_ (execEqEnable m p e be v s) := by
  unfold execEqEnable
  with_reducible repeat' first
    | assumption | apply KeepsR.next | apply State.gated_keeps | apply State.writeEqCfg_keeps | intro _ _

theorem execEqDisable_keeps {r0_ s : State} {m : Master} {p : BitVec 7} {e : BitVec 2} {be : BitVec 4} {v : Word} (h_ : Keeps r0_ s) : KeepsR r0_ (execEqDisable m p e be v s) := by
  unfold execEqDisable
  with_reducible repeat' first
    | assumption | apply KeepsR.next | apply State.gated_keeps | apply State.writeEqCfg_keeps | intro _ _

theorem State.readSlot_keeps {r0_ s : State} {p q : Nat} (h_ : Keeps r0_ s) : Keeps r0_ (State.readSlot s p q) := by
  unfold State.readSlot
  with_reducible repeat' first
    | assumption | apply Keeps.ite | apply Keeps.foldl | apply Keeps.getD | apply State.emit_keeps
    | ((fail_if_no_progress extract_lets +onlyGivenNames x); first | ((first | refine Keeps.cut (t := x) ?_ ?_ | refine Keeps.cutO (o := x) ?_ ?_ | refine Keeps.cutP (o := x) ?_ ?_ | refine Keeps.cut1 (o := x) ?_ ?_ | refine Keeps.cut2 (o := x) ?_ ?_); rotate_left; (clear_value x; intro hx); rotate_left; (try subst x)) | (have _h := Keeps.memv x; clear _h) | (have _h := Keeps.bytesv x; clear _h) | (have _h := Keeps.fn x; clear _h; dsimp only [x]; clear x) | (have _h := Keeps.fn2 x; clear _h; dsimp only [x]; clear x) | clear_value x)
    | (fail_if_no_progress refine Keeps.upd ?_ ⟨rfl, rfl, rfl, rfl, rfl⟩)
    | (fail_if_no_progress ((apply Keeps.of_mk; (focus exact rfl); (focus exact rfl)); (with_unfolding_all focus first | (exact fun w => w) | exact SMap.wf_set _ _ | exact SMap.wf_filter _); (with_unfolding_all focus first | (exact fun w => w) | exact SMap.wf_putBytes _ _ | exact SMap.wf_clearRange _ _ | exact SMap.wf_filter _ | (exact fun w => SMap.wf_foldl_set _ _ _ (SMap.wf_clearRange _ _ w)) | (exact fun _ => SMap.wf_nil' _)); (focus first | exact Nat.le_refl _ | exact Nat.le_succ _ | exact Nat.le_add_right _ _)))
    | apply Keeps.foldl1 | apply Keeps.foldl2 | apply Keeps.ite1 | apply Keeps.ite2
    | refine KeepsP.some_keeps (by assumption) _ _ (by assumption)
    | refine KeepsO.oSome (by assumption) (by assumption) | refine KeepsO.oSome (by assumption) rfl
    | refine KeepsP.some_keeps (by assumption) _ _ rfl | apply KeepsP.map | refine Keeps1.keeps (by assumption)
    | refine Keeps2.keeps (by assumption) | exact KeepsO.none _ | apply KeepsO.some | apply KeepsO.ite
    | apply KeepsO.foldl | exact KeepsP.none _ | apply KeepsP.some | apply KeepsP.ite | apply Keeps1.mk'
    | apply Keeps1.ite | apply Keeps1.foldl | apply Keeps2.mk' | apply Keeps2.ite | apply Keeps2.foldl | intro _ _ _
    | intro _ _ | intro _ | split | (fail_if_no_progress dsimp only) | refine KeepsO.oSome ?_ (by assumption)
    | refine KeepsP.some_keeps ?_ _ _ (by assumption) | refine Keeps1.eq ?_ (by assumption)
    | refine Keeps2.eq ?_ (by assumption)

theorem State.fetched_keeps {r0_ s : State} {p q : Nat} (h_ : Keeps r0_ s) : Keeps r0_ (State.fetched s p q) := by
  unfold State.fetched
  with_reducible repeat' first
    | assumption | apply Keeps.ite | apply Keeps.foldl | apply Keeps.getD | apply State.setFld_keeps
    | apply State.readSlot_keeps
    | ((fail_if_no_progress extract_lets +onlyGivenNames x); first | ((first | refine Keeps.cut (t := x) ?_ ?_ | refine Keeps.cutO (o := x) ?_ ?_ | refine Keeps.cutP (o := x) ?_ ?_ | refine Keeps.cut1 (o := x) ?_ ?_ | refine Keeps.cut2 (o := x) ?_ ?_); rotate_left; (clear_value x; intro hx); rotate_left; (try subst x)) | (have _h := Keeps.memv x; clear _h) | (have _h := Keeps.bytesv x; clear _h) | (have _h := Keeps.fn x; clear _h; dsimp only [x]; clear x) | (have _h := Keeps.fn2 x; clear _h; dsimp only [x]; clear x) | clear_value x)
    | (fail_if_no_progress refine Keeps.upd ?_ ⟨rfl, rfl, rfl, rfl, rfl⟩)
    | (fail_if_no_progress ((apply Keeps.of_mk; (focus exact rfl); (focus exact rfl)); (with_unfolding_all focus first | (exact fun w => w) | exact SMap.wf_set _ _ | exact SMap.wf_filter _); (with_unfolding_all focus first | (exact fun w => w) | exact SMap.wf_putBytes _ _ | exact SMap.wf_clearRange _ _ | exact SMap.wf_filter _ | (exact fun w => SMap.wf_foldl_set _ _ _ (SMap.wf_clearRange _ _ w)) | (exact fun _ => SMap.wf_nil' _)); (focus first | exact Nat.le_refl _ | exact Nat.le_succ _ | exact Nat.le_add_right _ _)))
    | apply Keeps.foldl1 | apply Keeps.foldl2 | apply Keeps.ite1 | apply Keeps.ite2
    | refine KeepsP.some_keeps (by assumption) _ _ (by assumption)
    | refine KeepsO.oSome (by assumption) (by assumption) | refine KeepsO.oSome (by assumption) rfl
    | refine KeepsP.some_keeps (by assumption) _ _ rfl | apply KeepsP.map | refine Keeps1.keeps (by assumption)
    | refine Keeps2.keeps (by assumption) | exact KeepsO.none _ | apply KeepsO.some | apply KeepsO.ite
    | apply KeepsO.foldl | exact KeepsP.none _ | apply KeepsP.some | apply KeepsP.ite | apply Keeps1.mk'
    | apply Keeps1.ite | apply Keeps1.foldl | apply Keeps2.mk' | apply Keeps2.ite | apply Keeps2.foldl | intro _ _ _
    | intro _ _ | intro _ | split | (fail_if_no_progress dsimp only) | refine KeepsO.oSome ?_ (by assumption)
    | refine KeepsP.some_keeps ?_ _ _ (by assumption) | refine Keeps1.eq ?_ (by assumption)
    | refine Keeps2.eq ?_ (by assumption)

theorem execFetchError_keeps {r0_ s : State} {p : BitVec 7} {q : BitVec 3} (h_ : Keeps r0_ s) : KeepsR r0_ (execFetchError p q s) := by
  unfold execFetchError
  with_reducible repeat' first
    | assumption | apply KeepsR.next | exact KeepsR.fault _ _ | apply KeepsR.ite | apply Keeps.ite
    | apply Keeps.foldl | apply Keeps.getD | apply State.setBit_keeps | apply State.signal_keeps
    | apply State.latch_keeps | apply State.readSlot_keeps
    | ((fail_if_no_progress extract_lets +onlyGivenNames x); first | ((first | refine Keeps.cut (t := x) ?_ ?_ | refine KeepsR.cut (t := x) ?_ ?_ | refine Keeps.cutO (o := x) ?_ ?_ | refine Keeps.cutP (o := x) ?_ ?_ | refine Keeps.cut1 (o := x) ?_ ?_ | refine Keeps.cut2 (o := x) ?_ ?_); rotate_left; (clear_value x; intro hx); rotate_left; (try subst x)) | (have _h := Keeps.memv x; clear _h) | (have _h := Keeps.bytesv x; clear _h) | (have _h := Keeps.fn x; clear _h; dsimp only [x]; clear x) | (have _h := Keeps.fn2 x; clear _h; dsimp only [x]; clear x) | clear_value x)
    | (fail_if_no_progress refine Keeps.upd ?_ ⟨rfl, rfl, rfl, rfl, rfl⟩)
    | (fail_if_no_progress ((apply Keeps.of_mk; (focus exact rfl); (focus exact rfl)); (with_unfolding_all focus first | (exact fun w => w) | exact SMap.wf_set _ _ | exact SMap.wf_filter _); (with_unfolding_all focus first | (exact fun w => w) | exact SMap.wf_putBytes _ _ | exact SMap.wf_clearRange _ _ | exact SMap.wf_filter _ | (exact fun w => SMap.wf_foldl_set _ _ _ (SMap.wf_clearRange _ _ w)) | (exact fun _ => SMap.wf_nil' _)); (focus first | exact Nat.le_refl _ | exact Nat.le_succ _ | exact Nat.le_add_right _ _)))
    | apply Keeps.foldl1 | apply Keeps.foldl2 | apply Keeps.ite1 | apply Keeps.ite2
    | refine KeepsP.some_keeps (by assumption) _ _ (by assumption)
    | refine KeepsO.oSome (by assumption) (by assumption) | refine KeepsO.oSome (by assumption) rfl
    | refine KeepsP.some_keeps (by assumption) _ _ rfl | apply KeepsP.map | refine Keeps1.keeps (by assumption)
    | refine Keeps2.keeps (by assumption) | exact KeepsO.none _ | apply KeepsO.some | apply KeepsO.ite
    | apply KeepsO.foldl | exact KeepsP.none _ | apply KeepsP.some | apply KeepsP.ite | apply Keeps1.mk'
    | apply Keeps1.ite | apply Keeps1.foldl | apply Keeps2.mk' | apply Keeps2.ite | apply Keeps2.foldl | intro _ _ _
    | intro _ _ | intro _ | split | (fail_if_no_progress dsimp only) | refine KeepsO.oSome ?_ (by assumption)
    | refine KeepsP.some_keeps ?_ _ _ (by assumption) | refine Keeps1.eq ?_ (by assumption)
    | refine Keeps2.eq ?_ (by assumption)

theorem State.serve_keeps {r0_ s : State} {p q : Nat} {d : BitVec 1024} {k : DescKind} {f : State → Nat → State}
    (h_ : Keeps r0_ s) (hf : ∀ t n, Keeps r0_ t → Keeps r0_ (f t n)) : Keeps r0_ (s.serve p q d k f) := by
  have h1 : Keeps r0_ (s.fetched p q) := State.fetched_keeps h_
  have h2 : ∀ a, Keeps r0_ ((s.fetched p q).fetch p q a k) := fun _ => State.fetch_keeps h1
  unfold State.serve
  dsimp only
  refine Keeps.ite (State.refuse_keeps (h2 _)) ?_
  split
  · exact State.refuse_keeps (h2 _)
  · exact hf _ _ (h2 _)

theorem execNop_keeps {r0_ s : State} {p : BitVec 7} {q : BitVec 3} {d : BitVec 1024} (h_ : Keeps r0_ s) : KeepsR r0_ (execNop p q d s) := by
  unfold execNop
  with_reducible repeat' first
    | assumption | apply KeepsR.next | apply State.complete_keeps | apply State.serve_keeps | intro _ _ _ | split

theorem State.cancelTarget_keeps {r0_ s : State} {r : Req} (h_ : Keeps r0_ s) : Keeps r0_ (State.cancelTarget s r) := by
  unfold State.cancelTarget
  with_reducible repeat' first
    | assumption | apply Keeps.ite | apply State.setReq_keeps | apply State.finish_keeps

theorem execCancel_keeps {r0_ s : State} {p : BitVec 7} {q : BitVec 3} {d : BitVec 1024} (h_ : Keeps r0_ s) : KeepsR r0_ (execCancel p q d s) := by
  unfold execCancel
  with_reducible repeat' first
    | assumption | apply KeepsR.next | apply State.complete_keeps | apply State.serve_keeps
    | apply State.cancelTarget_keeps | intro _ _ _ | split

theorem execUnloadModel_keeps {r0_ s : State} {p : BitVec 7} {q : BitVec 3} {d : BitVec 1024} (h_ : Keeps r0_ s) : KeepsR r0_ (execUnloadModel p q d s) := by
  unfold execUnloadModel
  with_reducible repeat' first
    | assumption | apply KeepsR.next | apply State.complete_keeps | apply State.setModel_keeps
    | apply State.serve_keeps | intro _ _ _ | split

theorem State.writeTokens_keeps1 {r0_ s : State} {r : Req} {n_ : List (BitVec 18 × Bool)} (h_ : Keeps r0_ s) : Keeps1 r0_ (State.writeTokens s r n_) := by
  induction n_ generalizing s r with
  | nil =>
    unfold State.writeTokens
    with_reducible repeat' first
      | assumption | apply Keeps1.mk' | apply State.emit_keeps | apply State.moderate_keeps | refine (ih ?_).keeps
      | split
  | cons hd n ih =>
    unfold State.writeTokens
    with_reducible repeat' first
      | assumption | apply Keeps1.mk' | apply State.emit_keeps | apply State.moderate_keeps | refine (ih ?_).keeps
      | split

theorem execOutputRingReread_keeps {r0_ s : State} {p : BitVec 7} {tag : BitVec 64} {consumed : HostRead Word} (h_ : Keeps r0_ s) : KeepsR r0_ (execOutputRingReread p tag consumed s) := by
  unfold execOutputRingReread
  with_reducible repeat' first
    | assumption | apply KeepsR.next | exact KeepsR.fault _ _ | apply KeepsR.ite | apply Keeps.ite
    | apply Keeps.foldl | apply Keeps.getD | apply State.emit_keeps | apply State.setReq_keeps
    | apply State.fail_keeps | apply State.writeTokens_keeps1
    | refine Keeps1.eq (State.writeTokens_keeps1 ?_) (by assumption) | refine (State.writeTokens_keeps1 ?_).keeps
    | ((fail_if_no_progress extract_lets +onlyGivenNames x); first | ((first | refine Keeps.cut (t := x) ?_ ?_ | refine KeepsR.cut (t := x) ?_ ?_ | refine Keeps.cutO (o := x) ?_ ?_ | refine Keeps.cutP (o := x) ?_ ?_ | refine Keeps.cut1 (o := x) ?_ ?_ | refine Keeps.cut2 (o := x) ?_ ?_); rotate_left; (clear_value x; intro hx); rotate_left; (try subst x)) | (have _h := Keeps.memv x; clear _h) | (have _h := Keeps.bytesv x; clear _h) | (have _h := Keeps.fn x; clear _h; dsimp only [x]; clear x) | (have _h := Keeps.fn2 x; clear _h; dsimp only [x]; clear x) | clear_value x)
    | (fail_if_no_progress refine Keeps.upd ?_ ⟨rfl, rfl, rfl, rfl, rfl⟩)
    | (fail_if_no_progress ((apply Keeps.of_mk; (focus exact rfl); (focus exact rfl)); (with_unfolding_all focus first | (exact fun w => w) | exact SMap.wf_set _ _ | exact SMap.wf_filter _); (with_unfolding_all focus first | (exact fun w => w) | exact SMap.wf_putBytes _ _ | exact SMap.wf_clearRange _ _ | exact SMap.wf_filter _ | (exact fun w => SMap.wf_foldl_set _ _ _ (SMap.wf_clearRange _ _ w)) | (exact fun _ => SMap.wf_nil' _)); (focus first | exact Nat.le_refl _ | exact Nat.le_succ _ | exact Nat.le_add_right _ _)))
    | apply Keeps.foldl1 | apply Keeps.foldl2 | apply Keeps.ite1 | apply Keeps.ite2
    | refine KeepsP.some_keeps (by assumption) _ _ (by assumption)
    | refine KeepsO.oSome (by assumption) (by assumption) | refine KeepsO.oSome (by assumption) rfl
    | refine KeepsP.some_keeps (by assumption) _ _ rfl | apply KeepsP.map | refine Keeps1.keeps (by assumption)
    | refine Keeps2.keeps (by assumption) | exact KeepsO.none _ | apply KeepsO.some | apply KeepsO.ite
    | apply KeepsO.foldl | exact KeepsP.none _ | apply KeepsP.some | apply KeepsP.ite | apply Keeps1.mk'
    | apply Keeps1.ite | apply Keeps1.foldl | apply Keeps2.mk' | apply Keeps2.ite | apply Keeps2.foldl | intro _ _ _
    | intro _ _ | intro _ | split | (fail_if_no_progress dsimp only) | refine KeepsO.oSome ?_ (by assumption)
    | refine KeepsP.some_keeps ?_ _ _ (by assumption) | refine Keeps1.eq ?_ (by assumption)
    | refine Keeps2.eq ?_ (by assumption)

theorem execModerationTimer_keeps {r0_ s : State} {eq : Option (BitVec 7 × BitVec 2)} (h_ : Keeps r0_ s) : KeepsR r0_ (execModerationTimer eq s) := by
  unfold execModerationTimer
  with_reducible repeat' first
    | assumption | apply KeepsR.next | apply State.signal_keeps | apply State.setEq_keeps | split

/-! ### Images -/

theorem State.removeNodes_keeps {r0_ s : State} {f : Node → Bool} (h_ : Keeps r0_ s) : Keeps r0_ (State.removeNodes s f) := by
  unfold State.removeNodes
  with_reducible repeat' first
    | assumption | apply Keeps.foldl | apply State.dropKeys_keeps | apply State.unref_keeps
    | apply State.dropRecBlock_keeps | (fail_if_no_progress refine Keeps.upd ?_ ⟨rfl, rfl, rfl, rfl, rfl⟩)
    | intro _ _ _

theorem State.setGroup_keeps {r0_ s : State} {g : Nat} {x : Group} (h_ : Keeps r0_ s) : Keeps r0_ (State.setGroup s g x) := by
  unfold State.setGroup
  with_reducible repeat' first
    | assumption | (fail_if_no_progress refine Keeps.upd ?_ ⟨rfl, rfl, rfl, rfl, rfl⟩)

theorem State.setPanel_keeps {r0_ s : State} {q : Nat} {x : Panel} (h_ : Keeps r0_ s) : Keeps r0_ (State.setPanel s q x) := by
  unfold State.setPanel
  with_reducible repeat' first
    | assumption | (fail_if_no_progress refine Keeps.upd ?_ ⟨rfl, rfl, rfl, rfl, rfl⟩)

theorem State.clearPanelWork_keeps {r0_ s : State} {q : Nat} (h_ : Keeps r0_ s) : Keeps r0_ (State.clearPanelWork s q) := by
  unfold State.clearPanelWork
  with_reducible repeat' first
    | assumption | apply State.dropBlock_keeps | apply State.setPanel_keeps | split

theorem State.unbindGroup_keeps {r0_ s : State} {g : Nat} (h_ : Keeps r0_ s) : Keeps r0_ (State.unbindGroup s g) := by
  unfold State.unbindGroup
  with_reducible repeat' first
    | assumption | apply Keeps.foldl | apply State.setBit_keeps | apply State.setGroup_keeps
    | apply State.clearPanelWork_keeps

theorem State.eraseGroup_keeps {r0_ s : State} {g : Nat} (h_ : Keeps r0_ s) : Keeps r0_ (State.eraseGroup s g) := by
  unfold State.eraseGroup
  with_reducible repeat' first
    | assumption | apply Keeps.foldl | apply State.setGroup_keeps | apply State.setPanel_keeps
    | apply State.unbindGroup_keeps | intro _ _ _

theorem State.zeroBank_keeps {r0_ s : State} {i : Nat} (h_ : Keeps r0_ s) : Keeps r0_ (State.zeroBank s i) := by
  unfold State.zeroBank
  with_reducible repeat' first
    | assumption
    | (fail_if_no_progress ((apply Keeps.of_mk; (focus exact rfl); (focus exact rfl)); (with_unfolding_all focus first | (exact fun w => w) | exact SMap.wf_set _ _ | exact SMap.wf_filter _); (with_unfolding_all focus first | (exact fun w => w) | exact SMap.wf_putBytes _ _ | exact SMap.wf_clearRange _ _ | exact SMap.wf_filter _ | (exact fun w => SMap.wf_foldl_set _ _ _ (SMap.wf_clearRange _ _ w)) | (exact fun _ => SMap.wf_nil' _)); (focus first | exact Nat.le_refl _ | exact Nat.le_succ _ | exact Nat.le_add_right _ _)))

theorem State.unbindGroups_keeps {r0_ s : State} {m : Model} (h_ : Keeps r0_ s) : Keeps r0_ (State.unbindGroups s m) := by
  unfold State.unbindGroups
  with_reducible repeat' first
    | assumption | apply Keeps.foldl | apply State.unbindGroup_keeps | intro _ _ _

theorem State.unloadsDone_keeps {r0_ s : State} {p handle : Nat} (h_ : Keeps r0_ s) : Keeps r0_ (State.unloadsDone s p handle) := by
  unfold State.unloadsDone
  with_reducible repeat' first
    | assumption | apply Keeps.foldl | apply State.complete_keeps | intro _ _ _

theorem State.releaseImage_keeps {r0_ s : State} {m : Model} (h_ : Keeps r0_ s) : Keeps r0_ (State.releaseImage s m) := by
  unfold State.releaseImage
  with_reducible repeat' first
    | assumption | apply Keeps.foldl | apply State.freeScrub_keeps | apply State.kvpUpdate_keeps
    | apply State.unbindGroups_keeps | apply State.unloadsDone_keeps
    | (fail_if_no_progress refine Keeps.upd ?_ ⟨rfl, rfl, rfl, rfl, rfl⟩) | intro _ _ _

theorem State.releaseModel_keeps {r0_ s : State} {m : Model} (h_ : Keeps r0_ s) : Keeps r0_ (State.releaseModel s m) := by
  unfold State.releaseModel
  with_reducible repeat' first
    | assumption | apply State.releaseImage_keeps

theorem State.refuseLoad_keeps {r0_ s : State} {m : Model} {detail : Nat} (h_ : Keeps r0_ s) : Keeps r0_ (State.refuseLoad s m detail) := by
  unfold State.refuseLoad
  with_reducible repeat' first
    | assumption | apply State.complete_keeps | apply State.releaseImage_keeps
    | ((fail_if_no_progress extract_lets +onlyGivenNames x); first | ((refine Keeps.cut (t := x) ?_ ?_); rotate_left; (clear_value x; intro hx); rotate_left; (try subst x)) | clear_value x)
    | split

theorem State.claimBank_keeps {r0_ s : State} {p i : Nat} (h_ : Keeps r0_ s) : Keeps r0_ (State.claimBank s p i) := by
  unfold State.claimBank
  with_reducible repeat' first
    | assumption | apply Keeps.ite | apply State.zeroBank_keeps
    | (fail_if_no_progress refine Keeps.upd ?_ ⟨rfl, rfl, rfl, rfl, rfl⟩)

theorem State.dropLostPlans_keeps {r0_ s : State}  (h_ : Keeps r0_ s) : Keeps r0_ (State.dropLostPlans s) := by
  unfold State.dropLostPlans
  with_reducible repeat' first
    | assumption | apply Keeps.ite | apply Keeps.foldl | apply Keeps.getD
    | ((fail_if_no_progress extract_lets +onlyGivenNames x); first | ((first | refine Keeps.cut (t := x) ?_ ?_ | refine Keeps.cutO (o := x) ?_ ?_ | refine Keeps.cutP (o := x) ?_ ?_ | refine Keeps.cut1 (o := x) ?_ ?_ | refine Keeps.cut2 (o := x) ?_ ?_); rotate_left; (clear_value x; intro hx); rotate_left; (try subst x)) | (have _h := Keeps.memv x; clear _h) | (have _h := Keeps.bytesv x; clear _h) | (have _h := Keeps.fn x; clear _h; dsimp only [x]; clear x) | (have _h := Keeps.fn2 x; clear _h; dsimp only [x]; clear x) | clear_value x)
    | (fail_if_no_progress refine Keeps.upd ?_ ⟨rfl, rfl, rfl, rfl, rfl⟩)
    | (fail_if_no_progress ((apply Keeps.of_mk; (focus exact rfl); (focus exact rfl)); (with_unfolding_all focus first | (exact fun w => w) | exact SMap.wf_set _ _ | exact SMap.wf_filter _); (with_unfolding_all focus first | (exact fun w => w) | exact SMap.wf_putBytes _ _ | exact SMap.wf_clearRange _ _ | exact SMap.wf_filter _ | (exact fun w => SMap.wf_foldl_set _ _ _ (SMap.wf_clearRange _ _ w)) | (exact fun _ => SMap.wf_nil' _)); (focus first | exact Nat.le_refl _ | exact Nat.le_succ _ | exact Nat.le_add_right _ _)))
    | apply Keeps.foldl1 | apply Keeps.foldl2 | apply Keeps.ite1 | apply Keeps.ite2
    | refine KeepsP.some_keeps (by assumption) _ _ (by assumption)
    | refine KeepsO.oSome (by assumption) (by assumption) | refine KeepsO.oSome (by assumption) rfl
    | refine KeepsP.some_keeps (by assumption) _ _ rfl | apply KeepsP.map | refine Keeps1.keeps (by assumption)
    | refine Keeps2.keeps (by assumption) | exact KeepsO.none _ | apply KeepsO.some | apply KeepsO.ite
    | apply KeepsO.foldl | exact KeepsP.none _ | apply KeepsP.some | apply KeepsP.ite | apply Keeps1.mk'
    | apply Keeps1.ite | apply Keeps1.foldl | apply Keeps2.mk' | apply Keeps2.ite | apply Keeps2.foldl | intro _ _ _
    | intro _ _ | intro _ | split | (fail_if_no_progress dsimp only) | refine KeepsO.oSome ?_ (by assumption)
    | refine KeepsP.some_keeps ?_ _ _ (by assumption) | refine Keeps1.eq ?_ (by assumption)
    | refine Keeps2.eq ?_ (by assumption)

/-! ### Memory -/

theorem State.errDpa_keeps {r0_ s : State} {u a : Nat} (h_ : Keeps r0_ s) : Keeps r0_ (State.errDpa s u a) := by
  unfold State.errDpa
  with_reducible repeat' first
    | assumption | apply State.setReg_keeps

theorem State.lineCe_keeps {r0_ s : State} {a : Nat} (h_ : Keeps r0_ s) : Keeps r0_ (State.lineCe s a) := by
  unfold State.lineCe
  with_reducible repeat' first
    | assumption | apply State.inc_keeps | apply State.errDpa_keeps
    | (fail_if_no_progress ((apply Keeps.of_mk; (focus exact rfl); (focus exact rfl)); (with_unfolding_all focus first | (exact fun w => w) | exact SMap.wf_set _ _ | exact SMap.wf_filter _); (with_unfolding_all focus first | (exact fun w => w) | exact SMap.wf_putBytes _ _ | exact SMap.wf_clearRange _ _ | exact SMap.wf_filter _ | (exact fun w => SMap.wf_foldl_set _ _ _ (SMap.wf_clearRange _ _ w)) | (exact fun _ => SMap.wf_nil' _)); (focus first | exact Nat.le_refl _ | exact Nat.le_succ _ | exact Nat.le_add_right _ _)))
    | split

theorem State.readMarred_keeps {r0_ s : State} {a n : Nat} (h_ : Keeps r0_ s) : Keeps r0_ (State.readMarred s a n) := by
  unfold State.readMarred
  with_reducible repeat' first
    | assumption | apply Keeps.ite | apply Keeps.foldl | apply Keeps.getD | apply State.lineCe_keeps
    | ((fail_if_no_progress extract_lets +onlyGivenNames x); first | ((first | refine Keeps.cut (t := x) ?_ ?_ | refine Keeps.cutO (o := x) ?_ ?_ | refine Keeps.cutP (o := x) ?_ ?_ | refine Keeps.cut1 (o := x) ?_ ?_ | refine Keeps.cut2 (o := x) ?_ ?_); rotate_left; (clear_value x; intro hx); rotate_left; (try subst x)) | (have _h := Keeps.memv x; clear _h) | (have _h := Keeps.bytesv x; clear _h) | (have _h := Keeps.fn x; clear _h; dsimp only [x]; clear x) | (have _h := Keeps.fn2 x; clear _h; dsimp only [x]; clear x) | clear_value x)
    | (fail_if_no_progress refine Keeps.upd ?_ ⟨rfl, rfl, rfl, rfl, rfl⟩)
    | (fail_if_no_progress ((apply Keeps.of_mk; (focus exact rfl); (focus exact rfl)); (with_unfolding_all focus first | (exact fun w => w) | exact SMap.wf_set _ _ | exact SMap.wf_filter _); (with_unfolding_all focus first | (exact fun w => w) | exact SMap.wf_putBytes _ _ | exact SMap.wf_clearRange _ _ | exact SMap.wf_filter _ | (exact fun w => SMap.wf_foldl_set _ _ _ (SMap.wf_clearRange _ _ w)) | (exact fun _ => SMap.wf_nil' _)); (focus first | exact Nat.le_refl _ | exact Nat.le_succ _ | exact Nat.le_add_right _ _)))
    | apply Keeps.foldl1 | apply Keeps.foldl2 | apply Keeps.ite1 | apply Keeps.ite2
    | refine KeepsP.some_keeps (by assumption) _ _ (by assumption)
    | refine KeepsO.oSome (by assumption) (by assumption) | refine KeepsO.oSome (by assumption) rfl
    | refine KeepsP.some_keeps (by assumption) _ _ rfl | apply KeepsP.map | refine Keeps1.keeps (by assumption)
    | refine Keeps2.keeps (by assumption) | exact KeepsO.none _ | apply KeepsO.some | apply KeepsO.ite
    | apply KeepsO.foldl | exact KeepsP.none _ | apply KeepsP.some | apply KeepsP.ite | apply Keeps1.mk'
    | apply Keeps1.ite | apply Keeps1.foldl | apply Keeps2.mk' | apply Keeps2.ite | apply Keeps2.foldl | intro _ _ _
    | intro _ _ | intro _ | split | (fail_if_no_progress dsimp only) | refine KeepsO.oSome ?_ (by assumption)
    | refine KeepsP.some_keeps ?_ _ _ (by assumption) | refine Keeps1.eq ?_ (by assumption)
    | refine Keeps2.eq ?_ (by assumption)

theorem State.readRanges_keeps {r0_ s : State} {rs : List (Nat × Nat)} (h_ : Keeps r0_ s) : Keeps r0_ (State.readRanges s rs) := by
  unfold State.readRanges
  with_reducible repeat' first
    | assumption | apply Keeps.ite | apply Keeps.foldl | apply Keeps.getD | apply State.readMarred_keeps
    | ((fail_if_no_progress extract_lets +onlyGivenNames x); first | ((first | refine Keeps.cut (t := x) ?_ ?_ | refine Keeps.cutO (o := x) ?_ ?_ | refine Keeps.cutP (o := x) ?_ ?_ | refine Keeps.cut1 (o := x) ?_ ?_ | refine Keeps.cut2 (o := x) ?_ ?_); rotate_left; (clear_value x; intro hx); rotate_left; (try subst x)) | (have _h := Keeps.memv x; clear _h) | (have _h := Keeps.bytesv x; clear _h) | (have _h := Keeps.fn x; clear _h; dsimp only [x]; clear x) | (have _h := Keeps.fn2 x; clear _h; dsimp only [x]; clear x) | clear_value x)
    | (fail_if_no_progress refine Keeps.upd ?_ ⟨rfl, rfl, rfl, rfl, rfl⟩)
    | (fail_if_no_progress ((apply Keeps.of_mk; (focus exact rfl); (focus exact rfl)); (with_unfolding_all focus first | (exact fun w => w) | exact SMap.wf_set _ _ | exact SMap.wf_filter _); (with_unfolding_all focus first | (exact fun w => w) | exact SMap.wf_putBytes _ _ | exact SMap.wf_clearRange _ _ | exact SMap.wf_filter _ | (exact fun w => SMap.wf_foldl_set _ _ _ (SMap.wf_clearRange _ _ w)) | (exact fun _ => SMap.wf_nil' _)); (focus first | exact Nat.le_refl _ | exact Nat.le_succ _ | exact Nat.le_add_right _ _)))
    | apply Keeps.foldl1 | apply Keeps.foldl2 | apply Keeps.ite1 | apply Keeps.ite2
    | refine KeepsP.some_keeps (by assumption) _ _ (by assumption)
    | refine KeepsO.oSome (by assumption) (by assumption) | refine KeepsO.oSome (by assumption) rfl
    | refine KeepsP.some_keeps (by assumption) _ _ rfl | apply KeepsP.map | refine Keeps1.keeps (by assumption)
    | refine Keeps2.keeps (by assumption) | exact KeepsO.none _ | apply KeepsO.some | apply KeepsO.ite
    | apply KeepsO.foldl | exact KeepsP.none _ | apply KeepsP.some | apply KeepsP.ite | apply Keeps1.mk'
    | apply Keeps1.ite | apply Keeps1.foldl | apply Keeps2.mk' | apply Keeps2.ite | apply Keeps2.foldl | intro _ _ _
    | intro _ _ | intro _ | split | (fail_if_no_progress dsimp only) | refine KeepsO.oSome ?_ (by assumption)
    | refine KeepsP.some_keeps ?_ _ _ (by assumption) | refine Keeps1.eq ?_ (by assumption)
    | refine Keeps2.eq ?_ (by assumption)

theorem State.lineUe_keeps {r0_ s : State} {a : Nat} (h_ : Keeps r0_ s) : Keeps r0_ (State.lineUe s a) := by
  unfold State.lineUe
  with_reducible repeat' first
    | assumption | apply State.inc_keeps | apply State.latch_keeps | apply State.errDpa_keeps
    | apply State.retireFrame_keeps | split

theorem State.lineUeFor_keeps {r0_ s : State} {a p : Nat} {tag : BitVec 64} (h_ : Keeps r0_ s) : Keeps r0_ (State.lineUeFor s a p tag) := by
  unfold State.lineUeFor
  with_reducible repeat' first
    | assumption | apply State.failTag_keeps | apply State.lineUe_keeps

theorem State.failEntry_keeps {r0_ s : State} {a : Nat} (h_ : Keeps r0_ s) : Keeps r0_ (State.failEntry s a) := by
  unfold State.failEntry
  with_reducible repeat' first
    | assumption | apply State.failShards_keeps

theorem State.pteBad_keeps {r0_ s : State} {a : Nat} (h_ : Keeps r0_ s) : Keeps r0_ (State.pteBad s a) := by
  unfold State.pteBad
  with_reducible repeat' first
    | assumption | apply State.latch_keeps | apply State.failEntry_keeps

theorem State.ptUe_keeps {r0_ s : State} {a : Nat} (h_ : Keeps r0_ s) : Keeps r0_ (State.ptUe s a) := by
  unfold State.ptUe
  with_reducible repeat' first
    | assumption | apply State.latch_keeps | apply State.lineUe_keeps | apply State.failEntry_keeps

theorem State.indexUe_keeps {r0_ s : State} {a : Nat} {tag : BitVec 64} (h_ : Keeps r0_ s) : Keeps r0_ (State.indexUe s a tag) := by
  unfold State.indexUe
  with_reducible repeat' first
    | assumption | apply State.latch_keeps | apply State.failShards_keeps | apply State.removeNodes_keeps
    | apply State.lineUe_keeps | split

theorem State.entryUe_keeps {r0_ s : State} {own l : Nat} (h_ : Keeps r0_ s) : Keeps r0_ (State.entryUe s own l) := by
  unfold State.entryUe
  with_reducible repeat' first
    | assumption | apply Keeps.ite | apply Keeps.foldl | apply Keeps.getD | apply State.ptUe_keeps
    | apply State.indexUe_keeps
    | ((fail_if_no_progress extract_lets +onlyGivenNames x); first | ((first | refine Keeps.cut (t := x) ?_ ?_ | refine Keeps.cutO (o := x) ?_ ?_ | refine Keeps.cutP (o := x) ?_ ?_ | refine Keeps.cut1 (o := x) ?_ ?_ | refine Keeps.cut2 (o := x) ?_ ?_); rotate_left; (clear_value x; intro hx); rotate_left; (try subst x)) | (have _h := Keeps.memv x; clear _h) | (have _h := Keeps.bytesv x; clear _h) | (have _h := Keeps.fn x; clear _h; dsimp only [x]; clear x) | (have _h := Keeps.fn2 x; clear _h; dsimp only [x]; clear x) | clear_value x)
    | (fail_if_no_progress refine Keeps.upd ?_ ⟨rfl, rfl, rfl, rfl, rfl⟩)
    | (fail_if_no_progress ((apply Keeps.of_mk; (focus exact rfl); (focus exact rfl)); (with_unfolding_all focus first | (exact fun w => w) | exact SMap.wf_set _ _ | exact SMap.wf_filter _); (with_unfolding_all focus first | (exact fun w => w) | exact SMap.wf_putBytes _ _ | exact SMap.wf_clearRange _ _ | exact SMap.wf_filter _ | (exact fun w => SMap.wf_foldl_set _ _ _ (SMap.wf_clearRange _ _ w)) | (exact fun _ => SMap.wf_nil' _)); (focus first | exact Nat.le_refl _ | exact Nat.le_succ _ | exact Nat.le_add_right _ _)))
    | apply Keeps.foldl1 | apply Keeps.foldl2 | apply Keeps.ite1 | apply Keeps.ite2
    | refine KeepsP.some_keeps (by assumption) _ _ (by assumption)
    | refine KeepsO.oSome (by assumption) (by assumption) | refine KeepsO.oSome (by assumption) rfl
    | refine KeepsP.some_keeps (by assumption) _ _ rfl | apply KeepsP.map | refine Keeps1.keeps (by assumption)
    | refine Keeps2.keeps (by assumption) | exact KeepsO.none _ | apply KeepsO.some | apply KeepsO.ite
    | apply KeepsO.foldl | exact KeepsP.none _ | apply KeepsP.some | apply KeepsP.ite | apply Keeps1.mk'
    | apply Keeps1.ite | apply Keeps1.foldl | apply Keeps2.mk' | apply Keeps2.ite | apply Keeps2.foldl | intro _ _ _
    | intro _ _ | intro _ | split | (fail_if_no_progress dsimp only) | refine KeepsO.oSome ?_ (by assumption)
    | refine KeepsP.some_keeps ?_ _ _ (by assumption) | refine Keeps1.eq ?_ (by assumption)
    | refine Keeps2.eq ?_ (by assumption)

theorem State.entryBad_keepsO {r0_ s : State} {own : Nat} (h_ : Keeps r0_ s) : KeepsO r0_ (State.entryBad s own) := by
  unfold State.entryBad
  with_reducible repeat' first
    | assumption | exact KeepsO.none _ | apply KeepsO.some | apply KeepsO.ite | apply KeepsO.foldl | apply Keeps.ite
    | apply Keeps.foldl | apply Keeps.getD | apply State.pteBad_keeps | apply State.entryUe_keeps
    | ((fail_if_no_progress extract_lets +onlyGivenNames x); first | ((first | refine Keeps.cut (t := x) ?_ ?_ | refine KeepsO.cut (t := x) ?_ ?_ | refine Keeps.cutO (o := x) ?_ ?_ | refine Keeps.cutP (o := x) ?_ ?_ | refine Keeps.cut1 (o := x) ?_ ?_ | refine Keeps.cut2 (o := x) ?_ ?_); rotate_left; (clear_value x; intro hx); rotate_left; (try subst x)) | (have _h := Keeps.memv x; clear _h) | (have _h := Keeps.bytesv x; clear _h) | (have _h := Keeps.fn x; clear _h; dsimp only [x]; clear x) | (have _h := Keeps.fn2 x; clear _h; dsimp only [x]; clear x) | clear_value x)
    | (fail_if_no_progress refine Keeps.upd ?_ ⟨rfl, rfl, rfl, rfl, rfl⟩)
    | (fail_if_no_progress ((apply Keeps.of_mk; (focus exact rfl); (focus exact rfl)); (with_unfolding_all focus first | (exact fun w => w) | exact SMap.wf_set _ _ | exact SMap.wf_filter _); (with_unfolding_all focus first | (exact fun w => w) | exact SMap.wf_putBytes _ _ | exact SMap.wf_clearRange _ _ | exact SMap.wf_filter _ | (exact fun w => SMap.wf_foldl_set _ _ _ (SMap.wf_clearRange _ _ w)) | (exact fun _ => SMap.wf_nil' _)); (focus first | exact Nat.le_refl _ | exact Nat.le_succ _ | exact Nat.le_add_right _ _)))
    | apply Keeps.foldl1 | apply Keeps.foldl2 | apply Keeps.ite1 | apply Keeps.ite2
    | refine KeepsP.some_keeps (by assumption) _ _ (by assumption)
    | refine KeepsO.oSome (by assumption) (by assumption) | refine KeepsO.oSome (by assumption) rfl
    | refine KeepsP.some_keeps (by assumption) _ _ rfl | apply KeepsP.map | refine Keeps1.keeps (by assumption)
    | refine Keeps2.keeps (by assumption) | exact KeepsP.none _ | apply KeepsP.some | apply KeepsP.ite
    | apply Keeps1.mk' | apply Keeps1.ite | apply Keeps1.foldl | apply Keeps2.mk' | apply Keeps2.ite
    | apply Keeps2.foldl | intro _ _ _ | intro _ _ | intro _ | split | (fail_if_no_progress dsimp only)
    | refine KeepsO.oSome ?_ (by assumption) | refine KeepsP.some_keeps ?_ _ _ (by assumption)
    | refine Keeps1.eq ?_ (by assumption) | refine Keeps2.eq ?_ (by assumption)

theorem State.reserveMoves_keepsO {r0_ s : State} {b : Burst} {n_ : List Move} (h_ : Keeps r0_ s) : KeepsP r0_ (State.reserveMoves s b n_) := by
  induction n_ generalizing s b with
  | nil =>
    unfold State.reserveMoves
    with_reducible repeat' first
      | assumption | exact KeepsP.none _ | apply KeepsP.some
      | refine (State.takeIn_keepsO ?_).some_keeps _ _ (by assumption)
      | refine (ih ?_).some_keeps _ _ (by assumption) | split
  | cons hd n ih =>
    unfold State.reserveMoves
    with_reducible repeat' first
      | assumption | exact KeepsP.none _ | apply KeepsP.some
      | refine (State.takeIn_keepsO ?_).some_keeps _ _ (by assumption)
      | refine (ih ?_).some_keeps _ _ (by assumption) | split

theorem State.writeDst_keeps {r0_ s : State} {b : Burst} (h_ : Keeps r0_ s) : Keeps r0_ (State.writeDst s b) := by
  unfold State.writeDst
  with_reducible repeat' first
    | assumption | apply Keeps.ite | apply Keeps.foldl | apply Keeps.getD | apply State.emit_keeps
    | apply State.wr_keeps
    | ((fail_if_no_progress extract_lets +onlyGivenNames x); first | ((first | refine Keeps.cut (t := x) ?_ ?_ | refine Keeps.cutO (o := x) ?_ ?_ | refine Keeps.cutP (o := x) ?_ ?_ | refine Keeps.cut1 (o := x) ?_ ?_ | refine Keeps.cut2 (o := x) ?_ ?_); rotate_left; (clear_value x; intro hx); rotate_left; (try subst x)) | (have _h := Keeps.memv x; clear _h) | (have _h := Keeps.bytesv x; clear _h) | (have _h := Keeps.fn x; clear _h; dsimp only [x]; clear x) | (have _h := Keeps.fn2 x; clear _h; dsimp only [x]; clear x) | clear_value x)
    | (fail_if_no_progress refine Keeps.upd ?_ ⟨rfl, rfl, rfl, rfl, rfl⟩)
    | (fail_if_no_progress ((apply Keeps.of_mk; (focus exact rfl); (focus exact rfl)); (with_unfolding_all focus first | (exact fun w => w) | exact SMap.wf_set _ _ | exact SMap.wf_filter _); (with_unfolding_all focus first | (exact fun w => w) | exact SMap.wf_putBytes _ _ | exact SMap.wf_clearRange _ _ | exact SMap.wf_filter _ | (exact fun w => SMap.wf_foldl_set _ _ _ (SMap.wf_clearRange _ _ w)) | (exact fun _ => SMap.wf_nil' _)); (focus first | exact Nat.le_refl _ | exact Nat.le_succ _ | exact Nat.le_add_right _ _)))
    | apply Keeps.foldl1 | apply Keeps.foldl2 | apply Keeps.ite1 | apply Keeps.ite2
    | refine KeepsP.some_keeps (by assumption) _ _ (by assumption)
    | refine KeepsO.oSome (by assumption) (by assumption) | refine KeepsO.oSome (by assumption) rfl
    | refine KeepsP.some_keeps (by assumption) _ _ rfl | apply KeepsP.map | refine Keeps1.keeps (by assumption)
    | refine Keeps2.keeps (by assumption) | exact KeepsO.none _ | apply KeepsO.some | apply KeepsO.ite
    | apply KeepsO.foldl | exact KeepsP.none _ | apply KeepsP.some | apply KeepsP.ite | apply Keeps1.mk'
    | apply Keeps1.ite | apply Keeps1.foldl | apply Keeps2.mk' | apply Keeps2.ite | apply Keeps2.foldl | intro _ _ _
    | intro _ _ | intro _ | split | (fail_if_no_progress dsimp only) | refine KeepsO.oSome ?_ (by assumption)
    | refine KeepsP.some_keeps ?_ _ _ (by assumption) | refine Keeps1.eq ?_ (by assumption)
    | refine Keeps2.eq ?_ (by assumption)

theorem State.tryIssue_keepsO {r0_ s : State} {b : Burst} (h_ : Keeps r0_ s) : KeepsO r0_ (State.tryIssue s b) := by
  unfold State.tryIssue
  with_reducible repeat' first
    | assumption | exact KeepsO.none _ | apply KeepsO.some
    | refine (State.reserveMoves_keepsO ?_).some_keeps _ _ (by assumption) | apply State.writeDst_keeps
    | (fail_if_no_progress refine Keeps.upd ?_ ⟨rfl, rfl, rfl, rfl, rfl⟩) | split

theorem State.placeBurst_keeps {r0_ s : State} {b : Burst} (h_ : Keeps r0_ s) : Keeps r0_ (State.placeBurst s b) := by
  unfold State.placeBurst
  with_reducible repeat' first
    | assumption | apply Keeps.ite | apply Keeps.foldl | apply Keeps.getD | apply State.inc_keeps
    | apply State.tryIssue_keepsO | refine (State.tryIssue_keepsO ?_).some_keeps _ (by assumption)
    | ((fail_if_no_progress extract_lets +onlyGivenNames x); first | ((first | refine Keeps.cut (t := x) ?_ ?_ | refine Keeps.cutO (o := x) ?_ ?_ | refine Keeps.cutP (o := x) ?_ ?_ | refine Keeps.cut1 (o := x) ?_ ?_ | refine Keeps.cut2 (o := x) ?_ ?_); rotate_left; (clear_value x; intro hx); rotate_left; (try subst x)) | (have _h := Keeps.memv x; clear _h) | (have _h := Keeps.bytesv x; clear _h) | (have _h := Keeps.fn x; clear _h; dsimp only [x]; clear x) | (have _h := Keeps.fn2 x; clear _h; dsimp only [x]; clear x) | clear_value x)
    | (fail_if_no_progress refine Keeps.upd ?_ ⟨rfl, rfl, rfl, rfl, rfl⟩)
    | (fail_if_no_progress ((apply Keeps.of_mk; (focus exact rfl); (focus exact rfl)); (with_unfolding_all focus first | (exact fun w => w) | exact SMap.wf_set _ _ | exact SMap.wf_filter _); (with_unfolding_all focus first | (exact fun w => w) | exact SMap.wf_putBytes _ _ | exact SMap.wf_clearRange _ _ | exact SMap.wf_filter _ | (exact fun w => SMap.wf_foldl_set _ _ _ (SMap.wf_clearRange _ _ w)) | (exact fun _ => SMap.wf_nil' _)); (focus first | exact Nat.le_refl _ | exact Nat.le_succ _ | exact Nat.le_add_right _ _)))
    | apply Keeps.foldl1 | apply Keeps.foldl2 | apply Keeps.ite1 | apply Keeps.ite2
    | refine KeepsP.some_keeps (by assumption) _ _ (by assumption)
    | refine KeepsO.oSome (by assumption) (by assumption) | refine KeepsO.oSome (by assumption) rfl
    | refine KeepsP.some_keeps (by assumption) _ _ rfl | apply KeepsP.map | refine Keeps1.keeps (by assumption)
    | refine Keeps2.keeps (by assumption) | exact KeepsO.none _ | apply KeepsO.some | apply KeepsO.ite
    | apply KeepsO.foldl | exact KeepsP.none _ | apply KeepsP.some | apply KeepsP.ite | apply Keeps1.mk'
    | apply Keeps1.ite | apply Keeps1.foldl | apply Keeps2.mk' | apply Keeps2.ite | apply Keeps2.foldl | intro _ _ _
    | intro _ _ | intro _ | split | (fail_if_no_progress dsimp only) | refine KeepsO.oSome ?_ (by assumption)
    | refine KeepsP.some_keeps ?_ _ _ (by assumption) | refine Keeps1.eq ?_ (by assumption)
    | refine Keeps2.eq ?_ (by assumption)

theorem State.submitBurst_keeps {r0_ s : State} {b : Burst} (h_ : Keeps r0_ s) : Keeps r0_ (State.submitBurst s b) := by
  unfold State.submitBurst
  with_reducible repeat' first
    | assumption | apply Keeps.ite | apply Keeps.foldl | apply Keeps.getD | apply State.endBurst_keeps
    | apply State.placeBurst_keeps
    | ((fail_if_no_progress extract_lets +onlyGivenNames x); first | ((first | refine Keeps.cut (t := x) ?_ ?_ | refine Keeps.cutO (o := x) ?_ ?_ | refine Keeps.cutP (o := x) ?_ ?_ | refine Keeps.cut1 (o := x) ?_ ?_ | refine Keeps.cut2 (o := x) ?_ ?_); rotate_left; (clear_value x; intro hx); rotate_left; (try subst x)) | (have _h := Keeps.memv x; clear _h) | (have _h := Keeps.bytesv x; clear _h) | (have _h := Keeps.fn x; clear _h; dsimp only [x]; clear x) | (have _h := Keeps.fn2 x; clear _h; dsimp only [x]; clear x) | clear_value x)
    | (fail_if_no_progress refine Keeps.upd ?_ ⟨rfl, rfl, rfl, rfl, rfl⟩)
    | (fail_if_no_progress ((apply Keeps.of_mk; (focus exact rfl); (focus exact rfl)); (with_unfolding_all focus first | (exact fun w => w) | exact SMap.wf_set _ _ | exact SMap.wf_filter _); (with_unfolding_all focus first | (exact fun w => w) | exact SMap.wf_putBytes _ _ | exact SMap.wf_clearRange _ _ | exact SMap.wf_filter _ | (exact fun w => SMap.wf_foldl_set _ _ _ (SMap.wf_clearRange _ _ w)) | (exact fun _ => SMap.wf_nil' _)); (focus first | exact Nat.le_refl _ | exact Nat.le_succ _ | exact Nat.le_add_right _ _)))
    | apply Keeps.foldl1 | apply Keeps.foldl2 | apply Keeps.ite1 | apply Keeps.ite2
    | refine KeepsP.some_keeps (by assumption) _ _ (by assumption)
    | refine KeepsO.oSome (by assumption) (by assumption) | refine KeepsO.oSome (by assumption) rfl
    | refine KeepsP.some_keeps (by assumption) _ _ rfl | apply KeepsP.map | refine Keeps1.keeps (by assumption)
    | refine Keeps2.keeps (by assumption) | exact KeepsO.none _ | apply KeepsO.some | apply KeepsO.ite
    | apply KeepsO.foldl | exact KeepsP.none _ | apply KeepsP.some | apply KeepsP.ite | apply Keeps1.mk'
    | apply Keeps1.ite | apply Keeps1.foldl | apply Keeps2.mk' | apply Keeps2.ite | apply Keeps2.foldl | intro _ _ _
    | intro _ _ | intro _ | split | (fail_if_no_progress dsimp only) | refine KeepsO.oSome ?_ (by assumption)
    | refine KeepsP.some_keeps ?_ _ _ (by assumption) | refine Keeps1.eq ?_ (by assumption)
    | refine Keeps2.eq ?_ (by assumption)

theorem State.issueWaiting_keeps {r0_ s : State}  {n_ : Nat} (h_ : Keeps r0_ s) : Keeps r0_ (State.issueWaiting s n_) := by
  induction n_ generalizing s  with
  | zero =>
    unfold State.issueWaiting
    with_reducible repeat' first
      | assumption | apply Keeps.ite | apply Keeps.foldl | apply Keeps.getD | apply State.placeBurst_keeps | apply ih
      | ((fail_if_no_progress extract_lets +onlyGivenNames x); first | ((first | refine Keeps.cut (t := x) ?_ ?_ | refine Keeps.cutO (o := x) ?_ ?_ | refine Keeps.cutP (o := x) ?_ ?_ | refine Keeps.cut1 (o := x) ?_ ?_ | refine Keeps.cut2 (o := x) ?_ ?_); rotate_left; (clear_value x; intro hx); rotate_left; (try subst x)) | (have _h := Keeps.memv x; clear _h) | (have _h := Keeps.bytesv x; clear _h) | (have _h := Keeps.fn x; clear _h; dsimp only [x]; clear x) | (have _h := Keeps.fn2 x; clear _h; dsimp only [x]; clear x) | clear_value x)
      | (fail_if_no_progress refine Keeps.upd ?_ ⟨rfl, rfl, rfl, rfl, rfl⟩)
      | (fail_if_no_progress ((apply Keeps.of_mk; (focus exact rfl); (focus exact rfl)); (with_unfolding_all focus first | (exact fun w => w) | exact SMap.wf_set _ _ | exact SMap.wf_filter _); (with_unfolding_all focus first | (exact fun w => w) | exact SMap.wf_putBytes _ _ | exact SMap.wf_clearRange _ _ | exact SMap.wf_filter _ | (exact fun w => SMap.wf_foldl_set _ _ _ (SMap.wf_clearRange _ _ w)) | (exact fun _ => SMap.wf_nil' _)); (focus first | exact Nat.le_refl _ | exact Nat.le_succ _ | exact Nat.le_add_right _ _)))
      | apply Keeps.foldl1 | apply Keeps.foldl2 | apply Keeps.ite1 | apply Keeps.ite2
      | refine KeepsP.some_keeps (by assumption) _ _ (by assumption)
      | refine KeepsO.oSome (by assumption) (by assumption) | refine KeepsO.oSome (by assumption) rfl
      | refine KeepsP.some_keeps (by assumption) _ _ rfl | apply KeepsP.map | refine Keeps1.keeps (by assumption)
      | refine Keeps2.keeps (by assumption) | exact KeepsO.none _ | apply KeepsO.some | apply KeepsO.ite
      | apply KeepsO.foldl | exact KeepsP.none _ | apply KeepsP.some | apply KeepsP.ite | apply Keeps1.mk'
      | apply Keeps1.ite | apply Keeps1.foldl | apply Keeps2.mk' | apply Keeps2.ite | apply Keeps2.foldl
      | intro _ _ _ | intro _ _ | intro _ | split | (fail_if_no_progress dsimp only)
      | refine KeepsO.oSome ?_ (by assumption) | refine KeepsP.some_keeps ?_ _ _ (by assumption)
      | refine Keeps1.eq ?_ (by assumption) | refine Keeps2.eq ?_ (by assumption)
  | succ n ih =>
    unfold State.issueWaiting
    with_reducible repeat' first
      | assumption | apply Keeps.ite | apply Keeps.foldl | apply Keeps.getD | apply State.placeBurst_keeps | apply ih
      | ((fail_if_no_progress extract_lets +onlyGivenNames x); first | ((first | refine Keeps.cut (t := x) ?_ ?_ | refine Keeps.cutO (o := x) ?_ ?_ | refine Keeps.cutP (o := x) ?_ ?_ | refine Keeps.cut1 (o := x) ?_ ?_ | refine Keeps.cut2 (o := x) ?_ ?_); rotate_left; (clear_value x; intro hx); rotate_left; (try subst x)) | (have _h := Keeps.memv x; clear _h) | (have _h := Keeps.bytesv x; clear _h) | (have _h := Keeps.fn x; clear _h; dsimp only [x]; clear x) | (have _h := Keeps.fn2 x; clear _h; dsimp only [x]; clear x) | clear_value x)
      | (fail_if_no_progress refine Keeps.upd ?_ ⟨rfl, rfl, rfl, rfl, rfl⟩)
      | (fail_if_no_progress ((apply Keeps.of_mk; (focus exact rfl); (focus exact rfl)); (with_unfolding_all focus first | (exact fun w => w) | exact SMap.wf_set _ _ | exact SMap.wf_filter _); (with_unfolding_all focus first | (exact fun w => w) | exact SMap.wf_putBytes _ _ | exact SMap.wf_clearRange _ _ | exact SMap.wf_filter _ | (exact fun w => SMap.wf_foldl_set _ _ _ (SMap.wf_clearRange _ _ w)) | (exact fun _ => SMap.wf_nil' _)); (focus first | exact Nat.le_refl _ | exact Nat.le_succ _ | exact Nat.le_add_right _ _)))
      | apply Keeps.foldl1 | apply Keeps.foldl2 | apply Keeps.ite1 | apply Keeps.ite2
      | refine KeepsP.some_keeps (by assumption) _ _ (by assumption)
      | refine KeepsO.oSome (by assumption) (by assumption) | refine KeepsO.oSome (by assumption) rfl
      | refine KeepsP.some_keeps (by assumption) _ _ rfl | apply KeepsP.map | refine Keeps1.keeps (by assumption)
      | refine Keeps2.keeps (by assumption) | exact KeepsO.none _ | apply KeepsO.some | apply KeepsO.ite
      | apply KeepsO.foldl | exact KeepsP.none _ | apply KeepsP.some | apply KeepsP.ite | apply Keeps1.mk'
      | apply Keeps1.ite | apply Keeps1.foldl | apply Keeps2.mk' | apply Keeps2.ite | apply Keeps2.foldl
      | intro _ _ _ | intro _ _ | intro _ | split | (fail_if_no_progress dsimp only)
      | refine KeepsO.oSome ?_ (by assumption) | refine KeepsP.some_keeps ?_ _ _ (by assumption)
      | refine Keeps1.eq ?_ (by assumption) | refine Keeps2.eq ?_ (by assumption)

theorem State.recheck_keeps {r0_ s : State} {dest : PoolTier} {n_ : Nat} (h_ : Keeps r0_ s) : Keeps r0_ (State.recheck s dest n_) := by
  induction n_ generalizing s dest with
  | zero =>
    unfold State.recheck
    with_reducible repeat' first
      | assumption | refine (State.tryIssue_keepsO ?_).some_keeps _ (by assumption) | apply ih
      | (fail_if_no_progress refine Keeps.upd ?_ ⟨rfl, rfl, rfl, rfl, rfl⟩) | split
  | succ n ih =>
    unfold State.recheck
    with_reducible repeat' first
      | assumption | refine (State.tryIssue_keepsO ?_).some_keeps _ (by assumption) | apply ih
      | (fail_if_no_progress refine Keeps.upd ?_ ⟨rfl, rfl, rfl, rfl, rfl⟩) | split

theorem State.copyPage_keeps {r0_ s : State} {src dst units : Nat} (h_ : Keeps r0_ s) : Keeps r0_ (State.copyPage s src dst units) := by
  unfold State.copyPage
  with_reducible repeat' first
    | assumption
    | (fail_if_no_progress ((apply Keeps.of_mk; (focus exact rfl); (focus exact rfl)); (with_unfolding_all focus first | (exact fun w => w) | exact SMap.wf_set _ _ | exact SMap.wf_filter _); (with_unfolding_all focus first | (exact fun w => w) | exact SMap.wf_putBytes _ _ | exact SMap.wf_clearRange _ _ | exact SMap.wf_filter _ | (exact fun w => SMap.wf_foldl_set _ _ _ (SMap.wf_clearRange _ _ w)) | (exact fun _ => SMap.wf_nil' _)); (focus first | exact Nat.le_refl _ | exact Nat.le_succ _ | exact Nat.le_add_right _ _)))

theorem State.commitMove_keeps {r0_ s : State} {b : Burst} {m : Move} (h_ : Keeps r0_ s) : Keeps r0_ (State.commitMove s b m) := by
  unfold State.commitMove
  with_reducible repeat' first
    | assumption | apply State.inc_keeps | apply State.freeScrub_keeps | apply State.reuse_keeps
    | apply State.setPte_keeps | apply State.copyPage_keeps | split

theorem State.setMove_keeps {r0_ s : State} {tag : BitVec 64} {i : Nat} {st : MoveState} {err : Bool} (h_ : Keeps r0_ s) : Keeps r0_ (State.setMove s tag i st err) := by
  unfold State.setMove
  with_reducible repeat' first
    | assumption | (fail_if_no_progress refine Keeps.upd ?_ ⟨rfl, rfl, rfl, rfl, rfl⟩)

theorem State.askMove_keeps {r0_ s : State} {tag : BitVec 64} {i : Nat} (h_ : Keeps r0_ s) : Keeps r0_ (State.askMove s tag i) := by
  unfold State.askMove
  with_reducible repeat' first
    | assumption | apply Keeps.ite | apply Keeps.foldl | apply Keeps.getD
    | ((fail_if_no_progress extract_lets +onlyGivenNames x); first | ((first | refine Keeps.cut (t := x) ?_ ?_ | refine Keeps.cutO (o := x) ?_ ?_ | refine Keeps.cutP (o := x) ?_ ?_ | refine Keeps.cut1 (o := x) ?_ ?_ | refine Keeps.cut2 (o := x) ?_ ?_); rotate_left; (clear_value x; intro hx); rotate_left; (try subst x)) | (have _h := Keeps.memv x; clear _h) | (have _h := Keeps.bytesv x; clear _h) | (have _h := Keeps.fn x; clear _h; dsimp only [x]; clear x) | (have _h := Keeps.fn2 x; clear _h; dsimp only [x]; clear x) | clear_value x)
    | (fail_if_no_progress refine Keeps.upd ?_ ⟨rfl, rfl, rfl, rfl, rfl⟩)
    | (fail_if_no_progress ((apply Keeps.of_mk; (focus exact rfl); (focus exact rfl)); (with_unfolding_all focus first | (exact fun w => w) | exact SMap.wf_set _ _ | exact SMap.wf_filter _); (with_unfolding_all focus first | (exact fun w => w) | exact SMap.wf_putBytes _ _ | exact SMap.wf_clearRange _ _ | exact SMap.wf_filter _ | (exact fun w => SMap.wf_foldl_set _ _ _ (SMap.wf_clearRange _ _ w)) | (exact fun _ => SMap.wf_nil' _)); (focus first | exact Nat.le_refl _ | exact Nat.le_succ _ | exact Nat.le_add_right _ _)))
    | apply Keeps.foldl1 | apply Keeps.foldl2 | apply Keeps.ite1 | apply Keeps.ite2
    | refine KeepsP.some_keeps (by assumption) _ _ (by assumption)
    | refine KeepsO.oSome (by assumption) (by assumption) | refine KeepsO.oSome (by assumption) rfl
    | refine KeepsP.some_keeps (by assumption) _ _ rfl | apply KeepsP.map | refine Keeps1.keeps (by assumption)
    | refine Keeps2.keeps (by assumption) | exact KeepsO.none _ | apply KeepsO.some | apply KeepsO.ite
    | apply KeepsO.foldl | exact KeepsP.none _ | apply KeepsP.some | apply KeepsP.ite | apply Keeps1.mk'
    | apply Keeps1.ite | apply Keeps1.foldl | apply Keeps2.mk' | apply Keeps2.ite | apply Keeps2.foldl | intro _ _ _
    | intro _ _ | intro _ | split | (fail_if_no_progress dsimp only) | refine KeepsO.oSome ?_ (by assumption)
    | refine KeepsP.some_keeps ?_ _ _ (by assumption) | refine Keeps1.eq ?_ (by assumption)
    | refine Keeps2.eq ?_ (by assumption)

theorem State.performDrop_keeps {r0_ s : State} {a : Nat} (h_ : Keeps r0_ s) : Keeps r0_ (State.performDrop s a) := by
  unfold State.performDrop
  with_reducible repeat' first
    | assumption | apply Keeps.foldl | apply State.inc_keeps | apply State.setReq_keeps | apply State.setPte_keeps
    | apply State.dropKeys_keeps | apply State.freePage_keeps | intro _ _ _ | split

theorem State.freeLoose_keeps {r0_ s : State} {a : Nat} (h_ : Keeps r0_ s) : Keeps r0_ (State.freeLoose s a) := by
  unfold State.freeLoose
  with_reducible repeat' first
    | assumption | apply Keeps.ite | apply Keeps.foldl | apply Keeps.getD | apply State.setPte_keeps
    | apply State.dropKeys_keeps | apply State.freePage_keeps | apply State.dropRecBlock_keeps
    | ((fail_if_no_progress extract_lets +onlyGivenNames x); first | ((first | refine Keeps.cut (t := x) ?_ ?_ | refine Keeps.cutO (o := x) ?_ ?_ | refine Keeps.cutP (o := x) ?_ ?_ | refine Keeps.cut1 (o := x) ?_ ?_ | refine Keeps.cut2 (o := x) ?_ ?_); rotate_left; (clear_value x; intro hx); rotate_left; (try subst x)) | (have _h := Keeps.memv x; clear _h) | (have _h := Keeps.bytesv x; clear _h) | (have _h := Keeps.fn x; clear _h; dsimp only [x]; clear x) | (have _h := Keeps.fn2 x; clear _h; dsimp only [x]; clear x) | clear_value x)
    | (fail_if_no_progress refine Keeps.upd ?_ ⟨rfl, rfl, rfl, rfl, rfl⟩)
    | (fail_if_no_progress ((apply Keeps.of_mk; (focus exact rfl); (focus exact rfl)); (with_unfolding_all focus first | (exact fun w => w) | exact SMap.wf_set _ _ | exact SMap.wf_filter _); (with_unfolding_all focus first | (exact fun w => w) | exact SMap.wf_putBytes _ _ | exact SMap.wf_clearRange _ _ | exact SMap.wf_filter _ | (exact fun w => SMap.wf_foldl_set _ _ _ (SMap.wf_clearRange _ _ w)) | (exact fun _ => SMap.wf_nil' _)); (focus first | exact Nat.le_refl _ | exact Nat.le_succ _ | exact Nat.le_add_right _ _)))
    | apply Keeps.foldl1 | apply Keeps.foldl2 | apply Keeps.ite1 | apply Keeps.ite2
    | refine KeepsP.some_keeps (by assumption) _ _ (by assumption)
    | refine KeepsO.oSome (by assumption) (by assumption) | refine KeepsO.oSome (by assumption) rfl
    | refine KeepsP.some_keeps (by assumption) _ _ rfl | apply KeepsP.map | refine Keeps1.keeps (by assumption)
    | refine Keeps2.keeps (by assumption) | exact KeepsO.none _ | apply KeepsO.some | apply KeepsO.ite
    | apply KeepsO.foldl | exact KeepsP.none _ | apply KeepsP.some | apply KeepsP.ite | apply Keeps1.mk'
    | apply Keeps1.ite | apply Keeps1.foldl | apply Keeps2.mk' | apply Keeps2.ite | apply Keeps2.foldl | intro _ _ _
    | intro _ _ | intro _ | split | (fail_if_no_progress dsimp only) | refine KeepsO.oSome ?_ (by assumption)
    | refine KeepsP.some_keeps ?_ _ _ (by assumption) | refine Keeps1.eq ?_ (by assumption)
    | refine Keeps2.eq ?_ (by assumption)

theorem State.performPending_keeps {r0_ s : State} {a : Nat} (h_ : Keeps r0_ s) : Keeps r0_ (State.performPending s a) := by
  unfold State.performPending
  with_reducible repeat' first
    | assumption | apply Keeps.ite | apply Keeps.foldl | apply Keeps.getD | apply State.finishBursts_keeps
    | apply State.commitMove_keeps | apply State.setMove_keeps | apply State.performDrop_keeps
    | apply State.freeLoose_keeps
    | ((fail_if_no_progress extract_lets +onlyGivenNames x); first | ((first | refine Keeps.cut (t := x) ?_ ?_ | refine Keeps.cutO (o := x) ?_ ?_ | refine Keeps.cutP (o := x) ?_ ?_ | refine Keeps.cut1 (o := x) ?_ ?_ | refine Keeps.cut2 (o := x) ?_ ?_); rotate_left; (clear_value x; intro hx); rotate_left; (try subst x)) | (have _h := Keeps.memv x; clear _h) | (have _h := Keeps.bytesv x; clear _h) | (have _h := Keeps.fn x; clear _h; dsimp only [x]; clear x) | (have _h := Keeps.fn2 x; clear _h; dsimp only [x]; clear x) | clear_value x)
    | (fail_if_no_progress refine Keeps.upd ?_ ⟨rfl, rfl, rfl, rfl, rfl⟩)
    | (fail_if_no_progress ((apply Keeps.of_mk; (focus exact rfl); (focus exact rfl)); (with_unfolding_all focus first | (exact fun w => w) | exact SMap.wf_set _ _ | exact SMap.wf_filter _); (with_unfolding_all focus first | (exact fun w => w) | exact SMap.wf_putBytes _ _ | exact SMap.wf_clearRange _ _ | exact SMap.wf_filter _ | (exact fun w => SMap.wf_foldl_set _ _ _ (SMap.wf_clearRange _ _ w)) | (exact fun _ => SMap.wf_nil' _)); (focus first | exact Nat.le_refl _ | exact Nat.le_succ _ | exact Nat.le_add_right _ _)))
    | apply Keeps.foldl1 | apply Keeps.foldl2 | apply Keeps.ite1 | apply Keeps.ite2
    | refine KeepsP.some_keeps (by assumption) _ _ (by assumption)
    | refine KeepsO.oSome (by assumption) (by assumption) | refine KeepsO.oSome (by assumption) rfl
    | refine KeepsP.some_keeps (by assumption) _ _ rfl | apply KeepsP.map | refine Keeps1.keeps (by assumption)
    | refine Keeps2.keeps (by assumption) | exact KeepsO.none _ | apply KeepsO.some | apply KeepsO.ite
    | apply KeepsO.foldl | exact KeepsP.none _ | apply KeepsP.some | apply KeepsP.ite | apply Keeps1.mk'
    | apply Keeps1.ite | apply Keeps1.foldl | apply Keeps2.mk' | apply Keeps2.ite | apply Keeps2.foldl | intro _ _ _
    | intro _ _ | intro _ | split | (fail_if_no_progress dsimp only) | refine KeepsO.oSome ?_ (by assumption)
    | refine KeepsP.some_keeps ?_ _ _ (by assumption) | refine Keeps1.eq ?_ (by assumption)
    | refine Keeps2.eq ?_ (by assumption)

theorem State.pend_keeps {r0_ s : State} {a : Nat} {drop : Bool} (h_ : Keeps r0_ s) : Keeps r0_ (State.pend s a drop) := by
  unfold State.pend
  with_reducible repeat' first
    | assumption | apply State.performPending_keeps
    | (fail_if_no_progress refine Keeps.upd ?_ ⟨rfl, rfl, rfl, rfl, rfl⟩)

theorem State.tryPin_keeps {r0_ s : State} {entry : Nat} {gen : Byte} {fresh : Bool} (h_ : Keeps r0_ s) : Keeps r0_ (State.tryPin s entry gen fresh) := by
  unfold State.tryPin
  with_reducible repeat' first
    | assumption | apply Keeps.ite | apply Keeps.foldl | apply Keeps.getD | apply State.emit_keeps
    | apply State.inc_keeps | apply State.setPte_keeps | apply State.entryBad_keepsO
    | refine (State.entryBad_keepsO ?_).some_keeps _ (by assumption)
    | ((fail_if_no_progress extract_lets +onlyGivenNames x); first | ((first | refine Keeps.cut (t := x) ?_ ?_ | refine Keeps.cutO (o := x) ?_ ?_ | refine Keeps.cutP (o := x) ?_ ?_ | refine Keeps.cut1 (o := x) ?_ ?_ | refine Keeps.cut2 (o := x) ?_ ?_); rotate_left; (clear_value x; intro hx); rotate_left; (try subst x)) | (have _h := Keeps.memv x; clear _h) | (have _h := Keeps.bytesv x; clear _h) | (have _h := Keeps.fn x; clear _h; dsimp only [x]; clear x) | (have _h := Keeps.fn2 x; clear _h; dsimp only [x]; clear x) | clear_value x)
    | (fail_if_no_progress refine Keeps.upd ?_ ⟨rfl, rfl, rfl, rfl, rfl⟩)
    | (fail_if_no_progress ((apply Keeps.of_mk; (focus exact rfl); (focus exact rfl)); (with_unfolding_all focus first | (exact fun w => w) | exact SMap.wf_set _ _ | exact SMap.wf_filter _); (with_unfolding_all focus first | (exact fun w => w) | exact SMap.wf_putBytes _ _ | exact SMap.wf_clearRange _ _ | exact SMap.wf_filter _ | (exact fun w => SMap.wf_foldl_set _ _ _ (SMap.wf_clearRange _ _ w)) | (exact fun _ => SMap.wf_nil' _)); (focus first | exact Nat.le_refl _ | exact Nat.le_succ _ | exact Nat.le_add_right _ _)))
    | apply Keeps.foldl1 | apply Keeps.foldl2 | apply Keeps.ite1 | apply Keeps.ite2
    | refine KeepsP.some_keeps (by assumption) _ _ (by assumption)
    | refine KeepsO.oSome (by assumption) (by assumption) | refine KeepsO.oSome (by assumption) rfl
    | refine KeepsP.some_keeps (by assumption) _ _ rfl | apply KeepsP.map | refine Keeps1.keeps (by assumption)
    | refine Keeps2.keeps (by assumption) | exact KeepsO.none _ | apply KeepsO.some | apply KeepsO.ite
    | apply KeepsO.foldl | exact KeepsP.none _ | apply KeepsP.some | apply KeepsP.ite | apply Keeps1.mk'
    | apply Keeps1.ite | apply Keeps1.foldl | apply Keeps2.mk' | apply Keeps2.ite | apply Keeps2.foldl | intro _ _ _
    | intro _ _ | intro _ | split | (fail_if_no_progress dsimp only) | refine KeepsO.oSome ?_ (by assumption)
    | refine KeepsP.some_keeps ?_ _ _ (by assumption) | refine Keeps1.eq ?_ (by assumption)
    | refine Keeps2.eq ?_ (by assumption)

theorem State.wakePins_keeps {r0_ s : State} {a : Nat} (h_ : Keeps r0_ s) : Keeps r0_ (State.wakePins s a) := by
  unfold State.wakePins
  with_reducible repeat' first
    | assumption | apply Keeps.foldl | apply State.tryPin_keeps
    | (fail_if_no_progress refine Keeps.upd ?_ ⟨rfl, rfl, rfl, rfl, rfl⟩) | intro _ _ _

theorem State.pmgSubmit_keeps {r0_ s : State} {d : BitVec 512} {src : List Nat} {home : BurstHome} (h_ : Keeps r0_ s) : Keeps r0_ (State.pmgSubmit s d src home) := by
  unfold State.pmgSubmit
  with_reducible repeat' first
    | assumption | apply Keeps.ite | apply Keeps.foldl | apply Keeps.getD | apply State.endBurst_keeps
    | apply State.submitBurst_keeps
    | ((fail_if_no_progress extract_lets +onlyGivenNames x); first | ((first | refine Keeps.cut (t := x) ?_ ?_ | refine Keeps.cutO (o := x) ?_ ?_ | refine Keeps.cutP (o := x) ?_ ?_ | refine Keeps.cut1 (o := x) ?_ ?_ | refine Keeps.cut2 (o := x) ?_ ?_); rotate_left; (clear_value x; intro hx); rotate_left; (try subst x)) | (have _h := Keeps.memv x; clear _h) | (have _h := Keeps.bytesv x; clear _h) | (have _h := Keeps.fn x; clear _h; dsimp only [x]; clear x) | (have _h := Keeps.fn2 x; clear _h; dsimp only [x]; clear x) | clear_value x)
    | (fail_if_no_progress refine Keeps.upd ?_ ⟨rfl, rfl, rfl, rfl, rfl⟩)
    | (fail_if_no_progress ((apply Keeps.of_mk; (focus exact rfl); (focus exact rfl)); (with_unfolding_all focus first | (exact fun w => w) | exact SMap.wf_set _ _ | exact SMap.wf_filter _); (with_unfolding_all focus first | (exact fun w => w) | exact SMap.wf_putBytes _ _ | exact SMap.wf_clearRange _ _ | exact SMap.wf_filter _ | (exact fun w => SMap.wf_foldl_set _ _ _ (SMap.wf_clearRange _ _ w)) | (exact fun _ => SMap.wf_nil' _)); (focus first | exact Nat.le_refl _ | exact Nat.le_succ _ | exact Nat.le_add_right _ _)))
    | apply Keeps.foldl1 | apply Keeps.foldl2 | apply Keeps.ite1 | apply Keeps.ite2
    | refine KeepsP.some_keeps (by assumption) _ _ (by assumption)
    | refine KeepsO.oSome (by assumption) (by assumption) | refine KeepsO.oSome (by assumption) rfl
    | refine KeepsP.some_keeps (by assumption) _ _ rfl | apply KeepsP.map | refine Keeps1.keeps (by assumption)
    | refine Keeps2.keeps (by assumption) | exact KeepsO.none _ | apply KeepsO.some | apply KeepsO.ite
    | apply KeepsO.foldl | exact KeepsP.none _ | apply KeepsP.some | apply KeepsP.ite | apply Keeps1.mk'
    | apply Keeps1.ite | apply Keeps1.foldl | apply Keeps2.mk' | apply Keeps2.ite | apply Keeps2.foldl | intro _ _ _
    | intro _ _ | intro _ | split | (fail_if_no_progress dsimp only) | refine KeepsO.oSome ?_ (by assumption)
    | refine KeepsP.some_keeps ?_ _ _ (by assumption) | refine Keeps1.eq ?_ (by assumption)
    | refine Keeps2.eq ?_ (by assumption)

theorem State.pmgRing_keeps {r0_ s : State} {op : Nat} {d : HostRead (BitVec 512)} {list : HostRead (List (BitVec 64))} (h_ : Keeps r0_ s) : Keeps r0_ (State.pmgRing s op d list) := by
  unfold State.pmgRing
  with_reducible repeat' first
    | assumption | apply Keeps.ite | apply Keeps.foldl | apply Keeps.getD | apply State.emit_keeps
    | apply State.setFld_keeps | apply State.latch_keeps | apply State.pmgSubmit_keeps
    | ((fail_if_no_progress extract_lets +onlyGivenNames x); first | ((first | refine Keeps.cut (t := x) ?_ ?_ | refine Keeps.cutO (o := x) ?_ ?_ | refine Keeps.cutP (o := x) ?_ ?_ | refine Keeps.cut1 (o := x) ?_ ?_ | refine Keeps.cut2 (o := x) ?_ ?_); rotate_left; (clear_value x; intro hx); rotate_left; (try subst x)) | (have _h := Keeps.memv x; clear _h) | (have _h := Keeps.bytesv x; clear _h) | (have _h := Keeps.fn x; clear _h; dsimp only [x]; clear x) | (have _h := Keeps.fn2 x; clear _h; dsimp only [x]; clear x) | clear_value x)
    | (fail_if_no_progress refine Keeps.upd ?_ ⟨rfl, rfl, rfl, rfl, rfl⟩)
    | (fail_if_no_progress ((apply Keeps.of_mk; (focus exact rfl); (focus exact rfl)); (with_unfolding_all focus first | (exact fun w => w) | exact SMap.wf_set _ _ | exact SMap.wf_filter _); (with_unfolding_all focus first | (exact fun w => w) | exact SMap.wf_putBytes _ _ | exact SMap.wf_clearRange _ _ | exact SMap.wf_filter _ | (exact fun w => SMap.wf_foldl_set _ _ _ (SMap.wf_clearRange _ _ w)) | (exact fun _ => SMap.wf_nil' _)); (focus first | exact Nat.le_refl _ | exact Nat.le_succ _ | exact Nat.le_add_right _ _)))
    | apply Keeps.foldl1 | apply Keeps.foldl2 | apply Keeps.ite1 | apply Keeps.ite2
    | refine KeepsP.some_keeps (by assumption) _ _ (by assumption)
    | refine KeepsO.oSome (by assumption) (by assumption) | refine KeepsO.oSome (by assumption) rfl
    | refine KeepsP.some_keeps (by assumption) _ _ rfl | apply KeepsP.map | refine Keeps1.keeps (by assumption)
    | refine Keeps2.keeps (by assumption) | exact KeepsO.none _ | apply KeepsO.some | apply KeepsO.ite
    | apply KeepsO.foldl | exact KeepsP.none _ | apply KeepsP.some | apply KeepsP.ite | apply Keeps1.mk'
    | apply Keeps1.ite | apply Keeps1.foldl | apply Keeps2.mk' | apply Keeps2.ite | apply Keeps2.foldl | intro _ _ _
    | intro _ _ | intro _ | split | (fail_if_no_progress dsimp only) | refine KeepsO.oSome ?_ (by assumption)
    | refine KeepsP.some_keeps ?_ _ _ (by assumption) | refine Keeps1.eq ?_ (by assumption)
    | refine Keeps2.eq ?_ (by assumption)

theorem State.pmgCommand_keeps {r0_ s : State} {op : Nat} {d : HostRead (BitVec 512)} {list : HostRead (List (BitVec 64))}
    {src : BurstSrc} (h_ : Keeps r0_ s) : Keeps r0_ (s.pmgCommand op d list src) := by
  cases src with
  | ring => exact Keeps.ite (State.pmgRing_keeps h_) h_
  | device a => exact Keeps.ite (State.pmgSubmit_keeps h_) h_

theorem execPromote_keeps {r0_ s : State} {src : BurstSrc} {d : HostRead (BitVec 512)} {list : HostRead (List (BitVec 64))} (h_ : Keeps r0_ s) : KeepsR r0_ (execPromote src d list s) := by
  unfold execPromote
  with_reducible repeat' first
    | assumption | apply KeepsR.next | exact KeepsR.fault _ _ | apply KeepsR.ite | apply Keeps.ite
    | apply Keeps.foldl | apply Keeps.getD | apply State.kvpUpdate_keeps | apply State.pmgCommand_keeps
    | ((fail_if_no_progress extract_lets +onlyGivenNames x); first | ((first | refine Keeps.cut (t := x) ?_ ?_ | refine KeepsR.cut (t := x) ?_ ?_ | refine Keeps.cutO (o := x) ?_ ?_ | refine Keeps.cutP (o := x) ?_ ?_ | refine Keeps.cut1 (o := x) ?_ ?_ | refine Keeps.cut2 (o := x) ?_ ?_); rotate_left; (clear_value x; intro hx); rotate_left; (try subst x)) | (have _h := Keeps.memv x; clear _h) | (have _h := Keeps.bytesv x; clear _h) | (have _h := Keeps.fn x; clear _h; dsimp only [x]; clear x) | (have _h := Keeps.fn2 x; clear _h; dsimp only [x]; clear x) | clear_value x)
    | (fail_if_no_progress refine Keeps.upd ?_ ⟨rfl, rfl, rfl, rfl, rfl⟩)
    | (fail_if_no_progress ((apply Keeps.of_mk; (focus exact rfl); (focus exact rfl)); (with_unfolding_all focus first | (exact fun w => w) | exact SMap.wf_set _ _ | exact SMap.wf_filter _); (with_unfolding_all focus first | (exact fun w => w) | exact SMap.wf_putBytes _ _ | exact SMap.wf_clearRange _ _ | exact SMap.wf_filter _ | (exact fun w => SMap.wf_foldl_set _ _ _ (SMap.wf_clearRange _ _ w)) | (exact fun _ => SMap.wf_nil' _)); (focus first | exact Nat.le_refl _ | exact Nat.le_succ _ | exact Nat.le_add_right _ _)))
    | apply Keeps.foldl1 | apply Keeps.foldl2 | apply Keeps.ite1 | apply Keeps.ite2
    | refine KeepsP.some_keeps (by assumption) _ _ (by assumption)
    | refine KeepsO.oSome (by assumption) (by assumption) | refine KeepsO.oSome (by assumption) rfl
    | refine KeepsP.some_keeps (by assumption) _ _ rfl | apply KeepsP.map | refine Keeps1.keeps (by assumption)
    | refine Keeps2.keeps (by assumption) | exact KeepsO.none _ | apply KeepsO.some | apply KeepsO.ite
    | apply KeepsO.foldl | exact KeepsP.none _ | apply KeepsP.some | apply KeepsP.ite | apply Keeps1.mk'
    | apply Keeps1.ite | apply Keeps1.foldl | apply Keeps2.mk' | apply Keeps2.ite | apply Keeps2.foldl | intro _ _ _
    | intro _ _ | intro _ | split | (fail_if_no_progress dsimp only) | refine KeepsO.oSome ?_ (by assumption)
    | refine KeepsP.some_keeps ?_ _ _ (by assumption) | refine Keeps1.eq ?_ (by assumption)
    | refine Keeps2.eq ?_ (by assumption)

theorem execDemote_keeps {r0_ s : State} {src : BurstSrc} {d : HostRead (BitVec 512)} {list : HostRead (List (BitVec 64))} (h_ : Keeps r0_ s) : KeepsR r0_ (execDemote src d list s) := by
  unfold execDemote
  with_reducible repeat' first
    | assumption | apply KeepsR.next | exact KeepsR.fault _ _ | apply KeepsR.ite | apply Keeps.ite
    | apply Keeps.foldl | apply Keeps.getD | apply State.kvpUpdate_keeps | apply State.pmgCommand_keeps
    | ((fail_if_no_progress extract_lets +onlyGivenNames x); first | ((first | refine Keeps.cut (t := x) ?_ ?_ | refine KeepsR.cut (t := x) ?_ ?_ | refine Keeps.cutO (o := x) ?_ ?_ | refine Keeps.cutP (o := x) ?_ ?_ | refine Keeps.cut1 (o := x) ?_ ?_ | refine Keeps.cut2 (o := x) ?_ ?_); rotate_left; (clear_value x; intro hx); rotate_left; (try subst x)) | (have _h := Keeps.memv x; clear _h) | (have _h := Keeps.bytesv x; clear _h) | (have _h := Keeps.fn x; clear _h; dsimp only [x]; clear x) | (have _h := Keeps.fn2 x; clear _h; dsimp only [x]; clear x) | clear_value x)
    | (fail_if_no_progress refine Keeps.upd ?_ ⟨rfl, rfl, rfl, rfl, rfl⟩)
    | (fail_if_no_progress ((apply Keeps.of_mk; (focus exact rfl); (focus exact rfl)); (with_unfolding_all focus first | (exact fun w => w) | exact SMap.wf_set _ _ | exact SMap.wf_filter _); (with_unfolding_all focus first | (exact fun w => w) | exact SMap.wf_putBytes _ _ | exact SMap.wf_clearRange _ _ | exact SMap.wf_filter _ | (exact fun w => SMap.wf_foldl_set _ _ _ (SMap.wf_clearRange _ _ w)) | (exact fun _ => SMap.wf_nil' _)); (focus first | exact Nat.le_refl _ | exact Nat.le_succ _ | exact Nat.le_add_right _ _)))
    | apply Keeps.foldl1 | apply Keeps.foldl2 | apply Keeps.ite1 | apply Keeps.ite2
    | refine KeepsP.some_keeps (by assumption) _ _ (by assumption)
    | refine KeepsO.oSome (by assumption) (by assumption) | refine KeepsO.oSome (by assumption) rfl
    | refine KeepsP.some_keeps (by assumption) _ _ rfl | apply KeepsP.map | refine Keeps1.keeps (by assumption)
    | refine Keeps2.keeps (by assumption) | exact KeepsO.none _ | apply KeepsO.some | apply KeepsO.ite
    | apply KeepsO.foldl | exact KeepsP.none _ | apply KeepsP.some | apply KeepsP.ite | apply Keeps1.mk'
    | apply Keeps1.ite | apply Keeps1.foldl | apply Keeps2.mk' | apply Keeps2.ite | apply Keeps2.foldl | intro _ _ _
    | intro _ _ | intro _ | split | (fail_if_no_progress dsimp only) | refine KeepsO.oSome ?_ (by assumption)
    | refine KeepsP.some_keeps ?_ _ _ (by assumption) | refine Keeps1.eq ?_ (by assumption)
    | refine Keeps2.eq ?_ (by assumption)

theorem execCopy_keeps {r0_ s : State} {src : BurstSrc} {d : HostRead (BitVec 512)} {list : HostRead (List (BitVec 64))} (h_ : Keeps r0_ s) : KeepsR r0_ (execCopy src d list s) := by
  unfold execCopy
  with_reducible repeat' first
    | assumption | apply KeepsR.next | exact KeepsR.fault _ _ | apply KeepsR.ite | apply Keeps.ite
    | apply Keeps.foldl | apply Keeps.getD | apply State.kvpUpdate_keeps | apply State.pmgCommand_keeps
    | ((fail_if_no_progress extract_lets +onlyGivenNames x); first | ((first | refine Keeps.cut (t := x) ?_ ?_ | refine KeepsR.cut (t := x) ?_ ?_ | refine Keeps.cutO (o := x) ?_ ?_ | refine Keeps.cutP (o := x) ?_ ?_ | refine Keeps.cut1 (o := x) ?_ ?_ | refine Keeps.cut2 (o := x) ?_ ?_); rotate_left; (clear_value x; intro hx); rotate_left; (try subst x)) | (have _h := Keeps.memv x; clear _h) | (have _h := Keeps.bytesv x; clear _h) | (have _h := Keeps.fn x; clear _h; dsimp only [x]; clear x) | (have _h := Keeps.fn2 x; clear _h; dsimp only [x]; clear x) | clear_value x)
    | (fail_if_no_progress refine Keeps.upd ?_ ⟨rfl, rfl, rfl, rfl, rfl⟩)
    | (fail_if_no_progress ((apply Keeps.of_mk; (focus exact rfl); (focus exact rfl)); (with_unfolding_all focus first | (exact fun w => w) | exact SMap.wf_set _ _ | exact SMap.wf_filter _); (with_unfolding_all focus first | (exact fun w => w) | exact SMap.wf_putBytes _ _ | exact SMap.wf_clearRange _ _ | exact SMap.wf_filter _ | (exact fun w => SMap.wf_foldl_set _ _ _ (SMap.wf_clearRange _ _ w)) | (exact fun _ => SMap.wf_nil' _)); (focus first | exact Nat.le_refl _ | exact Nat.le_succ _ | exact Nat.le_add_right _ _)))
    | apply Keeps.foldl1 | apply Keeps.foldl2 | apply Keeps.ite1 | apply Keeps.ite2
    | refine KeepsP.some_keeps (by assumption) _ _ (by assumption)
    | refine KeepsO.oSome (by assumption) (by assumption) | refine KeepsO.oSome (by assumption) rfl
    | refine KeepsP.some_keeps (by assumption) _ _ rfl | apply KeepsP.map | refine Keeps1.keeps (by assumption)
    | refine Keeps2.keeps (by assumption) | exact KeepsO.none _ | apply KeepsO.some | apply KeepsO.ite
    | apply KeepsO.foldl | exact KeepsP.none _ | apply KeepsP.some | apply KeepsP.ite | apply Keeps1.mk'
    | apply Keeps1.ite | apply Keeps1.foldl | apply Keeps2.mk' | apply Keeps2.ite | apply Keeps2.foldl | intro _ _ _
    | intro _ _ | intro _ | split | (fail_if_no_progress dsimp only) | refine KeepsO.oSome ?_ (by assumption)
    | refine KeepsP.some_keeps ?_ _ _ (by assumption) | refine Keeps1.eq ?_ (by assumption)
    | refine Keeps2.eq ?_ (by assumption)

theorem execBurstRecheck_keeps {r0_ s : State} {pool : PoolId} {t : Tier} (h_ : Keeps r0_ s) : KeepsR r0_ (execBurstRecheck pool t s) := by
  unfold execBurstRecheck
  with_reducible repeat' first
    | assumption | apply KeepsR.next | exact KeepsR.fault _ _ | apply KeepsR.ite | apply Keeps.ite
    | apply Keeps.foldl | apply Keeps.getD | apply State.kvpUpdate_keeps | apply State.hideFresh_keeps
    | apply State.showFresh_keeps | apply State.issueWaiting_keeps | apply State.recheck_keeps
    | ((fail_if_no_progress extract_lets +onlyGivenNames x); first | ((first | refine Keeps.cut (t := x) ?_ ?_ | refine KeepsR.cut (t := x) ?_ ?_ | refine Keeps.cutO (o := x) ?_ ?_ | refine Keeps.cutP (o := x) ?_ ?_ | refine Keeps.cut1 (o := x) ?_ ?_ | refine Keeps.cut2 (o := x) ?_ ?_); rotate_left; (clear_value x; intro hx); rotate_left; (try subst x)) | (have _h := Keeps.memv x; clear _h) | (have _h := Keeps.bytesv x; clear _h) | (have _h := Keeps.fn x; clear _h; dsimp only [x]; clear x) | (have _h := Keeps.fn2 x; clear _h; dsimp only [x]; clear x) | clear_value x)
    | (fail_if_no_progress refine Keeps.upd ?_ ⟨rfl, rfl, rfl, rfl, rfl⟩)
    | (fail_if_no_progress ((apply Keeps.of_mk; (focus exact rfl); (focus exact rfl)); (with_unfolding_all focus first | (exact fun w => w) | exact SMap.wf_set _ _ | exact SMap.wf_filter _); (with_unfolding_all focus first | (exact fun w => w) | exact SMap.wf_putBytes _ _ | exact SMap.wf_clearRange _ _ | exact SMap.wf_filter _ | (exact fun w => SMap.wf_foldl_set _ _ _ (SMap.wf_clearRange _ _ w)) | (exact fun _ => SMap.wf_nil' _)); (focus first | exact Nat.le_refl _ | exact Nat.le_succ _ | exact Nat.le_add_right _ _)))
    | apply Keeps.foldl1 | apply Keeps.foldl2 | apply Keeps.ite1 | apply Keeps.ite2
    | refine KeepsP.some_keeps (by assumption) _ _ (by assumption)
    | refine KeepsO.oSome (by assumption) (by assumption) | refine KeepsO.oSome (by assumption) rfl
    | refine KeepsP.some_keeps (by assumption) _ _ rfl | apply KeepsP.map | refine Keeps1.keeps (by assumption)
    | refine Keeps2.keeps (by assumption) | exact KeepsO.none _ | apply KeepsO.some | apply KeepsO.ite
    | apply KeepsO.foldl | exact KeepsP.none _ | apply KeepsP.some | apply KeepsP.ite | apply Keeps1.mk'
    | apply Keeps1.ite | apply Keeps1.foldl | apply Keeps2.mk' | apply Keeps2.ite | apply Keeps2.foldl | intro _ _ _
    | intro _ _ | intro _ | split | (fail_if_no_progress dsimp only) | refine KeepsO.oSome ?_ (by assumption)
    | refine KeepsP.some_keeps ?_ _ _ (by assumption) | refine Keeps1.eq ?_ (by assumption)
    | refine Keeps2.eq ?_ (by assumption)

theorem execPageCommit_keeps {r0_ s : State} {tag : BitVec 64} {i : Nat} {ue : Bool} (h_ : Keeps r0_ s) : KeepsR r0_ (execPageCommit tag i ue s) := by
  unfold execPageCommit
  with_reducible repeat' first
    | assumption | apply KeepsR.next | exact KeepsR.fault _ _ | apply KeepsR.ite | apply Keeps.ite
    | apply Keeps.foldl | apply Keeps.getD | apply State.inc_keeps | apply State.latch_keeps
    | apply State.kvpUpdate_keeps | apply State.freeScrub_keeps | apply State.finishBursts_keeps
    | apply State.readMarred_keeps | apply State.lineUe_keeps | apply State.issueWaiting_keeps
    | apply State.copyPage_keeps | apply State.commitMove_keeps | apply State.setMove_keeps
    | apply State.askMove_keeps | apply State.pend_keeps
    | ((fail_if_no_progress extract_lets +onlyGivenNames x); first | ((first | refine Keeps.cut (t := x) ?_ ?_ | refine KeepsR.cut (t := x) ?_ ?_ | refine Keeps.cutO (o := x) ?_ ?_ | refine Keeps.cutP (o := x) ?_ ?_ | refine Keeps.cut1 (o := x) ?_ ?_ | refine Keeps.cut2 (o := x) ?_ ?_); rotate_left; (clear_value x; intro hx); rotate_left; (try subst x)) | (have _h := Keeps.memv x; clear _h) | (have _h := Keeps.bytesv x; clear _h) | (have _h := Keeps.fn x; clear _h; dsimp only [x]; clear x) | (have _h := Keeps.fn2 x; clear _h; dsimp only [x]; clear x) | clear_value x)
    | (fail_if_no_progress refine Keeps.upd ?_ ⟨rfl, rfl, rfl, rfl, rfl⟩)
    | (fail_if_no_progress ((apply Keeps.of_mk; (focus exact rfl); (focus exact rfl)); (with_unfolding_all focus first | (exact fun w => w) | exact SMap.wf_set _ _ | exact SMap.wf_filter _); (with_unfolding_all focus first | (exact fun w => w) | exact SMap.wf_putBytes _ _ | exact SMap.wf_clearRange _ _ | exact SMap.wf_filter _ | (exact fun w => SMap.wf_foldl_set _ _ _ (SMap.wf_clearRange _ _ w)) | (exact fun _ => SMap.wf_nil' _)); (focus first | exact Nat.le_refl _ | exact Nat.le_succ _ | exact Nat.le_add_right _ _)))
    | apply Keeps.foldl1 | apply Keeps.foldl2 | apply Keeps.ite1 | apply Keeps.ite2
    | refine KeepsP.some_keeps (by assumption) _ _ (by assumption)
    | refine KeepsO.oSome (by assumption) (by assumption) | refine KeepsO.oSome (by assumption) rfl
    | refine KeepsP.some_keeps (by assumption) _ _ rfl | apply KeepsP.map | refine Keeps1.keeps (by assumption)
    | refine Keeps2.keeps (by assumption) | exact KeepsO.none _ | apply KeepsO.some | apply KeepsO.ite
    | apply KeepsO.foldl | exact KeepsP.none _ | apply KeepsP.some | apply KeepsP.ite | apply Keeps1.mk'
    | apply Keeps1.ite | apply Keeps1.foldl | apply Keeps2.mk' | apply Keeps2.ite | apply Keeps2.foldl | intro _ _ _
    | intro _ _ | intro _ | split | (fail_if_no_progress dsimp only) | refine KeepsO.oSome ?_ (by assumption)
    | refine KeepsP.some_keeps ?_ _ _ (by assumption) | refine Keeps1.eq ?_ (by assumption)
    | refine Keeps2.eq ?_ (by assumption)

theorem State.writePmgHrTail_keeps {r0_ s : State} {m : Master} {v : Word} (h_ : Keeps r0_ s) : Keeps r0_ (State.writePmgHrTail s m v) := by
  unfold State.writePmgHrTail
  with_reducible repeat' first
    | assumption | apply Keeps.ite | apply State.store_keeps

theorem execPmgHrTail_keeps {r0_ s : State} {m : Master} {be : BitVec 4} {v : Word} (h_ : Keeps r0_ s) : KeepsR r0_ (execPmgHrTail m be v s) := by
  unfold execPmgHrTail
  with_reducible repeat' first
    | assumption | apply KeepsR.next | apply State.gated_keeps | apply State.writePmgHrTail_keeps | intro _ _

theorem State.writePmgHrCfg_keeps {r0_ s : State} {m : Master} {v : Word} (h_ : Keeps r0_ s) : Keeps r0_ (State.writePmgHrCfg s m v) := by
  unfold State.writePmgHrCfg
  with_reducible repeat' first
    | assumption | apply Keeps.ite | apply State.setFld_keeps | apply State.setBit_keeps
    | apply State.storeFields_keeps

theorem execPmgHrEnable_keeps {r0_ s : State} {m : Master} {be : BitVec 4} {v : Word} (h_ : Keeps r0_ s) : KeepsR r0_ (execPmgHrEnable m be v s) := by
  unfold execPmgHrEnable
  with_reducible repeat' first
    | assumption | apply KeepsR.next | apply State.gated_keeps | apply State.writePmgHrCfg_keeps | intro _ _

theorem execPin_keeps {r0_ s : State} {entry : Nat} {gen : Byte} (h_ : Keeps r0_ s) : KeepsR r0_ (execPin entry gen s) := by
  unfold execPin
  with_reducible repeat' first
    | assumption | apply KeepsR.next | exact KeepsR.fault _ _ | apply KeepsR.ite | apply Keeps.ite
    | apply Keeps.foldl | apply Keeps.getD | apply State.kvpUpdate_keeps | apply State.performPending_keeps
    | apply State.tryPin_keeps
    | ((fail_if_no_progress extract_lets +onlyGivenNames x); first | ((first | refine Keeps.cut (t := x) ?_ ?_ | refine KeepsR.cut (t := x) ?_ ?_ | refine Keeps.cutO (o := x) ?_ ?_ | refine Keeps.cutP (o := x) ?_ ?_ | refine Keeps.cut1 (o := x) ?_ ?_ | refine Keeps.cut2 (o := x) ?_ ?_); rotate_left; (clear_value x; intro hx); rotate_left; (try subst x)) | (have _h := Keeps.memv x; clear _h) | (have _h := Keeps.bytesv x; clear _h) | (have _h := Keeps.fn x; clear _h; dsimp only [x]; clear x) | (have _h := Keeps.fn2 x; clear _h; dsimp only [x]; clear x) | clear_value x)
    | (fail_if_no_progress refine Keeps.upd ?_ ⟨rfl, rfl, rfl, rfl, rfl⟩)
    | (fail_if_no_progress ((apply Keeps.of_mk; (focus exact rfl); (focus exact rfl)); (with_unfolding_all focus first | (exact fun w => w) | exact SMap.wf_set _ _ | exact SMap.wf_filter _); (with_unfolding_all focus first | (exact fun w => w) | exact SMap.wf_putBytes _ _ | exact SMap.wf_clearRange _ _ | exact SMap.wf_filter _ | (exact fun w => SMap.wf_foldl_set _ _ _ (SMap.wf_clearRange _ _ w)) | (exact fun _ => SMap.wf_nil' _)); (focus first | exact Nat.le_refl _ | exact Nat.le_succ _ | exact Nat.le_add_right _ _)))
    | apply Keeps.foldl1 | apply Keeps.foldl2 | apply Keeps.ite1 | apply Keeps.ite2
    | refine KeepsP.some_keeps (by assumption) _ _ (by assumption)
    | refine KeepsO.oSome (by assumption) (by assumption) | refine KeepsO.oSome (by assumption) rfl
    | refine KeepsP.some_keeps (by assumption) _ _ rfl | apply KeepsP.map | refine Keeps1.keeps (by assumption)
    | refine Keeps2.keeps (by assumption) | exact KeepsO.none _ | apply KeepsO.some | apply KeepsO.ite
    | apply KeepsO.foldl | exact KeepsP.none _ | apply KeepsP.some | apply KeepsP.ite | apply Keeps1.mk'
    | apply Keeps1.ite | apply Keeps1.foldl | apply Keeps2.mk' | apply Keeps2.ite | apply Keeps2.foldl | intro _ _ _
    | intro _ _ | intro _ | split | (fail_if_no_progress dsimp only) | refine KeepsO.oSome ?_ (by assumption)
    | refine KeepsP.some_keeps ?_ _ _ (by assumption) | refine Keeps1.eq ?_ (by assumption)
    | refine Keeps2.eq ?_ (by assumption)

theorem execUnpin_keeps {r0_ s : State} {entry : Nat} (h_ : Keeps r0_ s) : KeepsR r0_ (execUnpin entry s) := by
  unfold execUnpin
  with_reducible repeat' first
    | assumption | apply KeepsR.next | apply State.setPte_keeps | apply State.performPending_keeps
    | apply State.wakePins_keeps | split

theorem execPageDrop_keeps {r0_ s : State} {entry : Nat} (h_ : Keeps r0_ s) : KeepsR r0_ (execPageDrop entry s) := by
  unfold execPageDrop
  with_reducible repeat' first
    | assumption | apply KeepsR.next | apply State.kvpUpdate_keeps | apply State.performPending_keeps
    | apply State.wakePins_keeps | split

theorem execPinHoldExpire_keeps {r0_ s : State} {entry : Nat} (h_ : Keeps r0_ s) : KeepsR r0_ (execPinHoldExpire entry s) := by
  unfold execPinHoldExpire
  with_reducible repeat' first
    | assumption | apply KeepsR.next | (fail_if_no_progress refine Keeps.upd ?_ ⟨rfl, rfl, rfl, rfl, rfl⟩)

theorem execFrameRetire_keeps {r0_ s : State} {frame : Nat} (h_ : Keeps r0_ s) : KeepsR r0_ (execFrameRetire frame s) := by
  unfold execFrameRetire
  with_reducible repeat' first
    | assumption | apply KeepsR.next | exact KeepsR.fault _ _ | apply KeepsR.ite | apply Keeps.ite
    | apply Keeps.foldl | apply Keeps.getD | apply State.latch_keeps | apply State.kvpUpdate_keeps
    | apply State.retireFrame_keeps | apply State.retireLeft_keeps | apply State.submitBurst_keeps
    | ((fail_if_no_progress extract_lets +onlyGivenNames x); first | ((first | refine Keeps.cut (t := x) ?_ ?_ | refine KeepsR.cut (t := x) ?_ ?_ | refine Keeps.cutO (o := x) ?_ ?_ | refine Keeps.cutP (o := x) ?_ ?_ | refine Keeps.cut1 (o := x) ?_ ?_ | refine Keeps.cut2 (o := x) ?_ ?_); rotate_left; (clear_value x; intro hx); rotate_left; (try subst x)) | (have _h := Keeps.memv x; clear _h) | (have _h := Keeps.bytesv x; clear _h) | (have _h := Keeps.fn x; clear _h; dsimp only [x]; clear x) | (have _h := Keeps.fn2 x; clear _h; dsimp only [x]; clear x) | clear_value x)
    | (fail_if_no_progress refine Keeps.upd ?_ ⟨rfl, rfl, rfl, rfl, rfl⟩)
    | (fail_if_no_progress ((apply Keeps.of_mk; (focus exact rfl); (focus exact rfl)); (with_unfolding_all focus first | (exact fun w => w) | exact SMap.wf_set _ _ | exact SMap.wf_filter _); (with_unfolding_all focus first | (exact fun w => w) | exact SMap.wf_putBytes _ _ | exact SMap.wf_clearRange _ _ | exact SMap.wf_filter _ | (exact fun w => SMap.wf_foldl_set _ _ _ (SMap.wf_clearRange _ _ w)) | (exact fun _ => SMap.wf_nil' _)); (focus first | exact Nat.le_refl _ | exact Nat.le_succ _ | exact Nat.le_add_right _ _)))
    | apply Keeps.foldl1 | apply Keeps.foldl2 | apply Keeps.ite1 | apply Keeps.ite2
    | refine KeepsP.some_keeps (by assumption) _ _ (by assumption)
    | refine KeepsO.oSome (by assumption) (by assumption) | refine KeepsO.oSome (by assumption) rfl
    | refine KeepsP.some_keeps (by assumption) _ _ rfl | apply KeepsP.map | refine Keeps1.keeps (by assumption)
    | refine Keeps2.keeps (by assumption) | exact KeepsO.none _ | apply KeepsO.some | apply KeepsO.ite
    | apply KeepsO.foldl | exact KeepsP.none _ | apply KeepsP.some | apply KeepsP.ite | apply Keeps1.mk'
    | apply Keeps1.ite | apply Keeps1.foldl | apply Keeps2.mk' | apply Keeps2.ite | apply Keeps2.foldl | intro _ _ _
    | intro _ _ | intro _ | split | (fail_if_no_progress dsimp only) | refine KeepsO.oSome ?_ (by assumption)
    | refine KeepsP.some_keeps ?_ _ _ (by assumption) | refine Keeps1.eq ?_ (by assumption)
    | refine Keeps2.eq ?_ (by assumption)

theorem execPatrol_keeps {r0_ s : State} {t : Tier} {u : BitVec 4} (h_ : Keeps r0_ s) : KeepsR r0_ (execPatrol t u s) := by
  unfold execPatrol
  with_reducible repeat' first
    | assumption | apply KeepsR.next | exact KeepsR.fault _ _ | apply KeepsR.ite | apply Keeps.ite
    | apply Keeps.foldl | apply Keeps.getD | apply State.inc_keeps | apply State.readMarred_keeps
    | apply State.lineUe_keeps
    | ((fail_if_no_progress extract_lets +onlyGivenNames x); first | ((first | refine Keeps.cut (t := x) ?_ ?_ | refine KeepsR.cut (t := x) ?_ ?_ | refine Keeps.cutO (o := x) ?_ ?_ | refine Keeps.cutP (o := x) ?_ ?_ | refine Keeps.cut1 (o := x) ?_ ?_ | refine Keeps.cut2 (o := x) ?_ ?_); rotate_left; (clear_value x; intro hx); rotate_left; (try subst x)) | (have _h := Keeps.memv x; clear _h) | (have _h := Keeps.bytesv x; clear _h) | (have _h := Keeps.fn x; clear _h; dsimp only [x]; clear x) | (have _h := Keeps.fn2 x; clear _h; dsimp only [x]; clear x) | clear_value x)
    | (fail_if_no_progress refine Keeps.upd ?_ ⟨rfl, rfl, rfl, rfl, rfl⟩)
    | (fail_if_no_progress ((apply Keeps.of_mk; (focus exact rfl); (focus exact rfl)); (with_unfolding_all focus first | (exact fun w => w) | exact SMap.wf_set _ _ | exact SMap.wf_filter _); (with_unfolding_all focus first | (exact fun w => w) | exact SMap.wf_putBytes _ _ | exact SMap.wf_clearRange _ _ | exact SMap.wf_filter _ | (exact fun w => SMap.wf_foldl_set _ _ _ (SMap.wf_clearRange _ _ w)) | (exact fun _ => SMap.wf_nil' _)); (focus first | exact Nat.le_refl _ | exact Nat.le_succ _ | exact Nat.le_add_right _ _)))
    | apply Keeps.foldl1 | apply Keeps.foldl2 | apply Keeps.ite1 | apply Keeps.ite2
    | refine KeepsP.some_keeps (by assumption) _ _ (by assumption)
    | refine KeepsO.oSome (by assumption) (by assumption) | refine KeepsO.oSome (by assumption) rfl
    | refine KeepsP.some_keeps (by assumption) _ _ rfl | apply KeepsP.map | refine Keeps1.keeps (by assumption)
    | refine Keeps2.keeps (by assumption) | exact KeepsO.none _ | apply KeepsO.some | apply KeepsO.ite
    | apply KeepsO.foldl | exact KeepsP.none _ | apply KeepsP.some | apply KeepsP.ite | apply Keeps1.mk'
    | apply Keeps1.ite | apply Keeps1.foldl | apply Keeps2.mk' | apply Keeps2.ite | apply Keeps2.foldl | intro _ _ _
    | intro _ _ | intro _ | split | (fail_if_no_progress dsimp only) | refine KeepsO.oSome ?_ (by assumption)
    | refine KeepsP.some_keeps ?_ _ _ (by assumption) | refine Keeps1.eq ?_ (by assumption)
    | refine Keeps2.eq ?_ (by assumption)

theorem execBankRefresh_keeps {r0_ s : State} {t : Tier} {u : BitVec 4} {temp : Int} (h_ : Keeps r0_ s) : KeepsR r0_ (execBankRefresh t u temp s) := by
  unfold execBankRefresh
  with_reducible repeat' first
    | assumption | apply KeepsR.next | apply State.setFld_keeps
    | (fail_if_no_progress refine Keeps.upd ?_ ⟨rfl, rfl, rfl, rfl, rfl⟩) | split

theorem State.loseRegion_keeps {r0_ s : State} {n : Nat} (h_ : Keeps r0_ s) : Keeps r0_ (State.loseRegion s n) := by
  unfold State.loseRegion
  with_reducible repeat' first
    | assumption | apply Keeps.ite | apply Keeps.foldl | apply Keeps.getD | apply State.setBit_keeps
    | apply State.latch_keeps | apply State.kvpUpdate_keeps | apply State.abortWhere_keeps
    | apply State.failAll_keeps | apply State.failShards_keeps | apply State.removeNodes_keeps
    | apply State.releaseModel_keeps | apply State.refuseLoad_keeps
    | ((fail_if_no_progress extract_lets +onlyGivenNames x); first | ((first | refine Keeps.cut (t := x) ?_ ?_ | refine Keeps.cutO (o := x) ?_ ?_ | refine Keeps.cutP (o := x) ?_ ?_ | refine Keeps.cut1 (o := x) ?_ ?_ | refine Keeps.cut2 (o := x) ?_ ?_); rotate_left; (clear_value x; intro hx); rotate_left; (try subst x)) | (have _h := Keeps.memv x; clear _h) | (have _h := Keeps.bytesv x; clear _h) | (have _h := Keeps.fn x; clear _h; dsimp only [x]; clear x) | (have _h := Keeps.fn2 x; clear _h; dsimp only [x]; clear x) | clear_value x)
    | (fail_if_no_progress refine Keeps.upd ?_ ⟨rfl, rfl, rfl, rfl, rfl⟩)
    | (fail_if_no_progress ((apply Keeps.of_mk; (focus exact rfl); (focus exact rfl)); (with_unfolding_all focus first | (exact fun w => w) | exact SMap.wf_set _ _ | exact SMap.wf_filter _); (with_unfolding_all focus first | (exact fun w => w) | exact SMap.wf_putBytes _ _ | exact SMap.wf_clearRange _ _ | exact SMap.wf_filter _ | (exact fun w => SMap.wf_foldl_set _ _ _ (SMap.wf_clearRange _ _ w)) | (exact fun _ => SMap.wf_nil' _)); (focus first | exact Nat.le_refl _ | exact Nat.le_succ _ | exact Nat.le_add_right _ _)))
    | apply Keeps.foldl1 | apply Keeps.foldl2 | apply Keeps.ite1 | apply Keeps.ite2
    | refine KeepsP.some_keeps (by assumption) _ _ (by assumption)
    | refine KeepsO.oSome (by assumption) (by assumption) | refine KeepsO.oSome (by assumption) rfl
    | refine KeepsP.some_keeps (by assumption) _ _ rfl | apply KeepsP.map | refine Keeps1.keeps (by assumption)
    | refine Keeps2.keeps (by assumption) | exact KeepsO.none _ | apply KeepsO.some | apply KeepsO.ite
    | apply KeepsO.foldl | exact KeepsP.none _ | apply KeepsP.some | apply KeepsP.ite | apply Keeps1.mk'
    | apply Keeps1.ite | apply Keeps1.foldl | apply Keeps2.mk' | apply Keeps2.ite | apply Keeps2.foldl | intro _ _ _
    | intro _ _ | intro _ | split | (fail_if_no_progress dsimp only) | refine KeepsO.oSome ?_ (by assumption)
    | refine KeepsP.some_keeps ?_ _ _ (by assumption) | refine Keeps1.eq ?_ (by assumption)
    | refine Keeps2.eq ?_ (by assumption)

theorem State.failMemory_keeps {r0_ s : State} {n : Nat} (h_ : Keeps r0_ s) : Keeps r0_ (State.failMemory s n) := by
  unfold State.failMemory
  with_reducible repeat' first
    | assumption | apply Keeps.ite | apply Keeps.foldl | apply Keeps.getD | apply State.loseRegion_keeps
    | ((fail_if_no_progress extract_lets +onlyGivenNames x); first | ((first | refine Keeps.cut (t := x) ?_ ?_ | refine Keeps.cutO (o := x) ?_ ?_ | refine Keeps.cutP (o := x) ?_ ?_ | refine Keeps.cut1 (o := x) ?_ ?_ | refine Keeps.cut2 (o := x) ?_ ?_); rotate_left; (clear_value x; intro hx); rotate_left; (try subst x)) | (have _h := Keeps.memv x; clear _h) | (have _h := Keeps.bytesv x; clear _h) | (have _h := Keeps.fn x; clear _h; dsimp only [x]; clear x) | (have _h := Keeps.fn2 x; clear _h; dsimp only [x]; clear x) | clear_value x)
    | (fail_if_no_progress refine Keeps.upd ?_ ⟨rfl, rfl, rfl, rfl, rfl⟩)
    | (fail_if_no_progress ((apply Keeps.of_mk; (focus exact rfl); (focus exact rfl)); (with_unfolding_all focus first | (exact fun w => w) | exact SMap.wf_set _ _ | exact SMap.wf_filter _); (with_unfolding_all focus first | (exact fun w => w) | exact SMap.wf_putBytes _ _ | exact SMap.wf_clearRange _ _ | exact SMap.wf_filter _ | (exact fun w => SMap.wf_foldl_set _ _ _ (SMap.wf_clearRange _ _ w)) | (exact fun _ => SMap.wf_nil' _)); (focus first | exact Nat.le_refl _ | exact Nat.le_succ _ | exact Nat.le_add_right _ _)))
    | apply Keeps.foldl1 | apply Keeps.foldl2 | apply Keeps.ite1 | apply Keeps.ite2
    | refine KeepsP.some_keeps (by assumption) _ _ (by assumption)
    | refine KeepsO.oSome (by assumption) (by assumption) | refine KeepsO.oSome (by assumption) rfl
    | refine KeepsP.some_keeps (by assumption) _ _ rfl | apply KeepsP.map | refine Keeps1.keeps (by assumption)
    | refine Keeps2.keeps (by assumption) | exact KeepsO.none _ | apply KeepsO.some | apply KeepsO.ite
    | apply KeepsO.foldl | exact KeepsP.none _ | apply KeepsP.some | apply KeepsP.ite | apply Keeps1.mk'
    | apply Keeps1.ite | apply Keeps1.foldl | apply Keeps2.mk' | apply Keeps2.ite | apply Keeps2.foldl | intro _ _ _
    | intro _ _ | intro _ | split | (fail_if_no_progress dsimp only) | refine KeepsO.oSome ?_ (by assumption)
    | refine KeepsP.some_keeps ?_ _ _ (by assumption) | refine Keeps1.eq ?_ (by assumption)
    | refine Keeps2.eq ?_ (by assumption)

theorem execStackLost_keeps {r0_ s : State} {t : Tier} {u : BitVec 4} (h_ : Keeps r0_ s) : KeepsR r0_ (execStackLost t u s) := by
  unfold execStackLost
  with_reducible repeat' first
    | assumption | apply KeepsR.next | exact KeepsR.fault _ _ | apply KeepsR.ite | apply Keeps.ite
    | apply Keeps.foldl | apply Keeps.getD | apply State.failMemory_keeps
    | ((fail_if_no_progress extract_lets +onlyGivenNames x); first | ((first | refine Keeps.cut (t := x) ?_ ?_ | refine KeepsR.cut (t := x) ?_ ?_ | refine Keeps.cutO (o := x) ?_ ?_ | refine Keeps.cutP (o := x) ?_ ?_ | refine Keeps.cut1 (o := x) ?_ ?_ | refine Keeps.cut2 (o := x) ?_ ?_); rotate_left; (clear_value x; intro hx); rotate_left; (try subst x)) | (have _h := Keeps.memv x; clear _h) | (have _h := Keeps.bytesv x; clear _h) | (have _h := Keeps.fn x; clear _h; dsimp only [x]; clear x) | (have _h := Keeps.fn2 x; clear _h; dsimp only [x]; clear x) | clear_value x)
    | (fail_if_no_progress refine Keeps.upd ?_ ⟨rfl, rfl, rfl, rfl, rfl⟩)
    | (fail_if_no_progress ((apply Keeps.of_mk; (focus exact rfl); (focus exact rfl)); (with_unfolding_all focus first | (exact fun w => w) | exact SMap.wf_set _ _ | exact SMap.wf_filter _); (with_unfolding_all focus first | (exact fun w => w) | exact SMap.wf_putBytes _ _ | exact SMap.wf_clearRange _ _ | exact SMap.wf_filter _ | (exact fun w => SMap.wf_foldl_set _ _ _ (SMap.wf_clearRange _ _ w)) | (exact fun _ => SMap.wf_nil' _)); (focus first | exact Nat.le_refl _ | exact Nat.le_succ _ | exact Nat.le_add_right _ _)))
    | apply Keeps.foldl1 | apply Keeps.foldl2 | apply Keeps.ite1 | apply Keeps.ite2
    | refine KeepsP.some_keeps (by assumption) _ _ (by assumption)
    | refine KeepsO.oSome (by assumption) (by assumption) | refine KeepsO.oSome (by assumption) rfl
    | refine KeepsP.some_keeps (by assumption) _ _ rfl | apply KeepsP.map | refine Keeps1.keeps (by assumption)
    | refine Keeps2.keeps (by assumption) | exact KeepsO.none _ | apply KeepsO.some | apply KeepsO.ite
    | apply KeepsO.foldl | exact KeepsP.none _ | apply KeepsP.some | apply KeepsP.ite | apply Keeps1.mk'
    | apply Keeps1.ite | apply Keeps1.foldl | apply Keeps2.mk' | apply Keeps2.ite | apply Keeps2.foldl | intro _ _ _
    | intro _ _ | intro _ | split | (fail_if_no_progress dsimp only) | refine KeepsO.oSome ?_ (by assumption)
    | refine KeepsP.some_keeps ?_ _ _ (by assumption) | refine Keeps1.eq ?_ (by assumption)
    | refine Keeps2.eq ?_ (by assumption)

theorem execCipherFault_keeps {r0_ s : State} {t : Tier} {u : BitVec 4} (h_ : Keeps r0_ s) : KeepsR r0_ (execCipherFault t u s) := by
  unfold execCipherFault
  with_reducible repeat' first
    | assumption | apply KeepsR.next | exact KeepsR.fault _ _ | apply KeepsR.ite | apply Keeps.ite
    | apply Keeps.foldl | apply Keeps.getD | apply State.latch_keeps | apply State.failMemory_keeps
    | ((fail_if_no_progress extract_lets +onlyGivenNames x); first | ((first | refine Keeps.cut (t := x) ?_ ?_ | refine KeepsR.cut (t := x) ?_ ?_ | refine Keeps.cutO (o := x) ?_ ?_ | refine Keeps.cutP (o := x) ?_ ?_ | refine Keeps.cut1 (o := x) ?_ ?_ | refine Keeps.cut2 (o := x) ?_ ?_); rotate_left; (clear_value x; intro hx); rotate_left; (try subst x)) | (have _h := Keeps.memv x; clear _h) | (have _h := Keeps.bytesv x; clear _h) | (have _h := Keeps.fn x; clear _h; dsimp only [x]; clear x) | (have _h := Keeps.fn2 x; clear _h; dsimp only [x]; clear x) | clear_value x)
    | (fail_if_no_progress refine Keeps.upd ?_ ⟨rfl, rfl, rfl, rfl, rfl⟩)
    | (fail_if_no_progress ((apply Keeps.of_mk; (focus exact rfl); (focus exact rfl)); (with_unfolding_all focus first | (exact fun w => w) | exact SMap.wf_set _ _ | exact SMap.wf_filter _); (with_unfolding_all focus first | (exact fun w => w) | exact SMap.wf_putBytes _ _ | exact SMap.wf_clearRange _ _ | exact SMap.wf_filter _ | (exact fun w => SMap.wf_foldl_set _ _ _ (SMap.wf_clearRange _ _ w)) | (exact fun _ => SMap.wf_nil' _)); (focus first | exact Nat.le_refl _ | exact Nat.le_succ _ | exact Nat.le_add_right _ _)))
    | apply Keeps.foldl1 | apply Keeps.foldl2 | apply Keeps.ite1 | apply Keeps.ite2
    | refine KeepsP.some_keeps (by assumption) _ _ (by assumption)
    | refine KeepsO.oSome (by assumption) (by assumption) | refine KeepsO.oSome (by assumption) rfl
    | refine KeepsP.some_keeps (by assumption) _ _ rfl | apply KeepsP.map | refine Keeps1.keeps (by assumption)
    | refine Keeps2.keeps (by assumption) | exact KeepsO.none _ | apply KeepsO.some | apply KeepsO.ite
    | apply KeepsO.foldl | exact KeepsP.none _ | apply KeepsP.some | apply KeepsP.ite | apply Keeps1.mk'
    | apply Keeps1.ite | apply Keeps1.foldl | apply Keeps2.mk' | apply Keeps2.ite | apply Keeps2.foldl | intro _ _ _
    | intro _ _ | intro _ | split | (fail_if_no_progress dsimp only) | refine KeepsO.oSome ?_ (by assumption)
    | refine KeepsP.some_keeps ?_ _ _ (by assumption) | refine Keeps1.eq ?_ (by assumption)
    | refine Keeps2.eq ?_ (by assumption)

theorem State.trainUnit_keeps {r0_ s : State} {n : Nat} {us : Word} {retried failed : Bool} (h_ : Keeps r0_ s) : Keeps r0_ (State.trainUnit s n us retried failed) := by
  unfold State.trainUnit
  with_reducible repeat' first
    | assumption | apply Keeps.ite | apply Keeps.foldl | apply Keeps.getD | apply State.setReg_keeps
    | apply State.setBit_keeps | apply State.latch_keeps
    | ((fail_if_no_progress extract_lets +onlyGivenNames x); first | ((first | refine Keeps.cut (t := x) ?_ ?_ | refine Keeps.cutO (o := x) ?_ ?_ | refine Keeps.cutP (o := x) ?_ ?_ | refine Keeps.cut1 (o := x) ?_ ?_ | refine Keeps.cut2 (o := x) ?_ ?_); rotate_left; (clear_value x; intro hx); rotate_left; (try subst x)) | (have _h := Keeps.memv x; clear _h) | (have _h := Keeps.bytesv x; clear _h) | (have _h := Keeps.fn x; clear _h; dsimp only [x]; clear x) | (have _h := Keeps.fn2 x; clear _h; dsimp only [x]; clear x) | clear_value x)
    | (fail_if_no_progress refine Keeps.upd ?_ ⟨rfl, rfl, rfl, rfl, rfl⟩)
    | (fail_if_no_progress ((apply Keeps.of_mk; (focus exact rfl); (focus exact rfl)); (with_unfolding_all focus first | (exact fun w => w) | exact SMap.wf_set _ _ | exact SMap.wf_filter _); (with_unfolding_all focus first | (exact fun w => w) | exact SMap.wf_putBytes _ _ | exact SMap.wf_clearRange _ _ | exact SMap.wf_filter _ | (exact fun w => SMap.wf_foldl_set _ _ _ (SMap.wf_clearRange _ _ w)) | (exact fun _ => SMap.wf_nil' _)); (focus first | exact Nat.le_refl _ | exact Nat.le_succ _ | exact Nat.le_add_right _ _)))
    | apply Keeps.foldl1 | apply Keeps.foldl2 | apply Keeps.ite1 | apply Keeps.ite2
    | refine KeepsP.some_keeps (by assumption) _ _ (by assumption)
    | refine KeepsO.oSome (by assumption) (by assumption) | refine KeepsO.oSome (by assumption) rfl
    | refine KeepsP.some_keeps (by assumption) _ _ rfl | apply KeepsP.map | refine Keeps1.keeps (by assumption)
    | refine Keeps2.keeps (by assumption) | exact KeepsO.none _ | apply KeepsO.some | apply KeepsO.ite
    | apply KeepsO.foldl | exact KeepsP.none _ | apply KeepsP.some | apply KeepsP.ite | apply Keeps1.mk'
    | apply Keeps1.ite | apply Keeps1.foldl | apply Keeps2.mk' | apply Keeps2.ite | apply Keeps2.foldl | intro _ _ _
    | intro _ _ | intro _ | split | (fail_if_no_progress dsimp only) | refine KeepsO.oSome ?_ (by assumption)
    | refine KeepsP.some_keeps ?_ _ _ (by assumption) | refine Keeps1.eq ?_ (by assumption)
    | refine Keeps2.eq ?_ (by assumption)

theorem State.bringOnline_keeps {r0_ s : State} {ns : List Nat} (h_ : Keeps r0_ s) : Keeps r0_ (State.bringOnline s ns) := by
  unfold State.bringOnline
  with_reducible repeat' first
    | assumption | apply Keeps.ite | apply Keeps.foldl | apply Keeps.getD | apply State.setBit_keeps
    | ((fail_if_no_progress extract_lets +onlyGivenNames x); first | ((first | refine Keeps.cut (t := x) ?_ ?_ | refine Keeps.cutO (o := x) ?_ ?_ | refine Keeps.cutP (o := x) ?_ ?_ | refine Keeps.cut1 (o := x) ?_ ?_ | refine Keeps.cut2 (o := x) ?_ ?_); rotate_left; (clear_value x; intro hx); rotate_left; (try subst x)) | (have _h := Keeps.memv x; clear _h) | (have _h := Keeps.bytesv x; clear _h) | (have _h := Keeps.fn x; clear _h; dsimp only [x]; clear x) | (have _h := Keeps.fn2 x; clear _h; dsimp only [x]; clear x) | clear_value x)
    | (fail_if_no_progress refine Keeps.upd ?_ ⟨rfl, rfl, rfl, rfl, rfl⟩)
    | (fail_if_no_progress ((apply Keeps.of_mk; (focus exact rfl); (focus exact rfl)); (with_unfolding_all focus first | (exact fun w => w) | exact SMap.wf_set _ _ | exact SMap.wf_filter _); (with_unfolding_all focus first | (exact fun w => w) | exact SMap.wf_putBytes _ _ | exact SMap.wf_clearRange _ _ | exact SMap.wf_filter _ | (exact fun w => SMap.wf_foldl_set _ _ _ (SMap.wf_clearRange _ _ w)) | (exact fun _ => SMap.wf_nil' _)); (focus first | exact Nat.le_refl _ | exact Nat.le_succ _ | exact Nat.le_add_right _ _)))
    | apply Keeps.foldl1 | apply Keeps.foldl2 | apply Keeps.ite1 | apply Keeps.ite2
    | refine KeepsP.some_keeps (by assumption) _ _ (by assumption)
    | refine KeepsO.oSome (by assumption) (by assumption) | refine KeepsO.oSome (by assumption) rfl
    | refine KeepsP.some_keeps (by assumption) _ _ rfl | apply KeepsP.map | refine Keeps1.keeps (by assumption)
    | refine Keeps2.keeps (by assumption) | exact KeepsO.none _ | apply KeepsO.some | apply KeepsO.ite
    | apply KeepsO.foldl | exact KeepsP.none _ | apply KeepsP.some | apply KeepsP.ite | apply Keeps1.mk'
    | apply Keeps1.ite | apply Keeps1.foldl | apply Keeps2.mk' | apply Keeps2.ite | apply Keeps2.foldl | intro _ _ _
    | intro _ _ | intro _ | split | (fail_if_no_progress dsimp only) | refine KeepsO.oSome ?_ (by assumption)
    | refine KeepsP.some_keeps ?_ _ _ (by assumption) | refine Keeps1.eq ?_ (by assumption)
    | refine Keeps2.eq ?_ (by assumption)

theorem execMemoryTrained_keeps {r0_ s : State} {retried failed : List (Tier × BitVec 4)} {us : List Word} (h_ : Keeps r0_ s) : KeepsR r0_ (execMemoryTrained retried failed us s) := by
  unfold execMemoryTrained
  with_reducible repeat' first
    | assumption | apply KeepsR.next | exact KeepsR.fault _ _ | apply KeepsR.ite | apply Keeps.ite
    | apply Keeps.foldl | apply Keeps.getD | apply State.kvpUpdate_keeps | apply State.trainUnit_keeps
    | apply State.bringOnline_keeps
    | ((fail_if_no_progress extract_lets +onlyGivenNames x); first | ((first | refine Keeps.cut (t := x) ?_ ?_ | refine KeepsR.cut (t := x) ?_ ?_ | refine Keeps.cutO (o := x) ?_ ?_ | refine Keeps.cutP (o := x) ?_ ?_ | refine Keeps.cut1 (o := x) ?_ ?_ | refine Keeps.cut2 (o := x) ?_ ?_); rotate_left; (clear_value x; intro hx); rotate_left; (try subst x)) | (have _h := Keeps.memv x; clear _h) | (have _h := Keeps.bytesv x; clear _h) | (have _h := Keeps.fn x; clear _h; dsimp only [x]; clear x) | (have _h := Keeps.fn2 x; clear _h; dsimp only [x]; clear x) | clear_value x)
    | (fail_if_no_progress refine Keeps.upd ?_ ⟨rfl, rfl, rfl, rfl, rfl⟩)
    | (fail_if_no_progress ((apply Keeps.of_mk; (focus exact rfl); (focus exact rfl)); (with_unfolding_all focus first | (exact fun w => w) | exact SMap.wf_set _ _ | exact SMap.wf_filter _); (with_unfolding_all focus first | (exact fun w => w) | exact SMap.wf_putBytes _ _ | exact SMap.wf_clearRange _ _ | exact SMap.wf_filter _ | (exact fun w => SMap.wf_foldl_set _ _ _ (SMap.wf_clearRange _ _ w)) | (exact fun _ => SMap.wf_nil' _)); (focus first | exact Nat.le_refl _ | exact Nat.le_succ _ | exact Nat.le_add_right _ _)))
    | apply Keeps.foldl1 | apply Keeps.foldl2 | apply Keeps.ite1 | apply Keeps.ite2
    | refine KeepsP.some_keeps (by assumption) _ _ (by assumption)
    | refine KeepsO.oSome (by assumption) (by assumption) | refine KeepsO.oSome (by assumption) rfl
    | refine KeepsP.some_keeps (by assumption) _ _ rfl | apply KeepsP.map | refine Keeps1.keeps (by assumption)
    | refine Keeps2.keeps (by assumption) | exact KeepsO.none _ | apply KeepsO.some | apply KeepsO.ite
    | apply KeepsO.foldl | exact KeepsP.none _ | apply KeepsP.some | apply KeepsP.ite | apply Keeps1.mk'
    | apply Keeps1.ite | apply Keeps1.foldl | apply Keeps2.mk' | apply Keeps2.ite | apply Keeps2.foldl | intro _ _ _
    | intro _ _ | intro _ | split | (fail_if_no_progress dsimp only) | refine KeepsO.oSome ?_ (by assumption)
    | refine KeepsP.some_keeps ?_ _ _ (by assumption) | refine Keeps1.eq ?_ (by assumption)
    | refine Keeps2.eq ?_ (by assumption)

theorem State.abortStored_keeps {r0_ s : State} {a n : Nat} (h_ : Keeps r0_ s) : Keeps r0_ (State.abortStored s a n) := by
  unfold State.abortStored
  with_reducible repeat' first
    | assumption | apply Keeps.foldl | apply State.abortMoves_keeps

theorem State.put_keeps {r0_ s : State} {a : Nat} {bytes : List Byte} (h_ : Keeps r0_ s) : Keeps r0_ (State.put s a bytes) := by
  unfold State.put
  with_reducible repeat' first
    | assumption | apply Keeps.ite | apply Keeps.foldl | apply Keeps.getD | apply State.wr_keeps
    | apply State.abortStored_keeps
    | ((fail_if_no_progress extract_lets +onlyGivenNames x); first | ((first | refine Keeps.cut (t := x) ?_ ?_ | refine Keeps.cutO (o := x) ?_ ?_ | refine Keeps.cutP (o := x) ?_ ?_ | refine Keeps.cut1 (o := x) ?_ ?_ | refine Keeps.cut2 (o := x) ?_ ?_); rotate_left; (clear_value x; intro hx); rotate_left; (try subst x)) | (have _h := Keeps.memv x; clear _h) | (have _h := Keeps.bytesv x; clear _h) | (have _h := Keeps.fn x; clear _h; dsimp only [x]; clear x) | (have _h := Keeps.fn2 x; clear _h; dsimp only [x]; clear x) | clear_value x)
    | (fail_if_no_progress refine Keeps.upd ?_ ⟨rfl, rfl, rfl, rfl, rfl⟩)
    | (fail_if_no_progress ((apply Keeps.of_mk; (focus exact rfl); (focus exact rfl)); (with_unfolding_all focus first | (exact fun w => w) | exact SMap.wf_set _ _ | exact SMap.wf_filter _); (with_unfolding_all focus first | (exact fun w => w) | exact SMap.wf_putBytes _ _ | exact SMap.wf_clearRange _ _ | exact SMap.wf_filter _ | (exact fun w => SMap.wf_foldl_set _ _ _ (SMap.wf_clearRange _ _ w)) | (exact fun _ => SMap.wf_nil' _)); (focus first | exact Nat.le_refl _ | exact Nat.le_succ _ | exact Nat.le_add_right _ _)))
    | apply Keeps.foldl1 | apply Keeps.foldl2 | apply Keeps.ite1 | apply Keeps.ite2
    | refine KeepsP.some_keeps (by assumption) _ _ (by assumption)
    | refine KeepsO.oSome (by assumption) (by assumption) | refine KeepsO.oSome (by assumption) rfl
    | refine KeepsP.some_keeps (by assumption) _ _ rfl | apply KeepsP.map | refine Keeps1.keeps (by assumption)
    | refine Keeps2.keeps (by assumption) | exact KeepsO.none _ | apply KeepsO.some | apply KeepsO.ite
    | apply KeepsO.foldl | exact KeepsP.none _ | apply KeepsP.some | apply KeepsP.ite | apply Keeps1.mk'
    | apply Keeps1.ite | apply Keeps1.foldl | apply Keeps2.mk' | apply Keeps2.ite | apply Keeps2.foldl | intro _ _ _
    | intro _ _ | intro _ | split | (fail_if_no_progress dsimp only) | refine KeepsO.oSome ?_ (by assumption)
    | refine KeepsP.some_keeps ?_ _ _ (by assumption) | refine Keeps1.eq ?_ (by assumption)
    | refine Keeps2.eq ?_ (by assumption)

/-! ### Kv -/

theorem State.writeRow_keeps {r0_ s : State} {h : Shard} {f t : Nat} {sc : List Nat × List Nat} {k v : List Byte} (h_ : Keeps r0_ s) : Keeps r0_ (State.writeRow s h f t sc k v) := by
  unfold State.writeRow
  with_reducible repeat' first
    | assumption | apply Keeps.foldl | apply State.addCnt_keeps | apply State.wr_keeps | intro _ _ _

theorem State.holdShard_keeps {r0_ s : State} {h : Shard} (h_ : Keeps r0_ s) : Keeps r0_ (State.holdShard s h) := by
  unfold State.holdShard
  with_reducible repeat' first
    | assumption | apply Keeps.ite | apply Keeps.foldl | apply Keeps.getD | apply State.kvpUpdate_keeps
    | apply State.setRes_keeps
    | ((fail_if_no_progress extract_lets +onlyGivenNames x); first | ((first | refine Keeps.cut (t := x) ?_ ?_ | refine Keeps.cutO (o := x) ?_ ?_ | refine Keeps.cutP (o := x) ?_ ?_ | refine Keeps.cut1 (o := x) ?_ ?_ | refine Keeps.cut2 (o := x) ?_ ?_); rotate_left; (clear_value x; intro hx); rotate_left; (try subst x)) | (have _h := Keeps.memv x; clear _h) | (have _h := Keeps.bytesv x; clear _h) | (have _h := Keeps.fn x; clear _h; dsimp only [x]; clear x) | (have _h := Keeps.fn2 x; clear _h; dsimp only [x]; clear x) | clear_value x)
    | (fail_if_no_progress refine Keeps.upd ?_ ⟨rfl, rfl, rfl, rfl, rfl⟩)
    | (fail_if_no_progress ((apply Keeps.of_mk; (focus exact rfl); (focus exact rfl)); (with_unfolding_all focus first | (exact fun w => w) | exact SMap.wf_set _ _ | exact SMap.wf_filter _); (with_unfolding_all focus first | (exact fun w => w) | exact SMap.wf_putBytes _ _ | exact SMap.wf_clearRange _ _ | exact SMap.wf_filter _ | (exact fun w => SMap.wf_foldl_set _ _ _ (SMap.wf_clearRange _ _ w)) | (exact fun _ => SMap.wf_nil' _)); (focus first | exact Nat.le_refl _ | exact Nat.le_succ _ | exact Nat.le_add_right _ _)))
    | apply Keeps.foldl1 | apply Keeps.foldl2 | apply Keeps.ite1 | apply Keeps.ite2
    | refine KeepsP.some_keeps (by assumption) _ _ (by assumption)
    | refine KeepsO.oSome (by assumption) (by assumption) | refine KeepsO.oSome (by assumption) rfl
    | refine KeepsP.some_keeps (by assumption) _ _ rfl | apply KeepsP.map | refine Keeps1.keeps (by assumption)
    | refine Keeps2.keeps (by assumption) | exact KeepsO.none _ | apply KeepsO.some | apply KeepsO.ite
    | apply KeepsO.foldl | exact KeepsP.none _ | apply KeepsP.some | apply KeepsP.ite | apply Keeps1.mk'
    | apply Keeps1.ite | apply Keeps1.foldl | apply Keeps2.mk' | apply Keeps2.ite | apply Keeps2.foldl | intro _ _ _
    | intro _ _ | intro _ | split | (fail_if_no_progress dsimp only) | refine KeepsO.oSome ?_ (by assumption)
    | refine KeepsP.some_keeps ?_ _ _ (by assumption) | refine Keeps1.eq ?_ (by assumption)
    | refine Keeps2.eq ?_ (by assumption)

theorem State.waitShard_keeps {r0_ s : State} {h : Shard} (h_ : Keeps r0_ s) : Keeps r0_ (State.waitShard s h) := by
  unfold State.waitShard
  with_reducible repeat' first
    | assumption | apply Keeps.ite | apply Keeps.foldl | apply Keeps.getD | apply State.setShard_keeps
    | apply State.needKey_keepsO | refine (State.needKey_keepsO ?_).some_keeps _ (by assumption)
    | apply State.holdShard_keeps
    | ((fail_if_no_progress extract_lets +onlyGivenNames x); first | ((first | refine Keeps.cut (t := x) ?_ ?_ | refine Keeps.cutO (o := x) ?_ ?_ | refine Keeps.cutP (o := x) ?_ ?_ | refine Keeps.cut1 (o := x) ?_ ?_ | refine Keeps.cut2 (o := x) ?_ ?_); rotate_left; (clear_value x; intro hx); rotate_left; (try subst x)) | (have _h := Keeps.memv x; clear _h) | (have _h := Keeps.bytesv x; clear _h) | (have _h := Keeps.fn x; clear _h; dsimp only [x]; clear x) | (have _h := Keeps.fn2 x; clear _h; dsimp only [x]; clear x) | clear_value x)
    | (fail_if_no_progress refine Keeps.upd ?_ ⟨rfl, rfl, rfl, rfl, rfl⟩)
    | (fail_if_no_progress ((apply Keeps.of_mk; (focus exact rfl); (focus exact rfl)); (with_unfolding_all focus first | (exact fun w => w) | exact SMap.wf_set _ _ | exact SMap.wf_filter _); (with_unfolding_all focus first | (exact fun w => w) | exact SMap.wf_putBytes _ _ | exact SMap.wf_clearRange _ _ | exact SMap.wf_filter _ | (exact fun w => SMap.wf_foldl_set _ _ _ (SMap.wf_clearRange _ _ w)) | (exact fun _ => SMap.wf_nil' _)); (focus first | exact Nat.le_refl _ | exact Nat.le_succ _ | exact Nat.le_add_right _ _)))
    | apply Keeps.foldl1 | apply Keeps.foldl2 | apply Keeps.ite1 | apply Keeps.ite2
    | refine KeepsP.some_keeps (by assumption) _ _ (by assumption)
    | refine KeepsO.oSome (by assumption) (by assumption) | refine KeepsO.oSome (by assumption) rfl
    | refine KeepsP.some_keeps (by assumption) _ _ rfl | apply KeepsP.map | refine Keeps1.keeps (by assumption)
    | refine Keeps2.keeps (by assumption) | exact KeepsO.none _ | apply KeepsO.some | apply KeepsO.ite
    | apply KeepsO.foldl | exact KeepsP.none _ | apply KeepsP.some | apply KeepsP.ite | apply Keeps1.mk'
    | apply Keeps1.ite | apply Keeps1.foldl | apply Keeps2.mk' | apply Keeps2.ite | apply Keeps2.foldl | intro _ _ _
    | intro _ _ | intro _ | split | (fail_if_no_progress dsimp only) | refine KeepsO.oSome ?_ (by assumption)
    | refine KeepsP.some_keeps ?_ _ _ (by assumption) | refine Keeps1.eq ?_ (by assumption)
    | refine Keeps2.eq ?_ (by assumption)

theorem State.reserve_keeps {r0_ s : State} {h : Shard} (h_ : Keeps r0_ s) : Keeps r0_ (State.reserve s h) := by
  unfold State.reserve
  with_reducible repeat' first
    | assumption | apply Keeps.ite | apply Keeps.foldl | apply Keeps.getD | apply State.takePage_keepsO
    | refine (State.takePage_keepsO ?_).some_keeps _ _ (by assumption) | apply State.setRes_keeps
    | apply State.holdShard_keeps
    | ((fail_if_no_progress extract_lets +onlyGivenNames x); first | ((first | refine Keeps.cut (t := x) ?_ ?_ | refine Keeps.cutO (o := x) ?_ ?_ | refine Keeps.cutP (o := x) ?_ ?_ | refine Keeps.cut1 (o := x) ?_ ?_ | refine Keeps.cut2 (o := x) ?_ ?_); rotate_left; (clear_value x; intro hx); rotate_left; (try subst x)) | (have _h := Keeps.memv x; clear _h) | (have _h := Keeps.bytesv x; clear _h) | (have _h := Keeps.fn x; clear _h; dsimp only [x]; clear x) | (have _h := Keeps.fn2 x; clear _h; dsimp only [x]; clear x) | clear_value x)
    | (fail_if_no_progress refine Keeps.upd ?_ ⟨rfl, rfl, rfl, rfl, rfl⟩)
    | (fail_if_no_progress ((apply Keeps.of_mk; (focus exact rfl); (focus exact rfl)); (with_unfolding_all focus first | (exact fun w => w) | exact SMap.wf_set _ _ | exact SMap.wf_filter _); (with_unfolding_all focus first | (exact fun w => w) | exact SMap.wf_putBytes _ _ | exact SMap.wf_clearRange _ _ | exact SMap.wf_filter _ | (exact fun w => SMap.wf_foldl_set _ _ _ (SMap.wf_clearRange _ _ w)) | (exact fun _ => SMap.wf_nil' _)); (focus first | exact Nat.le_refl _ | exact Nat.le_succ _ | exact Nat.le_add_right _ _)))
    | apply Keeps.foldl1 | apply Keeps.foldl2 | apply Keeps.ite1 | apply Keeps.ite2
    | refine KeepsP.some_keeps (by assumption) _ _ (by assumption)
    | refine KeepsO.oSome (by assumption) (by assumption) | refine KeepsO.oSome (by assumption) rfl
    | refine KeepsP.some_keeps (by assumption) _ _ rfl | apply KeepsP.map | refine Keeps1.keeps (by assumption)
    | refine Keeps2.keeps (by assumption) | exact KeepsO.none _ | apply KeepsO.some | apply KeepsO.ite
    | apply KeepsO.foldl | exact KeepsP.none _ | apply KeepsP.some | apply KeepsP.ite | apply Keeps1.mk'
    | apply Keeps1.ite | apply Keeps1.foldl | apply Keeps2.mk' | apply Keeps2.ite | apply Keeps2.foldl | intro _ _ _
    | intro _ _ | intro _ | split | (fail_if_no_progress dsimp only) | refine KeepsO.oSome ?_ (by assumption)
    | refine KeepsP.some_keeps ?_ _ _ (by assumption) | refine Keeps1.eq ?_ (by assumption)
    | refine Keeps2.eq ?_ (by assumption)

theorem State.reserveAfter_keeps {r0_ s : State} {h : Shard} {page : Nat} (h_ : Keeps r0_ s) : Keeps r0_ (State.reserveAfter s h page) := by
  unfold State.reserveAfter
  with_reducible repeat' first
    | assumption | apply Keeps.ite | apply Keeps.foldl | apply Keeps.getD | apply State.setRes_keeps
    | apply State.reserve_keeps
    | ((fail_if_no_progress extract_lets +onlyGivenNames x); first | ((first | refine Keeps.cut (t := x) ?_ ?_ | refine Keeps.cutO (o := x) ?_ ?_ | refine Keeps.cutP (o := x) ?_ ?_ | refine Keeps.cut1 (o := x) ?_ ?_ | refine Keeps.cut2 (o := x) ?_ ?_); rotate_left; (clear_value x; intro hx); rotate_left; (try subst x)) | (have _h := Keeps.memv x; clear _h) | (have _h := Keeps.bytesv x; clear _h) | (have _h := Keeps.fn x; clear _h; dsimp only [x]; clear x) | (have _h := Keeps.fn2 x; clear _h; dsimp only [x]; clear x) | clear_value x)
    | (fail_if_no_progress refine Keeps.upd ?_ ⟨rfl, rfl, rfl, rfl, rfl⟩)
    | (fail_if_no_progress ((apply Keeps.of_mk; (focus exact rfl); (focus exact rfl)); (with_unfolding_all focus first | (exact fun w => w) | exact SMap.wf_set _ _ | exact SMap.wf_filter _); (with_unfolding_all focus first | (exact fun w => w) | exact SMap.wf_putBytes _ _ | exact SMap.wf_clearRange _ _ | exact SMap.wf_filter _ | (exact fun w => SMap.wf_foldl_set _ _ _ (SMap.wf_clearRange _ _ w)) | (exact fun _ => SMap.wf_nil' _)); (focus first | exact Nat.le_refl _ | exact Nat.le_succ _ | exact Nat.le_add_right _ _)))
    | apply Keeps.foldl1 | apply Keeps.foldl2 | apply Keeps.ite1 | apply Keeps.ite2
    | refine KeepsP.some_keeps (by assumption) _ _ (by assumption)
    | refine KeepsO.oSome (by assumption) (by assumption) | refine KeepsO.oSome (by assumption) rfl
    | refine KeepsP.some_keeps (by assumption) _ _ rfl | apply KeepsP.map | refine Keeps1.keeps (by assumption)
    | refine Keeps2.keeps (by assumption) | exact KeepsO.none _ | apply KeepsO.some | apply KeepsO.ite
    | apply KeepsO.foldl | exact KeepsP.none _ | apply KeepsP.some | apply KeepsP.ite | apply Keeps1.mk'
    | apply Keeps1.ite | apply Keeps1.foldl | apply Keeps2.mk' | apply Keeps2.ite | apply Keeps2.foldl | intro _ _ _
    | intro _ _ | intro _ | split | (fail_if_no_progress dsimp only) | refine KeepsO.oSome ?_ (by assumption)
    | refine KeepsP.some_keeps ?_ _ _ (by assumption) | refine Keeps1.eq ?_ (by assumption)
    | refine Keeps2.eq ?_ (by assumption)

theorem State.takeNext_keeps {r0_ s : State} {h : Shard} {page : Nat} (h_ : Keeps r0_ s) : Keeps r0_ (State.takeNext s h page) := by
  unfold State.takeNext
  with_reducible repeat' first
    | assumption | apply Keeps.ite | apply Keeps.foldl | apply Keeps.getD | apply State.setShard_keeps
    | apply State.reserveAfter_keeps
    | ((fail_if_no_progress extract_lets +onlyGivenNames x); first | ((first | refine Keeps.cut (t := x) ?_ ?_ | refine Keeps.cutO (o := x) ?_ ?_ | refine Keeps.cutP (o := x) ?_ ?_ | refine Keeps.cut1 (o := x) ?_ ?_ | refine Keeps.cut2 (o := x) ?_ ?_); rotate_left; (clear_value x; intro hx); rotate_left; (try subst x)) | (have _h := Keeps.memv x; clear _h) | (have _h := Keeps.bytesv x; clear _h) | (have _h := Keeps.fn x; clear _h; dsimp only [x]; clear x) | (have _h := Keeps.fn2 x; clear _h; dsimp only [x]; clear x) | clear_value x)
    | (fail_if_no_progress refine Keeps.upd ?_ ⟨rfl, rfl, rfl, rfl, rfl⟩)
    | (fail_if_no_progress ((apply Keeps.of_mk; (focus exact rfl); (focus exact rfl)); (with_unfolding_all focus first | (exact fun w => w) | exact SMap.wf_set _ _ | exact SMap.wf_filter _); (with_unfolding_all focus first | (exact fun w => w) | exact SMap.wf_putBytes _ _ | exact SMap.wf_clearRange _ _ | exact SMap.wf_filter _ | (exact fun w => SMap.wf_foldl_set _ _ _ (SMap.wf_clearRange _ _ w)) | (exact fun _ => SMap.wf_nil' _)); (focus first | exact Nat.le_refl _ | exact Nat.le_succ _ | exact Nat.le_add_right _ _)))
    | apply Keeps.foldl1 | apply Keeps.foldl2 | apply Keeps.ite1 | apply Keeps.ite2
    | refine KeepsP.some_keeps (by assumption) _ _ (by assumption)
    | refine KeepsO.oSome (by assumption) (by assumption) | refine KeepsO.oSome (by assumption) rfl
    | refine KeepsP.some_keeps (by assumption) _ _ rfl | apply KeepsP.map | refine Keeps1.keeps (by assumption)
    | refine Keeps2.keeps (by assumption) | exact KeepsO.none _ | apply KeepsO.some | apply KeepsO.ite
    | apply KeepsO.foldl | exact KeepsP.none _ | apply KeepsP.some | apply KeepsP.ite | apply Keeps1.mk'
    | apply Keeps1.ite | apply Keeps1.foldl | apply Keeps2.mk' | apply Keeps2.ite | apply Keeps2.foldl | intro _ _ _
    | intro _ _ | intro _ | split | (fail_if_no_progress dsimp only) | refine KeepsO.oSome ?_ (by assumption)
    | refine KeepsP.some_keeps ?_ _ _ (by assumption) | refine Keeps1.eq ?_ (by assumption)
    | refine Keeps2.eq ?_ (by assumption)

theorem State.openPage_keeps {r0_ s : State} {h : Shard} {page : Nat} {ks vs : List (List Byte)} (h_ : Keeps r0_ s) : Keeps r0_ (State.openPage s h page ks vs) := by
  unfold State.openPage
  with_reducible repeat' first
    | assumption | apply Keeps.getD | apply State.chosen_keeps | apply State.reuse_keeps | apply State.wr_keeps
    | apply State.setPte_keeps | apply State.setShard_keeps | apply State.needKey_keepsO
    | apply State.abortMoves_keeps | apply State.dropPending_keeps | apply State.releasePage_keeps
    | apply State.takeNext_keeps
    | (fail_if_no_progress ((apply Keeps.of_mk; (focus exact rfl); (focus exact rfl)); (with_unfolding_all focus first | (exact fun w => w) | exact SMap.wf_set _ _ | exact SMap.wf_filter _); (with_unfolding_all focus first | (exact fun w => w) | exact SMap.wf_putBytes _ _ | exact SMap.wf_clearRange _ _ | exact SMap.wf_filter _ | (exact fun w => SMap.wf_foldl_set _ _ _ (SMap.wf_clearRange _ _ w)) | (exact fun _ => SMap.wf_nil' _)); (focus first | exact Nat.le_refl _ | exact Nat.le_succ _ | exact Nat.le_add_right _ _)))
    | split

theorem State.copyOnWrite_keeps {r0_ s : State} {h : Shard} {page : Nat} (h_ : Keeps r0_ s) : Keeps r0_ (State.copyOnWrite s h page) := by
  unfold State.copyOnWrite
  with_reducible repeat' first
    | assumption | apply Keeps.ite | apply Keeps.foldl | apply Keeps.getD | apply State.inc_keeps
    | apply State.reuse_keeps | apply State.wr_keeps | apply State.setPte_keeps | apply State.setShard_keeps
    | apply State.needKey_keepsO | refine (State.needKey_keepsO ?_).some_keeps _ (by assumption)
    | apply State.unref_keeps | apply State.copyPage_keeps | apply State.reserveAfter_keeps
    | ((fail_if_no_progress extract_lets +onlyGivenNames x); first | ((first | refine Keeps.cut (t := x) ?_ ?_ | refine Keeps.cutO (o := x) ?_ ?_ | refine Keeps.cutP (o := x) ?_ ?_ | refine Keeps.cut1 (o := x) ?_ ?_ | refine Keeps.cut2 (o := x) ?_ ?_); rotate_left; (clear_value x; intro hx); rotate_left; (try subst x)) | (have _h := Keeps.memv x; clear _h) | (have _h := Keeps.bytesv x; clear _h) | (have _h := Keeps.fn x; clear _h; dsimp only [x]; clear x) | (have _h := Keeps.fn2 x; clear _h; dsimp only [x]; clear x) | clear_value x)
    | (fail_if_no_progress refine Keeps.upd ?_ ⟨rfl, rfl, rfl, rfl, rfl⟩)
    | (fail_if_no_progress ((apply Keeps.of_mk; (focus exact rfl); (focus exact rfl)); (with_unfolding_all focus first | (exact fun w => w) | exact SMap.wf_set _ _ | exact SMap.wf_filter _); (with_unfolding_all focus first | (exact fun w => w) | exact SMap.wf_putBytes _ _ | exact SMap.wf_clearRange _ _ | exact SMap.wf_filter _ | (exact fun w => SMap.wf_foldl_set _ _ _ (SMap.wf_clearRange _ _ w)) | (exact fun _ => SMap.wf_nil' _)); (focus first | exact Nat.le_refl _ | exact Nat.le_succ _ | exact Nat.le_add_right _ _)))
    | apply Keeps.foldl1 | apply Keeps.foldl2 | apply Keeps.ite1 | apply Keeps.ite2
    | refine KeepsP.some_keeps (by assumption) _ _ (by assumption)
    | refine KeepsO.oSome (by assumption) (by assumption) | refine KeepsO.oSome (by assumption) rfl
    | refine KeepsP.some_keeps (by assumption) _ _ rfl | apply KeepsP.map | refine Keeps1.keeps (by assumption)
    | refine Keeps2.keeps (by assumption) | exact KeepsO.none _ | apply KeepsO.some | apply KeepsO.ite
    | apply KeepsO.foldl | exact KeepsP.none _ | apply KeepsP.some | apply KeepsP.ite | apply Keeps1.mk'
    | apply Keeps1.ite | apply Keeps1.foldl | apply Keeps2.mk' | apply Keeps2.ite | apply Keeps2.foldl | intro _ _ _
    | intro _ _ | intro _ | split | (fail_if_no_progress dsimp only) | refine KeepsO.oSome ?_ (by assumption)
    | refine KeepsP.some_keeps ?_ _ _ (by assumption) | refine Keeps1.eq ?_ (by assumption)
    | refine Keeps2.eq ?_ (by assumption)

theorem State.mirrorOut_keeps {r0_ s : State} {h : Shard} {page from_ n : Nat} {opened : Bool} (h_ : Keeps r0_ s) : Keeps r0_ (State.mirrorOut s h page from_ n opened) := by
  unfold State.mirrorOut
  with_reducible repeat' first
    | assumption | apply State.emit_keeps | split

theorem State.appendRows_keeps {r0_ s : State} {pt page from_ : Nat} {ks vs : List (List Byte)} (h_ : Keeps r0_ s) : Keeps r0_ (State.appendRows s pt page from_ ks vs) := by
  unfold State.appendRows
  with_reducible repeat' first
    | assumption | apply Keeps.foldl | apply State.setPte_keeps | apply State.setShard_keeps
    | apply State.abortMoves_keeps | apply State.protectShard_keeps | apply State.writeRow_keeps
    | apply State.openPage_keeps | apply State.copyOnWrite_keeps | apply State.mirrorOut_keeps | intro _ _ _ | split

theorem State.appendPage_keeps {r0_ s : State} {pt : Nat} {x : ScatDesc} {page : Nat} (h_ : Keeps r0_ s) : Keeps r0_ (State.appendPage s pt x page) := by
  unfold State.appendPage
  with_reducible repeat' first
    | assumption | apply Keeps.ite | apply Keeps.foldl | apply Keeps.getD | apply State.setShard_keeps
    | apply State.readRanges_keeps | apply State.appendRows_keeps
    | ((fail_if_no_progress extract_lets +onlyGivenNames x); first | ((first | refine Keeps.cut (t := x) ?_ ?_ | refine Keeps.cutO (o := x) ?_ ?_ | refine Keeps.cutP (o := x) ?_ ?_ | refine Keeps.cut1 (o := x) ?_ ?_ | refine Keeps.cut2 (o := x) ?_ ?_); rotate_left; (clear_value x; intro hx); rotate_left; (try subst x)) | (have _h := Keeps.memv x; clear _h) | (have _h := Keeps.bytesv x; clear _h) | (have _h := Keeps.fn x; clear _h; dsimp only [x]; clear x) | (have _h := Keeps.fn2 x; clear _h; dsimp only [x]; clear x) | clear_value x)
    | (fail_if_no_progress refine Keeps.upd ?_ ⟨rfl, rfl, rfl, rfl, rfl⟩)
    | (fail_if_no_progress ((apply Keeps.of_mk; (focus exact rfl); (focus exact rfl)); (with_unfolding_all focus first | (exact fun w => w) | exact SMap.wf_set _ _ | exact SMap.wf_filter _); (with_unfolding_all focus first | (exact fun w => w) | exact SMap.wf_putBytes _ _ | exact SMap.wf_clearRange _ _ | exact SMap.wf_filter _ | (exact fun w => SMap.wf_foldl_set _ _ _ (SMap.wf_clearRange _ _ w)) | (exact fun _ => SMap.wf_nil' _)); (focus first | exact Nat.le_refl _ | exact Nat.le_succ _ | exact Nat.le_add_right _ _)))
    | apply Keeps.foldl1 | apply Keeps.foldl2 | apply Keeps.ite1 | apply Keeps.ite2
    | refine KeepsP.some_keeps (by assumption) _ _ (by assumption)
    | refine KeepsO.oSome (by assumption) (by assumption) | refine KeepsO.oSome (by assumption) rfl
    | refine KeepsP.some_keeps (by assumption) _ _ rfl | apply KeepsP.map | refine Keeps1.keeps (by assumption)
    | refine Keeps2.keeps (by assumption) | exact KeepsO.none _ | apply KeepsO.some | apply KeepsO.ite
    | apply KeepsO.foldl | exact KeepsP.none _ | apply KeepsP.some | apply KeepsP.ite | apply Keeps1.mk'
    | apply Keeps1.ite | apply Keeps1.foldl | apply Keeps2.mk' | apply Keeps2.ite | apply Keeps2.foldl | intro _ _ _
    | intro _ _ | intro _ | split | (fail_if_no_progress dsimp only) | refine KeepsO.oSome ?_ (by assumption)
    | refine KeepsP.some_keeps ?_ _ _ (by assumption) | refine Keeps1.eq ?_ (by assumption)
    | refine Keeps2.eq ?_ (by assumption)

theorem State.rebucket_keeps {r0_ s : State} {p : Nat} {tag : BitVec 64} (h_ : Keeps r0_ s) : Keeps r0_ (State.rebucket s p tag) := by
  unfold State.rebucket
  with_reducible repeat' first
    | assumption | apply State.setReq_keeps | split

theorem State.sctFault_keeps {r0_ s : State} {engine : Nat} {tag : BitVec 64} {st : Nat} (h_ : Keeps r0_ s) : Keeps r0_ (State.sctFault s engine tag st) := by
  unfold State.sctFault
  with_reducible repeat' first
    | assumption | apply Keeps.ite | apply Keeps.foldl | apply Keeps.getD | apply State.latch_keeps
    | ((fail_if_no_progress extract_lets +onlyGivenNames x); first | ((first | refine Keeps.cut (t := x) ?_ ?_ | refine Keeps.cutO (o := x) ?_ ?_ | refine Keeps.cutP (o := x) ?_ ?_ | refine Keeps.cut1 (o := x) ?_ ?_ | refine Keeps.cut2 (o := x) ?_ ?_); rotate_left; (clear_value x; intro hx); rotate_left; (try subst x)) | (have _h := Keeps.memv x; clear _h) | (have _h := Keeps.bytesv x; clear _h) | (have _h := Keeps.fn x; clear _h; dsimp only [x]; clear x) | (have _h := Keeps.fn2 x; clear _h; dsimp only [x]; clear x) | clear_value x)
    | (fail_if_no_progress refine Keeps.upd ?_ ⟨rfl, rfl, rfl, rfl, rfl⟩)
    | (fail_if_no_progress ((apply Keeps.of_mk; (focus exact rfl); (focus exact rfl)); (with_unfolding_all focus first | (exact fun w => w) | exact SMap.wf_set _ _ | exact SMap.wf_filter _); (with_unfolding_all focus first | (exact fun w => w) | exact SMap.wf_putBytes _ _ | exact SMap.wf_clearRange _ _ | exact SMap.wf_filter _ | (exact fun w => SMap.wf_foldl_set _ _ _ (SMap.wf_clearRange _ _ w)) | (exact fun _ => SMap.wf_nil' _)); (focus first | exact Nat.le_refl _ | exact Nat.le_succ _ | exact Nat.le_add_right _ _)))
    | apply Keeps.foldl1 | apply Keeps.foldl2 | apply Keeps.ite1 | apply Keeps.ite2
    | refine KeepsP.some_keeps (by assumption) _ _ (by assumption)
    | refine KeepsO.oSome (by assumption) (by assumption) | refine KeepsO.oSome (by assumption) rfl
    | refine KeepsP.some_keeps (by assumption) _ _ rfl | apply KeepsP.map | refine Keeps1.keeps (by assumption)
    | refine Keeps2.keeps (by assumption) | exact KeepsO.none _ | apply KeepsO.some | apply KeepsO.ite
    | apply KeepsO.foldl | exact KeepsP.none _ | apply KeepsP.some | apply KeepsP.ite | apply Keeps1.mk'
    | apply Keeps1.ite | apply Keeps1.foldl | apply Keeps2.mk' | apply Keeps2.ite | apply Keeps2.foldl | intro _ _ _
    | intro _ _ | intro _ | split | (fail_if_no_progress dsimp only) | refine KeepsO.oSome ?_ (by assumption)
    | refine KeepsP.some_keeps ?_ _ _ (by assumption) | refine Keeps1.eq ?_ (by assumption)
    | refine Keeps2.eq ?_ (by assumption)

theorem State.failIssuer_keeps {r0_ s : State} {c : Scatter} {tag : BitVec 64} {st dt : Nat} (h_ : Keeps r0_ s) : Keeps r0_ (State.failIssuer s c tag st dt) := by
  unfold State.failIssuer
  with_reducible repeat' first
    | assumption | apply Keeps.ite | apply Keeps.foldl | apply Keeps.getD | apply State.fail_keeps
    | apply State.failTag_keeps
    | ((fail_if_no_progress extract_lets +onlyGivenNames x); first | ((first | refine Keeps.cut (t := x) ?_ ?_ | refine Keeps.cutO (o := x) ?_ ?_ | refine Keeps.cutP (o := x) ?_ ?_ | refine Keeps.cut1 (o := x) ?_ ?_ | refine Keeps.cut2 (o := x) ?_ ?_); rotate_left; (clear_value x; intro hx); rotate_left; (try subst x)) | (have _h := Keeps.memv x; clear _h) | (have _h := Keeps.bytesv x; clear _h) | (have _h := Keeps.fn x; clear _h; dsimp only [x]; clear x) | (have _h := Keeps.fn2 x; clear _h; dsimp only [x]; clear x) | clear_value x)
    | (fail_if_no_progress refine Keeps.upd ?_ ⟨rfl, rfl, rfl, rfl, rfl⟩)
    | (fail_if_no_progress ((apply Keeps.of_mk; (focus exact rfl); (focus exact rfl)); (with_unfolding_all focus first | (exact fun w => w) | exact SMap.wf_set _ _ | exact SMap.wf_filter _); (with_unfolding_all focus first | (exact fun w => w) | exact SMap.wf_putBytes _ _ | exact SMap.wf_clearRange _ _ | exact SMap.wf_filter _ | (exact fun w => SMap.wf_foldl_set _ _ _ (SMap.wf_clearRange _ _ w)) | (exact fun _ => SMap.wf_nil' _)); (focus first | exact Nat.le_refl _ | exact Nat.le_succ _ | exact Nat.le_add_right _ _)))
    | apply Keeps.foldl1 | apply Keeps.foldl2 | apply Keeps.ite1 | apply Keeps.ite2
    | refine KeepsP.some_keeps (by assumption) _ _ (by assumption)
    | refine KeepsO.oSome (by assumption) (by assumption) | refine KeepsO.oSome (by assumption) rfl
    | refine KeepsP.some_keeps (by assumption) _ _ rfl | apply KeepsP.map | refine Keeps1.keeps (by assumption)
    | refine Keeps2.keeps (by assumption) | exact KeepsO.none _ | apply KeepsO.some | apply KeepsO.ite
    | apply KeepsO.foldl | exact KeepsP.none _ | apply KeepsP.some | apply KeepsP.ite | apply Keeps1.mk'
    | apply Keeps1.ite | apply Keeps1.foldl | apply Keeps2.mk' | apply Keeps2.ite | apply Keeps2.foldl | intro _ _ _
    | intro _ _ | intro _ | split | (fail_if_no_progress dsimp only) | refine KeepsO.oSome ?_ (by assumption)
    | refine KeepsP.some_keeps ?_ _ _ (by assumption) | refine Keeps1.eq ?_ (by assumption)
    | refine Keeps2.eq ?_ (by assumption)

theorem State.scatterEnd_keeps {r0_ s : State} {c : Scatter} {x : ScatDesc} {st opened : Nat} (h_ : Keeps r0_ s) : Keeps r0_ (State.scatterEnd s c x st opened) := by
  unfold State.scatterEnd
  with_reducible repeat' first
    | assumption | apply Keeps.ite | apply Keeps.foldl | apply Keeps.getD | apply State.inc_keeps
    | apply State.addCnt_keeps | apply State.wr_keeps | apply State.sctFault_keeps | apply State.failIssuer_keeps
    | ((fail_if_no_progress extract_lets +onlyGivenNames x); first | ((first | refine Keeps.cut (t := x) ?_ ?_ | refine Keeps.cutO (o := x) ?_ ?_ | refine Keeps.cutP (o := x) ?_ ?_ | refine Keeps.cut1 (o := x) ?_ ?_ | refine Keeps.cut2 (o := x) ?_ ?_); rotate_left; (clear_value x; intro hx); rotate_left; (try subst x)) | (have _h := Keeps.memv x; clear _h) | (have _h := Keeps.bytesv x; clear _h) | (have _h := Keeps.fn x; clear _h; dsimp only [x]; clear x) | (have _h := Keeps.fn2 x; clear _h; dsimp only [x]; clear x) | clear_value x)
    | (fail_if_no_progress refine Keeps.upd ?_ ⟨rfl, rfl, rfl, rfl, rfl⟩)
    | (fail_if_no_progress ((apply Keeps.of_mk; (focus exact rfl); (focus exact rfl)); (with_unfolding_all focus first | (exact fun w => w) | exact SMap.wf_set _ _ | exact SMap.wf_filter _); (with_unfolding_all focus first | (exact fun w => w) | exact SMap.wf_putBytes _ _ | exact SMap.wf_clearRange _ _ | exact SMap.wf_filter _ | (exact fun w => SMap.wf_foldl_set _ _ _ (SMap.wf_clearRange _ _ w)) | (exact fun _ => SMap.wf_nil' _)); (focus first | exact Nat.le_refl _ | exact Nat.le_succ _ | exact Nat.le_add_right _ _)))
    | apply Keeps.foldl1 | apply Keeps.foldl2 | apply Keeps.ite1 | apply Keeps.ite2
    | refine KeepsP.some_keeps (by assumption) _ _ (by assumption)
    | refine KeepsO.oSome (by assumption) (by assumption) | refine KeepsO.oSome (by assumption) rfl
    | refine KeepsP.some_keeps (by assumption) _ _ rfl | apply KeepsP.map | refine Keeps1.keeps (by assumption)
    | refine Keeps2.keeps (by assumption) | exact KeepsO.none _ | apply KeepsO.some | apply KeepsO.ite
    | apply KeepsO.foldl | exact KeepsP.none _ | apply KeepsP.some | apply KeepsP.ite | apply Keeps1.mk'
    | apply Keeps1.ite | apply Keeps1.foldl | apply Keeps2.mk' | apply Keeps2.ite | apply Keeps2.foldl | intro _ _ _
    | intro _ _ | intro _ | split | (fail_if_no_progress dsimp only) | refine KeepsO.oSome ?_ (by assumption)
    | refine KeepsP.some_keeps ?_ _ _ (by assumption) | refine Keeps1.eq ?_ (by assumption)
    | refine Keeps2.eq ?_ (by assumption)

theorem State.appendBad_keepsO {r0_ s : State} {h : Shard} {x : ScatDesc} {page : Nat} {ue : Option Nat} (h_ : Keeps r0_ s) : KeepsO r0_ (State.appendBad s h x page ue) := by
  unfold State.appendBad
  with_reducible repeat' first
    | assumption | exact KeepsO.none _ | apply KeepsO.some | apply KeepsO.ite | apply KeepsO.foldl | apply Keeps.ite
    | apply Keeps.foldl | apply Keeps.getD | apply State.lineUe_keeps | apply State.ptUe_keeps
    | apply State.entryBad_keepsO | refine (State.entryBad_keepsO ?_).some_keeps _ (by assumption)
    | ((fail_if_no_progress extract_lets +onlyGivenNames x); first | ((first | refine Keeps.cut (t := x) ?_ ?_ | refine KeepsO.cut (t := x) ?_ ?_ | refine Keeps.cutO (o := x) ?_ ?_ | refine Keeps.cutP (o := x) ?_ ?_ | refine Keeps.cut1 (o := x) ?_ ?_ | refine Keeps.cut2 (o := x) ?_ ?_); rotate_left; (clear_value x; intro hx); rotate_left; (try subst x)) | (have _h := Keeps.memv x; clear _h) | (have _h := Keeps.bytesv x; clear _h) | (have _h := Keeps.fn x; clear _h; dsimp only [x]; clear x) | (have _h := Keeps.fn2 x; clear _h; dsimp only [x]; clear x) | clear_value x)
    | (fail_if_no_progress refine Keeps.upd ?_ ⟨rfl, rfl, rfl, rfl, rfl⟩)
    | (fail_if_no_progress ((apply Keeps.of_mk; (focus exact rfl); (focus exact rfl)); (with_unfolding_all focus first | (exact fun w => w) | exact SMap.wf_set _ _ | exact SMap.wf_filter _); (with_unfolding_all focus first | (exact fun w => w) | exact SMap.wf_putBytes _ _ | exact SMap.wf_clearRange _ _ | exact SMap.wf_filter _ | (exact fun w => SMap.wf_foldl_set _ _ _ (SMap.wf_clearRange _ _ w)) | (exact fun _ => SMap.wf_nil' _)); (focus first | exact Nat.le_refl _ | exact Nat.le_succ _ | exact Nat.le_add_right _ _)))
    | apply Keeps.foldl1 | apply Keeps.foldl2 | apply Keeps.ite1 | apply Keeps.ite2
    | refine KeepsP.some_keeps (by assumption) _ _ (by assumption)
    | refine KeepsO.oSome (by assumption) (by assumption) | refine KeepsO.oSome (by assumption) rfl
    | refine KeepsP.some_keeps (by assumption) _ _ rfl | apply KeepsP.map | refine Keeps1.keeps (by assumption)
    | refine Keeps2.keeps (by assumption) | exact KeepsP.none _ | apply KeepsP.some | apply KeepsP.ite
    | apply Keeps1.mk' | apply Keeps1.ite | apply Keeps1.foldl | apply Keeps2.mk' | apply Keeps2.ite
    | apply Keeps2.foldl | intro _ _ _ | intro _ _ | intro _ | split | (fail_if_no_progress dsimp only)
    | refine KeepsO.oSome ?_ (by assumption) | refine KeepsP.some_keeps ?_ _ _ (by assumption)
    | refine Keeps1.eq ?_ (by assumption) | refine Keeps2.eq ?_ (by assumption)

theorem State.appendRun_keeps {r0_ s : State} {c : Scatter} {x : ScatDesc} {ue : Option Nat} {n : Nat} {n_ : List Nat} (h_ : Keeps r0_ s) : Keeps r0_ (State.appendRun s c x ue n n_) := by
  induction n_ generalizing s c x ue n with
  | nil =>
    unfold State.appendRun
    with_reducible repeat' first
      | assumption | apply Keeps.ite | apply Keeps.foldl | apply Keeps.getD | apply State.appendPage_keeps
      | apply State.scatterEnd_keeps | apply State.appendBad_keepsO
      | refine (State.appendBad_keepsO ?_).some_keeps _ (by assumption) | apply ih
      | ((fail_if_no_progress extract_lets +onlyGivenNames x); first | ((first | refine Keeps.cut (t := x) ?_ ?_ | refine Keeps.cutO (o := x) ?_ ?_ | refine Keeps.cutP (o := x) ?_ ?_ | refine Keeps.cut1 (o := x) ?_ ?_ | refine Keeps.cut2 (o := x) ?_ ?_); rotate_left; (clear_value x; intro hx); rotate_left; (try subst x)) | (have _h := Keeps.memv x; clear _h) | (have _h := Keeps.bytesv x; clear _h) | (have _h := Keeps.fn x; clear _h; dsimp only [x]; clear x) | (have _h := Keeps.fn2 x; clear _h; dsimp only [x]; clear x) | clear_value x)
      | (fail_if_no_progress refine Keeps.upd ?_ ⟨rfl, rfl, rfl, rfl, rfl⟩)
      | (fail_if_no_progress ((apply Keeps.of_mk; (focus exact rfl); (focus exact rfl)); (with_unfolding_all focus first | (exact fun w => w) | exact SMap.wf_set _ _ | exact SMap.wf_filter _); (with_unfolding_all focus first | (exact fun w => w) | exact SMap.wf_putBytes _ _ | exact SMap.wf_clearRange _ _ | exact SMap.wf_filter _ | (exact fun w => SMap.wf_foldl_set _ _ _ (SMap.wf_clearRange _ _ w)) | (exact fun _ => SMap.wf_nil' _)); (focus first | exact Nat.le_refl _ | exact Nat.le_succ _ | exact Nat.le_add_right _ _)))
      | apply Keeps.foldl1 | apply Keeps.foldl2 | apply Keeps.ite1 | apply Keeps.ite2
      | refine KeepsP.some_keeps (by assumption) _ _ (by assumption)
      | refine KeepsO.oSome (by assumption) (by assumption) | refine KeepsO.oSome (by assumption) rfl
      | refine KeepsP.some_keeps (by assumption) _ _ rfl | apply KeepsP.map | refine Keeps1.keeps (by assumption)
      | refine Keeps2.keeps (by assumption) | exact KeepsO.none _ | apply KeepsO.some | apply KeepsO.ite
      | apply KeepsO.foldl | exact KeepsP.none _ | apply KeepsP.some | apply KeepsP.ite | apply Keeps1.mk'
      | apply Keeps1.ite | apply Keeps1.foldl | apply Keeps2.mk' | apply Keeps2.ite | apply Keeps2.foldl
      | intro _ _ _ | intro _ _ | intro _ | split | (fail_if_no_progress dsimp only)
      | refine KeepsO.oSome ?_ (by assumption) | refine KeepsP.some_keeps ?_ _ _ (by assumption)
      | refine Keeps1.eq ?_ (by assumption) | refine Keeps2.eq ?_ (by assumption)
  | cons hd n ih =>
    unfold State.appendRun
    with_reducible repeat' first
      | assumption | apply Keeps.ite | apply Keeps.foldl | apply Keeps.getD | apply State.appendPage_keeps
      | apply State.scatterEnd_keeps | apply State.appendBad_keepsO
      | refine (State.appendBad_keepsO ?_).some_keeps _ (by assumption) | apply ih
      | ((fail_if_no_progress extract_lets +onlyGivenNames x); first | ((first | refine Keeps.cut (t := x) ?_ ?_ | refine Keeps.cutO (o := x) ?_ ?_ | refine Keeps.cutP (o := x) ?_ ?_ | refine Keeps.cut1 (o := x) ?_ ?_ | refine Keeps.cut2 (o := x) ?_ ?_); rotate_left; (clear_value x; intro hx); rotate_left; (try subst x)) | (have _h := Keeps.memv x; clear _h) | (have _h := Keeps.bytesv x; clear _h) | (have _h := Keeps.fn x; clear _h; dsimp only [x]; clear x) | (have _h := Keeps.fn2 x; clear _h; dsimp only [x]; clear x) | clear_value x)
      | (fail_if_no_progress refine Keeps.upd ?_ ⟨rfl, rfl, rfl, rfl, rfl⟩)
      | (fail_if_no_progress ((apply Keeps.of_mk; (focus exact rfl); (focus exact rfl)); (with_unfolding_all focus first | (exact fun w => w) | exact SMap.wf_set _ _ | exact SMap.wf_filter _); (with_unfolding_all focus first | (exact fun w => w) | exact SMap.wf_putBytes _ _ | exact SMap.wf_clearRange _ _ | exact SMap.wf_filter _ | (exact fun w => SMap.wf_foldl_set _ _ _ (SMap.wf_clearRange _ _ w)) | (exact fun _ => SMap.wf_nil' _)); (focus first | exact Nat.le_refl _ | exact Nat.le_succ _ | exact Nat.le_add_right _ _)))
      | apply Keeps.foldl1 | apply Keeps.foldl2 | apply Keeps.ite1 | apply Keeps.ite2
      | refine KeepsP.some_keeps (by assumption) _ _ (by assumption)
      | refine KeepsO.oSome (by assumption) (by assumption) | refine KeepsO.oSome (by assumption) rfl
      | refine KeepsP.some_keeps (by assumption) _ _ rfl | apply KeepsP.map | refine Keeps1.keeps (by assumption)
      | refine Keeps2.keeps (by assumption) | exact KeepsO.none _ | apply KeepsO.some | apply KeepsO.ite
      | apply KeepsO.foldl | exact KeepsP.none _ | apply KeepsP.some | apply KeepsP.ite | apply Keeps1.mk'
      | apply Keeps1.ite | apply Keeps1.foldl | apply Keeps2.mk' | apply Keeps2.ite | apply Keeps2.foldl
      | intro _ _ _ | intro _ _ | intro _ | split | (fail_if_no_progress dsimp only)
      | refine KeepsO.oSome ?_ (by assumption) | refine KeepsP.some_keeps ?_ _ _ (by assumption)
      | refine Keeps1.eq ?_ (by assumption) | refine Keeps2.eq ?_ (by assumption)

theorem State.askScatter_keeps {r0_ s : State} {c : Scatter} (h_ : Keeps r0_ s) : Keeps r0_ (State.askScatter s c) := by
  unfold State.askScatter
  with_reducible repeat' first
    | assumption | apply Keeps.ite | apply Keeps.foldl | apply Keeps.getD | apply State.inc_keeps
    | ((fail_if_no_progress extract_lets +onlyGivenNames x); first | ((first | refine Keeps.cut (t := x) ?_ ?_ | refine Keeps.cutO (o := x) ?_ ?_ | refine Keeps.cutP (o := x) ?_ ?_ | refine Keeps.cut1 (o := x) ?_ ?_ | refine Keeps.cut2 (o := x) ?_ ?_); rotate_left; (clear_value x; intro hx); rotate_left; (try subst x)) | (have _h := Keeps.memv x; clear _h) | (have _h := Keeps.bytesv x; clear _h) | (have _h := Keeps.fn x; clear _h; dsimp only [x]; clear x) | (have _h := Keeps.fn2 x; clear _h; dsimp only [x]; clear x) | clear_value x)
    | (fail_if_no_progress refine Keeps.upd ?_ ⟨rfl, rfl, rfl, rfl, rfl⟩)
    | (fail_if_no_progress ((apply Keeps.of_mk; (focus exact rfl); (focus exact rfl)); (with_unfolding_all focus first | (exact fun w => w) | exact SMap.wf_set _ _ | exact SMap.wf_filter _); (with_unfolding_all focus first | (exact fun w => w) | exact SMap.wf_putBytes _ _ | exact SMap.wf_clearRange _ _ | exact SMap.wf_filter _ | (exact fun w => SMap.wf_foldl_set _ _ _ (SMap.wf_clearRange _ _ w)) | (exact fun _ => SMap.wf_nil' _)); (focus first | exact Nat.le_refl _ | exact Nat.le_succ _ | exact Nat.le_add_right _ _)))
    | apply Keeps.foldl1 | apply Keeps.foldl2 | apply Keeps.ite1 | apply Keeps.ite2
    | refine KeepsP.some_keeps (by assumption) _ _ (by assumption)
    | refine KeepsO.oSome (by assumption) (by assumption) | refine KeepsO.oSome (by assumption) rfl
    | refine KeepsP.some_keeps (by assumption) _ _ rfl | apply KeepsP.map | refine Keeps1.keeps (by assumption)
    | refine Keeps2.keeps (by assumption) | exact KeepsO.none _ | apply KeepsO.some | apply KeepsO.ite
    | apply KeepsO.foldl | exact KeepsP.none _ | apply KeepsP.some | apply KeepsP.ite | apply Keeps1.mk'
    | apply Keeps1.ite | apply Keeps1.foldl | apply Keeps2.mk' | apply Keeps2.ite | apply Keeps2.foldl | intro _ _ _
    | intro _ _ | intro _ | split | (fail_if_no_progress dsimp only) | refine KeepsO.oSome ?_ (by assumption)
    | refine KeepsP.some_keeps ?_ _ _ (by assumption) | refine Keeps1.eq ?_ (by assumption)
    | refine Keeps2.eq ?_ (by assumption)

theorem State.append_keeps {r0_ s : State} {c : Scatter} {ue : Option Nat} (h_ : Keeps r0_ s) : Keeps r0_ (State.append s c ue) := by
  unfold State.append
  with_reducible repeat' first
    | assumption | apply Keeps.ite | apply Keeps.foldl | apply Keeps.getD | apply State.kvpUpdate_keeps
    | apply State.useFor_keeps | apply State.waitShard_keeps | apply State.rebucket_keeps
    | apply State.failIssuer_keeps | apply State.scatterEnd_keeps | apply State.appendRun_keeps
    | apply State.askScatter_keeps
    | ((fail_if_no_progress extract_lets +onlyGivenNames x); first | ((first | refine Keeps.cut (t := x) ?_ ?_ | refine Keeps.cutO (o := x) ?_ ?_ | refine Keeps.cutP (o := x) ?_ ?_ | refine Keeps.cut1 (o := x) ?_ ?_ | refine Keeps.cut2 (o := x) ?_ ?_); rotate_left; (clear_value x; intro hx); rotate_left; (try subst x)) | (have _h := Keeps.memv x; clear _h) | (have _h := Keeps.bytesv x; clear _h) | (have _h := Keeps.fn x; clear _h; dsimp only [x]; clear x) | (have _h := Keeps.fn2 x; clear _h; dsimp only [x]; clear x) | clear_value x)
    | (fail_if_no_progress refine Keeps.upd ?_ ⟨rfl, rfl, rfl, rfl, rfl⟩)
    | (fail_if_no_progress ((apply Keeps.of_mk; (focus exact rfl); (focus exact rfl)); (with_unfolding_all focus first | (exact fun w => w) | exact SMap.wf_set _ _ | exact SMap.wf_filter _); (with_unfolding_all focus first | (exact fun w => w) | exact SMap.wf_putBytes _ _ | exact SMap.wf_clearRange _ _ | exact SMap.wf_filter _ | (exact fun w => SMap.wf_foldl_set _ _ _ (SMap.wf_clearRange _ _ w)) | (exact fun _ => SMap.wf_nil' _)); (focus first | exact Nat.le_refl _ | exact Nat.le_succ _ | exact Nat.le_add_right _ _)))
    | apply Keeps.foldl1 | apply Keeps.foldl2 | apply Keeps.ite1 | apply Keeps.ite2
    | refine KeepsP.some_keeps (by assumption) _ _ (by assumption)
    | refine KeepsO.oSome (by assumption) (by assumption) | refine KeepsO.oSome (by assumption) rfl
    | refine KeepsP.some_keeps (by assumption) _ _ rfl | apply KeepsP.map | refine Keeps1.keeps (by assumption)
    | refine Keeps2.keeps (by assumption) | exact KeepsO.none _ | apply KeepsO.some | apply KeepsO.ite
    | apply KeepsO.foldl | exact KeepsP.none _ | apply KeepsP.some | apply KeepsP.ite | apply Keeps1.mk'
    | apply Keeps1.ite | apply Keeps1.foldl | apply Keeps2.mk' | apply Keeps2.ite | apply Keeps2.foldl | intro _ _ _
    | intro _ _ | intro _ | split | (fail_if_no_progress dsimp only) | refine KeepsO.oSome ?_ (by assumption)
    | refine KeepsP.some_keeps ?_ _ _ (by assumption) | refine Keeps1.eq ?_ (by assumption)
    | refine Keeps2.eq ?_ (by assumption)

theorem execAppend_keeps {r0_ s : State} {k : BitVec 2} {d : BitVec 512} {ue : Option Nat} (h_ : Keeps r0_ s) : KeepsR r0_ (execAppend k d ue s) := by
  unfold execAppend
  with_reducible repeat' first
    | assumption | apply KeepsR.next | exact KeepsR.fault _ _ | apply KeepsR.ite | apply Keeps.ite
    | apply Keeps.foldl | apply Keeps.getD | apply State.asTake_keeps | apply State.append_keeps
    | ((fail_if_no_progress extract_lets +onlyGivenNames x); first | ((first | refine Keeps.cut (t := x) ?_ ?_ | refine KeepsR.cut (t := x) ?_ ?_ | refine Keeps.cutO (o := x) ?_ ?_ | refine Keeps.cutP (o := x) ?_ ?_ | refine Keeps.cut1 (o := x) ?_ ?_ | refine Keeps.cut2 (o := x) ?_ ?_); rotate_left; (clear_value x; intro hx); rotate_left; (try subst x)) | (have _h := Keeps.memv x; clear _h) | (have _h := Keeps.bytesv x; clear _h) | (have _h := Keeps.fn x; clear _h; dsimp only [x]; clear x) | (have _h := Keeps.fn2 x; clear _h; dsimp only [x]; clear x) | clear_value x)
    | (fail_if_no_progress refine Keeps.upd ?_ ⟨rfl, rfl, rfl, rfl, rfl⟩)
    | (fail_if_no_progress ((apply Keeps.of_mk; (focus exact rfl); (focus exact rfl)); (with_unfolding_all focus first | (exact fun w => w) | exact SMap.wf_set _ _ | exact SMap.wf_filter _); (with_unfolding_all focus first | (exact fun w => w) | exact SMap.wf_putBytes _ _ | exact SMap.wf_clearRange _ _ | exact SMap.wf_filter _ | (exact fun w => SMap.wf_foldl_set _ _ _ (SMap.wf_clearRange _ _ w)) | (exact fun _ => SMap.wf_nil' _)); (focus first | exact Nat.le_refl _ | exact Nat.le_succ _ | exact Nat.le_add_right _ _)))
    | apply Keeps.foldl1 | apply Keeps.foldl2 | apply Keeps.ite1 | apply Keeps.ite2
    | refine KeepsP.some_keeps (by assumption) _ _ (by assumption)
    | refine KeepsO.oSome (by assumption) (by assumption) | refine KeepsO.oSome (by assumption) rfl
    | refine KeepsP.some_keeps (by assumption) _ _ rfl | apply KeepsP.map | refine Keeps1.keeps (by assumption)
    | refine Keeps2.keeps (by assumption) | exact KeepsO.none _ | apply KeepsO.some | apply KeepsO.ite
    | apply KeepsO.foldl | exact KeepsP.none _ | apply KeepsP.some | apply KeepsP.ite | apply Keeps1.mk'
    | apply Keeps1.ite | apply Keeps1.foldl | apply Keeps2.mk' | apply Keeps2.ite | apply Keeps2.foldl | intro _ _ _
    | intro _ _ | intro _ | split | (fail_if_no_progress dsimp only) | refine KeepsO.oSome ?_ (by assumption)
    | refine KeepsP.some_keeps ?_ _ _ (by assumption) | refine Keeps1.eq ?_ (by assumption)
    | refine Keeps2.eq ?_ (by assumption)

theorem State.reserveHeld_keeps {r0_ s : State}  {n_ : List Shard} (h_ : Keeps r0_ s) : Keeps r0_ (State.reserveHeld s n_) := by
  induction n_ generalizing s  with
  | nil =>
    unfold State.reserveHeld
    with_reducible repeat' first
      | assumption | apply Keeps.ite | apply State.setShard_keeps | apply State.reserve_keeps | apply ih
  | cons hd n ih =>
    unfold State.reserveHeld
    with_reducible repeat' first
      | assumption | apply Keeps.ite | apply State.setShard_keeps | apply State.reserve_keeps | apply ih

theorem execHeldReserve_keeps {r0_ s : State} {pool : PoolId} (h_ : Keeps r0_ s) : KeepsR r0_ (execHeldReserve pool s) := by
  unfold execHeldReserve
  with_reducible repeat' first
    | assumption | apply KeepsR.next | exact KeepsR.fault _ _ | apply KeepsR.ite | apply Keeps.ite
    | apply Keeps.foldl | apply Keeps.getD | apply State.kvpUpdate_keeps | apply State.asTake_keeps
    | apply State.reserveHeld_keeps
    | ((fail_if_no_progress extract_lets +onlyGivenNames x); first | ((first | refine Keeps.cut (t := x) ?_ ?_ | refine KeepsR.cut (t := x) ?_ ?_ | refine Keeps.cutO (o := x) ?_ ?_ | refine Keeps.cutP (o := x) ?_ ?_ | refine Keeps.cut1 (o := x) ?_ ?_ | refine Keeps.cut2 (o := x) ?_ ?_); rotate_left; (clear_value x; intro hx); rotate_left; (try subst x)) | (have _h := Keeps.memv x; clear _h) | (have _h := Keeps.bytesv x; clear _h) | (have _h := Keeps.fn x; clear _h; dsimp only [x]; clear x) | (have _h := Keeps.fn2 x; clear _h; dsimp only [x]; clear x) | clear_value x)
    | (fail_if_no_progress refine Keeps.upd ?_ ⟨rfl, rfl, rfl, rfl, rfl⟩)
    | (fail_if_no_progress ((apply Keeps.of_mk; (focus exact rfl); (focus exact rfl)); (with_unfolding_all focus first | (exact fun w => w) | exact SMap.wf_set _ _ | exact SMap.wf_filter _); (with_unfolding_all focus first | (exact fun w => w) | exact SMap.wf_putBytes _ _ | exact SMap.wf_clearRange _ _ | exact SMap.wf_filter _ | (exact fun w => SMap.wf_foldl_set _ _ _ (SMap.wf_clearRange _ _ w)) | (exact fun _ => SMap.wf_nil' _)); (focus first | exact Nat.le_refl _ | exact Nat.le_succ _ | exact Nat.le_add_right _ _)))
    | apply Keeps.foldl1 | apply Keeps.foldl2 | apply Keeps.ite1 | apply Keeps.ite2
    | refine KeepsP.some_keeps (by assumption) _ _ (by assumption)
    | refine KeepsO.oSome (by assumption) (by assumption) | refine KeepsO.oSome (by assumption) rfl
    | refine KeepsP.some_keeps (by assumption) _ _ rfl | apply KeepsP.map | refine Keeps1.keeps (by assumption)
    | refine Keeps2.keeps (by assumption) | exact KeepsO.none _ | apply KeepsO.some | apply KeepsO.ite
    | apply KeepsO.foldl | exact KeepsP.none _ | apply KeepsP.some | apply KeepsP.ite | apply Keeps1.mk'
    | apply Keeps1.ite | apply Keeps1.foldl | apply Keeps2.mk' | apply Keeps2.ite | apply Keeps2.foldl | intro _ _ _
    | intro _ _ | intro _ | split | (fail_if_no_progress dsimp only) | refine KeepsO.oSome ?_ (by assumption)
    | refine KeepsP.some_keeps ?_ _ _ (by assumption) | refine Keeps1.eq ?_ (by assumption)
    | refine Keeps2.eq ?_ (by assumption)

theorem execHoldTimeout_keeps {r0_ s : State} {pool : PoolId} (h_ : Keeps r0_ s) : KeepsR r0_ (execHoldTimeout pool s) := by
  unfold execHoldTimeout
  with_reducible repeat' first
    | assumption | apply KeepsR.next | apply State.inc_keeps | apply State.irq_keeps | apply State.touchHold_keeps
    | apply State.kvpUpdate_keeps | apply State.fail_keeps | split

/-! ### Splice -/

theorem State.xspliceUpdate_keeps {r0_ s : State} {p : Nat} (h_ : Keeps r0_ s) : Keeps r0_ (State.xspliceUpdate s p) := by
  unfold State.xspliceUpdate
  with_reducible repeat' first
    | assumption | apply State.setBit_keeps | apply State.isoUpdate_keeps

theorem State.bindSlot_keeps {r0_ s : State} {b : Nat} (h_ : Keeps r0_ s) : Keeps r0_ (State.bindSlot s b) := by
  unfold State.bindSlot
  with_reducible repeat' first
    | assumption | apply Keeps.ite | apply Keeps.foldl | apply State.setReg_keeps | apply State.setBit_keeps
    | apply State.xspliceUpdate_keeps

theorem State.unbindSlot_keeps {r0_ s : State} {b : Nat} (h_ : Keeps r0_ s) : Keeps r0_ (State.unbindSlot s b) := by
  unfold State.unbindSlot
  with_reducible repeat' first
    | assumption | apply Keeps.ite | apply State.setReg_keeps | apply State.setBit_keeps
    | apply State.removeNodes_keeps

theorem State.writeBindCmd_keeps {r0_ s : State} {v : Word} (h_ : Keeps r0_ s) : Keeps r0_ (State.writeBindCmd s v) := by
  unfold State.writeBindCmd
  with_reducible repeat' first
    | assumption | apply Keeps.ite | apply State.setReg_keeps | apply State.bindSlot_keeps
    | apply State.unbindSlot_keeps

theorem execBind_keeps {r0_ s : State} {m : Master} {be : BitVec 4} {slot : BitVec 6} (h_ : Keeps r0_ s) : KeepsR r0_ (execBind m be slot s) := by
  unfold execBind
  with_reducible repeat' first
    | assumption | apply KeepsR.next | apply State.gated_keeps | apply State.writeBindCmd_keeps | intro _ _

theorem execUnbind_keeps {r0_ s : State} {m : Master} {be : BitVec 4} {slot : BitVec 6} (h_ : Keeps r0_ s) : KeepsR r0_ (execUnbind m be slot s) := by
  unfold execUnbind
  with_reducible repeat' first
    | assumption | apply KeepsR.next | apply State.gated_keeps | apply State.writeBindCmd_keeps | intro _ _

theorem execSlotFree_keeps {r0_ s : State} {slot : BitVec 6} (h_ : Keeps r0_ s) : KeepsR r0_ (execSlotFree slot s) := by
  unfold execSlotFree
  with_reducible repeat' first
    | assumption | apply KeepsR.next | apply Keeps.ite | apply Keeps.foldl | apply State.setBit_keeps
    | apply State.xspliceUpdate_keeps

theorem State.spliceInto_keeps {r0_ s : State} {h : Shard} {a page : Nat} (h_ : Keeps r0_ s) : Keeps r0_ (State.spliceInto s h a page) := by
  unfold State.spliceInto
  with_reducible repeat' first
    | assumption | apply State.freeFresh_keeps | apply State.wr_keeps | apply State.setPte_keeps
    | apply State.setShard_keeps
    | ((fail_if_no_progress extract_lets +onlyGivenNames x); first | ((refine Keeps.cut (t := x) ?_ ?_); rotate_left; (clear_value x; intro hx); rotate_left; (try subst x)) | clear_value x)
    | split

theorem State.spliceNode_keeps {r0_ s : State} {p : Nat} {tag : BitVec 64} {n : Node} {page : Nat} (h_ : Keeps r0_ s) : Keeps r0_ (State.spliceNode s p tag n page) := by
  unfold State.spliceNode
  with_reducible repeat' first
    | assumption | apply Keeps.foldl | apply State.addCnt_keeps | apply State.spliceInto_keeps | intro _ _ _ | split

theorem State.walkChain_keeps1 {r0_ s : State} {r : Req} {fuel : Nat} {h : BitVec 128} {m : Nat} (h_ : Keeps r0_ s) :
    Keeps r0_ (s.walkChain r fuel h m).1 := by
  induction fuel generalizing s h m with
  | zero => unfold State.walkChain; exact h_
  | succ n ih =>
    unfold State.walkChain
    with_reducible repeat' first
      | assumption | apply Keeps.ite | apply Keeps.foldl | apply Keeps.getD | apply State.inc_keeps
      | apply State.spliceNode_keeps | apply ih
      | ((fail_if_no_progress extract_lets +onlyGivenNames x); first | ((first | refine Keeps.cut (t := x) ?_ ?_ | refine Keeps.cutO (o := x) ?_ ?_ | refine Keeps.cutP (o := x) ?_ ?_ | refine Keeps.cut1 (o := x) ?_ ?_ | refine Keeps.cut2 (o := x) ?_ ?_); rotate_left; (clear_value x; intro hx); rotate_left; (try subst x)) | (have _h := Keeps.memv x; clear _h) | (have _h := Keeps.bytesv x; clear _h) | (have _h := Keeps.fn x; clear _h; dsimp only [x]; clear x) | (have _h := Keeps.fn2 x; clear _h; dsimp only [x]; clear x) | clear_value x)
      | (fail_if_no_progress refine Keeps.upd ?_ ⟨rfl, rfl, rfl, rfl, rfl⟩)
      | (fail_if_no_progress ((apply Keeps.of_mk; (focus exact rfl); (focus exact rfl)); (with_unfolding_all focus first | (exact fun w => w) | exact SMap.wf_set _ _ | exact SMap.wf_filter _); (with_unfolding_all focus first | (exact fun w => w) | exact SMap.wf_putBytes _ _ | exact SMap.wf_clearRange _ _ | exact SMap.wf_filter _ | (exact fun w => SMap.wf_foldl_set _ _ _ (SMap.wf_clearRange _ _ w)) | (exact fun _ => SMap.wf_nil' _)); (focus first | exact Nat.le_refl _ | exact Nat.le_succ _ | exact Nat.le_add_right _ _)))
      | apply Keeps.foldl1 | apply Keeps.foldl2 | apply Keeps.ite1 | apply Keeps.ite2
      | refine KeepsP.some_keeps (by assumption) _ _ (by assumption)
      | refine KeepsO.oSome (by assumption) (by assumption) | refine KeepsO.oSome (by assumption) rfl
      | refine KeepsP.some_keeps (by assumption) _ _ rfl | apply KeepsP.map | refine Keeps1.keeps (by assumption)
      | refine Keeps2.keeps (by assumption) | exact KeepsO.none _ | apply KeepsO.some | apply KeepsO.ite
      | apply KeepsO.foldl | exact KeepsP.none _ | apply KeepsP.some | apply KeepsP.ite | apply Keeps1.mk'
      | apply Keeps1.ite | apply Keeps1.foldl | apply Keeps2.mk' | apply Keeps2.ite | apply Keeps2.foldl
      | intro _ _ _ | intro _ _ | intro _ | split | (fail_if_no_progress dsimp only)
      | refine KeepsO.oSome ?_ (by assumption) | refine KeepsP.some_keeps ?_ _ _ (by assumption)
      | refine Keeps1.eq ?_ (by assumption) | refine Keeps2.eq ?_ (by assumption)

theorem State.lookup_keeps {r0_ s : State} {r : Req} {digest : BitVec 384} (h_ : Keeps r0_ s) : Keeps r0_ (State.lookup s r digest) := by
  unfold State.lookup
  with_reducible repeat' first
    | assumption | apply Keeps.ite | apply Keeps.foldl | apply Keeps.getD | apply State.addCnt_keeps
    | apply State.setReq_keeps | apply State.setShard_keeps | apply State.protectShard_keeps
    | apply State.spliceNode_keeps | apply State.walkChain_keeps1
    | refine Keeps1.eq ⟨State.walkChain_keeps1 ?_⟩ (by assumption)
    | ((fail_if_no_progress extract_lets +onlyGivenNames x); first | ((first | refine Keeps.cut (t := x) ?_ ?_ | refine Keeps.cutO (o := x) ?_ ?_ | refine Keeps.cutP (o := x) ?_ ?_ | refine Keeps.cut1 (o := x) ?_ ?_ | refine Keeps.cut2 (o := x) ?_ ?_); rotate_left; (clear_value x; intro hx); rotate_left; (try subst x)) | (have _h := Keeps.memv x; clear _h) | (have _h := Keeps.bytesv x; clear _h) | (have _h := Keeps.fn x; clear _h; dsimp only [x]; clear x) | (have _h := Keeps.fn2 x; clear _h; dsimp only [x]; clear x) | clear_value x)
    | (fail_if_no_progress refine Keeps.upd ?_ ⟨rfl, rfl, rfl, rfl, rfl⟩)
    | (fail_if_no_progress ((apply Keeps.of_mk; (focus exact rfl); (focus exact rfl)); (with_unfolding_all focus first | (exact fun w => w) | exact SMap.wf_set _ _ | exact SMap.wf_filter _); (with_unfolding_all focus first | (exact fun w => w) | exact SMap.wf_putBytes _ _ | exact SMap.wf_clearRange _ _ | exact SMap.wf_filter _ | (exact fun w => SMap.wf_foldl_set _ _ _ (SMap.wf_clearRange _ _ w)) | (exact fun _ => SMap.wf_nil' _)); (focus first | exact Nat.le_refl _ | exact Nat.le_succ _ | exact Nat.le_add_right _ _)))
    | apply Keeps.foldl1 | apply Keeps.foldl2 | apply Keeps.ite1 | apply Keeps.ite2
    | refine KeepsP.some_keeps (by assumption) _ _ (by assumption)
    | refine KeepsO.oSome (by assumption) (by assumption) | refine KeepsO.oSome (by assumption) rfl
    | refine KeepsP.some_keeps (by assumption) _ _ rfl | apply KeepsP.map | refine Keeps1.keeps (by assumption)
    | refine Keeps2.keeps (by assumption) | exact KeepsO.none _ | apply KeepsO.some | apply KeepsO.ite
    | apply KeepsO.foldl | exact KeepsP.none _ | apply KeepsP.some | apply KeepsP.ite | apply Keeps1.mk'
    | apply Keeps1.ite | apply Keeps1.foldl | apply Keeps2.mk' | apply Keeps2.ite | apply Keeps2.foldl | intro _ _ _
    | intro _ _ | intro _ | split | (fail_if_no_progress dsimp only) | refine KeepsO.oSome ?_ (by assumption)
    | refine KeepsP.some_keeps ?_ _ _ (by assumption) | refine Keeps1.eq ?_ (by assumption)
    | refine Keeps2.eq ?_ (by assumption)

theorem execPrefixLookup_keeps {r0_ s : State} {p : BitVec 7} {tag : BitVec 64} {ue : Option Nat} (h_ : Keeps r0_ s) : KeepsR r0_ (execPrefixLookup p tag ue s) := by
  unfold execPrefixLookup
  with_reducible repeat' first
    | assumption | apply KeepsR.next | apply State.setReq_keeps | apply State.kvpUpdate_keeps
    | apply State.lookup_keeps | apply State.indexUe_keeps
    | ((fail_if_no_progress extract_lets +onlyGivenNames x); first | ((first | refine Keeps.cut (t := x) ?_ ?_ | refine KeepsR.cut (t := x) ?_ ?_); rotate_left; (clear_value x; intro hx); rotate_left; (try subst x)) | clear_value x)
    | split

theorem State.dropNode_keeps {r0_ s : State} {n : Node} (h_ : Keeps r0_ s) : Keeps r0_ (State.dropNode s n) := by
  unfold State.dropNode
  with_reducible repeat' first
    | assumption | apply State.addCnt_keeps | apply State.removeNodes_keeps

theorem State.retarget_keeps {r0_ s : State} {a b : Nat} (h_ : Keeps r0_ s) : Keeps r0_ (State.retarget s a b) := by
  unfold State.retarget
  with_reducible repeat' first
    | assumption | (fail_if_no_progress refine Keeps.upd ?_ ⟨rfl, rfl, rfl, rfl, rfl⟩)

theorem State.indexPage_keeps {r0_ s : State} {h : Shard} {page a p : Nat} (h_ : Keeps r0_ s) : Keeps r0_ (State.indexPage s h page a p) := by
  unfold State.indexPage
  with_reducible repeat' first
    | assumption | apply Keeps.ite | apply Keeps.foldl | apply Keeps.getD | apply State.reuse_keeps
    | apply State.wr_keeps | apply State.setPte_keeps | apply State.setShard_keeps | apply State.syncProtect_keeps
    | apply State.retarget_keeps
    | ((fail_if_no_progress extract_lets +onlyGivenNames x); first | ((first | refine Keeps.cut (t := x) ?_ ?_ | refine Keeps.cutO (o := x) ?_ ?_ | refine Keeps.cutP (o := x) ?_ ?_ | refine Keeps.cut1 (o := x) ?_ ?_ | refine Keeps.cut2 (o := x) ?_ ?_); rotate_left; (clear_value x; intro hx); rotate_left; (try subst x)) | (have _h := Keeps.memv x; clear _h) | (have _h := Keeps.bytesv x; clear _h) | (have _h := Keeps.fn x; clear _h; dsimp only [x]; clear x) | (have _h := Keeps.fn2 x; clear _h; dsimp only [x]; clear x) | clear_value x)
    | (fail_if_no_progress refine Keeps.upd ?_ ⟨rfl, rfl, rfl, rfl, rfl⟩)
    | (fail_if_no_progress ((apply Keeps.of_mk; (focus exact rfl); (focus exact rfl)); (with_unfolding_all focus first | (exact fun w => w) | exact SMap.wf_set _ _ | exact SMap.wf_filter _); (with_unfolding_all focus first | (exact fun w => w) | exact SMap.wf_putBytes _ _ | exact SMap.wf_clearRange _ _ | exact SMap.wf_filter _ | (exact fun w => SMap.wf_foldl_set _ _ _ (SMap.wf_clearRange _ _ w)) | (exact fun _ => SMap.wf_nil' _)); (focus first | exact Nat.le_refl _ | exact Nat.le_succ _ | exact Nat.le_add_right _ _)))
    | apply Keeps.foldl1 | apply Keeps.foldl2 | apply Keeps.ite1 | apply Keeps.ite2
    | refine KeepsP.some_keeps (by assumption) _ _ (by assumption)
    | refine KeepsO.oSome (by assumption) (by assumption) | refine KeepsO.oSome (by assumption) rfl
    | refine KeepsP.some_keeps (by assumption) _ _ rfl | apply KeepsP.map | refine Keeps1.keeps (by assumption)
    | refine Keeps2.keeps (by assumption) | exact KeepsO.none _ | apply KeepsO.some | apply KeepsO.ite
    | apply KeepsO.foldl | exact KeepsP.none _ | apply KeepsP.some | apply KeepsP.ite | apply Keeps1.mk'
    | apply Keeps1.ite | apply Keeps1.foldl | apply Keeps2.mk' | apply Keeps2.ite | apply Keeps2.foldl | intro _ _ _
    | intro _ _ | intro _ | split | (fail_if_no_progress dsimp only) | refine KeepsO.oSome ?_ (by assumption)
    | refine KeepsP.some_keeps ?_ _ _ (by assumption) | refine Keeps1.eq ?_ (by assumption)
    | refine Keeps2.eq ?_ (by assumption)

theorem State.nodeRoom_keepsO {r0_ s : State}  (h_ : Keeps r0_ s) : KeepsO r0_ (State.nodeRoom s) := by
  unfold State.nodeRoom
  with_reducible repeat' first
    | assumption | exact KeepsO.none _ | apply KeepsO.some | apply State.dropNode_keeps | split

theorem State.leafRoom_keepsO {r0_ s : State} {sc : Scope} {parent : BitVec 128} (h_ : Keeps r0_ s) : KeepsO r0_ (State.leafRoom s sc parent) := by
  unfold State.leafRoom
  with_reducible repeat' first
    | assumption | exact KeepsO.none _ | apply KeepsO.some | apply State.dropNode_keeps
    | ((fail_if_no_progress extract_lets +onlyGivenNames x); first | ((first | refine Keeps.cut (t := x) ?_ ?_ | refine KeepsO.cut (t := x) ?_ ?_); rotate_left; (clear_value x; intro hx); rotate_left; (try subst x)) | clear_value x)
    | split

theorem State.insertNode_keepsO {r0_ s : State} {r : Req} {digest : BitVec 384} {page : Nat} {parent : BitVec 128} {toks : List Word} (h_ : Keeps r0_ s) : KeepsO r0_ (State.insertNode s r digest page parent toks) := by
  unfold State.insertNode
  with_reducible repeat' first
    | assumption | exact KeepsO.none _ | apply KeepsO.some | apply KeepsO.ite | apply Keeps.foldl
    | refine (State.takeBlock_keepsO ?_).some_keeps _ _ (by assumption) | apply State.indexPage_keeps
    | refine (State.nodeRoom_keepsO ?_).some_keeps _ (by assumption) | apply State.leafRoom_keepsO
    | (fail_if_no_progress ((apply Keeps.of_mk; (focus exact rfl); (focus exact rfl)); (with_unfolding_all focus first | (exact fun w => w) | exact SMap.wf_set _ _ | exact SMap.wf_filter _); (with_unfolding_all focus first | (exact fun w => w) | exact SMap.wf_putBytes _ _ | exact SMap.wf_clearRange _ _ | exact SMap.wf_filter _ | (exact fun w => SMap.wf_foldl_set _ _ _ (SMap.wf_clearRange _ _ w)) | (exact fun _ => SMap.wf_nil' _)); (focus first | exact Nat.le_refl _ | exact Nat.le_succ _ | exact Nat.le_add_right _ _)))
    | intro _ | split | refine KeepsO.oSome ?_ (by assumption)

theorem State.indexFrom_keeps {r0_ s : State} {r : Req} {digest : BitVec 384} {toks : List Word} {fuel page : Nat} {parent : BitVec 128}
    (h_ : Keeps r0_ s) : Keeps r0_ (s.indexFrom r digest toks fuel page parent) := by
  induction fuel generalizing s page parent with
  | zero => unfold State.indexFrom; exact h_
  | succ n ih =>
    unfold State.indexFrom
    with_reducible repeat' first
      | assumption | apply Keeps.ite | apply Keeps.foldl | apply Keeps.getD | apply State.insertNode_keepsO
      | refine (State.insertNode_keepsO ?_).some_keeps _ (by assumption) | apply ih
      | ((fail_if_no_progress extract_lets +onlyGivenNames x); first | ((first | refine Keeps.cut (t := x) ?_ ?_ | refine Keeps.cutO (o := x) ?_ ?_ | refine Keeps.cutP (o := x) ?_ ?_ | refine Keeps.cut1 (o := x) ?_ ?_ | refine Keeps.cut2 (o := x) ?_ ?_); rotate_left; (clear_value x; intro hx); rotate_left; (try subst x)) | (have _h := Keeps.memv x; clear _h) | (have _h := Keeps.bytesv x; clear _h) | (have _h := Keeps.fn x; clear _h; dsimp only [x]; clear x) | (have _h := Keeps.fn2 x; clear _h; dsimp only [x]; clear x) | clear_value x)
      | (fail_if_no_progress refine Keeps.upd ?_ ⟨rfl, rfl, rfl, rfl, rfl⟩)
      | (fail_if_no_progress ((apply Keeps.of_mk; (focus exact rfl); (focus exact rfl)); (with_unfolding_all focus first | (exact fun w => w) | exact SMap.wf_set _ _ | exact SMap.wf_filter _); (with_unfolding_all focus first | (exact fun w => w) | exact SMap.wf_putBytes _ _ | exact SMap.wf_clearRange _ _ | exact SMap.wf_filter _ | (exact fun w => SMap.wf_foldl_set _ _ _ (SMap.wf_clearRange _ _ w)) | (exact fun _ => SMap.wf_nil' _)); (focus first | exact Nat.le_refl _ | exact Nat.le_succ _ | exact Nat.le_add_right _ _)))
      | apply Keeps.foldl1 | apply Keeps.foldl2 | apply Keeps.ite1 | apply Keeps.ite2
      | refine KeepsP.some_keeps (by assumption) _ _ (by assumption)
      | refine KeepsO.oSome (by assumption) (by assumption) | refine KeepsO.oSome (by assumption) rfl
      | refine KeepsP.some_keeps (by assumption) _ _ rfl | apply KeepsP.map | refine Keeps1.keeps (by assumption)
      | refine Keeps2.keeps (by assumption) | exact KeepsO.none _ | apply KeepsO.some | apply KeepsO.ite
      | apply KeepsO.foldl | exact KeepsP.none _ | apply KeepsP.some | apply KeepsP.ite | apply Keeps1.mk'
      | apply Keeps1.ite | apply Keeps1.foldl | apply Keeps2.mk' | apply Keeps2.ite | apply Keeps2.foldl
      | intro _ _ _ | intro _ _ | intro _ | split | (fail_if_no_progress dsimp only)
      | refine KeepsO.oSome ?_ (by assumption) | refine KeepsP.some_keeps ?_ _ _ (by assumption)
      | refine Keeps1.eq ?_ (by assumption) | refine Keeps2.eq ?_ (by assumption)

theorem State.indexRequest_keeps {r0_ s : State} {r : Req} (h_ : Keeps r0_ s) : Keeps r0_ (State.indexRequest s r) := by
  unfold State.indexRequest
  with_reducible repeat' first
    | assumption | apply Keeps.ite | apply State.indexFrom_keeps | split

theorem execAgePeriod_keeps {r0_ s : State}  (h_ : Keeps r0_ s) : KeepsR r0_ (execAgePeriod s) := by
  unfold execAgePeriod
  with_reducible repeat' first
    | assumption | apply KeepsR.next | apply Keeps.ite | apply Keeps.foldl | apply State.setPte_keeps
    | (fail_if_no_progress refine Keeps.upd ?_ ⟨rfl, rfl, rfl, rfl, rfl⟩) | intro _ _ _

theorem State.internalBurst_keeps {r0_ s : State} {op : Nat} {es : List Nat} (h_ : Keeps r0_ s) : Keeps r0_ (State.internalBurst s op es) := by
  unfold State.internalBurst
  with_reducible repeat' first
    | assumption | apply State.submitBurst_keeps
    | (fail_if_no_progress refine Keeps.upd ?_ ⟨rfl, rfl, rfl, rfl, rfl⟩) | split

theorem State.internalBursts_keeps {r0_ s : State} {op fuel : Nat} {es : List Nat}
    (h_ : Keeps r0_ s) : Keeps r0_ (s.internalBursts op fuel es) := by
  induction fuel generalizing s es with
  | zero => unfold State.internalBursts; exact h_
  | succ n ih =>
    unfold State.internalBursts
    with_reducible repeat' first
      | assumption | apply Keeps.ite | apply Keeps.foldl | apply Keeps.getD | apply State.internalBurst_keeps
      | apply ih
      | ((fail_if_no_progress extract_lets +onlyGivenNames x); first | ((first | refine Keeps.cut (t := x) ?_ ?_ | refine Keeps.cutO (o := x) ?_ ?_ | refine Keeps.cutP (o := x) ?_ ?_ | refine Keeps.cut1 (o := x) ?_ ?_ | refine Keeps.cut2 (o := x) ?_ ?_); rotate_left; (clear_value x; intro hx); rotate_left; (try subst x)) | (have _h := Keeps.memv x; clear _h) | (have _h := Keeps.bytesv x; clear _h) | (have _h := Keeps.fn x; clear _h; dsimp only [x]; clear x) | (have _h := Keeps.fn2 x; clear _h; dsimp only [x]; clear x) | clear_value x)
      | (fail_if_no_progress refine Keeps.upd ?_ ⟨rfl, rfl, rfl, rfl, rfl⟩)
      | (fail_if_no_progress ((apply Keeps.of_mk; (focus exact rfl); (focus exact rfl)); (with_unfolding_all focus first | (exact fun w => w) | exact SMap.wf_set _ _ | exact SMap.wf_filter _); (with_unfolding_all focus first | (exact fun w => w) | exact SMap.wf_putBytes _ _ | exact SMap.wf_clearRange _ _ | exact SMap.wf_filter _ | (exact fun w => SMap.wf_foldl_set _ _ _ (SMap.wf_clearRange _ _ w)) | (exact fun _ => SMap.wf_nil' _)); (focus first | exact Nat.le_refl _ | exact Nat.le_succ _ | exact Nat.le_add_right _ _)))
      | apply Keeps.foldl1 | apply Keeps.foldl2 | apply Keeps.ite1 | apply Keeps.ite2
      | refine KeepsP.some_keeps (by assumption) _ _ (by assumption)
      | refine KeepsO.oSome (by assumption) (by assumption) | refine KeepsO.oSome (by assumption) rfl
      | refine KeepsP.some_keeps (by assumption) _ _ rfl | apply KeepsP.map | refine Keeps1.keeps (by assumption)
      | refine Keeps2.keeps (by assumption) | exact KeepsO.none _ | apply KeepsO.some | apply KeepsO.ite
      | apply KeepsO.foldl | exact KeepsP.none _ | apply KeepsP.some | apply KeepsP.ite | apply Keeps1.mk'
      | apply Keeps1.ite | apply Keeps1.foldl | apply Keeps2.mk' | apply Keeps2.ite | apply Keeps2.foldl
      | intro _ _ _ | intro _ _ | intro _ | split | (fail_if_no_progress dsimp only)
      | refine KeepsO.oSome ?_ (by assumption) | refine KeepsP.some_keeps ?_ _ _ (by assumption)
      | refine Keeps1.eq ?_ (by assumption) | refine Keeps2.eq ?_ (by assumption)

theorem State.readPage_keeps {r0_ s : State} {a m : Nat} (h_ : Keeps r0_ s) : Keeps r0_ (State.readPage s a m) := by
  unfold State.readPage
  with_reducible repeat' first
    | assumption | apply Keeps.ite | apply State.setPte_keeps
    | (fail_if_no_progress refine Keeps.upd ?_ ⟨rfl, rfl, rfl, rfl, rfl⟩)

theorem State.issuePromotions_keeps {r0_ s : State}  (h_ : Keeps r0_ s) : Keeps r0_ (State.issuePromotions s) := by
  unfold State.issuePromotions
  with_reducible repeat' first
    | assumption | apply State.internalBursts_keeps
    | (fail_if_no_progress refine Keeps.upd ?_ ⟨rfl, rfl, rfl, rfl, rfl⟩)

theorem State.lookAhead_keeps {r0_ s : State}  (h_ : Keeps r0_ s) : Keeps r0_ (State.lookAhead s) := by
  unfold State.lookAhead
  with_reducible repeat' first
    | assumption | apply Keeps.ite | apply Keeps.foldl | apply Keeps.getD | apply State.lookup_keeps
    | ((fail_if_no_progress extract_lets +onlyGivenNames x); first | ((first | refine Keeps.cut (t := x) ?_ ?_ | refine Keeps.cutO (o := x) ?_ ?_ | refine Keeps.cutP (o := x) ?_ ?_ | refine Keeps.cut1 (o := x) ?_ ?_ | refine Keeps.cut2 (o := x) ?_ ?_); rotate_left; (clear_value x; intro hx); rotate_left; (try subst x)) | (have _h := Keeps.memv x; clear _h) | (have _h := Keeps.bytesv x; clear _h) | (have _h := Keeps.fn x; clear _h; dsimp only [x]; clear x) | (have _h := Keeps.fn2 x; clear _h; dsimp only [x]; clear x) | clear_value x)
    | (fail_if_no_progress refine Keeps.upd ?_ ⟨rfl, rfl, rfl, rfl, rfl⟩)
    | (fail_if_no_progress ((apply Keeps.of_mk; (focus exact rfl); (focus exact rfl)); (with_unfolding_all focus first | (exact fun w => w) | exact SMap.wf_set _ _ | exact SMap.wf_filter _); (with_unfolding_all focus first | (exact fun w => w) | exact SMap.wf_putBytes _ _ | exact SMap.wf_clearRange _ _ | exact SMap.wf_filter _ | (exact fun w => SMap.wf_foldl_set _ _ _ (SMap.wf_clearRange _ _ w)) | (exact fun _ => SMap.wf_nil' _)); (focus first | exact Nat.le_refl _ | exact Nat.le_succ _ | exact Nat.le_add_right _ _)))
    | apply Keeps.foldl1 | apply Keeps.foldl2 | apply Keeps.ite1 | apply Keeps.ite2
    | refine KeepsP.some_keeps (by assumption) _ _ (by assumption)
    | refine KeepsO.oSome (by assumption) (by assumption) | refine KeepsO.oSome (by assumption) rfl
    | refine KeepsP.some_keeps (by assumption) _ _ rfl | apply KeepsP.map | refine Keeps1.keeps (by assumption)
    | refine Keeps2.keeps (by assumption) | exact KeepsO.none _ | apply KeepsO.some | apply KeepsO.ite
    | apply KeepsO.foldl | exact KeepsP.none _ | apply KeepsP.some | apply KeepsP.ite | apply Keeps1.mk'
    | apply Keeps1.ite | apply Keeps1.foldl | apply Keeps2.mk' | apply Keeps2.ite | apply Keeps2.foldl | intro _ _ _
    | intro _ _ | intro _ | split | (fail_if_no_progress dsimp only) | refine KeepsO.oSome ?_ (by assumption)
    | refine KeepsP.some_keeps ?_ _ _ (by assumption) | refine Keeps1.eq ?_ (by assumption)
    | refine Keeps2.eq ?_ (by assumption)

theorem State.reefTake_keeps1 {r0_ s : State} {ahead : Node → Bool} {pool : PoolId} {t : Tier} {demote : List Nat} {extra : Nat} {n_ : Nat} (h_ : Keeps r0_ s) : Keeps1 r0_ (State.reefTake s ahead pool t demote extra n_) := by
  induction n_ generalizing s ahead pool t demote extra with
  | zero =>
    unfold State.reefTake
    with_reducible repeat' first
      | assumption | apply Keeps1.mk' | apply State.pend_keeps | apply State.dropNode_keeps | refine (ih ?_).keeps
      | ((fail_if_no_progress extract_lets +onlyGivenNames x); first | ((first | refine Keeps.cut (t := x) ?_ ?_ | refine Keeps1.cut (t := x) ?_ ?_); rotate_left; (clear_value x; intro hx); rotate_left; (try subst x)) | clear_value x)
      | split
  | succ n ih =>
    unfold State.reefTake
    with_reducible repeat' first
      | assumption | apply Keeps1.mk' | apply State.pend_keeps | apply State.dropNode_keeps | refine (ih ?_).keeps
      | ((fail_if_no_progress extract_lets +onlyGivenNames x); first | ((first | refine Keeps.cut (t := x) ?_ ?_ | refine Keeps1.cut (t := x) ?_ ?_); rotate_left; (clear_value x; intro hx); rotate_left; (try subst x)) | clear_value x)
      | split

theorem execReefSelect_keeps {r0_ s : State} {pool : PoolId} {t : Tier} (h_ : Keeps r0_ s) : KeepsR r0_ (execReefSelect pool t s) := by
  unfold execReefSelect
  with_reducible repeat' first
    | assumption | apply KeepsR.next | apply Keeps.ite | apply State.irq_keeps | apply State.kvpUpdate_keeps
    | apply State.internalBursts_keeps | refine (State.reefTake_keeps1 ?_).keeps
    | (fail_if_no_progress refine Keeps.upd ?_ ⟨rfl, rfl, rfl, rfl, rfl⟩)

/-! ### Admission -/

theorem State.mirrors_keeps {r0_ : State} {r : Req} {units : Nat} {use : Use} (n : Nat) {t t2 : State} {l : List Nat} (h : Keeps r0_ t)
    (e : State.asideShard.mirrors r units use n t = some (l, t2)) : Keeps r0_ t2 := by
  induction n generalizing t l with
  | zero => cases e; exact h
  | succ n ih =>
    unfold State.asideShard.mirrors at e
    split at e
    · cases e
    · rename_i hh
      split at e
      · cases e
      · rename_i hk
        cases e
        exact ih ((State.takeIn_keepsO h).some_keeps _ _ hh) hk
theorem State.asideShard_keepsO {r0_ s : State} {r : Req} {sc : Scope} {sh : ShardShape} {idx pages mir : Nat} (h_ : Keeps r0_ s) :
    KeepsO r0_ (s.asideShard r sc sh idx pages mir) := by
  refine ⟨fun t e => ?_⟩
  unfold State.asideShard at e
  extract_lets at e
  split at e
  · cases e
  · rename_i pt s1 h1
    have k1 : Keeps r0_ s1 := by
      split at h1
      · rename_i hx
        cases h1
        exact (State.takeBlock_keepsO h_).some_keeps _ _ hx
      · exact (State.takeBlock_keepsO h_).some_keeps _ _ h1
    split at e
    · cases e
    · rename_i h2
      have k2 := (State.takePages_keepsO k1).some_keeps _ _ h2
      split at e
      · cases e
      · rename_i hk
        obtain ⟨⟨l, u⟩, hm, hb⟩ := Option.bind_eq_some_iff.1 hk
        obtain ⟨⟨a, w⟩, hw, e2⟩ := Option.map_eq_some_iff.1 hb
        cases e2
        cases e
        have k4 := (State.takeEntry_keepsO (State.mirrors_keeps _ k2 hm)).some_keeps _ _ hw
        exact State.setRes_keeps (Keeps.of_mk rfl rfl (fun w => w) (fun w => w) (Nat.le_refl _) k4)

theorem State.setAside_keepsO {r0_ s : State} {r : Req} {m : Model} {sc : Scope} (h_ : Keeps r0_ s) : KeepsO r0_ (State.setAside s r m sc) := by
  unfold State.setAside
  with_reducible repeat' first
    | assumption | apply KeepsO.some | apply KeepsO.foldl | apply State.asideShard_keepsO
    | refine KeepsO.oSome (by assumption) rfl | intro _ | split

theorem State.decide_keeps {r0_ s : State} {r : Req} (h_ : Keeps r0_ s) : KeepsD r0_ (s.decide_ r) := by
  unfold State.decide_
  extract_lets p
  split
  · exact KeepsD.refuse _ _ _
  · extract_lets
    iterate 8 (refine KeepsD.ite (by first | exact KeepsD.refuse _ _ _ | exact KeepsD.defer _ _ _ _) ?_)
    split
    · exact KeepsD.defer _ _ _ _
    · rename_i hx
      have ht := (State.setAside_keepsO h_).some_keeps _ hx
      refine KeepsD.ite (KeepsD.accept ht) ?_
      split
      · exact KeepsD.defer _ _ _ _
      · exact KeepsD.accept ht

theorem State.carry_keeps {r0_ s : State} {r : Req} {x : Decision} (h_ : Keeps r0_ s)
    (hd : ∀ t v, x = .accept t v → Keeps r0_ t) : Keeps r0_ (s.carry r x) := by
  cases x with
  | refuse st dt =>
    unfold State.carry
    exact State.finish_keeps h_
  | defer st dt a =>
    unfold State.carry
    exact Keeps.ite h_ (State.notice_keeps (State.setReq_keeps h_))
  | accept t v =>
    have ht := hd t v rfl
    unfold State.carry
    extract_lets -lift bucket scope
    clear_value bucket scope
    dsimp -zeta only
    extract_lets -lift +onlyGivenNames r1 infos a b c t1 t2
    have hs : Keeps r0_ (t.setReq r1) := State.setReq_keeps ht
    have h1 : Keeps r0_ t1 := ⟨hs.queue, hs.outs, hs.free, hs.regs, hs.bytes⟩
    clear_value t1
    have h2 : Keeps r0_ t2 := by
      cases v with
      | none => exact h1
      | some v => exact State.setReq_keeps h1
    exact State.post_keeps h2

theorem State.beginDecision_keeps {r0_ s : State}  (h_ : Keeps r0_ s) : Keeps r0_ (State.beginDecision s) := by
  unfold State.beginDecision
  with_reducible repeat' first
    | assumption | apply Keeps.ite | apply Keeps.foldl | apply Keeps.getD | apply State.hideFresh_keeps
    | ((fail_if_no_progress extract_lets +onlyGivenNames x); first | ((first | refine Keeps.cut (t := x) ?_ ?_ | refine Keeps.cutO (o := x) ?_ ?_ | refine Keeps.cutP (o := x) ?_ ?_ | refine Keeps.cut1 (o := x) ?_ ?_ | refine Keeps.cut2 (o := x) ?_ ?_); rotate_left; (clear_value x; intro hx); rotate_left; (try subst x)) | (have _h := Keeps.memv x; clear _h) | (have _h := Keeps.bytesv x; clear _h) | (have _h := Keeps.fn x; clear _h; dsimp only [x]; clear x) | (have _h := Keeps.fn2 x; clear _h; dsimp only [x]; clear x) | clear_value x)
    | (fail_if_no_progress refine Keeps.upd ?_ ⟨rfl, rfl, rfl, rfl, rfl⟩)
    | (fail_if_no_progress ((apply Keeps.of_mk; (focus exact rfl); (focus exact rfl)); (with_unfolding_all focus first | (exact fun w => w) | exact SMap.wf_set _ _ | exact SMap.wf_filter _); (with_unfolding_all focus first | (exact fun w => w) | exact SMap.wf_putBytes _ _ | exact SMap.wf_clearRange _ _ | exact SMap.wf_filter _ | (exact fun w => SMap.wf_foldl_set _ _ _ (SMap.wf_clearRange _ _ w)) | (exact fun _ => SMap.wf_nil' _)); (focus first | exact Nat.le_refl _ | exact Nat.le_succ _ | exact Nat.le_add_right _ _)))
    | apply Keeps.foldl1 | apply Keeps.foldl2 | apply Keeps.ite1 | apply Keeps.ite2
    | refine KeepsP.some_keeps (by assumption) _ _ (by assumption)
    | refine KeepsO.oSome (by assumption) (by assumption) | refine KeepsO.oSome (by assumption) rfl
    | refine KeepsP.some_keeps (by assumption) _ _ rfl | apply KeepsP.map | refine Keeps1.keeps (by assumption)
    | refine Keeps2.keeps (by assumption) | exact KeepsO.none _ | apply KeepsO.some | apply KeepsO.ite
    | apply KeepsO.foldl | exact KeepsP.none _ | apply KeepsP.some | apply KeepsP.ite | apply Keeps1.mk'
    | apply Keeps1.ite | apply Keeps1.foldl | apply Keeps2.mk' | apply Keeps2.ite | apply Keeps2.foldl | intro _ _ _
    | intro _ _ | intro _ | split | (fail_if_no_progress dsimp only) | refine KeepsO.oSome ?_ (by assumption)
    | refine KeepsP.some_keeps ?_ _ _ (by assumption) | refine Keeps1.eq ?_ (by assumption)
    | refine Keeps2.eq ?_ (by assumption)

theorem State.endDecision_keeps {r0_ s : State}  (h_ : Keeps r0_ s) : Keeps r0_ (State.endDecision s) := by
  unfold State.endDecision
  with_reducible repeat' first
    | assumption | apply Keeps.ite | apply Keeps.foldl | apply Keeps.getD | apply State.kvpUpdate_keeps
    | apply State.showFresh_keeps
    | ((fail_if_no_progress extract_lets +onlyGivenNames x); first | ((first | refine Keeps.cut (t := x) ?_ ?_ | refine Keeps.cutO (o := x) ?_ ?_ | refine Keeps.cutP (o := x) ?_ ?_ | refine Keeps.cut1 (o := x) ?_ ?_ | refine Keeps.cut2 (o := x) ?_ ?_); rotate_left; (clear_value x; intro hx); rotate_left; (try subst x)) | (have _h := Keeps.memv x; clear _h) | (have _h := Keeps.bytesv x; clear _h) | (have _h := Keeps.fn x; clear _h; dsimp only [x]; clear x) | (have _h := Keeps.fn2 x; clear _h; dsimp only [x]; clear x) | clear_value x)
    | (fail_if_no_progress refine Keeps.upd ?_ ⟨rfl, rfl, rfl, rfl, rfl⟩)
    | (fail_if_no_progress ((apply Keeps.of_mk; (focus exact rfl); (focus exact rfl)); (with_unfolding_all focus first | (exact fun w => w) | exact SMap.wf_set _ _ | exact SMap.wf_filter _); (with_unfolding_all focus first | (exact fun w => w) | exact SMap.wf_putBytes _ _ | exact SMap.wf_clearRange _ _ | exact SMap.wf_filter _ | (exact fun w => SMap.wf_foldl_set _ _ _ (SMap.wf_clearRange _ _ w)) | (exact fun _ => SMap.wf_nil' _)); (focus first | exact Nat.le_refl _ | exact Nat.le_succ _ | exact Nat.le_add_right _ _)))
    | apply Keeps.foldl1 | apply Keeps.foldl2 | apply Keeps.ite1 | apply Keeps.ite2
    | refine KeepsP.some_keeps (by assumption) _ _ (by assumption)
    | refine KeepsO.oSome (by assumption) (by assumption) | refine KeepsO.oSome (by assumption) rfl
    | refine KeepsP.some_keeps (by assumption) _ _ rfl | apply KeepsP.map | refine Keeps1.keeps (by assumption)
    | refine Keeps2.keeps (by assumption) | exact KeepsO.none _ | apply KeepsO.some | apply KeepsO.ite
    | apply KeepsO.foldl | exact KeepsP.none _ | apply KeepsP.some | apply KeepsP.ite | apply Keeps1.mk'
    | apply Keeps1.ite | apply Keeps1.foldl | apply Keeps2.mk' | apply Keeps2.ite | apply Keeps2.foldl | intro _ _ _
    | intro _ _ | intro _ | split | (fail_if_no_progress dsimp only) | refine KeepsO.oSome ?_ (by assumption)
    | refine KeepsP.some_keeps ?_ _ _ (by assumption) | refine Keeps1.eq ?_ (by assumption)
    | refine Keeps2.eq ?_ (by assumption)

theorem State.admitNow_keeps {r0_ s : State} {r : Req} (h_ : Keeps r0_ s) : Keeps r0_ (s.admitNow r) := by
  unfold State.admitNow
  have h1 := State.reserveHeld_keeps (r0_ := r0_) (n_ := s.heldOf (s.poolOf r.part)) (State.beginDecision_keeps h_)
  exact State.endDecision_keeps (State.carry_keeps h1 (State.decide_keeps h1).admits)

theorem State.serveRequest_keeps {r0_ s : State} {p q : Nat} {d : BitVec 1024} {frame : HostRead (List Word)} (h_ : Keeps r0_ s) : Keeps r0_ (State.serveRequest s p q d frame) := by
  unfold State.serveRequest
  with_reducible repeat' first
    | assumption | apply Keeps.ite | apply Keeps.foldl | apply Keeps.getD | apply State.emit_keeps
    | apply State.fetch_keeps | apply State.complete_keeps | apply State.refuse_keeps | apply State.newInstance_keeps
    | apply State.admitNow_keeps
    | ((fail_if_no_progress extract_lets +onlyGivenNames x); first | ((first | refine Keeps.cut (t := x) ?_ ?_ | refine Keeps.cutO (o := x) ?_ ?_ | refine Keeps.cutP (o := x) ?_ ?_ | refine Keeps.cut1 (o := x) ?_ ?_ | refine Keeps.cut2 (o := x) ?_ ?_); rotate_left; (clear_value x; intro hx); rotate_left; (try subst x)) | (have _h := Keeps.memv x; clear _h) | (have _h := Keeps.bytesv x; clear _h) | (have _h := Keeps.fn x; clear _h; dsimp only [x]; clear x) | (have _h := Keeps.fn2 x; clear _h; dsimp only [x]; clear x) | clear_value x)
    | (fail_if_no_progress refine Keeps.upd ?_ ⟨rfl, rfl, rfl, rfl, rfl⟩)
    | (fail_if_no_progress ((apply Keeps.of_mk; (focus exact rfl); (focus exact rfl)); (with_unfolding_all focus first | (exact fun w => w) | exact SMap.wf_set _ _ | exact SMap.wf_filter _); (with_unfolding_all focus first | (exact fun w => w) | exact SMap.wf_putBytes _ _ | exact SMap.wf_clearRange _ _ | exact SMap.wf_filter _ | (exact fun w => SMap.wf_foldl_set _ _ _ (SMap.wf_clearRange _ _ w)) | (exact fun _ => SMap.wf_nil' _)); (focus first | exact Nat.le_refl _ | exact Nat.le_succ _ | exact Nat.le_add_right _ _)))
    | apply Keeps.foldl1 | apply Keeps.foldl2 | apply Keeps.ite1 | apply Keeps.ite2
    | refine KeepsP.some_keeps (by assumption) _ _ (by assumption)
    | refine KeepsO.oSome (by assumption) (by assumption) | refine KeepsO.oSome (by assumption) rfl
    | refine KeepsP.some_keeps (by assumption) _ _ rfl | apply KeepsP.map | refine Keeps1.keeps (by assumption)
    | refine Keeps2.keeps (by assumption) | exact KeepsO.none _ | apply KeepsO.some | apply KeepsO.ite
    | apply KeepsO.foldl | exact KeepsP.none _ | apply KeepsP.some | apply KeepsP.ite | apply Keeps1.mk'
    | apply Keeps1.ite | apply Keeps1.foldl | apply Keeps2.mk' | apply Keeps2.ite | apply Keeps2.foldl | intro _ _ _
    | intro _ _ | intro _ | split | (fail_if_no_progress dsimp only) | refine KeepsO.oSome ?_ (by assumption)
    | refine KeepsP.some_keeps ?_ _ _ (by assumption) | refine Keeps1.eq ?_ (by assumption)
    | refine Keeps2.eq ?_ (by assumption)

theorem execRequest_keeps {r0_ s : State} {p : BitVec 7} {q : BitVec 3} {d : BitVec 1024} {frame : HostRead (List Word)} (h_ : Keeps r0_ s) : KeepsR r0_ (execRequest p q d frame s) := by
  unfold execRequest
  with_reducible repeat' first
    | assumption | apply KeepsR.next | apply Keeps.ite | apply State.fetch_keeps | apply State.refuse_keeps
    | apply State.fetched_keeps | apply State.serveRequest_keeps

theorem State.rerun_keeps {r0_ s : State} {p n : Nat} (h_ : Keeps r0_ s) : Keeps r0_ (s.rerun p n) := by
  induction n generalizing s with
  | zero => unfold State.rerun; exact h_
  | succ n ih =>
    unfold State.rerun
    split
    · exact h_
    · have h1 := State.reserveHeld_keeps (r0_ := r0_) (n_ := s.heldOf (s.poolOf p)) (State.beginDecision_keeps h_)
      simp only
      split
      · exact State.endDecision_keeps (State.carry_keeps h1 fun _ _ e => nomatch e)
      · exact ih (State.endDecision_keeps (State.carry_keeps h1 (State.decide_keeps h1).admits))

theorem execDeferredRerun_keeps {r0_ s : State} {p : BitVec 7} (h_ : Keeps r0_ s) : KeepsR r0_ (execDeferredRerun p s) := by
  unfold execDeferredRerun
  with_reducible repeat' first
    | assumption | apply KeepsR.next | apply State.rerun_keeps
    | (fail_if_no_progress refine Keeps.upd ?_ ⟨rfl, rfl, rfl, rfl, rfl⟩) | split

theorem State.preempt_keeps {r0_ s : State} {r : Req} {detail : Nat} (h_ : Keeps r0_ s) : Keeps r0_ (State.preempt s r detail) := by
  unfold State.preempt
  with_reducible repeat' first
    | assumption | apply State.inc_keeps | apply State.setReq_keeps | apply State.notice_keeps
    | apply State.passLane_keeps

theorem State.toDecode_keeps {r0_ s : State} {r : Req} (h_ : Keeps r0_ s) : Keeps r0_ (State.toDecode s r) := by
  unfold State.toDecode
  with_reducible repeat' first
    | assumption | apply Keeps.ite | apply Keeps.foldl | apply Keeps.getD | apply State.setReq_keeps
    | apply State.noteLane_keeps
    | ((fail_if_no_progress extract_lets +onlyGivenNames x); first | ((first | refine Keeps.cut (t := x) ?_ ?_ | refine Keeps.cutO (o := x) ?_ ?_ | refine Keeps.cutP (o := x) ?_ ?_ | refine Keeps.cut1 (o := x) ?_ ?_ | refine Keeps.cut2 (o := x) ?_ ?_); rotate_left; (clear_value x; intro hx); rotate_left; (try subst x)) | (have _h := Keeps.memv x; clear _h) | (have _h := Keeps.bytesv x; clear _h) | (have _h := Keeps.fn x; clear _h; dsimp only [x]; clear x) | (have _h := Keeps.fn2 x; clear _h; dsimp only [x]; clear x) | clear_value x)
    | (fail_if_no_progress refine Keeps.upd ?_ ⟨rfl, rfl, rfl, rfl, rfl⟩)
    | (fail_if_no_progress ((apply Keeps.of_mk; (focus exact rfl); (focus exact rfl)); (with_unfolding_all focus first | (exact fun w => w) | exact SMap.wf_set _ _ | exact SMap.wf_filter _); (with_unfolding_all focus first | (exact fun w => w) | exact SMap.wf_putBytes _ _ | exact SMap.wf_clearRange _ _ | exact SMap.wf_filter _ | (exact fun w => SMap.wf_foldl_set _ _ _ (SMap.wf_clearRange _ _ w)) | (exact fun _ => SMap.wf_nil' _)); (focus first | exact Nat.le_refl _ | exact Nat.le_succ _ | exact Nat.le_add_right _ _)))
    | apply Keeps.foldl1 | apply Keeps.foldl2 | apply Keeps.ite1 | apply Keeps.ite2
    | refine KeepsP.some_keeps (by assumption) _ _ (by assumption)
    | refine KeepsO.oSome (by assumption) (by assumption) | refine KeepsO.oSome (by assumption) rfl
    | refine KeepsP.some_keeps (by assumption) _ _ rfl | apply KeepsP.map | refine Keeps1.keeps (by assumption)
    | refine Keeps2.keeps (by assumption) | exact KeepsO.none _ | apply KeepsO.some | apply KeepsO.ite
    | apply KeepsO.foldl | exact KeepsP.none _ | apply KeepsP.some | apply KeepsP.ite | apply Keeps1.mk'
    | apply Keeps1.ite | apply Keeps1.foldl | apply Keeps2.mk' | apply Keeps2.ite | apply Keeps2.foldl | intro _ _ _
    | intro _ _ | intro _ | split | (fail_if_no_progress dsimp only) | refine KeepsO.oSome ?_ (by assumption)
    | refine KeepsP.some_keeps ?_ _ _ (by assumption) | refine Keeps1.eq ?_ (by assumption)
    | refine Keeps2.eq ?_ (by assumption)

theorem State.answerToken_keeps1 {r0_ s : State} {r : Req} {given : BitVec 18} (h_ : Keeps r0_ s) : Keeps1 r0_ (State.answerToken s r given) := by
  unfold State.answerToken
  with_reducible repeat' first
    | assumption | apply Keeps1.mk' | apply Keeps1.ite | apply Keeps1.foldl | apply Keeps.ite | apply Keeps.foldl
    | apply Keeps.getD | apply State.writeTokens_keeps1
    | refine Keeps1.eq (State.writeTokens_keeps1 ?_) (by assumption) | refine (State.writeTokens_keeps1 ?_).keeps
    | ((fail_if_no_progress extract_lets +onlyGivenNames x); first | ((first | refine Keeps.cut (t := x) ?_ ?_ | refine Keeps1.cut (t := x) ?_ ?_ | refine Keeps.cutO (o := x) ?_ ?_ | refine Keeps.cutP (o := x) ?_ ?_ | refine Keeps.cut1 (o := x) ?_ ?_ | refine Keeps.cut2 (o := x) ?_ ?_); rotate_left; (clear_value x; intro hx); rotate_left; (try subst x)) | (have _h := Keeps.memv x; clear _h) | (have _h := Keeps.bytesv x; clear _h) | (have _h := Keeps.fn x; clear _h; dsimp only [x]; clear x) | (have _h := Keeps.fn2 x; clear _h; dsimp only [x]; clear x) | clear_value x)
    | (fail_if_no_progress refine Keeps.upd ?_ ⟨rfl, rfl, rfl, rfl, rfl⟩)
    | (fail_if_no_progress ((apply Keeps.of_mk; (focus exact rfl); (focus exact rfl)); (with_unfolding_all focus first | (exact fun w => w) | exact SMap.wf_set _ _ | exact SMap.wf_filter _); (with_unfolding_all focus first | (exact fun w => w) | exact SMap.wf_putBytes _ _ | exact SMap.wf_clearRange _ _ | exact SMap.wf_filter _ | (exact fun w => SMap.wf_foldl_set _ _ _ (SMap.wf_clearRange _ _ w)) | (exact fun _ => SMap.wf_nil' _)); (focus first | exact Nat.le_refl _ | exact Nat.le_succ _ | exact Nat.le_add_right _ _)))
    | apply Keeps.foldl1 | apply Keeps.foldl2 | apply Keeps.ite1 | apply Keeps.ite2
    | refine KeepsP.some_keeps (by assumption) _ _ (by assumption)
    | refine KeepsO.oSome (by assumption) (by assumption) | refine KeepsO.oSome (by assumption) rfl
    | refine KeepsP.some_keeps (by assumption) _ _ rfl | apply KeepsP.map | refine Keeps1.keeps (by assumption)
    | refine Keeps2.keeps (by assumption) | exact KeepsO.none _ | apply KeepsO.some | apply KeepsO.ite
    | apply KeepsO.foldl | exact KeepsP.none _ | apply KeepsP.some | apply KeepsP.ite | apply Keeps2.mk'
    | apply Keeps2.ite | apply Keeps2.foldl | intro _ _ _ | intro _ _ | intro _ | split
    | (fail_if_no_progress dsimp only) | refine KeepsO.oSome ?_ (by assumption)
    | refine KeepsP.some_keeps ?_ _ _ (by assumption) | refine Keeps1.eq ?_ (by assumption)
    | refine Keeps2.eq ?_ (by assumption)

theorem execPrefillPageStep_keeps {r0_ s : State} {p : BitVec 7} {tag : BitVec 64} {token : BitVec 18} (h_ : Keeps r0_ s) : KeepsR r0_ (execPrefillPageStep p tag s token) := by
  unfold execPrefillPageStep
  with_reducible repeat' first
    | assumption | apply KeepsR.next | exact KeepsR.fault _ _ | apply KeepsR.ite | apply Keeps.ite
    | apply Keeps.foldl | apply Keeps.getD | apply State.setReq_keeps | apply State.clearSteps_keeps
    | apply State.finish_keeps | apply State.preempt_keeps | apply State.toDecode_keeps
    | apply State.answerToken_keeps1 | refine Keeps1.eq (State.answerToken_keeps1 ?_) (by assumption)
    | refine (State.answerToken_keeps1 ?_).keeps
    | ((fail_if_no_progress extract_lets +onlyGivenNames x); first | ((first | refine Keeps.cut (t := x) ?_ ?_ | refine KeepsR.cut (t := x) ?_ ?_ | refine Keeps.cutO (o := x) ?_ ?_ | refine Keeps.cutP (o := x) ?_ ?_ | refine Keeps.cut1 (o := x) ?_ ?_ | refine Keeps.cut2 (o := x) ?_ ?_); rotate_left; (clear_value x; intro hx); rotate_left; (try subst x)) | (have _h := Keeps.memv x; clear _h) | (have _h := Keeps.bytesv x; clear _h) | (have _h := Keeps.fn x; clear _h; dsimp only [x]; clear x) | (have _h := Keeps.fn2 x; clear _h; dsimp only [x]; clear x) | clear_value x)
    | (fail_if_no_progress refine Keeps.upd ?_ ⟨rfl, rfl, rfl, rfl, rfl⟩)
    | (fail_if_no_progress ((apply Keeps.of_mk; (focus exact rfl); (focus exact rfl)); (with_unfolding_all focus first | (exact fun w => w) | exact SMap.wf_set _ _ | exact SMap.wf_filter _); (with_unfolding_all focus first | (exact fun w => w) | exact SMap.wf_putBytes _ _ | exact SMap.wf_clearRange _ _ | exact SMap.wf_filter _ | (exact fun w => SMap.wf_foldl_set _ _ _ (SMap.wf_clearRange _ _ w)) | (exact fun _ => SMap.wf_nil' _)); (focus first | exact Nat.le_refl _ | exact Nat.le_succ _ | exact Nat.le_add_right _ _)))
    | apply Keeps.foldl1 | apply Keeps.foldl2 | apply Keeps.ite1 | apply Keeps.ite2
    | refine KeepsP.some_keeps (by assumption) _ _ (by assumption)
    | refine KeepsO.oSome (by assumption) (by assumption) | refine KeepsO.oSome (by assumption) rfl
    | refine KeepsP.some_keeps (by assumption) _ _ rfl | apply KeepsP.map | refine Keeps1.keeps (by assumption)
    | refine Keeps2.keeps (by assumption) | exact KeepsO.none _ | apply KeepsO.some | apply KeepsO.ite
    | apply KeepsO.foldl | exact KeepsP.none _ | apply KeepsP.some | apply KeepsP.ite | apply Keeps1.mk'
    | apply Keeps1.ite | apply Keeps1.foldl | apply Keeps2.mk' | apply Keeps2.ite | apply Keeps2.foldl | intro _ _ _
    | intro _ _ | intro _ | split | (fail_if_no_progress dsimp only) | refine KeepsO.oSome ?_ (by assumption)
    | refine KeepsP.some_keeps ?_ _ _ (by assumption) | refine Keeps1.eq ?_ (by assumption)
    | refine Keeps2.eq ?_ (by assumption)

theorem State.restoreWalks_keeps {r0_ s : State} {p : Nat} {tag : BitVec 64} (h_ : Keeps r0_ s) : Keeps r0_ (State.restoreWalks s p tag) := by
  unfold State.restoreWalks
  with_reducible repeat' first
    | assumption | apply Keeps.ite | apply Keeps.foldl | apply Keeps.getD | apply State.wr_keeps
    | apply State.lineUeFor_keeps
    | ((fail_if_no_progress extract_lets +onlyGivenNames x); first | ((first | refine Keeps.cut (t := x) ?_ ?_ | refine Keeps.cutO (o := x) ?_ ?_ | refine Keeps.cutP (o := x) ?_ ?_ | refine Keeps.cut1 (o := x) ?_ ?_ | refine Keeps.cut2 (o := x) ?_ ?_); rotate_left; (clear_value x; intro hx); rotate_left; (try subst x)) | (have _h := Keeps.memv x; clear _h) | (have _h := Keeps.bytesv x; clear _h) | (have _h := Keeps.fn x; clear _h; dsimp only [x]; clear x) | (have _h := Keeps.fn2 x; clear _h; dsimp only [x]; clear x) | clear_value x)
    | (fail_if_no_progress refine Keeps.upd ?_ ⟨rfl, rfl, rfl, rfl, rfl⟩)
    | (fail_if_no_progress ((apply Keeps.of_mk; (focus exact rfl); (focus exact rfl)); (with_unfolding_all focus first | (exact fun w => w) | exact SMap.wf_set _ _ | exact SMap.wf_filter _); (with_unfolding_all focus first | (exact fun w => w) | exact SMap.wf_putBytes _ _ | exact SMap.wf_clearRange _ _ | exact SMap.wf_filter _ | (exact fun w => SMap.wf_foldl_set _ _ _ (SMap.wf_clearRange _ _ w)) | (exact fun _ => SMap.wf_nil' _)); (focus first | exact Nat.le_refl _ | exact Nat.le_succ _ | exact Nat.le_add_right _ _)))
    | apply Keeps.foldl1 | apply Keeps.foldl2 | apply Keeps.ite1 | apply Keeps.ite2
    | refine KeepsP.some_keeps (by assumption) _ _ (by assumption)
    | refine KeepsO.oSome (by assumption) (by assumption) | refine KeepsO.oSome (by assumption) rfl
    | refine KeepsP.some_keeps (by assumption) _ _ rfl | apply KeepsP.map | refine Keeps1.keeps (by assumption)
    | refine Keeps2.keeps (by assumption) | exact KeepsO.none _ | apply KeepsO.some | apply KeepsO.ite
    | apply KeepsO.foldl | exact KeepsP.none _ | apply KeepsP.some | apply KeepsP.ite | apply Keeps1.mk'
    | apply Keeps1.ite | apply Keeps1.foldl | apply Keeps2.mk' | apply Keeps2.ite | apply Keeps2.foldl | intro _ _ _
    | intro _ _ | intro _ | split | (fail_if_no_progress dsimp only) | refine KeepsO.oSome ?_ (by assumption)
    | refine KeepsP.some_keeps ?_ _ _ (by assumption) | refine Keeps1.eq ?_ (by assumption)
    | refine Keeps2.eq ?_ (by assumption)

theorem execResume_keeps {r0_ s : State} {p : BitVec 7} {tag : BitVec 64} (h_ : Keeps r0_ s) : KeepsR r0_ (execResume p tag s) := by
  unfold execResume
  with_reducible repeat' first
    | assumption | apply KeepsR.next | apply State.setReq_keeps | apply State.restoreWalks_keeps
    | ((fail_if_no_progress extract_lets +onlyGivenNames x); first | ((first | refine Keeps.cut (t := x) ?_ ?_ | refine KeepsR.cut (t := x) ?_ ?_); rotate_left; (clear_value x; intro hx); rotate_left; (try subst x)) | clear_value x)
    | split

theorem State.noteStep_keeps {r0_ s : State} {r : Req} (h_ : Keeps r0_ s) : Keeps r0_ (State.noteStep s r) := by
  unfold State.noteStep
  with_reducible repeat' first
    | assumption | apply Keeps.ite | apply Keeps.foldl | apply Keeps.getD
    | ((fail_if_no_progress extract_lets +onlyGivenNames x); first | ((first | refine Keeps.cut (t := x) ?_ ?_ | refine Keeps.cutO (o := x) ?_ ?_ | refine Keeps.cutP (o := x) ?_ ?_ | refine Keeps.cut1 (o := x) ?_ ?_ | refine Keeps.cut2 (o := x) ?_ ?_); rotate_left; (clear_value x; intro hx); rotate_left; (try subst x)) | (have _h := Keeps.memv x; clear _h) | (have _h := Keeps.bytesv x; clear _h) | (have _h := Keeps.fn x; clear _h; dsimp only [x]; clear x) | (have _h := Keeps.fn2 x; clear _h; dsimp only [x]; clear x) | clear_value x)
    | (fail_if_no_progress refine Keeps.upd ?_ ⟨rfl, rfl, rfl, rfl, rfl⟩)
    | (fail_if_no_progress ((apply Keeps.of_mk; (focus exact rfl); (focus exact rfl)); (with_unfolding_all focus first | (exact fun w => w) | exact SMap.wf_set _ _ | exact SMap.wf_filter _); (with_unfolding_all focus first | (exact fun w => w) | exact SMap.wf_putBytes _ _ | exact SMap.wf_clearRange _ _ | exact SMap.wf_filter _ | (exact fun w => SMap.wf_foldl_set _ _ _ (SMap.wf_clearRange _ _ w)) | (exact fun _ => SMap.wf_nil' _)); (focus first | exact Nat.le_refl _ | exact Nat.le_succ _ | exact Nat.le_add_right _ _)))
    | apply Keeps.foldl1 | apply Keeps.foldl2 | apply Keeps.ite1 | apply Keeps.ite2
    | refine KeepsP.some_keeps (by assumption) _ _ (by assumption)
    | refine KeepsO.oSome (by assumption) (by assumption) | refine KeepsO.oSome (by assumption) rfl
    | refine KeepsP.some_keeps (by assumption) _ _ rfl | apply KeepsP.map | refine Keeps1.keeps (by assumption)
    | refine Keeps2.keeps (by assumption) | exact KeepsO.none _ | apply KeepsO.some | apply KeepsO.ite
    | apply KeepsO.foldl | exact KeepsP.none _ | apply KeepsP.some | apply KeepsP.ite | apply Keeps1.mk'
    | apply Keeps1.ite | apply Keeps1.foldl | apply Keeps2.mk' | apply Keeps2.ite | apply Keeps2.foldl | intro _ _ _
    | intro _ _ | intro _ | split | (fail_if_no_progress dsimp only) | refine KeepsO.oSome ?_ (by assumption)
    | refine KeepsP.some_keeps ?_ _ _ (by assumption) | refine Keeps1.eq ?_ (by assumption)
    | refine Keeps2.eq ?_ (by assumption)

theorem State.scoreStep_keeps {r0_ s : State} {r : Req} {masses : List (Nat × Nat × Nat)} (h_ : Keeps r0_ s) : Keeps r0_ (State.scoreStep s r masses) := by
  unfold State.scoreStep
  with_reducible repeat' first
    | assumption | apply Keeps.ite | apply Keeps.foldl | apply Keeps.getD | apply State.kvpUpdate_keeps
    | apply State.readPage_keeps | apply State.issuePromotions_keeps
    | ((fail_if_no_progress extract_lets +onlyGivenNames x); first | ((first | refine Keeps.cut (t := x) ?_ ?_ | refine Keeps.cutO (o := x) ?_ ?_ | refine Keeps.cutP (o := x) ?_ ?_ | refine Keeps.cut1 (o := x) ?_ ?_ | refine Keeps.cut2 (o := x) ?_ ?_); rotate_left; (clear_value x; intro hx); rotate_left; (try subst x)) | (have _h := Keeps.memv x; clear _h) | (have _h := Keeps.bytesv x; clear _h) | (have _h := Keeps.fn x; clear _h; dsimp only [x]; clear x) | (have _h := Keeps.fn2 x; clear _h; dsimp only [x]; clear x) | clear_value x)
    | (fail_if_no_progress refine Keeps.upd ?_ ⟨rfl, rfl, rfl, rfl, rfl⟩)
    | (fail_if_no_progress ((apply Keeps.of_mk; (focus exact rfl); (focus exact rfl)); (with_unfolding_all focus first | (exact fun w => w) | exact SMap.wf_set _ _ | exact SMap.wf_filter _); (with_unfolding_all focus first | (exact fun w => w) | exact SMap.wf_putBytes _ _ | exact SMap.wf_clearRange _ _ | exact SMap.wf_filter _ | (exact fun w => SMap.wf_foldl_set _ _ _ (SMap.wf_clearRange _ _ w)) | (exact fun _ => SMap.wf_nil' _)); (focus first | exact Nat.le_refl _ | exact Nat.le_succ _ | exact Nat.le_add_right _ _)))
    | apply Keeps.foldl1 | apply Keeps.foldl2 | apply Keeps.ite1 | apply Keeps.ite2
    | refine KeepsP.some_keeps (by assumption) _ _ (by assumption)
    | refine KeepsO.oSome (by assumption) (by assumption) | refine KeepsO.oSome (by assumption) rfl
    | refine KeepsP.some_keeps (by assumption) _ _ rfl | apply KeepsP.map | refine Keeps1.keeps (by assumption)
    | refine Keeps2.keeps (by assumption) | exact KeepsO.none _ | apply KeepsO.some | apply KeepsO.ite
    | apply KeepsO.foldl | exact KeepsP.none _ | apply KeepsP.some | apply KeepsP.ite | apply Keeps1.mk'
    | apply Keeps1.ite | apply Keeps1.foldl | apply Keeps2.mk' | apply Keeps2.ite | apply Keeps2.foldl | intro _ _ _
    | intro _ _ | intro _ | split | (fail_if_no_progress dsimp only) | refine KeepsO.oSome ?_ (by assumption)
    | refine KeepsP.some_keeps ?_ _ _ (by assumption) | refine Keeps1.eq ?_ (by assumption)
    | refine Keeps2.eq ?_ (by assumption)

theorem execDecodeStep_keeps {r0_ s : State} {p : BitVec 7} {tag : BitVec 64} {token : BitVec 18} {masses : List (Nat × Nat × Nat)} {ue : Option Nat} (h_ : Keeps r0_ s) : KeepsR r0_ (execDecodeStep p tag token masses ue s) := by
  unfold execDecodeStep
  with_reducible repeat' first
    | assumption | apply KeepsR.next | exact KeepsR.fault _ _ | apply KeepsR.ite | apply Keeps.ite
    | apply Keeps.foldl | apply Keeps.getD | apply State.setReq_keeps | apply State.clearSteps_keeps
    | apply State.finish_keeps | apply State.lineUeFor_keeps | apply State.preempt_keeps
    | apply State.answerToken_keeps1 | refine Keeps1.eq (State.answerToken_keeps1 ?_) (by assumption)
    | refine (State.answerToken_keeps1 ?_).keeps | apply State.noteStep_keeps | apply State.scoreStep_keeps
    | ((fail_if_no_progress extract_lets +onlyGivenNames x); first | ((first | refine Keeps.cut (t := x) ?_ ?_ | refine KeepsR.cut (t := x) ?_ ?_ | refine Keeps.cutO (o := x) ?_ ?_ | refine Keeps.cutP (o := x) ?_ ?_ | refine Keeps.cut1 (o := x) ?_ ?_ | refine Keeps.cut2 (o := x) ?_ ?_); rotate_left; (clear_value x; intro hx); rotate_left; (try subst x)) | (have _h := Keeps.memv x; clear _h) | (have _h := Keeps.bytesv x; clear _h) | (have _h := Keeps.fn x; clear _h; dsimp only [x]; clear x) | (have _h := Keeps.fn2 x; clear _h; dsimp only [x]; clear x) | clear_value x)
    | (fail_if_no_progress refine Keeps.upd ?_ ⟨rfl, rfl, rfl, rfl, rfl⟩)
    | (fail_if_no_progress ((apply Keeps.of_mk; (focus exact rfl); (focus exact rfl)); (with_unfolding_all focus first | (exact fun w => w) | exact SMap.wf_set _ _ | exact SMap.wf_filter _); (with_unfolding_all focus first | (exact fun w => w) | exact SMap.wf_putBytes _ _ | exact SMap.wf_clearRange _ _ | exact SMap.wf_filter _ | (exact fun w => SMap.wf_foldl_set _ _ _ (SMap.wf_clearRange _ _ w)) | (exact fun _ => SMap.wf_nil' _)); (focus first | exact Nat.le_refl _ | exact Nat.le_succ _ | exact Nat.le_add_right _ _)))
    | apply Keeps.foldl1 | apply Keeps.foldl2 | apply Keeps.ite1 | apply Keeps.ite2
    | refine KeepsP.some_keeps (by assumption) _ _ (by assumption)
    | refine KeepsO.oSome (by assumption) (by assumption) | refine KeepsO.oSome (by assumption) rfl
    | refine KeepsP.some_keeps (by assumption) _ _ rfl | apply KeepsP.map | refine Keeps1.keeps (by assumption)
    | refine Keeps2.keeps (by assumption) | exact KeepsO.none _ | apply KeepsO.some | apply KeepsO.ite
    | apply KeepsO.foldl | exact KeepsP.none _ | apply KeepsP.some | apply KeepsP.ite | apply Keeps1.mk'
    | apply Keeps1.ite | apply Keeps1.foldl | apply Keeps2.mk' | apply Keeps2.ite | apply Keeps2.foldl | intro _ _ _
    | intro _ _ | intro _ | split | (fail_if_no_progress dsimp only) | refine KeepsO.oSome ?_ (by assumption)
    | refine KeepsP.some_keeps ?_ _ _ (by assumption) | refine Keeps1.eq ?_ (by assumption)
    | refine Keeps2.eq ?_ (by assumption)

theorem execFinalPass_keeps {r0_ s : State} {p : BitVec 7} {tag : BitVec 64} (h_ : Keeps r0_ s) : KeepsR r0_ (execFinalPass p tag s) := by
  unfold execFinalPass
  with_reducible repeat' first
    | assumption | apply KeepsR.next | exact KeepsR.fault _ _ | apply KeepsR.ite | apply Keeps.ite
    | apply Keeps.foldl | apply Keeps.getD | apply State.emit_keeps | apply State.finish_keeps
    | apply State.indexRequest_keeps | apply State.noteStep_keeps
    | ((fail_if_no_progress extract_lets +onlyGivenNames x); first | ((first | refine Keeps.cut (t := x) ?_ ?_ | refine KeepsR.cut (t := x) ?_ ?_ | refine Keeps.cutO (o := x) ?_ ?_ | refine Keeps.cutP (o := x) ?_ ?_ | refine Keeps.cut1 (o := x) ?_ ?_ | refine Keeps.cut2 (o := x) ?_ ?_); rotate_left; (clear_value x; intro hx); rotate_left; (try subst x)) | (have _h := Keeps.memv x; clear _h) | (have _h := Keeps.bytesv x; clear _h) | (have _h := Keeps.fn x; clear _h; dsimp only [x]; clear x) | (have _h := Keeps.fn2 x; clear _h; dsimp only [x]; clear x) | clear_value x)
    | (fail_if_no_progress refine Keeps.upd ?_ ⟨rfl, rfl, rfl, rfl, rfl⟩)
    | (fail_if_no_progress ((apply Keeps.of_mk; (focus exact rfl); (focus exact rfl)); (with_unfolding_all focus first | (exact fun w => w) | exact SMap.wf_set _ _ | exact SMap.wf_filter _); (with_unfolding_all focus first | (exact fun w => w) | exact SMap.wf_putBytes _ _ | exact SMap.wf_clearRange _ _ | exact SMap.wf_filter _ | (exact fun w => SMap.wf_foldl_set _ _ _ (SMap.wf_clearRange _ _ w)) | (exact fun _ => SMap.wf_nil' _)); (focus first | exact Nat.le_refl _ | exact Nat.le_succ _ | exact Nat.le_add_right _ _)))
    | apply Keeps.foldl1 | apply Keeps.foldl2 | apply Keeps.ite1 | apply Keeps.ite2
    | refine KeepsP.some_keeps (by assumption) _ _ (by assumption)
    | refine KeepsO.oSome (by assumption) (by assumption) | refine KeepsO.oSome (by assumption) rfl
    | refine KeepsP.some_keeps (by assumption) _ _ rfl | apply KeepsP.map | refine Keeps1.keeps (by assumption)
    | refine Keeps2.keeps (by assumption) | exact KeepsO.none _ | apply KeepsO.some | apply KeepsO.ite
    | apply KeepsO.foldl | exact KeepsP.none _ | apply KeepsP.some | apply KeepsP.ite | apply Keeps1.mk'
    | apply Keeps1.ite | apply Keeps1.foldl | apply Keeps2.mk' | apply Keeps2.ite | apply Keeps2.foldl | intro _ _ _
    | intro _ _ | intro _ | split | (fail_if_no_progress dsimp only) | refine KeepsO.oSome ?_ (by assumption)
    | refine KeepsP.some_keeps ?_ _ _ (by assumption) | refine Keeps1.eq ?_ (by assumption)
    | refine Keeps2.eq ?_ (by assumption)

/-! ### Net -/

theorem State.setBundle_keeps {r0_ s : State} {b : Nat} {x : Bundle} (h_ : Keeps r0_ s) : Keeps r0_ (State.setBundle s b x) := by
  unfold State.setBundle
  with_reducible repeat' first
    | assumption | (fail_if_no_progress refine Keeps.upd ?_ ⟨rfl, rfl, rfl, rfl, rfl⟩)

theorem State.toLeaves_keeps {r0_ s : State} {name : String} {args : List Nat} (h_ : Keeps r0_ s) : Keeps r0_ (State.toLeaves s name args) := by
  unfold State.toLeaves
  with_reducible repeat' first
    | assumption | apply Keeps.foldl | apply State.emit_keeps | intro _ _ _

theorem State.takeRotation_keeps {r0_ s : State} {p link near : Nat} (h_ : Keeps r0_ s) : Keeps r0_ (State.takeRotation s p link near) := by
  unfold State.takeRotation
  with_reducible repeat' first
    | assumption | (fail_if_no_progress refine Keeps.upd ?_ ⟨rfl, rfl, rfl, rfl, rfl⟩)

/-! ### Partitions -/

theorem State.takeBoom_keeps {r0_ s : State} {p k n : Nat} (h_ : Keeps r0_ s) : Keeps r0_ (State.takeBoom s p k n) := by
  unfold State.takeBoom
  with_reducible repeat' first
    | assumption | apply Keeps.foldl | apply State.setFld_keeps | intro _ _ _

theorem State.dropUnits_keeps {r0_ s : State} {p : Nat} {h : Held} (h_ : Keeps r0_ s) : Keeps r0_ (State.dropUnits s p h) := by
  unfold State.dropUnits
  with_reducible repeat' first
    | assumption | apply Keeps.foldl | apply State.setFld_keeps | apply State.eraseGroup_keeps
    | apply State.zeroBank_keeps | intro _ _ _

theorem State.claimGroup_keeps {r0_ s : State} {p g : Nat} (h_ : Keeps r0_ s) : Keeps r0_ (State.claimGroup s p g) := by
  unfold State.claimGroup
  with_reducible repeat' first
    | assumption | apply Keeps.ite | apply Keeps.foldl | apply Keeps.getD | apply State.setGroup_keeps
    | apply State.eraseGroup_keeps
    | ((fail_if_no_progress extract_lets +onlyGivenNames x); first | ((first | refine Keeps.cut (t := x) ?_ ?_ | refine Keeps.cutO (o := x) ?_ ?_ | refine Keeps.cutP (o := x) ?_ ?_ | refine Keeps.cut1 (o := x) ?_ ?_ | refine Keeps.cut2 (o := x) ?_ ?_); rotate_left; (clear_value x; intro hx); rotate_left; (try subst x)) | (have _h := Keeps.memv x; clear _h) | (have _h := Keeps.bytesv x; clear _h) | (have _h := Keeps.fn x; clear _h; dsimp only [x]; clear x) | (have _h := Keeps.fn2 x; clear _h; dsimp only [x]; clear x) | clear_value x)
    | (fail_if_no_progress refine Keeps.upd ?_ ⟨rfl, rfl, rfl, rfl, rfl⟩)
    | (fail_if_no_progress ((apply Keeps.of_mk; (focus exact rfl); (focus exact rfl)); (with_unfolding_all focus first | (exact fun w => w) | exact SMap.wf_set _ _ | exact SMap.wf_filter _); (with_unfolding_all focus first | (exact fun w => w) | exact SMap.wf_putBytes _ _ | exact SMap.wf_clearRange _ _ | exact SMap.wf_filter _ | (exact fun w => SMap.wf_foldl_set _ _ _ (SMap.wf_clearRange _ _ w)) | (exact fun _ => SMap.wf_nil' _)); (focus first | exact Nat.le_refl _ | exact Nat.le_succ _ | exact Nat.le_add_right _ _)))
    | apply Keeps.foldl1 | apply Keeps.foldl2 | apply Keeps.ite1 | apply Keeps.ite2
    | refine KeepsP.some_keeps (by assumption) _ _ (by assumption)
    | refine KeepsO.oSome (by assumption) (by assumption) | refine KeepsO.oSome (by assumption) rfl
    | refine KeepsP.some_keeps (by assumption) _ _ rfl | apply KeepsP.map | refine Keeps1.keeps (by assumption)
    | refine Keeps2.keeps (by assumption) | exact KeepsO.none _ | apply KeepsO.some | apply KeepsO.ite
    | apply KeepsO.foldl | exact KeepsP.none _ | apply KeepsP.some | apply KeepsP.ite | apply Keeps1.mk'
    | apply Keeps1.ite | apply Keeps1.foldl | apply Keeps2.mk' | apply Keeps2.ite | apply Keeps2.foldl | intro _ _ _
    | intro _ _ | intro _ | split | (fail_if_no_progress dsimp only) | refine KeepsO.oSome ?_ (by assumption)
    | refine KeepsP.some_keeps ?_ _ _ (by assumption) | refine Keeps1.eq ?_ (by assumption)
    | refine Keeps2.eq ?_ (by assumption)

theorem State.hold_keeps {r0_ s : State} {p : Nat} {h0 : Held} (h_ : Keeps r0_ s) : Keeps r0_ (State.hold s p h0) := by
  unfold State.hold
  with_reducible repeat' first
    | assumption | apply Keeps.ite | apply Keeps.foldl | apply Keeps.getD | apply State.setFld_keeps
    | apply State.setPart_keeps | apply State.planTest_keeps | apply State.dropTest_keeps
    | apply State.claimBank_keeps | apply State.dropLostPlans_keeps | apply State.takeRotation_keeps
    | apply State.takeBoom_keeps | apply State.dropUnits_keeps | apply State.claimGroup_keeps
    | ((fail_if_no_progress extract_lets +onlyGivenNames x); first | ((first | refine Keeps.cut (t := x) ?_ ?_ | refine Keeps.cutO (o := x) ?_ ?_ | refine Keeps.cutP (o := x) ?_ ?_ | refine Keeps.cut1 (o := x) ?_ ?_ | refine Keeps.cut2 (o := x) ?_ ?_); rotate_left; (clear_value x; intro hx); rotate_left; (try subst x)) | (have _h := Keeps.memv x; clear _h) | (have _h := Keeps.bytesv x; clear _h) | (have _h := Keeps.fn x; clear _h; dsimp only [x]; clear x) | (have _h := Keeps.fn2 x; clear _h; dsimp only [x]; clear x) | clear_value x)
    | (fail_if_no_progress refine Keeps.upd ?_ ⟨rfl, rfl, rfl, rfl, rfl⟩)
    | (fail_if_no_progress ((apply Keeps.of_mk; (focus exact rfl); (focus exact rfl)); (with_unfolding_all focus first | (exact fun w => w) | exact SMap.wf_set _ _ | exact SMap.wf_filter _); (with_unfolding_all focus first | (exact fun w => w) | exact SMap.wf_putBytes _ _ | exact SMap.wf_clearRange _ _ | exact SMap.wf_filter _ | (exact fun w => SMap.wf_foldl_set _ _ _ (SMap.wf_clearRange _ _ w)) | (exact fun _ => SMap.wf_nil' _)); (focus first | exact Nat.le_refl _ | exact Nat.le_succ _ | exact Nat.le_add_right _ _)))
    | apply Keeps.foldl1 | apply Keeps.foldl2 | apply Keeps.ite1 | apply Keeps.ite2
    | refine KeepsP.some_keeps (by assumption) _ _ (by assumption)
    | refine KeepsO.oSome (by assumption) (by assumption) | refine KeepsO.oSome (by assumption) rfl
    | refine KeepsP.some_keeps (by assumption) _ _ rfl | apply KeepsP.map | refine Keeps1.keeps (by assumption)
    | refine Keeps2.keeps (by assumption) | exact KeepsO.none _ | apply KeepsO.some | apply KeepsO.ite
    | apply KeepsO.foldl | exact KeepsP.none _ | apply KeepsP.some | apply KeepsP.ite | apply Keeps1.mk'
    | apply Keeps1.ite | apply Keeps1.foldl | apply Keeps2.mk' | apply Keeps2.ite | apply Keeps2.foldl | intro _ _ _
    | intro _ _ | intro _ | split | (fail_if_no_progress dsimp only) | refine KeepsO.oSome ?_ (by assumption)
    | refine KeepsP.some_keeps ?_ _ _ (by assumption) | refine Keeps1.eq ?_ (by assumption)
    | refine Keeps2.eq ?_ (by assumption)

theorem State.sendShare_keeps {r0_ s : State} {p : Nat} (h_ : Keeps r0_ s) : Keeps r0_ (State.sendShare s p) := by
  unfold State.sendShare
  with_reducible repeat' first
    | assumption | apply Keeps.ite | apply State.toLeaves_keeps

theorem State.keygen_keeps {r0_ s : State} {p : Nat} (h_ : Keeps r0_ s) : Keeps r0_ (State.keygen s p) := by
  unfold State.keygen
  with_reducible repeat' first
    | assumption | apply State.inc_keeps | apply State.setPart_keeps

theorem State.refuseDeferred_keeps {r0_ s : State} {p : Nat} (h_ : Keeps r0_ s) : Keeps r0_ (State.refuseDeferred s p) := by
  unfold State.refuseDeferred
  with_reducible repeat' first
    | assumption | apply Keeps.foldl | apply State.finish_keeps | intro _ _ _

theorem State.resetReq_keeps {r0_ s : State} {r : Req} (h_ : Keeps r0_ s) : Keeps r0_ (State.resetReq s r) := by
  unfold State.resetReq
  with_reducible repeat' first
    | assumption | apply Keeps.ite | apply State.setReq_keeps | apply State.finish_keeps

theorem State.stopAll_keeps {r0_ s : State} {p : Nat} {c : RingCause} (h_ : Keeps r0_ s) : Keeps r0_ (State.stopAll s p c) := by
  unfold State.stopAll
  with_reducible repeat' first
    | assumption | apply Keeps.foldl | apply State.dropReq_keeps
    | (fail_if_no_progress refine Keeps.upd ?_ ⟨rfl, rfl, rfl, rfl, rfl⟩) | intro _ _ _

theorem State.releaseOwned_keeps {r0_ s : State} {p : Nat} (h_ : Keeps r0_ s) : Keeps r0_ (State.releaseOwned s p) := by
  unfold State.releaseOwned
  with_reducible repeat' first
    | assumption | apply Keeps.foldl | apply State.removeNodes_keeps | apply State.releaseModel_keeps
    | (fail_if_no_progress ((apply Keeps.of_mk; (focus exact rfl); (focus exact rfl)); (with_unfolding_all focus first | (exact fun w => w) | exact SMap.wf_set _ _ | exact SMap.wf_filter _); (with_unfolding_all focus first | (exact fun w => w) | exact SMap.wf_putBytes _ _ | exact SMap.wf_clearRange _ _ | exact SMap.wf_filter _ | (exact fun w => SMap.wf_foldl_set _ _ _ (SMap.wf_clearRange _ _ w)) | (exact fun _ => SMap.wf_nil' _)); (focus first | exact Nat.le_refl _ | exact Nat.le_succ _ | exact Nat.le_add_right _ _)))

theorem State.uncharge_keeps {r0_ s : State} {p : Nat} (h_ : Keeps r0_ s) : Keeps r0_ (State.uncharge s p) := by
  unfold State.uncharge
  with_reducible repeat' first
    | assumption | apply Keeps.ite | apply Keeps.foldl | apply Keeps.getD
    | ((fail_if_no_progress extract_lets +onlyGivenNames x); first | ((first | refine Keeps.cut (t := x) ?_ ?_ | refine Keeps.cutO (o := x) ?_ ?_ | refine Keeps.cutP (o := x) ?_ ?_ | refine Keeps.cut1 (o := x) ?_ ?_ | refine Keeps.cut2 (o := x) ?_ ?_); rotate_left; (clear_value x; intro hx); rotate_left; (try subst x)) | (have _h := Keeps.memv x; clear _h) | (have _h := Keeps.bytesv x; clear _h) | (have _h := Keeps.fn x; clear _h; dsimp only [x]; clear x) | (have _h := Keeps.fn2 x; clear _h; dsimp only [x]; clear x) | clear_value x)
    | (fail_if_no_progress refine Keeps.upd ?_ ⟨rfl, rfl, rfl, rfl, rfl⟩)
    | (fail_if_no_progress ((apply Keeps.of_mk; (focus exact rfl); (focus exact rfl)); (with_unfolding_all focus first | (exact fun w => w) | exact SMap.wf_set _ _ | exact SMap.wf_filter _); (with_unfolding_all focus first | (exact fun w => w) | exact SMap.wf_putBytes _ _ | exact SMap.wf_clearRange _ _ | exact SMap.wf_filter _ | (exact fun w => SMap.wf_foldl_set _ _ _ (SMap.wf_clearRange _ _ w)) | (exact fun _ => SMap.wf_nil' _)); (focus first | exact Nat.le_refl _ | exact Nat.le_succ _ | exact Nat.le_add_right _ _)))
    | apply Keeps.foldl1 | apply Keeps.foldl2 | apply Keeps.ite1 | apply Keeps.ite2
    | refine KeepsP.some_keeps (by assumption) _ _ (by assumption)
    | refine KeepsO.oSome (by assumption) (by assumption) | refine KeepsO.oSome (by assumption) rfl
    | refine KeepsP.some_keeps (by assumption) _ _ rfl | apply KeepsP.map | refine Keeps1.keeps (by assumption)
    | refine Keeps2.keeps (by assumption) | exact KeepsO.none _ | apply KeepsO.some | apply KeepsO.ite
    | apply KeepsO.foldl | exact KeepsP.none _ | apply KeepsP.some | apply KeepsP.ite | apply Keeps1.mk'
    | apply Keeps1.ite | apply Keeps1.foldl | apply Keeps2.mk' | apply Keeps2.ite | apply Keeps2.foldl | intro _ _ _
    | intro _ _ | intro _ | split | (fail_if_no_progress dsimp only) | refine KeepsO.oSome ?_ (by assumption)
    | refine KeepsP.some_keeps ?_ _ _ (by assumption) | refine Keeps1.eq ?_ (by assumption)
    | refine Keeps2.eq ?_ (by assumption)

theorem State.destroyKeys_keeps {r0_ s : State} {p : Nat} {flr : Bool} (h_ : Keeps r0_ s) : Keeps r0_ (State.destroyKeys s p flr) := by
  unfold State.destroyKeys
  with_reducible repeat' first
    | assumption | apply Keeps.ite | apply Keeps.foldl | apply Keeps.getD | apply State.setPart_keeps
    | ((fail_if_no_progress extract_lets +onlyGivenNames x); first | ((first | refine Keeps.cut (t := x) ?_ ?_ | refine Keeps.cutO (o := x) ?_ ?_ | refine Keeps.cutP (o := x) ?_ ?_ | refine Keeps.cut1 (o := x) ?_ ?_ | refine Keeps.cut2 (o := x) ?_ ?_); rotate_left; (clear_value x; intro hx); rotate_left; (try subst x)) | (have _h := Keeps.memv x; clear _h) | (have _h := Keeps.bytesv x; clear _h) | (have _h := Keeps.fn x; clear _h; dsimp only [x]; clear x) | (have _h := Keeps.fn2 x; clear _h; dsimp only [x]; clear x) | clear_value x)
    | (fail_if_no_progress refine Keeps.upd ?_ ⟨rfl, rfl, rfl, rfl, rfl⟩)
    | (fail_if_no_progress ((apply Keeps.of_mk; (focus exact rfl); (focus exact rfl)); (with_unfolding_all focus first | (exact fun w => w) | exact SMap.wf_set _ _ | exact SMap.wf_filter _); (with_unfolding_all focus first | (exact fun w => w) | exact SMap.wf_putBytes _ _ | exact SMap.wf_clearRange _ _ | exact SMap.wf_filter _ | (exact fun w => SMap.wf_foldl_set _ _ _ (SMap.wf_clearRange _ _ w)) | (exact fun _ => SMap.wf_nil' _)); (focus first | exact Nat.le_refl _ | exact Nat.le_succ _ | exact Nat.le_add_right _ _)))
    | apply Keeps.foldl1 | apply Keeps.foldl2 | apply Keeps.ite1 | apply Keeps.ite2
    | refine KeepsP.some_keeps (by assumption) _ _ (by assumption)
    | refine KeepsO.oSome (by assumption) (by assumption) | refine KeepsO.oSome (by assumption) rfl
    | refine KeepsP.some_keeps (by assumption) _ _ rfl | apply KeepsP.map | refine Keeps1.keeps (by assumption)
    | refine Keeps2.keeps (by assumption) | exact KeepsO.none _ | apply KeepsO.some | apply KeepsO.ite
    | apply KeepsO.foldl | exact KeepsP.none _ | apply KeepsP.some | apply KeepsP.ite | apply Keeps1.mk'
    | apply Keeps1.ite | apply Keeps1.foldl | apply Keeps2.mk' | apply Keeps2.ite | apply Keeps2.foldl | intro _ _ _
    | intro _ _ | intro _ | split | (fail_if_no_progress dsimp only) | refine KeepsO.oSome ?_ (by assumption)
    | refine KeepsP.some_keeps ?_ _ _ (by assumption) | refine Keeps1.eq ?_ (by assumption)
    | refine Keeps2.eq ?_ (by assumption)

theorem State.dropBursts_keeps {r0_ s : State} {p : Nat} (h_ : Keeps r0_ s) : Keeps r0_ (State.dropBursts s p) := by
  unfold State.dropBursts
  with_reducible repeat' first
    | assumption | apply Keeps.foldl | apply State.freeScrub_keeps
    | (fail_if_no_progress refine Keeps.upd ?_ ⟨rfl, rfl, rfl, rfl, rfl⟩)

theorem State.beginRelease_keeps {r0_ s : State} {p : Nat} (h_ : Keeps r0_ s) : Keeps r0_ (State.beginRelease s p) := by
  unfold State.beginRelease
  with_reducible repeat' first
    | assumption | apply Keeps.ite | apply Keeps.foldl | apply Keeps.getD | apply State.setBit_keeps
    | apply State.setPState_keeps | apply State.kvpUpdate_keeps | apply State.release_keeps
    | apply State.stopAll_keeps | apply State.releaseOwned_keeps | apply State.uncharge_keeps
    | apply State.destroyKeys_keeps | apply State.dropBursts_keeps
    | ((fail_if_no_progress extract_lets +onlyGivenNames x); first | ((first | refine Keeps.cut (t := x) ?_ ?_ | refine Keeps.cutO (o := x) ?_ ?_ | refine Keeps.cutP (o := x) ?_ ?_ | refine Keeps.cut1 (o := x) ?_ ?_ | refine Keeps.cut2 (o := x) ?_ ?_); rotate_left; (clear_value x; intro hx); rotate_left; (try subst x)) | (have _h := Keeps.memv x; clear _h) | (have _h := Keeps.bytesv x; clear _h) | (have _h := Keeps.fn x; clear _h; dsimp only [x]; clear x) | (have _h := Keeps.fn2 x; clear _h; dsimp only [x]; clear x) | clear_value x)
    | (fail_if_no_progress refine Keeps.upd ?_ ⟨rfl, rfl, rfl, rfl, rfl⟩)
    | (fail_if_no_progress ((apply Keeps.of_mk; (focus exact rfl); (focus exact rfl)); (with_unfolding_all focus first | (exact fun w => w) | exact SMap.wf_set _ _ | exact SMap.wf_filter _); (with_unfolding_all focus first | (exact fun w => w) | exact SMap.wf_putBytes _ _ | exact SMap.wf_clearRange _ _ | exact SMap.wf_filter _ | (exact fun w => SMap.wf_foldl_set _ _ _ (SMap.wf_clearRange _ _ w)) | (exact fun _ => SMap.wf_nil' _)); (focus first | exact Nat.le_refl _ | exact Nat.le_succ _ | exact Nat.le_add_right _ _)))
    | apply Keeps.foldl1 | apply Keeps.foldl2 | apply Keeps.ite1 | apply Keeps.ite2
    | refine KeepsP.some_keeps (by assumption) _ _ (by assumption)
    | refine KeepsO.oSome (by assumption) (by assumption) | refine KeepsO.oSome (by assumption) rfl
    | refine KeepsP.some_keeps (by assumption) _ _ rfl | apply KeepsP.map | refine Keeps1.keeps (by assumption)
    | refine Keeps2.keeps (by assumption) | exact KeepsO.none _ | apply KeepsO.some | apply KeepsO.ite
    | apply KeepsO.foldl | exact KeepsP.none _ | apply KeepsP.some | apply KeepsP.ite | apply Keeps1.mk'
    | apply Keeps1.ite | apply Keeps1.foldl | apply Keeps2.mk' | apply Keeps2.ite | apply Keeps2.foldl | intro _ _ _
    | intro _ _ | intro _ | split | (fail_if_no_progress dsimp only) | refine KeepsO.oSome ?_ (by assumption)
    | refine KeepsP.some_keeps ?_ _ _ (by assumption) | refine Keeps1.eq ?_ (by assumption)
    | refine Keeps2.eq ?_ (by assumption)

theorem State.writePrtCmd_keeps {r0_ s : State} {p : Nat} {v : Word} (h_ : Keeps r0_ s) : Keeps r0_ (State.writePrtCmd s p v) := by
  unfold State.writePrtCmd
  with_reducible repeat' first
    | assumption | apply Keeps.ite | apply Keeps.foldl | apply Keeps.getD | apply State.setBit_keeps
    | apply State.setPart_keeps | apply State.setLastErr_keeps | apply State.setPState_keeps
    | apply State.kvpUpdate_keeps | apply State.leavesFree_keeps | apply State.xspliceUpdate_keeps
    | apply State.hold_keeps | apply State.sendShare_keeps | apply State.keygen_keeps
    | apply State.refuseDeferred_keeps | apply State.resetReq_keeps | apply State.beginRelease_keeps
    | ((fail_if_no_progress extract_lets +onlyGivenNames x); first | ((first | refine Keeps.cut (t := x) ?_ ?_ | refine Keeps.cutO (o := x) ?_ ?_ | refine Keeps.cutP (o := x) ?_ ?_ | refine Keeps.cut1 (o := x) ?_ ?_ | refine Keeps.cut2 (o := x) ?_ ?_); rotate_left; (clear_value x; intro hx); rotate_left; (try subst x)) | (have _h := Keeps.memv x; clear _h) | (have _h := Keeps.bytesv x; clear _h) | (have _h := Keeps.fn x; clear _h; dsimp only [x]; clear x) | (have _h := Keeps.fn2 x; clear _h; dsimp only [x]; clear x) | clear_value x)
    | (fail_if_no_progress refine Keeps.upd ?_ ⟨rfl, rfl, rfl, rfl, rfl⟩)
    | (fail_if_no_progress ((apply Keeps.of_mk; (focus exact rfl); (focus exact rfl)); (with_unfolding_all focus first | (exact fun w => w) | exact SMap.wf_set _ _ | exact SMap.wf_filter _); (with_unfolding_all focus first | (exact fun w => w) | exact SMap.wf_putBytes _ _ | exact SMap.wf_clearRange _ _ | exact SMap.wf_filter _ | (exact fun w => SMap.wf_foldl_set _ _ _ (SMap.wf_clearRange _ _ w)) | (exact fun _ => SMap.wf_nil' _)); (focus first | exact Nat.le_refl _ | exact Nat.le_succ _ | exact Nat.le_add_right _ _)))
    | apply Keeps.foldl1 | apply Keeps.foldl2 | apply Keeps.ite1 | apply Keeps.ite2
    | refine KeepsP.some_keeps (by assumption) _ _ (by assumption)
    | refine KeepsO.oSome (by assumption) (by assumption) | refine KeepsO.oSome (by assumption) rfl
    | refine KeepsP.some_keeps (by assumption) _ _ rfl | apply KeepsP.map | refine Keeps1.keeps (by assumption)
    | refine Keeps2.keeps (by assumption) | exact KeepsO.none _ | apply KeepsO.some | apply KeepsO.ite
    | apply KeepsO.foldl | exact KeepsP.none _ | apply KeepsP.some | apply KeepsP.ite | apply Keeps1.mk'
    | apply Keeps1.ite | apply Keeps1.foldl | apply Keeps2.mk' | apply Keeps2.ite | apply Keeps2.foldl | intro _ _ _
    | intro _ _ | intro _ | split | (fail_if_no_progress dsimp only) | refine KeepsO.oSome ?_ (by assumption)
    | refine KeepsP.some_keeps ?_ _ _ (by assumption) | refine Keeps1.eq ?_ (by assumption)
    | refine Keeps2.eq ?_ (by assumption)

theorem State.prtNow_keeps {r0_ s : State} {m : Master} {p : Nat} {be : BitVec 4} {op : Nat} (h_ : Keeps r0_ s) : Keeps r0_ (State.prtNow s m p be op) := by
  unfold State.prtNow
  with_reducible repeat' first
    | assumption | apply Keeps.ite | apply Keeps.foldl | apply Keeps.getD | apply State.gated_keeps
    | apply State.writePrtCmd_keeps
    | ((fail_if_no_progress extract_lets +onlyGivenNames x); first | ((first | refine Keeps.cut (t := x) ?_ ?_ | refine Keeps.cutO (o := x) ?_ ?_ | refine Keeps.cutP (o := x) ?_ ?_ | refine Keeps.cut1 (o := x) ?_ ?_ | refine Keeps.cut2 (o := x) ?_ ?_); rotate_left; (clear_value x; intro hx); rotate_left; (try subst x)) | (have _h := Keeps.memv x; clear _h) | (have _h := Keeps.bytesv x; clear _h) | (have _h := Keeps.fn x; clear _h; dsimp only [x]; clear x) | (have _h := Keeps.fn2 x; clear _h; dsimp only [x]; clear x) | clear_value x)
    | (fail_if_no_progress refine Keeps.upd ?_ ⟨rfl, rfl, rfl, rfl, rfl⟩)
    | (fail_if_no_progress ((apply Keeps.of_mk; (focus exact rfl); (focus exact rfl)); (with_unfolding_all focus first | (exact fun w => w) | exact SMap.wf_set _ _ | exact SMap.wf_filter _); (with_unfolding_all focus first | (exact fun w => w) | exact SMap.wf_putBytes _ _ | exact SMap.wf_clearRange _ _ | exact SMap.wf_filter _ | (exact fun w => SMap.wf_foldl_set _ _ _ (SMap.wf_clearRange _ _ w)) | (exact fun _ => SMap.wf_nil' _)); (focus first | exact Nat.le_refl _ | exact Nat.le_succ _ | exact Nat.le_add_right _ _)))
    | apply Keeps.foldl1 | apply Keeps.foldl2 | apply Keeps.ite1 | apply Keeps.ite2
    | refine KeepsP.some_keeps (by assumption) _ _ (by assumption)
    | refine KeepsO.oSome (by assumption) (by assumption) | refine KeepsO.oSome (by assumption) rfl
    | refine KeepsP.some_keeps (by assumption) _ _ rfl | apply KeepsP.map | refine Keeps1.keeps (by assumption)
    | refine Keeps2.keeps (by assumption) | exact KeepsO.none _ | apply KeepsO.some | apply KeepsO.ite
    | apply KeepsO.foldl | exact KeepsP.none _ | apply KeepsP.some | apply KeepsP.ite | apply Keeps1.mk'
    | apply Keeps1.ite | apply Keeps1.foldl | apply Keeps2.mk' | apply Keeps2.ite | apply Keeps2.foldl | intro _ _ _
    | intro _ _ | intro _ | split | (fail_if_no_progress dsimp only) | refine KeepsO.oSome ?_ (by assumption)
    | refine KeepsP.some_keeps ?_ _ _ (by assumption) | refine Keeps1.eq ?_ (by assumption)
    | refine Keeps2.eq ?_ (by assumption)

theorem State.prtLater_keeps {r0_ s : State}  (h_ : Keeps r0_ s) : Keeps r0_ (State.prtLater s) := by
  unfold State.prtLater
  with_reducible repeat' first
    | assumption | apply Keeps.ite | apply Keeps.foldl | apply Keeps.getD | apply State.setPart_keeps
    | apply State.prtNow_keeps
    | ((fail_if_no_progress extract_lets +onlyGivenNames x); first | ((first | refine Keeps.cut (t := x) ?_ ?_ | refine Keeps.cutO (o := x) ?_ ?_ | refine Keeps.cutP (o := x) ?_ ?_ | refine Keeps.cut1 (o := x) ?_ ?_ | refine Keeps.cut2 (o := x) ?_ ?_); rotate_left; (clear_value x; intro hx); rotate_left; (try subst x)) | (have _h := Keeps.memv x; clear _h) | (have _h := Keeps.bytesv x; clear _h) | (have _h := Keeps.fn x; clear _h; dsimp only [x]; clear x) | (have _h := Keeps.fn2 x; clear _h; dsimp only [x]; clear x) | clear_value x)
    | (fail_if_no_progress refine Keeps.upd ?_ ⟨rfl, rfl, rfl, rfl, rfl⟩)
    | (fail_if_no_progress ((apply Keeps.of_mk; (focus exact rfl); (focus exact rfl)); (with_unfolding_all focus first | (exact fun w => w) | exact SMap.wf_set _ _ | exact SMap.wf_filter _); (with_unfolding_all focus first | (exact fun w => w) | exact SMap.wf_putBytes _ _ | exact SMap.wf_clearRange _ _ | exact SMap.wf_filter _ | (exact fun w => SMap.wf_foldl_set _ _ _ (SMap.wf_clearRange _ _ w)) | (exact fun _ => SMap.wf_nil' _)); (focus first | exact Nat.le_refl _ | exact Nat.le_succ _ | exact Nat.le_add_right _ _)))
    | apply Keeps.foldl1 | apply Keeps.foldl2 | apply Keeps.ite1 | apply Keeps.ite2
    | refine KeepsP.some_keeps (by assumption) _ _ (by assumption)
    | refine KeepsO.oSome (by assumption) (by assumption) | refine KeepsO.oSome (by assumption) rfl
    | refine KeepsP.some_keeps (by assumption) _ _ rfl | apply KeepsP.map | refine Keeps1.keeps (by assumption)
    | refine Keeps2.keeps (by assumption) | exact KeepsO.none _ | apply KeepsO.some | apply KeepsO.ite
    | apply KeepsO.foldl | exact KeepsP.none _ | apply KeepsP.some | apply KeepsP.ite | apply Keeps1.mk'
    | apply Keeps1.ite | apply Keeps1.foldl | apply Keeps2.mk' | apply Keeps2.ite | apply Keeps2.foldl | intro _ _ _
    | intro _ _ | intro _ | split | (fail_if_no_progress dsimp only) | refine KeepsO.oSome ?_ (by assumption)
    | refine KeepsP.some_keeps ?_ _ _ (by assumption) | refine Keeps1.eq ?_ (by assumption)
    | refine Keeps2.eq ?_ (by assumption)

theorem State.prtCommand_keeps {r0_ s : State} {m : Master} {p : BitVec 7} {be : BitVec 4} {op : Nat} (h_ : Keeps r0_ s) : Keeps r0_ (State.prtCommand s m p be op) := by
  unfold State.prtCommand
  with_reducible repeat' first
    | assumption | apply Keeps.ite | apply Keeps.foldl | apply Keeps.getD | apply State.setPart_keeps
    | apply State.prtNow_keeps | apply State.prtLater_keeps
    | ((fail_if_no_progress extract_lets +onlyGivenNames x); first | ((first | refine Keeps.cut (t := x) ?_ ?_ | refine Keeps.cutO (o := x) ?_ ?_ | refine Keeps.cutP (o := x) ?_ ?_ | refine Keeps.cut1 (o := x) ?_ ?_ | refine Keeps.cut2 (o := x) ?_ ?_); rotate_left; (clear_value x; intro hx); rotate_left; (try subst x)) | (have _h := Keeps.memv x; clear _h) | (have _h := Keeps.bytesv x; clear _h) | (have _h := Keeps.fn x; clear _h; dsimp only [x]; clear x) | (have _h := Keeps.fn2 x; clear _h; dsimp only [x]; clear x) | clear_value x)
    | (fail_if_no_progress refine Keeps.upd ?_ ⟨rfl, rfl, rfl, rfl, rfl⟩)
    | (fail_if_no_progress ((apply Keeps.of_mk; (focus exact rfl); (focus exact rfl)); (with_unfolding_all focus first | (exact fun w => w) | exact SMap.wf_set _ _ | exact SMap.wf_filter _); (with_unfolding_all focus first | (exact fun w => w) | exact SMap.wf_putBytes _ _ | exact SMap.wf_clearRange _ _ | exact SMap.wf_filter _ | (exact fun w => SMap.wf_foldl_set _ _ _ (SMap.wf_clearRange _ _ w)) | (exact fun _ => SMap.wf_nil' _)); (focus first | exact Nat.le_refl _ | exact Nat.le_succ _ | exact Nat.le_add_right _ _)))
    | apply Keeps.foldl1 | apply Keeps.foldl2 | apply Keeps.ite1 | apply Keeps.ite2
    | refine KeepsP.some_keeps (by assumption) _ _ (by assumption)
    | refine KeepsO.oSome (by assumption) (by assumption) | refine KeepsO.oSome (by assumption) rfl
    | refine KeepsP.some_keeps (by assumption) _ _ rfl | apply KeepsP.map | refine Keeps1.keeps (by assumption)
    | refine Keeps2.keeps (by assumption) | exact KeepsO.none _ | apply KeepsO.some | apply KeepsO.ite
    | apply KeepsO.foldl | exact KeepsP.none _ | apply KeepsP.some | apply KeepsP.ite | apply Keeps1.mk'
    | apply Keeps1.ite | apply Keeps1.foldl | apply Keeps2.mk' | apply Keeps2.ite | apply Keeps2.foldl | intro _ _ _
    | intro _ _ | intro _ | split | (fail_if_no_progress dsimp only) | refine KeepsO.oSome ?_ (by assumption)
    | refine KeepsP.some_keeps ?_ _ _ (by assumption) | refine Keeps1.eq ?_ (by assumption)
    | refine Keeps2.eq ?_ (by assumption)

theorem execAssign_keeps {r0_ s : State} {m : Master} {p : BitVec 7} {be : BitVec 4} (h_ : Keeps r0_ s) : KeepsR r0_ (execAssign m p be s) := by
  unfold execAssign
  with_reducible repeat' first
    | assumption | apply KeepsR.next | apply State.prtCommand_keeps

theorem execCommit_keeps {r0_ s : State} {m : Master} {p : BitVec 7} {be : BitVec 4} (h_ : Keeps r0_ s) : KeepsR r0_ (execCommit m p be s) := by
  unfold execCommit
  with_reducible repeat' first
    | assumption | apply KeepsR.next | apply State.prtCommand_keeps

theorem execDrain_keeps {r0_ s : State} {m : Master} {p : BitVec 7} {be : BitVec 4} (h_ : Keeps r0_ s) : KeepsR r0_ (execDrain m p be s) := by
  unfold execDrain
  with_reducible repeat' first
    | assumption | apply KeepsR.next | apply State.prtCommand_keeps

theorem execReset_keeps {r0_ s : State} {m : Master} {p : BitVec 7} {be : BitVec 4} (h_ : Keeps r0_ s) : KeepsR r0_ (execReset m p be s) := by
  unfold execReset
  with_reducible repeat' first
    | assumption | apply KeepsR.next | apply State.prtCommand_keeps

theorem execRelease_keeps {r0_ s : State} {m : Master} {p : BitVec 7} {be : BitVec 4} (h_ : Keeps r0_ s) : KeepsR r0_ (execRelease m p be s) := by
  unfold execRelease
  with_reducible repeat' first
    | assumption | apply KeepsR.next | apply State.prtCommand_keeps

theorem execDrainDone_keeps {r0_ s : State} {p : BitVec 7} (h_ : Keeps r0_ s) : KeepsR r0_ (execDrainDone p s) := by
  unfold execDrainDone
  with_reducible repeat' first
    | assumption | apply KeepsR.next | apply State.setPState_keeps | split

theorem execResetDone_keeps {r0_ s : State} {p : BitVec 7} (h_ : Keeps r0_ s) : KeepsR r0_ (execResetDone p s) := by
  unfold execResetDone
  with_reducible repeat' first
    | assumption | apply KeepsR.next | apply State.setPState_keeps | split

theorem execTeardownComplete_keeps {r0_ s : State} {p : BitVec 7} (h_ : Keeps r0_ s) : KeepsR r0_ (execTeardownComplete p s) := by
  unfold execTeardownComplete
  with_reducible repeat' first
    | assumption | apply KeepsR.next | exact KeepsR.fault _ _ | apply KeepsR.ite | apply Keeps.ite
    | apply Keeps.foldl | apply Keeps.getD | apply State.resetKeys_keeps | apply State.setBit_keeps
    | apply State.setPart_keeps | apply State.setLastErr_keeps | apply State.setPState_keeps
    | apply State.kvpUpdate_keeps | apply State.garble_keeps | apply State.entersFree_keeps | apply State.hold_keeps
    | apply State.keygen_keeps
    | ((fail_if_no_progress extract_lets +onlyGivenNames x); first | ((first | refine Keeps.cut (t := x) ?_ ?_ | refine KeepsR.cut (t := x) ?_ ?_ | refine Keeps.cutO (o := x) ?_ ?_ | refine Keeps.cutP (o := x) ?_ ?_ | refine Keeps.cut1 (o := x) ?_ ?_ | refine Keeps.cut2 (o := x) ?_ ?_); rotate_left; (clear_value x; intro hx); rotate_left; (try subst x)) | (have _h := Keeps.memv x; clear _h) | (have _h := Keeps.bytesv x; clear _h) | (have _h := Keeps.fn x; clear _h; dsimp only [x]; clear x) | (have _h := Keeps.fn2 x; clear _h; dsimp only [x]; clear x) | clear_value x)
    | (fail_if_no_progress refine Keeps.upd ?_ ⟨rfl, rfl, rfl, rfl, rfl⟩)
    | (fail_if_no_progress ((apply Keeps.of_mk; (focus exact rfl); (focus exact rfl)); (with_unfolding_all focus first | (exact fun w => w) | exact SMap.wf_set _ _ | exact SMap.wf_filter _); (with_unfolding_all focus first | (exact fun w => w) | exact SMap.wf_putBytes _ _ | exact SMap.wf_clearRange _ _ | exact SMap.wf_filter _ | (exact fun w => SMap.wf_foldl_set _ _ _ (SMap.wf_clearRange _ _ w)) | (exact fun _ => SMap.wf_nil' _)); (focus first | exact Nat.le_refl _ | exact Nat.le_succ _ | exact Nat.le_add_right _ _)))
    | apply Keeps.foldl1 | apply Keeps.foldl2 | apply Keeps.ite1 | apply Keeps.ite2
    | refine KeepsP.some_keeps (by assumption) _ _ (by assumption)
    | refine KeepsO.oSome (by assumption) (by assumption) | refine KeepsO.oSome (by assumption) rfl
    | refine KeepsP.some_keeps (by assumption) _ _ rfl | apply KeepsP.map | refine Keeps1.keeps (by assumption)
    | refine Keeps2.keeps (by assumption) | exact KeepsO.none _ | apply KeepsO.some | apply KeepsO.ite
    | apply KeepsO.foldl | exact KeepsP.none _ | apply KeepsP.some | apply KeepsP.ite | apply Keeps1.mk'
    | apply Keeps1.ite | apply Keeps1.foldl | apply Keeps2.mk' | apply Keeps2.ite | apply Keeps2.foldl | intro _ _ _
    | intro _ _ | intro _ | split | (fail_if_no_progress dsimp only) | refine KeepsO.oSome ?_ (by assumption)
    | refine KeepsP.some_keeps ?_ _ _ (by assumption) | refine Keeps1.eq ?_ (by assumption)
    | refine Keeps2.eq ?_ (by assumption)

theorem execKeyFail_keeps {r0_ s : State} {p : BitVec 7} (h_ : Keeps r0_ s) : KeepsR r0_ (execKeyFail p s) := by
  unfold execKeyFail
  with_reducible repeat' first
    | assumption | apply KeepsR.next | apply State.latch_keeps | apply State.setPart_keeps | split

theorem execScrubComplete_keeps {r0_ s : State} {frame : Nat} {ok : Bool} (h_ : Keeps r0_ s) : KeepsR r0_ (execScrubComplete frame ok s) := by
  unfold execScrubComplete
  with_reducible repeat' first
    | assumption | apply KeepsR.next | exact KeepsR.fault _ _ | apply KeepsR.ite | apply Keeps.ite
    | apply Keeps.foldl | apply Keeps.getD | apply State.chosen_keeps | apply State.latch_keeps
    | apply State.kvpUpdate_keeps | apply State.touchHold_keeps | apply State.retireFrame_keeps
    | ((fail_if_no_progress extract_lets +onlyGivenNames x); first | ((first | refine Keeps.cut (t := x) ?_ ?_ | refine KeepsR.cut (t := x) ?_ ?_ | refine Keeps.cutO (o := x) ?_ ?_ | refine Keeps.cutP (o := x) ?_ ?_ | refine Keeps.cut1 (o := x) ?_ ?_ | refine Keeps.cut2 (o := x) ?_ ?_); rotate_left; (clear_value x; intro hx); rotate_left; (try subst x)) | (have _h := Keeps.memv x; clear _h) | (have _h := Keeps.bytesv x; clear _h) | (have _h := Keeps.fn x; clear _h; dsimp only [x]; clear x) | (have _h := Keeps.fn2 x; clear _h; dsimp only [x]; clear x) | clear_value x)
    | (fail_if_no_progress refine Keeps.upd ?_ ⟨rfl, rfl, rfl, rfl, rfl⟩)
    | (fail_if_no_progress ((apply Keeps.of_mk; (focus exact rfl); (focus exact rfl)); (with_unfolding_all focus first | (exact fun w => w) | exact SMap.wf_set _ _ | exact SMap.wf_filter _); (with_unfolding_all focus first | (exact fun w => w) | exact SMap.wf_putBytes _ _ | exact SMap.wf_clearRange _ _ | exact SMap.wf_filter _ | (exact fun w => SMap.wf_foldl_set _ _ _ (SMap.wf_clearRange _ _ w)) | (exact fun _ => SMap.wf_nil' _)); (focus first | exact Nat.le_refl _ | exact Nat.le_succ _ | exact Nat.le_add_right _ _)))
    | apply Keeps.foldl1 | apply Keeps.foldl2 | apply Keeps.ite1 | apply Keeps.ite2
    | refine KeepsP.some_keeps (by assumption) _ _ (by assumption)
    | refine KeepsO.oSome (by assumption) (by assumption) | refine KeepsO.oSome (by assumption) rfl
    | refine KeepsP.some_keeps (by assumption) _ _ rfl | apply KeepsP.map | refine Keeps1.keeps (by assumption)
    | refine Keeps2.keeps (by assumption) | exact KeepsO.none _ | apply KeepsO.some | apply KeepsO.ite
    | apply KeepsO.foldl | exact KeepsP.none _ | apply KeepsP.some | apply KeepsP.ite | apply Keeps1.mk'
    | apply Keeps1.ite | apply Keeps1.foldl | apply Keeps2.mk' | apply Keeps2.ite | apply Keeps2.foldl | intro _ _ _
    | intro _ _ | intro _ | split | (fail_if_no_progress dsimp only) | refine KeepsO.oSome ?_ (by assumption)
    | refine KeepsP.some_keeps ?_ _ _ (by assumption) | refine Keeps1.eq ?_ (by assumption)
    | refine Keeps2.eq ?_ (by assumption)

theorem State.resetHeader_keeps {r0_ s : State} {p : Nat} (h_ : Keeps r0_ s) : Keeps r0_ (State.resetHeader s p) := by
  unfold State.resetHeader
  with_reducible repeat' first
    | assumption | apply State.resetKeys_keeps | apply State.setBit_keeps

theorem State.resetQueues_keeps {r0_ s : State} {p : Nat} (h_ : Keeps r0_ s) : Keeps r0_ (State.resetQueues s p) := by
  unfold State.resetQueues
  with_reducible repeat' first
    | assumption | apply State.resetKeys_keeps | apply State.resetHeader_keeps
    | (fail_if_no_progress refine Keeps.upd ?_ ⟨rfl, rfl, rfl, rfl, rfl⟩)

theorem State.flr_keeps {r0_ s : State} {p : Nat} (h_ : Keeps r0_ s) : Keeps r0_ (State.flr s p) := by
  unfold State.flr
  with_reducible repeat' first
    | assumption | apply Keeps.ite | apply Keeps.foldl | apply Keeps.getD | apply State.setPState_keeps
    | apply State.kvpUpdate_keeps | apply State.stopAll_keeps | apply State.releaseOwned_keeps
    | apply State.destroyKeys_keeps | apply State.dropBursts_keeps | apply State.resetQueues_keeps
    | ((fail_if_no_progress extract_lets +onlyGivenNames x); first | ((first | refine Keeps.cut (t := x) ?_ ?_ | refine Keeps.cutO (o := x) ?_ ?_ | refine Keeps.cutP (o := x) ?_ ?_ | refine Keeps.cut1 (o := x) ?_ ?_ | refine Keeps.cut2 (o := x) ?_ ?_); rotate_left; (clear_value x; intro hx); rotate_left; (try subst x)) | (have _h := Keeps.memv x; clear _h) | (have _h := Keeps.bytesv x; clear _h) | (have _h := Keeps.fn x; clear _h; dsimp only [x]; clear x) | (have _h := Keeps.fn2 x; clear _h; dsimp only [x]; clear x) | clear_value x)
    | (fail_if_no_progress refine Keeps.upd ?_ ⟨rfl, rfl, rfl, rfl, rfl⟩)
    | (fail_if_no_progress ((apply Keeps.of_mk; (focus exact rfl); (focus exact rfl)); (with_unfolding_all focus first | (exact fun w => w) | exact SMap.wf_set _ _ | exact SMap.wf_filter _); (with_unfolding_all focus first | (exact fun w => w) | exact SMap.wf_putBytes _ _ | exact SMap.wf_clearRange _ _ | exact SMap.wf_filter _ | (exact fun w => SMap.wf_foldl_set _ _ _ (SMap.wf_clearRange _ _ w)) | (exact fun _ => SMap.wf_nil' _)); (focus first | exact Nat.le_refl _ | exact Nat.le_succ _ | exact Nat.le_add_right _ _)))
    | apply Keeps.foldl1 | apply Keeps.foldl2 | apply Keeps.ite1 | apply Keeps.ite2
    | refine KeepsP.some_keeps (by assumption) _ _ (by assumption)
    | refine KeepsO.oSome (by assumption) (by assumption) | refine KeepsO.oSome (by assumption) rfl
    | refine KeepsP.some_keeps (by assumption) _ _ rfl | apply KeepsP.map | refine Keeps1.keeps (by assumption)
    | refine Keeps2.keeps (by assumption) | exact KeepsO.none _ | apply KeepsO.some | apply KeepsO.ite
    | apply KeepsO.foldl | exact KeepsP.none _ | apply KeepsP.some | apply KeepsP.ite | apply Keeps1.mk'
    | apply Keeps1.ite | apply Keeps1.foldl | apply Keeps2.mk' | apply Keeps2.ite | apply Keeps2.foldl | intro _ _ _
    | intro _ _ | intro _ | split | (fail_if_no_progress dsimp only) | refine KeepsO.oSome ?_ (by assumption)
    | refine KeepsP.some_keeps ?_ _ _ (by assumption) | refine Keeps1.eq ?_ (by assumption)
    | refine Keeps2.eq ?_ (by assumption)

theorem execVfFlr_keeps {r0_ s : State} {n : BitVec 7} (h_ : Keeps r0_ s) : KeepsR r0_ (execVfFlr n s) := by
  unfold execVfFlr
  with_reducible repeat' first
    | assumption | apply KeepsR.next | apply State.flr_keeps

theorem State.pfReset_keeps {r0_ s : State}  (h_ : Keeps r0_ s) : Keeps r0_ (State.pfReset s) := by
  unfold State.pfReset
  with_reducible repeat' first
    | assumption | apply Keeps.foldl | apply State.resetKeys_keeps | apply State.resetHeader_keeps
    | apply State.flr_keeps | (fail_if_no_progress refine Keeps.upd ?_ ⟨rfl, rfl, rfl, rfl, rfl⟩) | intro _ _ _

theorem execPfFlr_keeps {r0_ s : State}  (h_ : Keeps r0_ s) : KeepsR r0_ (execPfFlr s) := by
  unfold execPfFlr
  with_reducible repeat' first
    | assumption | apply KeepsR.next | apply State.pfReset_keeps

theorem State.resetConfig_keeps {r0_ s : State}  (h_ : Keeps r0_ s) : Keeps r0_ (State.resetConfig s) := by
  unfold State.resetConfig
  with_reducible repeat' first
    | assumption | apply Keeps.ite | apply Keeps.foldl | apply Keeps.getD
    | ((fail_if_no_progress extract_lets +onlyGivenNames x); first | ((first | refine Keeps.cut (t := x) ?_ ?_ | refine Keeps.cutO (o := x) ?_ ?_ | refine Keeps.cutP (o := x) ?_ ?_ | refine Keeps.cut1 (o := x) ?_ ?_ | refine Keeps.cut2 (o := x) ?_ ?_); rotate_left; (clear_value x; intro hx); rotate_left; (try subst x)) | (have _h := Keeps.memv x; clear _h) | (have _h := Keeps.bytesv x; clear _h) | (have _h := Keeps.fn x; clear _h; dsimp only [x]; clear x) | (have _h := Keeps.fn2 x; clear _h; dsimp only [x]; clear x) | clear_value x)
    | (fail_if_no_progress refine Keeps.upd ?_ ⟨rfl, rfl, rfl, rfl, rfl⟩)
    | (fail_if_no_progress ((apply Keeps.of_mk; (focus exact rfl); (focus exact rfl)); (with_unfolding_all focus first | (exact fun w => w) | exact SMap.wf_set _ _ | exact SMap.wf_filter _); (with_unfolding_all focus first | (exact fun w => w) | exact SMap.wf_putBytes _ _ | exact SMap.wf_clearRange _ _ | exact SMap.wf_filter _ | (exact fun w => SMap.wf_foldl_set _ _ _ (SMap.wf_clearRange _ _ w)) | (exact fun _ => SMap.wf_nil' _)); (focus first | exact Nat.le_refl _ | exact Nat.le_succ _ | exact Nat.le_add_right _ _)))
    | apply Keeps.foldl1 | apply Keeps.foldl2 | apply Keeps.ite1 | apply Keeps.ite2
    | refine KeepsP.some_keeps (by assumption) _ _ (by assumption)
    | refine KeepsO.oSome (by assumption) (by assumption) | refine KeepsO.oSome (by assumption) rfl
    | refine KeepsP.some_keeps (by assumption) _ _ rfl | apply KeepsP.map | refine Keeps1.keeps (by assumption)
    | refine Keeps2.keeps (by assumption) | exact KeepsO.none _ | apply KeepsO.some | apply KeepsO.ite
    | apply KeepsO.foldl | exact KeepsP.none _ | apply KeepsP.some | apply KeepsP.ite | apply Keeps1.mk'
    | apply Keeps1.ite | apply Keeps1.foldl | apply Keeps2.mk' | apply Keeps2.ite | apply Keeps2.foldl | intro _ _ _
    | intro _ _ | intro _ | split | (fail_if_no_progress dsimp only) | refine KeepsO.oSome ?_ (by assumption)
    | refine KeepsP.some_keeps ?_ _ _ (by assumption) | refine Keeps1.eq ?_ (by assumption)
    | refine Keeps2.eq ?_ (by assumption)

theorem execHotReset_keeps {r0_ s : State}  (h_ : Keeps r0_ s) : KeepsR r0_ (execHotReset s) := by
  unfold execHotReset
  with_reducible repeat' first
    | assumption | apply KeepsR.next | exact KeepsR.fault _ _ | apply KeepsR.ite | apply Keeps.ite
    | apply Keeps.foldl | apply Keeps.getD | apply State.pfReset_keeps | apply State.resetConfig_keeps
    | ((fail_if_no_progress extract_lets +onlyGivenNames x); first | ((first | refine Keeps.cut (t := x) ?_ ?_ | refine KeepsR.cut (t := x) ?_ ?_ | refine Keeps.cutO (o := x) ?_ ?_ | refine Keeps.cutP (o := x) ?_ ?_ | refine Keeps.cut1 (o := x) ?_ ?_ | refine Keeps.cut2 (o := x) ?_ ?_); rotate_left; (clear_value x; intro hx); rotate_left; (try subst x)) | (have _h := Keeps.memv x; clear _h) | (have _h := Keeps.bytesv x; clear _h) | (have _h := Keeps.fn x; clear _h; dsimp only [x]; clear x) | (have _h := Keeps.fn2 x; clear _h; dsimp only [x]; clear x) | clear_value x)
    | (fail_if_no_progress refine Keeps.upd ?_ ⟨rfl, rfl, rfl, rfl, rfl⟩)
    | (fail_if_no_progress ((apply Keeps.of_mk; (focus exact rfl); (focus exact rfl)); (with_unfolding_all focus first | (exact fun w => w) | exact SMap.wf_set _ _ | exact SMap.wf_filter _); (with_unfolding_all focus first | (exact fun w => w) | exact SMap.wf_putBytes _ _ | exact SMap.wf_clearRange _ _ | exact SMap.wf_filter _ | (exact fun w => SMap.wf_foldl_set _ _ _ (SMap.wf_clearRange _ _ w)) | (exact fun _ => SMap.wf_nil' _)); (focus first | exact Nat.le_refl _ | exact Nat.le_succ _ | exact Nat.le_add_right _ _)))
    | apply Keeps.foldl1 | apply Keeps.foldl2 | apply Keeps.ite1 | apply Keeps.ite2
    | refine KeepsP.some_keeps (by assumption) _ _ (by assumption)
    | refine KeepsO.oSome (by assumption) (by assumption) | refine KeepsO.oSome (by assumption) rfl
    | refine KeepsP.some_keeps (by assumption) _ _ rfl | apply KeepsP.map | refine Keeps1.keeps (by assumption)
    | refine Keeps2.keeps (by assumption) | exact KeepsO.none _ | apply KeepsO.some | apply KeepsO.ite
    | apply KeepsO.foldl | exact KeepsP.none _ | apply KeepsP.some | apply KeepsP.ite | apply Keeps1.mk'
    | apply Keeps1.ite | apply Keeps1.foldl | apply Keeps2.mk' | apply Keeps2.ite | apply Keeps2.foldl | intro _ _ _
    | intro _ _ | intro _ | split | (fail_if_no_progress dsimp only) | refine KeepsO.oSome ?_ (by assumption)
    | refine KeepsP.some_keeps ?_ _ _ (by assumption) | refine Keeps1.eq ?_ (by assumption)
    | refine Keeps2.eq ?_ (by assumption)

theorem execDlDown_keeps {r0_ s : State}  (h_ : Keeps r0_ s) : KeepsR r0_ (execDlDown s) := by
  unfold execDlDown
  with_reducible repeat' first
    | assumption | apply KeepsR.next | exact KeepsR.fault _ _ | apply KeepsR.ite | apply Keeps.ite
    | apply Keeps.foldl | apply Keeps.getD | apply State.pfReset_keeps | apply State.resetConfig_keeps
    | ((fail_if_no_progress extract_lets +onlyGivenNames x); first | ((first | refine Keeps.cut (t := x) ?_ ?_ | refine KeepsR.cut (t := x) ?_ ?_ | refine Keeps.cutO (o := x) ?_ ?_ | refine Keeps.cutP (o := x) ?_ ?_ | refine Keeps.cut1 (o := x) ?_ ?_ | refine Keeps.cut2 (o := x) ?_ ?_); rotate_left; (clear_value x; intro hx); rotate_left; (try subst x)) | (have _h := Keeps.memv x; clear _h) | (have _h := Keeps.bytesv x; clear _h) | (have _h := Keeps.fn x; clear _h; dsimp only [x]; clear x) | (have _h := Keeps.fn2 x; clear _h; dsimp only [x]; clear x) | clear_value x)
    | (fail_if_no_progress refine Keeps.upd ?_ ⟨rfl, rfl, rfl, rfl, rfl⟩)
    | (fail_if_no_progress ((apply Keeps.of_mk; (focus exact rfl); (focus exact rfl)); (with_unfolding_all focus first | (exact fun w => w) | exact SMap.wf_set _ _ | exact SMap.wf_filter _); (with_unfolding_all focus first | (exact fun w => w) | exact SMap.wf_putBytes _ _ | exact SMap.wf_clearRange _ _ | exact SMap.wf_filter _ | (exact fun w => SMap.wf_foldl_set _ _ _ (SMap.wf_clearRange _ _ w)) | (exact fun _ => SMap.wf_nil' _)); (focus first | exact Nat.le_refl _ | exact Nat.le_succ _ | exact Nat.le_add_right _ _)))
    | apply Keeps.foldl1 | apply Keeps.foldl2 | apply Keeps.ite1 | apply Keeps.ite2
    | refine KeepsP.some_keeps (by assumption) _ _ (by assumption)
    | refine KeepsO.oSome (by assumption) (by assumption) | refine KeepsO.oSome (by assumption) rfl
    | refine KeepsP.some_keeps (by assumption) _ _ rfl | apply KeepsP.map | refine Keeps1.keeps (by assumption)
    | refine Keeps2.keeps (by assumption) | exact KeepsO.none _ | apply KeepsO.some | apply KeepsO.ite
    | apply KeepsO.foldl | exact KeepsP.none _ | apply KeepsP.some | apply KeepsP.ite | apply Keeps1.mk'
    | apply Keeps1.ite | apply Keeps1.foldl | apply Keeps2.mk' | apply Keeps2.ite | apply Keeps2.foldl | intro _ _ _
    | intro _ _ | intro _ | split | (fail_if_no_progress dsimp only) | refine KeepsO.oSome ?_ (by assumption)
    | refine KeepsP.some_keeps ?_ _ _ (by assumption) | refine Keeps1.eq ?_ (by assumption)
    | refine Keeps2.eq ?_ (by assumption)

theorem execRngFail_keeps {r0_ s : State}  (h_ : Keeps r0_ s) : KeepsR r0_ (execRngFail s) := by
  unfold execRngFail
  with_reducible repeat' first
    | assumption | apply KeepsR.next | apply State.setBit_keeps | apply State.inc_keeps | apply State.latch_keeps
    | split

theorem State.devKeygen_keeps {r0_ s : State}  (h_ : Keeps r0_ s) : Keeps r0_ (State.devKeygen s) := by
  unfold State.devKeygen
  with_reducible repeat' first
    | assumption | apply Keeps.ite | apply Keeps.foldl | apply Keeps.getD | apply State.inc_keeps
    | ((fail_if_no_progress extract_lets +onlyGivenNames x); first | ((first | refine Keeps.cut (t := x) ?_ ?_ | refine Keeps.cutO (o := x) ?_ ?_ | refine Keeps.cutP (o := x) ?_ ?_ | refine Keeps.cut1 (o := x) ?_ ?_ | refine Keeps.cut2 (o := x) ?_ ?_); rotate_left; (clear_value x; intro hx); rotate_left; (try subst x)) | (have _h := Keeps.memv x; clear _h) | (have _h := Keeps.bytesv x; clear _h) | (have _h := Keeps.fn x; clear _h; dsimp only [x]; clear x) | (have _h := Keeps.fn2 x; clear _h; dsimp only [x]; clear x) | clear_value x)
    | (fail_if_no_progress refine Keeps.upd ?_ ⟨rfl, rfl, rfl, rfl, rfl⟩)
    | (fail_if_no_progress ((apply Keeps.of_mk; (focus exact rfl); (focus exact rfl)); (with_unfolding_all focus first | (exact fun w => w) | exact SMap.wf_set _ _ | exact SMap.wf_filter _); (with_unfolding_all focus first | (exact fun w => w) | exact SMap.wf_putBytes _ _ | exact SMap.wf_clearRange _ _ | exact SMap.wf_filter _ | (exact fun w => SMap.wf_foldl_set _ _ _ (SMap.wf_clearRange _ _ w)) | (exact fun _ => SMap.wf_nil' _)); (focus first | exact Nat.le_refl _ | exact Nat.le_succ _ | exact Nat.le_add_right _ _)))
    | apply Keeps.foldl1 | apply Keeps.foldl2 | apply Keeps.ite1 | apply Keeps.ite2
    | refine KeepsP.some_keeps (by assumption) _ _ (by assumption)
    | refine KeepsO.oSome (by assumption) (by assumption) | refine KeepsO.oSome (by assumption) rfl
    | refine KeepsP.some_keeps (by assumption) _ _ rfl | apply KeepsP.map | refine Keeps1.keeps (by assumption)
    | refine Keeps2.keeps (by assumption) | exact KeepsO.none _ | apply KeepsO.some | apply KeepsO.ite
    | apply KeepsO.foldl | exact KeepsP.none _ | apply KeepsP.some | apply KeepsP.ite | apply Keeps1.mk'
    | apply Keeps1.ite | apply Keeps1.foldl | apply Keeps2.mk' | apply Keeps2.ite | apply Keeps2.foldl | intro _ _ _
    | intro _ _ | intro _ | split | (fail_if_no_progress dsimp only) | refine KeepsO.oSome ?_ (by assumption)
    | refine KeepsP.some_keeps ?_ _ _ (by assumption) | refine Keeps1.eq ?_ (by assumption)
    | refine Keeps2.eq ?_ (by assumption)

theorem execRngOk_keeps {r0_ s : State}  (h_ : Keeps r0_ s) : KeepsR r0_ (execRngOk s) := by
  unfold execRngOk
  with_reducible repeat' first
    | assumption | apply KeepsR.next | exact KeepsR.fault _ _ | apply KeepsR.ite | apply Keeps.ite
    | apply Keeps.foldl | apply Keeps.getD | apply State.setBit_keeps | apply State.keygen_keeps
    | apply State.devKeygen_keeps
    | ((fail_if_no_progress extract_lets +onlyGivenNames x); first | ((first | refine Keeps.cut (t := x) ?_ ?_ | refine KeepsR.cut (t := x) ?_ ?_ | refine Keeps.cutO (o := x) ?_ ?_ | refine Keeps.cutP (o := x) ?_ ?_ | refine Keeps.cut1 (o := x) ?_ ?_ | refine Keeps.cut2 (o := x) ?_ ?_); rotate_left; (clear_value x; intro hx); rotate_left; (try subst x)) | (have _h := Keeps.memv x; clear _h) | (have _h := Keeps.bytesv x; clear _h) | (have _h := Keeps.fn x; clear _h; dsimp only [x]; clear x) | (have _h := Keeps.fn2 x; clear _h; dsimp only [x]; clear x) | clear_value x)
    | (fail_if_no_progress refine Keeps.upd ?_ ⟨rfl, rfl, rfl, rfl, rfl⟩)
    | (fail_if_no_progress ((apply Keeps.of_mk; (focus exact rfl); (focus exact rfl)); (with_unfolding_all focus first | (exact fun w => w) | exact SMap.wf_set _ _ | exact SMap.wf_filter _); (with_unfolding_all focus first | (exact fun w => w) | exact SMap.wf_putBytes _ _ | exact SMap.wf_clearRange _ _ | exact SMap.wf_filter _ | (exact fun w => SMap.wf_foldl_set _ _ _ (SMap.wf_clearRange _ _ w)) | (exact fun _ => SMap.wf_nil' _)); (focus first | exact Nat.le_refl _ | exact Nat.le_succ _ | exact Nat.le_add_right _ _)))
    | apply Keeps.foldl1 | apply Keeps.foldl2 | apply Keeps.ite1 | apply Keeps.ite2
    | refine KeepsP.some_keeps (by assumption) _ _ (by assumption)
    | refine KeepsO.oSome (by assumption) (by assumption) | refine KeepsO.oSome (by assumption) rfl
    | refine KeepsP.some_keeps (by assumption) _ _ rfl | apply KeepsP.map | refine Keeps1.keeps (by assumption)
    | refine Keeps2.keeps (by assumption) | exact KeepsO.none _ | apply KeepsO.some | apply KeepsO.ite
    | apply KeepsO.foldl | exact KeepsP.none _ | apply KeepsP.some | apply KeepsP.ite | apply Keeps1.mk'
    | apply Keeps1.ite | apply Keeps1.foldl | apply Keeps2.mk' | apply Keeps2.ite | apply Keeps2.foldl | intro _ _ _
    | intro _ _ | intro _ | split | (fail_if_no_progress dsimp only) | refine KeepsO.oSome ?_ (by assumption)
    | refine KeepsP.some_keeps ?_ _ _ (by assumption) | refine Keeps1.eq ?_ (by assumption)
    | refine Keeps2.eq ?_ (by assumption)

/-! ### Ordering -/

theorem State.accessLost_keeps {r0_ s : State}  (h_ : Keeps r0_ s) : Keeps r0_ (State.accessLost s) := by
  unfold State.accessLost
  with_reducible repeat' first
    | assumption | apply Keeps.ite | apply Keeps.foldl | apply Keeps.getD | apply State.chosen_keeps
    | apply State.latch_keeps
    | ((fail_if_no_progress extract_lets +onlyGivenNames x); first | ((first | refine Keeps.cut (t := x) ?_ ?_ | refine Keeps.cutO (o := x) ?_ ?_ | refine Keeps.cutP (o := x) ?_ ?_ | refine Keeps.cut1 (o := x) ?_ ?_ | refine Keeps.cut2 (o := x) ?_ ?_); rotate_left; (clear_value x; intro hx); rotate_left; (try subst x)) | (have _h := Keeps.memv x; clear _h) | (have _h := Keeps.bytesv x; clear _h) | (have _h := Keeps.fn x; clear _h; dsimp only [x]; clear x) | (have _h := Keeps.fn2 x; clear _h; dsimp only [x]; clear x) | clear_value x)
    | (fail_if_no_progress refine Keeps.upd ?_ ⟨rfl, rfl, rfl, rfl, rfl⟩)
    | (fail_if_no_progress ((apply Keeps.of_mk; (focus exact rfl); (focus exact rfl)); (with_unfolding_all focus first | (exact fun w => w) | exact SMap.wf_set _ _ | exact SMap.wf_filter _); (with_unfolding_all focus first | (exact fun w => w) | exact SMap.wf_putBytes _ _ | exact SMap.wf_clearRange _ _ | exact SMap.wf_filter _ | (exact fun w => SMap.wf_foldl_set _ _ _ (SMap.wf_clearRange _ _ w)) | (exact fun _ => SMap.wf_nil' _)); (focus first | exact Nat.le_refl _ | exact Nat.le_succ _ | exact Nat.le_add_right _ _)))
    | apply Keeps.foldl1 | apply Keeps.foldl2 | apply Keeps.ite1 | apply Keeps.ite2
    | refine KeepsP.some_keeps (by assumption) _ _ (by assumption)
    | refine KeepsO.oSome (by assumption) (by assumption) | refine KeepsO.oSome (by assumption) rfl
    | refine KeepsP.some_keeps (by assumption) _ _ rfl | apply KeepsP.map | refine Keeps1.keeps (by assumption)
    | refine Keeps2.keeps (by assumption) | exact KeepsO.none _ | apply KeepsO.some | apply KeepsO.ite
    | apply KeepsO.foldl | exact KeepsP.none _ | apply KeepsP.some | apply KeepsP.ite | apply Keeps1.mk'
    | apply Keeps1.ite | apply Keeps1.foldl | apply Keeps2.mk' | apply Keeps2.ite | apply Keeps2.foldl | intro _ _ _
    | intro _ _ | intro _ | split | (fail_if_no_progress dsimp only) | refine KeepsO.oSome ?_ (by assumption)
    | refine KeepsP.some_keeps ?_ _ _ (by assumption) | refine Keeps1.eq ?_ (by assumption)
    | refine Keeps2.eq ?_ (by assumption)

theorem State.answerLoad_keeps {r0_ s : State} {a : Agent} {o : MemOp} {bytes : List Byte} (h_ : Keeps r0_ s) : Keeps r0_ (State.answerLoad s a o bytes) := by
  unfold State.answerLoad
  with_reducible repeat' first
    | assumption | apply Keeps.ite | apply Keeps.foldl | apply Keeps.getD | apply State.emit_keeps
    | apply State.store_keeps
    | ((fail_if_no_progress extract_lets +onlyGivenNames x); first | ((first | refine Keeps.cut (t := x) ?_ ?_ | refine Keeps.cutO (o := x) ?_ ?_ | refine Keeps.cutP (o := x) ?_ ?_ | refine Keeps.cut1 (o := x) ?_ ?_ | refine Keeps.cut2 (o := x) ?_ ?_); rotate_left; (clear_value x; intro hx); rotate_left; (try subst x)) | (have _h := Keeps.memv x; clear _h) | (have _h := Keeps.bytesv x; clear _h) | (have _h := Keeps.fn x; clear _h; dsimp only [x]; clear x) | (have _h := Keeps.fn2 x; clear _h; dsimp only [x]; clear x) | clear_value x)
    | (fail_if_no_progress refine Keeps.upd ?_ ⟨rfl, rfl, rfl, rfl, rfl⟩)
    | (fail_if_no_progress ((apply Keeps.of_mk; (focus exact rfl); (focus exact rfl)); (with_unfolding_all focus first | (exact fun w => w) | exact SMap.wf_set _ _ | exact SMap.wf_filter _); (with_unfolding_all focus first | (exact fun w => w) | exact SMap.wf_putBytes _ _ | exact SMap.wf_clearRange _ _ | exact SMap.wf_filter _ | (exact fun w => SMap.wf_foldl_set _ _ _ (SMap.wf_clearRange _ _ w)) | (exact fun _ => SMap.wf_nil' _)); (focus first | exact Nat.le_refl _ | exact Nat.le_succ _ | exact Nat.le_add_right _ _)))
    | apply Keeps.foldl1 | apply Keeps.foldl2 | apply Keeps.ite1 | apply Keeps.ite2
    | refine KeepsP.some_keeps (by assumption) _ _ (by assumption)
    | refine KeepsO.oSome (by assumption) (by assumption) | refine KeepsO.oSome (by assumption) rfl
    | refine KeepsP.some_keeps (by assumption) _ _ rfl | apply KeepsP.map | refine Keeps1.keeps (by assumption)
    | refine Keeps2.keeps (by assumption) | exact KeepsO.none _ | apply KeepsO.some | apply KeepsO.ite
    | apply KeepsO.foldl | exact KeepsP.none _ | apply KeepsP.some | apply KeepsP.ite | apply Keeps1.mk'
    | apply Keeps1.ite | apply Keeps1.foldl | apply Keeps2.mk' | apply Keeps2.ite | apply Keeps2.foldl | intro _ _ _
    | intro _ _ | intro _ | split | (fail_if_no_progress dsimp only) | refine KeepsO.oSome ?_ (by assumption)
    | refine KeepsP.some_keeps ?_ _ _ (by assumption) | refine Keeps1.eq ?_ (by assumption)
    | refine Keeps2.eq ?_ (by assumption)

theorem State.perform_keeps {r0_ s : State} {a : Agent} {o : MemOp} (h_ : Keeps r0_ s) : Keeps r0_ (State.perform s a o) := by
  unfold State.perform
  with_reducible repeat' first
    | assumption | apply Keeps.ite | apply Keeps.foldl | apply Keeps.getD | apply State.emit_keeps
    | apply State.chosen_keeps | apply State.latch_keeps | apply State.wr_keeps | apply State.store_keeps
    | apply State.readMarred_keeps | apply State.lineUe_keeps | apply State.abortStored_keeps
    | apply State.accessLost_keeps | apply State.answerLoad_keeps
    | ((fail_if_no_progress extract_lets +onlyGivenNames x); first | ((first | refine Keeps.cut (t := x) ?_ ?_ | refine Keeps.cutO (o := x) ?_ ?_ | refine Keeps.cutP (o := x) ?_ ?_ | refine Keeps.cut1 (o := x) ?_ ?_ | refine Keeps.cut2 (o := x) ?_ ?_); rotate_left; (clear_value x; intro hx); rotate_left; (try subst x)) | (have _h := Keeps.memv x; clear _h) | (have _h := Keeps.bytesv x; clear _h) | (have _h := Keeps.fn x; clear _h; dsimp only [x]; clear x) | (have _h := Keeps.fn2 x; clear _h; dsimp only [x]; clear x) | clear_value x)
    | (fail_if_no_progress refine Keeps.upd ?_ ⟨rfl, rfl, rfl, rfl, rfl⟩)
    | (fail_if_no_progress ((apply Keeps.of_mk; (focus exact rfl); (focus exact rfl)); (with_unfolding_all focus first | (exact fun w => w) | exact SMap.wf_set _ _ | exact SMap.wf_filter _); (with_unfolding_all focus first | (exact fun w => w) | exact SMap.wf_putBytes _ _ | exact SMap.wf_clearRange _ _ | exact SMap.wf_filter _ | (exact fun w => SMap.wf_foldl_set _ _ _ (SMap.wf_clearRange _ _ w)) | (exact fun _ => SMap.wf_nil' _)); (focus first | exact Nat.le_refl _ | exact Nat.le_succ _ | exact Nat.le_add_right _ _)))
    | apply Keeps.foldl1 | apply Keeps.foldl2 | apply Keeps.ite1 | apply Keeps.ite2
    | refine KeepsP.some_keeps (by assumption) _ _ (by assumption)
    | refine KeepsO.oSome (by assumption) (by assumption) | refine KeepsO.oSome (by assumption) rfl
    | refine KeepsP.some_keeps (by assumption) _ _ rfl | apply KeepsP.map | refine Keeps1.keeps (by assumption)
    | refine Keeps2.keeps (by assumption) | exact KeepsO.none _ | apply KeepsO.some | apply KeepsO.ite
    | apply KeepsO.foldl | exact KeepsP.none _ | apply KeepsP.some | apply KeepsP.ite | apply Keeps1.mk'
    | apply Keeps1.ite | apply Keeps1.foldl | apply Keeps2.mk' | apply Keeps2.ite | apply Keeps2.foldl | intro _ _ _
    | intro _ _ | intro _ | split | (fail_if_no_progress dsimp only) | refine KeepsO.oSome ?_ (by assumption)
    | refine KeepsP.some_keeps ?_ _ _ (by assumption) | refine Keeps1.eq ?_ (by assumption)
    | refine Keeps2.eq ?_ (by assumption)

theorem State.runOps_keeps1 {r0_ s : State} {a : Agent} {kept : List MemOp} {n_ : List MemOp} (h_ : Keeps r0_ s) : Keeps1 r0_ (State.runOps s a kept n_) := by
  induction n_ generalizing s a kept with
  | nil =>
    unfold State.runOps
    with_reducible repeat' first
      | assumption | apply Keeps1.mk' | apply Keeps1.ite | apply Keeps1.foldl | apply Keeps.ite | apply Keeps.foldl
      | apply Keeps.getD | apply State.perform_keeps | apply ih | refine Keeps1.eq (ih ?_) (by assumption)
      | refine (ih ?_).keeps
      | ((fail_if_no_progress extract_lets +onlyGivenNames x); first | ((first | refine Keeps.cut (t := x) ?_ ?_ | refine Keeps1.cut (t := x) ?_ ?_ | refine Keeps.cutO (o := x) ?_ ?_ | refine Keeps.cutP (o := x) ?_ ?_ | refine Keeps.cut1 (o := x) ?_ ?_ | refine Keeps.cut2 (o := x) ?_ ?_); rotate_left; (clear_value x; intro hx); rotate_left; (try subst x)) | (have _h := Keeps.memv x; clear _h) | (have _h := Keeps.bytesv x; clear _h) | (have _h := Keeps.fn x; clear _h; dsimp only [x]; clear x) | (have _h := Keeps.fn2 x; clear _h; dsimp only [x]; clear x) | clear_value x)
      | (fail_if_no_progress refine Keeps.upd ?_ ⟨rfl, rfl, rfl, rfl, rfl⟩)
      | (fail_if_no_progress ((apply Keeps.of_mk; (focus exact rfl); (focus exact rfl)); (with_unfolding_all focus first | (exact fun w => w) | exact SMap.wf_set _ _ | exact SMap.wf_filter _); (with_unfolding_all focus first | (exact fun w => w) | exact SMap.wf_putBytes _ _ | exact SMap.wf_clearRange _ _ | exact SMap.wf_filter _ | (exact fun w => SMap.wf_foldl_set _ _ _ (SMap.wf_clearRange _ _ w)) | (exact fun _ => SMap.wf_nil' _)); (focus first | exact Nat.le_refl _ | exact Nat.le_succ _ | exact Nat.le_add_right _ _)))
      | apply Keeps.foldl1 | apply Keeps.foldl2 | apply Keeps.ite1 | apply Keeps.ite2
      | refine KeepsP.some_keeps (by assumption) _ _ (by assumption)
      | refine KeepsO.oSome (by assumption) (by assumption) | refine KeepsO.oSome (by assumption) rfl
      | refine KeepsP.some_keeps (by assumption) _ _ rfl | apply KeepsP.map | refine Keeps1.keeps (by assumption)
      | refine Keeps2.keeps (by assumption) | exact KeepsO.none _ | apply KeepsO.some | apply KeepsO.ite
      | apply KeepsO.foldl | exact KeepsP.none _ | apply KeepsP.some | apply KeepsP.ite | apply Keeps2.mk'
      | apply Keeps2.ite | apply Keeps2.foldl | intro _ _ _ | intro _ _ | intro _ | split
      | (fail_if_no_progress dsimp only) | refine KeepsO.oSome ?_ (by assumption)
      | refine KeepsP.some_keeps ?_ _ _ (by assumption) | refine Keeps1.eq ?_ (by assumption)
      | refine Keeps2.eq ?_ (by assumption)
  | cons hd n ih =>
    unfold State.runOps
    with_reducible repeat' first
      | assumption | apply Keeps1.mk' | apply Keeps1.ite | apply Keeps1.foldl | apply Keeps.ite | apply Keeps.foldl
      | apply Keeps.getD | apply State.perform_keeps | apply ih | refine Keeps1.eq (ih ?_) (by assumption)
      | refine (ih ?_).keeps
      | ((fail_if_no_progress extract_lets +onlyGivenNames x); first | ((first | refine Keeps.cut (t := x) ?_ ?_ | refine Keeps1.cut (t := x) ?_ ?_ | refine Keeps.cutO (o := x) ?_ ?_ | refine Keeps.cutP (o := x) ?_ ?_ | refine Keeps.cut1 (o := x) ?_ ?_ | refine Keeps.cut2 (o := x) ?_ ?_); rotate_left; (clear_value x; intro hx); rotate_left; (try subst x)) | (have _h := Keeps.memv x; clear _h) | (have _h := Keeps.bytesv x; clear _h) | (have _h := Keeps.fn x; clear _h; dsimp only [x]; clear x) | (have _h := Keeps.fn2 x; clear _h; dsimp only [x]; clear x) | clear_value x)
      | (fail_if_no_progress refine Keeps.upd ?_ ⟨rfl, rfl, rfl, rfl, rfl⟩)
      | (fail_if_no_progress ((apply Keeps.of_mk; (focus exact rfl); (focus exact rfl)); (with_unfolding_all focus first | (exact fun w => w) | exact SMap.wf_set _ _ | exact SMap.wf_filter _); (with_unfolding_all focus first | (exact fun w => w) | exact SMap.wf_putBytes _ _ | exact SMap.wf_clearRange _ _ | exact SMap.wf_filter _ | (exact fun w => SMap.wf_foldl_set _ _ _ (SMap.wf_clearRange _ _ w)) | (exact fun _ => SMap.wf_nil' _)); (focus first | exact Nat.le_refl _ | exact Nat.le_succ _ | exact Nat.le_add_right _ _)))
      | apply Keeps.foldl1 | apply Keeps.foldl2 | apply Keeps.ite1 | apply Keeps.ite2
      | refine KeepsP.some_keeps (by assumption) _ _ (by assumption)
      | refine KeepsO.oSome (by assumption) (by assumption) | refine KeepsO.oSome (by assumption) rfl
      | refine KeepsP.some_keeps (by assumption) _ _ rfl | apply KeepsP.map | refine Keeps1.keeps (by assumption)
      | refine Keeps2.keeps (by assumption) | exact KeepsO.none _ | apply KeepsO.some | apply KeepsO.ite
      | apply KeepsO.foldl | exact KeepsP.none _ | apply KeepsP.some | apply KeepsP.ite | apply Keeps2.mk'
      | apply Keeps2.ite | apply Keeps2.foldl | intro _ _ _ | intro _ _ | intro _ | split
      | (fail_if_no_progress dsimp only) | refine KeepsO.oSome ?_ (by assumption)
      | refine KeepsP.some_keeps ?_ _ _ (by assumption) | refine Keeps1.eq ?_ (by assumption)
      | refine Keeps2.eq ?_ (by assumption)

theorem State.beginPart_keeps {r0_ s : State} {a : Agent} {o : MemOp} (h_ : Keeps r0_ s) : Keeps r0_ (State.beginPart s a o) := by
  unfold State.beginPart
  with_reducible repeat' first
    | assumption | apply Keeps.ite | apply Keeps.foldl | apply Keeps.getD | apply State.setAgent_keeps
    | apply State.perform_keeps | apply State.runOps_keeps1
    | refine Keeps1.eq (State.runOps_keeps1 ?_) (by assumption) | refine (State.runOps_keeps1 ?_).keeps
    | ((fail_if_no_progress extract_lets +onlyGivenNames x); first | ((first | refine Keeps.cut (t := x) ?_ ?_ | refine Keeps.cutO (o := x) ?_ ?_ | refine Keeps.cutP (o := x) ?_ ?_ | refine Keeps.cut1 (o := x) ?_ ?_ | refine Keeps.cut2 (o := x) ?_ ?_); rotate_left; (clear_value x; intro hx); rotate_left; (try subst x)) | (have _h := Keeps.memv x; clear _h) | (have _h := Keeps.bytesv x; clear _h) | (have _h := Keeps.fn x; clear _h; dsimp only [x]; clear x) | (have _h := Keeps.fn2 x; clear _h; dsimp only [x]; clear x) | clear_value x)
    | (fail_if_no_progress refine Keeps.upd ?_ ⟨rfl, rfl, rfl, rfl, rfl⟩)
    | (fail_if_no_progress ((apply Keeps.of_mk; (focus exact rfl); (focus exact rfl)); (with_unfolding_all focus first | (exact fun w => w) | exact SMap.wf_set _ _ | exact SMap.wf_filter _); (with_unfolding_all focus first | (exact fun w => w) | exact SMap.wf_putBytes _ _ | exact SMap.wf_clearRange _ _ | exact SMap.wf_filter _ | (exact fun w => SMap.wf_foldl_set _ _ _ (SMap.wf_clearRange _ _ w)) | (exact fun _ => SMap.wf_nil' _)); (focus first | exact Nat.le_refl _ | exact Nat.le_succ _ | exact Nat.le_add_right _ _)))
    | apply Keeps.foldl1 | apply Keeps.foldl2 | apply Keeps.ite1 | apply Keeps.ite2
    | refine KeepsP.some_keeps (by assumption) _ _ (by assumption)
    | refine KeepsO.oSome (by assumption) (by assumption) | refine KeepsO.oSome (by assumption) rfl
    | refine KeepsP.some_keeps (by assumption) _ _ rfl | apply KeepsP.map | refine Keeps1.keeps (by assumption)
    | refine Keeps2.keeps (by assumption) | exact KeepsO.none _ | apply KeepsO.some | apply KeepsO.ite
    | apply KeepsO.foldl | exact KeepsP.none _ | apply KeepsP.some | apply KeepsP.ite | apply Keeps1.mk'
    | apply Keeps1.ite | apply Keeps1.foldl | apply Keeps2.mk' | apply Keeps2.ite | apply Keeps2.foldl | intro _ _ _
    | intro _ _ | intro _ | split | (fail_if_no_progress dsimp only) | refine KeepsO.oSome ?_ (by assumption)
    | refine KeepsP.some_keeps ?_ _ _ (by assumption) | refine Keeps1.eq ?_ (by assumption)
    | refine Keeps2.eq ?_ (by assumption)

theorem State.beginOp_keeps {r0_ s : State} {a : Agent} {o : MemOp} (h_ : Keeps r0_ s) : Keeps r0_ (State.beginOp s a o) := by
  unfold State.beginOp
  with_reducible repeat' first
    | assumption | apply Keeps.ite | apply Keeps.foldl | apply Keeps.getD | apply State.beginPart_keeps
    | ((fail_if_no_progress extract_lets +onlyGivenNames x); first | ((first | refine Keeps.cut (t := x) ?_ ?_ | refine Keeps.cutO (o := x) ?_ ?_ | refine Keeps.cutP (o := x) ?_ ?_ | refine Keeps.cut1 (o := x) ?_ ?_ | refine Keeps.cut2 (o := x) ?_ ?_); rotate_left; (clear_value x; intro hx); rotate_left; (try subst x)) | (have _h := Keeps.memv x; clear _h) | (have _h := Keeps.bytesv x; clear _h) | (have _h := Keeps.fn x; clear _h; dsimp only [x]; clear x) | (have _h := Keeps.fn2 x; clear _h; dsimp only [x]; clear x) | clear_value x)
    | (fail_if_no_progress refine Keeps.upd ?_ ⟨rfl, rfl, rfl, rfl, rfl⟩)
    | (fail_if_no_progress ((apply Keeps.of_mk; (focus exact rfl); (focus exact rfl)); (with_unfolding_all focus first | (exact fun w => w) | exact SMap.wf_set _ _ | exact SMap.wf_filter _); (with_unfolding_all focus first | (exact fun w => w) | exact SMap.wf_putBytes _ _ | exact SMap.wf_clearRange _ _ | exact SMap.wf_filter _ | (exact fun w => SMap.wf_foldl_set _ _ _ (SMap.wf_clearRange _ _ w)) | (exact fun _ => SMap.wf_nil' _)); (focus first | exact Nat.le_refl _ | exact Nat.le_succ _ | exact Nat.le_add_right _ _)))
    | apply Keeps.foldl1 | apply Keeps.foldl2 | apply Keeps.ite1 | apply Keeps.ite2
    | refine KeepsP.some_keeps (by assumption) _ _ (by assumption)
    | refine KeepsO.oSome (by assumption) (by assumption) | refine KeepsO.oSome (by assumption) rfl
    | refine KeepsP.some_keeps (by assumption) _ _ rfl | apply KeepsP.map | refine Keeps1.keeps (by assumption)
    | refine Keeps2.keeps (by assumption) | exact KeepsO.none _ | apply KeepsO.some | apply KeepsO.ite
    | apply KeepsO.foldl | exact KeepsP.none _ | apply KeepsP.some | apply KeepsP.ite | apply Keeps1.mk'
    | apply Keeps1.ite | apply Keeps1.foldl | apply Keeps2.mk' | apply Keeps2.ite | apply Keeps2.foldl | intro _ _ _
    | intro _ _ | intro _ | split | (fail_if_no_progress dsimp only) | refine KeepsO.oSome ?_ (by assumption)
    | refine KeepsP.some_keeps ?_ _ _ (by assumption) | refine Keeps1.eq ?_ (by assumption)
    | refine Keeps2.eq ?_ (by assumption)

theorem State.access_keeps {r0_ s : State} {a : Agent} {o : MemOp} (h_ : Keeps r0_ s) : Keeps r0_ (State.access s a o) := by
  unfold State.access
  with_reducible repeat' first
    | assumption | apply Keeps.ite | apply Keeps.foldl | apply Keeps.getD | apply State.setAgent_keeps
    | apply State.beginOp_keeps
    | ((fail_if_no_progress extract_lets +onlyGivenNames x); first | ((first | refine Keeps.cut (t := x) ?_ ?_ | refine Keeps.cutO (o := x) ?_ ?_ | refine Keeps.cutP (o := x) ?_ ?_ | refine Keeps.cut1 (o := x) ?_ ?_ | refine Keeps.cut2 (o := x) ?_ ?_); rotate_left; (clear_value x; intro hx); rotate_left; (try subst x)) | (have _h := Keeps.memv x; clear _h) | (have _h := Keeps.bytesv x; clear _h) | (have _h := Keeps.fn x; clear _h; dsimp only [x]; clear x) | (have _h := Keeps.fn2 x; clear _h; dsimp only [x]; clear x) | clear_value x)
    | (fail_if_no_progress refine Keeps.upd ?_ ⟨rfl, rfl, rfl, rfl, rfl⟩)
    | (fail_if_no_progress ((apply Keeps.of_mk; (focus exact rfl); (focus exact rfl)); (with_unfolding_all focus first | (exact fun w => w) | exact SMap.wf_set _ _ | exact SMap.wf_filter _); (with_unfolding_all focus first | (exact fun w => w) | exact SMap.wf_putBytes _ _ | exact SMap.wf_clearRange _ _ | exact SMap.wf_filter _ | (exact fun w => SMap.wf_foldl_set _ _ _ (SMap.wf_clearRange _ _ w)) | (exact fun _ => SMap.wf_nil' _)); (focus first | exact Nat.le_refl _ | exact Nat.le_succ _ | exact Nat.le_add_right _ _)))
    | apply Keeps.foldl1 | apply Keeps.foldl2 | apply Keeps.ite1 | apply Keeps.ite2
    | refine KeepsP.some_keeps (by assumption) _ _ (by assumption)
    | refine KeepsO.oSome (by assumption) (by assumption) | refine KeepsO.oSome (by assumption) rfl
    | refine KeepsP.some_keeps (by assumption) _ _ rfl | apply KeepsP.map | refine Keeps1.keeps (by assumption)
    | refine Keeps2.keeps (by assumption) | exact KeepsO.none _ | apply KeepsO.some | apply KeepsO.ite
    | apply KeepsO.foldl | exact KeepsP.none _ | apply KeepsP.some | apply KeepsP.ite | apply Keeps1.mk'
    | apply Keeps1.ite | apply Keeps1.foldl | apply Keeps2.mk' | apply Keeps2.ite | apply Keeps2.foldl | intro _ _ _
    | intro _ _ | intro _ | split | (fail_if_no_progress dsimp only) | refine KeepsO.oSome ?_ (by assumption)
    | refine KeepsP.some_keeps ?_ _ _ (by assumption) | refine Keeps1.eq ?_ (by assumption)
    | refine Keeps2.eq ?_ (by assumption)

theorem execPlainLoad_keeps {r0_ s : State} {a : Agent} {dpa : BitVec 43} {len : Nat} {late : Bool} (h_ : Keeps r0_ s) : KeepsR r0_ (execPlainLoad a dpa len late s) := by
  unfold execPlainLoad
  with_reducible repeat' first
    | assumption | apply KeepsR.next | exact KeepsR.fault _ _ | apply KeepsR.ite | apply Keeps.ite
    | apply Keeps.foldl | apply Keeps.getD | apply State.access_keeps
    | ((fail_if_no_progress extract_lets +onlyGivenNames x); first | ((first | refine Keeps.cut (t := x) ?_ ?_ | refine KeepsR.cut (t := x) ?_ ?_ | refine Keeps.cutO (o := x) ?_ ?_ | refine Keeps.cutP (o := x) ?_ ?_ | refine Keeps.cut1 (o := x) ?_ ?_ | refine Keeps.cut2 (o := x) ?_ ?_); rotate_left; (clear_value x; intro hx); rotate_left; (try subst x)) | (have _h := Keeps.memv x; clear _h) | (have _h := Keeps.bytesv x; clear _h) | (have _h := Keeps.fn x; clear _h; dsimp only [x]; clear x) | (have _h := Keeps.fn2 x; clear _h; dsimp only [x]; clear x) | clear_value x)
    | (fail_if_no_progress refine Keeps.upd ?_ ⟨rfl, rfl, rfl, rfl, rfl⟩)
    | (fail_if_no_progress ((apply Keeps.of_mk; (focus exact rfl); (focus exact rfl)); (with_unfolding_all focus first | (exact fun w => w) | exact SMap.wf_set _ _ | exact SMap.wf_filter _); (with_unfolding_all focus first | (exact fun w => w) | exact SMap.wf_putBytes _ _ | exact SMap.wf_clearRange _ _ | exact SMap.wf_filter _ | (exact fun w => SMap.wf_foldl_set _ _ _ (SMap.wf_clearRange _ _ w)) | (exact fun _ => SMap.wf_nil' _)); (focus first | exact Nat.le_refl _ | exact Nat.le_succ _ | exact Nat.le_add_right _ _)))
    | apply Keeps.foldl1 | apply Keeps.foldl2 | apply Keeps.ite1 | apply Keeps.ite2
    | refine KeepsP.some_keeps (by assumption) _ _ (by assumption)
    | refine KeepsO.oSome (by assumption) (by assumption) | refine KeepsO.oSome (by assumption) rfl
    | refine KeepsP.some_keeps (by assumption) _ _ rfl | apply KeepsP.map | refine Keeps1.keeps (by assumption)
    | refine Keeps2.keeps (by assumption) | exact KeepsO.none _ | apply KeepsO.some | apply KeepsO.ite
    | apply KeepsO.foldl | exact KeepsP.none _ | apply KeepsP.some | apply KeepsP.ite | apply Keeps1.mk'
    | apply Keeps1.ite | apply Keeps1.foldl | apply Keeps2.mk' | apply Keeps2.ite | apply Keeps2.foldl | intro _ _ _
    | intro _ _ | intro _ | split | (fail_if_no_progress dsimp only) | refine KeepsO.oSome ?_ (by assumption)
    | refine KeepsP.some_keeps ?_ _ _ (by assumption) | refine Keeps1.eq ?_ (by assumption)
    | refine Keeps2.eq ?_ (by assumption)

theorem execPlainStore_keeps {r0_ s : State} {a : Agent} {dpa : BitVec 43} {data : List Byte} {late : Bool} (h_ : Keeps r0_ s) : KeepsR r0_ (execPlainStore a dpa data late s) := by
  unfold execPlainStore
  with_reducible repeat' first
    | assumption | apply KeepsR.next | exact KeepsR.fault _ _ | apply KeepsR.ite | apply Keeps.ite
    | apply Keeps.foldl | apply Keeps.getD | apply State.access_keeps
    | ((fail_if_no_progress extract_lets +onlyGivenNames x); first | ((first | refine Keeps.cut (t := x) ?_ ?_ | refine KeepsR.cut (t := x) ?_ ?_ | refine Keeps.cutO (o := x) ?_ ?_ | refine Keeps.cutP (o := x) ?_ ?_ | refine Keeps.cut1 (o := x) ?_ ?_ | refine Keeps.cut2 (o := x) ?_ ?_); rotate_left; (clear_value x; intro hx); rotate_left; (try subst x)) | (have _h := Keeps.memv x; clear _h) | (have _h := Keeps.bytesv x; clear _h) | (have _h := Keeps.fn x; clear _h; dsimp only [x]; clear x) | (have _h := Keeps.fn2 x; clear _h; dsimp only [x]; clear x) | clear_value x)
    | (fail_if_no_progress refine Keeps.upd ?_ ⟨rfl, rfl, rfl, rfl, rfl⟩)
    | (fail_if_no_progress ((apply Keeps.of_mk; (focus exact rfl); (focus exact rfl)); (with_unfolding_all focus first | (exact fun w => w) | exact SMap.wf_set _ _ | exact SMap.wf_filter _); (with_unfolding_all focus first | (exact fun w => w) | exact SMap.wf_putBytes _ _ | exact SMap.wf_clearRange _ _ | exact SMap.wf_filter _ | (exact fun w => SMap.wf_foldl_set _ _ _ (SMap.wf_clearRange _ _ w)) | (exact fun _ => SMap.wf_nil' _)); (focus first | exact Nat.le_refl _ | exact Nat.le_succ _ | exact Nat.le_add_right _ _)))
    | apply Keeps.foldl1 | apply Keeps.foldl2 | apply Keeps.ite1 | apply Keeps.ite2
    | refine KeepsP.some_keeps (by assumption) _ _ (by assumption)
    | refine KeepsO.oSome (by assumption) (by assumption) | refine KeepsO.oSome (by assumption) rfl
    | refine KeepsP.some_keeps (by assumption) _ _ rfl | apply KeepsP.map | refine Keeps1.keeps (by assumption)
    | refine Keeps2.keeps (by assumption) | exact KeepsO.none _ | apply KeepsO.some | apply KeepsO.ite
    | apply KeepsO.foldl | exact KeepsP.none _ | apply KeepsP.some | apply KeepsP.ite | apply Keeps1.mk'
    | apply Keeps1.ite | apply Keeps1.foldl | apply Keeps2.mk' | apply Keeps2.ite | apply Keeps2.foldl | intro _ _ _
    | intro _ _ | intro _ | split | (fail_if_no_progress dsimp only) | refine KeepsO.oSome ?_ (by assumption)
    | refine KeepsP.some_keeps ?_ _ _ (by assumption) | refine Keeps1.eq ?_ (by assumption)
    | refine Keeps2.eq ?_ (by assumption)

theorem execLoadAcquire_keeps {r0_ s : State} {a : Agent} {dpa : BitVec 43} {len : Nat} (h_ : Keeps r0_ s) : KeepsR r0_ (execLoadAcquire a dpa len s) := by
  unfold execLoadAcquire
  with_reducible repeat' first
    | assumption | apply KeepsR.next | exact KeepsR.fault _ _ | apply KeepsR.ite | apply Keeps.ite
    | apply Keeps.foldl | apply Keeps.getD | apply State.access_keeps
    | ((fail_if_no_progress extract_lets +onlyGivenNames x); first | ((first | refine Keeps.cut (t := x) ?_ ?_ | refine KeepsR.cut (t := x) ?_ ?_ | refine Keeps.cutO (o := x) ?_ ?_ | refine Keeps.cutP (o := x) ?_ ?_ | refine Keeps.cut1 (o := x) ?_ ?_ | refine Keeps.cut2 (o := x) ?_ ?_); rotate_left; (clear_value x; intro hx); rotate_left; (try subst x)) | (have _h := Keeps.memv x; clear _h) | (have _h := Keeps.bytesv x; clear _h) | (have _h := Keeps.fn x; clear _h; dsimp only [x]; clear x) | (have _h := Keeps.fn2 x; clear _h; dsimp only [x]; clear x) | clear_value x)
    | (fail_if_no_progress refine Keeps.upd ?_ ⟨rfl, rfl, rfl, rfl, rfl⟩)
    | (fail_if_no_progress ((apply Keeps.of_mk; (focus exact rfl); (focus exact rfl)); (with_unfolding_all focus first | (exact fun w => w) | exact SMap.wf_set _ _ | exact SMap.wf_filter _); (with_unfolding_all focus first | (exact fun w => w) | exact SMap.wf_putBytes _ _ | exact SMap.wf_clearRange _ _ | exact SMap.wf_filter _ | (exact fun w => SMap.wf_foldl_set _ _ _ (SMap.wf_clearRange _ _ w)) | (exact fun _ => SMap.wf_nil' _)); (focus first | exact Nat.le_refl _ | exact Nat.le_succ _ | exact Nat.le_add_right _ _)))
    | apply Keeps.foldl1 | apply Keeps.foldl2 | apply Keeps.ite1 | apply Keeps.ite2
    | refine KeepsP.some_keeps (by assumption) _ _ (by assumption)
    | refine KeepsO.oSome (by assumption) (by assumption) | refine KeepsO.oSome (by assumption) rfl
    | refine KeepsP.some_keeps (by assumption) _ _ rfl | apply KeepsP.map | refine Keeps1.keeps (by assumption)
    | refine Keeps2.keeps (by assumption) | exact KeepsO.none _ | apply KeepsO.some | apply KeepsO.ite
    | apply KeepsO.foldl | exact KeepsP.none _ | apply KeepsP.some | apply KeepsP.ite | apply Keeps1.mk'
    | apply Keeps1.ite | apply Keeps1.foldl | apply Keeps2.mk' | apply Keeps2.ite | apply Keeps2.foldl | intro _ _ _
    | intro _ _ | intro _ | split | (fail_if_no_progress dsimp only) | refine KeepsO.oSome ?_ (by assumption)
    | refine KeepsP.some_keeps ?_ _ _ (by assumption) | refine Keeps1.eq ?_ (by assumption)
    | refine Keeps2.eq ?_ (by assumption)

theorem execStoreRelease_keeps {r0_ s : State} {a : Agent} {dpa : BitVec 43} {data : List Byte} {late : Bool} (h_ : Keeps r0_ s) : KeepsR r0_ (execStoreRelease a dpa data late s) := by
  unfold execStoreRelease
  with_reducible repeat' first
    | assumption | apply KeepsR.next | exact KeepsR.fault _ _ | apply KeepsR.ite | apply Keeps.ite
    | apply Keeps.foldl | apply Keeps.getD | apply State.access_keeps
    | ((fail_if_no_progress extract_lets +onlyGivenNames x); first | ((first | refine Keeps.cut (t := x) ?_ ?_ | refine KeepsR.cut (t := x) ?_ ?_ | refine Keeps.cutO (o := x) ?_ ?_ | refine Keeps.cutP (o := x) ?_ ?_ | refine Keeps.cut1 (o := x) ?_ ?_ | refine Keeps.cut2 (o := x) ?_ ?_); rotate_left; (clear_value x; intro hx); rotate_left; (try subst x)) | (have _h := Keeps.memv x; clear _h) | (have _h := Keeps.bytesv x; clear _h) | (have _h := Keeps.fn x; clear _h; dsimp only [x]; clear x) | (have _h := Keeps.fn2 x; clear _h; dsimp only [x]; clear x) | clear_value x)
    | (fail_if_no_progress refine Keeps.upd ?_ ⟨rfl, rfl, rfl, rfl, rfl⟩)
    | (fail_if_no_progress ((apply Keeps.of_mk; (focus exact rfl); (focus exact rfl)); (with_unfolding_all focus first | (exact fun w => w) | exact SMap.wf_set _ _ | exact SMap.wf_filter _); (with_unfolding_all focus first | (exact fun w => w) | exact SMap.wf_putBytes _ _ | exact SMap.wf_clearRange _ _ | exact SMap.wf_filter _ | (exact fun w => SMap.wf_foldl_set _ _ _ (SMap.wf_clearRange _ _ w)) | (exact fun _ => SMap.wf_nil' _)); (focus first | exact Nat.le_refl _ | exact Nat.le_succ _ | exact Nat.le_add_right _ _)))
    | apply Keeps.foldl1 | apply Keeps.foldl2 | apply Keeps.ite1 | apply Keeps.ite2
    | refine KeepsP.some_keeps (by assumption) _ _ (by assumption)
    | refine KeepsO.oSome (by assumption) (by assumption) | refine KeepsO.oSome (by assumption) rfl
    | refine KeepsP.some_keeps (by assumption) _ _ rfl | apply KeepsP.map | refine Keeps1.keeps (by assumption)
    | refine Keeps2.keeps (by assumption) | exact KeepsO.none _ | apply KeepsO.some | apply KeepsO.ite
    | apply KeepsO.foldl | exact KeepsP.none _ | apply KeepsP.some | apply KeepsP.ite | apply Keeps1.mk'
    | apply Keeps1.ite | apply Keeps1.foldl | apply Keeps2.mk' | apply Keeps2.ite | apply Keeps2.foldl | intro _ _ _
    | intro _ _ | intro _ | split | (fail_if_no_progress dsimp only) | refine KeepsO.oSome ?_ (by assumption)
    | refine KeepsP.some_keeps ?_ _ _ (by assumption) | refine Keeps1.eq ?_ (by assumption)
    | refine Keeps2.eq ?_ (by assumption)

theorem State.waitSync_keeps {r0_ s : State} {a : Agent} {behind : List AgentItem} (h_ : Keeps r0_ s) : Keeps r0_ (State.waitSync s a behind) := by
  unfold State.waitSync
  with_reducible repeat' first
    | assumption | apply Keeps.ite | apply Keeps.foldl | apply Keeps.getD | apply State.setAgent_keeps
    | ((fail_if_no_progress extract_lets +onlyGivenNames x); first | ((first | refine Keeps.cut (t := x) ?_ ?_ | refine Keeps.cutO (o := x) ?_ ?_ | refine Keeps.cutP (o := x) ?_ ?_ | refine Keeps.cut1 (o := x) ?_ ?_ | refine Keeps.cut2 (o := x) ?_ ?_); rotate_left; (clear_value x; intro hx); rotate_left; (try subst x)) | (have _h := Keeps.memv x; clear _h) | (have _h := Keeps.bytesv x; clear _h) | (have _h := Keeps.fn x; clear _h; dsimp only [x]; clear x) | (have _h := Keeps.fn2 x; clear _h; dsimp only [x]; clear x) | clear_value x)
    | (fail_if_no_progress refine Keeps.upd ?_ ⟨rfl, rfl, rfl, rfl, rfl⟩)
    | (fail_if_no_progress ((apply Keeps.of_mk; (focus exact rfl); (focus exact rfl)); (with_unfolding_all focus first | (exact fun w => w) | exact SMap.wf_set _ _ | exact SMap.wf_filter _); (with_unfolding_all focus first | (exact fun w => w) | exact SMap.wf_putBytes _ _ | exact SMap.wf_clearRange _ _ | exact SMap.wf_filter _ | (exact fun w => SMap.wf_foldl_set _ _ _ (SMap.wf_clearRange _ _ w)) | (exact fun _ => SMap.wf_nil' _)); (focus first | exact Nat.le_refl _ | exact Nat.le_succ _ | exact Nat.le_add_right _ _)))
    | apply Keeps.foldl1 | apply Keeps.foldl2 | apply Keeps.ite1 | apply Keeps.ite2
    | refine KeepsP.some_keeps (by assumption) _ _ (by assumption)
    | refine KeepsO.oSome (by assumption) (by assumption) | refine KeepsO.oSome (by assumption) rfl
    | refine KeepsP.some_keeps (by assumption) _ _ rfl | apply KeepsP.map | refine Keeps1.keeps (by assumption)
    | refine Keeps2.keeps (by assumption) | exact KeepsO.none _ | apply KeepsO.some | apply KeepsO.ite
    | apply KeepsO.foldl | exact KeepsP.none _ | apply KeepsP.some | apply KeepsP.ite | apply Keeps1.mk'
    | apply Keeps1.ite | apply Keeps1.foldl | apply Keeps2.mk' | apply Keeps2.ite | apply Keeps2.foldl | intro _ _ _
    | intro _ _ | intro _ | split | (fail_if_no_progress dsimp only) | refine KeepsO.oSome ?_ (by assumption)
    | refine KeepsP.some_keeps ?_ _ _ (by assumption) | refine Keeps1.eq ?_ (by assumption)
    | refine Keeps2.eq ?_ (by assumption)

theorem execSync_keeps {r0_ s : State} {a : Agent} (h_ : Keeps r0_ s) : KeepsR r0_ (execSync a s) := by
  unfold execSync
  with_reducible repeat' first
    | assumption | apply KeepsR.next | exact KeepsR.fault _ _ | apply KeepsR.ite | apply Keeps.ite
    | apply Keeps.foldl | apply Keeps.getD | apply State.setAgent_keeps | apply State.waitSync_keeps
    | ((fail_if_no_progress extract_lets +onlyGivenNames x); first | ((first | refine Keeps.cut (t := x) ?_ ?_ | refine KeepsR.cut (t := x) ?_ ?_ | refine Keeps.cutO (o := x) ?_ ?_ | refine Keeps.cutP (o := x) ?_ ?_ | refine Keeps.cut1 (o := x) ?_ ?_ | refine Keeps.cut2 (o := x) ?_ ?_); rotate_left; (clear_value x; intro hx); rotate_left; (try subst x)) | (have _h := Keeps.memv x; clear _h) | (have _h := Keeps.bytesv x; clear _h) | (have _h := Keeps.fn x; clear _h; dsimp only [x]; clear x) | (have _h := Keeps.fn2 x; clear _h; dsimp only [x]; clear x) | clear_value x)
    | (fail_if_no_progress refine Keeps.upd ?_ ⟨rfl, rfl, rfl, rfl, rfl⟩)
    | (fail_if_no_progress ((apply Keeps.of_mk; (focus exact rfl); (focus exact rfl)); (with_unfolding_all focus first | (exact fun w => w) | exact SMap.wf_set _ _ | exact SMap.wf_filter _); (with_unfolding_all focus first | (exact fun w => w) | exact SMap.wf_putBytes _ _ | exact SMap.wf_clearRange _ _ | exact SMap.wf_filter _ | (exact fun w => SMap.wf_foldl_set _ _ _ (SMap.wf_clearRange _ _ w)) | (exact fun _ => SMap.wf_nil' _)); (focus first | exact Nat.le_refl _ | exact Nat.le_succ _ | exact Nat.le_add_right _ _)))
    | apply Keeps.foldl1 | apply Keeps.foldl2 | apply Keeps.ite1 | apply Keeps.ite2
    | refine KeepsP.some_keeps (by assumption) _ _ (by assumption)
    | refine KeepsO.oSome (by assumption) (by assumption) | refine KeepsO.oSome (by assumption) rfl
    | refine KeepsP.some_keeps (by assumption) _ _ rfl | apply KeepsP.map | refine Keeps1.keeps (by assumption)
    | refine Keeps2.keeps (by assumption) | exact KeepsO.none _ | apply KeepsO.some | apply KeepsO.ite
    | apply KeepsO.foldl | exact KeepsP.none _ | apply KeepsP.some | apply KeepsP.ite | apply Keeps1.mk'
    | apply Keeps1.ite | apply Keeps1.foldl | apply Keeps2.mk' | apply Keeps2.ite | apply Keeps2.foldl | intro _ _ _
    | intro _ _ | intro _ | split | (fail_if_no_progress dsimp only) | refine KeepsO.oSome ?_ (by assumption)
    | refine KeepsP.some_keeps ?_ _ _ (by assumption) | refine Keeps1.eq ?_ (by assumption)
    | refine Keeps2.eq ?_ (by assumption)

theorem State.performAt_keeps {r0_ s : State} {a : Agent} {i : Nat} (h_ : Keeps r0_ s) : Keeps r0_ (State.performAt s a i) := by
  unfold State.performAt
  with_reducible repeat' first
    | assumption | apply Keeps.ite | apply Keeps.foldl | apply Keeps.getD | apply State.setAgent_keeps
    | apply State.perform_keeps
    | ((fail_if_no_progress extract_lets +onlyGivenNames x); first | ((first | refine Keeps.cut (t := x) ?_ ?_ | refine Keeps.cutO (o := x) ?_ ?_ | refine Keeps.cutP (o := x) ?_ ?_ | refine Keeps.cut1 (o := x) ?_ ?_ | refine Keeps.cut2 (o := x) ?_ ?_); rotate_left; (clear_value x; intro hx); rotate_left; (try subst x)) | (have _h := Keeps.memv x; clear _h) | (have _h := Keeps.bytesv x; clear _h) | (have _h := Keeps.fn x; clear _h; dsimp only [x]; clear x) | (have _h := Keeps.fn2 x; clear _h; dsimp only [x]; clear x) | clear_value x)
    | (fail_if_no_progress refine Keeps.upd ?_ ⟨rfl, rfl, rfl, rfl, rfl⟩)
    | (fail_if_no_progress ((apply Keeps.of_mk; (focus exact rfl); (focus exact rfl)); (with_unfolding_all focus first | (exact fun w => w) | exact SMap.wf_set _ _ | exact SMap.wf_filter _); (with_unfolding_all focus first | (exact fun w => w) | exact SMap.wf_putBytes _ _ | exact SMap.wf_clearRange _ _ | exact SMap.wf_filter _ | (exact fun w => SMap.wf_foldl_set _ _ _ (SMap.wf_clearRange _ _ w)) | (exact fun _ => SMap.wf_nil' _)); (focus first | exact Nat.le_refl _ | exact Nat.le_succ _ | exact Nat.le_add_right _ _)))
    | apply Keeps.foldl1 | apply Keeps.foldl2 | apply Keeps.ite1 | apply Keeps.ite2
    | refine KeepsP.some_keeps (by assumption) _ _ (by assumption)
    | refine KeepsO.oSome (by assumption) (by assumption) | refine KeepsO.oSome (by assumption) rfl
    | refine KeepsP.some_keeps (by assumption) _ _ rfl | apply KeepsP.map | refine Keeps1.keeps (by assumption)
    | refine Keeps2.keeps (by assumption) | exact KeepsO.none _ | apply KeepsO.some | apply KeepsO.ite
    | apply KeepsO.foldl | exact KeepsP.none _ | apply KeepsP.some | apply KeepsP.ite | apply Keeps1.mk'
    | apply Keeps1.ite | apply Keeps1.foldl | apply Keeps2.mk' | apply Keeps2.ite | apply Keeps2.foldl | intro _ _ _
    | intro _ _ | intro _ | split | (fail_if_no_progress dsimp only) | refine KeepsO.oSome ?_ (by assumption)
    | refine KeepsP.some_keeps ?_ _ _ (by assumption) | refine Keeps1.eq ?_ (by assumption)
    | refine Keeps2.eq ?_ (by assumption)

theorem State.dropAccesses_keeps {r0_ s : State} {d : Nat} (h_ : Keeps r0_ s) : Keeps r0_ (State.dropAccesses s d) := by
  unfold State.dropAccesses
  with_reducible repeat' first
    | assumption | apply Keeps.ite | apply Keeps.foldl | apply Keeps.getD | apply State.setAgent_keeps
    | ((fail_if_no_progress extract_lets +onlyGivenNames x); first | ((first | refine Keeps.cut (t := x) ?_ ?_ | refine Keeps.cutO (o := x) ?_ ?_ | refine Keeps.cutP (o := x) ?_ ?_ | refine Keeps.cut1 (o := x) ?_ ?_ | refine Keeps.cut2 (o := x) ?_ ?_); rotate_left; (clear_value x; intro hx); rotate_left; (try subst x)) | (have _h := Keeps.memv x; clear _h) | (have _h := Keeps.bytesv x; clear _h) | (have _h := Keeps.fn x; clear _h; dsimp only [x]; clear x) | (have _h := Keeps.fn2 x; clear _h; dsimp only [x]; clear x) | clear_value x)
    | (fail_if_no_progress refine Keeps.upd ?_ ⟨rfl, rfl, rfl, rfl, rfl⟩)
    | (fail_if_no_progress ((apply Keeps.of_mk; (focus exact rfl); (focus exact rfl)); (with_unfolding_all focus first | (exact fun w => w) | exact SMap.wf_set _ _ | exact SMap.wf_filter _); (with_unfolding_all focus first | (exact fun w => w) | exact SMap.wf_putBytes _ _ | exact SMap.wf_clearRange _ _ | exact SMap.wf_filter _ | (exact fun w => SMap.wf_foldl_set _ _ _ (SMap.wf_clearRange _ _ w)) | (exact fun _ => SMap.wf_nil' _)); (focus first | exact Nat.le_refl _ | exact Nat.le_succ _ | exact Nat.le_add_right _ _)))
    | apply Keeps.foldl1 | apply Keeps.foldl2 | apply Keeps.ite1 | apply Keeps.ite2
    | refine KeepsP.some_keeps (by assumption) _ _ (by assumption)
    | refine KeepsO.oSome (by assumption) (by assumption) | refine KeepsO.oSome (by assumption) rfl
    | refine KeepsP.some_keeps (by assumption) _ _ rfl | apply KeepsP.map | refine Keeps1.keeps (by assumption)
    | refine Keeps2.keeps (by assumption) | exact KeepsO.none _ | apply KeepsO.some | apply KeepsO.ite
    | apply KeepsO.foldl | exact KeepsP.none _ | apply KeepsP.some | apply KeepsP.ite | apply Keeps1.mk'
    | apply Keeps1.ite | apply Keeps1.foldl | apply Keeps2.mk' | apply Keeps2.ite | apply Keeps2.foldl | intro _ _ _
    | intro _ _ | intro _ | split | (fail_if_no_progress dsimp only) | refine KeepsO.oSome ?_ (by assumption)
    | refine KeepsP.some_keeps ?_ _ _ (by assumption) | refine Keeps1.eq ?_ (by assumption)
    | refine Keeps2.eq ?_ (by assumption)

end Sys2Proof.Machine
end

