-- ==== Sys2Proof/Laws/KeepsWork.lean ====
section
/-! SUPPORT. What the definitions of the Canvas, models, walks and the units that perform their macros keep. -/

set_option linter.unusedTactic false
set_option linter.unreachableTactic false

namespace Sys2Proof.Machine

/-! ### Canvas -/

theorem State.writeAll_keeps {r0_ s : State} {d : JobDesc} {v w : Nat} (h_ : Keeps r0_ s) : Keeps r0_ (State.writeAll s d v w) := by
  unfold State.writeAll
  with_reducible repeat' first
    | assumption | apply Keeps.ite | apply Keeps.foldl | apply Keeps.getD | apply State.wrNat_keeps
    | apply State.abortStored_keeps
    | ((fail_if_no_progress extract_lets +onlyGivenNames x); first | ((first | refine Keeps.cut (t := x) ?_ ?_ | refine Keeps.cutO (o := x) ?_ ?_ | refine Keeps.cutP (o := x) ?_ ?_ | refine Keeps.cut1 (o := x) ?_ ?_ | refine Keeps.cut2 (o := x) ?_ ?_); rotate_left; (clear_value x; intro hx); rotate_left; (try subst x)) | (have _h := Keeps.memv x; clear _h) | (have _h := Keeps.bytesv x; clear _h) | (have _h := Keeps.fn x; clear _h; dsimp only [x]; clear x) | (have _h := Keeps.fn2 x; clear _h; dsimp only [x]; clear x) | clear_value x)
    | (fail_if_no_progress refine Keeps.upd ?_ ⟨rfl, rfl, rfl, rfl, rfl⟩)
    | (fail_if_no_progress ((apply Keeps.of_mk; (focus exact rfl); (focus exact rfl)); (with_unfolding_all focus first | (exact fun w => w) | exact SMap.wf_set _ _ | exact SMap.wf_filter _); (with_unfolding_all focus first | (exact fun w => w) | exact SMap.wf_putBytes _ _ | exact SMap.wf_clearRange _ _ | exact SMap.wf_filter _ | (exact fun w => SMap.wf_foldl_set _ _ _ (SMap.wf_clearRange _ _ w)) | (exact fun _ => SMap.wf_nil' _)); (focus first | exact Nat.le_refl _ | exact Nat.le_succ _ | exact Nat.le_add_right _ _)))
    | apply Keeps.foldl1 | apply Keeps.foldl2 | apply Keeps.ite1 | apply Keeps.ite2
    | refine KeepsP.some_keeps (by assumption) _ _ (by assumption)
    | refine KeepsO.oSome (by assumption) (by assumption) | refine KeepsO.oSome (by assumption) rfl
    | refine KeepsP.some_keeps (by assumption) _ _ rfl | apply KeepsP.map | refine Keeps1.keeps (by assumption)
    | refine Keeps2.keeps (by assumption) | exact KeepsO.none _ | apply KeepsO.some | apply KeepsO.ite
    | apply KeepsO.foldl | exact KeepsP.none _ | apply KeepsP.some | apply KeepsP.ite | apply Keeps1.mk'
    | apply Keeps1.ite | apply Keeps1.foldl | apply Keeps2.mk' | apply Keeps2.ite | apply Keeps2.foldl | intro _ _ _
    | intro _ _ | intro _ | split | (fail_if_no_progress dsimp only) | refine KeepsO.oSome ?_ (by assumption)
    | refine KeepsP.some_keeps ?_ _ _ (by assumption) | refine Keeps1.eq ?_ (by assumption)
    | refine Keeps2.eq ?_ (by assumption)

theorem State.setJob_keeps {r0_ s : State} {j : Job} (h_ : Keeps r0_ s) : Keeps r0_ (State.setJob s j) := by
  unfold State.setJob
  with_reducible repeat' first
    | assumption | (fail_if_no_progress refine Keeps.upd ?_ ⟨rfl, rfl, rfl, rfl, rfl⟩)

theorem State.countJobs_keeps {r0_ s : State} {die : Nat} (h_ : Keeps r0_ s) : Keeps r0_ (State.countJobs s die) := by
  unfold State.countJobs
  with_reducible repeat' first
    | assumption | apply State.setFld_keeps

theorem State.writeVector_keeps {r0_ s : State} {j : Job} (h_ : Keeps r0_ s) : Keeps r0_ (State.writeVector s j) := by
  unfold State.writeVector
  with_reducible repeat' first
    | assumption | apply Keeps.ite | apply Keeps.foldl | apply Keeps.getD | apply State.wrNat_keeps
    | apply State.abortStored_keeps
    | ((fail_if_no_progress extract_lets +onlyGivenNames x); first | ((first | refine Keeps.cut (t := x) ?_ ?_ | refine Keeps.cutO (o := x) ?_ ?_ | refine Keeps.cutP (o := x) ?_ ?_ | refine Keeps.cut1 (o := x) ?_ ?_ | refine Keeps.cut2 (o := x) ?_ ?_); rotate_left; (clear_value x; intro hx); rotate_left; (try subst x)) | (have _h := Keeps.memv x; clear _h) | (have _h := Keeps.bytesv x; clear _h) | (have _h := Keeps.fn x; clear _h; dsimp only [x]; clear x) | (have _h := Keeps.fn2 x; clear _h; dsimp only [x]; clear x) | clear_value x)
    | (fail_if_no_progress refine Keeps.upd ?_ ⟨rfl, rfl, rfl, rfl, rfl⟩)
    | (fail_if_no_progress ((apply Keeps.of_mk; (focus exact rfl); (focus exact rfl)); (with_unfolding_all focus first | (exact fun w => w) | exact SMap.wf_set _ _ | exact SMap.wf_filter _); (with_unfolding_all focus first | (exact fun w => w) | exact SMap.wf_putBytes _ _ | exact SMap.wf_clearRange _ _ | exact SMap.wf_filter _ | (exact fun w => SMap.wf_foldl_set _ _ _ (SMap.wf_clearRange _ _ w)) | (exact fun _ => SMap.wf_nil' _)); (focus first | exact Nat.le_refl _ | exact Nat.le_succ _ | exact Nat.le_add_right _ _)))
    | apply Keeps.foldl1 | apply Keeps.foldl2 | apply Keeps.ite1 | apply Keeps.ite2
    | refine KeepsP.some_keeps (by assumption) _ _ (by assumption)
    | refine KeepsO.oSome (by assumption) (by assumption) | refine KeepsO.oSome (by assumption) rfl
    | refine KeepsP.some_keeps (by assumption) _ _ rfl | apply KeepsP.map | refine Keeps1.keeps (by assumption)
    | refine Keeps2.keeps (by assumption) | exact KeepsO.none _ | apply KeepsO.some | apply KeepsO.ite
    | apply KeepsO.foldl | exact KeepsP.none _ | apply KeepsP.some | apply KeepsP.ite | apply Keeps1.mk'
    | apply Keeps1.ite | apply Keeps1.foldl | apply Keeps2.mk' | apply Keeps2.ite | apply Keeps2.foldl | intro _ _ _
    | intro _ _ | intro _ | split | (fail_if_no_progress dsimp only) | refine KeepsO.oSome ?_ (by assumption)
    | refine KeepsP.some_keeps ?_ _ _ (by assumption) | refine Keeps1.eq ?_ (by assumption)
    | refine Keeps2.eq ?_ (by assumption)

theorem State.jobUe_keeps {r0_ s : State} {j : Job} {a : Nat} (h_ : Keeps r0_ s) : Keeps r0_ (State.jobUe s j a) := by
  unfold State.jobUe
  with_reducible repeat' first
    | assumption | apply Keeps.foldl | apply State.latch_keeps | apply State.failTag_keeps | apply State.lineUe_keeps
    | intro _ _ _

theorem State.dropJob_keeps {r0_ s : State} {j : Job} (h_ : Keeps r0_ s) : Keeps r0_ (State.dropJob s j) := by
  unfold State.dropJob
  with_reducible repeat' first
    | assumption | apply Keeps.ite | apply Keeps.foldl | apply Keeps.getD | apply State.countJobs_keeps
    | ((fail_if_no_progress extract_lets +onlyGivenNames x); first | ((first | refine Keeps.cut (t := x) ?_ ?_ | refine Keeps.cutO (o := x) ?_ ?_ | refine Keeps.cutP (o := x) ?_ ?_ | refine Keeps.cut1 (o := x) ?_ ?_ | refine Keeps.cut2 (o := x) ?_ ?_); rotate_left; (clear_value x; intro hx); rotate_left; (try subst x)) | (have _h := Keeps.memv x; clear _h) | (have _h := Keeps.bytesv x; clear _h) | (have _h := Keeps.fn x; clear _h; dsimp only [x]; clear x) | (have _h := Keeps.fn2 x; clear _h; dsimp only [x]; clear x) | clear_value x)
    | (fail_if_no_progress refine Keeps.upd ?_ ⟨rfl, rfl, rfl, rfl, rfl⟩)
    | (fail_if_no_progress ((apply Keeps.of_mk; (focus exact rfl); (focus exact rfl)); (with_unfolding_all focus first | (exact fun w => w) | exact SMap.wf_set _ _ | exact SMap.wf_filter _); (with_unfolding_all focus first | (exact fun w => w) | exact SMap.wf_putBytes _ _ | exact SMap.wf_clearRange _ _ | exact SMap.wf_filter _ | (exact fun w => SMap.wf_foldl_set _ _ _ (SMap.wf_clearRange _ _ w)) | (exact fun _ => SMap.wf_nil' _)); (focus first | exact Nat.le_refl _ | exact Nat.le_succ _ | exact Nat.le_add_right _ _)))
    | apply Keeps.foldl1 | apply Keeps.foldl2 | apply Keeps.ite1 | apply Keeps.ite2
    | refine KeepsP.some_keeps (by assumption) _ _ (by assumption)
    | refine KeepsO.oSome (by assumption) (by assumption) | refine KeepsO.oSome (by assumption) rfl
    | refine KeepsP.some_keeps (by assumption) _ _ rfl | apply KeepsP.map | refine Keeps1.keeps (by assumption)
    | refine Keeps2.keeps (by assumption) | exact KeepsO.none _ | apply KeepsO.some | apply KeepsO.ite
    | apply KeepsO.foldl | exact KeepsP.none _ | apply KeepsP.some | apply KeepsP.ite | apply Keeps1.mk'
    | apply Keeps1.ite | apply Keeps1.foldl | apply Keeps2.mk' | apply Keeps2.ite | apply Keeps2.foldl | intro _ _ _
    | intro _ _ | intro _ | split | (fail_if_no_progress dsimp only) | refine KeepsO.oSome ?_ (by assumption)
    | refine KeepsP.some_keeps ?_ _ _ (by assumption) | refine Keeps1.eq ?_ (by assumption)
    | refine Keeps2.eq ?_ (by assumption)

theorem State.loadVector_keeps {r0_ s : State} {j : Job} {n_ : Nat} (h_ : Keeps r0_ s) : Keeps r0_ (State.loadVector s j n_) := by
  induction n_ generalizing s j with
  | zero =>
    unfold State.loadVector
    with_reducible repeat' first
      | assumption | apply Keeps.ite | apply Keeps.foldl | apply Keeps.getD | apply State.inc_keeps
      | apply State.failTag_keeps | apply State.useFor_keeps | apply State.writeAll_keeps | apply State.setJob_keeps
      | apply State.jobUe_keeps | apply State.dropJob_keeps | apply ih
      | ((fail_if_no_progress extract_lets +onlyGivenNames x); first | ((first | refine Keeps.cut (t := x) ?_ ?_ | refine Keeps.cutO (o := x) ?_ ?_ | refine Keeps.cutP (o := x) ?_ ?_ | refine Keeps.cut1 (o := x) ?_ ?_ | refine Keeps.cut2 (o := x) ?_ ?_); rotate_left; (clear_value x; intro hx); rotate_left; (try subst x)) | (have _h := Keeps.memv x; clear _h) | (have _h := Keeps.bytesv x; clear _h) | (have _h := Keeps.fn x; clear _h; dsimp only [x]; clear x) | (have _h := Keeps.fn2 x; clear _h; dsimp only [x]; clear x) | clear_value x)
      | (fail_if_no_progress refine Keeps.upd ?_ ⟨rfl, rfl, rfl, rfl, rfl⟩)
      | (fail_if_no_progress ((apply Keeps.of_mk; (focus exact rfl); (focus exact rfl)); (with_unfolding_all focus first | (exact fun w => w) | exact SMap.wf_set _ _ | exact SMap.wf_filter _); (with_unfolding_all focus first | (exact fun w => w) | exact SMap.wf_putBytes _ _ | exact SMap.wf_clearRange _ _ | exact SMap.wf_filter _ | (exact fun w => SMap.wf_foldl_set _ _ _ (SMap.wf_clearRange _ _ w)) | (exact fun _ => SMap.wf_nil' _)); (focus first | exact Nat.le_refl _ | exact Nat.le_succ _ | exact Nat.le_add_right _ _)))
      | apply Keeps.foldl1 | apply Keeps.foldl2 | apply Keeps.ite1 | apply Keeps.ite2
      | refine KeepsP.some_keeps (by assumption) _ _ (by assumption)
      | refine KeepsO.oSome (by assumption) (by assumption) | refine KeepsO.oSome (by assumption) rfl
      | refine KeepsP.some_keeps (by assumption) _ _ rfl | apply KeepsP.map | refine Keeps1.keeps (by assumption)
      | refine Keeps2.keeps (by assumption) | exact KeepsO.none _ | apply KeepsO.some | apply KeepsO.ite
      | apply KeepsO.foldl | exact KeepsP.none _ | apply KeepsP.some | apply KeepsP.ite | apply Keeps1.mk'
      | apply Keeps1.ite | apply Keeps1.foldl | apply Keeps2.mk' | apply Keeps2.ite | apply Keeps2.foldl
      | intro _ _ _ | intro _ _ | intro _ | split | (fail_if_no_progress dsimp only)
      | refine KeepsO.oSome ?_ (by assumption) | refine KeepsP.some_keeps ?_ _ _ (by assumption)
      | refine Keeps1.eq ?_ (by assumption) | refine Keeps2.eq ?_ (by assumption)
  | succ n ih =>
    unfold State.loadVector
    with_reducible repeat' first
      | assumption | apply Keeps.ite | apply Keeps.foldl | apply Keeps.getD | apply State.inc_keeps
      | apply State.failTag_keeps | apply State.useFor_keeps | apply State.writeAll_keeps | apply State.setJob_keeps
      | apply State.jobUe_keeps | apply State.dropJob_keeps | apply ih
      | ((fail_if_no_progress extract_lets +onlyGivenNames x); first | ((first | refine Keeps.cut (t := x) ?_ ?_ | refine Keeps.cutO (o := x) ?_ ?_ | refine Keeps.cutP (o := x) ?_ ?_ | refine Keeps.cut1 (o := x) ?_ ?_ | refine Keeps.cut2 (o := x) ?_ ?_); rotate_left; (clear_value x; intro hx); rotate_left; (try subst x)) | (have _h := Keeps.memv x; clear _h) | (have _h := Keeps.bytesv x; clear _h) | (have _h := Keeps.fn x; clear _h; dsimp only [x]; clear x) | (have _h := Keeps.fn2 x; clear _h; dsimp only [x]; clear x) | clear_value x)
      | (fail_if_no_progress refine Keeps.upd ?_ ⟨rfl, rfl, rfl, rfl, rfl⟩)
      | (fail_if_no_progress ((apply Keeps.of_mk; (focus exact rfl); (focus exact rfl)); (with_unfolding_all focus first | (exact fun w => w) | exact SMap.wf_set _ _ | exact SMap.wf_filter _); (with_unfolding_all focus first | (exact fun w => w) | exact SMap.wf_putBytes _ _ | exact SMap.wf_clearRange _ _ | exact SMap.wf_filter _ | (exact fun w => SMap.wf_foldl_set _ _ _ (SMap.wf_clearRange _ _ w)) | (exact fun _ => SMap.wf_nil' _)); (focus first | exact Nat.le_refl _ | exact Nat.le_succ _ | exact Nat.le_add_right _ _)))
      | apply Keeps.foldl1 | apply Keeps.foldl2 | apply Keeps.ite1 | apply Keeps.ite2
      | refine KeepsP.some_keeps (by assumption) _ _ (by assumption)
      | refine KeepsO.oSome (by assumption) (by assumption) | refine KeepsO.oSome (by assumption) rfl
      | refine KeepsP.some_keeps (by assumption) _ _ rfl | apply KeepsP.map | refine Keeps1.keeps (by assumption)
      | refine Keeps2.keeps (by assumption) | exact KeepsO.none _ | apply KeepsO.some | apply KeepsO.ite
      | apply KeepsO.foldl | exact KeepsP.none _ | apply KeepsP.some | apply KeepsP.ite | apply Keeps1.mk'
      | apply Keeps1.ite | apply Keeps1.foldl | apply Keeps2.mk' | apply Keeps2.ite | apply Keeps2.foldl
      | intro _ _ _ | intro _ _ | intro _ | split | (fail_if_no_progress dsimp only)
      | refine KeepsO.oSome ?_ (by assumption) | refine KeepsP.some_keeps ?_ _ _ (by assumption)
      | refine Keeps1.eq ?_ (by assumption) | refine Keeps2.eq ?_ (by assumption)

theorem State.advanceJob_keeps {r0_ s : State} {j : Job} (h_ : Keeps r0_ s) : Keeps r0_ (State.advanceJob s j) := by
  unfold State.advanceJob
  with_reducible repeat' first
    | assumption | apply Keeps.ite | apply State.setJob_keeps | apply State.writeVector_keeps
    | apply State.loadVector_keeps

theorem State.carryClamp_keeps {r0_ s : State} {j : Job} (h_ : Keeps r0_ s) : Keeps r0_ (State.carryClamp s j) := by
  unfold State.carryClamp
  with_reducible repeat' first
    | assumption | apply Keeps.foldl | apply State.setReq_keeps | intro _ _ _ | split

theorem State.countClamps_keeps {r0_ s : State} {q : Nat} {cols : List Nat} (h_ : Keeps r0_ s) : Keeps r0_ (State.countClamps s q cols) := by
  unfold State.countClamps
  with_reducible repeat' first
    | assumption | apply Keeps.foldl | apply State.setFld_keeps | apply State.inc_keeps | intro _ _ _

theorem State.evaluate_keeps {r0_ s : State} {j : Job} {e : SubEval} {gain : Nat} {rep : Bool} (h_ : Keeps r0_ s) : Keeps r0_ (State.evaluate s j e gain rep) := by
  unfold State.evaluate
  with_reducible repeat' first
    | assumption | apply Keeps.ite | apply Keeps.foldl | apply State.inc_keeps | apply State.useFor_keeps
    | apply State.setJob_keeps | apply State.advanceJob_keeps | apply State.carryClamp_keeps
    | apply State.countClamps_keeps
    | (fail_if_no_progress ((apply Keeps.of_mk; (focus exact rfl); (focus exact rfl)); (with_unfolding_all focus first | (exact fun w => w) | exact SMap.wf_set _ _ | exact SMap.wf_filter _); (with_unfolding_all focus first | (exact fun w => w) | exact SMap.wf_putBytes _ _ | exact SMap.wf_clearRange _ _ | exact SMap.wf_filter _ | (exact fun w => SMap.wf_foldl_set _ _ _ (SMap.wf_clearRange _ _ w)) | (exact fun _ => SMap.wf_nil' _)); (focus first | exact Nat.le_refl _ | exact Nat.le_succ _ | exact Nat.le_add_right _ _)))
    | intro _ _ _

theorem State.startEval_keeps {r0_ s : State} {j : Job} {e : SubEval} (h_ : Keeps r0_ s) : Keeps r0_ (State.startEval s j e) := by
  unfold State.startEval
  with_reducible repeat' first
    | assumption | apply State.evaluate_keeps

theorem State.loseCanvas_keeps {r0_ s : State} {die : Nat} (h_ : Keeps r0_ s) : Keeps r0_ (State.loseCanvas s die) := by
  unfold State.loseCanvas
  with_reducible repeat' first
    | assumption | apply Keeps.foldl | apply State.setBit_keeps | apply State.loseUnitAs_keeps | intro _ _ _

theorem execEvaluationSlot_keeps {r0_ s : State} {die : BitVec 2} {chk : Check} (h_ : Keeps r0_ s) : KeepsR r0_ (execEvaluationSlot die chk s) := by
  unfold execEvaluationSlot
  with_reducible repeat' first
    | assumption | apply KeepsR.next | apply Keeps.foldl | apply State.setFld_keeps | apply State.inc_keeps
    | apply State.latch_keeps | refine (State.cnvWork_keeps1 ?_).keeps | apply State.startEval_keeps
    | apply State.loseCanvas_keeps | (fail_if_no_progress refine Keeps.upd ?_ ⟨rfl, rfl, rfl, rfl, rfl⟩)
    | intro _ _ _ | split

theorem execRetryRepeat_keeps {r0_ s : State} {die : BitVec 2} {panel : BitVec 11} (h_ : Keeps r0_ s) : KeepsR r0_ (execRetryRepeat die panel s) := by
  unfold execRetryRepeat
  with_reducible repeat' first
    | assumption | apply KeepsR.next | apply State.evaluate_keeps | split

theorem State.takeLane_keeps {r0_ s : State} {p : Nat} {tag : BitVec 64} (h_ : Keeps r0_ s) : Keeps r0_ (State.takeLane s p tag) := by
  unfold State.takeLane
  with_reducible repeat' first
    | assumption
    | ((fail_if_no_progress extract_lets +onlyGivenNames x); first | ((refine Keeps.cut (t := x) ?_ ?_); rotate_left; (clear_value x; intro hx); rotate_left; (try subst x)) | clear_value x)
    | (fail_if_no_progress refine Keeps.upd ?_ ⟨rfl, rfl, rfl, rfl, rfl⟩) | split

theorem State.startJob_keeps {r0_ s : State} {die : Nat} {m : Model} {r : Req} {job step : Nat} (h_ : Keeps r0_ s) : Keeps r0_ (State.startJob s die m r job step) := by
  unfold State.startJob
  with_reducible repeat' first
    | assumption | apply Keeps.ite | apply Keeps.foldl | apply State.latch_keeps | apply State.failTag_keeps
    | apply State.useFor_keeps | apply State.countJobs_keeps | apply State.jobUe_keeps | apply State.loadVector_keeps
    | apply State.takeLane_keeps | (fail_if_no_progress refine Keeps.upd ?_ ⟨rfl, rfl, rfl, rfl, rfl⟩) | intro _ _ _
    | split

theorem State.beginJob_keeps {r0_ s : State} {die : Nat} {m : Model} {r : Req} {job : Nat} {front : Bool} (h_ : Keeps r0_ s) : Keeps r0_ (State.beginJob s die m r job front) := by
  unfold State.beginJob
  with_reducible repeat' first
    | assumption | apply State.startJob_keeps
    | ((fail_if_no_progress extract_lets +onlyGivenNames x); first | ((refine Keeps.cut (t := x) ?_ ?_); rotate_left; (clear_value x; intro hx); rotate_left; (try subst x)) | clear_value x)
    | (fail_if_no_progress refine Keeps.upd ?_ ⟨rfl, rfl, rfl, rfl, rfl⟩) | split

theorem execEval_keeps {r0_ s : State} {die : BitVec 2} {p : BitVec 7} {tag : BitVec 64} {handle : BitVec 16} {job : Nat} (h_ : Keeps r0_ s) : KeepsR r0_ (execEval die p tag handle job s) := by
  unfold execEval
  with_reducible repeat' first
    | assumption | apply KeepsR.next | apply State.beginJob_keeps | split

theorem State.startWaiting_keeps {r0_ s : State}  {n_ : Nat} (h_ : Keeps r0_ s) : Keeps r0_ (State.startWaiting s n_) := by
  induction n_ generalizing s  with
  | zero =>
    unfold State.startWaiting
    with_reducible repeat' first
      | assumption | apply State.beginJob_keeps | apply ih
      | ((fail_if_no_progress extract_lets +onlyGivenNames x); first | ((refine Keeps.cut (t := x) ?_ ?_); rotate_left; (clear_value x; intro hx); rotate_left; (try subst x)) | clear_value x)
      | (fail_if_no_progress refine Keeps.upd ?_ ⟨rfl, rfl, rfl, rfl, rfl⟩) | split
  | succ n ih =>
    unfold State.startWaiting
    with_reducible repeat' first
      | assumption | apply State.beginJob_keeps | apply ih
      | ((fail_if_no_progress extract_lets +onlyGivenNames x); first | ((refine Keeps.cut (t := x) ?_ ?_); rotate_left; (clear_value x; intro hx); rotate_left; (try subst x)) | clear_value x)
      | (fail_if_no_progress refine Keeps.upd ?_ ⟨rfl, rfl, rfl, rfl, rfl⟩) | split

/-! ### Upkeep -/

theorem State.countPanels_keeps {r0_ s : State} {g : Nat} (h_ : Keeps r0_ s) : Keeps r0_ (State.countPanels s g) := by
  unfold State.countPanels
  with_reducible repeat' first
    | assumption | apply State.setFld_keeps

theorem State.failProgram_keeps {r0_ s : State} {g panel col : Nat} (h_ : Keeps r0_ s) : Keeps r0_ (State.failProgram s g panel col) := by
  unfold State.failProgram
  with_reducible repeat' first
    | assumption | apply State.latchGroup_keeps | apply State.refuseLoad_keeps
    | ((fail_if_no_progress extract_lets +onlyGivenNames x); first | ((refine Keeps.cut (t := x) ?_ ?_); rotate_left; (clear_value x; intro hx); rotate_left; (try subst x)) | clear_value x)
    | split

theorem State.panelOut_keeps {r0_ s : State} {q col : Nat} (h_ : Keeps r0_ s) : Keeps r0_ (State.panelOut s q col) := by
  unfold State.panelOut
  with_reducible repeat' first
    | assumption | apply State.latchGroup_keeps | apply State.loseUnitAs_keeps | apply State.setPanel_keeps
    | apply State.countPanels_keeps | apply State.failProgram_keeps
    | ((fail_if_no_progress extract_lets +onlyGivenNames x); first | ((refine Keeps.cut (t := x) ?_ ?_); rotate_left; (clear_value x; intro hx); rotate_left; (try subst x)) | clear_value x)
    | split

theorem State.checkCopy_keeps2 {r0_ s : State} {q : Nat} (h_ : Keeps r0_ s) : Keeps2 r0_ (State.checkCopy s q) := by
  unfold State.checkCopy
  with_reducible repeat' first
    | assumption | apply Keeps2.mk' | apply Keeps.foldl | apply State.latchGroup_keeps | apply State.wr_keeps
    | apply State.loseUnitAs_keeps
    | ((fail_if_no_progress extract_lets +onlyGivenNames x); first | ((first | refine Keeps.cut (t := x) ?_ ?_ | refine Keeps2.cut (t := x) ?_ ?_ | refine Keeps.cutO (o := x) ?_ ?_ | refine Keeps.cutP (o := x) ?_ ?_ | refine Keeps.cut1 (o := x) ?_ ?_ | refine Keeps.cut2 (o := x) ?_ ?_); rotate_left; (clear_value x; intro hx); rotate_left; (try subst x)) | (have _h := Keeps.memv x; clear _h) | (have _h := Keeps.bytesv x; clear _h) | (have _h := Keeps.fn x; clear _h; dsimp only [x]; clear x) | (have _h := Keeps.fn2 x; clear _h; dsimp only [x]; clear x) | clear_value x)
    | (fail_if_no_progress refine Keeps.upd ?_ ⟨rfl, rfl, rfl, rfl, rfl⟩) | intro _ | split

theorem State.startBatches_keeps {r0_ s : State} {q : Nat} (h_ : Keeps r0_ s) : Keeps r0_ (State.startBatches s q) := by
  unfold State.startBatches
  with_reducible repeat' first
    | assumption | apply Keeps.ite | apply State.setBit_keeps | apply State.setGroup_keeps
    | apply State.setPanel_keeps

theorem State.writeBatch_keeps {r0_ s : State} {q b : Nat} (h_ : Keeps r0_ s) : Keeps r0_ (State.writeBatch s q b) := by
  unfold State.writeBatch
  with_reducible repeat' first
    | assumption | apply State.setPanel_keeps

theorem State.failColumns_keeps {r0_ s : State} {q : Nat} {cols : List Nat} (h_ : Keeps r0_ s) : Keeps r0_ (State.failColumns s q cols) := by
  unfold State.failColumns
  with_reducible repeat' first
    | assumption | apply Keeps.foldl | apply State.setPanel_keeps | apply State.panelOut_keeps
    | ((fail_if_no_progress extract_lets +onlyGivenNames x); first | ((refine Keeps.cut (t := x) ?_ ?_); rotate_left; (clear_value x; intro hx); rotate_left; (try subst x)) | clear_value x)
    | intro _ _ _ | split

theorem State.endBatches_keeps {r0_ s : State} {q : Nat} (h_ : Keeps r0_ s) : Keeps r0_ (State.endBatches s q) := by
  unfold State.endBatches
  with_reducible repeat' first
    | assumption | apply Keeps.ite | apply State.inc_keeps | apply State.setGroup_keeps | apply State.setPanel_keeps

theorem execProgramBatch_keeps {r0_ s : State} {die : BitVec 2} {panel : BitVec 11} {failed : List (BitVec 10)} (h_ : Keeps r0_ s) : KeepsR r0_ (execProgramBatch die panel failed s) := by
  unfold execProgramBatch
  with_reducible repeat' first
    | assumption | apply KeepsR.next | apply Keeps.ite | refine (State.cnvWork_keeps1 ?_).keeps
    | apply State.setPanel_keeps | apply State.failProgram_keeps | apply State.startBatches_keeps
    | apply State.writeBatch_keeps | apply State.failColumns_keeps | apply State.endBatches_keeps | split

theorem State.setBound_keeps {r0_ s : State} {m : Model} {b : BoundGroup} (h_ : Keeps r0_ s) : Keeps r0_ (State.setBound s m b) := by
  unfold State.setBound
  with_reducible repeat' first
    | assumption | apply State.setModel_keeps

theorem execVerifyRead_keeps {r0_ s : State} {g : Byte} {bad : List (BitVec 5 × BitVec 10)} (h_ : Keeps r0_ s) : KeepsR r0_ (execVerifyRead g bad s) := by
  unfold execVerifyRead
  with_reducible repeat' first
    | assumption | apply KeepsR.next | apply Keeps.foldl | apply State.setPanel_keeps | apply State.setBound_keeps
    | intro _ _ _ | split

theorem execErase_keeps {r0_ s : State} {g : Byte} {stuck : List (BitVec 5)} (h_ : Keeps r0_ s) : KeepsR r0_ (execErase g stuck s) := by
  unfold execErase
  with_reducible repeat' first
    | assumption | apply KeepsR.next | apply Keeps.ite | apply Keeps.foldl | apply State.latchGroup_keeps
    | apply State.eraseGroup_keeps | apply State.panelOut_keeps | intro _ _ _

theorem State.measurePanel_keeps1 {r0_ s : State} {q n : Nat} (h_ : Keeps r0_ s) : Keeps1 r0_ (State.measurePanel s q n) := by
  unfold State.measurePanel
  with_reducible repeat' first
    | assumption | apply Keeps1.mk' | apply State.setPanel_keeps

theorem State.judgePanel_keeps {r0_ s : State} {q top : Nat} (h_ : Keeps r0_ s) : Keeps r0_ (State.judgePanel s q top) := by
  unfold State.judgePanel
  with_reducible repeat' first
    | assumption | apply Keeps.ite | apply State.latchGroup_keeps | apply State.setPanel_keeps
    | apply State.panelOut_keeps

theorem State.countProgrammed_keeps {r0_ s : State} {g : Nat} (h_ : Keeps r0_ s) : Keeps r0_ (State.countProgrammed s g) := by
  unfold State.countProgrammed
  with_reducible repeat' first
    | assumption | apply State.setBit_keeps | apply State.setGroup_keeps | apply State.setBound_keeps | split

theorem execRereference_keeps {r0_ s : State} {g : Byte} {temp : Int} (h_ : Keeps r0_ s) : KeepsR r0_ (execRereference g temp s) := by
  unfold execRereference
  with_reducible repeat' first
    | assumption | apply KeepsR.next | apply Keeps.ite | apply Keeps.foldl | apply State.setReg_keeps
    | apply State.scheduleEvent_keeps | apply State.setGroup_keeps | refine (State.checkCopy_keeps2 ?_).keeps
    | refine (State.measurePanel_keeps1 ?_).keeps | apply State.judgePanel_keeps | apply State.countProgrammed_keeps
    | (fail_if_no_progress ((apply Keeps.of_mk; (focus exact rfl); (focus exact rfl)); (with_unfolding_all focus first | (exact fun w => w) | exact SMap.wf_set _ _ | exact SMap.wf_filter _); (with_unfolding_all focus first | (exact fun w => w) | exact SMap.wf_putBytes _ _ | exact SMap.wf_clearRange _ _ | exact SMap.wf_filter _ | (exact fun w => SMap.wf_foldl_set _ _ _ (SMap.wf_clearRange _ _ w)) | (exact fun _ => SMap.wf_nil' _)); (focus first | exact Nat.le_refl _ | exact Nat.le_succ _ | exact Nat.le_add_right _ _)))
    | apply Keeps.foldl1 | apply Keeps.foldl2 | intro _ _ _

theorem execTempTrack_keeps {r0_ s : State} {g : Byte} {temp : Int} (h_ : Keeps r0_ s) : KeepsR r0_ (execTempTrack g temp s) := by
  unfold execTempTrack
  with_reducible repeat' first
    | assumption | apply KeepsR.next | apply State.setGroup_keeps | split

theorem execRefresh_keeps {r0_ s : State} {die : BitVec 2} {panel : BitVec 11} (h_ : Keeps r0_ s) : KeepsR r0_ (execRefresh die panel s) := by
  unfold execRefresh
  with_reducible repeat' first
    | assumption | apply KeepsR.next | apply Keeps.ite | apply State.latchGroup_keeps | apply State.setPanel_keeps
    | refine (State.checkCopy_keeps2 ?_).keeps

theorem State.visitAgain_keeps {r0_ s : State} {q : Nat} (h_ : Keeps r0_ s) : Keeps r0_ (State.visitAgain s q) := by
  unfold State.visitAgain
  with_reducible repeat' first
    | assumption | apply Keeps.ite | apply State.setGroup_keeps

theorem State.columnFault_keeps {r0_ s : State} {q c : Nat} (h_ : Keeps r0_ s) : Keeps r0_ (State.columnFault s q c) := by
  unfold State.columnFault
  with_reducible repeat' first
    | assumption | apply State.latchGroup_keeps | apply State.suspect_keeps

theorem State.deviate_keeps {r0_ s : State} {q c : Nat} (h_ : Keeps r0_ s) : Keeps r0_ (State.deviate s q c) := by
  unfold State.deviate
  with_reducible repeat' first
    | assumption | apply State.inc_keeps | apply State.setGroup_keeps | apply State.setPanel_keeps
    | apply State.visitAgain_keeps | apply State.columnFault_keeps
    | ((fail_if_no_progress extract_lets +onlyGivenNames x); first | ((refine Keeps.cut (t := x) ?_ ?_); rotate_left; (clear_value x; intro hx); rotate_left; (try subst x)) | clear_value x)
    | split

theorem State.injSentinel_keeps {r0_ s : State} {q : Nat} (h_ : Keeps r0_ s) : Keeps r0_ (State.injSentinel s q) := by
  unfold State.injSentinel
  with_reducible repeat' first
    | assumption | apply Keeps.ite | apply State.injActed_keeps
    | (fail_if_no_progress refine Keeps.upd ?_ ⟨rfl, rfl, rfl, rfl, rfl⟩)

theorem execSentinelVisit_keeps {r0_ s : State} {die : BitVec 2} {panel : BitVec 11} {deviant : List (BitVec 10)} {refs : Bool} (h_ : Keeps r0_ s) : KeepsR r0_ (execSentinelVisit die panel deviant refs s) := by
  unfold execSentinelVisit
  with_reducible repeat' first
    | assumption | apply KeepsR.next | apply Keeps.ite | apply Keeps.foldl | apply State.inc_keeps
    | apply State.setGroup_keeps | apply State.setPanel_keeps | apply State.panelOut_keeps
    | refine (State.checkCopy_keeps2 ?_).keeps | apply State.columnFault_keeps | apply State.deviate_keeps
    | apply State.injSentinel_keeps | (fail_if_no_progress refine Keeps.upd ?_ ⟨rfl, rfl, rfl, rfl, rfl⟩)
    | intro _ _ _

theorem State.writeSpare_keeps {r0_ s : State} {q c pc : Nat} (h_ : Keeps r0_ s) : Keeps r0_ (State.writeSpare s q c pc) := by
  unfold State.writeSpare
  with_reducible repeat' first
    | assumption | apply State.setPanel_keeps

theorem execSpareProgram_keeps {r0_ s : State} {die : BitVec 2} {panel : BitVec 11} {col : BitVec 10} {stuck : Bool} (h_ : Keeps r0_ s) : KeepsR r0_ (execSpareProgram die panel col stuck s) := by
  unfold execSpareProgram
  with_reducible repeat' first
    | assumption | apply KeepsR.next | apply Keeps.ite | apply State.inc_keeps | apply State.setPanel_keeps
    | apply State.failProgram_keeps | apply State.panelOut_keeps | refine (State.checkCopy_keeps2 ?_).keeps
    | refine (State.measurePanel_keeps1 ?_).keeps | apply State.writeSpare_keeps
    | (fail_if_no_progress ((apply Keeps.of_mk; (focus exact rfl); (focus exact rfl)); (with_unfolding_all focus first | (exact fun w => w) | exact SMap.wf_set _ _ | exact SMap.wf_filter _); (with_unfolding_all focus first | (exact fun w => w) | exact SMap.wf_putBytes _ _ | exact SMap.wf_clearRange _ _ | exact SMap.wf_filter _ | (exact fun w => SMap.wf_foldl_set _ _ _ (SMap.wf_clearRange _ _ w)) | (exact fun _ => SMap.wf_nil' _)); (focus first | exact Nat.le_refl _ | exact Nat.le_succ _ | exact Nat.le_add_right _ _)))

theorem State.writeUpkCmd_keeps {r0_ s : State} {g : Nat} {v : Word} (h_ : Keeps r0_ s) : Keeps r0_ (State.writeUpkCmd s g v) := by
  unfold State.writeUpkCmd
  with_reducible repeat' first
    | assumption | apply Keeps.ite | apply State.wakeAll_keeps | apply State.setGroup_keeps

theorem execRereferenceNow_keeps {r0_ s : State} {m : Master} {g : Byte} {be : BitVec 4} (h_ : Keeps r0_ s) : KeepsR r0_ (execRereferenceNow m g be s) := by
  unfold execRereferenceNow
  with_reducible repeat' first
    | assumption | apply KeepsR.next | apply State.gated_keeps | apply State.writeUpkCmd_keeps | intro _ _

theorem execVisitNow_keeps {r0_ s : State} {m : Master} {g : Byte} {be : BitVec 4} (h_ : Keeps r0_ s) : KeepsR r0_ (execVisitNow m g be s) := by
  unfold execVisitNow
  with_reducible repeat' first
    | assumption | apply KeepsR.next | apply State.gated_keeps | apply State.writeUpkCmd_keeps | intro _ _

/-! ### Models -/

theorem State.relocAt_keeps {r0_ s : State} {secs : List Section} {a : Nat} {offs : List Nat} (h_ : Keeps r0_ s) : Keeps r0_ (State.relocAt s secs a offs) := by
  unfold State.relocAt
  with_reducible repeat' first
    | assumption | apply Keeps.foldl | apply State.wrNat_keeps | intro _ _ _

theorem State.relocate_keeps {r0_ s : State} {img : List Byte} {secs : List Section} (h_ : Keeps r0_ s) : Keeps r0_ (State.relocate s img secs) := by
  unfold State.relocate
  with_reducible repeat' first
    | assumption | apply Keeps.foldl | apply State.relocAt_keeps | intro _ _ _

theorem State.placeSection_keeps {r0_ s t : State} {p h : Nat} {img : List Byte} {r : SectionRef} {x : Section} {f : Nat × Nat}
    (h_ : Keeps r0_ s) (e : s.placeSection p h img r = some (x, f, t)) : Keeps r0_ t := by
  unfold State.placeSection at e
  extract_lets at e
  split at e
  · rename_i hh
    cases e
    exact State.wr_keeps ((State.takeIn_keepsO h_).some_keeps _ _ hh)
  · cases e

theorem State.placeSections_keeps {r0_ s t : State} {p h : Nat} {img : List Byte} {l : List SectionRef} {x : List Section}
    {f : List (Nat × Nat)} (h_ : Keeps r0_ s) (e : s.placeSections p h img l = some (x, f, t)) : Keeps r0_ t := by
  induction l generalizing s x f with
  | nil =>
    cases e
    exact h_
  | cons a l ih =>
    unfold State.placeSections at e
    split at e
    · cases e
    · rename_i hh
      split at e
      · cases e
      · rename_i hk
        cases e
        exact ih (State.placeSection_keeps h_ hh) hk

theorem State.placeLanes_keepsO {r0_ s : State} {p h n : Nat} {n_ : Nat} (h_ : Keeps r0_ s) : KeepsP r0_ (State.placeLanes s p h n n_) := by
  induction n_ generalizing s p h n with
  | zero =>
    unfold State.placeLanes
    with_reducible repeat' first
      | assumption | exact KeepsP.none _ | apply KeepsP.some
      | refine (State.takeIn_keepsO ?_).some_keeps _ _ (by assumption)
      | refine (ih ?_).some_keeps _ _ (by assumption) | split
  | succ n ih =>
    unfold State.placeLanes
    with_reducible repeat' first
      | assumption | exact KeepsP.none _ | apply KeepsP.some
      | refine (State.takeIn_keepsO ?_).some_keeps _ _ (by assumption)
      | refine (ih ?_).some_keeps _ _ (by assumption) | split

theorem State.placePanel_keepsO {r0_ s : State} {secs : List Section} {g q payload : Nat} {retained : Bool} (h_ : Keeps r0_ s) : KeepsO r0_ (State.placePanel s secs g q payload retained) := by
  unfold State.placePanel
  with_reducible repeat' first
    | assumption | exact KeepsO.none _ | apply KeepsO.some | apply State.wr_keeps
    | refine (State.takeBlock_keepsO ?_).some_keeps _ _ (by assumption) | apply State.setPanel_keeps | split

theorem State.placePanels_keepsO {r0_ s : State} {secs : List Section} {g : Nat} {retained : Bool} {n_ : List (Nat × Nat)} (h_ : Keeps r0_ s) : KeepsO r0_ (State.placePanels s secs g retained n_) := by
  induction n_ generalizing s secs g retained with
  | nil =>
    unfold State.placePanels
    with_reducible repeat' first
      | assumption | exact KeepsO.none _ | apply KeepsO.some
      | refine (State.placePanel_keepsO ?_).some_keeps _ (by assumption) | apply ih | split
  | cons hd n ih =>
    unfold State.placePanels
    with_reducible repeat' first
      | assumption | exact KeepsO.none _ | apply KeepsO.some
      | refine (State.placePanel_keepsO ?_).some_keeps _ (by assumption) | apply ih | split

theorem State.placeGroup_keepsO {r0_ s : State} {p h : Nat} {secs : List Section} {recs : List GroupRec} {b : BoundGroup} (h_ : Keeps r0_ s) : KeepsO r0_ (State.placeGroup s p h secs recs b) := by
  unfold State.placeGroup
  with_reducible repeat' first
    | assumption | apply KeepsO.some | apply State.setFld_keeps | apply State.setGroup_keeps
    | apply State.placePanels_keepsO | split

theorem State.placeGroups_keepsO {r0_ s : State} {p h : Nat} {secs : List Section} {recs : List GroupRec} {n_ : List BoundGroup} (h_ : Keeps r0_ s) : KeepsO r0_ (State.placeGroups s p h secs recs n_) := by
  induction n_ generalizing s p h secs recs with
  | nil =>
    unfold State.placeGroups
    with_reducible repeat' first
      | assumption | exact KeepsO.none _ | apply KeepsO.some
      | refine (State.placeGroup_keepsO ?_).some_keeps _ (by assumption) | apply ih | split
  | cons hd n ih =>
    unfold State.placeGroups
    with_reducible repeat' first
      | assumption | exact KeepsO.none _ | apply KeepsO.some
      | refine (State.placeGroup_keepsO ?_).some_keeps _ (by assumption) | apply ih | split

theorem State.rewriteMaps_keeps {r0_ s : State} {img : List Byte} {secs : List Section} {bs : List BoundGroup} (h_ : Keeps r0_ s) : Keeps r0_ (State.rewriteMaps s img secs bs) := by
  unfold State.rewriteMaps
  with_reducible repeat' first
    | assumption | apply Keeps.foldl | apply State.wrNat_keeps
    | ((fail_if_no_progress extract_lets +onlyGivenNames x); first | ((refine Keeps.cut (t := x) ?_ ?_); rotate_left; (clear_value x; intro hx); rotate_left; (try subst x)) | clear_value x)
    | intro _ _ _ | split

theorem State.conductCheck_keeps2 {r0_ s : State} {level : Nat} (h_ : Keeps r0_ s) : Keeps2 r0_ (State.conductCheck s level) := by
  unfold State.conductCheck
  with_reducible repeat' first
    | assumption | apply Keeps2.mk' | apply State.setReg_keeps | apply State.noteOld_keeps | split

theorem State.placeImage_keeps {r0_ s t : State} {p h : Nat} {img : List Byte}
    (h_ : Keeps r0_ s) (e : s.placeImage p h img = .inr t) : Keeps r0_ t := by
  unfold State.placeImage at e
  split at e
  · cases e
  · rename_i hh
    have h1 := State.placeSections_keeps h_ hh
    simp only at e
    split at e
    · cases e
    · rename_i hk
      have h2 := (State.placeLanes_keepsO h1).some_keeps _ _ hk
      split at e
      · cases e
      · split at e
        · cases e
        · split at e
          · cases e
          · rename_i hp
            cases e
            have h3 := (State.placeGroups_keepsO (State.rewriteMaps_keeps (State.relocate_keeps h2))).some_keeps _ hp
            exact Keeps.of_mk rfl rfl (fun w => w) (fun w => w) (Nat.le_refl _) h3

theorem State.serveLoad_keeps {r0_ s : State} {p q : Nat} {d : BitVec 1024} {image : HostRead (List Byte)} (h_ : Keeps r0_ s) : Keeps r0_ (State.serveLoad s p q d image) := by
  unfold State.serveLoad
  with_reducible repeat' first
    | assumption | apply Keeps.ite | apply Keeps.foldl | apply Keeps.getD | apply State.emit_keeps
    | apply State.kvpUpdate_keeps | apply State.fetch_keeps | apply State.refuse_keeps
    | apply State.conductCheck_keeps2 | refine Keeps2.eq (State.conductCheck_keeps2 ?_) (by assumption)
    | refine (State.conductCheck_keeps2 ?_).keeps | refine State.placeImage_keeps ?_ (by assumption)
    | ((fail_if_no_progress extract_lets +onlyGivenNames x); first | ((first | refine Keeps.cut (t := x) ?_ ?_ | refine Keeps.cutO (o := x) ?_ ?_ | refine Keeps.cutP (o := x) ?_ ?_ | refine Keeps.cut1 (o := x) ?_ ?_ | refine Keeps.cut2 (o := x) ?_ ?_); rotate_left; (clear_value x; intro hx); rotate_left; (try subst x)) | (have _h := Keeps.memv x; clear _h) | (have _h := Keeps.bytesv x; clear _h) | (have _h := Keeps.fn x; clear _h; dsimp only [x]; clear x) | (have _h := Keeps.fn2 x; clear _h; dsimp only [x]; clear x) | clear_value x)
    | (fail_if_no_progress refine Keeps.upd ?_ ⟨rfl, rfl, rfl, rfl, rfl⟩)
    | (fail_if_no_progress ((apply Keeps.of_mk; (focus exact rfl); (focus exact rfl)); (with_unfolding_all focus first | (exact fun w => w) | exact SMap.wf_set _ _ | exact SMap.wf_filter _); (with_unfolding_all focus first | (exact fun w => w) | exact SMap.wf_putBytes _ _ | exact SMap.wf_clearRange _ _ | exact SMap.wf_filter _ | (exact fun w => SMap.wf_foldl_set _ _ _ (SMap.wf_clearRange _ _ w)) | (exact fun _ => SMap.wf_nil' _)); (focus first | exact Nat.le_refl _ | exact Nat.le_succ _ | exact Nat.le_add_right _ _)))
    | apply Keeps.foldl1 | apply Keeps.foldl2 | apply Keeps.ite1 | apply Keeps.ite2
    | refine KeepsP.some_keeps (by assumption) _ _ (by assumption)
    | refine KeepsO.oSome (by assumption) (by assumption) | refine KeepsO.oSome (by assumption) rfl
    | refine KeepsP.some_keeps (by assumption) _ _ rfl | apply KeepsP.map | refine Keeps1.keeps (by assumption)
    | refine Keeps2.keeps (by assumption) | exact KeepsO.none _ | apply KeepsO.some | apply KeepsO.ite
    | apply KeepsO.foldl | exact KeepsP.none _ | apply KeepsP.some | apply KeepsP.ite | apply Keeps1.mk'
    | apply Keeps1.ite | apply Keeps1.foldl | apply Keeps2.mk' | apply Keeps2.ite | apply Keeps2.foldl | intro _ _ _
    | intro _ _ | intro _ | split | (fail_if_no_progress dsimp only) | refine KeepsO.oSome ?_ (by assumption)
    | refine KeepsP.some_keeps ?_ _ _ (by assumption) | refine Keeps1.eq ?_ (by assumption)
    | refine Keeps2.eq ?_ (by assumption)

theorem execLoadModel_keeps {r0_ s : State} {p : BitVec 7} {q : BitVec 3} {d : BitVec 1024} {image : HostRead (List Byte)} (h_ : Keeps r0_ s) : KeepsR r0_ (execLoadModel p q d image s) := by
  unfold execLoadModel
  with_reducible repeat' first
    | assumption | apply KeepsR.next | apply State.fetch_keeps | apply State.refuse_keeps | apply State.fetched_keeps
    | apply State.serveLoad_keeps
    | ((fail_if_no_progress extract_lets +onlyGivenNames x); first | ((first | refine Keeps.cut (t := x) ?_ ?_ | refine KeepsR.cut (t := x) ?_ ?_); rotate_left; (clear_value x; intro hx); rotate_left; (try subst x)) | clear_value x)
    | split

theorem execModelLoadComplete_keeps {r0_ s : State} {p : BitVec 7} {handle : BitVec 16} (h_ : Keeps r0_ s) : KeepsR r0_ (execModelLoadComplete p handle s) := by
  unfold execModelLoadComplete
  with_reducible repeat' first
    | assumption | apply KeepsR.next | apply State.complete_keeps | apply State.setModel_keeps
    | ((fail_if_no_progress extract_lets +onlyGivenNames x); first | ((first | refine Keeps.cut (t := x) ?_ ?_ | refine KeepsR.cut (t := x) ?_ ?_); rotate_left; (clear_value x; intro hx); rotate_left; (try subst x)) | clear_value x)
    | split

theorem execUnloadComplete_keeps {r0_ s : State} {p : BitVec 7} {handle : BitVec 16} (h_ : Keeps r0_ s) : KeepsR r0_ (execUnloadComplete p handle s) := by
  unfold execUnloadComplete
  with_reducible repeat' first
    | assumption | apply KeepsR.next | apply State.removeNodes_keeps | apply State.releaseImage_keeps
    | ((fail_if_no_progress extract_lets +onlyGivenNames x); first | ((first | refine Keeps.cut (t := x) ?_ ?_ | refine KeepsR.cut (t := x) ?_ ?_); rotate_left; (clear_value x; intro hx); rotate_left; (try subst x)) | clear_value x)
    | split

theorem State.writeConduct_keeps {r0_ s : State} {v : Word} (h_ : Keeps r0_ s) : Keeps r0_ (State.writeConduct s v) := by
  unfold State.writeConduct
  with_reducible repeat' first
    | assumption | apply Keeps.foldl | apply State.setReg_keeps | apply State.refuseLoad_keeps
    | ((fail_if_no_progress extract_lets +onlyGivenNames x); first | ((refine Keeps.cut (t := x) ?_ ?_); rotate_left; (clear_value x; intro hx); rotate_left; (try subst x)) | clear_value x)
    | intro _ _ _ | split

theorem execConductWrite_keeps {r0_ s : State} {m : Master} {be : BitVec 4} {v : Word} (h_ : Keeps r0_ s) : KeepsR r0_ (execConductWrite m be v s) := by
  unfold execConductWrite
  with_reducible repeat' first
    | assumption | apply KeepsR.next | apply State.gated_keeps | apply State.writeConduct_keeps | intro _ _

/-! ### Fabric -/

theorem State.setWalk_keeps {r0_ s : State} {w : Walk} (h_ : Keeps r0_ s) : Keeps r0_ (State.setWalk s w) := by
  unfold State.setWalk
  with_reducible repeat' first
    | assumption | (fail_if_no_progress refine Keeps.upd ?_ ⟨rfl, rfl, rfl, rfl, rfl⟩)

theorem State.dropWalk_keeps {r0_ s : State} {w : Walk} (h_ : Keeps r0_ s) : Keeps r0_ (State.dropWalk s w) := by
  unfold State.dropWalk
  with_reducible repeat' first
    | assumption | (fail_if_no_progress refine Keeps.upd ?_ ⟨rfl, rfl, rfl, rfl, rfl⟩)

theorem State.setFlight_keeps {r0_ s : State} {m : MacroSt} (h_ : Keeps r0_ s) : Keeps r0_ (State.setFlight s m) := by
  unfold State.setFlight
  with_reducible repeat' first
    | assumption | (fail_if_no_progress refine Keeps.upd ?_ ⟨rfl, rfl, rfl, rfl, rfl⟩)

theorem State.failWalk_keeps {r0_ s : State} {w : Walk} {st dt : Nat} (h_ : Keeps r0_ s) : Keeps r0_ (State.failWalk s w st dt) := by
  unfold State.failWalk
  with_reducible repeat' first
    | assumption | apply Keeps.foldl | apply State.failTag_keeps | intro _ _ _

theorem State.walkUe_keeps {r0_ s : State} {w : Walk} {a : Nat} (h_ : Keeps r0_ s) : Keeps r0_ (State.walkUe s w a) := by
  unfold State.walkUe
  with_reducible repeat' first
    | assumption | apply State.lineUe_keeps | apply State.failWalk_keeps

theorem State.bindPlan_keeps {r0_ s : State} {m : Model} {b : BoundPlan} (h_ : Keeps r0_ s) : Keeps r0_ (State.bindPlan s m b) := by
  unfold State.bindPlan
  with_reducible repeat' first
    | assumption | apply Keeps.foldl | apply State.setReg_keeps | apply State.setBit_keeps
    | apply State.claimBank_keeps | (fail_if_no_progress refine Keeps.upd ?_ ⟨rfl, rfl, rfl, rfl, rfl⟩) | intro _ _ _

theorem State.tryBind_keeps1 {r0_ s : State} {m : Model} {j k : Nat} {d : Demand} {n_ : List BoundPlan} (h_ : Keeps r0_ s) : Keeps1 r0_ (State.tryBind s m j k d n_) := by
  induction n_ generalizing s m j k d with
  | nil =>
    unfold State.tryBind
    with_reducible repeat' first
      | assumption | apply Keeps1.mk' | apply State.bindPlan_keeps | refine (ih ?_).keeps
      | (fail_if_no_progress refine Keeps.upd ?_ ⟨rfl, rfl, rfl, rfl, rfl⟩) | split
  | cons hd n ih =>
    unfold State.tryBind
    with_reducible repeat' first
      | assumption | apply Keeps1.mk' | apply State.bindPlan_keeps | refine (ih ?_).keeps
      | (fail_if_no_progress refine Keeps.upd ?_ ⟨rfl, rfl, rfl, rfl, rfl⟩) | split

theorem execPlanBind_keeps {r0_ s : State} {p : BitVec 7} {handle : BitVec 16} {plan : BitVec 2} {spar : BitVec 2} (h_ : Keeps r0_ s) : KeepsR r0_ (execPlanBind p handle plan spar s) := by
  unfold execPlanBind
  with_reducible repeat' first
    | assumption | apply KeepsR.next | apply Keeps.ite | refine (State.tryBind_keeps1 ?_).keeps
    | (fail_if_no_progress refine Keeps.upd ?_ ⟨rfl, rfl, rfl, rfl, rfl⟩) | split

theorem State.writeLists_keeps {r0_ s : State} {m : Model} {macs : List Mac} {tags : List (BitVec 64)} {layer n : Nat} (h_ : Keeps r0_ s) : Keeps r0_ (State.writeLists s m macs tags layer n) := by
  unfold State.writeLists
  with_reducible repeat' first
    | assumption | apply Keeps.ite | apply Keeps.foldl | apply Keeps.getD | apply State.wrNat_keeps
    | ((fail_if_no_progress extract_lets +onlyGivenNames x); first | ((first | refine Keeps.cut (t := x) ?_ ?_ | refine Keeps.cutO (o := x) ?_ ?_ | refine Keeps.cutP (o := x) ?_ ?_ | refine Keeps.cut1 (o := x) ?_ ?_ | refine Keeps.cut2 (o := x) ?_ ?_); rotate_left; (clear_value x; intro hx); rotate_left; (try subst x)) | (have _h := Keeps.memv x; clear _h) | (have _h := Keeps.bytesv x; clear _h) | (have _h := Keeps.fn x; clear _h; dsimp only [x]; clear x) | (have _h := Keeps.fn2 x; clear _h; dsimp only [x]; clear x) | clear_value x)
    | (fail_if_no_progress refine Keeps.upd ?_ ⟨rfl, rfl, rfl, rfl, rfl⟩)
    | (fail_if_no_progress ((apply Keeps.of_mk; (focus exact rfl); (focus exact rfl)); (with_unfolding_all focus first | (exact fun w => w) | exact SMap.wf_set _ _ | exact SMap.wf_filter _); (with_unfolding_all focus first | (exact fun w => w) | exact SMap.wf_putBytes _ _ | exact SMap.wf_clearRange _ _ | exact SMap.wf_filter _ | (exact fun w => SMap.wf_foldl_set _ _ _ (SMap.wf_clearRange _ _ w)) | (exact fun _ => SMap.wf_nil' _)); (focus first | exact Nat.le_refl _ | exact Nat.le_succ _ | exact Nat.le_add_right _ _)))
    | apply Keeps.foldl1 | apply Keeps.foldl2 | apply Keeps.ite1 | apply Keeps.ite2
    | refine KeepsP.some_keeps (by assumption) _ _ (by assumption)
    | refine KeepsO.oSome (by assumption) (by assumption) | refine KeepsO.oSome (by assumption) rfl
    | refine KeepsP.some_keeps (by assumption) _ _ rfl | apply KeepsP.map | refine Keeps1.keeps (by assumption)
    | refine Keeps2.keeps (by assumption) | exact KeepsO.none _ | apply KeepsO.some | apply KeepsO.ite
    | apply KeepsO.foldl | exact KeepsP.none _ | apply KeepsP.some | apply KeepsP.ite | apply Keeps1.mk'
    | apply Keeps1.ite | apply Keeps1.foldl | apply Keeps2.mk' | apply Keeps2.ite | apply Keeps2.foldl | intro _ _ _
    | intro _ _ | intro _ | split | (fail_if_no_progress dsimp only) | refine KeepsO.oSome ?_ (by assumption)
    | refine KeepsP.some_keeps ?_ _ _ (by assumption) | refine Keeps1.eq ?_ (by assumption)
    | refine Keeps2.eq ?_ (by assumption)

theorem State.writeParams_keeps {r0_ s : State} {p : Nat} {macs : List Mac} {tags : List (BitVec 64)} (h_ : Keeps r0_ s) : Keeps r0_ (State.writeParams s p macs tags) := by
  unfold State.writeParams
  with_reducible repeat' first
    | assumption | apply Keeps.foldl | apply State.wr_keeps | intro _ _ _ | split

theorem State.startWalk_keeps {r0_ s : State} {k : Nat} {m : Model} {r : Req} {tags : List (BitVec 64)} {index step : Nat} {e : WalkEntry} {id plans : Nat} (h_ : Keeps r0_ s) : Keeps r0_ (State.startWalk s k m r tags index step e id plans) := by
  unfold State.startWalk
  with_reducible repeat' first
    | assumption | apply State.useWalk_keeps | apply State.takeLane_keeps | apply State.walkUe_keeps
    | apply State.writeLists_keeps | apply State.writeParams_keeps
    | ((fail_if_no_progress extract_lets +onlyGivenNames x); first | ((refine Keeps.cut (t := x) ?_ ?_); rotate_left; (clear_value x; intro hx); rotate_left; (try subst x)) | clear_value x)
    | (fail_if_no_progress refine Keeps.upd ?_ ⟨rfl, rfl, rfl, rfl, rfl⟩) | split

theorem State.beginWalk_keeps {r0_ s : State} {k : Nat} {m : Model} {r : Req} {tags : List (BitVec 64)} {index : Nat} (h_ : Keeps r0_ s) : Keeps r0_ (State.beginWalk s k m r tags index) := by
  unfold State.beginWalk
  with_reducible repeat' first
    | assumption | apply State.startWalk_keeps
    | ((fail_if_no_progress extract_lets +onlyGivenNames x); first | ((refine Keeps.cut (t := x) ?_ ?_); rotate_left; (clear_value x; intro hx); rotate_left; (try subst x)) | clear_value x)
    | (fail_if_no_progress refine Keeps.upd ?_ ⟨rfl, rfl, rfl, rfl, rfl⟩) | split

theorem execWalkStart_keeps {r0_ s : State} {spar : BitVec 2} {p : BitVec 7} {tags : List (BitVec 64)} {handle : BitVec 16} {walk : Nat} (h_ : Keeps r0_ s) : KeepsR r0_ (execWalkStart spar p tags handle walk s) := by
  unfold execWalkStart
  with_reducible repeat' first
    | assumption | apply KeepsR.next | apply State.beginWalk_keeps | split

theorem State.startWalks_keeps {r0_ s : State}  {n_ : Nat} (h_ : Keeps r0_ s) : Keeps r0_ (State.startWalks s n_) := by
  induction n_ generalizing s  with
  | zero =>
    unfold State.startWalks
    with_reducible repeat' first
      | assumption | apply State.beginWalk_keeps | apply ih
      | ((fail_if_no_progress extract_lets +onlyGivenNames x); first | ((refine Keeps.cut (t := x) ?_ ?_); rotate_left; (clear_value x; intro hx); rotate_left; (try subst x)) | clear_value x)
      | (fail_if_no_progress refine Keeps.upd ?_ ⟨rfl, rfl, rfl, rfl, rfl⟩) | split
  | succ n ih =>
    unfold State.startWalks
    with_reducible repeat' first
      | assumption | apply State.beginWalk_keeps | apply ih
      | ((fail_if_no_progress extract_lets +onlyGivenNames x); first | ((refine Keeps.cut (t := x) ?_ ?_); rotate_left; (clear_value x; intro hx); rotate_left; (try subst x)) | clear_value x)
      | (fail_if_no_progress refine Keeps.upd ?_ ⟨rfl, rfl, rfl, rfl, rfl⟩) | split

/-! ### Clew -/

theorem State.countClew_keeps {r0_ s : State} {i n : Nat} {o : FnOut} (h_ : Keeps r0_ s) : Keeps r0_ (State.countClew s i n o) := by
  unfold State.countClew
  with_reducible repeat' first
    | assumption | apply State.addCnt_keeps

theorem State.writeRowOut_keeps1 {r0_ s : State} {m : Mac} {lists : List (List Nat)} {r : Nat} {l : List Nat} (h_ : Keeps r0_ s) : Keeps1 r0_ (State.writeRowOut s m lists r l) := by
  unfold State.writeRowOut
  with_reducible repeat' first
    | assumption | apply Keeps1.mk' | apply State.wr_keeps

theorem State.smaxMaxRow_keeps1 {r0_ s : State} {m : Mac} {lists : List (List Nat)} {r : Nat} (h_ : Keeps r0_ s) : Keeps1 r0_ (State.smaxMaxRow s m lists r) := by
  unfold State.smaxMaxRow
  with_reducible repeat' first
    | assumption | apply Keeps1.mk' | apply State.wrNat_keeps

theorem State.smaxSumRow_keeps1 {r0_ s : State} {m : Mac} {lists : List (List Nat)} {r : Nat} (h_ : Keeps r0_ s) : Keeps1 r0_ (State.smaxSumRow s m lists r) := by
  unfold State.smaxSumRow
  with_reducible repeat' first
    | assumption | apply Keeps1.mk' | apply State.wr_keeps | apply State.wrNat_keeps

theorem State.smaxOutRow_keeps1 {r0_ s : State} {m : Mac} {lists : List (List Nat)} {r : Nat} (h_ : Keeps r0_ s) : Keeps1 r0_ (State.smaxOutRow s m lists r) := by
  unfold State.smaxOutRow
  with_reducible repeat' first
    | assumption | apply Keeps1.mk' | apply State.wr_keeps

theorem State.normMaxRow_keeps1 {r0_ s : State} {m : Mac} {lists : List (List Nat)} {r : Nat} (h_ : Keeps r0_ s) : Keeps1 r0_ (State.normMaxRow s m lists r) := by
  unfold State.normMaxRow
  with_reducible repeat' first
    | assumption | apply Keeps1.mk' | apply State.wrNat_keeps

theorem State.normSumRow_keeps1 {r0_ s : State} {m : Mac} {lists : List (List Nat)} {r : Nat} (h_ : Keeps r0_ s) : Keeps1 r0_ (State.normSumRow s m lists r) := by
  unfold State.normSumRow
  with_reducible repeat' first
    | assumption | apply Keeps1.mk' | apply State.wrNat_keeps

theorem State.normOutRow_keeps1 {r0_ s : State} {lvl0 : Bool} {m : Mac} {lists : List (List Nat)} {r : Nat} (h_ : Keeps r0_ s) : Keeps1 r0_ (State.normOutRow s lvl0 m lists r) := by
  unfold State.normOutRow
  with_reducible repeat' first
    | assumption | apply Keeps1.mk' | refine (State.writeRowOut_keeps1 ?_).keeps

theorem State.mapRow_keeps1 {r0_ s : State} {lvl0 : Bool} {c : ClewInfo} {m : Mac} {lists : List (List Nat)} {r : Nat} (h_ : Keeps r0_ s) : Keeps1 r0_ (State.mapRow s lvl0 c m lists r) := by
  unfold State.mapRow
  with_reducible repeat' first
    | assumption | apply Keeps1.mk' | refine (State.writeRowOut_keeps1 ?_).keeps

theorem State.clewKind_keeps1 {r0_ s : State} {c : ClewInfo} {m : Mac} {lists : List (List Nat)} {r : Nat} (h_ : Keeps r0_ s) : Keeps1 r0_ (State.clewKind s c m lists r) := by
  unfold State.clewKind
  with_reducible repeat' first
    | assumption | apply Keeps1.mk' | refine (State.smaxMaxRow_keeps1 ?_).keeps
    | refine (State.smaxSumRow_keeps1 ?_).keeps | refine (State.smaxOutRow_keeps1 ?_).keeps
    | refine (State.normMaxRow_keeps1 ?_).keeps | refine (State.normSumRow_keeps1 ?_).keeps
    | refine (State.normOutRow_keeps1 ?_).keeps | refine (State.mapRow_keeps1 ?_).keeps | split

theorem State.draw_keeps {r0_ s : State} {w : Walk} {r tok : Nat} (h_ : Keeps r0_ s) : Keeps r0_ (State.draw s w r tok) := by
  unfold State.draw
  with_reducible repeat' first
    | assumption | apply Keeps.ite | apply Keeps.foldl | apply Keeps.getD | apply State.setReq_keeps
    | ((fail_if_no_progress extract_lets +onlyGivenNames x); first | ((first | refine Keeps.cut (t := x) ?_ ?_ | refine Keeps.cutO (o := x) ?_ ?_ | refine Keeps.cutP (o := x) ?_ ?_ | refine Keeps.cut1 (o := x) ?_ ?_ | refine Keeps.cut2 (o := x) ?_ ?_); rotate_left; (clear_value x; intro hx); rotate_left; (try subst x)) | (have _h := Keeps.memv x; clear _h) | (have _h := Keeps.bytesv x; clear _h) | (have _h := Keeps.fn x; clear _h; dsimp only [x]; clear x) | (have _h := Keeps.fn2 x; clear _h; dsimp only [x]; clear x) | clear_value x)
    | (fail_if_no_progress refine Keeps.upd ?_ ⟨rfl, rfl, rfl, rfl, rfl⟩)
    | (fail_if_no_progress ((apply Keeps.of_mk; (focus exact rfl); (focus exact rfl)); (with_unfolding_all focus first | (exact fun w => w) | exact SMap.wf_set _ _ | exact SMap.wf_filter _); (with_unfolding_all focus first | (exact fun w => w) | exact SMap.wf_putBytes _ _ | exact SMap.wf_clearRange _ _ | exact SMap.wf_filter _ | (exact fun w => SMap.wf_foldl_set _ _ _ (SMap.wf_clearRange _ _ w)) | (exact fun _ => SMap.wf_nil' _)); (focus first | exact Nat.le_refl _ | exact Nat.le_succ _ | exact Nat.le_add_right _ _)))
    | apply Keeps.foldl1 | apply Keeps.foldl2 | apply Keeps.ite1 | apply Keeps.ite2
    | refine KeepsP.some_keeps (by assumption) _ _ (by assumption)
    | refine KeepsO.oSome (by assumption) (by assumption) | refine KeepsO.oSome (by assumption) rfl
    | refine KeepsP.some_keeps (by assumption) _ _ rfl | apply KeepsP.map | refine Keeps1.keeps (by assumption)
    | refine Keeps2.keeps (by assumption) | exact KeepsO.none _ | apply KeepsO.some | apply KeepsO.ite
    | apply KeepsO.foldl | exact KeepsP.none _ | apply KeepsP.some | apply KeepsP.ite | apply Keeps1.mk'
    | apply Keeps1.ite | apply Keeps1.foldl | apply Keeps2.mk' | apply Keeps2.ite | apply Keeps2.foldl | intro _ _ _
    | intro _ _ | intro _ | split | (fail_if_no_progress dsimp only) | refine KeepsO.oSome ?_ (by assumption)
    | refine KeepsP.some_keeps ?_ _ _ (by assumption) | refine Keeps1.eq ?_ (by assumption)
    | refine Keeps2.eq ?_ (by assumption)

theorem State.performClew_keeps {r0_ s : State} {b : BoundPlan} {w : Walk} {x : MacroSt} (h_ : Keeps r0_ s) : Keeps r0_ (State.performClew s b w x) := by
  unfold State.performClew
  with_reducible repeat' first
    | assumption | apply Keeps.ite | apply Keeps.foldl | apply Keeps.getD | apply State.inc_keeps
    | apply State.wrNat_keeps | apply State.failTag_keeps | apply State.countClew_keeps | apply State.clewKind_keeps1
    | refine Keeps1.eq (State.clewKind_keeps1 ?_) (by assumption) | refine (State.clewKind_keeps1 ?_).keeps
    | apply State.draw_keeps
    | ((fail_if_no_progress extract_lets +onlyGivenNames x); first | ((first | refine Keeps.cut (t := x) ?_ ?_ | refine Keeps.cutO (o := x) ?_ ?_ | refine Keeps.cutP (o := x) ?_ ?_ | refine Keeps.cut1 (o := x) ?_ ?_ | refine Keeps.cut2 (o := x) ?_ ?_); rotate_left; (clear_value x; intro hx); rotate_left; (try subst x)) | (have _h := Keeps.memv x; clear _h) | (have _h := Keeps.bytesv x; clear _h) | (have _h := Keeps.fn x; clear _h; dsimp only [x]; clear x) | (have _h := Keeps.fn2 x; clear _h; dsimp only [x]; clear x) | clear_value x)
    | (fail_if_no_progress refine Keeps.upd ?_ ⟨rfl, rfl, rfl, rfl, rfl⟩)
    | (fail_if_no_progress ((apply Keeps.of_mk; (focus exact rfl); (focus exact rfl)); (with_unfolding_all focus first | (exact fun w => w) | exact SMap.wf_set _ _ | exact SMap.wf_filter _); (with_unfolding_all focus first | (exact fun w => w) | exact SMap.wf_putBytes _ _ | exact SMap.wf_clearRange _ _ | exact SMap.wf_filter _ | (exact fun w => SMap.wf_foldl_set _ _ _ (SMap.wf_clearRange _ _ w)) | (exact fun _ => SMap.wf_nil' _)); (focus first | exact Nat.le_refl _ | exact Nat.le_succ _ | exact Nat.le_add_right _ _)))
    | apply Keeps.foldl1 | apply Keeps.foldl2 | apply Keeps.ite1 | apply Keeps.ite2
    | refine KeepsP.some_keeps (by assumption) _ _ (by assumption)
    | refine KeepsO.oSome (by assumption) (by assumption) | refine KeepsO.oSome (by assumption) rfl
    | refine KeepsP.some_keeps (by assumption) _ _ rfl | apply KeepsP.map | refine Keeps1.keeps (by assumption)
    | refine Keeps2.keeps (by assumption) | exact KeepsO.none _ | apply KeepsO.some | apply KeepsO.ite
    | apply KeepsO.foldl | exact KeepsP.none _ | apply KeepsP.some | apply KeepsP.ite | apply Keeps1.mk'
    | apply Keeps1.ite | apply Keeps1.foldl | apply Keeps2.mk' | apply Keeps2.ite | apply Keeps2.foldl | intro _ _ _
    | intro _ _ | intro _ | split | (fail_if_no_progress dsimp only) | refine KeepsO.oSome ?_ (by assumption)
    | refine KeepsP.some_keeps ?_ _ _ (by assumption) | refine Keeps1.eq ?_ (by assumption)
    | refine Keeps2.eq ?_ (by assumption)

/-! ### Yards -/

theorem State.gemmOut_keeps {r0_ t : State} {s : State} {b : BoundPlan} {m : Mac} {e : Option EpiRec} {info : ClewInfo} {ys : List Nat} {blk : Nat} {oc dst r c : Nat} {parts : List AccOut} (h_ : Keeps r0_ t) : Keeps r0_ (State.gemmOut s t b m e info ys blk oc dst r c parts) := by
  unfold State.gemmOut
  with_reducible repeat' first
    | assumption | apply Keeps.foldl | apply State.addCnt_keeps | apply State.wrNat_keeps
    | apply State.countClew_keeps | intro _ _ _ | split

theorem State.gemmMatrix_keeps {r0_ t : State} {s : State} {b : BoundPlan} {m : Mac} {e : Option EpiRec} {info : ClewInfo} {mm nn kk a bb c : Nat} (h_ : Keeps r0_ t) : Keeps r0_ (State.gemmMatrix s t b m e info mm nn kk a bb c) := by
  unfold State.gemmMatrix
  with_reducible repeat' first
    | assumption | apply Keeps.foldl | apply State.inc_keeps | apply State.addCnt_keeps | apply State.gemmOut_keeps
    | intro _ _ _

theorem State.performGemm_keeps {r0_ s : State} {b : BoundPlan} {w : Walk} {x : MacroSt} (h_ : Keeps r0_ s) : Keeps r0_ (State.performGemm s b w x) := by
  unfold State.performGemm
  with_reducible repeat' first
    | assumption | apply Keeps.foldl | apply State.gemmMatrix_keeps | intro _ _ _

theorem State.performCopy_keeps {r0_ s : State} {x : MacroSt} (h_ : Keeps r0_ s) : Keeps r0_ (State.performCopy s x) := by
  unfold State.performCopy
  with_reducible repeat' first
    | assumption | apply Keeps.foldl | apply State.wr_keeps | intro _ _ _

/-! ### Luff -/

theorem State.countLuffs_keeps {r0_ s : State} {luffs : List Nat} {m : Mac} {ps : List Piece} (h_ : Keeps r0_ s) : Keeps r0_ (State.countLuffs s luffs m ps) := by
  unfold State.countLuffs
  with_reducible repeat' first
    | assumption | apply Keeps.foldl | apply State.inc_keeps | apply State.addCnt_keeps | intro _ _ _

theorem State.writeRowResult_keeps {r0_ s : State} {m : Mac} {lists : List (List Nat)} {r : AttnRow} {rec_ : List Byte} {out : Fmt → List Nat} {bad : Bool} {luff : Nat} (h_ : Keeps r0_ s) : Keeps r0_ (State.writeRowResult s m lists r rec_ out bad luff) := by
  unfold State.writeRowResult
  with_reducible repeat' first
    | assumption | apply Keeps.ite | apply State.inc_keeps | apply State.wr_keeps

theorem State.attnRow_keeps {r0_ t : State} {s : State} {m : Mac} {bounds : List Nat} {lists : List (List Nat)} {seqs : List AttnSeq} {luff : Nat} {r : AttnRow} (h_ : Keeps r0_ t) : Keeps r0_ (State.attnRow s t m bounds lists seqs luff r) := by
  unfold State.attnRow
  with_reducible repeat' first
    | assumption | apply Keeps.ite | apply State.wr_keeps | apply State.writeRowResult_keeps

theorem State.carryApprox_keeps {r0_ s : State} {m : Mac} {w : Walk} {seqs : List AttnSeq} (h_ : Keeps r0_ s) : Keeps r0_ (State.carryApprox s m w seqs) := by
  unfold State.carryApprox
  with_reducible repeat' first
    | assumption | apply Keeps.ite | apply Keeps.foldl | apply State.setReq_keeps | intro _ _ _ | split

theorem State.keepMasses_keeps {r0_ t : State} {s : State} {m : Mac} {w : Walk} {bounds : List Nat} {lists : List (List Nat)} {seqs : List AttnSeq} {rows : List AttnRow} (h_ : Keeps r0_ t) : Keeps r0_ (State.keepMasses s t m w bounds lists seqs rows) := by
  unfold State.keepMasses
  with_reducible repeat' first
    | assumption | apply Keeps.ite | apply Keeps.foldl | apply Keeps.getD | apply State.setReq_keeps
    | ((fail_if_no_progress extract_lets +onlyGivenNames x); first | ((first | refine Keeps.cut (t := x) ?_ ?_ | refine Keeps.cutO (o := x) ?_ ?_ | refine Keeps.cutP (o := x) ?_ ?_ | refine Keeps.cut1 (o := x) ?_ ?_ | refine Keeps.cut2 (o := x) ?_ ?_); rotate_left; (clear_value x; intro hx); rotate_left; (try subst x)) | (have _h := Keeps.memv x; clear _h) | (have _h := Keeps.bytesv x; clear _h) | (have _h := Keeps.fn x; clear _h; dsimp only [x]; clear x) | (have _h := Keeps.fn2 x; clear _h; dsimp only [x]; clear x) | clear_value x)
    | (fail_if_no_progress refine Keeps.upd ?_ ⟨rfl, rfl, rfl, rfl, rfl⟩)
    | (fail_if_no_progress ((apply Keeps.of_mk; (focus exact rfl); (focus exact rfl)); (with_unfolding_all focus first | (exact fun w => w) | exact SMap.wf_set _ _ | exact SMap.wf_filter _); (with_unfolding_all focus first | (exact fun w => w) | exact SMap.wf_putBytes _ _ | exact SMap.wf_clearRange _ _ | exact SMap.wf_filter _ | (exact fun w => SMap.wf_foldl_set _ _ _ (SMap.wf_clearRange _ _ w)) | (exact fun _ => SMap.wf_nil' _)); (focus first | exact Nat.le_refl _ | exact Nat.le_succ _ | exact Nat.le_add_right _ _)))
    | apply Keeps.foldl1 | apply Keeps.foldl2 | apply Keeps.ite1 | apply Keeps.ite2
    | refine KeepsP.some_keeps (by assumption) _ _ (by assumption)
    | refine KeepsO.oSome (by assumption) (by assumption) | refine KeepsO.oSome (by assumption) rfl
    | refine KeepsP.some_keeps (by assumption) _ _ rfl | apply KeepsP.map | refine Keeps1.keeps (by assumption)
    | refine Keeps2.keeps (by assumption) | exact KeepsO.none _ | apply KeepsO.some | apply KeepsO.ite
    | apply KeepsO.foldl | exact KeepsP.none _ | apply KeepsP.some | apply KeepsP.ite | apply Keeps1.mk'
    | apply Keeps1.ite | apply Keeps1.foldl | apply Keeps2.mk' | apply Keeps2.ite | apply Keeps2.foldl | intro _ _ _
    | intro _ _ | intro _ | split | (fail_if_no_progress dsimp only) | refine KeepsO.oSome ?_ (by assumption)
    | refine KeepsP.some_keeps ?_ _ _ (by assumption) | refine Keeps1.eq ?_ (by assumption)
    | refine Keeps2.eq ?_ (by assumption)

theorem State.readKeyPage_keeps {r0_ s : State} {m : Mac} {w : Walk} {x : Nat × Nat × Nat} (h_ : Keeps r0_ s) : Keeps r0_ (State.readKeyPage s m w x) := by
  unfold State.readKeyPage
  with_reducible repeat' first
    | assumption | apply Keeps.ite | apply Keeps.foldl | apply Keeps.getD | apply State.readRanges_keeps
    | apply State.lineUe_keeps | apply State.lineUeFor_keeps | apply State.entryUe_keeps
    | apply State.entryBad_keepsO | refine (State.entryBad_keepsO ?_).some_keeps _ (by assumption)
    | ((fail_if_no_progress extract_lets +onlyGivenNames x); first | ((first | refine Keeps.cut (t := x) ?_ ?_ | refine Keeps.cutO (o := x) ?_ ?_ | refine Keeps.cutP (o := x) ?_ ?_ | refine Keeps.cut1 (o := x) ?_ ?_ | refine Keeps.cut2 (o := x) ?_ ?_); rotate_left; (clear_value x; intro hx); rotate_left; (try subst x)) | (have _h := Keeps.memv x; clear _h) | (have _h := Keeps.bytesv x; clear _h) | (have _h := Keeps.fn x; clear _h; dsimp only [x]; clear x) | (have _h := Keeps.fn2 x; clear _h; dsimp only [x]; clear x) | clear_value x)
    | (fail_if_no_progress refine Keeps.upd ?_ ⟨rfl, rfl, rfl, rfl, rfl⟩)
    | (fail_if_no_progress ((apply Keeps.of_mk; (focus exact rfl); (focus exact rfl)); (with_unfolding_all focus first | (exact fun w => w) | exact SMap.wf_set _ _ | exact SMap.wf_filter _); (with_unfolding_all focus first | (exact fun w => w) | exact SMap.wf_putBytes _ _ | exact SMap.wf_clearRange _ _ | exact SMap.wf_filter _ | (exact fun w => SMap.wf_foldl_set _ _ _ (SMap.wf_clearRange _ _ w)) | (exact fun _ => SMap.wf_nil' _)); (focus first | exact Nat.le_refl _ | exact Nat.le_succ _ | exact Nat.le_add_right _ _)))
    | apply Keeps.foldl1 | apply Keeps.foldl2 | apply Keeps.ite1 | apply Keeps.ite2
    | refine KeepsP.some_keeps (by assumption) _ _ (by assumption)
    | refine KeepsO.oSome (by assumption) (by assumption) | refine KeepsO.oSome (by assumption) rfl
    | refine KeepsP.some_keeps (by assumption) _ _ rfl | apply KeepsP.map | refine Keeps1.keeps (by assumption)
    | refine Keeps2.keeps (by assumption) | exact KeepsO.none _ | apply KeepsO.some | apply KeepsO.ite
    | apply KeepsO.foldl | exact KeepsP.none _ | apply KeepsP.some | apply KeepsP.ite | apply Keeps1.mk'
    | apply Keeps1.ite | apply Keeps1.foldl | apply Keeps2.mk' | apply Keeps2.ite | apply Keeps2.foldl | intro _ _ _
    | intro _ _ | intro _ | split | (fail_if_no_progress dsimp only) | refine KeepsO.oSome ?_ (by assumption)
    | refine KeepsP.some_keeps ?_ _ _ (by assumption) | refine Keeps1.eq ?_ (by assumption)
    | refine Keeps2.eq ?_ (by assumption)

theorem State.performAttn_keeps {r0_ s0 : State} {b : BoundPlan} {w : Walk} {x : MacroSt} (h_ : Keeps r0_ s0) : Keeps r0_ (State.performAttn s0 b w x) := by
  unfold State.performAttn
  with_reducible repeat' first
    | assumption | apply Keeps.ite | apply Keeps.foldl | apply Keeps.getD | apply State.countLuffs_keeps
    | apply State.attnRow_keeps | apply State.carryApprox_keeps | apply State.keepMasses_keeps
    | apply State.readKeyPage_keeps
    | ((fail_if_no_progress extract_lets +onlyGivenNames x); first | ((first | refine Keeps.cut (t := x) ?_ ?_ | refine Keeps.cutO (o := x) ?_ ?_ | refine Keeps.cutP (o := x) ?_ ?_ | refine Keeps.cut1 (o := x) ?_ ?_ | refine Keeps.cut2 (o := x) ?_ ?_); rotate_left; (clear_value x; intro hx); rotate_left; (try subst x)) | (have _h := Keeps.memv x; clear _h) | (have _h := Keeps.bytesv x; clear _h) | (have _h := Keeps.fn x; clear _h; dsimp only [x]; clear x) | (have _h := Keeps.fn2 x; clear _h; dsimp only [x]; clear x) | clear_value x)
    | (fail_if_no_progress refine Keeps.upd ?_ ⟨rfl, rfl, rfl, rfl, rfl⟩)
    | (fail_if_no_progress ((apply Keeps.of_mk; (focus exact rfl); (focus exact rfl)); (with_unfolding_all focus first | (exact fun w => w) | exact SMap.wf_set _ _ | exact SMap.wf_filter _); (with_unfolding_all focus first | (exact fun w => w) | exact SMap.wf_putBytes _ _ | exact SMap.wf_clearRange _ _ | exact SMap.wf_filter _ | (exact fun w => SMap.wf_foldl_set _ _ _ (SMap.wf_clearRange _ _ w)) | (exact fun _ => SMap.wf_nil' _)); (focus first | exact Nat.le_refl _ | exact Nat.le_succ _ | exact Nat.le_add_right _ _)))
    | apply Keeps.foldl1 | apply Keeps.foldl2 | apply Keeps.ite1 | apply Keeps.ite2
    | refine KeepsP.some_keeps (by assumption) _ _ (by assumption)
    | refine KeepsO.oSome (by assumption) (by assumption) | refine KeepsO.oSome (by assumption) rfl
    | refine KeepsP.some_keeps (by assumption) _ _ rfl | apply KeepsP.map | refine Keeps1.keeps (by assumption)
    | refine Keeps2.keeps (by assumption) | exact KeepsO.none _ | apply KeepsO.some | apply KeepsO.ite
    | apply KeepsO.foldl | exact KeepsP.none _ | apply KeepsP.some | apply KeepsP.ite | apply Keeps1.mk'
    | apply Keeps1.ite | apply Keeps1.foldl | apply Keeps2.mk' | apply Keeps2.ite | apply Keeps2.foldl | intro _ _ _
    | intro _ _ | intro _ | split | (fail_if_no_progress dsimp only) | refine KeepsO.oSome ?_ (by assumption)
    | refine KeepsP.some_keeps ?_ _ _ (by assumption) | refine Keeps1.eq ?_ (by assumption)
    | refine Keeps2.eq ?_ (by assumption)

/-! ### RingOps -/

theorem State.toLeft_keeps {r0_ s : State} {k : Nat} {name : String} {args : List Nat} (h_ : Keeps r0_ s) : Keeps r0_ (State.toLeft s k name args) := by
  unfold State.toLeft
  with_reducible repeat' first
    | assumption | apply State.emit_keeps

theorem State.toRight_keeps {r0_ s : State} {k : Nat} {name : String} {args : List Nat} (h_ : Keeps r0_ s) : Keeps r0_ (State.toRight s k name args) := by
  unfold State.toRight
  with_reducible repeat' first
    | assumption | apply State.emit_keeps

theorem State.setRingState_keeps {r0_ s : State} {k st reason : Nat} (h_ : Keeps r0_ s) : Keeps r0_ (State.setRingState s k st reason) := by
  unfold State.setRingState
  with_reducible repeat' first
    | assumption | apply Keeps.ite | apply State.setFld_keeps | apply State.irq_keeps

theorem State.ringEvent_keeps {r0_ s : State} {k member ev : Nat} (h_ : Keeps r0_ s) : Keeps r0_ (State.ringEvent s k member ev) := by
  unfold State.ringEvent
  with_reducible repeat' first
    | assumption | apply State.setReg_keeps

theorem State.endRing_keeps {r0_ s : State} {rs : List Req} {dt : Nat} (h_ : Keeps r0_ s) : Keeps r0_ (State.endRing s rs dt) := by
  unfold State.endRing
  with_reducible repeat' first
    | assumption | apply Keeps.foldl | apply State.finish_keeps | intro _ _ _

theorem State.ringFails_keeps {r0_ s : State} {k member dt : Nat} (h_ : Keeps r0_ s) : Keeps r0_ (State.ringFails s k member dt) := by
  unfold State.ringFails
  with_reducible repeat' first
    | assumption | apply Keeps.ite | apply State.latch_keeps | apply State.setRing_keeps
    | apply State.setRingState_keeps | apply State.ringEvent_keeps | apply State.endRing_keeps

theorem State.fenceRing_keeps {r0_ s : State} {k : Nat} (h_ : Keeps r0_ s) : Keeps r0_ (State.fenceRing s k) := by
  unfold State.fenceRing
  with_reducible repeat' first
    | assumption | apply State.latch_keeps | apply State.setRing_keeps | apply State.setRingState_keeps
    | apply State.ringEvent_keeps | apply State.endRing_keeps

/-! ### Xfer -/

theorem State.xferPut_keeps {r0_ s : State} {x : MacroSt} {r0 : Nat} {bs : List Byte} (h_ : Keeps r0_ s) : Keeps r0_ (State.xferPut s x r0 bs) := by
  unfold State.xferPut
  with_reducible repeat' first
    | assumption | apply Keeps.ite | apply Keeps.foldl | apply Keeps.getD | apply State.put_keeps
    | ((fail_if_no_progress extract_lets +onlyGivenNames x); first | ((first | refine Keeps.cut (t := x) ?_ ?_ | refine Keeps.cutO (o := x) ?_ ?_ | refine Keeps.cutP (o := x) ?_ ?_ | refine Keeps.cut1 (o := x) ?_ ?_ | refine Keeps.cut2 (o := x) ?_ ?_); rotate_left; (clear_value x; intro hx); rotate_left; (try subst x)) | (have _h := Keeps.memv x; clear _h) | (have _h := Keeps.bytesv x; clear _h) | (have _h := Keeps.fn x; clear _h; dsimp only [x]; clear x) | (have _h := Keeps.fn2 x; clear _h; dsimp only [x]; clear x) | clear_value x)
    | (fail_if_no_progress refine Keeps.upd ?_ ⟨rfl, rfl, rfl, rfl, rfl⟩)
    | (fail_if_no_progress ((apply Keeps.of_mk; (focus exact rfl); (focus exact rfl)); (with_unfolding_all focus first | (exact fun w => w) | exact SMap.wf_set _ _ | exact SMap.wf_filter _); (with_unfolding_all focus first | (exact fun w => w) | exact SMap.wf_putBytes _ _ | exact SMap.wf_clearRange _ _ | exact SMap.wf_filter _ | (exact fun w => SMap.wf_foldl_set _ _ _ (SMap.wf_clearRange _ _ w)) | (exact fun _ => SMap.wf_nil' _)); (focus first | exact Nat.le_refl _ | exact Nat.le_succ _ | exact Nat.le_add_right _ _)))
    | apply Keeps.foldl1 | apply Keeps.foldl2 | apply Keeps.ite1 | apply Keeps.ite2
    | refine KeepsP.some_keeps (by assumption) _ _ (by assumption)
    | refine KeepsO.oSome (by assumption) (by assumption) | refine KeepsO.oSome (by assumption) rfl
    | refine KeepsP.some_keeps (by assumption) _ _ rfl | apply KeepsP.map | refine Keeps1.keeps (by assumption)
    | refine Keeps2.keeps (by assumption) | exact KeepsO.none _ | apply KeepsO.some | apply KeepsO.ite
    | apply KeepsO.foldl | exact KeepsP.none _ | apply KeepsP.some | apply KeepsP.ite | apply Keeps1.mk'
    | apply Keeps1.ite | apply Keeps1.foldl | apply Keeps2.mk' | apply Keeps2.ite | apply Keeps2.foldl | intro _ _ _
    | intro _ _ | intro _ | split | (fail_if_no_progress dsimp only) | refine KeepsO.oSome ?_ (by assumption)
    | refine KeepsP.some_keeps ?_ _ _ (by assumption) | refine Keeps1.eq ?_ (by assumption)
    | refine Keeps2.eq ?_ (by assumption)

theorem State.queueMsg_keeps {r0_ s : State} {owner : Nat × Nat} {retires : Bool} {h : MsgHead} {route : List Nat} {data : List Byte} (h_ : Keeps r0_ s) : Keeps r0_ (State.queueMsg s owner retires h route data) := by
  unfold State.queueMsg
  with_reducible repeat' first
    | assumption | (fail_if_no_progress refine Keeps.upd ?_ ⟨rfl, rfl, rfl, rfl, rfl⟩)

theorem State.noRoute_keeps {r0_ s : State} {dst : Nat} (h_ : Keeps r0_ s) : Keeps r0_ (State.noRoute s dst) := by
  unfold State.noRoute
  with_reducible repeat' first
    | assumption | apply State.inc_keeps | apply State.latch_keeps

theorem State.cutWalk_keeps {r0_ s : State} {w : Walk} (h_ : Keeps r0_ s) : Keeps r0_ (State.cutWalk s w) := by
  unfold State.cutWalk
  with_reducible repeat' first
    | assumption | apply Keeps.ite | apply Keeps.foldl | apply Keeps.getD | apply State.addCnt_keeps
    | apply State.failWalk_keeps
    | ((fail_if_no_progress extract_lets +onlyGivenNames x); first | ((first | refine Keeps.cut (t := x) ?_ ?_ | refine Keeps.cutO (o := x) ?_ ?_ | refine Keeps.cutP (o := x) ?_ ?_ | refine Keeps.cut1 (o := x) ?_ ?_ | refine Keeps.cut2 (o := x) ?_ ?_); rotate_left; (clear_value x; intro hx); rotate_left; (try subst x)) | (have _h := Keeps.memv x; clear _h) | (have _h := Keeps.bytesv x; clear _h) | (have _h := Keeps.fn x; clear _h; dsimp only [x]; clear x) | (have _h := Keeps.fn2 x; clear _h; dsimp only [x]; clear x) | clear_value x)
    | (fail_if_no_progress refine Keeps.upd ?_ ⟨rfl, rfl, rfl, rfl, rfl⟩)
    | (fail_if_no_progress ((apply Keeps.of_mk; (focus exact rfl); (focus exact rfl)); (with_unfolding_all focus first | (exact fun w => w) | exact SMap.wf_set _ _ | exact SMap.wf_filter _); (with_unfolding_all focus first | (exact fun w => w) | exact SMap.wf_putBytes _ _ | exact SMap.wf_clearRange _ _ | exact SMap.wf_filter _ | (exact fun w => SMap.wf_foldl_set _ _ _ (SMap.wf_clearRange _ _ w)) | (exact fun _ => SMap.wf_nil' _)); (focus first | exact Nat.le_refl _ | exact Nat.le_succ _ | exact Nat.le_add_right _ _)))
    | apply Keeps.foldl1 | apply Keeps.foldl2 | apply Keeps.ite1 | apply Keeps.ite2
    | refine KeepsP.some_keeps (by assumption) _ _ (by assumption)
    | refine KeepsO.oSome (by assumption) (by assumption) | refine KeepsO.oSome (by assumption) rfl
    | refine KeepsP.some_keeps (by assumption) _ _ rfl | apply KeepsP.map | refine Keeps1.keeps (by assumption)
    | refine Keeps2.keeps (by assumption) | exact KeepsO.none _ | apply KeepsO.some | apply KeepsO.ite
    | apply KeepsO.foldl | exact KeepsP.none _ | apply KeepsP.some | apply KeepsP.ite | apply Keeps1.mk'
    | apply Keeps1.ite | apply Keeps1.foldl | apply Keeps2.mk' | apply Keeps2.ite | apply Keeps2.foldl | intro _ _ _
    | intro _ _ | intro _ | split | (fail_if_no_progress dsimp only) | refine KeepsO.oSome ?_ (by assumption)
    | refine KeepsP.some_keeps ?_ _ _ (by assumption) | refine Keeps1.eq ?_ (by assumption)
    | refine Keeps2.eq ?_ (by assumption)

theorem State.sendTo_keeps1 {r0_ s : State} {owner : Nat × Nat} {retires : Bool} {h : MsgHead} {data : List Byte} (h_ : Keeps r0_ s) : Keeps1 r0_ (State.sendTo s owner retires h data) := by
  unfold State.sendTo
  with_reducible repeat' first
    | assumption | apply Keeps1.mk' | apply Keeps.foldl | apply State.queueMsg_keeps | apply State.noRoute_keeps
    | intro _ _ _ | split

theorem State.xferOutput_keeps {r0_ s : State} {x : MacroSt} {rank : Nat} {ds : List (List Byte)} (h_ : Keeps r0_ s) : Keeps r0_ (State.xferOutput s x rank ds) := by
  unfold State.xferOutput
  with_reducible repeat' first
    | assumption | apply Keeps.ite | apply Keeps.foldl | apply Keeps.getD | apply State.put_keeps
    | apply State.xferPut_keeps
    | ((fail_if_no_progress extract_lets +onlyGivenNames x); first | ((first | refine Keeps.cut (t := x) ?_ ?_ | refine Keeps.cutO (o := x) ?_ ?_ | refine Keeps.cutP (o := x) ?_ ?_ | refine Keeps.cut1 (o := x) ?_ ?_ | refine Keeps.cut2 (o := x) ?_ ?_); rotate_left; (clear_value x; intro hx); rotate_left; (try subst x)) | (have _h := Keeps.memv x; clear _h) | (have _h := Keeps.bytesv x; clear _h) | (have _h := Keeps.fn x; clear _h; dsimp only [x]; clear x) | (have _h := Keeps.fn2 x; clear _h; dsimp only [x]; clear x) | clear_value x)
    | (fail_if_no_progress refine Keeps.upd ?_ ⟨rfl, rfl, rfl, rfl, rfl⟩)
    | (fail_if_no_progress ((apply Keeps.of_mk; (focus exact rfl); (focus exact rfl)); (with_unfolding_all focus first | (exact fun w => w) | exact SMap.wf_set _ _ | exact SMap.wf_filter _); (with_unfolding_all focus first | (exact fun w => w) | exact SMap.wf_putBytes _ _ | exact SMap.wf_clearRange _ _ | exact SMap.wf_filter _ | (exact fun w => SMap.wf_foldl_set _ _ _ (SMap.wf_clearRange _ _ w)) | (exact fun _ => SMap.wf_nil' _)); (focus first | exact Nat.le_refl _ | exact Nat.le_succ _ | exact Nat.le_add_right _ _)))
    | apply Keeps.foldl1 | apply Keeps.foldl2 | apply Keeps.ite1 | apply Keeps.ite2
    | refine KeepsP.some_keeps (by assumption) _ _ (by assumption)
    | refine KeepsO.oSome (by assumption) (by assumption) | refine KeepsO.oSome (by assumption) rfl
    | refine KeepsP.some_keeps (by assumption) _ _ rfl | apply KeepsP.map | refine Keeps1.keeps (by assumption)
    | refine Keeps2.keeps (by assumption) | exact KeepsO.none _ | apply KeepsO.some | apply KeepsO.ite
    | apply KeepsO.foldl | exact KeepsP.none _ | apply KeepsP.some | apply KeepsP.ite | apply Keeps1.mk'
    | apply Keeps1.ite | apply Keeps1.foldl | apply Keeps2.mk' | apply Keeps2.ite | apply Keeps2.foldl | intro _ _ _
    | intro _ _ | intro _ | split | (fail_if_no_progress dsimp only) | refine KeepsO.oSome ?_ (by assumption)
    | refine KeepsP.some_keeps ?_ _ _ (by assumption) | refine Keeps1.eq ?_ (by assumption)
    | refine Keeps2.eq ?_ (by assumption)

theorem State.xferDone_keeps {r0_ s : State} {x : MacroSt} (h_ : Keeps r0_ s) : Keeps r0_ (State.xferDone s x) := by
  unfold State.xferDone
  with_reducible repeat' first
    | assumption | apply State.setFlight_keeps | (fail_if_no_progress refine Keeps.upd ?_ ⟨rfl, rfl, rfl, rfl, rfl⟩)

theorem State.xferFail_keeps {r0_ s : State} {x : MacroSt} {cause dt : Nat} (h_ : Keeps r0_ s) : Keeps r0_ (State.xferFail s x cause dt) := by
  unfold State.xferFail
  with_reducible repeat' first
    | assumption | apply State.latch_keeps | apply State.failWalk_keeps | apply State.xferDone_keeps
    | ((fail_if_no_progress extract_lets +onlyGivenNames x); first | ((refine Keeps.cut (t := x) ?_ ?_); rotate_left; (clear_value x; intro hx); rotate_left; (try subst x)) | clear_value x)
    | split

theorem State.tryXfer_keeps {r0_ s : State} {x : MacroSt} (h_ : Keeps r0_ s) : Keeps r0_ (State.tryXfer s x) := by
  unfold State.tryXfer
  with_reducible repeat' first
    | assumption | apply Keeps.ite | apply State.xferOutput_keeps | apply State.xferDone_keeps
    | apply State.xferFail_keeps | (fail_if_no_progress refine Keeps.upd ?_ ⟨rfl, rfl, rfl, rfl, rfl⟩)

theorem State.tryWaits_keeps {r0_ s : State}  (h_ : Keeps r0_ s) : Keeps r0_ (State.tryWaits s) := by
  unfold State.tryWaits
  with_reducible repeat' first
    | assumption | apply Keeps.foldl | apply State.tryXfer_keeps
    | (fail_if_no_progress refine Keeps.upd ?_ ⟨rfl, rfl, rfl, rfl, rfl⟩) | intro _ _ _ | split

theorem State.keepSent_keeps {r0_ s : State} {w : Walk} {h : MsgHead} {data : List Byte} (h_ : Keeps r0_ s) : Keeps r0_ (State.keepSent s w h data) := by
  unfold State.keepSent
  with_reducible repeat' first
    | assumption | apply Keeps.ite | apply Keeps.foldl | apply Keeps.getD | apply State.setRing_keeps
    | ((fail_if_no_progress extract_lets +onlyGivenNames x); first | ((first | refine Keeps.cut (t := x) ?_ ?_ | refine Keeps.cutO (o := x) ?_ ?_ | refine Keeps.cutP (o := x) ?_ ?_ | refine Keeps.cut1 (o := x) ?_ ?_ | refine Keeps.cut2 (o := x) ?_ ?_); rotate_left; (clear_value x; intro hx); rotate_left; (try subst x)) | (have _h := Keeps.memv x; clear _h) | (have _h := Keeps.bytesv x; clear _h) | (have _h := Keeps.fn x; clear _h; dsimp only [x]; clear x) | (have _h := Keeps.fn2 x; clear _h; dsimp only [x]; clear x) | clear_value x)
    | (fail_if_no_progress refine Keeps.upd ?_ ⟨rfl, rfl, rfl, rfl, rfl⟩)
    | (fail_if_no_progress ((apply Keeps.of_mk; (focus exact rfl); (focus exact rfl)); (with_unfolding_all focus first | (exact fun w => w) | exact SMap.wf_set _ _ | exact SMap.wf_filter _); (with_unfolding_all focus first | (exact fun w => w) | exact SMap.wf_putBytes _ _ | exact SMap.wf_clearRange _ _ | exact SMap.wf_filter _ | (exact fun w => SMap.wf_foldl_set _ _ _ (SMap.wf_clearRange _ _ w)) | (exact fun _ => SMap.wf_nil' _)); (focus first | exact Nat.le_refl _ | exact Nat.le_succ _ | exact Nat.le_add_right _ _)))
    | apply Keeps.foldl1 | apply Keeps.foldl2 | apply Keeps.ite1 | apply Keeps.ite2
    | refine KeepsP.some_keeps (by assumption) _ _ (by assumption)
    | refine KeepsO.oSome (by assumption) (by assumption) | refine KeepsO.oSome (by assumption) rfl
    | refine KeepsP.some_keeps (by assumption) _ _ rfl | apply KeepsP.map | refine Keeps1.keeps (by assumption)
    | refine Keeps2.keeps (by assumption) | exact KeepsO.none _ | apply KeepsO.some | apply KeepsO.ite
    | apply KeepsO.foldl | exact KeepsP.none _ | apply KeepsP.some | apply KeepsP.ite | apply Keeps1.mk'
    | apply Keeps1.ite | apply Keeps1.foldl | apply Keeps2.mk' | apply Keeps2.ite | apply Keeps2.foldl | intro _ _ _
    | intro _ _ | intro _ | split | (fail_if_no_progress dsimp only) | refine KeepsO.oSome ?_ (by assumption)
    | refine KeepsP.some_keeps ?_ _ _ (by assumption) | refine Keeps1.eq ?_ (by assumption)
    | refine Keeps2.eq ?_ (by assumption)

theorem State.resendKept_keeps {r0_ s : State} {k : Nat} {tag : BitVec 64} {dst : Nat} (h_ : Keeps r0_ s) : Keeps r0_ (State.resendKept s k tag dst) := by
  unfold State.resendKept
  with_reducible repeat' first
    | assumption | apply Keeps.ite | apply Keeps.foldl | apply Keeps.getD | apply State.sendTo_keeps1
    | refine Keeps1.eq (State.sendTo_keeps1 ?_) (by assumption) | refine (State.sendTo_keeps1 ?_).keeps
    | ((fail_if_no_progress extract_lets +onlyGivenNames x); first | ((first | refine Keeps.cut (t := x) ?_ ?_ | refine Keeps.cutO (o := x) ?_ ?_ | refine Keeps.cutP (o := x) ?_ ?_ | refine Keeps.cut1 (o := x) ?_ ?_ | refine Keeps.cut2 (o := x) ?_ ?_); rotate_left; (clear_value x; intro hx); rotate_left; (try subst x)) | (have _h := Keeps.memv x; clear _h) | (have _h := Keeps.bytesv x; clear _h) | (have _h := Keeps.fn x; clear _h; dsimp only [x]; clear x) | (have _h := Keeps.fn2 x; clear _h; dsimp only [x]; clear x) | clear_value x)
    | (fail_if_no_progress refine Keeps.upd ?_ ⟨rfl, rfl, rfl, rfl, rfl⟩)
    | (fail_if_no_progress ((apply Keeps.of_mk; (focus exact rfl); (focus exact rfl)); (with_unfolding_all focus first | (exact fun w => w) | exact SMap.wf_set _ _ | exact SMap.wf_filter _); (with_unfolding_all focus first | (exact fun w => w) | exact SMap.wf_putBytes _ _ | exact SMap.wf_clearRange _ _ | exact SMap.wf_filter _ | (exact fun w => SMap.wf_foldl_set _ _ _ (SMap.wf_clearRange _ _ w)) | (exact fun _ => SMap.wf_nil' _)); (focus first | exact Nat.le_refl _ | exact Nat.le_succ _ | exact Nat.le_add_right _ _)))
    | apply Keeps.foldl1 | apply Keeps.foldl2 | apply Keeps.ite1 | apply Keeps.ite2
    | refine KeepsP.some_keeps (by assumption) _ _ (by assumption)
    | refine KeepsO.oSome (by assumption) (by assumption) | refine KeepsO.oSome (by assumption) rfl
    | refine KeepsP.some_keeps (by assumption) _ _ rfl | apply KeepsP.map | refine Keeps1.keeps (by assumption)
    | refine Keeps2.keeps (by assumption) | exact KeepsO.none _ | apply KeepsO.some | apply KeepsO.ite
    | apply KeepsO.foldl | exact KeepsP.none _ | apply KeepsP.some | apply KeepsP.ite | apply Keeps1.mk'
    | apply Keeps1.ite | apply Keeps1.foldl | apply Keeps2.mk' | apply Keeps2.ite | apply Keeps2.foldl | intro _ _ _
    | intro _ _ | intro _ | split | (fail_if_no_progress dsimp only) | refine KeepsO.oSome ?_ (by assumption)
    | refine KeepsP.some_keeps ?_ _ _ (by assumption) | refine Keeps1.eq ?_ (by assumption)
    | refine Keeps2.eq ?_ (by assumption)

theorem State.performXfer_keeps {r0_ s : State} {w : Walk} {x : MacroSt} (h_ : Keeps r0_ s) : Keeps r0_ (State.performXfer s w x) := by
  unfold State.performXfer
  with_reducible repeat' first
    | assumption | apply Keeps.ite | apply Keeps.foldl | apply Keeps.getD | apply State.cutWalk_keeps
    | apply State.sendTo_keeps1 | refine Keeps1.eq (State.sendTo_keeps1 ?_) (by assumption)
    | refine (State.sendTo_keeps1 ?_).keeps | apply State.xferDone_keeps | apply State.tryXfer_keeps
    | apply State.keepSent_keeps
    | ((fail_if_no_progress extract_lets +onlyGivenNames x); first | ((first | refine Keeps.cut (t := x) ?_ ?_ | refine Keeps.cutO (o := x) ?_ ?_ | refine Keeps.cutP (o := x) ?_ ?_ | refine Keeps.cut1 (o := x) ?_ ?_ | refine Keeps.cut2 (o := x) ?_ ?_); rotate_left; (clear_value x; intro hx); rotate_left; (try subst x)) | (have _h := Keeps.memv x; clear _h) | (have _h := Keeps.bytesv x; clear _h) | (have _h := Keeps.fn x; clear _h; dsimp only [x]; clear x) | (have _h := Keeps.fn2 x; clear _h; dsimp only [x]; clear x) | clear_value x)
    | (fail_if_no_progress refine Keeps.upd ?_ ⟨rfl, rfl, rfl, rfl, rfl⟩)
    | (fail_if_no_progress ((apply Keeps.of_mk; (focus exact rfl); (focus exact rfl)); (with_unfolding_all focus first | (exact fun w => w) | exact SMap.wf_set _ _ | exact SMap.wf_filter _); (with_unfolding_all focus first | (exact fun w => w) | exact SMap.wf_putBytes _ _ | exact SMap.wf_clearRange _ _ | exact SMap.wf_filter _ | (exact fun w => SMap.wf_foldl_set _ _ _ (SMap.wf_clearRange _ _ w)) | (exact fun _ => SMap.wf_nil' _)); (focus first | exact Nat.le_refl _ | exact Nat.le_succ _ | exact Nat.le_add_right _ _)))
    | apply Keeps.foldl1 | apply Keeps.foldl2 | apply Keeps.ite1 | apply Keeps.ite2
    | refine KeepsP.some_keeps (by assumption) _ _ (by assumption)
    | refine KeepsO.oSome (by assumption) (by assumption) | refine KeepsO.oSome (by assumption) rfl
    | refine KeepsP.some_keeps (by assumption) _ _ rfl | apply KeepsP.map | refine Keeps1.keeps (by assumption)
    | refine Keeps2.keeps (by assumption) | exact KeepsO.none _ | apply KeepsO.some | apply KeepsO.ite
    | apply KeepsO.foldl | exact KeepsP.none _ | apply KeepsP.some | apply KeepsP.ite | apply Keeps1.mk'
    | apply Keeps1.ite | apply Keeps1.foldl | apply Keeps2.mk' | apply Keeps2.ite | apply Keeps2.foldl | intro _ _ _
    | intro _ _ | intro _ | split | (fail_if_no_progress dsimp only) | refine KeepsO.oSome ?_ (by assumption)
    | refine KeepsP.some_keeps ?_ _ _ (by assumption) | refine Keeps1.eq ?_ (by assumption)
    | refine Keeps2.eq ?_ (by assumption)

end Sys2Proof.Machine
end

