-- ==== Sys2Proof/Laws/KeepsLinks.lean ====
section
/-! SUPPORT. What the definitions of links, rings, the Booms, topology, time, resets and ratlines keep. -/

set_option linter.unusedTactic false
set_option linter.unreachableTactic false

namespace Sys2Proof.Machine

/-! ### Link -/

theorem State.settleTx_keeps {r0_ s : State} {b : Nat} (h_ : Keeps r0_ s) : Keeps r0_ (State.settleTx s b) := by
  unfold State.settleTx
  with_reducible repeat' first
    | assumption | apply Keeps.foldl | apply State.xferDone_keeps
    | (fail_if_no_progress refine Keeps.upd ?_ ⟨rfl, rfl, rfl, rfl, rfl⟩) | intro _ _ _ | split

theorem State.takeAck_keeps {r0_ s : State} {b ack cvc credits : Nat} (h_ : Keeps r0_ s) : Keeps r0_ (State.takeAck s b ack cvc credits) := by
  unfold State.takeAck
  with_reducible repeat' first
    | assumption | apply State.setBundle_keeps | apply State.settleTx_keeps

theorem State.takeHeader_keeps {r0_ s : State} {b : Nat} {f : BitVec 2048} (h_ : Keeps r0_ s) : Keeps r0_ (State.takeHeader s b f) := by
  unfold State.takeHeader
  with_reducible repeat' first
    | assumption | apply State.takeAck_keeps

theorem State.replay_keeps {r0_ s : State} {b : Nat} (h_ : Keeps r0_ s) : Keeps r0_ (State.replay s b) := by
  unfold State.replay
  with_reducible repeat' first
    | assumption | apply Keeps.ite | apply State.inc_keeps | apply State.setBundle_keeps

theorem State.sendNak_keeps {r0_ s : State} {b : Nat} (h_ : Keeps r0_ s) : Keeps r0_ (State.sendNak s b) := by
  unfold State.sendNak
  with_reducible repeat' first
    | assumption | apply Keeps.ite | apply State.emit_keeps | apply State.setBundle_keeps

theorem State.deliver_keeps {r0_ s : State} {q : RxMsg} (h_ : Keeps r0_ s) : Keeps r0_ (State.deliver s q) := by
  unfold State.deliver
  with_reducible repeat' first
    | assumption | apply Keeps.ite | apply State.inc_keeps | apply State.tryWaits_keeps
    | (fail_if_no_progress refine Keeps.upd ?_ ⟨rfl, rfl, rfl, rfl, rfl⟩)

theorem State.deliverAll_keeps {r0_ s : State}  {n_ : Nat} (h_ : Keeps r0_ s) : Keeps r0_ (State.deliverAll s n_) := by
  induction n_ generalizing s  with
  | zero =>
    unfold State.deliverAll
    with_reducible repeat' first
      | assumption | apply State.deliver_keeps | apply ih
      | ((fail_if_no_progress extract_lets +onlyGivenNames x); first | ((refine Keeps.cut (t := x) ?_ ?_); rotate_left; (clear_value x; intro hx); rotate_left; (try subst x)) | clear_value x)
      | (fail_if_no_progress refine Keeps.upd ?_ ⟨rfl, rfl, rfl, rfl, rfl⟩) | split
  | succ n ih =>
    unfold State.deliverAll
    with_reducible repeat' first
      | assumption | apply State.deliver_keeps | apply ih
      | ((fail_if_no_progress extract_lets +onlyGivenNames x); first | ((refine Keeps.cut (t := x) ?_ ?_); rotate_left; (clear_value x; intro hx); rotate_left; (try subst x)) | clear_value x)
      | (fail_if_no_progress refine Keeps.upd ?_ ⟨rfl, rfl, rfl, rfl, rfl⟩) | split

theorem State.recvSegment_keeps {r0_ s : State} {src vc : Nat} {hdr : BitVec 256} {data : List Byte} {crc : Nat} (h_ : Keeps r0_ s) : Keeps r0_ (State.recvSegment s src vc hdr data crc) := by
  unfold State.recvSegment
  with_reducible repeat' first
    | assumption | apply State.latch_keeps | apply State.injActed_keeps | apply State.failTag_keeps
    | apply State.deliverAll_keeps
    | ((fail_if_no_progress extract_lets +onlyGivenNames x); first | ((refine Keeps.cut (t := x) ?_ ?_); rotate_left; (clear_value x; intro hx); rotate_left; (try subst x)) | clear_value x)
    | (fail_if_no_progress refine Keeps.upd ?_ ⟨rfl, rfl, rfl, rfl, rfl⟩) | split

theorem State.takeSegment_keeps {r0_ s : State} {src vc : Nat} {hdr : BitVec 256} {data : List Byte} {crc : Nat} {splice : Option Nat} (h_ : Keeps r0_ s) : Keeps r0_ (State.takeSegment s src vc hdr data crc splice) := by
  unfold State.takeSegment
  with_reducible repeat' first
    | assumption | apply Keeps.ite | apply Keeps.foldl | apply Keeps.getD | apply State.inc_keeps
    | apply State.latch_keeps | apply State.fail_keeps | apply State.recvSegment_keeps
    | ((fail_if_no_progress extract_lets +onlyGivenNames x); first | ((first | refine Keeps.cut (t := x) ?_ ?_ | refine Keeps.cutO (o := x) ?_ ?_ | refine Keeps.cutP (o := x) ?_ ?_ | refine Keeps.cut1 (o := x) ?_ ?_ | refine Keeps.cut2 (o := x) ?_ ?_); rotate_left; (clear_value x; intro hx); rotate_left; (try subst x)) | (have _h := Keeps.memv x; clear _h) | (have _h := Keeps.bytesv x; clear _h) | (have _h := Keeps.fn x; clear _h; dsimp only [x]; clear x) | (have _h := Keeps.fn2 x; clear _h; dsimp only [x]; clear x) | clear_value x)
    | (fail_if_no_progress refine Keeps.upd ?_ ⟨rfl, rfl, rfl, rfl, rfl⟩)
    | (fail_if_no_progress ((apply Keeps.of_mk; (focus exact rfl); (focus exact rfl)); (with_unfolding_all focus first | (exact fun w => w) | exact SMap.wf_set _ _ | exact SMap.wf_filter _); (with_unfolding_all focus first | (exact fun w => w) | exact SMap.wf_putBytes _ _ | exact SMap.wf_clearRange _ _ | exact SMap.wf_filter _ | (exact fun w => SMap.wf_foldl_set _ _ _ (SMap.wf_clearRange _ _ w)) | (exact fun _ => SMap.wf_nil' _)); (focus first | exact Nat.le_refl _ | exact Nat.le_succ _ | exact Nat.le_add_right _ _)))
    | apply Keeps.foldl1 | apply Keeps.foldl2 | apply Keeps.ite1 | apply Keeps.ite2
    | refine KeepsP.some_keeps (by assumption) _ _ (by assumption)
    | refine KeepsO.oSome (by assumption) (by assumption) | refine KeepsO.oSome (by assumption) rfl
    | refine KeepsP.some_keeps (by assumption) _ _ rfl | apply KeepsP.map | refine Keeps1.keeps (by assumption)
    | refine Keeps2.keeps (by assumption) | exact KeepsO.none _ | apply KeepsO.some | apply KeepsO.ite
    | apply KeepsO.foldl | exact KeepsP.none _ | apply KeepsP.some | apply KeepsP.ite | apply Keeps1.mk'
    | apply Keeps1.ite | apply Keeps1.foldl | apply Keeps2.mk' | apply Keeps2.ite | apply Keeps2.foldl | intro _ _ _
    | intro _ _ | intro _ | split | (fail_if_no_progress dsimp only) | refine KeepsO.oSome ?_ (by assumption)
    | refine KeepsP.some_keeps ?_ _ _ (by assumption) | refine Keeps1.eq ?_ (by assumption)
    | refine Keeps2.eq ?_ (by assumption)

theorem execSegment_keeps {r0_ s : State} {b : BitVec 4} {src : BitVec 16} {vc : BitVec 3} {header : BitVec 256} {data : List Byte} {crc : Word} {splice : Option Nat} (h_ : Keeps r0_ s) : KeepsR r0_ (execSegment b src vc header data crc splice s) := by
  unfold execSegment
  with_reducible repeat' first
    | assumption | apply KeepsR.next | exact KeepsR.fault _ _ | apply KeepsR.ite | apply Keeps.ite
    | apply Keeps.foldl | apply Keeps.getD | apply State.wakeAll_keeps | apply State.takeSegment_keeps
    | ((fail_if_no_progress extract_lets +onlyGivenNames x); first | ((first | refine Keeps.cut (t := x) ?_ ?_ | refine KeepsR.cut (t := x) ?_ ?_ | refine Keeps.cutO (o := x) ?_ ?_ | refine Keeps.cutP (o := x) ?_ ?_ | refine Keeps.cut1 (o := x) ?_ ?_ | refine Keeps.cut2 (o := x) ?_ ?_); rotate_left; (clear_value x; intro hx); rotate_left; (try subst x)) | (have _h := Keeps.memv x; clear _h) | (have _h := Keeps.bytesv x; clear _h) | (have _h := Keeps.fn x; clear _h; dsimp only [x]; clear x) | (have _h := Keeps.fn2 x; clear _h; dsimp only [x]; clear x) | clear_value x)
    | (fail_if_no_progress refine Keeps.upd ?_ ⟨rfl, rfl, rfl, rfl, rfl⟩)
    | (fail_if_no_progress ((apply Keeps.of_mk; (focus exact rfl); (focus exact rfl)); (with_unfolding_all focus first | (exact fun w => w) | exact SMap.wf_set _ _ | exact SMap.wf_filter _); (with_unfolding_all focus first | (exact fun w => w) | exact SMap.wf_putBytes _ _ | exact SMap.wf_clearRange _ _ | exact SMap.wf_filter _ | (exact fun w => SMap.wf_foldl_set _ _ _ (SMap.wf_clearRange _ _ w)) | (exact fun _ => SMap.wf_nil' _)); (focus first | exact Nat.le_refl _ | exact Nat.le_succ _ | exact Nat.le_add_right _ _)))
    | apply Keeps.foldl1 | apply Keeps.foldl2 | apply Keeps.ite1 | apply Keeps.ite2
    | refine KeepsP.some_keeps (by assumption) _ _ (by assumption)
    | refine KeepsO.oSome (by assumption) (by assumption) | refine KeepsO.oSome (by assumption) rfl
    | refine KeepsP.some_keeps (by assumption) _ _ rfl | apply KeepsP.map | refine Keeps1.keeps (by assumption)
    | refine Keeps2.keeps (by assumption) | exact KeepsO.none _ | apply KeepsO.some | apply KeepsO.ite
    | apply KeepsO.foldl | exact KeepsP.none _ | apply KeepsP.some | apply KeepsP.ite | apply Keeps1.mk'
    | apply Keeps1.ite | apply Keeps1.foldl | apply Keeps2.mk' | apply Keeps2.ite | apply Keeps2.foldl | intro _ _ _
    | intro _ _ | intro _ | split | (fail_if_no_progress dsimp only) | refine KeepsO.oSome ?_ (by assumption)
    | refine KeepsP.some_keeps ?_ _ _ (by assumption) | refine Keeps1.eq ?_ (by assumption)
    | refine Keeps2.eq ?_ (by assumption)

theorem State.gatherFlit_keeps {r0_ s : State} {b : Nat} {f : BitVec 2048} {splice : Option Nat} (h_ : Keeps r0_ s) : Keeps r0_ (State.gatherFlit s b f splice) := by
  unfold State.gatherFlit
  with_reducible repeat' first
    | assumption | apply Keeps.ite | apply Keeps.foldl | apply Keeps.getD | apply State.setBundle_keeps
    | apply State.takeSegment_keeps
    | ((fail_if_no_progress extract_lets +onlyGivenNames x); first | ((first | refine Keeps.cut (t := x) ?_ ?_ | refine Keeps.cutO (o := x) ?_ ?_ | refine Keeps.cutP (o := x) ?_ ?_ | refine Keeps.cut1 (o := x) ?_ ?_ | refine Keeps.cut2 (o := x) ?_ ?_); rotate_left; (clear_value x; intro hx); rotate_left; (try subst x)) | (have _h := Keeps.memv x; clear _h) | (have _h := Keeps.bytesv x; clear _h) | (have _h := Keeps.fn x; clear _h; dsimp only [x]; clear x) | (have _h := Keeps.fn2 x; clear _h; dsimp only [x]; clear x) | clear_value x)
    | (fail_if_no_progress refine Keeps.upd ?_ ⟨rfl, rfl, rfl, rfl, rfl⟩)
    | (fail_if_no_progress ((apply Keeps.of_mk; (focus exact rfl); (focus exact rfl)); (with_unfolding_all focus first | (exact fun w => w) | exact SMap.wf_set _ _ | exact SMap.wf_filter _); (with_unfolding_all focus first | (exact fun w => w) | exact SMap.wf_putBytes _ _ | exact SMap.wf_clearRange _ _ | exact SMap.wf_filter _ | (exact fun w => SMap.wf_foldl_set _ _ _ (SMap.wf_clearRange _ _ w)) | (exact fun _ => SMap.wf_nil' _)); (focus first | exact Nat.le_refl _ | exact Nat.le_succ _ | exact Nat.le_add_right _ _)))
    | apply Keeps.foldl1 | apply Keeps.foldl2 | apply Keeps.ite1 | apply Keeps.ite2
    | refine KeepsP.some_keeps (by assumption) _ _ (by assumption)
    | refine KeepsO.oSome (by assumption) (by assumption) | refine KeepsO.oSome (by assumption) rfl
    | refine KeepsP.some_keeps (by assumption) _ _ rfl | apply KeepsP.map | refine Keeps1.keeps (by assumption)
    | refine Keeps2.keeps (by assumption) | exact KeepsO.none _ | apply KeepsO.some | apply KeepsO.ite
    | apply KeepsO.foldl | exact KeepsP.none _ | apply KeepsP.some | apply KeepsP.ite | apply Keeps1.mk'
    | apply Keeps1.ite | apply Keeps1.foldl | apply Keeps2.mk' | apply Keeps2.ite | apply Keeps2.foldl | intro _ _ _
    | intro _ _ | intro _ | split | (fail_if_no_progress dsimp only) | refine KeepsO.oSome ?_ (by assumption)
    | refine KeepsP.some_keeps ?_ _ _ (by assumption) | refine Keeps1.eq ?_ (by assumption)
    | refine Keeps2.eq ?_ (by assumption)

theorem execData_keeps {r0_ s : State} {b : BitVec 4} {flit : BitVec 2048} {marked : Bool} {splice : Option Nat} (h_ : Keeps r0_ s) : KeepsR r0_ (execData b flit marked s splice) := by
  unfold execData
  with_reducible repeat' first
    | assumption | apply KeepsR.next | apply Keeps.ite | apply State.inc_keeps | apply State.injActed_keeps
    | apply State.setBundle_keeps | apply State.takeHeader_keeps | apply State.sendNak_keeps
    | apply State.gatherFlit_keeps

theorem execNak_keeps {r0_ s : State} {b : BitVec 4} {flit : BitVec 2048} (h_ : Keeps r0_ s) : KeepsR r0_ (execNak b flit s) := by
  unfold execNak
  with_reducible repeat' first
    | assumption | apply KeepsR.next | apply State.inc_keeps | apply State.takeHeader_keeps
    | apply State.replay_keeps | split

theorem execIdleFlit_keeps {r0_ s : State} {b : BitVec 4} {flit : BitVec 2048} (h_ : Keeps r0_ s) : KeepsR r0_ (execIdleFlit b flit s) := by
  unfold execIdleFlit
  with_reducible repeat' first
    | assumption | apply KeepsR.next | apply State.inc_keeps | apply State.takeHeader_keeps | split

theorem execReplayTimeout_keeps {r0_ s : State} {b : BitVec 4} (h_ : Keeps r0_ s) : KeepsR r0_ (execReplayTimeout b s) := by
  unfold execReplayTimeout
  with_reducible repeat' first
    | assumption | apply KeepsR.next | apply State.replay_keeps | split

theorem State.resendAll_keeps {r0_ s : State} {gone : TxSeg → Bool} (h_ : Keeps r0_ s) : Keeps r0_ (State.resendAll s gone) := by
  unfold State.resendAll
  with_reducible repeat' first
    | assumption | apply Keeps.ite | apply Keeps.foldl | apply Keeps.getD | apply State.noRoute_keeps
    | apply State.cutWalk_keeps | apply State.xferDone_keeps
    | ((fail_if_no_progress extract_lets +onlyGivenNames x); first | ((first | refine Keeps.cut (t := x) ?_ ?_ | refine Keeps.cutO (o := x) ?_ ?_ | refine Keeps.cutP (o := x) ?_ ?_ | refine Keeps.cut1 (o := x) ?_ ?_ | refine Keeps.cut2 (o := x) ?_ ?_); rotate_left; (clear_value x; intro hx); rotate_left; (try subst x)) | (have _h := Keeps.memv x; clear _h) | (have _h := Keeps.bytesv x; clear _h) | (have _h := Keeps.fn x; clear _h; dsimp only [x]; clear x) | (have _h := Keeps.fn2 x; clear _h; dsimp only [x]; clear x) | clear_value x)
    | (fail_if_no_progress refine Keeps.upd ?_ ⟨rfl, rfl, rfl, rfl, rfl⟩)
    | (fail_if_no_progress ((apply Keeps.of_mk; (focus exact rfl); (focus exact rfl)); (with_unfolding_all focus first | (exact fun w => w) | exact SMap.wf_set _ _ | exact SMap.wf_filter _); (with_unfolding_all focus first | (exact fun w => w) | exact SMap.wf_putBytes _ _ | exact SMap.wf_clearRange _ _ | exact SMap.wf_filter _ | (exact fun w => SMap.wf_foldl_set _ _ _ (SMap.wf_clearRange _ _ w)) | (exact fun _ => SMap.wf_nil' _)); (focus first | exact Nat.le_refl _ | exact Nat.le_succ _ | exact Nat.le_add_right _ _)))
    | apply Keeps.foldl1 | apply Keeps.foldl2 | apply Keeps.ite1 | apply Keeps.ite2
    | refine KeepsP.some_keeps (by assumption) _ _ (by assumption)
    | refine KeepsO.oSome (by assumption) (by assumption) | refine KeepsO.oSome (by assumption) rfl
    | refine KeepsP.some_keeps (by assumption) _ _ rfl | apply KeepsP.map | refine Keeps1.keeps (by assumption)
    | refine Keeps2.keeps (by assumption) | exact KeepsO.none _ | apply KeepsO.some | apply KeepsO.ite
    | apply KeepsO.foldl | exact KeepsP.none _ | apply KeepsP.some | apply KeepsP.ite | apply Keeps1.mk'
    | apply Keeps1.ite | apply Keeps1.foldl | apply Keeps2.mk' | apply Keeps2.ite | apply Keeps2.foldl | intro _ _ _
    | intro _ _ | intro _ | split | (fail_if_no_progress dsimp only) | refine KeepsO.oSome ?_ (by assumption)
    | refine KeepsP.some_keeps ?_ _ _ (by assumption) | refine Keeps1.eq ?_ (by assumption)
    | refine Keeps2.eq ?_ (by assumption)

theorem State.fenceIfCut_keeps {r0_ s : State} {b : Nat} (h_ : Keeps r0_ s) : Keeps r0_ (State.fenceIfCut s b) := by
  unfold State.fenceIfCut
  with_reducible repeat' first
    | assumption | apply Keeps.ite | apply Keeps.foldl | apply State.fenceRing_keeps

theorem State.unadmit_keeps {r0_ s : State} {b : Nat} (h_ : Keeps r0_ s) : Keeps r0_ (State.unadmit s b) := by
  unfold State.unadmit
  with_reducible repeat' first
    | assumption | (fail_if_no_progress refine Keeps.upd ?_ ⟨rfl, rfl, rfl, rfl, rfl⟩)

theorem State.bundleDown_keeps {r0_ s : State} {b : Nat} {hold : Bool} (h_ : Keeps r0_ s) : Keeps r0_ (State.bundleDown s b hold) := by
  unfold State.bundleDown
  with_reducible repeat' first
    | assumption | apply Keeps.ite | apply State.setFld_keeps | apply State.inc_keeps | apply State.setBundle_keeps
    | apply State.resendAll_keeps | apply State.fenceIfCut_keeps | apply State.unadmit_keeps

theorem State.downFor_keeps {r0_ s : State} {b cause lanes : Nat} (h_ : Keeps r0_ s) : Keeps r0_ (State.downFor s b cause lanes) := by
  unfold State.downFor
  with_reducible repeat' first
    | assumption | apply State.latch_keeps | apply State.bundleDown_keeps

theorem execLos_keeps {r0_ s : State} {b : BitVec 4} {lanes : BitVec 4} (h_ : Keeps r0_ s) : KeepsR r0_ (execLos b lanes s) := by
  unfold execLos
  with_reducible repeat' first
    | assumption | apply KeepsR.next | apply State.downFor_keeps | split

theorem execRetryLimit_keeps {r0_ s : State} {b : BitVec 4} (h_ : Keeps r0_ s) : KeepsR r0_ (execRetryLimit b s) := by
  unfold execRetryLimit
  with_reducible repeat' first
    | assumption | apply KeepsR.next | apply State.downFor_keeps | split

theorem execReplayFail_keeps {r0_ s : State} {b : BitVec 4} (h_ : Keeps r0_ s) : KeepsR r0_ (execReplayFail b s) := by
  unfold execReplayFail
  with_reducible repeat' first
    | assumption | apply KeepsR.next | apply State.downFor_keeps | split

theorem execCreditStall_keeps {r0_ s : State} {b : BitVec 4} {vc : BitVec 3} (h_ : Keeps r0_ s) : KeepsR r0_ (execCreditStall b vc s) := by
  unfold execCreditStall
  with_reducible repeat' first
    | assumption | apply KeepsR.next | apply State.downFor_keeps | split

theorem execTrainFail_keeps {r0_ s : State} {b : BitVec 4} (h_ : Keeps r0_ s) : KeepsR r0_ (execTrainFail b s) := by
  unfold execTrainFail
  with_reducible repeat' first
    | assumption | apply KeepsR.next | apply State.downFor_keeps | split

theorem execBerWarn_keeps {r0_ s : State} {b : BitVec 4} {errors : Word} (h_ : Keeps r0_ s) : KeepsR r0_ (execBerWarn b errors s) := by
  unfold execBerWarn
  with_reducible repeat' first
    | assumption | apply KeepsR.next | apply State.setReg_keeps | apply State.latch_keeps | split

theorem State.startTraining_keeps {r0_ s : State} {b : Nat} (h_ : Keeps r0_ s) : Keeps r0_ (State.startTraining s b) := by
  unfold State.startTraining
  with_reducible repeat' first
    | assumption | apply State.setFld_keeps | apply State.setBundle_keeps

theorem execRetrain_keeps {r0_ s : State} {b : BitVec 4} (h_ : Keeps r0_ s) : KeepsR r0_ (execRetrain b s) := by
  unfold execRetrain
  with_reducible repeat' first
    | assumption | apply KeepsR.next | apply State.startTraining_keeps | split

theorem execLinkTraining_keeps {r0_ s : State} {b : BitVec 4} {r : TrainResult} (h_ : Keeps r0_ s) : KeepsR r0_ (execLinkTraining b r s) := by
  unfold execLinkTraining
  with_reducible repeat' first
    | assumption | apply KeepsR.next | apply Keeps.ite | apply State.setReg_keeps | apply State.emit_keeps
    | apply State.setFld_keeps | apply State.setBundle_keeps | apply State.bundleDown_keeps

theorem execIdentityRecord_keeps {r0_ s : State} {b : BitVec 4} {rec : BitVec 512} (h_ : Keeps r0_ s) : KeepsR r0_ (execIdentityRecord b rec s) := by
  unfold execIdentityRecord
  with_reducible repeat' first
    | assumption | apply KeepsR.next | apply Keeps.ite | apply Keeps.foldl | apply State.setReg_keeps
    | apply State.setFld_keeps | apply State.setBundle_keeps | apply State.unadmit_keeps | apply State.downFor_keeps
    | intro _ _ _

theorem execIdentTimeout_keeps {r0_ s : State} {b : BitVec 4} (h_ : Keeps r0_ s) : KeepsR r0_ (execIdentTimeout b s) := by
  unfold execIdentTimeout
  with_reducible repeat' first
    | assumption | apply KeepsR.next | apply State.downFor_keeps | split

theorem State.writeLnkCtl_keeps {r0_ s : State} {m : Master} {b : Nat} {v : Word} (h_ : Keeps r0_ s) : Keeps r0_ (State.writeLnkCtl s m b v) := by
  unfold State.writeLnkCtl
  with_reducible repeat' first
    | assumption | apply Keeps.ite | apply State.store_keeps | apply State.setBundle_keeps
    | apply State.bundleDown_keeps

theorem execHoldDown_keeps {r0_ s : State} {m : Master} {b : BitVec 4} {be : BitVec 4} {v : Word} (h_ : Keeps r0_ s) : KeepsR r0_ (execHoldDown m b be v s) := by
  unfold execHoldDown
  with_reducible repeat' first
    | assumption | apply KeepsR.next | apply State.gated_keeps | apply State.writeLnkCtl_keeps | intro _ _ | split

theorem State.holdShroud_keeps {r0_ s : State} {x : Nat} (h_ : Keeps r0_ s) : Keeps r0_ (State.holdShroud s x) := by
  unfold State.holdShroud
  with_reducible repeat' first
    | assumption | apply Keeps.foldl | apply State.setBit_keeps | apply State.bundleDown_keeps | intro _ _ _

theorem State.writeLnkSheet_keeps {r0_ s : State} {m : Master} {v : Word} (h_ : Keeps r0_ s) : Keeps r0_ (State.writeLnkSheet s m v) := by
  unfold State.writeLnkSheet
  with_reducible repeat' first
    | assumption | apply Keeps.ite | apply State.store_keeps

theorem execSheetWrite_keeps {r0_ s : State} {m : Master} {be : BitVec 4} {v : Word} (h_ : Keeps r0_ s) : KeepsR r0_ (execSheetWrite m be v s) := by
  unfold execSheetWrite
  with_reducible repeat' first
    | assumption | apply KeepsR.next | apply State.gated_keeps | apply State.writeLnkSheet_keeps | intro _ _

theorem execMsgTimeout_keeps {r0_ s : State} {spar : BitVec 2} {slot : BitVec 10} (h_ : Keeps r0_ s) : KeepsR r0_ (execMsgTimeout spar slot s) := by
  unfold execMsgTimeout
  with_reducible repeat' first
    | assumption | apply KeepsR.next | apply State.xferFail_keeps | split

theorem State.putFlit_keeps {r0_ s : State} {b seq : Nat} {f : BitVec 2048} {splice : Option Nat} (h_ : Keeps r0_ s) : Keeps r0_ (State.putFlit s b seq f splice) := by
  unfold State.putFlit
  with_reducible repeat' first
    | assumption | apply State.emit_keeps

theorem State.sendFresh_keeps {r0_ s : State} {b p vc used : Nat} (h_ : Keeps r0_ s) : Keeps r0_ (State.sendFresh s b p vc used) := by
  unfold State.sendFresh
  with_reducible repeat' first
    | assumption | apply State.setBundle_keeps | apply State.putFlit_keeps
    | (fail_if_no_progress refine Keeps.upd ?_ ⟨rfl, rfl, rfl, rfl, rfl⟩) | split

theorem State.markStalls_keeps {r0_ s : State} {b : Nat} (h_ : Keeps r0_ s) : Keeps r0_ (State.markStalls s b) := by
  unfold State.markStalls
  with_reducible repeat' first
    | assumption | apply State.setBundle_keeps

theorem State.boundary_keeps {r0_ s : State} {b : Nat} (h_ : Keeps r0_ s) : Keeps r0_ (State.boundary s b) := by
  unfold State.boundary
  with_reducible repeat' first
    | assumption | apply State.setBundle_keeps | apply State.putFlit_keeps | apply State.sendFresh_keeps
    | apply State.markStalls_keeps | split

/-! ### Rings -/

theorem State.formFails_keeps {r0_ s : State} {k reason : Nat} (h_ : Keeps r0_ s) : Keeps r0_ (State.formFails s k reason) := by
  unfold State.formFails
  with_reducible repeat' first
    | assumption | apply State.latch_keeps | apply State.setRing_keeps | apply State.setRingState_keeps
    | apply State.ringEvent_keeps

theorem State.sendForm_keeps {r0_ s : State} {k : Nat} (h_ : Keeps r0_ s) : Keeps r0_ (State.sendForm s k) := by
  unfold State.sendForm
  with_reducible repeat' first
    | assumption | apply Keeps.ite | apply State.toLeft_keeps | apply State.toRight_keeps

theorem State.form_keeps {r0_ s : State} {k : Nat} (h_ : Keeps r0_ s) : Keeps r0_ (State.form s k) := by
  unfold State.form
  with_reducible repeat' first
    | assumption | apply Keeps.ite | apply State.setRing_keeps | apply State.setRingState_keeps
    | apply State.formFails_keeps | apply State.sendForm_keeps

theorem State.dissolve_keeps {r0_ s : State} {k : Nat} (h_ : Keeps r0_ s) : Keeps r0_ (State.dissolve s k) := by
  unfold State.dissolve
  with_reducible repeat' first
    | assumption | apply Keeps.ite | apply Keeps.foldl | apply State.setFld_keeps | apply State.freeScrub_keeps
    | apply State.setRing_keeps | apply State.toLeft_keeps | apply State.toRight_keeps
    | apply State.setRingState_keeps | intro _ _ _

theorem State.writeRingCmd_keeps {r0_ s : State} {k : Nat} {v : Word} (h_ : Keeps r0_ s) : Keeps r0_ (State.writeRingCmd s k v) := by
  unfold State.writeRingCmd
  with_reducible repeat' first
    | assumption | apply Keeps.ite | apply State.form_keeps | apply State.dissolve_keeps

theorem execForm_keeps {r0_ s : State} {m : Master} {k : BitVec 3} {be : BitVec 4} (h_ : Keeps r0_ s) : KeepsR r0_ (execForm m k be s) := by
  unfold execForm
  with_reducible repeat' first
    | assumption | apply KeepsR.next | apply State.gated_keeps | apply State.writeRingCmd_keeps | intro _ _

theorem execDissolve_keeps {r0_ s : State} {m : Master} {k : BitVec 3} {be : BitVec 4} (h_ : Keeps r0_ s) : KeepsR r0_ (execDissolve m k be s) := by
  unfold execDissolve
  with_reducible repeat' first
    | assumption | apply KeepsR.next | apply State.gated_keeps | apply State.writeRingCmd_keeps | intro _ _

theorem execFormRetry_keeps {r0_ s : State} {k : BitVec 3} (h_ : Keeps r0_ s) : KeepsR r0_ (execFormRetry k s) := by
  unfold execFormRetry
  with_reducible repeat' first
    | assumption | apply KeepsR.next | apply State.sendForm_keeps | split

theorem State.tryForm_keeps {r0_ s : State} {k : Nat} (h_ : Keeps r0_ s) : Keeps r0_ (State.tryForm s k) := by
  unfold State.tryForm
  with_reducible repeat' first
    | assumption | apply Keeps.ite | apply State.setRing_keeps | apply State.setRingState_keeps

theorem execFormAnswer_keeps {r0_ s : State} {k : BitVec 3} {left : Bool} {a : RingAnswer} (h_ : Keeps r0_ s) : KeepsR r0_ (execFormAnswer k left a s) := by
  unfold execFormAnswer
  with_reducible repeat' first
    | assumption | apply KeepsR.next | apply State.setRing_keeps | apply State.formFails_keeps
    | apply State.tryForm_keeps | split

theorem execFormTimeout_keeps {r0_ s : State} {k : BitVec 3} (h_ : Keeps r0_ s) : KeepsR r0_ (execFormTimeout k s) := by
  unfold execFormTimeout
  with_reducible repeat' first
    | assumption | apply KeepsR.next | apply State.formFails_keeps | split

theorem State.ringSend_keeps {r0_ s : State} {k : Nat} {r : Req} {name : String} {args : List Nat} (h_ : Keeps r0_ s) : Keeps r0_ (State.ringSend s k r name args) := by
  unfold State.ringSend
  with_reducible repeat' first
    | assumption | apply Keeps.ite | apply Keeps.foldl | apply Keeps.getD | apply State.inc_keeps
    | apply State.fail_keeps | apply State.toRight_keeps | apply State.noRoute_keeps
    | ((fail_if_no_progress extract_lets +onlyGivenNames x); first | ((first | refine Keeps.cut (t := x) ?_ ?_ | refine Keeps.cutO (o := x) ?_ ?_ | refine Keeps.cutP (o := x) ?_ ?_ | refine Keeps.cut1 (o := x) ?_ ?_ | refine Keeps.cut2 (o := x) ?_ ?_); rotate_left; (clear_value x; intro hx); rotate_left; (try subst x)) | (have _h := Keeps.memv x; clear _h) | (have _h := Keeps.bytesv x; clear _h) | (have _h := Keeps.fn x; clear _h; dsimp only [x]; clear x) | (have _h := Keeps.fn2 x; clear _h; dsimp only [x]; clear x) | clear_value x)
    | (fail_if_no_progress refine Keeps.upd ?_ ⟨rfl, rfl, rfl, rfl, rfl⟩)
    | (fail_if_no_progress ((apply Keeps.of_mk; (focus exact rfl); (focus exact rfl)); (with_unfolding_all focus first | (exact fun w => w) | exact SMap.wf_set _ _ | exact SMap.wf_filter _); (with_unfolding_all focus first | (exact fun w => w) | exact SMap.wf_putBytes _ _ | exact SMap.wf_clearRange _ _ | exact SMap.wf_filter _ | (exact fun w => SMap.wf_foldl_set _ _ _ (SMap.wf_clearRange _ _ w)) | (exact fun _ => SMap.wf_nil' _)); (focus first | exact Nat.le_refl _ | exact Nat.le_succ _ | exact Nat.le_add_right _ _)))
    | apply Keeps.foldl1 | apply Keeps.foldl2 | apply Keeps.ite1 | apply Keeps.ite2
    | refine KeepsP.some_keeps (by assumption) _ _ (by assumption)
    | refine KeepsO.oSome (by assumption) (by assumption) | refine KeepsO.oSome (by assumption) rfl
    | refine KeepsP.some_keeps (by assumption) _ _ rfl | apply KeepsP.map | refine Keeps1.keeps (by assumption)
    | refine Keeps2.keeps (by assumption) | exact KeepsO.none _ | apply KeepsO.some | apply KeepsO.ite
    | apply KeepsO.foldl | exact KeepsP.none _ | apply KeepsP.some | apply KeepsP.ite | apply Keeps1.mk'
    | apply Keeps1.ite | apply Keeps1.foldl | apply Keeps2.mk' | apply Keeps2.ite | apply Keeps2.foldl | intro _ _ _
    | intro _ _ | intro _ | split | (fail_if_no_progress dsimp only) | refine KeepsO.oSome ?_ (by assumption)
    | refine KeepsP.some_keeps ?_ _ _ (by assumption) | refine Keeps1.eq ?_ (by assumption)
    | refine Keeps2.eq ?_ (by assumption)

theorem State.ringAlarm_keeps {r0_ s : State} {k target : Nat} (h_ : Keeps r0_ s) : Keeps r0_ (State.ringAlarm s k target) := by
  unfold State.ringAlarm
  with_reducible repeat' first
    | assumption | apply State.scheduleEvent_keeps

theorem State.beginPass_keeps {r0_ s : State} {k t0 d steps : Nat} (h_ : Keeps r0_ s) : Keeps r0_ (State.beginPass s k t0 d steps) := by
  unfold State.beginPass
  with_reducible repeat' first
    | assumption | apply Keeps.ite | apply State.setRing_keeps | apply State.ringAlarm_keeps

theorem State.tryStart_keeps {r0_ s : State} {k : Nat} {r : Req} {layer : Nat} (h_ : Keeps r0_ s) : Keeps r0_ (State.tryStart s k r layer) := by
  unfold State.tryStart
  with_reducible repeat' first
    | assumption | apply Keeps.ite | apply Keeps.foldl | apply Keeps.getD | apply State.toRight_keeps
    | apply State.ringSend_keeps | apply State.beginPass_keeps
    | ((fail_if_no_progress extract_lets +onlyGivenNames x); first | ((first | refine Keeps.cut (t := x) ?_ ?_ | refine Keeps.cutO (o := x) ?_ ?_ | refine Keeps.cutP (o := x) ?_ ?_ | refine Keeps.cut1 (o := x) ?_ ?_ | refine Keeps.cut2 (o := x) ?_ ?_); rotate_left; (clear_value x; intro hx); rotate_left; (try subst x)) | (have _h := Keeps.memv x; clear _h) | (have _h := Keeps.bytesv x; clear _h) | (have _h := Keeps.fn x; clear _h; dsimp only [x]; clear x) | (have _h := Keeps.fn2 x; clear _h; dsimp only [x]; clear x) | clear_value x)
    | (fail_if_no_progress refine Keeps.upd ?_ ⟨rfl, rfl, rfl, rfl, rfl⟩)
    | (fail_if_no_progress ((apply Keeps.of_mk; (focus exact rfl); (focus exact rfl)); (with_unfolding_all focus first | (exact fun w => w) | exact SMap.wf_set _ _ | exact SMap.wf_filter _); (with_unfolding_all focus first | (exact fun w => w) | exact SMap.wf_putBytes _ _ | exact SMap.wf_clearRange _ _ | exact SMap.wf_filter _ | (exact fun w => SMap.wf_foldl_set _ _ _ (SMap.wf_clearRange _ _ w)) | (exact fun _ => SMap.wf_nil' _)); (focus first | exact Nat.le_refl _ | exact Nat.le_succ _ | exact Nat.le_add_right _ _)))
    | apply Keeps.foldl1 | apply Keeps.foldl2 | apply Keeps.ite1 | apply Keeps.ite2
    | refine KeepsP.some_keeps (by assumption) _ _ (by assumption)
    | refine KeepsO.oSome (by assumption) (by assumption) | refine KeepsO.oSome (by assumption) rfl
    | refine KeepsP.some_keeps (by assumption) _ _ rfl | apply KeepsP.map | refine Keeps1.keeps (by assumption)
    | refine Keeps2.keeps (by assumption) | exact KeepsO.none _ | apply KeepsO.some | apply KeepsO.ite
    | apply KeepsO.foldl | exact KeepsP.none _ | apply KeepsP.some | apply KeepsP.ite | apply Keeps1.mk'
    | apply Keeps1.ite | apply Keeps1.foldl | apply Keeps2.mk' | apply Keeps2.ite | apply Keeps2.foldl | intro _ _ _
    | intro _ _ | intro _ | split | (fail_if_no_progress dsimp only) | refine KeepsO.oSome ?_ (by assumption)
    | refine KeepsP.some_keeps ?_ _ _ (by assumption) | refine Keeps1.eq ?_ (by assumption)
    | refine Keeps2.eq ?_ (by assumption)

theorem execReady_keeps {r0_ s : State} {k : BitVec 3} {member : BitVec 5} {tag : BitVec 64} {layer pages : Nat} (h_ : Keeps r0_ s) : KeepsR r0_ (execReady k member tag layer pages s) := by
  unfold execReady
  with_reducible repeat' first
    | assumption | apply KeepsR.next | exact KeepsR.fault _ _ | apply KeepsR.ite | apply Keeps.ite
    | apply Keeps.foldl | apply Keeps.getD | apply State.setRing_keeps | apply State.toRight_keeps
    | apply State.ringSend_keeps | apply State.tryStart_keeps
    | ((fail_if_no_progress extract_lets +onlyGivenNames x); first | ((first | refine Keeps.cut (t := x) ?_ ?_ | refine KeepsR.cut (t := x) ?_ ?_ | refine Keeps.cutO (o := x) ?_ ?_ | refine Keeps.cutP (o := x) ?_ ?_ | refine Keeps.cut1 (o := x) ?_ ?_ | refine Keeps.cut2 (o := x) ?_ ?_); rotate_left; (clear_value x; intro hx); rotate_left; (try subst x)) | (have _h := Keeps.memv x; clear _h) | (have _h := Keeps.bytesv x; clear _h) | (have _h := Keeps.fn x; clear _h; dsimp only [x]; clear x) | (have _h := Keeps.fn2 x; clear _h; dsimp only [x]; clear x) | clear_value x)
    | (fail_if_no_progress refine Keeps.upd ?_ ⟨rfl, rfl, rfl, rfl, rfl⟩)
    | (fail_if_no_progress ((apply Keeps.of_mk; (focus exact rfl); (focus exact rfl)); (with_unfolding_all focus first | (exact fun w => w) | exact SMap.wf_set _ _ | exact SMap.wf_filter _); (with_unfolding_all focus first | (exact fun w => w) | exact SMap.wf_putBytes _ _ | exact SMap.wf_clearRange _ _ | exact SMap.wf_filter _ | (exact fun w => SMap.wf_foldl_set _ _ _ (SMap.wf_clearRange _ _ w)) | (exact fun _ => SMap.wf_nil' _)); (focus first | exact Nat.le_refl _ | exact Nat.le_succ _ | exact Nat.le_add_right _ _)))
    | apply Keeps.foldl1 | apply Keeps.foldl2 | apply Keeps.ite1 | apply Keeps.ite2
    | refine KeepsP.some_keeps (by assumption) _ _ (by assumption)
    | refine KeepsO.oSome (by assumption) (by assumption) | refine KeepsO.oSome (by assumption) rfl
    | refine KeepsP.some_keeps (by assumption) _ _ rfl | apply KeepsP.map | refine Keeps1.keeps (by assumption)
    | refine Keeps2.keeps (by assumption) | exact KeepsO.none _ | apply KeepsO.some | apply KeepsO.ite
    | apply KeepsO.foldl | exact KeepsP.none _ | apply KeepsP.some | apply KeepsP.ite | apply Keeps1.mk'
    | apply Keeps1.ite | apply Keeps1.foldl | apply Keeps2.mk' | apply Keeps2.ite | apply Keeps2.foldl | intro _ _ _
    | intro _ _ | intro _ | split | (fail_if_no_progress dsimp only) | refine KeepsO.oSome ?_ (by assumption)
    | refine KeepsP.some_keeps ?_ _ _ (by assumption) | refine Keeps1.eq ?_ (by assumption)
    | refine Keeps2.eq ?_ (by assumption)

theorem execStart_keeps {r0_ s : State} {k : BitVec 3} {leader : BitVec 5} {t0 : BitVec 64} {d : Nat} {steps : Nat} (h_ : Keeps r0_ s) : KeepsR r0_ (execStart k leader t0 d steps s) := by
  unfold execStart
  with_reducible repeat' first
    | assumption | apply KeepsR.next | apply State.toRight_keeps | apply State.beginPass_keeps | split

theorem State.ringRelease_keeps {r0_ s : State} {k : Nat} (h_ : Keeps r0_ s) : Keeps r0_ (State.ringRelease s k) := by
  unfold State.ringRelease
  with_reducible repeat' first
    | assumption | apply Keeps.foldl | apply State.setRing_keeps | apply State.toRight_keeps
    | ((fail_if_no_progress extract_lets +onlyGivenNames x); first | ((refine Keeps.cut (t := x) ?_ ?_); rotate_left; (clear_value x; intro hx); rotate_left; (try subst x)) | clear_value x)
    | intro _ _ _ | split

theorem execStepDue_keeps {r0_ s : State} {k : BitVec 3} (h_ : Keeps r0_ s) : KeepsR r0_ (execStepDue k s) := by
  unfold execStepDue
  with_reducible repeat' first
    | assumption | apply KeepsR.next | apply State.setRing_keeps | apply State.ringAlarm_keeps
    | apply State.ringRelease_keeps | split

theorem execRingRelease_keeps {r0_ s : State} {k : BitVec 3} {step : Nat} {stage : Bool} (h_ : Keeps r0_ s) : KeepsR r0_ (execRingRelease k step s stage) := by
  unfold execRingRelease
  with_reducible repeat' first
    | assumption | apply KeepsR.next | apply State.setRing_keeps | apply State.ringRelease_keeps | split

theorem execDelay_keeps {r0_ s : State} {k : BitVec 3} {member : BitVec 5} {step : Nat} {e : Nat} (h_ : Keeps r0_ s) : KeepsR r0_ (execDelay k member step e s) := by
  unfold execDelay
  with_reducible repeat' first
    | assumption | apply KeepsR.next | apply Keeps.ite | apply State.inc_keeps | apply State.ttlDelay_keeps
    | apply State.setRing_keeps | apply State.toRight_keeps

theorem State.sweepAppend_keeps {r0_ s : State} {r : Req} {h : Shard} {at_ : Nat} {rows : List Byte} {pass : State → State}
    (h_ : Keeps r0_ s) (hf : ∀ t, Keeps r0_ t → Keeps r0_ (pass t)) : Keeps r0_ (s.sweepAppend r h at_ rows pass) := by
  unfold State.sweepAppend
  with_reducible repeat' first
    | assumption | apply Keeps.ite | apply Keeps.foldl | apply Keeps.getD | apply State.chosen_keeps
    | apply State.kvpUpdate_keeps | apply State.fail_keeps | apply State.waitShard_keeps
    | apply State.appendRows_keeps | apply State.sctFault_keeps | apply hf
    | ((fail_if_no_progress extract_lets +onlyGivenNames x); first | ((first | refine Keeps.cut (t := x) ?_ ?_ | refine Keeps.cutO (o := x) ?_ ?_ | refine Keeps.cutP (o := x) ?_ ?_ | refine Keeps.cut1 (o := x) ?_ ?_ | refine Keeps.cut2 (o := x) ?_ ?_); rotate_left; (clear_value x; intro hx); rotate_left; (try subst x)) | (have _h := Keeps.memv x; clear _h) | (have _h := Keeps.bytesv x; clear _h) | (have _h := Keeps.fn x; clear _h; dsimp only [x]; clear x) | (have _h := Keeps.fn2 x; clear _h; dsimp only [x]; clear x) | clear_value x)
    | (fail_if_no_progress refine Keeps.upd ?_ ⟨rfl, rfl, rfl, rfl, rfl⟩)
    | (fail_if_no_progress ((apply Keeps.of_mk; (focus exact rfl); (focus exact rfl)); (with_unfolding_all focus first | (exact fun w => w) | exact SMap.wf_set _ _ | exact SMap.wf_filter _); (with_unfolding_all focus first | (exact fun w => w) | exact SMap.wf_putBytes _ _ | exact SMap.wf_clearRange _ _ | exact SMap.wf_filter _ | (exact fun w => SMap.wf_foldl_set _ _ _ (SMap.wf_clearRange _ _ w)) | (exact fun _ => SMap.wf_nil' _)); (focus first | exact Nat.le_refl _ | exact Nat.le_succ _ | exact Nat.le_add_right _ _)))
    | apply Keeps.foldl1 | apply Keeps.foldl2 | apply Keeps.ite1 | apply Keeps.ite2
    | refine KeepsP.some_keeps (by assumption) _ _ (by assumption)
    | refine KeepsO.oSome (by assumption) (by assumption) | refine KeepsO.oSome (by assumption) rfl
    | refine KeepsP.some_keeps (by assumption) _ _ rfl | apply KeepsP.map | refine Keeps1.keeps (by assumption)
    | refine Keeps2.keeps (by assumption) | exact KeepsO.none _ | apply KeepsO.some | apply KeepsO.ite
    | apply KeepsO.foldl | exact KeepsP.none _ | apply KeepsP.some | apply KeepsP.ite | apply Keeps1.mk'
    | apply Keeps1.ite | apply Keeps1.foldl | apply Keeps2.mk' | apply Keeps2.ite | apply Keeps2.foldl | intro _ _ _
    | intro _ _ | intro _ | split | (fail_if_no_progress dsimp only) | refine KeepsO.oSome ?_ (by assumption)
    | refine KeepsP.some_keeps ?_ _ _ (by assumption) | refine Keeps1.eq ?_ (by assumption)
    | refine Keeps2.eq ?_ (by assumption)

theorem execSweep_keeps {r0_ s : State} {k : BitVec 3} {tag : BitVec 64} {token : BitVec 18} {j : Nat} {shard : Nat} {rows : List Byte} (h_ : Keeps r0_ s) : KeepsR r0_ (execSweep k tag token j shard rows s) := by
  unfold execSweep
  with_reducible repeat' first
    | assumption | apply KeepsR.next | exact KeepsR.fault _ _ | apply KeepsR.ite | apply Keeps.ite
    | apply Keeps.foldl | apply Keeps.getD | apply State.asTake_keeps | apply State.setRing_keeps
    | apply State.ringSend_keeps | apply State.sweepAppend_keeps
    | ((fail_if_no_progress extract_lets +onlyGivenNames x); first | ((first | refine Keeps.cut (t := x) ?_ ?_ | refine KeepsR.cut (t := x) ?_ ?_ | refine Keeps.cutO (o := x) ?_ ?_ | refine Keeps.cutP (o := x) ?_ ?_ | refine Keeps.cut1 (o := x) ?_ ?_ | refine Keeps.cut2 (o := x) ?_ ?_); rotate_left; (clear_value x; intro hx); rotate_left; (try subst x)) | (have _h := Keeps.memv x; clear _h) | (have _h := Keeps.bytesv x; clear _h) | (have _h := Keeps.fn x; clear _h; dsimp only [x]; clear x) | (have _h := Keeps.fn2 x; clear _h; dsimp only [x]; clear x) | clear_value x)
    | (fail_if_no_progress refine Keeps.upd ?_ ⟨rfl, rfl, rfl, rfl, rfl⟩)
    | (fail_if_no_progress ((apply Keeps.of_mk; (focus exact rfl); (focus exact rfl)); (with_unfolding_all focus first | (exact fun w => w) | exact SMap.wf_set _ _ | exact SMap.wf_filter _); (with_unfolding_all focus first | (exact fun w => w) | exact SMap.wf_putBytes _ _ | exact SMap.wf_clearRange _ _ | exact SMap.wf_filter _ | (exact fun w => SMap.wf_foldl_set _ _ _ (SMap.wf_clearRange _ _ w)) | (exact fun _ => SMap.wf_nil' _)); (focus first | exact Nat.le_refl _ | exact Nat.le_succ _ | exact Nat.le_add_right _ _)))
    | apply Keeps.foldl1 | apply Keeps.foldl2 | apply Keeps.ite1 | apply Keeps.ite2
    | refine KeepsP.some_keeps (by assumption) _ _ (by assumption)
    | refine KeepsO.oSome (by assumption) (by assumption) | refine KeepsO.oSome (by assumption) rfl
    | refine KeepsP.some_keeps (by assumption) _ _ rfl | apply KeepsP.map | refine Keeps1.keeps (by assumption)
    | refine Keeps2.keeps (by assumption) | exact KeepsO.none _ | apply KeepsO.some | apply KeepsO.ite
    | apply KeepsO.foldl | exact KeepsP.none _ | apply KeepsP.some | apply KeepsP.ite | apply Keeps1.mk'
    | apply Keeps1.ite | apply Keeps1.foldl | apply Keeps2.mk' | apply Keeps2.ite | apply Keeps2.foldl | intro _ _ _
    | intro _ _ | intro _ | split | (fail_if_no_progress dsimp only) | refine KeepsO.oSome ?_ (by assumption)
    | refine KeepsP.some_keeps ?_ _ _ (by assumption) | refine Keeps1.eq ?_ (by assumption)
    | refine Keeps2.eq ?_ (by assumption)

theorem State.combineRing_keeps {r0_ s : State} {k : Nat} {tag : BitVec 64} (h_ : Keeps r0_ s) : Keeps r0_ (State.combineRing s k tag) := by
  unfold State.combineRing
  with_reducible repeat' first
    | assumption | apply Keeps.ite | apply Keeps.foldl | apply Keeps.getD | apply State.setRing_keeps
    | apply State.toRight_keeps | apply State.ringSend_keeps
    | ((fail_if_no_progress extract_lets +onlyGivenNames x); first | ((first | refine Keeps.cut (t := x) ?_ ?_ | refine Keeps.cutO (o := x) ?_ ?_ | refine Keeps.cutP (o := x) ?_ ?_ | refine Keeps.cut1 (o := x) ?_ ?_ | refine Keeps.cut2 (o := x) ?_ ?_); rotate_left; (clear_value x; intro hx); rotate_left; (try subst x)) | (have _h := Keeps.memv x; clear _h) | (have _h := Keeps.bytesv x; clear _h) | (have _h := Keeps.fn x; clear _h; dsimp only [x]; clear x) | (have _h := Keeps.fn2 x; clear _h; dsimp only [x]; clear x) | clear_value x)
    | (fail_if_no_progress refine Keeps.upd ?_ ⟨rfl, rfl, rfl, rfl, rfl⟩)
    | (fail_if_no_progress ((apply Keeps.of_mk; (focus exact rfl); (focus exact rfl)); (with_unfolding_all focus first | (exact fun w => w) | exact SMap.wf_set _ _ | exact SMap.wf_filter _); (with_unfolding_all focus first | (exact fun w => w) | exact SMap.wf_putBytes _ _ | exact SMap.wf_clearRange _ _ | exact SMap.wf_filter _ | (exact fun w => SMap.wf_foldl_set _ _ _ (SMap.wf_clearRange _ _ w)) | (exact fun _ => SMap.wf_nil' _)); (focus first | exact Nat.le_refl _ | exact Nat.le_succ _ | exact Nat.le_add_right _ _)))
    | apply Keeps.foldl1 | apply Keeps.foldl2 | apply Keeps.ite1 | apply Keeps.ite2
    | refine KeepsP.some_keeps (by assumption) _ _ (by assumption)
    | refine KeepsO.oSome (by assumption) (by assumption) | refine KeepsO.oSome (by assumption) rfl
    | refine KeepsP.some_keeps (by assumption) _ _ rfl | apply KeepsP.map | refine Keeps1.keeps (by assumption)
    | refine Keeps2.keeps (by assumption) | exact KeepsO.none _ | apply KeepsO.some | apply KeepsO.ite
    | apply KeepsO.foldl | exact KeepsP.none _ | apply KeepsP.some | apply KeepsP.ite | apply Keeps1.mk'
    | apply Keeps1.ite | apply Keeps1.foldl | apply Keeps2.mk' | apply Keeps2.ite | apply Keeps2.foldl | intro _ _ _
    | intro _ _ | intro _ | split | (fail_if_no_progress dsimp only) | refine KeepsO.oSome ?_ (by assumption)
    | refine KeepsP.some_keeps ?_ _ _ (by assumption) | refine Keeps1.eq ?_ (by assumption)
    | refine Keeps2.eq ?_ (by assumption)

theorem execPartialRecord_keeps {r0_ s : State} {k : BitVec 3} {tag : BitVec 64} {member : BitVec 5} {r : RingPartial} (h_ : Keeps r0_ s) : KeepsR r0_ (execPartialRecord k tag member r s) := by
  unfold execPartialRecord
  with_reducible repeat' first
    | assumption | apply KeepsR.next | exact KeepsR.fault _ _ | apply KeepsR.ite | apply Keeps.ite
    | apply Keeps.foldl | apply Keeps.getD | apply State.setRing_keeps | apply State.ringSend_keeps
    | apply State.combineRing_keeps
    | ((fail_if_no_progress extract_lets +onlyGivenNames x); first | ((first | refine Keeps.cut (t := x) ?_ ?_ | refine KeepsR.cut (t := x) ?_ ?_ | refine Keeps.cutO (o := x) ?_ ?_ | refine Keeps.cutP (o := x) ?_ ?_ | refine Keeps.cut1 (o := x) ?_ ?_ | refine Keeps.cut2 (o := x) ?_ ?_); rotate_left; (clear_value x; intro hx); rotate_left; (try subst x)) | (have _h := Keeps.memv x; clear _h) | (have _h := Keeps.bytesv x; clear _h) | (have _h := Keeps.fn x; clear _h; dsimp only [x]; clear x) | (have _h := Keeps.fn2 x; clear _h; dsimp only [x]; clear x) | clear_value x)
    | (fail_if_no_progress refine Keeps.upd ?_ ⟨rfl, rfl, rfl, rfl, rfl⟩)
    | (fail_if_no_progress ((apply Keeps.of_mk; (focus exact rfl); (focus exact rfl)); (with_unfolding_all focus first | (exact fun w => w) | exact SMap.wf_set _ _ | exact SMap.wf_filter _); (with_unfolding_all focus first | (exact fun w => w) | exact SMap.wf_putBytes _ _ | exact SMap.wf_clearRange _ _ | exact SMap.wf_filter _ | (exact fun w => SMap.wf_foldl_set _ _ _ (SMap.wf_clearRange _ _ w)) | (exact fun _ => SMap.wf_nil' _)); (focus first | exact Nat.le_refl _ | exact Nat.le_succ _ | exact Nat.le_add_right _ _)))
    | apply Keeps.foldl1 | apply Keeps.foldl2 | apply Keeps.ite1 | apply Keeps.ite2
    | refine KeepsP.some_keeps (by assumption) _ _ (by assumption)
    | refine KeepsO.oSome (by assumption) (by assumption) | refine KeepsO.oSome (by assumption) rfl
    | refine KeepsP.some_keeps (by assumption) _ _ rfl | apply KeepsP.map | refine Keeps1.keeps (by assumption)
    | refine Keeps2.keeps (by assumption) | exact KeepsO.none _ | apply KeepsO.some | apply KeepsO.ite
    | apply KeepsO.foldl | exact KeepsP.none _ | apply KeepsP.some | apply KeepsP.ite | apply Keeps1.mk'
    | apply Keeps1.ite | apply Keeps1.foldl | apply Keeps2.mk' | apply Keeps2.ite | apply Keeps2.foldl | intro _ _ _
    | intro _ _ | intro _ | split | (fail_if_no_progress dsimp only) | refine KeepsO.oSome ?_ (by assumption)
    | refine KeepsP.some_keeps ?_ _ _ (by assumption) | refine Keeps1.eq ?_ (by assumption)
    | refine Keeps2.eq ?_ (by assumption)

theorem execRingEnd_keeps {r0_ s : State} {k : BitVec 3} {tag : BitVec 64} {cause : RingCause} (h_ : Keeps r0_ s) : KeepsR r0_ (execRingEnd k tag cause s) := by
  unfold execRingEnd
  with_reducible repeat' first
    | assumption | apply KeepsR.next | apply State.setReq_keeps | apply State.finish_keeps | split

theorem State.takeStall_keeps {r0_ s : State} {k x : Nat} (h_ : Keeps r0_ s) : Keeps r0_ (State.takeStall s k x) := by
  unfold State.takeStall
  with_reducible repeat' first
    | assumption | apply Keeps.ite | apply State.inc_keeps | apply State.latch_keeps | apply State.setRing_keeps
    | apply State.toLeft_keeps | apply State.toRight_keeps | apply State.setRingState_keeps
    | apply State.ringEvent_keeps | apply State.endRing_keeps | apply State.ringFails_keeps
    | apply State.fenceRing_keeps | apply State.holdShroud_keeps | split

theorem State.declareStall_keeps {r0_ s0 : State} {k x : Nat} (h_ : Keeps r0_ s0) : Keeps r0_ (State.declareStall s0 k x) := by
  unfold State.declareStall
  with_reducible repeat' first
    | assumption | apply State.emit_keeps | apply State.takeStall_keeps
    | (fail_if_no_progress refine Keeps.upd ?_ ⟨rfl, rfl, rfl, rfl, rfl⟩) | split

theorem State.pairedHold_keeps {r0_ s : State} {k : Nat} (h_ : Keeps r0_ s) : Keeps r0_ (State.pairedHold s k) := by
  unfold State.pairedHold
  with_reducible repeat' first
    | assumption | apply Keeps.ite | apply Keeps.foldl | apply Keeps.getD | apply State.setRing_keeps
    | ((fail_if_no_progress extract_lets +onlyGivenNames x); first | ((first | refine Keeps.cut (t := x) ?_ ?_ | refine Keeps.cutO (o := x) ?_ ?_ | refine Keeps.cutP (o := x) ?_ ?_ | refine Keeps.cut1 (o := x) ?_ ?_ | refine Keeps.cut2 (o := x) ?_ ?_); rotate_left; (clear_value x; intro hx); rotate_left; (try subst x)) | (have _h := Keeps.memv x; clear _h) | (have _h := Keeps.bytesv x; clear _h) | (have _h := Keeps.fn x; clear _h; dsimp only [x]; clear x) | (have _h := Keeps.fn2 x; clear _h; dsimp only [x]; clear x) | clear_value x)
    | (fail_if_no_progress refine Keeps.upd ?_ ⟨rfl, rfl, rfl, rfl, rfl⟩)
    | (fail_if_no_progress ((apply Keeps.of_mk; (focus exact rfl); (focus exact rfl)); (with_unfolding_all focus first | (exact fun w => w) | exact SMap.wf_set _ _ | exact SMap.wf_filter _); (with_unfolding_all focus first | (exact fun w => w) | exact SMap.wf_putBytes _ _ | exact SMap.wf_clearRange _ _ | exact SMap.wf_filter _ | (exact fun w => SMap.wf_foldl_set _ _ _ (SMap.wf_clearRange _ _ w)) | (exact fun _ => SMap.wf_nil' _)); (focus first | exact Nat.le_refl _ | exact Nat.le_succ _ | exact Nat.le_add_right _ _)))
    | apply Keeps.foldl1 | apply Keeps.foldl2 | apply Keeps.ite1 | apply Keeps.ite2
    | refine KeepsP.some_keeps (by assumption) _ _ (by assumption)
    | refine KeepsO.oSome (by assumption) (by assumption) | refine KeepsO.oSome (by assumption) rfl
    | refine KeepsP.some_keeps (by assumption) _ _ rfl | apply KeepsP.map | refine Keeps1.keeps (by assumption)
    | refine Keeps2.keeps (by assumption) | exact KeepsO.none _ | apply KeepsO.some | apply KeepsO.ite
    | apply KeepsO.foldl | exact KeepsP.none _ | apply KeepsP.some | apply KeepsP.ite | apply Keeps1.mk'
    | apply Keeps1.ite | apply Keeps1.foldl | apply Keeps2.mk' | apply Keeps2.ite | apply Keeps2.foldl | intro _ _ _
    | intro _ _ | intro _ | split | (fail_if_no_progress dsimp only) | refine KeepsO.oSome ?_ (by assumption)
    | refine KeepsP.some_keeps ?_ _ _ (by assumption) | refine Keeps1.eq ?_ (by assumption)
    | refine Keeps2.eq ?_ (by assumption)

theorem State.pairedGoes_keeps {r0_ s : State} {k : Nat} (h_ : Keeps r0_ s) : Keeps r0_ (State.pairedGoes s k) := by
  unfold State.pairedGoes
  with_reducible repeat' first
    | assumption | apply Keeps.ite | apply Keeps.foldl | apply Keeps.getD | apply State.setRing_keeps
    | apply State.ringRelease_keeps
    | ((fail_if_no_progress extract_lets +onlyGivenNames x); first | ((first | refine Keeps.cut (t := x) ?_ ?_ | refine Keeps.cutO (o := x) ?_ ?_ | refine Keeps.cutP (o := x) ?_ ?_ | refine Keeps.cut1 (o := x) ?_ ?_ | refine Keeps.cut2 (o := x) ?_ ?_); rotate_left; (clear_value x; intro hx); rotate_left; (try subst x)) | (have _h := Keeps.memv x; clear _h) | (have _h := Keeps.bytesv x; clear _h) | (have _h := Keeps.fn x; clear _h; dsimp only [x]; clear x) | (have _h := Keeps.fn2 x; clear _h; dsimp only [x]; clear x) | clear_value x)
    | (fail_if_no_progress refine Keeps.upd ?_ ⟨rfl, rfl, rfl, rfl, rfl⟩)
    | (fail_if_no_progress ((apply Keeps.of_mk; (focus exact rfl); (focus exact rfl)); (with_unfolding_all focus first | (exact fun w => w) | exact SMap.wf_set _ _ | exact SMap.wf_filter _); (with_unfolding_all focus first | (exact fun w => w) | exact SMap.wf_putBytes _ _ | exact SMap.wf_clearRange _ _ | exact SMap.wf_filter _ | (exact fun w => SMap.wf_foldl_set _ _ _ (SMap.wf_clearRange _ _ w)) | (exact fun _ => SMap.wf_nil' _)); (focus first | exact Nat.le_refl _ | exact Nat.le_succ _ | exact Nat.le_add_right _ _)))
    | apply Keeps.foldl1 | apply Keeps.foldl2 | apply Keeps.ite1 | apply Keeps.ite2
    | refine KeepsP.some_keeps (by assumption) _ _ (by assumption)
    | refine KeepsO.oSome (by assumption) (by assumption) | refine KeepsO.oSome (by assumption) rfl
    | refine KeepsP.some_keeps (by assumption) _ _ rfl | apply KeepsP.map | refine Keeps1.keeps (by assumption)
    | refine Keeps2.keeps (by assumption) | exact KeepsO.none _ | apply KeepsO.some | apply KeepsO.ite
    | apply KeepsO.foldl | exact KeepsP.none _ | apply KeepsP.some | apply KeepsP.ite | apply Keeps1.mk'
    | apply Keeps1.ite | apply Keeps1.foldl | apply Keeps2.mk' | apply Keeps2.ite | apply Keeps2.foldl | intro _ _ _
    | intro _ _ | intro _ | split | (fail_if_no_progress dsimp only) | refine KeepsO.oSome ?_ (by assumption)
    | refine KeepsP.some_keeps ?_ _ _ (by assumption) | refine Keeps1.eq ?_ (by assumption)
    | refine Keeps2.eq ?_ (by assumption)

theorem execStall_keeps {r0_ s : State} {k : BitVec 3} {member : BitVec 5} {paired : Bool} (h_ : Keeps r0_ s) : KeepsR r0_ (execStall k member s paired) := by
  unfold execStall
  with_reducible repeat' first
    | assumption | apply KeepsR.next | exact KeepsR.fault _ _ | apply KeepsR.ite | apply Keeps.ite
    | apply Keeps.foldl | apply Keeps.getD | apply State.takeStall_keeps | apply State.pairedHold_keeps
    | ((fail_if_no_progress extract_lets +onlyGivenNames x); first | ((first | refine Keeps.cut (t := x) ?_ ?_ | refine KeepsR.cut (t := x) ?_ ?_ | refine Keeps.cutO (o := x) ?_ ?_ | refine Keeps.cutP (o := x) ?_ ?_ | refine Keeps.cut1 (o := x) ?_ ?_ | refine Keeps.cut2 (o := x) ?_ ?_); rotate_left; (clear_value x; intro hx); rotate_left; (try subst x)) | (have _h := Keeps.memv x; clear _h) | (have _h := Keeps.bytesv x; clear _h) | (have _h := Keeps.fn x; clear _h; dsimp only [x]; clear x) | (have _h := Keeps.fn2 x; clear _h; dsimp only [x]; clear x) | clear_value x)
    | (fail_if_no_progress refine Keeps.upd ?_ ⟨rfl, rfl, rfl, rfl, rfl⟩)
    | (fail_if_no_progress ((apply Keeps.of_mk; (focus exact rfl); (focus exact rfl)); (with_unfolding_all focus first | (exact fun w => w) | exact SMap.wf_set _ _ | exact SMap.wf_filter _); (with_unfolding_all focus first | (exact fun w => w) | exact SMap.wf_putBytes _ _ | exact SMap.wf_clearRange _ _ | exact SMap.wf_filter _ | (exact fun w => SMap.wf_foldl_set _ _ _ (SMap.wf_clearRange _ _ w)) | (exact fun _ => SMap.wf_nil' _)); (focus first | exact Nat.le_refl _ | exact Nat.le_succ _ | exact Nat.le_add_right _ _)))
    | apply Keeps.foldl1 | apply Keeps.foldl2 | apply Keeps.ite1 | apply Keeps.ite2
    | refine KeepsP.some_keeps (by assumption) _ _ (by assumption)
    | refine KeepsO.oSome (by assumption) (by assumption) | refine KeepsO.oSome (by assumption) rfl
    | refine KeepsP.some_keeps (by assumption) _ _ rfl | apply KeepsP.map | refine Keeps1.keeps (by assumption)
    | refine Keeps2.keeps (by assumption) | exact KeepsO.none _ | apply KeepsO.some | apply KeepsO.ite
    | apply KeepsO.foldl | exact KeepsP.none _ | apply KeepsP.some | apply KeepsP.ite | apply Keeps1.mk'
    | apply Keeps1.ite | apply Keeps1.foldl | apply Keeps2.mk' | apply Keeps2.ite | apply Keeps2.foldl | intro _ _ _
    | intro _ _ | intro _ | split | (fail_if_no_progress dsimp only) | refine KeepsO.oSome ?_ (by assumption)
    | refine KeepsP.some_keeps ?_ _ _ (by assumption) | refine Keeps1.eq ?_ (by assumption)
    | refine Keeps2.eq ?_ (by assumption)

theorem execStepTimeout_keeps {r0_ s : State} {k : BitVec 3} (h_ : Keeps r0_ s) : KeepsR r0_ (execStepTimeout k s) := by
  unfold execStepTimeout
  with_reducible repeat' first
    | assumption | apply KeepsR.next | apply State.declareStall_keeps | split

theorem execBarrierTimeout_keeps {r0_ s : State} {k : BitVec 3} {member : BitVec 5} (h_ : Keeps r0_ s) : KeepsR r0_ (execBarrierTimeout k member s) := by
  unfold execBarrierTimeout
  with_reducible repeat' first
    | assumption | apply KeepsR.next | apply State.declareStall_keeps | split

theorem State.rollShard_keeps {r0_ s : State} {h0 : Shard} {n : Nat} (h_ : Keeps r0_ s) : Keeps r0_ (State.rollShard s h0 n) := by
  unfold State.rollShard
  with_reducible repeat' first
    | assumption | apply Keeps.ite | apply Keeps.foldl | apply Keeps.getD | apply State.setPte_keeps
    | apply State.setShard_keeps | apply State.freeMoves_keeps | apply State.dropPending_keeps
    | apply State.setRes_keeps
    | ((fail_if_no_progress extract_lets +onlyGivenNames x); first | ((first | refine Keeps.cut (t := x) ?_ ?_ | refine Keeps.cutO (o := x) ?_ ?_ | refine Keeps.cutP (o := x) ?_ ?_ | refine Keeps.cut1 (o := x) ?_ ?_ | refine Keeps.cut2 (o := x) ?_ ?_); rotate_left; (clear_value x; intro hx); rotate_left; (try subst x)) | (have _h := Keeps.memv x; clear _h) | (have _h := Keeps.bytesv x; clear _h) | (have _h := Keeps.fn x; clear _h; dsimp only [x]; clear x) | (have _h := Keeps.fn2 x; clear _h; dsimp only [x]; clear x) | clear_value x)
    | (fail_if_no_progress refine Keeps.upd ?_ ⟨rfl, rfl, rfl, rfl, rfl⟩)
    | (fail_if_no_progress ((apply Keeps.of_mk; (focus exact rfl); (focus exact rfl)); (with_unfolding_all focus first | (exact fun w => w) | exact SMap.wf_set _ _ | exact SMap.wf_filter _); (with_unfolding_all focus first | (exact fun w => w) | exact SMap.wf_putBytes _ _ | exact SMap.wf_clearRange _ _ | exact SMap.wf_filter _ | (exact fun w => SMap.wf_foldl_set _ _ _ (SMap.wf_clearRange _ _ w)) | (exact fun _ => SMap.wf_nil' _)); (focus first | exact Nat.le_refl _ | exact Nat.le_succ _ | exact Nat.le_add_right _ _)))
    | apply Keeps.foldl1 | apply Keeps.foldl2 | apply Keeps.ite1 | apply Keeps.ite2
    | refine KeepsP.some_keeps (by assumption) _ _ (by assumption)
    | refine KeepsO.oSome (by assumption) (by assumption) | refine KeepsO.oSome (by assumption) rfl
    | refine KeepsP.some_keeps (by assumption) _ _ rfl | apply KeepsP.map | refine Keeps1.keeps (by assumption)
    | refine Keeps2.keeps (by assumption) | exact KeepsO.none _ | apply KeepsO.some | apply KeepsO.ite
    | apply KeepsO.foldl | exact KeepsP.none _ | apply KeepsP.some | apply KeepsP.ite | apply Keeps1.mk'
    | apply Keeps1.ite | apply Keeps1.foldl | apply Keeps2.mk' | apply Keeps2.ite | apply Keeps2.foldl | intro _ _ _
    | intro _ _ | intro _ | split | (fail_if_no_progress dsimp only) | refine KeepsO.oSome ?_ (by assumption)
    | refine KeepsP.some_keeps ?_ _ _ (by assumption) | refine Keeps1.eq ?_ (by assumption)
    | refine Keeps2.eq ?_ (by assumption)

theorem State.sendContext_keeps {r0_ s : State} {k x : Nat} {dst : Nat} {r : Req} (h_ : Keeps r0_ s) : Keeps r0_ (State.sendContext s k x dst r) := by
  unfold State.sendContext
  with_reducible repeat' first
    | assumption | apply Keeps.ite | apply Keeps.foldl | apply State.emit_keeps | apply State.latch_keeps
    | apply State.finish_keeps | intro _ _ _

theorem State.ringTaken_keeps {r0_ s : State} {c : Nat} (h_ : Keeps r0_ s) : Keeps r0_ (State.ringTaken s c) := by
  unfold State.ringTaken
  with_reducible repeat' first
    | assumption | apply Keeps.foldl | apply State.setRing_keeps | apply State.rollShard_keeps
    | apply State.sendContext_keeps | intro _ _ _ | split

theorem execRecoverTimeout_keeps {r0_ s : State} {k : BitVec 3} (h_ : Keeps r0_ s) : KeepsR r0_ (execRecoverTimeout k s) := by
  unfold execRecoverTimeout
  with_reducible repeat' first
    | assumption | apply KeepsR.next | apply State.ringFails_keeps | split

theorem State.remirror_keeps {r0_ s : State} {k : Nat} (h_ : Keeps r0_ s) : Keeps r0_ (State.remirror s k) := by
  unfold State.remirror
  with_reducible repeat' first
    | assumption | apply Keeps.foldl | apply State.setPte_keeps | apply State.mirrorOut_keeps
    | ((fail_if_no_progress extract_lets +onlyGivenNames x); first | ((refine Keeps.cut (t := x) ?_ ?_); rotate_left; (clear_value x; intro hx); rotate_left; (try subst x)) | clear_value x)
    | intro _ _ _ | split

theorem State.ringRecovered_keeps {r0_ s : State} {k : Nat} (h_ : Keeps r0_ s) : Keeps r0_ (State.ringRecovered s k) := by
  unfold State.ringRecovered
  with_reducible repeat' first
    | assumption | apply Keeps.ite | apply Keeps.foldl | apply State.inc_keeps | apply State.setReq_keeps
    | apply State.setRing_keeps | apply State.clearSteps_keeps | apply State.setRingState_keeps
    | apply State.ringEvent_keeps | apply State.remirror_keeps | intro _ _ _

theorem State.adoptPage_keeps {r0_ s : State} {h0 : Shard} {page len : Nat} {bytes : List Byte} (h_ : Keeps r0_ s) : Keeps r0_ (State.adoptPage s h0 page len bytes) := by
  unfold State.adoptPage
  with_reducible repeat' first
    | assumption | apply State.reuse_keeps | apply State.wr_keeps | apply State.setPte_keeps
    | apply State.setShard_keeps | apply State.takeNext_keeps
    | ((fail_if_no_progress extract_lets +onlyGivenNames x); first | ((refine Keeps.cut (t := x) ?_ ?_); rotate_left; (clear_value x; intro hx); rotate_left; (try subst x)) | clear_value x)
    | (fail_if_no_progress ((apply Keeps.of_mk; (focus exact rfl); (focus exact rfl)); (with_unfolding_all focus first | (exact fun w => w) | exact SMap.wf_set _ _ | exact SMap.wf_filter _); (with_unfolding_all focus first | (exact fun w => w) | exact SMap.wf_putBytes _ _ | exact SMap.wf_clearRange _ _ | exact SMap.wf_filter _ | (exact fun w => SMap.wf_foldl_set _ _ _ (SMap.wf_clearRange _ _ w)) | (exact fun _ => SMap.wf_nil' _)); (focus first | exact Nat.le_refl _ | exact Nat.le_succ _ | exact Nat.le_add_right _ _)))
    | split

theorem State.adopt_keepsO {r0_ s : State} {k : Nat} {c : RingContext} (h_ : Keeps r0_ s) : KeepsO r0_ (State.adopt s k c) := by
  unfold State.adopt
  with_reducible repeat' first
    | assumption | exact KeepsO.none _ | apply KeepsO.some | apply State.newInstance_keeps
    | refine (State.setAside_keepsO ?_).some_keeps _ (by assumption)
    | ((fail_if_no_progress extract_lets +onlyGivenNames x); first | ((first | refine Keeps.cut (t := x) ?_ ?_ | refine KeepsO.cut (t := x) ?_ ?_); rotate_left; (clear_value x; intro hx); rotate_left; (try subst x)) | clear_value x)
    | (fail_if_no_progress refine Keeps.upd ?_ ⟨rfl, rfl, rfl, rfl, rfl⟩) | split

theorem execContext_keeps {r0_ s : State} {k : BitVec 3} {c : RingContext} (h_ : Keeps r0_ s) : KeepsR r0_ (execContext k c s) := by
  unfold execContext
  extract_lets +onlyGivenNames k tag ask spare
  have hask : ∀ t, Keeps r0_ t → Keeps r0_ (ask t) := by
    intro t ht
    dsimp only [ask]
    split
    · exact State.emit_keeps ht
    · exact ht
  apply KeepsR.next
  clear_value k tag ask spare
  refine Keeps.ite (Keeps.ite h_ ?_) (Keeps.ite ?_ (Keeps.ite (State.ringRecovered_keeps h_) h_))
  on_goal 2 =>
    extract_lets +onlyGivenNames s1
    have h1 : Keeps r0_ s1 := by
      dsimp only [s1]
      split
      · exact State.resendKept_keeps h_
      · exact h_
    exact Keeps.ite (State.pairedGoes_keeps h1) h1
  have h0 : Keeps r0_ (if s.ringState k = rgIdle then (s.setRingState k rgRecovering 0).setRing k
      { s.ring k with stalled := some (s.ringMember k), since := s.tick } else s) :=
    Keeps.ite (State.setRing_keeps (State.setRingState_keeps h_)) h_
  extract_lets +onlyGivenNames x s0 held
  have h0 : Keeps r0_ s0 := h0
  clear_value s0 held
  refine Keeps.ite ?_ ?_
  · extract_lets +onlyGivenNames s1
    have h1 : Keeps r0_ s1 := State.latch_keeps h0
    split
    · exact State.finish_keeps h1
    · exact h1
  · extract_lets +onlyGivenNames t0
    have h2 : KeepsO r0_ t0 := KeepsO.ite (KeepsO.some h0) (State.adopt_keepsO h0)
    clear_value t0
    split
    · exact State.ringFails_keeps h0
    · rename_i t
      have ht := h2.some_keeps _ rfl
      have h3 := Keeps.foldl c.pages (fun u g => match (u.shardsOf (u.ringPart k) tag).find? fun h => decide (h.idx = g.1) with
        | some h => u.adoptPage h g.2.1 (c.lengths.getD g.1 0) g.2.2
        | none => u) ht (fun u g hu => by
          split
          · exact State.adoptPage_keeps hu
          · exact hu)
      exact hask _ (State.kvpUpdate_keeps (Keeps.ite (State.ringRecovered_keeps h3) h3))

theorem State.mirrorFrame_keepsO {r0_ s : State} {h : Shard} (h_ : Keeps r0_ s) : KeepsP r0_ (State.mirrorFrame s h) := by
  unfold State.mirrorFrame
  with_reducible repeat' first
    | assumption | apply KeepsP.some | apply State.takeIn_keepsO | apply State.setShard_keeps | split

theorem execMirrorRows_keeps {r0_ s : State} {k : BitVec 3} {tag : BitVec 64} {shard page slot : Nat} {scale rows : List Byte} (h_ : Keeps r0_ s) : KeepsR r0_ (execMirrorRows k tag shard page slot scale rows s) := by
  unfold execMirrorRows
  with_reducible repeat' first
    | assumption | apply KeepsR.next | exact KeepsR.fault _ _ | apply KeepsR.ite | apply Keeps.ite
    | apply Keeps.foldl | apply Keeps.getD | apply State.asTake_keeps | apply State.wr_keeps
    | apply State.setRing_keeps | apply State.toLeft_keeps | apply State.mirrorFrame_keepsO
    | refine (State.mirrorFrame_keepsO ?_).some_keeps _ _ (by assumption)
    | ((fail_if_no_progress extract_lets +onlyGivenNames x); first | ((first | refine Keeps.cut (t := x) ?_ ?_ | refine KeepsR.cut (t := x) ?_ ?_ | refine Keeps.cutO (o := x) ?_ ?_ | refine Keeps.cutP (o := x) ?_ ?_ | refine Keeps.cut1 (o := x) ?_ ?_ | refine Keeps.cut2 (o := x) ?_ ?_); rotate_left; (clear_value x; intro hx); rotate_left; (try subst x)) | (have _h := Keeps.memv x; clear _h) | (have _h := Keeps.bytesv x; clear _h) | (have _h := Keeps.fn x; clear _h; dsimp only [x]; clear x) | (have _h := Keeps.fn2 x; clear _h; dsimp only [x]; clear x) | clear_value x)
    | (fail_if_no_progress refine Keeps.upd ?_ ⟨rfl, rfl, rfl, rfl, rfl⟩)
    | (fail_if_no_progress ((apply Keeps.of_mk; (focus exact rfl); (focus exact rfl)); (with_unfolding_all focus first | (exact fun w => w) | exact SMap.wf_set _ _ | exact SMap.wf_filter _); (with_unfolding_all focus first | (exact fun w => w) | exact SMap.wf_putBytes _ _ | exact SMap.wf_clearRange _ _ | exact SMap.wf_filter _ | (exact fun w => SMap.wf_foldl_set _ _ _ (SMap.wf_clearRange _ _ w)) | (exact fun _ => SMap.wf_nil' _)); (focus first | exact Nat.le_refl _ | exact Nat.le_succ _ | exact Nat.le_add_right _ _)))
    | apply Keeps.foldl1 | apply Keeps.foldl2 | apply Keeps.ite1 | apply Keeps.ite2
    | refine KeepsP.some_keeps (by assumption) _ _ (by assumption)
    | refine KeepsO.oSome (by assumption) (by assumption) | refine KeepsO.oSome (by assumption) rfl
    | refine KeepsP.some_keeps (by assumption) _ _ rfl | apply KeepsP.map | refine Keeps1.keeps (by assumption)
    | refine Keeps2.keeps (by assumption) | exact KeepsO.none _ | apply KeepsO.some | apply KeepsO.ite
    | apply KeepsO.foldl | exact KeepsP.none _ | apply KeepsP.some | apply KeepsP.ite | apply Keeps1.mk'
    | apply Keeps1.ite | apply Keeps1.foldl | apply Keeps2.mk' | apply Keeps2.ite | apply Keeps2.foldl | intro _ _ _
    | intro _ _ | intro _ | split | (fail_if_no_progress dsimp only) | refine KeepsO.oSome ?_ (by assumption)
    | refine KeepsP.some_keeps ?_ _ _ (by assumption) | refine Keeps1.eq ?_ (by assumption)
    | refine Keeps2.eq ?_ (by assumption)

theorem execMirrorAck_keeps {r0_ s : State} {entry : Nat} {valid : Nat} (h_ : Keeps r0_ s) : KeepsR r0_ (execMirrorAck entry valid s) := by
  unfold execMirrorAck
  with_reducible repeat' first
    | assumption | apply KeepsR.next | apply State.setPte_keeps | apply State.ringRelease_keeps
    | ((fail_if_no_progress extract_lets +onlyGivenNames x); first | ((first | refine Keeps.cut (t := x) ?_ ?_ | refine KeepsR.cut (t := x) ?_ ?_); rotate_left; (clear_value x; intro hx); rotate_left; (try subst x)) | clear_value x)
    | split

/-! ### Boom -/

theorem State.testEnds_keeps {r0_ s : State} {k st : Nat} (h_ : Keeps r0_ s) : Keeps r0_ (State.testEnds s k st) := by
  unfold State.testEnds
  with_reducible repeat' first
    | assumption | apply State.setFld_keeps | apply State.setBit_keeps

theorem State.spillWalk_keeps {r0_ s : State} {w : Walk} (h_ : Keeps r0_ s) : Keeps r0_ (State.spillWalk s w) := by
  unfold State.spillWalk
  with_reducible repeat' first
    | assumption | apply Keeps.foldl | apply State.wr_keeps | apply State.setWalk_keeps | intro _ _ _ | split

theorem State.settleWalk_keeps {r0_ s : State} {spar id : Nat} (h_ : Keeps r0_ s) : Keeps r0_ (State.settleWalk s spar id) := by
  unfold State.settleWalk
  with_reducible repeat' first
    | assumption | apply State.dropWalk_keeps | apply State.testEnds_keeps | apply State.spillWalk_keeps
    | (fail_if_no_progress refine Keeps.upd ?_ ⟨rfl, rfl, rfl, rfl, rfl⟩) | split

theorem State.takeStops_keeps {r0_ s : State} {w : Walk} (h_ : Keeps r0_ s) : Keeps r0_ (State.takeStops s w) := by
  unfold State.takeStops
  with_reducible repeat' first
    | assumption | apply Keeps.ite | apply State.setWalk_keeps

theorem State.trackAreas_keeps {r0_ s : State} {w0 : Walk} {x : MacroSt} (h_ : Keeps r0_ s) : Keeps r0_ (State.trackAreas s w0 x) := by
  unfold State.trackAreas
  with_reducible repeat' first
    | assumption | apply Keeps.ite | apply State.setWalk_keeps | split

theorem State.performMacro_keeps {r0_ s0 : State} {b : BoundPlan} {w : Walk} {x : MacroSt} (h_ : Keeps r0_ s0) : Keeps r0_ (State.performMacro s0 b w x) := by
  unfold State.performMacro
  with_reducible repeat' first
    | assumption | apply Keeps.ite | apply Keeps.foldl | apply Keeps.getD | apply State.readRanges_keeps
    | apply State.abortStored_keeps | apply State.setFlight_keeps | apply State.walkUe_keeps
    | apply State.performClew_keeps | apply State.performGemm_keeps | apply State.performCopy_keeps
    | apply State.performAttn_keeps | apply State.performXfer_keeps | apply State.trackAreas_keeps
    | ((fail_if_no_progress extract_lets +onlyGivenNames x); first | ((first | refine Keeps.cut (t := x) ?_ ?_ | refine Keeps.cutO (o := x) ?_ ?_ | refine Keeps.cutP (o := x) ?_ ?_ | refine Keeps.cut1 (o := x) ?_ ?_ | refine Keeps.cut2 (o := x) ?_ ?_); rotate_left; (clear_value x; intro hx); rotate_left; (try subst x)) | (have _h := Keeps.memv x; clear _h) | (have _h := Keeps.bytesv x; clear _h) | (have _h := Keeps.fn x; clear _h; dsimp only [x]; clear x) | (have _h := Keeps.fn2 x; clear _h; dsimp only [x]; clear x) | clear_value x)
    | (fail_if_no_progress refine Keeps.upd ?_ ⟨rfl, rfl, rfl, rfl, rfl⟩)
    | (fail_if_no_progress ((apply Keeps.of_mk; (focus exact rfl); (focus exact rfl)); (with_unfolding_all focus first | (exact fun w => w) | exact SMap.wf_set _ _ | exact SMap.wf_filter _); (with_unfolding_all focus first | (exact fun w => w) | exact SMap.wf_putBytes _ _ | exact SMap.wf_clearRange _ _ | exact SMap.wf_filter _ | (exact fun w => SMap.wf_foldl_set _ _ _ (SMap.wf_clearRange _ _ w)) | (exact fun _ => SMap.wf_nil' _)); (focus first | exact Nat.le_refl _ | exact Nat.le_succ _ | exact Nat.le_add_right _ _)))
    | apply Keeps.foldl1 | apply Keeps.foldl2 | apply Keeps.ite1 | apply Keeps.ite2
    | refine KeepsP.some_keeps (by assumption) _ _ (by assumption)
    | refine KeepsO.oSome (by assumption) (by assumption) | refine KeepsO.oSome (by assumption) rfl
    | refine KeepsP.some_keeps (by assumption) _ _ rfl | apply KeepsP.map | refine Keeps1.keeps (by assumption)
    | refine Keeps2.keeps (by assumption) | exact KeepsO.none _ | apply KeepsO.some | apply KeepsO.ite
    | apply KeepsO.foldl | exact KeepsP.none _ | apply KeepsP.some | apply KeepsP.ite | apply Keeps1.mk'
    | apply Keeps1.ite | apply Keeps1.foldl | apply Keeps2.mk' | apply Keeps2.ite | apply Keeps2.foldl | intro _ _ _
    | intro _ _ | intro _ | split | (fail_if_no_progress dsimp only) | refine KeepsO.oSome ?_ (by assumption)
    | refine KeepsP.some_keeps ?_ _ _ (by assumption) | refine Keeps1.eq ?_ (by assumption)
    | refine Keeps2.eq ?_ (by assumption)

theorem State.issueFails_keeps {r0_ s : State} {w : Walk} {index err : Nat} (h_ : Keeps r0_ s) : Keeps r0_ (State.issueFails s w index err) := by
  unfold State.issueFails
  with_reducible repeat' first
    | assumption | apply State.latch_keeps | apply State.setWalk_keeps | apply State.failWalk_keeps
    | apply State.testEnds_keeps | apply State.settleWalk_keeps | split

theorem State.advance_keeps {r0_ s : State} {x0 : MacroSt} (h_ : Keeps r0_ s) : Keeps r0_ (State.advance s x0) := by
  unfold State.advance
  with_reducible repeat' first
    | assumption | apply Keeps.ite | apply Keeps.foldl | apply Keeps.getD | apply State.inc_keeps
    | apply State.addCnt_keeps | apply State.useWalk_keeps | apply State.setFlight_keeps | apply State.walkUe_keeps
    | apply State.performMacro_keeps | apply State.issueFails_keeps
    | ((fail_if_no_progress extract_lets +onlyGivenNames x); first | ((first | refine Keeps.cut (t := x) ?_ ?_ | refine Keeps.cutO (o := x) ?_ ?_ | refine Keeps.cutP (o := x) ?_ ?_ | refine Keeps.cut1 (o := x) ?_ ?_ | refine Keeps.cut2 (o := x) ?_ ?_); rotate_left; (clear_value x; intro hx); rotate_left; (try subst x)) | (have _h := Keeps.memv x; clear _h) | (have _h := Keeps.bytesv x; clear _h) | (have _h := Keeps.fn x; clear _h; dsimp only [x]; clear x) | (have _h := Keeps.fn2 x; clear _h; dsimp only [x]; clear x) | clear_value x)
    | (fail_if_no_progress refine Keeps.upd ?_ ⟨rfl, rfl, rfl, rfl, rfl⟩)
    | (fail_if_no_progress ((apply Keeps.of_mk; (focus exact rfl); (focus exact rfl)); (with_unfolding_all focus first | (exact fun w => w) | exact SMap.wf_set _ _ | exact SMap.wf_filter _); (with_unfolding_all focus first | (exact fun w => w) | exact SMap.wf_putBytes _ _ | exact SMap.wf_clearRange _ _ | exact SMap.wf_filter _ | (exact fun w => SMap.wf_foldl_set _ _ _ (SMap.wf_clearRange _ _ w)) | (exact fun _ => SMap.wf_nil' _)); (focus first | exact Nat.le_refl _ | exact Nat.le_succ _ | exact Nat.le_add_right _ _)))
    | apply Keeps.foldl1 | apply Keeps.foldl2 | apply Keeps.ite1 | apply Keeps.ite2
    | refine KeepsP.some_keeps (by assumption) _ _ (by assumption)
    | refine KeepsO.oSome (by assumption) (by assumption) | refine KeepsO.oSome (by assumption) rfl
    | refine KeepsP.some_keeps (by assumption) _ _ rfl | apply KeepsP.map | refine Keeps1.keeps (by assumption)
    | refine Keeps2.keeps (by assumption) | exact KeepsO.none _ | apply KeepsO.some | apply KeepsO.ite
    | apply KeepsO.foldl | exact KeepsP.none _ | apply KeepsP.some | apply KeepsP.ite | apply Keeps1.mk'
    | apply Keeps1.ite | apply Keeps1.foldl | apply Keeps2.mk' | apply Keeps2.ite | apply Keeps2.foldl | intro _ _ _
    | intro _ _ | intro _ | split | (fail_if_no_progress dsimp only) | refine KeepsO.oSome ?_ (by assumption)
    | refine KeepsP.some_keeps ?_ _ _ (by assumption) | refine Keeps1.eq ?_ (by assumption)
    | refine Keeps2.eq ?_ (by assumption)

theorem State.advanceAll_keeps {r0_ s : State} {k : Nat} (h_ : Keeps r0_ s) : Keeps r0_ (State.advanceAll s k) := by
  unfold State.advanceAll
  with_reducible repeat' first
    | assumption | apply Keeps.foldl | apply State.advance_keeps

theorem State.injChecked_keeps {r0_ s : State} {t : Nat} {us : List Nat} (h_ : Keeps r0_ s) : Keeps r0_ (State.injChecked s t us) := by
  unfold State.injChecked
  with_reducible repeat' first
    | assumption | apply State.injActed_keeps | (fail_if_no_progress refine Keeps.upd ?_ ⟨rfl, rfl, rfl, rfl, rfl⟩)
    | split

theorem State.yardCheck_keeps {r0_ s0 : State} {b : BoundPlan} {m : Mac} {c0 : Check} (h_ : Keeps r0_ s0) : Keeps r0_ (State.yardCheck s0 b m c0) := by
  unfold State.yardCheck
  with_reducible repeat' first
    | assumption | apply Keeps.ite | apply State.inc_keeps | apply State.latch_keeps | apply State.loseUnit_keeps
    | apply State.injChecked_keeps

theorem State.luffCheck_keeps {r0_ s0 : State} {b : BoundPlan} {m : Mac} {c0 : Check} (h_ : Keeps r0_ s0) : Keeps r0_ (State.luffCheck s0 b m c0) := by
  unfold State.luffCheck
  with_reducible repeat' first
    | assumption | apply Keeps.ite | apply State.inc_keeps | apply State.latch_keeps | apply State.loseUnit_keeps
    | apply State.injChecked_keeps

theorem State.bankUe_keeps {r0_ s : State} {k b : Nat} (h_ : Keeps r0_ s) : Keeps r0_ (State.bankUe s k b) := by
  unfold State.bankUe
  with_reducible repeat' first
    | assumption | apply State.setBit_keeps | apply State.latch_keeps | apply State.loseUnit_keeps

theorem State.bankCorrected_keeps {r0_ s : State} {k b n : Nat} (h_ : Keeps r0_ s) : Keeps r0_ (State.bankCorrected s k b n) := by
  unfold State.bankCorrected
  with_reducible repeat' first
    | assumption | apply Keeps.ite | apply Keeps.foldl | apply Keeps.getD | apply State.addCnt_keeps
    | ((fail_if_no_progress extract_lets +onlyGivenNames x); first | ((first | refine Keeps.cut (t := x) ?_ ?_ | refine Keeps.cutO (o := x) ?_ ?_ | refine Keeps.cutP (o := x) ?_ ?_ | refine Keeps.cut1 (o := x) ?_ ?_ | refine Keeps.cut2 (o := x) ?_ ?_); rotate_left; (clear_value x; intro hx); rotate_left; (try subst x)) | (have _h := Keeps.memv x; clear _h) | (have _h := Keeps.bytesv x; clear _h) | (have _h := Keeps.fn x; clear _h; dsimp only [x]; clear x) | (have _h := Keeps.fn2 x; clear _h; dsimp only [x]; clear x) | clear_value x)
    | (fail_if_no_progress refine Keeps.upd ?_ ⟨rfl, rfl, rfl, rfl, rfl⟩)
    | (fail_if_no_progress ((apply Keeps.of_mk; (focus exact rfl); (focus exact rfl)); (with_unfolding_all focus first | (exact fun w => w) | exact SMap.wf_set _ _ | exact SMap.wf_filter _); (with_unfolding_all focus first | (exact fun w => w) | exact SMap.wf_putBytes _ _ | exact SMap.wf_clearRange _ _ | exact SMap.wf_filter _ | (exact fun w => SMap.wf_foldl_set _ _ _ (SMap.wf_clearRange _ _ w)) | (exact fun _ => SMap.wf_nil' _)); (focus first | exact Nat.le_refl _ | exact Nat.le_succ _ | exact Nat.le_add_right _ _)))
    | apply Keeps.foldl1 | apply Keeps.foldl2 | apply Keeps.ite1 | apply Keeps.ite2
    | refine KeepsP.some_keeps (by assumption) _ _ (by assumption)
    | refine KeepsO.oSome (by assumption) (by assumption) | refine KeepsO.oSome (by assumption) rfl
    | refine KeepsP.some_keeps (by assumption) _ _ rfl | apply KeepsP.map | refine Keeps1.keeps (by assumption)
    | refine Keeps2.keeps (by assumption) | exact KeepsO.none _ | apply KeepsO.some | apply KeepsO.ite
    | apply KeepsO.foldl | exact KeepsP.none _ | apply KeepsP.some | apply KeepsP.ite | apply Keeps1.mk'
    | apply Keeps1.ite | apply Keeps1.foldl | apply Keeps2.mk' | apply Keeps2.ite | apply Keeps2.foldl | intro _ _ _
    | intro _ _ | intro _ | split | (fail_if_no_progress dsimp only) | refine KeepsO.oSome ?_ (by assumption)
    | refine KeepsP.some_keeps ?_ _ _ (by assumption) | refine Keeps1.eq ?_ (by assumption)
    | refine Keeps2.eq ?_ (by assumption)

theorem State.parityError_keeps {r0_ s : State} {w : Walk} {sw stream : Nat} (h_ : Keeps r0_ s) : Keeps r0_ (State.parityError s w sw stream) := by
  unfold State.parityError
  with_reducible repeat' first
    | assumption | apply Keeps.ite | apply State.inc_keeps | apply State.latch_keeps | apply State.loseSpar_keeps
    | apply State.failWalk_keeps | (fail_if_no_progress refine Keeps.upd ?_ ⟨rfl, rfl, rfl, rfl, rfl⟩)

theorem State.storeUeAt_keeps {r0_ s : State} {w : Walk} {c slot : Nat} (h_ : Keeps r0_ s) : Keeps r0_ (State.storeUeAt s w c slot) := by
  unfold State.storeUeAt
  with_reducible repeat' first
    | assumption | apply Keeps.ite | apply State.latch_keeps | apply State.loseUnit_keeps
    | apply State.failWalk_keeps | (fail_if_no_progress refine Keeps.upd ?_ ⟨rfl, rfl, rfl, rfl, rfl⟩)

theorem State.sparFault_keeps {r0_ s : State} {w : Walk} {n_ : SparFault} (h_ : Keeps r0_ s) : Keeps r0_ (State.sparFault s w n_) := by
  cases n_ <;> unfold State.sparFault
  all_goals
    with_reducible repeat' first
      | assumption | apply Keeps.ite | apply Keeps.foldl | apply Keeps.getD | apply State.latch_keeps
      | apply State.loseSpar_keeps | apply State.lineUe_keeps | apply State.walkUe_keeps | apply State.bankUe_keeps
      | apply State.bankCorrected_keeps | apply State.parityError_keeps | apply State.storeUeAt_keeps
      | ((fail_if_no_progress extract_lets +onlyGivenNames x); first | ((first | refine Keeps.cut (t := x) ?_ ?_ | refine Keeps.cutO (o := x) ?_ ?_ | refine Keeps.cutP (o := x) ?_ ?_ | refine Keeps.cut1 (o := x) ?_ ?_ | refine Keeps.cut2 (o := x) ?_ ?_); rotate_left; (clear_value x; intro hx); rotate_left; (try subst x)) | (have _h := Keeps.memv x; clear _h) | (have _h := Keeps.bytesv x; clear _h) | (have _h := Keeps.fn x; clear _h; dsimp only [x]; clear x) | (have _h := Keeps.fn2 x; clear _h; dsimp only [x]; clear x) | clear_value x)
      | (fail_if_no_progress refine Keeps.upd ?_ ⟨rfl, rfl, rfl, rfl, rfl⟩)
      | (fail_if_no_progress ((apply Keeps.of_mk; (focus exact rfl); (focus exact rfl)); (with_unfolding_all focus first | (exact fun w => w) | exact SMap.wf_set _ _ | exact SMap.wf_filter _); (with_unfolding_all focus first | (exact fun w => w) | exact SMap.wf_putBytes _ _ | exact SMap.wf_clearRange _ _ | exact SMap.wf_filter _ | (exact fun w => SMap.wf_foldl_set _ _ _ (SMap.wf_clearRange _ _ w)) | (exact fun _ => SMap.wf_nil' _)); (focus first | exact Nat.le_refl _ | exact Nat.le_succ _ | exact Nat.le_add_right _ _)))
      | apply Keeps.foldl1 | apply Keeps.foldl2 | apply Keeps.ite1 | apply Keeps.ite2
      | refine KeepsP.some_keeps (by assumption) _ _ (by assumption)
      | refine KeepsO.oSome (by assumption) (by assumption) | refine KeepsO.oSome (by assumption) rfl
      | refine KeepsP.some_keeps (by assumption) _ _ rfl | apply KeepsP.map | refine Keeps1.keeps (by assumption)
      | refine Keeps2.keeps (by assumption) | exact KeepsO.none _ | apply KeepsO.some | apply KeepsO.ite
      | apply KeepsO.foldl | exact KeepsP.none _ | apply KeepsP.some | apply KeepsP.ite | apply Keeps1.mk'
      | apply Keeps1.ite | apply Keeps1.foldl | apply Keeps2.mk' | apply Keeps2.ite | apply Keeps2.foldl
      | intro _ _ _ | intro _ _ | intro _ | split | (fail_if_no_progress dsimp only)
      | refine KeepsO.oSome ?_ (by assumption) | refine KeepsP.some_keeps ?_ _ _ (by assumption)
      | refine Keeps1.eq ?_ (by assumption) | refine Keeps2.eq ?_ (by assumption)

theorem State.noteTurn_keeps {r0_ s : State} {w : Walk} (h_ : Keeps r0_ s) : Keeps r0_ (State.noteTurn s w) := by
  unfold State.noteTurn
  with_reducible repeat' first
    | assumption | apply Keeps.ite | apply Keeps.foldl | apply Keeps.getD
    | ((fail_if_no_progress extract_lets +onlyGivenNames x); first | ((first | refine Keeps.cut (t := x) ?_ ?_ | refine Keeps.cutO (o := x) ?_ ?_ | refine Keeps.cutP (o := x) ?_ ?_ | refine Keeps.cut1 (o := x) ?_ ?_ | refine Keeps.cut2 (o := x) ?_ ?_); rotate_left; (clear_value x; intro hx); rotate_left; (try subst x)) | (have _h := Keeps.memv x; clear _h) | (have _h := Keeps.bytesv x; clear _h) | (have _h := Keeps.fn x; clear _h; dsimp only [x]; clear x) | (have _h := Keeps.fn2 x; clear _h; dsimp only [x]; clear x) | clear_value x)
    | (fail_if_no_progress refine Keeps.upd ?_ ⟨rfl, rfl, rfl, rfl, rfl⟩)
    | (fail_if_no_progress ((apply Keeps.of_mk; (focus exact rfl); (focus exact rfl)); (with_unfolding_all focus first | (exact fun w => w) | exact SMap.wf_set _ _ | exact SMap.wf_filter _); (with_unfolding_all focus first | (exact fun w => w) | exact SMap.wf_putBytes _ _ | exact SMap.wf_clearRange _ _ | exact SMap.wf_filter _ | (exact fun w => SMap.wf_foldl_set _ _ _ (SMap.wf_clearRange _ _ w)) | (exact fun _ => SMap.wf_nil' _)); (focus first | exact Nat.le_refl _ | exact Nat.le_succ _ | exact Nat.le_add_right _ _)))
    | apply Keeps.foldl1 | apply Keeps.foldl2 | apply Keeps.ite1 | apply Keeps.ite2
    | refine KeepsP.some_keeps (by assumption) _ _ (by assumption)
    | refine KeepsO.oSome (by assumption) (by assumption) | refine KeepsO.oSome (by assumption) rfl
    | refine KeepsP.some_keeps (by assumption) _ _ rfl | apply KeepsP.map | refine Keeps1.keeps (by assumption)
    | refine Keeps2.keeps (by assumption) | exact KeepsO.none _ | apply KeepsO.some | apply KeepsO.ite
    | apply KeepsO.foldl | exact KeepsP.none _ | apply KeepsP.some | apply KeepsP.ite | apply Keeps1.mk'
    | apply Keeps1.ite | apply Keeps1.foldl | apply Keeps2.mk' | apply Keeps2.ite | apply Keeps2.foldl | intro _ _ _
    | intro _ _ | intro _ | split | (fail_if_no_progress dsimp only) | refine KeepsO.oSome ?_ (by assumption)
    | refine KeepsP.some_keeps ?_ _ _ (by assumption) | refine Keeps1.eq ?_ (by assumption)
    | refine Keeps2.eq ?_ (by assumption)

theorem State.enterSlot_keeps {r0_ s : State} {w : Walk} {m : Mac} {slot : Nat} {done late : Bool} (h_ : Keeps r0_ s) : Keeps r0_ (State.enterSlot s w m slot done late) := by
  unfold State.enterSlot
  with_reducible repeat' first
    | assumption | apply Keeps.ite | apply Keeps.foldl | apply Keeps.getD | apply State.inc_keeps
    | apply State.setWalk_keeps | apply State.noteTurn_keeps
    | ((fail_if_no_progress extract_lets +onlyGivenNames x); first | ((first | refine Keeps.cut (t := x) ?_ ?_ | refine Keeps.cutO (o := x) ?_ ?_ | refine Keeps.cutP (o := x) ?_ ?_ | refine Keeps.cut1 (o := x) ?_ ?_ | refine Keeps.cut2 (o := x) ?_ ?_); rotate_left; (clear_value x; intro hx); rotate_left; (try subst x)) | (have _h := Keeps.memv x; clear _h) | (have _h := Keeps.bytesv x; clear _h) | (have _h := Keeps.fn x; clear _h; dsimp only [x]; clear x) | (have _h := Keeps.fn2 x; clear _h; dsimp only [x]; clear x) | clear_value x)
    | (fail_if_no_progress refine Keeps.upd ?_ ⟨rfl, rfl, rfl, rfl, rfl⟩)
    | (fail_if_no_progress ((apply Keeps.of_mk; (focus exact rfl); (focus exact rfl)); (with_unfolding_all focus first | (exact fun w => w) | exact SMap.wf_set _ _ | exact SMap.wf_filter _); (with_unfolding_all focus first | (exact fun w => w) | exact SMap.wf_putBytes _ _ | exact SMap.wf_clearRange _ _ | exact SMap.wf_filter _ | (exact fun w => SMap.wf_foldl_set _ _ _ (SMap.wf_clearRange _ _ w)) | (exact fun _ => SMap.wf_nil' _)); (focus first | exact Nat.le_refl _ | exact Nat.le_succ _ | exact Nat.le_add_right _ _)))
    | apply Keeps.foldl1 | apply Keeps.foldl2 | apply Keeps.ite1 | apply Keeps.ite2
    | refine KeepsP.some_keeps (by assumption) _ _ (by assumption)
    | refine KeepsO.oSome (by assumption) (by assumption) | refine KeepsO.oSome (by assumption) rfl
    | refine KeepsP.some_keeps (by assumption) _ _ rfl | apply KeepsP.map | refine Keeps1.keeps (by assumption)
    | refine Keeps2.keeps (by assumption) | exact KeepsO.none _ | apply KeepsO.some | apply KeepsO.ite
    | apply KeepsO.foldl | exact KeepsP.none _ | apply KeepsP.some | apply KeepsP.ite | apply Keeps1.mk'
    | apply Keeps1.ite | apply Keeps1.foldl | apply Keeps2.mk' | apply Keeps2.ite | apply Keeps2.foldl | intro _ _ _
    | intro _ _ | intro _ | split | (fail_if_no_progress dsimp only) | refine KeepsO.oSome ?_ (by assumption)
    | refine KeepsP.some_keeps ?_ _ _ (by assumption) | refine Keeps1.eq ?_ (by assumption)
    | refine Keeps2.eq ?_ (by assumption)

theorem State.takeMac_keeps {r0_ s : State} {w : Walk} {m : Mac} {slot : Nat} {settled late : Bool} (h_ : Keeps r0_ s) : Keeps r0_ (State.takeMac s w m slot settled late) := by
  unfold State.takeMac
  with_reducible repeat' first
    | assumption | apply State.takeStops_keeps | apply State.advance_keeps | apply State.enterSlot_keeps
    | ((fail_if_no_progress extract_lets +onlyGivenNames x); first | ((refine Keeps.cut (t := x) ?_ ?_); rotate_left; (clear_value x; intro hx); rotate_left; (try subst x)) | clear_value x)
    | split

theorem State.issueMac_keeps {r0_ s : State} {w : Walk} {m : Mac} {b : BoundPlan} {slot : Nat} {inj : List UnitId} {chk : Check} {f : Option SparFault} {late : Bool} (h_ : Keeps r0_ s) : Keeps r0_ (State.issueMac s w m b slot inj chk f late) := by
  unfold State.issueMac
  with_reducible repeat' first
    | assumption | apply State.yardCheck_keeps | apply State.luffCheck_keeps | apply State.sparFault_keeps
    | apply State.takeMac_keeps | split

theorem State.issue_keeps {r0_ s : State} {spar id : Nat} {row : Nat × Nat} {chk : Check} {f : Option SparFault} {late : Bool} (h_ : Keeps r0_ s) : Keeps r0_ (State.issue s spar id row chk f late) := by
  unfold State.issue
  with_reducible repeat' first
    | assumption | apply Keeps.ite | apply Keeps.foldl | apply Keeps.getD | apply State.inc_keeps
    | apply State.latch_keeps | apply State.wakeAll_keeps | apply State.dropLostPlans_keeps
    | apply State.setWalk_keeps | apply State.walkUe_keeps | apply State.testEnds_keeps
    | apply State.settleWalk_keeps | apply State.takeStops_keeps | apply State.issueMac_keeps
    | ((fail_if_no_progress extract_lets +onlyGivenNames x); first | ((first | refine Keeps.cut (t := x) ?_ ?_ | refine Keeps.cutO (o := x) ?_ ?_ | refine Keeps.cutP (o := x) ?_ ?_ | refine Keeps.cut1 (o := x) ?_ ?_ | refine Keeps.cut2 (o := x) ?_ ?_); rotate_left; (clear_value x; intro hx); rotate_left; (try subst x)) | (have _h := Keeps.memv x; clear _h) | (have _h := Keeps.bytesv x; clear _h) | (have _h := Keeps.fn x; clear _h; dsimp only [x]; clear x) | (have _h := Keeps.fn2 x; clear _h; dsimp only [x]; clear x) | clear_value x)
    | (fail_if_no_progress refine Keeps.upd ?_ ⟨rfl, rfl, rfl, rfl, rfl⟩)
    | (fail_if_no_progress ((apply Keeps.of_mk; (focus exact rfl); (focus exact rfl)); (with_unfolding_all focus first | (exact fun w => w) | exact SMap.wf_set _ _ | exact SMap.wf_filter _); (with_unfolding_all focus first | (exact fun w => w) | exact SMap.wf_putBytes _ _ | exact SMap.wf_clearRange _ _ | exact SMap.wf_filter _ | (exact fun w => SMap.wf_foldl_set _ _ _ (SMap.wf_clearRange _ _ w)) | (exact fun _ => SMap.wf_nil' _)); (focus first | exact Nat.le_refl _ | exact Nat.le_succ _ | exact Nat.le_add_right _ _)))
    | apply Keeps.foldl1 | apply Keeps.foldl2 | apply Keeps.ite1 | apply Keeps.ite2
    | refine KeepsP.some_keeps (by assumption) _ _ (by assumption)
    | refine KeepsO.oSome (by assumption) (by assumption) | refine KeepsO.oSome (by assumption) rfl
    | refine KeepsP.some_keeps (by assumption) _ _ rfl | apply KeepsP.map | refine Keeps1.keeps (by assumption)
    | refine Keeps2.keeps (by assumption) | exact KeepsO.none _ | apply KeepsO.some | apply KeepsO.ite
    | apply KeepsO.foldl | exact KeepsP.none _ | apply KeepsP.some | apply KeepsP.ite | apply Keeps1.mk'
    | apply Keeps1.ite | apply Keeps1.foldl | apply Keeps2.mk' | apply Keeps2.ite | apply Keeps2.foldl | intro _ _ _
    | intro _ _ | intro _ | split | (fail_if_no_progress dsimp only) | refine KeepsO.oSome ?_ (by assumption)
    | refine KeepsP.some_keeps ?_ _ _ (by assumption) | refine Keeps1.eq ?_ (by assumption)
    | refine Keeps2.eq ?_ (by assumption)

theorem execGemm_keeps {r0_ s : State} {spar : BitVec 2} {w : BitVec 6} {chk : Check} {f : Option SparFault} {late : Bool} (h_ : Keeps r0_ s) : KeepsR r0_ (execGemm spar w chk f s late) := by
  unfold execGemm
  with_reducible repeat' first
    | assumption | apply KeepsR.next | apply State.issue_keeps

theorem execCopyMacro_keeps {r0_ s : State} {spar : BitVec 2} {w : BitVec 6} {f : Option SparFault} {late : Bool} (h_ : Keeps r0_ s) : KeepsR r0_ (execCopyMacro spar w f s late) := by
  unfold execCopyMacro
  with_reducible repeat' first
    | assumption | apply KeepsR.next | apply State.issue_keeps

theorem execAttn_keeps {r0_ s : State} {spar : BitVec 2} {w : BitVec 6} {chk : Check} {f : Option SparFault} {late : Bool} (h_ : Keeps r0_ s) : KeepsR r0_ (execAttn spar w chk f s late) := by
  unfold execAttn
  with_reducible repeat' first
    | assumption | apply KeepsR.next | apply State.issue_keeps

theorem execScatter_keeps {r0_ s : State} {spar : BitVec 2} {w : BitVec 6} {late : Bool} (h_ : Keeps r0_ s) : KeepsR r0_ (execScatter spar w s late) := by
  unfold execScatter
  with_reducible repeat' first
    | assumption | apply KeepsR.next | apply State.issue_keeps

theorem execMap_keeps {r0_ s : State} {spar : BitVec 2} {w : BitVec 6} {f : Option SparFault} {late : Bool} (h_ : Keeps r0_ s) : KeepsR r0_ (execMap spar w f s late) := by
  unfold execMap
  with_reducible repeat' first
    | assumption | apply KeepsR.next | apply State.issue_keeps

theorem execSmaxMax_keeps {r0_ s : State} {spar : BitVec 2} {w : BitVec 6} {f : Option SparFault} {late : Bool} (h_ : Keeps r0_ s) : KeepsR r0_ (execSmaxMax spar w f s late) := by
  unfold execSmaxMax
  with_reducible repeat' first
    | assumption | apply KeepsR.next | apply State.issue_keeps

theorem execSmaxSum_keeps {r0_ s : State} {spar : BitVec 2} {w : BitVec 6} {f : Option SparFault} {late : Bool} (h_ : Keeps r0_ s) : KeepsR r0_ (execSmaxSum spar w f s late) := by
  unfold execSmaxSum
  with_reducible repeat' first
    | assumption | apply KeepsR.next | apply State.issue_keeps

theorem execSmaxOut_keeps {r0_ s : State} {spar : BitVec 2} {w : BitVec 6} {f : Option SparFault} {late : Bool} (h_ : Keeps r0_ s) : KeepsR r0_ (execSmaxOut spar w f s late) := by
  unfold execSmaxOut
  with_reducible repeat' first
    | assumption | apply KeepsR.next | apply State.issue_keeps

theorem execSample_keeps {r0_ s : State} {spar : BitVec 2} {w : BitVec 6} {f : Option SparFault} {late : Bool} (h_ : Keeps r0_ s) : KeepsR r0_ (execSample spar w f s late) := by
  unfold execSample
  with_reducible repeat' first
    | assumption | apply KeepsR.next | apply State.issue_keeps

theorem execNormMax_keeps {r0_ s : State} {spar : BitVec 2} {w : BitVec 6} {f : Option SparFault} {late : Bool} (h_ : Keeps r0_ s) : KeepsR r0_ (execNormMax spar w f s late) := by
  unfold execNormMax
  with_reducible repeat' first
    | assumption | apply KeepsR.next | apply State.issue_keeps

theorem execNormSum_keeps {r0_ s : State} {spar : BitVec 2} {w : BitVec 6} {f : Option SparFault} {late : Bool} (h_ : Keeps r0_ s) : KeepsR r0_ (execNormSum spar w f s late) := by
  unfold execNormSum
  with_reducible repeat' first
    | assumption | apply KeepsR.next | apply State.issue_keeps

theorem execNormOut_keeps {r0_ s : State} {spar : BitVec 2} {w : BitVec 6} {f : Option SparFault} {late : Bool} (h_ : Keeps r0_ s) : KeepsR r0_ (execNormOut spar w f s late) := by
  unfold execNormOut
  with_reducible repeat' first
    | assumption | apply KeepsR.next | apply State.issue_keeps

theorem execSend_keeps {r0_ s : State} {spar : BitVec 2} {w : BitVec 6} {late : Bool} (h_ : Keeps r0_ s) : KeepsR r0_ (execSend spar w s late) := by
  unfold execSend
  with_reducible repeat' first
    | assumption | apply KeepsR.next | apply State.issue_keeps

theorem execRecv_keeps {r0_ s : State} {spar : BitVec 2} {w : BitVec 6} {late : Bool} (h_ : Keeps r0_ s) : KeepsR r0_ (execRecv spar w s late) := by
  unfold execRecv
  with_reducible repeat' first
    | assumption | apply KeepsR.next | apply State.issue_keeps

theorem execAllreduce_keeps {r0_ s : State} {spar : BitVec 2} {w : BitVec 6} {late : Bool} (h_ : Keeps r0_ s) : KeepsR r0_ (execAllreduce spar w s late) := by
  unfold execAllreduce
  with_reducible repeat' first
    | assumption | apply KeepsR.next | apply State.issue_keeps

theorem execAllgather_keeps {r0_ s : State} {spar : BitVec 2} {w : BitVec 6} {late : Bool} (h_ : Keeps r0_ s) : KeepsR r0_ (execAllgather spar w s late) := by
  unfold execAllgather
  with_reducible repeat' first
    | assumption | apply KeepsR.next | apply State.issue_keeps

theorem execGather_keeps {r0_ s : State} {spar : BitVec 2} {w : BitVec 6} {late : Bool} (h_ : Keeps r0_ s) : KeepsR r0_ (execGather spar w s late) := by
  unfold execGather
  with_reducible repeat' first
    | assumption | apply KeepsR.next | apply State.issue_keeps

theorem execStats_keeps {r0_ s : State} {spar : BitVec 2} {w : BitVec 6} {late : Bool} (h_ : Keeps r0_ s) : KeepsR r0_ (execStats spar w s late) := by
  unfold execStats
  with_reducible repeat' first
    | assumption | apply KeepsR.next | apply State.issue_keeps

theorem execMacroRetire_keeps {r0_ s : State} {spar : BitVec 2} {slot : BitVec 10} (h_ : Keeps r0_ s) : KeepsR r0_ (execMacroRetire spar slot s) := by
  unfold execMacroRetire
  with_reducible repeat' first
    | assumption | apply KeepsR.next | apply State.settleWalk_keeps | apply State.advanceAll_keeps
    | (fail_if_no_progress refine Keeps.upd ?_ ⟨rfl, rfl, rfl, rfl, rfl⟩) | split

theorem State.writeBomTest_keeps {r0_ s : State} {k : Nat} {v : Word} (h_ : Keeps r0_ s) : Keeps r0_ (State.writeBomTest s k v) := by
  unfold State.writeBomTest
  with_reducible repeat' first
    | assumption | apply State.setReg_keeps | apply State.settleWalk_keeps
    | ((fail_if_no_progress extract_lets +onlyGivenNames x); first | ((refine Keeps.cut (t := x) ?_ ?_); rotate_left; (clear_value x; intro hx); rotate_left; (try subst x)) | clear_value x)
    | (fail_if_no_progress refine Keeps.upd ?_ ⟨rfl, rfl, rfl, rfl, rfl⟩) | split

theorem execBomTestStart_keeps {r0_ s : State} {m : Master} {k : BitVec 2} {be : BitVec 4} {v : Word} (h_ : Keeps r0_ s) : KeepsR r0_ (execBomTestStart m k be v s) := by
  unfold execBomTestStart
  with_reducible repeat' first
    | assumption | apply KeepsR.next | apply State.gated_keeps | apply State.writeBomTest_keeps | intro _ _

theorem State.writeRetire_keeps {r0_ s : State} {m : Master} {p : Nat} {u : UnitId} {v : Word} (h_ : Keeps r0_ s) : Keeps r0_ (State.writeRetire s m p u v) := by
  unfold State.writeRetire
  with_reducible repeat' first
    | assumption | apply Keeps.ite | apply State.loseUnit_keeps | apply State.store_keeps

theorem execYardRetire_keeps {r0_ s : State} {m : Master} {i : BitVec 5} {be : BitVec 4} {v : Word} (h_ : Keeps r0_ s) : KeepsR r0_ (execYardRetire m i be v s) := by
  unfold execYardRetire
  with_reducible repeat' first
    | assumption | apply KeepsR.next | apply State.gated_keeps | apply State.writeRetire_keeps | intro _ _

theorem execLuffRetire_keeps {r0_ s : State} {m : Master} {i : BitVec 3} {be : BitVec 4} {v : Word} (h_ : Keeps r0_ s) : KeepsR r0_ (execLuffRetire m i be v s) := by
  unfold execLuffRetire
  with_reducible repeat' first
    | assumption | apply KeepsR.next | apply State.gated_keeps | apply State.writeRetire_keeps | intro _ _

theorem execClewRetire_keeps {r0_ s : State} {m : Master} {i : BitVec 4} {be : BitVec 4} {v : Word} (h_ : Keeps r0_ s) : KeepsR r0_ (execClewRetire m i be v s) := by
  unfold execClewRetire
  with_reducible repeat' first
    | assumption | apply KeepsR.next | apply State.gated_keeps | apply State.writeRetire_keeps | intro _ _

theorem execBankRetire_keeps {r0_ s : State} {bank : Byte} (h_ : Keeps r0_ s) : KeepsR r0_ (execBankRetire bank s) := by
  unfold execBankRetire
  with_reducible repeat' first
    | assumption | apply KeepsR.next | apply Keeps.ite | apply State.setBit_keeps | apply State.addCnt_keeps
    | apply State.latch_keeps | apply State.loseUnit_keeps

/-! ### Topology -/

theorem State.tryUp_keeps {r0_ s : State} {b : Nat} (h_ : Keeps r0_ s) : Keeps r0_ (State.tryUp s b) := by
  unfold State.tryUp
  with_reducible repeat' first
    | assumption | apply Keeps.ite | apply State.setFld_keeps

theorem State.admitBundle_keeps {r0_ s : State} {b : Nat} (h_ : Keeps r0_ s) : Keeps r0_ (State.admitBundle s b) := by
  unfold State.admitBundle
  with_reducible repeat' first
    | assumption | apply Keeps.ite | apply State.emit_keeps | apply State.tryUp_keeps
    | (fail_if_no_progress refine Keeps.upd ?_ ⟨rfl, rfl, rfl, rfl, rfl⟩)

theorem State.holdBundle_keeps {r0_ s : State} {b : Nat} (h_ : Keeps r0_ s) : Keeps r0_ (State.holdBundle s b) := by
  unfold State.holdBundle
  with_reducible repeat' first
    | assumption | apply Keeps.ite | apply State.setFld_keeps
    | (fail_if_no_progress refine Keeps.upd ?_ ⟨rfl, rfl, rfl, rfl, rfl⟩)

theorem State.rigDone_keeps {r0_ s : State}  (h_ : Keeps r0_ s) : Keeps r0_ (State.rigDone s) := by
  unfold State.rigDone
  with_reducible repeat' first
    | assumption | apply Keeps.ite | apply State.setBit_keeps

theorem State.classBundle_keeps {r0_ s : State} {b : Nat} (h_ : Keeps r0_ s) : Keeps r0_ (State.classBundle s b) := by
  unfold State.classBundle
  with_reducible repeat' first
    | assumption | apply Keeps.ite | apply State.setReg_keeps | apply State.setFld_keeps | apply State.latch_keeps
    | apply State.admitBundle_keeps | apply State.holdBundle_keeps
    | (fail_if_no_progress refine Keeps.upd ?_ ⟨rfl, rfl, rfl, rfl, rfl⟩)

theorem execRigCheck_keeps {r0_ s : State} {b : BitVec 4} (h_ : Keeps r0_ s) : KeepsR r0_ (execRigCheck b s) := by
  unfold execRigCheck
  with_reducible repeat' first
    | assumption | apply KeepsR.next | apply State.rigDone_keeps | apply State.classBundle_keeps | split

theorem execRigOk_keeps {r0_ s : State} {b : BitVec 4} (h_ : Keeps r0_ s) : KeepsR r0_ (execRigOk b s) := by
  unfold execRigOk
  with_reducible repeat' first
    | assumption | apply KeepsR.next | apply State.tryUp_keeps
    | (fail_if_no_progress refine Keeps.upd ?_ ⟨rfl, rfl, rfl, rfl, rfl⟩) | split

theorem State.rigAgain_keeps {r0_ s : State}  (h_ : Keeps r0_ s) : Keeps r0_ (State.rigAgain s) := by
  unfold State.rigAgain
  with_reducible repeat' first
    | assumption | apply State.setBit_keeps | (fail_if_no_progress refine Keeps.upd ?_ ⟨rfl, rfl, rfl, rfl, rfl⟩)

theorem State.rigLoad_keeps {r0_ s : State} (h_ : Keeps r0_ s) : Keeps r0_ s.rigLoad := by
  unfold State.rigLoad
  refine State.rigAgain_keeps (Keeps.foldl _ _ (Keeps.of_mk rfl rfl (fun w => w) (fun w => w) (Nat.le_refl _) h_) ?_)
  intro t b ht
  split
  · exact ht
  · exact State.holdBundle_keeps ht

theorem State.writeRigCmd_keeps {r0_ s : State} {v : Word} (h_ : Keeps r0_ s) : Keeps r0_ (State.writeRigCmd s v) := by
  unfold State.writeRigCmd
  with_reducible repeat' first
    | assumption | apply Keeps.ite | apply State.rigAgain_keeps | apply State.rigLoad_keeps

theorem execLoad_keeps {r0_ s : State} {m : Master} {be : BitVec 4} (h_ : Keeps r0_ s) : KeepsR r0_ (execLoad m be s) := by
  unfold execLoad
  with_reducible repeat' first
    | assumption | apply KeepsR.next | apply State.gated_keeps | apply State.writeRigCmd_keeps | intro _ _

theorem execCheck_keeps {r0_ s : State} {m : Master} {be : BitVec 4} (h_ : Keeps r0_ s) : KeepsR r0_ (execCheck m be s) := by
  unfold execCheck
  with_reducible repeat' first
    | assumption | apply KeepsR.next | apply State.gated_keeps | apply State.writeRigCmd_keeps | intro _ _

theorem execRigTimeout_keeps {r0_ s : State}  (h_ : Keeps r0_ s) : KeepsR r0_ (execRigTimeout s) := by
  unfold execRigTimeout
  with_reducible repeat' first
    | assumption | apply KeepsR.next | apply State.setBit_keeps | apply State.latch_keeps | split

theorem State.writeTopCoord_keeps {r0_ s : State} {m : Master} {v : Word} (h_ : Keeps r0_ s) : Keeps r0_ (State.writeTopCoord s m v) := by
  unfold State.writeTopCoord
  with_reducible repeat' first
    | assumption | apply Keeps.ite | apply Keeps.foldl | apply State.store_keeps | apply State.holdBundle_keeps
    | apply State.rigAgain_keeps

theorem execTopCoordWrite_keeps {r0_ s : State} {m : Master} {be : BitVec 4} {v : Word} (h_ : Keeps r0_ s) : KeepsR r0_ (execTopCoordWrite m be v s) := by
  unfold execTopCoordWrite
  with_reducible repeat' first
    | assumption | apply KeepsR.next | apply State.gated_keeps | apply State.writeTopCoord_keeps | intro _ _

theorem execReach_keeps {r0_ s : State} {coords : BitVec 16} {railsA railsB : BitVec 6} (h_ : Keeps r0_ s) : KeepsR r0_ (execReach coords railsA railsB s) := by
  unfold execReach
  with_reducible repeat' first
    | assumption | apply KeepsR.next | apply State.resendAll_keeps
    | (fail_if_no_progress refine Keeps.upd ?_ ⟨rfl, rfl, rfl, rfl, rfl⟩)

theorem State.setJury_keeps {r0_ s : State} {st reason : Nat} (h_ : Keeps r0_ s) : Keeps r0_ (State.setJury s st reason) := by
  unfold State.setJury
  with_reducible repeat' first
    | assumption | apply State.setFld_keeps

theorem State.juryArm_keeps {r0_ s : State}  (h_ : Keeps r0_ s) : Keeps r0_ (State.juryArm s) := by
  unfold State.juryArm
  with_reducible repeat' first
    | assumption | apply Keeps.ite | apply State.setJury_keeps

theorem State.juryDisarm_keeps {r0_ s : State}  (h_ : Keeps r0_ s) : Keeps r0_ (State.juryDisarm s) := by
  unfold State.juryDisarm
  with_reducible repeat' first
    | assumption | apply Keeps.ite | apply State.setJury_keeps

theorem State.takeOn_keeps {r0_ s : State}  {n_ : Nat} (h_ : Keeps r0_ s) : Keeps r0_ (State.takeOn s n_) := by
  induction n_ generalizing s  with
  | zero =>
    unfold State.takeOn
    with_reducible repeat' first
      | assumption | apply State.setReg_keeps | apply State.toLeaves_keeps | apply ih
      | (fail_if_no_progress refine Keeps.upd ?_ ⟨rfl, rfl, rfl, rfl, rfl⟩) | split
  | succ n ih =>
    unfold State.takeOn
    with_reducible repeat' first
      | assumption | apply State.setReg_keeps | apply State.toLeaves_keeps | apply ih
      | (fail_if_no_progress refine Keeps.upd ?_ ⟨rfl, rfl, rfl, rfl, rfl⟩) | split

theorem State.juryTake_keeps {r0_ s : State} {x : Nat} {asked : Option Nat} (h_ : Keeps r0_ s) : Keeps r0_ (State.juryTake s x asked) := by
  unfold State.juryTake
  with_reducible repeat' first
    | assumption | apply State.setFld_keeps | apply State.toLeaves_keeps | apply State.setJury_keeps
    | apply State.takeOn_keeps | (fail_if_no_progress refine Keeps.upd ?_ ⟨rfl, rfl, rfl, rfl, rfl⟩)

theorem State.writeJryCmd_keeps {r0_ s : State} {v : Word} (h_ : Keeps r0_ s) : Keeps r0_ (State.writeJryCmd s v) := by
  unfold State.writeJryCmd
  with_reducible repeat' first
    | assumption | apply Keeps.ite | apply State.setJury_keeps | apply State.juryArm_keeps
    | apply State.juryDisarm_keeps | apply State.juryTake_keeps

theorem execArm_keeps {r0_ s : State} {m : Master} {be : BitVec 4} (h_ : Keeps r0_ s) : KeepsR r0_ (execArm m be s) := by
  unfold execArm
  with_reducible repeat' first
    | assumption | apply KeepsR.next | apply State.gated_keeps | apply State.writeJryCmd_keeps | intro _ _

theorem execDisarm_keeps {r0_ s : State} {m : Master} {be : BitVec 4} (h_ : Keeps r0_ s) : KeepsR r0_ (execDisarm m be s) := by
  unfold execDisarm
  with_reducible repeat' first
    | assumption | apply KeepsR.next | apply State.gated_keeps | apply State.writeJryCmd_keeps | intro _ _

theorem State.askTakeover_keeps {r0_ s : State} {x member : Nat} (h_ : Keeps r0_ s) : Keeps r0_ (State.askTakeover s x member) := by
  unfold State.askTakeover
  with_reducible repeat' first
    | assumption | apply State.emit_keeps | apply State.juryTake_keeps
    | (fail_if_no_progress refine Keeps.upd ?_ ⟨rfl, rfl, rfl, rfl, rfl⟩) | split

theorem execTakeover_keeps {r0_ s : State} {src : Option Master} {be : BitVec 4} {x : BitVec 16} {member : BitVec 16} (h_ : Keeps r0_ s) : KeepsR r0_ (execTakeover src be x member s) := by
  unfold execTakeover
  with_reducible repeat' first
    | assumption | apply KeepsR.next | apply State.gated_keeps | apply State.writeJryCmd_keeps
    | apply State.askTakeover_keeps | intro _ _ | split

theorem execBusy_keeps {r0_ s : State} {slot : Byte} {x : BitVec 16} {failed : Bool} (h_ : Keeps r0_ s) : KeepsR r0_ (execBusy slot x s failed) := by
  unfold execBusy
  with_reducible repeat' first
    | assumption | apply KeepsR.next | apply Keeps.foldl | apply State.emit_keeps | apply State.ringFails_keeps
    | (fail_if_no_progress refine Keeps.upd ?_ ⟨rfl, rfl, rfl, rfl, rfl⟩) | intro _ _ _ | split

theorem State.leafConfirms_keeps {r0_ s : State} {stage leaf : Nat} (h_ : Keeps r0_ s) : Keeps r0_ (State.leafConfirms s stage leaf) := by
  unfold State.leafConfirms
  with_reducible repeat' first
    | assumption | apply State.takeOn_keeps | (fail_if_no_progress refine Keeps.upd ?_ ⟨rfl, rfl, rfl, rfl, rfl⟩)
    | split

theorem execFenceConfirm_keeps {r0_ s : State} {leaf : BitVec 4} (h_ : Keeps r0_ s) : KeepsR r0_ (execFenceConfirm leaf s) := by
  unfold execFenceConfirm
  with_reducible repeat' first
    | assumption | apply KeepsR.next | apply State.leafConfirms_keeps

theorem execRebindConfirm_keeps {r0_ s : State} {leaf : BitVec 4} (h_ : Keeps r0_ s) : KeepsR r0_ (execRebindConfirm leaf s) := by
  unfold execRebindConfirm
  with_reducible repeat' first
    | assumption | apply KeepsR.next | apply State.leafConfirms_keeps

theorem execSettleEnd_keeps {r0_ s : State}  (h_ : Keeps r0_ s) : KeepsR r0_ (execSettleEnd s) := by
  unfold execSettleEnd
  with_reducible repeat' first
    | assumption | apply KeepsR.next | apply Keeps.foldl | apply State.emit_keeps | apply State.inc_keeps
    | apply State.setJury_keeps | (fail_if_no_progress refine Keeps.upd ?_ ⟨rfl, rfl, rfl, rfl, rfl⟩) | intro _ _ _
    | split

theorem execConfirmTimeout_keeps {r0_ s : State}  (h_ : Keeps r0_ s) : KeepsR r0_ (execConfirmTimeout s) := by
  unfold execConfirmTimeout
  with_reducible repeat' first
    | assumption | apply KeepsR.next | exact KeepsR.fault _ _ | apply KeepsR.ite | apply Keeps.ite
    | apply Keeps.foldl | apply Keeps.getD | apply State.setReg_keeps | apply State.emit_keeps
    | apply State.latch_keeps | apply State.toLeaves_keeps | apply State.setJury_keeps
    | ((fail_if_no_progress extract_lets +onlyGivenNames x); first | ((first | refine Keeps.cut (t := x) ?_ ?_ | refine KeepsR.cut (t := x) ?_ ?_ | refine Keeps.cutO (o := x) ?_ ?_ | refine Keeps.cutP (o := x) ?_ ?_ | refine Keeps.cut1 (o := x) ?_ ?_ | refine Keeps.cut2 (o := x) ?_ ?_); rotate_left; (clear_value x; intro hx); rotate_left; (try subst x)) | (have _h := Keeps.memv x; clear _h) | (have _h := Keeps.bytesv x; clear _h) | (have _h := Keeps.fn x; clear _h; dsimp only [x]; clear x) | (have _h := Keeps.fn2 x; clear _h; dsimp only [x]; clear x) | clear_value x)
    | (fail_if_no_progress refine Keeps.upd ?_ ⟨rfl, rfl, rfl, rfl, rfl⟩)
    | (fail_if_no_progress ((apply Keeps.of_mk; (focus exact rfl); (focus exact rfl)); (with_unfolding_all focus first | (exact fun w => w) | exact SMap.wf_set _ _ | exact SMap.wf_filter _); (with_unfolding_all focus first | (exact fun w => w) | exact SMap.wf_putBytes _ _ | exact SMap.wf_clearRange _ _ | exact SMap.wf_filter _ | (exact fun w => SMap.wf_foldl_set _ _ _ (SMap.wf_clearRange _ _ w)) | (exact fun _ => SMap.wf_nil' _)); (focus first | exact Nat.le_refl _ | exact Nat.le_succ _ | exact Nat.le_add_right _ _)))
    | apply Keeps.foldl1 | apply Keeps.foldl2 | apply Keeps.ite1 | apply Keeps.ite2
    | refine KeepsP.some_keeps (by assumption) _ _ (by assumption)
    | refine KeepsO.oSome (by assumption) (by assumption) | refine KeepsO.oSome (by assumption) rfl
    | refine KeepsP.some_keeps (by assumption) _ _ rfl | apply KeepsP.map | refine Keeps1.keeps (by assumption)
    | refine Keeps2.keeps (by assumption) | exact KeepsO.none _ | apply KeepsO.some | apply KeepsO.ite
    | apply KeepsO.foldl | exact KeepsP.none _ | apply KeepsP.some | apply KeepsP.ite | apply Keeps1.mk'
    | apply Keeps1.ite | apply Keeps1.foldl | apply Keeps2.mk' | apply Keeps2.ite | apply Keeps2.foldl | intro _ _ _
    | intro _ _ | intro _ | split | (fail_if_no_progress dsimp only) | refine KeepsO.oSome ?_ (by assumption)
    | refine KeepsP.some_keeps ?_ _ _ (by assumption) | refine Keeps1.eq ?_ (by assumption)
    | refine Keeps2.eq ?_ (by assumption)

theorem execTaken_keeps {r0_ s : State} {x : BitVec 16} (h_ : Keeps r0_ s) : KeepsR r0_ (execTaken x s) := by
  unfold execTaken
  with_reducible repeat' first
    | assumption | apply KeepsR.next | apply State.holdShroud_keeps | apply State.ringTaken_keeps
    | (fail_if_no_progress refine Keeps.upd ?_ ⟨rfl, rfl, rfl, rfl, rfl⟩)

/-! ### Telltale -/

theorem State.setNow64_keeps {r0_ s : State} {n : Nat} (h_ : Keeps r0_ s) : Keeps r0_ (State.setNow64 s n) := by
  unfold State.setNow64
  with_reducible repeat' first
    | assumption | (fail_if_no_progress refine Keeps.upd ?_ ⟨rfl, rfl, rfl, rfl, rfl⟩)

theorem State.setTtlState_keeps {r0_ s : State} {st : Nat} (h_ : Keeps r0_ s) : Keeps r0_ (State.setTtlState s st) := by
  unfold State.setTtlState
  with_reducible repeat' first
    | assumption | apply Keeps.ite | apply Keeps.foldl | apply State.setFld_keeps | apply State.irq_keeps
    | apply State.tryForm_keeps | (fail_if_no_progress refine Keeps.upd ?_ ⟨rfl, rfl, rfl, rfl, rfl⟩)

theorem State.latchTtl_keeps {r0_ s : State} {c : Nat} (h_ : Keeps r0_ s) : Keeps r0_ (State.latchTtl s c) := by
  unfold State.latchTtl
  with_reducible repeat' first
    | assumption | apply State.latch_keeps

theorem State.loseSync_keeps {r0_ s : State}  (h_ : Keeps r0_ s) : Keeps r0_ (State.loseSync s) := by
  unfold State.loseSync
  with_reducible repeat' first
    | assumption | apply State.setTtlState_keeps | apply State.latchTtl_keeps

theorem State.showUpstream_keeps {r0_ s : State} {root : Bool} {b hops : Nat} {id : BitVec 96} (h_ : Keeps r0_ s) : Keeps r0_ (State.showUpstream s root b hops id) := by
  unfold State.showUpstream
  with_reducible repeat' first
    | assumption | apply State.setFld_keeps | apply State.setBit_keeps

theorem State.follow_keeps {r0_ s : State}  (h_ : Keeps r0_ s) : Keeps r0_ (State.follow s) := by
  unfold State.follow
  with_reducible repeat' first
    | assumption | apply State.showUpstream_keeps
    | (fail_if_no_progress refine Keeps.upd ?_ ⟨rfl, rfl, rfl, rfl, rfl⟩) | split

theorem State.becomeRoot_keeps {r0_ s : State}  (h_ : Keeps r0_ s) : Keeps r0_ (State.becomeRoot s) := by
  unfold State.becomeRoot
  with_reducible repeat' first
    | assumption | apply State.setTtlState_keeps | apply State.showUpstream_keeps
    | (fail_if_no_progress refine Keeps.upd ?_ ⟨rfl, rfl, rfl, rfl, rfl⟩)

theorem State.claimRoot_keeps {r0_ s : State}  (h_ : Keeps r0_ s) : Keeps r0_ (State.claimRoot s) := by
  unfold State.claimRoot
  with_reducible repeat' first
    | assumption | apply Keeps.ite | apply State.becomeRoot_keeps | split

theorem State.steer_keeps {r0_ s : State} {theta : Int} (h_ : Keeps r0_ s) : Keeps r0_ (State.steer s theta) := by
  unfold State.steer
  with_reducible repeat' first
    | assumption | (fail_if_no_progress refine Keeps.upd ?_ ⟨rfl, rfl, rfl, rfl, rfl⟩)

theorem State.stepBy_keeps {r0_ s : State} {theta : Int} (h_ : Keeps r0_ s) : Keeps r0_ (State.stepBy s theta) := by
  unfold State.stepBy
  with_reducible repeat' first
    | assumption | apply State.inc_keeps | apply State.fireDue_keeps | apply State.setNow64_keeps
    | apply State.latchTtl_keeps | (fail_if_no_progress refine Keeps.upd ?_ ⟨rfl, rfl, rfl, rfl, rfl⟩)

theorem State.tryLock_keeps {r0_ s : State}  (h_ : Keeps r0_ s) : Keeps r0_ (State.tryLock s) := by
  unfold State.tryLock
  with_reducible repeat' first
    | assumption | apply Keeps.ite | apply State.setTtlState_keeps | apply State.claimRoot_keeps

theorem State.holdover_keeps {r0_ s : State}  (h_ : Keeps r0_ s) : Keeps r0_ (State.holdover s) := by
  unfold State.holdover
  with_reducible repeat' first
    | assumption | apply State.inc_keeps | apply State.setTtlState_keeps

theorem State.useOffset_keeps {r0_ s : State} {theta : Int} {good : Bool} (h_ : Keeps r0_ s) : Keeps r0_ (State.useOffset s theta good) := by
  unfold State.useOffset
  with_reducible repeat' first
    | assumption | apply State.setReg_keeps | apply State.claimRoot_keeps | apply State.steer_keeps
    | apply State.stepBy_keeps | apply State.tryLock_keeps | apply State.holdover_keeps
    | ((fail_if_no_progress extract_lets +onlyGivenNames x); first | ((refine Keeps.cut (t := x) ?_ ?_); rotate_left; (clear_value x; intro hx); rotate_left; (try subst x)) | clear_value x)
    | (fail_if_no_progress refine Keeps.upd ?_ ⟨rfl, rfl, rfl, rfl, rfl⟩) | split

theorem State.discard_keeps {r0_ s : State}  (h_ : Keeps r0_ s) : Keeps r0_ (State.discard s) := by
  unfold State.discard
  with_reducible repeat' first
    | assumption | apply Keeps.ite | apply State.latchTtl_keeps | apply State.holdover_keeps
    | (fail_if_no_progress refine Keeps.upd ?_ ⟨rfl, rfl, rfl, rfl, rfl⟩)

theorem State.exchange_keeps {r0_ s : State} {t1 t2 t3 t4 : Int} (h_ : Keeps r0_ s) : Keeps r0_ (State.exchange s t1 t2 t3 t4) := by
  unfold State.exchange
  with_reducible repeat' first
    | assumption | apply Keeps.ite | apply State.useOffset_keeps | apply State.discard_keeps

theorem State.takeTelltale_keeps {r0_ s : State} {b : Nat} {p : TtlPeer} {echo echoRx : Nat} (h_ : Keeps r0_ s) : Keeps r0_ (State.takeTelltale s b p echo echoRx) := by
  unfold State.takeTelltale
  with_reducible repeat' first
    | assumption | apply Keeps.ite | apply State.follow_keeps | apply State.exchange_keeps
    | (fail_if_no_progress refine Keeps.upd ?_ ⟨rfl, rfl, rfl, rfl, rfl⟩)

theorem execTelltale_keeps {r0_ s : State} {b : BitVec 4} {flit : BitVec 2048} {rx : BitVec 80} (h_ : Keeps r0_ s) : KeepsR r0_ (execTelltale b flit rx s) := by
  unfold execTelltale
  with_reducible repeat' first
    | assumption | apply KeepsR.next | apply State.inc_keeps | apply State.takeHeader_keeps
    | apply State.takeTelltale_keeps | split

theorem execEventFire_keeps {r0_ s : State}  (h_ : Keeps r0_ s) : KeepsR r0_ (execEventFire s) := by
  unfold execEventFire
  with_reducible repeat' first
    | assumption | apply KeepsR.next | apply State.fireDue_keeps

theorem State.writeSwev_keeps {r0_ s : State} {m : Master} {off : Nat} {v : Word} (h_ : Keeps r0_ s) : Keeps r0_ (State.writeSwev s m off v) := by
  unfold State.writeSwev
  with_reducible repeat' first
    | assumption | apply State.store_keeps | (fail_if_no_progress refine Keeps.upd ?_ ⟨rfl, rfl, rfl, rfl, rfl⟩)

theorem execSwevArm_keeps {r0_ s : State} {m : Master} {i : BitVec 2} {be : BitVec 4} {v : Word} (h_ : Keeps r0_ s) : KeepsR r0_ (execSwevArm m i be v s) := by
  unfold execSwevArm
  with_reducible repeat' first
    | assumption | apply KeepsR.next | apply State.gated_keeps | apply State.writeSwev_keeps | intro _ _

theorem execLostTimeout_keeps {r0_ s : State}  (h_ : Keeps r0_ s) : KeepsR r0_ (execLostTimeout s) := by
  unfold execLostTimeout
  with_reducible repeat' first
    | assumption | apply KeepsR.next | apply State.holdover_keeps | split

theorem execHoldoverExpire_keeps {r0_ s : State}  (h_ : Keeps r0_ s) : KeepsR r0_ (execHoldoverExpire s) := by
  unfold execHoldoverExpire
  with_reducible repeat' first
    | assumption | apply KeepsR.next | apply Keeps.ite | apply Keeps.foldl | apply State.ringFails_keeps
    | apply State.loseSync_keeps | intro _ _ _

theorem execAcquireEnd_keeps {r0_ s : State}  (h_ : Keeps r0_ s) : KeepsR r0_ (execAcquireEnd s) := by
  unfold execAcquireEnd
  with_reducible repeat' first
    | assumption | apply KeepsR.next | apply State.loseSync_keeps | apply State.follow_keeps
    | apply State.becomeRoot_keeps | apply State.stepBy_keeps
    | ((fail_if_no_progress extract_lets +onlyGivenNames x); first | ((first | refine Keeps.cut (t := x) ?_ ?_ | refine KeepsR.cut (t := x) ?_ ?_); rotate_left; (clear_value x; intro hx); rotate_left; (try subst x)) | clear_value x)
    | (fail_if_no_progress refine Keeps.upd ?_ ⟨rfl, rfl, rfl, rfl, rfl⟩) | split

theorem State.endTraining_keeps {r0_ s : State}  (h_ : Keeps r0_ s) : Keeps r0_ (State.endTraining s) := by
  unfold State.endTraining
  with_reducible repeat' first
    | assumption | apply Keeps.ite | apply State.setTtlState_keeps
    | (fail_if_no_progress refine Keeps.upd ?_ ⟨rfl, rfl, rfl, rfl, rfl⟩)

theorem State.sendTelltale_keeps {r0_ s : State} {b : Nat} (h_ : Keeps r0_ s) : Keeps r0_ (State.sendTelltale s b) := by
  unfold State.sendTelltale
  with_reducible repeat' first
    | assumption | apply State.emit_keeps | (fail_if_no_progress refine Keeps.upd ?_ ⟨rfl, rfl, rfl, rfl, rfl⟩)

theorem State.linkBoundary_keeps {r0_ s : State} {b : Nat} (h_ : Keeps r0_ s) : Keeps r0_ (State.linkBoundary s b) := by
  unfold State.linkBoundary
  with_reducible repeat' first
    | assumption | apply Keeps.ite | apply State.boundary_keeps | apply State.sendTelltale_keeps

theorem State.sendFlits_keeps {r0_ s : State}  (h_ : Keeps r0_ s) : Keeps r0_ (State.sendFlits s) := by
  unfold State.sendFlits
  with_reducible repeat' first
    | assumption | apply Keeps.ite | apply Keeps.foldl | apply State.linkBoundary_keeps

theorem State.advanceCount_keeps {r0_ s : State}  (h_ : Keeps r0_ s) : Keeps r0_ (State.advanceCount s) := by
  unfold State.advanceCount
  with_reducible repeat' first
    | assumption | apply Keeps.ite | apply State.setNow64_keeps
    | (fail_if_no_progress refine Keeps.upd ?_ ⟨rfl, rfl, rfl, rfl, rfl⟩)

/-! ### Resets -/

theorem State.flashWr_keeps {r0_ s : State} {a : Nat} {bs : List Byte} (h_ : Keeps r0_ s) : Keeps r0_ (State.flashWr s a bs) := by
  unfold State.flashWr
  with_reducible repeat' first
    | assumption | (fail_if_no_progress refine Keeps.upd ?_ ⟨rfl, rfl, rfl, rfl, rfl⟩)

theorem State.flashErase_keeps {r0_ s : State} {a n : Nat} (h_ : Keeps r0_ s) : Keeps r0_ (State.flashErase s a n) := by
  unfold State.flashErase
  with_reducible repeat' first
    | assumption | (fail_if_no_progress refine Keeps.upd ?_ ⟨rfl, rfl, rfl, rfl, rfl⟩)

theorem State.writeSelect_keeps {r0_ s : State} {bank : Nat} {pending : Bool} (h_ : Keeps r0_ s) : Keeps r0_ (State.writeSelect s bank pending) := by
  unfold State.writeSelect
  with_reducible repeat' first
    | assumption | apply State.flashWr_keeps | apply State.flashErase_keeps

theorem State.limitUpdate_keeps {r0_ s : State}  (h_ : Keeps r0_ s) : Keeps r0_ (State.limitUpdate s) := by
  unfold State.limitUpdate
  with_reducible repeat' first
    | assumption | apply Keeps.foldl | apply State.setFld_keeps | intro _ _ _

theorem State.startUnit_keeps {r0_ s : State} {failed : List UnitId} {u : UnitId} (h_ : Keeps r0_ s) : Keeps r0_ (State.startUnit s failed u) := by
  unfold State.startUnit
  with_reducible repeat' first
    | assumption | apply Keeps.ite | apply State.latch_keeps | apply State.setService_keeps

theorem State.enableBlocks_keeps {r0_ s : State} {d : Nat} (h_ : Keeps r0_ s) : Keeps r0_ (State.enableBlocks s d) := by
  unfold State.enableBlocks
  with_reducible repeat' first
    | assumption | apply Keeps.ite | apply Keeps.foldl | apply Keeps.getD | apply State.setBit_keeps
    | ((fail_if_no_progress extract_lets +onlyGivenNames x); first | ((first | refine Keeps.cut (t := x) ?_ ?_ | refine Keeps.cutO (o := x) ?_ ?_ | refine Keeps.cutP (o := x) ?_ ?_ | refine Keeps.cut1 (o := x) ?_ ?_ | refine Keeps.cut2 (o := x) ?_ ?_); rotate_left; (clear_value x; intro hx); rotate_left; (try subst x)) | (have _h := Keeps.memv x; clear _h) | (have _h := Keeps.bytesv x; clear _h) | (have _h := Keeps.fn x; clear _h; dsimp only [x]; clear x) | (have _h := Keeps.fn2 x; clear _h; dsimp only [x]; clear x) | clear_value x)
    | (fail_if_no_progress refine Keeps.upd ?_ ⟨rfl, rfl, rfl, rfl, rfl⟩)
    | (fail_if_no_progress ((apply Keeps.of_mk; (focus exact rfl); (focus exact rfl)); (with_unfolding_all focus first | (exact fun w => w) | exact SMap.wf_set _ _ | exact SMap.wf_filter _); (with_unfolding_all focus first | (exact fun w => w) | exact SMap.wf_putBytes _ _ | exact SMap.wf_clearRange _ _ | exact SMap.wf_filter _ | (exact fun w => SMap.wf_foldl_set _ _ _ (SMap.wf_clearRange _ _ w)) | (exact fun _ => SMap.wf_nil' _)); (focus first | exact Nat.le_refl _ | exact Nat.le_succ _ | exact Nat.le_add_right _ _)))
    | apply Keeps.foldl1 | apply Keeps.foldl2 | apply Keeps.ite1 | apply Keeps.ite2
    | refine KeepsP.some_keeps (by assumption) _ _ (by assumption)
    | refine KeepsO.oSome (by assumption) (by assumption) | refine KeepsO.oSome (by assumption) rfl
    | refine KeepsP.some_keeps (by assumption) _ _ rfl | apply KeepsP.map | refine Keeps1.keeps (by assumption)
    | refine Keeps2.keeps (by assumption) | exact KeepsO.none _ | apply KeepsO.some | apply KeepsO.ite
    | apply KeepsO.foldl | exact KeepsP.none _ | apply KeepsP.some | apply KeepsP.ite | apply Keeps1.mk'
    | apply Keeps1.ite | apply Keeps1.foldl | apply Keeps2.mk' | apply Keeps2.ite | apply Keeps2.foldl | intro _ _ _
    | intro _ _ | intro _ | split | (fail_if_no_progress dsimp only) | refine KeepsO.oSome ?_ (by assumption)
    | refine KeepsP.some_keeps ?_ _ _ (by assumption) | refine Keeps1.eq ?_ (by assumption)
    | refine Keeps2.eq ?_ (by assumption)

theorem State.startDie_keeps {r0_ s0 : State} {d : Nat} {failed : List UnitId} (h_ : Keeps r0_ s0) : Keeps r0_ (State.startDie s0 d failed) := by
  unfold State.startDie
  with_reducible repeat' first
    | assumption | apply Keeps.ite | apply Keeps.foldl | apply Keeps.getD | apply State.setFld_keeps
    | apply State.setBit_keeps | apply State.countPanels_keeps | apply State.startUnit_keeps
    | apply State.enableBlocks_keeps
    | ((fail_if_no_progress extract_lets +onlyGivenNames x); first | ((first | refine Keeps.cut (t := x) ?_ ?_ | refine Keeps.cutO (o := x) ?_ ?_ | refine Keeps.cutP (o := x) ?_ ?_ | refine Keeps.cut1 (o := x) ?_ ?_ | refine Keeps.cut2 (o := x) ?_ ?_); rotate_left; (clear_value x; intro hx); rotate_left; (try subst x)) | (have _h := Keeps.memv x; clear _h) | (have _h := Keeps.bytesv x; clear _h) | (have _h := Keeps.fn x; clear _h; dsimp only [x]; clear x) | (have _h := Keeps.fn2 x; clear _h; dsimp only [x]; clear x) | clear_value x)
    | (fail_if_no_progress refine Keeps.upd ?_ ⟨rfl, rfl, rfl, rfl, rfl⟩)
    | (fail_if_no_progress ((apply Keeps.of_mk; (focus exact rfl); (focus exact rfl)); (with_unfolding_all focus first | (exact fun w => w) | exact SMap.wf_set _ _ | exact SMap.wf_filter _); (with_unfolding_all focus first | (exact fun w => w) | exact SMap.wf_putBytes _ _ | exact SMap.wf_clearRange _ _ | exact SMap.wf_filter _ | (exact fun w => SMap.wf_foldl_set _ _ _ (SMap.wf_clearRange _ _ w)) | (exact fun _ => SMap.wf_nil' _)); (focus first | exact Nat.le_refl _ | exact Nat.le_succ _ | exact Nat.le_add_right _ _)))
    | apply Keeps.foldl1 | apply Keeps.foldl2 | apply Keeps.ite1 | apply Keeps.ite2
    | refine KeepsP.some_keeps (by assumption) _ _ (by assumption)
    | refine KeepsO.oSome (by assumption) (by assumption) | refine KeepsO.oSome (by assumption) rfl
    | refine KeepsP.some_keeps (by assumption) _ _ rfl | apply KeepsP.map | refine Keeps1.keeps (by assumption)
    | refine Keeps2.keeps (by assumption) | exact KeepsO.none _ | apply KeepsO.some | apply KeepsO.ite
    | apply KeepsO.foldl | exact KeepsP.none _ | apply KeepsP.some | apply KeepsP.ite | apply Keeps1.mk'
    | apply Keeps1.ite | apply Keeps1.foldl | apply Keeps2.mk' | apply Keeps2.ite | apply Keeps2.foldl | intro _ _ _
    | intro _ _ | intro _ | split | (fail_if_no_progress dsimp only) | refine KeepsO.oSome ?_ (by assumption)
    | refine KeepsP.some_keeps ?_ _ _ (by assumption) | refine Keeps1.eq ?_ (by assumption)
    | refine Keeps2.eq ?_ (by assumption)

theorem State.keptRegs_wf (s : State) : SMap.wf resetVal s.keptRegs := by
  unfold State.keptRegs
  exact SMap.wf_foldl_setW _ _ _ (SMap.wf_nil' _)
theorem State.clearAll_keeps {r0_ s : State} {por : Bool} (h_ : Keeps r0_ s) : Keeps r0_ (s.clearAll por) := by
  unfold State.clearAll
  extract_lets +onlyGivenNames s0 s s1
  have h0 : Keeps r0_ s0 := by
    dsimp only [s0]
    split
    · exact State.flashErase_keeps h_
    · exact h_
  have h1 : Keeps r0_ s := Keeps.ite (State.writeSelect_keeps (State.latch_keeps h0)) h0
  refine ⟨h1.queue, h1.outs, h1.free, fun _ => ?_, fun _ => SMap.wf_nil' _⟩
  show SMap.wf resetVal (if por then [] else s.keptRegs)
  split
  · exact SMap.wf_nil' _
  · exact s.keptRegs_wf

theorem State.packageReset_keeps {r0_ s : State} {cause : Nat} (h_ : Keeps r0_ s) : Keeps r0_ (State.packageReset s cause) := by
  unfold State.packageReset
  with_reducible repeat' first
    | assumption | apply Keeps.ite | apply State.setReg_keeps | apply State.setFld_keeps | apply State.clearAll_keeps

theorem execPor_keeps {r0_ s : State}  (h_ : Keeps r0_ s) : KeepsR r0_ (execPor s) := by
  unfold execPor
  with_reducible repeat' first
    | assumption | apply KeepsR.next | apply State.latch_keeps | apply State.packageReset_keeps
    | (fail_if_no_progress refine Keeps.upd ?_ ⟨rfl, rfl, rfl, rfl, rfl⟩) | split

theorem execPerst_keeps {r0_ s : State}  (h_ : Keeps r0_ s) : KeepsR r0_ (execPerst s) := by
  unfold execPerst
  with_reducible repeat' first
    | assumption | apply KeepsR.next | apply State.packageReset_keeps

theorem execWatchdog_keeps {r0_ s : State}  (h_ : Keeps r0_ s) : KeepsR r0_ (execWatchdog s) := by
  unfold execWatchdog
  with_reducible repeat' first
    | assumption | apply KeepsR.next | apply State.latch_keeps | apply State.packageReset_keeps

theorem State.lockstepReset_keeps {r0_ s : State}  (h_ : Keeps r0_ s) : Keeps r0_ (State.lockstepReset s) := by
  unfold State.lockstepReset
  with_reducible repeat' first
    | assumption | apply State.latch_keeps | apply State.packageReset_keeps

theorem execLockstepMismatch_keeps {r0_ s : State}  (h_ : Keeps r0_ s) : KeepsR r0_ (execLockstepMismatch s) := by
  unfold execLockstepMismatch
  with_reducible repeat' first
    | assumption | apply KeepsR.next | apply State.lockstepReset_keeps

theorem State.resetDiePages_keeps {r0_ s : State} {d : Nat} (h_ : Keeps r0_ s) : Keeps r0_ (State.resetDiePages s d) := by
  unfold State.resetDiePages
  with_reducible repeat' first
    | assumption
    | (fail_if_no_progress ((apply Keeps.of_mk; (focus exact rfl); (focus exact rfl)); (with_unfolding_all focus first | (exact fun w => w) | exact SMap.wf_set _ _ | exact SMap.wf_filter _); (with_unfolding_all focus first | (exact fun w => w) | exact SMap.wf_putBytes _ _ | exact SMap.wf_clearRange _ _ | exact SMap.wf_filter _ | (exact fun w => SMap.wf_foldl_set _ _ _ (SMap.wf_clearRange _ _ w)) | (exact fun _ => SMap.wf_nil' _)); (focus first | exact Nat.le_refl _ | exact Nat.le_succ _ | exact Nat.le_add_right _ _)))

theorem State.failSpar_keeps {r0_ s : State} {k st dt : Nat} (h_ : Keeps r0_ s) : Keeps r0_ (State.failSpar s k st dt) := by
  unfold State.failSpar
  with_reducible repeat' first
    | assumption | apply Keeps.foldl | apply State.failTag_keeps
    | (fail_if_no_progress refine Keeps.upd ?_ ⟨rfl, rfl, rfl, rfl, rfl⟩) | intro _ _ _

theorem State.clearSpar_keeps {r0_ s : State} {k : Nat} (h_ : Keeps r0_ s) : Keeps r0_ (State.clearSpar s k) := by
  unfold State.clearSpar
  with_reducible repeat' first
    | assumption
    | (fail_if_no_progress ((apply Keeps.of_mk; (focus exact rfl); (focus exact rfl)); (with_unfolding_all focus first | (exact fun w => w) | exact SMap.wf_set _ _ | exact SMap.wf_filter _); (with_unfolding_all focus first | (exact fun w => w) | exact SMap.wf_putBytes _ _ | exact SMap.wf_clearRange _ _ | exact SMap.wf_filter _ | (exact fun w => SMap.wf_foldl_set _ _ _ (SMap.wf_clearRange _ _ w)) | (exact fun _ => SMap.wf_nil' _)); (focus first | exact Nat.le_refl _ | exact Nat.le_succ _ | exact Nat.le_add_right _ _)))

theorem State.dieLeaves_keeps {r0_ s : State} {d st dt : Nat} (h_ : Keeps r0_ s) : Keeps r0_ (State.dieLeaves s d st dt) := by
  unfold State.dieLeaves
  with_reducible repeat' first
    | assumption | apply Keeps.foldl | apply State.failTag_keeps | apply State.loseUnitAs_keeps
    | apply State.loseSpar_keeps | apply State.releaseModel_keeps | apply State.refuseLoad_keeps
    | apply State.loseRegion_keeps | apply State.bundleDown_keeps | apply State.failSpar_keeps
    | apply State.clearSpar_keeps | (fail_if_no_progress refine Keeps.upd ?_ ⟨rfl, rfl, rfl, rfl, rfl⟩) | intro _ _ _
    | split

theorem State.dieReset_keeps {r0_ s : State} {d cause : Nat} (h_ : Keeps r0_ s) : Keeps r0_ (State.dieReset s d cause) := by
  unfold State.dieReset
  with_reducible repeat' first
    | assumption | apply Keeps.ite | apply Keeps.foldl | apply Keeps.getD | apply State.setReg_keeps
    | apply State.dropAccesses_keeps | apply State.resetDiePages_keeps | apply State.dieLeaves_keeps
    | ((fail_if_no_progress extract_lets +onlyGivenNames x); first | ((first | refine Keeps.cut (t := x) ?_ ?_ | refine Keeps.cutO (o := x) ?_ ?_ | refine Keeps.cutP (o := x) ?_ ?_ | refine Keeps.cut1 (o := x) ?_ ?_ | refine Keeps.cut2 (o := x) ?_ ?_); rotate_left; (clear_value x; intro hx); rotate_left; (try subst x)) | (have _h := Keeps.memv x; clear _h) | (have _h := Keeps.bytesv x; clear _h) | (have _h := Keeps.fn x; clear _h; dsimp only [x]; clear x) | (have _h := Keeps.fn2 x; clear _h; dsimp only [x]; clear x) | clear_value x)
    | (fail_if_no_progress refine Keeps.upd ?_ ⟨rfl, rfl, rfl, rfl, rfl⟩)
    | (fail_if_no_progress ((apply Keeps.of_mk; (focus exact rfl); (focus exact rfl)); (with_unfolding_all focus first | (exact fun w => w) | exact SMap.wf_set _ _ | exact SMap.wf_filter _); (with_unfolding_all focus first | (exact fun w => w) | exact SMap.wf_putBytes _ _ | exact SMap.wf_clearRange _ _ | exact SMap.wf_filter _ | (exact fun w => SMap.wf_foldl_set _ _ _ (SMap.wf_clearRange _ _ w)) | (exact fun _ => SMap.wf_nil' _)); (focus first | exact Nat.le_refl _ | exact Nat.le_succ _ | exact Nat.le_add_right _ _)))
    | apply Keeps.foldl1 | apply Keeps.foldl2 | apply Keeps.ite1 | apply Keeps.ite2
    | refine KeepsP.some_keeps (by assumption) _ _ (by assumption)
    | refine KeepsO.oSome (by assumption) (by assumption) | refine KeepsO.oSome (by assumption) rfl
    | refine KeepsP.some_keeps (by assumption) _ _ rfl | apply KeepsP.map | refine Keeps1.keeps (by assumption)
    | refine Keeps2.keeps (by assumption) | exact KeepsO.none _ | apply KeepsO.some | apply KeepsO.ite
    | apply KeepsO.foldl | exact KeepsP.none _ | apply KeepsP.some | apply KeepsP.ite | apply Keeps1.mk'
    | apply Keeps1.ite | apply Keeps1.foldl | apply Keeps2.mk' | apply Keeps2.ite | apply Keeps2.foldl | intro _ _ _
    | intro _ _ | intro _ | split | (fail_if_no_progress dsimp only) | refine KeepsO.oSome ?_ (by assumption)
    | refine KeepsP.some_keeps ?_ _ _ (by assumption) | refine Keeps1.eq ?_ (by assumption)
    | refine Keeps2.eq ?_ (by assumption)

theorem execDieReturn_keeps {r0_ s : State} {die : BitVec 4} {failed : List UnitId} {retried badStacks : List (BitVec 1)} {us : List Word} (h_ : Keeps r0_ s) : KeepsR r0_ (execDieReturn die failed s retried badStacks us) := by
  unfold execDieReturn
  with_reducible repeat' first
    | assumption | apply KeepsR.next | exact KeepsR.fault _ _ | apply KeepsR.ite | apply Keeps.ite
    | apply Keeps.foldl | apply Keeps.getD | apply State.inc_keeps | apply State.kvpUpdate_keeps
    | apply State.trainUnit_keeps | apply State.bringOnline_keeps | apply State.startTraining_keeps
    | apply State.startDie_keeps
    | ((fail_if_no_progress extract_lets +onlyGivenNames x); first | ((first | refine Keeps.cut (t := x) ?_ ?_ | refine KeepsR.cut (t := x) ?_ ?_ | refine Keeps.cutO (o := x) ?_ ?_ | refine Keeps.cutP (o := x) ?_ ?_ | refine Keeps.cut1 (o := x) ?_ ?_ | refine Keeps.cut2 (o := x) ?_ ?_); rotate_left; (clear_value x; intro hx); rotate_left; (try subst x)) | (have _h := Keeps.memv x; clear _h) | (have _h := Keeps.bytesv x; clear _h) | (have _h := Keeps.fn x; clear _h; dsimp only [x]; clear x) | (have _h := Keeps.fn2 x; clear _h; dsimp only [x]; clear x) | clear_value x)
    | (fail_if_no_progress refine Keeps.upd ?_ ⟨rfl, rfl, rfl, rfl, rfl⟩)
    | (fail_if_no_progress ((apply Keeps.of_mk; (focus exact rfl); (focus exact rfl)); (with_unfolding_all focus first | (exact fun w => w) | exact SMap.wf_set _ _ | exact SMap.wf_filter _); (with_unfolding_all focus first | (exact fun w => w) | exact SMap.wf_putBytes _ _ | exact SMap.wf_clearRange _ _ | exact SMap.wf_filter _ | (exact fun w => SMap.wf_foldl_set _ _ _ (SMap.wf_clearRange _ _ w)) | (exact fun _ => SMap.wf_nil' _)); (focus first | exact Nat.le_refl _ | exact Nat.le_succ _ | exact Nat.le_add_right _ _)))
    | apply Keeps.foldl1 | apply Keeps.foldl2 | apply Keeps.ite1 | apply Keeps.ite2
    | refine KeepsP.some_keeps (by assumption) _ _ (by assumption)
    | refine KeepsO.oSome (by assumption) (by assumption) | refine KeepsO.oSome (by assumption) rfl
    | refine KeepsP.some_keeps (by assumption) _ _ rfl | apply KeepsP.map | refine Keeps1.keeps (by assumption)
    | refine Keeps2.keeps (by assumption) | exact KeepsO.none _ | apply KeepsO.some | apply KeepsO.ite
    | apply KeepsO.foldl | exact KeepsP.none _ | apply KeepsP.some | apply KeepsP.ite | apply Keeps1.mk'
    | apply Keeps1.ite | apply Keeps1.foldl | apply Keeps2.mk' | apply Keeps2.ite | apply Keeps2.foldl | intro _ _ _
    | intro _ _ | intro _ | split | (fail_if_no_progress dsimp only) | refine KeepsO.oSome ?_ (by assumption)
    | refine KeepsP.some_keeps ?_ _ _ (by assumption) | refine Keeps1.eq ?_ (by assumption)
    | refine Keeps2.eq ?_ (by assumption)

theorem State.packageOp_keeps {r0_ s : State} {cause : Nat} (h_ : Keeps r0_ s) : Keeps r0_ (State.packageOp s cause) := by
  unfold State.packageOp
  with_reducible repeat' first
    | assumption | apply Keeps.ite | apply Keeps.foldl | apply Keeps.getD | apply State.packageReset_keeps
    | ((fail_if_no_progress extract_lets +onlyGivenNames x); first | ((first | refine Keeps.cut (t := x) ?_ ?_ | refine Keeps.cutO (o := x) ?_ ?_ | refine Keeps.cutP (o := x) ?_ ?_ | refine Keeps.cut1 (o := x) ?_ ?_ | refine Keeps.cut2 (o := x) ?_ ?_); rotate_left; (clear_value x; intro hx); rotate_left; (try subst x)) | (have _h := Keeps.memv x; clear _h) | (have _h := Keeps.bytesv x; clear _h) | (have _h := Keeps.fn x; clear _h; dsimp only [x]; clear x) | (have _h := Keeps.fn2 x; clear _h; dsimp only [x]; clear x) | clear_value x)
    | (fail_if_no_progress refine Keeps.upd ?_ ⟨rfl, rfl, rfl, rfl, rfl⟩)
    | (fail_if_no_progress ((apply Keeps.of_mk; (focus exact rfl); (focus exact rfl)); (with_unfolding_all focus first | (exact fun w => w) | exact SMap.wf_set _ _ | exact SMap.wf_filter _); (with_unfolding_all focus first | (exact fun w => w) | exact SMap.wf_putBytes _ _ | exact SMap.wf_clearRange _ _ | exact SMap.wf_filter _ | (exact fun w => SMap.wf_foldl_set _ _ _ (SMap.wf_clearRange _ _ w)) | (exact fun _ => SMap.wf_nil' _)); (focus first | exact Nat.le_refl _ | exact Nat.le_succ _ | exact Nat.le_add_right _ _)))
    | apply Keeps.foldl1 | apply Keeps.foldl2 | apply Keeps.ite1 | apply Keeps.ite2
    | refine KeepsP.some_keeps (by assumption) _ _ (by assumption)
    | refine KeepsO.oSome (by assumption) (by assumption) | refine KeepsO.oSome (by assumption) rfl
    | refine KeepsP.some_keeps (by assumption) _ _ rfl | apply KeepsP.map | refine Keeps1.keeps (by assumption)
    | refine Keeps2.keeps (by assumption) | exact KeepsO.none _ | apply KeepsO.some | apply KeepsO.ite
    | apply KeepsO.foldl | exact KeepsP.none _ | apply KeepsP.some | apply KeepsP.ite | apply Keeps1.mk'
    | apply Keeps1.ite | apply Keeps1.foldl | apply Keeps2.mk' | apply Keeps2.ite | apply Keeps2.foldl | intro _ _ _
    | intro _ _ | intro _ | split | (fail_if_no_progress dsimp only) | refine KeepsO.oSome ?_ (by assumption)
    | refine KeepsP.some_keeps ?_ _ _ (by assumption) | refine Keeps1.eq ?_ (by assumption)
    | refine Keeps2.eq ?_ (by assumption)

theorem State.activate_keeps {r0_ s : State}  (h_ : Keeps r0_ s) : Keeps r0_ (State.activate s) := by
  unfold State.activate
  with_reducible repeat' first
    | assumption | apply Keeps.ite | apply Keeps.foldl | apply Keeps.getD | apply State.setBit_keeps
    | apply State.writeSelect_keeps | apply State.packageOp_keeps
    | ((fail_if_no_progress extract_lets +onlyGivenNames x); first | ((first | refine Keeps.cut (t := x) ?_ ?_ | refine Keeps.cutO (o := x) ?_ ?_ | refine Keeps.cutP (o := x) ?_ ?_ | refine Keeps.cut1 (o := x) ?_ ?_ | refine Keeps.cut2 (o := x) ?_ ?_); rotate_left; (clear_value x; intro hx); rotate_left; (try subst x)) | (have _h := Keeps.memv x; clear _h) | (have _h := Keeps.bytesv x; clear _h) | (have _h := Keeps.fn x; clear _h; dsimp only [x]; clear x) | (have _h := Keeps.fn2 x; clear _h; dsimp only [x]; clear x) | clear_value x)
    | (fail_if_no_progress refine Keeps.upd ?_ ⟨rfl, rfl, rfl, rfl, rfl⟩)
    | (fail_if_no_progress ((apply Keeps.of_mk; (focus exact rfl); (focus exact rfl)); (with_unfolding_all focus first | (exact fun w => w) | exact SMap.wf_set _ _ | exact SMap.wf_filter _); (with_unfolding_all focus first | (exact fun w => w) | exact SMap.wf_putBytes _ _ | exact SMap.wf_clearRange _ _ | exact SMap.wf_filter _ | (exact fun w => SMap.wf_foldl_set _ _ _ (SMap.wf_clearRange _ _ w)) | (exact fun _ => SMap.wf_nil' _)); (focus first | exact Nat.le_refl _ | exact Nat.le_succ _ | exact Nat.le_add_right _ _)))
    | apply Keeps.foldl1 | apply Keeps.foldl2 | apply Keeps.ite1 | apply Keeps.ite2
    | refine KeepsP.some_keeps (by assumption) _ _ (by assumption)
    | refine KeepsO.oSome (by assumption) (by assumption) | refine KeepsO.oSome (by assumption) rfl
    | refine KeepsP.some_keeps (by assumption) _ _ rfl | apply KeepsP.map | refine Keeps1.keeps (by assumption)
    | refine Keeps2.keeps (by assumption) | exact KeepsO.none _ | apply KeepsO.some | apply KeepsO.ite
    | apply KeepsO.foldl | exact KeepsP.none _ | apply KeepsP.some | apply KeepsP.ite | apply Keeps1.mk'
    | apply Keeps1.ite | apply Keeps1.foldl | apply Keeps2.mk' | apply Keeps2.ite | apply Keeps2.foldl | intro _ _ _
    | intro _ _ | intro _ | split | (fail_if_no_progress dsimp only) | refine KeepsO.oSome ?_ (by assumption)
    | refine KeepsP.some_keeps ?_ _ _ (by assumption) | refine Keeps1.eq ?_ (by assumption)
    | refine Keeps2.eq ?_ (by assumption)

theorem State.writeRstCmd_keeps {r0_ s : State} {v : Word} (h_ : Keeps r0_ s) : Keeps r0_ (State.writeRstCmd s v) := by
  unfold State.writeRstCmd
  with_reducible repeat' first
    | assumption | apply Keeps.ite | apply Keeps.foldl | apply Keeps.getD | apply State.dieReset_keeps
    | apply State.packageOp_keeps | apply State.activate_keeps
    | ((fail_if_no_progress extract_lets +onlyGivenNames x); first | ((first | refine Keeps.cut (t := x) ?_ ?_ | refine Keeps.cutO (o := x) ?_ ?_ | refine Keeps.cutP (o := x) ?_ ?_ | refine Keeps.cut1 (o := x) ?_ ?_ | refine Keeps.cut2 (o := x) ?_ ?_); rotate_left; (clear_value x; intro hx); rotate_left; (try subst x)) | (have _h := Keeps.memv x; clear _h) | (have _h := Keeps.bytesv x; clear _h) | (have _h := Keeps.fn x; clear _h; dsimp only [x]; clear x) | (have _h := Keeps.fn2 x; clear _h; dsimp only [x]; clear x) | clear_value x)
    | (fail_if_no_progress refine Keeps.upd ?_ ⟨rfl, rfl, rfl, rfl, rfl⟩)
    | (fail_if_no_progress ((apply Keeps.of_mk; (focus exact rfl); (focus exact rfl)); (with_unfolding_all focus first | (exact fun w => w) | exact SMap.wf_set _ _ | exact SMap.wf_filter _); (with_unfolding_all focus first | (exact fun w => w) | exact SMap.wf_putBytes _ _ | exact SMap.wf_clearRange _ _ | exact SMap.wf_filter _ | (exact fun w => SMap.wf_foldl_set _ _ _ (SMap.wf_clearRange _ _ w)) | (exact fun _ => SMap.wf_nil' _)); (focus first | exact Nat.le_refl _ | exact Nat.le_succ _ | exact Nat.le_add_right _ _)))
    | apply Keeps.foldl1 | apply Keeps.foldl2 | apply Keeps.ite1 | apply Keeps.ite2
    | refine KeepsP.some_keeps (by assumption) _ _ (by assumption)
    | refine KeepsO.oSome (by assumption) (by assumption) | refine KeepsO.oSome (by assumption) rfl
    | refine KeepsP.some_keeps (by assumption) _ _ rfl | apply KeepsP.map | refine Keeps1.keeps (by assumption)
    | refine Keeps2.keeps (by assumption) | exact KeepsO.none _ | apply KeepsO.some | apply KeepsO.ite
    | apply KeepsO.foldl | exact KeepsP.none _ | apply KeepsP.some | apply KeepsP.ite | apply Keeps1.mk'
    | apply Keeps1.ite | apply Keeps1.foldl | apply Keeps2.mk' | apply Keeps2.ite | apply Keeps2.foldl | intro _ _ _
    | intro _ _ | intro _ | split | (fail_if_no_progress dsimp only) | refine KeepsO.oSome ?_ (by assumption)
    | refine KeepsP.some_keeps ?_ _ _ (by assumption) | refine Keeps1.eq ?_ (by assumption)
    | refine Keeps2.eq ?_ (by assumption)

theorem execPackageReset_keeps {r0_ s : State} {m : Master} {be : BitVec 4} (h_ : Keeps r0_ s) : KeepsR r0_ (execPackageReset m be s) := by
  unfold execPackageReset
  with_reducible repeat' first
    | assumption | apply KeepsR.next | apply State.gated_keeps | apply State.writeRstCmd_keeps | intro _ _

theorem execDieCommand_keeps {r0_ s : State} {m : Master} {be : BitVec 4} {die : Byte} (h_ : Keeps r0_ s) : KeepsR r0_ (execDieCommand m be die s) := by
  unfold execDieCommand
  with_reducible repeat' first
    | assumption | apply KeepsR.next | apply State.gated_keeps | apply State.writeRstCmd_keeps | intro _ _

theorem execActivate_keeps {r0_ s : State} {m : Master} {be : BitVec 4} (h_ : Keeps r0_ s) : KeepsR r0_ (execActivate m be s) := by
  unfold execActivate
  with_reducible repeat' first
    | assumption | apply KeepsR.next | apply State.gated_keeps | apply State.writeRstCmd_keeps | intro _ _

theorem State.eraseCanvas_keeps {r0_ s : State}  (h_ : Keeps r0_ s) : Keeps r0_ (State.eraseCanvas s) := by
  unfold State.eraseCanvas
  with_reducible repeat' first
    | assumption | (fail_if_no_progress refine Keeps.upd ?_ ⟨rfl, rfl, rfl, rfl, rfl⟩)

theorem State.startFirmware_keeps {r0_ s : State} {b : Nat} {pending : Bool} {failed : List UnitId} (h_ : Keeps r0_ s) : Keeps r0_ (State.startFirmware s b pending failed) := by
  unfold State.startFirmware
  with_reducible repeat' first
    | assumption | apply Keeps.foldl | apply State.setReg_keeps | apply State.setBit_keeps
    | apply State.startTraining_keeps | apply State.startDie_keeps | apply State.eraseCanvas_keeps
    | (fail_if_no_progress refine Keeps.upd ?_ ⟨rfl, rfl, rfl, rfl, rfl⟩) | intro _ _ _ | split

theorem execBoot_keeps {r0_ s : State} {failed : List UnitId} (h_ : Keeps r0_ s) : KeepsR r0_ (execBoot failed s) := by
  unfold execBoot
  with_reducible repeat' first
    | assumption | apply KeepsR.next | apply State.latch_keeps | apply State.writeSelect_keeps
    | apply State.startFirmware_keeps
    | ((fail_if_no_progress extract_lets +onlyGivenNames x); first | ((first | refine Keeps.cut (t := x) ?_ ?_ | refine KeepsR.cut (t := x) ?_ ?_); rotate_left; (clear_value x; intro hx); rotate_left; (try subst x)) | clear_value x)
    | (fail_if_no_progress refine Keeps.upd ?_ ⟨rfl, rfl, rfl, rfl, rfl⟩) | split

theorem State.commitTrial_keeps {r0_ s : State}  (h_ : Keeps r0_ s) : Keeps r0_ (State.commitTrial s) := by
  unfold State.commitTrial
  with_reducible repeat' first
    | assumption | apply Keeps.ite | apply State.setBit_keeps | apply State.writeSelect_keeps
    | (fail_if_no_progress refine Keeps.upd ?_ ⟨rfl, rfl, rfl, rfl, rfl⟩)

theorem execStartupComplete_keeps {r0_ s : State}  (h_ : Keeps r0_ s) : KeepsR r0_ (execStartupComplete s) := by
  unfold execStartupComplete
  with_reducible repeat' first
    | assumption | apply KeepsR.next | apply Keeps.ite | apply State.setReg_keeps | apply State.setBit_keeps
    | apply State.irq_keeps | apply State.commitTrial_keeps

/-! ### Ratlines -/

theorem State.setRat_keeps {r0_ s : State} {l : Nat} {back : Bool} {r : Ratline} (h_ : Keeps r0_ s) : Keeps r0_ (State.setRat s l back r) := by
  unfold State.setRat
  with_reducible repeat' first
    | assumption | (fail_if_no_progress refine Keeps.upd ?_ ⟨rfl, rfl, rfl, rfl, rfl⟩)

theorem State.levelUpdate_keeps {r0_ s : State} {l : Nat} (h_ : Keeps r0_ s) : Keeps r0_ (State.levelUpdate s l) := by
  unfold State.levelUpdate
  with_reducible repeat' first
    | assumption | apply Keeps.ite | apply State.setFld_keeps

theorem State.setRl_keeps {r0_ s : State} {l st : Nat} (h_ : Keeps r0_ s) : Keeps r0_ (State.setRl s l st) := by
  unfold State.setRl
  with_reducible repeat' first
    | assumption | apply State.setFld_keeps | apply State.levelUpdate_keeps

theorem State.cutDie_keeps {r0_ s : State} {d : Nat} (h_ : Keeps r0_ s) : Keeps r0_ (State.cutDie s d) := by
  unfold State.cutDie
  with_reducible repeat' first
    | assumption | apply Keeps.foldl | apply State.loseUnit_keeps | apply State.dieLeaves_keeps
    | (fail_if_no_progress refine Keeps.upd ?_ ⟨rfl, rfl, rfl, rfl, rfl⟩)

theorem State.rejoinDie_keeps {r0_ s : State} {d : Nat} (h_ : Keeps r0_ s) : Keeps r0_ (State.rejoinDie s d) := by
  unfold State.rejoinDie
  with_reducible repeat' first
    | assumption | apply Keeps.foldl | apply State.setBit_keeps | apply State.kvpUpdate_keeps
    | apply State.setService_keeps | (fail_if_no_progress refine Keeps.upd ?_ ⟨rfl, rfl, rfl, rfl, rfl⟩)
    | intro _ _ _ | split

theorem State.routesUpdate_keeps {r0_ s : State}  (h_ : Keeps r0_ s) : Keeps r0_ (State.routesUpdate s) := by
  unfold State.routesUpdate
  with_reducible repeat' first
    | assumption | apply Keeps.ite | apply Keeps.foldl | apply State.packageReset_keeps | apply State.cutDie_keeps
    | apply State.rejoinDie_keeps

theorem State.linkDown_keeps {r0_ s : State} {l : Nat} {lost : List (BitVec 7 × BitVec 64)} (h_ : Keeps r0_ s) : Keeps r0_ (State.linkDown s l lost) := by
  unfold State.linkDown
  with_reducible repeat' first
    | assumption | apply Keeps.foldl | apply State.latch_keeps | apply State.failTag_keeps | apply State.setRat_keeps
    | apply State.setRl_keeps | apply State.routesUpdate_keeps | intro _ _ _ | split

theorem State.replayUnits_keeps {r0_ s : State} {l : Nat} {back : Bool} {lost : List (BitVec 7 × BitVec 64)} (h_ : Keeps r0_ s) : Keeps r0_ (State.replayUnits s l back lost) := by
  unfold State.replayUnits
  with_reducible repeat' first
    | assumption | apply Keeps.ite | apply Keeps.foldl | apply State.emit_keeps | apply State.inc_keeps
    | apply State.setRat_keeps | apply State.linkDown_keeps | intro _ _ _

theorem State.ackUnits_keeps {r0_ s : State} {l : Nat} {back : Bool} {ack : Nat} (h_ : Keeps r0_ s) : Keeps r0_ (State.ackUnits s l back ack) := by
  unfold State.ackUnits
  with_reducible repeat' first
    | assumption | apply Keeps.ite | apply State.setRat_keeps

theorem State.unitCrc_keeps2 {r0_ s : State} {l : Nat} {crcOk : Bool} (h_ : Keeps r0_ s) : Keeps2 r0_ (State.unitCrc s l crcOk) := by
  unfold State.unitCrc
  with_reducible repeat' first
    | assumption | apply Keeps2.mk' | apply State.injActed_keeps | split

theorem execRatlineUnit_keeps {r0_ s : State} {l : BitVec 6} {back : Bool} {seq ack : BitVec 12} {crcOk : Bool} {lost : List (BitVec 7 × BitVec 64)} {ends : Option (Nat × Nat)} {part : Option (BitVec 7)} (h_ : Keeps r0_ s) : KeepsR r0_ (execRatlineUnit l back seq ack crcOk lost s ends part) := by
  unfold execRatlineUnit
  with_reducible repeat' first
    | assumption | apply KeepsR.next | apply Keeps.ite | apply State.inc_keeps | apply State.setRat_keeps
    | apply State.replayUnits_keeps | apply State.ackUnits_keeps | refine (State.unitCrc_keeps2 ?_).keeps

theorem execRatlineReplayTimeout_keeps {r0_ s : State} {l : BitVec 6} {back : Bool} {lost : List (BitVec 7 × BitVec 64)} (h_ : Keeps r0_ s) : KeepsR r0_ (execRatlineReplayTimeout l back lost s) := by
  unfold execRatlineReplayTimeout
  with_reducible repeat' first
    | assumption | apply KeepsR.next | apply State.replayUnits_keeps | split

theorem execLaneTest_keeps {r0_ s : State} {l : BitVec 6} {back : Bool} (h_ : Keeps r0_ s) : KeepsR r0_ (execLaneTest l back s) := by
  unfold execLaneTest
  with_reducible repeat' first
    | assumption | apply KeepsR.next | apply State.setRat_keeps | split

theorem State.sparesUpdate_keeps {r0_ s : State} {l : Nat} (h_ : Keeps r0_ s) : Keeps r0_ (State.sparesUpdate s l) := by
  unfold State.sparesUpdate
  with_reducible repeat' first
    | assumption | apply State.setFld_keeps

theorem execLaneTestEnd_keeps {r0_ s : State} {l : BitVec 6} {back : Bool} {badLow badHigh : Nat} {lost : List (BitVec 7 × BitVec 64)} (h_ : Keeps r0_ s) : KeepsR r0_ (execLaneTestEnd l back badLow badHigh lost s) := by
  unfold execLaneTestEnd
  with_reducible repeat' first
    | assumption | apply KeepsR.next | apply State.addCnt_keeps | apply State.latch_keeps | apply State.setRat_keeps
    | apply State.levelUpdate_keeps | apply State.setRl_keeps | apply State.linkDown_keeps
    | apply State.replayUnits_keeps | apply State.sparesUpdate_keeps
    | ((fail_if_no_progress extract_lets +onlyGivenNames x); first | ((first | refine Keeps.cut (t := x) ?_ ?_ | refine KeepsR.cut (t := x) ?_ ?_); rotate_left; (clear_value x; intro hx); rotate_left; (try subst x)) | clear_value x)
    | split

theorem execRatlineRetrain_keeps {r0_ s : State} {l : BitVec 6} {badLow badHigh : Nat} (h_ : Keeps r0_ s) : KeepsR r0_ (execRatlineRetrain l badLow badHigh s) := by
  unfold execRatlineRetrain
  with_reducible repeat' first
    | assumption | apply KeepsR.next | apply Keeps.ite | apply State.latch_keeps | apply State.setRat_keeps
    | apply State.setRl_keeps | apply State.routesUpdate_keeps | apply State.linkDown_keeps
    | apply State.sparesUpdate_keeps

theorem execDivisorChange_keeps {r0_ s : State} {k : BitVec 2} (h_ : Keeps r0_ s) : KeepsR r0_ (execDivisorChange k s) := by
  unfold execDivisorChange
  with_reducible repeat' first
    | assumption | apply KeepsR.next | apply State.setFld_keeps | apply State.inc_keeps | split

theorem execSwDivisor_keeps {r0_ s : State} {m : Master} {k : BitVec 2} {be : BitVec 4} {v : Word} (h_ : Keeps r0_ s) : KeepsR r0_ (execSwDivisor m k be v s) := by
  unfold execSwDivisor
  with_reducible repeat' first
    | assumption | apply KeepsR.next | apply State.store_keeps | apply State.gated_keeps | intro _ _

theorem State.levels_keeps {r0_ s : State}  (h_ : Keeps r0_ s) : Keeps r0_ (State.levels s) := by
  unfold State.levels
  with_reducible repeat' first
    | assumption | apply Keeps.foldl | apply State.levelUpdate_keeps

theorem State.writeRlThrot_keeps {r0_ s : State} {m : Master} {v : Word} (h_ : Keeps r0_ s) : Keeps r0_ (State.writeRlThrot s m v) := by
  unfold State.writeRlThrot
  with_reducible repeat' first
    | assumption | apply Keeps.ite | apply State.store_keeps | apply State.levels_keeps
    | (fail_if_no_progress refine Keeps.upd ?_ ⟨rfl, rfl, rfl, rfl, rfl⟩)

theorem execThrottleOrder_keeps {r0_ s : State} {m : Master} {be : BitVec 4} {v : Word} (h_ : Keeps r0_ s) : KeepsR r0_ (execThrottleOrder m be v s) := by
  unfold execThrottleOrder
  with_reducible repeat' first
    | assumption | apply KeepsR.next | apply State.gated_keeps | apply State.writeRlThrot_keeps | intro _ _

theorem execRefBad_keeps {r0_ s : State} {ppm : BitVec 16} (h_ : Keeps r0_ s) : KeepsR r0_ (execRefBad ppm s) := by
  unfold execRefBad
  with_reducible repeat' first
    | assumption | apply KeepsR.next | apply Keeps.ite | apply State.setFld_keeps | apply State.setBit_keeps
    | apply State.latch_keeps | apply State.packageReset_keeps

theorem execPllUnlock_keeps {r0_ s : State}  (h_ : Keeps r0_ s) : KeepsR r0_ (execPllUnlock s) := by
  unfold execPllUnlock
  with_reducible repeat' first
    | assumption | apply KeepsR.next | apply State.setBit_keeps | apply State.latch_keeps
    | apply State.packageReset_keeps | split

theorem execPllLock_keeps {r0_ s : State}  (h_ : Keeps r0_ s) : KeepsR r0_ (execPllLock s) := by
  unfold execPllLock
  with_reducible repeat' first
    | assumption | apply KeepsR.next | apply Keeps.foldl | apply State.setBit_keeps | apply State.setRl_keeps
    | intro _ _ _ | split

end Sys2Proof.Machine
end

