-- ==== Sys2Proof/Laws/KeepsPower.lean ====
section
/-! SUPPORT. What the definitions of power, faults, pins, register pages, management and the idle step keep. -/

set_option linter.unusedTactic false
set_option linter.unreachableTactic false

namespace Sys2Proof.Machine

/-! ### Power -/

theorem State.railSample_keeps {r0_ s : State} {r mv : Nat} (h_ : Keeps r0_ s) : Keeps r0_ (State.railSample s r mv) := by
  unfold State.railSample
  with_reducible repeat' first
    | assumption | apply State.setFld_keeps | apply State.setBit_keeps

theorem State.dropHold_keeps {r0_ s : State} {r : Nat} (h_ : Keeps r0_ s) : Keeps r0_ (State.dropHold s r) := by
  unfold State.dropHold
  with_reducible repeat' first
    | assumption | apply State.setBit_keeps | (fail_if_no_progress refine Keeps.upd ?_ ⟨rfl, rfl, rfl, rfl, rfl⟩)

theorem State.setDip_keeps {r0_ s : State} {r : Nat} {acts : Bool} (h_ : Keeps r0_ s) : Keeps r0_ (State.setDip s r acts) := by
  unfold State.setDip
  with_reducible repeat' first
    | assumption | apply Keeps.ite | apply State.setFld_keeps | apply State.setBit_keeps
    | apply State.limitUpdate_keeps

theorem State.dropAbove_keeps {r0_ s : State} {r : Nat} (h_ : Keeps r0_ s) : Keeps r0_ (State.dropAbove s r) := by
  unfold State.dropAbove
  with_reducible repeat' first
    | assumption | (fail_if_no_progress refine Keeps.upd ?_ ⟨rfl, rfl, rfl, rfl, rfl⟩)

theorem execWarningCrossing_keeps {r0_ s : State} {r : BitVec 4} {mv : MilliVolt} (h_ : Keeps r0_ s) : KeepsR r0_ (execWarningCrossing r mv s) := by
  unfold execWarningCrossing
  with_reducible repeat' first
    | assumption | apply KeepsR.next | apply KeepsR.ite | apply State.latch_keeps | apply State.railSample_keeps
    | apply State.dropHold_keeps | apply State.setDip_keeps | apply State.dropAbove_keeps

theorem execReleaseCrossing_keeps {r0_ s : State} {r : BitVec 4} {mv : MilliVolt} (h_ : Keeps r0_ s) : KeepsR r0_ (execReleaseCrossing r mv s) := by
  unfold execReleaseCrossing
  with_reducible repeat' first
    | assumption | apply KeepsR.next | exact KeepsR.fault _ _ | apply KeepsR.ite | apply Keeps.ite
    | apply State.setBit_keeps | apply State.railSample_keeps
    | (fail_if_no_progress refine Keeps.upd ?_ ⟨rfl, rfl, rfl, rfl, rfl⟩)

theorem execDipRecovered_keeps {r0_ s : State} {r : BitVec 4} (h_ : Keeps r0_ s) : KeepsR r0_ (execDipRecovered r s) := by
  unfold execDipRecovered
  with_reducible repeat' first
    | assumption | apply KeepsR.next | apply Keeps.ite | apply State.inc_keeps | apply State.dropHold_keeps
    | apply State.setDip_keeps

theorem execResetCrossing_keeps {r0_ s : State} {r : BitVec 4} {mv : MilliVolt} (h_ : Keeps r0_ s) : KeepsR r0_ (execResetCrossing r mv s) := by
  unfold execResetCrossing
  with_reducible repeat' first
    | assumption | apply KeepsR.next | apply Keeps.ite | apply State.latch_keeps | apply State.packageReset_keeps
    | apply State.dieReset_keeps | apply State.railSample_keeps | apply State.dropHold_keeps
    | apply State.setDip_keeps | apply State.dropAbove_keeps
    | (fail_if_no_progress refine Keeps.upd ?_ ⟨rfl, rfl, rfl, rfl, rfl⟩)

theorem execDieSupplyRelease_keeps {r0_ s : State} {r : BitVec 4} {mv : MilliVolt} (h_ : Keeps r0_ s) : KeepsR r0_ (execDieSupplyRelease r mv s) := by
  unfold execDieSupplyRelease
  with_reducible repeat' first
    | assumption | apply KeepsR.next | apply State.railSample_keeps | apply State.dropAbove_keeps
    | (fail_if_no_progress refine Keeps.upd ?_ ⟨rfl, rfl, rfl, rfl, rfl⟩) | split

theorem State.enterIdle_keeps {r0_ s : State} {x : IdleSt} (h_ : Keeps r0_ s) : Keeps r0_ (State.enterIdle s x) := by
  unfold State.enterIdle
  with_reducible repeat' first
    | assumption | apply Keeps.foldl | apply State.setBit_keeps | apply State.inc_keeps | apply State.setIdle_keeps
    | intro _ _ _ | split

theorem State.planSweep_keeps {r0_ s : State} {d : IdleDomain} (h_ : Keeps r0_ s) : Keeps r0_ (State.planSweep s d) := by
  unfold State.planSweep
  with_reducible repeat' first
    | assumption | apply State.ttlRegister_keeps
    | ((fail_if_no_progress extract_lets +onlyGivenNames x); first | ((refine Keeps.cut (t := x) ?_ ?_); rotate_left; (clear_value x; intro hx); rotate_left; (try subst x)) | clear_value x)
    | split

theorem execIdleEntry_keeps {r0_ s : State} {d : IdleDomain} (h_ : Keeps r0_ s) : KeepsR r0_ (execIdleEntry d s) := by
  unfold execIdleEntry
  with_reducible repeat' first
    | assumption | apply KeepsR.next | apply State.enterIdle_keeps | apply State.planSweep_keeps
    | ((fail_if_no_progress extract_lets +onlyGivenNames x); first | ((first | refine Keeps.cut (t := x) ?_ ?_ | refine KeepsR.cut (t := x) ?_ ?_); rotate_left; (clear_value x; intro hx); rotate_left; (try subst x)) | clear_value x)
    | split

theorem execIdleExit_keeps {r0_ s : State} {d : IdleDomain} (h_ : Keeps r0_ s) : KeepsR r0_ (execIdleExit d s) := by
  unfold execIdleExit
  with_reducible repeat' first
    | assumption | apply KeepsR.next | apply State.dropIdle_keeps | apply State.beginExit_keeps | split

theorem execHoldoffExpire_keeps {r0_ s : State} {d : IdleDomain} (h_ : Keeps r0_ s) : KeepsR r0_ (execHoldoffExpire d s) := by
  unfold execHoldoffExpire
  with_reducible repeat' first
    | assumption | apply KeepsR.next | apply State.enterIdle_keeps | split

theorem execPowerSample_keeps {r0_ s : State} {watts : Nat} (h_ : Keeps r0_ s) : KeepsR r0_ (execPowerSample watts s) := by
  unfold execPowerSample
  with_reducible repeat' first
    | assumption | apply KeepsR.next | apply State.setFld_keeps
    | (fail_if_no_progress refine Keeps.upd ?_ ⟨rfl, rfl, rfl, rfl, rfl⟩) | split

theorem State.writeOrder_keeps {r0_ s : State}  (h_ : Keeps r0_ s) : Keeps r0_ (State.writeOrder s) := by
  unfold State.writeOrder
  with_reducible repeat' first
    | assumption | apply State.writeRlThrot_keeps

theorem State.setLevel_keeps {r0_ s : State} {l : Nat} (h_ : Keeps r0_ s) : Keeps r0_ (State.setLevel s l) := by
  unfold State.setLevel
  with_reducible repeat' first
    | assumption | apply Keeps.foldl | apply State.setFld_keeps | apply State.inc_keeps | apply State.irq_keeps
    | apply State.limitUpdate_keeps | apply State.writeOrder_keeps | intro _ _ _ | split

theorem execControlPeriod_keeps {r0_ s : State}  (h_ : Keeps r0_ s) : KeepsR r0_ (execControlPeriod s) := by
  unfold execControlPeriod
  with_reducible repeat' first
    | assumption | apply KeepsR.next | apply Keeps.ite | apply State.setBit_keeps | apply State.latch_keeps
    | apply State.writeOrder_keeps | apply State.setLevel_keeps
    | (fail_if_no_progress refine Keeps.upd ?_ ⟨rfl, rfl, rfl, rfl, rfl⟩)

theorem execMonFail_keeps {r0_ s : State} {r : Option (BitVec 4)} (h_ : Keeps r0_ s) : KeepsR r0_ (execMonFail r s) := by
  unfold execMonFail
  with_reducible repeat' first
    | assumption | apply KeepsR.next | apply State.latch_keeps | apply State.setLevel_keeps
    | ((fail_if_no_progress extract_lets +onlyGivenNames x); first | ((first | refine Keeps.cut (t := x) ?_ ?_ | refine KeepsR.cut (t := x) ?_ ?_); rotate_left; (clear_value x; intro hx); rotate_left; (try subst x)) | clear_value x)
    | (fail_if_no_progress refine Keeps.upd ?_ ⟨rfl, rfl, rfl, rfl, rfl⟩) | split

theorem execPwrCapWrite_keeps {r0_ s : State} {m : Master} {be : BitVec 4} {v : Word} (h_ : Keeps r0_ s) : KeepsR r0_ (execPwrCapWrite m be v s) := by
  unfold execPwrCapWrite
  with_reducible repeat' first
    | assumption | apply KeepsR.next | apply State.store_keeps | apply State.gated_keeps | intro _ _

theorem execThmLimitWrite_keeps {r0_ s : State} {m : Master} {be : BitVec 4} {v : Word} (h_ : Keeps r0_ s) : KeepsR r0_ (execThmLimitWrite m be v s) := by
  unfold execThmLimitWrite
  with_reducible repeat' first
    | assumption | apply KeepsR.next | apply State.store_keeps | apply State.gated_keeps | intro _ _

theorem State.setStep_keeps {r0_ s : State} {u n : Nat} (h_ : Keeps r0_ s) : Keeps r0_ (State.setStep s u n) := by
  unfold State.setStep
  with_reducible repeat' first
    | assumption | apply Keeps.ite | apply State.setFld_keeps | apply State.inc_keeps | apply State.latch_keeps
    | apply State.limitUpdate_keeps | (fail_if_no_progress refine Keeps.upd ?_ ⟨rfl, rfl, rfl, rfl, rfl⟩)

theorem State.evaluateUnit_keeps {r0_ s : State} {e : Nat × TempReading} (h_ : Keeps r0_ s) : Keeps r0_ (State.evaluateUnit s e) := by
  unfold State.evaluateUnit
  with_reducible repeat' first
    | assumption | apply Keeps.ite | apply State.setReg_keeps | apply State.latch_keeps | apply State.setStep_keeps
    | (fail_if_no_progress refine Keeps.upd ?_ ⟨rfl, rfl, rfl, rfl, rfl⟩)

theorem execThermalEvaluation_keeps {r0_ s : State} {readings : List (Nat × TempReading)} (h_ : Keeps r0_ s) : KeepsR r0_ (execThermalEvaluation readings s) := by
  unfold execThermalEvaluation
  with_reducible repeat' first
    | assumption | apply KeepsR.next | apply Keeps.foldl | apply State.setFld_keeps | apply State.setBit_keeps
    | apply State.evaluateUnit_keeps | split

theorem execThermalTrip_keeps {r0_ s : State} {u : Nat} (h_ : Keeps r0_ s) : KeepsR r0_ (execThermalTrip u s) := by
  unfold execThermalTrip
  with_reducible repeat' first
    | assumption | apply KeepsR.next | apply State.latch_keeps | apply State.packageReset_keeps
    | ((fail_if_no_progress extract_lets +onlyGivenNames x); first | ((first | refine Keeps.cut (t := x) ?_ ?_ | refine KeepsR.cut (t := x) ?_ ?_); rotate_left; (clear_value x; intro hx); rotate_left; (try subst x)) | clear_value x)
    | (fail_if_no_progress refine Keeps.upd ?_ ⟨rfl, rfl, rfl, rfl, rfl⟩) | split

/-! ### Faults -/

theorem State.testFails_keeps {r0_ s : State} {u : UnitId} {injected : Bool} (h_ : Keeps r0_ s) : Keeps r0_ (State.testFails s u injected) := by
  unfold State.testFails
  with_reducible repeat' first
    | assumption | apply State.latch_keeps | apply State.suspect_keeps | apply State.loseUnit_keeps
    | apply State.loseSpar_keeps | (fail_if_no_progress refine Keeps.upd ?_ ⟨rfl, rfl, rfl, rfl, rfl⟩) | split

theorem execSelftest_keeps {r0_ s : State} {u : UnitId} {ok : Bool} (h_ : Keeps r0_ s) : KeepsR r0_ (execSelftest u ok s) := by
  unfold execSelftest
  with_reducible repeat' first
    | assumption | apply KeepsR.next | exact KeepsR.fault _ _ | apply KeepsR.ite | apply Keeps.ite
    | apply Keeps.foldl | apply Keeps.getD | apply State.inc_keeps | apply State.injActed_keeps
    | apply State.planTest_keeps | apply State.testFails_keeps
    | ((fail_if_no_progress extract_lets +onlyGivenNames x); first | ((first | refine Keeps.cut (t := x) ?_ ?_ | refine KeepsR.cut (t := x) ?_ ?_ | refine Keeps.cutO (o := x) ?_ ?_ | refine Keeps.cutP (o := x) ?_ ?_ | refine Keeps.cut1 (o := x) ?_ ?_ | refine Keeps.cut2 (o := x) ?_ ?_); rotate_left; (clear_value x; intro hx); rotate_left; (try subst x)) | (have _h := Keeps.memv x; clear _h) | (have _h := Keeps.bytesv x; clear _h) | (have _h := Keeps.fn x; clear _h; dsimp only [x]; clear x) | (have _h := Keeps.fn2 x; clear _h; dsimp only [x]; clear x) | clear_value x)
    | (fail_if_no_progress refine Keeps.upd ?_ ⟨rfl, rfl, rfl, rfl, rfl⟩)
    | (fail_if_no_progress ((apply Keeps.of_mk; (focus exact rfl); (focus exact rfl)); (with_unfolding_all focus first | (exact fun w => w) | exact SMap.wf_set _ _ | exact SMap.wf_filter _); (with_unfolding_all focus first | (exact fun w => w) | exact SMap.wf_putBytes _ _ | exact SMap.wf_clearRange _ _ | exact SMap.wf_filter _ | (exact fun w => SMap.wf_foldl_set _ _ _ (SMap.wf_clearRange _ _ w)) | (exact fun _ => SMap.wf_nil' _)); (focus first | exact Nat.le_refl _ | exact Nat.le_succ _ | exact Nat.le_add_right _ _)))
    | apply Keeps.foldl1 | apply Keeps.foldl2 | apply Keeps.ite1 | apply Keeps.ite2
    | refine KeepsP.some_keeps (by assumption) _ _ (by assumption)
    | refine KeepsO.oSome (by assumption) (by assumption) | refine KeepsO.oSome (by assumption) rfl
    | refine KeepsP.some_keeps (by assumption) _ _ rfl | apply KeepsP.map | refine Keeps1.keeps (by assumption)
    | refine Keeps2.keeps (by assumption) | exact KeepsO.none _ | apply KeepsO.some | apply KeepsO.ite
    | apply KeepsO.foldl | exact KeepsP.none _ | apply KeepsP.some | apply KeepsP.ite | apply Keeps1.mk'
    | apply Keeps1.ite | apply Keeps1.foldl | apply Keeps2.mk' | apply Keeps2.ite | apply Keeps2.foldl | intro _ _ _
    | intro _ _ | intro _ | split | (fail_if_no_progress dsimp only) | refine KeepsO.oSome ?_ (by assumption)
    | refine KeepsP.some_keeps ?_ _ _ (by assumption) | refine Keeps1.eq ?_ (by assumption)
    | refine Keeps2.eq ?_ (by assumption)

theorem execSelftestLate_keeps {r0_ s : State} {u : UnitId} (h_ : Keeps r0_ s) : KeepsR r0_ (execSelftestLate u s) := by
  unfold execSelftestLate
  with_reducible repeat' first
    | assumption | apply KeepsR.next | apply State.latch_keeps
    | (fail_if_no_progress refine Keeps.upd ?_ ⟨rfl, rfl, rfl, rfl, rfl⟩) | split

theorem execUsageEpoch_keeps {r0_ s0 : State} {ue : Option (UnitId × List Nat)} (h_ : Keeps r0_ s0) : KeepsR r0_ (execUsageEpoch s0 ue) := by
  unfold execUsageEpoch
  with_reducible repeat' first
    | assumption | apply KeepsR.next | exact KeepsR.fault _ _ | apply KeepsR.ite | apply Keeps.ite
    | apply Keeps.foldl | apply Keeps.getD | apply State.usageUe_keeps
    | ((fail_if_no_progress extract_lets +onlyGivenNames x); first | ((first | refine Keeps.cut (t := x) ?_ ?_ | refine KeepsR.cut (t := x) ?_ ?_ | refine Keeps.cutO (o := x) ?_ ?_ | refine Keeps.cutP (o := x) ?_ ?_ | refine Keeps.cut1 (o := x) ?_ ?_ | refine Keeps.cut2 (o := x) ?_ ?_); rotate_left; (clear_value x; intro hx); rotate_left; (try subst x)) | (have _h := Keeps.memv x; clear _h) | (have _h := Keeps.bytesv x; clear _h) | (have _h := Keeps.fn x; clear _h; dsimp only [x]; clear x) | (have _h := Keeps.fn2 x; clear _h; dsimp only [x]; clear x) | clear_value x)
    | (fail_if_no_progress refine Keeps.upd ?_ ⟨rfl, rfl, rfl, rfl, rfl⟩)
    | (fail_if_no_progress ((apply Keeps.of_mk; (focus exact rfl); (focus exact rfl)); (with_unfolding_all focus first | (exact fun w => w) | exact SMap.wf_set _ _ | exact SMap.wf_filter _); (with_unfolding_all focus first | (exact fun w => w) | exact SMap.wf_putBytes _ _ | exact SMap.wf_clearRange _ _ | exact SMap.wf_filter _ | (exact fun w => SMap.wf_foldl_set _ _ _ (SMap.wf_clearRange _ _ w)) | (exact fun _ => SMap.wf_nil' _)); (focus first | exact Nat.le_refl _ | exact Nat.le_succ _ | exact Nat.le_add_right _ _)))
    | apply Keeps.foldl1 | apply Keeps.foldl2 | apply Keeps.ite1 | apply Keeps.ite2
    | refine KeepsP.some_keeps (by assumption) _ _ (by assumption)
    | refine KeepsO.oSome (by assumption) (by assumption) | refine KeepsO.oSome (by assumption) rfl
    | refine KeepsP.some_keeps (by assumption) _ _ rfl | apply KeepsP.map | refine Keeps1.keeps (by assumption)
    | refine Keeps2.keeps (by assumption) | exact KeepsO.none _ | apply KeepsO.some | apply KeepsO.ite
    | apply KeepsO.foldl | exact KeepsP.none _ | apply KeepsP.some | apply KeepsP.ite | apply Keeps1.mk'
    | apply Keeps1.ite | apply Keeps1.foldl | apply Keeps2.mk' | apply Keeps2.ite | apply Keeps2.foldl | intro _ _ _
    | intro _ _ | intro _ | split | (fail_if_no_progress dsimp only) | refine KeepsO.oSome ?_ (by assumption)
    | refine KeepsP.some_keeps ?_ _ _ (by assumption) | refine Keeps1.eq ?_ (by assumption)
    | refine Keeps2.eq ?_ (by assumption)

theorem State.copyEvent_keeps {r0_ s : State} {ws : List Nat} (h_ : Keeps r0_ s) : Keeps r0_ (State.copyEvent s ws) := by
  unfold State.copyEvent
  with_reducible repeat' first
    | assumption | apply Keeps.ite | apply State.emit_keeps | apply State.inc_keeps | apply State.moderate_keeps
    | apply State.eqSlot_keeps22

theorem State.aggregate_keeps {r0_ s : State} {e : Nat × Nat × Nat × Nat} (h_ : Keeps r0_ s) : Keeps r0_ (State.aggregate s e) := by
  unfold State.aggregate
  with_reducible repeat' first
    | assumption | apply Keeps.ite | apply Keeps.foldl | apply State.setReg_keeps | apply State.setBit_keeps
    | apply State.irq_keeps | apply State.copyEvent_keeps
    | (fail_if_no_progress refine Keeps.upd ?_ ⟨rfl, rfl, rfl, rfl, rfl⟩) | intro _ _ _

theorem execFaultAggregate_keeps {r0_ s : State}  (h_ : Keeps r0_ s) : KeepsR r0_ (execFaultAggregate s) := by
  unfold execFaultAggregate
  with_reducible repeat' first
    | assumption | apply KeepsR.next | apply Keeps.foldl | apply State.aggregate_keeps
    | (fail_if_no_progress refine Keeps.upd ?_ ⟨rfl, rfl, rfl, rfl, rfl⟩)

theorem State.injResult_keeps {r0_ s : State} {result : Nat} {replaced : Bool} {op : Nat} (h_ : Keeps r0_ s) : Keeps r0_ (State.injResult s result replaced op) := by
  unfold State.injResult
  with_reducible repeat' first
    | assumption | apply State.setReg_keeps

theorem State.restoreUnit_keeps {r0_ s : State} {u : UnitId} {passes : Bool} (h_ : Keeps r0_ s) : Keeps r0_ (State.restoreUnit s u passes) := by
  unfold State.restoreUnit
  with_reducible repeat' first
    | assumption | apply Keeps.ite | apply State.inc_keeps | apply State.setService_keeps
    | apply State.injResult_keeps | (fail_if_no_progress refine Keeps.upd ?_ ⟨rfl, rfl, rfl, rfl, rfl⟩)

theorem State.writeInjCmd_keeps {r0_ s : State} {v : Word} {passes : Bool} (h_ : Keeps r0_ s) : Keeps r0_ (State.writeInjCmd s v passes) := by
  unfold State.writeInjCmd
  with_reducible repeat' first
    | assumption | apply Keeps.ite | apply State.lockstepReset_keeps | apply State.injResult_keeps
    | apply State.restoreUnit_keeps | (fail_if_no_progress refine Keeps.upd ?_ ⟨rfl, rfl, rfl, rfl, rfl⟩)

theorem State.injectRow_keeps {r0_ s : State} {m : Master} {be : BitVec 4} {v : Word} {op : Nat} (h_ : Keeps r0_ s) : Keeps r0_ (State.injectRow s m be v op) := by
  unfold State.injectRow
  with_reducible repeat' first
    | assumption | apply State.gated_keeps | apply State.writeInjCmd_keeps | intro _ _

theorem execMemCe_keeps {r0_ s : State} {m : Master} {be : BitVec 4} {v : Word} (h_ : Keeps r0_ s) : KeepsR r0_ (execMemCe m be v s) := by
  unfold execMemCe
  with_reducible repeat' first
    | assumption | apply KeepsR.next | apply State.injectRow_keeps

theorem execMemUe_keeps {r0_ s : State} {m : Master} {be : BitVec 4} {v : Word} (h_ : Keeps r0_ s) : KeepsR r0_ (execMemUe m be v s) := by
  unfold execMemUe
  with_reducible repeat' first
    | assumption | apply KeepsR.next | apply State.injectRow_keeps

theorem execLinkCrc_keeps {r0_ s : State} {m : Master} {be : BitVec 4} {v : Word} (h_ : Keeps r0_ s) : KeepsR r0_ (execLinkCrc m be v s) := by
  unfold execLinkCrc
  with_reducible repeat' first
    | assumption | apply KeepsR.next | apply State.injectRow_keeps

theorem execRatlineCrc_keeps {r0_ s : State} {m : Master} {be : BitVec 4} {v : Word} (h_ : Keeps r0_ s) : KeepsR r0_ (execRatlineCrc m be v s) := by
  unfold execRatlineCrc
  with_reducible repeat' first
    | assumption | apply KeepsR.next | apply State.injectRow_keeps

theorem execResidueTrans_keeps {r0_ s : State} {m : Master} {be : BitVec 4} {v : Word} (h_ : Keeps r0_ s) : KeepsR r0_ (execResidueTrans m be v s) := by
  unfold execResidueTrans
  with_reducible repeat' first
    | assumption | apply KeepsR.next | apply State.injectRow_keeps

theorem execResidueHard_keeps {r0_ s : State} {m : Master} {be : BitVec 4} {v : Word} (h_ : Keeps r0_ s) : KeepsR r0_ (execResidueHard m be v s) := by
  unfold execResidueHard
  with_reducible repeat' first
    | assumption | apply KeepsR.next | apply State.injectRow_keeps

theorem execSelftestFail_keeps {r0_ s : State} {m : Master} {be : BitVec 4} {v : Word} (h_ : Keeps r0_ s) : KeepsR r0_ (execSelftestFail m be v s) := by
  unfold execSelftestFail
  with_reducible repeat' first
    | assumption | apply KeepsR.next | apply State.injectRow_keeps

theorem execSentinelDev_keeps {r0_ s : State} {m : Master} {be : BitVec 4} {v : Word} (h_ : Keeps r0_ s) : KeepsR r0_ (execSentinelDev m be v s) := by
  unfold execSentinelDev
  with_reducible repeat' first
    | assumption | apply KeepsR.next | apply State.injectRow_keeps

theorem execLockstep_keeps {r0_ s : State} {m : Master} {be : BitVec 4} {v : Word} (h_ : Keeps r0_ s) : KeepsR r0_ (execLockstep m be v s) := by
  unfold execLockstep
  with_reducible repeat' first
    | assumption | apply KeepsR.next | apply State.injectRow_keeps

theorem execE2eCrc_keeps {r0_ s : State} {m : Master} {be : BitVec 4} {v : Word} (h_ : Keeps r0_ s) : KeepsR r0_ (execE2eCrc m be v s) := by
  unfold execE2eCrc
  with_reducible repeat' first
    | assumption | apply KeepsR.next | apply State.injectRow_keeps

theorem execRestore_keeps {r0_ s : State} {m : Master} {be : BitVec 4} {v : Word} {passes : Bool} (h_ : Keeps r0_ s) : KeepsR r0_ (execRestore m be v passes s) := by
  unfold execRestore
  with_reducible repeat' first
    | assumption | apply KeepsR.next | apply State.gated_keeps | apply State.writeInjCmd_keeps | intro _ _

/-! ### Electrical -/

theorem execPowerDown_keeps {r0_ s : State}  (h_ : Keeps r0_ s) : KeepsR r0_ (execPowerDown s) := by
  unfold execPowerDown
  with_reducible repeat' first
    | assumption | apply KeepsR.next | apply State.clearAll_keeps
    | (fail_if_no_progress refine Keeps.upd ?_ ⟨rfl, rfl, rfl, rfl, rfl⟩) | split

theorem State.tapTo_keeps {r0_ s : State} {j : Jtag} (h_ : Keeps r0_ s) : Keeps r0_ (State.tapTo s j) := by
  unfold State.tapTo
  with_reducible repeat' first
    | assumption | apply Keeps.ite | apply State.packageReset_keeps
    | (fail_if_no_progress refine Keeps.upd ?_ ⟨rfl, rfl, rfl, rfl, rfl⟩)

theorem execBypass_keeps {r0_ s : State}  (h_ : Keeps r0_ s) : KeepsR r0_ (execBypass s) := by
  unfold execBypass
  with_reducible repeat' first
    | assumption | apply KeepsR.next | apply State.tapTo_keeps

theorem execIdcode_keeps {r0_ s : State}  (h_ : Keeps r0_ s) : KeepsR r0_ (execIdcode s) := by
  unfold execIdcode
  with_reducible repeat' first
    | assumption | apply KeepsR.next | apply State.emit_keeps | apply State.tapTo_keeps

theorem execSamplePreload_keeps {r0_ s : State}  (h_ : Keeps r0_ s) : KeepsR r0_ (execSamplePreload s) := by
  unfold execSamplePreload
  with_reducible repeat' first
    | assumption | apply KeepsR.next | apply State.tapTo_keeps

theorem execExtest_keeps {r0_ s : State}  (h_ : Keeps r0_ s) : KeepsR r0_ (execExtest s) := by
  unfold execExtest
  with_reducible repeat' first
    | assumption | apply KeepsR.next | apply State.tapTo_keeps

theorem execClamp_keeps {r0_ s : State}  (h_ : Keeps r0_ s) : KeepsR r0_ (execClamp s) := by
  unfold execClamp
  with_reducible repeat' first
    | assumption | apply KeepsR.next | apply State.tapTo_keeps

theorem execHighz_keeps {r0_ s : State}  (h_ : Keeps r0_ s) : KeepsR r0_ (execHighz s) := by
  unfold execHighz
  with_reducible repeat' first
    | assumption | apply KeepsR.next | apply State.tapTo_keeps

theorem execTapExit_keeps {r0_ s : State}  (h_ : Keeps r0_ s) : KeepsR r0_ (execTapExit s) := by
  unfold execTapExit
  with_reducible repeat' first
    | assumption | apply KeepsR.next | apply State.tapTo_keeps

/-! ### Registers -/

theorem State.atStart_keeps {r0_ s : State} (h_ : Keeps r0_ s) : Keeps r0_ s.atStart :=
  ⟨h_.queue, h_.outs, h_.free, fun w => SMap.wf_foldl_setW _ _ _ (h_.regs w), h_.bytes⟩

theorem State.clearLatch_keeps {r0_ s : State} {p : Nat} (h_ : Keeps r0_ s) : Keeps r0_ (State.clearLatch s p) := by
  unfold State.clearLatch
  with_reducible repeat' first
    | assumption | apply Keeps.ite | apply Keeps.foldl | apply State.setReg_keeps | apply State.setBit_keeps
    | apply State.noteOld_keeps | apply State.latchOn_keeps | intro _ _ _

theorem State.clearConflict_keeps {r0_ s : State} {p : Nat} (h_ : Keeps r0_ s) : Keeps r0_ (State.clearConflict s p) := by
  unfold State.clearConflict
  with_reducible repeat' first
    | assumption | apply Keeps.ite | apply State.setReg_keeps | apply State.noteOld_keeps

theorem State.clearCounts_keeps {r0_ s : State} {k : Nat} (h_ : Keeps r0_ s) : Keeps r0_ (State.clearCounts s k) := by
  unfold State.clearCounts
  with_reducible repeat' first
    | assumption | apply Keeps.ite | apply State.setReg_keeps | apply State.noteOld_keeps

theorem State.readEffect_keeps {r0_ s : State} {m : Master} {p off : Nat} (h_ : Keeps r0_ s) : Keeps r0_ (State.readEffect s m p off) := by
  unfold State.readEffect
  with_reducible repeat' first
    | assumption | apply Keeps.ite | apply State.clearLatch_keeps | apply State.clearConflict_keeps
    | apply State.clearCounts_keeps | (fail_if_no_progress refine Keeps.upd ?_ ⟨rfl, rfl, rfl, rfl, rfl⟩)

theorem State.readReg_keeps2 {r0_ s : State} {m : Master} {p off : Nat} {be : BitVec 4} (h_ : Keeps r0_ s) : Keeps2 r0_ (State.readReg s m p off be) := by
  unfold State.readReg
  with_reducible repeat' first
    | assumption | apply Keeps2.mk' | apply State.latch_keeps | apply State.readEffect_keeps | split

theorem State.read_keeps {r0_ s : State} {m : Master} {p off : Nat} {be : BitVec 4} (h_ : Keeps r0_ s) : Keeps r0_ (State.read s m p off be) := by
  unfold State.read
  with_reducible repeat' first
    | assumption | apply Keeps.ite | apply Keeps.foldl | apply Keeps.getD | apply State.emit_keeps
    | apply State.waitBehind_keeps | apply State.readReg_keeps2
    | refine Keeps2.eq (State.readReg_keeps2 ?_) (by assumption) | refine (State.readReg_keeps2 ?_).keeps
    | ((fail_if_no_progress extract_lets +onlyGivenNames x); first | ((first | refine Keeps.cut (t := x) ?_ ?_ | refine Keeps.cutO (o := x) ?_ ?_ | refine Keeps.cutP (o := x) ?_ ?_ | refine Keeps.cut1 (o := x) ?_ ?_ | refine Keeps.cut2 (o := x) ?_ ?_); rotate_left; (clear_value x; intro hx); rotate_left; (try subst x)) | (have _h := Keeps.memv x; clear _h) | (have _h := Keeps.bytesv x; clear _h) | (have _h := Keeps.fn x; clear _h; dsimp only [x]; clear x) | (have _h := Keeps.fn2 x; clear _h; dsimp only [x]; clear x) | clear_value x)
    | (fail_if_no_progress refine Keeps.upd ?_ ⟨rfl, rfl, rfl, rfl, rfl⟩)
    | (fail_if_no_progress ((apply Keeps.of_mk; (focus exact rfl); (focus exact rfl)); (with_unfolding_all focus first | (exact fun w => w) | exact SMap.wf_set _ _ | exact SMap.wf_filter _); (with_unfolding_all focus first | (exact fun w => w) | exact SMap.wf_putBytes _ _ | exact SMap.wf_clearRange _ _ | exact SMap.wf_filter _ | (exact fun w => SMap.wf_foldl_set _ _ _ (SMap.wf_clearRange _ _ w)) | (exact fun _ => SMap.wf_nil' _)); (focus first | exact Nat.le_refl _ | exact Nat.le_succ _ | exact Nat.le_add_right _ _)))
    | apply Keeps.foldl1 | apply Keeps.foldl2 | apply Keeps.ite1 | apply Keeps.ite2
    | refine KeepsP.some_keeps (by assumption) _ _ (by assumption)
    | refine KeepsO.oSome (by assumption) (by assumption) | refine KeepsO.oSome (by assumption) rfl
    | refine KeepsP.some_keeps (by assumption) _ _ rfl | apply KeepsP.map | refine Keeps1.keeps (by assumption)
    | refine Keeps2.keeps (by assumption) | exact KeepsO.none _ | apply KeepsO.some | apply KeepsO.ite
    | apply KeepsO.foldl | exact KeepsP.none _ | apply KeepsP.some | apply KeepsP.ite | apply Keeps1.mk'
    | apply Keeps1.ite | apply Keeps1.foldl | apply Keeps2.mk' | apply Keeps2.ite | apply Keeps2.foldl | intro _ _ _
    | intro _ _ | intro _ | split | (fail_if_no_progress dsimp only) | refine KeepsO.oSome ?_ (by assumption)
    | refine KeepsP.some_keeps ?_ _ _ (by assumption) | refine Keeps1.eq ?_ (by assumption)
    | refine Keeps2.eq ?_ (by assumption)

theorem State.cfgWrite_keeps {r0_ s : State} {f : CfgField} {v : Word} (h_ : Keeps r0_ s) : Keeps r0_ (State.cfgWrite s f v) := by
  unfold State.cfgWrite
  with_reducible repeat' first
    | assumption | apply Keeps.ite | apply Keeps.foldl | apply Keeps.getD
    | ((fail_if_no_progress extract_lets +onlyGivenNames x); first | ((first | refine Keeps.cut (t := x) ?_ ?_ | refine Keeps.cutO (o := x) ?_ ?_ | refine Keeps.cutP (o := x) ?_ ?_ | refine Keeps.cut1 (o := x) ?_ ?_ | refine Keeps.cut2 (o := x) ?_ ?_); rotate_left; (clear_value x; intro hx); rotate_left; (try subst x)) | (have _h := Keeps.memv x; clear _h) | (have _h := Keeps.bytesv x; clear _h) | (have _h := Keeps.fn x; clear _h; dsimp only [x]; clear x) | (have _h := Keeps.fn2 x; clear _h; dsimp only [x]; clear x) | clear_value x)
    | (fail_if_no_progress refine Keeps.upd ?_ ⟨rfl, rfl, rfl, rfl, rfl⟩)
    | (fail_if_no_progress ((apply Keeps.of_mk; (focus exact rfl); (focus exact rfl)); (with_unfolding_all focus first | (exact fun w => w) | exact SMap.wf_set _ _ | exact SMap.wf_filter _); (with_unfolding_all focus first | (exact fun w => w) | exact SMap.wf_putBytes _ _ | exact SMap.wf_clearRange _ _ | exact SMap.wf_filter _ | (exact fun w => SMap.wf_foldl_set _ _ _ (SMap.wf_clearRange _ _ w)) | (exact fun _ => SMap.wf_nil' _)); (focus first | exact Nat.le_refl _ | exact Nat.le_succ _ | exact Nat.le_add_right _ _)))
    | apply Keeps.foldl1 | apply Keeps.foldl2 | apply Keeps.ite1 | apply Keeps.ite2
    | refine KeepsP.some_keeps (by assumption) _ _ (by assumption)
    | refine KeepsO.oSome (by assumption) (by assumption) | refine KeepsO.oSome (by assumption) rfl
    | refine KeepsP.some_keeps (by assumption) _ _ rfl | apply KeepsP.map | refine Keeps1.keeps (by assumption)
    | refine Keeps2.keeps (by assumption) | exact KeepsO.none _ | apply KeepsO.some | apply KeepsO.ite
    | apply KeepsO.foldl | exact KeepsP.none _ | apply KeepsP.some | apply KeepsP.ite | apply Keeps1.mk'
    | apply Keeps1.ite | apply Keeps1.foldl | apply Keeps2.mk' | apply Keeps2.ite | apply Keeps2.foldl | intro _ _ _
    | intro _ _ | intro _ | split | (fail_if_no_progress dsimp only) | refine KeepsO.oSome ?_ (by assumption)
    | refine KeepsP.some_keeps ?_ _ _ (by assumption) | refine Keeps1.eq ?_ (by assumption)
    | refine Keeps2.eq ?_ (by assumption)

theorem State.readAt_keeps {r0_ s : State} {m : Master} {a : RegAddr} {be : BitVec 4} (h_ : Keeps r0_ s) : Keeps r0_ (State.readAt s m a be) := by
  unfold State.readAt
  with_reducible repeat' first
    | assumption | apply Keeps.ite | apply Keeps.foldl | apply Keeps.getD | apply State.emit_keeps
    | apply State.read_keeps
    | ((fail_if_no_progress extract_lets +onlyGivenNames x); first | ((first | refine Keeps.cut (t := x) ?_ ?_ | refine Keeps.cutO (o := x) ?_ ?_ | refine Keeps.cutP (o := x) ?_ ?_ | refine Keeps.cut1 (o := x) ?_ ?_ | refine Keeps.cut2 (o := x) ?_ ?_); rotate_left; (clear_value x; intro hx); rotate_left; (try subst x)) | (have _h := Keeps.memv x; clear _h) | (have _h := Keeps.bytesv x; clear _h) | (have _h := Keeps.fn x; clear _h; dsimp only [x]; clear x) | (have _h := Keeps.fn2 x; clear _h; dsimp only [x]; clear x) | clear_value x)
    | (fail_if_no_progress refine Keeps.upd ?_ ⟨rfl, rfl, rfl, rfl, rfl⟩)
    | (fail_if_no_progress ((apply Keeps.of_mk; (focus exact rfl); (focus exact rfl)); (with_unfolding_all focus first | (exact fun w => w) | exact SMap.wf_set _ _ | exact SMap.wf_filter _); (with_unfolding_all focus first | (exact fun w => w) | exact SMap.wf_putBytes _ _ | exact SMap.wf_clearRange _ _ | exact SMap.wf_filter _ | (exact fun w => SMap.wf_foldl_set _ _ _ (SMap.wf_clearRange _ _ w)) | (exact fun _ => SMap.wf_nil' _)); (focus first | exact Nat.le_refl _ | exact Nat.le_succ _ | exact Nat.le_add_right _ _)))
    | apply Keeps.foldl1 | apply Keeps.foldl2 | apply Keeps.ite1 | apply Keeps.ite2
    | refine KeepsP.some_keeps (by assumption) _ _ (by assumption)
    | refine KeepsO.oSome (by assumption) (by assumption) | refine KeepsO.oSome (by assumption) rfl
    | refine KeepsP.some_keeps (by assumption) _ _ rfl | apply KeepsP.map | refine Keeps1.keeps (by assumption)
    | refine Keeps2.keeps (by assumption) | exact KeepsO.none _ | apply KeepsO.some | apply KeepsO.ite
    | apply KeepsO.foldl | exact KeepsP.none _ | apply KeepsP.some | apply KeepsP.ite | apply Keeps1.mk'
    | apply Keeps1.ite | apply Keeps1.foldl | apply Keeps2.mk' | apply Keeps2.ite | apply Keeps2.foldl | intro _ _ _
    | intro _ _ | intro _ | split | (fail_if_no_progress dsimp only) | refine KeepsO.oSome ?_ (by assumption)
    | refine KeepsP.some_keeps ?_ _ _ (by assumption) | refine Keeps1.eq ?_ (by assumption)
    | refine Keeps2.eq ?_ (by assumption)

theorem State.peekAt_keeps {r0_ s : State} {m : Master} {a : RegAddr} {be : BitVec 4} (h_ : Keeps r0_ s) : Keeps r0_ (State.peekAt s m a be) := by
  unfold State.peekAt
  with_reducible repeat' first
    | assumption | apply Keeps.ite | apply Keeps.foldl | apply Keeps.getD | apply State.emit_keeps
    | apply State.waitBehind_keeps | apply State.readReg_keeps2
    | refine Keeps2.eq (State.readReg_keeps2 ?_) (by assumption) | refine (State.readReg_keeps2 ?_).keeps
    | apply State.readAt_keeps
    | ((fail_if_no_progress extract_lets +onlyGivenNames x); first | ((first | refine Keeps.cut (t := x) ?_ ?_ | refine Keeps.cutO (o := x) ?_ ?_ | refine Keeps.cutP (o := x) ?_ ?_ | refine Keeps.cut1 (o := x) ?_ ?_ | refine Keeps.cut2 (o := x) ?_ ?_); rotate_left; (clear_value x; intro hx); rotate_left; (try subst x)) | (have _h := Keeps.memv x; clear _h) | (have _h := Keeps.bytesv x; clear _h) | (have _h := Keeps.fn x; clear _h; dsimp only [x]; clear x) | (have _h := Keeps.fn2 x; clear _h; dsimp only [x]; clear x) | clear_value x)
    | (fail_if_no_progress refine Keeps.upd ?_ ⟨rfl, rfl, rfl, rfl, rfl⟩)
    | (fail_if_no_progress ((apply Keeps.of_mk; (focus exact rfl); (focus exact rfl)); (with_unfolding_all focus first | (exact fun w => w) | exact SMap.wf_set _ _ | exact SMap.wf_filter _); (with_unfolding_all focus first | (exact fun w => w) | exact SMap.wf_putBytes _ _ | exact SMap.wf_clearRange _ _ | exact SMap.wf_filter _ | (exact fun w => SMap.wf_foldl_set _ _ _ (SMap.wf_clearRange _ _ w)) | (exact fun _ => SMap.wf_nil' _)); (focus first | exact Nat.le_refl _ | exact Nat.le_succ _ | exact Nat.le_add_right _ _)))
    | apply Keeps.foldl1 | apply Keeps.foldl2 | apply Keeps.ite1 | apply Keeps.ite2
    | refine KeepsP.some_keeps (by assumption) _ _ (by assumption)
    | refine KeepsO.oSome (by assumption) (by assumption) | refine KeepsO.oSome (by assumption) rfl
    | refine KeepsP.some_keeps (by assumption) _ _ rfl | apply KeepsP.map | refine Keeps1.keeps (by assumption)
    | refine Keeps2.keeps (by assumption) | exact KeepsO.none _ | apply KeepsO.some | apply KeepsO.ite
    | apply KeepsO.foldl | exact KeepsP.none _ | apply KeepsP.some | apply KeepsP.ite | apply Keeps1.mk'
    | apply Keeps1.ite | apply Keeps1.foldl | apply Keeps2.mk' | apply Keeps2.ite | apply Keeps2.foldl | intro _ _ _
    | intro _ _ | intro _ | split | (fail_if_no_progress dsimp only) | refine KeepsO.oSome ?_ (by assumption)
    | refine KeepsP.some_keeps ?_ _ _ (by assumption) | refine Keeps1.eq ?_ (by assumption)
    | refine Keeps2.eq ?_ (by assumption)

theorem execRcRead_keeps {r0_ s : State} {m : Master} {a : RegAddr} {be : BitVec 4} {hi : Option (BitVec 4)} (h_ : Keeps r0_ s) : KeepsR r0_ (execRcRead m a be hi s) := by
  unfold execRcRead
  with_reducible repeat' first
    | assumption | apply KeepsR.next | exact KeepsR.fault _ _ | apply KeepsR.ite | apply Keeps.ite
    | apply Keeps.foldl | apply Keeps.getD | apply State.readAt_keeps | apply State.peekAt_keeps
    | ((fail_if_no_progress extract_lets +onlyGivenNames x); first | ((first | refine Keeps.cut (t := x) ?_ ?_ | refine KeepsR.cut (t := x) ?_ ?_ | refine Keeps.cutO (o := x) ?_ ?_ | refine Keeps.cutP (o := x) ?_ ?_ | refine Keeps.cut1 (o := x) ?_ ?_ | refine Keeps.cut2 (o := x) ?_ ?_); rotate_left; (clear_value x; intro hx); rotate_left; (try subst x)) | (have _h := Keeps.memv x; clear _h) | (have _h := Keeps.bytesv x; clear _h) | (have _h := Keeps.fn x; clear _h; dsimp only [x]; clear x) | (have _h := Keeps.fn2 x; clear _h; dsimp only [x]; clear x) | clear_value x)
    | (fail_if_no_progress refine Keeps.upd ?_ ⟨rfl, rfl, rfl, rfl, rfl⟩)
    | (fail_if_no_progress ((apply Keeps.of_mk; (focus exact rfl); (focus exact rfl)); (with_unfolding_all focus first | (exact fun w => w) | exact SMap.wf_set _ _ | exact SMap.wf_filter _); (with_unfolding_all focus first | (exact fun w => w) | exact SMap.wf_putBytes _ _ | exact SMap.wf_clearRange _ _ | exact SMap.wf_filter _ | (exact fun w => SMap.wf_foldl_set _ _ _ (SMap.wf_clearRange _ _ w)) | (exact fun _ => SMap.wf_nil' _)); (focus first | exact Nat.le_refl _ | exact Nat.le_succ _ | exact Nat.le_add_right _ _)))
    | apply Keeps.foldl1 | apply Keeps.foldl2 | apply Keeps.ite1 | apply Keeps.ite2
    | refine KeepsP.some_keeps (by assumption) _ _ (by assumption)
    | refine KeepsO.oSome (by assumption) (by assumption) | refine KeepsO.oSome (by assumption) rfl
    | refine KeepsP.some_keeps (by assumption) _ _ rfl | apply KeepsP.map | refine Keeps1.keeps (by assumption)
    | refine Keeps2.keeps (by assumption) | exact KeepsO.none _ | apply KeepsO.some | apply KeepsO.ite
    | apply KeepsO.foldl | exact KeepsP.none _ | apply KeepsP.some | apply KeepsP.ite | apply Keeps1.mk'
    | apply Keeps1.ite | apply Keeps1.foldl | apply Keeps2.mk' | apply Keeps2.ite | apply Keeps2.foldl | intro _ _ _
    | intro _ _ | intro _ | split | (fail_if_no_progress dsimp only) | refine KeepsO.oSome ?_ (by assumption)
    | refine KeepsP.some_keeps ?_ _ _ (by assumption) | refine Keeps1.eq ?_ (by assumption)
    | refine Keeps2.eq ?_ (by assumption)

theorem execFltLatchRead_keeps {r0_ s : State} {m : Master} {p : BitVec 14} {be : BitVec 4} (h_ : Keeps r0_ s) : KeepsR r0_ (execFltLatchRead m p be s) := by
  unfold execFltLatchRead
  with_reducible repeat' first
    | assumption | apply KeepsR.next | apply State.read_keeps

theorem execConflictRead_keeps {r0_ s : State} {m : Master} {p : BitVec 14} {be : BitVec 4} (h_ : Keeps r0_ s) : KeepsR r0_ (execConflictRead m p be s) := by
  unfold execConflictRead
  with_reducible repeat' first
    | assumption | apply KeepsR.next | apply State.read_keeps

theorem execTtlNowRead_keeps {r0_ s : State} {m : Master} {be : BitVec 4} (h_ : Keeps r0_ s) : KeepsR r0_ (execTtlNowRead m be s) := by
  unfold execTtlNowRead
  with_reducible repeat' first
    | assumption | apply KeepsR.next | apply State.read_keeps

theorem State.pageSoftReset_keeps {r0_ s : State} {p : Nat} (h_ : Keeps r0_ s) : Keeps r0_ (s.pageSoftReset p) := by
  have key : Keeps r0_ ({ s with regs := s.regs.filterMap fun e =>
      if e.1 / 1024 = p then (let w := softWord e.1 e.2; if w = resetVal e.1 then none else some (e.1, w)) else some e } : State) := by
    refine ⟨h_.queue, h_.outs, h_.free, fun w => SMap.wf_filterMap _ (h_.regs w) ?_, h_.bytes⟩
    intro e x hx
    split at hx
    · simp only at hx
      split at hx
      · cases hx
      · cases hx
        exact ⟨rfl, fun _ => by assumption⟩
    · cases hx
      exact ⟨rfl, fun h => h⟩
  unfold State.pageSoftReset
  simp only
  split
  · exact State.levels_keeps key
  split
  · exact State.kvpUpdate_keeps key
  split
  · exact State.setBit_keeps key
  · exact key

theorem State.writeCtrl_keeps {r0_ s : State} {m : Master} {p : Nat} {v : Word} (h_ : Keeps r0_ s) : Keeps r0_ (State.writeCtrl s m p v) := by
  unfold State.writeCtrl
  with_reducible repeat' first
    | assumption | apply Keeps.ite | apply State.setBit_keeps | apply State.store_keeps
    | apply State.pageSoftReset_keeps

theorem State.writeHeader_keeps {r0_ s : State} {m : Master} {p off : Nat} {v : Word} (h_ : Keeps r0_ s) : Keeps r0_ (State.writeHeader s m p off v) := by
  unfold State.writeHeader
  with_reducible repeat' first
    | assumption | apply Keeps.ite | apply State.setIrq_keeps | apply State.store_keeps | apply State.writeCtrl_keeps

theorem State.writeDeqCfg_keeps {r0_ s : State} {m : Master} {v : Word} (h_ : Keeps r0_ s) : Keeps r0_ (State.writeDeqCfg s m v) := by
  unfold State.writeDeqCfg
  with_reducible repeat' first
    | assumption | apply Keeps.ite | apply State.setFld_keeps | apply State.setBit_keeps | apply State.latch_keeps
    | apply State.setEq_keeps | apply State.storeFields_keeps

theorem State.writeDeqHead_keeps {r0_ s : State} {m : Master} {v : Word} (h_ : Keeps r0_ s) : Keeps r0_ (State.writeDeqHead s m v) := by
  unfold State.writeDeqHead
  with_reducible repeat' first
    | assumption | apply Keeps.ite | apply State.setEq_keeps | apply State.store_keeps

theorem State.writeCol_keeps {r0_ s : State} {m : Master} {off : Nat} {v : Word} (h_ : Keeps r0_ s) : Keeps r0_ (State.writeCol s m off v) := by
  unfold State.writeCol
  with_reducible repeat' first
    | assumption | apply Keeps.ite | apply State.store_keeps | apply State.storeFields_keeps

theorem State.writeWater_keeps {r0_ s : State} {m : Master} {v : Word} (h_ : Keeps r0_ s) : Keeps r0_ (State.writeWater s m v) := by
  unfold State.writeWater
  with_reducible repeat' first
    | assumption | apply Keeps.ite | apply State.kvpUpdate_keeps | apply State.store_keeps

theorem State.writePrt_keeps {r0_ s : State} {m : Master} {p off : Nat} {v : Word} (h_ : Keeps r0_ s) : Keeps r0_ (State.writePrt s m p off v) := by
  unfold State.writePrt
  with_reducible repeat' first
    | assumption | apply Keeps.ite | apply State.store_keeps | apply State.writeSqCfg_keeps
    | apply State.writeEqCfg_keeps | apply State.writePrtCmd_keeps

theorem State.writeBlock_keeps {r0_ s : State} {m : Master} {b : Block} {i p off : Nat} {v : Word} (h_ : Keeps r0_ s) : Keeps r0_ (State.writeBlock s m b i p off v) := by
  unfold State.writeBlock
  with_reducible repeat' first
    | assumption | apply State.chosen_keeps | apply State.store_keeps | apply State.writeDblSq_keeps
    | apply State.writeDblEq_keeps | apply State.writePmgHrTail_keeps | apply State.writePmgHrCfg_keeps
    | apply State.writeBindCmd_keeps | apply State.writeUpkCmd_keeps | apply State.writeConduct_keeps
    | apply State.writeLnkCtl_keeps | apply State.writeLnkSheet_keeps | apply State.writeRingCmd_keeps
    | apply State.writeBomTest_keeps | apply State.writeRetire_keeps | apply State.writeRigCmd_keeps
    | apply State.writeTopCoord_keeps | apply State.writeJryCmd_keeps | apply State.writeSwev_keeps
    | apply State.writeRstCmd_keeps | apply State.writeRlThrot_keeps | apply State.writeInjCmd_keeps
    | apply State.writeDeqCfg_keeps | apply State.writeDeqHead_keeps | apply State.writeCol_keeps
    | apply State.writeWater_keeps | apply State.writePrt_keeps
    | ((fail_if_no_progress extract_lets +onlyGivenNames x); first | ((refine Keeps.cut (t := x) ?_ ?_); rotate_left; (clear_value x; intro hx); rotate_left; (try subst x)) | clear_value x)
    | split

theorem State.writeReg_keeps {r0_ s : State} {m : Master} {p off : Nat} {v : Word} (h_ : Keeps r0_ s) : Keeps r0_ (State.writeReg s m p off v) := by
  unfold State.writeReg
  with_reducible repeat' first
    | assumption | apply State.writeHeader_keeps | apply State.writeBlock_keeps | split

theorem State.writePage_keeps {r0_ s : State} {m : Master} {p off : Nat} {be : BitVec 4} {v : Word} (h_ : Keeps r0_ s) : Keeps r0_ (State.writePage s m p off be v) := by
  unfold State.writePage
  with_reducible repeat' first
    | assumption | apply Keeps.ite | apply State.latch_keeps | apply State.gated_keeps | apply State.writeReg_keeps
    | intro _ _

theorem State.writeMsix_keeps {r0_ s : State} {m : Master} {n w : Nat} {v : Word} (h_ : Keeps r0_ s) : Keeps r0_ (State.writeMsix s m n w v) := by
  unfold State.writeMsix
  with_reducible repeat' first
    | assumption | apply State.emit_keeps | apply State.setMsix_keeps | apply State.resolution_keeps
    | ((fail_if_no_progress extract_lets +onlyGivenNames x); first | ((refine Keeps.cut (t := x) ?_ ?_); rotate_left; (clear_value x; intro hx); rotate_left; (try subst x)) | clear_value x)
    | (fail_if_no_progress refine Keeps.upd ?_ ⟨rfl, rfl, rfl, rfl, rfl⟩) | split

theorem State.writeTable_keeps {r0_ s : State} {m : Master} {vf : Option Nat} {off : Nat} {be : BitVec 4} {v : Word} (h_ : Keeps r0_ s) : Keeps r0_ (State.writeTable s m vf off be v) := by
  unfold State.writeTable
  with_reducible repeat' first
    | assumption | apply State.deny_keeps | apply State.writeMsix_keeps | split

theorem State.writeAt_keeps {r0_ s : State} {m : Master} {a : RegAddr} {be : BitVec 4} {v : Word} (h_ : Keeps r0_ s) : Keeps r0_ (State.writeAt s m a be v) := by
  unfold State.writeAt
  with_reducible repeat' first
    | assumption | apply Keeps.ite | apply Keeps.foldl | apply Keeps.getD | apply State.cfgWrite_keeps
    | apply State.writePage_keeps | apply State.writeTable_keeps
    | ((fail_if_no_progress extract_lets +onlyGivenNames x); first | ((first | refine Keeps.cut (t := x) ?_ ?_ | refine Keeps.cutO (o := x) ?_ ?_ | refine Keeps.cutP (o := x) ?_ ?_ | refine Keeps.cut1 (o := x) ?_ ?_ | refine Keeps.cut2 (o := x) ?_ ?_); rotate_left; (clear_value x; intro hx); rotate_left; (try subst x)) | (have _h := Keeps.memv x; clear _h) | (have _h := Keeps.bytesv x; clear _h) | (have _h := Keeps.fn x; clear _h; dsimp only [x]; clear x) | (have _h := Keeps.fn2 x; clear _h; dsimp only [x]; clear x) | clear_value x)
    | (fail_if_no_progress refine Keeps.upd ?_ ⟨rfl, rfl, rfl, rfl, rfl⟩)
    | (fail_if_no_progress ((apply Keeps.of_mk; (focus exact rfl); (focus exact rfl)); (with_unfolding_all focus first | (exact fun w => w) | exact SMap.wf_set _ _ | exact SMap.wf_filter _); (with_unfolding_all focus first | (exact fun w => w) | exact SMap.wf_putBytes _ _ | exact SMap.wf_clearRange _ _ | exact SMap.wf_filter _ | (exact fun w => SMap.wf_foldl_set _ _ _ (SMap.wf_clearRange _ _ w)) | (exact fun _ => SMap.wf_nil' _)); (focus first | exact Nat.le_refl _ | exact Nat.le_succ _ | exact Nat.le_add_right _ _)))
    | apply Keeps.foldl1 | apply Keeps.foldl2 | apply Keeps.ite1 | apply Keeps.ite2
    | refine KeepsP.some_keeps (by assumption) _ _ (by assumption)
    | refine KeepsO.oSome (by assumption) (by assumption) | refine KeepsO.oSome (by assumption) rfl
    | refine KeepsP.some_keeps (by assumption) _ _ rfl | apply KeepsP.map | refine Keeps1.keeps (by assumption)
    | refine Keeps2.keeps (by assumption) | exact KeepsO.none _ | apply KeepsO.some | apply KeepsO.ite
    | apply KeepsO.foldl | exact KeepsP.none _ | apply KeepsP.some | apply KeepsP.ite | apply Keeps1.mk'
    | apply Keeps1.ite | apply Keeps1.foldl | apply Keeps2.mk' | apply Keeps2.ite | apply Keeps2.foldl | intro _ _ _
    | intro _ _ | intro _ | split | (fail_if_no_progress dsimp only) | refine KeepsO.oSome ?_ (by assumption)
    | refine KeepsP.some_keeps ?_ _ _ (by assumption) | refine Keeps1.eq ?_ (by assumption)
    | refine Keeps2.eq ?_ (by assumption)

theorem execRegisterWrite_keeps {r0_ s : State} {m : Master} {a : RegAddr} {be : BitVec 4} {v : Word} {hi : Option (BitVec 4 × Word)} (h_ : Keeps r0_ s) : KeepsR r0_ (execRegisterWrite m a be v s hi) := by
  unfold execRegisterWrite
  with_reducible repeat' first
    | assumption | apply KeepsR.next | exact KeepsR.fault _ _ | apply KeepsR.ite | apply Keeps.ite
    | apply Keeps.foldl | apply Keeps.getD | apply State.writeAt_keeps
    | ((fail_if_no_progress extract_lets +onlyGivenNames x); first | ((first | refine Keeps.cut (t := x) ?_ ?_ | refine KeepsR.cut (t := x) ?_ ?_ | refine Keeps.cutO (o := x) ?_ ?_ | refine Keeps.cutP (o := x) ?_ ?_ | refine Keeps.cut1 (o := x) ?_ ?_ | refine Keeps.cut2 (o := x) ?_ ?_); rotate_left; (clear_value x; intro hx); rotate_left; (try subst x)) | (have _h := Keeps.memv x; clear _h) | (have _h := Keeps.bytesv x; clear _h) | (have _h := Keeps.fn x; clear _h; dsimp only [x]; clear x) | (have _h := Keeps.fn2 x; clear _h; dsimp only [x]; clear x) | clear_value x)
    | (fail_if_no_progress refine Keeps.upd ?_ ⟨rfl, rfl, rfl, rfl, rfl⟩)
    | (fail_if_no_progress ((apply Keeps.of_mk; (focus exact rfl); (focus exact rfl)); (with_unfolding_all focus first | (exact fun w => w) | exact SMap.wf_set _ _ | exact SMap.wf_filter _); (with_unfolding_all focus first | (exact fun w => w) | exact SMap.wf_putBytes _ _ | exact SMap.wf_clearRange _ _ | exact SMap.wf_filter _ | (exact fun w => SMap.wf_foldl_set _ _ _ (SMap.wf_clearRange _ _ w)) | (exact fun _ => SMap.wf_nil' _)); (focus first | exact Nat.le_refl _ | exact Nat.le_succ _ | exact Nat.le_add_right _ _)))
    | apply Keeps.foldl1 | apply Keeps.foldl2 | apply Keeps.ite1 | apply Keeps.ite2
    | refine KeepsP.some_keeps (by assumption) _ _ (by assumption)
    | refine KeepsO.oSome (by assumption) (by assumption) | refine KeepsO.oSome (by assumption) rfl
    | refine KeepsP.some_keeps (by assumption) _ _ rfl | apply KeepsP.map | refine Keeps1.keeps (by assumption)
    | refine Keeps2.keeps (by assumption) | exact KeepsO.none _ | apply KeepsO.some | apply KeepsO.ite
    | apply KeepsO.foldl | exact KeepsP.none _ | apply KeepsP.some | apply KeepsP.ite | apply Keeps1.mk'
    | apply Keeps1.ite | apply Keeps1.foldl | apply Keeps2.mk' | apply Keeps2.ite | apply Keeps2.foldl | intro _ _ _
    | intro _ _ | intro _ | split | (fail_if_no_progress dsimp only) | refine KeepsO.oSome ?_ (by assumption)
    | refine KeepsP.some_keeps ?_ _ _ (by assumption) | refine Keeps1.eq ?_ (by assumption)
    | refine Keeps2.eq ?_ (by assumption)

theorem execOwnerWrite_keeps {r0_ s : State} {m : Master} {p : BitVec 14} {be : BitVec 4} {v : Word} (h_ : Keeps r0_ s) : KeepsR r0_ (execOwnerWrite m p be v s) := by
  unfold execOwnerWrite
  with_reducible repeat' first
    | assumption | apply KeepsR.next | apply State.writePage_keeps

theorem execLock_keeps {r0_ s : State} {m : Master} {p : BitVec 14} {be : BitVec 4} {v : Word} (h_ : Keeps r0_ s) : KeepsR r0_ (execLock m p be v s) := by
  unfold execLock
  with_reducible repeat' first
    | assumption | apply KeepsR.next | apply State.writePage_keeps

theorem execSoftReset_keeps {r0_ s : State} {m : Master} {p : BitVec 14} {be : BitVec 4} {v : Word} (h_ : Keeps r0_ s) : KeepsR r0_ (execSoftReset m p be v s) := by
  unfold execSoftReset
  with_reducible repeat' first
    | assumption | apply KeepsR.next | apply State.writePage_keeps

theorem execIrqForce_keeps {r0_ s : State} {m : Master} {p : BitVec 14} {be : BitVec 4} {v : Word} (h_ : Keeps r0_ s) : KeepsR r0_ (execIrqForce m p be v s) := by
  unfold execIrqForce
  with_reducible repeat' first
    | assumption | apply KeepsR.next | apply State.writePage_keeps

theorem execIrqStatClear_keeps {r0_ s : State} {m : Master} {p : BitVec 14} {be : BitVec 4} {v : Word} (h_ : Keeps r0_ s) : KeepsR r0_ (execIrqStatClear m p be v s) := by
  unfold execIrqStatClear
  with_reducible repeat' first
    | assumption | apply KeepsR.next | apply State.writePage_keeps

theorem execDeqHead_keeps {r0_ s : State} {m : Master} {be : BitVec 4} {v : Word} (h_ : Keeps r0_ s) : KeepsR r0_ (execDeqHead m be v s) := by
  unfold execDeqHead
  with_reducible repeat' first
    | assumption | apply KeepsR.next | apply State.writePage_keeps

theorem execDeqEnable_keeps {r0_ s : State} {m : Master} {be : BitVec 4} {v : Word} (h_ : Keeps r0_ s) : KeepsR r0_ (execDeqEnable m be v s) := by
  unfold execDeqEnable
  with_reducible repeat' first
    | assumption | apply KeepsR.next | apply State.writePage_keeps

/-! ### Sideband -/

theorem State.answer_keeps {r0_ s : State} {code : Nat} {payload : List Byte} (h_ : Keeps r0_ s) : Keeps r0_ (State.answer s code payload) := by
  unfold State.answer
  with_reducible repeat' first
    | assumption | apply State.emit_keeps

theorem State.received_keeps {r0_ s : State} {early : Bool} {f : State → State} (h_ : Keeps r0_ s)
    (hf : ∀ t, Keeps r0_ t → Keeps r0_ (f t)) : Keeps r0_ (s.received early f) := by
  unfold State.received
  with_reducible repeat' first
    | assumption | apply Keeps.ite | apply Keeps.foldl | apply Keeps.getD | apply State.inc_keeps
    | apply State.answer_keeps | apply hf
    | ((fail_if_no_progress extract_lets +onlyGivenNames x); first | ((first | refine Keeps.cut (t := x) ?_ ?_ | refine Keeps.cutO (o := x) ?_ ?_ | refine Keeps.cutP (o := x) ?_ ?_ | refine Keeps.cut1 (o := x) ?_ ?_ | refine Keeps.cut2 (o := x) ?_ ?_); rotate_left; (clear_value x; intro hx); rotate_left; (try subst x)) | (have _h := Keeps.memv x; clear _h) | (have _h := Keeps.bytesv x; clear _h) | (have _h := Keeps.fn x; clear _h; dsimp only [x]; clear x) | (have _h := Keeps.fn2 x; clear _h; dsimp only [x]; clear x) | clear_value x)
    | (fail_if_no_progress refine Keeps.upd ?_ ⟨rfl, rfl, rfl, rfl, rfl⟩)
    | (fail_if_no_progress ((apply Keeps.of_mk; (focus exact rfl); (focus exact rfl)); (with_unfolding_all focus first | (exact fun w => w) | exact SMap.wf_set _ _ | exact SMap.wf_filter _); (with_unfolding_all focus first | (exact fun w => w) | exact SMap.wf_putBytes _ _ | exact SMap.wf_clearRange _ _ | exact SMap.wf_filter _ | (exact fun w => SMap.wf_foldl_set _ _ _ (SMap.wf_clearRange _ _ w)) | (exact fun _ => SMap.wf_nil' _)); (focus first | exact Nat.le_refl _ | exact Nat.le_succ _ | exact Nat.le_add_right _ _)))
    | apply Keeps.foldl1 | apply Keeps.foldl2 | apply Keeps.ite1 | apply Keeps.ite2
    | refine KeepsP.some_keeps (by assumption) _ _ (by assumption)
    | refine KeepsO.oSome (by assumption) (by assumption) | refine KeepsO.oSome (by assumption) rfl
    | refine KeepsP.some_keeps (by assumption) _ _ rfl | apply KeepsP.map | refine Keeps1.keeps (by assumption)
    | refine Keeps2.keeps (by assumption) | exact KeepsO.none _ | apply KeepsO.some | apply KeepsO.ite
    | apply KeepsO.foldl | exact KeepsP.none _ | apply KeepsP.some | apply KeepsP.ite | apply Keeps1.mk'
    | apply Keeps1.ite | apply Keeps1.foldl | apply Keeps2.mk' | apply Keeps2.ite | apply Keeps2.foldl | intro _ _ _
    | intro _ _ | intro _ | split | (fail_if_no_progress dsimp only) | refine KeepsO.oSome ?_ (by assumption)
    | refine KeepsP.some_keeps ?_ _ _ (by assumption) | refine Keeps1.eq ?_ (by assumption)
    | refine Keeps2.eq ?_ (by assumption)

theorem State.request_keeps {r0_ s : State} {told early : Bool} {f : State → State} (h_ : Keeps r0_ s)
    (hf : ∀ t, Keeps r0_ t → Keeps r0_ (f t)) : Keeps r0_ (s.request told early f) := by
  unfold State.request
  with_reducible repeat' first
    | assumption | apply Keeps.ite | apply Keeps.foldl | apply Keeps.getD | apply State.inc_keeps
    | apply State.answer_keeps | apply State.received_keeps | apply hf
    | ((fail_if_no_progress extract_lets +onlyGivenNames x); first | ((first | refine Keeps.cut (t := x) ?_ ?_ | refine Keeps.cutO (o := x) ?_ ?_ | refine Keeps.cutP (o := x) ?_ ?_ | refine Keeps.cut1 (o := x) ?_ ?_ | refine Keeps.cut2 (o := x) ?_ ?_); rotate_left; (clear_value x; intro hx); rotate_left; (try subst x)) | (have _h := Keeps.memv x; clear _h) | (have _h := Keeps.bytesv x; clear _h) | (have _h := Keeps.fn x; clear _h; dsimp only [x]; clear x) | (have _h := Keeps.fn2 x; clear _h; dsimp only [x]; clear x) | clear_value x)
    | (fail_if_no_progress refine Keeps.upd ?_ ⟨rfl, rfl, rfl, rfl, rfl⟩)
    | (fail_if_no_progress ((apply Keeps.of_mk; (focus exact rfl); (focus exact rfl)); (with_unfolding_all focus first | (exact fun w => w) | exact SMap.wf_set _ _ | exact SMap.wf_filter _); (with_unfolding_all focus first | (exact fun w => w) | exact SMap.wf_putBytes _ _ | exact SMap.wf_clearRange _ _ | exact SMap.wf_filter _ | (exact fun w => SMap.wf_foldl_set _ _ _ (SMap.wf_clearRange _ _ w)) | (exact fun _ => SMap.wf_nil' _)); (focus first | exact Nat.le_refl _ | exact Nat.le_succ _ | exact Nat.le_add_right _ _)))
    | apply Keeps.foldl1 | apply Keeps.foldl2 | apply Keeps.ite1 | apply Keeps.ite2
    | refine KeepsP.some_keeps (by assumption) _ _ (by assumption)
    | refine KeepsO.oSome (by assumption) (by assumption) | refine KeepsO.oSome (by assumption) rfl
    | refine KeepsP.some_keeps (by assumption) _ _ rfl | apply KeepsP.map | refine Keeps1.keeps (by assumption)
    | refine Keeps2.keeps (by assumption) | exact KeepsO.none _ | apply KeepsO.some | apply KeepsO.ite
    | apply KeepsO.foldl | exact KeepsP.none _ | apply KeepsP.some | apply KeepsP.ite | apply Keeps1.mk'
    | apply Keeps1.ite | apply Keeps1.foldl | apply Keeps2.mk' | apply Keeps2.ite | apply Keeps2.foldl | intro _ _ _
    | intro _ _ | intro _ | split | (fail_if_no_progress dsimp only) | refine KeepsO.oSome ?_ (by assumption)
    | refine KeepsP.some_keeps ?_ _ _ (by assumption) | refine Keeps1.eq ?_ (by assumption)
    | refine Keeps2.eq ?_ (by assumption)

theorem execSetEndpointId_keeps {r0_ s : State} {op eid : Byte} (h_ : Keeps r0_ s) : KeepsR r0_ (execSetEndpointId op eid s) := by
  unfold execSetEndpointId
  with_reducible repeat' first
    | assumption | apply KeepsR.next | apply State.setFld_keeps | apply State.answer_keeps
    | apply State.request_keeps | intro _ _ | split

theorem execGetEndpointId_keeps {r0_ s : State}  (h_ : Keeps r0_ s) : KeepsR r0_ (execGetEndpointId s) := by
  unfold execGetEndpointId
  with_reducible repeat' first
    | assumption | apply KeepsR.next | apply State.answer_keeps | apply State.request_keeps | intro _ _

theorem execGetMctpVersionSupport_keeps {r0_ s : State} {type : Byte} (h_ : Keeps r0_ s) : KeepsR r0_ (execGetMctpVersionSupport type s) := by
  unfold execGetMctpVersionSupport
  with_reducible repeat' first
    | assumption | apply KeepsR.next | apply State.answer_keeps | apply State.request_keeps | intro _ _ | split

theorem execGetMessageTypeSupport_keeps {r0_ s : State}  (h_ : Keeps r0_ s) : KeepsR r0_ (execGetMessageTypeSupport s) := by
  unfold execGetMessageTypeSupport
  with_reducible repeat' first
    | assumption | apply KeepsR.next | apply State.answer_keeps | apply State.request_keeps | intro _ _

theorem execGetTid_keeps {r0_ s : State}  (h_ : Keeps r0_ s) : KeepsR r0_ (execGetTid s) := by
  unfold execGetTid
  with_reducible repeat' first
    | assumption | apply KeepsR.next | apply State.answer_keeps | apply State.request_keeps | intro _ _

theorem execGetPldmVersion_keeps {r0_ s : State} {type : Byte} (h_ : Keeps r0_ s) : KeepsR r0_ (execGetPldmVersion type s) := by
  unfold execGetPldmVersion
  with_reducible repeat' first
    | assumption | apply KeepsR.next | apply State.answer_keeps | apply State.request_keeps | intro _ _ | split

theorem execGetPldmTypes_keeps {r0_ s : State}  (h_ : Keeps r0_ s) : KeepsR r0_ (execGetPldmTypes s) := by
  unfold execGetPldmTypes
  with_reducible repeat' first
    | assumption | apply KeepsR.next | apply State.answer_keeps | apply State.request_keeps | intro _ _

theorem execGetPldmCommands_keeps {r0_ s : State} {type : Byte} (h_ : Keeps r0_ s) : KeepsR r0_ (execGetPldmCommands type s) := by
  unfold execGetPldmCommands
  with_reducible repeat' first
    | assumption | apply KeepsR.next | apply State.answer_keeps | apply State.request_keeps | intro _ _ | split

theorem execGetSensorReading_keeps {r0_ s : State} {sensor : BitVec 16} (h_ : Keeps r0_ s) : KeepsR r0_ (execGetSensorReading sensor s) := by
  unfold execGetSensorReading
  with_reducible repeat' first
    | assumption | apply KeepsR.next | apply State.answer_keeps | apply State.request_keeps | intro _ _ | split

theorem execGetPdrRepositoryInfo_keeps {r0_ s : State}  (h_ : Keeps r0_ s) : KeepsR r0_ (execGetPdrRepositoryInfo s) := by
  unfold execGetPdrRepositoryInfo
  with_reducible repeat' first
    | assumption | apply KeepsR.next | apply State.answer_keeps | apply State.request_keeps | intro _ _

theorem execGetPdr_keeps {r0_ s : State} {record : Word} (h_ : Keeps r0_ s) : KeepsR r0_ (execGetPdr record s) := by
  unfold execGetPdr
  with_reducible repeat' first
    | assumption | apply KeepsR.next | apply State.answer_keeps | apply State.request_keeps | intro _ _ | split

theorem State.setUpdate_keeps {r0_ s : State} {u : Option Update} (h_ : Keeps r0_ s) : Keeps r0_ (State.setUpdate s u) := by
  unfold State.setUpdate
  with_reducible repeat' first
    | assumption | (fail_if_no_progress refine Keeps.upd ?_ ⟨rfl, rfl, rfl, rfl, rfl⟩)

theorem State.firmware_keeps {r0_ s : State} {name : String} {args : List Nat} (h_ : Keeps r0_ s) : Keeps r0_ (State.firmware s name args) := by
  unfold State.firmware
  with_reducible repeat' first
    | assumption | apply State.emit_keeps

theorem execRequestUpdate_keeps {r0_ s : State}  (h_ : Keeps r0_ s) : KeepsR r0_ (execRequestUpdate s) := by
  unfold execRequestUpdate
  with_reducible repeat' first
    | assumption | apply KeepsR.next | apply State.answer_keeps | apply State.request_keeps
    | apply State.setUpdate_keeps | intro _ _ | split

theorem execPassComponentTable_keeps {r0_ s : State} {classification identifier : BitVec 16} {_stamp : Word} (h_ : Keeps r0_ s) : KeepsR r0_ (execPassComponentTable classification identifier _stamp s) := by
  unfold execPassComponentTable
  with_reducible repeat' first
    | assumption | apply KeepsR.next | apply State.answer_keeps | apply State.request_keeps
    | apply State.setUpdate_keeps | intro _ _ | split

theorem State.askChunk_keeps {r0_ s : State} {u : Update} (h_ : Keeps r0_ s) : Keeps r0_ (State.askChunk s u) := by
  unfold State.askChunk
  with_reducible repeat' first
    | assumption | apply State.setUpdate_keeps | apply State.firmware_keeps

theorem State.updateFails_keeps {r0_ s : State} {u : Update} {name : String} (h_ : Keeps r0_ s) : Keeps r0_ (State.updateFails s u name) := by
  unfold State.updateFails
  with_reducible repeat' first
    | assumption | apply State.flashErase_keeps | apply State.setUpdate_keeps | apply State.firmware_keeps

theorem execUpdateComponent_keeps {r0_ s : State} {size : Nat} {eraseOk : Bool} (h_ : Keeps r0_ s) : KeepsR r0_ (execUpdateComponent size eraseOk s) := by
  unfold execUpdateComponent
  with_reducible repeat' first
    | assumption | apply KeepsR.next | apply State.latch_keeps | apply State.flashErase_keeps
    | apply State.answer_keeps | apply State.request_keeps | apply State.askChunk_keeps
    | apply State.updateFails_keeps | intro _ _ | split

theorem State.verifyBank_keeps {r0_ s : State} {u : Update} (h_ : Keeps r0_ s) : Keeps r0_ (State.verifyBank s u) := by
  unfold State.verifyBank
  with_reducible repeat' first
    | assumption | apply Keeps.ite | apply State.setUpdate_keeps | apply State.firmware_keeps
    | apply State.updateFails_keeps

theorem execRequestFirmwareData_keeps {r0_ s : State} {chunk : List Byte} {programOk : Bool} (h_ : Keeps r0_ s) : KeepsR r0_ (execRequestFirmwareData chunk programOk s) := by
  unfold execRequestFirmwareData
  with_reducible repeat' first
    | assumption | apply KeepsR.next | exact KeepsR.fault _ _ | apply KeepsR.ite | apply Keeps.ite
    | apply Keeps.foldl | apply Keeps.getD | apply State.latch_keeps | apply State.flashWr_keeps
    | apply State.received_keeps | apply State.setUpdate_keeps | apply State.askChunk_keeps
    | apply State.updateFails_keeps | apply State.verifyBank_keeps
    | ((fail_if_no_progress extract_lets +onlyGivenNames x); first | ((first | refine Keeps.cut (t := x) ?_ ?_ | refine KeepsR.cut (t := x) ?_ ?_ | refine Keeps.cutO (o := x) ?_ ?_ | refine Keeps.cutP (o := x) ?_ ?_ | refine Keeps.cut1 (o := x) ?_ ?_ | refine Keeps.cut2 (o := x) ?_ ?_); rotate_left; (clear_value x; intro hx); rotate_left; (try subst x)) | (have _h := Keeps.memv x; clear _h) | (have _h := Keeps.bytesv x; clear _h) | (have _h := Keeps.fn x; clear _h; dsimp only [x]; clear x) | (have _h := Keeps.fn2 x; clear _h; dsimp only [x]; clear x) | clear_value x)
    | (fail_if_no_progress refine Keeps.upd ?_ ⟨rfl, rfl, rfl, rfl, rfl⟩)
    | (fail_if_no_progress ((apply Keeps.of_mk; (focus exact rfl); (focus exact rfl)); (with_unfolding_all focus first | (exact fun w => w) | exact SMap.wf_set _ _ | exact SMap.wf_filter _); (with_unfolding_all focus first | (exact fun w => w) | exact SMap.wf_putBytes _ _ | exact SMap.wf_clearRange _ _ | exact SMap.wf_filter _ | (exact fun w => SMap.wf_foldl_set _ _ _ (SMap.wf_clearRange _ _ w)) | (exact fun _ => SMap.wf_nil' _)); (focus first | exact Nat.le_refl _ | exact Nat.le_succ _ | exact Nat.le_add_right _ _)))
    | apply Keeps.foldl1 | apply Keeps.foldl2 | apply Keeps.ite1 | apply Keeps.ite2
    | refine KeepsP.some_keeps (by assumption) _ _ (by assumption)
    | refine KeepsO.oSome (by assumption) (by assumption) | refine KeepsO.oSome (by assumption) rfl
    | refine KeepsP.some_keeps (by assumption) _ _ rfl | apply KeepsP.map | refine Keeps1.keeps (by assumption)
    | refine Keeps2.keeps (by assumption) | exact KeepsO.none _ | apply KeepsO.some | apply KeepsO.ite
    | apply KeepsO.foldl | exact KeepsP.none _ | apply KeepsP.some | apply KeepsP.ite | apply Keeps1.mk'
    | apply Keeps1.ite | apply Keeps1.foldl | apply Keeps2.mk' | apply Keeps2.ite | apply Keeps2.foldl | intro _ _ _
    | intro _ _ | intro _ | split | (fail_if_no_progress dsimp only) | refine KeepsO.oSome ?_ (by assumption)
    | refine KeepsP.some_keeps ?_ _ _ (by assumption) | refine Keeps1.eq ?_ (by assumption)
    | refine Keeps2.eq ?_ (by assumption)

theorem execActivateFirmware_keeps {r0_ s : State} {selfContained : Bool} (h_ : Keeps r0_ s) : KeepsR r0_ (execActivateFirmware selfContained s) := by
  unfold execActivateFirmware
  with_reducible repeat' first
    | assumption | apply KeepsR.next | apply State.writeSelect_keeps | apply State.packageReset_keeps
    | apply State.activate_keeps | apply State.answer_keeps | apply State.request_keeps | apply State.setUpdate_keeps
    | ((fail_if_no_progress extract_lets +onlyGivenNames x); first | ((first | refine Keeps.cut (t := x) ?_ ?_ | refine KeepsR.cut (t := x) ?_ ?_); rotate_left; (clear_value x; intro hx); rotate_left; (try subst x)) | clear_value x)
    | intro _ _ | split

theorem State.bmcWrite_keeps {r0_ s : State} {p off v : Nat} (h_ : Keeps r0_ s) : Keeps r0_ (State.bmcWrite s p off v) := by
  unfold State.bmcWrite
  with_reducible repeat' first
    | assumption | apply State.writePage_keeps

theorem State.vendor_keeps {r0_ s : State} {n : Option Nat} {o : Bool} {f : State → State} (h_ : Keeps r0_ s)
    (hf : ∀ t, Keeps r0_ t → Keeps r0_ (f t)) : Keeps r0_ (s.vendor n o f) := by
  unfold State.vendor
  with_reducible repeat' first
    | assumption | apply Keeps.ite | apply Keeps.foldl | apply Keeps.getD | apply State.answer_keeps
    | apply State.request_keeps | apply hf
    | ((fail_if_no_progress extract_lets +onlyGivenNames x); first | ((first | refine Keeps.cut (t := x) ?_ ?_ | refine Keeps.cutO (o := x) ?_ ?_ | refine Keeps.cutP (o := x) ?_ ?_ | refine Keeps.cut1 (o := x) ?_ ?_ | refine Keeps.cut2 (o := x) ?_ ?_); rotate_left; (clear_value x; intro hx); rotate_left; (try subst x)) | (have _h := Keeps.memv x; clear _h) | (have _h := Keeps.bytesv x; clear _h) | (have _h := Keeps.fn x; clear _h; dsimp only [x]; clear x) | (have _h := Keeps.fn2 x; clear _h; dsimp only [x]; clear x) | clear_value x)
    | (fail_if_no_progress refine Keeps.upd ?_ ⟨rfl, rfl, rfl, rfl, rfl⟩)
    | (fail_if_no_progress ((apply Keeps.of_mk; (focus exact rfl); (focus exact rfl)); (with_unfolding_all focus first | (exact fun w => w) | exact SMap.wf_set _ _ | exact SMap.wf_filter _); (with_unfolding_all focus first | (exact fun w => w) | exact SMap.wf_putBytes _ _ | exact SMap.wf_clearRange _ _ | exact SMap.wf_filter _ | (exact fun w => SMap.wf_foldl_set _ _ _ (SMap.wf_clearRange _ _ w)) | (exact fun _ => SMap.wf_nil' _)); (focus first | exact Nat.le_refl _ | exact Nat.le_succ _ | exact Nat.le_add_right _ _)))
    | apply Keeps.foldl1 | apply Keeps.foldl2 | apply Keeps.ite1 | apply Keeps.ite2
    | refine KeepsP.some_keeps (by assumption) _ _ (by assumption)
    | refine KeepsO.oSome (by assumption) (by assumption) | refine KeepsO.oSome (by assumption) rfl
    | refine KeepsP.some_keeps (by assumption) _ _ rfl | apply KeepsP.map | refine Keeps1.keeps (by assumption)
    | refine Keeps2.keeps (by assumption) | exact KeepsO.none _ | apply KeepsO.some | apply KeepsO.ite
    | apply KeepsO.foldl | exact KeepsP.none _ | apply KeepsP.some | apply KeepsP.ite | apply Keeps1.mk'
    | apply Keeps1.ite | apply Keeps1.foldl | apply Keeps2.mk' | apply Keeps2.ite | apply Keeps2.foldl | intro _ _ _
    | intro _ _ | intro _ | split | (fail_if_no_progress dsimp only) | refine KeepsO.oSome ?_ (by assumption)
    | refine KeepsP.some_keeps ?_ _ _ (by assumption) | refine Keeps1.eq ?_ (by assumption)
    | refine Keeps2.eq ?_ (by assumption)

theorem execGetInfo_keeps {r0_ s : State} {payload : List Byte} {session : Option Nat} (h_ : Keeps r0_ s) : KeepsR r0_ (execGetInfo payload session s) := by
  unfold execGetInfo
  with_reducible repeat' first
    | assumption | apply KeepsR.next | apply State.answer_keeps | apply State.vendor_keeps | intro _ _ | split

theorem execSetCoord_keeps {r0_ s : State} {payload : List Byte} {session : Option Nat} (h_ : Keeps r0_ s) : KeepsR r0_ (execSetCoord payload session s) := by
  unfold execSetCoord
  with_reducible repeat' first
    | assumption | apply KeepsR.next | apply Keeps.ite | apply State.answer_keeps | apply State.bmcWrite_keeps
    | apply State.vendor_keeps | intro _ _

theorem execGetCoord_keeps {r0_ s : State} {payload : List Byte} {session : Option Nat} (h_ : Keeps r0_ s) : KeepsR r0_ (execGetCoord payload session s) := by
  unfold execGetCoord
  with_reducible repeat' first
    | assumption | apply KeepsR.next | apply State.answer_keeps | apply State.vendor_keeps | intro _ _ | split

theorem execRigPlan_keeps {r0_ s : State} {payload : List Byte} {session : Option Nat} (h_ : Keeps r0_ s) : KeepsR r0_ (execRigPlan payload session s) := by
  unfold execRigPlan
  with_reducible repeat' first
    | assumption | apply KeepsR.next | apply Keeps.ite | apply Keeps.foldl | apply State.answer_keeps
    | apply State.bmcWrite_keeps | apply State.vendor_keeps | intro _ _

theorem execRigStatus_keeps {r0_ s : State} {payload : List Byte} {session : Option Nat} (h_ : Keeps r0_ s) : KeepsR r0_ (execRigStatus payload session s) := by
  unfold execRigStatus
  with_reducible repeat' first
    | assumption | apply KeepsR.next | apply State.answer_keeps | apply State.vendor_keeps | intro _ _ | split

theorem execPowerOrder_keeps {r0_ s : State} {payload : List Byte} {session : Option Nat} (h_ : Keeps r0_ s) : KeepsR r0_ (execPowerOrder payload session s) := by
  unfold execPowerOrder
  with_reducible repeat' first
    | assumption | apply KeepsR.next | apply Keeps.ite | apply State.answer_keeps | apply State.bmcWrite_keeps
    | apply State.vendor_keeps | intro _ _

theorem execPowerStatus_keeps {r0_ s : State} {payload : List Byte} {session : Option Nat} (h_ : Keeps r0_ s) : KeepsR r0_ (execPowerStatus payload session s) := by
  unfold execPowerStatus
  with_reducible repeat' first
    | assumption | apply KeepsR.next | apply State.answer_keeps | apply State.vendor_keeps | intro _ _ | split

theorem execFaultPeek_keeps {r0_ s : State} {payload : List Byte} {session : Option Nat} (h_ : Keeps r0_ s) : KeepsR r0_ (execFaultPeek payload session s) := by
  unfold execFaultPeek
  with_reducible repeat' first
    | assumption | apply KeepsR.next | apply State.answer_keeps | apply State.vendor_keeps | intro _ _ | split

theorem execFaultLog_keeps {r0_ s : State} {payload : List Byte} {session : Option Nat} (h_ : Keeps r0_ s) : KeepsR r0_ (execFaultLog payload session s) := by
  unfold execFaultLog
  with_reducible repeat' first
    | assumption | apply KeepsR.next | apply State.answer_keeps | apply State.vendor_keeps | intro _ _ | split

theorem State.bmcRead_keeps2 {r0_ s : State} {p off : Nat} {n_ : Nat} (h_ : Keeps r0_ s) : Keeps2 r0_ (State.bmcRead s p off n_) := by
  induction n_ generalizing s p off with
  | zero =>
    unfold State.bmcRead
    with_reducible repeat' first
      | assumption | apply Keeps2.mk' | refine (State.readReg_keeps2 ?_).keeps | refine (ih ?_).keeps
  | succ n ih =>
    unfold State.bmcRead
    with_reducible repeat' first
      | assumption | apply Keeps2.mk' | refine (State.readReg_keeps2 ?_).keeps | refine (ih ?_).keeps

theorem execRegRead_keeps {r0_ s : State} {payload : List Byte} {session : Option Nat} (h_ : Keeps r0_ s) : KeepsR r0_ (execRegRead payload session s) := by
  unfold execRegRead
  with_reducible repeat' first
    | assumption | apply KeepsR.next | apply Keeps.ite | apply State.answer_keeps | apply State.vendor_keeps
    | refine (State.bmcRead_keeps2 ?_).keeps | intro _ _

theorem execRegWrite_keeps {r0_ s : State} {payload : List Byte} {session : Option Nat} (h_ : Keeps r0_ s) : KeepsR r0_ (execRegWrite payload session s) := by
  unfold execRegWrite
  with_reducible repeat' first
    | assumption | apply KeepsR.next | apply Keeps.ite | apply State.answer_keeps | apply State.bmcWrite_keeps
    | apply State.vendor_keeps | intro _ _

theorem execResetCommand_keeps {r0_ s : State} {payload : List Byte} {session : Option Nat} (h_ : Keeps r0_ s) : KeepsR r0_ (execResetCommand payload session s) := by
  unfold execResetCommand
  with_reducible repeat' first
    | assumption | apply KeepsR.next | apply Keeps.ite | apply State.answer_keeps | apply State.bmcWrite_keeps
    | apply State.vendor_keeps | intro _ _

theorem execJury_keeps {r0_ s : State} {payload : List Byte} {session : Option Nat} (h_ : Keeps r0_ s) : KeepsR r0_ (execJury payload session s) := by
  unfold execJury
  with_reducible repeat' first
    | assumption | apply KeepsR.next | apply Keeps.ite | apply State.answer_keeps | apply State.bmcWrite_keeps
    | apply State.vendor_keeps | intro _ _

theorem State.spdmSay_keeps {r0_ s : State} {name : String} {data : List Nat} (h_ : Keeps r0_ s) : Keeps r0_ (State.spdmSay s name data) := by
  unfold State.spdmSay
  with_reducible repeat' first
    | assumption | apply State.emit_keeps

theorem State.spdmSign_keeps {r0_ s : State} {name : String} {data : List Nat} (h_ : Keeps r0_ s) : Keeps r0_ (State.spdmSign s name data) := by
  unfold State.spdmSign
  with_reducible repeat' first
    | assumption | apply State.spdmSay_keeps
    | (fail_if_no_progress ((apply Keeps.of_mk; (focus exact rfl); (focus exact rfl)); (with_unfolding_all focus first | (exact fun w => w) | exact SMap.wf_set _ _ | exact SMap.wf_filter _); (with_unfolding_all focus first | (exact fun w => w) | exact SMap.wf_putBytes _ _ | exact SMap.wf_clearRange _ _ | exact SMap.wf_filter _ | (exact fun w => SMap.wf_foldl_set _ _ _ (SMap.wf_clearRange _ _ w)) | (exact fun _ => SMap.wf_nil' _)); (focus first | exact Nat.le_refl _ | exact Nat.le_succ _ | exact Nat.le_add_right _ _)))

theorem State.spdmError_keeps {r0_ s : State} {code : Nat} (h_ : Keeps r0_ s) : Keeps r0_ (State.spdmError s code) := by
  unfold State.spdmError
  with_reducible repeat' first
    | assumption | apply State.spdmSay_keeps

theorem State.spdm_keeps {r0_ s : State} {r : SpdmReq} (h_ : Keeps r0_ s) : Keeps r0_ (State.spdm s r) := by
  unfold State.spdm
  with_reducible repeat' first
    | assumption | apply State.latch_keeps | apply State.spdmSay_keeps | apply State.spdmSign_keeps
    | apply State.spdmError_keeps
    | ((fail_if_no_progress extract_lets +onlyGivenNames x); first | ((first | refine Keeps.cut (t := x) ?_ ?_ | refine Keeps.cutO (o := x) ?_ ?_ | refine Keeps.cutP (o := x) ?_ ?_ | refine Keeps.cut1 (o := x) ?_ ?_ | refine Keeps.cut2 (o := x) ?_ ?_); rotate_left; (clear_value x; intro hx); rotate_left; (try subst x)) | (have _h := Keeps.memv x; clear _h) | (have _h := Keeps.bytesv x; clear _h) | (have _h := Keeps.fn x; clear _h; dsimp only [x]; clear x) | (have _h := Keeps.fn2 x; clear _h; dsimp only [x]; clear x) | clear_value x)
    | (fail_if_no_progress refine Keeps.upd ?_ ⟨rfl, rfl, rfl, rfl, rfl⟩) | split

theorem execSpdmRequest_keeps {r0_ s : State} {r : SpdmReq} {doe : Bool} (h_ : Keeps r0_ s) : KeepsR r0_ (execSpdmRequest r doe s) := by
  unfold execSpdmRequest
  with_reducible repeat' first
    | assumption | apply KeepsR.next | apply State.request_keeps | apply State.spdm_keeps | intro _ _ | split

theorem execSessionEnd_keeps {r0_ s : State} {id : Nat} (h_ : Keeps r0_ s) : KeepsR r0_ (execSessionEnd id s) := by
  unfold execSessionEnd
  with_reducible repeat' first
    | assumption | apply KeepsR.next | (fail_if_no_progress refine Keeps.upd ?_ ⟨rfl, rfl, rfl, rfl, rfl⟩)

theorem execSmbTimeout_keeps {r0_ s : State}  (h_ : Keeps r0_ s) : KeepsR r0_ (execSmbTimeout s) := by
  unfold execSmbTimeout
  with_reducible repeat' first
    | assumption | apply KeepsR.next | apply State.latch_keeps | split

theorem execReassembly_keeps {r0_ s : State}  (h_ : Keeps r0_ s) : KeepsR r0_ (execReassembly s) := by
  unfold execReassembly
  with_reducible repeat' first
    | assumption | apply KeepsR.next | apply State.latch_keeps | split

theorem execPecError_keeps {r0_ s : State}  (h_ : Keeps r0_ s) : KeepsR r0_ (execPecError s) := by
  unfold execPecError
  with_reducible repeat' first
    | assumption | apply KeepsR.next | apply State.inc_keeps | split

/-! ### Agents -/

theorem State.startBehind_keeps {r0_ s : State} {a : Agent} {l : List AgentItem} (h_ : Keeps r0_ s) :
    Keeps r0_ (s.startBehind a l) := by
  induction l generalizing s with
  | nil => exact h_
  | cons x l ih =>
    cases x with
    | fence => exact State.waitSync_keeps h_
    | mem o => exact ih (State.beginOp_keeps h_)
    | write p be v =>
      refine ih ?_
      split
      · exact State.writeAt_keeps h_
      · exact h_
    | read p be =>
      refine ih ?_
      split
      · exact State.readAt_keeps h_
      · exact h_
    | peek p be =>
      refine ih ?_
      split
      · exact State.peekAt_keeps h_
      · exact h_

theorem execSyncComplete_keeps {r0_ s : State} {a : Agent} (h_ : Keeps r0_ s) : KeepsR r0_ (execSyncComplete a s) := by
  unfold execSyncComplete
  with_reducible repeat' first
    | assumption | apply KeepsR.next | exact KeepsR.fault _ _ | apply KeepsR.ite | apply Keeps.ite
    | apply Keeps.foldl | apply Keeps.getD | apply State.setAgent_keeps | apply State.advanceAll_keeps
    | apply State.startBehind_keeps
    | ((fail_if_no_progress extract_lets +onlyGivenNames x); first | ((first | refine Keeps.cut (t := x) ?_ ?_ | refine KeepsR.cut (t := x) ?_ ?_ | refine Keeps.cutO (o := x) ?_ ?_ | refine Keeps.cutP (o := x) ?_ ?_ | refine Keeps.cut1 (o := x) ?_ ?_ | refine Keeps.cut2 (o := x) ?_ ?_); rotate_left; (clear_value x; intro hx); rotate_left; (try subst x)) | (have _h := Keeps.memv x; clear _h) | (have _h := Keeps.bytesv x; clear _h) | (have _h := Keeps.fn x; clear _h; dsimp only [x]; clear x) | (have _h := Keeps.fn2 x; clear _h; dsimp only [x]; clear x) | clear_value x)
    | (fail_if_no_progress refine Keeps.upd ?_ ⟨rfl, rfl, rfl, rfl, rfl⟩)
    | (fail_if_no_progress ((apply Keeps.of_mk; (focus exact rfl); (focus exact rfl)); (with_unfolding_all focus first | (exact fun w => w) | exact SMap.wf_set _ _ | exact SMap.wf_filter _); (with_unfolding_all focus first | (exact fun w => w) | exact SMap.wf_putBytes _ _ | exact SMap.wf_clearRange _ _ | exact SMap.wf_filter _ | (exact fun w => SMap.wf_foldl_set _ _ _ (SMap.wf_clearRange _ _ w)) | (exact fun _ => SMap.wf_nil' _)); (focus first | exact Nat.le_refl _ | exact Nat.le_succ _ | exact Nat.le_add_right _ _)))
    | apply Keeps.foldl1 | apply Keeps.foldl2 | apply Keeps.ite1 | apply Keeps.ite2
    | refine KeepsP.some_keeps (by assumption) _ _ (by assumption)
    | refine KeepsO.oSome (by assumption) (by assumption) | refine KeepsO.oSome (by assumption) rfl
    | refine KeepsP.some_keeps (by assumption) _ _ rfl | apply KeepsP.map | refine Keeps1.keeps (by assumption)
    | refine Keeps2.keeps (by assumption) | exact KeepsO.none _ | apply KeepsO.some | apply KeepsO.ite
    | apply KeepsO.foldl | exact KeepsP.none _ | apply KeepsP.some | apply KeepsP.ite | apply Keeps1.mk'
    | apply Keeps1.ite | apply Keeps1.foldl | apply Keeps2.mk' | apply Keeps2.ite | apply Keeps2.foldl | intro _ _ _
    | intro _ _ | intro _ | split | (fail_if_no_progress dsimp only) | refine KeepsO.oSome ?_ (by assumption)
    | refine KeepsP.some_keeps ?_ _ _ (by assumption) | refine Keeps1.eq ?_ (by assumption)
    | refine Keeps2.eq ?_ (by assumption)

theorem State.wakeMacro_keeps {r0_ s : State} {x : MacroSt} (h_ : Keeps r0_ s) : Keeps r0_ (State.wakeMacro s x) := by
  unfold State.wakeMacro
  with_reducible repeat' first
    | assumption | apply Keeps.ite | apply Keeps.foldl | apply Keeps.getD | apply State.setFlight_keeps
    | apply State.advance_keeps
    | ((fail_if_no_progress extract_lets +onlyGivenNames x); first | ((first | refine Keeps.cut (t := x) ?_ ?_ | refine Keeps.cutO (o := x) ?_ ?_ | refine Keeps.cutP (o := x) ?_ ?_ | refine Keeps.cut1 (o := x) ?_ ?_ | refine Keeps.cut2 (o := x) ?_ ?_); rotate_left; (clear_value x; intro hx); rotate_left; (try subst x)) | (have _h := Keeps.memv x; clear _h) | (have _h := Keeps.bytesv x; clear _h) | (have _h := Keeps.fn x; clear _h; dsimp only [x]; clear x) | (have _h := Keeps.fn2 x; clear _h; dsimp only [x]; clear x) | clear_value x)
    | (fail_if_no_progress refine Keeps.upd ?_ ⟨rfl, rfl, rfl, rfl, rfl⟩)
    | (fail_if_no_progress ((apply Keeps.of_mk; (focus exact rfl); (focus exact rfl)); (with_unfolding_all focus first | (exact fun w => w) | exact SMap.wf_set _ _ | exact SMap.wf_filter _); (with_unfolding_all focus first | (exact fun w => w) | exact SMap.wf_putBytes _ _ | exact SMap.wf_clearRange _ _ | exact SMap.wf_filter _ | (exact fun w => SMap.wf_foldl_set _ _ _ (SMap.wf_clearRange _ _ w)) | (exact fun _ => SMap.wf_nil' _)); (focus first | exact Nat.le_refl _ | exact Nat.le_succ _ | exact Nat.le_add_right _ _)))
    | apply Keeps.foldl1 | apply Keeps.foldl2 | apply Keeps.ite1 | apply Keeps.ite2
    | refine KeepsP.some_keeps (by assumption) _ _ (by assumption)
    | refine KeepsO.oSome (by assumption) (by assumption) | refine KeepsO.oSome (by assumption) rfl
    | refine KeepsP.some_keeps (by assumption) _ _ rfl | apply KeepsP.map | refine Keeps1.keeps (by assumption)
    | refine Keeps2.keeps (by assumption) | exact KeepsO.none _ | apply KeepsO.some | apply KeepsO.ite
    | apply KeepsO.foldl | exact KeepsP.none _ | apply KeepsP.some | apply KeepsP.ite | apply Keeps1.mk'
    | apply Keeps1.ite | apply Keeps1.foldl | apply Keeps2.mk' | apply Keeps2.ite | apply Keeps2.foldl | intro _ _ _
    | intro _ _ | intro _ | split | (fail_if_no_progress dsimp only) | refine KeepsO.oSome ?_ (by assumption)
    | refine KeepsP.some_keeps ?_ _ _ (by assumption) | refine Keeps1.eq ?_ (by assumption)
    | refine Keeps2.eq ?_ (by assumption)

theorem State.drain_keeps {r0_ s : State} {fuel : Nat} (h_ : Keeps r0_ s) : Keeps r0_ (State.drain fuel s) := by
  induction fuel generalizing s with
  | zero => exact h_
  | succ n ih =>
    unfold State.drain
    dsimp only
    refine Keeps.ite h_ ?_
    split
    · exact ih (State.performAt_keeps (State.chosen_keeps h_))
    · exact ih (State.wakeMacro_keeps (State.chosen_keeps h_))
    · exact State.chosen_keeps h_

/-! ### Idle -/

theorem State.endCycle_keeps {r0_ s : State}  (h_ : Keeps r0_ s) : Keeps r0_ (State.endCycle s) := by
  unfold State.endCycle
  with_reducible repeat' first
    | assumption | apply Keeps.ite | apply Keeps.foldl | apply Keeps.getD | apply State.nextCycle_keeps
    | ((fail_if_no_progress extract_lets +onlyGivenNames x); first | ((first | refine Keeps.cut (t := x) ?_ ?_ | refine Keeps.cutO (o := x) ?_ ?_ | refine Keeps.cutP (o := x) ?_ ?_ | refine Keeps.cut1 (o := x) ?_ ?_ | refine Keeps.cut2 (o := x) ?_ ?_); rotate_left; (clear_value x; intro hx); rotate_left; (try subst x)) | (have _h := Keeps.memv x; clear _h) | (have _h := Keeps.bytesv x; clear _h) | (have _h := Keeps.fn x; clear _h; dsimp only [x]; clear x) | (have _h := Keeps.fn2 x; clear _h; dsimp only [x]; clear x) | clear_value x)
    | (fail_if_no_progress refine Keeps.upd ?_ ⟨rfl, rfl, rfl, rfl, rfl⟩)
    | (fail_if_no_progress ((apply Keeps.of_mk; (focus exact rfl); (focus exact rfl)); (with_unfolding_all focus first | (exact fun w => w) | exact SMap.wf_set _ _ | exact SMap.wf_filter _); (with_unfolding_all focus first | (exact fun w => w) | exact SMap.wf_putBytes _ _ | exact SMap.wf_clearRange _ _ | exact SMap.wf_filter _ | (exact fun w => SMap.wf_foldl_set _ _ _ (SMap.wf_clearRange _ _ w)) | (exact fun _ => SMap.wf_nil' _)); (focus first | exact Nat.le_refl _ | exact Nat.le_succ _ | exact Nat.le_add_right _ _)))
    | apply Keeps.foldl1 | apply Keeps.foldl2 | apply Keeps.ite1 | apply Keeps.ite2
    | refine KeepsP.some_keeps (by assumption) _ _ (by assumption)
    | refine KeepsO.oSome (by assumption) (by assumption) | refine KeepsO.oSome (by assumption) rfl
    | refine KeepsP.some_keeps (by assumption) _ _ rfl | apply KeepsP.map | refine Keeps1.keeps (by assumption)
    | refine Keeps2.keeps (by assumption) | exact KeepsO.none _ | apply KeepsO.some | apply KeepsO.ite
    | apply KeepsO.foldl | exact KeepsP.none _ | apply KeepsP.some | apply KeepsP.ite | apply Keeps1.mk'
    | apply Keeps1.ite | apply Keeps1.foldl | apply Keeps2.mk' | apply Keeps2.ite | apply Keeps2.foldl | intro _ _ _
    | intro _ _ | intro _ | split | (fail_if_no_progress dsimp only) | refine KeepsO.oSome ?_ (by assumption)
    | refine KeepsP.some_keeps ?_ _ _ (by assumption) | refine Keeps1.eq ?_ (by assumption)
    | refine Keeps2.eq ?_ (by assumption)

theorem State.endTick_keeps {r0_ s : State}  (h_ : Keeps r0_ s) : Keeps r0_ (State.endTick s) := by
  unfold State.endTick
  with_reducible repeat' first
    | assumption | apply Keeps.ite | apply Keeps.foldl | apply Keeps.getD
    | ((fail_if_no_progress extract_lets +onlyGivenNames x); first | ((first | refine Keeps.cut (t := x) ?_ ?_ | refine Keeps.cutO (o := x) ?_ ?_ | refine Keeps.cutP (o := x) ?_ ?_ | refine Keeps.cut1 (o := x) ?_ ?_ | refine Keeps.cut2 (o := x) ?_ ?_); rotate_left; (clear_value x; intro hx); rotate_left; (try subst x)) | (have _h := Keeps.memv x; clear _h) | (have _h := Keeps.bytesv x; clear _h) | (have _h := Keeps.fn x; clear _h; dsimp only [x]; clear x) | (have _h := Keeps.fn2 x; clear _h; dsimp only [x]; clear x) | clear_value x)
    | (fail_if_no_progress refine Keeps.upd ?_ ⟨rfl, rfl, rfl, rfl, rfl⟩)
    | (fail_if_no_progress ((apply Keeps.of_mk; (focus exact rfl); (focus exact rfl)); (with_unfolding_all focus first | (exact fun w => w) | exact SMap.wf_set _ _ | exact SMap.wf_filter _); (with_unfolding_all focus first | (exact fun w => w) | exact SMap.wf_putBytes _ _ | exact SMap.wf_clearRange _ _ | exact SMap.wf_filter _ | (exact fun w => SMap.wf_foldl_set _ _ _ (SMap.wf_clearRange _ _ w)) | (exact fun _ => SMap.wf_nil' _)); (focus first | exact Nat.le_refl _ | exact Nat.le_succ _ | exact Nat.le_add_right _ _)))
    | apply Keeps.foldl1 | apply Keeps.foldl2 | apply Keeps.ite1 | apply Keeps.ite2
    | refine KeepsP.some_keeps (by assumption) _ _ (by assumption)
    | refine KeepsO.oSome (by assumption) (by assumption) | refine KeepsO.oSome (by assumption) rfl
    | refine KeepsP.some_keeps (by assumption) _ _ rfl | apply KeepsP.map | refine Keeps1.keeps (by assumption)
    | refine Keeps2.keeps (by assumption) | exact KeepsO.none _ | apply KeepsO.some | apply KeepsO.ite
    | apply KeepsO.foldl | exact KeepsP.none _ | apply KeepsP.some | apply KeepsP.ite | apply Keeps1.mk'
    | apply Keeps1.ite | apply Keeps1.foldl | apply Keeps2.mk' | apply Keeps2.ite | apply Keeps2.foldl | intro _ _ _
    | intro _ _ | intro _ | split | (fail_if_no_progress dsimp only) | refine KeepsO.oSome ?_ (by assumption)
    | refine KeepsP.some_keeps ?_ _ _ (by assumption) | refine Keeps1.eq ?_ (by assumption)
    | refine Keeps2.eq ?_ (by assumption)

theorem State.releaseRings_keeps {r0_ s : State}  (h_ : Keeps r0_ s) : Keeps r0_ (State.releaseRings s) := by
  unfold State.releaseRings
  with_reducible repeat' first
    | assumption | apply Keeps.ite | apply Keeps.foldl | apply State.ringRelease_keeps | intro _ _ _

theorem State.idle_keeps {r0_ s : State}  (h_ : Keeps r0_ s) : Keeps r0_ (State.idle s) := by
  unfold State.idle
  with_reducible repeat' first
    | assumption | apply Keeps.ite | apply Keeps.foldl | apply Keeps.getD | apply State.fireDue_keeps
    | apply State.startWaiting_keeps | apply State.startWalks_keeps | apply State.endTraining_keeps
    | apply State.sendFlits_keeps | apply State.advanceCount_keeps | apply State.drain_keeps
    | apply State.endCycle_keeps | apply State.endTick_keeps | apply State.releaseRings_keeps
    | ((fail_if_no_progress extract_lets +onlyGivenNames x); first | ((first | refine Keeps.cut (t := x) ?_ ?_ | refine Keeps.cutO (o := x) ?_ ?_ | refine Keeps.cutP (o := x) ?_ ?_ | refine Keeps.cut1 (o := x) ?_ ?_ | refine Keeps.cut2 (o := x) ?_ ?_); rotate_left; (clear_value x; intro hx); rotate_left; (try subst x)) | (have _h := Keeps.memv x; clear _h) | (have _h := Keeps.bytesv x; clear _h) | (have _h := Keeps.fn x; clear _h; dsimp only [x]; clear x) | (have _h := Keeps.fn2 x; clear _h; dsimp only [x]; clear x) | clear_value x)
    | (fail_if_no_progress refine Keeps.upd ?_ ⟨rfl, rfl, rfl, rfl, rfl⟩)
    | (fail_if_no_progress ((apply Keeps.of_mk; (focus exact rfl); (focus exact rfl)); (with_unfolding_all focus first | (exact fun w => w) | exact SMap.wf_set _ _ | exact SMap.wf_filter _); (with_unfolding_all focus first | (exact fun w => w) | exact SMap.wf_putBytes _ _ | exact SMap.wf_clearRange _ _ | exact SMap.wf_filter _ | (exact fun w => SMap.wf_foldl_set _ _ _ (SMap.wf_clearRange _ _ w)) | (exact fun _ => SMap.wf_nil' _)); (focus first | exact Nat.le_refl _ | exact Nat.le_succ _ | exact Nat.le_add_right _ _)))
    | apply Keeps.foldl1 | apply Keeps.foldl2 | apply Keeps.ite1 | apply Keeps.ite2
    | refine KeepsP.some_keeps (by assumption) _ _ (by assumption)
    | refine KeepsO.oSome (by assumption) (by assumption) | refine KeepsO.oSome (by assumption) rfl
    | refine KeepsP.some_keeps (by assumption) _ _ rfl | apply KeepsP.map | refine Keeps1.keeps (by assumption)
    | refine Keeps2.keeps (by assumption) | exact KeepsO.none _ | apply KeepsO.some | apply KeepsO.ite
    | apply KeepsO.foldl | exact KeepsP.none _ | apply KeepsP.some | apply KeepsP.ite | apply Keeps1.mk'
    | apply Keeps1.ite | apply Keeps1.foldl | apply Keeps2.mk' | apply Keeps2.ite | apply Keeps2.foldl | intro _ _ _
    | intro _ _ | intro _ | split | (fail_if_no_progress dsimp only) | refine KeepsO.oSome ?_ (by assumption)
    | refine KeepsP.some_keeps ?_ _ _ (by assumption) | refine Keeps1.eq ?_ (by assumption)
    | refine Keeps2.eq ?_ (by assumption)

end Sys2Proof.Machine
end

