-- ==== Sys2Proof/WellFormed.lean ====
section
/-! DEFINITION. Which commands name something that the K48 has. An operand whose type is as wide as what it names needs
no check; an access or a descriptor that the spec answers with a code of its own is well formed. The meanings are total
and do not assume these checks. -/

namespace Sys2Proof

/-- The fabric's bundles (18). -/
abbrev bundleOk (b : BitVec 4) : Bool := decide (b.toNat < 12)

/-- The ratlines (21 Table 21.2). -/
abbrev ratlineOk (l : BitVec 6) : Bool := decide (l.toNat < 38)

/-- The supply rails (23 Table 23.2). -/
abbrev railOk (r : BitVec 4) : Bool := decide (r.toNat < 12)

/-- The near stacks and the far channels (08). -/
abbrev memUnitOk (t : Tier) (u : BitVec 4) : Bool :=
  match t with
  | .near => decide (u.toNat < 8)
  | .far => true

/-- A unit of 24 Table 24.3. -/
def unitOk (u : UnitId) : Bool :=
  let n := match u.type with
    | 1 => 32 | 2 => 8 | 3 => 16 | 4 => 256 | 5 => 192 | 6 => 4 | 7 => 4 | 8 => 1 | 9 => 2 | 10 => 4
    | _ => 0
  decide (u.index < n)

/-- An idle domain's indices (23 R563). -/
def idleDomainOk : IdleDomain → Bool
  | .yard i => decide (i < 32)
  | .luff i => decide (i < 8)
  | .clew i => decide (i < 16)
  | .boom k => decide (k < 4)
  | .banks k h => decide (k < 4) && decide (h.getD 0 < 128)
  | .canvas d => decide (d < 4)
  | .package => true

/-- The command names only what the K48 has. -/
def Instr.wellFormed : Instr → Bool
  | .plainLoad _ _ len _ => decide (0 < len)
  | .plainStore _ _ bs _ => decide (bs ≠ [])
  | .loadAcquire _ _ len => decide (0 < len)
  | .storeRelease _ _ bs _ => decide (bs ≠ [])
  | .patrol t u => memUnitOk t u
  | .bankRefresh t u _ => memUnitOk t u
  | .stackLost t u => memUnitOk t u
  | .cipherFault t u => memUnitOk t u
  | .memoryTrained r f _ => (r ++ f).all fun e => memUnitOk e.1 e.2
  | .data b .. => bundleOk b
  | .nak b .. => bundleOk b
  | .replayTimeout b => bundleOk b
  | .telltale b .. => bundleOk b
  | .linkTraining b .. => bundleOk b
  | .identityRecord b .. => bundleOk b
  | .identTimeout b => bundleOk b
  | .retrain b => bundleOk b
  | .los b .. => bundleOk b
  | .retryLimit b => bundleOk b
  | .replayFail b => bundleOk b
  | .creditStall b .. => bundleOk b
  | .trainFail b => bundleOk b
  | .berWarn b .. => bundleOk b
  | .segment b _ _ _ bs .. => bundleOk b && decide (bs.length ≤ 16384)
  | .holdDown _ b _ _ => bundleOk b
  | .rigCheck b => bundleOk b
  | .rigOk b => bundleOk b
  | .ratlineUnit l .. => ratlineOk l
  | .ratlineReplayTimeout l _ _ => ratlineOk l
  | .laneTest l _ => ratlineOk l
  | .laneTestEnd l _ _ _ _ => ratlineOk l
  | .ratlineRetrain l _ _ => ratlineOk l
  | .dieReturn d failed .. => decide (d.toNat < 10) && failed.all unitOk
  | .boot failed => failed.all unitOk
  | .warningCrossing r _ => railOk r
  | .releaseCrossing r _ => railOk r
  | .dipRecovered r => railOk r
  | .resetCrossing r _ => railOk r
  | .dieSupplyRelease r _ => railOk r
  | .idleEntry d => idleDomainOk d
  | .idleExit d => idleDomainOk d
  | .holdoffExpire d => idleDomainOk d
  | .selftest u _ => unitOk u
  | .selftestLate u => unitOk u
  | .bankRetire b => decide (b.toNat < 192)
  | .registerWrite .. | .rcRead .. | .fltLatchRead .. | .conflictRead .. | .ownerWrite .. | .lock .. => true
  | .softReset .. | .irqForce .. | .irqStatClear .. | .ttlNowRead .. | .faultAggregate | .deqHead .. => true
  | .deqEnable .. | .sqDoorbell .. | .eqDoorbell .. | .sqEnable .. | .sqDisable .. | .eqEnable .. => true
  | .eqDisable .. | .fetchError .. | .request .. | .cancel .. | .nop .. | .loadModel .. => true
  | .modelLoadComplete .. | .unloadModel .. | .unloadComplete .. | .outputRingReread .. => true
  | .moderationTimer .. | .vfFlr .. | .pfFlr | .hotReset | .dlDown | .sync .. | .syncComplete .. => true
  | .assign .. | .commit .. | .drain .. | .drainDone .. | .reset .. | .resetDone .. | .release .. => true
  | .teardownComplete .. | .keyFail .. | .scrubComplete .. | .deferredRerun .. | .prefixLookup .. => true
  | .prefillPageStep .. | .decodeStep .. | .resume .. | .finalPass .. | .promote .. | .demote .. => true
  | .copy .. | .burstRecheck .. | .pageCommit .. | .pmgHrTail .. | .pmgHrEnable .. | .frameRetire .. => true
  | .append .. | .pin .. | .unpin .. | .heldReserve .. | .holdTimeout .. | .bind .. | .unbind .. => true
  | .slotFree .. | .agePeriod | .reefSelect .. | .pageDrop .. | .pinHoldExpire .. | .planBind .. => true
  | .walkStart .. | .gemm .. | .copyMacro .. | .attn .. | .scatter .. | .map .. | .smaxMax .. => true
  | .smaxSum .. | .smaxOut .. | .sample .. | .normMax .. | .normSum .. | .normOut .. | .send .. => true
  | .recv .. | .allreduce .. | .allgather .. | .gather .. | .stats .. | .macroRetire .. => true
  | .bomTestStart .. | .yardRetire .. | .luffRetire .. | .clewRetire .. | .eval .. => true
  | .evaluationSlot .. | .retryRepeat .. | .programBatch .. | .verifyRead .. | .erase .. => true
  | .rereference .. | .tempTrack .. | .refresh .. | .sentinelVisit .. | .spareProgram .. => true
  | .rereferenceNow .. | .visitNow .. | .form .. | .formRetry .. | .formAnswer .. | .formTimeout .. => true
  | .dissolve .. | .ready .. | .start .. | .ringRelease .. | .stepDue .. | .delay .. | .sweep .. => true
  | .partialRecord .. | .ringEnd .. | .stepTimeout .. | .barrierTimeout .. | .stall .. => true
  | .recoverTimeout .. | .mirrorRows .. | .mirrorAck .. | .msgTimeout .. | .sheetWrite .. => true
  | .topCoordWrite .. | .load .. | .check .. | .rigTimeout | .reach .. | .arm .. | .disarm .. => true
  | .takeover .. | .busy .. | .fenceConfirm .. | .rebindConfirm .. | .settleEnd | .confirmTimeout => true
  | .taken .. | .eventFire | .swevArm .. | .lostTimeout | .holdoverExpire | .acquireEnd => true
  | .divisorChange .. | .swDivisor .. | .throttleOrder .. | .refBad .. | .pllUnlock | .por | .perst => true
  | .packageReset .. | .dieCommand .. | .activate .. | .watchdog | .lockstepMismatch => true
  | .startupComplete | .conductWrite .. | .powerSample .. | .controlPeriod | .pwrCapWrite .. => true
  | .thmLimitWrite .. | .thermalEvaluation .. | .thermalTrip .. | .memCe .. | .memUe .. => true
  | .linkCrc .. | .ratlineCrc .. | .residueTrans .. | .residueHard .. | .selftestFail .. => true
  | .sentinelDev .. | .lockstep .. | .e2eCrc .. | .restore .. | .setEndpointId .. | .getEndpointId => true
  | .getMctpVersionSupport .. | .getMessageTypeSupport | .getTid | .getPldmVersion .. => true
  | .getPldmTypes | .getPldmCommands .. | .getSensorReading .. | .getPdrRepositoryInfo => true
  | .getPdr .. | .requestUpdate | .passComponentTable .. | .updateComponent .. => true
  | .requestFirmwareData .. | .activateFirmware .. | .getInfo .. | .setCoord .. | .getCoord .. => true
  | .rigPlan .. | .rigStatus .. | .powerOrder .. | .powerStatus .. | .faultPeek .. | .faultLog .. => true
  | .regRead .. | .regWrite .. | .resetCommand .. | .jury .. | .spdmRequest .. | .sessionEnd .. => true
  | .smbTimeout | .reassembly | .powerDown | .bypass | .idcode | .samplePreload | .extest | .clamp => true
  | .highz | .tapExit | .rngFail | .usageEpoch .. | .rngOk | .pecError | .pllLock | .context .. => true
  | .idleFlit b .. => bundleOk b
  | .monFail r => (r.map railOk).getD true

end Sys2Proof
end

