-- ==== Sys2Proof/Tests/Slice0.lean ====
section
/-! SUPPORT. Tests: every check of WellFormed refuses an ill-formed command; results that the spec's worked examples and
tables give; and for every statement states and operands that meet its conditions. -/

namespace Sys2Proof.Tests

open Sys2Proof.Machine

set_option Elab.async false
set_option linter.unusedVariables false

/-! ### States -/

/-- Registers set to given values over a state. -/
def st (l : List (Nat × Nat)) (s : State := State.reset) : State := l.foldl (fun s kv => s.setReg kv.1 (BitVec.ofNat 32 kv.2)) s
def withReq (r : Req) : State := { State.reset with reqs := [r] }
/-- A descriptor or macro from byte offsets and values. -/
def dsc (n : Nat) (l : List (Nat × Nat)) : BitVec n := BitVec.ofNat n (l.foldl (fun a x => a + x.2 * 2 ^ (8 * x.1)) 0)
/-- A request, and an image that it may name. -/
def rd0 : ReqDesc := { prio := 0, allowDrop := false, orderFree := false, shroud := false, model := 1, domain := 0, count := 4, maxNew := 8, outAddr := 0, outLog2 := 4, ring := 0, seed := 0, temperature := 0, topP := 0x3F800000, topK := 0, stops := [] }
def rq : Req := { part := 3, sq := 2, tag := 5, d := rd0, tokens := [1, 2, 3, 4], frameLong := false, phase := .decode, fetchNo := 0, inst := 0, lane := true }
def md : Model := { part := 3, handle := 1, st := .loaded, digest := 0, conduct := 0, vocab := 1000, shards := [], online := true, orderFree := true, samples := true, sections := [], frames := [], lanes := [], groups := [] }
/-- A queue of partition 3 with one descriptor to fetch; start-up done and the partition ACTIVE. -/
def q0 : State := st [(Key.prtSqCfg 3 2, 0x80004000), (Key.dblSq 3 2, 1)]
def q2 : State := st [(Key.prtSqCfg 3 2, 0x80004000), (Key.dblSq 3 2, 1), (Key.rstStat, 0x80000100)]
def q1 : State := { st [(Key.prtSqCfg 3 2, 0x80004000), (Key.dblSq 3 2, 1), (Key.rstStat, 0x80000100), (Key.prtState 3, 2)] with models := [md] }
/-- Memory in service. -/
def onl : State := st [(Key.nrmStat 0, 2), (Key.nrmStat 1, 2)]
def reqWord : BitVec 1024 := dsc 1024 [(0, 1), (4, 1), (8, 9), (0x18, 4), (0x1C, 8), (0x2C, 4)]
/-- Partition 3 in a state, its command register writable by the host. -/
def prt (n : Nat) : State := st [(Key.prtState 3, n), (Key.rstStat, 0x80000100), (Key.secStat, 0x80000000)]
/-- A migration descriptor over one run of 16 frames that partition 3 owns. -/
def dv : Nat := nearBase 0 + (nearBytes - nearDev)
def pdesc (op : Nat) : BitVec 512 := dsc 512 [(0, op), (1, 1), (2, 16), (3, 3), (8, 77), (0x10, dv + 256)]
def pdesc0 (op : Nat) : BitVec 512 := dsc 512 [(0, op), (1, 1), (2, 16), (3, 3), (8, 77)]
def own (f : Nat) : State := { State.reset with mem := { used := [⟨f, 16, .kv 3, 5⟩] } }
def bst : Burst := { op := 3, part := 3, key := 5, tag := 77, units := 16, moves := [⟨0, 4096, none, .copying, false⟩], dest := ⟨.unreserved, .near⟩ }
def ms (n : Nat) : MacroSt := { spar := 0, slot := 0, walk := 0, index := 0, part := 3, word := 0, num := n }
/-- The own frames beside a descriptor and its source list in the device region. -/
def ownAt (f op : Nat) : State := ((own f).wr dv (leBytes (pdesc op).toNat 64)).wr (dv + 256) (leBytes (f * 4096) 8)
def ringOn (s : State) : State := st [(Key.pmgHrCfg, 0x80004000), (Key.pmgHrTail, 1)] s
/-- A page-table entry at 0x2000 and what it says. -/
def pteAt (e : Pte) : State := State.reset.setPte 0x2000 e
def pg : Pte := { frame := 7, present := true, refcount := 1, valid := 256 }
/-- A sequence shard whose block lies in the device region, a scatter descriptor for it, and the scatter engine at work. -/
def shd : Shard := { part := 3, tag := 5, idx := 0, pt := 0x1700000000, heads := 1, dim := 0, units := 128, resEntry := 0, holding := [16] }
def sdesc (pos : Nat) : BitVec 512 := dsc 512 [(0, 1), (1, 1), (4, 1), (8, 5), (16, 0x1700000000), (40, pos)]
def scat (pos : Nat) : State := { withReq rq with paging := { shards := [shd], scatter := [⟨0, 0, 0, sdesc pos, false⟩] } }
/-- A walk of one macro at 0x4000, its plan, and the walk waiting at a Boom in service. -/
def wk : Walk := { spar := 0, id := 0, part := 3, tags := [5], handle := 1, plan := 0, layer := 0, decode := true, index := 0, step := 0, list := 0x4000, count := 1, regs := [] }
def bp : BoundPlan := { part := 3, handle := 1, plan := 0, spar := 0, yards := [0], luffs := [0], clews := [0], banks := [0] }
def wst (op kind : Nat) : State := { (st [(Key.bomStat 0, 0x80000000)]).wr 0x4000 (if op = 6 then [6, 0, 0, 0, BitVec.ofNat 8 kind] else [BitVec.ofNat 8 op, 0, 0, 0, 0, BitVec.ofNat 8 kind]) with fab := { plans := [bp], walks := [wk] } }
def chk0 : Check := ⟨0, false, 0⟩
/-- An image with one walk table entry in section 3 and one step in section 8. -/
def wmd : Model := { md with sections := [⟨3, 0, 0xC0, 0x8000⟩, ⟨8, 0, 16, 0x9000⟩, ⟨2, 0, 0x40, 0xA000⟩] }
def wimg : State := { (((st [(Key.bomStat 0, 0x80000000), (Key.yrdStat 0, 0x80000000)]).wr 0x8000 [1]).wr 0x8040 [1, 0, 0, 0, 1, 0, 0, 0, 0x80]).wr 0x9000 [1, 0, 0, 0, 0, 0, 0xFF, 0xFF, 0xFF, 0xFF, 0xFF, 0xFF, 0xFF, 0xFF] with models := [wmd], reqs := [rq] }
/-- The container of one Spar plan that asks for one Yard. -/
def pimg : State := { wimg.wr 0xA000 [0, 0, 0, 0, 0, 0, 1, 0, 0, 0, 0, 0, 0, 0, 0, 0, 1, 0, 0, 0] with models := [wmd] }
def mst : MacroSt := { spar := 0, slot := 0, walk := 0, index := 0, part := 3, word := 0 }
/-- Every slot is taken. -/
def fly1024 : List MacroSt := (List.range 1024).map fun i => { mst with slot := i, done := true }
def full1024 : State := { wst 1 0 with fab := { plans := [bp], walks := [wk], flight := fly1024 } }
theorem full1024_taken : full1024.freeSlot 0 = none := by
  have e : full1024.fab.flight = fly1024 := by simp only [full1024]
  unfold State.freeSlot
  rw [e, fly1024]
  simp only [List.find?_eq_none, List.mem_range]
  intro i hi
  have h : i ∈ (((List.range 1024).map fun i => { mst with slot := i, done := true }).filter
      fun m => decide (m.spar = 0)).map fun m => m.slot := by
    simp only [List.mem_map, List.mem_filter, List.mem_range]
    exact ⟨{ mst with slot := i, done := true }, ⟨⟨i, hi, rfl⟩, rfl⟩, rfl⟩
  simp only [h, not_true_eq_false, decide_false, Bool.false_and, Bool.false_eq_true, not_false_eq_true]
/-- A job of one tile on panel 0, and the Canvas at work on it. -/
def jobd : BitVec 512 := dsc 512 [(2, 1), (4, 1), (8, 1), (0xC, 1), (0x10, 1), (0x18, 0x5000)]
def sev : SubEval := { ti := 0, tj := 0 }
def job1 : Job := { slot := 0, die := 0, part := 3, tags := [5], handle := 1, decode := true, cls := 0, step := 0, desc := jobd, vectors := 1, todo := [sev] }
def cst (j : List Job) : State := { st [(Key.cnvStat 0, 0x80000200), (Key.cpgStat 0, 0xC0000000)] with time := { cycle := 168 }, cnv := { jobs := j, groups := [(0, { lastRef := some 0 })] } }
/-- A panel with a payload and its copy, in a group that an image holds. -/
def pan : Panel := { copy := some 0x80000, image := some 0 }
def gmd : Model := { md with groups := [{ logical := 0, phys := 0, mode := 0, retained := false }] }
def pst (x : Panel) : State := { st [(Key.cnvStat 0, 0x80000200), (Key.cpgStat 0, 0xC0000000)] with models := [gmd], cnv := { groups := [(0, { model := some (3, 1), due := true })], panels := [(0, x)] } }
/-- Ring entry 2: handle 7, four members, member `n`, in state `g`. -/
def rgs (g n : Nat) : State := st [(Key.shrRingCfg 2, 0x71000 + 32 * n), (Key.shrRingStat 2, g * 2 ^ 29), (Key.shrRingPart 2, 3), (Key.shrRingLeft 2, 0x11), (Key.shrRingRight 2, 0x22), (Key.lnkSheet, 0x22), (Key.lnkStat 2, 5 * 2 ^ 29), (Key.lnkPeerId 2, 0x220000), (Key.lnkStat 0, 5 * 2 ^ 29), (Key.lnkPeerId 0, 0x110000)]
def srq : Req := { rq with d := { rd0 with shroud := true, ring := 7 } }
def rgr (g n : Nat) : State := { rgs g n with reqs := [srq] }
def run : Ring := { running := true, t0 := 1000, d := 500, steps := 4 }
def rgrun (c : Nat) : State := { (rgs 2 1).setRing 2 run with time := { count := BitVec.ofNat 64 c } }
def ans : RingAnswer := ⟨7, 4, 0, false, 0x11⟩
/-- A bundle in a state, of the sheet with roles left, right and Stay; a sealed flit of a kind. -/
def bnd (b n : Nat) : State := st [(Key.lnkSheet, 0x22), (Key.lnkStat b, n * 2 ^ 29)]
def flt (kind seq : Nat) : BitVec 2048 := sealFlit (BitVec.ofNat 2048 (kind * 2 ^ 92 + 2 ^ 8)) seq 4095 0 16
def later (n : Nat) (s : State) : State := { s with time := { cycle := 4 * n, count := BitVec.ofNat 64 n } }
def ident : BitVec 512 := dsc 512 [(1, 1), (4, 1), (6, 0x11), (8, 77), (0x10, 16), (0x12, 256), (0x14, 256), (0x16, 256), (0x18, 256), (0x1A, 256), (0x1C, 512)]
/-- A package at coordinates, its Stay bundles UP towards leaf 1; the spare in a state; a link of the ratlines UP. -/
def top (c : Nat) : State := st [(Key.lnkSheet, 0x22), (Key.topCoord, 2 ^ 31 + c), (Key.lnkStat 3, 5 * 2 ^ 29), (Key.lnkPeerId 3, 0x10001)]
def spare (j : Nat) : State := st [(Key.jryStat, j * 2 ^ 29)] (top 0x120)
def taking (k : Machine.Takeover) : State := { spare 2 with top := { take := some k } }
def rlUpAt (l : Nat) : State := st [(Key.clkRlStat l, 2 ^ 30)]
/-- The firmware runs; start-up is done. -/
def booted (l : List (Nat × Nat)) : State := { st l with boot := { running := true } }
def readyBoot (l : List (Nat × Nat)) : State := booted ((Key.rstStat, 0x80000100) :: l)
/-- A firmware update in a phase. -/
def upd (p : Nat) : Update := { bank := 1, size := 2048, phase := p }
def updating (p : Nat) : State := { State.reset with sbd := { update := some (upd p) } }

/-! ### Every statement's conditions can be met, each of its clauses at a boundary -/

theorem witness_IdleStepCompletes :
    (∃ (s : State), s.pending = []) :=
  ⟨st [], by decide +kernel⟩

theorem witness_ResetState :
    (∃ (p : Nat), (blockOf p).isSome = true) ∧
    (∃ (p : Nat), (blockOf p).isSome = true) :=
  ⟨⟨0x00B, by decide +kernel⟩,
   ⟨0x010, by decide +kernel⟩⟩

theorem witness_StepKeepsCanonical :
    (∃ (s : State) (t : State), s.Canonical ∧ step s = .next t) :=
  ⟨st [], State.reset.idle, by decide +kernel, rfl⟩

theorem witness_StepTakesOneCommand :
    (∃ (s : State) (t : State), step s = .next t) :=
  ⟨{ State.reset with pending := [.rcRead .hostPf (.page 0x1E0 0) 0xF none] }, (match exec (.rcRead .hostPf (.page 0x1E0 0) 0xF none)
    State.reset with | .next t => t | _ => State.reset), rfl⟩

theorem witness_CommandsComplete :
    (∃ (c : Instr) (s : State), (∀ r v, c ≠ .releaseCrossing r v)) :=
  ⟨.perst, State.reset, by intro r v h; cases h⟩

theorem witness_RegisterWriteStores :
    (∃ (s : State) (m : Master) (p : BitVec 14) (off : BitVec 12) (v : Word), plainRegister p.toNat off.toNat = true ∧ s.Takes m p.toNat
      off.toNat v ∧ s.Uncontested m (regKey p.toNat off.toNat)) ∧
    (∃ (s : State) (m : Master) (v : Word), s.Takes m pgPwr 0x100 v ∧ s.Uncontested m (regKey pgPwr 0x100)) ∧
    (∃ (s : State) (m : Master) (v : Word), s.Takes m pgThm 0x100 v ∧ s.Uncontested m (regKey pgThm 0x100)) :=
  ⟨⟨st [], .masthead 0, BitVec.ofNat 14 pgPwr, 0x14, 0xFFFFFFFF, by decide +kernel⟩,
   ⟨st [], .masthead 0, 0xFFFFFFFF, by decide +kernel⟩,
   ⟨st [], .masthead 0, 0xFFFFFFFF, by decide +kernel⟩⟩

theorem witness_ForbiddenAccess :
    (∃ (s : State) (m : Master) (p : BitVec 14) (off : BitVec 12) (be : BitVec 4), s.Hears m ∧ mayRead m p.toNat = false) ∧
    (∃ (s : State) (m : Master) (p : BitVec 14) (off : BitVec 12) (be : BitVec 4) (v : Word), s.Hears m ∧ off.toNat ≠ 0x28 ∧ mayWrite m
      p.toNat off.toNat v = false) ∧
    (∃ (s : State) (m : Master) (p : BitVec 14) (be : BitVec 4) (v : Word), s.Hears m ∧ (blockOf p.toNat).isSome = true ∧ isMasthead m =
      false ∧ masterId m ≠ s.owner p.toNat) :=
  ⟨⟨st [], .vf 3, BitVec.ofNat 14 pgPwr, 0x20, 0xF, by decide +kernel⟩,
   ⟨st [], .vf 3, BitVec.ofNat 14 pgPwr, 0x10, 0xF, 5, by decide +kernel⟩,
   ⟨st [], .bmc, BitVec.ofNat 14 pgPwr, 0xF, 5, by decide +kernel⟩⟩

theorem witness_PartialWrites :
    (∃ (s : State) (m : Master) (p : BitVec 14) (off : BitVec 12) (be : BitVec 4) (v : Word), s.Hears m ∧ (be ≠ 0xF ∨ off.toNat % 4 ≠ 0 ∨
      s.pageDead p.toNat = true)) :=
  ⟨st [], .hostPf, BitVec.ofNat 14 pgPwr, 0x10, 0x7, 5, by decide +kernel⟩

theorem witness_HeaderWrites :
    (∃ (s : State) (m : Master) (p : BitVec 14) (v : Word), (blockOf p.toNat).isSome = true ∧ s.Takes m p.toNat 0x10 v ∧ s.Uncontested m
      (Key.irqStat p.toNat)) ∧
    (∃ (s : State) (m : Master) (p : BitVec 14) (v : Word), (blockOf p.toNat).isSome = true ∧ s.Takes m p.toNat 0x18 v) ∧
    (∃ (s : State) (m : Master) (p : BitVec 14) (v : Word), (blockOf p.toNat).isSome = true ∧ (isMasthead m = true ∨ masterId m = s.owner
      p.toNat) ∧ s.Readable m p.toNat ∧ s.InOrder m p.toNat ∧ idMayRead (getBits v 7 0) p.toNat = true ∧ s.Uncontested m (Key.owner
      p.toNat)) :=
  ⟨⟨st [(Key.irqStat pgPwr, 3)], .masthead 0, BitVec.ofNat 14 pgPwr, 1, by decide +kernel⟩,
   ⟨st [], .masthead 0, BitVec.ofNat 14 pgPwr, 3, by decide +kernel⟩,
   ⟨st [], .masthead 0, BitVec.ofNat 14 pgPwr, 3, by decide +kernel⟩⟩

theorem witness_LockAndSoftReset :
    (∃ (s : State) (m : Master) (p : BitVec 14) (v : Word), (blockOf p.toNat).isSome = true ∧ s.Takes m p.toNat 8 (v ||| 4) ∧ s.Uncontested
      m (Key.blkCtrl p.toNat) ∧ s.locked p.toNat = false ∧ getBits v 1 1 = 0) ∧
    (∃ (s : State) (m : Master) (p : BitVec 14) (v : Word), (blockOf p.toNat).isSome = true ∧ s.Takes m p.toNat 8 (v ||| 2) ∧ s.Uncontested
      m (Key.blkCtrl p.toNat) ∧ s.locked p.toNat = false ∧ getBits v 2 0 = 0 ∧ s.RegsCanonical ∧ p.toNat ≠ pgClk ∧ p.toNat ≠ pgKvp) :=
  ⟨⟨st [], .masthead 0, BitVec.ofNat 14 pgPwr, 5, by decide +kernel⟩,
   ⟨st [(Key.irqEn pgPwr, 3), (Key.irqStat pgPwr, 1)], .masthead 0, BitVec.ofNat 14 pgPwr, 0, by decide +kernel⟩⟩

theorem witness_FaultLatchReads :
    (∃ (s : State) (m : Master) (p : BitVec 14), (blockOf p.toNat).isSome = true ∧ s.Readable m p.toNat ∧ s.FreshCycle ∧ s.owner p.toNat =
      masterId m) ∧
    (∃ (s : State) (m : Master) (p : BitVec 14), (blockOf p.toNat).isSome = true ∧ s.Readable m p.toNat ∧ s.FreshCycle ∧ s.owner p.toNat ≠
      masterId m) ∧
    (∃ (s : State) (m : Master) (p : BitVec 14), (blockOf p.toNat).isSome = true ∧ s.Readable m p.toNat ∧ s.FreshCycle) :=
  ⟨⟨st [(Key.fltLatch 0x1D0, 3), (Key.fltInfo 0x1D0, 3)], .hostPf, 0x1D0, by decide +kernel⟩,
   ⟨st [(Key.fltLatch 0x1D0, 3)], .masthead 0, 0x1D0, by decide +kernel⟩,
   ⟨st [(Key.fltLatch 0x1D0, 3)], .masthead 0, 0x1D0, by decide +kernel⟩⟩

theorem witness_ReadsAndTheirEffects :
    (∃ (s : State) (m : Master) (p : BitVec 14) (off : BitVec 12), off.toNat % 4 = 0 ∧ s.Readable m p.toNat ∧ s.FreshCycle ∧ off.toNat ≠
      0x1C ∧ off.toNat ≠ 0x2C ∧ (¬ (p.toNat = pgTtl ∧ off.toNat = 0x100))) ∧
    (∃ (s : State) (m : Master) (p : BitVec 14), s.Readable m p.toNat ∧ s.FreshCycle) ∧
    (∃ (s : State) (m : Master), s.Readable m pgTtl ∧ s.FreshCycle) ∧
    (∃ (s : State) (m : Master) (p : BitVec 14) (off : BitVec 12) (be : BitVec 4), s.Readable m p.toNat ∧ be ≠ 0xF) :=
  ⟨⟨st [], .hostPf, 0x1D0, 0x10, by decide +kernel⟩,
   ⟨st [(Key.conflict 0x1D0, 3)], .hostPf, 0x1D0, by decide +kernel⟩,
   ⟨{ State.reset with time := { count := 0x500000007 } }, .hostPf, by decide +kernel⟩,
   ⟨st [], .hostPf, 0x1D0, 0x1C, 3, by decide +kernel⟩⟩

theorem witness_DeviceEventQueue :
    (∃ (s : State) (m : Master) (v : Word), s.Takes m pgPci 0x120 v ∧ s.Uncontested m Key.pciDeqHead ∧ s.bit Key.pciDeqCfg 31 = true ∧
      getBits v 15 0 < s.eqDepth 512 ∧ (getBits v 15 0 + s.eqDepth 512 - s.fld Key.pciDeqHead 15 0) % s.eqDepth 512 ≤ (s.eq 512).used) ∧
    (∃ (s : State) (m : Master) (v : Word), s.Takes m pgPci 0x120 v ∧ s.Uncontested m Key.pciDeqHead ∧ s.bit Key.pciDeqCfg 31 = true ∧
      getBits v 15 0 < s.eqDepth 512 ∧ (getBits v 15 0 + s.eqDepth 512 - s.fld Key.pciDeqHead 15 0) % s.eqDepth 512 ≤ (s.eq 512).used) ∧
    (∃ (s : State) (m : Master) (v : Word), s.Takes m pgPci 0x118 (v ||| 0x80000000) ∧ s.Uncontested m Key.pciDeqCfg ∧ s.bit Key.pciDeqCfg
      31 = false ∧ 5 ≤ getBits v 15 12) ∧
    (∃ (s : State) (p : Nat) (c : Nat) (detail : Nat) (time : Nat), s.rel.fresh = [(p, c, detail, time)] ∧ p < 0x1E0 ∧ s.bit Key.pciDeqCfg
      31 = false) :=
  ⟨⟨(st [(Key.pciDeqCfg, 0x80005000)]).setEq 512 { used := 5 }, .hostPf, 5, by decide +kernel⟩,
   ⟨(st [(Key.pciDeqCfg, 0x80005000), (Key.pciDeqHead, 31)]).setEq 512 { used := 1 }, .hostPf, 0, by decide +kernel⟩,
   ⟨st [], .hostPf, 0x5000, by decide +kernel⟩,
   ⟨{ st [(Key.fltLatch 0x1DF, 1)] with rel := { fresh := [(0x1DF, 4, 7, 9)], logNext := 63 } }, 0x1DF, 4, 7, 9, by decide +kernel⟩⟩

theorem witness_Doorbells :
    (∃ (s : State) (m : Master) (p : BitVec 7) (q : BitVec 3) (v : Word), s.Takes m (pgDbl p.toNat) (0x100 + 4 * q.toNat) v ∧ s.Uncontested
      m (Key.dblSq p.toNat q.toNat) ∧ s.bit (Key.prtSqCfg p.toNat q.toNat) 31 = true ∧ getBits v 11 0 < s.sqDepth p.toNat q.toNat ∧ (s.fld
      (Key.dblSq p.toNat q.toNat) 11 0 + s.sqDepth p.toNat q.toNat - s.fld (Key.prtSqHead p.toNat q.toNat) 11 0) % s.sqDepth p.toNat
      q.toNat + (getBits v 11 0 + s.sqDepth p.toNat q.toNat - s.fld (Key.dblSq p.toNat q.toNat) 11 0) % s.sqDepth p.toNat q.toNat <
      s.sqDepth p.toNat q.toNat) ∧
    (∃ (s : State) (m : Master) (p : BitVec 7) (e : BitVec 2) (v : Word), s.Takes m (pgDbl p.toNat) (0x120 + 4 * e.toNat) v ∧ s.Uncontested
      m (Key.dblEq p.toNat e.toNat) ∧ s.bit (Key.prtEqCfg p.toNat e.toNat) 31 = true ∧ getBits v 15 0 < s.eqDepth (4 * p.toNat + e.toNat) ∧
      s.fld (Key.dblEq p.toNat e.toNat) 15 0 < s.eqDepth (4 * p.toNat + e.toNat) ∧ (getBits v 15 0 + s.eqDepth (4 * p.toNat + e.toNat) -
      s.fld (Key.dblEq p.toNat e.toNat) 15 0) % s.eqDepth (4 * p.toNat + e.toNat) ≤ (s.eq (4 * p.toNat + e.toNat)).used ∧ (s.eq (4 *
      p.toNat + e.toNat)).wait = []) ∧
    (∃ (s : State) (m : Master) (p : BitVec 7) (q : BitVec 3) (v : Word), s.Takes m (pgDbl p.toNat) (0x100 + 4 * q.toNat) v ∧ s.bit
      (Key.prtSqCfg p.toNat q.toNat) 31 = false) ∧
    (∃ (s : State) (m : Master) (p : BitVec 7) (q : BitVec 3) (v : Word), s.Takes m (pgDbl p.toNat) (0x100 + 4 * q.toNat) v ∧ s.bit
      (Key.prtSqCfg p.toNat q.toNat) 31 = true ∧ s.sqDepth p.toNat q.toNat ≤ getBits v 11 0) :=
  ⟨⟨st [(Key.prtSqCfg 3 2, 0x80004000), (Key.dblSq 3 2, 15), (Key.prtSqHead 3 2, 1)], .hostPf, 3, 2, 0, by decide +kernel⟩,
   ⟨(st [(Key.prtEqCfg 3 2, 0x80005000)]).setEq 14 { used := 31 }, .hostPf, 3, 2, 31, by decide +kernel⟩,
   ⟨st [], .hostPf, 3, 2, 0, by decide +kernel⟩,
   ⟨st [(Key.prtSqCfg 3 2, 0x80004000)], .hostPf, 3, 2, 16, by decide +kernel⟩⟩

theorem witness_QueuesAndTimers :
    (∃ (s : State) (m : Master) (p : BitVec 7) (q : BitVec 3) (v : Word), s.Takes m (pgPrt p.toNat) (0x208 + 0x10 * q.toNat) (v |||
      0x80000000) ∧ s.Uncontested m (Key.prtSqCfg p.toNat q.toNat) ∧ s.bit (Key.prtSqCfg p.toNat q.toNat) 31 = false ∧ s.pstate p.toNat ≠
      psFree ∧ s.pstate p.toNat ≠ psReleasing ∧ 4 ≤ getBits v 15 12 ∧ getBits v 15 12 ≤ 12) ∧
    (∃ (s : State) (m : Master) (p : BitVec 7) (q : BitVec 3) (v : Word), s.Takes m (pgPrt p.toNat) (0x208 + 0x10 * q.toNat) (v |||
      0x80000000) ∧ s.Uncontested m (Key.prtSqCfg p.toNat q.toNat) ∧ s.bit (Key.prtSqCfg p.toNat q.toNat) 31 = false ∧ s.pstate p.toNat ≠
      psFree ∧ s.pstate p.toNat ≠ psReleasing ∧ 4 ≤ getBits v 15 12 ∧ getBits v 15 12 ≤ 12) ∧
    (∃ (s : State) (m : Master) (p : BitVec 7) (q : BitVec 3) (v : Word), s.Takes m (pgPrt p.toNat) (0x208 + 0x10 * q.toNat) (v &&&
      0x7FFFFFFF) ∧ s.Uncontested m (Key.prtSqCfg p.toNat q.toNat) ∧ s.bit (Key.prtSqCfg p.toNat q.toNat) 31 = true) ∧
    (∃ (s : State) (m : Master) (p : BitVec 7) (e : BitVec 2) (v : Word), s.Takes m (pgPrt p.toNat) (0x288 + 0x10 * e.toNat) (v |||
      0x80000000) ∧ s.Uncontested m (Key.prtEqCfg p.toNat e.toNat) ∧ s.bit (Key.prtEqCfg p.toNat e.toNat) 31 = false ∧ s.pstate p.toNat ≠
      psFree ∧ s.pstate p.toNat ≠ psReleasing ∧ 5 ≤ getBits v 15 12 ∧ (s.eq (4 * p.toNat + e.toNat)).wait = []) ∧
    (∃ (s : State) (m : Master) (p : BitVec 7) (e : BitVec 2) (v : Word), s.Takes m (pgPrt p.toNat) (0x288 + 0x10 * e.toNat) (v &&&
      0x7FFFFFFF) ∧ s.Uncontested m (Key.prtEqCfg p.toNat e.toNat) ∧ s.bit (Key.prtEqCfg p.toNat e.toNat) 31 = true) ∧
    (∃ (s : State) (p : BitVec 7) (e : BitVec 2), s.modDue (4 * p.toNat + e.toNat) = true) ∧
    (∃ (s : State), s.modDue 512 = true) ∧
    (∃ (s : State) (p : BitVec 7) (tag : BitVec 64) (c : Word) (r : Req), s.req p.toNat tag = some r ∧ r.active = true ∧ r.owed ≠ [] ∧
      r.lastRead + 1000 ≤ s.tick) :=
  ⟨⟨st [(Key.prtState 3, 2)], .hostPf, 3, 2, 0x4000, by decide +kernel⟩,
   ⟨st [(Key.prtState 3, 2)], .hostPf, 3, 2, 0xC000, by decide +kernel⟩,
   ⟨st [(Key.prtSqCfg 3 2, 0x80004000)], .hostPf, 3, 2, 0x4000, by decide +kernel⟩,
   ⟨st [(Key.prtState 3, 2)], .hostPf, 3, 2, 0x5000, by decide +kernel⟩,
   ⟨st [(Key.prtEqCfg 3 2, 0x80005000)], .hostPf, 3, 2, 0x5000, by decide +kernel⟩,
   ⟨({ st [(Key.prtEqCfg 3 2, 0xC0005001)] with time := { cycle := 400 } }).setEq 14 { used := 1, count := 1, since := some 0 }, 3, 2,
     by decide +kernel⟩,
   ⟨({ st [(Key.pciDeqCfg, 0xC0005001)] with time := { cycle := 400 } }).setEq 512 { used := 1, count := 1, since := some 0 },
     by decide +kernel⟩,
   ⟨{ withReq { rq with owed := [(7, false)] } with time := { cycle := 4000 } }, 3, 5, 9, { rq with owed := [(7, false)] },
     by decide +kernel⟩⟩

theorem witness_DescriptorsServed :
    (∃ (s : State) (p : BitVec 7) (q : BitVec 3), s.fetchTurn p.toNat q.toNat = true) ∧
    (∃ (s : State) (p : BitVec 7) (q : BitVec 3) (d : BitVec 1024), s.fetchTurn p.toNat q.toNat = true ∧ descType d = 0x03 ∧ s.ready = true
      ∧ (s.fetched p.toNat q.toNat).descCheck p.toNat d false = none) ∧
    (∃ (s : State) (p : BitVec 7) (q : BitVec 3) (d : BitVec 1024), s.fetchTurn p.toNat q.toNat = true ∧ descType d = 0x03 ∧ s.ready = true
      ∧ (s.fetched p.toNat q.toNat).descCheck p.toNat d false = none) ∧
    (∃ (s : State) (p : BitVec 7) (q : BitVec 3) (d : BitVec 1024), s.fetchTurn p.toNat q.toNat = true ∧ descType d = 0x02 ∧ s.ready = true
      ∧ (s.fetched p.toNat q.toNat).descCheck p.toNat d false = none ∧ s.req p.toNat (BitVec.ofNat 64 (dfield d 0x10 0 64)) = none) ∧
    (∃ (s : State) (p : BitVec 7) (q : BitVec 3) (d : BitVec 1024) (r : Req), s.fetchTurn p.toNat q.toNat = true ∧ descType d = 0x02 ∧
      s.ready = true ∧ (s.fetched p.toNat q.toNat).descCheck p.toNat d false = none ∧ s.req p.toNat (BitVec.ofNat 64 (dfield d 0x10 0 64))
      = some r ∧ r.active = true ∧ r.phase = .decode ∧ r.preempted = false ∧ r.lane = true ∧ r.owed = [] ∧ s.reqRing r = none) ∧
    (∃ (s : State) (p : BitVec 7) (q : BitVec 3) (d : BitVec 1024) (m : Model), s.fetchTurn p.toNat q.toNat = true ∧ descType d = 0x05 ∧
      s.ready = true ∧ (s.fetched p.toNat q.toNat).descCheck p.toNat d false = none ∧ dfield d 0x04 0 16 ≠ 0 ∧ s.model p.toNat (dfield d
      0x04 0 16) = some m ∧ m.st = .loaded) :=
  ⟨⟨q0, 3, 2, by decide +kernel⟩,
   ⟨q2, 3, 2, dsc 1024 [(0, 3), (8, 9)], by decide +kernel⟩,
   ⟨st [(Key.prtSqCfg 3 2, 0x80004000), (Key.dblSq 3 2, 0), (Key.prtSqHead 3 2, 15), (Key.rstStat, 0x80000100)], 3, 2, dsc 1024 [(0, 3),
     (8, 9)], by decide +kernel⟩,
   ⟨q2, 3, 2, dsc 1024 [(0, 2), (8, 9), (0x10, 5)], by decide +kernel⟩,
   ⟨{ q2 with reqs := [rq] }, 3, 2, dsc 1024 [(0, 2), (8, 9), (0x10, 5)], rq, by decide +kernel⟩,
   ⟨q1, 3, 2, dsc 1024 [(0, 5), (8, 9), (4, 1)], md, by decide +kernel⟩⟩

theorem witness_RequestsAndImages :
    (∃ (s : State) (p : BitVec 7) (q : BitVec 3) (d : BitVec 1024) (frame : HostRead (List Word)) (toks : List Word) (long : Bool),
      s.fetchTurn p.toNat q.toNat = true ∧ descType d = 0x01 ∧ s.ready = true ∧ s.pstate p.toNat = psActive ∧ (s.part p.toNat).keyOwed =
      false ∧ (s.part p.toNat).flr = false ∧ (s.fetched p.toNat q.toNat).descCheck p.toNat d ((s.fetched p.toNat q.toNat).requestFieldBad
      p.toNat (reqDesc d) (dfield d 0x10 0 64)) = none ∧ (s.fetched p.toNat q.toNat).frameCheck p.toNat (reqDesc d) frame = .inr (toks,
      long) ∧ (s.fetched p.toNat q.toNat).modelCheck p.toNat (reqDesc d) = none) ∧
    (∃ (s : State) (p : BitVec 7) (q : BitVec 3) (d : BitVec 1024) (frame : HostRead (List Word)), s.fetchTurn p.toNat q.toNat = true ∧
      descType d = 0x01 ∧ s.ready = false) ∧
    (∃ (s : State) (p : BitVec 7) (q : BitVec 3) (d : BitVec 1024) (image : HostRead (List Byte)), s.fetchTurn p.toNat q.toNat = true ∧
      descType d = 0x04 ∧ s.ready = true ∧ s.pstate p.toNat = psActive ∧ (s.part p.toNat).keyOwed = false ∧ (s.part p.toNat).flr = false ∧
      (s.fetched p.toNat q.toNat).descCheck p.toNat d (otherFieldBad (descType d) d) = none) ∧
    (∃ (s : State) (p : BitVec 7) (q : BitVec 3) (d : BitVec 1024) (image : HostRead (List Byte)), s.fetchTurn p.toNat q.toNat = true ∧
      descType d = 0x04 ∧ s.ready = false) ∧
    (∃ (s : State) (p : BitVec 7) (h : BitVec 16) (m : Model) (x : Desc), s.model p.toNat h.toNat = some m ∧ m.st = .loading ∧ m.placed =
      true ∧ (s.descs.find? fun d => decide (d.part = p.toNat) && decide (d.kind = .load h.toNat) && !d.ended) = some x) ∧
    (∃ (s : State) (p : BitVec 7) (h : BitVec 16) (m : Model), s.model p.toNat h.toNat = some m ∧ m.st = .unloading ∧ (s.reqs.any fun r =>
      decide (r.part = p.toNat) && decide (r.d.model = h.toNat)) = false) :=
  ⟨⟨q1, 3, 2, reqWord, some [1, 2, 3, 4], [1, 2, 3, 4], false, by decide +kernel⟩,
   ⟨q0, 3, 2, reqWord, some [1, 2, 3, 4], by decide +kernel⟩,
   ⟨q1, 3, 2, dsc 1024 [(0, 4), (8, 9)], some [1, 2], by decide +kernel⟩,
   ⟨q0, 3, 2, dsc 1024 [(0, 4), (8, 9)], some [1, 2], by decide +kernel⟩,
   ⟨{ State.reset with models := [{ md with st := .loading }], descs := [{ num := 0, part := 3, sq := 2, tag := 9, kind := .load 1 }] }, 3,
     1, { md with st := .loading }, { num := 0, part := 3, sq := 2, tag := 9, kind := .load 1 }, by decide +kernel⟩,
   ⟨{ State.reset with models := [{ md with st := .unloading }] }, 3, 1, { md with st := .unloading }, by decide +kernel⟩⟩

theorem witness_RequestSteps :
    (∃ (s : State) (p : BitVec 7) (tag : BitVec 64) (r : Req), s.req p.toNat tag = some r ∧ r.phase = .lookup ∧ r.lane = true ∧ r.scope =
      .none) ∧
    (∃ (s : State) (p : BitVec 7) (tag : BitVec 64) (token : BitVec 18) (r : Req) (m : Model) (l : Nat) (q : Nat), s.req p.toNat tag = some
      r ∧ r.phase = .prefill ∧ r.lane = true ∧ r.preempted = false ∧ s.ringRuns r = true ∧ r.stop = none ∧ r.marked = none ∧ s.model r.part
      r.d.model = some m ∧ nextStep (r.spliced / 256) (s.promptPages r.d).1 (max 1 m.layerCount) r.layer r.qpage = some (l, q)) ∧
    (∃ (s : State) (p : BitVec 7) (tag : BitVec 64) (token : BitVec 18) (r : Req) (m : Model) (l : Nat) (q : Nat), s.req p.toNat tag = some
      r ∧ r.phase = .prefill ∧ r.lane = true ∧ r.preempted = false ∧ s.ringRuns r = true ∧ r.stop = none ∧ r.marked = none ∧ s.model r.part
      r.d.model = some m ∧ nextStep (r.spliced / 256) (s.promptPages r.d).1 (max 1 m.layerCount) r.layer r.qpage = some (l, q)) ∧
    (∃ (s : State) (p : BitVec 7) (tag : BitVec 64) (token : BitVec 18) (r : Req), s.req p.toNat tag = some r ∧ r.phase = .decode ∧ r.lane
      = true ∧ r.preempted = false ∧ r.owed = [] ∧ s.ringRuns r = true ∧ s.stepTurn r = true ∧ r.stop = none ∧ r.marked = none ∧ r.drawn =
      none ∧ r.masses = [] ∧ s.paging.promote = []) ∧
    (∃ (s : State) (p : BitVec 7) (tag : BitVec 64) (token : BitVec 18) (r : Req), s.req p.toNat tag = some r ∧ r.phase = .decode ∧ r.lane
      = true ∧ r.preempted = false ∧ r.owed = [] ∧ s.ringRuns r = true ∧ s.stepTurn r = true ∧ r.stop = none ∧ r.marked = none ∧ r.drawn =
      none ∧ r.masses = [] ∧ s.paging.promote = []) ∧
    (∃ (s : State) (p : BitVec 7) (tag : BitVec 64) (r : Req), s.req p.toNat tag = some r ∧ r.active = true ∧ r.preempted = true ∧
      s.laneFree p.toNat r.inDecode = true ∧ s.waitingBefore r = [] ∧ s.mem.poison = []) ∧
    (∃ (s : State) (p : BitVec 7) (tag : BitVec 64) (r : Req), s.req p.toNat tag = some r ∧ r.phase = .final ∧ r.lane = true ∧ r.preempted
      = false ∧ r.owed = [] ∧ s.reqRing r = none ∧ s.stepTurn r = true ∧ s.appended r = true ∧ r.stop = none ∧ r.adopted = false ∧ 3 <
      r.fin.1) ∧
    (∃ (s : State) (p : BitVec 7), firstFrom 128 s.rr.adm s.hasDeferred = some p.toNat) :=
  ⟨⟨withReq { rq with phase := .lookup }, 3, 5, { rq with phase := .lookup }, by decide +kernel⟩,
   ⟨{ withReq { rq with phase := .prefill, d := { rd0 with count := 300 } } with models := [md] }, 3, 5, 7,
     { rq with phase := .prefill, d := { rd0 with count := 300 } }, md, 0, 1, by decide +kernel⟩,
   ⟨{ withReq { rq with phase := .prefill, d := { rd0 with count := 4097 }, qpage := 15 } with models := [md] }, 3, 5, 7,
     { rq with phase := .prefill, d := { rd0 with count := 4097 }, qpage := 15 }, md, 0, 16, by decide +kernel⟩,
   ⟨withReq rq, 3, 5, 7, rq, by decide +kernel⟩,
   ⟨withReq { rq with j := 7 }, 3, 5, 0x3FFFF, { rq with j := 7 }, by decide +kernel⟩,
   ⟨{ q1 with reqs := [{ rq with preempted := true, lane := false }] }, 3, 5, { rq with preempted := true, lane := false },
     by decide +kernel⟩,
   ⟨withReq { rq with phase := .final, fin := (4, 0) }, 3, 5, { rq with phase := .final, fin := (4, 0) }, by decide +kernel⟩,
   ⟨withReq { rq with phase := .deferred, lane := false }, 3, by decide +kernel⟩⟩

theorem witness_AgentAccesses :
    (∃ (s : State) (a : Agent) (dpa : BitVec 43) (data : List Byte), s.Unhindered a ∧ s.Reaches a dpa.toNat data.length ∧ s.paging.flight =
      []) ∧
    (∃ (s : State) (a : Agent) (dpa : BitVec 43) (data : List Byte), s.Unhindered a ∧ s.Reaches a dpa.toNat data.length ∧ s.paging.flight =
      []) ∧
    (∃ (s : State) (a : Agent) (dpa : BitVec 43) (data : List Byte), (s.agent a).sync = false) ∧
    (∃ (s : State) (a : Agent) (dpa : BitVec 43) (len : Nat), (s.agent a).sync = false) ∧
    (∃ (s : State) (a : Agent) (dpa : BitVec 43) (len : Nat), s.Unhindered a ∧ s.Reaches a dpa.toNat len ∧ s.CleanMemory) ∧
    (∃ (s : State) (a : Agent) (dpa : BitVec 43) (data : List Byte), (s.agent a).sync = false ∧ (∀ m ∈ s.fab.flight, m.done = true) ∧ data
      ≠ []) ∧
    (∃ (s : State) (a : Agent) (dpa : BitVec 43) (data : List Byte), s.Unhindered a ∧ s.Reaches a dpa.toNat data.length ∧ s.paging.flight =
      []) ∧
    (∃ (s : State) (a : Agent) (dpa : BitVec 43) (len : Nat), s.Unhindered a ∧ 0 < len ∧ (∀ i, i < len → memDie (dpa.toNat + i) = none)) ∧
    (∃ (s : State) (a : Agent) (dpa : BitVec 43) (data : List Byte), s.Unhindered a ∧ data ≠ [] ∧ (∀ i, i < data.length → memDie (dpa.toNat
      + i) = none)) :=
  ⟨⟨onl, .boom 0, 0x1000, [1, 2], by decide +kernel⟩,
   ⟨onl, .core 1, 0xFFF, [0, 2, 3], by decide +kernel⟩,
   ⟨State.reset, .boom 0, 0x1000, [1, 2], by decide +kernel⟩,
   ⟨onl, .boom 0, 0x1000, 8, by decide +kernel⟩,
   ⟨onl, .boom 3, 0x1003, 7, by decide +kernel⟩,
   ⟨onl, .boom 3, 0x1001, [1, 0, 255], by decide +kernel⟩,
   ⟨onl, .boom 3, 0x1000, [1, 0, 255], by decide +kernel⟩,
   ⟨State.reset, .boom 3, 0x7FFFFFFFFF0, 8, by decide +kernel⟩,
   ⟨State.reset, .boom 3, 0x7FFFFFFFFF0, [8], by decide +kernel⟩⟩

theorem witness_SyncHoldsBack :
    (∃ (s : State) (a : Agent), (s.agent a).sync = false) ∧
    (∃ (s : State) (a : Agent) (o : MemOp), (s.agent a).sync = true) ∧
    (∃ (s : State) (c : BitVec 1) (p : BitVec 14) (off : BitVec 12) (be : BitVec 4) (v : Word), s.boot.opDone = false ∧ (s.agent (.core
      c)).sync = true) ∧
    (∃ (s : State) (x : MacroSt) (y : MacroSt), (s.agent (.boom (BitVec.ofNat 2 x.spar))).sync = true ∧ (s.fab.flight.find? fun z => decide
      (z.spar = x.spar) && decide (z.slot = x.slot)) = some y ∧ y.spar = x.spar ∧ (s.agent (.boom (BitVec.ofNat 2 x.spar))).syncAfter ≤
      y.num ∧ y.done = false ∧ y.started = false) ∧
    (∃ (s : State) (a : Agent), (s.agent a).sync = true ∧ (s.agent a).open_ ≠ []) ∧
    (∃ (s : State) (k : BitVec 2) (m : MacroSt), (s.agent (.boom k)).sync = true ∧ m ∈ s.fab.flight ∧ m.spar = k.toNat ∧ m.done = false ∧
      m.num < (s.agent (.boom k)).syncAfter) ∧
    (∃ (s : State) (a : Agent), (s.agent a).sync = true ∧ (s.agent a).open_ = [] ∧ (s.agent a).behind = [] ∧ s.fab.flight = []) :=
  ⟨⟨State.reset, .core 0, by decide +kernel⟩,
   ⟨State.reset.setAgent (.core 0) { sync := true }, .core 0, { store := true, sem := false, dpa := 64, len := 1, data := [1] },
     by decide +kernel⟩,
   ⟨State.reset.setAgent (.core 0) { sync := true, open_ := [{ store := true, sem := false, dpa := 64, len := 1, data := [1] }] }, 0,
     BitVec.ofNat 14 pgPwr, 0x10, 0xF, 3, by decide +kernel⟩,
   ⟨{ (State.reset.setAgent (.boom 0) { sync := true }) with fab := { flight := [ms 1] } }, ms 1, ms 1, by decide +kernel⟩,
   ⟨State.reset.setAgent (.core 0) { sync := true, open_ := [{ store := true, sem := false, dpa := 64, len := 1, data := [1] }] }, .core 0,
     by decide +kernel⟩,
   ⟨{ (State.reset.setAgent (.boom 0) { sync := true, syncAfter := 2 }) with fab := { flight := [ms 1] } }, 0, ms 1, by decide +kernel⟩,
   ⟨State.reset.setAgent (.core 0) { sync := true }, .core 0, by decide +kernel⟩⟩

theorem witness_PartitionCommands :
    (∃ (s : State) (m : Master) (p : BitVec 7), s.PrtFirst p.toNat ∧ s.Takes m (pgPrt p.toNat) 0x104 1 ∧ s.pstate p.toNat = psFree ∧
      s.ready = true ∧ s.bit Key.secStat 31 = true) ∧
    (∃ (s : State) (m : Master) (p : BitVec 7), s.PrtFirst p.toNat ∧ s.Takes m (pgPrt p.toNat) 0x104 2 ∧ s.commitCheck p.toNat = 0) ∧
    (∃ (s : State) (m : Master) (p : BitVec 7), s.PrtFirst p.toNat ∧ s.Takes m (pgPrt p.toNat) 0x104 2 ∧ s.commitCheck p.toNat ≠ 0) ∧
    (∃ (s : State) (m : Master) (p : BitVec 7), s.PrtFirst p.toNat ∧ s.Takes m (pgPrt p.toNat) 0x104 3 ∧ s.pstate p.toNat = psActive ∧
      s.hasDeferred p.toNat = false) ∧
    (∃ (s : State) (m : Master) (p : BitVec 7), s.PrtFirst p.toNat ∧ s.Takes m (pgPrt p.toNat) 0x104 4 ∧ s.pstate p.toNat = psActive ∧
      s.reqsLeft p.toNat = false) ∧
    (∃ (s : State) (m : Master) (p : BitVec 7), s.PrtFirst p.toNat ∧ s.Takes m (pgPrt p.toNat) 0x104 5 ∧ s.pstate p.toNat ≠ psFree ∧
      s.pstate p.toNat ≠ psReleasing) ∧
    (∃ (s : State) (p : BitVec 7), s.pstate p.toNat = psDraining ∧ s.reqsLeft p.toNat = false) ∧
    (∃ (s : State) (p : BitVec 7), s.pstate p.toNat = psResetting ∧ s.reqsLeft p.toNat = false ∧ (s.part p.toNat).prior < 8) ∧
    (∃ (s : State) (p : BitVec 7), s.pstate p.toNat = psReleasing) :=
  ⟨⟨prt 0, .hostPf, 3, by decide +kernel⟩,
   ⟨st [(Key.yrdStat 0, 0x80000000), (Key.lufStat 0, 0x80000000), (Key.clwStat 0, 0x80000000), (Key.sprBank 0 0, 1), (Key.bomStat 0,
     0x80000000)] (prt 1), .hostPf, 3, by decide +kernel⟩,
   ⟨prt 0, .hostPf, 3, by decide +kernel⟩,
   ⟨prt 2, .hostPf, 3, by decide +kernel⟩,
   ⟨prt 2, .hostPf, 3, by decide +kernel⟩,
   ⟨prt 1, .hostPf, 3, by decide +kernel⟩,
   ⟨prt psDraining, 3, by decide +kernel⟩,
   ⟨(prt psResetting).setPart 3 { prior := 2 }, 3, by decide +kernel⟩,
   ⟨prt psReleasing, 3, by decide +kernel⟩⟩

theorem witness_PartitionErrors :
    (∃ (s : State) (m : Master) (p : BitVec 7), s.PrtFirst p.toNat ∧ s.Takes m (pgPrt p.toNat) 0x104 1 ∧ s.pstate p.toNat ≠ psFree) ∧
    (∃ (s : State) (m : Master) (p : BitVec 7), s.PrtFirst p.toNat ∧ s.Takes m (pgPrt p.toNat) 0x104 3 ∧ s.pstate p.toNat = psFree) ∧
    (∃ (s : State) (m : Master) (p : BitVec 7), s.PrtFirst p.toNat ∧ s.Takes m (pgPrt p.toNat) 0x104 5 ∧ s.pstate p.toNat = psFree) ∧
    (∃ (s : State) (m : Master) (p : BitVec 7) (v : Word), s.Takes m (pgPrt p.toNat) 0x104 v ∧ 5 < getBits v 7 0) :=
  ⟨⟨prt 1, .hostPf, 3, by decide +kernel⟩,
   ⟨prt 0, .hostPf, 3, by decide +kernel⟩,
   ⟨prt 0, .hostPf, 3, by decide +kernel⟩,
   ⟨prt 0, .hostPf, 3, 6, by decide +kernel⟩⟩

theorem witness_KeysAndFunctionResets :
    (∃ (s : State) (p : BitVec 7) (t0 : Nat), (s.part p.toNat).destroy = some t0 ∧ t0 + 100000 ≤ s.tick ∧ (s.part p.toNat).keyFailed =
      false) ∧
    (∃ (s : State) (f : Nat) (e : ScrubItem), s.inScrub f = some e ∧ (∀ p, e.part = some p → (s.part p).keyFailed = false)) ∧
    (∃ (s : State) (n : BitVec 7), s.pstate n.toNat = psActive ∧ s.bit Key.secStat 31 = true ∧ s.reqsLeft n.toNat = false ∧ s.models = [] ∧
      s.paging.nodes = [] ∧ s.paging.flight = []) ∧
    (∃ (s : State) (n : BitVec 7), s.pstate n.toNat ≠ psReleasing ∧ (s.part n.toNat).flr = true ∧ s.bit Key.secStat 31 = true) ∧
    (∃ (s : State), s.bit Key.secStat 31 = true) :=
  ⟨⟨{ State.reset.setPart 3 { destroy := some 0 } with time := { cycle := 400000 } }, 3, 0, by decide +kernel⟩,
   ⟨{ (State.reset.wr 0x7FFF [1, 2]) with mem := { (State.reset.wr 0x7FFF [1, 2]).mem with scrub := [⟨8, 1, some 3, 0⟩] } }, 8, ⟨8, 1, some
     3, 0⟩, by decide +kernel, by intro p h; cases h; decide +kernel⟩,
   ⟨prt 2, 3, by decide +kernel⟩,
   ⟨(prt 2).setPart 3 { flr := true }, 3, by decide +kernel⟩,
   ⟨prt 2, by decide +kernel⟩⟩

theorem witness_MigrationBursts :
    (∃ (s : State) (a : BitVec 43) (d : BitVec 512) (src : List Nat) (r : HostRead (BitVec 512)) (l : HostRead (List (BitVec 64))),
      inDevice a.toNat = true ∧ d = BitVec.ofNat 512 (s.rdNat a.toNat 64) ∧ src = (List.range (pmgDesc d).count).map (fun i => s.rdNat
      ((pmgDesc d).src + 8 * i) 8) ∧ s.pmgOk (pmgDesc d) src false = true ∧ (pmgDesc d).op = 1) ∧
    (∃ (s : State) (a : BitVec 43) (d : BitVec 512) (src : List Nat) (r : HostRead (BitVec 512)) (l : HostRead (List (BitVec 64))),
      inDevice a.toNat = true ∧ d = BitVec.ofNat 512 (s.rdNat a.toNat 64) ∧ src = (List.range (pmgDesc d).count).map (fun i => s.rdNat
      ((pmgDesc d).src + 8 * i) 8) ∧ s.pmgOk (pmgDesc d) src false = true ∧ (pmgDesc d).op = 2) ∧
    (∃ (s : State) (a : BitVec 43) (d : BitVec 512) (src : List Nat) (r : HostRead (BitVec 512)) (l : HostRead (List (BitVec 64))),
      inDevice a.toNat = true ∧ d = BitVec.ofNat 512 (s.rdNat a.toNat 64) ∧ src = (List.range (pmgDesc d).count).map (fun i => s.rdNat
      ((pmgDesc d).src + 8 * i) 8) ∧ s.pmgOk (pmgDesc d) src false = true ∧ (pmgDesc d).op = 3) ∧
    (∃ (s : State) (d : BitVec 512) (l : List (BitVec 64)), s.pmgRingReady = true ∧ s.pmgOk (pmgDesc d) (l.map BitVec.toNat) true = true ∧
      (pmgDesc d).op = 1) ∧
    (∃ (s : State) (d : BitVec 512) (l : List (BitVec 64)), s.pmgRingReady = true ∧ s.pmgOk (pmgDesc d) (l.map BitVec.toNat) true = true ∧
      (pmgDesc d).op = 2) ∧
    (∃ (s : State) (d : BitVec 512) (l : List (BitVec 64)), s.pmgRingReady = true ∧ s.pmgOk (pmgDesc d) (l.map BitVec.toNat) true = true ∧
      (pmgDesc d).op = 3) ∧
    (∃ (s : State) (a : BitVec 43) (d : BitVec 512) (r : HostRead (BitVec 512)) (l : HostRead (List (BitVec 64))), inDevice a.toNat = true
      ∧ d = BitVec.ofNat 512 (s.rdNat a.toNat 64) ∧ (pmgDesc d).op = 1 ∧ s.pmgOk (pmgDesc d) ((List.range (pmgDesc d).count).map fun i =>
      s.rdNat ((pmgDesc d).src + 8 * i) 8) false = false) ∧
    (∃ (s : State) (list : HostRead (List (BitVec 64))), s.pmgRingReady = true) ∧
    (∃ (s : State) (b : Burst), b.part < 128 ∧ s.quota b.part b.dest.tier < b.moves.length * b.units) ∧
    (∃ (s : State) (b : Burst), b.moves.length * b.units ≤ s.quota b.part b.dest.tier ∧ (s.paging.waiting ≠ [] ∨ 16 ≤
      s.paging.flight.length)) :=
  ⟨⟨ownAt 0x18000000 1, BitVec.ofNat 43 dv, pdesc 1, [0x18000000000], none, none, by decide +kernel⟩,
   ⟨ownAt 16 2, BitVec.ofNat 43 dv, pdesc 2, [65536], none, none, by decide +kernel⟩,
   ⟨ownAt 16 3, BitVec.ofNat 43 dv, pdesc 3, [65536], none, none, by decide +kernel⟩,
   ⟨ringOn (own 0x18000000), pdesc0 1, [0x18000000000], by decide +kernel⟩,
   ⟨ringOn (own 16), pdesc0 2, [65536], by decide +kernel⟩,
   ⟨ringOn (own 16), pdesc0 3, [65536], by decide +kernel⟩,
   ⟨ownAt 16 1, BitVec.ofNat 43 dv, pdesc 1, none, none, by decide +kernel⟩,
   ⟨ringOn State.reset, none, by decide +kernel⟩,
   ⟨State.reset, bst, by decide +kernel⟩,
   ⟨{ State.reset.setPart 3 { held := { nearQuota := 16 } } with paging := { flight := List.replicate 16 bst } }, bst, by decide +kernel⟩⟩

theorem witness_MigrationProgress :
    (∃ (s : State) (pool : PoolId) (t : Tier), s.paging.waiting = [] ∧ s.paging.deferred = []) ∧
    (∃ (s : State) (pool : PoolId) (t : Tier) (b : Burst) (rest : List Burst), s.paging.waiting = [] ∧ s.paging.deferred = b :: rest ∧
      b.dest = ⟨pool, t⟩ ∧ (s.hideFresh 1).tryIssue b = none) ∧
    (∃ (s : State) (tag : BitVec 64) (i : Nat) (b : Burst) (m : Move) (a : Nat), (s.paging.flight.find? fun x => decide (x.tag = tag)) =
      some b ∧ b.moves[i]? = some m ∧ m.st = .copying ∧ m.entry = some a ∧ (⟨utMigration, 0, 0⟩ : UnitId) ∉ s.rel.out ∧ s.moveHeld b m =
      false ∧ s.pinWaits a = false ∧ s.CleanMemory ∧ ((s.copyPage m.src m.dst b.units).pte a).pins ≠ 0 ∧ s.paging.waiting = []) ∧
    (∃ (s : State) (m : Master) (v : Word), s.Takes m pgPmg 0x11C v ∧ s.Uncontested m Key.pmgHrTail ∧ s.bit Key.pmgHrCfg 31 = true ∧
      getBits v 9 0 < 2 ^ s.fld Key.pmgHrCfg 15 12 ∧ (s.fld Key.pmgHrTail 9 0 + 2 ^ s.fld Key.pmgHrCfg 15 12 - s.fld Key.pmgHrHead 9 0) % 2
      ^ s.fld Key.pmgHrCfg 15 12 + (getBits v 9 0 + 2 ^ s.fld Key.pmgHrCfg 15 12 - s.fld Key.pmgHrTail 9 0) % 2 ^ s.fld Key.pmgHrCfg 15 12
      < 2 ^ s.fld Key.pmgHrCfg 15 12) ∧
    (∃ (s : State) (m : Master) (v : Word), s.Takes m pgPmg 0x118 v ∧ s.Uncontested m Key.pmgHrCfg ∧ s.bit Key.pmgHrCfg 31 = false ∧
      getBits v 31 31 = 1 ∧ 4 ≤ getBits v 15 12 ∧ getBits v 15 12 ≤ 10) :=
  ⟨⟨State.reset, .unreserved, .near, by decide +kernel⟩,
   ⟨{ State.reset with paging := { deferred := [{ bst with dest := ⟨.unreserved, .near⟩ }], flight := List.replicate 16 bst } },
     .unreserved, .near, { bst with dest := ⟨.unreserved, .near⟩ }, [], by decide +kernel⟩,
   ⟨{ pteAt { pg with pinned := true, pins := 1 } with paging := { flight := [{ bst with moves := [⟨28672, 4096, some 0x2000, .copying, false⟩] }] } },
     77, 0, { bst with moves := [⟨28672, 4096, some 0x2000, .copying, false⟩] }, ⟨28672, 4096, some 0x2000, .copying, false⟩, 0x2000,
     by decide +kernel⟩,
   ⟨st [(Key.pmgHrCfg, 0x80004000), (Key.pmgHrTail, 15), (Key.pmgHrHead, 1)], .hostPf, 0, by decide +kernel⟩,
   ⟨State.reset, .hostPf, 0x8000A000, by decide +kernel⟩⟩

theorem witness_MemoryUnits :
    (∃ (s : State) (f : Nat) (u : Nat), unitOf (64 * (s.frameErrors f).getLastD 0) = some u ∧ 16 ≤ (s.frameErrors f).length ∧ f ∉
      s.mem.retired ∧ inDevice (f * 4096) = false ∧ (s.mem.retiring.any fun e => decide (e.1 = f)) = false ∧ (s.mem.used.find? fun e =>
      decide (e.start ≤ f) && decide (f < e.start + e.len)) = none ∧ s.inScrub f = none) ∧
    (∃ (s : State) (t : Tier) (u : BitVec 4) (n : Nat), memUnit t u = some n ∧ s.bit (unitReg n 0x100) 1 = true ∧ s.CleanMemory) ∧
    (∃ (s : State) (t : Tier) (u : BitVec 4) (n : Nat) (temp : Int), memUnit t u = some n) ∧
    (∃ (s : State) (t : Tier) (u : BitVec 4) (n : Nat) (temp : Int), memUnit t u = some n) ∧
    (∃ (s : State) (t : Tier) (u : BitVec 4) (n : Nat), memUnit t u = some n ∧ s.bit (unitReg n 0x100) 1 = true ∧ s.paging.shards = [] ∧
      s.paging.nodes = [] ∧ s.models = [] ∧ s.paging.flight = []) ∧
    (∃ (s : State) (retried : List (Tier × BitVec 4)) (failed : List (Tier × BitVec 4)) (us : List Word), s.ready = false ∧ s.mem.trained =
      false) :=
  ⟨⟨{ State.reset with mem := { ce := List.replicate 16 (64, 0) } }, 1, 0, by decide +kernel⟩,
   ⟨st [(unitReg 0 0x100, 2)], .near, 0, 0, by decide +kernel⟩,
   ⟨State.reset, .far, 15, 23, -5, by decide +kernel⟩,
   ⟨State.reset, .near, 7, 7, 341, by decide +kernel⟩,
   ⟨st [(unitReg 23 0x100, 2)], .far, 15, 23, by decide +kernel⟩,
   ⟨State.reset.wr 0x2000 [1, 2], [], [], [9, 8], by decide +kernel⟩⟩

theorem witness_Pins :
    (∃ (s : State) (entry : Nat) (gen : Byte), (s.pte (s.auth entry)).present = true ∧ s.entryBad entry = none ∧ (s.paging.pending.any fun
      x => decide (x.entry = s.auth entry) && x.barred) = false ∧ (s.pte (s.auth entry)).pins < 255 ∧ (gen = 0 ∨ gen = BitVec.ofNat 8
      (s.pte (s.auth entry)).gen)) ∧
    (∃ (s : State) (entry : Nat) (gen : Byte), (s.pte (s.auth entry)).present = true ∧ s.entryBad entry = none ∧ (s.paging.pending.any fun
      x => decide (x.entry = s.auth entry) && x.barred) = false ∧ (s.pte (s.auth entry)).pins < 255 ∧ (gen = 0 ∨ gen = BitVec.ofNat 8
      (s.pte (s.auth entry)).gen)) ∧
    (∃ (s : State) (entry : Nat) (gen : Byte), (s.pte (s.auth entry)).present = false ∧ s.entryBad entry = none ∧ s.paging.pending = []) ∧
    (∃ (s : State) (entry : Nat), (s.pte (s.auth entry)).pins ≠ 0 ∧ s.paging.pending = [] ∧ s.paging.pinWait = []) :=
  ⟨⟨pteAt pg, 0x2000, 0, by decide +kernel⟩,
   ⟨pteAt { pg with pins := 254, pinned := true, gen := 255 }, 0x2000, 255, by decide +kernel⟩,
   ⟨State.reset, 0x2000, 0, by decide +kernel⟩,
   ⟨pteAt { pg with pinned := true, pins := 1 }, 0x2000, by decide +kernel⟩⟩

theorem witness_AppendAndHold :
    (∃ (s : State) (u : State) (k : BitVec 2) (d : BitVec 512) (c : Scatter) (h : Shard), u = s.hideFresh 2 ∧ (s.paging.scatter.find? fun x
      => decide ((scatDesc x.desc).pt = (scatDesc d).pt)) = some c ∧ c.spar = k.toNat ∧ c.desc = d ∧ u.appendStatus (scatDesc d) = 0 ∧
      u.shardAt (scatDesc d).pt = some h ∧ (⟨utScatter, k.toNat, 0⟩ : UnitId) ∉ s.rel.out ∧ u.copyPinWaits ((scatDesc d).layout h)
      (scatDesc d) = false ∧ u.appendWaits ((scatDesc d).layout h) (scatDesc d) = false) ∧
    (∃ (s : State) (u : State) (k : BitVec 2) (d : BitVec 512) (c : Scatter) (ue : Option Nat), u = s.hideFresh 2 ∧ (s.paging.scatter.find?
      fun x => decide ((scatDesc x.desc).pt = (scatDesc d).pt)) = some c ∧ c.spar = k.toNat ∧ c.desc = d ∧ u.appendStatus (scatDesc d) ≠ 0) ∧
    (∃ (s : State) (pool : PoolId), s.heldOf pool = []) ∧
    (∃ (s : State) (pool : PoolId) (since : Nat) (h : Shard) (r : Req), ((s.paging.holdTick.find? fun e => decide (e.1 = pool)).map fun e
      => e.2) = some since ∧ s.heldOf pool = [h] ∧ h.waiting = true ∧ s.req h.part h.tag = some r ∧ r.adopted = false ∧ s.reqRing r = none
      ∧ since + max 1 (s.fld Key.kvpCfg 7 0) * 100000 ≤ s.tick) :=
  ⟨⟨scat 0, (scat 0).hideFresh 2, 0, sdesc 0, ⟨0, 0, 0, sdesc 0, false⟩, shd, rfl, by decide +kernel, by decide +kernel, by decide +kernel,
     by decide +kernel, by decide +kernel, by decide +kernel, by decide +kernel, by decide +kernel⟩,
   ⟨scat 1, (scat 1).hideFresh 2, 0, sdesc 1, ⟨0, 0, 0, sdesc 1, false⟩, none, rfl, by decide +kernel, by decide +kernel,
     by decide +kernel, by decide +kernel⟩,
   ⟨State.reset, .own 3, by decide +kernel⟩,
   ⟨{ withReq rq with paging := { shards := [{ shd with held := true, waiting := true }], holdTick := [(.unreserved, 0)] }, time := { cycle := 4000000000 } },
     .unreserved, 0, { shd with held := true, waiting := true }, rq, by decide +kernel⟩⟩

theorem witness_SlotsAndReefing :
    (∃ (s : State) (m : Master) (slot : BitVec 6), s.Takes m pgRfe 0x130 (BitVec.ofNat 32 (0x100 + slot.toNat)) ∧ s.bindCheck slot.toNat =
      0) ∧
    (∃ (s : State) (m : Master) (slot : BitVec 6), s.Takes m pgRfe 0x130 (BitVec.ofNat 32 (0x100 + slot.toNat)) ∧ s.bindCheck slot.toNat ≠
      0) ∧
    (∃ (s : State) (m : Master) (slot : BitVec 6), s.Takes m pgRfe 0x130 (BitVec.ofNat 32 (0x200 + slot.toNat)) ∧ s.slotBound slot.toNat =
      true ∧ (∀ n ∈ s.paging.nodes, n.scope ≠ .slot slot.toNat)) ∧
    (∃ (s : State) (slot : BitVec 6), s.slotClosing slot.toNat = true ∧ s.slotHolds slot.toNat = false ∧ (s.reqs.any fun r => r.active &&
      decide (r.scope = .slot slot.toNat)) = false) ∧
    (∃ (s : State), s.paging.aged + max 1 (s.fld Key.rfeCfg 23 16) * 100000 ≤ s.tick) ∧
    (∃ (s : State) (pool : PoolId) (t : Tier), s.tierBelow pool t s.kvpLow = false ∧ s.tierBelow pool t s.kvpCrit = false) ∧
    (∃ (s : State) (pool : PoolId) (t : Tier), s.tierBelow pool t s.kvpLow = true ∧ s.tierBelow pool t s.kvpCrit = false ∧ s.pending = [] ∧
      s.candidates (fun n => !s.indexOnly n) pool t = [] ∧ s.reefDone pool t 0 = false) ∧
    (∃ (s : State) (entry : Nat), (s.paging.pending.any fun x => decide (x.entry = entry) && x.drop) = true ∧ (s.pte entry).pins ≠ 0 ∧
      s.paging.pinWait = []) :=
  ⟨⟨st [(Key.rfeBindCtl 5, 7), (Key.rfeBindMask 5 0, 0x18), (Key.prtState 3, 1), (Key.prtState 4, 1), (Key.prtCfg 3, 2), (Key.prtCfg 4,
     2)], .hostPf, 5, by decide +kernel⟩,
   ⟨State.reset, .hostPf, 63, by decide +kernel⟩,
   ⟨st [(Key.rfeBindCtl 5, 0x80000007)], .hostPf, 5, by decide +kernel⟩,
   ⟨st [(Key.rfeBindCtl 5, 0x40000007)], 5, by decide +kernel⟩,
   ⟨{ State.reset with time := { cycle := 0x10000000000 } }, by decide +kernel⟩,
   ⟨State.reset, .unreserved, .near, by decide +kernel⟩,
   ⟨{ onl.setPart 3 { held := { isSealed := true, nearQuota := 1, frames := [(0, 256)] } } with mem := { used := [⟨0, 250, .kv 3, 3⟩] } },
     .own 3, .near, by decide +kernel⟩,
   ⟨{ pteAt { pg with pinned := true, pins := 1 } with paging := { pending := [⟨0x2000, true, 0, false, false⟩] } }, 0x2000,
     by decide +kernel⟩⟩

theorem witness_PlansAndWalks :
    (∃ (s : State) (p : BitVec 7) (h : BitVec 16) (plan : BitVec 2) (spar : BitVec 2) (m : Model) (b : BoundPlan), s.model p.toNat h.toNat
      = some m ∧ m.st ≠ .loading ∧ plan.toNat < planCount (s.section m 2) ∧ (s.fab.plans.find? fun x => decide (x.part = m.part) && decide
      (x.handle = m.handle) && decide (x.plan = plan.toNat)) = none ∧ s.bindAhead m plan.toNat spar.toNat = false ∧ s.fitModel m plan.toNat
      spar.toNat (demandOf (s.section m 2) plan.toNat) = some b) ∧
    (∃ (s : State) (p : BitVec 7) (h : BitVec 16) (plan : BitVec 2) (spar : BitVec 2) (m : Model), s.model p.toNat h.toNat = some m ∧ m.st
      ≠ .loading ∧ plan.toNat < planCount (s.section m 2) ∧ (s.fab.plans.find? fun x => decide (x.part = m.part) && decide (x.handle =
      m.handle) && decide (x.plan = plan.toNat)) = none ∧ s.displaceable m.part = [] ∧ s.fitModel m plan.toNat spar.toNat (demandOf
      (s.section m 2) plan.toNat) = none) ∧
    (∃ (s : State) (spar : BitVec 2) (p : BitVec 7) (tags : List (BitVec 64)) (h : BitVec 16) (walk : Nat) (r : Req) (m : Model) (e :
      WalkEntry) (i : Nat) (id : Nat) (st : StepEntry), s.walkReq p.toNat tags h.toNat = some r ∧ r.phase = .decode ∧ s.model p.toNat
      h.toNat = some m ∧ s.inService ⟨utBoom, spar.toNat, 0⟩ = true ∧ s.roundTurn r = true ∧ s.walkAhead spar.toNat r.part tags = false ∧
      (walkTable (s.section m 3))[walk]? = some e ∧ e.phase = 1 ∧ e.mode = 0 ∧ stepIndex (s.steps m) 0 walk true r.d.orderFree = some (i,
      st) ∧ (∀ w ∈ s.fab.walks, w.part = r.part → ∀ t ∈ tags, t ∉ w.tags) ∧ s.fab.doneSteps = [] ∧ s.predsDone r.part tags st = true ∧
      s.freeWalk spar.toNat = some id ∧ (s.fab.plans.any fun b => decide (b.part = m.part) && decide (b.handle = m.handle) && decide
      (b.plan = e.plan) && decide (b.spar = spar.toNat)) = true ∧ s.poisoned (dpaOf m.sections 3 + e.offset) (128 * e.count) = none) :=
  ⟨⟨pimg, 3, 1, 0, 0, wmd, { part := 3, handle := 1, plan := 0, spar := 0, yards := [0], luffs := [], clews := [], banks := [] },
     by decide +kernel⟩,
   ⟨pimg, 3, 1, 0, 1, wmd, by decide +kernel⟩,
   ⟨{ wimg with fab := { plans := [bp] } }, 0, 3, [5], 1, 0, rq, wmd,
     { phase := 1, mode := 0, plan := 0, layer := 0, count := 1, offset := 0x80, regs := List.replicate 12 0 }, 0, 0,
     { phase := 1, mode := 0, kind := 0, index := 0, preds := [] }, by decide +kernel⟩⟩

theorem witness_MacrosIssue :
    (∃ (s : State) (spar : BitVec 2) (id : BitVec 6) (w : Walk) (b : BoundPlan) (slot : Nat) (chk : Check) (f : Option SparFault) (late :
      Bool), s.Issues spar id (1, 0) w b slot) ∧
    (∃ (s : State) (spar : BitVec 2) (id : BitVec 6) (w : Walk) (b : BoundPlan) (slot : Nat) (chk : Check) (f : Option SparFault) (late :
      Bool), s.Issues spar id (2, 0) w b slot) ∧
    (∃ (s : State) (spar : BitVec 2) (id : BitVec 6) (w : Walk) (b : BoundPlan) (slot : Nat) (chk : Check) (f : Option SparFault) (late :
      Bool), s.Issues spar id (3, 0) w b slot) ∧
    (∃ (s : State) (spar : BitVec 2) (id : BitVec 6) (w : Walk) (b : BoundPlan) (slot : Nat) (chk : Check) (f : Option SparFault) (late :
      Bool), s.Issues spar id (5, 0) w b slot) ∧
    (∃ (s : State) (spar : BitVec 2) (id : BitVec 6) (w : Walk) (b : BoundPlan) (slot : Nat) (chk : Check) (f : Option SparFault) (late :
      Bool), s.Issues spar id (4, 1) w b slot) ∧
    (∃ (s : State) (spar : BitVec 2) (id : BitVec 6) (w : Walk) (b : BoundPlan) (slot : Nat) (chk : Check) (f : Option SparFault) (late :
      Bool), s.Issues spar id (4, 2) w b slot) ∧
    (∃ (s : State) (spar : BitVec 2) (id : BitVec 6) (w : Walk) (b : BoundPlan) (slot : Nat) (chk : Check) (f : Option SparFault) (late :
      Bool), s.Issues spar id (4, 3) w b slot) ∧
    (∃ (s : State) (spar : BitVec 2) (id : BitVec 6) (w : Walk) (b : BoundPlan) (slot : Nat) (chk : Check) (f : Option SparFault) (late :
      Bool), s.Issues spar id (4, 4) w b slot) ∧
    (∃ (s : State) (spar : BitVec 2) (id : BitVec 6) (w : Walk) (b : BoundPlan) (slot : Nat) (chk : Check) (f : Option SparFault) (late :
      Bool), s.Issues spar id (4, 5) w b slot) ∧
    (∃ (s : State) (spar : BitVec 2) (id : BitVec 6) (w : Walk) (b : BoundPlan) (slot : Nat) (chk : Check) (f : Option SparFault) (late :
      Bool), s.Issues spar id (4, 6) w b slot) ∧
    (∃ (s : State) (spar : BitVec 2) (id : BitVec 6) (w : Walk) (b : BoundPlan) (slot : Nat) (chk : Check) (f : Option SparFault) (late :
      Bool), s.Issues spar id (4, 7) w b slot) ∧
    (∃ (s : State) (spar : BitVec 2) (id : BitVec 6) (w : Walk) (b : BoundPlan) (slot : Nat) (chk : Check) (f : Option SparFault) (late :
      Bool), s.Issues spar id (4, 8) w b slot) ∧
    (∃ (s : State) (spar : BitVec 2) (id : BitVec 6) (w : Walk) (b : BoundPlan) (slot : Nat) (chk : Check) (f : Option SparFault) (late :
      Bool), s.Issues spar id (6, 1) w b slot) ∧
    (∃ (s : State) (spar : BitVec 2) (id : BitVec 6) (w : Walk) (b : BoundPlan) (slot : Nat) (chk : Check) (f : Option SparFault) (late :
      Bool), s.Issues spar id (6, 2) w b slot) ∧
    (∃ (s : State) (spar : BitVec 2) (id : BitVec 6) (w : Walk) (b : BoundPlan) (slot : Nat) (chk : Check) (f : Option SparFault) (late :
      Bool), s.Issues spar id (6, 3) w b slot) ∧
    (∃ (s : State) (spar : BitVec 2) (id : BitVec 6) (w : Walk) (b : BoundPlan) (slot : Nat) (chk : Check) (f : Option SparFault) (late :
      Bool), s.Issues spar id (6, 4) w b slot) ∧
    (∃ (s : State) (spar : BitVec 2) (id : BitVec 6) (w : Walk) (b : BoundPlan) (slot : Nat) (chk : Check) (f : Option SparFault) (late :
      Bool), s.Issues spar id (6, 5) w b slot) ∧
    (∃ (s : State) (spar : BitVec 2) (id : BitVec 6) (w : Walk) (b : BoundPlan) (slot : Nat) (chk : Check) (f : Option SparFault) (late :
      Bool), s.Issues spar id (6, 6) w b slot) :=
  ⟨⟨wst 1 0, 0, 0, wk, bp, 0, chk0, none, false, by decide +kernel⟩,
   ⟨wst 2 0, 0, 0, wk, bp, 0, chk0, none, false, by decide +kernel⟩,
   ⟨wst 3 0, 0, 0, wk, bp, 0, chk0, none, false, by decide +kernel⟩,
   ⟨wst 5 0, 0, 0, wk, bp, 0, chk0, none, false, by decide +kernel⟩,
   ⟨wst 4 1, 0, 0, wk, bp, 0, chk0, none, false, by decide +kernel⟩,
   ⟨wst 4 2, 0, 0, wk, bp, 0, chk0, none, false, by decide +kernel⟩,
   ⟨wst 4 3, 0, 0, wk, bp, 0, chk0, none, false, by decide +kernel⟩,
   ⟨wst 4 4, 0, 0, wk, bp, 0, chk0, none, false, by decide +kernel⟩,
   ⟨wst 4 5, 0, 0, wk, bp, 0, chk0, none, false, by decide +kernel⟩,
   ⟨wst 4 6, 0, 0, wk, bp, 0, chk0, none, false, by decide +kernel⟩,
   ⟨wst 4 7, 0, 0, wk, bp, 0, chk0, none, false, by decide +kernel⟩,
   ⟨wst 4 8, 0, 0, wk, bp, 0, chk0, none, false, by decide +kernel⟩,
   ⟨wst 6 1, 0, 0, wk, bp, 0, chk0, none, false, by decide +kernel⟩,
   ⟨wst 6 2, 0, 0, wk, bp, 0, chk0, none, false, by decide +kernel⟩,
   ⟨wst 6 3, 0, 0, wk, bp, 0, chk0, none, false, by decide +kernel⟩,
   ⟨wst 6 4, 0, 0, wk, bp, 0, chk0, none, false, by decide +kernel⟩,
   ⟨wst 6 5, 0, 0, wk, bp, 0, chk0, none, false, by decide +kernel⟩,
   ⟨wst 6 6, 0, 0, wk, bp, 0, chk0, none, false, by decide +kernel⟩⟩

theorem witness_MacroIssueOrder :
    (∃ (s : State) (w : Walk) (m : Mac) (slot : Nat) (done : Bool) (late : Bool), s.walkAt w.spar w.id = some w ∧ m.last = false) ∧
    (∃ (s : State) (spar : BitVec 2) (id : BitVec 6) (w : Walk) (b : BoundPlan) (chk : Check) (f : Option SparFault) (late : Bool),
      s.walkAt spar.toNat id.toNat = some w ∧ s.stopsHere w = false ∧ w.stopped = false ∧ w.next < w.count ∧ s.inService ⟨utBoom,
      spar.toNat, 0⟩ = true ∧ s.poisoned (w.list + 128 * w.next) 128 = none ∧ w.test = false ∧ macRow (s.macAt w w.next) = (1, 0) ∧
      s.walkPlan w = some b ∧ s.planLost b = false ∧ s.freeSlot spar.toNat = none) ∧
    (∃ (s : State) (x : MacroSt) (a : MacroSt) (w : Walk) (b : BoundPlan) (wr : Nat × Nat) (rd : Nat × Nat), (s.fab.flight.find? fun y =>
      decide (y.spar = x.spar) && decide (y.slot = x.slot)) = some x ∧ s.walkAt x.spar x.walk = some w ∧ s.walkPlan w = some b ∧ x.done =
      false ∧ x.started = false ∧ x.resolved = true ∧ a ∈ s.earlier x ∧ wr ∈ a.writes ∧ rd ∈ x.reads ∧ meets wr rd = true) :=
  ⟨⟨wst 1 0, wk, dsc 1024 [(0, 1)], 7, false, true, by decide +kernel⟩,
   ⟨full1024, 0, 0, wk, bp, chk0, none, true, by decide +kernel, by decide +kernel, by decide +kernel, by decide +kernel,
     by decide +kernel, by decide +kernel, by decide +kernel, by decide +kernel, by decide +kernel, by decide +kernel, full1024_taken⟩,
   ⟨{ wst 1 0 with fab := { plans := [bp], walks := [wk], flight := [{ mst with slot := 1, writes := [(64, 64)] }, { mst with resolved := true, reads := [(127, 1)] }] } },
     { mst with resolved := true, reads := [(127, 1)] }, { mst with slot := 1, writes := [(64, 64)] }, wk, bp, (64, 64), (127, 1),
     by decide +kernel⟩⟩

theorem witness_RetireAndTest :
    (∃ (s : State) (spar : BitVec 2) (slot : BitVec 10) (x : MacroSt) (w : Walk), s.fab.flight = [x] ∧ x.spar = spar.toNat ∧ x.slot =
      slot.toNat ∧ x.done = true ∧ s.walkAt x.spar x.walk = some w ∧ w.test = false ∧ w.count ≤ w.next) ∧
    (∃ (s : State) (m : Master) (k : BitVec 2) (v : Word) (id : Nat), s.Takes m (pgBom k.toNat) 0x188 v ∧ getBits v 0 0 = 1 ∧ getBits v 15
      8 < 128 ∧ s.pstate (getBits v 15 8) = psActive ∧ s.bit (Key.bomTestStat k.toNat) 31 = false ∧ s.freeWalk k.toNat = some id ∧ 0 <
      getBits v 31 16) ∧
    (∃ (s : State) (m : Master) (i : BitVec 5) (v : Word), s.Takes m (pgYrd i.toNat) 0x104 v ∧ s.Uncontested m (regKey (pgYrd i.toNat)
      0x104) ∧ s.locked (pgYrd i.toNat) = false ∧ s.bit (regKey (pgYrd i.toNat) 0x104) 0 = false ∧ getBits v 0 0 = 1) ∧
    (∃ (s : State) (m : Master) (i : BitVec 3) (v : Word), s.Takes m (pgLuf i.toNat) 0x104 v ∧ s.Uncontested m (regKey (pgLuf i.toNat)
      0x104) ∧ s.locked (pgLuf i.toNat) = false ∧ s.bit (regKey (pgLuf i.toNat) 0x104) 0 = false ∧ getBits v 0 0 = 1) ∧
    (∃ (s : State) (m : Master) (i : BitVec 4) (v : Word), s.Takes m (pgClw i.toNat) 0x104 v ∧ s.Uncontested m (regKey (pgClw i.toNat)
      0x104) ∧ s.locked (pgClw i.toNat) = false ∧ s.bit (regKey (pgClw i.toNat) 0x104) 0 = false ∧ getBits v 0 0 = 1) ∧
    (∃ (s : State) (bank : Byte), bank.toNat < 192 ∧ s.inService ⟨utBank, bank.toNat, 0⟩ = true ∧ s.bankDue bank.toNat = true) ∧
    (∃ (s : State) (u : UnitId), s.inService u = true ∧ s.usersOf u = [] ∧ s.holder u = none ∧ ((s.setService u false).unbindUnit
      u).poolAlive = true) :=
  ⟨⟨{ wst 1 0 with fab := { plans := [bp], walks := [{ wk with next := 1 }], flight := [{ mst with done := true }] } }, 0, 0,
     { mst with done := true }, { wk with next := 1 }, by decide +kernel⟩,
   ⟨st [(Key.prtState 3, 2)], .hostPf, 2, 0xFFFF0301, 0, by decide +kernel⟩,
   ⟨st [(Key.yrdStat 31, 0x80000000)], .hostPf, 31, 1, by decide +kernel⟩,
   ⟨st [(Key.lufStat 7, 0x80000000)], .hostPf, 7, 1, by decide +kernel⟩,
   ⟨st [(Key.clwStat 15, 0x80000000)], .hostPf, 15, 1, by decide +kernel⟩,
   ⟨{ st [(Key.sprBank 3 47, 1)] with fab := { bankCe := List.replicate 64 (191, 0) } }, 191, by decide +kernel⟩,
   ⟨st [(Key.yrdStat 0, 0x80000000), (Key.yrdStat 1, 0x80000000), (Key.lufStat 0, 0x80000000), (Key.clwStat 0, 0x80000000), (Key.sprBank 0
     0, 1)], ⟨1, 0, 0⟩, by decide +kernel⟩⟩

theorem witness_CanvasEvaluates :
    (∃ (s : State) (die : BitVec 2) (p : BitVec 7) (tag : BitVec 64) (h : BitVec 16) (job : Nat) (r : Req) (m : Model) (i : Nat) (e :
      StepEntry), s.req p.toNat tag = some r ∧ s.model p.toNat h.toNat = some m ∧ r.working = true ∧ r.d.model = m.handle ∧ s.bit
      (Key.cnvStat die.toNat) 31 = true ∧ stepIndex (s.steps m) 1 job r.inDecode r.d.orderFree = some (i, e) ∧ s.roundTurn r = true ∧
      s.cnv.jobs = [] ∧ s.cnv.waiting = [] ∧ s.fab.doneSteps = [] ∧ s.predsDone r.part (s.stepTags r) e = true) ∧
    (∃ (s : State) (die : BitVec 2) (chk : Check), s.bit (Key.cnvStat die.toNat) 31 = true ∧ SMap.get (fun _ => 0) s.cnv.slots die.toNat +
      42 ≤ s.tick ∧ s.cnv.jobs = [] ∧ chk.mismatches = 0) ∧
    (∃ (s : State) (die : BitVec 2) (chk : Check) (j : Job) (e : SubEval), s.bit (Key.cnvStat die.toNat) 31 = true ∧ SMap.get (fun _ => 0)
      s.cnv.slots die.toNat + 42 ≤ s.tick ∧ s.power.idle = [] ∧ s.cnv.jobs = [j] ∧ j.die = die.toNat ∧ (s.planSlot die.toNat).start =
      [(j.die, j.slot, e)] ∧ e ∈ j.todo ∧ (s.planSlot die.toNat).waits = [] ∧ chk.mismatches = 0) ∧
    (∃ (s : State) (die : BitVec 2) (panel : BitVec 11) (j : Job) (e : SubEval), s.cnv.jobs = [j] ∧ j.todo = [e] ∧ e.repeat_ = true ∧ 2048
      * die.toNat + panel.toNat ∈ s.tilePanels j.desc e.ti e.tj ∧ 2048 * die.toNat + panel.toNat ∉ s.cnv.held) :=
  ⟨⟨{ (st [(Key.cnvStat 0, 0x80000000)]).wr 0x9000 [1, 0, 1, 0, 0, 0, 0xFF, 0xFF, 0xFF, 0xFF, 0xFF, 0xFF, 0xFF, 0xFF] with models := [wmd], reqs := [rq] },
     0, 3, 5, 1, 0, rq, wmd, 0, { phase := 1, mode := 0, kind := 1, index := 0, preds := [] }, by decide +kernel⟩,
   ⟨{ st [(Key.cnvStat 3, 0x80000000)] with time := { cycle := 168 } }, 3, chk0, by decide +kernel⟩,
   ⟨cst [job1], 0, chk0, job1, sev, by decide +kernel⟩,
   ⟨cst [{ job1 with todo := [{ sev with repeat_ := true }] }], 0, 0, { job1 with todo := [{ sev with repeat_ := true }] },
     { sev with repeat_ := true }, by decide +kernel⟩⟩

theorem witness_CanvasPrograms :
    (∃ (s : State) (die : BitVec 2) (panel : BitVec 11), (s.panel (2048 * die.toNat + panel.toNat)).out = false ∧ (s.panel (2048 *
      die.toNat + panel.toNat)).owed = true ∧ (s.panel (2048 * die.toNat + panel.toNat)).batch = none ∧ s.power.idle = [] ∧ 2375 ≤
      s.pins.vprog ∧ s.mayProgram (2048 * die.toNat + panel.toNat) = true) ∧
    (∃ (s : State) (g : Byte) (bad : List (BitVec 5 × BitVec 10)) (m : Model) (b : BoundGroup), s.boundGroup g.toNat = some (m, b) ∧
      b.retained = true ∧ s.mayProgram (32 * g.toNat) = true) ∧
    (∃ (s : State) (g : Byte), (s.group g.toNat).model = none ∧ (s.group g.toNat).tag.valid = false ∧ 2375 ≤ s.pins.vprog ∧ (∀ q ∈
      groupPanels g.toNat, (s.panel q).copy = none)) :=
  ⟨⟨pst { pan with owed := true }, 0, 0, by decide +kernel⟩,
   ⟨{ pst pan with models := [{ md with groups := [{ logical := 0, phys := 0, mode := 0, retained := true }] }] }, 0, [(0, 5)],
     { md with groups := [{ logical := 0, phys := 0, mode := 0, retained := true }] },
     { logical := 0, phys := 0, mode := 0, retained := true }, by decide +kernel⟩,
   ⟨{ State.reset with cnv := { panels := [(31, { cells := [(5, 7)], spares := [3], cycles := 2 })] } }, 0, by decide +kernel⟩⟩

theorem witness_CanvasUpkeep :
    (∃ (s : State) (g : Byte) (temp : Int), s.inService ⟨utGroup, g.toNat, 0⟩ = true ∧ s.settled g.toNat = true ∧ s.refDue g.toNat = true ∧
      s.power.idle = [] ∧ (∀ q ∈ s.tilesOf g.toNat, (s.panel q).refreshing = false ∧ (s.panel q).copy.map (s.poisoned · 524288) = some
      none)) ∧
    (∃ (s : State) (g : Byte) (temp : Int), (s.group g.toNat).tRef = none) ∧
    (∃ (s : State) (g : Byte) (temp : Int) (t0 : Int), (s.group g.toNat).tRef = some t0) ∧
    (∃ (s : State) (die : BitVec 2) (panel : BitVec 11) (a : Nat) (i : Nat), (s.panel (2048 * die.toNat + panel.toNat)).out = false ∧
      (s.panel (2048 * die.toNat + panel.toNat)).refreshDue = true ∧ (∀ e ∈ s.cnv.panels, e.2.refreshing = false) ∧ 2375 ≤ s.pins.vprog ∧
      (s.panel (2048 * die.toNat + panel.toNat)).copy = some a ∧ (s.panel (2048 * die.toNat + panel.toNat)).image = some i ∧ s.poisoned a
      524288 = none) ∧
    (∃ (s : State) (die : BitVec 2) (panel : BitVec 11) (refs : Bool) (a : Nat) (i : Nat), s.inService ⟨utGroup, groupOfPanel (2048 *
      die.toNat + panel.toNat), 0⟩ = true ∧ s.panelReady (2048 * die.toNat + panel.toNat) = true ∧ (s.panel (2048 * die.toNat +
      panel.toNat)).batch = none ∧ s.power.idle = [] ∧ s.upkeepOff (groupOfPanel (2048 * die.toNat + panel.toNat)) = false ∧ s.rel.inject =
      none ∧ s.rel.deviant = [] ∧ (s.panel (2048 * die.toNat + panel.toNat)).copy = some a ∧ (s.panel (2048 * die.toNat +
      panel.toNat)).image = some i ∧ s.poisoned a 524288 = none) ∧
    (∃ (s : State) (die : BitVec 2) (panel : BitVec 11) (col : BitVec 10) (a : Nat) (i : Nat), (s.panel (2048 * die.toNat +
      panel.toNat)).out = false ∧ col.toNat ∈ (s.panel (2048 * die.toNat + panel.toNat)).sparing ∧ (s.panel (2048 * die.toNat +
      panel.toNat)).batch = none ∧ 2375 ≤ s.pins.vprog ∧ (s.panel (2048 * die.toNat + panel.toNat)).spares.length < 16 ∧ (s.panel (2048 *
      die.toNat + panel.toNat)).copy = some a ∧ (s.panel (2048 * die.toNat + panel.toNat)).image = some i ∧ s.poisoned a 524288 = none) ∧
    (∃ (s : State) (m : Master) (g : Byte), s.Takes m (pgCpg g.toNat) (upkCmdAt g) 1) ∧
    (∃ (s : State) (m : Master) (g : Byte), s.Takes m (pgCpg g.toNat) (upkCmdAt g) 2) :=
  ⟨⟨pst pan, 0, 50, by decide +kernel⟩,
   ⟨State.reset, 255, -40, by decide +kernel⟩,
   ⟨State.reset.setGroup 7 { tRef := some 20 }, 7, 22, 20, by decide +kernel⟩,
   ⟨State.reset.setPanel 8191 { pan with refreshDue := true }, 3, 2047, 0x80000, 0, by decide +kernel⟩,
   ⟨pst { pan with dev := [(1, 1)] }, 0, 0, true, 0x80000, 0, by decide +kernel⟩,
   ⟨State.reset.setPanel 0 { pan with sparing := [5, 6] }, 0, 0, 5, 0x80000, 0, by decide +kernel⟩,
   ⟨State.reset, .hostPf, 255, by decide +kernel⟩,
   ⟨State.reset, .hostPf, 0, by decide +kernel⟩⟩

theorem witness_NumbersRound :
    (∃ (f : Fmt) (w : Nat), f ∈ [fmt32, fmt16, fmtBf, fmtE4, fmtE5] ∧ w < 2 ^ (1 + f.eb + f.mb) ∧ (f.decode w).isFin = true) ∧
    (∃ (f : Fmt) (w : Nat), f ∈ [fmt32, fmt16, fmtBf, fmtE4, fmtE5] ∧ w < 2 ^ (1 + f.eb + f.mb) ∧ (f.decode w).isFin = true) ∧
    (∃ (m : Nat) (d : Nat), 2 * ((shrRne m d * 2 ^ d : Int) - m).natAbs = 2 ^ d) ∧
    (∃ (f : Fmt) (x : Fp), f ∈ [fmt32, fmt16, fmtBf, fmtE4, fmtE5] ∧ x.isNan = false) :=
  ⟨⟨fmt32, 0x7F7FFFFF, by decide +kernel⟩,
   ⟨fmtE4, 0x7E, by decide +kernel⟩,
   ⟨3, 1, by decide +kernel⟩,
   ⟨fmtE5, fmt32.decode 0xFF800000, by decide +kernel⟩⟩

theorem witness_RingsForm :
    (∃ (s : State) (m : Master) (k : BitVec 3), s.Takes m pgShr (0x414 + 0x40 * k.toNat) 1 ∧ s.ringState k.toNat = rgIdle ∧ s.ready = true
      ∧ s.pstate (s.ringPart k.toNat) = psActive ∧ ((List.range 8).any fun j => decide (j ≠ k.toNat) && decide (s.ringHandle j =
      s.ringHandle k.toNat)) = false ∧ s.sheet ≠ 4 ∧ 2 ≤ s.ringSize k.toNat ∧ s.ringSize k.toNat ≤ 32 ∧ s.ringMember k.toNat < s.ringSize
      k.toNat) ∧
    (∃ (s : State) (k : BitVec 3), s.ringState k.toNat = rgForming) ∧
    (∃ (s : State) (k : BitVec 3) (a : RingAnswer), s.ringState k.toNat = rgForming ∧ a.handle.toNat = s.ringHandle k.toNat ∧ a.size.toNat
      = s.ringSize k.toNat ∧ a.mirror = s.ringMirror k.toNat ∧ a.member.toNat = (s.ringMember k.toNat + s.ringSize k.toNat - 1) % max 1
      (s.ringSize k.toNat) ∧ a.coords.toNat = s.ringLeft k.toNat ∧ (s.ring k.toNat).rightOk = true ∧ s.fld Key.ttlStat 31 29 ≠ 4) ∧
    (∃ (s : State) (k : BitVec 3) (left : Bool) (a : RingAnswer), s.ringState k.toNat = rgForming ∧ a.handle.toNat = s.ringHandle k.toNat ∧
      a.size.toNat ≠ s.ringSize k.toNat) ∧
    (∃ (s : State) (k : BitVec 3) (t0 : Nat), s.ringState k.toNat = rgForming ∧ (s.ring k.toNat).formed = some t0 ∧ t0 + 100000000 ≤
      s.tick) ∧
    (∃ (s : State) (m : Master) (k : BitVec 3), s.Takes m pgShr (0x414 + 0x40 * k.toNat) 2 ∧ s.ringState k.toNat ≠ rgIdle ∧ s.ringReqs
      k.toNat = [] ∧ (s.ring k.toNat).mirror = []) ∧
    (∃ (s : State) (m : Master) (k : BitVec 3), s.Takes m pgShr (0x414 + 0x40 * k.toNat) 2 ∧ s.ringState k.toNat ≠ rgIdle ∧ s.ringReqs
      k.toNat ≠ []) :=
  ⟨⟨st [(Key.shrRingCfg 2, 0x71020), (Key.shrRingPart 2, 3), (Key.rstStat, 0x80000100), (Key.prtState 3, 2)], .hostPf, 2,
     by decide +kernel⟩,
   ⟨rgs 1 1, 2, by decide +kernel⟩,
   ⟨(rgs 1 1).setRing 2 { rightOk := true, formed := some 0 }, 2, ans, by decide +kernel⟩,
   ⟨rgs 1 1, 2, false, { ans with size := 5 }, by decide +kernel⟩,
   ⟨{ (rgs 1 1).setRing 2 { formed := some 0 } with time := { cycle := 400000000 } }, 2, 0, by decide +kernel⟩,
   ⟨rgs 2 1, .hostPf, 2, by decide +kernel⟩,
   ⟨rgr 2 1, .hostPf, 2, by decide +kernel⟩⟩

theorem witness_RingsRun :
    (∃ (s : State) (k : BitVec 3) (member : BitVec 5) (tag : BitVec 64) (layer : Nat) (pages : Nat) (r : Req), s.ringState k.toNat =
      rgReady ∧ member.toNat < s.ringSize k.toNat ∧ ((s.ringReqs k.toNat).find? fun r => decide (r.tag = tag) && r.admitted) = some r ∧
      s.leaderOf k.toNat r ≠ s.ringMember k.toNat ∧ member.toNat ≠ s.ringMember k.toNat ∧ s.routeTo (s.ringRight k.toNat) ≠ []) ∧
    (∃ (s : State) (k : BitVec 3) (member : BitVec 5) (tag : BitVec 64) (layer : Nat) (pages : Nat) (r : Req), s.ringState k.toNat =
      rgReady ∧ member.toNat < s.ringSize k.toNat ∧ 1 < s.ringSize k.toNat ∧ ((s.ringReqs k.toNat).find? fun r => decide (r.tag = tag) &&
      r.admitted) = some r ∧ s.leaderOf k.toNat r = s.ringMember k.toNat ∧ (s.ring k.toNat).readies = []) ∧
    (∃ (s : State) (k : BitVec 3) (leader : BitVec 5) (t0 : BitVec 64) (d : Nat) (steps : Nat), s.ringState k.toNat = rgReady ∧
      leader.toNat ≠ s.ringMember k.toNat) ∧
    (∃ (s : State) (k : BitVec 3), s.ringGoes k.toNat = true ∧ (s.ring k.toNat).running = true ∧ (s.ring k.toNat).step < (s.ring
      k.toNat).steps ∧ (s.ring k.toNat).due (s.ring k.toNat).step ≤ s.time.count.toNat) ∧
    (∃ (s : State) (k : BitVec 3) (step : Nat), s.ringState k.toNat = rgReady ∧ (s.ring k.toNat).running = true ∧ step < (s.ring
      k.toNat).steps ∧ step ∉ (s.ring k.toNat).leftReleased ∧ s.time.count.toNat ≤ (s.ring k.toNat).due step + 5000) ∧
    (∃ (s : State) (k : BitVec 3) (step : Nat), s.ringState k.toNat = rgReady ∧ (s.ring k.toNat).running = true ∧ step < (s.ring
      k.toNat).steps ∧ step ∉ (s.ring k.toNat).leftReleased ∧ (s.ring k.toNat).due step + 5000 < s.time.count.toNat ∧ (s.ring
      k.toNat).pairedSince = none) ∧
    (∃ (s : State) (k : BitVec 3) (member : BitVec 5) (step : Nat) (e : Nat), s.ringState k.toNat = rgReady ∧ (s.ring k.toNat).running =
      true ∧ e ≤ (s.ring k.toNat).d ∧ (s.ring k.toNat).step ≤ step ∧ step < (s.ring k.toNat).steps ∧ s.time.count.toNat < (s.ring
      k.toNat).due step ∧ (member.toNat, step) ∉ (s.ring k.toNat).delayed) ∧
    (∃ (s : State) (k : BitVec 3) (tag : BitVec 64) (token : BitVec 18) (shard : Nat) (rows : List Byte) (r : Req) (h : Shard),
      ((s.ringReqs k.toNat).find? fun r => decide (r.tag = tag) && r.inDecode) = some r ∧ ((s.shardsOf r.part tag).find? fun h => decide
      (h.idx = shard)) = some h ∧ s.ringState k.toNat = rgReady ∧ s.routeTo (s.ringRight k.toNat) ≠ [] ∧ (s.ringMember k.toNat + 1) % max 1
      (s.ringSize k.toNat) ≠ s.homeOf k.toNat r) ∧
    (∃ (s : State) (k : BitVec 3) (tag : BitVec 64) (member : BitVec 5) (x : RingPartial) (r : Req), ((s.ringReqs k.toNat).find? fun r =>
      decide (r.tag = tag) && r.inDecode) = some r ∧ s.ringState k.toNat = rgReady ∧ member.toNat < s.ringSize k.toNat ∧ s.homeOf k.toNat r
      ≠ s.ringMember k.toNat ∧ s.routeTo (s.ringRight k.toNat) ≠ []) ∧
    (∃ (s : State) (k : BitVec 3) (tag : BitVec 64) (member : BitVec 5) (x : RingPartial) (r : Req), ((s.ringReqs k.toNat).find? fun r =>
      decide (r.tag = tag) && r.inDecode) = some r ∧ s.ringState k.toNat = rgReady ∧ member.toNat < s.ringSize k.toNat ∧ s.homeOf k.toNat r
      = s.ringMember k.toNat ∧ (s.ring k.toNat).partials = [] ∧ 1 < s.ringSize k.toNat) :=
  ⟨⟨rgr 2 1, 2, 3, 5, 0, 4, srq, by decide +kernel⟩,
   ⟨rgr 2 0, 2, 3, 5, 0, 4, srq, by decide +kernel⟩,
   ⟨rgs 2 1, 2, 0, 1000, 500, 4, by decide +kernel⟩,
   ⟨rgrun 1500, 2, by decide +kernel⟩,
   ⟨rgrun 6500, 2, 0, by decide +kernel⟩,
   ⟨rgrun 6501, 2, 0, by decide +kernel⟩,
   ⟨rgrun 0, 2, 3, 0, 500, by decide +kernel⟩,
   ⟨{ rgr 2 1 with paging := { shards := [shd] } }, 2, 5, 7, 0, [1], srq, shd, by decide +kernel⟩,
   ⟨rgr 2 1, 2, 5, 1, .online 0 [], srq, by decide +kernel⟩,
   ⟨rgr 2 0, 2, 5, 1, .online 0 [], srq, by decide +kernel⟩⟩

theorem witness_RingsRecover :
    (∃ (s : State) (k : BitVec 3) (tag : BitVec 64) (cause : RingCause) (r : Req), ((s.ringReqs k.toNat).find? fun r => decide (r.tag =
      tag)) = some r ∧ r.lane = true ∧ s.ringGoes k.toNat = true) ∧
    (∃ (s : State) (k : BitVec 3) (member : BitVec 5), member.toNat < s.ringSize k.toNat ∧ s.ringState k.toNat = rgRecovering ∧ (s.ring
      k.toNat).stalled = some member.toNat) ∧
    (∃ (s : State) (k : BitVec 3) (member : BitVec 5), member.toNat < s.ringSize k.toNat ∧ s.ringState k.toNat = rgReady ∧ member.toNat ≠
      s.ringMember k.toNat) ∧
    (∃ (s : State) (k : BitVec 3) (member : BitVec 5), s.ringGoes k.toNat = true) ∧
    (∃ (s : State) (k : BitVec 3) (i : Nat), s.ringGoes k.toNat = true ∧ (s.ring k.toNat).running = true ∧ i < (s.ring k.toNat).steps ∧ i ∉
      (s.ring k.toNat).leftReleased ∧ (s.ring k.toNat).due i + 5000 ≤ s.time.count.toNat) ∧
    (∃ (s : State) (k : BitVec 3) (member : BitVec 5) (t0 : Nat), s.ringGoes k.toNat = true ∧ member.toNat < s.ringSize k.toNat ∧ (s.ring
      k.toNat).firstReady = some t0 ∧ t0 + 100000 * max 1 (s.fld Key.shrCfg 15 8) ≤ s.tick ∧ (∀ e ∈ (s.ring k.toNat).readies, e.1 ≠
      member.toNat)) ∧
    (∃ (s : State) (k : BitVec 3), s.ringState k.toNat = rgRecovering ∧ (s.ring k.toNat).since + 100000 * max 1 (s.fld Key.shrCfg 31 16) ≤
      s.tick ∧ s.reqs = []) ∧
    (∃ (s : State) (k : BitVec 3) (c : RingContext) (r : Req), s.fld Key.jryStat 31 29 = 3 ∧ s.ringState k.toNat = rgRecovering ∧ (s.ring
      k.toNat).stalled = some (s.ringMember k.toNat) ∧ c.mirrorOk = true ∧ c.pages = [] ∧ c.last = true ∧ c.resend = none ∧ ((s.ringReqs
      k.toNat).find? fun r => decide (r.tag = descTag c.desc)) = some r) ∧
    (∃ (s : State) (k : BitVec 3) (tag : BitVec 64) (shard : Nat) (page : Nat) (slot : Nat) (scale : List Byte) (rows : List Byte) (h :
      Shard) (p : MirrorPage), s.ringState k.toNat = rgReady ∧ s.ringMirror k.toNat = true ∧ s.rel.inject = none ∧ ((s.shardsOf (s.ringPart
      k.toNat) tag).find? fun h => decide (h.idx = shard)) = some h ∧ ((s.ring k.toNat).mirror.find? fun p => decide (p.tag = tag) &&
      decide (p.shard = shard) && decide (p.page = page)) = some p) ∧
    (∃ (s : State) (entry : Nat) (valid : Nat) (k : Nat) (h : Shard) (r : Req), s.shardOfEntry entry = some h ∧ s.req h.part h.tag = some r
      ∧ s.reqRing r = some k ∧ s.ringMirror k = true ∧ (s.pte (s.auth entry)).present = true ∧ (s.pte (s.auth entry)).valid ≤ valid) :=
  ⟨⟨rgr 2 1, 2, 5, .cancel, srq, by decide +kernel⟩,
   ⟨(rgs 3 1).setRing 2 { stalled := some 3 }, 2, 3, by decide +kernel⟩,
   ⟨rgs 2 1, 2, 3, by decide +kernel⟩,
   ⟨rgs 2 1, 2, 3, by decide +kernel⟩,
   ⟨rgrun 6500, 2, 0, by decide +kernel⟩,
   ⟨{ (rgs 2 0).setRing 2 { firstReady := some 0 } with time := { cycle := 40000000000 } }, 2, 3, 0, by decide +kernel⟩,
   ⟨{ (rgs 3 1).setRing 2 { stalled := some 3 } with time := { cycle := 4000000000000 } }, 2, by decide +kernel⟩,
   ⟨{ (st [(Key.jryStat, 3 * 2 ^ 29)] (rgr 3 1)).setRing 2 { stalled := some 1 } with reqs := [srq] }, 2, ⟨dsc 1024 [(8, 5)], [], [], [],
     [], true, true, none⟩, srq, by decide +kernel⟩,
   ⟨{ (st [(Key.shrRingCfg 2, 0x71030)] (rgr 2 1)).setRing 2 { mirror := [⟨5, 0, 0, 16, [], 0⟩] } with paging := { shards := [shd] } }, 2,
     5, 0, 0, 0, [], [1, 2, 3, 4], shd, ⟨5, 0, 0, 16, [], 0⟩, by decide +kernel⟩,
   ⟨({ st [(Key.shrRingCfg 2, 0x71030)] (rgr 2 1) with paging := { shards := [shd] } }).setPte 0x1700000000 pg, 0x1700000000, 256, 2, shd,
     srq, by decide +kernel⟩⟩

theorem witness_LinksTrain :
    (∃ (s : State) (b : BitVec 4) (r : TrainResult), (s.bundleState b.toNat = bsEqualise ∨ s.bundleState b.toNat = bsLock) ∧ r.lanes = 0xF) ∧
    (∃ (s : State) (b : BitVec 4) (r : TrainResult), (s.bundleState b.toNat = bsEqualise ∨ s.bundleState b.toNat = bsLock) ∧ r.lanes = 0xF) ∧
    (∃ (s : State) (b : BitVec 4) (rec : BitVec 512), b.toNat < 12 ∧ s.bundleState b.toNat = bsIdent ∧ identBad rec = false) ∧
    (∃ (s : State) (b : BitVec 4) (rec : BitVec 512), s.bundleState b.toNat = bsIdent ∧ identBad rec = true) ∧
    (∃ (s : State) (b : BitVec 4) (t0 : Nat), (s.bundle b.toNat).identAt = some t0 ∧ s.bundleState b.toNat = bsIdent ∧ t0 + 1000000 ≤
      s.tick) ∧
    (∃ (s : State) (b : BitVec 4) (t0 : Nat), (s.bundle b.toNat).retryAt = some t0 ∧ b.toNat < 12 ∧ 8 + b.toNat / 6 ∉ s.boot.inReset ∧
      s.bundleState b.toNat = bsDown ∧ s.bit (Key.lnkCtl b.toNat) 0 = false ∧ t0 ≤ s.tick) ∧
    (∃ (s : State) (b : BitVec 4) (t0 : Nat), (s.bundle b.toNat).trainStart = some t0 ∧ s.bundleState b.toNat = bsLock ∧ t0 + 40000000 ≤
      s.tick) :=
  ⟨⟨bnd 0 1, 0, ⟨15, 9⟩, by decide +kernel⟩,
   ⟨bnd 11 2, 11, ⟨15, 0xFFFFFFFF⟩, by decide +kernel⟩,
   ⟨bnd 11 3, 11, ident, by decide +kernel⟩,
   ⟨bnd 0 3, 0, 0, by decide +kernel⟩,
   ⟨later 1000000 ((bnd 0 3).setBundle 0 { identAt := some 0 }), 0, 0, by decide +kernel⟩,
   ⟨(bnd 11 0).setBundle 11 { retryAt := some 0 }, 11, 0, by decide +kernel⟩,
   ⟨later 40000000 ((bnd 5 2).setBundle 5 { trainStart := some 0 }), 5, 0, by decide +kernel⟩⟩

theorem witness_LinksFail :
    (∃ (s : State) (b : BitVec 4) (lanes : BitVec 4), b.toNat < 12 ∧ 2 ≤ s.bundleState b.toNat) ∧
    (∃ (s : State) (b : BitVec 4), s.bundleRuns b.toNat = true ∧ max 1 (s.fld (Key.lnkCfg b.toNat) 31 16) < ((s.bundle
      b.toNat).replays.filter fun t => decide (s.tick < t + 1000000)).length) ∧
    (∃ (s : State) (b : BitVec 4), s.bundleRuns b.toNat = true ∧ 8 ≤ (s.bundle b.toNat).stuck) ∧
    (∃ (s : State) (b : BitVec 4) (vc : BitVec 3) (n : Nat), s.bundleRuns b.toNat = true ∧ SMap.get (fun _ => 0) (s.bundle b.toNat).zero
      vc.toNat = n + 1 ∧ n + 100000 * max 1 (s.fld (Key.lnkCfg b.toNat) 15 8) ≤ s.tick) ∧
    (∃ (s : State) (b : Nat) (hold : Bool), b < 12 ∧ s.bundleState b ≠ bsDown ∧ s.links.tx = [] ∧ s.isStay b = false) ∧
    (∃ (s : State) (b : Nat) (hold : Bool), b < 12 ∧ s.bundleState b ≠ bsDown ∧ s.links.tx = [] ∧ s.isStay b = false ∧ hold = true) ∧
    (∃ (s : State) (b : Nat) (hold : Bool), b < 12 ∧ s.bundleState b ≠ bsDown ∧ s.links.tx = [] ∧ s.isStay b = false) ∧
    (∃ (s : State) (m : Master) (b : BitVec 4) (v : Word), b.toNat < 12 ∧ s.Takes m (pgLnk b.toNat) 0x104 v ∧ s.Uncontested m (Key.lnkCtl
      b.toNat) ∧ s.locked (pgLnk b.toNat) = false ∧ getBits v 0 0 = 1) ∧
    (∃ (s : State) (m : Master) (b : BitVec 4) (v : Word), b.toNat < 12 ∧ s.Takes m (pgLnk b.toNat) 0x104 v ∧ s.Uncontested m (Key.lnkCtl
      b.toNat) ∧ s.locked (pgLnk b.toNat) = false ∧ getBits v 0 0 = 0 ∧ s.bit (Key.lnkCtl b.toNat) 0 = true) ∧
    (∃ (s : State) (m : Master) (v : Word), s.Takes m (pgLnk 0) 0x180 v ∧ s.Uncontested m Key.lnkSheet ∧ getBits v 6 4 ≤ 4) ∧
    (∃ (s : State) (m : Master) (v : Word), s.Takes m (pgLnk 0) 0x180 v ∧ s.Uncontested m Key.lnkSheet ∧ 4 < getBits v 6 4) :=
  ⟨⟨bnd 11 2, 11, 0xF, by decide +kernel⟩,
   ⟨(st [(Key.lnkCfg 0, 0x10000)] (bnd 0 5)).setBundle 0 { replays := [0, 0] }, 0, by decide +kernel⟩,
   ⟨(bnd 0 4).setBundle 0 { stuck := 8 }, 0, by decide +kernel⟩,
   ⟨later 100000000 ((bnd 0 5).setBundle 0 { zero := [(7, 1)] }), 0, 7, 0, by decide +kernel⟩,
   ⟨bnd 0 5, 0, true, by decide +kernel⟩,
   ⟨bnd 8 1, 8, true, by decide +kernel⟩,
   ⟨bnd 2 5, 2, false, by decide +kernel⟩,
   ⟨bnd 11 5, .hostPf, 11, 1, by decide +kernel⟩,
   ⟨st [(Key.lnkCtl 11, 1)], .masthead 1, 11, 0, by decide +kernel⟩,
   ⟨st [], .hostPf, 0x40, by decide +kernel⟩,
   ⟨st [], .masthead 0, 0x50, by decide +kernel⟩⟩

theorem witness_FlitsAndSegments :
    (∃ (s : State) (b : BitVec 4) (flit : BitVec 2048), s.bundleState b.toNat = bsUp ∧ s.rel.inject = none ∧ flitOk flit = true ∧ flitKind
      flit = 1 ∧ flitLast flit = false ∧ flitSeq flit = ((s.takeHeader b.toNat flit).bundle b.toNat).expect) ∧
    (∃ (s : State) (b : BitVec 4) (flit : BitVec 2048), s.bundleState b.toNat = bsUp ∧ s.rel.inject = none ∧ flitOk flit = true ∧ flitKind
      flit = 1 ∧ flitSeq flit ≠ ((s.takeHeader b.toNat flit).bundle b.toNat).expect) ∧
    (∃ (s : State) (b : BitVec 4) (flit : BitVec 2048), s.bundleRuns b.toNat = true ∧ s.rel.inject = none ∧ flitOk flit = false ∧ (s.bundle
      b.toNat).nakSent = false) ∧
    (∃ (s : State) (b : BitVec 4) (flit : BitVec 2048), s.bundleRuns b.toNat = true ∧ flitOk flit = true ∧ flitKind flit = 2 ∧ flitLen flit
      = 1) ∧
    (∃ (s : State) (b : BitVec 4) (flit : BitVec 2048), s.bundleRuns b.toNat = true ∧ flitOk flit = true) ∧
    (∃ (s : State) (b : BitVec 4), s.bundleRuns b.toNat = true ∧ (s.bundle b.toNat).unacked ≠ [] ∧ (s.bundle b.toNat).lastAck + 200 ≤
      s.tick) ∧
    (∃ (s : State) (b : BitVec 4) (flit : BitVec 2048) (rx : BitVec 80), s.bundleRuns b.toNat = true ∧ flitOk flit = true ∧ flitKind flit =
      4) ∧
    (∃ (s : State) (b : BitVec 4) (errors : Word), b.toNat < 12 ∧ s.bundleState b.toNat ≠ bsDown) ∧
    (∃ (s : State) (b : BitVec 4) (errors : Word), b.toNat < 12 ∧ s.bundleState b.toNat ≠ bsDown) ∧
    (∃ (s : State) (b : BitVec 4) (src : BitVec 16) (vc : BitVec 3) (hdr : BitVec 256) (data : List Byte) (crc : Word), s.bundleState
      b.toNat = bsUp ∧ s.power.idle = []) ∧
    (∃ (s : State) (src : Nat) (vc : Nat) (crc : Nat) (hdr : BitVec 256) (data : List Byte), (src, vc, dfield hdr 0 0 32) ∉
      s.links.delivered ∧ crc32c data ≠ crc ∧ s.rel.inject = none ∧ s.groupOf (dfield hdr 0x18 0 16) src = none) ∧
    (∃ (s : State) (spar : BitVec 2) (slot : BitVec 10) (x : MacroSt) (t0 : Nat), (s.links.waits.find? fun e => decide (e.1 = spar.toNat)
      && decide (e.2.1 = slot.toNat)) = some (spar.toNat, slot.toNat, t0) ∧ (s.fab.flight.find? fun x => decide (x.spar = spar.toNat) &&
      decide (x.slot = slot.toNat)) = some x ∧ t0 + 100000 * max 1 (s.fld (Key.lnkCfg 0) 7 0) ≤ s.tick) :=
  ⟨⟨bnd 0 5, 0, flt 1 0, by decide +kernel⟩,
   ⟨bnd 0 5, 0, flt 1 4095, by decide +kernel⟩,
   ⟨bnd 0 4, 0, 0, by decide +kernel⟩,
   ⟨bnd 0 4, 0, flt 2 0, by decide +kernel⟩,
   ⟨bnd 11 5, 11, flt 0 0, by decide +kernel⟩,
   ⟨later 200 ((bnd 0 5).setBundle 0 { unacked := [⟨0, 0, 0, 0, none⟩] }), 0, by decide +kernel⟩,
   ⟨bnd 0 5, 0, flt 4 0, 7, by decide +kernel⟩,
   ⟨bnd 11 1, 11, 0xFFFFFFFF, by decide +kernel⟩,
   ⟨bnd 0 1, 0, 10375, by decide +kernel⟩,
   ⟨bnd 0 5, 0, 0x11, 5, 0, [1], 0, by decide +kernel⟩,
   ⟨State.reset, 0x11, 1, 0, 0, [1], by decide +kernel⟩,
   ⟨later 10000000
     { State.reset with links := { waits := [(1, 7, 0)] }, fab := { flight := [{ spar := 1, slot := 7, walk := 0, index := 0, part := 3, word := 0 }] } },
     1, 7, { spar := 1, slot := 7, walk := 0, index := 0, part := 3, word := 0 }, 0, by decide +kernel⟩⟩

theorem witness_RigCheck :
    (∃ (s : State) (m : Master) (v : Word), s.Takes m pgTop 0x100 v ∧ s.Uncontested m Key.topCoord ∧ getBits v 15 8 ≤ 63 ∧ getBits v 7 0 ≤
      33 ∧ (∀ p ∈ allParts, s.pstate p ≤ psConfig) ∧ s.fld Key.jryStat 31 29 ≤ 1) ∧
    (∃ (s : State) (m : Master) (v : Word), s.Takes m pgTop 0x100 v ∧ 63 < getBits v 15 8) ∧
    (∃ (s : State) (m : Master), s.Takes m pgTop 0x104 1) ∧
    (∃ (s : State) (m : Master), s.Takes m pgTop 0x104 2) ∧
    (∃ (s : State) (b : BitVec 4), b.toNat < 12 ∧ s.rigMayRun = true ∧ s.hasPeer b.toNat = true ∧ s.rigClass b.toNat = (3, 0) ∧
      s.peerCoords b.toNat ≠ s.coords ∧ s.admits b.toNat (3, 0) = false) ∧
    (∃ (s : State) (b : BitVec 4), b.toNat < 12 ∧ s.bundleState b.toNat = bsHeld ∧ b.toNat ∈ s.top.admitted ∧ b.toNat ∈ s.top.rigSent) ∧
    (∃ (s : State) (t0 : Nat), s.top.trained = some t0 ∧ s.rigMayRun = false ∧ s.bit Key.topRigStat 30 = false ∧ t0 + 100000000 * max 1
      (s.fld Key.topRigCfg 7 0) ≤ s.tick) ∧
    (∃ (s : State) (c : BitVec 16) (ra : BitVec 6) (rb : BitVec 6), s.links.tx = [] ∧ ra ≠ 0) :=
  ⟨⟨st [(Key.lnkStat 0, 5 * 2 ^ 29)], .bmc, 0x80003F21, by decide +kernel⟩,
   ⟨st [], .bmc, 0x80004000, by decide +kernel⟩,
   ⟨st [], .hostPf, by decide +kernel⟩,
   ⟨st [], .bmc, by decide +kernel⟩,
   ⟨{ st [(Key.lnkSheet, 0x22), (Key.topCoord, 2 ^ 31), (Key.lnkStat 0, 4 * 2 ^ 29), (Key.lnkPeerId 0, 0x50000)] with top := { plan := some [], trained := some 0 } },
     0, by decide +kernel⟩,
   ⟨{ bnd 11 4 with top := { admitted := [11], rigSent := [11] } }, 11, by decide +kernel⟩,
   ⟨later 25500000000 { State.reset with top := { trained := some 0 } }, 0, by decide +kernel⟩,
   ⟨State.reset, 0x21, 1, 0, by decide +kernel⟩⟩

theorem witness_Takeover :
    (∃ (s : State) (m : Master), s.Takes m pgJry 0x104 1 ∧ s.jury = jyIdle ∧ s.coords % 256 = 32 ∧ s.staysPassed = true) ∧
    (∃ (s : State) (m : Master), s.Takes m pgJry 0x104 1 ∧ s.jury = jyIdle ∧ s.coords % 256 < 32) ∧
    (∃ (s : State) (m : Master), s.Takes m pgJry 0x104 2 ∧ s.jury = jyArmed) ∧
    (∃ (s : State) (x : BitVec 16) (c : BitVec 16), s.jury = jyArmed ∧ x.toNat / 256 = s.coords / 256 ∧ s.leaves ≠ []) ∧
    (∃ (s : State) (be : BitVec 4) (x : BitVec 16) (c : BitVec 16), s.jury ≠ jyArmed ∧ s.top.take = none) ∧
    (∃ (s : State) (leaf : BitVec 4) (k : Machine.Takeover), s.top.take = some k ∧ k.stage = 0 ∧ s.jury = jyTaking ∧ k.left = [leaf.toNat]
      ∧ s.leaves ≠ []) ∧
    (∃ (s : State) (leaf : BitVec 4) (k : Machine.Takeover), s.top.take = some k ∧ k.stage = 1 ∧ s.jury = jyTaking ∧ k.left = [leaf.toNat]) ∧
    (∃ (s : State) (k : Machine.Takeover), s.top.take = some k ∧ k.stage = 2 ∧ s.jury = jyTaking ∧ k.since + 100 * max 1 (s.fld Key.jryCfg
      31 16) ≤ s.tick) ∧
    (∃ (s : State) (k : Machine.Takeover), s.top.take = some k ∧ k.stage = 0 ∧ s.jury = jyTaking ∧ k.since + 100 * max 1 (s.fld Key.jryCfg
      15 0) ≤ s.tick) ∧
    (∃ (s : State) (x : BitVec 16) (i : Nat), (s.top.asks.find? fun e => decide (e.1 = x.toNat) && decide (e.2 = 32)) = some (i, 32)) ∧
    (∃ (s : State) (x : BitVec 16), (∀ k, k < 8 → s.ringState k ≠ rgRecovering) ∧ (∀ b ∈ allBundles, s.role b ≤ 2 → s.peerCoords b =
      x.toNat → s.bundleState b = bsDown)) :=
  ⟨⟨{ spare 0 with top := { admitted := allBundles } }, .hostPf, by decide +kernel⟩,
   ⟨top 0x11F, .bmc, by decide +kernel⟩,
   ⟨spare 1, .masthead 0, by decide +kernel⟩,
   ⟨spare 1, 0x100, 0x101, by decide +kernel⟩,
   ⟨spare 3, 0xF, 0x100, 0x101, by decide +kernel⟩,
   ⟨taking ⟨0x100, 0, 0, [1], []⟩, 1, ⟨0x100, 0, 0, [1], []⟩, by decide +kernel⟩,
   ⟨taking ⟨0x100, 1, 0, [1], []⟩, 1, ⟨0x100, 1, 0, [1], []⟩, by decide +kernel⟩,
   ⟨later 6553500 (taking ⟨0x100, 2, 0, [], [some 0x101]⟩), ⟨0x100, 2, 0, [], [some 0x101]⟩, by decide +kernel⟩,
   ⟨later 6553500 (taking ⟨0x100, 0, 0, [1], [some 0x101]⟩), ⟨0x100, 0, 0, [1], [some 0x101]⟩, by decide +kernel⟩,
   ⟨{ top 0x101 with top := { asks := [(0x100, 32)] } }, 0x100, 0x100, by decide +kernel⟩,
   ⟨top 0x101, 0x100, by decide +kernel⟩⟩

theorem witness_TelltaleKeepsTime :
    (∃ (s : State), (∀ i, i < 4 → s.swevDue i = false)) ∧
    (∃ (s : State) (i : Nat), i < 4 ∧ s.ttl.table = [] ∧ (∀ j, j < 4 → (s.swevDue j = true ↔ j = i))) ∧
    (∃ (s : State) (m : Master) (i : BitVec 2) (v : Word), s.Takes m pgTtl (0x148 + 0x10 * i.toNat) v ∧ s.Uncontested m (Key.ttlSwevCtl
      i.toNat)) ∧
    (∃ (s : State), s.ttlState = tsLocked ∧ s.isRoot = false ∧ s.ttl.lastGood + 100 * max 1 (s.fld Key.ttlCfg 7 0) ≤ s.tick) ∧
    (∃ (s : State), s.ttlState = tsHoldover ∧ s.ttl.since + 100000 * max 1 (s.fld Key.ttlCfg 15 8) ≤ s.tick ∧ (∀ k, k < 8 → s.ringState k ≠
      rgReady ∧ s.ringState k ≠ rgRecovering)) ∧
    (∃ (s : State), s.ttlState = tsAcquire ∧ s.ttl.acquired = false ∧ s.ttl.peers = [] ∧ s.bit Key.ttlCfg 31 = true ∧ (∀ k, k < 8 →
      s.ringState k ≠ rgForming) ∧ s.ttl.since + 100000 * max 1 (s.fld Key.ttlCfg 23 16) ≤ s.tick) :=
  ⟨⟨later 5 { State.reset with ttl := { table := [(0, ⟨5, .sweep 0, [4], 0⟩)] } }, by decide +kernel⟩,
   ⟨later 5 (st [(Key.ttlSwevLo 3, 5), (Key.ttlSwevCtl 3, 1)]), 3, by decide +kernel⟩,
   ⟨st [], .hostPf, 3, 1, by decide +kernel⟩,
   ⟨later 25500 (st [(Key.ttlStat, 2 * 2 ^ 29)]), by decide +kernel⟩,
   ⟨later 25500000 (st [(Key.ttlStat, 3 * 2 ^ 29)]), by decide +kernel⟩,
   ⟨later 25500000 (st [(Key.ttlStat, 2 ^ 29), (Key.ttlCfg, 0x80000000)]), by decide +kernel⟩⟩

theorem witness_RatlinesAndClocks :
    (∃ (s : State) (l : BitVec 6) (back : Bool) (seq : BitVec 12) (ack : BitVec 12) (ends : Option (Nat × Nat)) (part : Option (BitVec 7)),
      l.toNat ≤ 37 ∧ rlUp ≤ s.rlState l.toNat ∧ s.unitMaySend l.toNat ends = true ∧ (l.toNat < 27 → (s.unitPos l.toNat back (part.map
      BitVec.toNat)).isSome = true) ∧ (s.rat l.toNat back).test = none ∧ s.rel.inject = none ∧ (s.rat l.toNat back).outstanding < 256 ∧
      seq.toNat = (s.rat l.toNat back).next ∧ (s.rat l.toNat back).expect = seq.toNat ∧ (s.rat l.toNat (!back)).outstanding = 0) ∧
    (∃ (s : State) (l : BitVec 6) (back : Bool) (seq : BitVec 12) (ack : BitVec 12) (ends : Option (Nat × Nat)) (part : Option (BitVec 7)),
      l.toNat ≤ 37 ∧ rlUp ≤ s.rlState l.toNat ∧ s.unitMaySend l.toNat ends = true ∧ (l.toNat < 27 → (s.unitPos l.toNat back (part.map
      BitVec.toNat)).isSome = true) ∧ (s.rat l.toNat back).test = none ∧ s.rel.inject = none ∧ (s.rat l.toNat back).outstanding < 256 ∧
      seq.toNat = (s.rat l.toNat back).next ∧ (s.rat l.toNat back).expect = seq.toNat ∧ (s.rat l.toNat (!back)).outstanding = 0) ∧
    (∃ (s : State) (l : BitVec 6) (back : Bool) (seq : BitVec 12) (ack : BitVec 12) (ends : Option (Nat × Nat)) (part : Option (BitVec 7)),
      l.toNat ≤ 37 ∧ rlUp ≤ s.rlState l.toNat ∧ s.unitMaySend l.toNat ends = true ∧ (l.toNat < 27 → (s.unitPos l.toNat back (part.map
      BitVec.toNat)).isSome = true) ∧ (s.rat l.toNat back).test = none ∧ s.rel.inject = none ∧ (s.rat l.toNat back).outstanding < 256 ∧
      seq.toNat = (s.rat l.toNat back).next ∧ (s.rat l.toNat back).stuck < 15) ∧
    (∃ (s : State) (l : BitVec 6) (back : Bool), l.toNat ≤ 37 ∧ rlUp ≤ s.rlState l.toNat ∧ (s.rat l.toNat back).test = none ∧ (s.rat
      l.toNat back).outstanding ≠ 0 ∧ (s.rat l.toNat back).lastAck + 20 ≤ s.tick ∧ (s.rat l.toNat back).stuck < 15) ∧
    (∃ (s : State) (l : BitVec 6) (back : Bool), l.toNat ≤ 37 ∧ rlUp ≤ s.rlState l.toNat ∧ (s.rat l.toNat back).test = none ∧ 4 ≤ (s.rat
      l.toNat back).fails.length ∧ (∀ t ∈ (s.rat l.toNat back).fails, s.tick < t + 100)) ∧
    (∃ (s : State) (l : BitVec 6) (back : Bool) (t0 : Nat), l.toNat ≤ 37 ∧ (s.rat l.toNat back).test = some t0 ∧ t0 + 50 ≤ s.tick ∧ (s.rat
      l.toNat back).low = 0 ∧ (s.rat l.toNat back).high = 0 ∧ (s.rat l.toNat back).stuck < 15 ∧ 0 < linkSpares l.toNat) ∧
    (∃ (s : State) (l : BitVec 6), l.toNat ≤ 37 ∧ s.bit Key.clkStat 31 = true ∧ s.rlState l.toNat = rlTrain) ∧
    (∃ (s : State) (k : BitVec 2), s.fld (Key.clkFab k.toNat) 9 8 ≠ s.fabWanted k.toNat ∧ s.fabWanted k.toNat < 4) ∧
    (∃ (s : State) (m : Master) (k : BitVec 2) (v : Word), s.Takes m pgClk (0x110 + 4 * k.toNat) v ∧ s.Uncontested m (Key.clkFab k.toNat) ∧
      s.locked pgClk = false) ∧
    (∃ (s : State) (m : Master) (v : Word), s.Takes m pgClk 0x108 v ∧ s.Uncontested m Key.clkRlThrot ∧ s.locked pgClk = false) ∧
    (∃ (s : State) (ppm : BitVec 16), s.pins.pwrOk = true ∧ ppm.toInt.natAbs ≤ 1000) ∧
    (∃ (s : State) (ppm : BitVec 16), s.pins.pwrOk = true ∧ 1000 < ppm.toInt.natAbs) ∧
    (∃ (s : State), s.bit Key.clkStat 31 = true) ∧
    (∃ (s : State), s.pins.pwrOk = true ∧ s.bit Key.clkStat 31 = false) :=
  ⟨⟨rlUpAt 37, 37, true, 0, 4095, none, none, by decide +kernel⟩,
   ⟨rlUpAt 0, 0, false, 0, 7, some (0, 1), some 3, by decide +kernel⟩,
   ⟨rlUpAt 26, 26, false, 0, 0, some (8, 9), none, by decide +kernel⟩,
   ⟨later 20 ((rlUpAt 37).setRat 37 false { next := 1 }), 37, false, by decide +kernel⟩,
   ⟨(rlUpAt 3).setRat 3 true { fails := [0, 0, 0, 0] }, 3, true, by decide +kernel⟩,
   ⟨later 50 ((rlUpAt 37).setRat 37 false { test := some 0 }), 37, false, 0, by decide +kernel⟩,
   ⟨st [(Key.clkStat, 0x80000000), (Key.clkRlStat 37, 2 ^ 29)], 37, by decide +kernel⟩,
   ⟨st [(Key.clkFab 3, 0xC0)], 3, by decide +kernel⟩,
   ⟨st [], .hostPf, 3, 3, by decide +kernel⟩,
   ⟨rlUpAt 26, .masthead 0, 3, by decide +kernel⟩,
   ⟨State.reset, 1000, by decide +kernel⟩,
   ⟨State.reset, 1001, by decide +kernel⟩,
   ⟨st [(Key.clkStat, 0x80000000)], by decide +kernel⟩,
   ⟨State.reset, by decide +kernel⟩⟩

theorem witness_Resets :
    (∃ (s : State) (c : Nat), s.pins.pwrOk = true ∧ c < 256) ∧
    (∃ (s : State) (c : Nat), s.pins.pwrOk = true ∧ c < 256) ∧
    (∃ (s : State) (m : Master), s.Takes m pgRst 0x104 1) ∧
    (∃ (s : State) (m : Master) (die : Byte), s.Takes m pgRst 0x104 (BitVec.ofNat 32 (die.toNat * 256 + 2)) ∧ (die.toNat = 10 ∨ die.toNat =
      11)) ∧
    (∃ (s : State) (m : Master) (die : Byte), s.Takes m pgRst 0x104 (BitVec.ofNat 32 (die.toNat * 256 + 2)) ∧ die.toNat ≤ 9) ∧
    (∃ (s : State) (m : Master) (die : Byte), s.Takes m pgRst 0x104 (BitVec.ofNat 32 (die.toNat * 256 + 2)) ∧ die.toNat ≤ 9) ∧
    (∃ (s : State) (m : Master) (die : Byte), s.Takes m pgRst 0x104 (BitVec.ofNat 32 (die.toNat * 256 + 2)) ∧ 12 ≤ die.toNat) ∧
    (∃ (s : State) (d : Nat) (cause : Nat), d ∈ s.boot.inReset) ∧
    (∃ (s : State) (d : Nat) (cause : Nat), d ∉ s.boot.inReset ∧ d ≤ 9) ∧
    (∃ (s : State) (m : Master), s.Takes m pgRst 0x104 3) ∧
    (∃ (s : State) (die : BitVec 4) (failed : List UnitId) (retried : List (BitVec 1)) (bad : List (BitVec 1)) (us : List Word), 4 ≤
      die.toNat ∧ die.toNat ≤ 7 ∧ die.toNat ∈ s.boot.inReset ∧ die.toNat ∉ s.power.supply ∧ die.toNat ∉ s.clk.cut ∧ s.pins.pwrOk = true ∧
      s.boot.running = false) :=
  ⟨⟨booted [], 0x0A, by decide +kernel⟩,
   ⟨st [(Key.rstHist, 0x01020304)], 1, by decide +kernel⟩,
   ⟨booted [], .bmc, by decide +kernel⟩,
   ⟨booted [], .masthead 0, 11, by decide +kernel⟩,
   ⟨booted [], .masthead 0, 9, by decide +kernel⟩,
   ⟨booted [], .masthead 0, 0, by decide +kernel⟩,
   ⟨booted [], .masthead 1, 12, by decide +kernel⟩,
   ⟨{ booted [] with boot := { inReset := [4] } }, 4, 0x10, by decide +kernel⟩,
   ⟨booted [], 9, 0x11, by decide +kernel⟩,
   ⟨booted [], .bmc, by decide +kernel⟩,
   ⟨{ State.reset with boot := { inReset := [7] } }, 7, [], [], [], [], by decide +kernel⟩⟩

theorem witness_StartUp :
    (∃ (s : State) (failed : List UnitId), s.pins.pwrOk = true ∧ s.boot.running = false ∧ s.boot.dead = false ∧ s.bit Key.clkStat 31 =
      true) ∧
    (∃ (s : State) (failed : List UnitId), s.pins.pwrOk = true ∧ s.boot.running = false ∧ s.boot.dead = false ∧ s.bit Key.clkStat 31 = true
      ∧ s.select.pending = false ∧ s.bankOk s.select.bank = false ∧ s.bankOk (1 - s.select.bank) = false) ∧
    (∃ (s : State), s.ready = false ∧ s.boot.running = true ∧ s.ttl.acquired = true ∧ 2 ≤ s.ttlState ∧ s.mem.trained = true ∧
      s.boot.devPair = true ∧ s.pins.testMode = false ∧ s.bit Key.topRigStat 31 = true ∧ s.boot.trial = false) ∧
    (∃ (s : State), (s.pins.testMode = true ∨ s.ttl.acquired = false ∨ s.mem.trained = false ∨ s.boot.devPair = false)) ∧
    (∃ (s : State) (m : Master) (v : Word), s.Takes m pgDev 0x100 v ∧ getBits v 7 0 ≤ 1 ∧ s.bit Key.devConduct 31 = false) ∧
    (∃ (s : State) (m : Master) (v : Word), s.Takes m pgDev 0x100 v ∧ 1 < getBits v 7 0) :=
  ⟨⟨st [(Key.clkStat, 0x80000000)], [], by decide +kernel⟩,
   ⟨st [(Key.clkStat, 0x80000000)], [], by decide +kernel⟩,
   ⟨{ st [(Key.ttlStat, 2 * 2 ^ 29), (Key.topRigStat, 0x80000000)] with boot := { running := true, devPair := true }, ttl := { acquired := true }, mem := { trained := true } },
     by decide +kernel⟩,
   ⟨State.reset, by decide +kernel⟩,
   ⟨st [], .masthead 0, 1, by decide +kernel⟩,
   ⟨st [], .masthead 0, 0xFF, by decide +kernel⟩⟩

theorem witness_Rails :
    (∃ (s : State) (r : BitVec 4) (mv : MilliVolt), r.toNat ≤ 11 ∧ s.pins.pwrOk = true ∧ 2 * mv < railWarn r.toNat) ∧
    (∃ (s : State) (r : BitVec 4) (mv : MilliVolt), r.toNat ≤ 11 ∧ s.pins.pwrOk = true ∧ 2 * mv < railWarn r.toNat) ∧
    (∃ (s : State) (r : BitVec 4) (mv : MilliVolt), r.toNat ≤ 11 ∧ s.pins.pwrOk = true ∧ railRelease r.toNat < 2 * mv ∧ 2 * mv ≤ railMax
      r.toNat ∧ s.power.supply = [] ∧ s.bit (Key.pwrRailStat r.toNat) 1 = true ∧ s.bit (Key.pwrRailStat r.toNat) 2 = false) ∧
    (∃ (s : State) (r : BitVec 4) (mv : MilliVolt), r.toNat ≤ 11 ∧ s.pins.pwrOk = true ∧ railRelease r.toNat < 2 * mv ∧ 2 * mv ≤ railMax
      r.toNat ∧ s.power.supply = [] ∧ s.bit (Key.pwrRailStat r.toNat) 1 = true ∧ s.bit (Key.pwrRailStat r.toNat) 2 = false) ∧
    (∃ (s : State) (r : BitVec 4) (mv : MilliVolt), r.toNat ≤ 11 ∧ s.pins.pwrOk = true ∧ railRelease r.toNat < 2 * mv ∧ railMax r.toNat < 2
      * mv) ∧
    (∃ (s : State) (r : BitVec 4), 8 ≤ r.toNat ∧ r.toNat ≤ 11 ∧ (r.toNat, s.tick - 1000) ∈ s.power.hold ∧ 1000 ≤ s.tick) ∧
    (∃ (s : State) (r : BitVec 4) (mv : MilliVolt), 10 ≤ r.toNat ∧ r.toNat ≤ 11 ∧ s.pins.pwrOk = true ∧ 2 * mv < railReset r.toNat) ∧
    (∃ (s : State) (r : BitVec 4) (mv : MilliVolt), r.toNat ≤ 9 ∧ s.pins.pwrOk = true ∧ 2 * mv < railReset r.toNat ∧ r.toNat ∉
      s.boot.inReset) ∧
    (∃ (s : State) (r : BitVec 4) (mv : MilliVolt) (t0 : Nat), (r.toNat, t0) ∈ s.power.above ∧ t0 + 100000 ≤ s.tick ∧ railRelease r.toNat <
      2 * mv ∧ 2 * mv ≤ railMax r.toNat) :=
  ⟨⟨State.reset, 11, 735, by decide +kernel⟩,
   ⟨State.reset, 0, 0, by decide +kernel⟩,
   ⟨st [(Key.pwrRailStat 11, 2)], 11, 745, by decide +kernel⟩,
   ⟨st [(Key.pwrRailStat 0, 2)], 0, 950, by decide +kernel⟩,
   ⟨State.reset, 4, 1001, by decide +kernel⟩,
   ⟨later 1000 { st [(Key.pwrRailStat 8, 6)] with power := { hold := [(8, 0)] } }, 8, by decide +kernel⟩,
   ⟨State.reset, 10, 637, by decide +kernel⟩,
   ⟨booted [], 4, 679, by decide +kernel⟩,
   ⟨later 100000 { State.reset with power := { above := [(4, 0)], supply := [4] } }, 4, 745, 0, by decide +kernel⟩⟩

theorem witness_IdleStates :
    (∃ (s : State) (i : Nat), s.boot.running = true ∧ s.idleOf (.yard i) = none ∧ s.domainIdle (.yard i) = true ∧ s.nextEvent (.yard i) =
      none ∧ s.bit Key.pwrIdleEn 0 = true) ∧
    (∃ (s : State) (d : IdleDomain) (x : IdleSt) (t0 : Nat), s.idleOf d = some x ∧ x.ready = some t0 ∧ t0 ≤ s.tick) ∧
    (∃ (s : State) (d : IdleDomain) (x : IdleSt) (c : Nat), s.idleOf d = some x ∧ x.ready = none ∧ x.start = some c ∧ c ≤
      s.time.count.toNat) ∧
    (∃ (s : State) (d : IdleDomain) (x : IdleSt) (c : Nat), s.idleOf d = some x ∧ x.ready = none ∧ x.start = some c ∧ s.time.count.toNat <
      c) ∧
    (∃ (s : State) (i : Nat) (x : IdleSt), s.idleOf (.yard i) = some x ∧ x.dom = .yard i ∧ x.st = 1 ∧ x.start = none ∧ x.ready = none ∧
      s.domainIdle (.yard i) = true ∧ s.bit Key.pwrIdleEn 1 = true ∧ s.ready = true ∧ x.since + s.holdoff 2 ≤ s.tick) :=
  ⟨⟨booted [(Key.pwrIdleEn, 1)], 31, by decide +kernel⟩,
   ⟨{ State.reset with power := { idle := [⟨.luff 7, 2, 0, none, some 0⟩] } }, .luff 7, ⟨.luff 7, 2, 0, none, some 0⟩, 0,
     by decide +kernel⟩,
   ⟨{ State.reset with power := { idle := [⟨.canvas 3, 4, 0, some 0, none⟩] } }, .canvas 3, ⟨.canvas 3, 4, 0, some 0, none⟩, 0,
     by decide +kernel⟩,
   ⟨{ State.reset with power := { idle := [⟨.package, 5, 0, some 1, none⟩] } }, .package, ⟨.package, 5, 0, some 1, none⟩, 1,
     by decide +kernel⟩,
   ⟨later 25500 { readyBoot [(Key.pwrIdleEn, 3)] with power := { idle := [⟨.yard 0, 1, 0, none, none⟩] } }, 0, ⟨.yard 0, 1, 0, none, none⟩,
     by decide +kernel⟩⟩

theorem witness_PowerAndThermal :
    (∃ (s : State) (watts : Nat), s.boot.running = true) ∧
    (∃ (s : State), s.boot.running = true ∧ s.power.monFail = false ∧ s.fld Key.pwrStat 31 29 < 4 ∧ min 1400 (max 600 (s.fld Key.pwrCap 10
      0)) < s.fld Key.pwrStat 15 0) ∧
    (∃ (s : State) (r : BitVec 4), s.pins.pwrOk = true ∧ r.toNat ≤ 11 ∧ s.boot.running = false) ∧
    (∃ (s : State) (u : Nat) (x : TempReading), s.boot.running = true ∧ 12 ≤ u ∧ thermalUnit u = true ∧ -160 ≤ x.temp ∧ x.temp ≤ 600 ∧
      (x.temp - x.pair).natAbs ≤ 40 ∧ s.thermalLimit u < x.temp ∧ u ∉ s.power.hot ∧ u ∉ s.power.failed) ∧
    (∃ (s : State) (u : Nat), s.pins.pwrOk = true ∧ thermalUnit u = true) :=
  ⟨⟨booted [], 100000, by decide +kernel⟩,
   ⟨booted [(Key.pwrStat, 3 * 2 ^ 29 + 1401), (Key.pwrCap, 2047)], by decide +kernel⟩,
   ⟨State.reset, 11, by decide +kernel⟩,
   ⟨booted [], 47, ⟨381, 341⟩, by decide +kernel⟩,
   ⟨booted [], 47, by decide +kernel⟩⟩

theorem witness_SelfTests :
    (∃ (s : State) (u : UnitId), selftestUnit (unitBase u) = true ∧ s.ready = true ∧ s.inService (unitBase u) = true ∧ s.covered (unitBase
      u) = true ∧ s.testTime (unitBase u) = true ∧ s.rel.inject = none) ∧
    (∃ (s : State) (u : UnitId), selftestUnit (unitBase u) = true ∧ s.ready = true ∧ s.covered (unitBase u) = true ∧ unitBase u ∉
      s.rel.late ∧ s.testSince (unitBase u) + 4000000 ≤ s.time.count.toNat) ∧
    (∃ (s : State) (m : Master) (v : Word), s.Takes m pgFlt 0x120 (putBits v 7 0 0x80) ∧ unitBase (s.injectFor 0x80 (getBits v 15 8)).unit
      ∈ s.rel.injected ∧ s.inService (unitBase (s.injectFor 0x80 (getBits v 15 8)).unit) = false) :=
  ⟨⟨later 7 (readyBoot [(Key.clwStat 15, 0x80000000)]), ⟨3, 15, 2⟩, by decide +kernel⟩,
   ⟨later 4000000 (readyBoot []), ⟨10, 3, 0⟩, by decide +kernel⟩,
   ⟨{ st [(Key.fltInjTgt, 31)] with rel := { injected := [⟨1, 31, 0⟩] } }, .hostPf, 0x100, by decide +kernel⟩⟩

theorem witness_Injections :
    (∃ (s : State) (m : Master) (v : Word), s.Takes m pgFlt 0x120 (putBits v 7 0 1)) ∧
    (∃ (s : State) (m : Master) (v : Word), s.Takes m pgFlt 0x120 (putBits v 7 0 1)) ∧
    (∃ (s : State) (m : Master) (v : Word), s.Takes m pgFlt 0x120 (putBits v 7 0 2)) ∧
    (∃ (s : State) (m : Master) (v : Word), s.Takes m pgFlt 0x120 (putBits v 7 0 3)) ∧
    (∃ (s : State) (m : Master) (v : Word), s.Takes m pgFlt 0x120 (putBits v 7 0 4)) ∧
    (∃ (s : State) (m : Master) (v : Word), s.Takes m pgFlt 0x120 (putBits v 7 0 5)) ∧
    (∃ (s : State) (m : Master) (v : Word), s.Takes m pgFlt 0x120 (putBits v 7 0 6)) ∧
    (∃ (s : State) (m : Master) (v : Word), s.Takes m pgFlt 0x120 (putBits v 7 0 7)) ∧
    (∃ (s : State) (m : Master) (v : Word), s.Takes m pgFlt 0x120 (putBits v 7 0 8)) ∧
    (∃ (s : State) (m : Master) (v : Word), s.Takes m pgFlt 0x120 (putBits v 7 0 10)) ∧
    (∃ (s : State) (m : Master) (v : Word), s.Takes m pgFlt 0x120 (putBits v 7 0 9) ∧ s.bit Key.fltInjCtl 0 = true) :=
  ⟨⟨st [(Key.fltInjCtl, 1)], .hostPf, 0, by decide +kernel⟩,
   ⟨{ own 16 with regs := (st [(Key.fltInjCtl, 1), (Key.fltInjTgt, 3 * 2 ^ 24), (Key.fltInjArgLo, 0x10040)]).regs }, .hostPf, 0,
     by decide +kernel⟩,
   ⟨{ own 16 with regs := (st [(Key.fltInjCtl, 1), (Key.fltInjTgt, 3 * 2 ^ 24), (Key.fltInjArgLo, 0x10040)]).regs }, .masthead 0, 0xFF,
     by decide +kernel⟩,
   ⟨{ st [(Key.fltInjCtl, 1), (Key.fltInjTgt, 11)] with rel := { inject := some ⟨1, ⟨0, 0, 0⟩, 0⟩ } }, .hostPf, 0, by decide +kernel⟩,
   ⟨st [(Key.fltInjCtl, 1), (Key.fltInjTgt, 37)], .hostPf, 0, by decide +kernel⟩,
   ⟨st [(Key.fltInjCtl, 1), (Key.fltInjTgt, 0xFF00001F)], .hostPf, 0x100, by decide +kernel⟩,
   ⟨st [], .hostPf, 0x100, by decide +kernel⟩,
   ⟨st [(Key.fltInjCtl, 1), (Key.fltInjTgt, 0xFF00000F)], .hostPf, 0x300, by decide +kernel⟩,
   ⟨st [(Key.fltInjCtl, 1), (Key.fltInjTgt, 0xFF1F00FF), (Key.fltInjArgLo, 1023)], .hostPf, 0x400, by decide +kernel⟩,
   ⟨st [(Key.fltInjCtl, 1)], .hostPf, 0, by decide +kernel⟩,
   ⟨st [(Key.fltInjCtl, 1)], .masthead 0, 0, by decide +kernel⟩⟩

theorem witness_SidebandRequests :
    (∃ (s : State) (op : Byte) (eid : Byte), s.pins.pwrOk = true ∧ s.sbd.held < 8 ∧ op.toNat ≤ 1 ∧ 8 ≤ eid.toNat ∧ eid.toNat ≤ 0xFE) ∧
    (∃ (s : State), s.pins.pwrOk = true ∧ s.sbd.held < 8) ∧
    (∃ (s : State) (type : Byte), s.pins.pwrOk = true ∧ s.sbd.held < 8 ∧ type.toNat ∈ mctpTypes) ∧
    (∃ (s : State), s.pins.pwrOk = true ∧ s.sbd.held < 8) ∧
    (∃ (s : State) (type : Byte), s.pins.pwrOk = true ∧ s.sbd.held < 8 ∧ type.toNat ∈ [0, 2, 5]) ∧
    (∃ (s : State), s.pins.pwrOk = true ∧ s.sbd.held < 8) ∧
    (∃ (s : State) (type : Byte), s.pins.pwrOk = true ∧ s.sbd.held < 8 ∧ type.toNat ∈ [0, 2, 5]) ∧
    (∃ (s : State) (n : BitVec 16), s.pins.pwrOk = true ∧ s.sbd.held < 8 ∧ s.boot.running = true ∧ n.toNat ∈ sensors) ∧
    (∃ (s : State), s.pins.pwrOk = true ∧ s.sbd.held < 8 ∧ s.boot.running = true) ∧
    (∃ (s : State) (n : Word) (x : Nat), s.pins.pwrOk = true ∧ s.sbd.held < 8 ∧ s.boot.running = true ∧ sensors[n.toNat - 1]? = some x) ∧
    (∃ (s : State) (n : BitVec 16), s.pins.pwrOk = true ∧ s.sbd.held < 8 ∧ s.boot.running = false) ∧
    (∃ (s : State), s.pins.pwrOk = false) ∧
    (∃ (s : State), s.pins.pwrOk = true ∧ 8 ≤ s.sbd.held) ∧
    (∃ (s : State), s.pins.pwrOk = true ∧ s.sbd.held < 8) :=
  ⟨⟨State.reset, 1, 0xFE, by decide +kernel⟩,
   ⟨State.reset, by decide +kernel⟩,
   ⟨State.reset, 0x7E, by decide +kernel⟩,
   ⟨State.reset, by decide +kernel⟩,
   ⟨State.reset, 5, by decide +kernel⟩,
   ⟨State.reset, by decide +kernel⟩,
   ⟨State.reset, 2, by decide +kernel⟩,
   ⟨booted [], 0x60, by decide +kernel⟩,
   ⟨booted [], by decide +kernel⟩,
   ⟨booted [], 52, 0x60, by decide +kernel⟩,
   ⟨State.reset, 1, by decide +kernel⟩,
   ⟨{ State.reset with pins := { pwrOk := false } }, by decide +kernel⟩,
   ⟨{ State.reset with sbd := { held := 8 } }, by decide +kernel⟩,
   ⟨State.reset, by decide +kernel⟩⟩

theorem witness_VendorCommands :
    (∃ (s : State) (u : State), s.pins.pwrOk = true ∧ s.sbd.held < 8 ∧ s.boot.running = true ∧ s.bit Key.sbdCfg 8 = false ∧ u = s.asked) ∧
    (∃ (s : State) (u : State) (l : List Byte), s.pins.pwrOk = true ∧ s.sbd.held < 8 ∧ s.boot.running = true ∧ s.bit Key.sbdCfg 8 = false ∧
      u = s.asked ∧ l.length = 4 ∧ leAt l 2 2 = 0) ∧
    (∃ (s : State) (u : State) (l : List Byte), s.pins.pwrOk = true ∧ s.sbd.held < 8 ∧ s.boot.running = true ∧ s.bit Key.sbdCfg 8 = false ∧
      u = s.asked ∧ l.length = 8 ∧ leAt l 0 1 < 12 ∧ leAt l 1 1 = 1 ∧ leAt l 2 1 = 0 ∧ leAt l 3 1 = 0 ∧ bitsOf (leAt l 4 4) 29 24 = 0) ∧
    (∃ (s : State) (u : State) (l : List Byte), s.pins.pwrOk = true ∧ s.sbd.held < 8 ∧ s.boot.running = true ∧ s.bit Key.sbdCfg 8 = false ∧
      u = s.asked ∧ l.length = 12 ∧ leAt l 0 1 = 1 ∧ leAt l 1 3 = 0) ∧
    (∃ (s : State) (u : State) (l : List Byte), s.pins.pwrOk = true ∧ s.sbd.held < 8 ∧ s.boot.running = true ∧ s.bit Key.sbdCfg 8 = false ∧
      u = s.asked ∧ l.length = 4 ∧ leAt l 2 2 = 1) ∧
    (∃ (s : State) (u : State) (l : List Byte), s.pins.pwrOk = true ∧ s.sbd.held < 8 ∧ s.boot.running = true ∧ s.bit Key.sbdCfg 8 = false ∧
      u = s.asked ∧ l.length = 4 ∧ leAt l 0 1 < 64 ∧ leAt l 1 1 = 1 ∧ leAt l 2 2 = 0) ∧
    (∃ (s : State) (u : State) (l : List Byte), s.pins.pwrOk = true ∧ s.sbd.held < 8 ∧ s.boot.running = true ∧ s.bit Key.sbdCfg 8 = false ∧
      u = s.asked ∧ l.length = 8 ∧ leAt l 4 4 = 1 ∧ leAt l 2 2 ≤ 0xFFC) ∧
    (∃ (s : State) (u : State) (l : List Byte), s.pins.pwrOk = true ∧ s.sbd.held < 8 ∧ s.boot.running = true ∧ s.bit Key.sbdCfg 8 = false ∧
      u = s.asked ∧ l.length = 8 ∧ leAt l 2 2 ≤ 0xFFF) ∧
    (∃ (s : State) (u : State) (l : List Byte), s.pins.pwrOk = true ∧ s.sbd.held < 8 ∧ s.boot.running = true ∧ s.bit Key.sbdCfg 8 = false ∧
      u = s.asked ∧ l.length = 4 ∧ leAt l 0 1 = 1 ∧ leAt l 1 3 = 0) ∧
    (∃ (s : State) (u : State) (l : List Byte), s.pins.pwrOk = true ∧ s.sbd.held < 8 ∧ s.boot.running = true ∧ s.bit Key.sbdCfg 8 = false ∧
      u = s.asked ∧ l.length = 4) ∧
    (∃ (s : State) (u : State) (l : List Byte), s.pins.pwrOk = true ∧ s.sbd.held < 8 ∧ s.boot.running = true ∧ s.bit Key.sbdCfg 8 = false ∧
      u = s.asked ∧ l ≠ []) ∧
    (∃ (s : State) (l : List Byte), s.pins.pwrOk = true ∧ s.sbd.held < 8 ∧ s.boot.running = true ∧ s.bit Key.sbdCfg 8 = true) ∧
    (∃ (s : State) (l : List Byte) (n : Nat), n ∉ s.sbd.sessions) :=
  ⟨⟨booted [], (booted []).asked, by decide +kernel, by decide +kernel, by decide +kernel, by decide +kernel, rfl⟩,
   ⟨booted [], (booted []).asked, [0x21, 1, 0, 0], by decide +kernel, by decide +kernel, by decide +kernel, by decide +kernel, rfl,
     by decide +kernel, by decide +kernel⟩,
   ⟨booted [], (booted []).asked, [11, 1, 0, 0, 1, 2, 0, 0x80], by decide +kernel, by decide +kernel, by decide +kernel, by decide +kernel,
     rfl, by decide +kernel, by decide +kernel, by decide +kernel, by decide +kernel, by decide +kernel, by decide +kernel⟩,
   ⟨booted [], (booted []).asked, [1, 0, 0, 0, 0x84, 3, 0, 0, 0, 0, 0, 0], by decide +kernel, by decide +kernel, by decide +kernel,
     by decide +kernel, rfl, by decide +kernel, by decide +kernel, by decide +kernel⟩,
   ⟨booted [], (booted []).asked, [0xDF, 1, 1, 0], by decide +kernel, by decide +kernel, by decide +kernel, by decide +kernel, rfl,
     by decide +kernel, by decide +kernel⟩,
   ⟨booted [], (booted []).asked, [63, 1, 0, 0], by decide +kernel, by decide +kernel, by decide +kernel, by decide +kernel, rfl,
     by decide +kernel, by decide +kernel, by decide +kernel, by decide +kernel⟩,
   ⟨booted [], (booted []).asked, [4, 0, 0xFC, 0xF, 1, 0, 0, 0], by decide +kernel, by decide +kernel, by decide +kernel,
     by decide +kernel, rfl, by decide +kernel, by decide +kernel, by decide +kernel⟩,
   ⟨booted [], (booted []).asked, [4, 0, 0, 1, 0x84, 3, 0, 0], by decide +kernel, by decide +kernel, by decide +kernel, by decide +kernel,
     rfl, by decide +kernel, by decide +kernel⟩,
   ⟨booted [], (booted []).asked, [1, 0, 0, 0], by decide +kernel, by decide +kernel, by decide +kernel, by decide +kernel, rfl,
     by decide +kernel, by decide +kernel, by decide +kernel⟩,
   ⟨booted [], (booted []).asked, [2, 0, 0, 0], by decide +kernel, by decide +kernel, by decide +kernel, by decide +kernel, rfl,
     by decide +kernel⟩,
   ⟨booted [], (booted []).asked, [0], by decide +kernel, by decide +kernel, by decide +kernel, by decide +kernel, rfl, by decide +kernel⟩,
   ⟨booted [(Key.sbdCfg, 0x100)], [], by decide +kernel⟩,
   ⟨booted [], [], 0, by decide +kernel⟩⟩

theorem witness_UpdatesAndSessions :
    (∃ (s : State), s.pins.pwrOk = true ∧ s.sbd.held < 8 ∧ s.sbd.update = none ∧ s.boot.dead = false) ∧
    (∃ (s : State) (u : Update) (st : Word), s.pins.pwrOk = true ∧ s.sbd.held < 8 ∧ s.sbd.update = some u ∧ u.phase ≤ 1) ∧
    (∃ (s : State) (u : Update) (size : Nat), s.pins.pwrOk = true ∧ s.sbd.held < 8 ∧ s.sbd.update = some u ∧ u.phase = 1 ∧ 0 < size ∧ size
      ≤ 0x1000000) ∧
    (∃ (s : State) (u : Update) (chunk : List Byte), s.pins.pwrOk = true ∧ s.sbd.update = some u ∧ u.phase = 2 ∧ chunk.length = u.want ∧
      u.got + chunk.length < u.size) ∧
    (∃ (s : State) (u : Update), s.pins.pwrOk = true ∧ s.sbd.held < 8 ∧ s.sbd.update = some u ∧ u.phase = 3 ∧ s.boot.dead = false) ∧
    (∃ (s : State), s.boot.running = true) ∧
    (∃ (s : State), s.boot.running = true ∧ s.sbd.spdm = 1) ∧
    (∃ (s : State), s.boot.running = true ∧ s.sbd.spdm < 3) ∧
    (∃ (s : State) (id : Nat) (rest : List Nat), s.boot.running = true ∧ s.sbd.handshakes = id :: rest) ∧
    (∃ (s : State), s.boot.running = true ∧ 3 ≤ s.sbd.spdm ∧ 4 ≤ s.sbd.sessions.length + s.sbd.handshakes.length) :=
  ⟨⟨State.reset, by decide +kernel⟩,
   ⟨updating 1, upd 1, 0, by decide +kernel⟩,
   ⟨updating 1, upd 1, 0x1000000, by decide +kernel⟩,
   ⟨updating 2, upd 2, List.replicate 1024 7, by decide +kernel⟩,
   ⟨updating 3, upd 3, by decide +kernel⟩,
   ⟨booted [], by decide +kernel⟩,
   ⟨{ booted [] with sbd := { spdm := 1 } }, by decide +kernel⟩,
   ⟨booted [], by decide +kernel⟩,
   ⟨{ booted [] with sbd := { handshakes := [4] } }, 4, [], by decide +kernel⟩,
   ⟨{ booted [] with sbd := { spdm := 3, sessions := [1, 2], handshakes := [3, 4] } }, by decide +kernel⟩⟩

theorem witness_PowerDownAndTap :
    (∃ (s : State), s.pins.pwrOk = true) ∧
    (∃ (s : State), s.pins.jtag = .idcode) ∧
    (∃ (s : State), s.pins.jtag = .extest) :=
  ⟨⟨booted [], by decide +kernel⟩,
   ⟨State.reset, by decide +kernel⟩,
   ⟨{ State.reset with pins := { pwrOk := true, jtag := .extest } }, by decide +kernel⟩⟩

/-! ### Every check of WellFormed refuses an ill-formed command -/

theorem test_refuses_bundles : ∀ c ∈ [Instr.data 12 0 false none, .nak 12 0, .replayTimeout 12, .telltale 12 0 0, .linkTraining 12 ⟨0, 0⟩,
    .identityRecord 12 0, .identTimeout 12, .retrain 12, .los 12 0, .retryLimit 12, .replayFail 12, .creditStall 12 0, .trainFail 12,
    .berWarn 12 0, .segment 12 0 0 0 [] 0 none, .holdDown .bmc 12 0 0, .rigCheck 12, .rigOk 12, .idleFlit 12 0],
    c.wellFormed = false ∧ (Instr.rigOk 11).wellFormed = true := by decide

theorem test_refuses_units : ∀ c ∈ [Instr.ratlineUnit 38 false 0 0 true [], .ratlineReplayTimeout 38 false [], .laneTest 38 false,
    .laneTestEnd 38 false 0 0 [], .ratlineRetrain 38 0 0, .patrol .near 8, .bankRefresh .near 8 0, .stackLost .near 8, .cipherFault .near 8,
    .memoryTrained [(.near, 8)] [] [], .memoryTrained [] [(.near, 8)] [], .dieReturn 10 [] [] [] [], .dieReturn 0 [⟨1, 32, 0⟩] [] [] [],
    .boot [⟨0, 0, 0⟩], .selftest ⟨6, 4, 0⟩ true, .selftestLate ⟨10, 4, 0⟩, .bankRetire 192], c.wellFormed = false := by decide

theorem test_refuses_operands : ∀ c ∈ [Instr.plainLoad (.core 0) 0 0 false, .plainStore (.core 0) 0 [] false, .loadAcquire (.core 0) 0 0,
    .storeRelease (.core 0) 0 [] false, .segment 0 0 0 0 (List.replicate 16385 0) 0 none, .warningCrossing 12 0, .releaseCrossing 12 0,
    .dipRecovered 12, .resetCrossing 12 0, .dieSupplyRelease 12 0, .monFail (some 12), .idleEntry (.yard 32), .idleExit (.luff 8),
    .holdoffExpire (.banks 0 (some 128)), .idleEntry (.canvas 4)], c.wellFormed = false := by decide +kernel

/-! ### What the spec's worked examples and tables give -/

/-- 09 Table 9.3: the entry of page 835. -/
theorem test_page_entry_bytes : leBytes (Pte.toNat
    { frame := 0x1801234, present := true, dirty := true, refcount := 1, valid := 240, score := 0x3C00, gen := 1 }) 16 =
    [0x34, 0x12, 0x80, 1, 0, 0x22, 1, 0, 0xF0, 0, 0, 0x3C, 1, 0, 0, 0] := by decide

/-- 14's worked example of the sampler: P for d = 0, 1, 1.5 and 3, and for d = 37. -/
theorem test_sampler_weights : [0x00000000, 0x3F800000, 0x3FC00000, 0x40400000, 0x42140000].map (fun d => pOf (f32 d)) =
    [4294967296, 2147483648, 1518500250, 536870912, 0] := by decide +kernel

/-- 03's worked example: the BMC writes the cap 900 W and then the host 1,100 W in the same window; the host's is discarded. -/
def capped : State :=
  match exec (.pwrCapWrite .bmc 0xF 900) (later 12 State.reset) with
  | .next t => match exec (.pwrCapWrite .hostPf 0xF 1100) { t with time := (later 52 State.reset).time, arb := { t.arb with num := 160 } } with
    | .next u => u
    | _ => t
  | _ => State.reset

theorem test_conflict_word : capped.reg (Key.conflict pgPwr) = 0xB0203100 ∧ capped.fld Key.pwrCap 10 0 = 900 := by decide +kernel



end Sys2Proof.Tests
end

section
/-! What each step leaves of the queue and of what was given outside, and the idle step (03 R41; log entries 3, 12 and 139). -/

namespace Sys2Proof.Machine

/-- Every command leaves the queue of those that wait, takes back nothing that it gave to the outside and takes no free value twice;
one arm per command, as in `exec`. -/
theorem exec_keeps {r s : State} (c : Instr) (h : Keeps r s) : KeepsR r (exec c s) := by
  cases c with
  | registerWrite => exact execRegisterWrite_keeps h
  | rcRead => exact execRcRead_keeps h
  | fltLatchRead => exact execFltLatchRead_keeps h
  | conflictRead => exact execConflictRead_keeps h
  | ownerWrite => exact execOwnerWrite_keeps h
  | lock => exact execLock_keeps h
  | softReset => exact execSoftReset_keeps h
  | irqForce => exact execIrqForce_keeps h
  | irqStatClear => exact execIrqStatClear_keeps h
  | ttlNowRead => exact execTtlNowRead_keeps h
  | faultAggregate => exact execFaultAggregate_keeps h
  | deqHead => exact execDeqHead_keeps h
  | deqEnable => exact execDeqEnable_keeps h
  | sqDoorbell => exact execSqDoorbell_keeps h
  | eqDoorbell => exact execEqDoorbell_keeps h
  | sqEnable => exact execSqEnable_keeps h
  | sqDisable => exact execSqDisable_keeps h
  | eqEnable => exact execEqEnable_keeps h
  | eqDisable => exact execEqDisable_keeps h
  | fetchError => exact execFetchError_keeps h
  | request => exact execRequest_keeps h
  | cancel => exact execCancel_keeps h
  | nop => exact execNop_keeps h
  | loadModel => exact execLoadModel_keeps h
  | modelLoadComplete => exact execModelLoadComplete_keeps h
  | unloadModel => exact execUnloadModel_keeps h
  | unloadComplete => exact execUnloadComplete_keeps h
  | outputRingReread => exact execOutputRingReread_keeps h
  | moderationTimer => exact execModerationTimer_keeps h
  | vfFlr => exact execVfFlr_keeps h
  | pfFlr => exact execPfFlr_keeps h
  | hotReset => exact execHotReset_keeps h
  | dlDown => exact execDlDown_keeps h
  | plainLoad => exact execPlainLoad_keeps h
  | plainStore => exact execPlainStore_keeps h
  | loadAcquire => exact execLoadAcquire_keeps h
  | storeRelease => exact execStoreRelease_keeps h
  | sync => exact execSync_keeps h
  | syncComplete => exact execSyncComplete_keeps h
  | assign => exact execAssign_keeps h
  | commit => exact execCommit_keeps h
  | drain => exact execDrain_keeps h
  | drainDone => exact execDrainDone_keeps h
  | reset => exact execReset_keeps h
  | resetDone => exact execResetDone_keeps h
  | release => exact execRelease_keeps h
  | teardownComplete => exact execTeardownComplete_keeps h
  | keyFail => exact execKeyFail_keeps h
  | scrubComplete => exact execScrubComplete_keeps h
  | deferredRerun => exact execDeferredRerun_keeps h
  | prefixLookup => exact execPrefixLookup_keeps h
  | prefillPageStep => exact execPrefillPageStep_keeps h
  | decodeStep => exact execDecodeStep_keeps h
  | resume => exact execResume_keeps h
  | finalPass => exact execFinalPass_keeps h
  | promote => exact execPromote_keeps h
  | demote => exact execDemote_keeps h
  | copy => exact execCopy_keeps h
  | burstRecheck => exact execBurstRecheck_keeps h
  | pageCommit => exact execPageCommit_keeps h
  | pmgHrTail => exact execPmgHrTail_keeps h
  | pmgHrEnable => exact execPmgHrEnable_keeps h
  | frameRetire => exact execFrameRetire_keeps h
  | patrol => exact execPatrol_keeps h
  | bankRefresh => exact execBankRefresh_keeps h
  | stackLost => exact execStackLost_keeps h
  | cipherFault => exact execCipherFault_keeps h
  | memoryTrained => exact execMemoryTrained_keeps h
  | append => exact execAppend_keeps h
  | pin => exact execPin_keeps h
  | unpin => exact execUnpin_keeps h
  | heldReserve => exact execHeldReserve_keeps h
  | holdTimeout => exact execHoldTimeout_keeps h
  | bind => exact execBind_keeps h
  | unbind => exact execUnbind_keeps h
  | slotFree => exact execSlotFree_keeps h
  | agePeriod => exact execAgePeriod_keeps h
  | reefSelect => exact execReefSelect_keeps h
  | pageDrop => exact execPageDrop_keeps h
  | pinHoldExpire => exact execPinHoldExpire_keeps h
  | planBind => exact execPlanBind_keeps h
  | walkStart => exact execWalkStart_keeps h
  | gemm => exact execGemm_keeps h
  | copyMacro => exact execCopyMacro_keeps h
  | attn => exact execAttn_keeps h
  | scatter => exact execScatter_keeps h
  | map => exact execMap_keeps h
  | smaxMax => exact execSmaxMax_keeps h
  | smaxSum => exact execSmaxSum_keeps h
  | smaxOut => exact execSmaxOut_keeps h
  | sample => exact execSample_keeps h
  | normMax => exact execNormMax_keeps h
  | normSum => exact execNormSum_keeps h
  | normOut => exact execNormOut_keeps h
  | send => exact execSend_keeps h
  | recv => exact execRecv_keeps h
  | allreduce => exact execAllreduce_keeps h
  | allgather => exact execAllgather_keeps h
  | gather => exact execGather_keeps h
  | stats => exact execStats_keeps h
  | macroRetire => exact execMacroRetire_keeps h
  | bomTestStart => exact execBomTestStart_keeps h
  | yardRetire => exact execYardRetire_keeps h
  | luffRetire => exact execLuffRetire_keeps h
  | clewRetire => exact execClewRetire_keeps h
  | bankRetire => exact execBankRetire_keeps h
  | eval => exact execEval_keeps h
  | evaluationSlot => exact execEvaluationSlot_keeps h
  | retryRepeat => exact execRetryRepeat_keeps h
  | programBatch => exact execProgramBatch_keeps h
  | verifyRead => exact execVerifyRead_keeps h
  | erase => exact execErase_keeps h
  | rereference => exact execRereference_keeps h
  | tempTrack => exact execTempTrack_keeps h
  | refresh => exact execRefresh_keeps h
  | sentinelVisit => exact execSentinelVisit_keeps h
  | spareProgram => exact execSpareProgram_keeps h
  | rereferenceNow => exact execRereferenceNow_keeps h
  | visitNow => exact execVisitNow_keeps h
  | form => exact execForm_keeps h
  | formRetry => exact execFormRetry_keeps h
  | formAnswer => exact execFormAnswer_keeps h
  | formTimeout => exact execFormTimeout_keeps h
  | dissolve => exact execDissolve_keeps h
  | ready => exact execReady_keeps h
  | start => exact execStart_keeps h
  | ringRelease => exact execRingRelease_keeps h
  | stepDue => exact execStepDue_keeps h
  | delay => exact execDelay_keeps h
  | sweep => exact execSweep_keeps h
  | partialRecord => exact execPartialRecord_keeps h
  | ringEnd => exact execRingEnd_keeps h
  | stepTimeout => exact execStepTimeout_keeps h
  | barrierTimeout => exact execBarrierTimeout_keeps h
  | stall => exact execStall_keeps h
  | recoverTimeout => exact execRecoverTimeout_keeps h
  | context => exact execContext_keeps h
  | mirrorRows => exact execMirrorRows_keeps h
  | mirrorAck => exact execMirrorAck_keeps h
  | data => exact execData_keeps h
  | nak => exact execNak_keeps h
  | replayTimeout => exact execReplayTimeout_keeps h
  | telltale => exact execTelltale_keeps h
  | linkTraining => exact execLinkTraining_keeps h
  | identityRecord => exact execIdentityRecord_keeps h
  | identTimeout => exact execIdentTimeout_keeps h
  | retrain => exact execRetrain_keeps h
  | los => exact execLos_keeps h
  | retryLimit => exact execRetryLimit_keeps h
  | replayFail => exact execReplayFail_keeps h
  | creditStall => exact execCreditStall_keeps h
  | trainFail => exact execTrainFail_keeps h
  | berWarn => exact execBerWarn_keeps h
  | segment => exact execSegment_keeps h
  | msgTimeout => exact execMsgTimeout_keeps h
  | holdDown => exact execHoldDown_keeps h
  | sheetWrite => exact execSheetWrite_keeps h
  | topCoordWrite => exact execTopCoordWrite_keeps h
  | load => exact execLoad_keeps h
  | check => exact execCheck_keeps h
  | rigCheck => exact execRigCheck_keeps h
  | rigOk => exact execRigOk_keeps h
  | rigTimeout => exact execRigTimeout_keeps h
  | reach => exact execReach_keeps h
  | arm => exact execArm_keeps h
  | disarm => exact execDisarm_keeps h
  | takeover => exact execTakeover_keeps h
  | busy => exact execBusy_keeps h
  | fenceConfirm => exact execFenceConfirm_keeps h
  | rebindConfirm => exact execRebindConfirm_keeps h
  | settleEnd => exact execSettleEnd_keeps h
  | confirmTimeout => exact execConfirmTimeout_keeps h
  | taken => exact execTaken_keeps h
  | eventFire => exact execEventFire_keeps h
  | swevArm => exact execSwevArm_keeps h
  | lostTimeout => exact execLostTimeout_keeps h
  | holdoverExpire => exact execHoldoverExpire_keeps h
  | acquireEnd => exact execAcquireEnd_keeps h
  | ratlineUnit => exact execRatlineUnit_keeps h
  | ratlineReplayTimeout => exact execRatlineReplayTimeout_keeps h
  | laneTest => exact execLaneTest_keeps h
  | laneTestEnd => exact execLaneTestEnd_keeps h
  | ratlineRetrain => exact execRatlineRetrain_keeps h
  | divisorChange => exact execDivisorChange_keeps h
  | swDivisor => exact execSwDivisor_keeps h
  | throttleOrder => exact execThrottleOrder_keeps h
  | refBad => exact execRefBad_keeps h
  | pllUnlock => exact execPllUnlock_keeps h
  | por => exact execPor_keeps h
  | perst => exact execPerst_keeps h
  | packageReset => exact execPackageReset_keeps h
  | dieCommand => exact execDieCommand_keeps h
  | activate => exact execActivate_keeps h
  | watchdog => exact execWatchdog_keeps h
  | lockstepMismatch => exact execLockstepMismatch_keeps h
  | dieReturn => exact execDieReturn_keeps h
  | boot => exact execBoot_keeps h
  | startupComplete => exact execStartupComplete_keeps h
  | conductWrite => exact execConductWrite_keeps h
  | warningCrossing => exact execWarningCrossing_keeps h
  | releaseCrossing => exact execReleaseCrossing_keeps h
  | dipRecovered => exact execDipRecovered_keeps h
  | resetCrossing => exact execResetCrossing_keeps h
  | dieSupplyRelease => exact execDieSupplyRelease_keeps h
  | idleEntry => exact execIdleEntry_keeps h
  | idleExit => exact execIdleExit_keeps h
  | holdoffExpire => exact execHoldoffExpire_keeps h
  | powerSample => exact execPowerSample_keeps h
  | controlPeriod => exact execControlPeriod_keeps h
  | pwrCapWrite => exact execPwrCapWrite_keeps h
  | thmLimitWrite => exact execThmLimitWrite_keeps h
  | thermalEvaluation => exact execThermalEvaluation_keeps h
  | thermalTrip => exact execThermalTrip_keeps h
  | selftest => exact execSelftest_keeps h
  | selftestLate => exact execSelftestLate_keeps h
  | memCe => exact execMemCe_keeps h
  | memUe => exact execMemUe_keeps h
  | linkCrc => exact execLinkCrc_keeps h
  | ratlineCrc => exact execRatlineCrc_keeps h
  | residueTrans => exact execResidueTrans_keeps h
  | residueHard => exact execResidueHard_keeps h
  | selftestFail => exact execSelftestFail_keeps h
  | sentinelDev => exact execSentinelDev_keeps h
  | lockstep => exact execLockstep_keeps h
  | e2eCrc => exact execE2eCrc_keeps h
  | restore => exact execRestore_keeps h
  | setEndpointId => exact execSetEndpointId_keeps h
  | getEndpointId => exact execGetEndpointId_keeps h
  | getMctpVersionSupport => exact execGetMctpVersionSupport_keeps h
  | getMessageTypeSupport => exact execGetMessageTypeSupport_keeps h
  | getTid => exact execGetTid_keeps h
  | getPldmVersion => exact execGetPldmVersion_keeps h
  | getPldmTypes => exact execGetPldmTypes_keeps h
  | getPldmCommands => exact execGetPldmCommands_keeps h
  | getSensorReading => exact execGetSensorReading_keeps h
  | getPdrRepositoryInfo => exact execGetPdrRepositoryInfo_keeps h
  | getPdr => exact execGetPdr_keeps h
  | requestUpdate => exact execRequestUpdate_keeps h
  | passComponentTable _ _ stamp => exact execPassComponentTable_keeps (_stamp := stamp) h
  | updateComponent => exact execUpdateComponent_keeps h
  | requestFirmwareData => exact execRequestFirmwareData_keeps h
  | activateFirmware => exact execActivateFirmware_keeps h
  | getInfo => exact execGetInfo_keeps h
  | setCoord => exact execSetCoord_keeps h
  | getCoord => exact execGetCoord_keeps h
  | rigPlan => exact execRigPlan_keeps h
  | rigStatus => exact execRigStatus_keeps h
  | powerOrder => exact execPowerOrder_keeps h
  | powerStatus => exact execPowerStatus_keeps h
  | faultPeek => exact execFaultPeek_keeps h
  | faultLog => exact execFaultLog_keeps h
  | regRead => exact execRegRead_keeps h
  | regWrite => exact execRegWrite_keeps h
  | resetCommand => exact execResetCommand_keeps h
  | jury => exact execJury_keeps h
  | spdmRequest => exact execSpdmRequest_keeps h
  | sessionEnd => exact execSessionEnd_keeps h
  | smbTimeout => exact execSmbTimeout_keeps h
  | reassembly => exact execReassembly_keeps h
  | powerDown => exact execPowerDown_keeps h
  | bypass => exact execBypass_keeps h
  | idcode => exact execIdcode_keeps h
  | samplePreload => exact execSamplePreload_keeps h
  | extest => exact execExtest_keeps h
  | clamp => exact execClamp_keeps h
  | highz => exact execHighz_keeps h
  | tapExit => exact execTapExit_keeps h
  | rngFail => exact execRngFail_keeps h
  | usageEpoch => exact execUsageEpoch_keeps h
  | rngOk => exact execRngOk_keeps h
  | idleFlit => exact execIdleFlit_keeps h
  | pecError => exact execPecError_keeps h
  | pllLock => exact execPllLock_keeps h
  | monFail => exact execMonFail_keeps h

/-- Settles O6: a step is one idle cycle or the front command on the queue's rest, and both keep queue, outputs and free values. -/
theorem stepTakesOneCommand : Obligations.StepTakesOneCommand := by
  unfold Obligations.StepTakesOneCommand
  intro s t hstep
  unfold step at hstep
  split at hstep
  case h_1 hq =>
    cases hstep
    have hk := State.idle_keeps (Keeps.refl s)
    exact ⟨by rw [hk.queue, hq]; rfl, hk.outs, hk.free⟩
  case h_2 c rest hq =>
    have hk := (exec_keeps c (Keeps.refl { s with pending := rest })).keeps t hstep
    exact ⟨by rw [hk.queue, hq]; rfl, hk.outs, hk.free⟩

/-- Settles O2: with nothing queued a step is the idle cycle, which brings no command. -/
theorem idleStepCompletes : Obligations.IdleStepCompletes := by
  unfold Obligations.IdleStepCompletes
  intro s hq
  have hk := State.idle_keeps (Keeps.refl s)
  exact ⟨s.idle, by simp [step, hq], rfl, hk.queue.trans hq, hk.outs⟩

end Sys2Proof.Machine
end

section
/-! The registers of the common header: where they are, their fields, what they hold at reset (03 R53, R54). -/

namespace Sys2Proof.Machine

/-! ### Keys -/

theorem regKey_page (p : Nat) {off : Nat} (ho : off < 0x1000) : regKey p off / 1024 = p := by
  unfold regKey; omega

theorem regKey_offset (p : Nat) {off : Nat} (ho : off < 0x1000) (h4 : off % 4 = 0) : regKey p off % 1024 * 4 = off := by
  unfold regKey; omega

theorem regKey_ne {p q a b : Nat} (ha : a < 0x1000) (hb : b < 0x1000) (hab : a / 4 ≠ b / 4) : regKey p a ≠ regKey q b := by
  unfold regKey; omega

/-! ### The common header -/

theorem findReg_header {p off : Nat} (hp : (blockOf p).isSome = true) (ho : off < 0x100) :
    findReg p off = headerRegs.find? fun r => r.at off := by
  obtain ⟨⟨b, i⟩, hb⟩ := Option.isSome_iff_exists.1 hp
  simp only [findReg, hb, ho, if_true]

/-- A register of the common header is there on every page of a block. -/
theorem findReg_header_some {p off : Nat} (hp : (blockOf p).isSome = true) (ho : off < 0x100)
    (hr : (headerRegs.find? fun r => r.at off).isSome = true) : ∃ r, findReg p off = some r :=
  Option.isSome_iff_exists.1 (findReg_header hp ho ▸ hr)

theorem fieldsOf_regKey (p : Nat) {off : Nat} (ho : off < 0x1000) (h4 : off % 4 = 0) :
    fieldsOf (regKey p off) = ((findReg p off).map Reg.fields).getD [] := by
  unfold fieldsOf
  rw [regKey_page p ho, regKey_offset p ho h4]
  cases findReg p off <;> rfl

/-- The fields of a header register are those that the header's table gives at its offset, on every page of a block. -/
theorem fieldsOf_header {p off : Nat} (hp : (blockOf p).isSome = true) (ho : off < 0x100) (h4 : off % 4 = 0) :
    fieldsOf (regKey p off) = ((headerRegs.find? fun r => r.at off).map Reg.fields).getD [] := by
  rw [fieldsOf_regKey p (by omega) h4, findReg_header hp ho]

/-- A header register but BLK_ID and OWNER is reset as its fields say. -/
theorem resetVal_header {p off : Nat} (hp : (blockOf p).isSome = true) (ho : off < 0x100) (h4 : off % 4 = 0) (h0 : off ≠ 0)
    (hown : off ≠ 0x28) :
    resetVal (regKey p off) = BitVec.ofNat 32 (fieldsReset (((headerRegs.find? fun r => r.at off).map Reg.fields).getD [])) := by
  obtain ⟨⟨b, i⟩, hb⟩ := Option.isSome_iff_exists.1 hp
  unfold resetVal
  rw [fieldsOf_header hp ho h4, regKey_page p (by omega), regKey_offset p (by omega) h4]
  simp only [hb, h0, hown, if_false]

theorem resetVal_owner {p : Nat} (hp : (blockOf p).isSome = true) :
    resetVal (Key.owner p) = if p ≤ 0xB then 0x01 else 0x03 := by
  obtain ⟨⟨b, i⟩, hb⟩ := Option.isSome_iff_exists.1 hp
  unfold resetVal
  rw [regKey_page p (by omega), regKey_offset p (by omega) (by omega)]
  simp only [hb, if_true, Nat.reduceEqDiff, if_false]

/-! ### The state at reset -/

/-- At reset every register of a header holds its reset value: the two that do not are of the RST block. -/
theorem State.reset_header (p : Nat) {off : Nat} (ho : off < 0x100) : State.reset.reg (regKey p off) = resetVal (regKey p off) := by
  have h1 : Key.rstStat ≠ regKey p off := regKey_ne (by omega) (by omega) (by omega)
  have h2 : Key.rstHist ≠ regKey p off := regKey_ne (by omega) (by omega) (by omega)
  simp only [State.reg, State.reset, SMap.get, h1, h2, if_false]

/-- A header register whose fields are all 0 at reset reads 0 then. -/
theorem State.reset_header_zero {p off : Nat} (hp : (blockOf p).isSome = true) (ho : off < 0x100) (h4 : off % 4 = 0) (h0 : off ≠ 0)
    (hown : off ≠ 0x28) (hz : fieldsReset (((headerRegs.find? fun r => r.at off).map Reg.fields).getD []) = 0) :
    State.reset.reg (regKey p off) = 0 := by
  rw [State.reset_header p ho, resetVal_header hp ho h4 h0 hown, hz]
  rfl

/-- Settles O3: header registers at reset hold the values of the header's table, and OWNER its own. -/
theorem resetState : Obligations.ResetState := by
  unfold Obligations.ResetState
  intro p hp
  have hctrl : State.reset.reg (Key.blkCtrl p) = 0 :=
    State.reset_header_zero hp (by omega) (by omega) (by omega) (by omega) (by decide)
  refine ⟨?_, ?_, ?_, ?_, ?_⟩
  · unfold State.owner State.fld
    rw [State.reset_header p (by omega), resetVal_owner hp]
    split <;> decide
  · simp [State.bit, State.fld, hctrl, getBits, bitsOf]
  · simp [State.bit, State.fld, hctrl, getBits, bitsOf]
  · exact State.reset_header_zero hp (by omega) (by omega) (by omega) (by omega) (by decide)
  · exact State.reset_header_zero hp (by omega) (by omega) (by omega) (by omega) (by decide)

end Sys2Proof.Machine
end

section
/-! Accesses that their gates refuse (03 R35, R36, R38, R50). -/

namespace Sys2Proof.Machine

/-! ### The commands that access registers are accesses of pages -/

theorem exec_registerWrite_page (m : Master) (p : BitVec 14) (off : BitVec 12) (be : BitVec 4) (v : Word) (s : State) :
    exec (.registerWrite m (.page p off) be v none) s = .next (s.writePage m p.toNat off.toNat be v) := rfl

theorem exec_ownerWrite (m : Master) (p : BitVec 14) (be : BitVec 4) (v : Word) (s : State) :
    exec (.ownerWrite m p be v) s = .next (s.writePage m p.toNat 0x28 be v) := rfl

theorem exec_rcRead_page (m : Master) (p : BitVec 14) (off : BitVec 12) (be : BitVec 4) (s : State) :
    exec (.rcRead m (.page p off) be none) s = .next (s.read m p.toNat off.toNat be) := rfl

/-! ### The gates -/

/-- A heard write that the gate refuses counts in MST_DENY_CNT and does nothing else. -/
theorem State.writePage_of_deny {s : State} {m : Master} {p off : Nat} {be : BitVec 4} {v : Word} (hh : s.Hears m)
    (hg : s.writeGate m p off be v = some s.deny) :
    s.writePage m p off be v = s.setReg Key.mstDenyCnt (satInc (s.reg Key.mstDenyCnt)) := by
  obtain ⟨hheard, hsync⟩ := hh
  simp only [State.writePage, State.deny, State.inc, State.gated, hheard, hsync, hg, Bool.true_eq_false, Bool.false_eq_true, if_false]

theorem State.writeGate_partial (s : State) (m : Master) (p : Nat) {off : Nat} {be : BitVec 4} (v : Word)
    (h : be ≠ 0xF ∨ off % 4 ≠ 0) : s.writeGate m p off be v = some s.deny := by
  simp only [State.writeGate, h, if_true]

/-- A die in reset takes no write, of OWNER neither. -/
theorem State.writeGate_dead {s : State} (m : Master) {p : Nat} (off : Nat) (be : BitVec 4) (v : Word) (h : s.pageDead p = true) :
    s.writeGate m p off be v = some s.deny := by
  simp only [State.writeGate, h, Bool.true_eq_false, and_false, if_false, Bool.not_true, Bool.and_false, Bool.false_eq_true, ite_self]

theorem State.writeGate_excluded (s : State) {m : Master} {p off : Nat} (be : BitVec 4) {v : Word} (hoff : off ≠ 0x28)
    (h : mayWrite m p off v = false) : s.writeGate m p off be v = some s.deny := by
  simp only [State.writeGate, hoff, h, false_and, if_false, Bool.false_and, Bool.false_eq_true, ite_self]

/-- OWNER takes no write from a master that is neither a management core nor the fault owner (R38). -/
theorem State.writeGate_stranger {s : State} {m : Master} {p : Nat} (be : BitVec 4) (v : Word) (hp : (blockOf p).isSome = true)
    (hm : isMasthead m = false) (ho : masterId m ≠ s.owner p) : s.writeGate m p 0x28 be v = some s.deny := by
  simp only [State.writeGate, hp, hm, ho, Bool.false_eq_true, or_self, false_and, if_false, and_self, if_true, ite_self]

/-- A read by a master that the table does not permit returns zero and leaves the state as it is. -/
theorem State.read_forbidden {s : State} {m : Master} {p : Nat} (hh : s.Hears m) (h : mayRead m p = false) (off : Nat) (be : BitVec 4) :
    s.read m p off be = s.emit (.reply m 0) := by
  obtain ⟨hheard, hsync⟩ := hh
  simp only [State.read, State.readReg, hheard, hsync, h, Bool.true_eq_false, Bool.false_eq_true, if_false, if_true]

/-- Settles O9: the read by its gate, the writes by the two gates of R35 and R38. -/
theorem forbiddenAccess : Obligations.ForbiddenAccess := by
  unfold Obligations.ForbiddenAccess
  refine ⟨?_, ?_, ?_⟩
  · intro s m p off be hh hr
    rw [exec_rcRead_page, State.read_forbidden hh hr]
  · intro s m p off be v hh hoff hw
    rw [exec_registerWrite_page, State.writePage_of_deny hh (State.writeGate_excluded s be hoff hw)]
  · intro s m p be v hh hp hm ho
    rw [exec_ownerWrite, State.writePage_of_deny hh (State.writeGate_stranger be v hp hm ho)]

/-- Settles O10: each of the three reasons ends the write at its gate. -/
theorem partialWrites : Obligations.PartialWrites := by
  unfold Obligations.PartialWrites
  intro s m p off be v hh hbad
  have hgate : s.writeGate m p.toNat off.toNat be v = some s.deny := by
    rcases hbad with hbe | halign | hdead
    · exact State.writeGate_partial s m _ v (.inl hbe)
    · exact State.writeGate_partial s m _ v (.inr halign)
    · exact State.writeGate_dead m _ be v hdead
  rw [exec_registerWrite_page, State.writePage_of_deny hh hgate]

end Sys2Proof.Machine
end

section
/-! Full writes that their pages take: of plain registers, of the power cap and the thermal limit, and of the common header (03 R38 to
R41, R48, R54). -/

namespace Sys2Proof.Machine

/-! ### What the page does with a write -/

/-- A register of the common header takes its writes as the header does, on every page of a block. -/
theorem State.writeReg_header {p off : Nat} (hp : (blockOf p).isSome = true) (ho : off < 0x100)
    (hr : (headerRegs.find? fun r => r.at off).isSome = true) (s : State) (m : Master) (v : Word) :
    s.writeReg m p off v = s.writeHeader m p off v := by
  obtain ⟨⟨b, i⟩, hb⟩ := Option.isSome_iff_exists.1 hp
  obtain ⟨r, hf⟩ := findReg_header_some hp ho hr
  simp only [State.writeReg, hb, hf, ho, if_true]

/-- A plain register is stored as written. -/
theorem State.writeReg_plain {p off : Nat} (h : plainRegister p off = true) (s : State) (m : Master) (v : Word) :
    s.writeReg m p off v = s.store m p off v := by
  unfold plainRegister at h
  split at h
  case h_2 => exact absurd h Bool.false_ne_true
  case h_1 b i hb =>
    simp only [Bool.and_eq_true, Bool.or_eq_true, decide_eq_true_eq] at h
    obtain ⟨hreg, hplace⟩ := h
    obtain ⟨r, hf⟩ := Option.isSome_iff_exists.1 hreg
    rcases hplace with rfl | ⟨hoff, hblock⟩
    · rw [State.writeReg_header (by rw [hb]; rfl) (by omega) (by decide)]
      rfl
    · simp only [State.writeReg, hb, hf, Nat.not_lt.2 hoff, if_false]
      simp only [List.mem_cons, List.not_mem_nil, or_false] at hblock
      rcases hblock with rfl | rfl | rfl | rfl <;> rfl

/-! ### A stored write, with the bus's notes -/

theorem State.Takes.inOrder {s : State} {m : Master} {p off : Nat} {v : Word} (h : s.Takes m p off v) : s.InOrder m p := by
  obtain ⟨_, hord, _⟩ := h
  exact hord

/-- `s` with a write of page `p` by master `m` noted in the order of R41: registers, memory, outputs, contests and locks are those of
`s` by definition. -/
def State.noteOrder (s : State) (m : Master) (p : Nat) : State :=
  { s with arb := { s.arb with order := s.arb.order ++ [(p, masterId m)] } }

theorem State.inTurn_eq_noteOrder {s : State} {m : Master} {p : Nat} (h : s.InOrder m p) : s.inTurn m p = s.noteOrder m p :=
  State.inTurn_of_inOrder h

/-- What a write stored into the register with key `k` leaves of `s`: that register holds `w`, and every other register, memory and
what was given outside are as they were. -/
abbrev State.Stores (s : State) (k : Nat) (w : Word) (t : State) : Prop :=
  t.reg k = w ∧ RegsBut [k] s t ∧ SameMemory s t ∧ t.out = s.out

/-- An uncontested write stored in its turn changes its register alone; the notes of arbitration are no register. -/
theorem State.stores_inTurn {s : State} {m : Master} {p : Nat} (ho : s.InOrder m p) (off : Nat) (v : Word)
    (hu : s.Uncontested m (regKey p off)) :
    s.Stores (regKey p off) (wordWritten (fieldsOf (regKey p off)) (s.locked p) v (s.reg (regKey p off)))
      (((s.inTurn m p).store m p off v).noteSince (s.inTurn m p)) := by
  rw [State.inTurn_eq_noteOrder ho]
  obtain ⟨hregs, hmem, hreg, hout⟩ := State.storeOn_frame (s := s.noteOrder m p) hu (fieldsOf (regKey p off)) p off v
  exact ⟨hreg, hregs, hmem, hout⟩

/-- A write that its page takes and stores, uncontested. -/
theorem State.writePage_stores {s : State} {m : Master} {p off : Nat} {v : Word} (h : s.Takes m p off v)
    (hu : s.Uncontested m (regKey p off)) (hw : ∀ t : State, t.writeReg m p off v = t.store m p off v) :
    s.Stores (regKey p off) (wordWritten (fieldsOf (regKey p off)) (s.locked p) v (s.reg (regKey p off))) (s.writePage m p off 0xF v) := by
  rw [State.writePage_of_takes h, hw]
  exact State.stores_inTurn h.inOrder off v hu

/-- A row of its own that stores its register stores it as a register write does. -/
theorem State.gated_stores {s : State} {m : Master} {p off : Nat} {v : Word} (h : s.Takes m p off v)
    (hu : s.Uncontested m (regKey p off)) :
    s.Stores (regKey p off) (wordWritten (fieldsOf (regKey p off)) (s.locked p) v (s.reg (regKey p off)))
      (s.gated m p off 0xF v fun t => t.store m p off v) := by
  rw [State.gated_of_takes h]
  exact State.stores_inTurn h.inOrder off v hu

/-- Settles O8: a plain register is stored as its fields' access says, and so are PWR_CAP and THM_LIMIT by their own rows. -/
theorem registerWriteStores : Obligations.RegisterWriteStores := by
  unfold Obligations.RegisterWriteStores
  refine ⟨?_, ?_, ?_⟩
  · intro s m p off v hplain htakes hu
    exact ⟨_, exec_registerWrite_page m p off 0xF v s, State.writePage_stores htakes hu fun t => t.writeReg_plain hplain m v⟩
  · intro s m v htakes hu
    exact ⟨s.gated m pgPwr 0x100 0xF v fun t => t.store m pgPwr 0x100 v, rfl, State.gated_stores htakes hu⟩
  · intro s m v htakes hu
    exact ⟨s.gated m pgThm 0x100 0xF v fun t => t.store m pgThm 0x100 v, rfl, State.gated_stores htakes hu⟩

/-! ### The common header -/

theorem exec_irqStatClear (m : Master) (p : BitVec 14) (be : BitVec 4) (v : Word) (s : State) :
    exec (.irqStatClear m p be v) s = .next (s.writePage m p.toNat 0x10 be v) := rfl

theorem exec_irqForce (m : Master) (p : BitVec 14) (be : BitVec 4) (v : Word) (s : State) :
    exec (.irqForce m p be v) s = .next (s.writePage m p.toNat 0x18 be v) := rfl

/-- Every bit of IRQ_STAT written 1 clears, whether the page is locked or not. -/
theorem wordWritten_irqStat {p : Nat} (hp : (blockOf p).isSome = true) (locked : Bool) (v w : Word) :
    wordWritten (fieldsOf (Key.irqStat p)) locked v w = w &&& ~~~v := by
  rw [fieldsOf_header hp (by omega) (by omega)]
  rfl

/-- OWNER holds the master ID written, unless the page is locked. -/
theorem getBits_wordWritten_owner {p : Nat} (hp : (blockOf p).isSome = true) (locked : Bool) (v w : Word) :
    getBits (wordWritten (fieldsOf (Key.owner p)) locked v w) 7 0 = if locked then getBits w 7 0 else getBits v 7 0 := by
  have hw : wordWritten (fieldsOf (Key.owner p)) locked v w = if locked then w else putBits w 7 0 (getBits v 7 0) := by
    rw [fieldsOf_header hp (by omega) (by omega)]
    rfl
  rw [hw]
  cases locked with
  | true => rfl
  | false =>
    simp only [Bool.false_eq_true, if_false]
    rw [getBits_putBits_same w _ (by omega), Nat.mod_eq_of_lt (getBits_lt v 7 0)]

/-- What OWNER's gate does for a full write by a management core or the fault owner (R38): the write is performed. -/
theorem State.writePage_owner {s : State} {m : Master} {p : Nat} (v : Word) (hp : (blockOf p).isSome = true)
    (hm : isMasthead m = true ∨ masterId m = s.owner p) (hr : s.Readable m p) :
    s.writePage m p 0x28 0xF v = ((s.inTurn m p).writeReg m p 0x28 v).noteSince (s.inTurn m p) := by
  obtain ⟨⟨hheard, hsync⟩, hread, hdead, hcut⟩ := hr
  simp [State.writePage, State.gated, State.writeGate, hheard, hsync, hread, hdead, hcut, hp, hm]

/-- A write of IRQ_FORCE in its turn sets bits of IRQ_STAT; beside it, it may signal a vector. -/
theorem State.writePage_irqForce {s : State} {m : Master} {p : Nat} {v : Word} (h : s.Takes m p 0x18 v) (hp : (blockOf p).isSome = true) :
    s.writePage m p 0x18 0xF v = ((s.inTurn m p).setIrq p v).noteSince (s.inTurn m p) := by
  rw [State.writePage_of_takes h, State.writeReg_header hp (by omega) (by decide)]
  rfl

/-- Settles O11: IRQ_STAT by its w1c field, IRQ_FORCE by what sets an interrupt, OWNER by its gate and its lockable field. -/
theorem headerWrites : Obligations.HeaderWrites := by
  unfold Obligations.HeaderWrites
  refine ⟨?_, ?_, ?_⟩
  · intro s m p v hp htakes hu
    have hst := State.writePage_stores htakes hu fun t => t.writeReg_header hp (by omega) (by decide) m v
    rw [wordWritten_irqStat hp] at hst
    exact ⟨_, exec_irqStatClear m p 0xF v s, hst⟩
  · intro s m p v hp htakes
    refine ⟨_, exec_irqForce m p 0xF v s, ?_⟩
    rw [State.writePage_irqForce htakes hp, State.inTurn_eq_noteOrder htakes.inOrder]
    refine ⟨?_, fun k hk => ?_, fun a => ?_⟩
    · exact (State.reg_setIrq ..).trans (if_pos rfl)
    · exact (State.reg_setIrq ..).trans (if_neg (by simpa using hk))
    · exact congrArg (fun x : Mem => SMap.byte x.bytes a) (State.setIrq_mem ..)
  · intro s m p v hp hm hr ho hid hu
    have hw : (s.inTurn m p.toNat).writeReg m p.toNat 0x28 v = (s.inTurn m p.toNat).store m p.toNat 0x28 v := by
      rw [State.writeReg_header hp (by omega) (by decide)]
      simp [State.writeHeader, hid]
    obtain ⟨hreg, hframe⟩ := State.stores_inTurn ho 0x28 v hu
    refine ⟨_, exec_ownerWrite m p 0xF v s, ?_⟩
    rw [State.writePage_owner v hp hm hr, hw]
    refine ⟨?_, hframe⟩
    rw [State.owner, State.fld, hreg, getBits_wordWritten_owner hp]
    rfl

end Sys2Proof.Machine
end

section
/-! BLK_CTRL: the lock, and the soft reset of a page (03 R40, R54, R669). -/

namespace Sys2Proof

/-! ### Bits of words -/

theorem getBits_or (a b : Word) (h l : Nat) : getBits (a ||| b) h l = getBits a h l ||| getBits b h l := by
  simp only [getBits, bitsOf, BitVec.toNat_or, Nat.shiftRight_or_distrib, Nat.or_mod_two_pow]

/-- A bit is clear in a word whose low three bits are. -/
theorem getBits_of_low_clear {v : Word} (h : getBits v 2 0 = 0) {b : Nat} (hb : b < 3) : getBits v b b = 0 := by
  unfold getBits bitsOf at *
  rw [Nat.shiftRight_eq_div_pow] at *
  interval_cases b <;> omega

/-- A word whose bit 2 is clear has nothing else under the mask of that bit. -/
theorem and_four_of_clear {w : Word} (h : getBits w 2 2 = 0) : w &&& 4 = 0 := by
  refine BitVec.eq_of_toNat_eq ?_
  have hbit : w.toNat.testBit 2 = false := by
    have := bitsOf_testBit w.toNat 2 2 0
    rw [show bitsOf w.toNat 2 2 = 0 from h] at this
    simpa using this.symm
  exact (Nat.and_two_pow w.toNat 2).trans (by rw [hbit]; rfl)

/-! ### Sparse arrays rewritten entry by entry -/

variable {α : Type}

theorem SMap.get_absent (d : Nat → α) {m : SMap α} {k : Nat} (h : SMap.absent m k) : SMap.get d m k = d k := by
  induction m with
  | nil => rfl
  | cons e m ih =>
    have hne : e.1 ≠ k := h e (by simp)
    simp only [SMap.get, hne, if_false]
    exact ih fun x hx => h x (List.mem_cons_of_mem _ hx)

theorem SMap.absent_filterMap {f : Nat × α → Option (Nat × α)} (hf : ∀ e x, f e = some x → x.1 = e.1) {m : SMap α} {k : Nat}
    (h : SMap.absent m k) : SMap.absent (m.filterMap f) k := by
  intro x hx
  obtain ⟨e, he, hfe⟩ := List.mem_filterMap.1 hx
  rw [hf e x hfe]
  exact h e he

/-- An array whose entries are rewritten in place, or dropped where that changes no reading: at `k` it reads `g` of what it read. -/
theorem SMap.get_filterMap (d : Nat → α) {f : Nat × α → Option (Nat × α)} (hf : ∀ e x, f e = some x → x.1 = e.1) {m : SMap α}
    (hm : m.Pairwise fun a b => a.1 < b.1) {k : Nat} {g : α → α} (hg : ∀ v, SMap.get d (f (k, v)).toList k = g v)
    (hd : g (d k) = d k) :
    SMap.get d (m.filterMap f) k = g (SMap.get d m k) := by
  induction m with
  | nil => exact hd.symm
  | cons e m ih =>
    obtain ⟨j, v⟩ := e
    obtain ⟨hlt, hm⟩ := List.pairwise_cons.1 hm
    by_cases hj : j = k
    · subst hj
      have habs : SMap.absent m j := fun x hx => Nat.ne_of_gt (hlt x hx)
      have hrest : SMap.get d (m.filterMap f) j = d j := SMap.get_absent d (SMap.absent_filterMap hf habs)
      have hv := hg v
      cases hfe : f (j, v) with
      | none => simpa [hfe, SMap.get, hrest] using hv
      | some x =>
        have hx : x.1 = j := hf _ _ hfe
        simpa [hfe, SMap.get, hx] using hv
    · cases hfe : f (j, v) with
      | none => simpa [hfe, SMap.get, hj] using ih hm
      | some x =>
        have hx : x.1 ≠ k := fun h => hj ((hf _ _ hfe).symm.trans h)
        simpa [hfe, SMap.get, hj, hx] using ih hm

namespace Machine

/-! ### BLK_CTRL written while its page is not locked -/

theorem exec_lock (m : Master) (p : BitVec 14) (be : BitVec 4) (v : Word) (s : State) :
    exec (.lock m p be v) s = .next (s.writePage m p.toNat 8 be (v ||| 4)) := rfl

theorem exec_softReset (m : Master) (p : BitVec 14) (be : BitVec 4) (v : Word) (s : State) :
    exec (.softReset m p be v) s = .next (s.writePage m p.toNat 8 be (v ||| 2)) := rfl

/-- Lock, soft_reset and enable hold what was written, one bit each. -/
theorem getBits_wordWritten_blkCtrl {p : Nat} (hp : (blockOf p).isSome = true) (v w : Word) {b : Nat} (hb : b < 3) :
    getBits (wordWritten (fieldsOf (Key.blkCtrl p)) false v w) b b = getBits v b b := by
  have hw : wordWritten (fieldsOf (Key.blkCtrl p)) false v w =
      putBits (putBits (putBits w 2 2 (getBits v 2 2)) 1 1 (getBits v 1 1)) 0 0 (getBits v 0 0) := by
    rw [fieldsOf_header hp (by omega) (by omega)]
    rfl
  have hlt := Nat.mod_eq_of_lt (getBits_lt v b b)
  rw [hw]
  interval_cases b
  · rw [getBits_putBits_same _ _ (by omega), hlt]
  · rw [getBits_putBits_ne _ _ (by omega) (by omega) (by omega), getBits_putBits_same _ _ (by omega), hlt]
  · rw [getBits_putBits_ne _ _ (by omega) (by omega) (by omega), getBits_putBits_ne _ _ (by omega) (by omega) (by omega),
      getBits_putBits_same _ _ (by omega), hlt]

/-- Lock, soft_reset and enable after an uncontested write of `v` to a page that is not locked. -/
theorem State.bit_store_blkCtrl {s : State} {m : Master} {p : Nat} (hp : (blockOf p).isSome = true) (v : Word)
    (hu : s.Uncontested m (Key.blkCtrl p)) (hl : s.locked p = false) {b : Nat} (hb : b < 3) :
    (s.store m p 8 v).bit (Key.blkCtrl p) b = decide (getBits v b b = 1) := by
  obtain ⟨_, _, hreg, _⟩ := State.storeOn_frame hu (fieldsOf (Key.blkCtrl p)) p 8 v
  unfold State.bit State.fld State.store
  rw [hreg, hl, getBits_wordWritten_blkCtrl hp v _ hb]

/-- BLK_CTRL as a write of `v` leaves it before any soft reset. -/
def State.ctrlStored (s : State) (m : Master) (p : Nat) (v : Word) : State :=
  (s.store m p 8 v).setBit (Key.blkCtrl p) 1 false

theorem State.ctrlStored_frame {s : State} {m : Master} {p : Nat} (hp : (blockOf p).isSome = true) (v : Word)
    (hu : s.Uncontested m (Key.blkCtrl p)) (hl : s.locked p = false) :
    (∀ b, b < 3 → b ≠ 1 → (s.ctrlStored m p v).bit (Key.blkCtrl p) b = decide (getBits v b b = 1)) ∧
      RegsBut [Key.blkCtrl p] s (s.ctrlStored m p v) ∧ SameMemory s (s.ctrlStored m p v) ∧ (s.ctrlStored m p v).out = s.out := by
  obtain ⟨hregs, hmem, _, hout⟩ := State.storeOn_frame hu (fieldsOf (Key.blkCtrl p)) p 8 v
  refine ⟨fun b hb hne => ?_, fun k hk => ?_, hmem, hout⟩
  · exact (State.bit_setBit_ne _ false (by omega) (by omega) hne).trans (State.bit_store_blkCtrl hp v hu hl hb)
  · exact (State.reg_setBit_ne _ 1 false (by simpa using hk)).trans (hregs k hk)

theorem State.ctrlStored_canonical {s : State} (h : s.RegsCanonical) (m : Master) (p : Nat) (v : Word) :
    (s.ctrlStored m p v).RegsCanonical :=
  (State.setBit_keeps (State.store_keeps (Keeps.refl s))).regs h

/-- A write without soft_reset is stored and no more. -/
theorem State.writeCtrl_hard {s : State} {m : Master} {p : Nat} (hp : (blockOf p).isSome = true) {v : Word}
    (hu : s.Uncontested m (Key.blkCtrl p)) (hl : s.locked p = false) (hv : getBits v 1 1 = 0) :
    s.writeCtrl m p v = s.ctrlStored m p v := by
  have hbit : (s.store m p 8 v).bit (Key.blkCtrl p) 1 = false := by
    rw [State.bit_store_blkCtrl hp v hu hl (by omega), hv]
    rfl
  simp only [State.writeCtrl, hbit, Bool.false_and, Bool.false_eq_true, if_false]
  rfl

/-- A write with soft_reset and without enable resets the page (R669). -/
theorem State.writeCtrl_soft {s : State} {m : Master} {p : Nat} (hp : (blockOf p).isSome = true) {v : Word}
    (hu : s.Uncontested m (Key.blkCtrl p)) (hl : s.locked p = false) (hv : getBits v 1 1 = 1) (he : getBits v 0 0 = 0) :
    s.writeCtrl m p v = (s.ctrlStored m p v).pageSoftReset p := by
  have hbit : (s.store m p 8 v).bit (Key.blkCtrl p) 1 = true := by
    rw [State.bit_store_blkCtrl hp v hu hl (by omega), hv]
    rfl
  have hen : (s.store m p 8 v).bit (Key.blkCtrl p) 0 = false := by
    rw [State.bit_store_blkCtrl hp v hu hl (by omega), he]
    rfl
  simp only [State.writeCtrl, hbit, hen, Bool.and_false, Bool.not_false, Bool.and_self, if_true]
  rfl

/-! ### The soft reset of a page -/

/-- The registers after a soft reset of page `p`, apart from what the CLK, KVP and TTL pages follow with. -/
def State.softRegs (s : State) (p : Nat) : State :=
  { s with regs := s.regs.filterMap fun e =>
    if e.1 / 1024 = p then (let w := softWord e.1 e.2; if w = resetVal e.1 then none else some (e.1, w)) else some e }

/-- Every register of the page reads its soft value, where that is its own at reset; every other one reads as before. -/
theorem State.reg_softRegs {s : State} (hs : s.RegsCanonical) (p : Nat) {k : Nat}
    (hk : k / 1024 = p → softWord k (resetVal k) = resetVal k) :
    (s.softRegs p).reg k = if k / 1024 = p then softWord k (s.reg k) else s.reg k := by
  refine SMap.get_filterMap resetVal (g := fun w => if k / 1024 = p then softWord k w else w) ?_ hs.1 (fun v => ?_) ?_
  · intro e x hx
    dsimp only at hx
    split at hx
    · split at hx
      · cases hx
      · cases hx; rfl
    · cases hx; rfl
  · by_cases hpage : k / 1024 = p
    · by_cases hw : softWord k v = resetVal k <;> simp [hpage, hw, SMap.get]
    · simp [hpage, SMap.get]
  · by_cases hpage : k / 1024 = p
    · simp only [hpage, if_true, hk hpage]
    · simp only [hpage, if_false]

/-- A soft reset of a page but CLK and KVP resets its registers; on the TTL page TTL_CFG.candidate follows the boot configuration. -/
theorem State.pageSoftReset_eq {p : Nat} (hclk : p ≠ pgClk) (hkvp : p ≠ pgKvp) (s : State) :
    s.pageSoftReset p = if p = pgTtl then (s.softRegs p).setBit Key.ttlCfg 31 (s.softRegs p).bootCandidate else s.softRegs p := by
  simp only [State.pageSoftReset, State.softRegs, hclk, hkvp, if_false]

/-- What a soft reset leaves in a register but TTL_CFG. -/
theorem State.reg_pageSoftReset {s : State} (hs : s.RegsCanonical) {p : Nat} (hclk : p ≠ pgClk) (hkvp : p ≠ pgKvp) {k : Nat}
    (hcfg : p = pgTtl → k ≠ Key.ttlCfg) (hk : k / 1024 = p → softWord k (resetVal k) = resetVal k) :
    (s.pageSoftReset p).reg k = if k / 1024 = p then softWord k (s.reg k) else s.reg k := by
  rw [State.pageSoftReset_eq hclk hkvp, ← State.reg_softRegs hs p hk]
  split
  next h => exact State.reg_setBit_ne _ _ _ (hcfg h)
  next => rfl

theorem State.pageSoftReset_frame {p : Nat} (hclk : p ≠ pgClk) (hkvp : p ≠ pgKvp) (s : State) :
    SameMemory s (s.pageSoftReset p) ∧ (s.pageSoftReset p).out = s.out := by
  rw [State.pageSoftReset_eq hclk hkvp]
  split <;> exact ⟨fun _ => rfl, rfl⟩

/-- A soft reset reaches no register of another page. -/
theorem State.reg_pageSoftReset_other {s : State} (hs : s.RegsCanonical) {p : Nat} (hclk : p ≠ pgClk) (hkvp : p ≠ pgKvp) {k : Nat}
    (hk : k / 1024 ≠ p) : (s.pageSoftReset p).reg k = s.reg k := by
  have hcfg : p = pgTtl → k ≠ Key.ttlCfg := by
    rintro rfl rfl
    exact hk rfl
  rw [State.reg_pageSoftReset hs hclk hkvp hcfg fun h => absurd h hk, if_neg hk]

/-- A header register after a soft reset of its page. -/
theorem State.reg_pageSoftReset_header {s : State} (hs : s.RegsCanonical) {p off : Nat} (hclk : p ≠ pgClk) (hkvp : p ≠ pgKvp)
    (ho : off < 0x100) (hk : softWord (regKey p off) (resetVal (regKey p off)) = resetVal (regKey p off)) :
    (s.pageSoftReset p).reg (regKey p off) = softWord (regKey p off) (s.reg (regKey p off)) := by
  have hcfg : p = pgTtl → regKey p off ≠ Key.ttlCfg := fun _ => regKey_ne (by omega) (by omega) (by omega)
  rw [State.reg_pageSoftReset hs hclk hkvp hcfg fun _ => hk, if_pos (regKey_page p (by omega))]

/-- FLT_LATCH, FLT_INFO and OWNER keep their words over a soft reset. -/
theorem softWord_kept (p : Nat) {off : Nat} (h : off = 0x1C ∨ off = 0x24 ∨ off = 0x28) (w : Word) : softWord (regKey p off) w = w := by
  unfold softWord
  rw [regKey_offset p (by omega) (by omega)]
  rcases h with rfl | rfl | rfl <;> simp

theorem softWord_blkCtrl (p : Nat) (w : Word) : softWord (Key.blkCtrl p) w = w &&& 4 := by
  have h1 : Key.blkCtrl p ≠ Key.devConduct := regKey_ne (by omega) (by omega) (by omega)
  have h2 : Key.blkCtrl p ≠ Key.lnkSheet := regKey_ne (by omega) (by omega) (by omega)
  unfold softWord
  rw [regKey_offset p (by omega) (by omega)]
  simp only [h1, h2, Nat.reduceEqDiff, or_self, if_false, if_true]

/-- A register of the header with one writable field of the whole word, reset to 0: IRQ_STAT and IRQ_EN are cleared. -/
theorem softWord_irq {p off : Nat} (hp : (blockOf p).isSome = true) (h : off = 0x10 ∨ off = 0x14) (w : Word) :
    softWord (regKey p off) w = 0 := by
  have h1 : regKey p off ≠ Key.devConduct := regKey_ne (by omega) (by omega) (by omega)
  have h2 : regKey p off ≠ Key.lnkSheet := regKey_ne (by omega) (by omega) (by omega)
  have hzero : putBits w 31 0 0 = 0 := by simp [putBits]
  unfold softWord
  rw [regKey_offset p (by omega) (by omega), fieldsOf_header hp (by omega) (by omega)]
  simp only [h1, h2, or_false]
  rcases h with rfl | rfl <;> exact hzero

theorem State.reg_pageSoftReset_kept {s : State} (hs : s.RegsCanonical) {p off : Nat} (hclk : p ≠ pgClk) (hkvp : p ≠ pgKvp)
    (hoff : off = 0x1C ∨ off = 0x24 ∨ off = 0x28) : (s.pageSoftReset p).reg (regKey p off) = s.reg (regKey p off) := by
  rw [State.reg_pageSoftReset_header hs hclk hkvp (by omega) (softWord_kept p hoff _), softWord_kept p hoff]

theorem State.reg_pageSoftReset_irq {s : State} {p off : Nat} (hp : (blockOf p).isSome = true) (hs : s.RegsCanonical) (hclk : p ≠ pgClk)
    (hkvp : p ≠ pgKvp) (hoff : off = 0x10 ∨ off = 0x14) : (s.pageSoftReset p).reg (regKey p off) = 0 := by
  have hreset : resetVal (regKey p off) = 0 := by
    rw [resetVal_header hp (by omega) (by omega) (by omega) (by omega)]
    rcases hoff with rfl | rfl <;> rfl
  rw [State.reg_pageSoftReset_header hs hclk hkvp (by omega) ((softWord_irq hp hoff _).trans hreset.symm), softWord_irq hp hoff]

/-- A soft reset keeps the lock alone of BLK_CTRL. -/
theorem State.reg_pageSoftReset_blkCtrl {s : State} {p : Nat} (hp : (blockOf p).isSome = true) (hs : s.RegsCanonical) (hclk : p ≠ pgClk)
    (hkvp : p ≠ pgKvp) (hlock : s.bit (Key.blkCtrl p) 2 = false) : (s.pageSoftReset p).reg (Key.blkCtrl p) = 0 := by
  have hreset : resetVal (Key.blkCtrl p) = 0 := resetVal_header hp (by omega) (by omega) (by omega) (by omega)
  have hclear : getBits (s.reg (Key.blkCtrl p)) 2 2 = 0 := by
    have hne : getBits (s.reg (Key.blkCtrl p)) 2 2 ≠ 1 := of_decide_eq_false hlock
    have := getBits_lt (s.reg (Key.blkCtrl p)) 2 2
    omega
  rw [State.reg_pageSoftReset_header hs hclk hkvp (by omega) (by rw [softWord_blkCtrl, hreset]; rfl), softWord_blkCtrl,
    and_four_of_clear hclear]

/-! ### Lock and soft reset as commands -/

/-- A full write of BLK_CTRL that its page takes is judged as the header judges it. -/
theorem State.writePage_blkCtrl {s : State} {m : Master} {p : Nat} {v : Word} (hp : (blockOf p).isSome = true) (h : s.Takes m p 8 v) :
    s.writePage m p 8 0xF v = ((s.noteOrder m p).writeCtrl m p v).noteSince (s.noteOrder m p) := by
  rw [State.writePage_of_takes h, State.writeReg_header hp (by omega) (by decide), State.inTurn_eq_noteOrder h.inOrder]
  rfl

/-- What LOCK leaves of a page that is not locked. -/
theorem State.writePage_lock {s : State} {m : Master} {p : Nat} {v : Word} (hp : (blockOf p).isSome = true) (h : s.Takes m p 8 (v ||| 4))
    (hu : s.Uncontested m (Key.blkCtrl p)) (hl : s.locked p = false) (hv : getBits v 1 1 = 0) :
    let t := s.writePage m p 8 0xF (v ||| 4)
    t.bit (Key.blkCtrl p) 2 = true ∧ t.bit (Key.blkCtrl p) 0 = decide (getBits v 0 0 = 1) ∧
      RegsBut [Key.blkCtrl p] s t ∧ SameMemory s t ∧ t.out = s.out := by
  have hsoft : getBits (v ||| 4) 1 1 = 0 := by rw [getBits_or, hv]; rfl
  have hlock : getBits (v ||| 4) 2 2 = 1 := by
    have := getBits_lt v 2 2
    rw [getBits_or]
    interval_cases getBits v 2 2 <;> rfl
  have henable : getBits (v ||| 4) 0 0 = getBits v 0 0 := by rw [getBits_or]; exact Nat.or_zero _
  rw [State.writePage_blkCtrl hp h, State.writeCtrl_hard (s := s.noteOrder m p) hp hu hl hsoft]
  obtain ⟨hbits, hframe⟩ := State.ctrlStored_frame (s := s.noteOrder m p) hp (v ||| 4) hu hl
  have h2 := hbits 2 (by omega) (by omega)
  have h0 := hbits 0 (by omega) (by omega)
  rw [hlock] at h2
  rw [henable] at h0
  exact ⟨h2, h0, hframe⟩

/-- What SOFT_RESET performs on a page that is neither locked nor to be enabled: BLK_CTRL is stored with lock and enable clear, and the
page is reset. -/
theorem State.writePage_softReset {s : State} {m : Master} {p : Nat} {v : Word} (hp : (blockOf p).isSome = true)
    (h : s.Takes m p 8 (v ||| 2)) (hu : s.Uncontested m (Key.blkCtrl p)) (hl : s.locked p = false) (hv : getBits v 2 0 = 0) :
    s.writePage m p 8 0xF (v ||| 2) =
      (((s.noteOrder m p).ctrlStored m p (v ||| 2)).pageSoftReset p).noteSince (s.noteOrder m p) := by
  have hsoft : getBits (v ||| 2) 1 1 = 1 := by rw [getBits_or, getBits_of_low_clear hv (by omega)]; rfl
  have henable : getBits (v ||| 2) 0 0 = 0 := by rw [getBits_or, getBits_of_low_clear hv (by omega)]; rfl
  rw [State.writePage_blkCtrl hp h, State.writeCtrl_soft (s := s.noteOrder m p) hp hu hl hsoft henable]

/-- What a soft reset leaves of a page whose lock is clear, seen from the state in which BLK_CTRL alone differed. -/
theorem State.softReset_frame {s u : State} {p : Nat} (hp : (blockOf p).isSome = true) (hclk : p ≠ pgClk) (hkvp : p ≠ pgKvp)
    (hu : u.RegsCanonical) (hlock : u.bit (Key.blkCtrl p) 2 = false) (hregs : RegsBut [Key.blkCtrl p] s u) :
    let t := u.pageSoftReset p
    t.reg (Key.blkCtrl p) = 0 ∧ t.reg (Key.irqStat p) = 0 ∧ t.reg (Key.irqEn p) = 0 ∧
      t.reg (Key.owner p) = s.reg (Key.owner p) ∧ t.reg (Key.fltLatch p) = s.reg (Key.fltLatch p) ∧
      t.reg (Key.fltInfo p) = s.reg (Key.fltInfo p) ∧ ∀ k, k / 1024 ≠ p → t.reg k = s.reg k := by
  have hother : ∀ k, k ≠ Key.blkCtrl p → u.reg k = s.reg k := fun k hk => hregs k (by simpa using hk)
  have hirq : ∀ off, off = 0x10 ∨ off = 0x14 → (u.pageSoftReset p).reg (regKey p off) = 0 :=
    fun off hoff => State.reg_pageSoftReset_irq hp hu hclk hkvp hoff
  have hkept : ∀ off, off = 0x1C ∨ off = 0x24 ∨ off = 0x28 → (u.pageSoftReset p).reg (regKey p off) = s.reg (regKey p off) :=
    fun off hoff => (State.reg_pageSoftReset_kept hu hclk hkvp hoff).trans (hother _ (regKey_ne (by omega) (by omega) (by omega)))
  refine ⟨State.reg_pageSoftReset_blkCtrl hp hu hclk hkvp hlock, hirq _ (.inl rfl), hirq _ (.inr rfl), hkept _ (.inr (.inr rfl)),
    hkept _ (.inl rfl), hkept _ (.inr (.inl rfl)), fun k hk => ?_⟩
  have hne : k ≠ Key.blkCtrl p := fun h => hk (h ▸ regKey_page p (by omega))
  rw [State.reg_pageSoftReset_other hu hclk hkvp hk, hother k hne]

/-- Settles O12: LOCK stores its bits, SOFT_RESET stores its own and resets the page. -/
theorem lockAndSoftReset : Obligations.LockAndSoftReset := by
  unfold Obligations.LockAndSoftReset
  refine ⟨?_, ?_⟩
  · intro s m p v hp htakes hu hl hv
    exact ⟨_, exec_lock m p 0xF v s, State.writePage_lock hp htakes hu hl hv⟩
  · intro s m p v hp htakes hu hl hv hs hclk hkvp
    refine ⟨_, exec_softReset m p 0xF v s, ?_⟩
    rw [State.writePage_softReset hp htakes hu hl hv]
    set u := (s.noteOrder m p.toNat).ctrlStored m p.toNat (v ||| 2)
    obtain ⟨hbits, hregs, hmem, hout⟩ := State.ctrlStored_frame (s := s.noteOrder m p.toNat) hp (v ||| 2) hu hl
    have hlock : u.bit (Key.blkCtrl p.toNat) 2 = false := by
      rw [hbits 2 (by omega) (by omega), getBits_or, getBits_of_low_clear hv (by omega)]
      rfl
    have hcanon : u.RegsCanonical := State.ctrlStored_canonical (s := s.noteOrder m p.toNat) hs m p.toNat (v ||| 2)
    obtain ⟨h1, h2, h3, h4, h5, h6, h7⟩ := State.softReset_frame (s := s) hp hclk hkvp hcanon hlock hregs
    obtain ⟨hmem', hout'⟩ := State.pageSoftReset_frame hclk hkvp u
    exact ⟨h1, h2, h3, h4, h5, h6, h7, fun a => (hmem' a).trans (hmem a), hout'.trans hout⟩

end Machine
end Sys2Proof
end

section
/-! Reads and what they clear (03 R36, R37, R41, R47; 20 R503). -/

namespace Sys2Proof

/-! ### Fields cleared one after another -/

/-- A field that reads zero still does after any field is cleared. -/
theorem getBits_clear_of_zero {w : Word} {h l a b : Nat} (hh : h < 32) (ha : a < 32) (hw : getBits w a b = 0) :
    getBits (putBits w h l 0) a b = 0 := by
  refine Nat.eq_of_testBit_eq fun i => ?_
  have hbit : (getBits w a b).testBit i = false := by rw [hw, Nat.zero_testBit]
  unfold getBits at hbit ⊢
  rw [bitsOf_testBit] at hbit
  rw [bitsOf_testBit, Nat.zero_testBit]
  by_cases hi : i < a + 1 - b
  · rw [putBits_testBit _ _ _ _ _ hh (by omega)]
    split
    · simp
    · exact hbit
  · simp [hi]

namespace Machine

/-- A register with the given fields cleared. -/
def clearFields (fs : List Field) (w : Word) : Word := fs.foldl (fun w f => putBits w f.hi f.lo 0) w

theorem getBits_clearFields_of_zero {fs : List Field} (hfs : ∀ f ∈ fs, f.hi < 32) {w : Word} {a b : Nat} (ha : a < 32)
    (hw : getBits w a b = 0) : getBits (clearFields fs w) a b = 0 := by
  induction fs generalizing w with
  | nil => exact hw
  | cons g fs ih =>
    exact ih (fun f hf => hfs f (List.mem_cons_of_mem _ hf)) (getBits_clear_of_zero (hfs g List.mem_cons_self) ha hw)

/-- Each of the cleared fields reads zero. -/
theorem getBits_clearFields {fs : List Field} (hfs : ∀ f ∈ fs, f.hi < 32) (w : Word) {f : Field} (hf : f ∈ fs) :
    getBits (clearFields fs w) f.hi f.lo = 0 := by
  induction fs generalizing w with
  | nil => cases hf
  | cons g fs ih =>
    have hrest : ∀ f ∈ fs, f.hi < 32 := fun f hf => hfs f (List.mem_cons_of_mem _ hf)
    rcases List.mem_cons.1 hf with rfl | hf
    · have hlt := hfs f List.mem_cons_self
      refine getBits_clearFields_of_zero hrest hlt ?_
      rw [getBits_putBits_same w 0 hlt, Nat.zero_mod]
    · exact ih hrest _ hf

/-! ### The register table's fields lie within a word -/

theorem headerRegs_hi_lt : ∀ r ∈ headerRegs, ∀ f ∈ r.fields, f.hi < 32 := by decide

theorem blockRegs_hi_lt (b : Block) (i : Nat) : ∀ r ∈ blockRegs b i, ∀ f ∈ r.fields, f.hi < 32 := by
  cases b
  case lnk =>
    have hlnk : ∀ r ∈ regSheet :: regsLnk, ∀ f ∈ r.fields, f.hi < 32 := by decide
    intro r hr
    simp only [blockRegs] at hr
    split at hr
    · exact hlnk r hr
    · exact hlnk r (List.mem_cons_of_mem _ hr)
  all_goals
    dsimp only [blockRegs]
    decide

theorem findReg_hi_lt {p off : Nat} {r : Reg} (h : findReg p off = some r) : ∀ f ∈ r.fields, f.hi < 32 := by
  unfold findReg at h
  split at h
  · cases h
  · split at h
    · exact headerRegs_hi_lt r (List.mem_of_find?_eq_some h)
    · exact blockRegs_hi_lt _ _ r (List.mem_of_find?_eq_some h)

theorem fieldsOf_hi_lt (k : Nat) : ∀ f ∈ fieldsOf k, f.hi < 32 := by
  unfold fieldsOf
  split
  · intro f hf; cases hf
  next h => exact findReg_hi_lt h

/-! ### What a read's effects leave -/

/-- The fields of a register that a read clears. -/
def countFields (k : Nat) : List Field := (fieldsOf k).filter fun f => decide (f.acc = .rc)

theorem State.clearCounts_of_none {s : State} {k : Nat} (h : countFields k = []) : s.clearCounts k = s :=
  if_pos (.inl h)

/-- Before any access of the cycle, a read clears the count fields of its register. -/
theorem State.clearCounts_of_fresh {s : State} (hf : s.FreshCycle) {k : Nat} (h : countFields k ≠ []) :
    s.clearCounts k = (s.noteOld k).setReg k (clearFields (countFields k) (s.reg k)) := by
  have hold : (s.oldReg k).isSome = false := by simp [State.oldReg, hf.1]
  have hno : ¬ (countFields k = [] ∨ (s.oldReg k).isSome = true) := by simp [h, hold]
  rw [← State.reg_noteOld s k k]
  exact if_neg hno

/-- Every count field of the register reads zero after it, and nothing else but the bus's notes is other than before. -/
theorem State.clearCounts_frame {s : State} (hf : s.FreshCycle) (k : Nat) :
    (∀ f ∈ fieldsOf k, f.acc = .rc → (s.clearCounts k).fld k f.hi f.lo = 0) ∧
      RegsBut [k] s (s.clearCounts k) ∧ SameMemory s (s.clearCounts k) ∧ (s.clearCounts k).out = s.out := by
  by_cases h : countFields k = []
  · rw [State.clearCounts_of_none h]
    refine ⟨fun f hfk hrc => ?_, fun _ _ => rfl, fun _ => rfl, rfl⟩
    have hmem : f ∈ countFields k := List.mem_filter.2 ⟨hfk, decide_eq_true hrc⟩
    rw [h] at hmem
    cases hmem
  · rw [State.clearCounts_of_fresh hf h]
    refine ⟨fun f hfk hrc => ?_, fun j hj => ?_, fun a => ?_, ?_⟩
    · have hmem : f ∈ countFields k := List.mem_filter.2 ⟨hfk, decide_eq_true hrc⟩
      rw [State.fld, State.reg_setReg_same]
      exact getBits_clearFields (fun g hg => fieldsOf_hi_lt k g (List.mem_filter.1 hg).1) _ hmem
    · rw [State.reg_setReg_ne _ _ (by simpa using hj), State.reg_noteOld]
    · simp [State.byteAt]
    · simp

theorem State.clearConflict_frame {s : State} (hf : s.FreshCycle) (p : Nat) :
    (s.clearConflict p).reg (Key.conflict p) = 0 ∧ RegsBut [Key.conflict p] s (s.clearConflict p) ∧ SameMemory s (s.clearConflict p) ∧
      (s.clearConflict p).out = s.out := by
  have he : s.clearConflict p = (s.noteOld (Key.conflict p)).setReg (Key.conflict p) 0 := by
    simp [State.clearConflict, State.oldReg, hf.1]
  rw [he]
  refine ⟨State.reg_setReg_same .., fun k hk => ?_, fun a => ?_, ?_⟩
  · rw [State.reg_setReg_ne _ _ (by simpa using hk), State.reg_noteOld]
  · simp [State.byteAt]
  · simp

/-- FLT_PEND of a page is no register of a header. -/
theorem fltPend_ne {p q off : Nat} (hp : p < 0x4000) (ho : off < 0x100) : regKey q off ≠ Key.fltPend (p / 32) :=
  regKey_ne (by omega) (by omega) (by omega)

/-- Where no fault was latched in the cycle, the owner's read clears FLT_LATCH and FLT_INFO, and the page's pending bit with them. -/
theorem State.clearLatch_frame {s : State} (hf : s.FreshCycle) {p : Nat} (hp : p < 0x4000) :
    (s.clearLatch p).reg (Key.fltLatch p) = 0 ∧ (s.clearLatch p).reg (Key.fltInfo p) = 0 ∧
      RegsBut [Key.fltLatch p, Key.fltInfo p, Key.fltPend (p / 32)] s (s.clearLatch p) ∧ SameMemory s (s.clearLatch p) ∧
      (s.clearLatch p).out = s.out := by
  have hne : Key.fltLatch p ≠ Key.fltInfo p := regKey_ne (by omega) (by omega) (by omega)
  have he : s.clearLatch p = ((((s.noteOld (Key.fltLatch p)).noteOld (Key.fltInfo p)).setReg (Key.fltLatch p) 0).setReg
      (Key.fltInfo p) 0).setBit (Key.fltPend (p / 32)) (p % 32) false := by
    simp [State.clearLatch, hf.2, State.reg_setReg_ne _ _ hne]
  rw [he]
  refine ⟨?_, ?_, fun k hk => ?_, fun a => ?_, ?_⟩
  · rw [State.reg_setBit_ne _ _ _ (fltPend_ne hp (by omega)), State.reg_setReg_ne _ _ hne, State.reg_setReg_same]
  · rw [State.reg_setBit_ne _ _ _ (fltPend_ne hp (by omega)), State.reg_setReg_same]
  · simp only [List.mem_cons, List.not_mem_nil, or_false, not_or] at hk
    obtain ⟨hlatch, hinfo, hpend⟩ := hk
    rw [State.reg_setBit_ne _ _ _ hpend, State.reg_setReg_ne _ _ hinfo, State.reg_setReg_ne _ _ hlatch, State.reg_noteOld,
      State.reg_noteOld]
  · simp [State.byteAt]
  · simp

/-! ### Reads of a page that answers them -/

/-- Before any access of the cycle the registers are as they were at its start. -/
theorem State.atStart_of_fresh {s : State} (hf : s.FreshCycle) : s.atStart = s := by
  simp [State.atStart, hf.1]

/-- A full read returns what the register shows, and has the read's effects. -/
theorem State.read_full {s : State} {m : Master} {p off : Nat} (hr : s.Readable m p) (hf : s.FreshCycle) (h4 : off % 4 = 0) :
    s.read m p off 0xF = (s.readEffect m p off).emit (.reply m (s.view p off)) := by
  obtain ⟨⟨hheard, hsync⟩, hread, hdead, hcut⟩ := hr
  have hoff : off / 4 * 4 = off := by omega
  simp [State.read, State.readReg, hheard, hsync, hread, hdead, hcut, hoff, State.atStart_of_fresh hf]

/-- A read of fewer than four bytes leaves the state as it is. -/
theorem State.read_partial {s : State} {m : Master} {p : Nat} (hr : s.Readable m p) (off : Nat) {be : BitVec 4} (hbe : be ≠ 0xF) :
    s.read m p off be = s.emit (.reply m (maskBytes be (s.bytesAt m p off))) := by
  obtain ⟨⟨hheard, hsync⟩, hread, hdead, hcut⟩ := hr
  simp only [State.read, State.readReg, hheard, hsync, hread, hdead, hcut, hbe, Bool.true_eq_false, Bool.false_eq_true, false_and,
    if_false]

/-- A header register of a block's page shows what it holds; BLK_STAT and FLT_PEEK show other state. -/
theorem State.view_header {p off : Nat} (hp : (blockOf p).isSome = true) (ho : off < 0x100)
    (hr : (headerRegs.find? fun r => r.at off).isSome = true) (hstat : off ≠ 0xC) (hpeek : off ≠ 0x20) (s : State) :
    s.view p off = s.reg (regKey p off) := by
  obtain ⟨⟨b, i⟩, hb⟩ := Option.isSome_iff_exists.1 hp
  obtain ⟨r, hfind⟩ := findReg_header_some hp ho hr
  simp only [State.view, hb, hfind, hstat, hpeek, ho, if_false, if_true]

theorem State.view_fltPeek {p : Nat} (hp : (blockOf p).isSome = true) (s : State) : s.view p 0x20 = s.reg (Key.fltLatch p) := by
  obtain ⟨⟨b, i⟩, hb⟩ := Option.isSome_iff_exists.1 hp
  obtain ⟨r, hfind⟩ := findReg_header_some (off := 0x20) hp (by omega) (by decide)
  simp only [State.view, hb, hfind, Nat.reduceEqDiff, if_false, if_true]

/-- TTL_NOW_LO shows the lower half of the Telltale count. -/
theorem State.view_ttlNowLo (s : State) : s.view pgTtl 0x100 = BitVec.ofNat 32 s.time.count.toNat := by
  have hb : blockOf pgTtl = some (.ttl, 0) := by decide
  have hfind : findReg pgTtl 0x100 = some ⟨0x100, 1, 0x1000, 1, 0x1000, [⟨31, 0, .ro, 0x0, .none⟩]⟩ := by decide
  simp only [State.view, hb, hfind, Nat.reduceEqDiff, Nat.lt_irrefl, if_false, State.blockView, if_true]
  exact BitVec.eq_of_toNat_eq (by simp)

theorem exec_fltLatchRead (m : Master) (p : BitVec 14) (be : BitVec 4) (s : State) :
    exec (.fltLatchRead m p be) s = .next (s.read m p.toNat 0x1C be) := rfl

theorem exec_conflictRead (m : Master) (p : BitVec 14) (be : BitVec 4) (s : State) :
    exec (.conflictRead m p be) s = .next (s.read m p.toNat 0x2C be) := rfl

theorem exec_ttlNowRead (m : Master) (be : BitVec 4) (s : State) : exec (.ttlNowRead m be) s = .next (s.read m pgTtl 0x100 be) := rfl

/-- Settles O13: the owner's read by what clearing a latch leaves, the others by the read having no effect on them. -/
theorem faultLatchReads : Obligations.FaultLatchReads := by
  unfold Obligations.FaultLatchReads
  refine ⟨?_, ?_, ?_⟩
  · intro s m p hp hr hf ho
    have heffect : s.readEffect m p.toNat 0x1C = s.clearLatch p.toNat := (if_pos rfl).trans (if_pos ho)
    obtain ⟨hlatch, hinfo, hregs, hmem, hout⟩ := State.clearLatch_frame hf p.isLt
    refine ⟨_, exec_fltLatchRead m p 0xF s, ?_⟩
    rw [State.read_full hr hf (by omega), heffect, State.view_header hp (by omega) (by decide) (by omega) (by omega)]
    exact ⟨congrArg (· ++ _) hout, hlatch, hinfo, hregs, hmem⟩
  · intro s m p hp hr hf ho
    have heffect : s.readEffect m p.toNat 0x1C = s := (if_pos rfl).trans (if_neg ho)
    rw [exec_fltLatchRead, State.read_full hr hf (by omega), heffect, State.view_header hp (by omega) (by decide) (by omega) (by omega)]
  · intro s m p hp hr hf
    have hnone : countFields (Key.fltPeek p.toNat) = [] := by
      rw [countFields, fieldsOf_header hp (by omega) (by omega)]
      rfl
    have heffect : s.readEffect m p.toNat 0x20 = s := by
      simpa [State.readEffect] using State.clearCounts_of_none hnone
    rw [exec_rcRead_page, show (0x20 : BitVec 12).toNat = 0x20 from rfl, State.read_full hr hf (by omega), heffect,
      State.view_fltPeek hp]

/-- Settles O14: each read has the effect that its offset names, and a partial one has none. -/
theorem readsAndTheirEffects : Obligations.ReadsAndTheirEffects := by
  unfold Obligations.ReadsAndTheirEffects
  refine ⟨?_, ?_, ?_, ?_⟩
  · intro s m p off h4 hr hf hlatch hconf httl
    have heffect : s.readEffect m p.toNat off.toNat = s.clearCounts (regKey p.toNat off.toNat) := by
      simp only [State.readEffect, hlatch, hconf, httl, if_false]
    obtain ⟨hcleared, hregs, hmem, hout⟩ := State.clearCounts_frame hf (regKey p.toNat off.toNat)
    refine ⟨_, exec_rcRead_page m p off 0xF s, ?_⟩
    rw [State.read_full hr hf h4, heffect]
    exact ⟨congrArg (· ++ _) hout, hcleared, hregs, hmem⟩
  · intro s m p hr hf
    have heffect : s.readEffect m p.toNat 0x2C = s.clearConflict p.toNat := rfl
    obtain ⟨hzero, hregs, hmem, hout⟩ := State.clearConflict_frame hf p.toNat
    refine ⟨_, exec_conflictRead m p 0xF s, ?_⟩
    rw [State.read_full hr hf (by omega), heffect]
    exact ⟨congrArg (· ++ _) hout, hzero, hregs, hmem⟩
  · intro s m hr hf
    refine ⟨_, exec_ttlNowRead m 0xF s, ?_⟩
    rw [State.read_full hr hf (by omega), State.view_ttlNowLo]
    exact ⟨rfl, rfl, fun _ _ => rfl, fun _ => rfl⟩
  · intro s m p off be hr hbe
    exact ⟨_, congrArg Host.Outcome.next (State.read_partial hr off.toNat hbe)⟩

end Machine
end Sys2Proof
end

section
/-! Doorbells: the release of a slot that lets more than slots out (04 R60, R74, R77). -/

namespace Sys2Proof.Machine

theorem exec_eqDoorbell (m : Master) (p : BitVec 7) (e : BitVec 2) (be : BitVec 4) (v : Word) (s : State) :
    exec (.eqDoorbell m p e be v) s =
      .next (s.gated m (pgDbl p.toNat) (0x120 + 4 * e.toNat) be v fun t => t.writeDblEq m p.toNat e.toNat v) := rfl

/-- EQ 0 of partition 3 enabled with 32 slots, of which one is used and for which no record waits; beside it a live CANCEL, not ended,
whose target is not live. -/
def cancelDue : State :=
  { (State.reset.setReg (Key.prtEqCfg 3 0) 0x80005000).setEq 12 { used := 1 } with
    descs := [{ num := 0, part := 3, sq := 0, tag := 7, kind := .cancel 5 }] }

/-- The doorbell that releases the slot settles the CANCEL: its COMPLETION goes out (R77). -/
theorem cancelDue_release_out :
    (cancelDue.gated .hostPf (pgDbl 3) 0x120 0xF 1 fun t => t.writeDblEq .hostPf 3 0 1).out =
      [.eqRec 3 0 0 0 { completion 7 0 stOk 0 1 0 0 with ends := some 0, phase := true }] := by
  decide +kernel

/-- Refutes O16: the clause of the EQ head asks that no record waits and says that nothing goes out, but the release also settles the
partition's CANCELs, of which its conditions say nothing. In `cancelDue` one is due, and its COMPLETION goes out. -/
theorem not_doorbells : ¬ Obligations.Doorbells := by
  unfold Obligations.Doorbells
  rintro ⟨-, heq, -⟩
  have htakes : cancelDue.Takes .hostPf (pgDbl 3) 0x120 1 := by decide +kernel
  have huncontested : cancelDue.Uncontested .hostPf (Key.dblEq 3 0) := by decide +kernel
  have henabled : cancelDue.bit (Key.prtEqCfg 3 0) 31 = true := by decide +kernel
  have hrange : getBits 1 15 0 < cancelDue.eqDepth 12 ∧ cancelDue.fld (Key.dblEq 3 0) 15 0 < cancelDue.eqDepth 12 := by decide +kernel
  have hused : (getBits 1 15 0 + cancelDue.eqDepth 12 - cancelDue.fld (Key.dblEq 3 0) 15 0) % cancelDue.eqDepth 12 ≤
      (cancelDue.eq 12).used := by decide +kernel
  have hwait : (cancelDue.eq 12).wait = [] := by decide +kernel
  obtain ⟨t, hexec, -, -, -, -, hout⟩ :=
    heq cancelDue .hostPf 3 0 1 htakes huncontested henabled hrange.1 hrange.2 hused hwait
  rw [exec_eqDoorbell] at hexec
  cases hexec
  have hnone : cancelDue.out = [] := rfl
  exact List.cons_ne_nil _ _ (cancelDue_release_out.symm.trans (hout.trans hnone))

end Sys2Proof.Machine
end

section
/-! SYNC: what it waits for and what waits behind it (05 R93, R94). -/

namespace Sys2Proof.Machine

/-! ### What an agent holds, and what is left when that alone changes -/

@[simp] theorem State.agent_setAgent_same (s : State) (a : Agent) (x : AgentSt) : (s.setAgent a x).agent a = x := by
  simp only [State.agent, State.setAgent, SMap.get_set_same]

/-- What an agent has begun is no register, no byte of memory and nothing given to the outside. -/
theorem State.setAgent_outside (s : State) (a : Agent) (x : AgentSt) :
    RegsBut [] s (s.setAgent a x) ∧ SameMemory s (s.setAgent a x) ∧ (s.setAgent a x).out = s.out :=
  ⟨fun _ _ => rfl, fun _ => rfl, rfl⟩

/-! ### Accesses -/

theorem exec_plainStore (a : Agent) (dpa : BitVec 43) (data : List Byte) (late : Bool) (s : State) :
    exec (.plainStore a dpa data late) s = .next (s.access a
      { store := true, sem := false, dpa := dpa.toNat, len := data.length, data := data, late := late }) := rfl

theorem exec_sync (a : Agent) (s : State) :
    exec (.sync a) s = .next (if (s.agent a).sync then
      s.setAgent a { s.agent a with behind := (s.agent a).behind ++ [.fence] } else s.waitSync a []) := rfl

/-- An access that follows a SYNC waits behind it. -/
theorem State.access_of_sync {s : State} {a : Agent} (hsync : (s.agent a).sync = true) (o : MemOp) :
    s.access a o = s.setAgent a { s.agent a with behind := (s.agent a).behind ++ [.mem o] } := by
  simp only [State.access, hsync, if_true]

/-! ### Register accesses of a Masthead core -/

/-- The block hears a Masthead core unless a package op of RST_CMD was performed in this cycle (22 R555). -/
theorem State.heard_masthead {s : State} (hop : s.boot.opDone = false) (c : BitVec 1) : s.heard (.masthead c) = true := by
  simp [State.heard, hop]

theorem State.writePage_of_sync {s : State} {c : BitVec 1} (hop : s.boot.opDone = false) (hsync : (s.agent (.core c)).sync = true)
    (p : BitVec 14) (off : BitVec 12) (be : BitVec 4) (v : Word) :
    s.writePage (.masthead c) p.toNat off.toNat be v = s.waitBehind (.masthead c) (.write (.page p off) be v) := by
  simp only [State.writePage, State.gated, State.heard_masthead hop, State.coreWaits, hsync, Bool.true_eq_false, if_false, if_true,
    BitVec.ofNat_toNat, BitVec.setWidth_eq]

theorem State.read_of_sync {s : State} {c : BitVec 1} (hop : s.boot.opDone = false) (hsync : (s.agent (.core c)).sync = true)
    (p : BitVec 14) (off : BitVec 12) (be : BitVec 4) :
    s.read (.masthead c) p.toNat off.toNat be = s.waitBehind (.masthead c) (.read (.page p off) be) := by
  simp only [State.read, State.heard_masthead hop, State.coreWaits, hsync, Bool.true_eq_false, if_false, if_true,
    BitVec.ofNat_toNat, BitVec.setWidth_eq]

/-- An access that waits behind the SYNC of its core is the last of what waits there. -/
theorem State.behind_waitBehind (s : State) (c : BitVec 1) (x : AgentItem) :
    ((s.waitBehind (.masthead c) x).agent (.core c)).behind = (s.agent (.core c)).behind ++ [x] := by
  simp only [State.waitBehind, State.agent_setAgent_same]

/-! ### Macros of a Boom -/

/-- A macro's progress alone is no register, no byte of memory and nothing given to the outside. -/
theorem State.setFlight_outside (s : State) (m : MacroSt) :
    RegsBut [] s (s.setFlight m) ∧ SameMemory s (s.setFlight m) ∧ (s.setFlight m).out = s.out :=
  ⟨fun _ _ => rfl, fun _ => rfl, rfl⟩

theorem State.agentHolds_of_sync {s : State} {m : MacroSt} (hsync : (s.agent (.boom (BitVec.ofNat 2 m.spar))).sync = true)
    (hafter : (s.agent (.boom (BitVec.ofNat 2 m.spar))).syncAfter ≤ m.num) (reads writes : List (Nat × Nat)) :
    s.agentHolds m reads writes = true := by
  simp only [State.agentHolds, hsync, hafter, decide_true, Bool.and_self, Bool.true_or]

/-- A macro that its Boom issued after a SYNC goes no further while the SYNC waits: its bounds are not read, and once they were, its
accesses are not performed. -/
theorem State.advance_of_sync {s : State} {x y : MacroSt}
    (hfind : (s.fab.flight.find? fun z => decide (z.spar = x.spar) && decide (z.slot = x.slot)) = some y)
    (hsync : (s.agent (.boom (BitVec.ofNat 2 y.spar))).sync = true)
    (hafter : (s.agent (.boom (BitVec.ofNat 2 y.spar))).syncAfter ≤ y.num) (hdone : y.done = false) (hstarted : y.started = false) :
    s.advance x = s ∨ s.advance x = s.setFlight y := by
  have hholds := State.agentHolds_of_sync hsync hafter
  have hset : (s.setFlight y).agentHolds y y.reads y.writes = true := hholds y.reads y.writes
  unfold State.advance
  rw [hfind]
  cases hwalk : s.walkAt x.spar x.walk with
  | none => exact .inl rfl
  | some w =>
    cases hplan : s.walkPlan w with
    | none => exact .inl (by simp [hdone, hstarted, hplan])
    | some b =>
      cases hresolved : y.resolved with
      | false => exact .inl (by simp [hdone, hstarted, hplan, hresolved, hholds])
      | true => exact .inr (by simp [hdone, hstarted, hplan, hresolved, hset])

/-! ### The end of a SYNC -/

/-- A SYNC that an access or a macro before it holds up stays. -/
theorem exec_syncComplete_of_pending {s : State} {a : Agent} (hpending : s.syncDone a = false) :
    exec (.syncComplete a) s = .next s := by
  have hcond : ¬ ((s.agent a).sync = true ∧ s.syncDone a = true) := by simp [hpending]
  exact congrArg Host.Outcome.next (if_neg hcond)

theorem State.syncDone_of_open {s : State} {a : Agent} (hopen : (s.agent a).open_ ≠ []) : s.syncDone a = false := by
  simp only [State.syncDone, hopen, decide_false, Bool.false_and]

theorem State.syncDone_of_macro {s : State} {k : BitVec 2} {m : MacroSt} (hm : m ∈ s.fab.flight) (hspar : m.spar = k.toNat)
    (hdone : m.done = false) (hnum : m.num < (s.agent (.boom k)).syncAfter) : s.syncDone (.boom k) = false := by
  have hall : (s.fab.flight.all fun m => decide (m.spar ≠ k.toNat) || m.done || decide ((s.agent (.boom k)).syncAfter ≤ m.num)) = false :=
    List.all_eq_false.2 ⟨m, hm, by simp [hspar, hdone, hnum]⟩
  simp only [State.syncDone, hall, Bool.and_false]

theorem State.advanceAll_of_empty {s : State} (hflight : s.fab.flight = []) (k : Nat) : s.advanceAll k = s := by
  simp only [State.advanceAll, hflight, List.filter_nil, List.foldl_nil]

/-- A SYNC with nothing before it and nothing behind it ends, and nothing else changes. -/
theorem exec_syncComplete_of_idle {s : State} {a : Agent} (hsync : (s.agent a).sync = true) (hopen : (s.agent a).open_ = [])
    (hbehind : (s.agent a).behind = []) (hflight : s.fab.flight = []) :
    exec (.syncComplete a) s = .next (s.setAgent a { s.agent a with sync := false, syncAfter := 0, behind := [] }) := by
  cases a with
  | core c =>
    have hdone : s.syncDone (.core c) = true := by simp only [State.syncDone, hopen, decide_true, Bool.and_self]
    simp only [exec, execSyncComplete, hsync, hdone, hbehind, and_self, if_true, State.startBehind]
  | boom k =>
    have hdone : s.syncDone (.boom k) = true := by
      simp only [State.syncDone, hopen, hflight, decide_true, List.all_nil, Bool.and_self]
    have hnone : ∀ x, (s.setAgent (.boom k) x).fab.flight = [] := fun _ => hflight
    simp only [exec, execSyncComplete, hsync, hdone, hbehind, and_self, if_true, State.startBehind,
      State.advanceAll_of_empty (hnone _)]

/-- Settles O22: what follows a SYNC is put behind it or, as a macro, not advanced, and the SYNC stays while an access or a macro
before it is not performed. -/
theorem syncHoldsBack : Obligations.SyncHoldsBack := by
  unfold Obligations.SyncHoldsBack
  refine ⟨?_, ?_, ?_, ?_, ?_, ?_, ?_, ?_⟩
  · intro s a hsync
    refine ⟨s.waitSync a [], by rw [exec_sync, hsync]; rfl, ?_⟩
    simp only [State.waitSync, State.agent_setAgent_same, true_and]
    exact s.setAgent_outside a _
  · intro s a o hsync
    rw [State.access_of_sync hsync]
    simp only [State.agent_setAgent_same, true_and]
    exact s.setAgent_outside a _
  · intro s a dpa len data late
    exact ⟨rfl, rfl, rfl, rfl⟩
  · intro s c p off be v hop hsync
    refine ⟨⟨_, ?_, s.behind_waitBehind c _, s.setAgent_outside _ _⟩, ⟨_, ?_, s.behind_waitBehind c _, s.setAgent_outside _ _⟩⟩
    · rw [exec_registerWrite_page, State.writePage_of_sync hop hsync]
    · rw [exec_rcRead_page, State.read_of_sync hop hsync]
  · intro s x y hsync hfind hspar hafter hdone hstarted
    rw [← hspar] at hsync hafter
    rcases State.advance_of_sync hfind hsync hafter hdone hstarted with hsame | hset
    · rw [hsame]
      exact ⟨fun _ _ => rfl, fun _ => rfl, rfl⟩
    · rw [hset]
      exact s.setFlight_outside y
  · intro s a hsync hopen
    exact exec_syncComplete_of_pending (State.syncDone_of_open hopen)
  · intro s k m hsync hm hspar hdone hnum
    exact exec_syncComplete_of_pending (State.syncDone_of_macro hm hspar hdone hnum)
  · intro s a hsync hopen hbehind hflight
    refine ⟨_, exec_syncComplete_of_idle hsync hopen hbehind hflight, ?_, s.setAgent_outside a _⟩
    rw [State.agent_setAgent_same]

end Sys2Proof.Machine
end

section
/-! A store of an agent into a line that an injection targets (05 R88; 24 R598). -/

namespace Sys2Proof.Machine

/-- Near region 0 in service, 16 frames of it in use by partition 3, injection enabled and its registers naming a line in them. -/
def injectionReady : State :=
  { regs := [(Key.rstStat, 0x100), (Key.rstHist, 1), (Key.fltInjCtl, 1), (Key.fltInjTgt, 0x03000000), (Key.fltInjArgLo, 0x10040),
      (Key.nrmStat 0, 2), (Key.nrmStat 1, 2)]
    mem := { used := [⟨16, 16, .kv 3, 5⟩] } }

/-- The same after a write of FLT_INJ_CMD has armed MEM_CE. -/
def memCeArmed : State := injectionReady.writeInjCmd 1 false

theorem memCeArmed_stat : memCeArmed.reg Key.fltInjStat = 0x40000001 := by decide +kernel

/-- A store into the line is its next write: the injection acts, and FLT_INJ_STAT records it (R598). -/
theorem memCeArmed_store_stat :
    (memCeArmed.access (.boom 0) { store := true, sem := false, dpa := 0x10040, len := 1, data := [1], late := false }).reg
      Key.fltInjStat = 0x80000001 := by
  decide +kernel

/-- Refutes O21: its clause of a plain store says that no register changes, but its conditions do not shut out an injection that is
armed for the line. In `memCeArmed` MEM_CE is, and the store changes FLT_INJ_STAT. -/
theorem not_agentAccesses : ¬ Obligations.AgentAccesses := by
  unfold Obligations.AgentAccesses
  rintro ⟨hstore, -⟩
  have hfree : memCeArmed.Unhindered (.boom 0) := by decide +kernel
  have hreach : memCeArmed.Reaches (.boom 0) (0x10040 : BitVec 43).toNat [(1 : Byte)].length := by decide +kernel
  have hflight : memCeArmed.paging.flight = [] := by decide +kernel
  obtain ⟨t, hexec, -, -, -, hregs, -⟩ := hstore memCeArmed (.boom 0) 0x10040 [1] hfree hreach hflight
  rw [exec_plainStore] at hexec
  cases hexec
  have hsame := hregs Key.fltInjStat List.not_mem_nil
  rw [memCeArmed_stat] at hsame
  exact absurd (memCeArmed_store_stat.symm.trans hsame) (by decide)

end Sys2Proof.Machine
end

section
/-! The state at reset, in which the field that PRT_STATE names is read beyond the 128 partitions (06 R110; 03 Table 3.2). -/

namespace Sys2Proof.Machine

/-- Page 0x120, where PRT_STATE of a partition 272 would be, is the page of Yard 0: its YRD_STAT is not 0 at reset. -/
theorem State.reset_pstate_of_yard : State.reset.pstate 272 = 7 := by decide +kernel

/-- Refutes O4: it speaks of every number, and 272 is the number of no partition. There are 128, and the word that `State.pstate` reads
for 272 is YRD_STAT of Yard 0, whose low bits are not those of FREE. -/
theorem not_resetIsEmpty : ¬ Obligations.ResetIsEmpty := by
  unfold Obligations.ResetIsEmpty
  rintro ⟨-, hfree, -⟩
  exact absurd (State.reset_pstate_of_yard.symm.trans (hfree 272)) (by decide)

end Sys2Proof.Machine
end

section
/-! What the work of a page manager, of queues, of requests, of images and of units leaves of the partitions' hidden parts: all of it.
`State.parts` changes where a partition command, a lost unit or a key engine says so, and nowhere below (06 R113, R118, R119). -/

namespace Sys2Proof.Machine

theorem State.foldl_parts {α : Type} {f : State → α → State} (hf : ∀ t x, (f t x).parts = t.parts) (l : List α) (s : State) :
    (l.foldl f s).parts = s.parts := by
  induction l generalizing s with
  | nil => rfl
  | cons x l ih => exact (ih (f s x)).trans (hf s x)

/-! ### Memory: frames, bytes, blocks of the device regions -/

/-- What `kvpUpdate` does: it sets KVP_STAT, and raises interrupts of the KVP page where a mark was crossed. -/
theorem State.kvpUpdate_induct {s : State} {P : State → Prop} (hset : ∀ v, P (s.setReg Key.kvpStat v))
    (hirq : ∀ t b, P t → P (t.irq pgKvp b)) : P s.kvpUpdate := by
  unfold State.kvpUpdate
  extract_lets old new held s1 s2
  have h1 : P s1 := hset _
  have h2 : P s2 := by
    unfold s2
    split
    · exact hirq s1 2 h1
    · exact h1
  split
  · exact hirq s2 3 h2
  · exact h2

@[simp] theorem State.kvpUpdate_parts (s : State) : s.kvpUpdate.parts = s.parts :=
  State.kvpUpdate_induct (P := fun t => t.parts = s.parts) (fun _ => rfl) fun t b h => (t.irq_parts pgKvp b).trans h

@[simp] theorem State.touchHold_parts (s : State) (pool : PoolId) : (s.touchHold pool).parts = s.parts := rfl

@[simp] theorem State.retireFrame_parts (s : State) (f u : Nat) : (s.retireFrame f u).parts = s.parts := by
  unfold State.retireFrame
  split
  · rfl
  · simp

@[simp] theorem State.retireLeft_parts (s : State) (f n : Nat) : (s.retireLeft f n).parts = s.parts := by
  unfold State.retireLeft
  dsimp only
  split
  · rfl
  · exact State.foldl_parts (fun t (e : Nat × Nat) => t.retireFrame_parts e.1 e.2) _ _

@[simp] theorem State.freeFresh_parts (s : State) (f : Nat) : (s.freeFresh f).parts = s.parts := by
  unfold State.freeFresh
  split
  · rfl
  · dsimp only
    split <;> simp

@[simp] theorem State.freeScrub_parts (s : State) (f : Nat) : (s.freeScrub f).parts = s.parts := by
  unfold State.freeScrub
  split
  · rfl
  · exact State.retireLeft_parts _ _ _

@[simp] theorem State.garble_parts (s : State) (k : Nat) : (s.garble k).parts = s.parts := rfl

@[simp] theorem State.injWrite_parts (s : State) (a n : Nat) : (s.injWrite a n).parts = s.parts := by
  unfold State.injWrite
  dsimp only
  split <;> split <;> (try split) <;> rfl

@[simp] theorem State.setPte_parts (s : State) (a : Nat) (e : Pte) : (s.setPte a e).parts = s.parts :=
  State.injWrite_parts _ _ _

@[simp] theorem State.dropBlock_parts (s : State) (a : Nat) : (s.dropBlock a).parts = s.parts := by
  unfold State.dropBlock
  split <;> rfl

@[simp] theorem State.zeroBank_parts (s : State) (i : Nat) : (s.zeroBank i).parts = s.parts := rfl

/-! ### Bursts, pages, shards and the index -/

@[simp] theorem State.endBurst_parts (s : State) (home : BurstHome) (tag : BitVec 64) (status moved : Nat) :
    (s.endBurst home tag status moved).parts = s.parts := by
  unfold State.endBurst
  cases home with
  | own => rfl
  | device a => exact State.injWrite_parts _ _ _
  | ring a => rfl

@[simp] theorem State.finishBursts_parts (s : State) : s.finishBursts.parts = s.parts :=
  State.foldl_parts (fun t (b : Burst) => t.endBurst_parts b.home b.tag b.status _) _ _

@[simp] theorem State.abortWhere_parts (s : State) (test : Burst → Move → Bool) (freed : Bool) :
    (s.abortWhere test freed).parts = s.parts :=
  (State.finishBursts_parts _).trans (State.foldl_parts State.freeScrub_parts _ _)

@[simp] theorem State.freePage_parts (s : State) (a : Nat) : (s.freePage a).parts = s.parts :=
  (State.freeScrub_parts _ _).trans (State.abortWhere_parts _ _ _)

@[simp] theorem State.syncProtect_parts (s : State) (a : Nat) : (s.syncProtect a).parts = s.parts := by
  unfold State.syncProtect
  dsimp only
  split
  · rfl
  · exact State.setPte_parts _ _ _

@[simp] theorem State.unref_parts (s : State) (rec : Nat) : (s.unref rec).parts = s.parts := by
  unfold State.unref
  dsimp only
  split
  · split
    · exact State.setPte_parts _ _ _
    · split <;> simp
  · simp

@[simp] theorem State.dropRecBlock_parts (s : State) (block : Nat) : (s.dropRecBlock block).parts = s.parts := by
  unfold State.dropRecBlock
  split
  · rfl
  · split
    · rfl
    · split
      · rfl
      · exact State.dropBlock_parts _ _

@[simp] theorem State.dropKeys_parts (s : State) : s.dropKeys.parts = s.parts :=
  State.foldl_parts (fun t b => t.garble_parts (128 + b)) _ _

@[simp] theorem State.releasePage_parts (s : State) (h : Shard) (p : Nat) : (s.releasePage h p).parts = s.parts := by
  unfold State.releasePage
  dsimp only
  split
  · rfl
  · split <;> simp

@[simp] theorem State.releaseShard_parts (s : State) (h : Shard) : (s.releaseShard h).parts = s.parts := by
  unfold State.releaseShard
  dsimp only
  rw [State.dropKeys_parts, State.foldl_parts State.dropRecBlock_parts]
  dsimp only
  rw [State.dropBlock_parts, State.dropBlock_parts]
  split <;>
    simp only [State.freeFresh_parts, State.foldl_parts State.freeFresh_parts, State.foldl_parts fun t p => State.releasePage_parts t h p]

theorem State.removeNodes_parts (s : State) (f : Node → Bool) : (s.removeNodes f).parts = s.parts := by
  unfold State.removeNodes
  dsimp only
  rw [State.dropKeys_parts, State.foldl_parts fun t n => State.dropRecBlock_parts t _,
    State.foldl_parts fun t n => State.foldl_parts State.unref_parts _ t]

/-! ### Records, requests -/

@[simp] theorem State.moderate_parts (s : State) (q : Nat) (completion : Bool) : (s.moderate q completion).parts = s.parts := by
  unfold State.moderate
  dsimp only
  split
  · exact State.signal_parts _ _
  · rfl

@[simp] theorem State.putRec_parts (s : State) (p e : Nat) (r : EqRec) : (s.putRec p e r).parts = s.parts := by
  unfold State.putRec
  dsimp only [State.eqSlot]
  rw [State.moderate_parts]
  split <;> rfl

@[simp] theorem State.complete_parts (s : State) (p n : Nat) (r : EqRec) : (s.complete p n r).parts = s.parts := by
  unfold State.complete State.post State.postOn
  dsimp only
  split
  · exact State.putRec_parts _ _ _ _
  · rfl

@[simp] theorem State.noteLane_parts (s : State) (r : Req) : (s.noteLane r).parts = s.parts := by
  unfold State.noteLane
  split <;> rfl

@[simp] theorem State.passLane_parts (s : State) (r : Req) : (s.passLane r).parts = s.parts := by
  unfold State.passLane
  split
  · split
    · split <;> rfl
    · rfl
  · rfl

@[simp] theorem State.releaseMirrors_parts (s : State) (p : Nat) (tag : BitVec 64) : (s.releaseMirrors p tag).parts = s.parts := by
  refine State.foldl_parts (fun t k => ?_) _ _
  dsimp only
  split
  · rfl
  · exact State.foldl_parts (fun u (y : MirrorPage) => u.freeScrub_parts y.frame) _ _

@[simp] theorem State.release_parts (s : State) (r : Req) : (s.release r).parts = s.parts := by
  unfold State.release State.releaseShards
  dsimp only
  rw [State.kvpUpdate_parts, State.foldl_parts State.releaseShard_parts, State.releaseMirrors_parts]
  exact (State.passLane_parts _ _).trans (State.noteLane_parts s r)

@[simp] theorem State.sendRingEnd_parts (s : State) (k : Nat) (tag : BitVec 64) (c : RingCause) :
    (s.sendRingEnd k tag c).parts = s.parts :=
  State.foldl_parts (fun t _ => t.emit_parts _) _ _

@[simp] theorem State.dropReq_parts (s : State) (r : Req) (c : RingCause) : (s.dropReq r c).parts = s.parts := by
  unfold State.dropReq
  refine (State.release_parts _ r).trans ?_
  split
  · split
    · exact State.sendRingEnd_parts _ _ _ _
    · rfl
  · rfl

/-! ### Panel groups, banks, images -/

@[simp] theorem State.setPanel_parts (s : State) (q : Nat) (x : Panel) : (s.setPanel q x).parts = s.parts := rfl

@[simp] theorem State.setGroup_parts (s : State) (g : Nat) (x : Group) : (s.setGroup g x).parts = s.parts := rfl

@[simp] theorem State.clearPanelWork_parts (s : State) (q : Nat) : (s.clearPanelWork q).parts = s.parts := by
  unfold State.clearPanelWork
  dsimp only
  split
  · exact State.dropBlock_parts _ _
  · rfl

@[simp] theorem State.unbindGroup_parts (s : State) (g : Nat) : (s.unbindGroup g).parts = s.parts :=
  State.foldl_parts State.clearPanelWork_parts _ _

@[simp] theorem State.eraseGroup_parts (s : State) (g : Nat) : (s.eraseGroup g).parts = s.parts := by
  unfold State.eraseGroup
  dsimp only
  rw [State.foldl_parts fun t q => t.setPanel_parts q _, State.setGroup_parts, State.unbindGroup_parts]

@[simp] theorem State.releaseImage_parts (s : State) (m : Model) : (s.releaseImage m).parts = s.parts := by
  unfold State.releaseImage State.unloadsDone State.unbindGroups
  dsimp only
  rw [State.kvpUpdate_parts, State.foldl_parts fun t d => State.complete_parts t _ _ _]
  dsimp only
  rw [State.foldl_parts fun t b => State.unbindGroup_parts t _, State.foldl_parts fun t f => State.freeScrub_parts t _]

/-! ### What RELEASE stops and gives back -/

@[simp] theorem State.stopAll_parts (s : State) (p : Nat) (c : RingCause) : (s.stopAll p c).parts = s.parts :=
  State.foldl_parts (fun t r => t.dropReq_parts r c) _ _

@[simp] theorem State.releaseOwned_parts (s : State) (p : Nat) : (s.releaseOwned p).parts = s.parts :=
  (State.removeNodes_parts _ _).trans (State.foldl_parts State.releaseImage_parts _ _)

@[simp] theorem State.dropBursts_parts (s : State) (p : Nat) : (s.dropBursts p).parts = s.parts :=
  State.foldl_parts State.freeScrub_parts _ _

/-! ### What a COMMIT takes and gives up -/

@[simp] theorem State.dropUnits_parts (s : State) (p : Nat) (h : Held) : (s.dropUnits p h).parts = s.parts := by
  unfold State.dropUnits
  dsimp only
  rw [State.foldl_parts State.zeroBank_parts,
    State.foldl_parts fun t g => (State.setFld_parts _ _ _ _ _).trans (State.eraseGroup_parts t g)]

@[simp] theorem State.claimGroup_parts (s : State) (p g : Nat) : (s.claimGroup p g).parts = s.parts := by
  unfold State.claimGroup
  dsimp only
  rw [State.setGroup_parts]
  split
  · rfl
  · exact s.eraseGroup_parts g

@[simp] theorem State.claimBank_parts (s : State) (p i : Nat) : (s.claimBank p i).parts = s.parts := by
  unfold State.claimBank
  dsimp only
  split <;> rfl

@[simp] theorem State.takeBoom_parts (s : State) (p k n : Nat) : (s.takeBoom p k n).parts = s.parts := by
  unfold State.takeBoom
  dsimp only
  rw [State.foldl_parts fun t _ => t.setFld_parts _ _ _ _, State.foldl_parts fun t _ => t.setFld_parts _ _ _ _]

@[simp] theorem State.setIdle_parts (s : State) (x : IdleSt) : (s.setIdle x).parts = s.parts := rfl

@[simp] theorem State.rereferenceDie_parts (s : State) (d : Nat) : (s.rereferenceDie d).parts = s.parts := by
  simp only [State.rereferenceDie]

@[simp] theorem State.beginExit_parts (s : State) (x : IdleSt) : (s.beginExit x).parts = s.parts := by
  unfold State.beginExit
  dsimp only
  split
  · rw [State.rereferenceDie_parts, State.setIdle_parts]
  · rfl
  · rfl

theorem State.meetEvent_parts (e : TtlEvent) (s : State) (x : IdleSt) : (State.meetEvent e s x).parts = s.parts := by
  unfold State.meetEvent
  split
  · rfl
  · split
    · split
      · exact State.beginExit_parts _ _
      · rfl
    · split
      · rfl
      · split
        · exact State.beginExit_parts _ _
        · rfl

@[simp] theorem State.planTest_parts (s : State) (i : Nat) : (s.planTest i).parts = s.parts := by
  refine (State.foldl_parts (State.meetEvent_parts _) _ _).trans ?_
  unfold State.ttlRegister
  split <;> rfl

end Sys2Proof.Machine
end

section
/-! PRT_STATE, and a command of PRT_CMD that is performed at once (06 R110 to R112, R114, R133). -/

namespace Sys2Proof.Machine

/-! ### What leaves memory and the hidden parts alone -/

theorem SameMemory.of_mem {s t : State} (h : t.mem = s.mem) : SameMemory s t := fun a => congrArg (fun m : Mem => SMap.byte m.bytes a) h

theorem State.part_congr {s t : State} (h : t.parts = s.parts) (q : Nat) : t.part q = s.part q := by
  simp only [State.part, h]

@[simp] theorem State.part_setPart_same (s : State) (p : Nat) (x : Part) : (s.setPart p x).part p = x := by
  simp only [State.part, State.setPart, SMap.get_set_same]

theorem State.part_setPart_ne (s : State) {p q : Nat} (x : Part) (h : q ≠ p) : (s.setPart p x).part q = s.part q :=
  SMap.get_set_ne _ _ _ h

/-- A partition's record replaced by one with the same waiting commands leaves every partition's waiting commands. -/
theorem State.later_setPart {s : State} {p : Nat} {x : Part} (h : x.later = (s.part p).later) (q : Nat) :
    ((s.setPart p x).part q).later = (s.part q).later := by
  by_cases hq : q = p
  · subst hq
    rw [State.part_setPart_same, h]
  · rw [State.part_setPart_ne s x hq]

/-! ### Registers after KVP_STAT is brought up to date -/

theorem State.reg_kvpUpdate (s : State) {k : Nat} (hstat : k ≠ Key.kvpStat) (hirq : k ≠ Key.irqStat pgKvp) :
    s.kvpUpdate.reg k = s.reg k :=
  State.kvpUpdate_induct (P := fun t => t.reg k = s.reg k) (fun v => s.reg_setReg_ne v hstat)
    fun t b h => (t.reg_irq_ne pgKvp b hirq).trans h

@[simp] theorem State.kvpUpdate_mem (s : State) : s.kvpUpdate.mem = s.mem :=
  State.kvpUpdate_induct (P := fun t => t.mem = s.mem) (fun _ => rfl) fun t b h => (t.irq_mem pgKvp b).trans h

/-- A register of a partition's page is none that KVP_STAT's update writes. -/
theorem State.reg_kvpUpdate_prt (s : State) {p off : Nat} (hp : p < 128) (ho : off < 0x1000) :
    s.kvpUpdate.reg (regKey (pgPrt p) off) = s.reg (regKey (pgPrt p) off) :=
  s.reg_kvpUpdate (by simp only [Key.kvpStat, regKey, pgPrt]; omega) (by simp only [Key.irqStat, regKey, pgPrt, pgKvp]; omega)

/-! ### PRT_STATE -/

theorem State.fld_isoUpdate (s : State) (p : Nat) {a b : Nat} (ha : a < 32) (h4 : a < 4 ∨ 4 < b) :
    (s.isoUpdate p).fld (Key.prtState p) a b = s.fld (Key.prtState p) a b :=
  s.fld_setFld_ne _ (by omega) ha h4

theorem State.reg_isoUpdate_ne (s : State) {p k : Nat} (h : k ≠ Key.prtState p) : (s.isoUpdate p).reg k = s.reg k :=
  s.reg_setBit_ne _ _ h

/-- What `setPState` writes: PRT_STATE as its field and iso_held have it, and on a change of state an interrupt of the page. -/
theorem State.setPState_eq (s : State) (p st : Nat) : s.setPState p st =
    if s.pstate p ≠ st then ((s.setFld (Key.prtState p) 2 0 st).isoUpdate p).irq (pgPrt p) 2
    else (s.setFld (Key.prtState p) 2 0 st).isoUpdate p := rfl

theorem State.reg_prtState_setPState (s : State) (p st : Nat) :
    (s.setPState p st).reg (Key.prtState p) = ((s.setFld (Key.prtState p) 2 0 st).isoUpdate p).reg (Key.prtState p) := by
  rw [State.setPState_eq]
  split
  · exact State.reg_irq_ne _ _ _ (regKey_ne (by omega) (by omega) (by omega))
  · rfl

theorem State.pstate_setPState (s : State) (p : Nat) {st : Nat} (hst : st < 8) : (s.setPState p st).pstate p = st := by
  have hiso : (s.setPState p st).pstate p = (s.setFld (Key.prtState p) 2 0 st).pstate p :=
    (State.fld_congr (s.reg_prtState_setPState p st) 2 0).trans (State.fld_isoUpdate _ p (by omega) (by omega))
  rw [hiso, State.pstate, State.fld_setFld_same _ _ (by omega)]
  exact Nat.mod_eq_of_lt hst

/-- A field of PRT_STATE beside state and iso_held is as before a change of state. -/
theorem State.fld_setPState (s : State) (p st : Nat) {a b : Nat} (ha : a < 32) (hb : 2 < b) (h4 : a < 4 ∨ 4 < b) :
    (s.setPState p st).fld (Key.prtState p) a b = s.fld (Key.prtState p) a b := by
  rw [State.fld_congr (s.reg_prtState_setPState p st), State.fld_isoUpdate _ p ha h4, State.fld_setFld_ne _ _ (by omega) ha (by omega)]

theorem State.reg_setPState_ne (s : State) (st : Nat) {p k : Nat} (hstate : k ≠ Key.prtState p) (hirq : k ≠ Key.irqStat (pgPrt p)) :
    (s.setPState p st).reg k = s.reg k := by
  have hiso : ((s.setFld (Key.prtState p) 2 0 st).isoUpdate p).reg k = s.reg k :=
    (State.reg_isoUpdate_ne _ hstate).trans (s.reg_setFld_ne _ _ _ hstate)
  rw [State.setPState_eq]
  split
  · exact (State.reg_irq_ne _ _ _ hirq).trans hiso
  · exact hiso

/-- A change of state raises interrupt source 2 of the partition's page (R133). -/
theorem State.bit_irqStat_setPState {s : State} {p st : Nat} (h : s.pstate p ≠ st) :
    (s.setPState p st).bit (Key.irqStat (pgPrt p)) 2 = true := by
  rw [State.setPState_eq, if_pos h]
  exact State.bit_irq _ _ (by omega)

/-! ### A command written to PRT_CMD -/

/-- Where no command was put off, none is performed late. -/
theorem State.prtLater_of_none {s : State} (h : ∀ q ∈ allParts, (s.part q).later = []) : s.prtLater = s := by
  unfold State.prtLater
  refine List.foldlRecOn (motive := fun t => t = s) allParts _ rfl fun t ht q hq => ?_
  subst ht
  simp only [h q hq, true_or, if_true]

/-- A full write of PRT_CMD that goes first is performed, and nothing else is. -/
theorem State.prtCommand_of_first {s w : State} {m : Master} {p : BitVec 7} {op : Nat} (hfirst : s.PrtFirst p.toNat)
    (htakes : s.Takes m (pgPrt p.toNat) 0x104 (BitVec.ofNat 32 op))
    (hw : (s.noteOrder m (pgPrt p.toNat)).writePrtCmd p.toNat (BitVec.ofNat 32 op) = w)
    (hlater : ∀ q, (w.part q).later = (s.part q).later) :
    s.prtCommand m p 0xF op = w.noteSince (s.noteOrder m (pgPrt p.toNat)) := by
  obtain ⟨hlower, hnone⟩ := hfirst
  have hnow : s.prtNow m p.toNat 0xF op = w.noteSince (s.noteOrder m (pgPrt p.toNat)) := by
    unfold State.prtNow
    rw [State.gated_of_takes htakes, State.inTurn_eq_noteOrder htakes.inOrder, hw]
  have hrest : ∀ q ∈ allParts, ((w.noteSince (s.noteOrder m (pgPrt p.toNat))).part q).later = [] :=
    fun q hq => (hlater q).trans (hnone q hq)
  unfold State.prtCommand
  rw [hlower, hnow]
  exact State.prtLater_of_none hrest

/-- A field set by a write is what the write did, beside the notes of arbitration. -/
theorem State.wroteAs_setFld (s : State) (m : Master) (pg k h l x : Nat) :
    WroteAs (s.setFld k h l x) (((s.noteOrder m pg).setFld k h l x).noteSince (s.noteOrder m pg)) := rfl

/-- A command that only sets the last error. -/
theorem State.prtCommand_of_lastErr {s : State} {m : Master} {p : BitVec 7} {op e : Nat} (hfirst : s.PrtFirst p.toNat)
    (htakes : s.Takes m (pgPrt p.toNat) 0x104 (BitVec.ofNat 32 op))
    (hw : (s.noteOrder m (pgPrt p.toNat)).writePrtCmd p.toNat (BitVec.ofNat 32 op) =
      (s.noteOrder m (pgPrt p.toNat)).setLastErr p.toNat e) :
    WroteAs (s.setFld (Key.prtState p.toNat) 15 8 e) (s.prtCommand m p 0xF op) := by
  rw [State.prtCommand_of_first hfirst htakes hw fun _ => rfl]
  exact s.wroteAs_setFld m (pgPrt p.toNat) _ _ _ _

/-! ### What each command does (06 Table 6.3) -/

theorem State.writePrtCmd_badOp (s : State) (p : Nat) {v : Word} (h : 5 < getBits v 7 0) : s.writePrtCmd p v = s.setLastErr p 0x0C :=
  if_pos (.inr h)

theorem State.writePrtCmd_assign {s : State} {p : Nat} (hst : s.pstate p = psFree) (hready : s.ready = true)
    (hrng : s.bit Key.secStat 31 = true) :
    s.writePrtCmd p 1 = ((((s.setLastErr p 0).keygen p).setPState p psConfig).xspliceUpdate p).leavesFree p :=
  if_pos ⟨hst, hready, hrng⟩

theorem State.writePrtCmd_assign_refused {s : State} {p : Nat} (hst : s.pstate p ≠ psFree) :
    s.writePrtCmd p 1 = s.setLastErr p 0x01 :=
  if_neg fun h => hst h.1

theorem State.writePrtCmd_commit_refused {s : State} {p : Nat} (hc : s.commitCheck p ≠ 0) :
    s.writePrtCmd p 2 = s.setLastErr p (s.commitCheck p) :=
  if_pos hc

theorem State.writePrtCmd_commit {s : State} {p : Nat} (hc : s.commitCheck p = 0) :
    s.writePrtCmd p 2 = (((((s.setLastErr p 0).hold p (s.configured p)).setBit (Key.prtState p) 3 (s.configured p).isSealed).setPState
      p psActive).sendShare p).kvpUpdate :=
  if_neg fun h => h hc

theorem State.writePrtCmd_drain {s : State} {p : Nat} (hst : s.pstate p = psActive) :
    s.writePrtCmd p 3 = ((s.setLastErr p 0).setPState p psDraining).refuseDeferred p :=
  if_pos hst

theorem State.writePrtCmd_drain_free {s : State} {p : Nat} (hst : s.pstate p = psFree) : s.writePrtCmd p 3 = s.setLastErr p 0x01 := by
  show (if s.pstate p = psActive then _ else if s.pstate p = psHalted then _ else _) = _
  rw [hst, if_neg (by decide), if_neg (by decide)]

theorem State.writePrtCmd_release {s : State} {p : Nat} (hfree : s.pstate p ≠ psFree) (hrel : s.pstate p ≠ psReleasing) :
    s.writePrtCmd p 5 = (s.setLastErr p 0).beginRelease p :=
  if_neg fun h => h.elim hfree hrel

theorem State.writePrtCmd_release_free {s : State} {p : Nat} (hst : s.pstate p = psFree) : s.writePrtCmd p 5 = s.setLastErr p 0x01 :=
  if_pos (.inl hst)

end Sys2Proof.Machine
end

section
/-! Commands of PRT_CMD that the partition's state does not allow (06 R111, R114). -/

namespace Sys2Proof.Machine

theorem exec_assign (m : Master) (p : BitVec 7) (be : BitVec 4) (s : State) :
    exec (.assign m p be) s = .next (s.prtCommand m p be 1) := rfl

theorem exec_commit (m : Master) (p : BitVec 7) (be : BitVec 4) (s : State) :
    exec (.commit m p be) s = .next (s.prtCommand m p be 2) := rfl

theorem exec_drain (m : Master) (p : BitVec 7) (be : BitVec 4) (s : State) :
    exec (.drain m p be) s = .next (s.prtCommand m p be 3) := rfl

theorem exec_reset (m : Master) (p : BitVec 7) (be : BitVec 4) (s : State) :
    exec (.reset m p be) s = .next (s.prtCommand m p be 4) := rfl

theorem exec_release (m : Master) (p : BitVec 7) (be : BitVec 4) (s : State) :
    exec (.release m p be) s = .next (s.prtCommand m p be 5) := rfl

theorem blockOf_prt {p : Nat} (hp : p < 128) : blockOf (pgPrt p) = some (.prt, p) := by
  have hbelow : ∀ n, n ≤ 0x10 → ¬ pgPrt p < n := fun n hn => by simp only [pgPrt]; omega
  have habove : pgPrt p < 0x90 := by simp only [pgPrt]; omega
  simp [blockOf, pageMap, hbelow, habove]

/-- PRT_CMD as the register of its page. -/
theorem State.writeReg_prtCmd {p : Nat} (hp : p < 128) (s : State) (m : Master) (v : Word) :
    s.writeReg m (pgPrt p) 0x104 v = s.writePrtCmd p v := by
  have hreg : ∃ r, findReg (pgPrt p) 0x104 = some r := by
    simp only [findReg, blockOf_prt hp]
    exact ⟨_, rfl⟩
  obtain ⟨r, hr⟩ := hreg
  simp only [State.writeReg, blockOf_prt hp, hr]
  rfl

/-- Settles O24: a command that finds the wrong state, and a written op that there is not, reach PRT_STATE.last_error alone. -/
theorem partitionErrors : Obligations.PartitionErrors := by
  unfold Obligations.PartitionErrors
  refine ⟨?_, ?_, ?_, ?_⟩
  · intro s m p hfirst htakes hst
    exact ⟨_, exec_assign m p 0xF s, State.prtCommand_of_lastErr hfirst htakes (State.writePrtCmd_assign_refused hst)⟩
  · intro s m p hfirst htakes hst
    exact ⟨_, exec_drain m p 0xF s, State.prtCommand_of_lastErr hfirst htakes (State.writePrtCmd_drain_free hst)⟩
  · intro s m p hfirst htakes hst
    exact ⟨_, exec_release m p 0xF s, State.prtCommand_of_lastErr hfirst htakes (State.writePrtCmd_release_free hst)⟩
  · intro s m p v htakes hop
    have hpage : (BitVec.ofNat 14 (pgPrt p.toNat)).toNat = pgPrt p.toNat := by
      rw [BitVec.toNat_ofNat]
      exact Nat.mod_eq_of_lt (by simp only [pgPrt]; omega)
    refine ⟨_, exec_registerWrite_page m _ 0x104 0xF v s, ?_⟩
    rw [hpage, show (0x104 : BitVec 12).toNat = 0x104 from rfl, State.writePage_of_takes htakes, State.writeReg_prtCmd p.isLt,
      State.writePrtCmd_badOp _ _ hop, State.inTurn_eq_noteOrder htakes.inOrder]
    exact s.wroteAs_setFld m (pgPrt p.toNat) _ _ _ _

end Sys2Proof.Machine
end

section
/-! Partition commands in the states that allow them, and the ends of drain, reset and teardown (06 Table 6.3, R111, R113, R133). -/

namespace Sys2Proof.Machine

/-! ### ASSIGN -/

theorem State.reg_keygen (s : State) (p : Nat) {k : Nat} (hgen : k ≠ Key.prtKeygen p) (hcnt : k ≠ Key.secKeygenCnt) :
    (s.keygen p).reg k = s.reg k :=
  (State.reg_setReg_ne _ _ hcnt).trans (State.reg_setReg_ne _ _ hgen)

theorem State.reg_prtKeygen_keygen (s : State) (p : Nat) :
    (s.keygen p).reg (Key.prtKeygen p) = satInc (s.reg (Key.prtKeygen p)) :=
  (State.reg_setReg_ne _ _ (regKey_ne (by omega) (by omega) (by omega))).trans (State.reg_setReg_same _ _ _)

theorem State.keygen_parts (s : State) (p : Nat) :
    (s.keygen p).parts = (s.setPart p { s.part p with keyPair := true, keyOwed := false }).parts := by
  rw [State.keygen, State.inc_parts, State.inc_parts]

theorem State.part_keygen_same (s : State) (p : Nat) :
    (s.keygen p).part p = { s.part p with keyPair := true, keyOwed := false } :=
  (State.part_congr (s.keygen_parts p) p).trans (State.part_setPart_same _ _ _)

theorem State.reg_xspliceUpdate_ne (s : State) {p k : Nat} (h : k ≠ Key.prtState p) : (s.xspliceUpdate p).reg k = s.reg k :=
  (State.reg_isoUpdate_ne _ h).trans (s.reg_setBit_ne _ _ h)

@[simp] theorem State.xspliceUpdate_parts (s : State) (p : Nat) : (s.xspliceUpdate p).parts = s.parts :=
  (State.isoUpdate_parts _ p).trans (s.setBit_parts _ _ _)

@[simp] theorem State.leavesFree_parts (s : State) (p : Nat) : (s.leavesFree p).parts = s.parts := rfl

@[simp] theorem State.keygen_mem (s : State) (p : Nat) : (s.keygen p).mem = s.mem := by
  rw [State.keygen, State.inc_mem, State.inc_mem, State.setPart_mem]

@[simp] theorem State.xspliceUpdate_mem (s : State) (p : Nat) : (s.xspliceUpdate p).mem = s.mem :=
  (State.isoUpdate_mem _ p).trans (s.setBit_mem _ _ _)

@[simp] theorem State.leavesFree_mem (s : State) (p : Nat) : (s.leavesFree p).mem = s.mem := rfl

theorem State.reg_leavesFree (s : State) (p k : Nat) : (s.leavesFree p).reg k = s.reg k := rfl

/-- A field of PRT_STATE beside xsplice_bound and iso_held. -/
theorem State.fld_xspliceUpdate (s : State) (p : Nat) {a b : Nat} (ha : a < 32) (h : a < 4 ∨ 5 < b) :
    (s.xspliceUpdate p).fld (Key.prtState p) a b = s.fld (Key.prtState p) a b :=
  (State.fld_isoUpdate _ p ha (by omega)).trans (s.fld_setFld_ne _ (by omega) ha (by omega))

/-- What an ASSIGN leaves that its partition's state allows. -/
abbrev State.Assigned (s : State) (p : Nat) (t : State) : Prop :=
  t.pstate p = psConfig ∧ (t.part p).keyPair = true ∧ t.reg (Key.prtKeygen p) = satInc (s.reg (Key.prtKeygen p)) ∧
    t.fld (Key.prtState p) 15 8 = 0 ∧ t.bit (Key.irqStat (pgPrt p)) 2 = true ∧ SameMemory s t

theorem State.assigned_of_free {s : State} {p : Nat} (hst : s.pstate p = psFree) :
    s.Assigned p (((((s.setLastErr p 0).keygen p).setPState p psConfig).xspliceUpdate p).leavesFree p) := by
  set u := (s.setLastErr p 0).keygen p
  set v := u.setPState p psConfig
  have hstate : u.reg (Key.prtState p) = (s.setLastErr p 0).reg (Key.prtState p) :=
    State.reg_keygen _ p (regKey_ne (by omega) (by omega) (by omega)) (regKey_ne (by omega) (by omega) (by omega))
  have hfree : u.pstate p ≠ psConfig := by
    have hkeep : u.pstate p = s.pstate p := (State.fld_congr hstate 2 0).trans (s.fld_setFld_ne _ (by omega) (by omega) (by omega))
    rw [hkeep, hst]
    decide
  have hfld : ∀ a b, a < 32 → a < 4 ∨ 5 < b →
      ((v.xspliceUpdate p).leavesFree p).fld (Key.prtState p) a b = v.fld (Key.prtState p) a b :=
    fun a b ha h => (State.fld_congr (State.reg_leavesFree _ p _) a b).trans (v.fld_xspliceUpdate p ha h)
  have hreg : ∀ k, k ≠ Key.prtState p → ((v.xspliceUpdate p).leavesFree p).reg k = v.reg k :=
    fun k hk => (State.reg_leavesFree _ p k).trans (v.reg_xspliceUpdate_ne hk)
  refine ⟨?_, ?_, ?_, ?_, ?_, ?_⟩
  · exact (hfld 2 0 (by omega) (by omega)).trans (u.pstate_setPState p (by decide))
  · rw [State.part_congr (State.leavesFree_parts _ p), State.part_congr (State.xspliceUpdate_parts _ p),
      State.part_congr (u.setPState_parts p psConfig), State.part_keygen_same]
  · rw [hreg _ (regKey_ne (by omega) (by omega) (by omega)), u.reg_setPState_ne psConfig (regKey_ne (by omega) (by omega) (by omega))
      (regKey_ne (by omega) (by omega) (by omega)), State.reg_prtKeygen_keygen]
    exact congrArg satInc (s.reg_setFld_ne _ _ _ (regKey_ne (by omega) (by omega) (by omega)))
  · rw [hfld 15 8 (by omega) (by omega), u.fld_setPState p psConfig (by omega) (by omega) (by omega), State.fld_congr hstate]
    exact s.fld_setFld_same 0 (by omega)
  · rw [State.bit_congr (hreg _ (regKey_ne (by omega) (by omega) (by omega)))]
    exact State.bit_irqStat_setPState hfree
  · refine SameMemory.of_mem ?_
    rw [State.leavesFree_mem, State.xspliceUpdate_mem, State.setPState_mem, State.keygen_mem, State.setLastErr_mem]

/-! ### COMMIT -/

/-- What partition `p` holds once a COMMIT of `h0` passes: a sealed one with its frames (07 R137). -/
def State.reserved (s : State) (p : Nat) (h0 : Held) : Held :=
  if h0.isSealed then
    { h0 with frames := (s.dropUnits p h0).chooseFrames p h0 .near (256 * h0.nearQuota) ++
        (s.dropUnits p h0).chooseFrames p h0 .far (256 * h0.farQuota) }
  else h0

@[simp] theorem State.dropTest_parts (s : State) (i : Nat) : (s.dropTest i).parts = s.parts := rfl

/-- Of the partitions' records, a COMMIT changes what its own holds. -/
theorem State.hold_parts (s : State) (p : Nat) (h0 : Held) :
    (s.hold p h0).parts = (s.setPart p { s.part p with held := s.reserved p h0 }).parts := by
  unfold State.hold
  extract_lets sr h sg s1 x s2 s3 s4 was s5 s6
  have hsr : sr.parts = s.parts := s.dropUnits_parts p h0
  have hsg : sg.parts = s.parts := (State.foldl_parts (fun t g => t.claimGroup_parts p g) _ _).trans hsr
  have hs1 : s1.parts = s.parts := by
    unfold s1
    split
    · exact (State.foldl_parts (fun t b => t.claimBank_parts p b) _ _).trans hsg
    · exact hsg
  have hs2 : s2.parts = (s.setPart p { s.part p with held := h }).parts := by
    show (s1.setPart p { s1.part p with held := h }).parts = _
    simp only [State.setPart, State.part, hs1]
  have hs4 : s4.parts = s2.parts :=
    (State.foldl_parts (fun t k => t.takeBoom_parts p k _) _ _).trans (State.foldl_parts (fun t g => t.setFld_parts _ _ _ _) _ _)
  have hs6 : s6.parts = s4.parts :=
    (State.foldl_parts State.planTest_parts _ _).trans (State.foldl_parts State.dropTest_parts _ _)
  exact hs6.trans (hs4.trans hs2)

theorem State.reserved_eq (s : State) (p : Nat) (h0 : Held) :
    ∃ fr, s.reserved p h0 = { h0 with frames := fr } ∧ (h0.isSealed = false → fr = h0.frames) := by
  unfold State.reserved
  split
  next hsealed => exact ⟨_, rfl, fun h => absurd (hsealed.symm.trans h) (by decide)⟩
  next => exact ⟨h0.frames, rfl, fun _ => rfl⟩

/-- SHARE goes out, and nothing else comes of it. -/
theorem State.sendShare_induct {s : State} {P : State → Prop} (hs : P s) (hemit : ∀ t o, P t → P (t.emit o)) (p : Nat) :
    P (s.sendShare p) := by
  unfold State.sendShare
  dsimp only
  split
  · exact List.foldlRecOn s.leafBundles _ hs fun t ht b _ => hemit t _ ht
  · exact hs

@[simp] theorem State.sendShare_regs (s : State) (p : Nat) : (s.sendShare p).regs = s.regs :=
  State.sendShare_induct (P := fun t => t.regs = s.regs) rfl (fun _ _ h => h) p

@[simp] theorem State.sendShare_parts (s : State) (p : Nat) : (s.sendShare p).parts = s.parts :=
  State.sendShare_induct (P := fun t => t.parts = s.parts) rfl (fun _ _ h => h) p

/-- A partition whose COMMIT passes, as it goes to the leaves: it holds `h`, and is ACTIVE. -/
def State.activated (s : State) (p : Nat) (h : Held) : State :=
  (((s.setLastErr p 0).hold p h).setBit (Key.prtState p) 3 h.isSealed).setPState p psActive

theorem State.activated_parts (s : State) (p : Nat) (h : Held) :
    (s.activated p h).parts = (s.setPart p { s.part p with held := (s.setLastErr p 0).reserved p h }).parts :=
  (State.setPState_parts _ p psActive).trans ((s.setLastErr p 0).hold_parts p h)

theorem State.pstate_activated (s : State) (p : Nat) (h : Held) : (s.activated p h).pstate p = psActive :=
  State.pstate_setPState _ p (by decide)

theorem State.isSealed_activated (s : State) {p : Nat} (hp : p < 128) (h : Held) : (s.activated p h).isSealed p = h.isSealed := by
  have hbit : (s.activated p h).bit (Key.prtState p) 3 = h.isSealed := by
    unfold State.bit State.activated
    rw [State.fld_setPState _ p psActive (by omega) (by omega) (by omega)]
    exact State.bit_setBit_same _ _ (by omega)
  rw [State.isSealed, hbit, decide_eq_true hp, Bool.true_and]

/-- PRT_STATE and the hidden parts are what they were when the partition became ACTIVE. -/
theorem State.committed_frame (u : State) {p : Nat} (hp : p < 128) :
    (u.sendShare p).kvpUpdate.reg (Key.prtState p) = u.reg (Key.prtState p) ∧ (u.sendShare p).kvpUpdate.parts = u.parts :=
  ⟨(State.reg_kvpUpdate_prt _ hp (by omega)).trans (State.reg_congr (u.sendShare_regs p) _),
    (State.kvpUpdate_parts _).trans (u.sendShare_parts p)⟩

/-! ### DRAIN, RESET and RELEASE -/

theorem State.refuseDeferred_of_none {s : State} {p : Nat} (h : s.hasDeferred p = false) : s.refuseDeferred p = s := by
  have hnone : s.reqs.filter (fun r => decide (r.part = p) && decide (r.phase = .deferred)) = [] := by
    rw [List.filter_eq_nil_iff]
    exact fun r hr => Bool.not_eq_true _ ▸ (List.any_eq_false.1 h r hr)
  unfold State.refuseDeferred
  rw [hnone, List.foldl_nil]

theorem State.writePrtCmd_reset {s : State} {p : Nat} (hst : s.pstate p = psActive) (h : s.reqsLeft p = false) :
    s.writePrtCmd p 4 = ((s.setLastErr p 0).setPart p { s.part p with prior := psActive }).setPState p psResetting := by
  set u := ((s.setLastErr p 0).setPart p { s.part p with prior := psActive }).setPState p psResetting with hu
  have hnone : u.reqs.filter (fun r => decide (r.part = p) && r.active) = [] := by
    rw [List.filter_eq_nil_iff, hu, State.setPState_reqs]
    intro r hr
    have hpart := List.any_eq_false.1 h r hr
    simp only [hpart, Bool.false_and, Bool.false_eq_true, not_false_eq_true]
  have hcmd : s.writePrtCmd p 4 = (u.reqs.filter fun r => decide (r.part = p) && r.active).foldl State.resetReq u := by
    refine (if_pos (.inl hst)).trans ?_
    rw [hst]
  rw [hcmd, hnone, List.foldl_nil]

/-- A partition that RELEASE reaches, with its work stopped, its queues disabled and what it owned given up; its keys and its state are
still as they were (R111). -/
def State.givenUp (s : State) (p : Nat) : State :=
  let s1 := (s.stopAll p .release).releaseOwned p
  let s2 := (List.range 8).foldl (fun t q => t.setBit (Key.prtSqCfg p q) 31 false) s1
  let s3 := (List.range 4).foldl (fun t e => t.setBit (Key.prtEqCfg p e) 31 false) s2
  (s3.dropBursts p).uncharge p

theorem State.beginRelease_eq (s : State) (p : Nat) :
    s.beginRelease p = (((s.givenUp p).destroyKeys p false).setPState p psReleasing).kvpUpdate := rfl

@[simp] theorem State.uncharge_parts (s : State) (p : Nat) : (s.uncharge p).parts = s.parts := rfl

@[simp] theorem State.givenUp_parts (s : State) (p : Nat) : (s.givenUp p).parts = s.parts := by
  unfold State.givenUp
  dsimp only
  rw [State.uncharge_parts, State.dropBursts_parts, State.foldl_parts fun t e => t.setBit_parts _ _ _,
    State.foldl_parts fun t q => t.setBit_parts _ _ _, State.releaseOwned_parts, State.stopAll_parts]

theorem State.part_destroyKeys (s : State) (p : Nat) (flr : Bool) :
    ((s.destroyKeys p flr).part p).keyPair = false ∧ ((s.destroyKeys p flr).part p).flr = flr ∧
      ((s.destroyKeys p flr).part p).destroy.isSome = true := by
  unfold State.destroyKeys
  rw [State.part_setPart_same]
  exact ⟨rfl, rfl, rfl⟩

end Sys2Proof.Machine
end

section
/-! The partition commands as rows of the block, seen through their gate (06 R111 to R113). -/

namespace Sys2Proof.Machine

/-- A command of PRT_CMD that goes first ends in the state that its own work leaves; a claim of that state without the notes of
arbitration is a claim of what the row leaves. -/
theorem State.exists_prtCommand {s : State} {m : Master} {p : BitVec 7} {op : Nat} {w : State} {P : State → Prop}
    (hfirst : s.PrtFirst p.toNat) (htakes : s.Takes m (pgPrt p.toNat) 0x104 (BitVec.ofNat 32 op))
    (hw : (s.noteOrder m (pgPrt p.toNat)).writePrtCmd p.toNat (BitVec.ofNat 32 op) = w)
    (hlater : ∀ q, (w.part q).later = (s.part q).later) (hP : P (w.noteSince (s.noteOrder m (pgPrt p.toNat)))) :
    ∃ t, (.next (s.prtCommand m p 0xF op) : Host.Outcome State Fault Refusal) = .next t ∧ P t :=
  ⟨_, congrArg _ (State.prtCommand_of_first hfirst htakes hw hlater), hP⟩

/-- What COMMIT checks and takes from the registers does not depend on what arbitration notes. -/
theorem State.commitCheck_noteOrder (s : State) (m : Master) (pg p : Nat) : (s.noteOrder m pg).commitCheck p = s.commitCheck p := rfl

theorem State.configured_noteOrder (s : State) (m : Master) (pg p : Nat) : (s.noteOrder m pg).configured p = s.configured p := rfl

theorem State.later_destroyKeys (s : State) (p : Nat) (flr : Bool) (q : Nat) :
    ((s.destroyKeys p flr).part q).later = (s.part q).later :=
  State.later_setPart (by rfl) q

/-! ### ASSIGN, COMMIT, DRAIN, RESET, RELEASE -/

theorem exists_assign {s : State} {m : Master} {p : BitVec 7} (hfirst : s.PrtFirst p.toNat) (htakes : s.Takes m (pgPrt p.toNat) 0x104 1)
    (hst : s.pstate p.toNat = psFree) (hready : s.ready = true) (hrng : s.bit Key.secStat 31 = true) :
    ∃ t, exec (.assign m p 0xF) s = .next t ∧ s.Assigned p.toNat t := by
  set u := s.noteOrder m (pgPrt p.toNat)
  have hparts : ((((((u.setLastErr p.toNat 0).keygen p.toNat).setPState p.toNat psConfig).xspliceUpdate p.toNat).leavesFree
      p.toNat)).parts = (u.setPart p.toNat { u.part p.toNat with keyPair := true, keyOwed := false }).parts := by
    rw [State.leavesFree_parts, State.xspliceUpdate_parts, State.setPState_parts]
    rfl
  refine State.exists_prtCommand hfirst htakes (State.writePrtCmd_assign (s := u) hst hready hrng) (fun q => ?_) ?_
  · rw [State.part_congr hparts]
    exact State.later_setPart (s := u) (by rfl) q
  · have hassigned := State.assigned_of_free (s := u) hst
    generalize ((((u.setLastErr p.toNat 0).keygen p.toNat).setPState p.toNat psConfig).xspliceUpdate p.toNat).leavesFree p.toNat = w
      at hassigned
    exact hassigned

theorem exists_commit {s : State} {m : Master} {p : BitVec 7} (hfirst : s.PrtFirst p.toNat) (htakes : s.Takes m (pgPrt p.toNat) 0x104 2)
    (hcheck : s.commitCheck p.toNat = 0) :
    ∃ t, exec (.commit m p 0xF) s = .next t ∧ t.pstate p.toNat = psActive ∧
      (∃ fr, (t.part p.toNat).held = { s.configured p.toNat with frames := fr } ∧
        (s.bit (Key.prtCfg p.toNat) 0 = false → fr = [])) ∧
      t.isSealed p.toNat = s.bit (Key.prtCfg p.toNat) 0 := by
  set u := s.noteOrder m (pgPrt p.toNat)
  set a := u.activated p.toNat (s.configured p.toNat)
  have hw : u.writePrtCmd p.toNat 2 = (a.sendShare p.toNat).kvpUpdate := State.writePrtCmd_commit (s := u) hcheck
  obtain ⟨hreg, hparts⟩ := a.committed_frame p.isLt
  have hpart : ∀ q, ((a.sendShare p.toNat).kvpUpdate).part q = (u.setPart p.toNat
      { u.part p.toNat with held := (u.setLastErr p.toNat 0).reserved p.toNat (s.configured p.toNat) }).part q :=
    State.part_congr (hparts.trans (u.activated_parts p.toNat _))
  refine State.exists_prtCommand hfirst htakes hw (fun q => ?_) ?_
  · rw [hpart q]
    exact State.later_setPart (s := u) (by rfl) q
  · have hstate : (a.sendShare p.toNat).kvpUpdate.pstate p.toNat = psActive :=
      (State.fld_congr hreg 2 0).trans (u.pstate_activated _ _)
    have hsealed : (a.sendShare p.toNat).kvpUpdate.isSealed p.toNat = s.bit (Key.prtCfg p.toNat) 0 := by
      unfold State.isSealed
      rw [State.bit_congr hreg]
      exact u.isSealed_activated p.isLt _
    have hheld := congrArg Part.held (hpart p.toNat)
    rw [State.part_setPart_same] at hheld
    obtain ⟨fr, hfr, hshared⟩ := (u.setLastErr p.toNat 0).reserved_eq p.toNat (s.configured p.toNat)
    generalize (a.sendShare p.toNat).kvpUpdate = w at hstate hsealed hheld
    exact ⟨hstate, ⟨fr, hheld.trans hfr, hshared⟩, hsealed⟩

theorem exists_drain {s : State} {m : Master} {p : BitVec 7} (hfirst : s.PrtFirst p.toNat) (htakes : s.Takes m (pgPrt p.toNat) 0x104 3)
    (hst : s.pstate p.toNat = psActive) (hnone : s.hasDeferred p.toNat = false) :
    ∃ t, exec (.drain m p 0xF) s = .next t ∧ t.pstate p.toNat = psDraining ∧ SameMemory s t := by
  set u := s.noteOrder m (pgPrt p.toNat)
  have hdeferred : ((u.setLastErr p.toNat 0).setPState p.toNat psDraining).hasDeferred p.toNat = false := by
    unfold State.hasDeferred
    rw [State.setPState_reqs]
    exact hnone
  have hw : u.writePrtCmd p.toNat 3 = (u.setLastErr p.toNat 0).setPState p.toNat psDraining :=
    (State.writePrtCmd_drain (s := u) hst).trans (State.refuseDeferred_of_none hdeferred)
  refine State.exists_prtCommand hfirst htakes hw (fun q => ?_) ?_
  · rw [State.part_congr (State.setPState_parts _ _ _)]
    rfl
  · have hstate := (u.setLastErr p.toNat 0).pstate_setPState p.toNat (show psDraining < 8 by decide)
    have hmem := (u.setLastErr p.toNat 0).setPState_mem p.toNat psDraining
    generalize (u.setLastErr p.toNat 0).setPState p.toNat psDraining = w at hstate hmem
    exact ⟨hstate, SameMemory.of_mem hmem⟩

theorem exists_reset {s : State} {m : Master} {p : BitVec 7} (hfirst : s.PrtFirst p.toNat) (htakes : s.Takes m (pgPrt p.toNat) 0x104 4)
    (hst : s.pstate p.toNat = psActive) (hnone : s.reqsLeft p.toNat = false) :
    ∃ t, exec (.reset m p 0xF) s = .next t ∧ t.pstate p.toNat = psResetting ∧ (t.part p.toNat).prior = psActive ∧ SameMemory s t := by
  set u := s.noteOrder m (pgPrt p.toNat)
  set v := (u.setLastErr p.toNat 0).setPart p.toNat { u.part p.toNat with prior := psActive }
  have hw : u.writePrtCmd p.toNat 4 = v.setPState p.toNat psResetting := State.writePrtCmd_reset (s := u) hst hnone
  have hpart : ∀ q, (v.setPState p.toNat psResetting).part q = v.part q := State.part_congr (v.setPState_parts _ _)
  refine State.exists_prtCommand hfirst htakes hw (fun q => ?_) ?_
  · rw [hpart q]
    exact State.later_setPart (s := u.setLastErr p.toNat 0) (by rfl) q
  · have hstate := v.pstate_setPState p.toNat (show psResetting < 8 by decide)
    have hprior := congrArg Part.prior (hpart p.toNat)
    rw [State.part_setPart_same] at hprior
    have hmem := v.setPState_mem p.toNat psResetting
    generalize v.setPState p.toNat psResetting = w at hstate hprior hmem
    exact ⟨hstate, hprior, SameMemory.of_mem hmem⟩

theorem exists_release {s : State} {m : Master} {p : BitVec 7} (hfirst : s.PrtFirst p.toNat) (htakes : s.Takes m (pgPrt p.toNat) 0x104 5)
    (hfree : s.pstate p.toNat ≠ psFree) (hrel : s.pstate p.toNat ≠ psReleasing) :
    ∃ t, exec (.release m p 0xF) s = .next t ∧ t.pstate p.toNat = psReleasing ∧ (t.part p.toNat).keyPair = false ∧
      (t.part p.toNat).destroy.isSome = true := by
  set u := s.noteOrder m (pgPrt p.toNat)
  set g := (u.setLastErr p.toNat 0).givenUp p.toNat
  set d := g.destroyKeys p.toNat false
  have hw : u.writePrtCmd p.toNat 5 = (d.setPState p.toNat psReleasing).kvpUpdate :=
    (State.writePrtCmd_release (s := u) hfree hrel).trans (State.beginRelease_eq _ _)
  have hpart : ∀ q, (d.setPState p.toNat psReleasing).kvpUpdate.part q = d.part q :=
    State.part_congr ((State.kvpUpdate_parts _).trans (d.setPState_parts _ _))
  have hgiven : ∀ q, g.part q = s.part q := State.part_congr ((u.setLastErr p.toNat 0).givenUp_parts p.toNat)
  refine State.exists_prtCommand hfirst htakes hw (fun q => ?_) ?_
  · rw [hpart q, ← hgiven q]
    exact g.later_destroyKeys p.toNat false q
  · obtain ⟨hpair, -, hdestroy⟩ := g.part_destroyKeys p.toNat false
    rw [← hpart] at hpair hdestroy
    have hstate : (d.setPState p.toNat psReleasing).kvpUpdate.pstate p.toNat = psReleasing :=
      (State.fld_congr (State.reg_kvpUpdate_prt _ p.isLt (by omega)) 2 0).trans (d.pstate_setPState p.toNat (by decide))
    generalize (d.setPState p.toNat psReleasing).kvpUpdate = w at hpair hdestroy hstate
    exact ⟨hstate, hpair, hdestroy⟩

/-! ### The ends of drain, reset and teardown -/

/-- A change of state alone. -/
theorem State.setPState_frame (s : State) (p st : Nat) :
    RegsBut [Key.prtState p, Key.irqStat (pgPrt p)] s (s.setPState p st) ∧ SameMemory s (s.setPState p st) := by
  refine ⟨fun k hk => ?_, SameMemory.of_mem (s.setPState_mem p st)⟩
  simp only [List.mem_cons, List.not_mem_nil, or_false, not_or] at hk
  obtain ⟨hstate, hirq⟩ := hk
  exact s.reg_setPState_ne st hstate hirq

theorem exec_drainDone {s : State} {p : BitVec 7} (hst : s.pstate p.toNat = psDraining) (hnone : s.reqsLeft p.toNat = false) :
    exec (.drainDone p) s = .next (s.setPState p.toNat psConfig) :=
  congrArg Host.Outcome.next (if_pos ⟨hst, hnone⟩)

theorem exec_resetDone {s : State} {p : BitVec 7} (hst : s.pstate p.toNat = psResetting) (hnone : s.reqsLeft p.toNat = false) :
    exec (.resetDone p) s = .next (s.setPState p.toNat (s.part p.toNat).prior) :=
  congrArg Host.Outcome.next (if_pos ⟨hst, hnone⟩)

end Sys2Proof.Machine
end

section
/-! TEARDOWN_COMPLETE, and the commands of a partition together (06 R111, R119). -/

namespace Sys2Proof

theorem SMap.get_filter {α : Type} (d : Nat → α) (m : SMap α) (keep : Nat → Bool) (k : Nat) :
    SMap.get d (m.filter fun e => keep e.1) k = if keep k then SMap.get d m k else d k := by
  induction m with
  | nil => simp
  | cons e m ih =>
    obtain ⟨j, v⟩ := e
    by_cases hj : j = k
    · subst hj
      cases hkeep : keep j with
      | true => simp [hkeep, SMap.get]
      | false => simpa [hkeep] using ih
    · cases hkeep : keep j with
      | true => simpa [hkeep, SMap.get, hj] using ih
      | false => simpa [hkeep, SMap.get, hj] using ih

namespace Machine

theorem State.reg_resetKeys (s : State) (lo hi k : Nat) :
    (s.resetKeys lo hi).reg k = if lo ≤ k ∧ k < hi then resetVal k else s.reg k := by
  refine (SMap.get_filter resetVal s.regs (fun j => !(decide (lo ≤ j) && decide (j < hi))) k).trans ?_
  by_cases h : lo ≤ k ∧ k < hi
  · simp [h]
  · have hkeep : (!(decide (lo ≤ k) && decide (k < hi))) = true := by simp only [← Bool.decide_and, h, decide_false, Bool.not_false]
    rw [if_neg h, hkeep]
    rfl

/-- A partition whose key destruction is confirmed, with what it held given up and its configuration at reset; its hidden part and its
state are still as they were (R111, R119). -/
def State.tornDown (s : State) (p : Nat) : State :=
  let s3 := (((s.garble p).hold p {}).resetKeys (Key.prtCfg p) (Key.prtCfg p + 1)).resetKeys (Key.prtYrdMask p) (Key.prtScrubPend p)
  let s4 := { s3 with
    fab := { s3.fab with
      walks := s3.fab.walks.filter fun w => decide (w.part ≠ p)
      flight := s3.fab.flight.filter fun m => decide (m.part ≠ p) }
    cnv := { s3.cnv with jobs := s3.cnv.jobs.filter fun j => decide (j.part ≠ p) } }
  ((s4.setLastErr p 0).setBit (Key.prtState p) 3 false).setBit (Key.prtState p) 5 false

theorem exec_teardownComplete_releasing {s : State} {p : BitVec 7} (hst : s.pstate p.toNat = psReleasing) :
    exec (.teardownComplete p) s =
      .next ((((s.tornDown p.toNat).setPart p.toNat {}).setPState p.toNat psFree).entersFree p.toNat).kvpUpdate :=
  congrArg Host.Outcome.next (if_pos hst)

theorem State.prtCfg_tornDown (s : State) (p : Nat) : (s.tornDown p).reg (Key.prtCfg p) = resetVal (Key.prtCfg p) := by
  have hne : Key.prtCfg p ≠ Key.prtState p := regKey_ne (by omega) (by omega) (by omega)
  unfold State.tornDown
  rw [State.reg_setBit_ne _ _ _ hne, State.reg_setBit_ne _ _ _ hne]
  refine (State.reg_setFld_ne _ _ _ _ hne).trans ?_
  set h := (s.garble p).hold p {}
  have hcfg := h.reg_resetKeys (Key.prtCfg p) (Key.prtCfg p + 1) (Key.prtCfg p)
  rw [if_pos (by omega)] at hcfg
  have hmask := (h.resetKeys (Key.prtCfg p) (Key.prtCfg p + 1)).reg_resetKeys (Key.prtYrdMask p) (Key.prtScrubPend p) (Key.prtCfg p)
  rw [if_neg (by simp only [Key.prtCfg, Key.prtYrdMask, regKey]; omega), hcfg] at hmask
  exact hmask

@[simp] theorem State.entersFree_parts (s : State) (p : Nat) : (s.entersFree p).parts = s.parts := rfl

theorem State.reg_entersFree (s : State) (p k : Nat) : (s.entersFree p).reg k = s.reg k := rfl

theorem exists_teardown {s : State} {p : BitVec 7} (hst : s.pstate p.toNat = psReleasing) :
    ∃ t, exec (.teardownComplete p) s = .next t ∧ t.pstate p.toNat = psFree ∧ t.part p.toNat = {} ∧
      t.reg (Key.prtCfg p.toNat) = resetVal (Key.prtCfg p.toNat) := by
  set u := (s.tornDown p.toNat).setPart p.toNat {}
  have hreg : ∀ off, off < 0x1000 → ((u.setPState p.toNat psFree).entersFree p.toNat).kvpUpdate.reg (regKey (pgPrt p.toNat) off) =
      (u.setPState p.toNat psFree).reg (regKey (pgPrt p.toNat) off) :=
    fun off ho => (State.reg_kvpUpdate_prt _ p.isLt ho).trans (State.reg_entersFree _ _ _)
  have hparts : ((u.setPState p.toNat psFree).entersFree p.toNat).kvpUpdate.parts = u.parts := by
    rw [State.kvpUpdate_parts, State.entersFree_parts, State.setPState_parts]
  refine ⟨_, exec_teardownComplete_releasing hst, ?_, ?_, ?_⟩
  · exact (State.fld_congr (hreg 0x100 (by omega)) 2 0).trans (u.pstate_setPState p.toNat (by decide))
  · exact (State.part_congr hparts _).trans (State.part_setPart_same _ _ _)
  · refine (hreg 0x108 (by omega)).trans ((u.reg_setPState_ne psFree ?_ ?_).trans (s.prtCfg_tornDown p.toNat))
    · exact regKey_ne (by omega) (by omega) (by omega)
    · exact regKey_ne (by omega) (by omega) (by omega)

/-- Settles O23: each command by what it does in the state that allows it, behind a gate that adds the notes of arbitration alone; the
hidden parts, with the commands put off in them, are untouched by the rest of a command's work. -/
theorem partitionCommands : Obligations.PartitionCommands := by
  unfold Obligations.PartitionCommands
  refine ⟨?_, ?_, ?_, ?_, ?_, ?_, ?_, ?_, ?_⟩
  · intro s m p hfirst htakes hst hready hrng
    exact exists_assign hfirst htakes hst hready hrng
  · intro s m p hfirst htakes hcheck
    exact exists_commit hfirst htakes hcheck
  · intro s m p hfirst htakes hcheck
    refine ⟨_, exec_commit m p 0xF s, State.prtCommand_of_lastErr hfirst htakes ?_⟩
    exact State.writePrtCmd_commit_refused (s := s.noteOrder m (pgPrt p.toNat)) hcheck
  · intro s m p hfirst htakes hst hnone
    exact exists_drain hfirst htakes hst hnone
  · intro s m p hfirst htakes hst hnone
    exact exists_reset hfirst htakes hst hnone
  · intro s m p hfirst htakes hfree hrel
    exact exists_release hfirst htakes hfree hrel
  · intro s p hst hnone
    exact ⟨_, exec_drainDone hst hnone, s.pstate_setPState p.toNat (by decide), s.setPState_frame p.toNat _⟩
  · intro s p hst hnone hprior
    exact ⟨_, exec_resetDone hst hnone, s.pstate_setPState p.toNat hprior, s.setPState_frame p.toNat _⟩
  · intro s p hst
    exact exists_teardown hst

end Machine
end Sys2Proof
end

section
/-! Keys, the scrub backlog, Function Level Resets and the random source (06 R117 to R120, R131; 04 R84; 22 R537; 28 R665). -/

namespace Sys2Proof.Machine

/-! ### Keys -/

theorem exec_keyFail {s : State} {p : BitVec 7} {t0 : Nat} (hd : (s.part p.toNat).destroy = some t0) (ht : t0 + 100000 ≤ s.tick)
    (hk : (s.part p.toNat).keyFailed = false) :
    exec (.keyFail p) s = .next ((s.setPart p.toNat { s.part p.toNat with keyFailed := true }).latch (pgPrt p.toNat) 2 0) := by
  show execKeyFail p s = _
  unfold execKeyFail
  simp only [hd, ht, hk, and_self, if_true]

/-- A latched fault alone: it stands, and no register but those of a latch and no byte of memory changes. -/
theorem State.latch_frame (s : State) (pg : Nat) {c : Nat} (d : Nat) (hc : c < 32) :
    (s.latch pg c d).Latched pg c ∧ RegsBut (latchKeys pg) s (s.latch pg c d) ∧ SameMemory s (s.latch pg c d) := by
  refine ⟨⟨s.bit_latch pg d hc, s.irq_latch pg c d⟩, fun k hk => ?_, SameMemory.of_mem (s.latch_mem pg c d)⟩
  simp only [latchKeys, List.mem_cons, List.not_mem_nil, or_false, not_or] at hk
  obtain ⟨hlatch, hinfo, hirq⟩ := hk
  exact s.reg_latch_ne pg c d hlatch hinfo hirq

/-! ### The scrub backlog -/

/-- A frame taken out of the backlog is in none of its items. -/
theorem splitScrub_find (l : List ScrubItem) (f : Nat) :
    (splitScrub l f).find? (fun e => decide (e.start ≤ f) && decide (f < e.start + e.len)) = none := by
  rw [List.find?_eq_none]
  intro x hx
  obtain ⟨e, -, hx⟩ := List.mem_flatMap.1 hx
  simp only [Bool.and_eq_true, decide_eq_true_eq]
  split at hx
  next hin =>
    rcases List.mem_append.1 hx with hx | hx
    · split at hx
      · cases List.mem_singleton.1 hx
        dsimp only
        omega
      · cases hx
    · split at hx
      · cases List.mem_singleton.1 hx
        dsimp only
        omega
      · cases hx
  next hout => exact List.mem_singleton.1 hx ▸ hout

/-- Bytes of memory once `[a, a + n)` is cleared. -/
theorem SMap.byte_clearRange (m : SMap Byte) (a n x : Nat) :
    SMap.byte (SMap.clearRange m a n) x = if a ≤ x ∧ x < a + n then 0 else SMap.byte m x := by
  refine (SMap.get_filter (fun _ => (0 : Byte)) m (fun j => !(decide (a ≤ j) && decide (j < a + n))) x).trans ?_
  by_cases h : a ≤ x ∧ x < a + n
  · simp [h]
  · have hkeep : (!(decide (a ≤ x) && decide (x < a + n))) = true := by simp only [← Bool.decide_and, h, decide_false, Bool.not_false]
    rw [if_neg h, hkeep]
    rfl

/-- Frame `f` overwritten, out of the backlog and free (R120). -/
def State.scrubbed (s : State) (f : Nat) : State :=
  { s with mem := { s.mem.zeroFrame f 1 with
      scrub := splitScrub s.mem.scrub f, fresh := (s.mem.zeroFrame f 1).fresh ++ [{ start := f, len := 1 }] } }

/-- A frame of the backlog whose partition has no unconfirmed key destruction is scrubbed; its pool's hold timer starts again. -/
theorem exec_scrubComplete {s : State} {f : Nat} {e : ScrubItem} (hin : s.inScrub f = some e)
    (hkey : ∀ p, e.part = some p → (s.part p).keyFailed = false) :
    ∃ pool, exec (.scrubComplete f true) s = .next ((s.scrubbed f).touchHold pool).kvpUpdate := by
  obtain ⟨start, len, part, key⟩ := e
  cases part with
  | none =>
    refine ⟨.unreserved, ?_⟩
    show execScrubComplete f true s = _
    simp only [execScrubComplete, hin, Bool.false_eq_true, if_false, if_true]
    rfl
  | some p =>
    refine ⟨(s.scrubbed f).poolOf p, ?_⟩
    show execScrubComplete f true s = _
    simp only [execScrubComplete, hin, hkey p rfl, Bool.false_eq_true, if_false, if_true]
    rfl

theorem State.inScrub_scrubbed (s : State) (f : Nat) : (s.scrubbed f).inScrub f = none := splitScrub_find _ f

theorem State.byteAt_scrubbed (s : State) (f a : Nat) :
    (s.scrubbed f).byteAt a = if f * 4096 ≤ a ∧ a < f * 4096 + 4096 then 0 else s.byteAt a :=
  SMap.byte_clearRange s.mem.bytes (f * 4096) (1 * 4096) a

/-! ### Function Level Resets -/

/-- A partition neither FREE nor RELEASING begins to lose its keys with a reset of its function, which waits for them (R119). -/
theorem exists_vfFlr {s : State} {n : BitVec 7} (hst : s.pstate n.toNat = psActive) :
    ∃ t, exec (.vfFlr n) s = .next t ∧ (t.part n.toNat).keyPair = false ∧ (t.part n.toNat).flr = true ∧
      (t.part n.toNat).destroy.isSome = true := by
  refine ⟨s.flr n.toNat, rfl, ?_⟩
  unfold State.flr
  extract_lets st s1 s2 s5 s3
  have hs3 : s3 = s2.destroyKeys n.toNat true := by
    have hactive : st = psActive := hst
    unfold s3
    rw [hactive, if_neg (by decide), if_neg (by decide)]
  rw [State.part_congr (State.kvpUpdate_parts _), hs3]
  exact s2.part_destroyKeys n.toNat true

/-- The confirmation that a Function Level Reset waits for, while the random source passes: a new pair. -/
theorem exec_teardownComplete_flr {s : State} {n : BitVec 7} (hst : s.pstate n.toNat ≠ psReleasing) (hflr : (s.part n.toNat).flr = true)
    (hrng : s.bit Key.secStat 31 = true) :
    exec (.teardownComplete n) s = .next
      (((s.garble n.toNat).setPart n.toNat { s.part n.toNat with destroy := none, flr := false, keyFailed := false }).keygen n.toNat) := by
  show execTeardownComplete n s = _
  unfold execTeardownComplete
  dsimp only
  rw [if_neg hst, if_pos hflr]
  exact congrArg Host.Outcome.next (if_pos hrng)

/-- A pair generated counts in two registers, and nothing else of registers and memory changes. -/
theorem State.keygen_frame (s : State) (p : Nat) :
    RegsBut [Key.prtKeygen p, Key.secKeygenCnt] s (s.keygen p) ∧ SameMemory s (s.keygen p) := by
  refine ⟨fun k hk => ?_, SameMemory.of_mem (s.keygen_mem p)⟩
  simp only [List.mem_cons, List.not_mem_nil, or_false, not_or] at hk
  obtain ⟨hgen, hcnt⟩ := hk
  exact s.reg_keygen p hgen hcnt

/-! ### Resets of the PF -/

/-- The block with every partition's function reset, before the PF's own vectors and queues are (22 R537). -/
def State.functionsReset (s : State) : State :=
  ((allParts.foldl State.flr s).resetHeader pgPci).resetKeys Key.pciStat (Key.pciStat + 0x100)

/-- What a reset of the PF does beside the functions' resets: the PF's vectors, the device-event queue, the Booms' test walks, and then
the registers of the host ring of the migration engine and of the test walks (22 R537). -/
theorem State.pfReset_eq (s : State) : s.pfReset = (List.range 4).foldl
    (fun t k => t.resetKeys (Key.bomTestLo k) (Key.bomTestStat k + 1))
      (({ s.functionsReset with
          msix := s.functionsReset.msix.filter fun e => decide (e.1 < 1536)
          eqs := s.functionsReset.eqs.filter fun e => decide (e.1 < 512)
          fab := { s.functionsReset.fab with walks := s.functionsReset.fab.walks.filter fun w => !w.test } } : State).resetKeys
        Key.pmgHrBaseLo (Key.pmgHrHead + 1)) := rfl

/-- What one reset of a stretch of registers keeps, a run of them keeps. -/
theorem State.foldl_resetKeys_induct {lo hi : Nat → Nat} {P : State → Prop} (hP : ∀ t a b, P t → P (t.resetKeys a b)) (l : List Nat)
    {s : State} (h : P s) : P (l.foldl (fun t i => t.resetKeys (lo i) (hi i)) s) :=
  List.foldlRecOn l _ h fun t ht _ _ => hP t _ _ ht

theorem State.msixAt_pfReset (s : State) {v : Nat} (hv : 1536 ≤ v) : s.pfReset.msixAt v = {} := by
  rw [State.pfReset_eq]
  refine State.foldl_resetKeys_induct (P := fun t => t.msixAt v = {}) (fun _ _ _ h => h) _ ?_
  refine (SMap.get_filter (fun _ => {}) s.functionsReset.msix (fun j => decide (j < 1536)) v).trans ?_
  rw [decide_eq_false (by omega), if_neg Bool.false_ne_true]

theorem State.eq_pfReset (s : State) : s.pfReset.eq 512 = {} := by
  rw [State.pfReset_eq]
  refine State.foldl_resetKeys_induct (P := fun t => t.eq 512 = {}) (fun _ _ _ h => h) _ ?_
  exact SMap.get_filter (fun _ => {}) s.functionsReset.eqs (fun j => decide (j < 512)) 512

theorem State.pmgHrCfg_pfReset (s : State) : s.pfReset.reg Key.pmgHrCfg = resetVal Key.pmgHrCfg := by
  rw [State.pfReset_eq]
  refine State.foldl_resetKeys_induct (P := fun t => t.reg Key.pmgHrCfg = resetVal Key.pmgHrCfg) (fun t a b h => ?_) _ ?_
  · rw [State.reg_resetKeys, h, ite_self]
  · rw [State.reg_resetKeys, if_pos (by decide)]

/-! ### The random source -/

theorem exec_rngFail {s : State} (hrng : s.bit Key.secStat 31 = true) :
    exec .rngFail s = .next (((s.setBit Key.secStat 31 false).latch pgSec 0 0).inc Key.secRngFailCnt) :=
  congrArg Host.Outcome.next (if_pos hrng)

/-- A failed random source: its bit, its count and its latch alone. -/
theorem State.rngFailed_frame (s : State) :
    let t := ((s.setBit Key.secStat 31 false).latch pgSec 0 0).inc Key.secRngFailCnt
    t.bit Key.secStat 31 = false ∧ t.Latched pgSec 0 ∧ t.reg Key.secRngFailCnt = satInc (s.reg Key.secRngFailCnt) ∧
      RegsBut (Key.secStat :: Key.secRngFailCnt :: latchKeys pgSec) s t ∧ SameMemory s t := by
  set u := s.setBit Key.secStat 31 false
  obtain ⟨⟨hlatch, hirq⟩, hregs, -⟩ := u.latch_frame pgSec (c := 0) 0 (by omega)
  have hinc : ∀ k, k ≠ Key.secRngFailCnt → ((u.latch pgSec 0 0).inc Key.secRngFailCnt).reg k = (u.latch pgSec 0 0).reg k :=
    fun k hk => State.reg_setReg_ne _ _ hk
  have hcnt : (u.latch pgSec 0 0).reg Key.secRngFailCnt = s.reg Key.secRngFailCnt :=
    (hregs _ (by decide)).trans (s.reg_setBit_ne 31 false (by decide))
  refine ⟨?_, ⟨?_, ?_⟩, ?_, fun k hk => ?_, ?_⟩
  · rw [State.bit_congr (hinc _ (by decide)), State.bit_congr (hregs _ (by decide))]
    exact s.bit_setBit_same false (by omega)
  · rw [State.bit_congr (hinc _ (by decide)), hlatch]
  · rw [State.bit_congr (hinc _ (by decide)), hirq]
  · rw [State.inc, State.reg_setReg_same, hcnt]
  · simp only [List.mem_cons, not_or] at hk
    obtain ⟨hstat, hfail, hkeys⟩ := hk
    rw [hinc k hfail, hregs k hkeys, s.reg_setBit_ne 31 false hstat]
  · refine SameMemory.of_mem ?_
    rw [State.inc_mem, State.latch_mem, State.setBit_mem]

theorem exec_rngOk (s : State) : exec .rngOk s = .next ((allParts.filter fun p =>
    ((s.setBit Key.secStat 31 true).devKeygen.part p).keyOwed).foldl State.keygen (s.setBit Key.secStat 31 true).devKeygen) := rfl

/-- The device pair exists after its generation, which counts in one register and is of no partition. -/
theorem State.devKeygen_frame (s : State) : s.devKeygen.boot.devPair = true ∧ s.devKeygen.parts = s.parts ∧
    RegsBut [Key.secKeygenCnt] s s.devKeygen ∧ s.devKeygen.mem = s.mem := by
  unfold State.devKeygen
  split
  next hpair => exact ⟨hpair, rfl, fun _ _ => rfl, rfl⟩
  next => exact ⟨rfl, rfl, fun k hk => State.reg_setReg_ne _ _ (by simpa using hk), rfl⟩

@[simp] theorem State.keygen_boot (s : State) (p : Nat) : (s.keygen p).boot = s.boot := by
  rw [State.keygen, State.inc_boot, State.inc_boot, State.setPart_boot]

/-- Pairs generated for a list of partitions. -/
theorem State.foldl_keygen_frame (l : List Nat) (s : State) :
    (l.foldl State.keygen s).boot = s.boot ∧ (l.foldl State.keygen s).mem = s.mem ∧
      (l.foldl State.keygen s).reg Key.secStat = s.reg Key.secStat := by
  refine List.foldlRecOn (motive := fun t : State => t.boot = s.boot ∧ t.mem = s.mem ∧ t.reg Key.secStat = s.reg Key.secStat) l _
    ⟨rfl, rfl, rfl⟩ fun t ⟨hboot, hmem, hreg⟩ p _ => ⟨(t.keygen_boot p).trans hboot, (t.keygen_mem p).trans hmem, ?_⟩
  rw [t.reg_keygen p (regKey_ne (by omega) (by omega) (by omega)) (by decide), hreg]

/-- A partition whose pair is generated has it from then on. -/
theorem State.part_foldl_keygen {l : List Nat} {s : State} {p : Nat}
    (h : p ∈ l ∨ (s.part p).keyPair = true ∧ (s.part p).keyOwed = false) :
    ((l.foldl State.keygen s).part p).keyPair = true ∧ ((l.foldl State.keygen s).part p).keyOwed = false := by
  induction l generalizing s with
  | nil => exact h.resolve_left List.not_mem_nil
  | cons q l ih =>
    rw [List.foldl_cons]
    refine ih ?_
    by_cases hq : p = q
    · subst hq
      rw [State.part_keygen_same]
      exact .inr ⟨rfl, rfl⟩
    · have hsame : (s.keygen q).part p = s.part p := (State.part_congr (s.keygen_parts q) p).trans (State.part_setPart_ne s _ hq)
      rw [hsame]
      exact h.imp_left fun hp => (List.mem_cons.1 hp).resolve_left hq

/-- Settles O25: each row by its equation and the frame of what it does. -/
theorem keysAndFunctionResets : Obligations.KeysAndFunctionResets := by
  unfold Obligations.KeysAndFunctionResets
  refine ⟨?_, ?_, ?_, ?_, ?_, ?_, ?_⟩
  · intro s p t0 hd ht hk
    set u := s.setPart p.toNat { s.part p.toNat with keyFailed := true }
    obtain ⟨hlatched, hregs, hmem⟩ := u.latch_frame (pgPrt p.toNat) (c := 2) 0 (by omega)
    refine ⟨_, exec_keyFail hd ht hk, ?_, hlatched, hregs, hmem⟩
    rw [State.part_congr (u.latch_parts _ _ _), State.part_setPart_same]
  · intro s f e hin hkey
    obtain ⟨pool, hexec⟩ := exec_scrubComplete hin hkey
    have hmem : ((s.scrubbed f).touchHold pool).kvpUpdate.mem = (s.scrubbed f).mem := State.kvpUpdate_mem _
    have hbyte : ∀ a, ((s.scrubbed f).touchHold pool).kvpUpdate.byteAt a =
        if f * 4096 ≤ a ∧ a < f * 4096 + 4096 then 0 else s.byteAt a :=
      fun a => (SameMemory.of_mem hmem a).trans (s.byteAt_scrubbed f a)
    refine ⟨_, hexec, ?_, fun a hlo hhi => ?_, fun a ha => ?_⟩
    · unfold State.inScrub
      rw [hmem]
      exact s.inScrub_scrubbed f
    · rw [hbyte, if_pos ⟨hlo, hhi⟩]
    · rw [hbyte, if_neg (by omega)]
  · intro s n hst _ _ _ _ _
    exact exists_vfFlr hst
  · intro s n hst hflr hrng
    set u := (s.garble n.toNat).setPart n.toNat { s.part n.toNat with destroy := none, flr := false, keyFailed := false }
    have hpart : u.part n.toNat = { s.part n.toNat with destroy := none, flr := false, keyFailed := false } :=
      State.part_setPart_same _ _ _
    refine ⟨_, exec_teardownComplete_flr hst hflr hrng, ?_, ?_, u.reg_prtKeygen_keygen n.toNat, u.keygen_frame n.toNat⟩
    · rw [State.part_keygen_same]
    · rw [State.part_keygen_same, hpart]
  · intro s
    exact ⟨s.pfReset, rfl, rfl, rfl, fun v hv => s.msixAt_pfReset hv, s.eq_pfReset, s.pmgHrCfg_pfReset⟩
  · intro s hrng
    exact ⟨_, exec_rngFail hrng, s.rngFailed_frame⟩
  · intro s
    set u := (s.setBit Key.secStat 31 true).devKeygen
    obtain ⟨hpair, hparts, hregs, hmem⟩ := (s.setBit Key.secStat 31 true).devKeygen_frame
    set l := allParts.filter fun p => (u.part p).keyOwed
    obtain ⟨hboot, hmem', hstat⟩ := u.foldl_keygen_frame l
    refine ⟨_, exec_rngOk s, ?_, ?_, fun p hp howed => ?_, SameMemory.of_mem (hmem'.trans hmem)⟩
    · rw [State.bit_congr (hstat.trans (hregs _ (by decide)))]
      exact s.bit_setBit_same true (by omega)
    · rw [hboot, hpair]
    · refine State.part_foldl_keygen (.inl (List.mem_filter.2 ⟨List.mem_range.2 hp, ?_⟩))
      rw [State.part_congr hparts]
      exact howed

end Sys2Proof.Machine
end

section
/-! The form that registers and memory keep in every step (03 R53; 08 R162; log entry 54). -/

namespace Sys2Proof.Machine

/-- A step keeps, of the state whose front command it took, all that every operation of the block keeps. -/
theorem step_keeps {s t : State} (hstep : step s = .next t) : Keeps { s with pending := s.pending.tail } t := by
  unfold step at hstep
  split at hstep
  case h_1 hq =>
    cases hstep
    exact State.idle_keeps { Keeps.refl s with queue := by simp [hq] }
  case h_2 c rest hq =>
    rw [hq]
    exact (exec_keeps c (Keeps.refl { s with pending := rest })).keeps t hstep

/-- Settles O5: the queue is no register and no byte, and what a step does to the rest keeps both forms. -/
theorem stepKeepsCanonical : Obligations.StepKeepsCanonical := by
  unfold Obligations.StepKeepsCanonical
  rintro s t ⟨hregs, hbytes⟩ hstep
  have hk := step_keeps hstep
  exact ⟨hk.regs hregs, hk.bytes hbytes⟩

end Sys2Proof.Machine
end

section
/-! Migration bursts from the device region and from the host ring (08 R166, R167, R169, R178; log entries 45 and 130). -/

namespace Sys2Proof.Machine

/-! ### The three commands -/

theorem exec_promote (src : BurstSrc) (d : HostRead (BitVec 512)) (l : HostRead (List (BitVec 64))) (s : State) :
    exec (.promote src d l) s = .next (s.pmgCommand 1 d l src).kvpUpdate := rfl

theorem exec_demote (src : BurstSrc) (d : HostRead (BitVec 512)) (l : HostRead (List (BitVec 64))) (s : State) :
    exec (.demote src d l) s = .next (s.pmgCommand 2 d l src).kvpUpdate := rfl

theorem exec_copy (src : BurstSrc) (d : HostRead (BitVec 512)) (l : HostRead (List (BitVec 64))) (s : State) :
    exec (.copy src d l) s = .next (s.pmgCommand 3 d l src).kvpUpdate := rfl

theorem opMatches_of_op {op : Nat} {d : BitVec 512} (hop : (pmgDesc d).op = op) : opMatches op d = true := by
  simp [opMatches, hop]

/-! ### Descriptors judged -/

/-- The source list that a descriptor in the device region names, as memory holds it. -/
abbrev State.sourceList (s : State) (x : PmgDesc) : List Nat := (List.range x.count).map fun i => s.rdNat (x.src + 8 * i) 8

theorem State.pmgCommand_device {s : State} {a : BitVec 43} {d : BitVec 512} {op : Nat} (r : HostRead (BitVec 512))
    (l : HostRead (List (BitVec 64))) (ha : inDevice a.toNat = true) (hd : d = BitVec.ofNat 512 (s.rdNat a.toNat 64))
    (hop : (pmgDesc d).op = op) :
    s.pmgCommand op r l (.device a) = s.pmgSubmit d (s.sourceList (pmgDesc d)) (.device a.toNat) := by
  subst hd
  exact if_pos ⟨ha, opMatches_of_op hop⟩

theorem State.pmgSubmit_device_ok {s : State} {d : BitVec 512} {src : List Nat} (a : Nat) (h : s.pmgOk (pmgDesc d) src false = true) :
    s.pmgSubmit d src (.device a) = s.submitBurst (s.pmgBurst (pmgDesc d) src (.device a)) := if_pos h

/-- A descriptor out of order: BAD_DESC is written back where it lies, and the burst is counted (R169). -/
theorem State.pmgSubmit_device_bad {s : State} {d : BitVec 512} {src : List Nat} (a : Nat) (h : s.pmgOk (pmgDesc d) src false = false) :
    s.pmgSubmit d src (.device a) = (s.wr (a + 0x38) [4, 0]).inc Key.pmgDoneCnt :=
  if_neg (Bool.eq_false_iff.1 h)

theorem State.pmgSubmit_ring_ok {s : State} {d : BitVec 512} {src : List Nat} (a : BitVec 64)
    (h : s.pmgOk (pmgDesc d) src true = true) :
    s.pmgSubmit d src (.ring a) = s.submitBurst (s.pmgBurst (pmgDesc d) src (.ring a)) := if_pos h

theorem State.moves_length_pmgBurst (s : State) (x : PmgDesc) (src : List Nat) (home : BurstHome) :
    (s.pmgBurst x src home).moves.length = src.length := by
  simp [State.pmgBurst]

/-- A burst command whose descriptor in the device region is in order submits the burst that it describes. -/
theorem exists_deviceBurst {s : State} {c : Instr} {a : BitVec 43} {d : BitVec 512} {r : HostRead (BitVec 512)}
    {l : HostRead (List (BitVec 64))} {op : Nat} (hc : exec c s = .next (s.pmgCommand op r l (.device a)).kvpUpdate)
    (ha : inDevice a.toNat = true) (hd : d = BitVec.ofNat 512 (s.rdNat a.toNat 64))
    (hok : s.pmgOk (pmgDesc d) (s.sourceList (pmgDesc d)) false = true) (hop : (pmgDesc d).op = op) :
    ∃ b, b.tag = (pmgDesc d).tag ∧ b.moves.length = (s.sourceList (pmgDesc d)).length ∧ b.op = op ∧ b.part = (pmgDesc d).part ∧
      exec c s = .next (s.submitBurst b).kvpUpdate := by
  refine ⟨s.pmgBurst (pmgDesc d) (s.sourceList (pmgDesc d)) (.device a.toNat), rfl, State.moves_length_pmgBurst .., hop, rfl, ?_⟩
  rw [hc, State.pmgCommand_device r l ha hd hop, State.pmgSubmit_device_ok _ hok]

/-! ### The host ring -/

/-- Where the slot at the ring's head lies in host memory. -/
abbrev State.headSlot (s : State) : BitVec 64 := s.slotAddr Key.pmgHrBaseLo Key.pmgHrBaseHi 64 (s.fld Key.pmgHrHead 9 0)

/-- The slot at the ring's head and its source list were read from host memory, and the head has gone on. -/
def State.ringFetched (s : State) (x : PmgDesc) : State :=
  ((s.emit (.hostRead 0 s.headSlot 64)).emit (.hostRead 0 (BitVec.ofNat 64 x.src) (8 * x.count))).setFld Key.pmgHrHead 9 0
    ((s.fld Key.pmgHrHead 9 0 + 1) % 2 ^ s.fld Key.pmgHrCfg 15 12)

theorem State.pmgHrHead_ringFetched (s : State) (x : PmgDesc) :
    (s.ringFetched x).fld Key.pmgHrHead 9 0 = (s.fld Key.pmgHrHead 9 0 + 1) % 2 ^ s.fld Key.pmgHrCfg 15 12 % 1024 :=
  State.fld_setFld_same _ _ (by omega)

/-- Whether a descriptor is in order is seen from memory alone. -/
theorem State.pmgOk_ringFetched (s : State) (x y : PmgDesc) (src : List Nat) (host : Bool) :
    (s.ringFetched x).pmgOk y src host = s.pmgOk y src host := rfl

theorem State.pmgCommand_ring {s : State} {d : BitVec 512} {op : Nat} (l : List (BitVec 64)) (hready : s.pmgRingReady = true)
    (hop : (pmgDesc d).op = op) :
    s.pmgCommand op (some d) (some l) .ring = (s.ringFetched (pmgDesc d)).pmgSubmit d (l.map BitVec.toNat) (.ring s.headSlot) :=
  (if_pos hready).trans (if_neg (by rw [opMatches_of_op hop]; decide))

/-- A slot that cannot be read latches HR_FETCH (R178). -/
theorem State.pmgCommand_ring_unread {s : State} (op : Nat) (l : HostRead (List (BitVec 64))) (hready : s.pmgRingReady = true) :
    s.pmgCommand op none l .ring = (s.emit (.hostRead 0 s.headSlot 64)).latch pgPmg 1 0 := if_pos hready

/-- A burst command that finds a descriptor in order at the ring's head takes it from the ring and submits the burst that it describes. -/
theorem exists_ringBurst {s : State} {c : Instr} {d : BitVec 512} {l : List (BitVec 64)} {op : Nat}
    (hc : exec c s = .next (s.pmgCommand op (some d) (some l) .ring).kvpUpdate) (hready : s.pmgRingReady = true)
    (hok : s.pmgOk (pmgDesc d) (l.map BitVec.toNat) true = true) (hop : (pmgDesc d).op = op) :
    ∃ (u : State) (b : Burst), b.tag = (pmgDesc d).tag ∧ b.moves.length = l.length ∧
      u.fld Key.pmgHrHead 9 0 = (s.fld Key.pmgHrHead 9 0 + 1) % 2 ^ s.fld Key.pmgHrCfg 15 12 % 1024 ∧
      exec c s = .next (u.submitBurst b).kvpUpdate := by
  set u := s.ringFetched (pmgDesc d)
  refine ⟨u, u.pmgBurst (pmgDesc d) (l.map BitVec.toNat) (.ring s.headSlot), rfl, ?_, s.pmgHrHead_ringFetched _, ?_⟩
  · rw [State.moves_length_pmgBurst, List.length_map]
  · rw [hc, State.pmgCommand_ring l hready hop, State.pmgSubmit_ring_ok _ ((s.pmgOk_ringFetched ..).trans hok)]

/-! ### Latches after KVP_STAT's update -/

theorem State.latched_kvpUpdate {s : State} {pg c : Nat} (hpg : pg ≠ pgKvp) (h : s.Latched pg c) : s.kvpUpdate.Latched pg c := by
  obtain ⟨hlatch, hirq⟩ := h
  have hlatchReg : s.kvpUpdate.reg (Key.fltLatch pg) = s.reg (Key.fltLatch pg) :=
    s.reg_kvpUpdate (regKey_ne (by omega) (by omega) (by omega)) (regKey_ne (by omega) (by omega) (by omega))
  have hirqReg : s.kvpUpdate.reg (Key.irqStat pg) = s.reg (Key.irqStat pg) :=
    s.reg_kvpUpdate (regKey_ne (by omega) (by omega) (by omega)) fun h => hpg (by unfold Key.irqStat regKey at h; omega)
  exact ⟨(State.bit_congr hlatchReg c).trans hlatch, (State.bit_congr hirqReg 0).trans hirq⟩

/-! ### Bursts submitted -/

theorem State.submitBurst_of_noQuota {s : State} {b : Burst} (hp : b.part < 128)
    (h : s.quota b.part b.dest.tier < b.moves.length * b.units) : s.submitBurst b = s.endBurst b.home b.tag 3 0 := if_pos ⟨hp, h⟩

theorem State.submitBurst_of_full {s : State} {b : Burst} (h : b.moves.length * b.units ≤ s.quota b.part b.dest.tier)
    (hfull : s.paging.waiting ≠ [] ∨ 16 ≤ s.paging.flight.length) :
    s.submitBurst b = { s with paging := { s.paging with waiting := s.paging.waiting ++ [b] } } :=
  (if_neg fun hq => Nat.not_lt.2 h hq.2).trans (if_pos hfull)

/-- Settles O26: in the device region and on the host ring one argument serves the three commands, by the equation of each. -/
theorem migrationBursts : Obligations.MigrationBursts := by
  unfold Obligations.MigrationBursts
  refine ⟨?_, ?_, ?_, ?_, ?_, ?_⟩
  · rintro s a d _ r l ha hd rfl hok
    exact ⟨exists_deviceBurst (exec_promote ..) ha hd hok, exists_deviceBurst (exec_demote ..) ha hd hok,
      exists_deviceBurst (exec_copy ..) ha hd hok⟩
  · intro s d l hready hok
    exact ⟨exists_ringBurst (exec_promote ..) hready hok, exists_ringBurst (exec_demote ..) hready hok,
      exists_ringBurst (exec_copy ..) hready hok⟩
  · intro s a d r l ha hd hop hbad
    rw [exec_promote, State.pmgCommand_device r l ha hd hop, State.pmgSubmit_device_bad _ hbad]
  · intro s l hready
    set u := s.emit (.hostRead 0 s.headSlot 64)
    obtain ⟨hlatched, hregs, hmem⟩ := u.latch_frame pgPmg (c := 1) 0 (by omega)
    refine ⟨(u.latch pgPmg 1 0).kvpUpdate, ?_, State.latched_kvpUpdate (by decide) hlatched, ?_, ?_⟩
    · rw [exec_promote, State.pmgCommand_ring_unread 1 l hready]
    · exact State.fld_congr ((State.reg_kvpUpdate _ (by decide) (by decide)).trans (hregs Key.pmgHrHead (by decide))) 9 0
    · exact fun x => (SameMemory.of_mem (State.kvpUpdate_mem _) x).trans (hmem x)
  · intro s b hp h
    exact State.submitBurst_of_noQuota hp h
  · intro s b h hfull
    rw [State.submitBurst_of_full h hfull]
    exact ⟨rfl, fun _ => rfl⟩

end Sys2Proof.Machine
end

section
/-! A lost stack while a burst that waits has no page left to move (08 R166, R170, R174). -/

namespace Sys2Proof.Machine

/-- A burst of a descriptor in the device region, whose one page was aborted. -/
def abortedBurst : Burst :=
  { op := 1, part := 3, key := 3, tag := 77, units := 4, moves := [{ src := 0x18000000, dst := 0, entry := none, st := .aborted }],
    dest := ⟨.unreserved, .near⟩, home := .device 0x1700000000 }

/-- Both stacks of near region 0 in service after reset, no burst in flight, and that burst waiting for its turn. -/
def abortedBurstWaits : State :=
  { (State.reset.setBit (unitReg 0 0x100) 1 true).setBit (unitReg 1 0x100) 1 true with paging := { waiting := [abortedBurst] } }

/-- The loss completes the burst, which writes PARTIAL back into its descriptor (R170). -/
theorem abortedBurstWaits_status : (abortedBurstWaits.failMemory 0).byteAt 0x1700000038 = 1 := by decide +kernel

/-- Refutes O28: its clause of a lost stack says that no byte changes, but of the bursts its conditions shut out only those in flight,
and the loss completes every burst that has no page left to move. In `abortedBurstWaits` such a burst waits, a state that the statement's
`∀ s` admits, and its status is written to memory. -/
theorem not_memoryUnits : ¬ Obligations.MemoryUnits := by
  unfold Obligations.MemoryUnits
  rintro ⟨-, -, -, hlost, -⟩
  have honline : abortedBurstWaits.bit (unitReg 0 0x100) 1 = true := by decide +kernel
  obtain ⟨⟨t, hexec, -, -, -, hsame⟩, -⟩ := hlost abortedBurstWaits .near 0 0 rfl honline rfl rfl rfl rfl
  have ht : abortedBurstWaits.failMemory 0 = t := Host.Outcome.next.inj hexec
  have hbyte : (abortedBurstWaits.failMemory 0).byteAt 0x1700000038 = abortedBurstWaits.byteAt 0x1700000038 := by
    rw [ht]
    exact hsame _
  exact absurd (abortedBurstWaits_status.symm.trans hbyte) (by decide)

end Sys2Proof.Machine
end

section
/-! Numbers: what a format's bits hold and what rounding to it gives (00 Notation; 11 R246; 13 R291; 14 R318, R320). -/

namespace Sys2Proof.Machine

/-! ### Shifts that round -/

/-- A shift that rounds goes up past the half, and at the half from an odd quotient. -/
theorem shrRne_succ (m d : Nat) :
    shrRne m (d + 1) = if 2 ^ d < m % 2 ^ (d + 1) ∨ (m % 2 ^ (d + 1) = 2 ^ d ∧ m / 2 ^ (d + 1) % 2 = 1)
      then m / 2 ^ (d + 1) + 1 else m / 2 ^ (d + 1) := by
  simp only [shrRne, Nat.shiftRight_eq_div_pow, Nat.add_one_ne_zero, if_false, Nat.add_sub_cancel]

/-- The rounded quotient is at most half a unit off, and even where it is half a unit off. -/
theorem shrRne_nearest (m d : Nat) :
    2 * ((shrRne m d * 2 ^ d : Int) - m).natAbs ≤ 2 ^ d ∧
      (2 * ((shrRne m d * 2 ^ d : Int) - m).natAbs = 2 ^ d → shrRne m d % 2 = 0) := by
  cases d with
  | zero => simp [shrRne]
  | succ d =>
    have hunit : 2 ^ (d + 1) = 2 * 2 ^ d := Nat.pow_succ'
    have hm : 2 ^ (d + 1) * (m / 2 ^ (d + 1)) + m % 2 ^ (d + 1) = m := Nat.div_add_mod m _
    have hr : m % 2 ^ (d + 1) < 2 ^ (d + 1) := Nat.mod_lt _ (by positivity)
    rw [shrRne_succ]
    have hcast : ((2 : Int) ^ (d + 1)) = ((2 ^ (d + 1) : Nat) : Int) := by push_cast; rfl
    rw [hcast]
    generalize m / 2 ^ (d + 1) = q at *
    generalize m % 2 ^ (d + 1) = r at *
    split
    next hup =>
      have hmul : (((q + 1 : Nat) : Int) * ((2 ^ (d + 1) : Nat) : Int)) = ((2 ^ (d + 1) * q + 2 ^ (d + 1) : Nat) : Int) := by
        push_cast; ring
      rw [hmul]
      omega
    next hdown =>
      have hmul : ((q : Int) * ((2 ^ (d + 1) : Nat) : Int)) = ((2 ^ (d + 1) * q : Nat) : Int) := by push_cast; ring
      rw [hmul]
      omega

/-- Rounding a quotient below a power of two does not pass it. -/
theorem shrRne_le {m n d : Nat} (h : m < 2 ^ (n + d)) : shrRne m d ≤ 2 ^ n := by
  have hq : m / 2 ^ d < 2 ^ n := Nat.div_lt_of_lt_mul (by rwa [← Nat.pow_add, Nat.add_comm])
  cases d with
  | zero => simpa [shrRne] using h.le
  | succ d =>
    rw [shrRne_succ]
    split <;> omega

/-! ### Magnitudes in units -/

theorem toUnits_self (m : Nat) (e : Int) : toUnits m e e = m := by simp [toUnits]

theorem lt_two_pow_bitLen (m : Nat) : m < 2 ^ bitLen m := by
  unfold bitLen
  split
  next h => simp [h]
  next => exact Nat.lt_log2_self

theorem bitLen_le {m n : Nat} (h : m < 2 ^ n) : bitLen m ≤ n := by
  unfold bitLen
  split
  next => exact Nat.zero_le n
  next hm => exact (Nat.log2_lt hm).2 h

theorem lt_bitLen {m n : Nat} (h : 2 ^ n ≤ m) : n < bitLen m :=
  (Nat.pow_lt_pow_iff_right (by decide)).1 (h.trans_lt (lt_two_pow_bitLen m))

/-- In units of which it has at most `n` bits, a magnitude rounds to at most `2 ^ n`. -/
theorem toUnits_le {m n : Nat} {e u : Int} (h : e + bitLen m ≤ u + n) : toUnits m e u ≤ 2 ^ n := by
  unfold toUnits
  split
  next hu =>
    calc m <<< (e - u).toNat = m * 2 ^ (e - u).toNat := Nat.shiftLeft_eq ..
      _ ≤ 2 ^ bitLen m * 2 ^ (e - u).toNat := Nat.mul_le_mul_right _ (lt_two_pow_bitLen m).le
      _ = 2 ^ (bitLen m + (e - u).toNat) := (Nat.pow_add ..).symm
      _ ≤ 2 ^ n := Nat.pow_le_pow_right (by decide) (by omega)
  next hu =>
    exact shrRne_le ((lt_two_pow_bitLen m).trans_le (Nat.pow_le_pow_right (by decide) (by omega)))

/-! ### The bits of a format -/

/-- A format whose fields fill its bits: it has fraction bits, and OCP E4M3 has its own 4 and 3 bits (13 R291). -/
structure Fmt.Regular (f : Fmt) : Prop where
  eb_pos : 2 ≤ f.eb
  mb_pos : 1 ≤ f.mb
  e4m3_bits : f.e4m3 = true → f.eb = 4 ∧ f.mb = 3

theorem formats_regular : ∀ f ∈ [fmt32, fmt16, fmtBf, fmtE4, fmtE5], f.Regular := by
  intro f hf
  simp only [List.mem_cons, List.not_mem_nil, or_false] at hf
  rcases hf with rfl | rfl | rfl | rfl | rfl <;> exact ⟨by decide, by decide, by decide⟩

/-- The value of a sign, an exponent field and a fraction field. -/
def Fmt.value (f : Fmt) (neg : Bool) (ex fr : Nat) : Fp :=
  if f.e4m3 then
    if ex = 15 ∧ fr = 7 then .nan
    else if ex = 0 then .fin neg fr f.low else .fin neg (2 ^ f.mb + fr) (f.low + ex - 1)
  else if ex = 2 ^ f.eb - 1 then (if fr = 0 then .inf neg else .nan)
  else if ex = 0 then .fin neg fr f.low else .fin neg (2 ^ f.mb + fr) (f.low + ex - 1)

/-- The magnitude bits of a format's first pattern that is no finite number: NaN for E4M3, an infinity otherwise. -/
def Fmt.finEnd (f : Fmt) : Nat := if f.e4m3 then 0x7F else (2 ^ f.eb - 1) * 2 ^ f.mb

/-- Bits are read as a sign, an exponent field and a fraction field. -/
theorem Fmt.decode_signBit (f : Fmt) (neg : Bool) {b : Nat} (hb : b < 2 ^ (f.eb + f.mb)) :
    f.decode (f.signBit neg + b) = f.value neg (b / 2 ^ f.mb) (b % 2 ^ f.mb) := by
  have hdiv : b / 2 ^ f.mb < 2 ^ f.eb := Nat.div_lt_of_lt_mul (by rwa [← Nat.pow_add, Nat.add_comm])
  have hneg : (f.signBit neg + b).testBit (f.eb + f.mb) = neg := by
    cases neg with
    | true => simp [Fmt.signBit, Nat.testBit_two_pow_add_eq, Nat.testBit_lt_two_pow hb]
    | false => simp [Fmt.signBit, Nat.testBit_lt_two_pow hb]
  have hsign : f.signBit neg = 2 ^ f.mb * (2 ^ f.eb * (if neg then 1 else 0)) := by
    cases neg <;> simp [Fmt.signBit, Nat.pow_add, Nat.mul_comm]
  have hex : (f.signBit neg + b) / 2 ^ f.mb % 2 ^ f.eb = b / 2 ^ f.mb := by
    rw [hsign, Nat.mul_add_div (by positivity), Nat.mul_add_mod, Nat.mod_eq_of_lt hdiv]
  have hfr : (f.signBit neg + b) % 2 ^ f.mb = b % 2 ^ f.mb := by
    rw [hsign, Nat.mul_add_mod]
  unfold Fmt.decode
  rw [hneg, hex, hfr]
  rfl

/-- A bit pattern of a format's width is its sign bit and its magnitude bits. -/
theorem Fmt.bits_split (f : Fmt) {w : Nat} (hw : w < 2 ^ (1 + f.eb + f.mb)) :
    ∃ neg, ∃ b, b < 2 ^ (f.eb + f.mb) ∧ w = f.signBit neg + b := by
  have htwo : 2 ^ (1 + f.eb + f.mb) = 2 * 2 ^ (f.eb + f.mb) := by rw [Nat.add_assoc, Nat.pow_add, Nat.pow_one]
  by_cases h : w < 2 ^ (f.eb + f.mb)
  · exact ⟨false, w, h, by simp [Fmt.signBit]⟩
  · exact ⟨true, w - 2 ^ (f.eb + f.mb), by omega, by simp only [Fmt.signBit, if_true]; omega⟩

/-- Fields hold a finite number where they lie, as magnitude bits, before the first that are none. -/
theorem Fmt.isFin_value {f : Fmt} (hf : f.Regular) (neg : Bool) {ex fr : Nat} (hex : ex < 2 ^ f.eb) (hfr : fr < 2 ^ f.mb) :
    (f.value neg ex fr).isFin = true ↔ ex * 2 ^ f.mb + fr < f.finEnd := by
  unfold Fmt.value Fmt.finEnd
  cases he : f.e4m3 with
  | true =>
    obtain ⟨h1, h2⟩ := hf.e4m3_bits he
    rw [h1] at hex
    rw [h2] at hfr ⊢
    simp only [if_true]
    split
    next h => simp only [Fp.isFin, Bool.false_eq_true, false_iff]; omega
    next h => split <;> simp only [Fp.isFin, true_iff] <;> omega
  | false =>
    have hlt : ex * 2 ^ f.mb + fr < (2 ^ f.eb - 1) * 2 ^ f.mb ↔ ex < 2 ^ f.eb - 1 := by
      rw [← Nat.div_lt_iff_lt_mul (by positivity), Nat.mul_comm, Nat.mul_add_div (by positivity), Nat.div_eq_of_lt hfr, Nat.add_zero]
    simp only [Bool.false_eq_true, if_false, hlt]
    split
    next h => split <;> simp only [Fp.isFin, Bool.false_eq_true, false_iff] <;> omega
    next h => split <;> simp only [Fp.isFin, true_iff] <;> omega

theorem Fmt.finEnd_le {f : Fmt} (hf : f.Regular) : f.finEnd ≤ 2 ^ (f.eb + f.mb) := by
  unfold Fmt.finEnd
  split
  next h =>
    obtain ⟨h1, h2⟩ := hf.e4m3_bits h
    simp [h1, h2]
  next => rw [Nat.pow_add]; exact Nat.mul_le_mul_right _ (Nat.sub_le ..)

/-- Magnitude bits decode, with either sign, to a finite number where they lie before the first that are none. -/
theorem Fmt.isFin_decode_iff {f : Fmt} (hf : f.Regular) (neg : Bool) {b : Nat} (hb : b < 2 ^ (f.eb + f.mb)) :
    (f.decode (f.signBit neg + b)).isFin = true ↔ b < f.finEnd := by
  have hex : b / 2 ^ f.mb < 2 ^ f.eb := Nat.div_lt_of_lt_mul (by rwa [← Nat.pow_add, Nat.add_comm])
  rw [f.decode_signBit neg hb, Fmt.isFin_value hf neg hex (Nat.mod_lt _ (by positivity)), Nat.div_add_mod']

theorem Fmt.isFin_decode {f : Fmt} (hf : f.Regular) (neg : Bool) {b : Nat} (hb : b < f.finEnd) :
    (f.decode (f.signBit neg + b)).isFin = true :=
  (Fmt.isFin_decode_iff hf neg (hb.trans_le (Fmt.finEnd_le hf))).2 hb

/-! ### Packing and rounding -/

/-- The bits of a magnitude of `n` units of `2 ^ u`, with `n` of at most the significand's bits: none beyond the format. -/
def Fmt.pack (f : Fmt) (n : Nat) (u : Int) : Option Nat :=
  if n < 2 ^ f.mb then some n
  else
    let ex := (u - f.low).toNat + 1
    let lim := if f.e4m3 then ex < 16 ∧ ¬(ex = 15 ∧ n = 2 ^ f.mb + 7) else ex < 2 ^ f.eb - 1
    if lim then some (ex * 2 ^ f.mb + (n - 2 ^ f.mb)) else none

/-- The exponent of the unit to which a magnitude is rounded: its last significand bit's, or a subnormal's. -/
def Fmt.unit (f : Fmt) (m : Nat) (e : Int) : Int := max (e + bitLen m - 1 - f.mb) f.low

/-- A magnitude is rounded to units, and packed; where it rounds up to a power of two, in units twice as large. -/
theorem Fmt.roundMag_eq (f : Fmt) {m : Nat} (hm : m ≠ 0) (e : Int) :
    f.roundMag m e = if toUnits m e (f.unit m e) = 2 ^ (f.mb + 1) then f.pack (2 ^ f.mb) (f.unit m e + 1)
      else f.pack (toUnits m e (f.unit m e)) (f.unit m e) :=
  (if_neg hm).trans (apply_ite (fun x : Nat × Int => f.pack x.1 x.2) ..)

/-- What is packed lies before the first bits that are no finite number. -/
theorem Fmt.lt_finEnd_of_pack {f : Fmt} (hf : f.Regular) {n b : Nat} {u : Int} (hn : n < 2 ^ (f.mb + 1)) (h : f.pack n u = some b) :
    b < f.finEnd := by
  have heb : 4 ≤ 2 ^ f.eb := Nat.pow_le_pow_right (n := 2) (by decide) hf.eb_pos
  have hmb : 2 ^ (f.mb + 1) = 2 * 2 ^ f.mb := Nat.pow_succ'
  unfold Fmt.pack at h
  generalize (u - f.low).toNat + 1 = ex at h
  unfold Fmt.finEnd
  cases he : f.e4m3 with
  | true =>
    obtain ⟨h1, h2⟩ := hf.e4m3_bits he
    simp only [he, h2, if_true] at h hn ⊢
    split at h
    · cases h; omega
    · split at h
      · cases h; omega
      · cases h
  | false =>
    simp only [he, Bool.false_eq_true, if_false] at h ⊢
    split at h
    · cases h
      exact lt_of_lt_of_le ‹_› (Nat.le_mul_of_pos_left _ (by omega))
    · split at h
      next hex =>
        cases h
        calc ex * 2 ^ f.mb + (n - 2 ^ f.mb) < ex * 2 ^ f.mb + 2 ^ f.mb := by omega
          _ = (ex + 1) * 2 ^ f.mb := (Nat.succ_mul ..).symm
          _ ≤ (2 ^ f.eb - 1) * 2 ^ f.mb := Nat.mul_le_mul_right _ (by omega)
      next => cases h

/-- What a magnitude rounds to, unless it overflows, is a finite number. -/
theorem Fmt.lt_finEnd_of_roundMag {f : Fmt} (hf : f.Regular) {m b : Nat} {e : Int} (h : f.roundMag m e = some b) : b < f.finEnd := by
  have hpos : 2 ^ f.mb < 2 ^ (f.mb + 1) := Nat.pow_lt_pow_right (by decide) (by omega)
  by_cases hm : m = 0
  · subst hm
    exact Fmt.lt_finEnd_of_pack hf (n := 0) (u := 0) (by positivity) (by simpa [Fmt.roundMag, Fmt.pack] using h)
  · have hle : toUnits m e (f.unit m e) ≤ 2 ^ (f.mb + 1) :=
      toUnits_le (by have : e + bitLen m - 1 - f.mb ≤ f.unit m e := le_max_left ..; push_cast; omega)
    rw [f.roundMag_eq hm] at h
    split at h
    next => exact Fmt.lt_finEnd_of_pack hf hpos h
    next hne => exact Fmt.lt_finEnd_of_pack hf (lt_of_le_of_ne hle hne) h

theorem Fmt.maxBits_lt {f : Fmt} (hf : f.Regular) : f.maxBits < f.finEnd := by
  have heb : 4 ≤ 2 ^ f.eb := Nat.pow_le_pow_right (n := 2) (by decide) hf.eb_pos
  have : 0 < (2 ^ f.eb - 1) * 2 ^ f.mb := Nat.mul_pos (by omega) (by positivity)
  unfold Fmt.maxBits Fmt.finEnd
  split <;> omega

/-- A saturating conversion of anything but NaN ends in a sign and a finite magnitude. -/
theorem Fmt.isFin_encodeSat {f : Fmt} (hf : f.Regular) {x : Fp} (hx : x.isNan = false) : (f.decode (f.encodeSat x).1).isFin = true := by
  cases x with
  | nan => exact absurd hx (by decide)
  | inf neg => exact Fmt.isFin_decode hf neg (Fmt.maxBits_lt hf)
  | fin neg m e =>
    cases h : f.roundMag m e with
    | none =>
      simp only [Fmt.encodeSat, h]
      exact Fmt.isFin_decode hf neg (Fmt.maxBits_lt hf)
    | some b =>
      simp only [Fmt.encodeSat, h]
      exact Fmt.isFin_decode hf neg (Fmt.lt_finEnd_of_roundMag hf h)

/-- A magnitude that a format holds exactly, normal or subnormal, is packed as it is. -/
theorem Fmt.roundMag_exact (f : Fmt) {m : Nat} {e : Int} (hm : m < 2 ^ (f.mb + 1)) (he : f.low ≤ e) (h : e = f.low ∨ 2 ^ f.mb ≤ m) :
    f.roundMag m e = f.pack m e := by
  by_cases h0 : m = 0
  · subst h0; simp [Fmt.roundMag, Fmt.pack]
  · have hle := bitLen_le hm
    have hunit : f.unit m e = e := by
      unfold Fmt.unit
      rcases h with rfl | h
      · exact max_eq_right (by omega)
      · have hlt := lt_bitLen h
        rw [show e + bitLen m - 1 - f.mb = e by omega, max_eq_left he]
    rw [f.roundMag_eq h0, hunit, toUnits_self, if_neg hm.ne]

/-- A normal number within the format is packed into its exponent and fraction fields. -/
theorem Fmt.pack_normal {f : Fmt} (hf : f.Regular) {ex fr : Nat} (hex : ex ≠ 0) (hfr : fr < 2 ^ f.mb)
    (h : ex * 2 ^ f.mb + fr < f.finEnd) :
    f.pack (2 ^ f.mb + fr) (f.low + ex - 1) = some (ex * 2 ^ f.mb + fr) := by
  have hfield : (f.low + ex - 1 - f.low).toNat + 1 = ex := by omega
  unfold Fmt.finEnd at h
  unfold Fmt.pack
  rw [if_neg (by omega)]
  simp only [hfield, Nat.add_sub_cancel_left]
  refine if_pos ?_
  cases he : f.e4m3 with
  | true =>
    obtain ⟨h1, h2⟩ := hf.e4m3_bits he
    simp only [he, h2, if_true] at h hfr ⊢
    omega
  | false =>
    simp only [he, Bool.false_eq_true, if_false] at h ⊢
    exact Nat.lt_of_mul_lt_mul_right ((Nat.le_add_right ..).trans_lt h)

/-- The fields of a finite number are a subnormal's or a normal number's. -/
theorem Fmt.value_of_isFin {f : Fmt} {neg : Bool} {ex fr : Nat} (h : (f.value neg ex fr).isFin = true) :
    f.value neg ex fr = if ex = 0 then .fin neg fr f.low else .fin neg (2 ^ f.mb + fr) (f.low + ex - 1) := by
  unfold Fmt.value at h ⊢
  split at h <;> split at h
  next => exact absurd h (by decide)
  next he hn => rw [if_pos he, if_neg hn]
  next => split at h <;> exact absurd h Bool.false_ne_true
  next he hn => rw [if_neg he, if_neg hn]

/-- A finite number rounds to the fields it was read from. -/
theorem Fmt.encode_value {f : Fmt} (hf : f.Regular) (neg : Bool) {ex fr : Nat} (hfr : fr < 2 ^ f.mb)
    (hfin : (f.value neg ex fr).isFin = true) (h : ex * 2 ^ f.mb + fr < f.finEnd) :
    f.encode (f.value neg ex fr) = f.signBit neg + (ex * 2 ^ f.mb + fr) := by
  have hmb : 2 ^ (f.mb + 1) = 2 * 2 ^ f.mb := Nat.pow_succ'
  rw [Fmt.value_of_isFin hfin]
  by_cases hex : ex = 0
  · rw [if_pos hex, Fmt.encode, f.roundMag_exact (by omega) le_rfl (.inl rfl), Fmt.pack, if_pos hfr, Option.getD_some, hex, Nat.zero_mul,
      Nat.zero_add]
  · rw [if_neg hex, Fmt.encode, f.roundMag_exact (by omega) (by omega) (.inr (by omega)), Fmt.pack_normal hf hex hfr h, Option.getD_some]

/-- Settles O39: a finite pattern is packed back into its own fields, the rounding shift by its remainder against the half, and
a saturating conversion by what packing leaves below the first pattern that is no finite number. -/
theorem numbersRound : Obligations.NumbersRound := by
  unfold Obligations.NumbersRound
  refine ⟨?_, shrRne_nearest, ?_⟩
  · intro f hf w hw hfin
    have hreg := formats_regular f hf
    obtain ⟨neg, b, hb, rfl⟩ := f.bits_split hw
    have hend := (Fmt.isFin_decode_iff hreg neg hb).1 hfin
    rw [f.decode_signBit neg hb] at hfin ⊢
    rw [Fmt.encode_value hreg neg (Nat.mod_lt _ (by positivity)) hfin (by rwa [Nat.div_add_mod']), Nat.div_add_mod']
  · intro f hf x hx
    exact Fmt.isFin_encodeSat (formats_regular f hf) hx

end Sys2Proof.Machine
end

section
/-! Plans bound to a Spar and decode walks started on one (11 R242, R243; 12 R261, R277). -/

namespace Sys2Proof.Machine

/-- What each step of a fold leaves, the fold leaves. -/
theorem State.foldl_same {α β : Type} {g : State → β} {f : State → α → State} (hf : ∀ t x, g (f t x) = g t) (l : List α)
    (s : State) : g (l.foldl f s) = g s := by
  induction l generalizing s with
  | nil => rfl
  | cons x l ih => exact (ih (f s x)).trans (hf s x)

/-! ### Plans -/

theorem exec_planBind (p : BitVec 7) (h : BitVec 16) (plan spar : BitVec 2) (s : State) :
    exec (.planBind p h plan spar) s = execPlanBind p h plan spar s := rfl

/-- Where a plan's units are free and suffice, no idle plan gives its own up. -/
theorem State.tryBind_of_fit {s : State} {m : Model} {j k : Nat} {d : Demand} {b : BoundPlan} (h : s.fitModel m j k d = some b)
    (l : List BoundPlan) : s.tryBind m j k d l = (s.bindPlan m b, true) := by
  cases l <;> simp only [State.tryBind, h]

/-- A plan of a loaded image that is bound nowhere, with no work ahead of it, is tried on the Spar as things stand. -/
theorem exec_planBind_of_unbound {s : State} {p : BitVec 7} {h : BitVec 16} {plan spar : BitVec 2} {m : Model}
    (hm : s.model p.toNat h.toNat = some m) (hst : m.st ≠ .loading) (hplan : plan.toNat < planCount (s.section m 2))
    (hnone : (s.fab.plans.find? fun x => decide (x.part = m.part) && decide (x.handle = m.handle) && decide (x.plan = plan.toNat)) = none) :
    exec (.planBind p h plan spar) s = .next (if s.bindAhead m plan.toNat spar.toNat = true then s else
      let r := s.tryBind m plan.toNat spar.toNat (demandOf (s.section m 2) plan.toNat) (s.displaceable m.part)
      if r.2 then r.1 else s) := by
  rw [exec_planBind]
  simp only [execPlanBind, hm, hnone, hst, Nat.not_le.2 hplan, ne_eq, reduceCtorEq, not_false_eq_true, decide_true, List.filter_true,
    Bool.true_eq_false, false_or]

/-- The units that a plan is bound with are those of the Spar on which it fits. -/
theorem State.fitModel_spar {s : State} {m : Model} {j k : Nat} {d : Demand} {b : BoundPlan} (h : s.fitModel m j k d = some b) :
    b.spar = k := by
  unfold State.fitModel State.fitPlan at h
  dsimp only at h
  split at h
  · split at h
    · cases h; rfl
    · cases h
  · cases h

theorem State.claimBank_frame (s : State) (p i : Nat) :
    (s.claimBank p i).fab.plans = s.fab.plans ∧ (s.claimBank p i).out = s.out := by
  unfold State.claimBank
  dsimp only
  split <;> exact ⟨rfl, rfl⟩

/-- A plan bound joins the bound ones, with its identifier in the Spar's register, and gives nothing to the outside. -/
theorem State.bindPlan_frame (s : State) (m : Model) (b : BoundPlan) :
    (s.bindPlan m b).fab.plans = s.fab.plans ++ [b] ∧
      (s.bindPlan m b).reg (Key.sprPlanIdLo b.spar) = BitVec.ofNat 32 (planId (s.section m 2)) ∧ (s.bindPlan m b).out = s.out := by
  have hseen : ((s.bindPlan m b).fab.plans, (s.bindPlan m b).out) = (s.fab.plans ++ [b], s.out) := by
    refine (State.foldl_same (g := fun t => (t.fab.plans, t.out)) (fun t x => ?_) ..).trans <|
      (State.foldl_same (g := fun t => (t.fab.plans, t.out)) (fun t x => ?_) ..).trans <|
      (State.foldl_same (g := fun t => (t.fab.plans, t.out)) (fun t x => ?_) ..).trans rfl
    · rw [State.setBit_fab, State.setBit_out]
    · rfl
    · rw [(t.claimBank_frame b.part x).1, (t.claimBank_frame b.part x).2]
  have hne : Key.sprPlanIdLo b.spar ≠ Key.sprPlanIdHi b.spar := regKey_ne (by omega) (by omega) (by omega)
  refine ⟨congrArg Prod.fst hseen, ?_, congrArg Prod.snd hseen⟩
  exact (State.reg_setReg_ne _ _ hne).trans (State.reg_setReg_same ..)

/-! ### Work noted for units, and bytes written for a walk: no walk is touched -/

theorem State.useWalk_fab (s : State) (us : List UnitId) (w : Walk) : (s.useWalk us w).fab = s.fab := by
  have huse : ∀ (t : State) (u : UnitId) (g : BitVec 64), (t.useFor u w.part g).fab = t.fab := by
    intro t u g
    unfold State.useFor
    split <;> rfl
  exact State.foldl_same (g := fun t => t.fab)
    (fun t u => State.foldl_same (g := fun t => t.fab) (fun t g => huse t u g) w.tags t) us s

theorem State.injWrite_fab (s : State) (a n : Nat) : (s.injWrite a n).fab = s.fab := by
  unfold State.injWrite
  dsimp only
  split <;> split <;> (try split) <;> rfl

theorem State.wr_fab (s : State) (a : Nat) (bs : List Byte) : (s.wr a bs).fab = s.fab := State.injWrite_fab ..

theorem State.writeLists_fab (s : State) (m : Model) (macs : List Mac) (tags : List (BitVec 64)) (layer n : Nat) :
    (s.writeLists m macs tags layer n).fab = s.fab := by
  refine State.foldl_same (g := fun t => t.fab) (fun t x => ?_) _ s
  refine State.foldl_same (g := fun t => t.fab) (fun u e => ?_) _ t
  dsimp only
  split
  · exact State.wr_fab ..
  · rfl

theorem State.writeParams_fab (s : State) (p : Nat) (macs : List Mac) (tags : List (BitVec 64)) :
    (s.writeParams p macs tags).fab = s.fab := by
  refine State.foldl_same (g := fun t => t.fab) (fun t x => ?_) _ s
  refine State.foldl_same (g := fun t => t.fab) (fun u e => ?_) _ t
  split
  · exact State.wr_fab ..
  · rfl

/-! ### Walks -/

theorem exec_walkStart (spar : BitVec 2) (p : BitVec 7) (tags : List (BitVec 64)) (h : BitVec 16) (walk : Nat) (s : State) :
    exec (.walkStart spar p tags h walk) s = execWalkStart spar p tags h walk s := rfl

/-- The walk of a decode step as it starts: at the first macro of its list, and on no lane's addresses. -/
def State.decodeWalk (s : State) (k : Nat) (m : Model) (r : Req) (tags : List (BitVec 64)) (index step : Nat) (e : WalkEntry)
    (id plans : Nat) : Walk :=
  { spar := k, id := id, part := r.part, tags := tags, handle := m.handle, plan := e.plan, layer := e.layer
    decode := r.inDecode, index := index, step := step
    list := Machine.dpaOf m.sections 3 + e.offset, count := e.count
    regs := s.stepRegs m r tags e.plan plans e.layer ++ e.regs
    lane := none }

/-- A decode walk whose list can be read joins the walks of its Boom; the pointer lists and parameter records written for it and the
use of the Boom are no walk. -/
theorem State.startWalk_walks {s : State} {k : Nat} {m : Model} {r : Req} {tags : List (BitVec 64)} {index step : Nat} {e : WalkEntry}
    {id plans : Nat} (hphase : r.phase = .decode) (hread : s.poisoned (Machine.dpaOf m.sections 3 + e.offset) (128 * e.count) = none) :
    (s.startWalk k m r tags index step e id plans).fab.walks = s.fab.walks ++ [s.decodeWalk k m r tags index step e id plans] := by
  have hprefill : ¬ r.phase = .prefill := by rw [hphase]; decide
  have hdecode : r.inDecode = true := by rw [Req.inDecode, hphase]; rfl
  simp only [State.startWalk, hprefill, if_false, hread, hdecode, true_or, if_true, State.useWalk_fab, State.writeParams_fab,
    State.writeLists_fab]
  rw [State.decodeWalk, hdecode]

/-- The step `i` that walk `index` of an image's table makes for the sequences of a decode comes next: it is neither running nor done,
and the steps before it are done (12 R261). -/
structure State.StepDue (s : State) (m : Model) (r : Req) (tags : List (BitVec 64)) (index : Nat) (e : WalkEntry) (i : Nat)
    (st : StepEntry) : Prop where
  phase : r.phase = .decode
  entry : (walkTable (s.section m 3))[index]? = some e
  entryPhase : e.phase = 1
  entryMode : e.mode = 0
  step : stepIndex (s.steps m) 0 index true r.d.orderFree = some (i, st)
  notRunning : ∀ w ∈ s.fab.walks, w.part = r.part → ∀ t ∈ tags, t ∉ w.tags
  notDone : s.fab.doneSteps = []
  preds : s.predsDone r.part tags st = true

/-- A step that comes next starts its walk where the Boom has a walk free, the plan is bound there and no other walk stands before. -/
theorem State.beginWalk_of_due {s : State} {k index i id : Nat} {m : Model} {r : Req} {tags : List (BitVec 64)} {e : WalkEntry}
    {st : StepEntry} (hdue : s.StepDue m r tags index e i st) (hid : s.freeWalk k = some id)
    (hbound : (s.fab.plans.any fun b => decide (b.part = m.part) && decide (b.handle = m.handle) && decide (b.plan = e.plan)
      && decide (b.spar = k)) = true) (hahead : s.walkAhead k r.part tags = false) :
    s.beginWalk k m r tags index = s.startWalk k m r tags index i e id (planCount (s.section m 2)) := by
  have hdecode : r.inDecode = true := by rw [Req.inDecode, hdue.phase]; rfl
  have hagain : (s.fab.walks.any fun w => decide (w.part = r.part) && decide (w.step = i) && tags.any fun t => decide (t ∈ w.tags))
      = false := by
    rw [List.any_eq_false]
    intro w hw
    simp only [Bool.and_eq_true, decide_eq_true_eq, List.any_eq_true, not_and, not_exists]
    exact fun ⟨hpart, _⟩ t ht => hdue.notRunning w hw hpart t ht
  unfold State.beginWalk
  rw [hdecode, hdue.entry, hdue.step]
  simp [hagain, hdue.notDone, hdue.preds, hdue.entryPhase, hdue.entryMode, hid, hbound, hahead]

/-- Settles O32: a plan that fits is bound at once and one that fits nowhere leaves all as it is; a decode walk that nothing holds back
joins the walks of its Boom. -/
theorem plansAndWalks : Obligations.PlansAndWalks := by
  unfold Obligations.PlansAndWalks
  refine ⟨?_, ?_, ?_⟩
  · intro s p h plan spar m b hm hst hplan hnone hahead hfit
    have hspar := State.fitModel_spar hfit
    obtain ⟨hplans, hreg, hout⟩ := s.bindPlan_frame m b
    refine ⟨s.bindPlan m b, ?_, hplans, hspar, hspar ▸ hreg, hout⟩
    rw [exec_planBind_of_unbound hm hst hplan hnone, State.tryBind_of_fit hfit, hahead]
    rfl
  · intro s p h plan spar m hm hst hplan hnone hdisp hfit
    rw [exec_planBind_of_unbound hm hst hplan hnone, hdisp]
    simp only [State.tryBind, hfit, Bool.false_eq_true, ite_self]
  · intro s spar p tags h walk r m e i id st hr hphase hm hboom hturn hahead hentry he hmode hstep hfresh hdone hpreds hid hbound hread
    have hdue : s.StepDue m r tags walk e i st := ⟨hphase, hentry, he, hmode, hstep, hfresh, hdone, hpreds⟩
    refine ⟨_, s.decodeWalk spar.toNat m r tags walk i e id (planCount (s.section m 2)), ?_, State.startWalk_walks hphase hread,
      rfl, rfl, rfl, rfl, rfl, rfl, rfl⟩
    rw [exec_walkStart]
    simp only [execWalkStart, hr, hm, hboom, hturn, and_self, if_true, State.beginWalk_of_due hdue hid hbound hahead]

end Sys2Proof.Machine
end

section
/-! The note that arbitration makes of a write's place in its cycle is read by the bus alone (03 R41): what a store and the loss of a unit
do is the same with it and without it. -/

namespace Sys2Proof.Machine

variable (s : State) (m : Master) (p : Nat)

/-! ### Ways in which a definition goes on -/

theorem State.noteOrder_foldl {α : Type} {m : Master} {p : Nat} {f : State → α → State}
    (hf : ∀ t x, (f t x).noteOrder m p = f (t.noteOrder m p) x) (l : List α) (s : State) :
    (l.foldl f s).noteOrder m p = l.foldl f (s.noteOrder m p) := by
  induction l generalizing s with
  | nil => rfl
  | cons x l ih => rw [List.foldl_cons, List.foldl_cons, ih, hf]

theorem State.noteOrder_ite {c : Prop} [Decidable c] {s t s' t' : State} {m : Master} {p : Nat} (hs : s.noteOrder m p = s')
    (ht : t.noteOrder m p = t') : (if c then s else t).noteOrder m p = if c then s' else t' := by
  rw [apply_ite (State.noteOrder · m p), hs, ht]

/-! ### Registers, interrupts and latches -/

@[simp] theorem State.reg_noteOrder (k : Nat) : (s.noteOrder m p).reg k = s.reg k := rfl

@[simp] theorem State.bit_noteOrder (k b : Nat) : (s.noteOrder m p).bit k b = s.bit k b := rfl

theorem State.noteOrder_setReg (k : Nat) (v : Word) : (s.setReg k v).noteOrder m p = (s.noteOrder m p).setReg k v := rfl

theorem State.noteOrder_noteOld (k : Nat) : (s.noteOld k).noteOrder m p = (s.noteOrder m p).noteOld k := by
  have hold : (s.noteOrder m p).oldReg k = s.oldReg k := rfl
  unfold State.noteOld
  rw [hold]
  cases s.oldReg k <;> rfl

theorem State.noteOrder_signal (v : Nat) : (s.signal v).noteOrder m p = (s.noteOrder m p).signal v := by
  unfold State.signal
  exact State.noteOrder_ite (State.noteOrder_ite rfl rfl) rfl

theorem State.noteOrder_setIrq (q : Nat) (bits : Word) : (s.setIrq q bits).noteOrder m p = (s.noteOrder m p).setIrq q bits := by
  unfold State.setIrq
  rw [← State.noteOrder_noteOld]
  cases pageVector q with
  | none => rfl
  | some v => exact State.noteOrder_ite (State.noteOrder_signal ..) rfl

theorem State.noteOrder_irq (q b : Nat) : (s.irq q b).noteOrder m p = (s.noteOrder m p).irq q b := by
  unfold State.irq
  exact State.noteOrder_setIrq ..

theorem State.noteOrder_latchOn (q c d : Nat) : (s.latchOn q c d).noteOrder m p = (s.noteOrder m p).latchOn q c d := by
  unfold State.latchOn
  dsimp only
  rw [State.reg_noteOrder, State.bit_noteOrder]
  split
  · rw [State.noteOrder_setReg, State.noteOrder_setReg]
  · rw [State.noteOrder_setReg]

theorem State.noteOrder_latch (q c d : Nat) : (s.latch q c d).noteOrder m p = (s.noteOrder m p).latch q c d := by
  unfold State.latch
  rw [← State.noteOrder_noteOld, ← State.noteOrder_noteOld, ← State.noteOrder_latchOn]
  exact State.noteOrder_irq ..

/-- An interrupt source set under a condition. -/
theorem State.noteOrder_irqIf {c : Prop} [Decidable c] {t t' : State} {m : Master} {p : Nat} (h : t.noteOrder m p = t') (q b : Nat) :
    (if c then t.irq q b else t).noteOrder m p = if c then t'.irq q b else t' :=
  State.noteOrder_ite (h ▸ State.noteOrder_irq ..) h

theorem State.noteOrder_kvpUpdate : s.kvpUpdate.noteOrder m p = (s.noteOrder m p).kvpUpdate := by
  have hmarks : (s.noteOrder m p).kvpMarks = s.kvpMarks := rfl
  have hpaging : (s.noteOrder m p).paging = s.paging := rfl
  unfold State.kvpUpdate
  dsimp only
  rw [State.reg_noteOrder, hmarks, hpaging, ← State.noteOrder_setReg]
  exact State.noteOrder_irqIf (State.noteOrder_irqIf rfl ..) ..

theorem State.noteOrder_setPState (q st : Nat) : (s.setPState q st).noteOrder m p = (s.noteOrder m p).setPState q st := by
  unfold State.setPState
  exact State.noteOrder_irqIf rfl ..

/-! ### A store -/

theorem State.noteOrder_resolution (q off id : Nat) (e : ArbEntry) (safety : Bool) (mask : Nat) :
    (s.resolution q off id e safety mask).noteOrder m p = (s.noteOrder m p).resolution q off id e safety mask := by
  unfold State.resolution
  rw [← State.noteOrder_noteOld]
  exact State.noteOrder_irq ..

theorem State.noteOrder_storeOn (w : Master) (k : Nat) (fs : List Field) (q off : Nat) (v : Word) :
    (s.storeOn w k fs q off v).noteOrder m p = (s.noteOrder m p).storeOn w k fs q off v := by
  have hlocked : (s.noteOrder m p).locked q = s.locked q := rfl
  have hnum : (s.noteOrder m p).arb.num = s.arb.num := rfl
  have hreg : ((s.noteOld k).noteOrder m p).reg k = (s.noteOld k).reg k := rfl
  have hlog : ((s.noteOld k).noteOrder m p).arb.log = (s.noteOld k).arb.log := rfl
  unfold State.storeOn
  dsimp only
  rw [← State.noteOrder_noteOld, hlocked, hnum, hreg, hlog]
  generalize fs.foldl _ _ = a
  cases a.first with
  | none => rfl
  | some e => exact State.noteOrder_resolution ..

theorem State.noteOrder_store (w : Master) (q off : Nat) (v : Word) :
    (s.store w q off v).noteOrder m p = (s.noteOrder m p).store w q off v := by
  unfold State.store
  exact State.noteOrder_storeOn ..

/-! ### Memory: frames, bytes, blocks -/

theorem State.noteOrder_injWrite (a n : Nat) : (s.injWrite a n).noteOrder m p = (s.noteOrder m p).injWrite a n := by
  have hmarred : (if s.rel.marred = [] then s else
        { s with rel := { s.rel with marred := s.rel.marred.filter fun l => !lineIn a n l } }).noteOrder m p =
      (if (s.noteOrder m p).rel.marred = [] then s.noteOrder m p else { s.noteOrder m p with rel :=
        { (s.noteOrder m p).rel with marred := (s.noteOrder m p).rel.marred.filter fun l => !lineIn a n l } }) :=
    State.noteOrder_ite rfl rfl
  unfold State.injWrite
  rw [← hmarred]
  exact State.noteOrder_ite rfl (State.noteOrder_ite rfl rfl)

theorem State.noteOrder_wr (a : Nat) (bs : List Byte) : (s.wr a bs).noteOrder m p = (s.noteOrder m p).wr a bs := by
  unfold State.wr
  exact State.noteOrder_injWrite ..

theorem State.noteOrder_setPte (a : Nat) (e : Pte) : (s.setPte a e).noteOrder m p = (s.noteOrder m p).setPte a e := by
  unfold State.setPte State.wrNat
  exact State.noteOrder_wr ..

theorem State.noteOrder_retireFrame (f u : Nat) : (s.retireFrame f u).noteOrder m p = (s.noteOrder m p).retireFrame f u := by
  unfold State.retireFrame
  exact State.noteOrder_ite rfl (State.noteOrder_kvpUpdate ..)

theorem State.noteOrder_retireLeft (f n : Nat) : (s.retireLeft f n).noteOrder m p = (s.noteOrder m p).retireLeft f n := by
  unfold State.retireLeft
  exact State.noteOrder_ite rfl (State.noteOrder_foldl (fun t (e : Nat × Nat) => t.noteOrder_retireFrame m p e.1 e.2) ..)

theorem State.noteOrder_freeScrub (f : Nat) : (s.freeScrub f).noteOrder m p = (s.noteOrder m p).freeScrub f := by
  have hext : (s.noteOrder m p).extentAt f = s.extentAt f := rfl
  unfold State.freeScrub
  rw [hext]
  cases s.extentAt f with
  | none => rfl
  | some e => exact State.noteOrder_retireLeft ..

theorem State.noteOrder_touchHold (pool : PoolId) : (s.touchHold pool).noteOrder m p = (s.noteOrder m p).touchHold pool := rfl

theorem State.noteOrder_freeFresh (f : Nat) : (s.freeFresh f).noteOrder m p = (s.noteOrder m p).freeFresh f := by
  have hext : (s.noteOrder m p).extentAt f = s.extentAt f := rfl
  unfold State.freeFresh
  rw [hext]
  cases s.extentAt f with
  | none => rfl
  | some e =>
    dsimp only
    cases e.use.payer <;>
      exact (State.noteOrder_touchHold ..).trans <| congrArg (State.touchHold · _) <|
        (State.noteOrder_kvpUpdate ..).trans (congrArg State.kvpUpdate (State.noteOrder_retireLeft ..))

theorem State.noteOrder_dropBlock (a : Nat) : (s.dropBlock a).noteOrder m p = (s.noteOrder m p).dropBlock a := by
  have hmem : (s.noteOrder m p).mem = s.mem := rfl
  unfold State.dropBlock
  rw [hmem]
  cases s.mem.blocks.find? fun b => decide (b.1 = a) <;> rfl

theorem State.noteOrder_dropKeys : s.dropKeys.noteOrder m p = (s.noteOrder m p).dropKeys := by
  unfold State.dropKeys
  exact State.noteOrder_foldl (f := fun t b => t.garble (128 + b)) (fun _ _ => rfl) ..

theorem State.noteOrder_dropRecBlock (b : Nat) : (s.dropRecBlock b).noteOrder m p = (s.noteOrder m p).dropRecBlock b := by
  unfold State.dropRecBlock
  exact State.noteOrder_ite rfl (State.noteOrder_ite rfl (State.noteOrder_ite rfl (State.noteOrder_dropBlock ..)))

/-! ### Bursts, pages and shards -/

theorem State.noteOrder_inc (k : Nat) : (s.inc k).noteOrder m p = (s.noteOrder m p).inc k := rfl

theorem State.noteOrder_endBurst (home : BurstHome) (tag : BitVec 64) (status moved : Nat) :
    (s.endBurst home tag status moved).noteOrder m p = (s.noteOrder m p).endBurst home tag status moved := by
  unfold State.endBurst
  rw [State.noteOrder_inc]
  cases home with
  | own => rfl
  | device a => exact congrArg (State.inc · Key.pmgDoneCnt) (State.noteOrder_wr ..)
  | ring a => rfl

theorem State.noteOrder_finishBursts : s.finishBursts.noteOrder m p = (s.noteOrder m p).finishBursts := by
  unfold State.finishBursts
  refine State.noteOrder_foldl (fun t b => ?_) ..
  exact State.noteOrder_endBurst ..

theorem State.noteOrder_abortWhere (test : Burst → Move → Bool) (freed : Bool) :
    (s.abortWhere test freed).noteOrder m p = (s.noteOrder m p).abortWhere test freed := by
  unfold State.abortWhere
  dsimp only
  rw [State.noteOrder_finishBursts, State.noteOrder_foldl fun t f => t.noteOrder_freeScrub m p f]
  rfl

theorem State.noteOrder_dropPending (a : Nat) : (s.dropPending a).noteOrder m p = (s.noteOrder m p).dropPending a := rfl

@[simp] theorem State.pte_noteOrder (a : Nat) : (s.noteOrder m p).pte a = s.pte a := rfl

theorem State.noteOrder_freePage (a : Nat) : (s.freePage a).noteOrder m p = (s.noteOrder m p).freePage a := by
  unfold State.freePage State.freeMoves
  rw [State.noteOrder_freeScrub, State.noteOrder_dropPending, State.noteOrder_abortWhere, State.pte_noteOrder]

theorem State.noteOrder_syncProtect (a : Nat) : (s.syncProtect a).noteOrder m p = (s.noteOrder m p).syncProtect a := by
  unfold State.syncProtect
  exact State.noteOrder_ite rfl (State.noteOrder_setPte ..)

theorem State.noteOrder_unref (a : Nat) : (s.unref a).noteOrder m p = (s.noteOrder m p).unref a := by
  have hfree : (if (s.pte a).present then s.freePage a else s).noteOrder m p =
      if (s.pte a).present then (s.noteOrder m p).freePage a else s.noteOrder m p := State.noteOrder_ite (State.noteOrder_freePage ..) rfl
  unfold State.unref
  dsimp only
  rw [State.pte_noteOrder, ← hfree, ← State.noteOrder_setPte _ m p, ← State.noteOrder_setPte s, ← State.noteOrder_syncProtect]
  exact State.noteOrder_ite (State.noteOrder_ite (State.noteOrder_setPte ..) rfl) rfl

theorem State.noteOrder_releasePage (h : Shard) (q : Nat) :
    (s.releasePage h q).noteOrder m p = (s.noteOrder m p).releasePage h q := by
  have hauth : (s.noteOrder m p).authAt h q = s.authAt h q := rfl
  unfold State.releasePage
  dsimp only
  rw [hauth, State.pte_noteOrder, State.pte_noteOrder]
  refine State.noteOrder_ite rfl ?_
  cases h.splices.find? fun x => decide (x.1 = q) with
  | none =>
    dsimp only
    rw [State.noteOrder_setPte, State.noteOrder_freePage]
  | some x =>
    dsimp only
    rw [State.noteOrder_unref, State.noteOrder_setPte]

/-- A shard leaves the list, with the blocks and keys that only it used. -/
def State.dropShard (s : State) (h : Shard) : State :=
  ((h.splices.map fun e => e.2 / 0x10000 * 0x10000).eraseDups.foldl State.dropRecBlock
    { (s.dropBlock h.pt).dropBlock h.resEntry with paging := { s.paging with
      shards := s.paging.shards.filter fun x => decide (x.pt ≠ h.pt) } }).dropKeys

theorem State.noteOrder_dropShard (h : Shard) : (s.dropShard h).noteOrder m p = (s.noteOrder m p).dropShard h := by
  unfold State.dropShard
  rw [State.noteOrder_dropKeys, State.noteOrder_foldl fun t b => t.noteOrder_dropRecBlock m p b, ← State.noteOrder_dropBlock,
    ← State.noteOrder_dropBlock]
  rfl

theorem State.noteOrder_releaseShard (h : Shard) : (s.releaseShard h).noteOrder m p = (s.noteOrder m p).releaseShard h := by
  have hpages := (State.noteOrder_foldl (fun t f => t.noteOrder_freeFresh m p f) (h.holding ++ h.mirrorHold) _).trans <|
    congrArg ((h.holding ++ h.mirrorHold).foldl State.freeFresh)
      (State.noteOrder_foldl (fun t q => t.noteOrder_releasePage m p h q) h.pages s)
  unfold State.releaseShard
  cases h.reservation with
  | none => exact (State.noteOrder_dropShard ..).trans (congrArg (State.dropShard · h) hpages)
  | some f =>
    exact (State.noteOrder_dropShard ..).trans <| congrArg (State.dropShard · h) <|
      (State.noteOrder_freeFresh ..).trans (congrArg (State.freeFresh · f) hpages)

theorem State.noteOrder_releaseShards (q : Nat) (tag : BitVec 64) :
    (s.releaseShards q tag).noteOrder m p = (s.noteOrder m p).releaseShards q tag := by
  unfold State.releaseShards
  exact State.noteOrder_foldl (fun t h => t.noteOrder_releaseShard m p h) ..

/-! ### Event queues -/

theorem State.noteOrder_moderate (q : Nat) (completion : Bool) :
    (s.moderate q completion).noteOrder m p = (s.noteOrder m p).moderate q completion := by
  unfold State.moderate
  exact State.noteOrder_ite (State.noteOrder_signal ..) rfl

theorem State.noteOrder_putRec (q e : Nat) (r : EqRec) : (s.putRec q e r).noteOrder m p = (s.noteOrder m p).putRec q e r := by
  unfold State.putRec
  cases r.ends with
  | none => exact State.noteOrder_moderate ..
  | some n => exact State.noteOrder_moderate ..

theorem State.noteOrder_postOn (q e : Nat) (r : EqRec) : (s.postOn q e r).noteOrder m p = (s.noteOrder m p).postOn q e r := by
  unfold State.postOn
  exact State.noteOrder_ite (State.noteOrder_putRec ..) rfl

theorem State.noteOrder_complete (q n : Nat) (r : EqRec) : (s.complete q n r).noteOrder m p = (s.noteOrder m p).complete q n r := by
  unfold State.complete State.post
  exact State.noteOrder_postOn ..

theorem State.noteOrder_settleCancels (q : Nat) : (s.settleCancels q).noteOrder m p = (s.noteOrder m p).settleCancels q := by
  unfold State.settleCancels
  refine State.noteOrder_foldl (fun t d => ?_) ..
  exact State.noteOrder_complete ..

/-! ### Requests -/

theorem State.noteOrder_sendRingEnd (k : Nat) (tag : BitVec 64) (c : RingCause) :
    (s.sendRingEnd k tag c).noteOrder m p = (s.noteOrder m p).sendRingEnd k tag c := by
  unfold State.sendRingEnd
  exact State.noteOrder_foldl (fun _ _ => rfl) ..

theorem State.noteOrder_noteLane (r : Req) : (s.noteLane r).noteOrder m p = (s.noteOrder m p).noteLane r := by
  unfold State.noteLane
  exact State.noteOrder_ite rfl rfl

theorem State.noteOrder_setReq (r : Req) : (s.setReq r).noteOrder m p = (s.noteOrder m p).setReq r := rfl

theorem State.noteOrder_passLane (r : Req) : (s.passLane r).noteOrder m p = (s.noteOrder m p).passLane r := by
  have hreq : ∀ t, (s.noteOrder m p).req r.part t = s.req r.part t := fun _ => rfl
  unfold State.passLane
  cases r.marked with
  | none => rfl
  | some t =>
    dsimp only
    rw [hreq]
    cases s.req r.part t with
    | none => rfl
    | some x => exact State.noteOrder_ite rfl rfl

theorem State.noteOrder_releaseMirrors (q : Nat) (tag : BitVec 64) :
    (s.releaseMirrors q tag).noteOrder m p = (s.noteOrder m p).releaseMirrors q tag := by
  unfold State.releaseMirrors
  refine State.noteOrder_foldl (fun t k => ?_) ..
  exact State.noteOrder_ite rfl (congrArg (State.setRing · k _) (State.noteOrder_foldl (fun u y => u.noteOrder_freeScrub m p y.frame) _ t))

theorem State.noteOrder_stopWork (q : Nat) (tag : BitVec 64) : (s.stopWork q tag).noteOrder m p = (s.noteOrder m p).stopWork q tag := rfl

theorem State.noteOrder_release (r : Req) : (s.release r).noteOrder m p = (s.noteOrder m p).release r := by
  unfold State.release
  rw [State.noteOrder_kvpUpdate, State.noteOrder_releaseShards, State.noteOrder_releaseMirrors, State.noteOrder_stopWork,
    State.noteOrder_passLane, State.noteOrder_setReq, State.noteOrder_noteLane]

/-- A request is released, its COMPLETION posted unless a spare adopted it, and the CANCELs that wait for it complete. -/
def State.close (s : State) (r : Req) (status detail : Nat) : State :=
  (if r.adopted then (s.release r).dropDesc r.fetchNo
    else (s.release r).complete r.part r.fetchNo (r.record status detail)).settleCancels r.part

theorem State.noteOrder_close (r : Req) (status detail : Nat) :
    (s.close r status detail).noteOrder m p = (s.noteOrder m p).close r status detail := by
  unfold State.close
  rw [State.noteOrder_settleCancels, ← State.noteOrder_release, ← State.noteOrder_complete]
  exact congrArg (State.settleCancels · r.part) (State.noteOrder_ite rfl rfl)

theorem State.noteOrder_finish (r : Req) (status detail : Nat) (cause : Option RingCause) :
    (s.finish r status detail cause).noteOrder m p = (s.noteOrder m p).finish r status detail cause := by
  have hring : (s.noteOrder m p).reqRing r = s.reqRing r := rfl
  unfold State.finish
  rw [hring]
  cases cause with
  | none => exact State.noteOrder_close ..
  | some c =>
    cases s.reqRing r with
    | none => exact State.noteOrder_close ..
    | some k =>
      exact (State.noteOrder_close ..).trans <| congrArg (State.close · r status detail)
        (State.noteOrder_ite (State.noteOrder_sendRingEnd ..) rfl)

theorem State.noteOrder_failTag (q : Nat) (tag : BitVec 64) (status detail : Nat) :
    (s.failTag q tag status detail).noteOrder m p = (s.noteOrder m p).failTag q tag status detail := by
  have hreq : (s.noteOrder m p).req q tag = s.req q tag := rfl
  unfold State.failTag
  rw [hreq]
  cases s.req q tag with
  | none => rfl
  | some r => exact State.noteOrder_ite (State.noteOrder_finish ..) rfl

/-! ### Units -/

theorem State.noteOrder_setService (u : UnitId) (x : Bool) : (s.setService u x).noteOrder m p = (s.noteOrder m p).setService u x := by
  unfold State.setService
  cases serviceBit u <;> rfl

theorem State.noteOrder_dropMask (q : Nat) (u : UnitId) : (s.dropMask q u).noteOrder m p = (s.noteOrder m p).dropMask q u := by
  unfold State.dropMask
  exact State.noteOrder_ite rfl (State.noteOrder_ite rfl (State.noteOrder_ite rfl (State.noteOrder_ite rfl rfl)))

theorem State.noteOrder_halt (q st dt : Nat) : (s.halt q st dt).noteOrder m p = (s.noteOrder m p).halt q st dt := by
  unfold State.halt
  rw [← State.noteOrder_setPState, ← State.noteOrder_latch]
  refine State.noteOrder_foldl (fun t r => ?_) ..
  unfold State.fail
  exact State.noteOrder_ite (State.noteOrder_finish ..) (State.noteOrder_finish ..)

theorem State.noteOrder_unbindUnit (u : UnitId) : (s.unbindUnit u).noteOrder m p = (s.noteOrder m p).unbindUnit u := rfl

/-- A unit out of service and out of its holder's mask, with the loss latched there (06 R129). -/
def State.withoutUnit (s : State) (u : UnitId) : State :=
  match s.holder u with
  | some q => ((s.setService u false).dropMask q u).latch (pgPrt q) 0 (u.type * 256 + u.index)
  | none => s.setService u false

/-- The partitions that halt once a unit is lost: its holder below its minimum, or with the pool empty the shared ones (06 R129, R130). -/
def State.haltAfter (s : State) (holder : Option Nat) (u : UnitId) (st dt : Nat) : State :=
  match holder with
  | some q =>
    if (s.part q).held.isSealed ∧ mayHalt (s.pstate q) = true ∧ s.minimumCheck (s.part q).held ≠ 0 then s.halt q st dt else s
  | none =>
    if (u.type = 1 ∨ u.type = 2 ∨ u.type = 3 ∨ u.type = 5) ∧ s.poolAlive = false then
      (allParts.filter fun q => !s.isSealed q && mayHalt (s.pstate q)).foldl (fun t q => t.halt q st dt) s
    else s

theorem State.loseUnitAs_eq (u : UnitId) (st dt : Nat) : s.loseUnitAs u st dt = if s.inService u then
    (((s.usersOf u).eraseDups.foldl (fun t x => t.failTag x.1 x.2 st dt) (s.withoutUnit u)).unbindUnit u).haltAfter (s.holder u) u st dt
    else s := by
  unfold State.loseUnitAs State.withoutUnit State.haltAfter
  cases s.holder u <;> rfl

theorem State.noteOrder_withoutUnit (u : UnitId) : (s.withoutUnit u).noteOrder m p = (s.noteOrder m p).withoutUnit u := by
  have hholder : (s.noteOrder m p).holder u = s.holder u := rfl
  unfold State.withoutUnit
  rw [hholder]
  cases s.holder u with
  | none => exact State.noteOrder_setService ..
  | some q =>
    dsimp only
    rw [State.noteOrder_latch, State.noteOrder_dropMask, State.noteOrder_setService]

theorem State.noteOrder_haltAfter (holder : Option Nat) (u : UnitId) (st dt : Nat) :
    (s.haltAfter holder u st dt).noteOrder m p = (s.noteOrder m p).haltAfter holder u st dt := by
  unfold State.haltAfter
  cases holder with
  | none => exact State.noteOrder_ite (State.noteOrder_foldl (fun t q => t.noteOrder_halt m p q st dt) ..) rfl
  | some q => exact State.noteOrder_ite (State.noteOrder_halt ..) rfl

theorem State.noteOrder_loseUnitAs (u : UnitId) (st dt : Nat) :
    (s.loseUnitAs u st dt).noteOrder m p = (s.noteOrder m p).loseUnitAs u st dt := by
  have husers := State.noteOrder_foldl (fun t (x : Nat × BitVec 64) => t.noteOrder_failTag m p x.1 x.2 st dt) (s.usersOf u).eraseDups
    (s.withoutUnit u)
  rw [State.loseUnitAs_eq, State.loseUnitAs_eq]
  refine State.noteOrder_ite ?_ rfl
  rw [State.noteOrder_haltAfter, State.noteOrder_unbindUnit, husers, State.noteOrder_withoutUnit]
  rfl

/-- The loss of a unit is the same with a note of arbitration and without it. -/
theorem State.noteOrder_loseUnit (u : UnitId) : (s.loseUnit u).noteOrder m p = (s.noteOrder m p).loseUnit u := by
  unfold State.loseUnit
  exact State.noteOrder_loseUnitAs ..

end Sys2Proof.Machine
end

section
/-! Macros that retire, test walks, and units that a register takes out of service (11 R255, R256; 12 R273, R275, R287; 13 R313;
14 R340). -/

namespace Sys2Proof.Machine

/-! ### Walks that end, and walks that go on -/

/-- The only macro in flight gone from its slot. -/
def State.soleFreed (s : State) (x : MacroSt) : State :=
  { s with fab := { s.fab with flight := [], freed := s.fab.freed ++ [(x.spar, x.slot, x.part)] } }

/-- The only macro in flight frees its slot once it is performed: it held no other, and its walk is settled. -/
theorem exec_macroRetire_of_sole {s : State} {spar : BitVec 2} {slot : BitVec 10} {x : MacroSt} (hflight : s.fab.flight = [x])
    (hspar : x.spar = spar.toNat) (hslot : x.slot = slot.toNat) (hdone : x.done = true) :
    exec (.macroRetire spar slot) s = .next ((s.soleFreed x).settleWalk x.spar x.walk) := by
  have hexec : exec (.macroRetire spar slot) s = execMacroRetire spar slot s := rfl
  have hfind : (s.fab.flight.find? fun y => decide (y.spar = spar.toNat) && decide (y.slot = slot.toNat)) = some x := by
    simp [hflight, hspar, hslot]
  have hrest : (s.fab.flight.filter fun y => decide (y ≠ x)) = [] := by simp [hflight]
  rw [hexec, execMacroRetire, hfind]
  simp only [hdone, if_true, hrest]
  rw [State.advanceAll_of_empty rfl]
  rfl

/-- The steps of a walk's sequences are done. -/
def State.stepsDone (s : State) (w : Walk) : State :=
  { s with fab := { s.fab with doneSteps := s.fab.doneSteps ++ w.tags.map fun g => (w.part, g, w.step) } }

/-- A walk past its last macro, with none in flight, ends, and its step is done. -/
theorem State.settleWalk_of_ended {s : State} {spar id : Nat} {w : Walk} (hw : s.walkAt spar id = some w) (hidle : s.inFlight w = [])
    (htest : w.test = false) (hend : w.count ≤ w.next) : s.settleWalk spar id = (s.dropWalk w).stepsDone w := by
  unfold State.settleWalk
  rw [hw]
  simp [hidle, htest, hend, State.stepsDone]

/-- A test walk that has macros left to issue goes on. -/
theorem State.settleWalk_of_test {s : State} {spar id : Nat} {w : Walk} (hw : s.walkAt spar id = some w) (htest : w.test = true)
    (hruns : w.stopped = false) (hleft : w.next < w.count) : s.settleWalk spar id = s := by
  unfold State.settleWalk
  rw [hw]
  simp [htest, hruns, Nat.not_le.2 hleft]

theorem State.walkAt_place {s : State} {spar id : Nat} {w : Walk} (hw : s.walkAt spar id = some w) : w.spar = spar ∧ w.id = id := by
  simpa using List.find?_some hw

theorem State.walkAt_dropWalk {s : State} {spar id : Nat} {w : Walk} (hw : s.walkAt spar id = some w) :
    (s.dropWalk w).walkAt spar id = none := by
  obtain ⟨rfl, rfl⟩ := State.walkAt_place hw
  simp only [State.walkAt, State.dropWalk, List.find?_eq_none, List.mem_filter, Bool.not_eq_true']
  rintro y ⟨-, hy⟩
  simp [hy]

/-! ### Test walks -/

/-- The walk of the macro list that a write of BOM_TEST_CMD names (12 Table 12.7). -/
def State.testWalk (s : State) (k id : Nat) (v : Word) : Walk :=
  { spar := k, id := id, part := getBits v 15 8, tags := [], handle := 0, plan := 0, layer := 0, decode := false, index := 0, step := 0
    list := (s.reg (Key.bomTestLo k)).toNat + 2 ^ 32 * (s.reg (Key.bomTestHi k)).toNat, count := getBits v 31 16
    regs := List.replicate 16 0, test := true }

/-- BOM_TEST_STAT busy, and the test walk among the walks of the Boom. -/
def State.testStarted (s : State) (k : Nat) (w : Walk) : State :=
  { s.setReg (Key.bomTestStat k) 0x80000000 with fab := { s.fab with walks := s.fab.walks ++ [w] } }

/-- A number that a Boom has free names none of its walks. -/
theorem State.walkAt_of_freeWalk {s : State} {k id : Nat} (h : s.freeWalk k = some id) : s.walkAt k id = none := by
  have hunused := List.find?_some h
  simp only [decide_eq_true_eq, List.mem_map, List.mem_filter, not_exists, not_and] at hunused
  simp only [State.walkAt, List.find?_eq_none, Bool.and_eq_true, decide_eq_true_eq, not_and]
  exact fun w hw hspar => hunused w ⟨hw, hspar⟩

theorem State.walkAt_testStarted {s : State} {k id : Nat} (h : s.freeWalk k = some id) (v : Word) :
    (s.testStarted k (s.testWalk k id v)).walkAt k id = some (s.testWalk k id v) := by
  have hnone := State.walkAt_of_freeWalk h
  unfold State.walkAt at hnone ⊢
  simp only [State.testStarted, List.find?_append, hnone]
  simp [State.testWalk]

/-- A test of an ACTIVE partition starts on a Boom that runs none and has a walk free. -/
theorem State.writeBomTest_of_active {s : State} {k id : Nat} {v : Word} (hstart : getBits v 0 0 = 1) (hpart : getBits v 15 8 < 128)
    (hactive : s.pstate (getBits v 15 8) = psActive) (hidle : s.bit (Key.bomTestStat k) 31 = false) (hid : s.freeWalk k = some id)
    (hcount : 0 < getBits v 31 16) : s.writeBomTest k v = s.testStarted k (s.testWalk k id v) := by
  have hgo : ¬ (getBits v 0 0 = 0 ∨ 128 ≤ getBits v 15 8 ∨ s.pstate (getBits v 15 8) ≠ psActive ∨
      s.bit (Key.bomTestStat k) 31 = true) := by
    simp [hstart, hactive, hidle, Nat.not_le.2 hpart]
  unfold State.writeBomTest
  dsimp only
  rw [if_neg hgo, hid]
  exact State.settleWalk_of_test (State.walkAt_testStarted hid v) rfl rfl hcount

/-! ### Units retired by a register -/

/-- A unit's page: its CTL register has the one field `retire`, which the page's lock protects (11 R255). -/
def HasRetire (p : Nat) : Prop := fieldsOf (regKey p 0x104) = [⟨0, 0, .rwl, 0, .higher⟩]

theorem hasRetire_yard : ∀ i < 32, HasRetire (pgYrd i) := by unfold HasRetire; decide +kernel

theorem hasRetire_luff : ∀ i < 8, HasRetire (pgLuf i) := by unfold HasRetire; decide +kernel

theorem hasRetire_clew : ∀ i < 16, HasRetire (pgClw i) := by unfold HasRetire; decide +kernel

/-- The effect of a write is what it would be without the bus's notes: its place in the cycle, and what registers held before. -/
theorem wroteAs_noteSince (u r : State) (m : Master) (p : Nat) : WroteAs u ((u.noteOrder m p).noteSince r) := rfl

/-- An uncontested write of `retire` to a page that is not locked stands. -/
theorem State.bit_store_retire {s : State} {m : Master} {p : Nat} {v : Word} (hp : HasRetire p) (hu : s.Uncontested m (regKey p 0x104))
    (hlock : s.locked p = false) (hv : getBits v 0 0 = 1) : (s.store m p 0x104 v).bit (regKey p 0x104) 0 = true := by
  obtain ⟨-, -, hreg, -⟩ := State.storeOn_frame hu (fieldsOf (regKey p 0x104)) p 0x104 v
  unfold State.bit State.fld State.store
  rw [hreg, hp, hlock]
  simp only [wordWritten, List.foldl_cons, List.foldl_nil, fieldWritten, Bool.false_eq_true, if_false, hv]
  rw [getBits_putBits_same _ _ (by decide)]
  rfl

/-- A write that newly sets `retire` takes the unit out of service. -/
theorem State.writeRetire_of_set {s : State} {m : Master} {p : Nat} {v : Word} (hp : HasRetire p) (hu : s.Uncontested m (regKey p 0x104))
    (hlock : s.locked p = false) (hclear : s.bit (regKey p 0x104) 0 = false) (hv : getBits v 0 0 = 1) (u : UnitId) :
    s.writeRetire m p u v = (s.store m p 0x104 v).loseUnit u :=
  if_pos ⟨State.bit_store_retire hp hu hlock hv, hclear⟩

/-- The same through the bus, whose notes the loss of the unit does not read. -/
theorem State.wroteAs_retire {s : State} {m : Master} {p : Nat} {v : Word} (hp : HasRetire p) (ht : s.Takes m p 0x104 v)
    (hu : s.Uncontested m (regKey p 0x104)) (hlock : s.locked p = false) (hclear : s.bit (regKey p 0x104) 0 = false)
    (hv : getBits v 0 0 = 1) (u : UnitId) :
    WroteAs ((s.store m p 0x104 v).loseUnit u) (s.gated m p 0x104 0xF v fun t => t.writeRetire m p u v) := by
  have hwrite := State.writeRetire_of_set (s := s.noteOrder m p) hp hu hlock hclear hv u
  rw [State.gated_of_takes ht, State.inTurn_eq_noteOrder ht.inOrder, hwrite, ← State.noteOrder_store, ← State.noteOrder_loseUnit]
  exact wroteAs_noteSince ..

/-- No partition halts for a unit of the pool while the pool holds units of every type. -/
theorem State.haltAfter_of_alive {s : State} (h : s.poolAlive = true) (u : UnitId) (st dt : Nat) : s.haltAfter none u st dt = s :=
  if_neg fun ⟨_, hempty⟩ => Bool.false_ne_true (hempty.symm.trans h)

/-- A unit of the pool that no request uses leaves service, and the plans that had it are unbound; the pool lives on. -/
theorem State.loseUnit_of_unused {s : State} {u : UnitId} (hin : s.inService u = true) (husers : s.usersOf u = [])
    (hholder : s.holder u = none)
    (hpool : ((s.setService u false).unbindUnit u).poolAlive = true) : s.loseUnit u = (s.setService u false).unbindUnit u := by
  have hwithout : s.withoutUnit u = s.setService u false := by rw [State.withoutUnit, hholder]
  rw [State.loseUnit, State.loseUnitAs_eq, hin, husers, hholder, hwithout]
  exact State.haltAfter_of_alive hpool u ..

/-- Settles O35: retirement by the walk that is settled after it, a test by the walk it starts, and a unit retired by the store of its
bit, whose place in the cycle the loss of the unit does not read. -/
theorem retireAndTest : Obligations.RetireAndTest := by
  unfold Obligations.RetireAndTest
  refine ⟨?_, ?_, ?_, ?_, ?_, ?_, ?_⟩
  · intro s spar slot x w hflight hspar hslot hdone hw htest hend
    refine ⟨_, exec_macroRetire_of_sole hflight hspar hslot hdone, ?_⟩
    have hw' : (s.soleFreed x).walkAt x.spar x.walk = some w := hw
    rw [State.settleWalk_of_ended hw' rfl htest hend]
    exact ⟨rfl, State.walkAt_dropWalk hw', rfl, fun _ _ => rfl, fun _ => rfl, rfl⟩
  · intro s m k v id htakes hstart hpart hactive hidle hid hcount
    refine ⟨_, (s.noteOrder m (pgBom k.toNat)).testWalk k.toNat id v, rfl, ?_⟩
    rw [State.gated_of_takes htakes, State.inTurn_eq_noteOrder htakes.inOrder,
      State.writeBomTest_of_active (s := s.noteOrder m (pgBom k.toNat)) hstart hpart hactive hidle hid hcount]
    refine ⟨rfl, rfl, rfl, rfl, rfl, State.reg_setReg_same .., fun j hj => ?_, fun _ => rfl⟩
    exact State.reg_setReg_ne _ _ (by simpa using hj)
  · intro s m i v htakes hu hlock hclear hv
    exact ⟨_, rfl, State.wroteAs_retire (hasRetire_yard _ i.isLt) htakes hu hlock hclear hv _⟩
  · intro s m i v htakes hu hlock hclear hv
    exact ⟨_, rfl, State.wroteAs_retire (hasRetire_luff _ i.isLt) htakes hu hlock hclear hv _⟩
  · intro s m i v htakes hu hlock hclear hv
    exact ⟨_, rfl, State.wroteAs_retire (hasRetire_clew _ i.isLt) htakes hu hlock hclear hv _⟩
  · intro s bank hbank hin hdue
    exact congrArg Host.Outcome.next (if_pos ⟨hbank, hin, hdue⟩)
  · intro s u hin husers hholder hpool
    exact State.loseUnit_of_unused hin husers hholder hpool

end Sys2Proof.Machine
end

section
/-! Macros issued into slots, and macros that hazards hold back (12 R263, R273, R274, R276; 13 R302; 14 R323, R328 to R334; 18 R447,
R448). -/

namespace Sys2Proof.Machine

open Host

/-! ### Walks and macros replaced in their lists -/

/-- Where every entry that a search takes is replaced by one that it takes too, the search finds that one. -/
theorem find?_map_replace {α : Type} {p : α → Bool} {f : α → α} {x y : α} {l : List α} (hx : p x = true)
    (hf : ∀ z, f z = if p z = true then x else z) (h : l.find? p = some y) : (l.map f).find? p = some x := by
  have htaken : p ∘ f = p := by
    funext z
    cases hz : p z <;> simp [hf, hz, hx]
  rw [List.find?_map, htaken, h, Option.map_some, hf, if_pos (List.find?_some h)]

theorem State.walkAt_setWalk {s : State} {v w : Walk} (h : s.walkAt w.spar w.id = some v) :
    (s.setWalk w).walkAt w.spar w.id = some w :=
  find?_map_replace (by simp) (fun z => by simp) h

theorem State.find?_setFlight {s : State} {x y : MacroSt}
    (h : (s.fab.flight.find? fun z => decide (z.spar = x.spar) && decide (z.slot = x.slot)) = some y) :
    ((s.setFlight x).fab.flight.find? fun z => decide (z.spar = x.spar) && decide (z.slot = x.slot)) = some x :=
  find?_map_replace (by simp) (fun z => by simp) h

/-- What is noted of a macro does not touch those issued before it. -/
theorem State.earlier_setFlight (s : State) (x : MacroSt) : (s.setFlight x).earlier x = s.earlier x := by
  simp only [State.earlier, State.setFlight, ne_eq, decide_not]
  induction s.fab.flight with
  | nil => rfl
  | cons z l ih =>
    by_cases hspar : z.spar = x.spar
    · by_cases hslot : z.slot = x.slot <;> simp [hspar, hslot, ih]
    · simp [hspar, ih]

/-! ### The next macro of a walk -/

/-- The next macro of walk `id` on Boom `k` is of row `row` and may be served under plan `b`: the walk is no test, it runs and no stop of
it is asked for, its word can be read, and the Boom and the plan's units are in service (12 R261, R263, R280). -/
structure State.MacroDue (s : State) (k id : Nat) (row : Nat × Nat) (w : Walk) (b : BoundPlan) : Prop where
  walk : s.walkAt k id = some w
  goesOn : s.stopsHere w = false
  runs : w.stopped = false
  left : w.next < w.count
  noTest : w.test = false
  boom : s.inService ⟨utBoom, k, 0⟩ = true
  readable : s.poisoned (w.list + 128 * w.next) 128 = none
  ofRow : macRow (s.macAt w w.next) = row
  plan : s.walkPlan w = some b
  planKept : s.planLost b = false

/-- A macro that may be served waits for a slot, which is counted, or wakes what its plan needs and is issued at its walk's turn (R273,
R274; 23 R567). -/
def State.serveDue (s : State) (k : Nat) (w : Walk) (b : BoundPlan) (chk : Check) (f : Option SparFault) (late : Bool) : State :=
  match s.freeSlot k, s.slotOpen k w.part w.test with
  | some slot, true =>
    if (s.wakeAll (s.planDomains b)).allAwake (s.planDomains b) = false ∨ (s.wakeAll (s.planDomains b)).walkTurn w = false then
      s.wakeAll (s.planDomains b)
    else s.issued w b slot chk f late
  | _, _ => s.inc (Key.bomStallCnt k)

theorem State.issue_of_due {s : State} {k id : Nat} {row : Nat × Nat} {w : Walk} {b : BoundPlan} (h : s.MacroDue k id row w b)
    (chk : Check) (f : Option SparFault) (late : Bool) : s.issue k id row chk f late = s.serveDue k w b chk f late := by
  unfold State.issue
  rw [h.walk]
  simp only [h.goesOn, h.runs, h.noTest, h.boom, h.readable, h.ofRow, h.plan, h.planKept, Nat.not_le.2 h.left, Bool.false_eq_true,
    Bool.true_eq_false, Bool.false_and, if_false, ne_eq, not_true_eq_false, or_self]
  unfold State.serveDue State.issued
  cases s.freeSlot k with
  | none => rfl
  | some slot =>
    rw [h.noTest]
    cases s.slotOpen k w.part false with
    | false => rfl
    | true => rfl

theorem State.issue_of_issues {s : State} {spar : BitVec 2} {id : BitVec 6} {row : Nat × Nat} {w : Walk} {b : BoundPlan} {slot : Nat}
    (h : s.Issues spar id row w b slot) (chk : Check) (f : Option SparFault) (late : Bool) :
    s.issue spar.toNat id.toNat row chk f late = s.issued w b slot chk f late := by
  obtain ⟨hwalk, hstop, hruns, hleft, htest, hboom, hread, hrow, hplan, hkept, hslot, hopen, hawake, hturn⟩ := h
  rw [State.issue_of_due ⟨hwalk, hstop, hruns, hleft, htest, hboom, hread, hrow, hplan, hkept⟩]
  unfold State.serveDue
  rw [hslot, htest, hopen]
  exact if_neg (by simp [hawake, hturn])

theorem State.serveDue_of_noSlot {s : State} {k : Nat} (h : s.freeSlot k = none) (w : Walk) (b : BoundPlan) (chk : Check)
    (f : Option SparFault) (late : Bool) : s.serveDue k w b chk f late = s.inc (Key.bomStallCnt k) := by
  unfold State.serveDue
  rw [h]

/-- Settles O33: each row's command is the issue of the next macro of its row, and one that is free to issue is put into the lowest free
slot, with the check and the failure that the row carries. -/
theorem macrosIssue : Obligations.MacrosIssue := by
  unfold Obligations.MacrosIssue
  intro s spar id w b slot chk f late
  have hissue {row : Nat × Nat} (h : s.Issues spar id row w b slot) (chk : Check) (f : Option SparFault) :
      (.next (s.issue spar.toNat id.toNat row chk f late) : Outcome State Fault Refusal) = .next (s.issued w b slot chk f late) :=
    congrArg Outcome.next (State.issue_of_issues h chk f late)
  exact ⟨fun h => hissue h chk f, fun h => hissue h noCheck f, fun h => hissue h chk f, fun h => hissue h noCheck none,
    fun h => hissue h noCheck f, fun h => hissue h noCheck f, fun h => hissue h noCheck f, fun h => hissue h noCheck f,
    fun h => hissue h noCheck f, fun h => hissue h noCheck f, fun h => hissue h noCheck f, fun h => hissue h noCheck f,
    fun h => hissue h noCheck none, fun h => hissue h noCheck none, fun h => hissue h noCheck none, fun h => hissue h noCheck none,
    fun h => hissue h noCheck none, fun h => hissue h noCheck none⟩

/-! ### A macro put into a slot -/

/-- The macro `m` of walk `w` as it stands in its slot: numbered after those that its Boom issued before it (05 R94). -/
def State.entered (s : State) (w : Walk) (m : Mac) (slot : Nat) (done late : Bool) : MacroSt :=
  { spar := w.spar, slot := slot, walk := w.id, index := w.next, part := w.part, word := m, resolved := done, done := done
    num := SMap.get (fun _ => 0) s.fab.issued w.spar, late := late && !done }

section
variable (s : State) (w : Walk) (m : Mac) (slot : Nat) (done late : Bool)

theorem State.flight_enterSlot :
    (s.enterSlot w m slot done late).fab.flight = s.fab.flight ++ [s.entered w m slot done late] := rfl

theorem State.issued_enterSlot : SMap.get (fun _ => 0) (s.enterSlot w m slot done late).fab.issued w.spar =
    (s.entered w m slot done late).num + 1 := by
  have hissued : (s.enterSlot w m slot done late).fab.issued =
      SMap.set (fun _ => 0) s.fab.issued w.spar ((s.entered w m slot done late).num + 1) := rfl
  rw [hissued, SMap.get_set_same]

theorem State.reg_enterSlot (k : Nat) :
    (s.enterSlot w m slot done late).reg k = (if done then s.inc (Key.bomIssueCnt w.spar) else s).reg k := by
  cases done <;> rfl

theorem State.sameMemory_enterSlot : SameMemory s (s.enterSlot w m slot done late) := by
  cases done <;> exact fun _ => rfl

end

theorem State.walkAt_enterSlot {s : State} {w : Walk} {m : Mac} (h : s.walkAt w.spar w.id = some w) (hlast : m.last = false) (slot : Nat)
    (done late : Bool) : (s.enterSlot w m slot done late).walkAt w.spar w.id = some { w with next := w.next + 1 } := by
  have hwalks : (s.enterSlot w m slot done late).fab.walks = (s.setWalk { w with next := w.next + 1 }).fab.walks := by
    simp only [State.enterSlot, hlast]
    rfl
  rw [State.walkAt, hwalks]
  exact State.walkAt_setWalk (w := { w with next := w.next + 1 }) h

/-! ### A macro held back -/

theorem holdsBack_of_meets {a : MacroSt} {wr rd : Nat × Nat} {reads : List (Nat × Nat)} (hwr : wr ∈ a.writes) (hrd : rd ∈ reads)
    (hmeets : meets wr rd = true) (writes : List (Nat × Nat)) (units : List UnitId) (later : Mac) :
    holdsBack a reads writes units later = true := by
  have hrange : (a.writes.any fun r => reads.any (meets r) || writes.any (meets r)) = true :=
    List.any_eq_true.2 ⟨wr, hwr, by simp [List.any_eq_true.2 ⟨rd, hrd, hmeets⟩]⟩
  simp only [holdsBack, hrange, Bool.or_true, Bool.true_or]

/-- A macro whose bounds are read and that an earlier one in flight holds back goes no further. -/
theorem State.advance_of_held {s : State} {x a : MacroSt} {w : Walk} {b : BoundPlan}
    (hfind : (s.fab.flight.find? fun y => decide (y.spar = x.spar) && decide (y.slot = x.slot)) = some x)
    (hwalk : s.walkAt x.spar x.walk = some w) (hplan : s.walkPlan w = some b) (hdone : x.done = false) (hstarted : x.started = false)
    (hresolved : x.resolved = true) (ha : a ∈ s.earlier x) (hholds : holdsBack a x.reads x.writes x.units x.word = true) :
    s.advance x = s.setFlight x := by
  have hheld : (((s.setFlight x).earlier x).any fun a => holdsBack a x.reads x.writes x.units x.word) = true := by
    rw [State.earlier_setFlight]
    exact List.any_eq_true.2 ⟨a, ha, hholds⟩
  unfold State.advance
  rw [hfind, hwalk]
  simp [hdone, hstarted, hresolved, hplan, hheld]

/-- Settles O34: a macro's entry is read off the state that it leaves, a walk without a slot stalls, and a macro that an earlier one's
writes hold back is noted as it was. What BOM_STALL_CNT counts is the attempts to issue (log entry 76). -/
theorem macroIssueOrder : Obligations.MacroIssueOrder := by
  unfold Obligations.MacroIssueOrder
  refine ⟨?_, ?_, ?_⟩
  · intro s w m slot done late hwalk hlast
    have hreg := s.reg_enterSlot w m slot done late
    refine ⟨s.entered w m slot done late, s.flight_enterSlot w m slot done late, rfl, rfl, rfl, rfl, rfl, rfl, rfl,
      s.issued_enterSlot w m slot done late, State.walkAt_enterSlot hwalk hlast slot done late, ?_, ?_, ?_,
      s.sameMemory_enterSlot w m slot done late⟩
    · rintro rfl
      exact (hreg _).trans (State.reg_setReg_same ..)
    · rintro rfl k -
      exact hreg k
    · intro k hk
      cases done with
      | false => exact hreg k
      | true => exact (hreg k).trans (State.reg_setReg_ne _ _ (by simpa using hk))
  · intro s spar id w b chk f late hwalk hstop hruns hleft hboom hread htest hrow hplan hkept hslot
    have hdue : s.MacroDue spar.toNat id.toNat (1, 0) w b :=
      ⟨hwalk, hstop, hruns, hleft, htest, hboom, hread, hrow, hplan, hkept⟩
    exact congrArg Outcome.next ((State.issue_of_due hdue chk f late).trans (State.serveDue_of_noSlot hslot w b chk f late))
  · intro s x a w b wr rd hfind hwalk hplan hdone hstarted hresolved ha hwr hrd hmeets
    rw [State.advance_of_held hfind hwalk hplan hdone hstarted hresolved ha (holdsBack_of_meets hwr hrd hmeets ..)]
    obtain ⟨hregs, hmem, hout⟩ := s.setFlight_outside x
    exact ⟨hregs, hmem, hout, rfl, State.find?_setFlight hfind⟩

end Sys2Proof.Machine
end

section
/-! Canvas jobs, evaluation slots and repeats (15 R348, R353, R357, R361 to R364; log entry 63). -/

namespace Sys2Proof.Machine

open Host

/-! ### The rows of the Canvas -/

theorem exec_eval (die : BitVec 2) (p : BitVec 7) (tag : BitVec 64) (h : BitVec 16) (job : Nat) (s : State) :
    exec (.eval die p tag h job) s = execEval die p tag h job s := rfl

theorem exec_evaluationSlot (die : BitVec 2) (chk : Check) (s : State) :
    exec (.evaluationSlot die chk) s = execEvaluationSlot die chk s := rfl

theorem exec_retryRepeat (die : BitVec 2) (panel : BitVec 11) (s : State) :
    exec (.retryRepeat die panel) s = execRetryRepeat die panel s := rfl

/-! ### Jobs -/

/-- While nothing runs or waits on the Canvas and no step is done, a job whose predecessors are done starts on its die. -/
theorem State.beginJob_of_free {s : State} {m : Model} {r : Req} {job i : Nat} {e : StepEntry} (hjobs : s.cnv.jobs = [])
    (hwaiting : s.cnv.waiting = []) (hdone : s.fab.doneSteps = [])
    (hstep : stepIndex (s.steps m) 1 job r.inDecode r.d.orderFree = some (i, e))
    (hpreds : s.predsDone r.part (s.stepTags r) e = true) (die : Nat) (front : Bool) :
    s.beginJob die m r job front = s.startJob die m r job i := by
  simp [State.beginJob, hstep, hjobs, hwaiting, hdone, hpreds]

/-- EVAL of a working request whose turn it is, on a die in service, begins the job of its step. -/
theorem exec_eval_of_working {s : State} {die : BitVec 2} {p : BitVec 7} {tag : BitVec 64} {h : BitVec 16} {r : Req} {m : Model}
    (hreq : s.req p.toNat tag = some r) (hmodel : s.model p.toNat h.toNat = some m) (hworks : r.working = true)
    (hturn : s.roundTurn r = true) (hhandle : r.d.model = m.handle) (hdie : s.bit (Key.cnvStat die.toNat) 31 = true) (job : Nat) :
    exec (.eval die p tag h job) s = .next (s.beginJob die.toNat m r job false) := by
  simp only [exec_eval, execEval, hreq, hmodel, hworks, hturn, hhandle, hdie, and_self, if_true]

/-! ### Evaluation slots -/

/-- A die on which nothing is idle takes work at once, and stays as it is. -/
theorem State.cnvWork_of_awake {s : State} (h : s.power.idle = []) (d : Nat) : s.cnvWork d = (s, true) := by
  have hidle (dom : IdleDomain) : s.idleOf dom = none := by rw [State.idleOf, h, List.find?_nil]
  simp [State.cnvWork, State.wakeAll, State.allAwake, State.wake, State.awake, hidle]

/-- Without jobs a slot's plan starts nothing and keeps no partition waiting. -/
theorem State.planSlot_of_noJobs {s : State} (h : s.cnv.jobs = []) (die : Nat) :
    (s.planSlot die).start = [] ∧ (s.planSlot die).waits = [] := by
  have horder : jobOrder s.cnv.jobs = [] := by simp [h, jobOrder]
  simp only [State.planSlot, horder, List.foldl_nil, and_self]

/-- A slot taken on a die: its time, the holds that end with it, and in CNV_STAT the panels that its plan has given out. -/
def State.takeSlot (s : State) (die : Nat) : State :=
  State.setFld { s with cnv := { s.cnv with
      slots := SMap.set (fun _ => 0) s.cnv.slots die s.tick
      held := s.cnv.held.filter fun q => decide (dieOfPanel q ≠ die) } }
    (Key.cnvStat die) 26 16 ((s.planSlot die).spent.map fun x => x.2).sum

/-- One sub-evaluation of a slot's plan, started if its job still has it to do. -/
def State.startPlanned (t : State) (x : Nat × Nat × SubEval) : State :=
  match t.cnv.jobs.find? fun j => decide (j.die = x.1) && decide (j.slot = x.2.1) with
  | some j => if x.2.2 ∈ j.todo then t.startEval j x.2.2 else t
  | none => t

/-- An open slot in which no job waits for its die to wake, no partition waits and no duplicate differs is taken, and starts what its
plan holds. -/
theorem exec_evaluationSlot_of_open {s : State} {die : BitVec 2} {chk : Check} (hdie : s.bit (Key.cnvStat die.toNat) 31 = true)
    (htime : SMap.get (fun _ => 0) s.cnv.slots die.toNat + 42 ≤ s.tick) (hawake : s.cnv.jobs = [] ∨ s.power.idle = [])
    (hwaits : (s.planSlot die.toNat).waits = []) (hchk : chk.mismatches = 0) :
    exec (.evaluationSlot die chk) s
      = .next ((s.planSlot die.toNat).start.foldl State.startPlanned (s.takeSlot die.toNat)) := by
  have hopen : ¬(s.bit (Key.cnvStat die.toNat) 31 = false ∨ s.tick < SMap.get (fun _ => 0) s.cnv.slots die.toNat + 42) := by
    simp [hdie, htime]
  have hgoes : ((s.cnv.jobs.any fun j => decide (j.die = die.toNat)) && !(s.cnvWork die.toNat).2) = false := by
    rcases hawake with h | h
    · simp [h]
    · simp [State.cnvWork_of_awake h]
  have hsame : (if (s.cnv.jobs.any fun j => decide (j.die = die.toNat)) = true then (s.cnvWork die.toNat).1 else s) = s := by
    rcases hawake with h | h
    · simp [h]
    · simp [State.cnvWork_of_awake h]
  have hsound : ¬2 ≤ chk.mismatches.toNat := by simp [hchk]
  have hone : chk.mismatches ≠ 1 := by simp [hchk]
  rw [exec_evaluationSlot, execEvaluationSlot]
  simp only [if_neg hopen, hgoes, Bool.false_eq_true, if_false, hsame, hwaits, List.foldl_nil, if_neg hsound, if_neg hone]
  rfl

/-- What a slot taken leaves: of the registers CNV_STAT alone changes, and its bit of a die in service stays. -/
theorem State.takeSlot_frame (s : State) (die : Nat) :
    RegsBut [Key.cnvStat die] s (s.takeSlot die) ∧ (s.takeSlot die).bit (Key.cnvStat die) 31 = s.bit (Key.cnvStat die) 31 ∧
      SameMemory s (s.takeSlot die) ∧ (s.takeSlot die).out = s.out := by
  refine ⟨fun k hk => State.reg_setFld_ne _ _ _ _ (by simpa using hk), ?_, SameMemory.of_mem rfl, rfl⟩
  exact congrArg (fun x => decide (x = 1)) (State.fld_setFld_ne _ _ (by omega) (by omega) (by omega))

theorem State.startPlanned_of_job {t : State} {j : Job} {e : SubEval} (hjobs : t.cnv.jobs = [j]) (htodo : e ∈ j.todo) :
    t.startPlanned (j.die, j.slot, e) = t.startEval j e := by
  simp [State.startPlanned, hjobs, htodo]

/-! ### Repeats -/

/-- The repeat that a panel owes for the one job with one sub-evaluation left is made at one gain higher, unless the panel is held. -/
theorem exec_retryRepeat_of_owed {s : State} {die : BitVec 2} {panel : BitVec 11} {j : Job} {e : SubEval} (hjobs : s.cnv.jobs = [j])
    (htodo : j.todo = [e]) (howes : e.repeat_ = true) (hpanel : 2048 * die.toNat + panel.toNat ∈ s.tilePanels j.desc e.ti e.tj)
    (hfree : 2048 * die.toNat + panel.toNat ∉ s.cnv.held) :
    exec (.retryRepeat die panel) s = .next (s.evaluate j e (e.gain + 1) true) := by
  have howed : (s.cnv.jobs.findSome? fun j =>
      (j.todo.find? fun e => e.repeat_ && decide (2048 * die.toNat + panel.toNat ∈ s.tilePanels j.desc e.ti e.tj)).map fun e => (j, e))
        = some (j, e) := by
    simp [hjobs, htodo, howes, hpanel]
  rw [exec_retryRepeat, execRetryRepeat]
  simp only [howed, if_neg hfree]

/-- Settles O36: EVAL begins the job on its die, an open slot is taken and folds over what its plan starts (nothing without jobs, one
sub-evaluation for one job), and RETRY_REPEAT finds the repeat that the panel owes. One EVALUATION_SLOT stands for the whole slot of a
die (log entry 63); what a slot counts is the panels that it gives out, in CNV_STAT. -/
theorem canvasEvaluates : Obligations.CanvasEvaluates := by
  unfold Obligations.CanvasEvaluates
  refine ⟨?_, ?_, ?_, ?_⟩
  · intro s die p tag h job r m i e hreq hmodel hworks hhandle hdie hstep hturn hjobs hwaiting hdone hpreds
    rw [exec_eval_of_working hreq hmodel hworks hturn hhandle hdie, State.beginJob_of_free hjobs hwaiting hdone hstep hpreds]
  · intro s die chk hdie htime hjobs hchk
    obtain ⟨hstart, hwaits⟩ := State.planSlot_of_noJobs hjobs die.toNat
    obtain ⟨hregs, hserves, hmem, hout⟩ := s.takeSlot_frame die.toNat
    refine ⟨s.takeSlot die.toNat, ?_, SMap.get_set_same .., rfl, hregs, hserves.trans hdie, hmem, hout⟩
    rw [exec_evaluationSlot_of_open hdie htime (.inl hjobs) hwaits hchk, hstart, List.foldl_nil]
  · intro s die chk j e hdie htime hawake hjobs _ hstart htodo hwaits hchk
    rw [exec_evaluationSlot_of_open hdie htime (.inr hawake) hwaits hchk, hstart]
    exact congrArg Outcome.next (State.startPlanned_of_job (t := s.takeSlot die.toNat) hjobs htodo)
  · intro s die panel j e hjobs htodo howes hpanel hfree
    exact exec_retryRepeat_of_owed hjobs htodo howes hpanel hfree

end Sys2Proof.Machine
end

section
/-! What the work on the Canvas changes: panels, and the records of their groups (16 R376 to R402; 22 R549). -/

namespace Sys2Proof

/-- What every listed value and the value of an unlisted key have, every read has. -/
theorem SMap.get_induct {α : Type} {P : α → Prop} {d : Nat → α} {m : SMap α} (hd : ∀ k, P (d k)) (hm : ∀ e ∈ m, P e.2) (k : Nat) :
    P (SMap.get d m k) := by
  induction m with
  | nil => exact hd k
  | cons e m ih =>
    unfold SMap.get
    split
    · exact hm e List.mem_cons_self
    · exact ih fun e he => hm e (List.mem_cons_of_mem _ he)

namespace Machine

/-! ### Panels and groups after an update -/

@[simp] theorem State.group_setPanel (s : State) (q g : Nat) (x : Panel) : (s.setPanel q x).group g = s.group g := rfl
@[simp] theorem State.panel_setGroup (s : State) (g q : Nat) (x : Group) : (s.setGroup g x).panel q = s.panel q := rfl
@[simp] theorem State.group_setBit (s : State) (k b g : Nat) (x : Bool) : (s.setBit k b x).group g = s.group g := rfl

/-- `t` is `s` with other panels: registers, memory, groups, panels held for a slot and what is given outside are those of `s`. -/
def State.PanelsOnly (s t : State) : Prop := ∃ ps, t = { s with cnv := { s.cnv with panels := ps } }

theorem State.panelsOnly_setPanel (s : State) (q : Nat) (x : Panel) : s.PanelsOnly (s.setPanel q x) := ⟨_, rfl⟩

namespace State.PanelsOnly

variable {s t u : State}

theorem refl (s : State) : s.PanelsOnly s := ⟨s.cnv.panels, rfl⟩

theorem trans (h : s.PanelsOnly t) (h' : t.PanelsOnly u) : s.PanelsOnly u := by
  obtain ⟨_, rfl⟩ := h
  obtain ⟨ps, rfl⟩ := h'
  exact ⟨ps, rfl⟩

theorem foldl {α : Type} {f : State → α → State} (hf : ∀ (t : State) (x : α), t.PanelsOnly (f t x)) (l : List α) (s : State) :
    s.PanelsOnly (l.foldl f s) :=
  List.foldlRecOn l _ (refl s) fun t ht x _ => ht.trans (hf t x)

theorem regs (h : s.PanelsOnly t) : t.regs = s.regs := by obtain ⟨_, rfl⟩ := h; rfl
theorem mem (h : s.PanelsOnly t) : t.mem = s.mem := by obtain ⟨_, rfl⟩ := h; rfl
theorem out (h : s.PanelsOnly t) : t.out = s.out := by obtain ⟨_, rfl⟩ := h; rfl
theorem freeCtr (h : s.PanelsOnly t) : t.freeCtr = s.freeCtr := by obtain ⟨_, rfl⟩ := h; rfl
theorem power (h : s.PanelsOnly t) : t.power = s.power := by obtain ⟨_, rfl⟩ := h; rfl
theorem held (h : s.PanelsOnly t) : t.cnv.held = s.cnv.held := by obtain ⟨_, rfl⟩ := h; rfl
theorem group (h : s.PanelsOnly t) (g : Nat) : t.group g = s.group g := by obtain ⟨_, rfl⟩ := h; rfl

end State.PanelsOnly

theorem RegsBut.of_regs {s t : State} (h : t.regs = s.regs) (ks : List Nat) : RegsBut ks s t := fun k _ => by
  simp only [State.reg, h]

theorem State.panelsOnly_foldl_setPanel (f : Panel → Panel) (l : List Nat) (s : State) :
    s.PanelsOnly (l.foldl (fun t q => t.setPanel q (f (t.panel q))) s) :=
  .foldl (fun t q => t.panelsOnly_setPanel q _) l s

/-- An update of panels that need be made only once, made on every panel of a list. -/
theorem State.panel_foldl_setPanel {f : Panel → Panel} (hf : ∀ x, f (f x) = f x) (l : List Nat) (s : State) (q : Nat) :
    (l.foldl (fun t p => t.setPanel p (f (t.panel p))) s).panel q = if q ∈ l then f (s.panel q) else s.panel q := by
  induction l generalizing s with
  | nil => rfl
  | cons p l ih =>
    rw [List.foldl_cons, ih]
    by_cases hp : q = p
    · subst hp
      simp [hf]
    · simp [State.panel_setPanel_ne _ _ hp, hp]

end Machine
end Sys2Proof
end

section
/-! Programming the Canvas: batches, the verify read of a group bound by its tag, and erasure (16 R378 to R382; 22 R549). -/

namespace Sys2Proof.Machine

open Host

/-! ### The rows -/

theorem exec_programBatch (die : BitVec 2) (panel : BitVec 11) (failed : List (BitVec 10)) (s : State) :
    exec (.programBatch die panel failed) s = execProgramBatch die panel failed s := rfl

theorem exec_verifyRead (g : Byte) (bad : List (BitVec 5 × BitVec 10)) (s : State) :
    exec (.verifyRead g bad) s = execVerifyRead g bad s := rfl

theorem exec_erase (g : Byte) (stuck : List (BitVec 5)) (s : State) : exec (.erase g stuck) s = execErase g stuck s := rfl

/-! ### The first batch of a panel -/

/-- A panel whose programming starts loses its group's tag, whether it is refreshed or programmed anew. -/
theorem State.startBatches_frame (s : State) (q : Nat) : ((s.startBatches q).group (groupOfPanel q)).tag = {} ∧
    (s.startBatches q).mem = s.mem ∧ (s.startBatches q).out = s.out := by
  unfold State.startBatches
  dsimp only
  split <;> simp

theorem State.panelsOnly_writeBatch (s : State) (q b : Nat) : s.PanelsOnly (s.writeBatch q b) := s.panelsOnly_setPanel q _

/-- The first batch of a panel, written. -/
def State.firstBatch (s : State) (q : Nat) : State :=
  let t := (s.startBatches q).writeBatch q 0
  t.setPanel q { t.panel q with batch := some 1 }

theorem exec_programBatch_of_owed {s : State} {die : BitVec 2} {panel : BitVec 11}
    (hserves : (s.panel (2048 * die.toNat + panel.toNat)).out = false)
    (howes : (s.panel (2048 * die.toNat + panel.toNat)).owed = true)
    (hnew : (s.panel (2048 * die.toNat + panel.toNat)).batch = none) (hawake : s.power.idle = []) (hvprog : 2375 ≤ s.pins.vprog)
    (hmay : s.mayProgram (2048 * die.toNat + panel.toNat) = true) :
    exec (.programBatch die panel []) s = .next (s.firstBatch (2048 * die.toNat + panel.toNat)) := by
  simp [exec_programBatch, execProgramBatch, hserves, howes, hnew, State.cnvWork_of_awake hawake, hmay, Nat.not_lt.2 hvprog,
    State.failColumns, State.firstBatch]

theorem State.firstBatch_frame (s : State) (q : Nat) : ((s.firstBatch q).panel q).batch = some 1 ∧
    ((s.firstBatch q).group (groupOfPanel q)).tag = {} ∧ (s.firstBatch q).mem = s.mem ∧ (s.firstBatch q).out = s.out := by
  obtain ⟨htag, hmem, hout⟩ := s.startBatches_frame q
  have hpanels : (s.startBatches q).PanelsOnly (s.firstBatch q) :=
    (State.panelsOnly_writeBatch _ q 0).trans (State.panelsOnly_setPanel _ q _)
  refine ⟨congrArg Panel.batch (State.panel_setPanel_same ..), ?_, hpanels.mem.trans hmem, hpanels.out.trans hout⟩
  rw [hpanels.group, htag]

/-! ### The verify read -/

/-- A panel that owes programming. -/
def Panel.owing (x : Panel) : Panel := { x with owed := true }

/-- The panels of a group that hold a tile and failed their verify read. -/
def State.failedVerify (s : State) (g : Nat) (bad : List (BitVec 5 × BitVec 10)) : List Nat :=
  ((bad.map fun e => 32 * g + e.1.toNat).filter fun q => decide ((s.panel q).image ≠ none)).eraseDups

/-- The verify read of a group, with the panels that failed it owed as a whole (log entry 65). -/
def State.verified (s : State) (g : Nat) (m : Model) (b : BoundGroup) (bad : List (BitVec 5 × BitVec 10)) : State :=
  (s.failedVerify g bad).foldl (fun t q => t.setPanel q (t.panel q).owing) (s.setBound m { b with retained := false })

theorem exec_verifyRead_of_bound {s : State} {g : Byte} {m : Model} {b : BoundGroup} (hbound : s.boundGroup g.toNat = some (m, b))
    (htag : b.retained = true) (hmay : s.mayProgram (32 * g.toNat) = true) (bad : List (BitVec 5 × BitVec 10)) :
    exec (.verifyRead g bad) s = .next (s.verified g.toNat m b bad) := by
  simp only [exec_verifyRead, execVerifyRead, hbound, htag, hmay, and_self, if_true]
  rfl

theorem State.panelsOnly_verified (s : State) (g : Nat) (m : Model) (b : BoundGroup) (bad : List (BitVec 5 × BitVec 10)) :
    (s.setBound m { b with retained := false }).PanelsOnly (s.verified g m b bad) :=
  State.panelsOnly_foldl_setPanel Panel.owing _ _

/-- Every panel with a tile and a cell out of tolerance is owed. -/
theorem State.owed_verified {s : State} {g : Nat} {bad : List (BitVec 5 × BitVec 10)} {e : BitVec 5 × BitVec 10} (he : e ∈ bad)
    (hholds : (s.panel (32 * g + e.1.toNat)).image ≠ none) (m : Model) (b : BoundGroup) :
    ((s.verified g m b bad).panel (32 * g + e.1.toNat)).owed = true := by
  have hmem : 32 * g + e.1.toNat ∈ s.failedVerify g bad := by
    rw [State.failedVerify, List.mem_eraseDups, List.mem_filter]
    exact ⟨List.mem_map_of_mem he, decide_eq_true hholds⟩
  rw [State.verified, State.panel_foldl_setPanel (f := Panel.owing) fun _ => rfl, if_pos hmem]
  rfl

/-! ### Erasure -/

/-- A panel that holds no weights of an image, and whose programming has stopped. -/
def Panel.unloaded (x : Panel) : Panel :=
  { x with copy := none, image := none, batch := none, sparing := [], dev := [], owed := false, refreshDue := false, refreshing := false }

/-- A panel without levels, factors and deviations. -/
def Panel.erased (x : Panel) : Panel := { x with cells := [], factors := [], dev := [] }

theorem State.clearPanelWork_of_noCopy {s : State} {q : Nat} (h : (s.panel q).copy = none) :
    s.clearPanelWork q = s.setPanel q (s.panel q).unloaded := by
  simp only [State.clearPanelWork, h]
  rfl

theorem State.foldl_clearPanelWork_of_noCopy (l : List Nat) {s : State} (h : ∀ q ∈ l, (s.panel q).copy = none) :
    l.foldl State.clearPanelWork s = l.foldl (fun t q => t.setPanel q (t.panel q).unloaded) s := by
  induction l generalizing s with
  | nil => rfl
  | cons p l ih =>
    rw [List.foldl_cons, List.foldl_cons, State.clearPanelWork_of_noCopy (h p List.mem_cons_self)]
    refine ih fun q hq => ?_
    by_cases hp : q = p
    · subst hp
      rw [State.panel_setPanel_same]
      rfl
    · rw [State.panel_setPanel_ne _ _ hp]
      exact h q (List.mem_cons_of_mem _ hq)

/-- A group as it is unbound, before the work on its panels is cleared. -/
def State.unboundRecord (s : State) (g : Nat) : State :=
  (s.setGroup g { s.group g with model := none, due := false }).setBit (Key.cpgStat g) 30 false

/-- The group's record as its erasure leaves it. -/
def State.erasedRecord (t : State) (g : Nat) : State := t.setGroup g { t.group g with tag := {}, fG := 0x4000 }

/-- The erasure of a group without copies: its record, its panels, its record again and its panels again. -/
theorem State.eraseGroup_of_noCopy {s : State} {g : Nat} (h : ∀ q ∈ groupPanels g, (s.panel q).copy = none) :
    s.eraseGroup g = (groupPanels g).foldl (fun t q => t.setPanel q (t.panel q).erased)
      (((groupPanels g).foldl (fun t q => t.setPanel q (t.panel q).unloaded) (s.unboundRecord g)).erasedRecord g) := by
  have hclear : s.unbindGroup g = (groupPanels g).foldl (fun t q => t.setPanel q (t.panel q).unloaded) (s.unboundRecord g) :=
    State.foldl_clearPanelWork_of_noCopy (groupPanels g) (s := s.unboundRecord g) h
  rw [← hclear]
  rfl

theorem State.panel_eraseGroup {s : State} {g q : Nat} (h : ∀ q ∈ groupPanels g, (s.panel q).copy = none) (hq : q ∈ groupPanels g) :
    (s.eraseGroup g).panel q = (s.panel q).unloaded.erased := by
  rw [State.eraseGroup_of_noCopy h, State.panel_foldl_setPanel (f := Panel.erased) fun _ => rfl, if_pos hq, State.erasedRecord,
    State.panel_setGroup, State.panel_foldl_setPanel (f := Panel.unloaded) fun _ => rfl, if_pos hq]
  rfl

theorem State.eraseGroup_frame {s : State} {g : Nat} (h : ∀ q ∈ groupPanels g, (s.panel q).copy = none) :
    ((s.eraseGroup g).group g).tag = {} ∧ (s.eraseGroup g).mem = s.mem ∧ (s.eraseGroup g).out = s.out := by
  rw [State.eraseGroup_of_noCopy h]
  have hunloaded := (s.unboundRecord g).panelsOnly_foldl_setPanel Panel.unloaded (groupPanels g)
  generalize (groupPanels g).foldl (fun t q => t.setPanel q (t.panel q).unloaded) (s.unboundRecord g) = u at *
  have herased := (u.erasedRecord g).panelsOnly_foldl_setPanel Panel.erased (groupPanels g)
  refine ⟨?_, herased.mem.trans hunloaded.mem, herased.out.trans hunloaded.out⟩
  rw [herased.group, State.erasedRecord, State.group_setGroup_same]

theorem exec_erase_of_free {s : State} {g : Byte} (hmodel : (s.group g.toNat).model = none)
    (htag : (s.group g.toNat).tag.valid = false) (hvprog : 2375 ≤ s.pins.vprog) :
    exec (.erase g []) s = .next (s.eraseGroup g.toNat) := by
  simp [exec_erase, execErase, hmodel, htag, Nat.not_lt.2 hvprog]

/-- Settles O37: PROGRAM_BATCH by the first batch of the panel, VERIFY_READ by the panels that it leaves owed, ERASE by what an erasure
leaves of a group without copies. A panel that failed its verify read is owed as a whole, and a group with no image and no valid tag may be
erased (log entry 65). -/
theorem canvasPrograms : Obligations.CanvasPrograms := by
  unfold Obligations.CanvasPrograms
  refine ⟨?_, ?_, ?_⟩
  · intro s die panel hserves howes hnew hawake hvprog hmay
    obtain ⟨hbatch, htag, hmem, hout⟩ := s.firstBatch_frame (2048 * die.toNat + panel.toNat)
    exact ⟨_, exec_programBatch_of_owed hserves howes hnew hawake hvprog hmay, hbatch, htag, .of_mem hmem, hout⟩
  · intro s g bad m b hbound htag hmay
    have hpanels := s.panelsOnly_verified g.toNat m b bad
    exact ⟨_, exec_verifyRead_of_bound hbound htag hmay bad, fun e he hholds => State.owed_verified he hholds m b,
      .of_regs hpanels.regs _, .of_mem hpanels.mem, hpanels.out⟩
  · intro s g hmodel htag hvprog hcopy
    obtain ⟨hcleared, hmem, hout⟩ := State.eraseGroup_frame hcopy
    refine ⟨_, exec_erase_of_free hmodel htag hvprog, hcleared, fun q hq => ?_, .of_mem hmem, hout⟩
    rw [State.panel_eraseGroup hcopy hq]
    exact ⟨rfl, rfl, rfl, rfl, rfl⟩

end Sys2Proof.Machine
end

section
/-! The upkeep of the Canvas: re-references, temperatures, refreshes, visits and spares (16 R383 to R402). -/

namespace Sys2Proof.Machine

open Host

/-! ### The rows -/

theorem exec_rereference (g : Byte) (temp : Int) (s : State) : exec (.rereference g temp) s = execRereference g temp s := rfl

theorem exec_tempTrack (g : Byte) (temp : Int) (s : State) : exec (.tempTrack g temp) s = execTempTrack g temp s := rfl

theorem exec_refresh (die : BitVec 2) (panel : BitVec 11) (s : State) : exec (.refresh die panel) s = execRefresh die panel s := rfl

theorem exec_sentinelVisit (die : BitVec 2) (panel : BitVec 11) (deviant : List (BitVec 10)) (refs : Bool) (s : State) :
    exec (.sentinelVisit die panel deviant refs) s = execSentinelVisit die panel deviant refs s := rfl

theorem exec_spareProgram (die : BitVec 2) (panel : BitVec 11) (col : BitVec 10) (stuck : Bool) (s : State) :
    exec (.spareProgram die panel col stuck) s = execSpareProgram die panel col stuck s := rfl

theorem exec_rereferenceNow (m : Master) (g : Byte) (be : BitVec 4) (s : State) :
    exec (.rereferenceNow m g be) s = execRereferenceNow m g be s := rfl

theorem exec_visitNow (m : Master) (g : Byte) (be : BitVec 4) (s : State) : exec (.visitNow m g be) s = execVisitNow m g be s := rfl

/-! ### Copies -/

/-- A copy without an uncorrectable line can be used as it stands. -/
theorem State.checkCopy_of_sound {s : State} {q a i : Nat} (hcopy : (s.panel q).copy = some a) (himage : (s.panel q).image = some i)
    (hsound : s.poisoned a 524288 = none) : s.checkCopy q = (true, s) := by
  simp only [State.checkCopy, hcopy, himage, hsound]

/-- The copies of some panels checked one after the other: whether all can be used, and what is left. -/
def State.checkCopies (s : State) (qs : List Nat) : Bool × State :=
  qs.foldl (fun (a : Bool × State) q => let r := a.2.checkCopy q; (a.1 && r.1, r.2)) (true, s)

theorem State.checkCopies_of_sound {s : State} {qs : List Nat} (h : ∀ q ∈ qs, s.checkCopy q = (true, s)) :
    s.checkCopies qs = (true, s) :=
  List.foldlRecOn (motive := fun a => a = (true, s)) qs _ rfl fun a ha q hq => by
    subst ha
    simp [h q hq]

/-- The panels of a group that hold a tile, with sound copies, have copies that can be used. -/
theorem State.checkCopies_tilesOf {s : State} {g : Nat}
    (h : ∀ q ∈ s.tilesOf g, (s.panel q).copy.map (s.poisoned · 524288) = some none) : s.checkCopies (s.tilesOf g) = (true, s) := by
  refine State.checkCopies_of_sound fun q hq => ?_
  obtain ⟨a, hcopy, hsound⟩ := Option.map_eq_some_iff.1 (h q hq)
  have hholds : (s.panel q).image ≠ none := by
    obtain ⟨-, htile⟩ := List.mem_filter.1 hq
    exact of_decide_eq_true (Bool.and_eq_true_iff.1 htile).1
  obtain ⟨i, himage⟩ := Option.ne_none_iff_exists'.1 hholds
  exact State.checkCopy_of_sound hcopy himage hsound

/-! ### The steps of a re-reference -/

theorem State.measurePanel_eq (s : State) (q n : Nat) :
    ∃ factors, (s.measurePanel q n).1 = s.setPanel q { s.panel q with factors := factors } := ⟨_, rfl⟩

/-- The factors of some panels measured, with the largest of each. -/
def State.measurePanels (s : State) (qs : List Nat) (n : Nat) : State × List (Nat × Nat) :=
  qs.foldl (fun (a : State × List (Nat × Nat)) q => let r := a.1.measurePanel q n; (r.1, a.2 ++ [(q, r.2)]))
    ({ s with freeCtr := n + 1 }, [])

/-- Measuring changes panels alone, makes none of them one that is refreshed, and gives a factor for panels of the list alone. -/
theorem State.measurePanels_frame (s : State) (qs : List Nat) (n : Nat) :
    State.PanelsOnly { s with freeCtr := n + 1 } (s.measurePanels qs n).1 ∧
      (∀ q, ((s.measurePanels qs n).1.panel q).refreshing = (s.panel q).refreshing) ∧
      ∀ e ∈ (s.measurePanels qs n).2, e.1 ∈ qs := by
  refine List.foldlRecOn (motive := fun (a : State × List (Nat × Nat)) => State.PanelsOnly { s with freeCtr := n + 1 } a.1 ∧
    (∀ q, (a.1.panel q).refreshing = (s.panel q).refreshing) ∧ ∀ e ∈ a.2, e.1 ∈ qs) qs _
    ⟨.refl _, fun _ => rfl, fun _ he => absurd he List.not_mem_nil⟩ ?_
  rintro a ⟨hpanels, hkept, hlist⟩ q hq
  obtain ⟨factors, hset⟩ := a.1.measurePanel_eq q n
  dsimp only
  rw [hset]
  refine ⟨hpanels.trans (State.panelsOnly_setPanel _ q _), fun p => ?_, fun e he => ?_⟩
  · rw [← hkept p]
    by_cases hp : p = q
    · subst hp
      rw [State.panel_setPanel_same]
    · rw [State.panel_setPanel_ne _ _ hp]
  · rcases List.mem_append.1 he with h | h
    · exact hlist e h
    · rw [List.mem_singleton.1 h]
      exact hq

/-- A panel that is not refreshed is judged in its own record. -/
theorem State.judgePanel_of_steady {s : State} {q : Nat} (h : (s.panel q).refreshing = false) (top : Nat) :
    s.judgePanel q top = s.setPanel q { s.panel q with refreshing := false, refreshDue := decide (s.threshold (groupOfPanel q) < top) } := by
  simp [State.judgePanel, h]

/-- Panels judged one after the other by their largest factors. -/
def State.judgePanels (s : State) (l : List (Nat × Nat)) : State := l.foldl (fun t e => t.judgePanel e.1 e.2) s

theorem State.panelsOnly_judgePanels {s : State} {l : List (Nat × Nat)} (h : ∀ e ∈ l, (s.panel e.1).refreshing = false) :
    s.PanelsOnly (s.judgePanels l) := by
  have hsteady : s.PanelsOnly (s.judgePanels l) ∧ ∀ e ∈ l, ((s.judgePanels l).panel e.1).refreshing = false := by
    refine List.foldlRecOn (motive := fun t => s.PanelsOnly t ∧ ∀ e ∈ l, (t.panel e.1).refreshing = false) l _ ⟨.refl s, h⟩ ?_
    rintro t ⟨hpanels, hkept⟩ e he
    rw [State.judgePanel_of_steady (hkept e he)]
    refine ⟨hpanels.trans (State.panelsOnly_setPanel _ _ _), fun x hx => ?_⟩
    by_cases hp : x.1 = e.1
    · rw [hp, State.panel_setPanel_same]
    · rw [State.panel_setPanel_ne _ _ hp]
      exact hkept x hx
  exact hsteady.1

/-- A group that counts as programmed: of its record the tag alone is written, and of the rest of the Canvas and of memory nothing. -/
theorem State.countProgrammed_frame (s : State) (g : Nat) : (∃ tag, (s.countProgrammed g).group g = { s.group g with tag := tag }) ∧
    (s.countProgrammed g).cnv.panels = s.cnv.panels ∧ (s.countProgrammed g).cnv.held = s.cnv.held ∧
    (s.countProgrammed g).power = s.power ∧ (s.countProgrammed g).freeCtr = s.freeCtr ∧ (s.countProgrammed g).mem = s.mem ∧
    (s.countProgrammed g).out = s.out := by
  unfold State.countProgrammed
  split
  next m b _ =>
    exact ⟨⟨{ valid := true, digest := m.digest, logical := b.logical, mode := b.mode }, State.group_setGroup_same ..⟩, rfl, rfl, rfl, rfl,
      rfl, rfl⟩
  next => exact ⟨⟨(s.group g).tag, rfl⟩, rfl, rfl, rfl, rfl, rfl, rfl⟩

/-- An event registered touches the table of events and the count of those that found it full. -/
theorem State.ttlRegister_frame (s : State) (target : Nat) (client : TtlClient) (dies : List Nat) :
    (s.ttlRegister target client dies).cnv = s.cnv ∧ (s.ttlRegister target client dies).power = s.power ∧
      (s.ttlRegister target client dies).freeCtr = s.freeCtr ∧ (s.ttlRegister target client dies).mem = s.mem ∧
      (s.ttlRegister target client dies).out = s.out := by
  unfold State.ttlRegister
  split <;> exact ⟨rfl, rfl, rfl, rfl, rfl⟩

/-- While nothing is idle, an event registered wakes nothing. -/
theorem State.scheduleEvent_of_awake {s : State} (h : s.power.idle = []) (target : Nat) (client : TtlClient) (dies : List Nat) :
    s.scheduleEvent target client dies = s.ttlRegister target client dies := by
  obtain ⟨-, hpower, -⟩ := s.ttlRegister_frame target client dies
  simp only [State.scheduleEvent, hpower, h, List.foldl_nil]

/-- Panels held for the slot that runs. -/
def State.holdPanels (s : State) (qs : List Nat) : State := { s with cnv := { s.cnv with held := s.cnv.held ++ qs } }

/-- A re-reference recorded for the panels `qs` of a group, after their factors are measured: the group's record `x`, its time and its
largest factor `top`, the panels held for the slot, the group counted as programmed, and its next re-reference put into the table of events. -/
def State.recordReference (s : State) (g : Nat) (x : Group) (now : Word) (top : Nat) (qs : List Nat) (target : Nat) : State :=
  let t := ((s.setGroup g x).setReg (Key.cpgRerefTt g) now).setReg (Key.cpgFmax g) (BitVec.ofNat 32 top)
  ((t.holdPanels qs).countProgrammed g).scheduleEvent target (.reref g) [4 + g / 64]

theorem State.recordReference_frame {s : State} (h : s.power.idle = []) (g : Nat) (x : Group) (now : Word) (top : Nat) (qs : List Nat)
    (target : Nat) :
    (∃ tag, (s.recordReference g x now top qs target).group g = { x with tag := tag }) ∧
      (s.recordReference g x now top qs target).cnv.panels = s.cnv.panels ∧
      (s.recordReference g x now top qs target).cnv.held = s.cnv.held ++ qs ∧
      (s.recordReference g x now top qs target).freeCtr = s.freeCtr ∧ (s.recordReference g x now top qs target).mem = s.mem ∧
      (s.recordReference g x now top qs target).out = s.out := by
  unfold State.recordReference
  extract_lets t
  have hgroup : (t.holdPanels qs).group g = x := s.group_setGroup_same g x
  obtain ⟨⟨tag, htag⟩, hpanels, hheld, hpower, hfree, hmem, hout⟩ := (t.holdPanels qs).countProgrammed_frame g
  have hawake : ((t.holdPanels qs).countProgrammed g).power.idle = [] := (congrArg Power.idle hpower).trans h
  rw [State.scheduleEvent_of_awake hawake]
  obtain ⟨hcnv, -, hfree', hmem', hout'⟩ :=
    ((t.holdPanels qs).countProgrammed g).ttlRegister_frame target (.reref g) [4 + g / 64]
  refine ⟨⟨tag, ?_⟩, ?_, ?_, hfree'.trans hfree, hmem'.trans hmem, hout'.trans hout⟩
  · rw [State.group, hcnv, ← hgroup]
    exact htag
  · rw [hcnv, hpanels]
    rfl
  · rw [hcnv, hheld]
    rfl

/-- A group's record at a re-reference: the factor of the group, f_T = 1.0, the temperature and the time, and none owed. -/
def Group.atReference (x : Group) (fG : Nat) (temp : Int) (tick : Nat) : Group :=
  { x with fG := fG, fT := 0x4000, tRef := some temp, temp := temp, lastRef := some tick, due := false }

/-- A re-reference of the panels `qs` of a group: they are measured, what they gave is recorded, with the factor `fG` and the time, and
they are judged. -/
def State.referenced (s : State) (g : Nat) (temp : Int) (qs : List Nat) (fG : Nat) (now : Word) (top target : Nat) : State :=
  let a := s.measurePanels qs s.freeCtr
  (a.1.recordReference g ((a.1.group g).atReference fG temp s.tick) now top qs target).judgePanels a.2

theorem exec_rereference_of_due {s : State} {g : Byte} (hserves : s.inService ⟨utGroup, g.toNat, 0⟩ = true)
    (hsettled : s.settled g.toNat = true) (hdue : s.refDue g.toNat = true)
    (hcopies : s.checkCopies (s.tilesOf g.toNat) = (true, s)) (temp : Int) :
    ∃ fG now top target,
      exec (.rereference g temp) s = .next (s.referenced g.toNat temp (s.tilesOf g.toNat) fG now top target) := by
  have hgo : ¬(s.inService ⟨utGroup, g.toNat, 0⟩ = false ∨ s.settled g.toNat = false ∨
      (s.refDue g.toNat = false ∧ (s.group g.toNat).lastRef ≠ none)) := by
    simp [hserves, hsettled, hdue]
  rw [exec_rereference, execRereference, if_neg hgo]
  extract_lets +onlyGivenNames chk s0
  have husable : chk.1 = true := congrArg Prod.fst hcopies
  have hsame : s0 = s := congrArg Prod.snd hcopies
  clear_value s0
  subst hsame
  rw [if_neg (by simp [husable])]
  exact ⟨_, _, _, _, rfl⟩

theorem State.referenced_frame {s : State} {qs : List Nat} (hawake : s.power.idle = [])
    (hsteady : ∀ q ∈ qs, (s.panel q).refreshing = false) (g : Nat) (temp : Int) (fG : Nat) (now : Word) (top target : Nat) :
    (∃ (x : Group) (tag : GroupTag), (s.referenced g temp qs fG now top target).group g =
        { x.atReference fG temp s.tick with tag := tag }) ∧
      (s.referenced g temp qs fG now top target).cnv.held = s.cnv.held ++ qs ∧
      (s.referenced g temp qs fG now top target).freeCtr = s.freeCtr + 1 ∧
      (s.referenced g temp qs fG now top target).mem = s.mem ∧ (s.referenced g temp qs fG now top target).out = s.out := by
  unfold State.referenced
  extract_lets a
  obtain ⟨hmeasured, hkept, hlist⟩ := s.measurePanels_frame qs s.freeCtr
  obtain ⟨⟨tag, htag⟩, hsame, hheld, hfree, hmem, hout⟩ := State.recordReference_frame
    ((congrArg Power.idle hmeasured.power).trans hawake) g ((a.1.group g).atReference fG temp s.tick) now top qs target
  generalize a.1.recordReference g ((a.1.group g).atReference fG temp s.tick) now top qs target = t at *
  have hjudged : t.PanelsOnly (t.judgePanels a.2) := by
    refine State.panelsOnly_judgePanels fun e he => ?_
    rw [State.panel, hsame]
    exact (hkept e.1).trans (hsteady e.1 (hlist e he))
  refine ⟨⟨a.1.group g, tag, (hjudged.group g).trans htag⟩, ?_, hjudged.freeCtr.trans (hfree.trans hmeasured.freeCtr),
    hjudged.mem.trans (hmem.trans hmeasured.mem), hjudged.out.trans (hout.trans hmeasured.out)⟩
  rw [hjudged.held, hheld, hmeasured.held]

/-! ### Temperatures and refreshes -/

theorem exec_tempTrack_of_unreferenced {s : State} {g : Byte} (h : (s.group g.toNat).tRef = none) (temp : Int) :
    exec (.tempTrack g temp) s = .next (s.setGroup g.toNat { s.group g.toNat with temp := temp }) := by
  simp only [exec_tempTrack, execTempTrack, h]

/-- A group's record after its sensor reads `temp`, its last re-reference having been at `t0`. -/
def State.tracked (s : State) (g : Nat) (temp t0 : Int) : Group :=
  { s.group g with
    temp := temp, fT := trackFactor (s.fld (Key.cpgTcoef g) 15 0) temp t0
    due := (s.group g).due || decide (max 1 (s.fld (Key.cpgUpkCfg g) 15 8) < (temp - t0).natAbs) }

theorem exec_tempTrack_of_referenced {s : State} {g : Byte} {t0 : Int} (h : (s.group g.toNat).tRef = some t0) (temp : Int) :
    exec (.tempTrack g temp) s = .next (s.setGroup g.toNat (s.tracked g.toNat temp t0)) := by
  simp only [exec_tempTrack, execTempTrack, h, State.tracked]

/-- A panel of a sound copy whose refresh is due is owed programming as a whole (log entry 65), while no other panel is refreshed. -/
theorem exec_refresh_of_due {s : State} {die : BitVec 2} {panel : BitVec 11}
    (hserves : (s.panel (2048 * die.toNat + panel.toNat)).out = false)
    (hdue : (s.panel (2048 * die.toNat + panel.toNat)).refreshDue = true)
    (hsteady : ∀ e ∈ s.cnv.panels, e.2.refreshing = false) (hvprog : 2375 ≤ s.pins.vprog)
    (hcopy : s.checkCopy (2048 * die.toNat + panel.toNat) = (true, s)) :
    exec (.refresh die panel) s = .next (s.setPanel (2048 * die.toNat + panel.toNat)
      { s.panel (2048 * die.toNat + panel.toNat) with owed := true, refreshDue := false, refreshing := true }) := by
  have hnone (q : Nat) : (s.panel q).refreshing = false := SMap.get_induct (P := fun x : Panel => x.refreshing = false) (fun _ => rfl) hsteady q
  simp [exec_refresh, execRefresh, hserves, hdue, hnone, Nat.not_lt.2 hvprog, hcopy]

/-! ### Visits -/

@[simp] theorem State.panel_inc (s : State) (k q : Nat) : (s.inc k).panel q = s.panel q := rfl

/-- A count incremented in a state with the registers of `s` is the one register that differs. -/
theorem RegsBut.inc {s t : State} (h : t.regs = s.regs) (k : Nat) : RegsBut [k] s (t.inc k) := fun j hj => by
  rw [State.inc, State.reg_setReg_ne _ _ (by simpa using hj), State.reg, h]
  rfl

/-- Without an armed injection no column is made to deviate. -/
theorem State.injSentinel_of_none {s : State} (h : s.rel.inject = none) (q : Nat) : s.injSentinel q = s := by
  simp [State.injSentinel, State.injHits, h]

/-- A visit of a panel in which no column deviates: it is counted, and the panel is clean and held for the slot. -/
def State.cleanVisit (s : State) (q : Nat) : State :=
  let g := groupOfPanel q
  let t := s.setPanel q { s.panel q with visits := (s.panel q).visits + 1, dev := [], clean := s.time.count.toNat }
  let u := t.setGroup g { t.group g with visit := (t.group g).visit.filter fun y => decide (y ≠ q) }
  (u.inc (Key.cpgSweepCnt g)).holdPanels [q]

theorem exec_sentinelVisit_of_clean {s : State} {die : BitVec 2} {panel : BitVec 11}
    (hserves : s.inService ⟨utGroup, groupOfPanel (2048 * die.toNat + panel.toNat), 0⟩ = true)
    (hready : s.panelReady (2048 * die.toNat + panel.toNat) = true)
    (hbatch : (s.panel (2048 * die.toNat + panel.toNat)).batch = none) (hawake : s.power.idle = [])
    (hsweeps : s.upkeepOff (groupOfPanel (2048 * die.toNat + panel.toNat)) = false) (hinject : s.rel.inject = none)
    (hdeviant : s.rel.deviant = []) (hcopy : s.checkCopy (2048 * die.toNat + panel.toNat) = (true, s)) (refs : Bool) :
    exec (.sentinelVisit die panel [] refs) s = .next (s.cleanVisit (2048 * die.toNat + panel.toNat)) := by
  have hon : s.awake (.canvas die.toNat) = true := by simp [State.awake, State.idleOf, hawake]
  simp [exec_sentinelVisit, execSentinelVisit, hserves, hready, hbatch, hon, hsweeps, hcopy, State.injSentinel_of_none hinject, hdeviant,
    State.cleanVisit, State.holdPanels]

theorem State.cleanVisit_frame (s : State) (q : Nat) :
    (s.cleanVisit q).panel q = { s.panel q with visits := (s.panel q).visits + 1, dev := [], clean := s.time.count.toNat } ∧
      (s.cleanVisit q).cnv.held = s.cnv.held ++ [q] ∧ RegsBut [Key.cpgSweepCnt (groupOfPanel q)] s (s.cleanVisit q) ∧
      (s.cleanVisit q).mem = s.mem ∧ (s.cleanVisit q).out = s.out := by
  unfold State.cleanVisit
  extract_lets g t u
  have hpanel : u.panel q = { s.panel q with visits := (s.panel q).visits + 1, dev := [], clean := s.time.count.toNat } :=
    State.panel_setPanel_same ..
  have hframe : u.cnv.held = s.cnv.held ∧ u.regs = s.regs ∧ u.mem = s.mem ∧ u.out = s.out := ⟨rfl, rfl, rfl, rfl⟩
  clear_value u
  obtain ⟨hheld, hregs, hmem, hout⟩ := hframe
  exact ⟨hpanel, congrArg (· ++ [q]) hheld, RegsBut.inc hregs _, hmem, hout⟩

/-! ### Spares -/

/-- Rows written one after the other change cells alone. -/
theorem Panel.foldl_setCells (l : List Nat) (f : Nat → Nat → Nat) (x : Panel) :
    ∃ cells, l.foldl (fun (y : Panel) r => y.setCells r (f r)) x = { x with cells := cells } := by
  refine List.foldlRecOn (motive := fun (y : Panel) => ∃ cells, y = { x with cells := cells }) l _ ⟨x.cells, rfl⟩ ?_
  rintro _ ⟨_, rfl⟩ r _
  exact ⟨_, rfl⟩

theorem State.writeSpare_eq (s : State) (q c pc : Nat) :
    ∃ cells, s.writeSpare q c pc = s.setPanel q { s.panel q with cells := cells } := by
  obtain ⟨cells, hcells⟩ :=
    Panel.foldl_setCells (List.range 1024) (fun r old => Machine.setLevel old pc (Machine.rowLevel (s.targetRow q r) c)) (s.panel q)
  exact ⟨cells, congrArg (s.setPanel q) hcells⟩

/-- A waiting column given the next spare of its panel. -/
def State.takeSpare (s : State) (q c : Nat) : State :=
  let x := s.panel q
  let t := s.setPanel q { x with spares := x.spares ++ [c], sparing := x.sparing.filter fun y => decide (y ≠ c) }
  { t with rel := { t.rel with deviant := t.rel.deviant.filter fun e => decide (e ≠ (q, c)) } }

/-- A spare taken, programmed and counted. -/
def State.spareWritten (s : State) (q c : Nat) : State :=
  ((s.takeSpare q c).writeSpare q c (1024 + (s.panel q).spares.length)).inc (Key.cpgRemapCnt (groupOfPanel q))

theorem State.spareWritten_frame (s : State) (q c : Nat) :
    ((s.spareWritten q c).panel q).spares = (s.panel q).spares ++ [c] ∧ c ∉ ((s.spareWritten q c).panel q).sparing ∧
      RegsBut [Key.cpgRemapCnt (groupOfPanel q)] s (s.spareWritten q c) ∧ (s.spareWritten q c).mem = s.mem ∧
      (s.spareWritten q c).out = s.out := by
  obtain ⟨cells, hwritten⟩ := (s.takeSpare q c).writeSpare_eq q c (1024 + (s.panel q).spares.length)
  have hpanel : (s.spareWritten q c).panel q = { s.panel q with
      spares := (s.panel q).spares ++ [c], sparing := (s.panel q).sparing.filter fun y => decide (y ≠ c), cells := cells } := by
    have htaken : (s.takeSpare q c).panel q = { s.panel q with
        spares := (s.panel q).spares ++ [c], sparing := (s.panel q).sparing.filter fun y => decide (y ≠ c) } :=
      State.panel_setPanel_same ..
    rw [State.spareWritten, hwritten, htaken, State.panel_inc, State.panel_setPanel_same]
  refine ⟨by rw [hpanel], by simp [hpanel], ?_⟩
  rw [State.spareWritten, hwritten]
  have hregs : (s.takeSpare q c).regs = s.regs := rfl
  exact ⟨.inc (by rw [State.setPanel_regs, hregs]) _, by simp [State.takeSpare], by simp [State.takeSpare]⟩

/-- A spare programmed; its panel is measured again where the group counts as programmed. -/
def State.spared (s : State) (q c : Nat) : State :=
  let t := s.spareWritten q c
  if t.programmed (groupOfPanel q) then (State.measurePanel { t with freeCtr := t.freeCtr + 1 } q t.freeCtr).1 else t

theorem State.spared_frame (s : State) (q c : Nat) :
    ((s.spared q c).panel q).spares = (s.panel q).spares ++ [c] ∧ c ∉ ((s.spared q c).panel q).sparing ∧
      RegsBut [Key.cpgRemapCnt (groupOfPanel q)] s (s.spared q c) ∧ (s.spared q c).mem = s.mem ∧ (s.spared q c).out = s.out := by
  have hwritten := s.spareWritten_frame q c
  unfold State.spared
  generalize s.spareWritten q c = t at hwritten
  dsimp only
  split
  next =>
    obtain ⟨factors, hmeasured⟩ := State.measurePanel_eq { t with freeCtr := t.freeCtr + 1 } q t.freeCtr
    rw [hmeasured, State.panel_setPanel_same]
    exact hwritten
  next => exact hwritten

theorem exec_spareProgram_of_waiting {s : State} {die : BitVec 2} {panel : BitVec 11} {col : BitVec 10}
    (hserves : (s.panel (2048 * die.toNat + panel.toNat)).out = false)
    (hwaits : col.toNat ∈ (s.panel (2048 * die.toNat + panel.toNat)).sparing)
    (hbatch : (s.panel (2048 * die.toNat + panel.toNat)).batch = none) (hvprog : 2375 ≤ s.pins.vprog)
    (hspare : (s.panel (2048 * die.toNat + panel.toNat)).spares.length < 16)
    (hcopy : s.checkCopy (2048 * die.toNat + panel.toNat) = (true, s)) :
    exec (.spareProgram die panel col false) s = .next (s.spared (2048 * die.toNat + panel.toNat) col.toNat) := by
  have hgo : ¬((s.panel (2048 * die.toNat + panel.toNat)).out = true ∨
      col.toNat ∉ (s.panel (2048 * die.toNat + panel.toNat)).sparing ∨
      (s.panel (2048 * die.toNat + panel.toNat)).batch ≠ none) := by
    simp [hserves, hwaits, hbatch]
  rw [exec_spareProgram, execSpareProgram, if_neg hgo, if_neg (Nat.not_lt.2 hvprog), if_neg (Nat.not_le.2 hspare), hcopy]
  rfl

/-! ### The commands of CPG_UPK_CMD -/

theorem State.noteOrder_dropIdle (s : State) (m : Master) (p : Nat) (d : IdleDomain) :
    (s.dropIdle d).noteOrder m p = (s.noteOrder m p).dropIdle d := rfl

theorem State.noteOrder_beginExit (s : State) (m : Master) (p : Nat) (x : IdleSt) :
    (s.beginExit x).noteOrder m p = (s.noteOrder m p).beginExit x := by
  unfold State.beginExit
  dsimp only
  split <;> rfl

theorem State.noteOrder_wake (s : State) (m : Master) (p : Nat) (d : IdleDomain) :
    (s.wake d).noteOrder m p = (s.noteOrder m p).wake d := by
  have hidle : (s.noteOrder m p).idleOf d = s.idleOf d := rfl
  unfold State.wake
  rw [hidle]
  rcases s.idleOf d with _ | x
  · rfl
  · dsimp only
    rcases x.ready with _ | t
    · exact State.noteOrder_ite rfl (s.noteOrder_beginExit m p x)
    · exact State.noteOrder_ite rfl rfl

theorem State.noteOrder_wakeAll (s : State) (m : Master) (p : Nat) (ds : List IdleDomain) :
    (s.wakeAll ds).noteOrder m p = (s.noteOrder m p).wakeAll ds :=
  State.noteOrder_foldl (fun t d => t.noteOrder_wake m p d) _ s

theorem State.writeUpkCmd_rereference (s : State) (g : Nat) :
    s.writeUpkCmd g 1 = (s.setGroup g { s.group g with due := true }).wakeAll [.canvas (g / 64)] := rfl

theorem State.writeUpkCmd_visit (s : State) (g : Nat) :
    s.writeUpkCmd g 2 = (s.setGroup g { s.group g with visit := s.tilesOf g }).wakeAll [.canvas (g / 64)] := rfl

/-- A command that a group's page takes changes the group's record and wakes its die. -/
theorem State.wroteAs_upkCmd {s : State} {m : Master} {g : Byte} {v : Word} (h : s.Takes m (pgCpg g.toNat) (upkCmdAt g) v) {x : Group}
    (hx : (s.noteOrder m (pgCpg g.toNat)).writeUpkCmd g.toNat v =
      ((s.noteOrder m (pgCpg g.toNat)).setGroup g.toNat x).wakeAll [.canvas (g.toNat / 64)]) :
    WroteAs ((s.setGroup g.toNat x).wakeAll [.canvas (g.toNat / 64)])
      (s.gated m (pgCpg g.toNat) (upkCmdAt g) 0xF v fun t => t.writeUpkCmd g.toNat v) := by
  have hnoted : (s.noteOrder m (pgCpg g.toNat)).setGroup g.toNat x = (s.setGroup g.toNat x).noteOrder m (pgCpg g.toNat) := rfl
  rw [State.gated_of_takes h, State.inTurn_eq_noteOrder h.inOrder, hx, hnoted, ← State.noteOrder_wakeAll]
  exact wroteAs_noteSince ..

/-- Settles O38: a due re-reference by its measurement, its record and its judgement; a visit in which nothing deviates, a spare taken and a
command of CPG_UPK_CMD each by what it leaves. A refresh owes the whole panel, and VISIT_NOW asks for visits whatever upkeep_off says
(log entry 65). -/
theorem canvasUpkeep : Obligations.CanvasUpkeep := by
  unfold Obligations.CanvasUpkeep
  refine ⟨?_, ?_, ?_, ?_, ?_, ?_, ?_, ?_⟩
  · intro s g temp hserves hsettled hdue hawake htiles
    obtain ⟨fG, now, top, target, hexec⟩ := exec_rereference_of_due hserves hsettled hdue
      (State.checkCopies_tilesOf fun q hq => (htiles q hq).2) temp
    obtain ⟨⟨x, tag, hgroup⟩, hheld, hfree, hmem, hout⟩ :=
      State.referenced_frame hawake (fun q hq => (htiles q hq).1) g.toNat temp fG now top target
    refine ⟨_, hexec, ?_, ?_, ?_, ?_, hheld, hfree, .of_mem hmem, hout⟩ <;> rw [hgroup] <;> rfl
  · exact fun s g temp h => exec_tempTrack_of_unreferenced h temp
  · intro s g temp t0 h
    refine ⟨_, exec_tempTrack_of_referenced h temp, ?_, ?_, .of_regs rfl _, .of_mem rfl, rfl⟩
    · rw [State.group_setGroup_same]
      rfl
    · rw [State.group_setGroup_same]
      simp [State.tracked]
  · intro s die panel a i hserves hdue hsteady hvprog hcopy himage hsound
    exact exec_refresh_of_due hserves hdue hsteady hvprog (State.checkCopy_of_sound hcopy himage hsound)
  · intro s die panel refs a i hserves hready hbatch hawake hsweeps hinject hdeviant hcopy himage hsound
    obtain ⟨hpanel, hheld, hregs, hmem, hout⟩ := s.cleanVisit_frame (2048 * die.toNat + panel.toNat)
    refine ⟨_, exec_sentinelVisit_of_clean hserves hready hbatch hawake hsweeps hinject hdeviant
      (State.checkCopy_of_sound hcopy himage hsound) refs, ?_, ?_, ?_, hheld, hregs, .of_mem hmem, hout⟩ <;> rw [hpanel]
  · intro s die panel col a i hserves hwaits hbatch hvprog hspare hcopy himage hsound
    obtain ⟨hspares, hsparing, hregs, hmem, hout⟩ := s.spared_frame (2048 * die.toNat + panel.toNat) col.toNat
    exact ⟨_, exec_spareProgram_of_waiting hserves hwaits hbatch hvprog hspare (State.checkCopy_of_sound hcopy himage hsound), hspares,
      hsparing, hregs, .of_mem hmem, hout⟩
  · exact fun s m g h => ⟨_, exec_rereferenceNow m g 0xF s, State.wroteAs_upkCmd h (State.writeUpkCmd_rereference _ _)⟩
  · exact fun s m g h => ⟨_, exec_visitNow m g 0xF s, State.wroteAs_upkCmd h (State.writeUpkCmd_visit _ _)⟩

end Sys2Proof.Machine
end

section
/-! Ring entries: their registers and hidden parts after a change of state, a failure and a message (17 R404, R411, R426, R429). -/

namespace Sys2Proof.Machine

/-! ### Messages alone -/

/-- `t` is `s` with other things given to the outside. -/
def State.SpeaksOnly (s t : State) : Prop := ∃ out, t = { s with out := out }

namespace State.SpeaksOnly

variable {s t u : State}

theorem refl (s : State) : s.SpeaksOnly s := ⟨s.out, rfl⟩

theorem trans (h : s.SpeaksOnly t) (h' : t.SpeaksOnly u) : s.SpeaksOnly u := by
  obtain ⟨_, rfl⟩ := h
  obtain ⟨out, rfl⟩ := h'
  exact ⟨out, rfl⟩

theorem toRight (s : State) (k : Nat) (name : String) (args : List Nat) : s.SpeaksOnly (s.toRight k name args) := ⟨_, rfl⟩

theorem foldl {α : Type} {f : State → α → State} (hf : ∀ (t : State) (x : α), t.SpeaksOnly (f t x)) (l : List α) (s : State) :
    s.SpeaksOnly (l.foldl f s) :=
  List.foldlRecOn l _ (refl s) fun t ht x _ => ht.trans (hf t x)

/-- A message that is sent under a condition, or not. -/
theorem ite {c : Prop} [Decidable c] (ht : s.SpeaksOnly t) (hu : s.SpeaksOnly u) : s.SpeaksOnly (if c then t else u) := by
  split
  · exact ht
  · exact hu

theorem regs (h : s.SpeaksOnly t) : t.regs = s.regs := by obtain ⟨_, rfl⟩ := h; rfl
theorem mem (h : s.SpeaksOnly t) : t.mem = s.mem := by obtain ⟨_, rfl⟩ := h; rfl
theorem ring (h : s.SpeaksOnly t) (k : Nat) : t.ring k = s.ring k := by obtain ⟨_, rfl⟩ := h; rfl

end State.SpeaksOnly

/-! ### What reads registers and hidden parts alone -/

theorem State.ring_congr {s t : State} (h : t.rings = s.rings) (k : Nat) : t.ring k = s.ring k := by simp only [State.ring, h]

theorem State.ringState_congr {s t : State} {k : Nat} (h : t.reg (Key.shrRingStat k) = s.reg (Key.shrRingStat k)) :
    t.ringState k = s.ringState k := State.fld_congr h 31 29

@[simp] theorem State.reg_setRing (s : State) (k j : Nat) (x : Ring) : (s.setRing k x).reg j = s.reg j := rfl
@[simp] theorem State.bit_setRing (s : State) (k j b : Nat) (x : Ring) : (s.setRing k x).bit j b = s.bit j b := rfl
@[simp] theorem State.ringState_setRing (s : State) (k j : Nat) (x : Ring) : (s.setRing k x).ringState j = s.ringState j := rfl

@[simp] theorem State.toLeft_out (s : State) (k : Nat) (name : String) (args : List Nat) : (s.toLeft k name args).out =
    s.out ++ [.routed (BitVec.ofNat 16 (s.ringLeft k)) (.ring name (s.ringHandle k :: args))] := rfl
@[simp] theorem State.toRight_out (s : State) (k : Nat) (name : String) (args : List Nat) : (s.toRight k name args).out =
    s.out ++ [.routed (BitVec.ofNat 16 (s.ringRight k)) (.ring name (s.ringHandle k :: args))] := rfl
@[simp] theorem State.ringRight_toLeft (s : State) (k j : Nat) (name : String) (args : List Nat) :
    (s.toLeft k name args).ringRight j = s.ringRight j := rfl

/-! ### The state of an entry (R429) -/

theorem shrRingStat_ne_irqStat (k : Nat) : Key.shrRingStat k ≠ Key.irqStat pgShr := by
  simp only [Key.shrRingStat, Key.irqStat, regKey, pgShr]
  omega

theorem shrRingStat_ne_fltLatch (k : Nat) : Key.shrRingStat k ≠ Key.fltLatch pgShr := by
  simp only [Key.shrRingStat, Key.fltLatch, regKey, pgShr]
  omega

theorem shrRingStat_ne_fltInfo (k : Nat) : Key.shrRingStat k ≠ Key.fltInfo pgShr := by
  simp only [Key.shrRingStat, Key.fltInfo, regKey, pgShr]
  omega

theorem shrRingStat_ne_shrLastEvt (k : Nat) : Key.shrRingStat k ≠ Key.shrLastEvt := by
  simp only [Key.shrRingStat, Key.shrLastEvt, regKey]
  omega

/-- What `setRingState` writes: the two fields of SHR_RINGk_STAT, and on a change of state an interrupt of the page. -/
theorem State.setRingState_eq (s : State) (k st reason : Nat) : s.setRingState k st reason =
    if s.ringState k = st then (s.setFld (Key.shrRingStat k) 31 29 st).setFld (Key.shrRingStat k) 28 24 reason
    else ((s.setFld (Key.shrRingStat k) 31 29 st).setFld (Key.shrRingStat k) 28 24 reason).irq pgShr 2 := rfl

theorem State.reg_shrRingStat_setRingState (s : State) (k st reason : Nat) :
    (s.setRingState k st reason).reg (Key.shrRingStat k) =
      ((s.setFld (Key.shrRingStat k) 31 29 st).setFld (Key.shrRingStat k) 28 24 reason).reg (Key.shrRingStat k) := by
  rw [State.setRingState_eq]
  split
  · rfl
  · exact State.reg_irq_ne _ _ _ (shrRingStat_ne_irqStat k)

@[simp] theorem State.ringState_setRingState (s : State) (k : Nat) {st : Nat} (reason : Nat) (hst : st < 8) :
    (s.setRingState k st reason).ringState k = st := by
  rw [State.ringState_congr (s.reg_shrRingStat_setRingState k st reason), State.ringState,
    State.fld_setFld_ne _ _ (by omega) (by omega) (by omega), State.fld_setFld_same _ _ (by omega)]
  exact Nat.mod_eq_of_lt hst

theorem State.reason_setRingState (s : State) (k st : Nat) {reason : Nat} (h : reason < 32) :
    (s.setRingState k st reason).fld (Key.shrRingStat k) 28 24 = reason := by
  rw [State.fld_congr (s.reg_shrRingStat_setRingState k st reason), State.fld_setFld_same _ _ (by omega)]
  exact Nat.mod_eq_of_lt h

/-- A change of state raises interrupt source 2 of the SHR page. -/
theorem State.bit_irqStat_setRingState {s : State} {k st : Nat} (h : s.ringState k ≠ st) (reason : Nat) :
    (s.setRingState k st reason).bit (Key.irqStat pgShr) 2 = true := by
  rw [State.setRingState_eq, if_neg h]
  exact State.bit_irq _ _ (by omega)

@[simp] theorem State.setRingState_mem (s : State) (k st reason : Nat) : (s.setRingState k st reason).mem = s.mem := by
  rw [State.setRingState_eq]
  split
  · rfl
  · exact State.irq_mem ..

@[simp] theorem State.setRingState_rings (s : State) (k st reason : Nat) : (s.setRingState k st reason).rings = s.rings := by
  rw [State.setRingState_eq]
  split
  · rfl
  · exact State.irq_rings ..

/-- The SHR page signals no device vector (04 Table 4.4). -/
@[simp] theorem State.setRingState_out (s : State) (k st reason : Nat) : (s.setRingState k st reason).out = s.out := by
  rw [State.setRingState_eq]
  split
  · rfl
  · exact State.noteOld_out ..

theorem State.reg_setRingState_ne (s : State) {k j : Nat} (st reason : Nat) (hstat : j ≠ Key.shrRingStat k)
    (hirq : j ≠ Key.irqStat pgShr) : (s.setRingState k st reason).reg j = s.reg j := by
  have hflds : ((s.setFld (Key.shrRingStat k) 31 29 st).setFld (Key.shrRingStat k) 28 24 reason).reg j = s.reg j :=
    (State.reg_setFld_ne _ _ _ _ hstat).trans (s.reg_setFld_ne _ _ _ hstat)
  rw [State.setRingState_eq]
  split
  · exact hflds
  · exact (State.reg_irq_ne _ _ _ hirq).trans hflds

@[simp] theorem State.ringLeft_setRingState (s : State) (k st reason : Nat) :
    (s.setRingState k st reason).ringLeft k = s.ringLeft k := by
  have hstat : Key.shrRingLeft k ≠ Key.shrRingStat k := by
    simp only [Key.shrRingLeft, Key.shrRingStat, regKey]
    omega
  have hirq : Key.shrRingLeft k ≠ Key.irqStat pgShr := by
    simp only [Key.shrRingLeft, Key.irqStat, regKey, pgShr]
    omega
  exact State.fld_congr (s.reg_setRingState_ne st reason hstat hirq) 15 0

@[simp] theorem State.ringRight_setRingState (s : State) (k st reason : Nat) :
    (s.setRingState k st reason).ringRight k = s.ringRight k := by
  have hstat : Key.shrRingRight k ≠ Key.shrRingStat k := by
    simp only [Key.shrRingRight, Key.shrRingStat, regKey]
    omega
  have hirq : Key.shrRingRight k ≠ Key.irqStat pgShr := by
    simp only [Key.shrRingRight, Key.irqStat, regKey, pgShr]
    omega
  exact State.fld_congr (s.reg_setRingState_ne st reason hstat hirq) 15 0

/-! ### Failures (R404, R429) -/

@[simp] theorem State.ringEvent_mem (s : State) (k member ev : Nat) : (s.ringEvent k member ev).mem = s.mem :=
  State.setReg_mem ..

theorem State.reg_shrRingStat_ringEvent (s : State) (k j member ev : Nat) :
    (s.ringEvent j member ev).reg (Key.shrRingStat k) = s.reg (Key.shrRingStat k) :=
  s.reg_setReg_ne _ (shrRingStat_ne_shrLastEvt k)

theorem State.reg_shrRingStat_latch (s : State) (k c d : Nat) :
    (s.latch pgShr c d).reg (Key.shrRingStat k) = s.reg (Key.shrRingStat k) :=
  s.reg_latch_ne pgShr c d (shrRingStat_ne_fltLatch k) (shrRingStat_ne_fltInfo k) (shrRingStat_ne_irqStat k)

/-- An entry FAILED with a reason, for which cause `c` of the SHR page is latched; `x` is left of its hidden part. -/
def State.ringFaulted (s : State) (k reason member c d : Nat) (x : Ring) : State :=
  (((s.setRingState k rgFailed reason).ringEvent k member 3).latch pgShr c d).setRing k x

theorem State.ringFaulted_frame (s : State) (k member d : Nat) (x : Ring) {reason c : Nat} (hreason : reason < 32) (hc : c < 32) :
    (s.ringFaulted k reason member c d x).ringState k = rgFailed ∧
      (s.ringFaulted k reason member c d x).fld (Key.shrRingStat k) 28 24 = reason ∧
      (s.ringFaulted k reason member c d x).Latched pgShr c ∧ SameMemory s (s.ringFaulted k reason member c d x) := by
  have hstat : (s.ringFaulted k reason member c d x).reg (Key.shrRingStat k) =
      (s.setRingState k rgFailed reason).reg (Key.shrRingStat k) :=
    (State.reg_setRing ..).trans <| (State.reg_shrRingStat_latch _ k c d).trans (State.reg_shrRingStat_ringEvent _ k k member 3)
  refine ⟨?_, ?_, ⟨?_, ?_⟩, .of_mem ?_⟩
  · rw [State.ringState_congr hstat, State.ringState_setRingState _ _ _ (by decide)]
  · rw [State.fld_congr hstat, State.reason_setRingState _ _ _ hreason]
  · rw [State.ringFaulted, State.bit_setRing, State.bit_latch _ _ _ hc]
  · rw [State.ringFaulted, State.bit_setRing, State.irq_latch]
  · rw [State.ringFaulted, State.setRing_mem, State.latch_mem, State.ringEvent_mem, State.setRingState_mem]

/-- An entry whose formation fails is FAILED with the reason, and FORM_FAIL is latched (R404). -/
theorem State.formFails_frame (s : State) (k : Nat) {reason : Nat} (h : reason < 32) :
    (s.formFails k reason).ringState k = rgFailed ∧ (s.formFails k reason).fld (Key.shrRingStat k) 28 24 = reason ∧
      (s.formFails k reason).Latched pgShr 0 ∧ SameMemory s (s.formFails k reason) := by
  obtain ⟨x, hfails⟩ : ∃ x, s.formFails k reason =
      s.ringFaulted k reason (s.ringMember k) 0 (ringDetail k (s.ringMember k) reason) x := ⟨_, rfl⟩
  rw [hfails]
  exact s.ringFaulted_frame k _ _ x h (by decide)

/-- An entry without requests whose recovery does not end in time is FAILED, and RECOVER_FAIL is latched (R426). -/
theorem State.ringFails_frame {s : State} {k : Nat} (hnone : s.ringReqs k = []) (member : Nat) :
    (s.ringFails k member 0x08).ringState k = rgFailed ∧ (s.ringFails k member 0x08).Latched pgShr 2 ∧
      SameMemory s (s.ringFails k member 0x08) := by
  obtain ⟨x, hfails⟩ : ∃ x, s.ringFails k member 0x08 =
      (s.ringFaulted k (s.fld (Key.shrRingStat k) 28 24) member 2 (ringDetail k member 0x08) x).endRing (s.ringReqs k) 0x08 := ⟨_, rfl⟩
  obtain ⟨hstate, -, hlatched, hmem⟩ :=
    s.ringFaulted_frame k member (ringDetail k member 0x08) x (getBits_lt (s.reg (Key.shrRingStat k)) 28 24) (c := 2) (by decide)
  rw [hfails, hnone]
  exact ⟨hstate, hlatched, hmem⟩

end Sys2Proof.Machine
end

section
/-! Ring entries formed and dissolved (17 R404, R429; log entry 98). -/

namespace Sys2Proof.Machine

open Host

/-! ### The rows -/

theorem exec_formAnswer (k : BitVec 3) (left : Bool) (a : RingAnswer) (s : State) :
    exec (.formAnswer k left a) s = execFormAnswer k left a s := rfl

theorem exec_formTimeout (k : BitVec 3) (s : State) : exec (.formTimeout k) s = execFormTimeout k s := rfl

/-- A command that the SHR page takes is the entry's own, beside the notes of arbitration. -/
theorem State.gated_ringCmd {s : State} {m : Master} {k : Nat} {v : Word} (h : s.Takes m pgShr (0x414 + 0x40 * k) v) :
    s.gated m pgShr (0x414 + 0x40 * k) 0xF v (fun t => t.writeRingCmd k v) =
      ((s.noteOrder m pgShr).writeRingCmd k v).noteSince (s.noteOrder m pgShr) := by
  rw [State.gated_of_takes h, State.inTurn_eq_noteOrder h.inOrder]

theorem exec_form_of_takes {s : State} {m : Master} {k : BitVec 3} (h : s.Takes m pgShr (0x414 + 0x40 * k.toNat) 1) :
    exec (.form m k 0xF) s = .next (((s.noteOrder m pgShr).form k.toNat).noteSince (s.noteOrder m pgShr)) :=
  congrArg Outcome.next (State.gated_ringCmd h)

theorem exec_dissolve_of_takes {s : State} {m : Master} {k : BitVec 3} (h : s.Takes m pgShr (0x414 + 0x40 * k.toNat) 2) :
    exec (.dissolve m k 0xF) s = .next (((s.noteOrder m pgShr).dissolve k.toNat).noteSince (s.noteOrder m pgShr)) :=
  congrArg Outcome.next (State.gated_ringCmd h)

/-! ### FORM -/

/-- An entry that has heard from no side asks both. -/
theorem State.sendForm_of_unanswered {s : State} {k : Nat} (hleft : (s.ring k).leftOk = false) (hright : (s.ring k).rightOk = false) :
    ∃ a, s.sendForm k = (s.toLeft k "FORM" a).toRight k "FORM" a := by
  refine ⟨[s.ringSize k, s.ringMember k, if s.ringMirror k then 1 else 0, s.coords], ?_⟩
  simp [State.sendForm, hleft, hright]

/-- An entry that starts to form. -/
def State.formStarted (s : State) (k : Nat) : State :=
  (s.setRingState k rgForming 0).setRing k { s.ring k with formed := some s.tick, leftOk := false, rightOk := false }

theorem State.form_of_allowed {s : State} {k : Nat} (hst : s.ringState k = rgIdle) (hready : s.ready = true)
    (hactive : s.pstate (s.ringPart k) = psActive)
    (hunique : ((List.range 8).any fun j => decide (j ≠ k) && decide (s.ringHandle j = s.ringHandle k)) = false) (hsheet : s.sheet ≠ 4)
    (hleast : 2 ≤ s.ringSize k) (hmost : s.ringSize k ≤ 32) (hmember : s.ringMember k < s.ringSize k) :
    s.form k = (s.formStarted k).sendForm k := by
  have hmay : ¬(s.ready = false ∨ s.pstate (s.ringPart k) ≠ psActive) := by simp [hready, hactive]
  have hsize : ¬(s.ringSize k < 2 ∨ 32 < s.ringSize k ∨ s.ringSize k ≤ s.ringMember k) := by omega
  unfold State.form
  rw [if_neg (not_not_intro hst), if_neg hmay, hunique, if_neg Bool.false_ne_true, if_neg hsheet, if_neg hsize]
  rfl

/-- An IDLE entry that starts is FORMING since this tick, says so by an interrupt, and asks both neighbours. -/
theorem State.formStarted_frame {s : State} {k : Nat} (hst : s.ringState k = rgIdle) : ∃ a b,
    ((s.formStarted k).sendForm k).ringState k = rgForming ∧ (((s.formStarted k).sendForm k).ring k).formed = some s.tick ∧
      ((s.formStarted k).sendForm k).bit (Key.irqStat pgShr) 2 = true ∧ SameMemory s ((s.formStarted k).sendForm k) ∧
      ((s.formStarted k).sendForm k).out = s.out ++ [.routed (BitVec.ofNat 16 (s.ringLeft k)) (.ring "FORM" a),
        .routed (BitVec.ofNat 16 (s.ringRight k)) (.ring "FORM" b)] := by
  have hring : (s.formStarted k).ring k = { s.ring k with formed := some s.tick, leftOk := false, rightOk := false } :=
    State.ring_setRing_same ..
  obtain ⟨a, hsent⟩ := State.sendForm_of_unanswered (s := s.formStarted k) (congrArg Ring.leftOk hring) (congrArg Ring.rightOk hring)
  have hleft : (s.formStarted k).ringLeft k = s.ringLeft k := s.ringLeft_setRingState ..
  have hright : (s.formStarted k).ringRight k = s.ringRight k := s.ringRight_setRingState ..
  have hout : (s.formStarted k).out = s.out := s.setRingState_out ..
  rw [hsent]
  refine ⟨(s.formStarted k).ringHandle k :: a, ((s.formStarted k).toLeft k "FORM" a).ringHandle k :: a,
    s.ringState_setRingState k 0 (by decide), congrArg Ring.formed hring, ?_, .of_mem (s.setRingState_mem ..), ?_⟩
  · exact State.bit_irqStat_setRingState (by rw [hst]; decide) 0
  · rw [State.toRight_out, State.toLeft_out, State.ringRight_toLeft, hright, hleft, hout, List.append_assoc, List.singleton_append]

/-! ### Answers -/

/-- Both sides agree and time is known: the entry is READY. -/
theorem State.tryForm_of_agreed {s : State} {k : Nat} (hst : s.ringState k = rgForming) (hleft : (s.ring k).leftOk = true)
    (hright : (s.ring k).rightOk = true) (hsync : s.fld Key.ttlStat 31 29 ≠ 4) :
    s.tryForm k = (s.setRing k { s.ring k with formed := none }).setRingState k rgReady 0 :=
  if_pos ⟨hst, hleft, hright, hsync⟩

/-- The left neighbour's answer agrees with what the entry holds. -/
def State.LeftAgrees (s : State) (k : Nat) (a : RingAnswer) : Prop :=
  a.handle.toNat = s.ringHandle k ∧ a.size.toNat = s.ringSize k ∧ a.mirror = s.ringMirror k ∧
    a.member.toNat = (s.ringMember k + s.ringSize k - 1) % max 1 (s.ringSize k) ∧ a.coords.toNat = s.ringLeft k

theorem exec_formAnswer_of_agreeing {s : State} {k : BitVec 3} {a : RingAnswer} (hst : s.ringState k.toNat = rgForming)
    (h : s.LeftAgrees k.toNat a) (hright : (s.ring k.toNat).rightOk = true) :
    exec (.formAnswer k true a) s =
      .next ((s.setRing k.toNat { s.ring k.toNat with leftOk := true, rightOk := true }).tryForm k.toNat) := by
  obtain ⟨hhandle, hsize, hmirror, hmember, hcoords⟩ := h
  simp [exec_formAnswer, execFormAnswer, hst, hhandle, hsize, hmirror, hmember, hcoords, hright]

theorem exec_formAnswer_of_size {s : State} {k : BitVec 3} {a : RingAnswer} (hst : s.ringState k.toNat = rgForming)
    (hhandle : a.handle.toNat = s.ringHandle k.toNat) (hsize : a.size.toNat ≠ s.ringSize k.toNat) (left : Bool) :
    exec (.formAnswer k left a) s = .next (s.formFails k.toNat 0x02) := by
  simp [exec_formAnswer, execFormAnswer, hst, hhandle, hsize]

theorem exec_formTimeout_of_late {s : State} {k : BitVec 3} {t0 : Nat} (hst : s.ringState k.toNat = rgForming)
    (hformed : (s.ring k.toNat).formed = some t0) (hlate : t0 + 100000000 ≤ s.tick) :
    exec (.formTimeout k) s = .next (s.formFails k.toNat 0x01) := by
  simp [exec_formTimeout, execFormTimeout, hst, hformed, hlate]

/-! ### DISSOLVE -/

/-- An entry that no request uses and that holds no mirror page: it tells both neighbours, and is IDLE. -/
theorem State.dissolve_of_unused {s : State} {k : Nat} (hst : s.ringState k ≠ rgIdle) (hreqs : s.ringReqs k = [])
    (hmirror : (s.ring k).mirror = []) :
    s.dissolve k = (((s.toLeft k "PEER_LEFT" []).toRight k "PEER_LEFT" []).setRingState k rgIdle 0).setRing k {} := by
  simp [State.dissolve, hst, hreqs, hmirror]

theorem State.dissolve_of_used {s : State} {k : Nat} (hst : s.ringState k ≠ rgIdle) (hreqs : s.ringReqs k ≠ []) :
    s.dissolve k = s.setFld (Key.shrRingStat k) 28 24 0x07 :=
  (if_neg hst).trans (if_pos hreqs)

/-- Settles O40: FORM by the entry that starts and what it sends, an answer and the timeout each by the state that it leads to, and
DISSOLVE back to IDLE, from which alone FORM works (log entry 98). -/
theorem ringsForm : Obligations.RingsForm := by
  unfold Obligations.RingsForm
  refine ⟨?_, ?_, ?_, ?_, ?_, ?_, ?_⟩
  · intro s m k htakes hst hready hactive hunique hsheet hleast hmost hmember
    set u := s.noteOrder m pgShr
    have hform : u.form k.toNat = (u.formStarted k.toNat).sendForm k.toNat :=
      State.form_of_allowed (s := u) hst hready hactive hunique hsheet hleast hmost hmember
    obtain ⟨a, b, hstate, hformed, hirq, hmem, hout⟩ := State.formStarted_frame (s := u) (k := k.toNat) hst
    rw [← hform] at hstate hformed hirq hmem hout
    refine ⟨_, [], a, b, exec_form_of_takes htakes, hstate, hformed, hirq, hmem, ?_⟩
    rw [List.append_nil]
    exact hout
  · exact fun s k hst => congrArg Outcome.next (if_pos hst)
  · intro s k a hst hhandle hsize hmirror hmember hcoords hright hsync
    set u := s.setRing k.toNat { s.ring k.toNat with leftOk := true, rightOk := true }
    have hring : u.ring k.toNat = { s.ring k.toNat with leftOk := true, rightOk := true } := State.ring_setRing_same ..
    have hready := State.tryForm_of_agreed (s := u) hst (congrArg Ring.leftOk hring) (congrArg Ring.rightOk hring) hsync
    refine ⟨_, exec_formAnswer_of_agreeing hst ⟨hhandle, hsize, hmirror, hmember, hcoords⟩ hright, ?_⟩
    rw [hready]
    refine ⟨State.ringState_setRingState _ _ _ (by decide), ?_, ?_, .of_mem (State.setRingState_mem ..)⟩
    · rw [State.ring_congr (State.setRingState_rings ..), State.ring_setRing_same]
    · exact State.bit_irqStat_setRingState (s := u.setRing k.toNat _) (by rw [State.ringState_setRing]; exact hst ▸ (by decide)) 0
  · intro s k left a hst hhandle hsize
    exact ⟨_, exec_formAnswer_of_size hst hhandle hsize left, s.formFails_frame k.toNat (by decide)⟩
  · intro s k t0 hst hformed hlate
    exact ⟨_, exec_formTimeout_of_late hst hformed hlate, s.formFails_frame k.toNat (by decide)⟩
  · intro s m k htakes hst hreqs hmirror
    have hgone := State.dissolve_of_unused (s := s.noteOrder m pgShr) hst hreqs hmirror
    refine ⟨_, exec_dissolve_of_takes htakes, ?_⟩
    rw [hgone]
    set u := ((s.noteOrder m pgShr).toLeft k.toNat "PEER_LEFT" []).toRight k.toNat "PEER_LEFT" []
    exact ⟨u.ringState_setRingState k.toNat 0 (by decide), (u.setRingState k.toNat rgIdle 0).ring_setRing_same k.toNat {},
      .of_mem (u.setRingState_mem k.toNat rgIdle 0)⟩
  · intro s m k htakes hst hreqs
    have hbusy := State.dissolve_of_used (s := s.noteOrder m pgShr) hst hreqs
    refine ⟨_, exec_dissolve_of_takes htakes, ?_⟩
    rw [hbusy]
    exact s.wroteAs_setFld m pgShr ..

end Sys2Proof.Machine
end

section
/-! The passes of a ring: READY, START, the steps and their release, SWEEP and the partial records (17 R411, R412, R414, R415, R419,
R420; log entries 98 and 100). -/

namespace Sys2Proof.Machine

open Host

/-! ### The rows -/

theorem exec_ready (k : BitVec 3) (member : BitVec 5) (tag : BitVec 64) (layer pages : Nat) (s : State) :
    exec (.ready k member tag layer pages) s = execReady k member tag layer pages s := rfl

theorem exec_ringRelease (k : BitVec 3) (step : Nat) (stage : Bool) (s : State) :
    exec (.ringRelease k step stage) s = execRingRelease k step s stage := rfl

theorem exec_sweep (k : BitVec 3) (tag : BitVec 64) (token : BitVec 18) (j shard : Nat) (rows : List Byte) (s : State) :
    exec (.sweep k tag token j shard rows) s = execSweep k tag token j shard rows s := rfl

theorem exec_partialRecord (k : BitVec 3) (tag : BitVec 64) (member : BitVec 5) (x : RingPartial) (s : State) :
    exec (.partialRecord k tag member x) s = execPartialRecord k tag member x s := rfl

/-! ### READY -/

/-- A message for which there is a way goes to the right neighbour. -/
theorem State.ringSend_of_route {s : State} {k : Nat} (h : s.routeTo (s.ringRight k) ≠ []) (r : Req) (name : String) (args : List Nat) :
    s.ringSend k r name args = s.toRight k name args := if_neg h

/-- A ring has another member than the one named. -/
theorem exists_other_member {n : Nat} (h : 1 < n) (member : Nat) : ∃ i < n, i ≠ member := by
  by_cases h0 : member = 0
  · exact ⟨1, h, by omega⟩
  · exact ⟨0, by omega, by omega⟩

/-- A leader that lacks the READY of a member does not start the pass. -/
theorem State.tryStart_of_missing {s : State} {k i : Nat} (hi : i < s.ringSize k) (hmissing : ∀ e ∈ (s.ring k).readies, e.1 ≠ i)
    (r : Req) (layer : Nat) : s.tryStart k r layer = s := by
  refine if_neg fun hall => ?_
  simp only [Bool.and_eq_true, List.all_eq_true, List.any_eq_true, decide_eq_true_eq, List.mem_range] at hall
  obtain ⟨e, he, hmember⟩ := hall.2 i hi
  exact hmissing e (List.mem_of_mem_filter he) hmember

theorem exec_ready_of_leader {s : State} {k : BitVec 3} {member : BitVec 5} {tag : BitVec 64} {r : Req}
    (hst : s.ringState k.toNat = rgReady) (hmember : member.toNat < s.ringSize k.toNat)
    (hreq : ((s.ringReqs k.toNat).find? fun r => decide (r.tag = tag) && r.admitted) = some r)
    (hleader : s.leaderOf k.toNat r = s.ringMember k.toNat) (hnone : (s.ring k.toNat).readies = []) (layer pages : Nat) :
    exec (.ready k member tag layer pages) s = .next ((s.setRing k.toNat { s.ring k.toNat with
      readies := [(member.toNat, tag, layer, pages)], firstReady := some ((s.ring k.toNat).firstReady.getD s.tick) }).tryStart
        k.toNat r layer) := by
  simp [exec_ready, execReady, hst, Nat.not_le.2 hmember, hreq, hleader, hnone]

theorem exec_ready_of_relay {s : State} {k : BitVec 3} {member : BitVec 5} {tag : BitVec 64} {r : Req}
    (hst : s.ringState k.toNat = rgReady) (hmember : member.toNat < s.ringSize k.toNat)
    (hreq : ((s.ringReqs k.toNat).find? fun r => decide (r.tag = tag) && r.admitted) = some r)
    (hleader : s.leaderOf k.toNat r ≠ s.ringMember k.toNat) (hother : member.toNat ≠ s.ringMember k.toNat)
    (hroute : s.routeTo (s.ringRight k.toNat) ≠ []) (layer pages : Nat) :
    exec (.ready k member tag layer pages) s = .next (s.toRight k.toNat "READY" [member.toNat, tag.toNat, layer, pages]) := by
  rw [← State.ringSend_of_route hroute r]
  simp [exec_ready, execReady, hst, Nat.not_le.2 hmember, hreq, hleader, hother]

/-! ### Alarms: events of a ring leave entries and memory alone -/

theorem State.rereferenceDie_rings_mem (s : State) (d : Nat) :
    ((s.rereferenceDie d).rings, (s.rereferenceDie d).mem) = (s.rings, s.mem) := by
  simp only [State.rereferenceDie]

theorem State.beginExit_rings_mem (s : State) (x : IdleSt) : ((s.beginExit x).rings, (s.beginExit x).mem) = (s.rings, s.mem) := by
  unfold State.beginExit
  dsimp only
  split
  · rw [State.rereferenceDie_rings_mem]
    rfl
  · rfl
  · rfl

theorem State.meetEvent_rings_mem (e : TtlEvent) (s : State) (x : IdleSt) :
    ((s.meetEvent e x).rings, (s.meetEvent e x).mem) = (s.rings, s.mem) := by
  unfold State.meetEvent
  split
  · rfl
  · split
    · split
      · exact s.beginExit_rings_mem x
      · rfl
    · split
      · rfl
      · split
        · exact s.beginExit_rings_mem x
        · rfl

theorem State.ttlRegister_rings_mem (s : State) (target : Nat) (client : TtlClient) (dies : List Nat) :
    ((s.ttlRegister target client dies).rings, (s.ttlRegister target client dies).mem) = (s.rings, s.mem) := by
  unfold State.ttlRegister
  split <;> rfl

theorem State.ringAlarm_frame (s : State) (k target : Nat) :
    (s.ringAlarm k target).rings = s.rings ∧ (s.ringAlarm k target).mem = s.mem :=
  Prod.mk.inj <| (State.foldl_same (g := fun t => (t.rings, t.mem)) (fun t x => t.meetEvent_rings_mem _ x) _ _).trans
    (s.ttlRegister_rings_mem ..)

/-! ### START -/

/-- A pass begins: the entry holds its schedule, and memory is as it was. -/
theorem State.beginPass_frame (s : State) (k t0 d steps : Nat) :
    (s.beginPass k t0 d steps).ring k = { s.ring k with
      readies := [], firstReady := none, sentReady := none, running := decide (0 < steps), t0 := t0, d := d, steps := steps
      step := 0, moved := 0, released := [], leftReleased := [], delayed := [], partials := [] } ∧
    (s.beginPass k t0 d steps).mem = s.mem := by
  refine ⟨State.ring_setRing_same .., (State.ringAlarm_frame ..).2.trans ?_⟩
  split
  · rfl
  · exact (s.ringAlarm_frame ..).2

/-- A member that hears another's START passes it on where it must, and begins the pass. -/
theorem exec_start_of_member {s : State} {k : BitVec 3} {leader : BitVec 5} (hst : s.ringState k.toNat = rgReady)
    (hleader : leader.toNat ≠ s.ringMember k.toNat) (t0 : BitVec 64) (d steps : Nat) :
    ∃ u, s.SpeaksOnly u ∧ exec (.start k leader t0 d steps) s = .next (u.beginPass k.toNat t0.toNat d steps) :=
  ⟨_, .ite (.refl s) (.toRight s ..), congrArg Outcome.next (if_neg (not_or.2 ⟨not_not_intro hst, hleader⟩))⟩

/-! ### Steps -/

/-- A release changes what the entry has released and whether its pass runs, and nothing else but messages. -/
theorem State.ringRelease_frame (s : State) (k : Nat) :
    (∃ released running, (s.ringRelease k).ring k = { s.ring k with released := released, running := running }) ∧
      (s.ringRelease k).regs = s.regs ∧ (s.ringRelease k).mem = s.mem := by
  unfold State.ringRelease
  dsimp only
  split
  · have hsent := State.SpeaksOnly.foldl (f := fun t i => t.toRight k "RELEASE" [i]) (fun t i => .toRight t ..)
      ((List.range (s.ring k).step).filter fun i => decide (i ∉ (s.ring k).released)) s
    exact ⟨⟨_, _, State.ring_setRing_same ..⟩, hsent.regs, hsent.mem⟩
  · exact ⟨⟨(s.ring k).released, (s.ring k).running, rfl⟩, rfl, rfl⟩

/-- A step that is due begins: an alarm for the next one where there is one, then a release. -/
theorem exec_stepDue_of_due {s : State} {k : BitVec 3} (hgoes : s.ringGoes k.toNat = true) (hruns : (s.ring k.toNat).running = true)
    (hleft : (s.ring k.toNat).step < (s.ring k.toNat).steps)
    (hdue : (s.ring k.toNat).due (s.ring k.toNat).step ≤ s.time.count.toNat) :
    ∃ u : State, u.mem = s.mem ∧ exec (.stepDue k) s =
      .next ((u.setRing k.toNat { s.ring k.toNat with step := (s.ring k.toNat).step + 1 }).ringRelease k.toNat) := by
  refine ⟨_, ?_, congrArg Outcome.next (if_pos ⟨hgoes, hruns, hleft, hdue⟩)⟩
  split
  · exact (s.ringAlarm_frame ..).2
  · rfl

theorem exec_ringRelease_of_inTime {s : State} {k : BitVec 3} {step : Nat} (hst : s.ringState k.toNat = rgReady)
    (hruns : (s.ring k.toNat).running = true) (hstep : step < (s.ring k.toNat).steps) (hnew : step ∉ (s.ring k.toNat).leftReleased)
    (htime : s.time.count.toNat ≤ (s.ring k.toNat).due step + 5000) :
    exec (.ringRelease k step false) s = .next ((s.setRing k.toNat { s.ring k.toNat with
      leftReleased := (s.ring k.toNat).leftReleased ++ [step] }).ringRelease k.toNat) :=
  congrArg Outcome.next <| (if_neg Bool.false_ne_true).trans (if_pos ⟨hst, hruns, hstep, hnew, .inr htime⟩)

theorem exec_ringRelease_of_late {s : State} {k : BitVec 3} {step : Nat}
    (hlate : (s.ring k.toNat).due step + 5000 < s.time.count.toNat) (hgoes : (s.ring k.toNat).pairedSince = none) :
    exec (.ringRelease k step false) s = .next s := by
  refine congrArg Outcome.next <| (if_neg Bool.false_ne_true).trans (if_neg ?_)
  rintro ⟨-, -, -, -, hpaired | htime⟩
  · rw [hgoes] at hpaired
    exact Bool.false_ne_true hpaired
  · omega

/-! ### DELAY -/

/-- A pass whose remaining due ticks are moved by a member's DELAY, which is counted. -/
def State.delayed (s : State) (k member step e : Nat) : State :=
  ((s.ttlDelay k e).setRing k { s.ring k with
    moved := (s.ring k).moved + e, delayed := (s.ring k).delayed ++ [(member, step)] }).inc Key.shrDelayCnt

/-- A DELAY in time is taken, and passed on until it has gone around. -/
theorem exec_delay_of_inTime {s : State} {k : BitVec 3} {member : BitVec 5} {step e : Nat} (hst : s.ringState k.toNat = rgReady)
    (hruns : (s.ring k.toNat).running = true) (hmost : e ≤ (s.ring k.toNat).d) (hleast : (s.ring k.toNat).step ≤ step)
    (hstep : step < (s.ring k.toNat).steps) (htime : s.time.count.toNat < (s.ring k.toNat).due step)
    (hnew : (member.toNat, step) ∉ (s.ring k.toNat).delayed) :
    ∃ t, (s.delayed k.toNat member.toNat step e).SpeaksOnly t ∧ exec (.delay k member step e) s = .next t :=
  ⟨_, .ite (.refl _) (.toRight ..), congrArg Outcome.next (if_pos ⟨hst, hruns, hmost, hleast, hstep, htime, hnew⟩)⟩

/-! ### SWEEP and the partial records -/

/-- The SWEEPs of an entry with one more, which replaces what it had of the request and shard. -/
def Ring.swept (x : Ring) (tag : BitVec 64) (shard : Nat) (rows : List Byte) : Ring :=
  { x with sweeps := (x.sweeps.filter fun y => !(decide (y.1 = tag) && decide (y.2.1 = shard))) ++ [(tag, shard, rows)] }

/-- The start of a sweep on a member whose right neighbour is not the home: it is kept, and passed on. -/
theorem exec_sweep_of_relay {s : State} {k : BitVec 3} {tag : BitVec 64} {shard : Nat} {r : Req} {h : Shard}
    (hreq : ((s.ringReqs k.toNat).find? fun r => decide (r.tag = tag) && r.inDecode) = some r)
    (hshard : ((s.shardsOf r.part tag).find? fun h => decide (h.idx = shard)) = some h) (hst : s.ringState k.toNat = rgReady)
    (hroute : s.routeTo (s.ringRight k.toNat) ≠ [])
    (hhome : (s.ringMember k.toNat + 1) % max 1 (s.ringSize k.toNat) ≠ s.homeOf k.toNat r) (token : BitVec 18) (rows : List Byte) :
    ∃ a, exec (.sweep k tag token 0 shard rows) s =
      .next ((s.setRing k.toNat ((s.ring k.toNat).swept tag shard rows)).toRight k.toNat "SWEEP" a) := by
  refine ⟨[tag.toNat, token.toNat, 0, shard] ++ rows.map BitVec.toNat, ?_⟩
  rw [← State.ringSend_of_route (s := s.setRing k.toNat _) hroute r]
  simp [exec_sweep, execSweep, hreq, hshard, hst, hhome, Ring.swept]

/-- A home that lacks the partial record of a member waits for it. -/
theorem State.combineRing_of_missing {s : State} {k i : Nat} (hi : i < s.ringSize k)
    (hmissing : ∀ e ∈ (s.ring k).partials, e.2.1 ≠ i) (tag : BitVec 64) : s.combineRing k tag = s := by
  have hnone : (((s.ring k).partials.filter fun e => decide (e.1 = tag)).find? fun e => decide (e.2.1 = i)) = none :=
    List.find?_eq_none.2 fun e he => by simpa using hmissing e (List.mem_of_mem_filter he)
  refine if_pos (lt_of_lt_of_eq (List.length_filterMap_lt_length_iff_exists.2 ⟨i, List.mem_range.2 hi, ?_⟩) List.length_range)
  rw [hnone]
  rfl

theorem exec_partialRecord_of_home {s : State} {k : BitVec 3} {tag : BitVec 64} {member : BitVec 5} {r : Req}
    (hreq : ((s.ringReqs k.toNat).find? fun r => decide (r.tag = tag) && r.inDecode) = some r)
    (hst : s.ringState k.toNat = rgReady) (hmember : member.toNat < s.ringSize k.toNat)
    (hhome : s.homeOf k.toNat r = s.ringMember k.toNat) (hnone : (s.ring k.toNat).partials = []) (x : RingPartial) :
    exec (.partialRecord k tag member x) s =
      .next ((s.setRing k.toNat { s.ring k.toNat with partials := [(tag, member.toNat, x)] }).combineRing k.toNat tag) := by
  simp [exec_partialRecord, execPartialRecord, hreq, hst, Nat.not_le.2 hmember, hhome, hnone]

theorem exec_partialRecord_of_relay {s : State} {k : BitVec 3} {tag : BitVec 64} {member : BitVec 5} {r : Req}
    (hreq : ((s.ringReqs k.toNat).find? fun r => decide (r.tag = tag) && r.inDecode) = some r)
    (hst : s.ringState k.toNat = rgReady) (hmember : member.toNat < s.ringSize k.toNat)
    (hhome : s.homeOf k.toNat r ≠ s.ringMember k.toNat) (hroute : s.routeTo (s.ringRight k.toNat) ≠ []) (x : RingPartial) :
    exec (.partialRecord k tag member x) s = .next (s.toRight k.toNat "PARTIAL" ([tag.toNat, member.toNat] ++ partialNums x)) := by
  rw [← State.ringSend_of_route hroute r]
  simp [exec_partialRecord, execPartialRecord, hreq, hst, Nat.not_le.2 hmember, hhome]

/-- Settles O41: what the leader or the home gathers waits while a member's is missing; the schedule of a pass is that of its START, and
what a step, a RELEASE or a DELAY changes of it stands through the release that may follow. READY and the partial records go right (log
entry 98), and a RELEASE of the next stage drops one activation kept (log entry 100). -/
theorem ringsRun : Obligations.RingsRun := by
  unfold Obligations.RingsRun
  refine ⟨?_, ?_, ?_, ?_, ?_, ?_, ?_, ?_, ?_⟩
  · exact fun s k member tag layer pages r hst hmember hreq hleader hother hroute =>
      ⟨_, exec_ready_of_relay hst hmember hreq hleader hother hroute layer pages⟩
  · intro s k member tag layer pages r hst hmember hmany hreq hleader hnone
    obtain ⟨i, hi, hother⟩ := exists_other_member hmany member.toNat
    set x : Ring := { s.ring k.toNat with
      readies := [(member.toNat, tag, layer, pages)], firstReady := some ((s.ring k.toNat).firstReady.getD s.tick) }
    have hring : (s.setRing k.toNat x).ring k.toNat = x := State.ring_setRing_same ..
    have hmissing : ∀ e ∈ ((s.setRing k.toNat x).ring k.toNat).readies, e.1 ≠ i := by
      rw [hring]
      exact List.forall_mem_singleton.2 hother.symm
    refine ⟨_, exec_ready_of_leader hst hmember hreq hleader hnone layer pages, ?_⟩
    rw [State.tryStart_of_missing (s := s.setRing k.toNat x) hi hmissing, hring]
    exact ⟨rfl, .of_regs rfl _, .of_mem rfl, rfl⟩
  · intro s k leader t0 d steps hst hleader
    obtain ⟨u, hspeaks, hexec⟩ := exec_start_of_member hst hleader t0 d steps
    obtain ⟨hring, hmem⟩ := u.beginPass_frame k.toNat t0.toNat d steps
    refine ⟨_, hexec, ?_⟩
    rw [hring]
    exact ⟨rfl, rfl, rfl, rfl, decide_eq_true_iff, .of_mem (hmem.trans hspeaks.mem)⟩
  · intro s k hgoes hruns hleft hdue
    obtain ⟨u, hu, hexec⟩ := exec_stepDue_of_due hgoes hruns hleft hdue
    obtain ⟨⟨released, running, hring⟩, -, hmem⟩ := State.ringRelease_frame
      (u.setRing k.toNat { s.ring k.toNat with step := (s.ring k.toNat).step + 1 }) k.toNat
    rw [State.ring_setRing_same] at hring
    exact ⟨_, hexec, congrArg Ring.step hring, .of_mem (hmem.trans hu)⟩
  · intro s k step hst hruns hstep hnew
    refine ⟨fun htime => ?_, exec_ringRelease_of_late⟩
    obtain ⟨⟨released, running, hring⟩, hregs, hmem⟩ := State.ringRelease_frame (s.setRing k.toNat { s.ring k.toNat with
      leftReleased := (s.ring k.toNat).leftReleased ++ [step] }) k.toNat
    rw [State.ring_setRing_same] at hring
    exact ⟨_, exec_ringRelease_of_inTime hst hruns hstep hnew htime, congrArg Ring.leftReleased hring, .of_regs hregs _, .of_mem hmem⟩
  · exact fun s k step => ⟨_, exec_ringRelease k step true s, congrArg Ring.kept (State.ring_setRing_same ..), .of_regs rfl _,
      .of_mem rfl, rfl⟩
  · intro s k member step e hst hruns hmost hleast hstep htime hnew
    obtain ⟨t, hspeaks, hexec⟩ := exec_delay_of_inTime hst hruns hmost hleast hstep htime hnew
    have hring : (s.delayed k.toNat member.toNat step e).ring k.toNat = _ := State.ring_setRing_same ..
    refine ⟨t, hexec, ?_, ?_, fun j hj => ?_, .of_mem hspeaks.mem⟩
    · rw [hspeaks.ring, hring]
    · rw [State.reg_congr hspeaks.regs]
      exact State.reg_setReg_same ..
    · rw [State.reg_congr hspeaks.regs]
      exact RegsBut.inc (s := s) rfl Key.shrDelayCnt j hj
  · intro s k tag token shard rows r h hreq hshard hst hroute hhome
    obtain ⟨a, hexec⟩ := exec_sweep_of_relay hreq hshard hst hroute hhome token rows
    refine ⟨_, _, hexec, ?_, rfl, .of_regs rfl _, .of_mem rfl⟩
    rw [(State.SpeaksOnly.toRight ..).ring, State.ring_setRing_same]
    exact List.mem_append_right _ (List.mem_singleton.2 rfl)
  · intro s k tag member x r hreq hst hmember
    refine ⟨fun hhome hroute => ⟨_, exec_partialRecord_of_relay hreq hst hmember hhome hroute x⟩, fun hhome hnone hmany => ?_⟩
    obtain ⟨i, hi, hother⟩ := exists_other_member hmany member.toNat
    set y : Ring := { s.ring k.toNat with partials := [(tag, member.toNat, x)] }
    have hring : (s.setRing k.toNat y).ring k.toNat = y := State.ring_setRing_same ..
    have hmissing : ∀ e ∈ ((s.setRing k.toNat y).ring k.toNat).partials, e.2.1 ≠ i := by
      rw [hring]
      exact List.forall_mem_singleton.2 hother.symm
    refine ⟨_, exec_partialRecord_of_home hreq hst hmember hhome hnone x, ?_⟩
    rw [State.combineRing_of_missing (s := s.setRing k.toNat y) hi hmissing, hring]
    exact ⟨rfl, .of_regs rfl _, .of_mem rfl, rfl⟩

end Sys2Proof.Machine
end

section
/-! Ring failures and recovery: ends, stalls, timeouts, contexts and mirror rows (17 R416, R417, R422, R423, R426; log entries 99 and
100). -/

namespace Sys2Proof.Machine

open Host

/-! ### The rows -/

theorem exec_ringEnd (k : BitVec 3) (tag : BitVec 64) (cause : RingCause) (s : State) :
    exec (.ringEnd k tag cause) s = execRingEnd k tag cause s := rfl

theorem exec_context (k : BitVec 3) (c : RingContext) (s : State) : exec (.context k c) s = execContext k c s := rfl

theorem exec_mirrorRows (k : BitVec 3) (tag : BitVec 64) (shard page slot : Nat) (scale rows : List Byte) (s : State) :
    exec (.mirrorRows k tag shard page slot scale rows) s = execMirrorRows k tag shard page slot scale rows s := rfl

theorem exec_mirrorAck (entry valid : Nat) (s : State) : exec (.mirrorAck entry valid) s = execMirrorAck entry valid s := rfl

/-! ### Ends and stalls -/

/-- An END of a request that holds a lane, while the ring goes on, waits for the next step boundary. -/
theorem exec_ringEnd_of_running {s : State} {k : BitVec 3} {tag : BitVec 64} {r : Req}
    (hreq : ((s.ringReqs k.toNat).find? fun r => decide (r.tag = tag)) = some r) (hlane : r.lane = true)
    (hgoes : s.ringGoes k.toNat = true) (cause : RingCause) :
    exec (.ringEnd k tag cause) s = .next (s.setReq { r with stop := some (ringEndStatus cause), stopCause := none }) := by
  simp [exec_ringEnd, execRingEnd, hreq, hlane, hgoes]

theorem exec_stall_of_member {s : State} {k : BitVec 3} {member : BitVec 5} (h : member.toNat < s.ringSize k.toNat) :
    exec (.stall k member false) s = .next (s.takeStall k.toNat member.toNat) :=
  congrArg Outcome.next <| (if_neg Bool.false_ne_true).trans (if_pos h)

/-- A STALL of the member whose stall the entry recovers from says nothing new. -/
theorem State.takeStall_of_heard {s : State} {k x : Nat} (hst : s.ringState k = rgRecovering) (hx : (s.ring k).stalled = some x) :
    s.takeStall k x = s :=
  (if_pos hst).trans (if_pos hx)

theorem State.ringGoes_iff {s : State} {k : Nat} :
    s.ringGoes k = true ↔ s.ringState k = rgReady ∧ (s.ring k).pairedSince.isNone = true := by
  simp [State.ringGoes]

/-- An entry that goes on is held from this tick on while a ring paired with it recovers. -/
theorem exec_stall_of_paired {s : State} {k : BitVec 3} (h : s.ringGoes k.toNat = true) (member : BitVec 5) :
    exec (.stall k member true) s = .next (s.setRing k.toNat { s.ring k.toNat with pairedSince := some s.tick }) :=
  congrArg Outcome.next <| (if_pos rfl).trans (if_pos (State.ringGoes_iff.1 h))

/-! ### Timeouts -/

/-- A RELEASE of the left neighbour that is missing 5,000 ticks after its step was due. -/
theorem exec_stepTimeout_of_missing {s : State} {k : BitVec 3} {i : Nat} (hgoes : s.ringGoes k.toNat = true)
    (hruns : (s.ring k.toNat).running = true) (hi : i < (s.ring k.toNat).steps) (hmissing : i ∉ (s.ring k.toNat).leftReleased)
    (hlate : (s.ring k.toNat).due i + 5000 ≤ s.time.count.toNat) :
    exec (.stepTimeout k) s = .next (s.declareStall k.toNat
      ((s.ringMember k.toNat + max 1 (s.ringSize k.toNat) - 1) % max 1 (s.ringSize k.toNat))) := by
  refine congrArg Outcome.next (if_pos ⟨hgoes, hruns, List.any_eq_true.2 ⟨i, List.mem_range.2 hi, ?_⟩⟩)
  simp [hmissing, hlate]

/-- A READY that the leader misses for barrier_ms after the first one. -/
theorem exec_barrierTimeout_of_missing {s : State} {k : BitVec 3} {member : BitVec 5} {t0 : Nat} (hgoes : s.ringGoes k.toNat = true)
    (hmember : member.toNat < s.ringSize k.toNat) (hfirst : (s.ring k.toNat).firstReady = some t0)
    (hlate : t0 + 100000 * max 1 (s.fld Key.shrCfg 15 8) ≤ s.tick) (hmissing : ∀ e ∈ (s.ring k.toNat).readies, e.1 ≠ member.toNat) :
    exec (.barrierTimeout k member) s = .next (s.declareStall k.toNat member.toNat) := by
  refine congrArg Outcome.next (if_pos ⟨hgoes, hmember, .inl ?_⟩)
  rw [hfirst]
  exact Bool.and_eq_true_iff.2 ⟨decide_eq_true hlate, List.all_eq_true.2 fun e he => decide_eq_true (hmissing e he)⟩

theorem exec_recoverTimeout_of_late {s : State} {k : BitVec 3} (hst : s.ringState k.toNat = rgRecovering)
    (hlate : (s.ring k.toNat).since + 100000 * max 1 (s.fld Key.shrCfg 31 16) ≤ s.tick) :
    exec (.recoverTimeout k) s = .next (s.ringFails k.toNat ((s.ring k.toNat).stalled.getD 0) 0x08) :=
  congrArg Outcome.next (if_pos ⟨hst, hlate⟩)

/-! ### Contexts -/

/-- The last context of a recovery, on the spare that holds the request already and needs no page of the mirror. -/
theorem exec_context_of_held {s : State} {k : BitVec 3} {c : RingContext} {r : Req} (hspare : s.fld Key.jryStat 31 29 = 3)
    (hst : s.ringState k.toNat = rgRecovering) (hown : (s.ring k.toNat).stalled = some (s.ringMember k.toNat))
    (hmirror : c.mirrorOk = true) (hpages : c.pages = []) (hlast : c.last = true) (hresend : c.resend = none)
    (hreq : ((s.ringReqs k.toNat).find? fun r => decide (r.tag = descTag c.desc)) = some r) :
    exec (.context k c) s = .next (s.ringRecovered k.toNat).kvpUpdate := by
  simp [exec_context, execContext, hspare, hst, hown, hmirror, hpages, hlast, hresend, hreq]

/-! ### Mirror rows -/

/-- Without an armed injection a write of lines makes the corrupted ones among them good, and no more. -/
theorem State.injWrite_of_none {s : State} (h : s.rel.inject = none) (a n : Nat) : s.injWrite a n =
    if s.rel.marred = [] then s else { s with rel := { s.rel with marred := s.rel.marred.filter fun l => !lineIn a n l } } := by
  have hno : ∀ t : State, t.rel.inject = none → ∀ kind f, t.injHits kind f = false := fun t ht kind f => by
    simp only [State.injHits, ht]
  unfold State.injWrite
  split <;> simp [hno, h]

/-- `t` is `s` but for memory and its corrupted lines, and no injection is armed. -/
def State.BytesOnly (s t : State) : Prop :=
  ∃ mem marred, s.rel.inject = none ∧ t = { s with mem := mem, rel := { s.rel with marred := marred } }

namespace State.BytesOnly

variable {s t u : State}

theorem refl (h : s.rel.inject = none) : s.BytesOnly s := ⟨s.mem, s.rel.marred, h, rfl⟩

theorem trans (h : s.BytesOnly t) (h' : t.BytesOnly u) : s.BytesOnly u := by
  obtain ⟨_, _, hnone, rfl⟩ := h
  obtain ⟨mem, marred, _, rfl⟩ := h'
  exact ⟨mem, marred, hnone, rfl⟩

theorem inject (h : s.BytesOnly t) : t.rel.inject = none := by obtain ⟨_, _, hnone, rfl⟩ := h; exact hnone

/-- Bytes written while no injection is armed. -/
theorem wr (h : s.rel.inject = none) (a : Nat) (bs : List Byte) : s.BytesOnly (s.wr a bs) := by
  obtain ⟨mem, hwr⟩ : ∃ mem, s.wr a bs = ({ s with mem := mem } : State).injWrite a bs.length := ⟨_, rfl⟩
  rw [hwr, State.injWrite_of_none (s := { s with mem := mem }) h]
  split
  · exact ⟨mem, s.rel.marred, h, rfl⟩
  · exact ⟨mem, _, h, rfl⟩

theorem foldl {α : Type} {f : State → α → State} (hf : ∀ (t : State) (x : α), t.rel.inject = none → t.BytesOnly (f t x))
    (l : List α) (h : s.rel.inject = none) : s.BytesOnly (l.foldl f s) :=
  List.foldlRecOn l _ (refl h) fun t ht x _ => ht.trans (hf t x ht.inject)

end State.BytesOnly

/-- The rows of a mirror page written into its frame, as its heads lay them out. -/
def State.writeMirror (s : State) (h : Shard) (frame slot : Nat) (rows : List Byte) : State :=
  (List.range (rows.length / max 1 (2 * h.heads * h.dim))).foldl (fun t i => (List.range h.heads).foldl (fun u z =>
    (u.wr (frame * 4096 + (z * 256 + slot + i) * h.dim) (cut rows (i * (2 * h.heads * h.dim) + z * h.dim) h.dim)).wr
      (frame * 4096 + h.heads * 256 * h.dim + (z * 256 + slot + i) * h.dim)
      (cut rows (i * (2 * h.heads * h.dim) + (h.heads + z) * h.dim) h.dim)) t) s

theorem State.bytesOnly_writeMirror {s : State} (hnone : s.rel.inject = none) (h : Shard) (frame slot : Nat) (rows : List Byte) :
    s.BytesOnly (s.writeMirror h frame slot rows) :=
  .foldl (fun _ _ ht => .foldl (fun _ _ hu => (State.BytesOnly.wr hu ..).trans (.wr (State.BytesOnly.wr hu ..).inject ..)) _ ht) _ hnone

/-- A mirror page with its newly published rows. -/
def MirrorPage.published (p : MirrorPage) (h : Shard) (slot : Nat) (scale rows : List Byte) : MirrorPage :=
  { p with scale := if scale = [] then p.scale else scale, valid := max p.valid (slot + rows.length / max 1 (2 * h.heads * h.dim)) }

/-- An entry's mirror pages with one more, which replaces what it held of the page. -/
def Ring.mirroring (x : Ring) (tag : BitVec 64) (shard page : Nat) (q : MirrorPage) : Ring :=
  { x with mirror := (x.mirror.filter fun z => !(decide (z.tag = tag) && decide (z.shard = shard) && decide (z.page = page))) ++ [q] }

/-- A mirror page noted on the entry and acknowledged to the left neighbour, at the end of a take of the page manager. -/
def State.mirrorNoted (s : State) (k : Nat) (tag : BitVec 64) (shard page : Nat) (q : MirrorPage) : State :=
  ((s.setRing k ((s.ring k).mirroring tag shard page q)).toLeft k "MIRROR_ACK" [tag.toNat, shard, page, q.valid]).showFresh 2

theorem State.mem_mirror_mirrorNoted (s : State) (k : Nat) (tag : BitVec 64) (shard page : Nat) (q : MirrorPage) :
    q ∈ ((s.mirrorNoted k tag shard page q).ring k).mirror := by
  have hring : (s.mirrorNoted k tag shard page q).ring k = (s.ring k).mirroring tag shard page q := s.ring_setRing_same ..
  rw [hring]
  exact List.mem_append_right _ (List.mem_singleton.2 rfl)

/-- Rows of a page that is mirrored already: they are written, the page is noted, and the left neighbour hears so. -/
theorem exec_mirrorRows_of_held {s : State} {k : BitVec 3} {tag : BitVec 64} {shard page : Nat} {h : Shard} {p : MirrorPage}
    (hst : s.ringState k.toNat = rgReady) (hmirror : s.ringMirror k.toNat = true)
    (hshard : ((s.shardsOf (s.ringPart k.toNat) tag).find? fun h => decide (h.idx = shard)) = some h)
    (hpage : ((s.ring k.toNat).mirror.find? fun p => decide (p.tag = tag) && decide (p.shard = shard) && decide (p.page = page)) = some p)
    (slot : Nat) (scale rows : List Byte) {u : State} (hu : u = (s.hideFresh 2).writeMirror h p.frame slot rows) :
    exec (.mirrorRows k tag shard page slot scale rows) s =
      .next (u.mirrorNoted k.toNat tag shard page (p.published h slot scale rows)) := by
  have hst' : ¬(((s.hideFresh 2).ringState k.toNat ≠ rgReady ∧ (s.hideFresh 2).ringState k.toNat ≠ rgRecovering) ∨
      (s.hideFresh 2).ringMirror k.toNat = false) :=
    not_or.2 ⟨fun hne => hne.1 hst, fun hno => Bool.false_ne_true (hno.symm.trans hmirror)⟩
  have hshard' : (((s.hideFresh 2).shardsOf ((s.hideFresh 2).ringPart k.toNat) tag).find? fun h => decide (h.idx = shard)) = some h :=
    hshard
  have hpage' : (((s.hideFresh 2).ring k.toNat).mirror.find? fun p =>
    decide (p.tag = tag) && decide (p.shard = shard) && decide (p.page = page)) = some p := hpage
  rw [exec_mirrorRows, execMirrorRows, State.asTake, if_neg hst', hshard', hu]
  dsimp only
  rw [hpage']
  rfl

theorem exec_mirrorAck_of_published {s : State} {entry valid k : Nat} {h : Shard} {r : Req} (hshard : s.shardOfEntry entry = some h)
    (hreq : s.req h.part h.tag = some r) (hring : s.reqRing r = some k) (hmirror : s.ringMirror k = true)
    (hpresent : (s.pte (s.auth entry)).present = true) (hvalid : (s.pte (s.auth entry)).valid ≤ valid) :
    exec (.mirrorAck entry valid) s = .next ((s.setPte (s.auth entry)
      { s.pte (s.auth entry) with mirror := true, dirty := false }).ringRelease k) := by
  simp [exec_mirrorAck, execMirrorAck, hshard, hreq, hring, hmirror, hpresent, hvalid]

/-- Settles O42: each row by its equation where its condition holds; a paired STALL holds the whole entry (log entry 100), and of the
mirror rows, by what a write of bytes leaves. -/
theorem ringsRecover : Obligations.RingsRecover := by
  unfold Obligations.RingsRecover
  refine ⟨?_, ?_, ?_, ?_, ?_, ?_, ?_, ?_, ?_⟩
  · exact fun s k tag cause r hreq hlane hgoes => exec_ringEnd_of_running hreq hlane hgoes cause
  · intro s k member hmember
    refine ⟨fun hst hx => ?_, fun _ _ => exec_stall_of_member hmember⟩
    rw [exec_stall_of_member hmember, State.takeStall_of_heard hst hx]
  · intro s k member hgoes
    have hring := s.ring_setRing_same k.toNat { s.ring k.toNat with pairedSince := some s.tick }
    refine ⟨_, exec_stall_of_paired hgoes member, congrArg Ring.pairedSince hring, ?_, .of_regs rfl _, .of_mem rfl, rfl⟩
    rw [State.ringGoes, hring]
    exact Bool.and_false _
  · exact fun s k i hgoes hruns hi hmissing hlate => exec_stepTimeout_of_missing hgoes hruns hi hmissing hlate
  · exact fun s k member t0 hgoes hmember hfirst hlate hmissing =>
      exec_barrierTimeout_of_missing hgoes hmember hfirst hlate hmissing
  · intro s k hst hlate hreqs
    have hnone : s.ringReqs k.toNat = [] := by simp [State.ringReqs, hreqs]
    exact ⟨_, exec_recoverTimeout_of_late hst hlate, State.ringFails_frame hnone _⟩
  · exact fun s k c r hspare hst hown hmirror hpages hlast hresend hreq =>
      exec_context_of_held hspare hst hown hmirror hpages hlast hresend hreq
  · intro s k tag shard page slot scale rows h p hst hmirror hinject hshard hpage
    obtain ⟨mem, marred, -, hwritten⟩ := State.bytesOnly_writeMirror (s := s.hideFresh 2) hinject h p.frame slot rows
    exact ⟨_, p.published h slot scale rows, _, exec_mirrorRows_of_held hst hmirror hshard hpage slot scale rows hwritten.symm,
      State.mem_mirror_mirrorNoted .., rfl, rfl, rfl, .of_regs rfl _, rfl⟩
  · exact fun s entry valid k h r hshard hreq hring hmirror hpresent hvalid =>
      exec_mirrorAck_of_published hshard hreq hring hmirror hpresent hvalid

end Sys2Proof.Machine
end

section
/-! What a bundle's training, identity exchange and end leave of its registers and of its hidden part (18 R437, R449, R450, R453). -/

namespace Sys2Proof.Machine

/-! ### The state of a bundle (Table 18.7) -/

@[simp] theorem State.reg_setBundle (s : State) (b k : Nat) (x : Bundle) : (s.setBundle b x).reg k = s.reg k := rfl
@[simp] theorem State.fld_setBundle (s : State) (b k h l : Nat) (x : Bundle) : (s.setBundle b x).fld k h l = s.fld k h l := rfl
@[simp] theorem State.bundleState_setBundle (s : State) (b c : Nat) (x : Bundle) : (s.setBundle b x).bundleState c = s.bundleState c := rfl
@[simp] theorem State.reg_unadmit (s : State) (b k : Nat) : (s.unadmit b).reg k = s.reg k := rfl
@[simp] theorem State.bundleState_unadmit (s : State) (b c : Nat) : (s.unadmit b).bundleState c = s.bundleState c := rfl
@[simp] theorem State.unadmit_mem (s : State) (b : Nat) : (s.unadmit b).mem = s.mem := rfl
@[simp] theorem State.unadmit_out (s : State) (b : Nat) : (s.unadmit b).out = s.out := rfl
@[simp] theorem State.bundle_unadmit (s : State) (b c : Nat) : (s.unadmit b).bundle c = s.bundle c := rfl

theorem lnkStat_ne {b c off : Nat} (ho : off < 0x1000) (h : off / 4 ≠ 0x100 / 4) : Key.lnkStat b ≠ regKey c off :=
  regKey_ne (by decide) ho h.symm

theorem State.bundleState_congr {s t : State} {b : Nat} (h : t.reg (Key.lnkStat b) = s.reg (Key.lnkStat b)) :
    t.bundleState b = s.bundleState b := State.fld_congr h 31 29

theorem State.bundleState_setFld (s : State) (b : Nat) {x : Nat} (hx : x < 8) :
    (s.setFld (Key.lnkStat b) 31 29 x).bundleState b = x :=
  (s.fld_setFld_same x (by decide)).trans (Nat.mod_eq_of_lt hx)

/-- The lanes shown are no part of the bundle's state. -/
theorem State.bundleState_setLanes (s : State) (b x : Nat) : (s.setFld (Key.lnkStat b) 3 0 x).bundleState b = s.bundleState b :=
  s.fld_setFld_ne x (by decide) (by decide) (by decide)

theorem State.lanes_setState (s : State) (b x : Nat) :
    (s.setFld (Key.lnkStat b) 31 29 x).fld (Key.lnkStat b) 3 0 = s.fld (Key.lnkStat b) 3 0 :=
  s.fld_setFld_ne x (by decide) (by decide) (by decide)

/-! ### Training (R449) -/

/-- A bundle whose training is over and that waits for the peer's identity record. -/
def State.inIdent (s : State) (b : Nat) (r : TrainResult) : State :=
  (((s.setFld (Key.lnkStat b) 3 0 r.lanes.toNat).setReg (Key.lnkTrainUs b) r.us).setFld (Key.lnkStat b) 31 29 bsIdent).setBundle b
    { s.bundle b with identAt := some s.tick }

theorem State.inIdent_frame (s : State) (b : Nat) (r : TrainResult) :
    (s.inIdent b r).bundleState b = bsIdent ∧ (s.inIdent b r).fld (Key.lnkStat b) 3 0 = r.lanes.toNat ∧
      (s.inIdent b r).reg (Key.lnkTrainUs b) = r.us ∧ ((s.inIdent b r).bundle b).identAt = some s.tick ∧
      RegsBut [Key.lnkStat b, Key.lnkTrainUs b] s (s.inIdent b r) := by
  have hne : Key.lnkStat b ≠ Key.lnkTrainUs b := lnkStat_ne (by decide) (by decide)
  unfold State.inIdent
  refine ⟨?_, ?_, ?_, ?_, ?_⟩
  · rw [State.bundleState_setBundle, State.bundleState_setFld _ _ (by decide)]
  · rw [State.fld_setBundle, State.lanes_setState, State.fld_congr (State.reg_setReg_ne _ _ hne), State.fld_setFld_same _ _ (by decide),
      Nat.mod_eq_of_lt r.lanes.isLt]
  · rw [State.reg_setBundle, State.reg_setFld_ne _ _ _ _ hne.symm, State.reg_setReg_same]
  · rw [State.bundle_setBundle_same]
  · intro k hk
    simp only [List.mem_cons, List.not_mem_nil, or_false, not_or] at hk
    obtain ⟨hstat, hus⟩ := hk
    rw [State.reg_setBundle, State.reg_setFld_ne _ _ _ _ hstat, State.reg_setReg_ne _ _ hus, State.reg_setFld_ne _ _ _ _ hstat]

/-! ### The identity record (Table 18.8) -/

/-- The credits that the peer advertises for the first `n` VCs shown, in turn. -/
def State.showCredits (s : State) (b : Nat) (rec : BitVec 512) (n : Nat) : State :=
  (List.range n).foldl (fun t v => t.setFld (Key.lnkVcCredit b v) 27 16 (min 4095 (dfield rec (0x10 + 2 * v) 0 16))) s

theorem State.showCredits_succ (s : State) (b : Nat) (rec : BitVec 512) (n : Nat) : s.showCredits b rec (n + 1) =
    (s.showCredits b rec n).setFld (Key.lnkVcCredit b n) 27 16 (min 4095 (dfield rec (0x10 + 2 * n) 0 16)) := by
  simp only [State.showCredits, List.range_succ, List.foldl_append, List.foldl_cons, List.foldl_nil]

theorem State.fld_showCredits (s : State) (b : Nat) (rec : BitVec 512) {n v : Nat} (hv : v < n) :
    (s.showCredits b rec n).fld (Key.lnkVcCredit b v) 27 16 = min 4095 (dfield rec (0x10 + 2 * v) 0 16) := by
  induction n with
  | zero => exact absurd hv (Nat.not_lt_zero v)
  | succ n ih =>
    rw [State.showCredits_succ]
    by_cases h : v = n
    · subst h
      exact (State.fld_setFld_same _ _ (by decide)).trans (Nat.mod_eq_of_lt (Nat.lt_succ_of_le (Nat.min_le_left ..)))
    · have hkey : Key.lnkVcCredit b v ≠ Key.lnkVcCredit b n := by
        simp only [Key.lnkVcCredit, regKey]
        omega
      rw [State.fld_other _ _ _ _ _ _ hkey, ih (by omega)]

/-- The registers of a peer's credits alone are written. -/
theorem State.reg_showCredits_ne (s : State) (b : Nat) (rec : BitVec 512) {n c off : Nat} (hn : n ≤ 6) (ho : off < 0x140) :
    (s.showCredits b rec n).reg (regKey c off) = s.reg (regKey c off) := by
  induction n with
  | zero => rfl
  | succ n ih =>
    rw [State.showCredits_succ, State.reg_setFld_ne _ _ _ _ (regKey_ne (by omega) (by omega) (by omega)), ih (by omega)]

@[simp] theorem State.showCredits_mem (s : State) (b : Nat) (rec : BitVec 512) (n : Nat) : (s.showCredits b rec n).mem = s.mem := by
  induction n with
  | zero => rfl
  | succ n ih => exact (congrArg State.mem (s.showCredits_succ b rec n)).trans ih

@[simp] theorem State.showCredits_out (s : State) (b : Nat) (rec : BitVec 512) (n : Nat) : (s.showCredits b rec n).out = s.out := by
  induction n with
  | zero => rfl
  | succ n ih => exact (congrArg State.out (s.showCredits_succ b rec n)).trans ih

/-- What an accepted record shows of the peer: its serial number, its place, its version, and its credits. -/
def State.showPeer (s : State) (b : Nat) (rec : BitVec 512) : State :=
  ((((s.setReg (Key.lnkPeerSerialLo b) (BitVec.ofNat 32 (dfield rec 8 0 32))).setReg (Key.lnkPeerSerialHi b)
    (BitVec.ofNat 32 (dfield rec 0xC 0 32))).setReg (Key.lnkPeerId b) (BitVec.ofNat 32
      (dfield rec 6 0 16 * 2 ^ 16 + dfield rec 4 0 8 * 2 ^ 8 + dfield rec 3 0 4 * 2 ^ 4 + dfield rec 2 0 4))).setReg
    (Key.lnkPeerVer b) (BitVec.ofNat 32 (dfield rec 0 0 16))).showCredits b rec 6

theorem State.showPeer_frame (s : State) (b : Nat) (rec : BitVec 512) :
    (s.showPeer b rec).reg (Key.lnkPeerSerialLo b) = BitVec.ofNat 32 (dfield rec 8 0 32) ∧
      (s.showPeer b rec).reg (Key.lnkPeerSerialHi b) = BitVec.ofNat 32 (dfield rec 0xC 0 32) ∧
      (∀ v, v < 6 → (s.showPeer b rec).fld (Key.lnkVcCredit b v) 27 16 = min 4095 (dfield rec (0x10 + 2 * v) 0 16)) ∧
      (s.showPeer b rec).mem = s.mem ∧ (s.showPeer b rec).out = s.out := by
  have hkeys {off off' : Nat} (ho : off < 0x1000) (ho' : off' < 0x1000) (h : off / 4 ≠ off' / 4) (t : State) (v : Word) :
      (t.setReg (regKey (0x1D0 + b) off') v).reg (regKey (0x1D0 + b) off) = t.reg (regKey (0x1D0 + b) off) :=
    t.reg_setReg_ne v (regKey_ne ho ho' h)
  refine ⟨?_, ?_, fun v hv => State.fld_showCredits _ b rec hv, ?_, ?_⟩
  · rw [State.showPeer, State.reg_showCredits_ne _ b rec le_rfl (by decide), hkeys (by decide) (by decide) (by decide),
      hkeys (by decide) (by decide) (by decide), hkeys (by decide) (by decide) (by decide), State.reg_setReg_same]
  · rw [State.showPeer, State.reg_showCredits_ne _ b rec le_rfl (by decide), hkeys (by decide) (by decide) (by decide),
      hkeys (by decide) (by decide) (by decide), State.reg_setReg_same]
  · rw [State.showPeer, State.showCredits_mem, State.setReg_mem, State.setReg_mem, State.setReg_mem, State.setReg_mem]
  · rw [State.showPeer, State.showCredits_out, State.setReg_out, State.setReg_out, State.setReg_out, State.setReg_out]

/-- A bundle whose peer is identified: it is HELD until the rig check admits it. -/
def State.heldAfter (t : State) (b : Nat) : State :=
  ((t.setFld (Key.lnkStat b) 31 29 bsHeld).setBundle b
    { t.bundle b with trainStart := none, identAt := none, attempts := 0 }).unadmit b

theorem State.heldAfter_frame (t : State) (b : Nat) :
    (t.heldAfter b).bundleState b = bsHeld ∧ ((t.heldAfter b).bundle b).attempts = 0 ∧ b ∉ (t.heldAfter b).top.admitted := by
  unfold State.heldAfter
  refine ⟨?_, ?_, by simp [State.unadmit]⟩
  · rw [State.bundleState_unadmit, State.bundleState_setBundle, State.bundleState_setFld _ _ (by decide)]
  · rw [State.bundle_unadmit, State.bundle_setBundle_same]

@[simp] theorem State.heldAfter_mem (t : State) (b : Nat) : (t.heldAfter b).mem = t.mem := rfl
@[simp] theorem State.heldAfter_out (t : State) (b : Nat) : (t.heldAfter b).out = t.out := rfl

theorem State.reg_heldAfter (t : State) (b c : Nat) {off : Nat} (ho : off < 0x1000) (h : off / 4 ≠ 0x100 / 4) :
    (t.heldAfter b).reg (regKey c off) = t.reg (regKey c off) := t.reg_setFld_ne _ _ _ (lnkStat_ne ho h).symm

/-! ### The end of a bundle (R453) -/

/-- A bundle that is DOWN: no lane is shown, the entry to DOWN is counted, and `x` is left of its hidden part. -/
def State.wentDown (s : State) (b : Nat) (x : Bundle) : State :=
  ((((s.setFld (Key.lnkStat b) 31 29 bsDown).setFld (Key.lnkStat b) 3 0 0).inc (Key.lnkDownCnt b)).setBundle b x).unadmit b

@[simp] theorem State.wentDown_mem (s : State) (b : Nat) (x : Bundle) : (s.wentDown b x).mem = s.mem := by
  simp only [State.wentDown, State.unadmit_mem, State.setBundle_mem, State.inc_mem, State.setFld_mem]

@[simp] theorem State.wentDown_out (s : State) (b : Nat) (x : Bundle) : (s.wentDown b x).out = s.out := by
  simp only [State.wentDown, State.unadmit_out, State.setBundle_out, State.inc_out, State.setFld_out]

theorem State.wentDown_tx (s : State) (b : Nat) (x : Bundle) : (s.wentDown b x).links.tx = s.links.tx := by
  have hset : ∀ t : State, (t.setBundle b x).links.tx = t.links.tx := fun _ => rfl
  have hunadmit : ∀ t : State, (t.unadmit b).links = t.links := fun _ => rfl
  rw [State.wentDown, hunadmit, hset, State.inc_links, State.setFld_links, State.setFld_links]

/-- What is left of a bundle's hidden part: when it trains again, how often it tried, and the peer that it had (R450, R455). -/
def State.downBundle (s : State) (b : Nat) (hold : Bool) : Bundle :=
  (s.bundle b).reset
    (if hold ∨ s.bit (Key.lnkCtl b) 0 = true then none
      else if decide (s.bundleState b < bsHeld) then
        some (s.tick + (if (s.bundle b).attempts ≤ 1 then 10000000 else 100000000)) else some s.tick)
    (if decide (s.bundleState b < bsHeld) then (s.bundle b).attempts else 0)
    (if s.bundleState b = bsUp ∨ s.bundleState b = bsHeld then
      some (s.fld (Key.lnkPeerSerialLo b) 31 0 + 2 ^ 32 * s.fld (Key.lnkPeerSerialHi b) 31 0, s.peerCoords b) else (s.bundle b).oldPeer)

/-- hold_down sets no time to train again. -/
theorem State.retryAt_downBundle (s : State) (b : Nat) {hold : Bool} (h : hold = true) : (s.downBundle b hold).retryAt = none :=
  if_pos (.inl h)

/-- A bundle that goes DOWN forgets what it was about; its traffic goes another way. -/
theorem State.bundleDown_of_running {s : State} {b : Nat} (h : s.bundleState b ≠ bsDown) (hold : Bool) :
    s.bundleDown b hold = ((s.wentDown b (s.downBundle b hold)).resendAll fun g => decide (g.bundle = b)).fenceIfCut b := if_neg h

theorem State.bundleDown_of_down {s : State} {b : Nat} (h : s.bundleState b = bsDown) (hold : Bool) :
    s.bundleDown b hold = if hold then s.setBundle b { s.bundle b with retryAt := none } else s := if_pos h

theorem State.wentDown_frame (s : State) (b : Nat) (x : Bundle) :
    (s.wentDown b x).bundleState b = bsDown ∧ (s.wentDown b x).fld (Key.lnkStat b) 3 0 = 0 ∧
      (s.wentDown b x).reg (Key.lnkDownCnt b) = satInc (s.reg (Key.lnkDownCnt b)) ∧ (s.wentDown b x).bundle b = x ∧
      RegsBut [Key.lnkStat b, Key.lnkDownCnt b] s (s.wentDown b x) := by
  have hne : Key.lnkStat b ≠ Key.lnkDownCnt b := lnkStat_ne (by decide) (by decide)
  have hstat : (s.wentDown b x).reg (Key.lnkStat b) =
      ((s.setFld (Key.lnkStat b) 31 29 bsDown).setFld (Key.lnkStat b) 3 0 0).reg (Key.lnkStat b) := by
    rw [State.wentDown, State.reg_unadmit, State.reg_setBundle, State.inc, State.reg_setReg_ne _ _ hne]
  refine ⟨?_, ?_, ?_, ?_, ?_⟩
  · rw [State.bundleState_congr hstat, State.bundleState_setLanes, State.bundleState_setFld _ _ (by decide)]
  · rw [State.fld_congr hstat, State.fld_setFld_same _ _ (by decide)]
    rfl
  · rw [State.wentDown, State.reg_unadmit, State.reg_setBundle, State.inc, State.reg_setReg_same, State.reg_setFld_ne _ _ _ _ hne.symm,
      State.reg_setFld_ne _ _ _ _ hne.symm]
  · rw [State.wentDown, State.bundle_unadmit, State.bundle_setBundle_same]
  · intro k hk
    simp only [List.mem_cons, List.not_mem_nil, or_false, not_or] at hk
    obtain ⟨hstat, hcnt⟩ := hk
    rw [State.wentDown, State.reg_unadmit, State.reg_setBundle, State.inc, State.reg_setReg_ne _ _ hcnt,
      State.reg_setFld_ne _ _ _ _ hstat, State.reg_setFld_ne _ _ _ _ hstat]

/-- Without segments on the way nothing is sent again and no message is given up. -/
theorem State.resendAll_of_noTraffic {s : State} (h : s.links.tx = []) (gone : TxSeg → Bool) : s.resendAll gone = s := by
  simp only [State.resendAll, h, List.filter_nil, List.map_nil, List.filterMap_nil, List.any_nil, List.filter_false,
    List.not_mem_nil, not_false_eq_true, decide_true, List.filter_true, List.foldl_nil]
  rw [← h]

/-- Only the loss of a Stay bundle can cut a package off (19 R483). -/
theorem State.fenceIfCut_of_ring {s : State} {b : Nat} (h : s.isStay b = false) : s.fenceIfCut b = s := by
  simp [State.fenceIfCut, h]

theorem State.isStay_wentDown (s : State) (b : Nat) (x : Bundle) (c : Nat) : (s.wentDown b x).isStay c = s.isStay c := by
  obtain ⟨-, -, -, -, hregs⟩ := s.wentDown_frame b x
  have hsheet : Key.lnkSheet ∉ [Key.lnkStat b, Key.lnkDownCnt b] := by
    simp only [List.mem_cons, List.not_mem_nil, or_false, not_or, Key.lnkSheet, Key.lnkStat, Key.lnkDownCnt, regKey]
    omega
  unfold State.isStay State.role State.sheet
  rw [State.fld_congr (hregs _ hsheet)]

/-- A bundle of the ring that goes DOWN without traffic is all that goes. -/
theorem State.bundleDown_of_silent {s : State} {b : Nat} (h : s.bundleState b ≠ bsDown) (htx : s.links.tx = [])
    (hring : s.isStay b = false) (hold : Bool) : s.bundleDown b hold = s.wentDown b (s.downBundle b hold) := by
  rw [State.bundleDown_of_running h, State.resendAll_of_noTraffic ((s.wentDown_tx b _).trans htx),
    State.fenceIfCut_of_ring ((s.isStay_wentDown b _ b).trans hring)]

end Sys2Proof.Machine
end

section
/-! Bundles that train and come up (18 R430, R449, R450). -/

namespace Sys2Proof.Machine

open Host

/-! ### The rows -/

theorem exec_identTimeout (b : BitVec 4) (s : State) : exec (.identTimeout b) s = execIdentTimeout b s := rfl

theorem exec_retrain (b : BitVec 4) (s : State) : exec (.retrain b) s = execRetrain b s := rfl

theorem exec_trainFail (b : BitVec 4) (s : State) : exec (.trainFail b) s = execTrainFail b s := rfl

/-! ### What each does where its condition holds -/

/-- All four lanes lock: the bundle is in IDENT and sends this package's identity record. -/
theorem exec_linkTraining_of_locked {s : State} {b : BitVec 4} {r : TrainResult}
    (hst : s.bundleState b.toNat = bsEqualise ∨ s.bundleState b.toNat = bsLock) (hlanes : r.lanes = 0xF) :
    exec (.linkTraining b r) s =
      .next ((s.inIdent b.toNat r).emit (.link b.toNat (.identity ((s.inIdent b.toNat r).identOf b.toNat)))) := by
  exact congrArg Outcome.next ((if_pos hst).trans (if_pos hlanes))

theorem exec_identityRecord_of_good {s : State} {b : BitVec 4} {rec : BitVec 512} (hst : s.bundleState b.toNat = bsIdent)
    (hgood : identBad rec = false) : exec (.identityRecord b rec) s = .next ((s.showPeer b.toNat rec).heldAfter b.toNat) := by
  have hbad : ¬identBad rec = true := hgood ▸ Bool.false_ne_true
  exact congrArg Outcome.next ((if_neg (not_not_intro hst)).trans (if_neg hbad))

theorem exec_identityRecord_of_bad {s : State} {b : BitVec 4} {rec : BitVec 512} (hst : s.bundleState b.toNat = bsIdent)
    (hbad : identBad rec = true) : exec (.identityRecord b rec) s = .next (s.downFor b.toNat 1 0) :=
  congrArg Outcome.next ((if_neg (not_not_intro hst)).trans (if_pos hbad))

theorem exec_identTimeout_of_late {s : State} {b : BitVec 4} {t0 : Nat} (hsince : (s.bundle b.toNat).identAt = some t0)
    (hst : s.bundleState b.toNat = bsIdent) (hlate : t0 + 1000000 ≤ s.tick) :
    exec (.identTimeout b) s = .next (s.downFor b.toNat 1 0) := by
  simp [exec_identTimeout, execIdentTimeout, hsince, hst, hlate]

/-- A DOWN bundle trains again at its time, unless its die is in reset or hold_down keeps it. -/
theorem exec_retrain_of_due {s : State} {b : BitVec 4} {t0 : Nat} (hretry : (s.bundle b.toNat).retryAt = some t0) (hb : b.toNat < 12)
    (hdie : 8 + b.toNat / 6 ∉ s.boot.inReset) (hst : s.bundleState b.toNat = bsDown) (hhold : s.bit (Key.lnkCtl b.toNat) 0 = false)
    (hdue : t0 ≤ s.tick) : exec (.retrain b) s = .next (s.startTraining b.toNat) := by
  simp [exec_retrain, execRetrain, hretry, hb, hdie, hst, hhold, hdue]

theorem State.startTraining_frame (s : State) (b : Nat) :
    (s.startTraining b).bundleState b = bsEqualise ∧ ((s.startTraining b).bundle b).trainStart = some s.tick ∧
      ((s.startTraining b).bundle b).attempts = (s.bundle b).attempts + 1 ∧ RegsBut [Key.lnkStat b] s (s.startTraining b) := by
  unfold State.startTraining
  refine ⟨?_, ?_, ?_, fun k hk => ?_⟩
  · rw [State.bundleState_setBundle, State.bundleState_setFld _ _ (by decide)]
  · rw [State.bundle_setBundle_same]
  · rw [State.bundle_setBundle_same]
  · rw [State.reg_setBundle, State.reg_setFld_ne _ _ _ _ (List.mem_singleton.not.1 hk)]

theorem exec_trainFail_of_late {s : State} {b : BitVec 4} {t0 : Nat} (hsince : (s.bundle b.toNat).trainStart = some t0)
    (hst : s.bundleState b.toNat = bsLock) (hlate : t0 + 40000000 ≤ s.tick) :
    exec (.trainFail b) s = .next (s.downFor b.toNat 0 (15 - s.fld (Key.lnkStat b.toNat) 3 0)) := by
  simp [exec_trainFail, execTrainFail, hsince, hst, hlate]

/-- Settles O43: training and an accepted record by the registers that they write, and each failure by its cause. -/
theorem linksTrain : Obligations.LinksTrain := by
  unfold Obligations.LinksTrain
  refine ⟨?_, ?_, ?_, ?_, ?_, ?_⟩
  · intro s b r hst hlanes
    obtain ⟨hident, hshown, hus, hat, hregs⟩ := s.inIdent_frame b.toNat r
    refine ⟨_, _, exec_linkTraining_of_locked hst hlanes, hident, ?_, hus, hat, hregs, .of_mem rfl, rfl⟩
    exact hshown.trans (congrArg BitVec.toNat hlanes)
  · intro s b rec _ hst hgood
    obtain ⟨hlo, hhi, hcredits, hmem, hout⟩ := s.showPeer_frame b.toNat rec
    obtain ⟨hheld, hattempts, hadmitted⟩ := (s.showPeer b.toNat rec).heldAfter_frame b.toNat
    refine ⟨_, exec_identityRecord_of_good hst hgood, hheld, ?_, ?_, fun v hv => ?_, hattempts, hadmitted, .of_mem ?_, ?_⟩
    · rw [State.reg_heldAfter _ _ _ (by decide) (by decide), hlo]
    · rw [State.reg_heldAfter _ _ _ (by decide) (by decide), hhi]
    · rw [State.fld_congr (State.reg_heldAfter _ _ _ (by omega) (by omega)), hcredits v hv]
    · rw [State.heldAfter_mem, hmem]
    · rw [State.heldAfter_out, hout]
  · exact fun s b rec hst hbad => exec_identityRecord_of_bad hst hbad
  · exact fun s b t0 hsince hst hlate => exec_identTimeout_of_late hsince hst hlate
  · intro s b t0 hretry hb hdie hst hhold hdue
    obtain ⟨hequalise, hstart, hattempts, hregs⟩ := s.startTraining_frame b.toNat
    exact ⟨_, exec_retrain_of_due hretry hb hdie hst hhold hdue, hequalise, hstart, hattempts, hregs, .of_mem rfl, rfl⟩
  · exact fun s b t0 hsince hst hlate => exec_trainFail_of_late hsince hst hlate

end Sys2Proof.Machine
end

section
/-! The note that arbitration makes of a write's place in its cycle, and a bundle that the write takes DOWN: the fencing of rings, the
traffic sent again and the requests given up do not read it (03 R41; 17 R424; 18 R453; 19 R483). -/

namespace Sys2Proof.Machine

variable (s : State) (m : Master) (p : Nat)

theorem State.noteOrder_setRingState (k st reason : Nat) :
    (s.setRingState k st reason).noteOrder m p = (s.noteOrder m p).setRingState k st reason := by
  unfold State.setRingState
  exact State.noteOrder_ite rfl (State.noteOrder_irq ..)

theorem State.noteOrder_endRing (rs : List Req) (dt : Nat) : (s.endRing rs dt).noteOrder m p = (s.noteOrder m p).endRing rs dt := by
  unfold State.endRing
  exact State.noteOrder_foldl (fun t r => t.noteOrder_finish m p r stFaultRing dt none) ..

/-- A ring whose passes end. -/
def State.passesEnd (s : State) (k : Nat) : State :=
  s.setRing k { s.ring k with running := false, stalled := none, pairedSince := none, readies := [], firstReady := none, sentReady := none }

theorem State.fenceRing_eq (k : Nat) : s.fenceRing k = (((((s.setRingState k rgFenced 0).ringEvent k (s.ringMember k) 4).latch pgShr 3
    (ringDetail k (s.ringMember k) 0x05)).passesEnd k).endRing (s.ringReqs k) 0x05) := rfl

theorem State.noteOrder_passesEnd (k : Nat) : (s.passesEnd k).noteOrder m p = (s.noteOrder m p).passesEnd k := rfl

theorem State.noteOrder_ringEvent (k member ev : Nat) :
    (s.ringEvent k member ev).noteOrder m p = (s.noteOrder m p).ringEvent k member ev := by
  unfold State.ringEvent
  exact State.noteOrder_setReg ..

theorem State.noteOrder_fenceRing (k : Nat) : (s.fenceRing k).noteOrder m p = (s.noteOrder m p).fenceRing k := by
  have hmember : (s.noteOrder m p).ringMember k = s.ringMember k := rfl
  have hreqs : (s.noteOrder m p).ringReqs k = s.ringReqs k := rfl
  rw [State.fenceRing_eq, State.fenceRing_eq, State.noteOrder_endRing, State.noteOrder_passesEnd, State.noteOrder_latch,
    State.noteOrder_ringEvent, State.noteOrder_setRingState, hmember, hreqs]

theorem State.noteOrder_fenceIfCut (b : Nat) : (s.fenceIfCut b).noteOrder m p = (s.noteOrder m p).fenceIfCut b := by
  unfold State.fenceIfCut
  exact State.noteOrder_ite (State.noteOrder_foldl (fun t k => t.noteOrder_fenceRing m p k) ..) rfl

theorem State.noteOrder_cutWalk (w : Walk) : (s.cutWalk w).noteOrder m p = (s.noteOrder m p).cutWalk w := by
  have hwalk : (s.failWalk w stFaultLink 0x01).noteOrder m p = (s.noteOrder m p).failWalk w stFaultLink 0x01 := by
    unfold State.failWalk
    exact State.noteOrder_foldl (fun t g => t.noteOrder_failTag m p w.part g stFaultLink 0x01) ..
  unfold State.cutWalk
  rw [← hwalk]
  rfl

/-- A message given up: no rail reaches its destination, and its macro's walk ends (19 R469). -/
def State.giveUp (t : State) (x : TxMsg) : State :=
  match (t.noRoute x.dst.toNat).fab.flight.find? fun y => decide (y.spar = x.owner.1) && decide (y.slot = x.owner.2) with
  | some y =>
    match ((t.noRoute x.dst.toNat).xferDone y).walkAt y.spar y.walk with
    | some w => ((t.noRoute x.dst.toNat).xferDone y).cutWalk w
    | none => (t.noRoute x.dst.toNat).xferDone y
  | none => t.noRoute x.dst.toNat

theorem State.noteOrder_giveUp (x : TxMsg) : (s.giveUp x).noteOrder m p = (s.noteOrder m p).giveUp x := by
  have hroute : (s.noteOrder m p).noRoute x.dst.toNat = (s.noRoute x.dst.toNat).noteOrder m p :=
    (State.noteOrder_latch ..).symm
  unfold State.giveUp
  rw [hroute]
  generalize s.noRoute x.dst.toNat = u
  have hflight : (u.noteOrder m p).fab.flight = u.fab.flight := rfl
  rw [hflight]
  cases u.fab.flight.find? fun y => decide (y.spar = x.owner.1) && decide (y.slot = x.owner.2) with
  | none => rfl
  | some y =>
    have hwalk : ((u.noteOrder m p).xferDone y).walkAt y.spar y.walk = (u.xferDone y).walkAt y.spar y.walk := rfl
    dsimp only
    rw [hwalk]
    cases (u.xferDone y).walkAt y.spar y.walk with
    | none => rfl
    | some w => exact State.noteOrder_cutWalk ..

theorem State.noteOrder_resendAll (gone : TxSeg → Bool) :
    (s.resendAll gone).noteOrder m p = (s.noteOrder m p).resendAll gone := by
  unfold State.resendAll
  exact State.noteOrder_foldl (f := State.giveUp) (fun t x => t.noteOrder_giveUp m p x) ..

theorem State.noteOrder_wentDown (b : Nat) (x : Bundle) : (s.wentDown b x).noteOrder m p = (s.noteOrder m p).wentDown b x := by
  have hset : ∀ t : State, (t.setBundle b x).noteOrder m p = (t.noteOrder m p).setBundle b x := fun _ => rfl
  have hunadmit : ∀ t : State, (t.unadmit b).noteOrder m p = (t.noteOrder m p).unadmit b := fun _ => rfl
  have hfld : ∀ (t : State) (k h l v : Nat), (t.setFld k h l v).noteOrder m p = (t.noteOrder m p).setFld k h l v :=
    fun _ _ _ _ _ => rfl
  unfold State.wentDown
  rw [hunadmit, hset, State.noteOrder_inc, hfld, hfld]

/-- What a bundle's end does is the same with a note of arbitration and without it. -/
theorem State.noteOrder_bundleDown (b : Nat) (hold : Bool) :
    (s.bundleDown b hold).noteOrder m p = (s.noteOrder m p).bundleDown b hold := by
  have hleft : (s.noteOrder m p).downBundle b hold = s.downBundle b hold := rfl
  by_cases h : s.bundleState b = bsDown
  · rw [State.bundleDown_of_down h, State.bundleDown_of_down (s := s.noteOrder m p) h]
    exact State.noteOrder_ite rfl rfl
  · rw [State.bundleDown_of_running h, State.bundleDown_of_running (s := s.noteOrder m p) h, State.noteOrder_fenceIfCut,
      State.noteOrder_resendAll, State.noteOrder_wentDown, hleft]

end Sys2Proof.Machine
end

section
/-! Bundles that go DOWN, hold_down, and the sheeting code (18 R432, R449 to R452; 19 R478). -/

namespace Sys2Proof.Machine

open Host

/-! ### The conditions of Table 18.9 -/

theorem exec_creditStall (b : BitVec 4) (vc : BitVec 3) (s : State) : exec (.creditStall b vc) s = execCreditStall b vc s := rfl

/-- A VC whose credit has been zero since tick `n` for credit_ms takes its bundle down. -/
theorem exec_creditStall_of_late {s : State} {b : BitVec 4} {vc : BitVec 3} {n : Nat} (hruns : s.bundleRuns b.toNat = true)
    (hsince : SMap.get (fun _ => 0) (s.bundle b.toNat).zero vc.toNat = n + 1)
    (hlate : n + 100000 * max 1 (s.fld (Key.lnkCfg b.toNat) 15 8) ≤ s.tick) :
    exec (.creditStall b vc) s = .next (s.downFor b.toNat 4 0) := by
  simp [exec_creditStall, execCreditStall, hruns, hsince, hlate]

/-! ### hold_down (19 R478) -/

theorem exec_holdDown {s : State} {m : Master} {b : BitVec 4} {v : Word} (hb : b.toNat < 12) (h : s.Takes m (pgLnk b.toNat) 0x104 v) :
    exec (.holdDown m b 0xF v) s = .next (((s.noteOrder m (pgLnk b.toNat)).writeLnkCtl m b.toNat v).noteSince
      (s.noteOrder m (pgLnk b.toNat))) := by
  refine congrArg Outcome.next ((if_pos hb).trans ?_)
  rw [State.gated_of_takes h, State.inTurn_eq_noteOrder h.inOrder]

/-- LNK_CTL has the one field hold_down, which the page's lock protects. -/
theorem fieldsOf_lnkCtl : ∀ b < 12, fieldsOf (Key.lnkCtl b) = [⟨0, 0, .rwl, 0, .higher⟩] := by decide +kernel

/-- An uncontested write of hold_down to a page that is not locked stands. -/
theorem State.bit_store_lnkCtl {s : State} {m : Master} {b : Nat} (v : Word) (hb : b < 12) (hu : s.Uncontested m (Key.lnkCtl b))
    (hlock : s.locked (pgLnk b) = false) :
    (s.store m (pgLnk b) 0x104 v).bit (Key.lnkCtl b) 0 = decide (getBits v 0 0 = 1) := by
  obtain ⟨-, -, hreg, -⟩ := State.storeOn_frame hu (fieldsOf (Key.lnkCtl b)) (pgLnk b) 0x104 v
  have hstored : (s.store m (pgLnk b) 0x104 v).reg (Key.lnkCtl b) = putBits (s.reg (Key.lnkCtl b)) 0 0 (getBits v 0 0) := by
    refine hreg.trans ?_
    rw [fieldsOf_lnkCtl b hb, hlock]
    rfl
  rw [State.bit, State.fld, hstored, getBits_putBits_same _ _ (by decide), Nat.mod_eq_of_lt (getBits_lt v 0 0)]

theorem State.writeLnkCtl_of_set {s : State} {m : Master} {b : Nat} {v : Word} (hb : b < 12) (hu : s.Uncontested m (Key.lnkCtl b))
    (hlock : s.locked (pgLnk b) = false) (hv : getBits v 0 0 = 1) :
    s.writeLnkCtl m b v = (s.store m (pgLnk b) 0x104 v).bundleDown b true :=
  if_pos ((State.bit_store_lnkCtl v hb hu hlock).trans (decide_eq_true hv))

/-- A bundle let go may train again at once. -/
def State.letGo (s : State) (b : Nat) : State := s.setBundle b { s.bundle b with retryAt := some s.tick }

theorem State.tick_store {s : State} {m : Master} {p off : Nat} (hu : s.Uncontested m (regKey p off)) (v : Word) :
    (s.store m p off v).tick = s.tick := by
  obtain ⟨_, _, hstore⟩ := State.storeOn_uncontested hu (fieldsOf (regKey p off)) p off v
  exact (congrArg State.tick hstore).trans rfl

theorem State.retryAt_letGo (s : State) (b : Nat) : ((s.letGo b).bundle b).retryAt = some s.tick :=
  congrArg Bundle.retryAt (State.bundle_setBundle_same ..)

@[simp] theorem State.reg_letGo (s : State) (b k : Nat) : (s.letGo b).reg k = s.reg k := rfl
@[simp] theorem State.bit_letGo (s : State) (b k c : Nat) : (s.letGo b).bit k c = s.bit k c := rfl
@[simp] theorem State.letGo_mem (s : State) (b : Nat) : (s.letGo b).mem = s.mem := rfl
@[simp] theorem State.letGo_out (s : State) (b : Nat) : (s.letGo b).out = s.out := rfl

theorem State.bit_store_lnkCtl_of_clear {s : State} {m : Master} {b : Nat} {v : Word} (hb : b < 12)
    (hu : s.Uncontested m (Key.lnkCtl b)) (hlock : s.locked (pgLnk b) = false) (hv : getBits v 0 0 = 0) :
    (s.store m (pgLnk b) 0x104 v).bit (Key.lnkCtl b) 0 = false :=
  (State.bit_store_lnkCtl v hb hu hlock).trans (decide_eq_false (by omega))

theorem State.writeLnkCtl_of_cleared {s : State} {m : Master} {b : Nat} {v : Word} (hb : b < 12) (hu : s.Uncontested m (Key.lnkCtl b))
    (hlock : s.locked (pgLnk b) = false) (hv : getBits v 0 0 = 0) (hheld : s.bit (Key.lnkCtl b) 0 = true) :
    s.writeLnkCtl m b v = (s.store m (pgLnk b) 0x104 v).letGo b :=
  (if_neg ((State.bit_store_lnkCtl_of_clear hb hu hlock hv) ▸ Bool.false_ne_true)).trans (if_pos hheld)

/-- hold_down stored clear, and the bundle let go: it may train at once. -/
theorem State.letGo_store_frame {s : State} {m : Master} {b : Nat} {v : Word} (hb : b < 12) (hu : s.Uncontested m (Key.lnkCtl b))
    (hlock : s.locked (pgLnk b) = false) (hv : getBits v 0 0 = 0) {t : State} (ht : t = (s.store m (pgLnk b) 0x104 v).letGo b) :
    (t.bundle b).retryAt = some s.tick ∧ t.bit (Key.lnkCtl b) 0 = false ∧ RegsBut [Key.lnkCtl b] s t ∧ SameMemory s t ∧
      t.out = s.out := by
  obtain ⟨hregs, hmem, -, hout⟩ := State.storeOn_frame hu (fieldsOf (Key.lnkCtl b)) (pgLnk b) 0x104 v
  subst ht
  refine ⟨?_, ?_, fun k hk => ?_, fun a => ?_, ?_⟩
  · rw [State.retryAt_letGo, State.tick_store hu]
  · rw [State.bit_letGo, State.bit_store_lnkCtl_of_clear hb hu hlock hv]
  · rw [State.reg_letGo]
    exact hregs k hk
  · rw [State.byteAt, State.letGo_mem]
    exact hmem a
  · rw [State.letGo_out]
    exact hout

/-! ### LNK_SHEET (R432) -/

theorem fieldsOf_lnkSheet : fieldsOf Key.lnkSheet = [⟨6, 4, .rw, 2, .none⟩, ⟨2, 0, .ro, 2, .none⟩] := by decide +kernel

theorem exec_sheetWrite (m : Master) (be : BitVec 4) (v : Word) (s : State) :
    exec (.sheetWrite m be v) s = .next (s.gated m (pgLnk 0) 0x180 be v fun t => t.writeLnkSheet m v) := rfl

theorem State.writeLnkSheet_of_legal {v : Word} (h : getBits v 6 4 ≤ 4) (s : State) (m : Master) :
    s.writeLnkSheet m v = s.store m (pgLnk 0) 0x180 v := if_pos h

theorem State.writeLnkSheet_of_illegal {v : Word} (h : 4 < getBits v 6 4) (s : State) (m : Master) : s.writeLnkSheet m v = s :=
  if_neg (Nat.not_le.2 h)

/-- The code for the next reset is as written, whether the page is locked or not. -/
theorem getBits_wordWritten_lnkSheet (locked : Bool) (v w : Word) :
    getBits (wordWritten (fieldsOf Key.lnkSheet) locked v w) 6 4 = getBits v 6 4 := by
  rw [fieldsOf_lnkSheet]
  exact (getBits_putBits_same w _ (by decide)).trans (Nat.mod_eq_of_lt (getBits_lt v 6 4))

/-- Settles O44: each condition by its cause, the end of a bundle without traffic by what goes with it, hold_down by the store of its
bit, whose place in the cycle the bundle's end does not read, and LNK_SHEET by its stored field. -/
theorem linksFail : Obligations.LinksFail := by
  unfold Obligations.LinksFail
  refine ⟨?_, ?_, ?_, ?_, ?_, ?_, ?_⟩
  · exact fun s b lanes hb hst => congrArg Outcome.next (if_pos ⟨hb, hst⟩)
  · exact fun s b hruns hmany => congrArg Outcome.next (if_pos ⟨hruns, hmany⟩)
  · exact fun s b hruns hstuck => congrArg Outcome.next (if_pos ⟨hruns, hstuck⟩)
  · exact fun s b vc n hruns hsince hlate => exec_creditStall_of_late hruns hsince hlate
  · intro s b hold _ hst htx hring
    obtain ⟨hstate, hlanes, hcount, hleft, hregs⟩ := s.wentDown_frame b (s.downBundle b hold)
    rw [State.bundleDown_of_silent hst htx hring, hleft]
    exact ⟨hstate, hlanes, hcount, s.retryAt_downBundle b, hregs, .of_mem (s.wentDown_mem ..), s.wentDown_out ..⟩
  · intro s m b v hb htakes hu hlock
    refine ⟨fun hv => ⟨_, exec_holdDown hb htakes, ?_⟩, fun hv hheld => ⟨_, exec_holdDown hb htakes, ?_⟩⟩
    · rw [State.writeLnkCtl_of_set (s := s.noteOrder m _) hb hu hlock hv, ← State.noteOrder_store, ← State.noteOrder_bundleDown]
      exact wroteAs_noteSince ..
    · set u := s.noteOrder m (pgLnk b.toNat)
      rw [State.writeLnkCtl_of_cleared (s := u) hb hu hlock hv hheld]
      generalize ht : (u.store m (pgLnk b.toNat) 0x104 v).letGo b.toNat = t
      obtain ⟨hretry, hclear, hregs, hmem, hout⟩ := State.letGo_store_frame (s := u) hb hu hlock hv ht.symm
      exact ⟨hretry, hclear, hregs, hmem, hout⟩
  · intro s m v htakes hu
    refine ⟨fun hlegal => ?_, fun hillegal => ?_⟩
    · obtain ⟨hreg, hframe⟩ := State.gated_stores htakes hu
      rw [exec_sheetWrite]
      simp only [State.writeLnkSheet_of_legal hlegal]
      refine ⟨_, rfl, ?_, hframe⟩
      rw [State.fld, hreg]
      exact getBits_wordWritten_lnkSheet ..
    · rw [exec_sheetWrite]
      simp only [State.writeLnkSheet_of_illegal hillegal]
      rw [State.gated_of_takes htakes, State.inTurn_eq_noteOrder htakes.inOrder]
      exact ⟨_, rfl, wroteAs_noteSince ..⟩

end Sys2Proof.Machine
end

section
/-! Flits and segments: what is accepted, what is answered with NAK, what is sent again, and what a segment brings (18 R434 to R437,
R443, R452, R457; log entries 93 and 94). -/

namespace Sys2Proof.Machine

open Host

/-! ### The rows -/

theorem exec_data (b : BitVec 4) (flit : BitVec 2048) (marked : Bool) (splice : Option Nat) (s : State) :
    exec (.data b flit marked splice) s = execData b flit marked s splice := rfl

theorem exec_nak (b : BitVec 4) (flit : BitVec 2048) (s : State) : exec (.nak b flit) s = execNak b flit s := rfl

theorem exec_idleFlit (b : BitVec 4) (flit : BitVec 2048) (s : State) : exec (.idleFlit b flit) s = execIdleFlit b flit s := rfl

theorem exec_telltale (b : BitVec 4) (flit : BitVec 2048) (rx : BitVec 80) (s : State) :
    exec (.telltale b flit rx) s = execTelltale b flit rx s := rfl

theorem exec_segment (b : BitVec 4) (src : BitVec 16) (vc : BitVec 3) (hdr : BitVec 256) (data : List Byte) (crc : Word)
    (splice : Option Nat) (s : State) : exec (.segment b src vc hdr data crc splice) s = execSegment b src vc hdr data crc splice s := rfl

theorem exec_msgTimeout (spar : BitVec 2) (slot : BitVec 10) (s : State) :
    exec (.msgTimeout spar slot) s = execMsgTimeout spar slot s := rfl

/-! ### DATA (R437) -/

theorem State.injHits_of_none {s : State} (h : s.rel.inject = none) (kind : Nat) (f : Inject → Bool) : s.injHits kind f = false := by
  simp [State.injHits, h]

theorem State.bundleRuns_of_up {s : State} {b : Nat} (h : s.bundleState b = bsUp) : s.bundleRuns b = true := by
  simp [State.bundleRuns, h]

/-- The expected DATA flit taken: the next one is expected, a NAK may be sent again, and its buffer is freed. -/
def State.acceptFlit (s : State) (b vc : Nat) : State :=
  s.setBundle b { s.bundle b with
    expect := ((s.bundle b).expect + 1) % 4096, nakSent := false
    freed := SMap.set (fun _ => 0) (s.bundle b).freed vc ((SMap.get (fun _ => 0) (s.bundle b).freed vc + 1) % 4096) }

/-- A DATA flit with a good CRC on a bundle that is UP: its header is taken, and it is accepted if it is the expected one. -/
theorem exec_data_of_good {s : State} {b : BitVec 4} {flit : BitVec 2048} (hup : s.bundleState b.toNat = bsUp)
    (hinject : s.rel.inject = none) (hgood : flitOk flit = true) (hkind : flitKind flit = 1) :
    exec (.data b flit false none) s = .next (
      if flitSeq flit ≠ ((s.takeHeader b.toNat flit).bundle b.toNat).expect then (s.takeHeader b.toNat flit).sendNak b.toNat
      else ((s.takeHeader b.toNat flit).acceptFlit b.toNat (flitVc flit)).gatherFlit b.toNat flit none) := by
  have hruns := State.bundleRuns_of_up hup
  simp [exec_data, execData, hruns, State.injHits_of_none hinject, hgood, hkind, hup, State.acceptFlit]

/-- A DATA flit with a bad CRC: it is counted, and answered with NAK. -/
theorem exec_data_of_bad {s : State} {b : BitVec 4} {flit : BitVec 2048} (hruns : s.bundleRuns b.toNat = true)
    (hinject : s.rel.inject = none) (hbad : flitOk flit = false) :
    exec (.data b flit false none) s = .next ((s.inc (Key.lnkCrcCnt b.toNat)).sendNak b.toNat) := by
  simp [exec_data, execData, hruns, State.injHits_of_none hinject, hbad]

/-- A flit that does not end its segment joins it: nothing but its bundle's hidden part changes. -/
theorem State.gatherFlit_of_open {flit : BitVec 2048} (h : flitLast flit = false) (s : State) (b : Nat) (splice : Option Nat) :
    ∃ gather, s.gatherFlit b flit splice = s.setBundle b { s.bundle b with gather := gather } :=
  ⟨_, if_neg (h ▸ Bool.false_ne_true)⟩

/-- The first NAK since the expected flit failed: it names the last flit accepted. -/
theorem State.sendNak_frame {s : State} {b : Nat} (h : (s.bundle b).nakSent = false) :
    ((s.sendNak b).bundle b).nakSent = true ∧ (s.sendNak b).regs = s.regs ∧ (s.sendNak b).mem = s.mem ∧
      (s.sendNak b).out = s.out ++ [.link b (.nak (BitVec.ofNat 12 ((s.bundle b).expect + 4095)))] := by
  have hsent : s.sendNak b = (s.setBundle b { s.bundle b with nakSent := true }).emit
      (.link b (.nak (BitVec.ofNat 12 ((s.bundle b).expect + 4095)))) := if_neg (h ▸ Bool.false_ne_true)
  rw [hsent]
  exact ⟨congrArg Bundle.nakSent (State.bundle_setBundle_same ..), rfl, rfl, rfl⟩

/-! ### Flits that carry their header, and replays -/

theorem exec_nak_of_nak {s : State} {b : BitVec 4} {flit : BitVec 2048} (hruns : s.bundleRuns b.toNat = true)
    (hgood : flitOk flit = true) (hkind : flitKind flit = 2) (hop : flitLen flit = 1) :
    exec (.nak b flit) s = .next ((s.takeHeader b.toNat flit).replay b.toNat) := by
  simp [exec_nak, execNak, hruns, hgood, hkind, hop]

theorem exec_idleFlit_of_good {s : State} {b : BitVec 4} {flit : BitVec 2048} (hruns : s.bundleRuns b.toNat = true)
    (hgood : flitOk flit = true) : exec (.idleFlit b flit) s = .next (s.takeHeader b.toNat flit) := by
  simp [exec_idleFlit, execIdleFlit, hruns, hgood]

theorem exec_telltale_of_good {s : State} {b : BitVec 4} {flit : BitVec 2048} (hruns : s.bundleRuns b.toNat = true)
    (hgood : flitOk flit = true) (hkind : flitKind flit = 4) (rx : BitVec 80) :
    exec (.telltale b flit rx) s = .next ((s.takeHeader b.toNat flit).takeTelltale b.toNat (ttlPeer flit rx.toNat s.tick)
      (ttlField flit 0x20 10) (ttlField flit 0x2A 10)) := by
  simp [exec_telltale, execTelltale, hruns, hgood, hkind]

/-- What a replay leaves of its bundle: every unacknowledged flit is to be sent again. -/
def Bundle.replayed (x : Bundle) (tick : Nat) : Bundle :=
  { x with again := x.unacked, lastAck := tick, stuck := x.stuck + 1
           replays := (x.replays.filter fun t => decide (tick < t + 1000000)) ++ [tick] }

theorem State.bundle_inc_setBundle (s : State) (b k : Nat) (x : Bundle) : ((s.setBundle b x).inc k).bundle b = x :=
  State.bundle_setBundle_same ..

theorem State.replay_of_unacked {s : State} {b : Nat} (h : (s.bundle b).unacked ≠ []) :
    s.replay b = (s.setBundle b ((s.bundle b).replayed s.tick)).inc (Key.lnkRetryCnt b) := if_neg h

theorem exec_replayTimeout_of_late {s : State} {b : BitVec 4} (hruns : s.bundleRuns b.toNat = true)
    (hunacked : (s.bundle b.toNat).unacked ≠ []) (hlate : (s.bundle b.toNat).lastAck + 200 ≤ s.tick) :
    exec (.replayTimeout b) s =
      .next ((s.setBundle b.toNat ((s.bundle b.toNat).replayed s.tick)).inc (Key.lnkRetryCnt b.toNat)) :=
  congrArg Outcome.next ((if_pos ⟨hruns, hunacked, hlate⟩).trans (State.replay_of_unacked hunacked))

theorem RegsBut.trans {ks ls : List Nat} {s t u : State} (h : RegsBut ks s t) (h' : RegsBut ls t u) : RegsBut (ks ++ ls) s u :=
  fun k hk => (h' k fun hl => hk (List.mem_append_right _ hl)).trans (h k fun hl => hk (List.mem_append_left _ hl))

theorem lnkSymErr_not_mem_latchKeys (b : Nat) : Key.lnkSymErr b ∉ latchKeys (pgLnk b) := by
  simp only [latchKeys, List.mem_cons, List.not_mem_nil, or_false, not_or, Key.lnkSymErr, Key.fltLatch, Key.fltInfo, Key.irqStat, regKey]
  omega

/-- The error ratio shown, and judged where it is beyond 2^−13. -/
theorem exec_berWarn_of_running {s : State} {b : BitVec 4} (hb : b.toNat < 12) (hst : s.bundleState b.toNat ≠ bsDown) (errors : Word) :
    exec (.berWarn b errors) s = .next (if 85000000 < errors.toNat * 8192
      then (s.setReg (Key.lnkSymErr b.toNat) errors).latch (pgLnk b.toNat) 6 0 else s.setReg (Key.lnkSymErr b.toNat) errors) :=
  congrArg Outcome.next (if_pos ⟨hb, hst⟩)

/-! ### Segments (R443, R457) -/

/-- Where nothing is idle nothing is woken. -/
theorem State.wakeAll_of_awake {s : State} (h : s.power.idle = []) (ds : List IdleDomain) : s.wakeAll ds = s := by
  have hwake (d : IdleDomain) : s.wake d = s := by
    have hidle : s.idleOf d = none := by rw [State.idleOf, h, List.find?_nil]
    simp only [State.wake, hidle]
  unfold State.wakeAll
  exact List.foldlRecOn (motive := fun t => t = s) _ _ rfl fun t ht d _ => by rw [ht, hwake]

/-- A segment that no transfer of activations carries has no splice point to differ in. -/
theorem State.takeSegment_of_plain (s : State) (src vc : Nat) (hdr : BitVec 256) (data : List Byte) (crc : Nat) :
    s.takeSegment src vc hdr data crc none = s.recvSegment src vc hdr data crc := by
  have hskew : s.skewed src hdr none = none := by
    unfold State.skewed
    cases s.groupOf (dfield hdr 0x18 0 16) src <;> rfl
  rw [State.takeSegment, hskew]

theorem exec_segment_of_up {s : State} {b : BitVec 4} (hup : s.bundleState b.toNat = bsUp) (hawake : s.power.idle = [])
    (src : BitVec 16) (vc : BitVec 3) (hdr : BitVec 256) (data : List Byte) (crc : Word) :
    exec (.segment b src vc hdr data crc none) s = .next (s.recvSegment src.toNat vc.toNat hdr data crc.toNat) := by
  rw [exec_segment, execSegment, if_pos hup, State.wakeAll_of_awake hawake, State.takeSegment_of_plain]

/-- What came of a message so far is dropped. -/
def State.dropPartial (s : State) (src vc id : Nat) : State :=
  { s with links := { s.links with
    rx := s.links.rx.filter fun q => !(decide (q.src.toNat = src) && decide (q.vc = vc) && decide (q.msgId = id)) } }

/-- A segment with a bad CRC-32C, of a message that no group here takes: its partial message is dropped, and E2E_CRC latches. -/
theorem State.recvSegment_of_bad {s : State} {src vc crc : Nat} {hdr : BitVec 256} {data : List Byte}
    (hnew : (src, vc, dfield hdr 0 0 32) ∉ s.links.delivered) (hbad : crc32c data ≠ crc) (hinject : s.rel.inject = none)
    (hgroup : s.groupOf (dfield hdr 0x18 0 16) src = none) :
    s.recvSegment src vc hdr data crc = (s.dropPartial src vc (dfield hdr 0 0 32)).latch pgCol 1 0 := by
  have hinj : s.injSegment (dfield hdr 0x18 0 16) src = false := State.injHits_of_none hinject ..
  simp [State.recvSegment, hnew, hbad, hinj, hgroup, State.dropPartial]

/-! ### Macros that wait too long (R448) -/

theorem exec_msgTimeout_of_late {s : State} {spar : BitVec 2} {slot : BitVec 10} {x : MacroSt} {t0 : Nat}
    (hwait : (s.links.waits.find? fun e => decide (e.1 = spar.toNat) && decide (e.2.1 = slot.toNat)) = some (spar.toNat, slot.toNat, t0))
    (hflight : (s.fab.flight.find? fun x => decide (x.spar = spar.toNat) && decide (x.slot = slot.toNat)) = some x)
    (hlate : t0 + 100000 * max 1 (s.fld (Key.lnkCfg 0) 7 0) ≤ s.tick) :
    exec (.msgTimeout spar slot) s = .next (s.xferFail x 0 0x02) := by
  simp only [exec_msgTimeout, execMsgTimeout, hwait, hflight, hlate, if_true]

/-- Settles O45: a DATA flit by its header and its place in the order, with the NAK sent at once (log entry 94), a replay by what its
bundle is to send again, the error ratio by its register and the latch, a segment by what it is received as, and a late message by the
macro that waits for it, against the timeout of LNK0 (log entry 93). -/
theorem flitsAndSegments : Obligations.FlitsAndSegments := by
  unfold Obligations.FlitsAndSegments
  refine ⟨?_, ?_, ?_, ?_, ?_, ?_, ?_, ?_, ?_, ?_, ?_⟩
  · intro s b flit hup hinject hgood hkind hlast hseq
    set u := s.takeHeader b.toNat flit
    obtain ⟨gather, hgather⟩ := State.gatherFlit_of_open hlast (u.acceptFlit b.toNat (flitVc flit)) b.toNat none
    refine ⟨_, (exec_data_of_good hup hinject hgood hkind).trans (congrArg Outcome.next ((if_neg (not_not_intro hseq)).trans hgather)),
      ?_, ?_, ?_, .of_mem ?_⟩
    · rw [State.bundle_setBundle_same, State.acceptFlit, State.bundle_setBundle_same]
    · rw [State.bundle_setBundle_same, State.acceptFlit, State.bundle_setBundle_same]
    · rw [State.setBundle_regs, State.acceptFlit, State.setBundle_regs]
    · rw [State.setBundle_mem, State.acceptFlit, State.setBundle_mem]
  · intro s b flit hup hinject hgood hkind hseq
    rw [exec_data_of_good hup hinject hgood hkind, if_pos hseq]
  · intro s b flit hruns hinject hbad hnak
    obtain ⟨hsent, hregs, hmem, hout⟩ := State.sendNak_frame (s := s.inc (Key.lnkCrcCnt b.toNat)) hnak
    refine ⟨_, exec_data_of_bad hruns hinject hbad, hsent, ?_, fun k hk => ?_, .of_mem hmem, hout⟩
    · rw [State.reg_congr hregs, State.inc, State.reg_setReg_same]
    · rw [State.reg_congr hregs, State.inc, State.reg_setReg_ne _ _ (List.mem_singleton.not.1 hk)]
  · exact fun s b flit hruns hgood hkind hop => exec_nak_of_nak hruns hgood hkind hop
  · exact fun s b flit hruns hgood => exec_idleFlit_of_good hruns hgood
  · intro s b hruns hunacked hlate
    have hbundle := s.bundle_inc_setBundle b.toNat (Key.lnkRetryCnt b.toNat) ((s.bundle b.toNat).replayed s.tick)
    refine ⟨_, exec_replayTimeout_of_late hruns hunacked hlate, ?_⟩
    rw [hbundle]
    exact ⟨rfl, rfl, rfl, State.reg_setReg_same .., .inc rfl _, .of_mem rfl, rfl⟩
  · exact fun s b flit rx hruns hgood hkind => exec_telltale_of_good hruns hgood hkind rx
  · intro s b errors hb hst
    have hshown : (s.setReg (Key.lnkSymErr b.toNat) errors).reg (Key.lnkSymErr b.toNat) = errors := State.reg_setReg_same ..
    have hregs : RegsBut [Key.lnkSymErr b.toNat] s (s.setReg (Key.lnkSymErr b.toNat) errors) := fun k hk =>
      s.reg_setReg_ne errors (List.mem_singleton.not.1 hk)
    refine ⟨_, exec_berWarn_of_running hb hst errors, ?_⟩
    split
    case isTrue hmany =>
      obtain ⟨hlatched, hlatch, hmem⟩ := (s.setReg (Key.lnkSymErr b.toNat) errors).latch_frame (pgLnk b.toNat) (c := 6) 0 (by decide)
      refine ⟨?_, hmem, fun _ => ⟨hlatched, hregs.trans hlatch⟩, fun hfew => absurd hmany (Nat.not_lt.2 hfew)⟩
      exact (hlatch _ (lnkSymErr_not_mem_latchKeys b.toNat)).trans hshown
    case isFalse hfew =>
      exact ⟨hshown, .of_mem rfl, fun hmany => absurd hmany hfew, fun _ => ⟨hregs, rfl⟩⟩
  · exact fun s b src vc hdr data crc hup hawake => exec_segment_of_up hup hawake src vc hdr data crc
  · intro s src vc crc hdr data hnew hbad hinject hgroup
    rw [State.recvSegment_of_bad hnew hbad hinject hgroup]
    exact (s.dropPartial src vc (dfield hdr 0 0 32)).latch_frame pgCol 0 (by decide)
  · exact fun s spar slot x t0 hwait hflight hlate => exec_msgTimeout_of_late hwait hflight hlate

end Sys2Proof.Machine
end

section
/-! Steps run the command at the front of the queue, and no command but a rail's release crossing stops (26 R637). -/

namespace Sys2Proof.Machine

open Host

/-- Settles O1: the queue is emptied from its front. -/
theorem stepRunsFrontCommand : Obligations.StepRunsFrontCommand := by
  unfold Obligations.StepRunsFrontCommand
  exact fun c rest s => rfl

/-- TAKEOVER goes on whether a master writes it or a member's message brings it. -/
theorem execTakeover_completes (src : Option Master) (be : BitVec 4) (x member : BitVec 16) (s : State) :
    ∃ t, execTakeover src be x member s = .next t := by
  cases src with
  | none => exact ⟨_, rfl⟩
  | some m => exact ⟨_, rfl⟩

/-- WARNING_CROSSING goes on whether the reading is below the threshold or not. -/
theorem execWarningCrossing_completes (r : BitVec 4) (mv : MilliVolt) (s : State) : ∃ t, execWarningCrossing r mv s = .next t := by
  by_cases h : r.toNat ≤ 11 ∧ s.pins.pwrOk = true ∧ 2 * mv < railWarn r.toNat
  · exact ⟨_, if_pos h⟩
  · exact ⟨_, if_neg h⟩

/-- Settles O7: the arms of `exec` end in `.next` but for RELEASE_CROSSING; two of them choose first what goes on. -/
theorem commandsComplete : Obligations.CommandsComplete := by
  unfold Obligations.CommandsComplete
  intro c s hrelease
  cases c
  case releaseCrossing r mv => exact absurd rfl (hrelease r mv)
  case takeover src be x member => exact execTakeover_completes src be x member s
  case warningCrossing r mv => exact execWarningCrossing_completes r mv s
  all_goals exact ⟨_, rfl⟩

end Sys2Proof.Machine
end

section
/-! What a package reset keeps and what it forgets, and the notes of arbitration that it does not read (22 R532 to R534). -/

namespace Sys2Proof.Machine

/-! ### Before everything is forgotten (22 R544; 25 R617) -/

/-- The target bank of an update that a reset abandons is invalid (25 R617). -/
def State.updateAbandoned (s : State) : State :=
  match s.sbd.update with
  | some u => s.flashErase (flashBank u.bank) 4
  | none => s

/-- A trial that is not committed ends with the previous bank named (R544). -/
def State.trialEnded (s : State) : State :=
  if s.boot.trial then (s.latch pgRst 0 0).writeSelect (1 - s.select.bank) false else s

/-- What is left once everything that no reset keeps is forgotten. -/
def State.forgotten (s : State) (por : Bool) : State :=
  let t : State := {
    pending := s.pending, out := s.out, freeCtr := s.freeCtr, pins := s.pins
    regs := if por then [] else s.keptRegs
    cnv := s.cnv.kept
    mem := { lost := s.mem.lost }
    boot := { flash := s.boot.flash, svn := s.boot.svn, lost := s.boot.lost ++ s.lostUnits allUnits } }
  { t with rel := { t.rel with fresh := t.keptFaults } }

theorem State.clearAll_eq (s : State) (por : Bool) : s.clearAll por = s.updateAbandoned.trialEnded.forgotten por := rfl

/-- What ends with a reset leaves registers but for a latch of the RST page, the queue and the pins. -/
theorem State.updateAbandoned_frame (s : State) :
    s.updateAbandoned.regs = s.regs ∧ s.updateAbandoned.pending = s.pending ∧ s.updateAbandoned.pins = s.pins := by
  unfold State.updateAbandoned
  cases s.sbd.update <;> exact ⟨rfl, rfl, rfl⟩

theorem State.writeSelect_frame (s : State) (bank : Nat) (trial : Bool) :
    (s.writeSelect bank trial).regs = s.regs ∧ (s.writeSelect bank trial).pending = s.pending ∧
      (s.writeSelect bank trial).pins = s.pins := ⟨rfl, rfl, rfl⟩

theorem State.trialEnded_frame (s : State) :
    RegsBut (latchKeys pgRst) s s.trialEnded ∧ s.trialEnded.pending = s.pending ∧ s.trialEnded.pins = s.pins := by
  unfold State.trialEnded
  split
  · obtain ⟨hregs, hpending, hpins⟩ := (s.latch pgRst 0 0).writeSelect_frame (1 - s.select.bank) false
    obtain ⟨-, hlatch, -⟩ := s.latch_frame pgRst (c := 0) 0 (by decide)
    exact ⟨fun k hk => (State.reg_congr hregs k).trans (hlatch k hk), hpending.trans (s.latch_pending ..),
      hpins.trans (s.latch_pins ..)⟩
  · exact ⟨fun _ _ => rfl, rfl, rfl⟩

/-! ### The registers that are kept (22 R533, R534) -/

/-- What a package reset keeps, by register: RST_HIST first, the sheeting code, and the latches of the kept pages. -/
def State.keptList (s : State) : List (Nat × Word) :=
  (Key.rstHist, s.reg Key.rstHist) :: (Key.lnkSheet, BitVec.ofNat 32 (s.fld Key.lnkSheet 6 4 * 16 + s.fld Key.lnkSheet 6 4)) ::
    keptPages.flatMap fun p => [(Key.fltLatch p, s.reg (Key.fltLatch p)), (Key.fltInfo p, s.reg (Key.fltInfo p))]

/-- The registers whose values a package reset keeps. -/
def keptKeys : List Nat := Key.lnkSheet :: keptPages.flatMap fun p => [Key.fltLatch p, Key.fltInfo p]

theorem State.keptList_keys (s : State) : s.keptList.map Prod.fst = Key.rstHist :: keptKeys := rfl

/-- A register that no entry of a list sets reads as before. -/
theorem get_foldl_set_of_ne {l : List (Nat × Word)} {k : Nat} (h : k ∉ l.map Prod.fst) (r : SMap Word) :
    SMap.get resetVal (l.foldl (fun m e => SMap.set resetVal m e.1 e.2) r) k = SMap.get resetVal r k := by
  induction l generalizing r with
  | nil => rfl
  | cons e l ih =>
    rw [List.map_cons, List.mem_cons, not_or] at h
    obtain ⟨hne, hrest⟩ := h
    rw [List.foldl_cons, ih hrest, SMap.get_set_ne _ _ _ hne]

theorem State.keptRegs_eq (s : State) : s.keptRegs = s.keptList.foldl (fun m e => SMap.set resetVal m e.1 e.2) [] := rfl

theorem State.get_keptRegs_rstHist (s : State) : SMap.get resetVal s.keptRegs Key.rstHist = s.reg Key.rstHist := by
  rw [State.keptRegs_eq, State.keptList, List.foldl_cons, get_foldl_set_of_ne (show Key.rstHist ∉ keptKeys by decide +kernel),
    SMap.get_set_same]

/-- A register that is not kept reads as at reset. -/
theorem State.get_keptRegs_of_ne (s : State) {k : Nat} (h : k ∉ Key.rstHist :: keptKeys) :
    SMap.get resetVal s.keptRegs k = resetVal k := by
  rw [State.keptRegs_eq, get_foldl_set_of_ne (s.keptList_keys.symm ▸ h), SMap.get_nil]

/-! ### Everything else is forgotten (22 R532, R534) -/

theorem State.reg_clearAll_of_ne (s : State) (por : Bool) {k : Nat} (h : k ∉ Key.rstHist :: keptKeys) :
    (s.clearAll por).reg k = resetVal k := by
  cases por with
  | true => rfl
  | false => exact State.get_keptRegs_of_ne _ h

/-- RST_HIST is kept by every reset but the one at power-on. -/
theorem State.reg_clearAll_rstHist (s : State) (por : Bool) :
    (s.clearAll por).reg Key.rstHist = if por then resetVal Key.rstHist else s.reg Key.rstHist := by
  cases por with
  | true => rfl
  | false =>
    obtain ⟨hregs, -, -⟩ := s.updateAbandoned_frame
    obtain ⟨hlatch, -, -⟩ := s.updateAbandoned.trialEnded_frame
    exact (State.get_keptRegs_rstHist _).trans ((hlatch _ (by decide +kernel)).trans (State.reg_congr hregs _))

theorem State.clearAll_forgets (s : State) (por : Bool) :
    (s.clearAll por).reqs = [] ∧ (s.clearAll por).models = [] ∧ (s.clearAll por).mem.bytes = [] ∧
      (s.clearAll por).boot.running = false := ⟨rfl, rfl, rfl, rfl⟩

theorem State.clearAll_pending (s : State) (por : Bool) : (s.clearAll por).pending = s.pending := by
  obtain ⟨-, hupdate, -⟩ := s.updateAbandoned_frame
  obtain ⟨-, htrial, -⟩ := s.updateAbandoned.trialEnded_frame
  exact htrial.trans hupdate

theorem State.clearAll_pins (s : State) (por : Bool) : (s.clearAll por).pins = s.pins := by
  obtain ⟨-, -, hupdate⟩ := s.updateAbandoned_frame
  obtain ⟨-, -, htrial⟩ := s.updateAbandoned.trialEnded_frame
  exact htrial.trans hupdate

theorem State.ready_congr {s t : State} (h : t.reg Key.rstStat = s.reg Key.rstStat) : t.ready = s.ready := State.bit_congr h 31

/-- No package is ready right after everything was forgotten. -/
theorem State.ready_clearAll (s : State) (por : Bool) : (s.clearAll por).ready = false := by
  have hstat : (s.clearAll por).reg Key.rstStat = resetVal Key.rstStat := s.reg_clearAll_of_ne por (by decide +kernel)
  rw [State.ready, State.bit, State.fld, hstat]
  decide +kernel

/-! ### The cause of a package reset (22 R533) -/

/-- The cause shown in RST_STAT and pushed onto RST_HIST. -/
def State.resetCause (t : State) (cause : Nat) : State :=
  (t.setFld Key.rstStat 15 8 cause).setReg Key.rstHist (BitVec.ofNat 32 ((t.reg Key.rstHist).toNat * 256 % 2 ^ 32 + cause))

theorem State.packageReset_of_powered {s : State} (h : s.pins.pwrOk = true) (cause : Nat) :
    s.packageReset cause = (s.clearAll (decide (cause = 1))).resetCause cause := by
  have hlow : ¬s.pins.pwrOk = false := by rw [h]; exact Bool.noConfusion
  exact if_neg hlow

/-- While PWR_OK is low the package stays as it is. -/
theorem State.packageReset_of_low {s : State} (h : s.pins.pwrOk = false) (cause : Nat) : s.packageReset cause = s := if_pos h

theorem rstStat_ne_rstHist : Key.rstStat ≠ Key.rstHist := by decide

theorem State.rstStat_resetCause (t : State) {cause : Nat} (hc : cause < 256) :
    (t.resetCause cause).fld Key.rstStat 15 8 = cause ∧ (t.resetCause cause).ready = t.ready := by
  have hreg : (t.resetCause cause).reg Key.rstStat = (t.setFld Key.rstStat 15 8 cause).reg Key.rstStat :=
    State.reg_setReg_ne _ _ rstStat_ne_rstHist
  refine ⟨?_, (State.ready_congr hreg).trans ?_⟩
  · rw [State.fld_congr hreg, State.fld_setFld_same _ _ (by decide)]
    exact Nat.mod_eq_of_lt hc
  · rw [State.ready, State.bit, State.fld_setFld_ne _ _ (by decide) (by decide) (by decide), State.ready, State.bit]

/-- RST_HIST holds the newest cause lowest, and drops the oldest. -/
theorem State.rstHist_resetCause (t : State) {cause : Nat} (hc : cause < 256) :
    (t.resetCause cause).fld Key.rstHist 7 0 = cause ∧
      (t.resetCause cause).fld Key.rstHist 31 8 = t.fld Key.rstHist 23 0 := by
  have hreg : (t.resetCause cause).reg Key.rstHist = BitVec.ofNat 32 ((t.reg Key.rstHist).toNat * 256 % 2 ^ 32 + cause) :=
    State.reg_setReg_same ..
  have hword : (t.reg Key.rstHist).toNat < 2 ^ 32 := (t.reg Key.rstHist).isLt
  simp only [State.fld, hreg, getBits, bitsOf, BitVec.toNat_ofNat]
  generalize (t.reg Key.rstHist).toNat = w at hword
  omega

theorem State.packageReset_pins (s : State) (cause : Nat) : (s.packageReset cause).pins = s.pins := by
  by_cases h : s.pins.pwrOk = true
  · rw [State.packageReset_of_powered h]
    exact s.clearAll_pins (decide (cause = 1))
  · rw [State.packageReset_of_low (Bool.eq_false_iff.2 h)]

theorem State.packageReset_forgets {s : State} (h : s.pins.pwrOk = true) (cause : Nat) :
    (s.packageReset cause).reqs = [] ∧ (s.packageReset cause).models = [] ∧ (s.packageReset cause).mem.bytes = [] ∧
      (s.packageReset cause).boot.running = false ∧ (s.packageReset cause).pending = s.pending := by
  rw [State.packageReset_of_powered h]
  obtain ⟨hreqs, hmodels, hbytes, hrunning⟩ := s.clearAll_forgets (decide (cause = 1))
  exact ⟨hreqs, hmodels, hbytes, hrunning, s.clearAll_pending (decide (cause = 1))⟩

theorem State.packageReset_cause {s : State} (h : s.pins.pwrOk = true) {cause : Nat} (hc : cause < 256) :
    (s.packageReset cause).fld Key.rstStat 15 8 = cause ∧ (s.packageReset cause).ready = false := by
  rw [State.packageReset_of_powered h]
  obtain ⟨hcause, hready⟩ := (s.clearAll (decide (cause = 1))).rstStat_resetCause hc
  exact ⟨hcause, hready.trans (s.ready_clearAll _)⟩

theorem State.packageReset_history {s : State} (h : s.pins.pwrOk = true) {cause : Nat} (hc : cause < 256) :
    (s.packageReset cause).fld Key.rstHist 7 0 = cause ∧ (s.packageReset cause).fld Key.rstHist 31 8 =
      if cause = 1 then getBits (resetVal Key.rstHist) 23 0 else s.fld Key.rstHist 23 0 := by
  rw [State.packageReset_of_powered h]
  obtain ⟨hnew, hold⟩ := (s.clearAll (decide (cause = 1))).rstHist_resetCause hc
  refine ⟨hnew, hold.trans ?_⟩
  rw [State.fld, State.reg_clearAll_rstHist]
  by_cases hpor : cause = 1
  · rw [if_pos (decide_eq_true hpor), if_pos hpor]
  · rw [if_neg (by simpa using hpor), if_neg hpor, State.fld]

/-! ### The notes of arbitration (03 R41) -/

/-- What the gate does for a full write that its page takes, with the note of its place. -/
theorem State.gated_in_turn {s : State} {m : Master} {p off : Nat} {v : Word} (h : s.Takes m p off v) (f : State → State) :
    s.gated m p off 0xF v f = (f (s.noteOrder m p)).noteSince (s.noteOrder m p) := by
  rw [State.gated_of_takes h, State.inTurn_eq_noteOrder h.inOrder]

variable (s : State) (m : Master) (p : Nat)

theorem State.noteOrder_writeSelect (bank : Nat) (trial : Bool) :
    (s.writeSelect bank trial).noteOrder m p = (s.noteOrder m p).writeSelect bank trial := rfl

theorem State.noteOrder_updateAbandoned : s.updateAbandoned.noteOrder m p = (s.noteOrder m p).updateAbandoned := by
  have hsbd : (s.noteOrder m p).sbd = s.sbd := rfl
  unfold State.updateAbandoned
  rw [hsbd]
  cases s.sbd.update <;> rfl

theorem State.noteOrder_trialEnded : s.trialEnded.noteOrder m p = (s.noteOrder m p).trialEnded := by
  have hselect : (s.noteOrder m p).select = s.select := rfl
  unfold State.trialEnded
  rw [hselect, ← State.noteOrder_latch]
  exact State.noteOrder_ite (State.noteOrder_writeSelect ..) rfl

/-- Among what a reset forgets are the notes of arbitration. -/
theorem State.clearAll_noteOrder (por : Bool) : (s.noteOrder m p).clearAll por = s.clearAll por := by
  have hforgotten : ∀ t : State, (t.noteOrder m p).forgotten por = t.forgotten por := fun _ => rfl
  rw [State.clearAll_eq, ← State.noteOrder_updateAbandoned, ← State.noteOrder_trialEnded, hforgotten, State.clearAll_eq]

theorem State.packageReset_noteOrder_of_powered (h : s.pins.pwrOk = true) (cause : Nat) :
    (s.noteOrder m p).packageReset cause = s.packageReset cause := by
  rw [State.packageReset_of_powered (s := s.noteOrder m p) h, State.packageReset_of_powered h, State.clearAll_noteOrder]

/-- A package reset in its turn is the package reset, but for the notes of arbitration. -/
theorem State.wroteAs_packageReset (cause : Nat) (r : State) :
    WroteAs (s.packageReset cause) (((s.noteOrder m p).packageReset cause).noteSince r) := by
  by_cases h : s.pins.pwrOk = true
  · rw [State.packageReset_noteOrder_of_powered s m p h]
    rfl
  · have hlow : s.pins.pwrOk = false := Bool.eq_false_iff.2 h
    rw [State.packageReset_of_low (s := s.noteOrder m p) hlow, State.packageReset_of_low hlow]
    exact wroteAs_noteSince ..

end Sys2Proof.Machine
end

section
/-! PWR_OK low, and the instructions of the TAP (26 R629, R635, R640). -/

namespace Sys2Proof.Machine

open Host

/-- A package that powers down: everything is forgotten, PWR_OK is low, and every die is held in reset (R640). -/
def State.poweredDown (s : State) : State :=
  { s.clearAll false with
    pins := { s.pins with pwrOk := false, tripHeld := s.pins.thermtrip && decide (s.time.cycle < 4) }
    boot := { (s.clearAll false).boot with inReset := List.range 12 } }

theorem exec_powerDown_of_powered {s : State} (h : s.pins.pwrOk = true) : exec .powerDown s = .next s.poweredDown := by
  have hlow : ¬s.pins.pwrOk = false := by rw [h]; exact Bool.noConfusion
  exact congrArg Outcome.next (if_neg hlow)

@[simp] theorem State.reg_poweredDown (s : State) (k : Nat) : s.poweredDown.reg k = (s.clearAll false).reg k := rfl

/-- An instruction in force already changes nothing. -/
theorem State.tapTo_same {s : State} {j : Jtag} (h : s.pins.jtag = j) : s.tapTo j = s := if_pos h

/-- An instruction that comes after one that leaves the pins alone is in force, and that is all. -/
theorem State.tapTo_of_quiet {s : State} {j : Jtag} (hquiet : takesPins s.pins.jtag = false) (hne : s.pins.jtag ≠ j) :
    s.tapTo j = { s with pins := { s.pins with jtag := j } } := by
  have hleaves : ¬takesPins s.pins.jtag = true := by rw [hquiet]; exact Bool.noConfusion
  exact (if_neg hne).trans (if_neg hleaves)

/-- Leaving an instruction that takes the pins resets the package (R635). -/
theorem State.tapTo_of_taken {s : State} {j : Jtag} (htakes : takesPins s.pins.jtag = true) (hne : s.pins.jtag ≠ j) :
    s.tapTo j = State.packageReset { s with pins := { s.pins with jtag := j } } 3 :=
  (if_neg hne).trans (if_pos htakes)

/-- Settles O60: powering down by what a package reset forgets, each instruction by what leaving the one in force does. -/
theorem powerDownAndTap : Obligations.PowerDownAndTap := by
  unfold Obligations.PowerDownAndTap
  refine ⟨?_, ?_, ?_⟩
  · intro s hpowered
    obtain ⟨hreqs, -, hbytes, -⟩ := s.clearAll_forgets false
    refine ⟨_, exec_powerDown_of_powered hpowered, rfl, rfl, hbytes, hreqs, ?_, ?_⟩
    · exact (State.ready_congr (s.reg_poweredDown _)).trans (s.ready_clearAll false)
    · exact (s.reg_poweredDown _).trans (s.reg_clearAll_rstHist false)
  · intro s hidcode
    have hquiet : takesPins s.pins.jtag = false := by rw [hidcode]; rfl
    have hnext : ∀ j, j ≠ Jtag.idcode → s.tapTo j = { s with pins := { s.pins with jtag := j } } := fun j hj =>
      State.tapTo_of_quiet hquiet (hidcode ▸ hj.symm)
    refine ⟨?_, ?_, ?_, ?_, ?_, ?_, ?_⟩
    · exact congrArg Outcome.next (hnext _ (by decide))
    · exact congrArg (fun t : State => Outcome.next (t.emit (.idcode 0x14B485A7))) (State.tapTo_same hidcode)
    · exact congrArg Outcome.next (hnext _ (by decide))
    · exact congrArg Outcome.next (hnext _ (by decide))
    · exact congrArg Outcome.next (hnext _ (by decide))
    · exact congrArg Outcome.next (hnext _ (by decide))
    · exact congrArg Outcome.next (State.tapTo_same hidcode)
  · intro s hextest
    have htakes : takesPins s.pins.jtag = true := by rw [hextest]; rfl
    exact congrArg Outcome.next (State.tapTo_of_taken htakes (by rw [hextest]; decide))

end Sys2Proof.Machine
end

section
/-! Requests of the management sideband: MCTP control, PLDM, and what the transport loses (25 R603, R608, R609, R612, R619, R621). -/

namespace Sys2Proof.Machine

open Host

/-! ### What every request meets (R603, R609, R621) -/

theorem State.not_unpowered {s : State} (h : s.pins.pwrOk = true) : ¬s.pins.pwrOk = false := by
  rw [h]; exact Bool.noConfusion

section
variable {s : State} (hpowered : s.pins.pwrOk = true) (hplace : s.sbd.held < 8)
include hpowered hplace

/-- A request that finds a place is counted and performed, once the firmware that it needs runs. -/
theorem State.request_of_place {early : Bool} (h : early = true ∨ s.boot.running = true) (told : Bool) (f : State → State) :
    s.request told early f = f s.asked := by
  have hruns : (early || s.boot.running) = true := Bool.or_eq_true_iff.2 h
  unfold State.request
  rw [if_neg (State.not_unpowered hpowered), if_neg (Nat.not_le.2 hplace)]
  exact (if_neg (State.not_unpowered hpowered)).trans (if_pos hruns)

/-- Before the firmware runs, a request that needs it is answered NOT_READY. -/
theorem State.request_of_notRunning (h : s.boot.running = false) (told : Bool) (f : State → State) :
    s.request told false f = s.asked.answer 4 [] := by
  have hruns : ¬(false || s.boot.running) = true := by rw [h]; exact Bool.noConfusion
  unfold State.request
  rw [if_neg (State.not_unpowered hpowered), if_neg (Nat.not_le.2 hplace)]
  exact (if_neg (State.not_unpowered hpowered)).trans (if_neg hruns)

end

/-- The ninth request of a cycle finds no place; PLDM is told. -/
theorem State.request_of_full {s : State} (hpowered : s.pins.pwrOk = true) (hfull : 8 ≤ s.sbd.held) (early : Bool) (f : State → State) :
    s.request true early f = ((s.inc Key.sbdRxCnt).inc Key.sbdDropCnt).answer 4 [] := by
  unfold State.request
  rw [if_neg (State.not_unpowered hpowered), if_pos hfull]
  rfl

/-- Counting a request touches no other register. -/
theorem State.reg_asked {s : State} {k : Nat} (h : k ≠ Key.sbdRxCnt) : s.asked.reg k = s.reg k := State.reg_setReg_ne _ _ h

theorem State.fld_asked {s : State} {k : Nat} (h : k ≠ Key.sbdRxCnt) (a b : Nat) : s.asked.fld k a b = s.fld k a b :=
  State.fld_congr (State.reg_asked h) a b

theorem State.bit_asked {s : State} {k : Nat} (h : k ≠ Key.sbdRxCnt) (b : Nat) : s.asked.bit k b = s.bit k b :=
  State.bit_congr (State.reg_asked h) b

/-! ### Sensors (R612) -/

/-- Every sensor's number is at most that of the Telltale's. -/
theorem sensors_le : ∀ x ∈ sensors, x ≤ 0x60 := by decide

/-- No register that a sensor shows is the count of requests. -/
theorem regKey_ne_sbdRxCnt {p off : Nat} (hp : p ≠ 0xA) (ho : off < 0x1000) : regKey p off ≠ Key.sbdRxCnt := by
  simp only [regKey, Key.sbdRxCnt]
  omega

theorem State.sensor_asked (s : State) {x : Nat} (hx : x ∈ sensors) : s.asked.sensor x = s.sensor x := by
  have hle : x ≤ 0x60 := sensors_le x hx
  have hthm : Key.thmDie (x - 1) ≠ Key.sbdRxCnt := regKey_ne_sbdRxCnt (by decide) (by omega)
  have hrail : Key.pwrRailStat (x - 0x50) ≠ Key.sbdRxCnt := regKey_ne_sbdRxCnt (by decide) (by omega)
  have hnear : Key.nrmStat (x - 0x10) ≠ Key.sbdRxCnt := regKey_ne_sbdRxCnt (by omega) (by decide)
  have hfar : Key.farStat (x - 0x20) ≠ Key.sbdRxCnt := regKey_ne_sbdRxCnt (by omega) (by decide)
  have hout : s.asked.dieOut = s.dieOut := rfl
  have hpower : s.asked.power = s.power := rfl
  unfold State.sensor
  rw [State.fld_asked hthm, State.fld_asked hrail, State.fld_asked hnear, State.fld_asked hfar, State.bit_asked hnear,
    State.bit_asked hfar, State.fld_asked (k := Key.pwrStat) (by decide), State.fld_asked (k := Key.pwrStat) (by decide),
    State.fld_asked (k := Key.pwrCap) (by decide), State.fld_asked (k := Key.ttlStat) (by decide), hout, hpower]

/-! ### The rows -/

theorem exec_setEndpointId (op eid : Byte) (s : State) : exec (.setEndpointId op eid) s = execSetEndpointId op eid s := rfl

theorem exec_getMctpVersionSupport (type : Byte) (s : State) :
    exec (.getMctpVersionSupport type) s = execGetMctpVersionSupport type s := rfl

theorem exec_getPldmVersion (type : Byte) (s : State) : exec (.getPldmVersion type) s = execGetPldmVersion type s := rfl

theorem exec_getPldmCommands (type : Byte) (s : State) : exec (.getPldmCommands type) s = execGetPldmCommands type s := rfl

theorem exec_getSensorReading (n : BitVec 16) (s : State) : exec (.getSensorReading n) s = execGetSensorReading n s := rfl

theorem exec_getPdr (n : Word) (s : State) : exec (.getPdr n) s = execGetPdr n s := rfl

/-- The PLDM types supported have commands. -/
theorem pldmCommands_ne_nil : ∀ type ∈ [0, 2, 5], pldmCommands type ≠ [] := by decide

theorem State.setEndpointId_frame (s : State) (eid : Byte) : let t := (s.asked.setFld Key.sbdStat 7 0 eid.toNat).answer 0 [0, eid, 0]
    t.fld Key.sbdStat 7 0 = eid.toNat ∧ t.out = s.out ++ [.sideband 0 [0, eid, 0]] ∧
      RegsBut [Key.sbdRxCnt, Key.sbdStat] s t ∧ SameMemory s t := by
  intro t
  refine ⟨?_, rfl, fun k hk => ?_, .of_mem rfl⟩
  · exact (s.asked.fld_setFld_same _ (by decide)).trans (Nat.mod_eq_of_lt eid.isLt)
  · simp only [List.mem_cons, List.not_mem_nil, or_false, not_or] at hk
    obtain ⟨hcount, hstat⟩ := hk
    exact (s.asked.reg_setFld_ne _ _ _ hstat).trans (State.reg_asked hcount)

section
variable {s : State} (hpowered : s.pins.pwrOk = true) (hplace : s.sbd.held < 8)
include hpowered hplace

/-- An endpoint ID that may be set is shown and acknowledged. -/
theorem exec_setEndpointId_of_valid {op eid : Byte} (hop : op.toNat ≤ 1) (hlow : 8 ≤ eid.toNat) (hhigh : eid.toNat ≤ 0xFE) :
    exec (.setEndpointId op eid) s = .next ((s.asked.setFld Key.sbdStat 7 0 eid.toNat).answer 0 [0, eid, 0]) := by
  rw [exec_setEndpointId, execSetEndpointId, State.request_of_place hpowered hplace (.inl rfl)]
  exact congrArg Outcome.next (if_pos ⟨hop, hlow, hhigh⟩)

theorem exec_getMctpVersionSupport_of_supported {type : Byte} (h : type.toNat ∈ mctpTypes) :
    exec (.getMctpVersionSupport type) s = .next (s.asked.emit (.sideband 0 (Config.mctpVersions type.toNat))) := by
  rw [exec_getMctpVersionSupport, execGetMctpVersionSupport, State.request_of_place hpowered hplace (.inl rfl)]
  exact congrArg Outcome.next (if_pos (.inr h))

theorem exec_getPldmVersion_of_supported {type : Byte} (h : type.toNat ∈ [0, 2, 5]) :
    exec (.getPldmVersion type) s = .next (s.asked.emit (.sideband 0 (Config.pldmVersion type.toNat))) := by
  rw [exec_getPldmVersion, execGetPldmVersion, State.request_of_place hpowered hplace (.inl rfl)]
  exact congrArg Outcome.next (if_neg (pldmCommands_ne_nil _ h))

theorem exec_getPldmCommands_of_supported {type : Byte} (h : type.toNat ∈ [0, 2, 5]) :
    exec (.getPldmCommands type) s = .next (s.asked.emit
      (.sideband 0 (leBytes ((pldmCommands type.toNat).map fun c => 2 ^ c).sum 32))) := by
  rw [exec_getPldmCommands, execGetPldmCommands, State.request_of_place hpowered hplace (.inl rfl)]
  exact congrArg Outcome.next (if_neg (pldmCommands_ne_nil _ h))

theorem exec_getSensorReading_of_running (hruns : s.boot.running = true) {n : BitVec 16} (h : n.toNat ∈ sensors) :
    exec (.getSensorReading n) s = .next (s.asked.emit (.sideband 0
      (BitVec.ofNat 8 (if (s.sensor n.toNat).2 then 0 else 2) :: leBytes (s.sensor n.toNat).1 4))) := by
  rw [exec_getSensorReading, execGetSensorReading, State.request_of_place hpowered hplace (.inr hruns), ← s.sensor_asked h]
  exact congrArg Outcome.next (if_pos h)

theorem exec_getPdr_of_running (hruns : s.boot.running = true) {n : Word} {x : Nat} (h : sensors[n.toNat - 1]? = some x) :
    exec (.getPdr n) s = .next (s.asked.emit (.sideband 0
      (leBytes x 2 ++ leBytes (sensorLimits x).1 4 ++ leBytes (sensorLimits x).2 4))) := by
  rw [exec_getPdr, execGetPdr, State.request_of_place hpowered hplace (.inr hruns), h]
  rfl

end

/-- Settles O57: each request by the place that it finds, then by its command; what the transport loses by its latch or its count. -/
theorem sidebandRequests : Obligations.SidebandRequests := by
  unfold Obligations.SidebandRequests
  refine ⟨?_, ?_, ?_, ?_, ?_, ?_⟩
  · intro s hpowered hplace
    refine ⟨fun op eid hop hlow hhigh => ?_, ?_, fun type h => exec_getMctpVersionSupport_of_supported hpowered hplace h, ?_, ?_,
      fun type h => exec_getPldmVersion_of_supported hpowered hplace h, ?_,
      fun type h => exec_getPldmCommands_of_supported hpowered hplace h⟩
    · exact ⟨_, exec_setEndpointId_of_valid hpowered hplace hop hlow hhigh, s.setEndpointId_frame eid⟩
    · rw [← State.fld_asked (k := Key.sbdStat) (by decide)]
      exact congrArg Outcome.next (State.request_of_place hpowered hplace (.inl rfl) ..)
    · exact congrArg Outcome.next (State.request_of_place hpowered hplace (.inl rfl) ..)
    · exact congrArg Outcome.next (State.request_of_place hpowered hplace (.inl rfl) ..)
    · exact congrArg Outcome.next (State.request_of_place hpowered hplace (.inl rfl) ..)
  · intro s hpowered hplace hruns
    exact ⟨fun n h => exec_getSensorReading_of_running hpowered hplace hruns h,
      congrArg Outcome.next (State.request_of_place hpowered hplace (.inr hruns) ..),
      fun n x h => exec_getPdr_of_running hpowered hplace hruns h⟩
  · exact fun s n hpowered hplace hruns => congrArg Outcome.next (State.request_of_notRunning hpowered hplace hruns ..)
  · exact fun s hlow => congrArg Outcome.next (if_pos hlow)
  · exact fun s hpowered hfull => congrArg Outcome.next (State.request_of_full hpowered hfull ..)
  · intro s hpowered _
    refine ⟨⟨_, congrArg Outcome.next (if_neg (State.not_unpowered hpowered)), s.latch_frame pgSbd 0 (by decide)⟩,
      ⟨_, congrArg Outcome.next (if_neg (State.not_unpowered hpowered)), s.latch_frame pgSbd 0 (by decide)⟩,
      congrArg Outcome.next (if_neg (State.not_unpowered hpowered))⟩

end Sys2Proof.Machine
end

section
/-! The vendor message set of the sideband (25 R610, R611, R618). -/

namespace Sys2Proof.Machine

open Host

/-! ### What every vendor request meets (R610, R618) -/

section
variable {s : State} (hpowered : s.pins.pwrOk = true) (hplace : s.sbd.held < 8) (hruns : s.boot.running = true)
include hpowered hplace hruns

/-- With secure mode off, a request outside a session is performed. -/
theorem State.vendor_of_plain (hsecure : s.bit Key.sbdCfg 8 = false) (opens : Bool) (f : State → State) :
    s.vendor none opens f = f s.asked := by
  have hbit : ¬(s.asked.bit Key.sbdCfg 8 && !opens) = true := by
    rw [State.bit_asked (by decide), hsecure]
    exact Bool.noConfusion
  exact (State.request_of_place hpowered hplace (.inr hruns) true _).trans (if_neg hbit)

/-- In secure mode a request outside a session is answered SECURE_ONLY, unless it is open to all. -/
theorem State.vendor_of_secure (hsecure : s.bit Key.sbdCfg 8 = true) (f : State → State) :
    s.vendor none false f = s.asked.answer 5 [] := by
  have hbit : (s.asked.bit Key.sbdCfg 8 && !false) = true := by
    rw [State.bit_asked (by decide), hsecure]
    rfl
  exact (State.request_of_place hpowered hplace (.inr hruns) true _).trans (if_pos hbit)

end

/-- A request of a session that has ended is dropped (R618). -/
theorem State.vendor_of_ended {s : State} {n : Nat} (h : n ∉ s.sbd.sessions) (opens : Bool) (f : State → State) :
    s.vendor (some n) opens f = s := if_neg h

/-! ### The commands, each by its checks (Tables 25.3 and 25.4) -/

section
variable {s u : State} (h : ∀ (opens : Bool) (f : State → State), s.vendor none opens f = f u)
include h

theorem exec_getInfo_of_taken : exec (.getInfo [] none) s = .next (u.emit (.sideband 0 (leBytes Config.otpSerial.toNat 8 ++
    u.bmcVal pgDev 4 ++ u.bmcVal pgRst 0x100 ++ u.bmcVal pgRst 0x118 ++ u.bmcVal pgTop 0x100 ++ u.bmcVal pgTtl 0x108))) :=
  congrArg Outcome.next ((h true _).trans (if_neg (not_not_intro rfl)))

theorem exec_getCoord_of_taken : exec (.getCoord [] none) s = .next (u.emit (.sideband 0 (u.bmcVal pgTop 0x100))) :=
  congrArg Outcome.next ((h false _).trans (if_neg (not_not_intro rfl)))

theorem exec_getCoord_of_payload {l : List Byte} (hl : l ≠ []) : exec (.getCoord l none) s = .next (u.emit (.sideband 2 [])) :=
  congrArg Outcome.next ((h false _).trans (if_pos hl))

theorem exec_rigStatus_of_taken : exec (.rigStatus [] none) s = .next (u.emit (.sideband 0
    (u.bmcVal pgTop 0x108 ++ (List.range 12).flatMap fun b => u.bmcVal pgTop (0x180 + 4 * b)))) :=
  congrArg Outcome.next ((h false _).trans (if_neg (not_not_intro rfl)))

theorem exec_powerStatus_of_taken : exec (.powerStatus [] none) s = .next (u.emit (.sideband 0
    (u.bmcVal pgPwr 0x104 ++ u.bmcVal pgThm 0x104 ++ (List.range 12).flatMap fun d => u.bmcVal pgThm (0x140 + 4 * d)))) :=
  congrArg Outcome.next ((h false _).trans (if_neg (not_not_intro rfl)))

variable {l : List Byte}

theorem exec_setCoord_of_valid (hlen : l.length = 4) (hzero : leAt l 2 2 = 0) : exec (.setCoord l none) s
    = .next ((u.bmcWrite pgTop 0x100 (2 ^ 31 + leAt l 0 2)).emit (.sideband 0
      ((u.bmcWrite pgTop 0x100 (2 ^ 31 + leAt l 0 2)).bmcVal pgTop 0x100))) :=
  congrArg Outcome.next ((h false _).trans ((if_neg (not_not_intro hlen)).trans (if_neg (not_not_intro hzero))))

/-- A plan of one entry that is not loaded yet. -/
theorem exec_rigPlan_of_one (hlen : l.length = 8) (hfirst : leAt l 0 1 < 12) (hn : leAt l 1 1 = 1) (hflags : leAt l 2 1 = 0)
    (hzero : leAt l 3 1 = 0) (hentry : bitsOf (leAt l 4 4) 29 24 = 0) : exec (.rigPlan l none) s
    = .next ((u.bmcWrite pgTop (0x140 + 4 * leAt l 0 1) (leAt l 4 4)).emit (.sideband 0
      ((u.bmcWrite pgTop (0x140 + 4 * leAt l 0 1) (leAt l 4 4)).bmcVal pgTop 0x108))) := by
  have hvalid : ¬(leAt l 1 1 = 0 ∨ 12 < leAt l 1 1 ∨ 12 < leAt l 0 1 + leAt l 1 1 ∨ 1 < leAt l 2 1 ∨ leAt l 3 1 ≠ 0) := by omega
  have hfits : ¬l.length ≠ 4 + 4 * leAt l 1 1 := by omega
  refine congrArg Outcome.next ((h false _).trans ((if_neg (by omega)).trans ((if_neg hvalid).trans ((if_neg hfits).trans ?_))))
  rw [hn, hflags]
  exact if_neg (by simp [hentry])

/-- An order for the power cap alone. -/
theorem exec_powerOrder_of_cap (hlen : l.length = 12) (hmask : leAt l 0 1 = 1) (hzero : leAt l 1 3 = 0) :
    exec (.powerOrder l none) s = .next ((u.bmcWrite pgPwr 0x100 (leAt l 4 4)).emit (.sideband 0
      ((u.bmcWrite pgPwr 0x100 (leAt l 4 4)).bmcVal pgPwr 0x100 ++ (u.bmcWrite pgPwr 0x100 (leAt l 4 4)).bmcVal pgThm 0x100))) := by
  refine congrArg Outcome.next ((h false _).trans ((if_neg (not_not_intro hlen)).trans ((if_neg (by omega)).trans ?_)))
  rw [hmask]
  rfl

/-- The latches of one page. -/
theorem exec_faultPeek_of_one (hlen : l.length = 4) (hn : leAt l 2 2 = 1) : exec (.faultPeek l none) s
    = .next (u.emit (.sideband 0 (u.bmcVal (leAt l 0 2) 0x20 ++ u.bmcVal (leAt l 0 2) 0x24 ++ u.bmcVal pgFlt 0x100))) := by
  refine congrArg Outcome.next ((h false _).trans ((if_neg (not_not_intro hlen)).trans ((if_neg (by omega)).trans ?_)))
  rw [hn]
  simp [State.answer]

/-- One entry of the fault log. -/
theorem exec_faultLog_of_one (hlen : l.length = 4) (hfirst : leAt l 0 1 < 64) (hn : leAt l 1 1 = 1) (hzero : leAt l 2 2 = 0) :
    exec (.faultLog l none) s
    = .next (u.emit (.sideband 0 ((List.range 4).flatMap fun i => u.bmcVal pgFlt (0x400 + 16 * leAt l 0 1 + 4 * i)))) := by
  refine congrArg Outcome.next ((h false _).trans ((if_neg (not_not_intro hlen)).trans ((if_neg (by omega)).trans ?_)))
  rw [hn]
  rfl

/-- One word read as master BMC, with what the read does. -/
theorem exec_regRead_of_one (hlen : l.length = 8) (hn : leAt l 4 4 = 1) (hoff : leAt l 2 2 ≤ 0xFFC) : exec (.regRead l none) s
    = .next ((u.readReg .bmc (leAt l 0 2) (leAt l 2 2) 0xF).2.emit (.sideband 0
      (leBytes (u.readReg .bmc (leAt l 0 2) (leAt l 2 2) 0xF).1.toNat 4))) := by
  refine congrArg Outcome.next ((h false _).trans ((if_neg (not_not_intro hlen)).trans ((if_neg (by omega)).trans ?_)))
  rw [hn]
  simp [State.answer, State.bmcRead]

theorem exec_regWrite_of_valid (hlen : l.length = 8) (hoff : leAt l 2 2 ≤ 0xFFF) : exec (.regWrite l none) s
    = .next ((u.bmcWrite (leAt l 0 2) (leAt l 2 2) (leAt l 4 4)).emit (.sideband 0
      ((u.bmcWrite (leAt l 0 2) (leAt l 2 2) (leAt l 4 4)).bmcVal (leAt l 0 2) (leAt l 2 2)))) :=
  congrArg Outcome.next ((h false _).trans ((if_neg (not_not_intro hlen)).trans (if_neg (Nat.not_lt.2 hoff))))

/-- RESET of the package: the response precedes it. -/
theorem exec_resetCommand_of_package (hlen : l.length = 4) (hop : leAt l 0 1 = 1) (hzero : leAt l 1 3 = 0) :
    exec (.resetCommand l none) s = .next ((u.emit (.sideband 0 [])).bmcWrite pgRst 0x104 1) := by
  refine congrArg Outcome.next ((h false _).trans ((if_neg (not_not_intro hlen)).trans ((if_neg (by omega)).trans ?_)))
  rw [hop]
  rfl

theorem exec_jury_of_valid (hlen : l.length = 4) : exec (.jury l none) s
    = .next ((u.bmcWrite pgJry 0x104 (leAt l 0 4)).emit (.sideband 0
      ((u.bmcWrite pgJry 0x104 (leAt l 0 4)).bmcVal pgJry 0x100))) :=
  congrArg Outcome.next ((h false _).trans (if_neg (not_not_intro hlen)))

end

/-- Settles O58: with secure mode off each command is performed on the counted request, by its own checks; SECURE_ONLY and the end of a
session come before them. -/
theorem vendorCommands : Obligations.VendorCommands := by
  unfold Obligations.VendorCommands
  refine ⟨?_, ?_, ?_⟩
  · rintro s u hpowered hplace hruns hsecure rfl
    have htaken := State.vendor_of_plain hpowered hplace hruns hsecure
    exact ⟨exec_getInfo_of_taken htaken, exec_getCoord_of_taken htaken, exec_rigStatus_of_taken htaken,
      exec_powerStatus_of_taken htaken, fun _ => exec_setCoord_of_valid htaken, fun _ => exec_rigPlan_of_one htaken,
      fun _ => exec_powerOrder_of_cap htaken, fun _ => exec_faultPeek_of_one htaken, fun _ => exec_faultLog_of_one htaken,
      fun _ => exec_regRead_of_one htaken, fun _ => exec_regWrite_of_valid htaken,
      fun _ => exec_resetCommand_of_package htaken, fun _ => exec_jury_of_valid htaken, fun _ => exec_getCoord_of_payload htaken⟩
  · exact fun s l hpowered hplace hruns hsecure =>
      congrArg Outcome.next (State.vendor_of_secure hpowered hplace hruns hsecure _)
  · exact fun s l n hended => congrArg Outcome.next (State.vendor_of_ended hended ..)

end Sys2Proof.Machine
end

section
/-! Error injection: FLT_INJ_CMD arms, denies, or resets the package (24 R597, R598). -/

namespace Sys2Proof.Machine

open Host

/-! ### FLT_INJ_CMD -/

theorem getBits_putBits_op (v : Word) {op : Nat} (hop : op < 256) :
    getBits (putBits v 7 0 op) 7 0 = op ∧ getBits (putBits v 7 0 op) 15 8 = getBits v 15 8 :=
  ⟨(getBits_putBits_same v op (by decide)).trans (Nat.mod_eq_of_lt hop), getBits_putBits_ne v op (by decide) (by decide) (by decide)⟩

/-- Types 1 to 10 of FLT_INJ_CMD arm an injection, but for LOCKSTEP. -/
abbrev armingOp (op : Nat) : Prop := 1 ≤ op ∧ op ≤ 10 ∧ op ≠ 9

/-- Injection is enabled, and the target that the registers name is allowed (R597). -/
abbrev State.mayArm (s : State) (op utype : Nat) : Prop :=
  s.bit Key.fltInjCtl 0 = true ∧ s.injectionAllowed (s.injectFor op utype) (s.fld Key.fltInjTgt 31 24) = true

/-- The injection that the registers name armed, in place of one that was. -/
def State.armed (s : State) (op utype : Nat) : State :=
  ({ s with rel := { s.rel with inject := some (s.injectFor op utype) } } : State).injResult 1 s.rel.inject.isSome op

theorem State.writeInjCmd_of_denied {s : State} {op : Nat} (hop : 1 ≤ op ∧ op ≤ 10) (v : Word) (passes : Bool)
    (h : ¬s.mayArm op (getBits v 15 8)) : s.writeInjCmd (putBits v 7 0 op) passes = s.injResult 3 false op := by
  obtain ⟨hlow, hhigh⟩ := hop
  obtain ⟨hcmd, htype⟩ := getBits_putBits_op v (op := op) (by omega)
  have hdenied : s.bit Key.fltInjCtl 0 = false ∨
      s.injectionAllowed (s.injectFor op (getBits v 15 8)) (s.fld Key.fltInjTgt 31 24) = false := by
    rw [← Bool.not_eq_true, ← Bool.not_eq_true]
    exact not_and_or.1 h
  unfold State.writeInjCmd
  dsimp only
  rw [hcmd, htype, if_neg (by omega), if_neg (by omega), if_pos hdenied]

/-- A command that is not denied arms its injection, or resets the package at once. -/
theorem State.writeInjCmd_of_allowed {s : State} {op : Nat} (hop : 1 ≤ op ∧ op ≤ 10) (v : Word) (passes : Bool)
    (h : s.mayArm op (getBits v 15 8)) :
    s.writeInjCmd (putBits v 7 0 op) passes = if op = 9 then s.lockstepReset else s.armed op (getBits v 15 8) := by
  obtain ⟨hlow, hhigh⟩ := hop
  obtain ⟨hcmd, htype⟩ := getBits_putBits_op v (op := op) (by omega)
  have hallowed : ¬(s.bit Key.fltInjCtl 0 = false ∨
      s.injectionAllowed (s.injectFor op (getBits v 15 8)) (s.fld Key.fltInjTgt 31 24) = false) := by
    rw [not_or, Bool.not_eq_false, Bool.not_eq_false]
    exact h
  unfold State.writeInjCmd
  dsimp only
  rw [hcmd, htype, if_neg (by omega), if_neg (by omega), if_neg hallowed]
  rfl

/-! ### FLT_INJ_STAT -/

/-- The fields of FLT_INJ_STAT read back: the type, whether one was replaced, and the result. -/
theorem getBits_injStat {result op : Nat} (hresult : result < 4) (hop : op < 256) (replaced : Bool) :
    let w : Word := BitVec.ofNat 32 (result * 2 ^ 30 + (if replaced then 2 ^ 29 else 0) + op)
    getBits w 7 0 = op ∧ getBits w 31 30 = result ∧ getBits w 29 29 = if replaced then 1 else 0 := by
  simp only [getBits, bitsOf, BitVec.toNat_ofNat]
  cases replaced <;> simp <;> omega

theorem State.injResult_frame (s : State) {result op : Nat} (hresult : result < 4) (hop : op < 256) (replaced : Bool) :
    (s.injResult result replaced op).fld Key.fltInjStat 7 0 = op ∧ (s.injResult result replaced op).fld Key.fltInjStat 31 30 = result ∧
      (s.injResult result replaced op).bit Key.fltInjStat 29 = replaced ∧ RegsBut [Key.fltInjStat] s (s.injResult result replaced op) := by
  obtain ⟨htype, hres, hrep⟩ := getBits_injStat hresult hop replaced
  unfold State.injResult
  refine ⟨?_, ?_, ?_, fun k hk => s.reg_setReg_ne _ (List.mem_singleton.not.1 hk)⟩
  · rw [State.fld, State.reg_setReg_same, htype]
  · rw [State.fld, State.reg_setReg_same, hres]
  · rw [State.bit, State.fld, State.reg_setReg_same, hrep]
    cases replaced <;> rfl

/-! ### The rows -/

/-- A row of FLT_INJ_CMD is a write of its op in its turn. -/
theorem State.injectRow_of_takes {s : State} {m : Master} {v : Word} {op : Nat} (h : s.Takes m pgFlt 0x120 (putBits v 7 0 op)) :
    s.injectRow m 0xF v op = ((s.noteOrder m pgFlt).writeInjCmd (putBits v 7 0 op) false).noteSince (s.noteOrder m pgFlt) := by
  rw [State.injectRow, State.gated_in_turn h]

/-- What arbitration notes of a write is neither a register, nor a byte, nor an injection. -/
theorem State.InjectsAs.of_noteOrder {s t : State} {m : Master} {p op utype : Nat} (h : (s.noteOrder m p).InjectsAs op utype t)
    (r : State) : s.InjectsAs op utype (t.noteSince r) := h

/-- A row that may arm an injection arms it, or is denied and leaves an armed one as it is. -/
theorem State.injectsAs_writeInjCmd (s : State) {op : Nat} (hop : armingOp op) (v : Word) :
    s.InjectsAs op (getBits v 15 8) (s.writeInjCmd (putBits v 7 0 op) false) := by
  obtain ⟨hlow, hhigh, hnine⟩ := hop
  by_cases h : s.mayArm op (getBits v 15 8)
  · rw [State.writeInjCmd_of_allowed ⟨hlow, hhigh⟩ v false h, if_neg hnine]
    obtain ⟨htype, hresult, hreplaced, hregs⟩ := State.injResult_frame
      { s with rel := { s.rel with inject := some (s.injectFor op (getBits v 15 8)) } } (result := 1) (op := op) (by decide) (by omega)
      s.rel.inject.isSome
    refine ⟨hregs, .of_mem rfl, rfl, htype, ?_⟩
    rw [if_pos h]
    refine ⟨rfl, hresult, ?_⟩
    rw [State.armed, hreplaced, ← Option.isSome_iff_ne_none]
  · rw [State.writeInjCmd_of_denied ⟨hlow, hhigh⟩ v false h]
    obtain ⟨htype, hresult, -, hregs⟩ := s.injResult_frame (result := 3) (op := op) (by decide) (by omega) false
    refine ⟨hregs, .of_mem rfl, rfl, htype, ?_⟩
    rw [if_neg h]
    exact ⟨rfl, hresult⟩

theorem exists_injectRow {s : State} {m : Master} {v : Word} {op : Nat} {c : Instr} (hop : armingOp op)
    (hc : exec c s = .next (s.injectRow m 0xF v op)) (h : s.Takes m pgFlt 0x120 (putBits v 7 0 op)) :
    ∃ t, exec c s = .next t ∧ s.InjectsAs op (getBits v 15 8) t := by
  refine ⟨_, hc, ?_⟩
  rw [State.injectRow_of_takes h]
  exact ((s.noteOrder m pgFlt).injectsAs_writeInjCmd hop v).of_noteOrder _

/-! ### LOCKSTEP -/

/-- What LOCKSTEP targets is not restricted (R597). -/
theorem State.injectionAllowed_lockstep (s : State) (utype p : Nat) : s.injectionAllowed (s.injectFor 9 utype) p = true := rfl

theorem exists_lockstep {s : State} {m : Master} {v : Word} (h : s.Takes m pgFlt 0x120 (putBits v 7 0 9))
    (henabled : s.bit Key.fltInjCtl 0 = true) :
    ∃ t, exec (.lockstep m 0xF v) s = .next t ∧ WroteAs ((s.latch pgRst 3 0).packageReset 6) t := by
  refine ⟨s.injectRow m 0xF v 9, rfl, ?_⟩
  rw [State.injectRow_of_takes h, State.writeInjCmd_of_allowed (s := s.noteOrder m pgFlt) (op := 9) (by decide) v false
    ⟨henabled, State.injectionAllowed_lockstep ..⟩, if_pos rfl, State.lockstepReset, ← State.noteOrder_latch]
  exact State.wroteAs_packageReset ..

/-- Settles O56: the rows that arm share one argument, LOCKSTEP is allowed whatever it targets. -/
theorem injections : Obligations.Injections := by
  unfold Obligations.Injections
  intro s m v
  exact ⟨exists_injectRow (by decide) rfl, exists_injectRow (by decide) rfl, exists_injectRow (by decide) rfl,
    exists_injectRow (by decide) rfl, exists_injectRow (by decide) rfl, exists_injectRow (by decide) rfl,
    exists_injectRow (by decide) rfl, exists_injectRow (by decide) rfl, exists_injectRow (by decide) rfl, exists_lockstep⟩

end Sys2Proof.Machine
end

section
/-! The device-event queue and the fault log (24 R596; 28 R663, R664, R666). -/

namespace Sys2Proof.Machine

open Host

theorem SameMemory.trans {s t u : State} (h : SameMemory s t) (h' : SameMemory t u) : SameMemory s u := fun a => (h' a).trans (h a)

/-! ### PCI_DEQ_HEAD -/

theorem exec_deqHead_of_takes {s : State} {m : Master} {v : Word} (h : s.Takes m pgPci 0x120 v) :
    exec (.deqHead m 0xF v) s = .next (((s.noteOrder m pgPci).writeDeqHead m v).noteSince (s.noteOrder m pgPci)) := by
  have hpage : exec (.deqHead m 0xF v) s = .next (s.writePage m pgPci 0x120 0xF v) := rfl
  rw [hpage, State.writePage_of_takes h, State.inTurn_eq_noteOrder h.inOrder]
  rfl

theorem fieldsOf_pciDeqHead : fieldsOf Key.pciDeqHead = [⟨15, 0, .rw, 0, .none⟩] := by decide +kernel

/-- The head is stored as written, whether the page is locked or not. -/
theorem State.fld_store_pciDeqHead {s : State} {m : Master} (v : Word) (hu : s.Uncontested m Key.pciDeqHead) :
    (s.store m pgPci 0x120 v).fld Key.pciDeqHead 15 0 = getBits v 15 0 := by
  obtain ⟨-, -, hreg, -⟩ := State.storeOn_frame hu (fieldsOf Key.pciDeqHead) pgPci 0x120 v
  have hstored : (s.store m pgPci 0x120 v).reg Key.pciDeqHead = putBits (s.reg Key.pciDeqHead) 15 0 (getBits v 15 0) := by
    refine hreg.trans ?_
    rw [fieldsOf_pciDeqHead]
    rfl
  rw [State.fld, hstored, getBits_putBits_same _ _ (by decide)]
  exact Nat.mod_eq_of_lt (getBits_lt v 15 0)

/-- The records that a head written as `x` releases, of a queue of `d` slots whose head is `head`. -/
abbrev released (x d head : Nat) : Nat := (x + d - head) % d

/-- A head within the queue that releases no more than what is used is stored, and its slots are free. -/
theorem State.writeDeqHead_of_valid {s : State} {m : Master} {v : Word} (hu : s.Uncontested m Key.pciDeqHead)
    (henabled : s.bit Key.pciDeqCfg 31 = true) (hrange : getBits v 15 0 < s.eqDepth 512)
    (hused : released (getBits v 15 0) (s.eqDepth 512) (s.fld Key.pciDeqHead 15 0) ≤ (s.eq 512).used) :
    s.writeDeqHead m v = (s.store m pgPci 0x120 v).setEq 512
      { s.eq 512 with
        used := (s.eq 512).used - released (getBits v 15 0) (s.eqDepth 512) (s.fld Key.pciDeqHead 15 0) } := by
  have hvalid : ¬(s.bit Key.pciDeqCfg 31 = false ∨ s.eqDepth 512 ≤ getBits v 15 0 ∨
      (s.eq 512).used < released (getBits v 15 0) (s.eqDepth 512) (s.fld Key.pciDeqHead 15 0)) := by
    rw [henabled, not_or, not_or]
    exact ⟨Bool.noConfusion, Nat.not_le.2 hrange, Nat.not_lt.2 hused⟩
  refine (if_neg hvalid).trans ?_
  rw [State.fld_store_pciDeqHead v hu]

/-! ### PCI_DEQ_CFG -/

theorem exec_deqEnable_of_takes {s : State} {m : Master} {v : Word} (h : s.Takes m pgPci 0x118 (v ||| 0x80000000)) :
    exec (.deqEnable m 0xF v) s =
      .next (((s.noteOrder m pgPci).writeDeqCfg m (v ||| 0x80000000)).noteSince (s.noteOrder m pgPci)) := by
  have hpage : exec (.deqEnable m 0xF v) s = .next (s.writePage m pgPci 0x118 0xF (v ||| 0x80000000)) := rfl
  rw [hpage, State.writePage_of_takes h, State.inTurn_eq_noteOrder h.inOrder]
  rfl

theorem fieldsOf_pciDeqCfg : fieldsOf Key.pciDeqCfg = [⟨31, 31, .rw, 0, .lower⟩, ⟨30, 30, .rw, 0, .none⟩, ⟨29, 29, .rw, 0, .none⟩,
    ⟨23, 16, .rw, 0, .none⟩, ⟨15, 12, .rw, 0, .none⟩, ⟨11, 0, .rw, 0, .none⟩] := by decide +kernel

/-- The enable bit and the size of PCI_DEQ_CFG are as written, whether the page is locked or not. -/
theorem getBits_wordWritten_pciDeqCfg (locked : Bool) (v w : Word) :
    getBits (wordWritten (fieldsOf Key.pciDeqCfg) locked v w) 31 31 = getBits v 31 31 ∧
      getBits (wordWritten (fieldsOf Key.pciDeqCfg) locked v w) 15 12 = getBits v 15 12 := by
  have hword : wordWritten (fieldsOf Key.pciDeqCfg) locked v w = putBits (putBits (putBits (putBits (putBits (putBits w 31 31
      (getBits v 31 31)) 30 30 (getBits v 30 30)) 29 29 (getBits v 29 29)) 23 16 (getBits v 23 16)) 15 12 (getBits v 15 12)) 11 0
      (getBits v 11 0) := by
    rw [fieldsOf_pciDeqCfg]
    rfl
  rw [hword]
  constructor
  · rw [getBits_putBits_ne _ _ (by decide) (by decide) (by decide), getBits_putBits_ne _ _ (by decide) (by decide) (by decide),
      getBits_putBits_ne _ _ (by decide) (by decide) (by decide), getBits_putBits_ne _ _ (by decide) (by decide) (by decide),
      getBits_putBits_ne _ _ (by decide) (by decide) (by decide), getBits_putBits_same _ _ (by decide)]
    exact Nat.mod_eq_of_lt (getBits_lt v 31 31)
  · rw [getBits_putBits_ne _ _ (by decide) (by decide) (by decide), getBits_putBits_same _ _ (by decide)]
    exact Nat.mod_eq_of_lt (getBits_lt v 15 12)

/-- Every field of a queue that is not enabled takes its write (04 R80). -/
theorem State.storeFields_of_disabled (s : State) (m : Master) (p off : Nat) (v : Word) :
    s.storeFields m p off v (cfgField false) = s.store m p off v := by
  have hall : (fieldsOf (regKey p off)).filter (cfgField false) = fieldsOf (regKey p off) :=
    List.filter_eq_self.2 fun f _ => by simp [cfgField]
  rw [State.storeFields, hall, State.store]

/-- The written word enables the queue. -/
theorem getBits_or_enable (v : Word) : getBits (v ||| 0x80000000) 31 31 = 1 ∧ getBits (v ||| 0x80000000) 15 12 = getBits v 15 12 :=
  ⟨getBits_or_bit v (c := 31) (by decide), by rw [getBits_or]; exact Nat.or_zero _⟩

/-- The device-event queue emptied: tail and head at 0, no record used. -/
def State.deqEmptied (s : State) : State :=
  ((s.setFld Key.pciDeqTail 15 0 0).setFld Key.pciDeqHead 15 0 0).setEq 512 {}

/-- An uncontested write that enables a queue of at least 32 records is stored as it stands. -/
theorem State.store_pciDeqCfg {s : State} {m : Master} {v : Word} (hu : s.Uncontested m Key.pciDeqCfg) :
    (s.store m pgPci 0x118 (v ||| 0x80000000)).bit Key.pciDeqCfg 31 = true ∧
      (s.store m pgPci 0x118 (v ||| 0x80000000)).fld Key.pciDeqCfg 15 12 = getBits v 15 12 := by
  obtain ⟨-, -, hreg, -⟩ := State.storeOn_frame hu (fieldsOf Key.pciDeqCfg) pgPci 0x118 (v ||| 0x80000000)
  obtain ⟨hbit, hsize⟩ := getBits_wordWritten_pciDeqCfg (s.locked pgPci) (v ||| 0x80000000) (s.reg Key.pciDeqCfg)
  obtain ⟨hone, hsame⟩ := getBits_or_enable v
  constructor
  · exact decide_eq_true ((congrArg (getBits · 31 31) hreg).trans (hbit.trans hone))
  · exact (congrArg (getBits · 15 12) hreg).trans (hsize.trans hsame)

theorem State.writeDeqCfg_of_enabling {s : State} {m : Master} {v : Word} (hu : s.Uncontested m Key.pciDeqCfg)
    (hoff : s.bit Key.pciDeqCfg 31 = false) (hsize : 5 ≤ getBits v 15 12) :
    s.writeDeqCfg m (v ||| 0x80000000) = (s.store m pgPci 0x118 (v ||| 0x80000000)).deqEmptied := by
  obtain ⟨hbit, hfld⟩ := State.store_pciDeqCfg (v := v) hu
  unfold State.writeDeqCfg
  dsimp only
  rw [hoff, State.storeFields_of_disabled, if_pos ⟨rfl, hbit⟩, if_neg (hfld ▸ Nat.not_lt.2 hsize)]
  rfl

@[simp] theorem State.deqEmptied_mem (s : State) : s.deqEmptied.mem = s.mem := rfl

theorem State.deqEmptied_frame (s : State) :
    s.deqEmptied.fld Key.pciDeqTail 15 0 = 0 ∧ s.deqEmptied.fld Key.pciDeqHead 15 0 = 0 ∧ (s.deqEmptied.eq 512).used = 0 ∧
      RegsBut [Key.pciDeqTail, Key.pciDeqHead] s s.deqEmptied := by
  have hsetEq : ∀ (t : State) (x : EqSt) (k : Nat), (t.setEq 512 x).reg k = t.reg k := fun _ _ _ => rfl
  unfold State.deqEmptied
  refine ⟨?_, ?_, ?_, fun k hk => ?_⟩
  · rw [State.fld_congr (hsetEq ..), State.fld_other _ _ _ _ _ _ (by decide), State.fld_setFld_same _ _ (by decide)]
    rfl
  · rw [State.fld_congr (hsetEq ..), State.fld_setFld_same _ _ (by decide)]
    rfl
  · rw [State.eq_setEq_same]
  · simp only [List.mem_cons, List.not_mem_nil, or_false, not_or] at hk
    obtain ⟨htail, hhead⟩ := hk
    rw [hsetEq, State.reg_setFld_ne _ _ _ _ hhead, State.reg_setFld_ne _ _ _ _ htail]

/-! ### The fault log (R596) -/

/-- The words of a log entry, written in their places. -/
def State.logEntry (s : State) (n : Nat) (ws : List Nat) : State :=
  ws.zipIdx.foldl (fun t w => t.setReg (Key.fltLog n w.2) (BitVec.ofNat 32 w.1)) s

/-- The page of a fault that still stands marked pending. -/
def State.markPending (s : State) (p : Nat) : State :=
  if s.reg (Key.fltLatch p) = 0 then s else s.setBit (Key.fltPend (p / 32)) (p % 32) true

/-- The four words of a log entry: cause and page, detail, and the time. -/
abbrev logWords (p c detail time : Nat) : List Nat := [c * 2 ^ 27 + p, detail, time % 2 ^ 32, time / 2 ^ 32]

/-- The place of the next entry of the log. -/
def State.setLogNext (s : State) (n : Nat) : State := { s with rel := { s.rel with logNext := n } }

@[simp] theorem State.reg_setLogNext (s : State) (n k : Nat) : (s.setLogNext n).reg k = s.reg k := rfl
@[simp] theorem State.setLogNext_mem (s : State) (n : Nat) : (s.setLogNext n).mem = s.mem := rfl
@[simp] theorem State.setLogNext_rel (s : State) (n : Nat) : (s.setLogNext n).rel = { s.rel with logNext := n } := rfl

/-- The entry of a fault in the log, and the next entry's place. -/
def State.logged (s : State) (p c detail time : Nat) : State :=
  ((s.markPending p).logEntry s.rel.logNext (logWords p c detail time)).setLogNext ((s.rel.logNext + 1) % 64)

theorem State.aggregate_eq (s : State) (p c detail time : Nat) :
    s.aggregate (p, c, detail, time) = ((s.logged p c detail time).copyEvent (logWords p c detail time)).irq pgFlt 2 := rfl

theorem exec_faultAggregate_of_one {s : State} {e : Nat × Nat × Nat × Nat} (h : s.rel.fresh = [e]) :
    exec .faultAggregate s = .next (State.aggregate { s with rel := { s.rel with fresh := [] } } e) := by
  have hfold : exec .faultAggregate s = .next (s.rel.fresh.foldl State.aggregate { s with rel := { s.rel with fresh := [] } }) := rfl
  rw [hfold, h]
  rfl

theorem State.markPending_frame (s : State) (p : Nat) :
    (s.reg (Key.fltLatch p) ≠ 0 → (s.markPending p).bit (Key.fltPend (p / 32)) (p % 32) = true) ∧
      RegsBut [Key.fltPend (p / 32)] s (s.markPending p) ∧ (s.markPending p).mem = s.mem ∧ (s.markPending p).rel = s.rel := by
  unfold State.markPending
  split
  case isTrue hnone => exact ⟨fun h => absurd hnone h, fun _ _ => rfl, rfl, rfl⟩
  case isFalse hsome =>
    exact ⟨fun _ => s.bit_setBit_same true (Nat.mod_lt p (by decide)), fun k hk => s.reg_setBit_ne _ _ (List.mem_singleton.not.1 hk),
      rfl, rfl⟩

theorem fltLog_ne (n : Nat) {i j : Nat} (h : i ≠ j) : Key.fltLog n i ≠ Key.fltLog n j := by
  simp only [Key.fltLog, regKey]
  omega

/-- The registers of a log entry. -/
abbrev logKeys (n : Nat) : List Nat := [Key.fltLog n 0, Key.fltLog n 1, Key.fltLog n 2, Key.fltLog n 3]

theorem State.logEntry_frame (s : State) (n a b c d : Nat) :
    (s.logEntry n [a, b, c, d]).reg (Key.fltLog n 0) = BitVec.ofNat 32 a ∧
      (s.logEntry n [a, b, c, d]).reg (Key.fltLog n 1) = BitVec.ofNat 32 b ∧
      RegsBut (logKeys n) s (s.logEntry n [a, b, c, d]) ∧ (s.logEntry n [a, b, c, d]).mem = s.mem ∧
      (s.logEntry n [a, b, c, d]).rel = s.rel := by
  have hentry : s.logEntry n [a, b, c, d] = (((s.setReg (Key.fltLog n 0) (BitVec.ofNat 32 a)).setReg (Key.fltLog n 1)
    (BitVec.ofNat 32 b)).setReg (Key.fltLog n 2) (BitVec.ofNat 32 c)).setReg (Key.fltLog n 3) (BitVec.ofNat 32 d) := rfl
  rw [hentry]
  refine ⟨?_, ?_, fun k hk => ?_, rfl, rfl⟩
  · rw [State.reg_setReg_ne _ _ (fltLog_ne n (by decide)), State.reg_setReg_ne _ _ (fltLog_ne n (by decide)),
      State.reg_setReg_ne _ _ (fltLog_ne n (by decide)), State.reg_setReg_same]
  · rw [State.reg_setReg_ne _ _ (fltLog_ne n (by decide)), State.reg_setReg_ne _ _ (fltLog_ne n (by decide)), State.reg_setReg_same]
  · simp only [List.mem_cons, List.not_mem_nil, or_false, not_or] at hk
    obtain ⟨h0, h1, h2, h3⟩ := hk
    rw [State.reg_setReg_ne _ _ h3, State.reg_setReg_ne _ _ h2, State.reg_setReg_ne _ _ h1, State.reg_setReg_ne _ _ h0]

/-! ### The copy in the device-event queue (28 R663, R664) -/

theorem State.copyEvent_of_disabled {s : State} (h : s.bit Key.pciDeqCfg 31 = false) (ws : List Nat) : s.copyEvent ws = s := if_pos h

theorem State.moderate_frame (s : State) (q : Nat) (completion : Bool) :
    (s.moderate q completion).regs = s.regs ∧ (s.moderate q completion).mem = s.mem ∧ (s.moderate q completion).rel = s.rel := by
  unfold State.moderate
  dsimp only
  split
  · exact ⟨State.signal_regs .., State.signal_mem .., State.signal_rel ..⟩
  · exact ⟨rfl, rfl, rfl⟩

/-- A copy moves the tail of the queue, or counts as lost. -/
theorem State.copyEvent_frame (s : State) (ws : List Nat) :
    RegsBut [Key.pciDeqTail, Key.pciDeqLostCnt] s (s.copyEvent ws) ∧ (s.copyEvent ws).mem = s.mem ∧ (s.copyEvent ws).rel = s.rel := by
  unfold State.copyEvent
  split
  case isTrue => exact ⟨fun _ _ => rfl, rfl, rfl⟩
  case isFalse =>
    split
    case isTrue =>
      exact ⟨fun k hk => s.reg_setReg_ne _ fun h => hk (h ▸ List.mem_cons_of_mem _ List.mem_cons_self), rfl, rfl⟩
    case isFalse =>
      dsimp only
      generalize hout : (((s.eqSlot 512).2.2).emit _) = u
      obtain ⟨hregs, hmem, hrel⟩ := u.moderate_frame 512 false
      subst hout
      refine ⟨fun k hk => (State.reg_congr hregs k).trans ?_, hmem.trans rfl, hrel.trans rfl⟩
      exact s.reg_setFld_ne _ _ _ fun h => hk (h ▸ List.mem_cons_self)

/-! ### A fault aggregated -/

theorem State.setIrq_rel_irq (s : State) (p b : Nat) : (s.irq p b).rel = s.rel := by
  unfold State.irq State.setIrq
  dsimp only
  split
  · exact State.noteOld_rel ..
  · split
    · exact (State.signal_rel ..).trans (State.noteOld_rel ..)
    · exact State.noteOld_rel ..

/-- The pending bits of the pages are no part of the log. -/
theorem fltPend_not_mem_logKeys {p : Nat} (hp : p < 0x1E0) (n : Nat) : Key.fltPend (p / 32) ∉ logKeys n := by
  simp only [List.mem_cons, List.not_mem_nil, or_false, not_or, Key.fltPend, Key.fltLog, regKey]
  omega

theorem State.logged_frame (s : State) {p : Nat} (hp : p < 0x1E0) (c detail time : Nat) :
    (s.logged p c detail time).reg (Key.fltLog s.rel.logNext 0) = BitVec.ofNat 32 (c * 2 ^ 27 + p) ∧
      (s.logged p c detail time).reg (Key.fltLog s.rel.logNext 1) = BitVec.ofNat 32 detail ∧
      (s.reg (Key.fltLatch p) ≠ 0 → (s.logged p c detail time).bit (Key.fltPend (p / 32)) (p % 32) = true) ∧
      RegsBut (Key.fltPend (p / 32) :: logKeys s.rel.logNext) s (s.logged p c detail time) ∧
      (s.logged p c detail time).mem = s.mem ∧
      (s.logged p c detail time).rel = { s.rel with logNext := (s.rel.logNext + 1) % 64 } := by
  obtain ⟨hbit, hpend, hpendmem, hpendrel⟩ := s.markPending_frame p
  obtain ⟨hfirst, hsecond, hlog, hlogmem, hlogrel⟩ := (s.markPending p).logEntry_frame s.rel.logNext (c * 2 ^ 27 + p) detail
    (time % 2 ^ 32) (time / 2 ^ 32)
  have hreg : ∀ k, (s.logged p c detail time).reg k =
      ((s.markPending p).logEntry s.rel.logNext (logWords p c detail time)).reg k := fun k => State.reg_setLogNext ..
  refine ⟨(hreg _).trans hfirst, (hreg _).trans hsecond, fun h => ?_, fun k hk => (hreg k).trans ((hpend.trans hlog) k hk), ?_, ?_⟩
  · exact (State.bit_congr ((hreg _).trans (hlog _ (fltPend_not_mem_logKeys hp _))) _).trans (hbit h)
  · rw [State.logged, State.setLogNext_mem, hlogmem, hpendmem]
  · rw [State.logged, State.setLogNext_rel, hlogrel, hpendrel]

/-- With the device-event queue disabled, its copy leaves the log. An entry numbered 722, of which there is none, would have its second
word at PCI_DEQ_LOST_CNT; PCI_DEQ_CFG is then none of its words, and nothing is copied. -/
theorem State.reg_copyEvent_logged {s : State} {p : Nat} (hp : p < 0x1E0) (c detail time : Nat)
    (hoff : s.bit Key.pciDeqCfg 31 = false) {k : Nat}
    (hk : k ∈ [Key.fltLog s.rel.logNext 0, Key.fltLog s.rel.logNext 1, Key.fltPend (p / 32)]) (ws : List Nat) :
    ((s.logged p c detail time).copyEvent ws).reg k = (s.logged p c detail time).reg k := by
  obtain ⟨-, -, -, hregs, -, -⟩ := s.logged_frame hp c detail time
  generalize s.rel.logNext = n at hk hregs
  by_cases hn : n = 722
  · have hcfg : Key.pciDeqCfg ∉ Key.fltPend (p / 32) :: logKeys n := by
      simp only [List.mem_cons, List.not_mem_nil, or_false, not_or, Key.fltPend, Key.fltLog, Key.pciDeqCfg, regKey]
      omega
    rw [State.copyEvent_of_disabled ((State.bit_congr (hregs _ hcfg) 31).trans hoff)]
  · obtain ⟨hcopy, -, -⟩ := (s.logged p c detail time).copyEvent_frame ws
    refine hcopy k ?_
    simp only [List.mem_cons, List.not_mem_nil, or_false, not_or, Key.fltPend, Key.fltLog, Key.pciDeqTail, Key.pciDeqLostCnt,
      regKey] at hk ⊢
    omega

theorem State.aggregate_frame {s : State} {p : Nat} (hp : p < 0x1E0) (c detail time : Nat) (hoff : s.bit Key.pciDeqCfg 31 = false) :
    let t := s.aggregate (p, c, detail, time)
    t.rel = { s.rel with logNext := (s.rel.logNext + 1) % 64 } ∧
      t.reg (Key.fltLog s.rel.logNext 0) = BitVec.ofNat 32 (c * 2 ^ 27 + p) ∧
      t.reg (Key.fltLog s.rel.logNext 1) = BitVec.ofNat 32 detail ∧
      (s.reg (Key.fltLatch p) ≠ 0 → t.bit (Key.fltPend (p / 32)) (p % 32) = true) ∧ t.bit (Key.irqStat pgFlt) 2 = true ∧
      SameMemory s t := by
  intro t
  obtain ⟨hfirst, hsecond, hpend, -, hmem, hrel⟩ := s.logged_frame hp c detail time
  obtain ⟨-, hcopymem, hcopyrel⟩ := (s.logged p c detail time).copyEvent_frame (logWords p c detail time)
  have hreg : ∀ k ∈ [Key.fltLog s.rel.logNext 0, Key.fltLog s.rel.logNext 1, Key.fltPend (p / 32)],
      t.reg k = (s.logged p c detail time).reg k := fun k hk => by
    refine (State.reg_irq_ne _ _ _ ?_).trans (State.reg_copyEvent_logged hp c detail time hoff hk _)
    simp only [List.mem_cons, List.not_mem_nil, or_false, Key.fltPend, Key.fltLog, Key.irqStat, regKey, pgFlt] at hk ⊢
    omega
  have hrelt : t.rel = ((s.logged p c detail time).copyEvent (logWords p c detail time)).rel := State.setIrq_rel_irq ..
  refine ⟨hrelt.trans (hcopyrel.trans hrel), ?_, ?_, fun h => ?_, State.bit_irq _ _ (by decide), .of_mem ?_⟩
  · exact (hreg _ List.mem_cons_self).trans hfirst
  · exact (hreg _ (List.mem_cons_of_mem _ List.mem_cons_self)).trans hsecond
  · exact (State.bit_congr (hreg _ (List.mem_cons_of_mem _ (List.mem_cons_of_mem _ List.mem_cons_self))) _).trans (hpend h)
  · exact (State.setIrq_mem ..).trans (hcopymem.trans hmem)

/-- Settles O15: the head by its store, an enabling write by the queue that it empties, and a fault by its entry in the log, which the
copy in a disabled queue leaves. -/
theorem deviceEventQueue : Obligations.DeviceEventQueue := by
  unfold Obligations.DeviceEventQueue
  refine ⟨?_, ?_, ?_⟩
  · intro s m v htakes hu henabled hrange hused
    set u := s.noteOrder m pgPci
    obtain ⟨hregs, hmem, -, -⟩ := State.storeOn_frame (s := u) hu (fieldsOf Key.pciDeqHead) pgPci 0x120 v
    refine ⟨_, exec_deqHead_of_takes htakes, ?_⟩
    rw [State.writeDeqHead_of_valid (s := u) hu henabled hrange hused]
    exact ⟨State.fld_store_pciDeqHead (s := u) v hu, congrArg EqSt.used (State.eq_setEq_same ..), hregs, hmem⟩
  · intro s m v htakes hu hoff hsize
    set u := s.noteOrder m pgPci
    obtain ⟨hregs, hmem, -, -⟩ := State.storeOn_frame (s := u) hu (fieldsOf Key.pciDeqCfg) pgPci 0x118 (v ||| 0x80000000)
    obtain ⟨hbit, hfld⟩ := State.store_pciDeqCfg (s := u) (v := v) hu
    refine ⟨_, exec_deqEnable_of_takes htakes, ?_⟩
    rw [State.writeDeqCfg_of_enabling (s := u) hu hoff hsize]
    obtain ⟨htail, hhead, hnone, hempty⟩ := (u.store m pgPci 0x118 (v ||| 0x80000000)).deqEmptied_frame
    have hcfg := hempty Key.pciDeqCfg (by decide)
    replace hbit := (State.bit_congr hcfg 31).trans hbit
    replace hfld := (State.fld_congr hcfg 15 12).trans hfld
    replace hregs := hregs.trans hempty
    replace hmem := hmem.trans (.of_mem (State.deqEmptied_mem (u.store m pgPci 0x118 (v ||| 0x80000000))))
    generalize (u.store m pgPci 0x118 (v ||| 0x80000000)).deqEmptied = w at hbit hfld htail hhead hnone hregs hmem
    exact ⟨hbit, hfld, htail, hhead, hnone, hregs, hmem⟩
  · intro s p c detail time hfresh hp hoff
    obtain ⟨hrel, hfirst, hsecond, hpend, hirq, hmem⟩ := State.aggregate_frame
      (s := { s with rel := { s.rel with fresh := [] } }) hp c detail time hoff
    exact ⟨_, exec_faultAggregate_of_one hfresh, congrArg Rel.fresh hrel, congrArg Rel.logNext hrel, hfirst, hsecond, hpend, hirq, hmem⟩

end Sys2Proof.Machine
end

section
/-! A dedicated Clew whose next self-test is registered as an event while the Clew waits idle for a later one (23 R567; 24 R587). -/

namespace Sys2Proof.Machine

/-- The idle state of Clew 0: in I1, its exit planned for a count of 1,000,000,000. -/
def clewAsleep : IdleSt := ⟨.clew 0, 1, 0, some 1000000000, none⟩

/-- A package that is ready, Clew 0 in service, dedicated to the sealed partition 0, and idle. -/
def dedicatedClewIdle : State :=
  { regs := [(Key.rstStat, 0x80000100), (Key.clwStat 0, 0x80000000)]
    parts := [(0, { held := { valid := true, isSealed := true, clw := 1 } })]
    power := { idle := [clewAsleep] } }

/-- The same once its self-test is counted. -/
def clewTestCounted : State := dedicatedClewIdle.inc Key.fltSelftestCnt

/-- An event of Clew 0's test, registered first. -/
def clewTestEvent (target : Nat) : TtlEvent := ⟨target, .test 0, [0], clewTestCounted.tick⟩

/-- The next test is due within 40 ms, whatever its phase. -/
theorem State.testDue_lt (s : State) (i : Nat) : s.testDue i < s.time.count.toNat + 1 + 4000000 :=
  Nat.add_lt_add_left (Nat.mod_lt _ (by decide)) _

theorem testDue_clewTestCounted : clewTestCounted.testDue 0 < 1000000000 :=
  (clewTestCounted.testDue_lt 0).trans (by decide +kernel)

@[simp] theorem State.ttlRegister_parts (s : State) (target : Nat) (client : TtlClient) (dies : List Nat) :
    (s.ttlRegister target client dies).parts = s.parts := by
  unfold State.ttlRegister
  split <;> rfl

theorem State.holder_congr {s t : State} (h : t.parts = s.parts) (u : UnitId) : t.holder u = s.holder u := by
  simp only [State.holder, State.part_congr h]

theorem holder_clewTestCounted : clewTestCounted.holder ⟨utClew, 0, 0⟩ = some 0 := by decide +kernel

theorem counts_clewTestEvent (target : Nat) :
    (clewTestCounted.ttlRegister target (.test 0) [0]).counts (.clew 0) (clewTestEvent target) = true := by
  have hholder : (clewTestCounted.ttlRegister target (.test 0) [0]).holder ⟨utClew, 0, 0⟩ = some 0 :=
    (State.holder_congr (State.ttlRegister_parts ..) _).trans holder_clewTestCounted
  simp [State.counts, State.domainHolder, clewTestEvent, domainDies, hholder]

/-- The event comes before the planned exit, which begins at once and counts as late (R567). -/
theorem wakeLate_scheduleEvent {target : Nat} (h : target < 1000000000) :
    (clewTestCounted.scheduleEvent target (.test 0) [0]).reg Key.pwrWakeLateCnt = 1 := by
  set u := clewTestCounted.ttlRegister target (.test 0) [0]
  have hcounts : ¬(clewAsleep.ready ≠ none ∨ u.counts clewAsleep.dom (clewTestEvent target) = false) := by
    have htrue : u.counts clewAsleep.dom (clewTestEvent target) = true := counts_clewTestEvent target
    rw [not_or, htrue]
    exact ⟨not_not_intro rfl, Bool.noConfusion⟩
  have hmeets : State.meetEvent (clewTestEvent target) u clewAsleep = (u.beginExit clewAsleep).inc Key.pwrWakeLateCnt :=
    (if_neg hcounts).trans (if_pos h)
  have hschedule : clewTestCounted.scheduleEvent target (.test 0) [0] = State.meetEvent (clewTestEvent target) u clewAsleep := rfl
  rw [hschedule, hmeets, State.inc, State.reg_setReg_same]
  rfl

theorem holder_dedicatedClewIdle : dedicatedClewIdle.holder ⟨3, 0, 0⟩ = some 0 := by decide +kernel

/-- The test of a dedicated Clew that may start and passes: it is counted, and its next one is registered as an event (R587). -/
theorem exec_selftest_of_dedicated {s : State} {i : Nat} (hunit : selftestUnit ⟨3, i, 0⟩ = true) (hready : s.ready = true)
    (hservice : s.inService ⟨3, i, 0⟩ = true) (hcovered : s.covered ⟨3, i, 0⟩ = true) (htime : s.testTime ⟨3, i, 0⟩ = true)
    (hnone : s.rel.inject = none) (hheld : (s.holder ⟨3, i, 0⟩).isSome = true) :
    ∃ t, exec (.selftest ⟨3, i, 0⟩ true) s = .next t ∧ t.regs = ((s.inc Key.fltSelftestCnt).planTest i).regs := by
  have hinject : ∀ f, s.injHits 7 f = false := fun f => by rw [State.injHits, hnone]
  have hrow : exec (.selftest ⟨3, i, 0⟩ true) s = execSelftest ⟨3, i, 0⟩ true s := rfl
  rw [hrow, execSelftest]
  simp only [unitBase, hunit, hready, hservice, hcovered, htime, hheld, hinject, Bool.true_eq_false, or_self, if_false, and_self,
    if_true, Bool.not_false, Bool.and_true, Bool.false_eq_true]
  exact ⟨_, rfl, rfl⟩

/-- Refutes O55: its clause of a passed self-test says that FLT_SELFTEST_CNT alone changes, but its conditions do not shut out a Clew that a
sealed partition holds. The next test of `dedicatedClewIdle`'s is registered as an event before the exit that the Clew has planned, and
PWR_WAKE_LATE_CNT counts it. -/
theorem not_selfTests : ¬ Obligations.SelfTests := by
  unfold Obligations.SelfTests
  rintro ⟨htest, -⟩
  have hready : dedicatedClewIdle.ready = true := by decide +kernel
  have hservice : dedicatedClewIdle.inService ⟨3, 0, 0⟩ = true := by decide +kernel
  have hcovered : dedicatedClewIdle.covered ⟨3, 0, 0⟩ = true := by decide +kernel
  have htime : dedicatedClewIdle.testTime ⟨3, 0, 0⟩ = true := by decide +kernel
  obtain ⟨t, hexec, -, -, -, hregs, -⟩ := htest dedicatedClewIdle ⟨3, 0, 0⟩ (by decide) hready hservice hcovered htime rfl
  obtain ⟨u, hplanned, hu⟩ := exec_selftest_of_dedicated (i := 0) (by decide) hready hservice hcovered htime rfl
    (by rw [holder_dedicatedClewIdle]; rfl)
  have ht : u = t := Host.Outcome.next.inj (hplanned.symm.trans hexec)
  have hlate : t.reg Key.pwrWakeLateCnt = 1 :=
    (State.reg_congr (ht ▸ hu) _).trans (wakeLate_scheduleEvent testDue_clewTestCounted)
  exact absurd (hlate.symm.trans (hregs Key.pwrWakeLateCnt (by decide))) (by decide +kernel)

end Sys2Proof.Machine
end

section
/-! The rig check: bundles held and classed, coordinates and plans taken, and reach (19 R461, R462, R469, R471 to R474, R486). -/

namespace Sys2Proof.Machine

open Host

/-! ### Bundles held -/

/-- `t` is `s` after changes that touch of the registers only the states of bundles, and neither memory, nor what was given outside, nor
the plan, nor what the rig check has classed. -/
structure State.BundlesOnly (s t : State) : Prop where
  regs : ∀ k, (∀ b < 12, k ≠ Key.lnkStat b) → t.reg k = s.reg k
  mem : t.mem = s.mem
  out : t.out = s.out
  plan : t.top.plan = s.top.plan

namespace State.BundlesOnly

variable {s t u : State}

theorem refl (s : State) : s.BundlesOnly s := ⟨fun _ _ => rfl, rfl, rfl, rfl⟩

theorem trans (h : s.BundlesOnly t) (h' : t.BundlesOnly u) : s.BundlesOnly u :=
  ⟨fun k hk => (h'.regs k hk).trans (h.regs k hk), h'.mem.trans h.mem, h'.out.trans h.out, h'.plan.trans h.plan⟩

theorem foldl {f : State → Nat → State} {l : List Nat} (hf : ∀ (t : State), ∀ b ∈ l, t.BundlesOnly (f t b)) (s : State) :
    s.BundlesOnly (l.foldl f s) :=
  List.foldlRecOn l _ (refl s) fun t ht b hb => ht.trans (hf t b hb)

end State.BundlesOnly

theorem lnkStat_ne_lnkStat {b c : Nat} (h : b ≠ c) : Key.lnkStat b ≠ Key.lnkStat c := by
  simp only [Key.lnkStat, regKey]
  omega

/-- A bundle that is no longer admitted: it is neither admitted nor has it sent RIG_OK. -/
def State.withoutAdmission (s : State) (b : Nat) : State :=
  { s with top := { s.top with
    admitted := s.top.admitted.filter fun c => decide (c ≠ b), rigSent := s.top.rigSent.filter fun c => decide (c ≠ b) } }

theorem State.holdBundle_eq (s : State) (b : Nat) : s.holdBundle b =
    if s.bundleState b = bsUp then (s.withoutAdmission b).setFld (Key.lnkStat b) 31 29 bsHeld else s.withoutAdmission b := rfl

@[simp] theorem State.reg_withoutAdmission (s : State) (b k : Nat) : (s.withoutAdmission b).reg k = s.reg k := rfl

theorem State.reg_holdBundle_ne (s : State) (b : Nat) {k : Nat} (h : k ≠ Key.lnkStat b) : (s.holdBundle b).reg k = s.reg k := by
  rw [State.holdBundle_eq]
  split
  · rw [State.reg_setFld_ne _ _ _ _ h, State.reg_withoutAdmission]
  · rfl

theorem State.bundlesOnly_holdBundle (s : State) {b : Nat} (hb : b < 12) : s.BundlesOnly (s.holdBundle b) where
  regs k hk := s.reg_holdBundle_ne b (hk b hb)
  mem := by rw [State.holdBundle_eq]; split <;> rfl
  out := by rw [State.holdBundle_eq]; split <;> rfl
  plan := by rw [State.holdBundle_eq]; split <;> rfl

theorem State.holdBundle_top (s : State) (b : Nat) :
    b ∉ (s.holdBundle b).top.admitted ∧ (s.holdBundle b).top.classed = s.top.classed := by
  have hgone : b ∉ (s.withoutAdmission b).top.admitted := fun h => by
    simpa using List.of_mem_filter h
  rw [State.holdBundle_eq]
  split
  · exact ⟨hgone, rfl⟩
  · exact ⟨hgone, rfl⟩

/-- A bundle held is not UP, and no other comes UP with it. -/
theorem State.bundleState_holdBundle_same (s : State) (b : Nat) : (s.holdBundle b).bundleState b ≠ bsUp := by
  rw [State.holdBundle_eq]
  split
  · rw [State.bundleState_setFld _ _ (by decide)]
    decide
  · assumption

theorem State.bundleState_holdBundle_ne (s : State) {b c : Nat} (h : c ≠ b) : (s.holdBundle b).bundleState c = s.bundleState c :=
  State.bundleState_congr (s.reg_holdBundle_ne b (lnkStat_ne_lnkStat h))

theorem State.foldl_holdBundle_notUp {l : List Nat} {b : Nat} (s : State) (h : b ∈ l ∨ s.bundleState b ≠ bsUp) :
    (l.foldl State.holdBundle s).bundleState b ≠ bsUp := by
  induction l generalizing s with
  | nil => exact h.resolve_left List.not_mem_nil
  | cons c l ih =>
    refine ih _ ?_
    by_cases hbc : b = c
    · exact .inr (hbc ▸ s.bundleState_holdBundle_same b)
    · rw [State.bundleState_holdBundle_ne _ hbc]
      exact h.imp_left fun hmem => (List.mem_cons.1 hmem).resolve_left hbc

/-! ### The check begins again (R471) -/

theorem topPage_ne_lnkStat {off b : Nat} (ho : off < 0x1000) (hb : b < 12) : regKey 0x1DC off ≠ Key.lnkStat b := by
  simp only [Key.lnkStat, regKey]
  omega

theorem State.rigAgain_frame (s : State) :
    s.rigAgain.top.classed = [] ∧ s.rigAgain.bit Key.topRigStat 31 = false ∧ RegsBut [Key.topRigStat] s s.rigAgain ∧
      s.rigAgain.mem = s.mem ∧ s.rigAgain.out = s.out ∧ s.rigAgain.top.plan = s.top.plan :=
  ⟨rfl, s.bit_setBit_same false (by decide), fun k hk => s.reg_setBit_ne _ _ (List.mem_singleton.not.1 hk), rfl, rfl, rfl⟩

/-! ### Coordinates (R461, R462) -/

theorem exec_topCoordWrite_of_takes {s : State} {m : Master} {v : Word} (h : s.Takes m pgTop 0x100 v) :
    exec (.topCoordWrite m 0xF v) s = .next (((s.noteOrder m pgTop).writeTopCoord m v).noteSince (s.noteOrder m pgTop)) :=
  congrArg Outcome.next (State.gated_in_turn h _)

theorem fieldsOf_topCoord : fieldsOf Key.topCoord = [⟨31, 31, .rw, 0, .none⟩, ⟨15, 0, .rw, 0xFFFF, .none⟩] := by decide +kernel

/-- TOP_COORD holds the valid bit and the coordinates written. -/
theorem State.store_topCoord {s : State} {m : Master} (v : Word) (hu : s.Uncontested m Key.topCoord) :
    (s.store m pgTop 0x100 v).fld Key.topCoord 15 0 = getBits v 15 0 ∧
      (s.store m pgTop 0x100 v).bit Key.topCoord 31 = v.toNat.testBit 31 := by
  obtain ⟨-, -, hreg, -⟩ := State.storeOn_frame hu (fieldsOf Key.topCoord) pgTop 0x100 v
  have hstored : (s.store m pgTop 0x100 v).reg Key.topCoord =
      putBits (putBits (s.reg Key.topCoord) 31 31 (getBits v 31 31)) 15 0 (getBits v 15 0) := by
    refine hreg.trans ?_
    rw [fieldsOf_topCoord]
    rfl
  constructor
  · rw [State.fld, hstored, getBits_putBits_same _ _ (by decide)]
    exact Nat.mod_eq_of_lt (getBits_lt v 15 0)
  · rw [State.bit, State.fld, hstored, getBits_putBits_ne _ _ (by decide) (by decide) (by decide), getBits_putBits_same _ _ (by decide)]
    rw [getBits, bitsOf, Nat.testBit_eq_decide_div_mod_eq]
    simp [Nat.testBit_eq_decide_div_mod_eq]

/-- Coordinates in range, of a package whose partitions and spare are at rest, are taken. -/
theorem State.writeTopCoord_of_idle {s : State} {v : Word} (hgroup : getBits v 15 8 ≤ 63) (hslot : getBits v 7 0 ≤ 33)
    (hidle : ∀ p ∈ allParts, s.pstate p ≤ psConfig) (hspare : s.fld Key.jryStat 31 29 ≤ 1) (m : Master) :
    s.writeTopCoord m v = (allBundles.foldl State.holdBundle (s.store m pgTop 0x100 v)).rigAgain :=
  if_pos ⟨hgroup, hslot, List.all_eq_true.2 fun p hp => decide_eq_true (hidle p hp), hspare⟩

theorem State.writeTopCoord_of_group {v : Word} (h : 63 < getBits v 15 8) (s : State) (m : Master) : s.writeTopCoord m v = s :=
  if_neg fun hvalid => absurd hvalid.1 (Nat.not_le.2 h)

theorem State.writeTopCoord_frame {s : State} {m : Master} {v : Word} (hu : s.Uncontested m Key.topCoord) {t : State}
    (ht : t = (allBundles.foldl State.holdBundle (s.store m pgTop 0x100 v)).rigAgain) :
    t.fld Key.topCoord 15 0 = getBits v 15 0 ∧ t.bit Key.topCoord 31 = v.toNat.testBit 31 ∧ t.top.classed = [] ∧
      t.bit Key.topRigStat 31 = false ∧ (∀ b, b < 12 → t.bundleState b ≠ bsUp) ∧ SameMemory s t ∧ t.out = s.out := by
  obtain ⟨-, hmem, -, hout⟩ := State.storeOn_frame hu (fieldsOf Key.topCoord) pgTop 0x100 v
  obtain ⟨hcoords, hvalid⟩ := State.store_topCoord v hu
  have hheld : (s.store m pgTop 0x100 v).BundlesOnly (allBundles.foldl State.holdBundle (s.store m pgTop 0x100 v)) :=
    .foldl (fun t b hb => t.bundlesOnly_holdBundle (List.mem_range.1 hb)) _
  have hnone : ∀ b, b < 12 → (allBundles.foldl State.holdBundle (s.store m pgTop 0x100 v)).bundleState b ≠ bsUp := fun b hb =>
    State.foldl_holdBundle_notUp _ (.inl (List.mem_range.2 hb))
  generalize allBundles.foldl State.holdBundle (s.store m pgTop 0x100 v) = u at ht hheld hnone
  subst ht
  obtain ⟨hclassed, hdone, hregs, hagainmem, hagainout, -⟩ := u.rigAgain_frame
  have hcoord : u.rigAgain.reg Key.topCoord = (s.store m pgTop 0x100 v).reg Key.topCoord :=
    (hregs _ (by decide)).trans (hheld.regs _ fun b hb => topPage_ne_lnkStat (by decide) hb)
  refine ⟨(State.fld_congr hcoord 15 0).trans hcoords, (State.bit_congr hcoord 31).trans hvalid, hclassed, hdone, fun b hb => ?_, ?_, ?_⟩
  · rw [State.bundleState_congr (hregs _ (List.mem_singleton.not.2 (topPage_ne_lnkStat (by decide) hb).symm))]
    exact hnone b hb
  · exact SameMemory.trans hmem (.of_mem (hagainmem.trans hheld.mem))
  · exact hagainout.trans (hheld.out.trans hout)

/-! ### LOAD and CHECK (R471, R474) -/

theorem exec_load_of_takes {s : State} {m : Master} (h : s.Takes m pgTop 0x104 1) :
    exec (.load m 0xF) s = .next ((s.noteOrder m pgTop).rigLoad.noteSince (s.noteOrder m pgTop)) :=
  congrArg Outcome.next (State.gated_in_turn h _)

theorem exec_check_of_takes {s : State} {m : Master} (h : s.Takes m pgTop 0x104 2) :
    exec (.check m 0xF) s = .next ((s.noteOrder m pgTop).rigAgain.noteSince (s.noteOrder m pgTop)) :=
  congrArg Outcome.next (State.gated_in_turn h _)

/-- The entries of TOP_PLAN made the plan. -/
def State.planTaken (s : State) : State :=
  { s with top := { s.top with plan := some (allBundles.map fun b => s.reg (Key.topPlan b)) } }

/-- An admitted bundle that the plan of `s` still matches stays in service. -/
def State.holdUnlessMatch (s t : State) (b : Nat) : State :=
  if b ∈ t.top.admitted ∧ (s.rigClass b).1 = 0 then t else t.holdBundle b

theorem State.rigLoad_eq (s : State) : s.rigLoad = (allBundles.foldl s.planTaken.holdUnlessMatch s.planTaken).rigAgain := rfl

theorem State.bundlesOnly_holdUnlessMatch (s t : State) {b : Nat} (hb : b < 12) : t.BundlesOnly (s.holdUnlessMatch t b) := by
  unfold State.holdUnlessMatch
  split
  · exact .refl t
  · exact t.bundlesOnly_holdBundle hb

theorem State.rigLoad_frame (s : State) :
    s.rigLoad.top.plan = some (allBundles.map fun b => s.reg (Key.topPlan b)) ∧ s.rigLoad.top.classed = [] ∧
      s.rigLoad.bit Key.topRigStat 31 = false ∧ s.rigLoad.mem = s.mem ∧ s.rigLoad.out = s.out := by
  rw [State.rigLoad_eq]
  have hheld : s.planTaken.BundlesOnly (allBundles.foldl s.planTaken.holdUnlessMatch s.planTaken) :=
    .foldl (fun t b hb => s.planTaken.bundlesOnly_holdUnlessMatch t (List.mem_range.1 hb)) _
  generalize allBundles.foldl s.planTaken.holdUnlessMatch s.planTaken = u at hheld
  obtain ⟨hclassed, hdone, -, hmem, hout, hplan⟩ := u.rigAgain_frame
  exact ⟨hplan.trans hheld.plan, hclassed, hdone, hmem.trans hheld.mem, hout.trans hheld.out⟩

/-! ### A bundle classed (R472) -/

/-- The class MISMATCH of a bundle and its peer, shown. -/
def State.mismatchShown (s : State) (b : Nat) : State :=
  (s.setFld Key.topRigStat (2 * b + 1) (2 * b) 3).setReg (Key.topFound b) (BitVec.ofNat 32 (s.foundOf b))

/-- A bundle classed. -/
def State.withClassed (s : State) (b : Nat) : State :=
  { s with top := { s.top with classed := (b :: s.top.classed).eraseDups } }

@[simp] theorem State.reg_withClassed (s : State) (b k : Nat) : (s.withClassed b).reg k = s.reg k := rfl

/-- A bundle whose peer is not the planned one: its class and its peer are shown, and RIG_MISMATCH is latched. -/
def State.mismatched (s : State) (b : Nat) : State := ((s.mismatchShown b).latch pgTop 0 b).withClassed b

theorem State.classBundle_of_mismatch {s : State} {b : Nat} (hclass : s.rigClass b = (3, 0)) (hpeer : s.peerCoords b ≠ s.coords)
    (hadmits : s.admits b (3, 0) = false) : s.classBundle b = (s.mismatched b).holdBundle b := by
  unfold State.classBundle
  rw [hclass]
  dsimp only
  rw [if_neg (by rw [hadmits]; exact Bool.false_ne_true), if_neg fun h => hpeer h.2, if_neg (by decide), if_neg (by decide)]
  rfl

theorem exec_rigCheck_of_mismatch {s : State} {b : BitVec 4} (hb : b.toNat < 12) (hmay : s.rigMayRun = true)
    (hpeer : s.hasPeer b.toNat = true) (hclass : s.rigClass b.toNat = (3, 0)) (hcoords : s.peerCoords b.toNat ≠ s.coords)
    (hadmits : s.admits b.toNat (3, 0) = false) :
    exec (.rigCheck b) s = .next ((s.mismatched b.toNat).holdBundle b.toNat).rigDone := by
  refine congrArg Outcome.next ((if_pos ⟨hb, hmay, .inr hpeer⟩).trans ?_)
  rw [hclass, State.classBundle_of_mismatch hclass hcoords hadmits]
  rfl

theorem State.rigDone_frame (s : State) :
    (∀ h l, h < 31 → s.rigDone.fld Key.topRigStat h l = s.fld Key.topRigStat h l) ∧ RegsBut [Key.topRigStat] s s.rigDone ∧
      s.rigDone.mem = s.mem ∧ s.rigDone.top = s.top := by
  unfold State.rigDone
  dsimp only
  split
  · exact ⟨fun _ _ _ => rfl, fun _ _ => rfl, rfl, rfl⟩
  · exact ⟨fun h l hh => s.fld_setFld_ne _ (by decide) (by omega) (.inl hh),
      fun k hk => s.reg_setBit_ne _ _ (List.mem_singleton.not.1 hk), rfl, rfl⟩

theorem State.mismatched_frame (s : State) {b : Nat} (hb : b < 12) :
    (s.mismatched b).fld Key.topRigStat (2 * b + 1) (2 * b) = 3 ∧ b ∈ (s.mismatched b).top.classed ∧ (s.mismatched b).Latched pgTop 0 ∧
      SameMemory s (s.mismatched b) := by
  have hfound : Key.topRigStat ≠ Key.topFound b := by
    simp only [Key.topRigStat, Key.topFound, regKey]
    omega
  obtain ⟨hlatched, hlatch, hmem⟩ := (s.mismatchShown b).latch_frame pgTop (c := 0) b (by decide)
  have hkeep : ∀ k, (s.mismatched b).reg k = ((s.mismatchShown b).latch pgTop 0 b).reg k := fun _ => rfl
  have hreg : (s.mismatched b).reg Key.topRigStat = (s.setFld Key.topRigStat (2 * b + 1) (2 * b) 3).reg Key.topRigStat :=
    (hkeep _).trans ((hlatch _ (by decide)).trans (State.reg_setReg_ne _ _ hfound))
  refine ⟨?_, List.mem_eraseDups.2 List.mem_cons_self, ?_, ?_⟩
  · rw [State.fld_congr hreg, State.fld_setFld_same _ _ (by omega)]
    exact Nat.mod_eq_of_lt (by rw [show 2 * b + 1 + 1 - 2 * b = 2 by omega]; decide)
  · exact ⟨(State.bit_congr (hkeep _) _).trans hlatched.1, (State.bit_congr (hkeep _) _).trans hlatched.2⟩
  · exact hmem

/-! ### RIG_OK (R473) -/

theorem exec_rigOk_of_admitted {s : State} {b : BitVec 4} (hb : b.toNat < 12) (hheld : s.bundleState b.toNat = bsHeld)
    (hadmitted : b.toNat ∈ s.top.admitted) (hsent : b.toNat ∈ s.top.rigSent) : ∃ top, exec (.rigOk b) s =
      .next (({ s with top := top } : State).setFld (Key.lnkStat b.toNat) 31 29 bsUp) := by
  have hpeer : s.hasPeer b.toNat = true := decide_eq_true (Nat.le_of_eq hheld.symm)
  refine ⟨{ s.top with rigGot := (b.toNat :: s.top.rigGot).eraseDups }, congrArg Outcome.next ((if_pos ⟨hb, hpeer⟩).trans ?_)⟩
  exact if_pos ⟨hheld, hadmitted, hsent, List.mem_eraseDups.2 List.mem_cons_self⟩

/-! ### Coordinates that do not come in time (R486) -/

theorem exec_rigTimeout_of_late {s : State} {t0 : Nat} (hsince : s.top.trained = some t0) (hmay : s.rigMayRun = false)
    (hfirst : s.bit Key.topRigStat 30 = false) (hlate : t0 + 100000000 * max 1 (s.fld Key.topRigCfg 7 0) ≤ s.tick) :
    exec .rigTimeout s = .next ((s.setBit Key.topRigStat 30 true).latch pgTop 1 0) := by
  have hrow : exec .rigTimeout s = execRigTimeout s := rfl
  rw [hrow, execRigTimeout, hsince]
  exact congrArg Outcome.next (if_pos ⟨hmay, hfirst, hlate⟩)

/-! ### Reach (R469, R475) -/

/-- What is said of a destination replaces what was known of it. -/
def State.reached (s : State) (dst a b : Nat) : State :=
  { s with top := { s.top with reach := (s.top.reach.filter fun e => decide (e.1 ≠ dst)) ++ [(dst, a, b)] } }

theorem exec_reach_of_quiet {s : State} {c : BitVec 16} {ra rb : BitVec 6} (htx : s.links.tx = []) (hra : ra ≠ 0) :
    exec (.reach c ra rb) s = .next (s.reached c.toNat ra.toNat rb.toNat) := by
  have hrails : ¬(ra = 0 ∧ rb = 0) := fun h => hra h.1
  have hrow : exec (.reach c ra rb) s = execReach c ra rb s := rfl
  rw [hrow, execReach]
  dsimp only
  rw [if_neg hrails]
  exact congrArg Outcome.next (State.resendAll_of_noTraffic (s := s.reached c.toNat ra.toNat rb.toNat) htx _)

theorem State.mem_reached (s : State) (dst a b : Nat) : (dst, a, b) ∈ (s.reached dst a b).top.reach ∧
    ∀ e ∈ (s.reached dst a b).top.reach, e.1 = dst → e = (dst, a, b) := by
  refine ⟨List.mem_append_right _ (List.mem_singleton_self _), fun e he hdst => ?_⟩
  rcases List.mem_append.1 he with hold | hnew
  · exact absurd hdst (by simpa using List.of_mem_filter hold)
  · exact List.mem_singleton.1 hnew

/-- Settles O46: coordinates by the store and the bundles held after it, LOAD by the plan that it copies (log entry 103), a mismatch by what
is shown and latched of the bundle, and the rest by the equation of its row. -/
theorem rigCheck : Obligations.RigCheck := by
  unfold Obligations.RigCheck
  refine ⟨?_, ?_, ?_, ?_, ?_, ?_, ?_, ?_⟩
  · intro s m v htakes hu hgroup hslot hidle hspare
    refine ⟨_, exec_topCoordWrite_of_takes htakes, ?_⟩
    rw [State.writeTopCoord_of_idle (s := s.noteOrder m pgTop) hgroup hslot hidle hspare]
    generalize ht : (allBundles.foldl State.holdBundle ((s.noteOrder m pgTop).store m pgTop 0x100 v)).rigAgain = t
    obtain ⟨hcoords, hvalid, hclassed, hdone, hdown, hmem, hout⟩ := State.writeTopCoord_frame (s := s.noteOrder m pgTop) hu ht.symm
    exact ⟨hcoords, hvalid, hclassed, hdone, hdown, hmem, hout⟩
  · intro s m v htakes hgroup
    refine ⟨_, exec_topCoordWrite_of_takes htakes, ?_⟩
    rw [State.writeTopCoord_of_group hgroup]
    exact wroteAs_noteSince ..
  · intro s m htakes
    obtain ⟨hplan, hclassed, hdone, hmem, hout⟩ := (s.noteOrder m pgTop).rigLoad_frame
    refine ⟨_, exec_load_of_takes htakes, ?_⟩
    generalize (s.noteOrder m pgTop).rigLoad = t at hplan hclassed hdone hmem hout ⊢
    exact ⟨hplan, hclassed, hdone, .of_mem hmem, hout⟩
  · intro s m htakes
    obtain ⟨hclassed, hdone, hregs, hmem, hout, -⟩ := (s.noteOrder m pgTop).rigAgain_frame
    refine ⟨_, exec_check_of_takes htakes, ?_⟩
    generalize (s.noteOrder m pgTop).rigAgain = t at hclassed hdone hregs hmem hout ⊢
    exact ⟨hclassed, hdone, hregs, .of_mem hmem, hout⟩
  · intro s b hb hmay hpeer hclass hcoords hadmits
    obtain ⟨hshown, hclassed, hlatched, hmem⟩ := s.mismatched_frame hb
    obtain ⟨hgone, hkept⟩ := (s.mismatched b.toNat).holdBundle_top b.toNat
    have hheld := (s.mismatched b.toNat).bundlesOnly_holdBundle hb
    obtain ⟨hfld, hregs, hdonemem, htop⟩ := ((s.mismatched b.toNat).holdBundle b.toNat).rigDone_frame
    refine ⟨_, exec_rigCheck_of_mismatch hb hmay hpeer hclass hcoords hadmits, ?_, htop ▸ hkept ▸ hclassed, htop ▸ hgone, ⟨?_, ?_⟩,
      SameMemory.trans hmem (.of_mem (hdonemem.trans hheld.mem))⟩
    · rw [hfld _ _ (by omega), State.fld_congr (hheld.regs _ fun b hb => topPage_ne_lnkStat (by decide) hb), hshown]
    · rw [State.bit_congr (hregs _ (by decide)), State.bit_congr (hheld.regs _ fun b hb => topPage_ne_lnkStat (by decide) hb)]
      exact hlatched.1
    · rw [State.bit_congr (hregs _ (by decide)), State.bit_congr (hheld.regs _ fun b hb => topPage_ne_lnkStat (by decide) hb)]
      exact hlatched.2
  · intro s b hb hheld hadmitted hsent
    obtain ⟨top, hexec⟩ := exec_rigOk_of_admitted hb hheld hadmitted hsent
    exact ⟨_, hexec, State.bundleState_setFld _ _ (by decide), fun k hk => State.reg_setFld_ne _ _ _ _ (List.mem_singleton.not.1 hk),
      .of_mem rfl, rfl⟩
  · intro s t0 hsince hmay hfirst hlate
    obtain ⟨hlatched, hlatch, hmem⟩ := (s.setBit Key.topRigStat 30 true).latch_frame pgTop (c := 1) 0 (by decide)
    have hset : RegsBut [Key.topRigStat] s (s.setBit Key.topRigStat 30 true) := fun k hk =>
      s.reg_setBit_ne _ _ (List.mem_singleton.not.1 hk)
    refine ⟨_, exec_rigTimeout_of_late hsince hmay hfirst hlate, ?_, hlatched, hset.trans hlatch, hmem⟩
    rw [State.bit_congr (hlatch _ (by decide)), State.bit_setBit_same _ _ (by decide)]
  · intro s c ra rb htx hra
    obtain ⟨hmem, honly⟩ := s.mem_reached c.toNat ra.toNat rb.toNat
    exact ⟨_, exec_reach_of_quiet htx hra, hmem, honly, .of_regs rfl _, .of_mem rfl, rfl⟩

end Sys2Proof.Machine
end

section
/-! The jury spare: its state, the takeover's stages, and the messages that it sends (19 R476 to R480, R484, R488). -/

namespace Sys2Proof.Machine

open Host

/-! ### The spare's state -/

theorem State.setJury_frame (s : State) {st reason : Nat} (hst : st < 8) (hreason : reason < 32) :
    (s.setJury st reason).jury = st ∧ (s.setJury st reason).fld Key.jryStat 28 24 = reason ∧
      (s.setJury st reason).fld Key.jryStat 15 0 = s.fld Key.jryStat 15 0 ∧ RegsBut [Key.jryStat] s (s.setJury st reason) := by
  unfold State.setJury State.jury
  refine ⟨?_, ?_, ?_, fun k hk => ?_⟩
  · rw [State.fld_setFld_ne _ _ (by decide) (by decide) (by decide), State.fld_setFld_same _ _ (by decide)]
    exact Nat.mod_eq_of_lt hst
  · rw [State.fld_setFld_same _ _ (by decide)]
    exact Nat.mod_eq_of_lt hreason
  · rw [State.fld_setFld_ne _ _ (by decide) (by decide) (by decide), State.fld_setFld_ne _ _ (by decide) (by decide) (by decide)]
  · rw [State.reg_setFld_ne _ _ _ _ (List.mem_singleton.not.1 hk), State.reg_setFld_ne _ _ _ _ (List.mem_singleton.not.1 hk)]

@[simp] theorem State.setJury_mem (s : State) (st reason : Nat) : (s.setJury st reason).mem = s.mem := rfl
@[simp] theorem State.setJury_out (s : State) (st reason : Nat) : (s.setJury st reason).out = s.out := rfl

theorem State.juryArm_of_ready {s : State} (hidle : s.jury = jyIdle) (hslot : s.coords % 256 = 32) (hpassed : s.staysPassed = true) :
    s.juryArm = s.setJury jyArmed 0 :=
  (if_neg (not_not_intro hidle)).trans ((if_neg fun h => h.1 hslot).trans (if_neg (by rw [hpassed]; decide)))

theorem State.juryArm_of_slot {s : State} (hidle : s.jury = jyIdle) (hslot : s.coords % 256 < 32) : s.juryArm = s.setJury jyIdle 2 :=
  (if_neg (not_not_intro hidle)).trans (if_pos ⟨by omega, by omega⟩)

theorem State.juryDisarm_of_armed {s : State} (harmed : s.jury = jyArmed) : s.juryDisarm = s.setJury jyIdle 0 := if_pos harmed

theorem exec_arm_of_takes {s : State} {m : Master} (h : s.Takes m pgJry 0x104 1) :
    exec (.arm m 0xF) s = .next ((s.noteOrder m pgJry).juryArm.noteSince (s.noteOrder m pgJry)) :=
  congrArg Outcome.next (State.gated_in_turn h _)

theorem exec_disarm_of_takes {s : State} {m : Master} (h : s.Takes m pgJry 0x104 2) :
    exec (.disarm m 0xF) s = .next ((s.noteOrder m pgJry).juryDisarm.noteSince (s.noteOrder m pgJry)) :=
  congrArg Outcome.next (State.gated_in_turn h _)

/-! ### The leaves and what is sent to them -/

theorem State.toLeaves_speaks (s : State) (name : String) (args : List Nat) : s.SpeaksOnly (s.toLeaves name args) :=
  .foldl (fun _ _ => ⟨_, rfl⟩) _ s

theorem State.emitEach_speaks (s : State) (l : List Nat) (o : Nat → Out) : s.SpeaksOnly (l.foldl (fun t c => t.emit (o c)) s) :=
  .foldl (fun _ _ => ⟨_, rfl⟩) l s

theorem State.out_emitEach (s : State) (l : List Nat) (o : Nat → Out) :
    (l.foldl (fun t c => t.emit (o c)) s).out = s.out ++ l.map o := by
  induction l generalizing s with
  | nil => exact (List.append_nil _).symm
  | cons c l ih => rw [List.foldl_cons, ih, List.map_cons, State.emit, List.append_assoc, List.singleton_append]

theorem State.SpeaksOnly.top {s t : State} (h : s.SpeaksOnly t) : t.top = s.top := by obtain ⟨_, rfl⟩ := h; rfl

/-- The leaves reached are read from the bundles' registers. -/
theorem State.leaves_congr {s t : State} (h : ∀ k < 0x1DC * 0x400, t.reg k = s.reg k) : t.leaves = s.leaves := by
  have hstat : ∀ b ∈ allBundles, t.bundleState b = s.bundleState b := fun b hb =>
    State.bundleState_congr (h _ (by have := List.mem_range.1 hb; simp only [Key.lnkStat, regKey]; omega))
  have hpeer : ∀ b ∈ allBundles, t.reg (Key.lnkPeerId b) = s.reg (Key.lnkPeerId b) := fun b hb =>
    h _ (by have := List.mem_range.1 hb; simp only [Key.lnkPeerId, regKey]; omega)
  have hsheet : t.sheet = s.sheet := State.fld_congr (h _ (by decide)) 2 0
  have hbundles : t.leafBundles = s.leafBundles := List.filter_congr fun b hb => by
    rw [hstat b hb, State.peerSwitch, State.fld_congr (hpeer b hb), State.isStay, State.role, hsheet]
    rfl
  have hleaf : s.leafBundles.map t.leafOf = s.leafBundles.map s.leafOf := List.map_congr_left fun b hb => by
    rw [State.leafOf, State.peerCoords, State.fld_congr (hpeer b (List.mem_of_mem_filter hb))]
    rfl
  rw [State.leaves, hbundles, hleaf]
  rfl

/-! ### The stages of a takeover (R477) -/

/-- A takeover waits while a leaf has not confirmed its stage. -/
theorem State.takeOn_of_waiting {s : State} {k : Machine.Takeover} (htake : s.top.take = some k) (hleft : k.left ≠ []) (n : Nat) :
    s.takeOn (n + 1) = s := by
  rw [State.takeOn, htake]
  exact if_pos (.inl hleft)

/-- The spare with what it has of the takeover that it runs. -/
def State.withTake (s : State) (k : Machine.Takeover) : State := { s with top := { s.top with take := some k } }

/-- The coordinates taken, and REBIND sent. -/
def State.rebinding (s : State) (x : Nat) : State := (s.setReg Key.topCoord (BitVec.ofNat 32 (2 ^ 31 + x))).toLeaves "REBIND" [x]

/-- Every leaf has confirmed the fence: the coordinates are taken, and the leaves are to confirm the rebinding. -/
theorem State.takeOn_of_fenced {s : State} {k : Machine.Takeover} (htake : s.top.take = some k) (hstage : k.stage = 0) (hleft : k.left = [])
    (hleaves : (s.rebinding k.x).leaves ≠ []) (n : Nat) :
    s.takeOn (n + 2) =
      (s.rebinding k.x).withTake { k with stage := 1, since := s.tick, left := (s.rebinding k.x).leaves } := by
  have hgo : ¬(k.left ≠ [] ∨ 2 ≤ k.stage) := by
    rw [hstage, hleft]
    decide
  rw [State.takeOn, htake]
  exact (if_neg hgo).trans ((if_pos hstage).trans (State.takeOn_of_waiting rfl hleaves n))

/-- Every leaf has confirmed the rebinding: the takeover settles. -/
theorem State.takeOn_of_rebound {s : State} {k : Machine.Takeover} (htake : s.top.take = some k) (hstage : k.stage = 1) (hleft : k.left = [])
    (n : Nat) : s.takeOn (n + 1) = s.withTake { k with stage := 2, since := s.tick } := by
  have hgo : ¬(k.left ≠ [] ∨ 2 ≤ k.stage) := by
    rw [hstage, hleft]
    decide
  rw [State.takeOn, htake]
  exact (if_neg hgo).trans (if_neg (by rw [hstage]; decide))

/-- The confirmation of the last leaf of a stage. -/
theorem State.leafConfirms_last {s : State} {k : Machine.Takeover} {leaf : Nat} (htake : s.top.take = some k) (hjury : s.jury = jyTaking)
    (hleft : k.left = [leaf]) : s.leafConfirms k.stage leaf = (s.withTake { k with left := [] }).takeOn 2 := by
  have hnone : (k.left.filter fun l => decide (l ≠ leaf)) = [] := by
    rw [hleft]
    simp
  rw [State.leafConfirms, htake]
  exact (if_pos ⟨rfl, hjury⟩).trans (by rw [hnone]; rfl)

theorem State.reg_rebinding (s : State) (x k : Nat) :
    (s.rebinding x).reg k = (s.setReg Key.topCoord (BitVec.ofNat 32 (2 ^ 31 + x))).reg k :=
  reg_congr (State.toLeaves_speaks ..).regs k

theorem State.leaves_rebinding (s : State) (x : Nat) : (s.rebinding x).leaves = s.leaves :=
  State.leaves_congr fun k hk => (s.reg_rebinding x k).trans (State.reg_setReg_ne _ _ fun h => by rw [h] at hk; exact absurd hk (by decide))

/-- The rebinding under way: the leaves of the spare at its new coordinates are to confirm it. -/
def State.rebindWaits (s : State) (k : Machine.Takeover) : State :=
  (s.rebinding k.x).withTake { k with stage := 1, since := s.tick, left := (s.rebinding k.x).leaves }

theorem exec_fenceConfirm_of_last {s : State} {k : Machine.Takeover} {leaf : BitVec 4} (htake : s.top.take = some k) (hstage : k.stage = 0)
    (hjury : s.jury = jyTaking) (hleft : k.left = [leaf.toNat]) (hleaves : s.leaves ≠ []) :
    exec (.fenceConfirm leaf) s = .next ((s.withTake { k with left := [] }).rebindWaits { k with left := [] }) := by
  have hrow : exec (.fenceConfirm leaf) s = .next (s.leafConfirms k.stage leaf.toNat) := by
    rw [hstage]
    rfl
  have hwait : ((s.withTake { k with left := [] }).rebinding k.x).leaves ≠ [] := by
    rw [State.leaves_rebinding]
    exact hleaves
  rw [hrow, State.leafConfirms_last htake hjury hleft, State.takeOn_of_fenced (k := { k with left := [] }) rfl hstage rfl hwait 0]
  rfl

theorem exec_rebindConfirm_of_last {s : State} {k : Machine.Takeover} {leaf : BitVec 4} (htake : s.top.take = some k) (hstage : k.stage = 1)
    (hjury : s.jury = jyTaking) (hleft : k.left = [leaf.toNat]) :
    exec (.rebindConfirm leaf) s = .next (s.withTake { k with left := [], stage := 2, since := s.tick }) := by
  have hrow : exec (.rebindConfirm leaf) s = .next (s.leafConfirms k.stage leaf.toNat) := by
    rw [hstage]
    rfl
  rw [hrow, State.leafConfirms_last htake hjury hleft, State.takeOn_of_rebound (k := { k with left := [] }) rfl hstage rfl 1]
  rfl

/-- The coordinates taken are the one register that the end of the fence writes. -/
theorem State.rebindWaits_frame (s : State) (k : Machine.Takeover) :
    (s.rebindWaits k).reg Key.topCoord = BitVec.ofNat 32 (2 ^ 31 + k.x) ∧ RegsBut [Key.topCoord] s (s.rebindWaits k) ∧
      (s.rebindWaits k).mem = s.mem := by
  have hregs : ∀ j, (s.rebindWaits k).reg j = (s.setReg Key.topCoord (BitVec.ofNat 32 (2 ^ 31 + k.x))).reg j := s.reg_rebinding k.x
  exact ⟨(hregs _).trans (State.reg_setReg_same ..), fun j hj => (hregs j).trans (State.reg_setReg_ne _ _ (List.mem_singleton.not.1 hj)),
    (State.toLeaves_speaks ..).mem⟩

/-! ### The takeover begins -/

/-- The spare that is fencing the leaves for coordinates `x`. -/
def State.fencing (s : State) (x : Nat) : State := ((s.setJury jyTaking 0).setFld Key.jryStat 15 0 x).toLeaves "FENCE" [x]

/-- The spare with the takeover that begins, and the coordinates that it had. -/
def State.fenced (s : State) (x : Nat) (asked : Option Nat) : State :=
  { s.fencing x with top := { (s.fencing x).top with spare := some s.coords, take := some ⟨x, 0, s.tick, (s.fencing x).leaves, [asked]⟩ } }

theorem State.reg_fencing (s : State) (x k : Nat) :
    (s.fencing x).reg k = ((s.setJury jyTaking 0).setFld Key.jryStat 15 0 x).reg k :=
  reg_congr (State.toLeaves_speaks ..).regs k

theorem State.fencing_frame (s : State) {x : Nat} (hx : x < 2 ^ 16) :
    (s.fencing x).jury = jyTaking ∧ (s.fencing x).fld Key.jryStat 15 0 = x ∧ RegsBut [Key.jryStat] s (s.fencing x) ∧
      (s.fencing x).mem = s.mem := by
  obtain ⟨hjury, -, -, hregs⟩ := s.setJury_frame (st := jyTaking) (reason := 0) (by decide) (by decide)
  refine ⟨?_, ?_, fun k hk => ?_, (State.toLeaves_speaks ..).mem⟩
  · rw [State.jury, State.fld_congr (s.reg_fencing x _), State.fld_setFld_ne _ _ (by decide) (by decide) (by decide)]
    exact hjury
  · rw [State.fld_congr (s.reg_fencing x _), State.fld_setFld_same _ _ (by decide)]
    exact Nat.mod_eq_of_lt hx
  · rw [s.reg_fencing x, State.reg_setFld_ne _ _ _ _ (List.mem_singleton.not.1 hk)]
    exact hregs k hk

theorem State.leaves_fencing (s : State) {x : Nat} (hx : x < 2 ^ 16) : (s.fencing x).leaves = s.leaves := by
  obtain ⟨-, -, hregs, -⟩ := s.fencing_frame hx
  exact State.leaves_congr fun k hk => hregs k fun h => by
    rw [List.mem_singleton.1 h] at hk
    exact absurd hk (by decide)

theorem exec_takeover_of_asked {s : State} {x : BitVec 16} (harmed : s.jury = jyArmed) (hgroup : x.toNat / 256 = s.coords / 256)
    (hleaves : s.leaves ≠ []) (be : BitVec 4) (c : BitVec 16) :
    exec (.takeover none be x c) s = .next (s.fenced x.toNat (some c.toNat)) := by
  have htakes : s.juryTakes x.toNat = true := by
    rw [State.juryTakes, decide_eq_true harmed, decide_eq_true hgroup]
    rfl
  have hleft : (s.fencing x.toNat).leaves ≠ [] := by rwa [s.leaves_fencing x.isLt]
  exact congrArg Outcome.next ((if_pos htakes).trans (State.takeOn_of_waiting (s := s.fenced x.toNat (some c.toNat)) rfl hleft 1))

theorem exec_takeover_of_busy {s : State} (hjury : s.jury ≠ jyArmed) (htake : s.top.take = none) (be : BitVec 4) (x c : BitVec 16) :
    exec (.takeover none be x c) s = .next (s.emit (.routed c (.leaf "BUSY" [s.coords % 256, x.toNat]))) := by
  have hnot : ¬s.juryTakes x.toNat = true := by
    rw [State.juryTakes, decide_eq_false hjury, Bool.false_and]
    exact Bool.false_ne_true
  refine congrArg Outcome.next ((if_neg hnot).trans ?_)
  rw [htake, BitVec.ofNat_toNat, BitVec.setWidth_eq]

/-! ### The takeover ends -/

/-- Those told of a takeover that ends: who asked, and the neighbours of the rings. -/
def State.settlers (s : State) (k : Machine.Takeover) : List Nat := (k.asked.filterMap id ++ s.juryRings).eraseDups

/-- TAKEN sent to each of them. -/
def State.saysTaken (s : State) (k : Machine.Takeover) : State :=
  (s.settlers k).foldl (fun t c => t.emit (.routed (BitVec.ofNat 16 c) (.leaf "TAKEN" [k.x]))) s

/-- The spare serves, and the takeover is counted. -/
def State.serves (s : State) : State := (s.setJury jyServing 0).inc Key.jryTakeCnt

/-- No takeover runs. -/
def State.noTake (s : State) : State := { s with top := { s.top with take := none } }

theorem exec_settleEnd_of_due {s : State} {k : Machine.Takeover} (htake : s.top.take = some k) (hstage : k.stage = 2)
    (hjury : s.jury = jyTaking) (hdue : k.since + 100 * max 1 (s.fld Key.jryCfg 31 16) ≤ s.tick) :
    exec .settleEnd s = .next (s.saysTaken k).serves.noTake := by
  have hrow : exec .settleEnd s = execSettleEnd s := rfl
  rw [hrow, execSettleEnd, htake]
  exact congrArg Outcome.next (if_pos ⟨hstage, hjury, hdue⟩)

theorem State.taken_mem_out {s : State} {k : Machine.Takeover} {c : Nat} (h : some c ∈ k.asked) :
    Out.routed (BitVec.ofNat 16 c) (.leaf "TAKEN" [k.x]) ∈ (s.saysTaken k).out := by
  have hmem : c ∈ s.settlers k := List.mem_eraseDups.2 (List.mem_append_left _ (List.mem_filterMap.2 ⟨some c, h, rfl⟩))
  rw [State.saysTaken, s.out_emitEach (s.settlers k) fun c => .routed (BitVec.ofNat 16 c) (.leaf "TAKEN" [k.x])]
  exact List.mem_append_right _ (List.mem_map.2 ⟨c, hmem, rfl⟩)

theorem State.serves_frame (s : State) :
    s.serves.jury = jyServing ∧ s.serves.reg Key.jryTakeCnt = satInc (s.reg Key.jryTakeCnt) ∧
      RegsBut [Key.jryStat, Key.jryTakeCnt] s s.serves := by
  obtain ⟨hjury, -, -, hregs⟩ := s.setJury_frame (st := jyServing) (reason := 0) (by decide) (by decide)
  have hinc : RegsBut [Key.jryTakeCnt] (s.setJury jyServing 0) s.serves := RegsBut.inc rfl _
  refine ⟨(State.fld_congr (hinc _ (by decide)) 31 29).trans hjury, ?_, hregs.trans hinc⟩
  rw [State.serves, State.inc, State.reg_setReg_same, hregs _ (by decide)]

/-- The requesters told that the takeover failed. -/
def State.saysFailed (s : State) (k : Machine.Takeover) (slot : Nat) : State :=
  (k.asked.filterMap id).foldl (fun t c => t.emit (.routed (BitVec.ofNat 16 c) (.leaf "TAKE_FAIL" [slot, k.x]))) s

/-- Both causes of a failed takeover latched. -/
def State.takeFails (s : State) (x : Nat) : State := (s.latch pgJry 1 x).latch pgJry 0 x

/-- Neither a takeover nor coordinates to go back to. -/
def State.noSpare (s : State) : State := { s with top := { s.top with take := none, spare := none } }

/-- A takeover that fails before its coordinates were taken. -/
theorem exec_confirmTimeout_of_due {s : State} {k : Machine.Takeover} (htake : s.top.take = some k) (hstage : k.stage = 0)
    (hjury : s.jury = jyTaking) (hdue : k.since + 100 * max 1 (s.fld Key.jryCfg 15 0) ≤ s.tick) :
    exec .confirmTimeout s = .next ((((s.takeFails k.x).saysFailed k (s.top.spare.getD 0 % 256)).toLeaves "UNREBIND" [k.x]).setJury
      jyArmed 4).noSpare := by
  have hrow : exec .confirmTimeout s = execConfirmTimeout s := rfl
  rw [hrow, execConfirmTimeout, htake]
  refine congrArg Outcome.next ((if_pos ⟨by rw [hstage]; decide, hjury, hdue⟩).trans ?_)
  dsimp only
  rw [if_pos hstage]
  rfl

/-- A fault that stands latched stands after another of its page. -/
theorem State.Latched.latch {s : State} {p c : Nat} (h : s.Latched p c) (e d : Nat) : (s.latch p e d).Latched p c := by
  have hkey : Key.fltLatch p ≠ Key.irqStat p := by
    simp only [Key.fltLatch, Key.irqStat, regKey]
    omega
  refine ⟨?_, s.irq_latch p e d⟩
  simp only [State.bit, State.fld, State.reg_latch, if_neg hkey, State.latchOn_latch, State.reg_noteOld, decide_eq_true_eq]
  exact getBits_or_other _ _ (of_decide_eq_true h.1)

theorem State.takeFails_frame (s : State) (x : Nat) :
    (s.takeFails x).Latched pgJry 0 ∧ (s.takeFails x).Latched pgJry 1 ∧ SameMemory s (s.takeFails x) := by
  obtain ⟨hfirst, -, hmem⟩ := s.latch_frame pgJry (c := 1) x (by decide)
  obtain ⟨hsecond, -, hmem'⟩ := (s.latch pgJry 1 x).latch_frame pgJry (c := 0) x (by decide)
  exact ⟨hsecond, hfirst.latch 0 x, hmem.trans hmem'⟩

theorem State.Latched.congr {s t : State} {p c : Nat} (h : s.Latched p c) (hlatch : t.reg (Key.fltLatch p) = s.reg (Key.fltLatch p))
    (hirq : t.reg (Key.irqStat p) = s.reg (Key.irqStat p)) : t.Latched p c :=
  ⟨(State.bit_congr hlatch c).trans h.1, (State.bit_congr hirq 0).trans h.2⟩

/-! ### TAKEN (R478) -/

/-- A request for coordinates that is answered. -/
def State.answered (s : State) (x : Nat) : State :=
  { s with top := { s.top with asks := s.top.asks.filter fun e => decide (e.1 ≠ x) } }

theorem State.holdShroud_of_none {s : State} {x : Nat}
    (h : ∀ b ∈ allBundles, s.role b ≤ 2 → s.peerCoords b = x → s.bundleState b = bsDown) : s.holdShroud x = s := by
  have hnone : (allBundles.filter fun b => decide (s.role b ≤ 2) && decide (s.peerCoords b = x) && decide (s.bundleState b ≠ bsDown)) = [] :=
    List.filter_eq_nil_iff.2 fun b hb hheld => by
      obtain ⟨⟨hrole, hpeer⟩, hup⟩ := by simpa using hheld
      exact hup (h b hb hrole hpeer)
  rw [State.holdShroud, hnone]
  rfl

theorem State.ringTaken_of_none {s : State} (h : ∀ k, k < 8 → s.ringState k ≠ rgRecovering) (c : Nat) : s.ringTaken c = s := by
  have hnone : ((List.range 8).filter fun k => decide (s.ringState k = rgRecovering)) = [] :=
    List.filter_eq_nil_iff.2 fun k hk hring => h k (List.mem_range.1 hk) (of_decide_eq_true hring)
  rw [State.ringTaken, hnone]
  rfl

/-- Settles O47: each stage by the equation of its end, and what is sent changes nothing but the output. -/
theorem takeover : Obligations.Takeover := by
  unfold Obligations.Takeover
  refine ⟨?_, ?_, ?_, ?_, ?_, ?_, ?_, ?_, ?_, ?_⟩
  · intro s m htakes hidle
    refine ⟨fun hslot hpassed => ?_, fun hslot => ?_⟩
    · refine ⟨_, exec_arm_of_takes htakes, ?_⟩
      rw [State.juryArm_of_ready (s := s.noteOrder m pgJry) hidle hslot hpassed]
      obtain ⟨hjury, hreason, -, hregs⟩ := (s.noteOrder m pgJry).setJury_frame (st := jyArmed) (reason := 0) (by decide) (by decide)
      exact ⟨hjury, hreason, hregs, .of_mem rfl, rfl⟩
    · refine ⟨_, exec_arm_of_takes htakes, ?_⟩
      rw [State.juryArm_of_slot (s := s.noteOrder m pgJry) hidle hslot]
      obtain ⟨hjury, hreason, -, hregs⟩ := (s.noteOrder m pgJry).setJury_frame (st := jyIdle) (reason := 2) (by decide) (by decide)
      exact ⟨hjury, hreason, hregs, .of_mem rfl, rfl⟩
  · intro s m htakes harmed
    refine ⟨_, exec_disarm_of_takes htakes, ?_⟩
    rw [State.juryDisarm_of_armed (s := s.noteOrder m pgJry) harmed]
    obtain ⟨hjury, -, -, hregs⟩ := (s.noteOrder m pgJry).setJury_frame (st := jyIdle) (reason := 0) (by decide) (by decide)
    exact ⟨hjury, hregs, .of_mem rfl, rfl⟩
  · intro s x c harmed hgroup hleaves
    obtain ⟨hjury, hcoords, hregs, hmem⟩ := s.fencing_frame x.isLt
    exact ⟨_, _, exec_takeover_of_asked harmed hgroup hleaves 0xF c, hjury, hcoords, rfl, rfl, rfl, rfl, rfl, hregs, .of_mem hmem⟩
  · intro s be x c hjury htake
    exact exec_takeover_of_busy hjury htake be x c
  · intro s leaf k htake hstage hjury hleft hleaves
    obtain ⟨hcoord, hregs, hmem⟩ := (s.withTake { k with left := [] }).rebindWaits_frame { k with left := [] }
    exact ⟨_, _, exec_fenceConfirm_of_last htake hstage hjury hleft hleaves, hcoord, rfl, rfl, rfl, hregs, .of_mem hmem⟩
  · intro s leaf k htake hstage hjury hleft
    exact ⟨_, _, exec_rebindConfirm_of_last htake hstage hjury hleft, rfl, rfl, rfl, .of_regs rfl _, .of_mem rfl, rfl⟩
  · intro s k htake hstage hjury hdue
    have hsaid : s.SpeaksOnly (s.saysTaken k) := s.emitEach_speaks (s.settlers k) fun c => .routed (BitVec.ofNat 16 c) (.leaf "TAKEN" [k.x])
    obtain ⟨hserves, hcount, hregs⟩ := (s.saysTaken k).serves_frame
    refine ⟨_, exec_settleEnd_of_due htake hstage hjury hdue, hserves, rfl, ?_, ?_, .of_mem hsaid.mem, fun c => State.taken_mem_out⟩
    · exact hcount.trans (congrArg satInc (State.reg_congr hsaid.regs _))
    · exact (RegsBut.of_regs hsaid.regs []).trans hregs
  · intro s k htake hstage hjury hdue
    obtain ⟨hlatched, hlatched', hmem⟩ := s.takeFails_frame k.x
    have hsaid : (s.takeFails k.x).SpeaksOnly (((s.takeFails k.x).saysFailed k (s.top.spare.getD 0 % 256)).toLeaves "UNREBIND" [k.x]) :=
      (State.emitEach_speaks _ _ fun c => .routed (BitVec.ofNat 16 c) (.leaf "TAKE_FAIL" [s.top.spare.getD 0 % 256, k.x])).trans
        (State.toLeaves_speaks ..)
    refine ⟨_, exec_confirmTimeout_of_due htake hstage hjury hdue, ?_⟩
    generalize ((s.takeFails k.x).saysFailed k (s.top.spare.getD 0 % 256)).toLeaves "UNREBIND" [k.x] = u at hsaid ⊢
    obtain ⟨harmed, hreason, -, hregs⟩ := u.setJury_frame (st := jyArmed) (reason := 4) (by decide) (by decide)
    have hkeep : ∀ j, j ≠ Key.jryStat → (u.setJury jyArmed 4).reg j = (s.takeFails k.x).reg j := fun j hj =>
      (hregs j (List.mem_singleton.not.2 hj)).trans (State.reg_congr hsaid.regs j)
    exact ⟨harmed, hreason, rfl, rfl, hlatched.congr (hkeep _ (by decide)) (hkeep _ (by decide)),
      hlatched'.congr (hkeep _ (by decide)) (hkeep _ (by decide)), hmem.trans (.of_mem hsaid.mem)⟩
  · intro s x i hask
    have hrow : exec (.busy 32 x false) s = execBusy 32 x s := rfl
    rw [hrow, execBusy]
    exact congrArg Outcome.next (by simp only [show (32 : Byte).toNat = 32 from rfl, hask]; rfl)
  · intro s x hrings hshroud
    have hheld : (s.answered x.toNat).holdShroud x.toNat = s.answered x.toNat := State.holdShroud_of_none hshroud
    have hrolled : (s.answered x.toNat).ringTaken x.toNat = s.answered x.toNat :=
      State.ringTaken_of_none (s := s.answered x.toNat) hrings _
    exact congrArg Outcome.next ((congrArg (fun t => t.ringTaken x.toNat) hheld).trans hrolled)

end Sys2Proof.Machine
end

section
/-! Start-up: the checks of a bank, the end of start-up, and DEV_CONDUCT (22 R539 to R544, R550, R551, R557). -/

namespace Sys2Proof.Machine

open Host

/-! ### The checks of a bank -/

/-- A bank's checks read the flash and the OTP security version alone. -/
theorem State.bankOk_congr {s t : State} (hflash : t.boot.flash = s.boot.flash) (hsvn : t.boot.svn = s.boot.svn) (b : Nat) :
    t.bankOk b = s.bankOk b := by
  have hread : t.flashRd = s.flashRd := by
    funext a n
    rw [State.flashRd, State.flashRd, hflash]
  have hhead : t.bankHead b = s.bankHead b := by rw [State.bankHead, State.bankHead, hread]
  have hsigned : t.bankSigned b = s.bankSigned b := by
    simp only [State.bankSigned, hhead, State.otpSvn, hsvn]
    rfl
  simp only [State.bankOk, hsigned, hhead, State.componentBytes, hread]
  rfl

/-! ### BOOT -/

theorem State.boot_not_ignored {s : State} (hpwr : s.pins.pwrOk = true) (hrun : s.boot.running = false) (hdead : s.boot.dead = false)
    (hlock : s.bit Key.clkStat 31 = true) :
    ¬(s.pins.pwrOk = false ∨ s.boot.running = true ∨ s.boot.dead = true ∨ s.bit Key.clkStat 31 = false) := by
  rw [hpwr, hrun, hdead, hlock]
  decide

/-- A trial ends. -/
def State.noTrial (s : State) : State := { s with boot := { s.boot with trial := false } }

@[simp] theorem State.reg_noTrial (s : State) (k : Nat) : s.noTrial.reg k = s.reg k := rfl
@[simp] theorem State.noTrial_mem (s : State) : s.noTrial.mem = s.mem := rfl
@[simp] theorem State.noTrial_flash (s : State) : s.noTrial.boot.flash = s.boot.flash := rfl
@[simp] theorem State.noTrial_svn (s : State) : s.noTrial.boot.svn = s.boot.svn := rfl
@[simp] theorem State.noTrial_running (s : State) : s.noTrial.boot.running = s.boot.running := rfl

/-- The package stays in BOOT. -/
def State.staysInBoot (s : State) : State := { s with boot := { s.boot with dead := true } }

@[simp] theorem State.reg_staysInBoot (s : State) (k : Nat) : s.staysInBoot.reg k = s.reg k := rfl
@[simp] theorem State.staysInBoot_mem (s : State) : s.staysInBoot.mem = s.mem := rfl
@[simp] theorem State.staysInBoot_running (s : State) : s.staysInBoot.boot.running = s.boot.running := rfl

/-- What both banks' failed checks leave. -/
def State.bootFails (s : State) : State := ((s.latch pgRst 0 0).noTrial.latch pgRst 1 0).staysInBoot

theorem exec_boot (failed : List UnitId) (s : State) : exec (.boot failed) s = .next (
    if s.pins.pwrOk = false ∨ s.boot.running = true ∨ s.boot.dead = true ∨ s.bit Key.clkStat 31 = false then s
    else if s.bankOk s.select.bank then s.startFirmware s.select.bank s.select.pending failed
    else
      let t := (if s.select.pending then (s.latch pgRst 0 0).writeSelect (1 - s.select.bank) false else s.latch pgRst 0 0).noTrial
      if t.bankOk (1 - s.select.bank) then t.startFirmware (1 - s.select.bank) false failed else (t.latch pgRst 1 0).staysInBoot) := by
  have hrow : exec (.boot failed) s = execBoot failed s := rfl
  rw [hrow]
  unfold execBoot State.noTrial State.staysInBoot
  rfl

theorem exec_boot_of_neither {s : State} (hgo : ¬(s.pins.pwrOk = false ∨ s.boot.running = true ∨ s.boot.dead = true ∨
      s.bit Key.clkStat 31 = false)) (hsettled : s.select.pending = false) (hbad : s.bankOk s.select.bank = false)
    (hother : s.bankOk (1 - s.select.bank) = false) (failed : List UnitId) : exec (.boot failed) s = .next s.bootFails := by
  have hsame : (s.latch pgRst 0 0).noTrial.bankOk (1 - s.select.bank) = s.bankOk (1 - s.select.bank) :=
    State.bankOk_congr (by rw [State.noTrial_flash, State.latch_boot]) (by rw [State.noTrial_svn, State.latch_boot]) _
  rw [exec_boot, if_neg hgo, hbad, if_neg Bool.false_ne_true, hsettled, if_neg Bool.false_ne_true]
  dsimp only
  rw [hsame, hother, if_neg Bool.false_ne_true, State.bootFails]

theorem State.bootFails_frame (s : State) : s.bootFails.Latched pgRst 0 ∧ s.bootFails.Latched pgRst 1 ∧
    RegsBut (latchKeys pgRst) s s.bootFails ∧ SameMemory s s.bootFails ∧ s.bootFails.boot.running = s.boot.running := by
  obtain ⟨hfirst, hregs, hmem⟩ := s.latch_frame pgRst (c := 0) 0 (by decide)
  obtain ⟨hsecond, hregs', hmem'⟩ := (s.latch pgRst 0 0).noTrial.latch_frame pgRst (c := 1) 0 (by decide)
  have hfirst' : (s.latch pgRst 0 0).noTrial.Latched pgRst 0 := hfirst.congr (State.reg_noTrial ..) (State.reg_noTrial ..)
  have hend : ∀ k, s.bootFails.reg k = ((s.latch pgRst 0 0).noTrial.latch pgRst 1 0).reg k := fun k => State.reg_staysInBoot _ k
  refine ⟨(hfirst'.latch 1 0).congr (hend _) (hend _), hsecond.congr (hend _) (hend _), fun k hk => ?_, ?_, ?_⟩
  · rw [hend, hregs' k hk, State.reg_noTrial, hregs k hk]
  · exact SameMemory.trans hmem (SameMemory.trans (.of_mem (State.noTrial_mem _)) (SameMemory.trans hmem' (.of_mem (State.staysInBoot_mem _))))
  · rw [State.bootFails, State.staysInBoot_running, State.latch_boot, State.noTrial_running, State.latch_boot]

/-! ### STARTUP_COMPLETE -/

/-- Start-up has ended: READY is set and the time shown. -/
def State.startedUp (s : State) : State :=
  ((s.setBit Key.rstStat 31 true).setReg Key.rstTimeUs (BitVec.ofNat 32 (s.time.cycle / 400))).irq pgRst 2

theorem exec_startupComplete_of_settled {s : State} (hnew : s.ready = false) (hrun : s.boot.running = true)
    (htime : s.ttl.acquired = true) (hsync : 2 ≤ s.ttlState) (htrained : s.mem.trained = true) (hpair : s.boot.devPair = true)
    (htest : s.pins.testMode = false) (hrig : s.bit Key.topRigStat 31 = true) (htrial : s.boot.trial = false) :
    exec .startupComplete s = .next s.startedUp := by
  have hgo : ¬(s.ready ∨ s.boot.running = false ∨ s.ttl.acquired = false ∨ s.fld Key.ttlStat 31 29 < 2 ∨ s.mem.trained = false ∨
      s.boot.devPair = false ∨ s.pins.testMode = true ∨ (s.bit Key.topRigStat 31 = false ∧ s.bit Key.topRigStat 30 = false)) := by
    rw [hnew, hrun, htime, htrained, hpair, htest, hrig]
    have hstate : ¬s.fld Key.ttlStat 31 29 < 2 := Nat.not_lt.2 hsync
    simpa using hstate
  have hkept : s.startedUp.boot.trial = false := by
    rw [State.startedUp, State.irq_boot]
    exact htrial
  exact congrArg Outcome.next ((if_neg hgo).trans (if_neg fun h => Bool.false_ne_true (hkept.symm.trans h)))

theorem State.startedUp_frame (s : State) : s.startedUp.ready = true ∧
    s.startedUp.reg Key.rstTimeUs = BitVec.ofNat 32 (s.time.cycle / 400) ∧ s.startedUp.bit (Key.irqStat pgRst) 2 = true ∧
      RegsBut [Key.rstStat, Key.rstTimeUs, Key.irqStat pgRst] s s.startedUp ∧ s.startedUp.mem = s.mem := by
  unfold State.startedUp
  refine ⟨?_, ?_, State.bit_irq _ _ (by decide), fun k hk => ?_, ?_⟩
  · rw [State.ready, State.bit_congr (State.reg_irq_ne _ _ _ (by decide)), State.bit_congr (State.reg_setReg_ne _ _ (by decide)),
      State.bit_setBit_same _ _ (by decide)]
  · rw [State.reg_irq_ne _ _ _ (by decide), State.reg_setReg_same]
  · obtain ⟨hready, htime, hirq⟩ := by simpa using hk
    rw [State.reg_irq_ne _ _ _ hirq, State.reg_setReg_ne _ _ htime, State.reg_setBit_ne _ _ _ hready]
  · simp

theorem exec_startupComplete_of_waiting {s : State}
    (h : s.pins.testMode = true ∨ s.ttl.acquired = false ∨ s.mem.trained = false ∨ s.boot.devPair = false) :
    exec .startupComplete s = .next s := by
  refine congrArg Outcome.next (if_pos ?_)
  rcases h with h | h | h | h
  · exact .inr (.inr (.inr (.inr (.inr (.inr (.inl h))))))
  · exact .inr (.inr (.inl h))
  · exact .inr (.inr (.inr (.inr (.inl h))))
  · exact .inr (.inr (.inr (.inr (.inr (.inl h)))))

/-! ### DEV_CONDUCT (R550) -/

theorem exec_conductWrite_of_takes {s : State} {m : Master} {v : Word} (h : s.Takes m pgDev 0x100 v) :
    exec (.conductWrite m 0xF v) s = .next (((s.noteOrder m pgDev).writeConduct v).noteSince (s.noteOrder m pgDev)) :=
  congrArg Outcome.next (State.gated_in_turn h _)

/-- The level of conduct taken. -/
def State.conducts (s : State) (level : Nat) : State := s.setReg Key.devConduct (BitVec.ofNat 32 (2 ^ 31 + level))

theorem State.writeConduct_of_open {s : State} {v : Word} (hlevel : getBits v 7 0 ≤ 1) (hopen : s.bit Key.devConduct 31 = false) :
    s.writeConduct v = s.conducts (getBits v 7 0) :=
  (if_neg (Nat.not_lt.2 hlevel)).trans (if_pos hopen)

theorem State.writeConduct_of_level {v : Word} (h : 1 < getBits v 7 0) (s : State) : s.writeConduct v = s := if_pos h

theorem State.conducts_frame (s : State) {level : Nat} (h : level ≤ 1) : (s.conducts level).bit Key.devConduct 31 = true ∧
    (s.conducts level).fld Key.devConduct 7 0 = level ∧ RegsBut [Key.devConduct] s (s.conducts level) := by
  have hword : (s.conducts level).reg Key.devConduct = BitVec.ofNat 32 (2 ^ 31 + level) := State.reg_setReg_same ..
  refine ⟨?_, ?_, fun k hk => State.reg_setReg_ne _ _ (List.mem_singleton.not.1 hk)⟩
  · rw [State.bit, State.fld, hword]
    interval_cases level <;> decide
  · rw [State.fld, hword]
    interval_cases level <;> decide

/-- Settles O51: BOOT by the checks of the banks in turn, each in one BOOT (log entry 115), the end of start-up by what it waits for (log
entry 117), and DEV_CONDUCT by the level that it takes. -/
theorem startUp : Obligations.StartUp := by
  unfold Obligations.StartUp
  refine ⟨?_, ?_, ?_, ?_, ?_, ?_⟩
  · intro s failed hpwr hrun hdead hlock
    exact ⟨_, rfl, fun hgood => (if_neg (State.boot_not_ignored hpwr hrun hdead hlock)).trans (if_pos hgood)⟩
  · intro s failed hpwr hrun hdead hlock hsettled hbad hother
    obtain ⟨hfirst, hsecond, hregs, hmem, hrunning⟩ := s.bootFails_frame
    exact ⟨_, exec_boot_of_neither (State.boot_not_ignored hpwr hrun hdead hlock) hsettled hbad hother failed, rfl, hrunning.trans hrun,
      hfirst, hsecond, hregs, hmem⟩
  · intro s hnew hrun htime hsync htrained hpair htest hrig htrial
    obtain ⟨hready, hshown, hirq, hregs, hmem⟩ := s.startedUp_frame
    exact ⟨_, exec_startupComplete_of_settled hnew hrun htime hsync htrained hpair htest hrig htrial, hready, hshown, hirq, hregs,
      .of_mem hmem⟩
  · intro s hwaits
    exact exec_startupComplete_of_waiting hwaits
  · intro s m v htakes hlevel hopen
    refine ⟨_, exec_conductWrite_of_takes htakes, ?_⟩
    rw [State.writeConduct_of_open (s := s.noteOrder m pgDev) hlevel hopen]
    obtain ⟨htaken, hshown, hregs⟩ := (s.noteOrder m pgDev).conducts_frame hlevel
    exact ⟨htaken, hshown, hregs, .of_mem rfl, rfl⟩
  · intro s m v htakes hlevel
    refine ⟨_, exec_conductWrite_of_takes htakes, ?_⟩
    rw [State.writeConduct_of_level hlevel]
    exact wroteAs_noteSince ..

end Sys2Proof.Machine
end

section
/-! Idle states: entry, hold-off and exit (23 R564 to R566). -/

namespace Sys2Proof.Machine

open Host

theorem State.idleOf_setIdle_same (s : State) {x : IdleSt} {d : IdleDomain} (h : x.dom = d) : (s.setIdle x).idleOf d = some x := by
  subst h
  have hgone : (s.power.idle.filter fun y => decide (y.dom ≠ x.dom)).find? (fun y => decide (y.dom = x.dom)) = none :=
    List.find?_eq_none.2 fun y hy => by simpa using List.of_mem_filter hy
  rw [State.idleOf, State.setIdle, List.find?_append, hgone, Option.none_or]
  exact List.find?_cons_of_pos (by simp)

theorem State.idleOf_dropIdle_same (s : State) (d : IdleDomain) : (s.dropIdle d).idleOf d = none :=
  List.find?_eq_none.2 fun y hy => by simpa using List.of_mem_filter hy

/-- A domain in one of the states that only it enters: the entry is counted. -/
theorem State.enterIdle_of_own {x : IdleSt} (hzero : x.st ≠ 0) (hfive : x.st ≠ 5) (s : State) :
    s.enterIdle x = (s.setIdle x).inc (Key.pwrEntry (x.st - 1)) :=
  (if_neg hfive).trans (if_neg hzero)

theorem State.enterIdle_frame {x : IdleSt} {d : IdleDomain} (hdom : x.dom = d) (hzero : x.st ≠ 0) (hfive : x.st ≠ 5) (s : State) :
    (s.enterIdle x).idleOf d = some x ∧ (s.enterIdle x).reg (Key.pwrEntry (x.st - 1)) = satInc (s.reg (Key.pwrEntry (x.st - 1))) ∧
      RegsBut [Key.pwrEntry (x.st - 1)] s (s.enterIdle x) ∧ (s.enterIdle x).mem = s.mem ∧ (s.enterIdle x).out = s.out := by
  rw [State.enterIdle_of_own hzero hfive]
  exact ⟨s.idleOf_setIdle_same hdom, State.reg_setReg_same .., RegsBut.inc rfl _, rfl, rfl⟩

/-! ### Entry -/

theorem State.mem_idleStates_yard {s : State} (hen : s.bit Key.pwrIdleEn 0 = true) (i : Nat) : 1 ∈ s.idleStates (.yard i) :=
  List.mem_filter.2 ⟨List.mem_cons_self, by simp [hen]⟩

theorem exec_idleEntry_yard {s : State} {i : Nat} (hrun : s.boot.running = true) (hawake : s.idleOf (.yard i) = none)
    (hidle : s.domainIdle (.yard i) = true) (hnext : s.nextEvent (.yard i) = none) (hen : s.bit Key.pwrIdleEn 0 = true) :
    exec (.idleEntry (.yard i)) s = .next (s.enterIdle ⟨.yard i, 1, s.tick, none, none⟩) := by
  have hgo : ¬(s.boot.running = false ∨ (s.idleOf (.yard i)).isSome = true ∨ s.domainIdle (.yard i) = false) := by
    rw [hrun, hawake, hidle]
    decide
  have hplan : s.planSweep (.yard i) = s := rfl
  refine congrArg Outcome.next ((if_neg hgo).trans ?_)
  dsimp only
  rw [hplan, hnext]
  dsimp only
  rw [if_pos (State.mem_idleStates_yard hen i)]

/-! ### Exit -/

theorem exec_idleExit (d : IdleDomain) (s : State) : exec (.idleExit d) s = execIdleExit d s := rfl

theorem exec_idleExit_of_ended {s : State} {d : IdleDomain} {x : IdleSt} {t0 : Nat} (hidle : s.idleOf d = some x)
    (hready : x.ready = some t0) (hended : t0 ≤ s.tick) : exec (.idleExit d) s = .next (s.dropIdle d) := by
  rw [exec_idleExit, execIdleExit, hidle]
  dsimp only
  rw [hready]
  exact congrArg Outcome.next (if_pos hended)

theorem exec_idleExit_of_planned {s : State} {d : IdleDomain} {x : IdleSt} {c : Nat} (hidle : s.idleOf d = some x)
    (hready : x.ready = none) (hstart : x.start = some c) :
    exec (.idleExit d) s = .next (if c ≤ s.time.count.toNat then s.beginExit x else s) := by
  rw [exec_idleExit, execIdleExit, hidle]
  dsimp only
  rw [hready, hstart]

/-! ### Hold-off -/

/-- A state deeper than that of `x` whose hold-off has run out. -/
def State.heldOff (s : State) (x : IdleSt) (y : Nat) : Bool :=
  decide (x.st < y) && decide (2 ≤ y) && decide (x.since + s.holdoff y ≤ s.tick)

theorem State.deepest_yard {s : State} {x : IdleSt} (hst : x.st = 1) (hen : s.bit Key.pwrIdleEn 1 = true) (hready : s.ready = true)
    (hlong : x.since + s.holdoff 2 ≤ s.tick) (i : Nat) : ((s.idleStates (.yard i)).filter (s.heldOff x)).getLast? = some 2 := by
  have hfirst : s.heldOff x 1 = false := by simp [State.heldOff, hst]
  have hsecond : s.heldOff x 2 = true := by simp [State.heldOff, hst, hlong]
  have htwo : s.idleStates (.yard i) = [1, 2].filter fun y => s.bit Key.pwrIdleEn (y - 1) && (decide (y = 1) || s.ready) := rfl
  have honly : (s.idleStates (.yard i)).filter (s.heldOff x) = [2] := by
    rw [htwo, List.filter_filter]
    simp [hfirst, hsecond, hen, hready]
  rw [honly]
  rfl

theorem exec_holdoffExpire_yard {s : State} {i : Nat} {x : IdleSt} (hidle : s.idleOf (.yard i) = some x) (hst : x.st = 1)
    (hstart : x.start = none) (hready : x.ready = none) (hrest : s.domainIdle (.yard i) = true) (hen : s.bit Key.pwrIdleEn 1 = true)
    (hup : s.ready = true) (hlong : x.since + s.holdoff 2 ≤ s.tick) :
    exec (.holdoffExpire (.yard i)) s = .next (s.enterIdle { x with st := 2 }) := by
  have hrow : exec (.holdoffExpire (.yard i)) s = execHoldoffExpire (.yard i) s := rfl
  have hgo : ¬(x.start ≠ none ∨ x.ready ≠ none ∨ s.domainIdle (.yard i) = false) := by
    rw [hstart, hready, hrest]
    decide
  have hdeepest : ((s.idleStates (.yard i)).filter fun y => decide (x.st < y) && decide (2 ≤ y) &&
      decide (x.since + s.holdoff y ≤ s.tick)).getLast? = some 2 := State.deepest_yard hst hen hup hlong i
  rw [hrow, execHoldoffExpire, hidle]
  refine congrArg Outcome.next ((if_neg hgo).trans ?_)
  rw [hdeepest]

/-- Settles O53: an entry is noted and counted, and an exit by what the domain's state says of it. -/
theorem idleStates : Obligations.IdleStates := by
  unfold Obligations.IdleStates
  refine ⟨?_, ?_, ?_, ?_⟩
  · intro s i hrun hawake hidle hnext hen
    obtain ⟨hnoted, hcount, hregs, hmem, hout⟩ :=
      State.enterIdle_frame (x := ⟨.yard i, 1, s.tick, none, none⟩) (d := .yard i) rfl Nat.one_ne_zero (show (1 : Nat) ≠ 5 by decide) s
    exact ⟨_, exec_idleEntry_yard hrun hawake hidle hnext hen, hnoted, hcount, hregs, .of_mem hmem, hout⟩
  · intro s d x t0 hidle hready hended
    exact ⟨_, exec_idleExit_of_ended hidle hready hended, s.idleOf_dropIdle_same d, .of_regs rfl _, .of_mem rfl, rfl⟩
  · intro s d x c hidle hready hstart
    rw [exec_idleExit_of_planned hidle hready hstart]
    exact ⟨fun hdue => by rw [if_pos hdue], fun hearly => by rw [if_neg (Nat.not_le.2 hearly)]⟩
  · intro s i x hidle hdom hst hstart hready hrest hen hup hlong
    obtain ⟨hnoted, hcount, hregs, hmem, hout⟩ :=
      State.enterIdle_frame (x := { x with st := 2 }) (d := .yard i) hdom (Nat.succ_ne_zero 1) (show (2 : Nat) ≠ 5 by decide) s
    exact ⟨_, exec_holdoffExpire_yard hidle hst hstart hready hrest hen hup hlong, hnoted, hcount, hregs, .of_mem hmem, hout⟩

end Sys2Proof.Machine
end

section
/-! The reset of a die is the same with the note that arbitration makes of a write's place and without it (03 R41; 22 R535). -/

namespace Sys2Proof.Machine

open Host

variable (s : State) (m : Master) (p : Nat)

theorem State.noteOrder_setBit (k b : Nat) (x : Bool) : (s.setBit k b x).noteOrder m p = (s.noteOrder m p).setBit k b x := rfl

theorem State.noteOrder_fail (r : Req) (st dt : Nat) : (s.fail r st dt).noteOrder m p = (s.noteOrder m p).fail r st dt := by
  unfold State.fail
  exact State.noteOrder_finish ..

theorem State.noteOrder_failAll (f : Req → Bool) (st dt : Nat) : (s.failAll f st dt).noteOrder m p = (s.noteOrder m p).failAll f st dt := by
  unfold State.failAll
  exact State.noteOrder_foldl (fun t r => t.noteOrder_fail m p r st dt) ..

theorem State.noteOrder_failTags (l : List (Nat × BitVec 64)) (st dt : Nat) :
    (l.foldl (fun t x => t.failTag x.1 x.2 st dt) s).noteOrder m p = l.foldl (fun t x => t.failTag x.1 x.2 st dt) (s.noteOrder m p) :=
  State.noteOrder_foldl (fun t x => t.noteOrder_failTag m p x.1 x.2 st dt) ..

theorem State.noteOrder_loseUnits (l : List UnitId) (st dt : Nat) :
    (l.foldl (fun t u => t.loseUnitAs u st dt) s).noteOrder m p = l.foldl (fun t u => t.loseUnitAs u st dt) (s.noteOrder m p) :=
  State.noteOrder_foldl (fun t u => t.noteOrder_loseUnitAs m p u st dt) ..

/-! ### Images -/

theorem State.noteOrder_clearPanelWork (q : Nat) : (s.clearPanelWork q).noteOrder m p = (s.noteOrder m p).clearPanelWork q := by
  have hpanel : (s.noteOrder m p).panel q = s.panel q := rfl
  unfold State.clearPanelWork
  dsimp only
  rw [hpanel]
  cases (s.panel q).copy with
  | none => rfl
  | some a => exact congrArg (State.setPanel · q _) (State.noteOrder_dropBlock ..)

/-- A group that holds no model. -/
def State.groupUnbound (s : State) (g : Nat) : State :=
  (s.setGroup g { s.group g with model := none, due := false }).setBit (Key.cpgStat g) 30 false

theorem State.noteOrder_groupUnbound (g : Nat) : (s.groupUnbound g).noteOrder m p = (s.noteOrder m p).groupUnbound g := rfl

theorem State.unbindGroup_eq (g : Nat) : s.unbindGroup g = (groupPanels g).foldl State.clearPanelWork (s.groupUnbound g) := rfl

theorem State.noteOrder_unbindGroup (g : Nat) : (s.unbindGroup g).noteOrder m p = (s.noteOrder m p).unbindGroup g := by
  rw [State.unbindGroup_eq, State.unbindGroup_eq, State.noteOrder_foldl fun t q => t.noteOrder_clearPanelWork m p q,
    State.noteOrder_groupUnbound]

theorem State.noteOrder_unbindGroups (x : Model) : (s.unbindGroups x).noteOrder m p = (s.noteOrder m p).unbindGroups x := by
  rw [State.unbindGroups, State.noteOrder_foldl fun t (b : BoundGroup) => t.noteOrder_unbindGroup m p b.phys, State.unbindGroups]

theorem State.noteOrder_unloadsDone (q handle : Nat) : (s.unloadsDone q handle).noteOrder m p = (s.noteOrder m p).unloadsDone q handle := by
  have hdescs : (s.noteOrder m p).descs = s.descs := rfl
  unfold State.unloadsDone
  rw [hdescs]
  refine State.noteOrder_foldl (fun t d => ?_) _ s
  exact t.noteOrder_complete m p q d.num (completion d.tag d.sq stOk 0 0 0 0)

/-- An image's record, with its plans and jobs, is gone. -/
def State.imageGone (s : State) (x : Model) : State :=
  { s with
    fab := { s.fab with
      plans := s.fab.plans.filter fun b => !(decide (b.part = x.part) && decide (b.handle = x.handle))
      waiting := s.fab.waiting.filter fun y => !(decide (y.2.1 = x.part) && decide (y.2.2.2.1 = x.handle)) }
    cnv := { s.cnv with
      jobs := s.cnv.jobs.filter fun j => !(decide (j.part = x.part) && decide (j.handle = x.handle))
      waiting := s.cnv.waiting.filter fun y => !(decide (y.2.1 = x.part) && decide (y.2.2.2.1 = x.handle)) }
    models := s.models.filter fun y => !(decide (y.part = x.part) && decide (y.handle = x.handle)) }

theorem State.noteOrder_imageGone (x : Model) : (s.imageGone x).noteOrder m p = (s.noteOrder m p).imageGone x := rfl

theorem State.releaseImage_eq (x : Model) : s.releaseImage x =
    ((((x.frames.foldl (fun t f => t.freeScrub f.1) s).unbindGroups x).imageGone x).unloadsDone x.part x.handle).kvpUpdate := rfl

theorem State.noteOrder_releaseImage (x : Model) : (s.releaseImage x).noteOrder m p = (s.noteOrder m p).releaseImage x := by
  rw [State.releaseImage_eq, State.noteOrder_kvpUpdate, State.noteOrder_unloadsDone, State.noteOrder_imageGone, State.noteOrder_unbindGroups,
    State.noteOrder_foldl fun t f => t.noteOrder_freeScrub m p f.1, ← State.releaseImage_eq]

theorem State.noteOrder_releaseModel (x : Model) : (s.releaseModel x).noteOrder m p = (s.noteOrder m p).releaseModel x := by
  unfold State.releaseModel
  exact State.noteOrder_releaseImage ..

theorem State.noteOrder_refuseLoad (x : Model) (detail : Nat) : (s.refuseLoad x detail).noteOrder m p = (s.noteOrder m p).refuseLoad x detail := by
  have hdescs : (s.noteOrder m p).descs = s.descs := rfl
  unfold State.refuseLoad
  rw [hdescs, ← State.noteOrder_releaseImage]
  cases s.descs.find? fun d => decide (d.part = x.part) && decide (d.kind = .load x.handle) && !d.ended with
  | none => rfl
  | some d => exact State.noteOrder_complete ..

/-! ### A memory region -/

theorem State.noteOrder_failShards (f : Shard → Bool) (st dt : Nat) :
    (s.failShards f st dt).noteOrder m p = (s.noteOrder m p).failShards f st dt := by
  unfold State.failShards
  exact State.noteOrder_foldl (fun t h => t.noteOrder_failTag m p h.part h.tag st dt) ..

theorem State.noteOrder_removeNodes (f : Node → Bool) : (s.removeNodes f).noteOrder m p = (s.noteOrder m p).removeNodes f := by
  have hunref : ∀ (t : State) (n : Node), (n.recs.foldl State.unref t).noteOrder m p = n.recs.foldl State.unref (t.noteOrder m p) :=
    fun t n => State.noteOrder_foldl (fun u a => u.noteOrder_unref m p a) ..
  unfold State.removeNodes
  dsimp only
  rw [State.noteOrder_dropKeys, State.noteOrder_foldl fun t (n : Node) => t.noteOrder_dropRecBlock m p n.block,
    State.noteOrder_foldl hunref]
  rfl

/-- An image that has frames in a lost region: a load is refused, and the requests of a loaded one complete. -/
def State.loseImage (s : State) (x : Model) : State :=
  if x.st = .loading then s.refuseLoad x 0x01
  else (s.failAll (fun r => decide (r.part = x.part) && decide (r.d.model = x.handle)) stRefusedModel 0x01).releaseModel x

theorem State.noteOrder_loseImage (x : Model) : (s.loseImage x).noteOrder m p = (s.noteOrder m p).loseImage x := by
  unfold State.loseImage
  rw [← State.noteOrder_failAll, ← State.noteOrder_releaseModel]
  exact State.noteOrder_ite (State.noteOrder_refuseLoad ..) rfl

/-- The nodes of a region that leaves, and those that refer to pages in it. -/
def State.regionNode (s : State) (n : Nat) (x : Node) : Bool :=
  inRegion n (x.block / 4096) || x.recs.any fun a => (s.pte a).present && inRegion n (s.pte a).first

/-- A region taken off line, and what uses its shards failed. -/
def State.regionOff (s : State) (n : Nat) : State :=
  let t := (siblings n).foldl (fun t k => t.setBit (unitReg k 0x100) 1 false) (s.latch (unitPage n) 3 0)
  t.failShards (t.shardIn n) stFaultMemory 0x04

theorem State.noteOrder_regionOff (n : Nat) : (s.regionOff n).noteOrder m p = (s.noteOrder m p).regionOff n := by
  have hoff := State.noteOrder_foldl (m := m) (p := p) (f := fun t k => t.setBit (unitReg k 0x100) 1 false) (fun _ _ => rfl) (siblings n)
    (s.latch (unitPage n) 3 0)
  unfold State.regionOff
  dsimp only
  rw [State.noteOrder_failShards, ← State.noteOrder_latch, ← hoff]
  rfl

/-- The nodes and images of a region gone. -/
def State.regionEmptied (s : State) (n : Nat) : State :=
  let t := s.removeNodes (s.regionNode n)
  ((t.models.filter fun x => x.frames.any fun f => inRegion n f.1).foldl State.loseImage
    (t.abortWhere (fun _ x => inRegion n x.dst) false)).kvpUpdate

theorem State.noteOrder_regionEmptied (n : Nat) : (s.regionEmptied n).noteOrder m p = (s.noteOrder m p).regionEmptied n := by
  have hnode : (s.noteOrder m p).regionNode n = s.regionNode n := rfl
  have hmodels : ∀ t : State, (t.noteOrder m p).models = t.models := fun _ => rfl
  unfold State.regionEmptied
  dsimp only
  rw [State.noteOrder_kvpUpdate, State.noteOrder_foldl fun t x => t.noteOrder_loseImage m p x, State.noteOrder_abortWhere,
    State.noteOrder_removeNodes, hnode, ← State.noteOrder_removeNodes, hmodels]

theorem State.loseRegion_eq (n : Nat) : s.loseRegion n = if s.bit (unitReg n 0x100) 1 then (s.regionOff n).regionEmptied n else s := rfl

theorem State.noteOrder_loseRegion (n : Nat) : (s.loseRegion n).noteOrder m p = (s.noteOrder m p).loseRegion n := by
  rw [State.loseRegion_eq, State.loseRegion_eq, ← State.noteOrder_regionOff, ← State.noteOrder_regionEmptied]
  exact State.noteOrder_ite rfl rfl

/-! ### A Spar and a Canvas die -/

theorem State.noteOrder_failSpar (k st dt : Nat) : (s.failSpar k st dt).noteOrder m p = (s.noteOrder m p).failSpar k st dt := by
  unfold State.failSpar
  dsimp only
  rw [← State.noteOrder_failTags]
  rfl

theorem State.noteOrder_loseSpar (k st dt : Nat) : (s.loseSpar k st dt).noteOrder m p = (s.noteOrder m p).loseSpar k st dt := by
  unfold State.loseSpar
  rw [State.noteOrder_loseUnits, State.noteOrder_loseUnitAs]

theorem State.noteOrder_clearSpar (k : Nat) : (s.clearSpar k).noteOrder m p = (s.noteOrder m p).clearSpar k := rfl

/-- The requests whose jobs run on a Canvas die completed. -/
def State.failCanvas (s : State) (c st dt : Nat) : State :=
  (((s.cnv.jobs.filter fun j => decide (j.die = c)).flatMap fun j => j.tags.map fun t => (j.part, t)).eraseDups).foldl
    (fun t x => t.failTag x.1 x.2 st dt) s

/-- The images with groups on a Canvas die gone. -/
def State.loseCanvasImages (s : State) (c : Nat) : State :=
  (s.models.filter fun x => x.physGroups.any fun g => decide (g / 64 = c)).foldl
    (fun t x => if x.st = .loading then t.refuseLoad x 0x1C else t.releaseModel x) s

/-- What a Canvas die keeps: its groups' tags, and its panels' cells. -/
def State.canvasKept (s : State) (c : Nat) : State :=
  { s with cnv := { s.cnv with
    groups := s.cnv.groups.filterMap fun e => if e.1 / 64 = c then
      (let y : Group := { tag := e.2.tag }; if y = {} then none else some (e.1, y)) else some e
    panels := s.cnv.panels.filterMap fun e => if e.1 / 2048 = c then
      (let y := e.2.kept; if y = {} then none else some (e.1, y)) else some e
    jobs := s.cnv.jobs.filter fun j => decide (j.die ≠ c) } }

theorem State.noteOrder_failCanvas (c st dt : Nat) : (s.failCanvas c st dt).noteOrder m p = (s.noteOrder m p).failCanvas c st dt := by
  unfold State.failCanvas
  rw [State.noteOrder_failTags]
  rfl

theorem State.noteOrder_loseCanvasImages (c : Nat) : (s.loseCanvasImages c).noteOrder m p = (s.noteOrder m p).loseCanvasImages c := by
  unfold State.loseCanvasImages
  refine State.noteOrder_foldl (fun t x => ?_) ..
  exact State.noteOrder_ite (t.noteOrder_refuseLoad m p x 0x1C) (t.noteOrder_releaseModel m p x)

theorem State.noteOrder_canvasKept (c : Nat) : (s.canvasKept c).noteOrder m p = (s.noteOrder m p).canvasKept c := rfl

/-! ### A die -/

theorem State.dieLeaves_eq (d st dt : Nat) : s.dieLeaves d st dt =
    if d ≤ 3 then
      ((((s.failSpar d st dt).loseSpar d st dt).loseUnitAs ⟨utScatter, d, 0⟩ st dt).loseRegion (2 * d)).clearSpar d
    else if d ≤ 7 then
      ((dieUnits d).foldl (fun t u => t.loseUnitAs u st dt) ((s.failCanvas (d - 4) st dt).loseCanvasImages (d - 4))).canvasKept (d - 4)
    else if d ≤ 9 then
      ((List.range 6).map fun i => 6 * (d - 8) + i).foldl (fun t b => t.bundleDown b true) (s.loseUnitAs ⟨utCollective, d - 8, 0⟩ st dt)
    else s := rfl

theorem State.noteOrder_dieLeaves (d st dt : Nat) : (s.dieLeaves d st dt).noteOrder m p = (s.noteOrder m p).dieLeaves d st dt := by
  rw [State.dieLeaves_eq, State.dieLeaves_eq]
  refine State.noteOrder_ite ?_ (State.noteOrder_ite ?_ (State.noteOrder_ite ?_ rfl))
  · rw [State.noteOrder_clearSpar, State.noteOrder_loseRegion, State.noteOrder_loseUnitAs, State.noteOrder_loseSpar,
      State.noteOrder_failSpar]
  · rw [State.noteOrder_canvasKept, State.noteOrder_loseUnits, State.noteOrder_loseCanvasImages, State.noteOrder_failCanvas]
  · rw [State.noteOrder_foldl fun t b => t.noteOrder_bundleDown m p b true, State.noteOrder_loseUnitAs]

theorem State.noteOrder_dropAccesses (d : Nat) : (s.dropAccesses d).noteOrder m p = (s.noteOrder m p).dropAccesses d := by
  unfold State.dropAccesses
  refine State.noteOrder_foldl (fun t a => ?_) ..
  exact State.noteOrder_ite rfl (State.noteOrder_ite rfl rfl)

/-- The status and the detail with which the requests of a die that a reset takes complete (22 Table 22.4). -/
def dieStatus (cause : Nat) : Nat × Nat := if cause = 0x10 then (stFaultSupply, 0) else (stFaultUnit, 0x1A)

/-- A die in reset, shown with its cause, once its units have left. -/
def State.dieHeld (s : State) (d cause : Nat) (lost : List UnitId) : State :=
  let t := ((s.setReg Key.rstDieLast (BitVec.ofNat 32 (d * 256 + cause))).resetDiePages d).dropAccesses d
  { t with boot := { t.boot with inReset := t.boot.inReset ++ [d], lost := t.boot.lost ++ lost } }

theorem State.dieReset_of_running {s : State} {d : Nat} (h : ¬(d ∈ s.boot.inReset ∨ 9 < d)) (cause : Nat) :
    s.dieReset d cause = (s.dieLeaves d (dieStatus cause).1 (dieStatus cause).2).dieHeld d cause (s.lostUnits (dieUnits d)) := if_neg h

theorem State.dieReset_of_held {s : State} {d : Nat} (h : d ∈ s.boot.inReset ∨ 9 < d) (cause : Nat) : s.dieReset d cause = s := if_pos h

theorem State.noteOrder_dieHeld (d cause : Nat) (lost : List UnitId) :
    (s.dieHeld d cause lost).noteOrder m p = (s.noteOrder m p).dieHeld d cause lost := by
  have hpages : ((s.noteOrder m p).setReg Key.rstDieLast (BitVec.ofNat 32 (d * 256 + cause))).resetDiePages d =
      ((s.setReg Key.rstDieLast (BitVec.ofNat 32 (d * 256 + cause))).resetDiePages d).noteOrder m p := rfl
  unfold State.dieHeld
  rw [hpages, ← State.noteOrder_dropAccesses]
  rfl

/-- The reset of a die is the same with a note of arbitration and without it. -/
theorem State.noteOrder_dieReset (d cause : Nat) : (s.dieReset d cause).noteOrder m p = (s.noteOrder m p).dieReset d cause := by
  by_cases h : d ∈ s.boot.inReset ∨ 9 < d
  · rw [State.dieReset_of_held h, State.dieReset_of_held (s := s.noteOrder m p) h]
  · have hlost : (s.noteOrder m p).lostUnits (dieUnits d) = s.lostUnits (dieUnits d) := rfl
    rw [State.dieReset_of_running h, State.dieReset_of_running (s := s.noteOrder m p) h, hlost, State.noteOrder_dieHeld,
      State.noteOrder_dieLeaves]

/-! ### What a die's reset shows -/

theorem State.reg_dropAccesses (d k : Nat) : (s.dropAccesses d).reg k = s.reg k := by
  unfold State.dropAccesses
  refine List.foldlRecOn (motive := fun t : State => t.reg k = s.reg k) _ _ rfl fun t ht a _ => ?_
  split
  · exact ht
  · split
    · exact ht
    · exact ht

/-- The page of the resets is no die's. -/
theorem State.rstDieLast_resetDiePages {d : Nat} (hd : d ≤ 9) : (s.resetDiePages d).reg Key.rstDieLast = s.reg Key.rstDieLast := by
  have hpage : pageDie (Key.rstDieLast / 1024) = 11 := by decide
  have hkeep : decide (pageDie (Key.rstDieLast / 1024) = d) = false := decide_eq_false (by omega)
  refine (SMap.get_filter resetVal s.regs (fun k => !(decide (pageDie (k / 1024) = d) && decide (k ≠ Key.lnkSheet)
    && decide (k ≠ Key.fltLatch (k / 1024)) && decide (k ≠ Key.fltInfo (k / 1024)))) Key.rstDieLast).trans (if_pos ?_)
  rw [hkeep]
  rfl

/-- A die that a reset takes is in reset, and RST_DIE_LAST shows it with its cause. -/
theorem State.dieReset_frame {s : State} {d : Nat} (hrunning : d ∉ s.boot.inReset) (hd : d ≤ 9) (cause : Nat) :
    d ∈ (s.dieReset d cause).boot.inReset ∧ (s.dieReset d cause).reg Key.rstDieLast = BitVec.ofNat 32 (d * 256 + cause) := by
  rw [State.dieReset_of_running (not_or.2 ⟨hrunning, Nat.not_lt.2 hd⟩)]
  refine ⟨List.mem_append_right _ (List.mem_singleton_self d), ?_⟩
  refine (State.reg_dropAccesses ..).trans ?_
  rw [State.rstDieLast_resetDiePages _ hd, State.reg_setReg_same]

end Sys2Proof.Machine
end

section
/-! Resets of the package and of a die, and a die that returns (22 R532 to R536, R544, R555, R558). -/

namespace Sys2Proof.Machine

open Host

/-! ### Power-on (R532; 26 R628, R633) -/

/-- PWR_OK asserted: THERMTRIP_N is released, unless the trip came in the tick of the deassertion. -/
def State.powered (s : State) : State :=
  { s with pins := { s.pins with pwrOk := true, thermtrip := s.pins.thermtrip && s.pins.tripHeld, tripHeld := false } }

theorem exec_por (s : State) : exec .por s = .next (if s.pins.tripHeld then (s.powered.packageReset 1).latch pgThm 1 0
    else s.powered.packageReset 1) := rfl

theorem State.powered_reset_frame (s : State) : (s.powered.packageReset 1).pins.pwrOk = true ∧
    (s.powered.packageReset 1).fld Key.rstStat 15 8 = 1 ∧ (s.powered.packageReset 1).ready = false ∧
      (s.powered.packageReset 1).reqs = [] ∧ (s.powered.packageReset 1).mem.bytes = [] := by
  have hpwr : s.powered.pins.pwrOk = true := rfl
  obtain ⟨hcause, hready⟩ := State.packageReset_cause hpwr (cause := 1) (by decide)
  obtain ⟨hreqs, -, hbytes, -, -⟩ := State.packageReset_forgets hpwr 1
  exact ⟨by rw [State.packageReset_pins, hpwr], hcause, hready, hreqs, hbytes⟩

/-! ### RST_CMD -/

theorem exec_packageReset_of_takes {s : State} {m : Master} (h : s.Takes m pgRst 0x104 1) :
    exec (.packageReset m 0xF) s = .next (((s.noteOrder m pgRst).packageOp 3).noteSince (s.noteOrder m pgRst)) :=
  congrArg Outcome.next (State.gated_in_turn h _)

theorem exec_activate_of_takes {s : State} {m : Master} (h : s.Takes m pgRst 0x104 3) :
    exec (.activate m 0xF) s = .next ((s.noteOrder m pgRst).activate.noteSince (s.noteOrder m pgRst)) :=
  congrArg Outcome.next (State.gated_in_turn h _)

theorem exec_dieCommand_of_takes {s : State} {m : Master} {die : Byte} {v : Word} (hv : v = BitVec.ofNat 32 (die.toNat * 256 + 2))
    (h : s.Takes m pgRst 0x104 v) :
    exec (.dieCommand m 0xF die) s = .next (((s.noteOrder m pgRst).writeRstCmd v).noteSince (s.noteOrder m pgRst)) := by
  subst hv
  exact congrArg Outcome.next (State.gated_in_turn h _)

/-- A die command names op 2 and its die. -/
theorem getBits_dieCommand (die : Byte) : getBits (BitVec.ofNat 32 (die.toNat * 256 + 2)) 7 0 = 2 ∧
    getBits (BitVec.ofNat 32 (die.toNat * 256 + 2)) 15 8 = die.toNat := by
  have hdie : die.toNat < 256 := die.isLt
  simp only [getBits, bitsOf, BitVec.toNat_ofNat]
  generalize die.toNat = d at hdie
  omega

theorem State.writeRstCmd_die (s : State) {v : Word} (hop : getBits v 7 0 = 2) : s.writeRstCmd v =
    if getBits v 15 8 = 10 ∨ getBits v 15 8 = 11 then s.packageOp 3 else s.dieReset (getBits v 15 8) 0x11 :=
  (if_neg (by rw [hop]; decide)).trans (if_pos hop)

/-! ### A package op (R555) -/

/-- Nothing that arrives after it in its cycle is performed. -/
def State.opIsDone (s : State) : State := { s with boot := { s.boot with opDone := true } }

theorem State.packageOp_eq (s : State) (cause : Nat) : s.packageOp cause = (s.packageReset cause).opIsDone := rfl

theorem State.heard_of_opDone {s : State} (h : s.boot.opDone = true) (m : Master) : s.heard m = false := by
  rw [State.heard, h]
  rfl

theorem State.packageOp_frame (s : State) (cause : Nat) : (s.packageOp cause).boot.opDone = true ∧
    ∀ k, (s.packageOp cause).reg k = (s.packageReset cause).reg k := ⟨rfl, fun _ => rfl⟩

section

variable (s : State) (m : Master) (p : Nat)

/-- A package op in its turn leaves what it leaves without its note: the reset forgets it, or nothing happens at all. -/
theorem State.packageOp_noteOrder (cause : Nat) :
    (s.noteOrder m p).packageOp cause = s.packageOp cause ∨ (s.noteOrder m p).packageOp cause = (s.packageOp cause).noteOrder m p := by
  rw [State.packageOp_eq, State.packageOp_eq]
  by_cases h : s.pins.pwrOk = true
  · exact .inl (by rw [State.packageReset_noteOrder_of_powered s m p h])
  · have hlow : s.pins.pwrOk = false := Bool.eq_false_iff.2 h
    refine .inr ?_
    rw [State.packageReset_of_low (s := s.noteOrder m p) hlow, State.packageReset_of_low hlow]
    rfl

theorem State.wroteAs_packageOp (cause : Nat) (r : State) :
    WroteAs (s.packageOp cause) (((s.noteOrder m p).packageOp cause).noteSince r) := by
  rcases s.packageOp_noteOrder m p cause with h | h
  · rw [h]
    rfl
  · rw [h]
    exact wroteAs_noteSince ..

/-! ### ACTIVATE (R544) -/

/-- The next boot is a trial. -/
def State.trialNext (s : State) : State := { s with boot := { s.boot with trial := true } }

theorem State.activate_eq : s.activate = if s.sbd.update.isSome ∨ s.boot.trial = true ∨ s.bankSigned (1 - s.fld Key.rstStat 27 27) = false
    then s.setBit Key.rstStat 25 true
    else ((s.writeSelect (1 - s.fld Key.rstStat 27 27) true).packageOp 4).trialNext := rfl

theorem State.wroteAs_activate (r : State) : WroteAs s.activate ((s.noteOrder m p).activate.noteSince r) := by
  have hcond : (s.noteOrder m p).activate = if s.sbd.update.isSome ∨ s.boot.trial = true ∨ s.bankSigned (1 - s.fld Key.rstStat 27 27) = false
      then (s.setBit Key.rstStat 25 true).noteOrder m p
      else (((s.writeSelect (1 - s.fld Key.rstStat 27 27) true).noteOrder m p).packageOp 4).trialNext := rfl
  rw [hcond, State.activate_eq]
  split
  · exact wroteAs_noteSince ..
  · rcases (s.writeSelect (1 - s.fld Key.rstStat 27 27) true).packageOp_noteOrder m p 4 with h | h
    · rw [h]
      rfl
    · rw [h]
      exact wroteAs_noteSince (State.trialNext _) r m p

end

/-! ### DIE_RETURN (R536) -/

/-- A die out of reset, and its return counted. -/
def State.dieBack (s : State) (d : Nat) : State :=
  ({ s with boot := { s.boot with inReset := s.boot.inReset.filter fun x => decide (x ≠ d) } } : State).inc Key.rstDieCnt

/-- A Canvas die that returns while no firmware runs. -/
theorem exec_dieReturn_canvas {s : State} {die : BitVec 4} (hlow : 4 ≤ die.toNat) (hhigh : die.toNat ≤ 7)
    (hheld : die.toNat ∈ s.boot.inReset) (hsupply : die.toNat ∉ s.power.supply) (hcut : die.toNat ∉ s.clk.cut)
    (hpwr : s.pins.pwrOk = true) (hrun : s.boot.running = false) (failed : List UnitId) (retried bad : List (BitVec 1)) (us : List Word) :
    exec (.dieReturn die failed retried bad us) s = .next (s.dieBack die.toNat) := by
  have hrunning : ¬(s.dieBack die.toNat).boot.running = true := fun h => Bool.false_ne_true (hrun.symm.trans h)
  refine congrArg Outcome.next ((if_pos ⟨hheld, hsupply, hcut, by omega, hpwr⟩).trans ?_)
  refine (if_neg (by omega)).trans ((if_neg (by omega)).trans (if_neg hrunning))

theorem State.dieBack_frame (s : State) (d : Nat) : d ∉ (s.dieBack d).boot.inReset ∧
    (s.dieBack d).reg Key.rstDieCnt = satInc (s.reg Key.rstDieCnt) ∧ RegsBut [Key.rstDieCnt] s (s.dieBack d) :=
  ⟨fun h => by simpa using List.of_mem_filter h, State.reg_setReg_same .., RegsBut.inc rfl _⟩

/-- Settles O50: package resets by what they keep and forget (the queue and the pins outlive one: log entries 114 and 139), the commands of
RST_CMD by the reset that each is but for the bus's notes, and the resets and the return of a die by what they show. -/
theorem resets : Obligations.Resets := by
  unfold Obligations.Resets
  refine ⟨?_, ?_, ?_, ?_, ?_, ?_, ?_, ?_, ?_, ?_, ?_, ?_⟩
  · intro s c hpwr hc
    obtain ⟨hcause, hready⟩ := State.packageReset_cause hpwr hc
    obtain ⟨hnew, hold⟩ := State.packageReset_history hpwr hc
    obtain ⟨hreqs, hmodels, hbytes, hrunning, hpending⟩ := State.packageReset_forgets hpwr c
    exact ⟨hcause, hready, hnew, hold, hreqs, hmodels, hbytes, hrunning, hpending, s.packageReset_pins c⟩
  · intro s
    rfl
  · intro s
    obtain ⟨hpwr, hcause, hready, hreqs, hbytes⟩ := s.powered_reset_frame
    refine ⟨_, exec_por s, ?_⟩
    generalize s.powered.packageReset 1 = t at hpwr hcause hready hreqs hbytes ⊢
    split
    · obtain ⟨-, hregs, -⟩ := t.latch_frame pgThm (c := 1) 0 (by decide)
      have hstat : (t.latch pgThm 1 0).reg Key.rstStat = t.reg Key.rstStat := hregs _ (by decide)
      exact ⟨by rw [State.latch_pins, hpwr], (State.fld_congr hstat 15 8).trans hcause, (State.ready_congr hstat).trans hready,
        by rw [State.latch_reqs, hreqs], by rw [State.latch_mem, hbytes]⟩
    · exact ⟨hpwr, hcause, hready, hreqs, hbytes⟩
  · intro s
    rfl
  · intro s
    rfl
  · intro s m htakes
    exact ⟨_, exec_packageReset_of_takes htakes, s.wroteAs_packageOp m pgRst 3 _⟩
  · intro s m die htakes
    obtain ⟨hop, hdie⟩ := getBits_dieCommand die
    generalize hv : BitVec.ofNat 32 (die.toNat * 256 + 2) = v at htakes hop hdie
    have hexec := exec_dieCommand_of_takes hv.symm htakes
    rw [State.writeRstCmd_die _ hop, hdie] at hexec
    refine ⟨fun hpackage => ?_, fun hlow => ?_, fun hhigh => ?_⟩
    · rw [if_pos hpackage] at hexec
      exact ⟨_, hexec, s.wroteAs_packageOp m pgRst 3 _⟩
    · rw [if_neg (by omega), ← State.noteOrder_dieReset] at hexec
      exact ⟨_, hexec, wroteAs_noteSince ..⟩
    · rw [if_neg (by omega), State.dieReset_of_held (.inr (by omega))] at hexec
      exact ⟨_, hexec, wroteAs_noteSince ..⟩
  · intro s c
    obtain ⟨hdone, hregs⟩ := s.packageOp_frame c
    exact ⟨hdone, hregs _, State.heard_of_opDone hdone⟩
  · intro s d cause hheld
    exact State.dieReset_of_held (.inl hheld) cause
  · intro s d cause hrunning hd
    exact State.dieReset_frame hrunning hd cause
  · intro s m htakes
    exact ⟨_, exec_activate_of_takes htakes, s.wroteAs_activate m pgRst _⟩
  · intro s die failed retried bad us hlow hhigh hheld hsupply hcut hpwr hrun
    obtain ⟨hback, hcount, hregs⟩ := s.dieBack_frame die.toNat
    exact ⟨_, exec_dieReturn_canvas hlow hhigh hheld hsupply hcut hpwr hrun failed retried bad us, hback, hcount, hregs, .of_mem rfl, rfl⟩

end Sys2Proof.Machine
end

section
/-! Supply rails: dips, their holds, and resets by a supply (23 R560 to R562; 26 R637, R639). -/

namespace Sys2Proof.Machine

open Host

theorem pwrRailStat_ne_pwrRailMin (r : Nat) : Key.pwrRailStat r ≠ Key.pwrRailMin r := by
  simp only [Key.pwrRailStat, Key.pwrRailMin, regKey]
  omega

theorem pwrRailStat_ne_pwrRailDipCnt (r : Nat) : Key.pwrRailStat r ≠ Key.pwrRailDipCnt r := by
  simp only [Key.pwrRailStat, Key.pwrRailDipCnt, regKey]
  omega

theorem pwrRailStat_ne_pwrDipCnt (r : Nat) : Key.pwrRailStat r ≠ Key.pwrDipCnt := by
  simp only [Key.pwrRailStat, Key.pwrDipCnt, regKey]
  omega

theorem pwrRailDipCnt_ne_pwrDipCnt (r : Nat) : Key.pwrRailDipCnt r ≠ Key.pwrDipCnt := by
  simp only [Key.pwrRailDipCnt, Key.pwrDipCnt, regKey]
  omega

/-- The registers of the rails' page that are no latch of it. -/
theorem pwrRailStat_not_mem_latchKeys {r : Nat} (hr : r ≤ 11) : Key.pwrRailStat r ∉ latchKeys pgPwr := by
  simp only [latchKeys, List.mem_cons, List.not_mem_nil, or_false, not_or, Key.pwrRailStat, Key.fltLatch, Key.fltInfo, Key.irqStat, regKey]
  omega

/-! ### The parts of a crossing -/

theorem State.railSample_frame (s : State) (r mv : Nat) :
    RegsBut [Key.pwrRailStat r, Key.pwrRailMin r] s (s.railSample r mv) ∧
      ∀ b, 0 < b → b < 16 → (s.railSample r mv).bit (Key.pwrRailStat r) b = s.bit (Key.pwrRailStat r) b := by
  unfold State.railSample
  refine ⟨fun k hk => ?_, fun b hlow hhigh => ?_⟩
  · obtain ⟨hstat, hmin⟩ := by simpa using hk
    rw [State.reg_setFld_ne _ _ _ _ hmin, State.reg_setBit_ne _ _ _ hstat, State.reg_setFld_ne _ _ _ _ hstat]
  · rw [State.bit_congr (State.reg_setFld_ne _ _ _ _ (pwrRailStat_ne_pwrRailMin r)), State.bit_setBit_ne _ _ (by decide) (by omega) (by omega),
      State.bit, State.fld_setFld_ne _ _ (by decide) (by omega) (.inl hhigh), State.bit]

theorem State.dropHold_frame (s : State) (r : Nat) : RegsBut [Key.pwrRailStat r] s (s.dropHold r) ∧
    (s.dropHold r).bit (Key.pwrRailStat r) 2 = false ∧ ∀ h ∈ (s.dropHold r).power.hold, h.1 ≠ r :=
  ⟨fun _ hk => State.reg_setBit_ne _ _ _ (List.mem_singleton.not.1 hk), State.bit_setBit_same _ _ (by decide),
    fun _ hh => of_decide_eq_true (List.of_mem_filter (p := fun h : Nat × Nat => decide (h.1 ≠ r)) hh)⟩

@[simp] theorem State.dropHold_mem (s : State) (r : Nat) : (s.dropHold r).mem = s.mem := rfl
@[simp] theorem State.dropHold_out (s : State) (r : Nat) : (s.dropHold r).out = s.out := rfl

@[simp] theorem State.reg_dropAbove (s : State) (r k : Nat) : (s.dropAbove r).reg k = s.reg k := rfl

theorem State.mem_above_dropAbove (s : State) (r : Nat) : ∀ h ∈ (s.dropAbove r).power.above, h.1 ≠ r :=
  fun _ hh => of_decide_eq_true (List.of_mem_filter (p := fun h : Nat × Nat => decide (h.1 ≠ r)) hh)

/-- The limits of the Canvas dies touch their registers alone. -/
theorem State.limitUpdate_frame (s : State) : (∀ k, (∀ d < 4, k ≠ Key.cnvStat d) → s.limitUpdate.reg k = s.reg k) ∧
    s.limitUpdate.mem = s.mem ∧ s.limitUpdate.boot = s.boot := by
  unfold State.limitUpdate
  refine List.foldlRecOn (motive := fun t : State => (∀ k, (∀ d < 4, k ≠ Key.cnvStat d) → t.reg k = s.reg k) ∧ t.mem = s.mem ∧
    t.boot = s.boot) _ _ ⟨fun _ _ => rfl, rfl, rfl⟩ fun t ht d hd => ?_
  obtain ⟨hregs, hmem, hboot⟩ := ht
  have hdie : d < 4 := List.mem_range.1 (List.mem_of_mem_filter hd)
  exact ⟨fun k hk => (State.reg_setFld_ne _ _ _ _ (hk d hdie)).trans (hregs k hk), hmem, hboot⟩

theorem State.reg_setDip (s : State) {r k : Nat} (hfab : k ≠ Key.clkFab r) (hcanvas : ∀ d < 4, k ≠ Key.cnvStat d) (acts : Bool) :
    (s.setDip r acts).reg k = (s.setBit (Key.pwrRailStat r) 1 acts).reg k := by
  obtain ⟨hlimits, -, -⟩ := (s.setBit (Key.pwrRailStat r) 1 acts).limitUpdate_frame
  unfold State.setDip
  dsimp only
  split
  · exact State.reg_setFld_ne _ _ _ _ hfab
  · split
    · exact hlimits k hcanvas
    · rfl

theorem State.setDip_mem_boot (s : State) (r : Nat) (acts : Bool) :
    (s.setDip r acts).mem = s.mem ∧ (s.setDip r acts).boot = s.boot := by
  obtain ⟨-, hmem, hboot⟩ := (s.setBit (Key.pwrRailStat r) 1 acts).limitUpdate_frame
  unfold State.setDip
  dsimp only
  split
  · exact ⟨rfl, rfl⟩
  · split
    · exact ⟨hmem, hboot⟩
    · exact ⟨rfl, rfl⟩

/-- The divisor of a Spar while a dip acts on its rail. -/
theorem State.fld_clkFab_setDip (s : State) {r : Nat} (hr : r ≤ 3) : (s.setDip r true).fld (Key.clkFab r) 7 6 = 3 := by
  have hspar : s.setDip r true = (s.setBit (Key.pwrRailStat r) 1 true).setFld (Key.clkFab r) 7 6 3 := if_pos hr
  rw [hspar, State.fld_setFld_same _ _ (by decide)]
  rfl

/-- No register of the rails' page is one of the action. -/
theorem pwrKey_ne {k : Nat} (hlow : 0x1000 ≤ k) (hhigh : k < 0x1400) {r : Nat} (hr : r ≤ 11) :
    k ≠ Key.clkFab r ∧ ∀ d < 4, k ≠ Key.cnvStat d := by
  refine ⟨?_, fun d hd => ?_⟩
  · simp only [Key.clkFab, regKey]
    omega
  · simp only [Key.cnvStat, regKey]
    omega

theorem State.reg_pwr_setDip (s : State) {r k : Nat} (hr : r ≤ 11) (hlow : 0x1000 ≤ k) (hhigh : k < 0x1400) (acts : Bool) :
    (s.setDip r acts).reg k = (s.setBit (Key.pwrRailStat r) 1 acts).reg k := by
  obtain ⟨hfab, hcanvas⟩ := pwrKey_ne hlow hhigh hr
  exact s.reg_setDip hfab hcanvas acts

/-- The mark of a dip on its rail. -/
theorem State.bit_pwrRailStat_setDip (s : State) {r : Nat} (hr : r ≤ 11) (acts : Bool) :
    (s.setDip r acts).bit (Key.pwrRailStat r) 1 = acts ∧
      (s.setDip r acts).bit (Key.pwrRailStat r) 2 = s.bit (Key.pwrRailStat r) 2 := by
  have hstat : (s.setDip r acts).reg (Key.pwrRailStat r) = (s.setBit (Key.pwrRailStat r) 1 acts).reg (Key.pwrRailStat r) :=
    s.reg_pwr_setDip hr (by simp only [Key.pwrRailStat, regKey]; omega) (by simp only [Key.pwrRailStat, regKey]; omega) acts
  rw [State.bit_congr hstat, State.bit_congr hstat, State.bit_setBit_same _ _ (by decide),
    State.bit_setBit_ne _ _ (by decide) (by decide) (by decide)]
  exact ⟨rfl, rfl⟩

/-- A fault latched in the rails' page stays latched. -/
theorem State.Latched.setDip {s : State} {c : Nat} (h : s.Latched pgPwr c) {r : Nat} (hr : r ≤ 11) (acts : Bool) :
    (s.setDip r acts).Latched pgPwr c := by
  have hne := pwrRailStat_not_mem_latchKeys hr
  simp only [latchKeys, List.mem_cons, not_or] at hne
  obtain ⟨hlatch, -, hirq, -⟩ := hne
  exact h.congr ((s.reg_pwr_setDip hr (by decide) (by decide) acts).trans (State.reg_setBit_ne _ _ _ (Ne.symm hlatch)))
    ((s.reg_pwr_setDip hr (by decide) (by decide) acts).trans (State.reg_setBit_ne _ _ _ (Ne.symm hirq)))

/-- A rail beyond the Spars and the Canvas dies has no action: its dip is marked alone. -/
theorem State.setDip_of_high {r : Nat} (hr : 8 ≤ r) (s : State) (acts : Bool) :
    s.setDip r acts = s.setBit (Key.pwrRailStat r) 1 acts :=
  (if_neg (by omega)).trans (if_neg (by omega))

/-! ### Below the warning (R560, R561) -/

/-- A rail sampled, with no hold of its dip and no count towards a release. -/
def State.railFallen (s : State) (r mv : Nat) : State := ((s.railSample r mv).dropHold r).dropAbove r

theorem State.railFallen_frame (s : State) (r mv : Nat) : RegsBut [Key.pwrRailStat r, Key.pwrRailMin r] s (s.railFallen r mv) ∧
    (s.railFallen r mv).bit (Key.pwrRailStat r) 2 = false := by
  obtain ⟨hsample, -⟩ := s.railSample_frame r mv
  obtain ⟨hhold, hclear, -⟩ := (s.railSample r mv).dropHold_frame r
  refine ⟨fun k hk => ?_, hclear⟩
  rw [State.railFallen, State.reg_dropAbove, hhold k (fun h => hk (List.mem_cons.2 (.inl (List.mem_singleton.1 h)))), hsample k hk]

theorem exec_warningCrossing_of_low {s : State} {r : BitVec 4} {mv : MilliVolt} (hr : r.toNat ≤ 11) (hpwr : s.pins.pwrOk = true)
    (hlow : 2 * mv < railWarn r.toNat) : exec (.warningCrossing r mv) s =
      .next (((s.railFallen r.toNat mv).latch pgPwr 0 r.toNat).setDip r.toNat true) := if_pos ⟨hr, hpwr, hlow⟩

/-! ### Above the release (R561, R562) -/

/-- The hold of a rail's dip begins. -/
def State.holdBegins (s : State) (r : Nat) : State :=
  ({ s with power := { s.power with hold := s.power.hold ++ [(r, s.tick)] } } : State).setBit (Key.pwrRailStat r) 2 true

/-- A rail that its supply reset holds: the time above release begins to count. -/
def State.countsAbove (s : State) (r : Nat) : State :=
  if r ∈ s.power.supply ∧ (s.power.above.any fun h => decide (h.1 = r)) = false then
    { s with power := { s.power with above := s.power.above ++ [(r, s.tick)] } }
  else s

theorem State.countsAbove_of_none {s : State} (h : s.power.supply = []) (r : Nat) : s.countsAbove r = s :=
  if_neg fun hheld => absurd hheld.1 (by rw [h]; exact List.not_mem_nil)

theorem exec_releaseCrossing (r : BitVec 4) (mv : MilliVolt) (s : State) : exec (.releaseCrossing r mv) s =
    if 11 < r.toNat ∨ s.pins.pwrOk = false ∨ 2 * mv ≤ railRelease r.toNat then .next s
    else if railMax r.toNat < 2 * mv then .fault .beyondRatings
    else
      let t := (s.railSample r.toNat mv).countsAbove r.toNat
      .next (if t.bit (Key.pwrRailStat r.toNat) 1 = true ∧ t.bit (Key.pwrRailStat r.toNat) 2 = false then t.holdBegins r.toNat else t) := rfl

theorem release_not_ignored {s : State} {r mv : Nat} (hr : r ≤ 11) (hpwr : s.pins.pwrOk = true) (habove : railRelease r < 2 * mv) :
    ¬(11 < r ∨ s.pins.pwrOk = false ∨ 2 * mv ≤ railRelease r) :=
  not_or.2 ⟨Nat.not_lt.2 hr, not_or.2 ⟨fun h => Bool.false_ne_true (h.symm.trans hpwr), Nat.not_le.2 habove⟩⟩

theorem exec_releaseCrossing_of_dip {s : State} {r : BitVec 4} {mv : MilliVolt} (hr : r.toNat ≤ 11) (hpwr : s.pins.pwrOk = true)
    (habove : railRelease r.toNat < 2 * mv) (hrated : 2 * mv ≤ railMax r.toNat) (hsupply : s.power.supply = [])
    (hdip : s.bit (Key.pwrRailStat r.toNat) 1 = true) (hhold : s.bit (Key.pwrRailStat r.toNat) 2 = false) :
    exec (.releaseCrossing r mv) s = .next ((s.railSample r.toNat mv).holdBegins r.toNat) := by
  have hnone : (s.railSample r.toNat mv).power.supply = [] := hsupply
  obtain ⟨-, hbits⟩ := s.railSample_frame r.toNat mv
  rw [exec_releaseCrossing, if_neg (release_not_ignored hr hpwr habove), if_neg (Nat.not_lt.2 hrated), State.countsAbove_of_none hnone]
  exact congrArg Outcome.next (if_pos ⟨(hbits 1 (by decide) (by decide)).trans hdip, (hbits 2 (by decide) (by decide)).trans hhold⟩)

theorem exec_releaseCrossing_beyond {s : State} {r : BitVec 4} {mv : MilliVolt} (hr : r.toNat ≤ 11) (hpwr : s.pins.pwrOk = true)
    (habove : railRelease r.toNat < 2 * mv) (hbeyond : railMax r.toNat < 2 * mv) :
    exec (.releaseCrossing r mv) s = .fault .beyondRatings := by
  rw [exec_releaseCrossing, if_neg (release_not_ignored hr hpwr habove), if_pos hbeyond]

theorem State.holdBegins_frame (s : State) (r : Nat) : (s.holdBegins r).bit (Key.pwrRailStat r) 2 = true ∧
    RegsBut [Key.pwrRailStat r] s (s.holdBegins r) :=
  ⟨State.bit_setBit_same _ _ (by decide), fun _ hk => State.reg_setBit_ne _ _ _ (List.mem_singleton.not.1 hk)⟩

/-! ### The end of a dip's hold (R561) -/

/-- A dip that has ended, counted. -/
def State.dipEnded (s : State) (r : Nat) : State := (((s.dropHold r).setDip r false).inc (Key.pwrRailDipCnt r)).inc Key.pwrDipCnt

theorem exec_dipRecovered_of_held {s : State} {r : BitVec 4} (hhold : (r.toNat, s.tick - 1000) ∈ s.power.hold) (htick : 1000 ≤ s.tick) :
    exec (.dipRecovered r) s = .next (s.dipEnded r.toNat) := by
  refine congrArg Outcome.next (if_pos (List.any_eq_true.2 ⟨_, hhold, ?_⟩))
  simp only [decide_true, Bool.true_and, decide_eq_true_eq]
  omega

theorem State.dipEnded_frame (s : State) {r : Nat} (hr : 8 ≤ r) :
    (s.dipEnded r).bit (Key.pwrRailStat r) 1 = false ∧ (s.dipEnded r).bit (Key.pwrRailStat r) 2 = false ∧
      (∀ h ∈ (s.dipEnded r).power.hold, h.1 ≠ r) ∧ (s.dipEnded r).reg Key.pwrDipCnt = satInc (s.reg Key.pwrDipCnt) ∧
      (s.dipEnded r).reg (Key.pwrRailDipCnt r) = satInc (s.reg (Key.pwrRailDipCnt r)) ∧
      RegsBut [Key.pwrRailStat r, Key.pwrRailDipCnt r, Key.pwrDipCnt] s (s.dipEnded r) ∧ (s.dipEnded r).mem = s.mem ∧
      (s.dipEnded r).out = s.out := by
  obtain ⟨hhold, hclear, hgone⟩ := s.dropHold_frame r
  have hdip : RegsBut [Key.pwrRailStat r] (s.dropHold r) ((s.dropHold r).setDip r false) := fun k hk => by
    rw [State.setDip_of_high hr, State.reg_setBit_ne _ _ _ (List.mem_singleton.not.1 hk)]
  have hmarked : RegsBut [Key.pwrRailStat r] s ((s.dropHold r).setDip r false) := fun k hk => (hdip k hk).trans (hhold k hk)
  have hcounted : RegsBut [Key.pwrRailDipCnt r] ((s.dropHold r).setDip r false) (((s.dropHold r).setDip r false).inc (Key.pwrRailDipCnt r)) :=
    RegsBut.inc rfl _
  have hended : RegsBut [Key.pwrDipCnt] (((s.dropHold r).setDip r false).inc (Key.pwrRailDipCnt r)) (s.dipEnded r) := RegsBut.inc rfl _
  have hstat : (s.dipEnded r).reg (Key.pwrRailStat r) = ((s.dropHold r).setBit (Key.pwrRailStat r) 1 false).reg (Key.pwrRailStat r) := by
    rw [hended _ (List.mem_singleton.not.2 (pwrRailStat_ne_pwrDipCnt r)),
      hcounted _ (List.mem_singleton.not.2 (pwrRailStat_ne_pwrRailDipCnt r)), State.setDip_of_high hr]
  have hkept : (s.dipEnded r).power = (s.dropHold r).power ∧ (s.dipEnded r).mem = s.mem ∧ (s.dipEnded r).out = s.out := by
    rw [State.dipEnded, State.setDip_of_high hr]
    simp
  obtain ⟨hpower, hmem, hout⟩ := hkept
  refine ⟨?_, ?_, hpower ▸ hgone, ?_, ?_, (hmarked.trans hcounted).trans hended, hmem, hout⟩
  · rw [State.bit_congr hstat, State.bit_setBit_same _ _ (by decide)]
  · rw [State.bit_congr hstat, State.bit_setBit_ne _ _ (by decide) (by decide) (by decide), hclear]
  · rw [State.dipEnded, State.inc, State.reg_setReg_same, hcounted _ (List.mem_singleton.not.2 (pwrRailDipCnt_ne_pwrDipCnt r).symm),
      hmarked _ (List.mem_singleton.not.2 (pwrRailStat_ne_pwrDipCnt r).symm)]
  · rw [hended _ (List.mem_singleton.not.2 (pwrRailDipCnt_ne_pwrDipCnt r)), State.inc, State.reg_setReg_same,
      hmarked _ (List.mem_singleton.not.2 (pwrRailStat_ne_pwrRailDipCnt r).symm)]

/-! ### Below the reset threshold (R562; 26 R639) -/

/-- A rail below its reset threshold: its dip has ended uncounted, and the fault stands. -/
def State.supplyFails (s : State) (r mv : Nat) : State := ((s.railFallen r mv).setDip r false).latch pgPwr 2 r

theorem exec_resetCrossing_of_package {s : State} {r : BitVec 4} {mv : MilliVolt} (hpackage : 10 ≤ r.toNat) (hr : r.toNat ≤ 11)
    (hpwr : s.pins.pwrOk = true) (hlow : 2 * mv < railReset r.toNat) :
    exec (.resetCrossing r mv) s = .next ((s.supplyFails r.toNat mv).packageReset 9) :=
  congrArg Outcome.next ((if_pos ⟨hr, hpwr, hlow⟩).trans (if_pos hpackage))

/-- The die of a rail is held by its supply. -/
def State.supplyHolds (s : State) (r : Nat) : State :=
  { s with power := { s.power with supply := (s.power.supply.filter fun x => decide (x ≠ r)) ++ [r] } }

theorem exec_resetCrossing_of_die {s : State} {r : BitVec 4} {mv : MilliVolt} (hdie : r.toNat ≤ 9)
    (hpwr : s.pins.pwrOk = true) (hlow : 2 * mv < railReset r.toNat) :
    exec (.resetCrossing r mv) s = .next (((s.supplyFails r.toNat mv).supplyHolds r.toNat).dieReset r.toNat 0x10) :=
  congrArg Outcome.next ((if_pos ⟨by omega, hpwr, hlow⟩).trans (if_neg (by omega)))

theorem State.boot_supplyFails (s : State) (r mv : Nat) : (s.supplyFails r mv).boot = s.boot := by
  obtain ⟨-, hboot⟩ := (s.railFallen r mv).setDip_mem_boot r false
  rw [State.supplyFails, State.latch_boot, hboot]
  rfl

/-! ### A supply above release (R562) -/

/-- A rail that has been above release long enough: its supply holds the die no more. -/
def State.supplyBack (s : State) (r mv : Nat) : State :=
  let t := (s.railSample r mv).dropAbove r
  { t with power := { t.power with supply := t.power.supply.filter fun x => decide (x ≠ r) } }

theorem exec_dieSupplyRelease_of_long {s : State} {r : BitVec 4} {mv : MilliVolt} {t0 : Nat} (habove : (r.toNat, t0) ∈ s.power.above)
    (hlong : t0 + 100000 ≤ s.tick) (hrelease : railRelease r.toNat < 2 * mv) (hrated : 2 * mv ≤ railMax r.toNat) :
    exec (.dieSupplyRelease r mv) s = .next (s.supplyBack r.toNat mv) := by
  refine congrArg Outcome.next (if_pos ⟨List.any_eq_true.2 ⟨_, habove, ?_⟩, hrelease, hrated⟩)
  rw [decide_eq_true rfl, decide_eq_true hlong]
  rfl

theorem State.supplyBack_frame (s : State) (r mv : Nat) : r ∉ (s.supplyBack r mv).power.supply ∧
    (∀ h ∈ (s.supplyBack r mv).power.above, h.1 ≠ r) ∧ RegsBut [Key.pwrRailStat r, Key.pwrRailMin r] s (s.supplyBack r mv) := by
  obtain ⟨hregs, -⟩ := s.railSample_frame r mv
  exact ⟨fun h => of_decide_eq_true (List.of_mem_filter (p := fun x => decide (x ≠ r)) h) rfl,
    (s.railSample r mv).mem_above_dropAbove r, hregs⟩

/-- Settles O52: each crossing by the sample, the hold and the dip that it is made of; dips act and count on every rail, and a reset
crossing ends one uncounted (log entry 118). -/
theorem rails : Obligations.Rails := by
  unfold Obligations.Rails
  refine ⟨?_, ?_, ?_, ?_, ?_, ?_, ?_⟩
  · intro s r mv hr hpwr hlow
    obtain ⟨-, hclear⟩ := s.railFallen_frame r.toNat mv
    obtain ⟨hlatched, hregs, hmem⟩ := (s.railFallen r.toNat mv).latch_frame pgPwr (c := 0) r.toNat (by decide)
    refine ⟨_, exec_warningCrossing_of_low hr hpwr hlow, ?_⟩
    have hstart : SameMemory s (s.railFallen r.toNat mv) := .of_mem rfl
    have hhold : ((s.railFallen r.toNat mv).latch pgPwr 0 r.toNat).bit (Key.pwrRailStat r.toNat) 2 = false :=
      (State.bit_congr (hregs _ (pwrRailStat_not_mem_latchKeys hr)) 2).trans hclear
    generalize (s.railFallen r.toNat mv).latch pgPwr 0 r.toNat = t at hlatched hmem hhold ⊢
    obtain ⟨hdip, hkept⟩ := t.bit_pwrRailStat_setDip hr true
    obtain ⟨hsame, -⟩ := t.setDip_mem_boot r.toNat true
    exact ⟨hdip, hkept.trans hhold, hlatched.setDip hr true, fun hspar => t.fld_clkFab_setDip hspar,
      SameMemory.trans hstart (SameMemory.trans hmem (.of_mem hsame))⟩
  · intro s r mv hr hpwr habove hrated hsupply hdip hhold
    obtain ⟨hsample, -⟩ := s.railSample_frame r.toNat mv
    obtain ⟨hholds, hbegun⟩ := (s.railSample r.toNat mv).holdBegins_frame r.toNat
    refine ⟨_, exec_releaseCrossing_of_dip hr hpwr habove hrated hsupply hdip hhold, hholds, rfl, fun k hk => ?_, .of_mem rfl, rfl⟩
    exact (hbegun k fun h => hk (List.mem_cons.2 (.inl (List.mem_singleton.1 h)))).trans (hsample k hk)
  · intro s r mv hr hpwr habove hbeyond
    exact exec_releaseCrossing_beyond hr hpwr habove hbeyond
  · intro s r hlow _ hhold htick
    obtain ⟨hdip, hclear, hgone, hcount, hrail, hregs, hmem, hout⟩ := s.dipEnded_frame hlow
    exact ⟨_, exec_dipRecovered_of_held hhold htick, hdip, hclear, hgone, hcount, hrail, hregs, .of_mem hmem, hout⟩
  · intro s r mv hpackage hr hpwr hlow
    exact exec_resetCrossing_of_package hpackage hr hpwr hlow
  · intro s r mv hdie hpwr hlow hrunning
    have hout : r.toNat ∉ ((s.supplyFails r.toNat mv).supplyHolds r.toNat).boot.inReset := by
      rw [show ((s.supplyFails r.toNat mv).supplyHolds r.toNat).boot = (s.supplyFails r.toNat mv).boot from rfl, s.boot_supplyFails]
      exact hrunning
    obtain ⟨hheld, hshown⟩ := State.dieReset_frame hout hdie 0x10
    exact ⟨_, exec_resetCrossing_of_die hdie hpwr hlow, hheld, hshown⟩
  · intro s r mv t0 habove hlong hrelease hrated
    obtain ⟨hsupply, hgone, hregs⟩ := s.supplyBack_frame r.toNat mv
    exact ⟨_, exec_dieSupplyRelease_of_long habove hlong hrelease hrated, hsupply, hgone, hregs, .of_mem rfl, rfl⟩

end Sys2Proof.Machine
end
